-- ==== Sys2Proof/Word.lean ====
section
/-! DEFINITION. The plain words of the model: mailbox and register words (R5), bytes, the index types of the device's
numbered objects (R16, R43, R72, R534), and the list shape that every sparse table of the State has. -/

namespace Sys2Proof

/-- A mailbox word, a register, a micro-word operand (R5). -/
abbrev Word := BitVec 32

/-- A byte of host memory, of a frame or of the flash. -/
abbrev Byte := BitVec 8

/-- A sparse table: pairs of a key and a value, keys strictly rising. What an unlisted key holds is said where the table is read. -/
abbrev KMap (α : Type) := List (Nat × α)

/-- A mailbox identity that the hardware can stamp: 0x00 to 0x12 (R50). -/
abbrev Chan := Fin 19

/-- A PCIe function, 0 the physical one (R45). -/
abbrev Fn := Fin 16

/-- A Span, 0 to 31 (R16). -/
abbrev SpanIx := Fin 32

/-- A Pier of a Span: 0 the H-pier, 1 the X-pier, 2 the G-pier. -/
abbrev PierIx := Fin 3

/-- An ONU index of a Span (R43). -/
abbrev OnuIx := Fin 512

/-- A power domain (R121). -/
abbrev DomIx := Fin 72

/-- A tenant slice (R26). -/
abbrev SliceIx := Fin 16

/-- A serial lane, 0 to 127 (R450). -/
abbrev LaneIx := Fin 128

/-- An Ethernet port, 0 to 23 (R452). -/
abbrev PortIx := Fin 24

/-- A queue number (R357). -/
abbrev QueueIx := Fin 1048576

/-- A loop bus, 0 to 7 (R425). -/
abbrev BusIx := Fin 8

end Sys2Proof
end

