-- ==== Sys2Proof/Machine/Records.lean ====
section
/-! DEFINITION. Records that both the State and the commands carry: activation states, maps, and what the line, the mate and
the shelf send, field by field (R173, R247, R480, R507, R510, R526). -/

namespace Sys2Proof.Machine

/-- An activation state (R173). -/
inductive OnuSt where
  | inactive | held | ranging | registering | active | deactivating | disabled
  deriving DecidableEq, Repr

/-- A granted burst, discovery window or ranging window of a map: kind 0 burst, 1 ranging, 2 discovery; `start` its StartTime, `n`
the units it occupies, `units` those charged to its slice, each allocation with its size and DBRu flag. -/
structure Grant where
  kind : Nat
  onu : Option Nat
  start : Nat
  prof : Nat
  ploamu : Bool
  allocs : List (Nat × Nat × Bool)
  n : Nat
  units : Nat
  slice : Nat
  deriving DecidableEq, Repr

/-- The entries of a grant that are allocations of the table; one with a number from 2048 on is on the default Alloc-ID of its ONU. -/
def Grant.served (g : Grant) : List (Nat × Nat × Bool) := g.allocs.filter fun a => a.1 < 2048

/-- A burst profile (R140, R168). -/
structure BProf where
  rate : Nat
  fec : Bool
  splice : Bool
  valid : Bool
  dmax : Nat
  reps : Nat
  delimBits : Nat
  preamble : Nat
  delimiter : Nat
  deriving DecidableEq, Repr

/-- A map as sealed or mirrored: its grants in order, the units reserved, and the burst profiles with which it was made (R41, R246,
R247). -/
structure PMap where
  grants : List Grant
  reserved : Nat
  profs : KMap BProf := []
  deriving DecidableEq, Repr

/-- An expected entry (R181). -/
structure Expected where
  pier : Nat
  serial : BitVec 64
  auto : Bool
  regCheck : Bool
  reg : List Byte
  deriving DecidableEq, Repr

/-- A mirror record's envelope: its sequence number and its Span (R507). -/
structure MirHead where
  rseq : Nat
  span : SpanIx
  deriving DecidableEq, Repr

/-- A MAP record: the superframe counter and the sealed map of each Pier (R510). -/
structure MirMap where
  sfc : Nat
  maps : List (Nat × PMap)
  deriving DecidableEq, Repr

/-- An ONU record (R510); O and the cumulative correction in ps. -/
structure MirOnu where
  onu : OnuIx
  st : OnuSt
  pier : PierIx
  onuId : Option Nat
  rate : Nat
  eqd : Nat
  offset : Rat
  cumul : Rat
  expect : Option Expected
  deriving DecidableEq, Repr

/-- An ALLOC record: words 5 to 8 and 12 to 15 of the allocation record (R510). -/
structure MirAlloc where
  alloc : Fin 2048
  words : List Word
  deriving DecidableEq, Repr

/-- A KEY record: the ONU, or none and a Pier for a broadcast key; slot index, 0 for the MSK, 3 for the PLOAM_IK, 4 for the KEK; slot state, age and the wrapped key (R418). -/
structure MirKey where
  onu : Option OnuIx
  pier : PierIx
  index : Fin 5
  state : Fin 5
  age : Nat
  wrapped : List Byte
  deriving DecidableEq, Repr

/-- A transaction item of a COMMIT record: its call code, its words from word 1 on, and the bytes read for it. -/
structure MirItem where
  code : BitVec 16
  words : List Word
  dma : List Byte
  deriving DecidableEq, Repr

/-- A COMMIT record: the pair-shared items and the apply point, in apply points of the timebase (R510). -/
structure MirCommit where
  items : List MirItem
  point : Nat
  deriving DecidableEq, Repr

/-- A SPAN record: Teqd of each Pier in ns, least and greatest distance, DIFF and MARGIN where the format carries them, open state
(R510, R523). -/
structure MirSpan where
  teqd : List Nat
  reach : Nat × Nat
  opened : Bool
  model : Option (Nat × Nat)
  deriving DecidableEq, Repr

/-- The overhead of an AU-4 in a received frame: pointer word H1 H2, B3 violations, J1, C2, G1, H4 (R480 to R484). -/
structure AuIn where
  ptr : Nat
  b3 : Nat
  j1 : Byte
  c2 : Nat
  g1 : Nat
  h4 : Nat
  deriving DecidableEq, Repr

/-- The overhead of a TU-12 whose multiframe completes in a received frame: position, V1 V2, BIP-2 violations, J2, V5. -/
structure TuIn where
  pos : Fin 1008
  ptr : Nat
  bip : Nat
  j2 : Byte
  v5 : Nat
  deriving DecidableEq, Repr

/-- A received STM-16 frame: where the 48-bit pattern stands in the 311,040 descrambled bits of a frame's time, rising, and the overhead
as it stands in frame (R478 to R484). -/
structure StmFrame where
  hits : List Nat
  b1 : Nat
  b2 : Nat
  m1 : Nat
  k1 : Nat
  k2 : Nat
  j0 : Byte
  aus : List AuIn
  tus : List TuIn
  deriving DecidableEq, Repr

/-- The header of a Lanyard frame (R525). -/
structure LanHead where
  src : Nat
  dst : Nat
  shelf : Word
  tag : BitVec 64
  fseq : BitVec 16
  deriving DecidableEq, Repr

/-- A registry answer or entry: result, home worker, Span, slice, REG_CHECK and REG_ID (R526, R528). -/
structure RegEntry where
  worker : Nat
  span : Nat
  slice : Nat
  check : Bool
  reg : List Byte
  deriving DecidableEq, Repr

/-- One line of a USAGE report: slice, port, bytes, waits (R526). -/
structure UsageLine where
  slice : SliceIx
  port : PortIx
  bytes : Nat
  waits : Nat
  deriving DecidableEq, Repr

end Sys2Proof.Machine
end

