-- ==== Sys2Proof/Syntax.lean ====
section
/-! DEFINITION. The commands of the block: one constructor of Instr per row of the opcode table, in the table's order, with
the row's operands. A call row takes the message as Saend reads it (R55 to R58); the other rows take what the host, the line
or the board supplies. -/

namespace Sys2Proof

open Sys2Proof.Machine

/-- A call as Saend reads it: the channel whose identity the hardware stamped, its SEQUENCE, its payload words, and the bytes
that Saend reads by DMA for it (R50, R55, R58). The call code is the constructor's. -/
structure Call where
  chan : Chan
  seq : BitVec 4
  words : List Word
  dma : List Byte
  deriving DecidableEq, Repr

/-- What a Pier's line showed in the 125 µs frame that ends: the Pier, 3 × Span + Pier, and signal outside every grant (R158). -/
structure LineWatch where
  pier : Fin 96
  rogue : Bool
  deriving DecidableEq, Repr

/-- A delimiter match and the header that follows it (R151): the bit position of its first bit counted from the window start,
the ONU-ID that the header carries, whether the header's check holds, and its indications: dying gasp, remote defect (R156). -/
structure BurstHead where
  pos : Nat
  onuId : Nat
  headerOk : Bool
  dyingGasp : Bool
  rdi : Bool
  deriving DecidableEq, Repr

/-- The receiver state that a burst's adaptation leaves (R144 to R147): the taps c-7 first, d1, d2, gain and phase, the mean
squared error over the last 1,024 symbols in -0.25 dB steps, whether no tap moved by more than one step in them, and the
symbols after the delimiter. -/
structure Adapted where
  ffe : List (BitVec 8)
  dfe1 : BitVec 7
  dfe2 : BitVec 7
  gain : BitVec 6
  phase : BitVec 6
  mse : BitVec 8
  steady : Bool
  symbols : Nat
  deriving DecidableEq, Repr

/-- A delineated upstream frame (R153 to R155): the allocation and line port ID, whether its header check holds, whether it
overlapped an uncorrectable codeword, whether it is an idle frame, the key index of its header, its position in the upstream frame,
which forms its counter block (R394), and the payload as received. -/
structure GemUp where
  alloc : Nat
  portId : Nat
  headerOk : Bool
  overlapBad : Bool
  idle : Bool
  keyIx : Nat
  pos : Nat
  payload : List Byte
  deriving DecidableEq, Repr

/-- A serial number burst (R180): its upstream rate and where it began, in 1/64 of a bit from the window's start. -/
structure SnBurst where
  rate : Nat
  k64 : Nat
  deriving DecidableEq, Repr

/-- A fragment of a key that an ONU reports (R395): key index, number, whether it is the last, and its bytes. -/
structure KeyFrag where
  keyIx : Nat
  frag : Nat
  last : Bool
  bytes : List Byte
  deriving DecidableEq, Repr

/-- What is demapped of an E1 for one packet (R494): its bytes, in an aligned circuit from a frame's timeslot 0 on, and the instant of the
first, in ps. -/
structure E1Run where
  bytes : List Byte
  first : Nat
  deriving DecidableEq, Repr

/-- A shaper of the queue tree (R373, R386). -/
inductive NodeRef where
  | l1 (g : Fin 4) (n : Fin 8192)
  | l2 (g : Fin 4) (n : Fin 65536)
  | queue (q : QueueIx)
  | budget (slice : SliceIx) (port : PortIx)
  deriving DecidableEq, Repr

/-- The commands, one constructor per row of the opcode table. -/
inductive Instr where
  /-- MBX_IN_DATA_WRITE (R56). A word written to MBX_IN_DATA joins the tail of the inbound queue and is framed as a header or payload word, with its identity stamped. -/
  | mbxInDataWrite (ch : Chan) (w : Word)
  /-- MBX_IN_ABORT (R54). A write of 1 to MBX_IN_STATUS.ABORT discards the partly written message so that the next word is a header. -/
  | mbxInAbort (ch : Chan)
  /-- MBX_IN_COLLISION_CLEAR (R64). A write of 1 to MBX_IN_STATUS.COLLISION clears the inbound collision flag and ends the collision. -/
  | mbxInCollisionClear (ch : Chan)
  /-- MBX_OUT_DATA_READ (R54). A read of MBX_OUT_DATA returns the head word of the outbound queue and pops it, or returns 0 from an empty queue. -/
  | mbxOutDataRead (ch : Chan)
  /-- MBX_OUT_COLLISION_CLEAR (R54). A write of 1 to MBX_OUT_STATUS.COLLISION clears the outbound collision flag. -/
  | mbxOutCollisionClear (ch : Chan)
  /-- MBX_IRQ_CTRL_WRITE (R54). A write to MBX_IRQ_CTRL sets the interrupt enables and threshold, raising the inbound space interrupt when IN_SPACE_EN goes from 0 to 1 with FREE at or above the threshold. -/
  | mbxIrqCtrlWrite (fn : Fn) (w : Word)
  /-- CLEAT_READ (R73). A read of a Cleat claims it if it is free and the reader may use it, and otherwise reports the holder or 0x0000_00FF. -/
  | cleatRead (ch : Chan) (n : Fin 64)
  /-- CLEAT_WRITE (R75). A write of 0 from a permitted identity releases the Cleat; other values are ignored. -/
  | cleatWrite (ch : Chan) (n : Fin 64) (w : Word)
  /-- TB_SNAP_TAKE (R216). A write of 1 to TB_SNAP_CTRL.TAKE latches the timebase counter and its status fields at the next tick and advances SEQ. -/
  | tbSnapTake (fn : Fn)
  /-- EVT_PEND_READ (R539). A read of EVT_PENDg records the pending bits that a later write of 1 may clear. -/
  | evtPendRead (fn : Fn) (g : Fin 32)
  /-- EVT_PEND_CLEAR (R539). A write of 1 clears a pending bit unless an occurrence has set it since the last read, in which case the vector is raised again. -/
  | evtPendClear (fn : Fn) (g : Fin 32) (w : Word)
  /-- EVT_MASK_WRITE (R538). A write to EVT_MASKg sets the vector masks and raises the group's vector where a mask bit goes from 1 to 0 with its pending bit set. -/
  | evtMaskWrite (fn : Fn) (g : Fin 32) (w : Word)
  /-- RING_ENABLE (R93). A write of 1 to RING_CTRL.ENABLE starts the ring with both indices reset, or leaves the restart pending until ACTIVE reaches 0. -/
  | ringEnable (fn : Fn) (r : Fin 4) (w : Word)
  /-- RING_DISABLE (R93). A write of 0 to RING_CTRL.ENABLE stops the ring after the descriptor in progress. -/
  | ringDisable (fn : Fn) (r : Fin 4) (w : Word)
  /-- RING_STOP_COMPLETE (R93). The descriptor in progress on a disabled ring completes, ACTIVE falls to 0 and any pending restart runs. -/
  | ringStopComplete (fn : Fn) (r : Fin 4)
  /-- RING_PROD_WRITE (R92). The host advances RING_PROD on ring 0 or 3, handing descriptors to the device. -/
  | ringProdWrite (fn : Fn) (r : Fin 4) (w : Word)
  /-- OMCI_TX_DESCRIPTOR (R95). The device takes an OMCI_TX descriptor, checks ownership and length, sends the message on the ONU's OMCC and completes the descriptor. -/
  | omciTxDescriptor (fn : Fn) (desc : List Word) (buf : List Byte)
  /-- PUNT_TX_DESCRIPTOR (R95). The device takes a PUNT_TX descriptor, checks the queue's ownership and length, and enters the packet into its queue. -/
  | puntTxDescriptor (fn : Fn) (desc : List Word) (buf : List Byte)
  /-- RING_STATUS_CLEAR (R92). A write of 1 clears the TRUNC, OWNER_DROP or FAULT bit of RING_STATUS. -/
  | ringStatusClear (fn : Fn) (r : Fin 4) (w : Word)
  /-- RING_IRQ_TIMEOUT (R92). 50 µs after the first uncounted completion the ring's MSI-X vector is raised. -/
  | ringIrqTimeout (fn : Fn) (r : Fin 4)
  /-- RING_PCIE_FAULT (R92). A PCIe completion error sets RING_STATUS.FAULT and stops the ring. -/
  | ringPcieFault (fn : Fn) (r : Fin 4)
  /-- REGISTER_WRITE (R7). A write to a BAR0 or SMBus register that has no row of its own acts as its access type states. -/
  | registerWrite (ch : Chan) (offset : BitVec 16) (w : Word)
  /-- BAD_CALL_RECEIVED (R6). Saend reads a message with an unknown, reserved, outbound-only or not-yet-introduced call code and answers BAD_CALL. -/
  | badCallReceived (code : BitVec 16) (c : Call)
  /-- MARKED_MESSAGE_DISCARD (R64). Saend reads a message containing a marked word and discards it without a response, counting the discard. -/
  | markedMessageDiscard (ch : Chan)
  /-- OUTBOUND_BACKLOG_MOVE (R65). Once host reads free room, Saend moves the head message of the channel's backlog into the outbound queue. -/
  | outboundBacklogMove (ch : Chan)
  /-- EVENT_RATE_WINDOW_END (R104). The 1 ms limit on event messages for a source on a channel ends, and held occurrences are carried in the next message. -/
  | eventRateWindowEnd (ch : Chan) (src : Fin 1024)
  /-- SESSION_OPEN (R78). Negotiates an API version and opens a session on the channel, closing any old one first. -/
  | sessionOpen (c : Call)
  /-- SESSION_CLOSE (R80). Closes the channel's session, rolling back open transactions and clearing its event message masks. -/
  | sessionClose (c : Call)
  /-- SESSION_PING (R100). Echoes up to 14 payload words back to the caller. -/
  | sessionPing (c : Call)
  /-- TXN_BEGIN (R81). Opens a transaction and returns its handle. -/
  | txnBegin (c : Call)
  /-- TXN_COMMIT (R85). Validates a transaction as one whole and accepts it for an apply point, or refuses it with VALIDATION. -/
  | txnCommit (c : Call)
  /-- TXN_ROLLBACK (R87). Discards a transaction's staged items and releases its objects. -/
  | txnRollback (c : Call)
  /-- TXN_QUERY (R100). Returns a transaction's state and staged item count. -/
  | txnQuery (c : Call)
  /-- TXN_IDLE_TIMEOUT (R88). A transaction idle for 60 s is rolled back and the transaction-timeout event is raised. -/
  | txnIdleTimeout (handle : Word)
  /-- SLICE_CREATE (R100). Creates a slice, whose XTS key pair is drawn at the apply point. -/
  | sliceCreate (c : Call)
  /-- SLICE_DELETE (R29). Deletes a slice with no object in use and no binding, destroying its XTS key pair at the apply point. -/
  | sliceDelete (c : Call)
  /-- SLICE_BIND (R46). Binds an identity from 0x01 to 0x0F to a slice at the apply point. -/
  | sliceBind (c : Call)
  /-- SLICE_UNBIND (R46). Removes an identity's binding to a slice at the apply point. -/
  | sliceUnbind (c : Call)
  /-- CLEAT_ASSIGN (R76). Sets which identities may use a Cleat, without releasing a held Cleat. -/
  | cleatAssign (c : Call)
  /-- EVT_ROUTE_SET (R102). Sets a group's message mask, vector mask and vector for the caller. -/
  | evtRouteSet (c : Call)
  /-- EVT_ROUTE_GET (R102). Returns a group's routing for the caller. -/
  | evtRouteGet (c : Call)
  /-- EVT_DETAIL (R102). Returns a source's occurrence count since the caller's last read, its last time and detail words, and resets the count. -/
  | evtDetail (c : Call)
  /-- CNT_SNAPSHOT_COPY (R542). Writes the visible non-zero counters of the latest snapshot by DMA to the caller's buffer. -/
  | cntSnapshotCopy (c : Call)
  /-- CNT_READ (R541). Returns one counter's value in the latest snapshot. -/
  | cntRead (c : Call)
  /-- DEV_INFO (R133). Returns straps, SVNs and the owner key hash. -/
  | devInfo (c : Call)
  /-- DEV_ATTEST (R118). Builds and signs an attestation report and writes it by DMA or holds it for reading. -/
  | devAttest (c : Call)
  /-- DEV_CERT_READ (R119). Returns the device identity certificate chain by DMA or holds it for reading. -/
  | devCertRead (c : Call)
  /-- DEV_REPORT_READ (R133). Returns up to 14 words of the held report or certificate chain. -/
  | devReportRead (c : Call)
  /-- DEV_FLASH_WRITE (R114). Writes host data into the flash slot that is not running. -/
  | devFlashWrite (c : Call)
  /-- DEV_SLOT_SET (R114). Checks a slot's signature and digests and selects it for the next reset or for every reset. -/
  | devSlotSet (c : Call)
  /-- DEV_RESET (R107). Confirms a device reset, answering DONE 10 ms before the reset acts. -/
  | devReset (c : Call)
  /-- DEV_SVN_ADVANCE (R115). Raises the fused minimum SVN to the SVN of the running slot. -/
  | devSvnAdvance (c : Call)
  /-- OWNER_KEY_FUSE (R120). Burns the owner key hash into one-time fuses and reads it back. -/
  | ownerKeyFuse (c : Call)
  /-- PWR_DOMAIN_SET_ON (R121). Requests a domain switch-on, queued under the one-RAMP rule, or PENDING for a domain in DRAIN. -/
  | pwrDomainSetOn (c : Call)
  /-- PWR_DOMAIN_SET_OFF (R122). Requests a domain switch-off into DRAIN, or cancels a pending or waiting switch-on. -/
  | pwrDomainSetOff (c : Call)
  /-- PWR_DOMAIN_GET (R133). Returns a domain's power state. -/
  | pwrDomainGet (c : Call)
  /-- AVS_CONFIG (R129). Sets the RAISE and LOWER thresholds and the shed list. -/
  | avsConfig (c : Call)
  /-- THERMAL_CONFIG (R131). Sets the thermal warning threshold. -/
  | thermalConfig (c : Call)
  /-- THERMAL_READ (R133). Returns Tj, the VDD_CORE set-point, the lowest pace and core power. -/
  | thermalRead (c : Call)
  /-- POWER_ON_RESET (R107). PMB_RESET_N held low resets the whole device, including the PCIe link and measurement registers. -/
  | powerOnReset
  /-- RESET_RELEASE (R109). The rising edge of PMB_RESET_N samples the straps and starts the boot ROM. -/
  | resetRelease (role : Fin 4) (boot : Fin 2) (smb : Fin 8)
  /-- BOOT_ROM_CHECK_DONE (R112). The boot ROM finishes checking a slot's header, signature, SVN and bootloader digest, extends MEAS0 and starts the bootloader or tries the other slot. -/
  | bootRomCheckDone (readError : Bool)
  /-- BOOTLOADER_CHECK_DONE (R112). The bootloader finishes checking the Saend image and vendor bank, extends MEAS1 and MEAS2 and starts Saend. -/
  | bootloaderCheckDone (readError : Bool)
  /-- SAEND_READY (R112). Saend loads the vendor bank into every Truss and sets ID_READY.SAEND_READY once it serves the mailbox channels. -/
  | saendReady
  /-- DEVICE_RESET (R107). 10 ms after DEV_RESET answers, the device resets everything except the PCIe link and resamples the straps. -/
  | deviceReset (role : Fin 4) (boot : Fin 2) (smb : Fin 8)
  /-- PCIE_PERST (R107). PCIE_PERST_N low resets the PCIe endpoint and every function's BAR0 state and DMA rings. -/
  | pciePerst
  /-- FUNCTION_LEVEL_RESET (R49). A PCIe FLR of one function empties its mailbox queues, closes its session, releases its Cleats and disables its rings. -/
  | functionLevelReset (fn : Fn)
  /-- VF_DISABLE (R49). Disabling a virtual function has the effects of a function-level reset on its identity. -/
  | vfDisable (fn : Fn)
  /-- JTAG_TEST_RESET (R107). JTAG_TRST_N low resets the TAP controller only. -/
  | jtagTestReset
  /-- SAEND_WATCHDOG_EXPIRY (R108). The watchdog unserved for 100 ms starts a Saend restart, emptying mailbox queues and closing sessions. -/
  | saendWatchdogExpiry
  /-- SAEND_RESTART_COMPLETE (R108). Saend serves its channels again, sets SAEND_READY, raises source 968 and delivers the events of the restart. -/
  | saendRestartComplete
  /-- POWER_SWITCH_ON_TURN (R127). A queued switch-on reaches its turn with no domain in RAMP, rechecks its needs and raises VDD_CORE by 20 mV. -/
  | powerSwitchOnTurn
  /-- AVS_PRE_RAMP_WAIT_END (R128). 100 µs after the pre-RAMP voltage step the domain enters RAMP and Saend writes its committed configuration. -/
  | avsPreRampWaitEnd
  /-- RAMP_END (R122). A domain completes RAMP and is ON, answering its switch-on or entering DRAIN for a waiting OFF. -/
  | rampEnd
  /-- DRAIN_END (R122). A domain completes DRAIN and is OFF, losing its state and running any pending switch-on. -/
  | drainEnd (d : DomIx)
  /-- AVS_CONTROL_TICK (R128). Each millisecond Saend raises, lowers or holds VDD_CORE from the lowest pace. -/
  | avsControlTick
  /-- PACE_WINDOW_END (R34). A 10 µs pace window ends and each powered domain's pace monitor reports its mean speed. -/
  | paceWindowEnd (steps : List (DomIx × Nat))
  /-- PACE_ALARM (R129). A pace monitor's hardware alarm at 1,856 steps per µs makes Saend run a raise step at once. -/
  | paceAlarm (d : DomIx)
  /-- PACE_SHED_TIMEOUT (R130). Pace below the floor at 0.80 V for 10 ms makes Saend shed the next domain on the shed list. -/
  | paceShedTimeout
  /-- THERMAL_WARN (R131). Tj reaching WARN raises the thermal-warning event. -/
  | thermalWarn (tj : Int)
  /-- THERMAL_HOT_TIMEOUT (R131). Tj at or above 115 °C for 100 ms makes Saend shed the next domain whatever the pace. -/
  | thermalHotTimeout (tj : Int)
  /-- THERMAL_TRIP (R131). Tj at 125 °C makes hardware disable every Pier transmitter and switch every switchable domain off without DRAIN. -/
  | thermalTrip (tj : Int)
  /-- THERMAL_CLEAR (R131). Tj below 100 °C after a trip raises the thermal-clear event and lets slice 0 switch domains on again. -/
  | thermalClear (tj : Int)
  /-- PMB_ALERT (R535). PMB_ALERT_N asserted, or a regulator not answering, raises source 935. -/
  | pmbAlert (status : BitVec 16)
  /-- APPLY_POINT (R212). The timebase reaches a multiple of 125,000 ns, the common boundary at which committed changes take effect and frames start. -/
  | applyPoint (lines : List LineWatch)
  /-- MAP_CUTOFF (R245). At T + 117 µs each Pier's staging buffer is sealed and uncommitted entries are discarded. -/
  | mapCutoff (sp : SpanIx)
  /-- FINISH_ENTRY (R286). At the cutoff less FINISH_LEAD an unfinished routine is abandoned and FINISH runs the epilogue before resuming. -/
  | finishEntry (sp : SpanIx)
  /-- TRUSS_INIT_ENTRY (R286). INIT runs before grant start and after each OPEN_ACTIVATE. -/
  | trussInitEntry (sp : SpanIx)
  /-- TRUSS_MICROWORD (R276). A Truss executes one micro-word: operands, ALU and port operations, condition bits, commit and next address. -/
  | trussMicroword (sp : SpanIx) (words : Bool)
  /-- CALL_LIMIT_REACHED (R297). An open call whose next word would exceed CALL_LIMIT is ended and the vendor routine grants fixed and assured shares. -/
  | callLimitReached (sp : SpanIx)
  /-- SPAN_OPEN (R162). Checks the open conditions and puts the Span in the opening state, or returns PENDING on a closing Span. -/
  | spanOpen (c : Call)
  /-- SPAN_OPEN_TX_START (R163). At T0 enabled Piers transmit empty-map frames and receivers are enabled. -/
  | spanOpenTxStart (sp : SpanIx)
  /-- SPAN_OPEN_GRANT_START (R163). At T0 + 2 ms the Truss frame routine starts, the Span is open and DONE is sent. -/
  | spanOpenGrantStart (sp : SpanIx)
  /-- SPAN_CLOSE (R164). Puts the Span in the closing state and abandons activations in progress. -/
  | spanClose (c : Call)
  /-- SPAN_CLOSE_STOP_GRANTS (R164). At T0 the Truss stops and downstream admission to the Span's queues ends. -/
  | spanCloseStopGrants (sp : SpanIx)
  /-- SPAN_CLOSE_DEACTIVATE (R164). From T0 + 125 µs three frames carry empty maps and a broadcast Deactivate_ONU-ID. -/
  | spanCloseDeactivate (sp : SpanIx)
  /-- SPAN_CLOSE_TX_STOP (R164). At T0 + 500 µs transmitters and receivers stop, queued packets drop, ONUs go inactive and the Span is closed. -/
  | spanCloseTxStop (sp : SpanIx)
  /-- SPAN_STATUS (R168). Returns the Span's state, Pier defects and active ONU count. -/
  | spanStatus (c : Call)
  /-- PIER_CONFIG (R166). Sets a Pier's enable, rates, FEC, profile cycle and PON-ID. -/
  | pierConfig (c : Call)
  /-- PIER_PROFILE_SET (R140). Sets or withdraws a burst profile of a Pier. -/
  | pierProfileSet (c : Call)
  /-- PIER_DEFECT_CONFIG (R168). Sets defect thresholds and protection trigger enables. -/
  | pierDefectConfig (c : Call)
  /-- ONU_DEFECT_READ (R168). Returns an ONU's defects and its last SD window counts. -/
  | onuDefectRead (c : Call)
  /-- SPLICE_CONFIG (R148). Sets SPLICE_FAILS, SPLICE_AGE and SPLICE_MSE of an H-pier. -/
  | spliceConfig (c : Call)
  /-- SPLICE_CLEAR (R149). Clears an ONU's Splice VALID bit. -/
  | spliceClear (c : Call)
  /-- SPLICE_READ (R169). Returns an ONU's Splice as of its last write-back or clear. -/
  | spliceRead (c : Call)
  /-- SPLICE_LOAD (R145). 4.0 ns before a granted H-pier burst's expected first preamble bit the receiver loads the ONU's Splice or its default state. -/
  | spliceLoad (sp : SpanIx) (onu : OnuIx)
  /-- DELIMITER_MATCH (R151). A delimiter match within the search window is checked against its burst header and accepted or rejected as false. -/
  | delimiterMatch (sp : SpanIx) (pier : PierIx) (burst : BurstHead)
  /-- SEARCH_WINDOW_END (R152). A window ending with no accepted delimiter makes the burst missed. -/
  | searchWindowEnd (sp : SpanIx) (pier : PierIx)
  /-- BURST_LAST_BIT (R147). At a burst's last bit the receiver judges convergence and writes the Splice back when converged. -/
  | burstLastBit (sp : SpanIx) (pier : PierIx) (adapted : Adapted)
  /-- FEC_CODEWORD_DECODED (R153). An upstream FEC codeword is decoded and counted, and frames overlapping an uncorrectable codeword are discarded. -/
  | fecCodewordDecoded (sp : SpanIx) (pier : PierIx) (bits : Nat) (corrected : Option Nat) (bip : Nat)
  /-- DBRU_EXTRACTED (R154). A DBRu passing CRC-8 goes to the Truss status-report FIFO and record word 7, or is dropped. -/
  | dbruExtracted (sp : SpanIx) (pier : PierIx) (alloc : Fin 2048) (value : Nat) (crcOk : Bool)
  /-- PLOAMU_EXTRACTED (R154). An upstream PLOAM message passing its MIC or CRC goes to Saend, or is dropped. `msg` is the message and `check`
  its MIC, or on the G-pier its CRC. -/
  | ploamuExtracted (sp : SpanIx) (pier : PierIx) (msg check : List Byte)
  /-- UPSTREAM_XGEM_FRAME (R155). A complete upstream GEM or XGEM frame passing its checks is decrypted and passed to the pipeline or OMCI ring. -/
  | upstreamXgemFrame (sp : SpanIx) (pier : PierIx) (onu : OnuIx) (frame : GemUp)
  /-- ARRIVAL_MEASURED (R186). A burst's arrival time reaches the ranging block from its delimiter position and phase. -/
  | arrivalMeasured (sp : SpanIx) (onu : OnuIx) (k64 : Nat)
  /-- EQD_CONFIRM_TIMEOUT (R200). An 8 ms confirmation period ends unconfirmed and the Ranging_Time is sent again, or DFi is declared after 3 sends. -/
  | eqdConfirmTimeout (sp : SpanIx) (onu : OnuIx)
  /-- SPLICE_AGE_EXPIRY (R148). SPLICE_AGE passes since the last write-back and SPLICE_OK falls to 0. -/
  | spliceAgeExpiry (sp : SpanIx) (onu : OnuIx)
  /-- SD_WINDOW_END (R157). An SD window closes and SDi is declared or cleared from the error estimate. -/
  | sdWindowEnd (sp : SpanIx) (onu : OnuIx)
  /-- SF_WINDOW_END (R157). An SF window closes and SFi is declared or cleared from the error estimate. -/
  | sfWindowEnd (sp : SpanIx) (onu : OnuIx)
  /-- LOB_DEACT_TIMEOUT (R156). LOBi lasting LOB_DEACT ms makes Saend deactivate the ONU. -/
  | lobDeactTimeout (sp : SpanIx) (onu : OnuIx)
  /-- DGI_CLEAR_TIMEOUT (R156). 1 s after the last dying-gasp indication DGi clears. -/
  | dgiClearTimeout (sp : SpanIx) (onu : OnuIx)
  /-- PLOAM_REPLY_TIMEOUT (R156). No reply to 3 consecutive PLOAM messages declares LOPLi and Saend deactivates the ONU. -/
  | ploamReplyTimeout (sp : SpanIx) (onu : OnuIx)
  /-- PIER_TX_LOCK_LOSS (R460). A transmit PLL loses lock, TX-LOL is declared and the transmitter is muted. -/
  | pierTxLockLoss (lane : LaneIx)
  /-- TX_LOCK_HELD (R460). Lock held for 1 ms clears TX-LOL and transmission resumes. -/
  | txLockHeld (lane : LaneIx)
  /-- SN_RECEIVED (R174). Saend reads a serial number from a discovery window and activates, holds, counts or treats it as a duplicate. -/
  | snReceived (sp : SpanIx) (pier : PierIx) (serial : BitVec 64) (burst : SnBurst)
  /-- RANGING_BURST_ACCEPTED (R192). A ranging burst's RTD gives the EqD, Ranging_Time is sent and the registration request follows, or the ONU is out of reach. -/
  | rangingBurstAccepted (sp : SpanIx) (onu : OnuIx) (k64 : Nat)
  /-- REGISTRATION_RECEIVED (R185). Saend compares the returned registration ID and activates or disables the ONU. -/
  | registrationReceived (sp : SpanIx) (onu : OnuIx) (reg : List Byte)
  /-- REG_REQUEST_TIMEOUT (R174). No reply to a registration request, and after 3 the ONU is deactivated. -/
  | regRequestTimeout (sp : SpanIx) (onu : OnuIx)
  /-- KEY_REPORT_RECEIVED (R395). Saend unwraps a Key_Report under the KEK and loads the NEXT slot, fixing the switch frame. -/
  | keyReportReceived (sp : SpanIx) (onu : OnuIx) (frag : KeyFrag)
  /-- ENCRYPTION_KEY_RECEIVED (R396). Saend assembles G-pier Encryption_Key fragments into the NEXT slot and sends Key_Switching_Time. -/
  | encryptionKeyReceived (sp : SpanIx) (onu : OnuIx) (keyIx frag : Nat) (bytes : List Byte)
  /-- DEACTIVATING_END (R174). 375 µs after deactivation the ONU reaches INACTIVE or DISABLED, its Splice is cleared and queued packets drop. -/
  | deactivatingEnd (sp : SpanIx) (onu : OnuIx)
  /-- DISCOVERY_PERIOD (R178). Every DISC_PERIOD the Span opens discovery windows on all enabled Piers. -/
  | discoveryPeriod (sp : SpanIx)
  /-- DISC_ENTRY_EXPIRY (R182). A discovered-list entry unseen for 60 s is removed and a HELD index returns to INACTIVE. -/
  | discEntryExpiry (sp : SpanIx) (entry : Fin 64)
  /-- REG_ANSWER_TIMEOUT (R184). No registry answer within 2 s leaves the entry HELD. -/
  | regAnswerTimeout (sp : SpanIx) (serial : BitVec 64)
  /-- ROGUE_HALVING_WAIT_END (R206). 16 frames after disabling a half, Saend narrows the rogue search set. `lit` says whether light stood
  outside the grants just then; the search goes by the Pier's ROGUE defect, so it decides nothing. -/
  | rogueHalvingWaitEnd (sp : SpanIx) (pier : PierIx) (lit : Bool)
  /-- ONU_EXPECT_SET (R176). Writes an ONU index's expected entry. -/
  | onuExpectSet (c : Call)
  /-- ONU_EXPECT_DELETE (R176). Deletes an expected entry, deactivating an ONU that is not INACTIVE. -/
  | onuExpectDelete (c : Call)
  /-- ONU_STATE_READ (R209). Returns an ONU index's activation state, Pier, ONU-ID, cause and serial number. -/
  | onuStateRead (c : Call)
  /-- ONU_AUTHORISE_ACCEPT (R183). Writes an expected entry from a discovered-list entry, or enables a DISABLED ONU. -/
  | onuAuthoriseAccept (c : Call)
  /-- ONU_AUTHORISE_REJECT (R183). Disables the serial number of a discovered-list entry. -/
  | onuAuthoriseReject (c : Call)
  /-- ONU_DEACTIVATE (R174). Sends Deactivate_ONU-ID to an ONU. -/
  | onuDeactivate (c : Call)
  /-- ONU_DEACTIVATE_DISABLE (R174). Sends Disable_Serial_Number to an ONU. -/
  | onuDeactivateDisable (c : Call)
  /-- DISC_LIST_READ (R209). Returns discovered-list entries of a Span. -/
  | discListRead (c : Call)
  /-- DISCOVERY_CONFIG (R178). Sets the discovery period, rogue isolation and serial number policy. -/
  | discoveryConfig (c : Call)
  /-- RANGE_CAL_SET (R187). Sets a Pier's calibration constants and group indices. -/
  | rangeCalSet (c : Call)
  /-- REACH_CONFIG (R195). Sets a Span's reach settings. -/
  | reachConfig (c : Call)
  /-- REACH_READ (R209). Returns a Span's reach model and Teqd values. -/
  | reachRead (c : Call)
  /-- DRIFT_CONFIG (R200). Sets drift tracking parameters of a Pier. -/
  | driftConfig (c : Call)
  /-- ONU_RANGE_READ (R210). Returns an ONU's ranging results, offset and corrections consistently. -/
  | onuRangeRead (c : Call)
  /-- STBY_DELTA_CONFIG (R204). Sets UNIF_TOL and OUTLIER_MAX of a standby Pier. -/
  | stbyDeltaConfig (c : Call)
  /-- STBY_DELTA_READ (R210). Returns a standby Pier's readiness, delta and adjustment. -/
  | stbyDeltaRead (c : Call)
  /-- SECOND_BOUNDARY (R540). At each TAI second boundary every counter is latched into the snapshot and restarts. -/
  | secondBoundary
  /-- TIME_CONFIG (R219). Selects frequency and phase sources and sets timebase parameters. -/
  | timeConfig (c : Call)
  /-- TIME_STATUS (R238). Returns the timebase state, frequency adjustment and phase error. -/
  | timeStatus (c : Call)
  /-- TIME_FREQ_ADJUST (R222). Sets y in host mode at the next tick. -/
  | timeFreqAdjust (c : Call)
  /-- TIME_PHASE_SLEW (R223). Starts a phase slew, replacing any slew in progress. -/
  | timePhaseSlew (c : Call)
  /-- TIME_PHASE_STEP (R224). Schedules a phase step at an apply point while every Span is closed. -/
  | timePhaseStep (c : Call)
  /-- TIME_PHASE_SAMPLE (R219). Gives the servo a PTP phase offset sample. -/
  | timePhaseSample (c : Call)
  /-- SLEW_COMPLETE (R223). A slew has moved the phase by the amount asked and its addition to y ends. -/
  | slewComplete
  /-- PPS_IN_EDGE (R219). A TIME_PPS_IN rising edge is stamped and feeds the phase loop. -/
  | ppsInEdge (phase : Fin 64)
  /-- FREQ_SOURCE_LOST (R221). The selected frequency source is lost, y freezes and the state enters HOLDOVER or FREERUN. -/
  | freqSourceLost
  /-- PHASE_SOURCE_LOST (R221). The phase source is lost by PTP_TIMEOUT or missing PPS edges, and the timebase holds over. -/
  | phaseSourceLost
  /-- REFERENCE_SOURCE_RETURN (R221). A lost source returns and the timebase passes through ACQUIRING. -/
  | referenceSourceReturn (phase : Bool)
  /-- TIME_EVT_INPUT_EDGE (R235). A configured edge on a TIME_EVT input is stamped into its store and raises the time-event event. -/
  | timeEvtInputEdge (pin : Fin 4) (phase : Fin 64) (rising : Bool)
  /-- TIME_PPS_OUT_PULSE (R235). TIME_PPS_OUT rises at each second boundary less PPS_OUT_ADV and stays high for PPS_WIDTH. -/
  | timePpsOutPulse
  /-- KEYSTONE_PIN_FIRE (R229). A PIN entry fires a pulse on its TIME_EVT pin. -/
  | keystonePinFire (entry : Fin 2048)
  /-- KEYSTONE_CONV_FIRE (R233). A CONV entry, grid or burst-anchored, strobes its converter's device. -/
  | keystoneConvFire (entry : Fin 2048)
  /-- KEYSTONE_LOOP_FIRE (R430). A LOOP entry starts a cycle of its loop, strobing its converters. -/
  | keystoneLoopFire (entry : Fin 2048)
  /-- KEYSTONE_SET (R228). Writes a Keystone entry. -/
  | keystoneSet (c : Call)
  /-- KEYSTONE_READ (R229). Returns a Keystone entry in force and its firings. -/
  | keystoneRead (c : Call)
  /-- TOD_CALC (R225). Computes TstampN with the ONU's asymmetry correction A for a frame L apply points ahead. -/
  | todCalc (c : Call)
  /-- ASYM_CONFIG (R226). Sets dispersion, wavelength offsets and RHO_STD of a Pier. -/
  | asymConfig (c : Call)
  /-- TIME_EVT_CONFIG (R235). Sets a TIME_EVT pin's mode, edge and delay. -/
  | timeEvtConfig (c : Call)
  /-- TIME_EVT_READ (R235). Takes up to 4 stamps out of a pin's store. -/
  | timeEvtRead (c : Call)
  /-- PTP_PORT_CONFIG (R218). Sets a port's PTP mode. -/
  | ptpPortConfig (c : Call)
  /-- PTP_TXTS_READ (R218). Takes a transmit stamp out of a port's stamp store. -/
  | ptpTxtsRead (c : Call)
  /-- ALLOC_SET (R256). Creates or changes an allocation, checking guaranteed cost against budgets. -/
  | allocSet (c : Call)
  /-- ALLOC_DELETE (R271). Deletes an allocation and sends its deallocating Assign_Alloc-ID. -/
  | allocDelete (c : Call)
  /-- ALLOC_READ (R271). Returns an allocation's state, demand and last grant. -/
  | allocRead (c : Call)
  /-- SLICE_BUDGET_SET (R255). Sets a slice's grant budgets on a Span. -/
  | sliceBudgetSet (c : Call)
  /-- SLICE_BUDGET_READ (R271). Returns a slice's budgets, guaranteed cost and use. -/
  | sliceBudgetRead (c : Call)
  /-- TRUSS_CONFIG (R271). Sets BLOCK_G, PLOAMU_PERIOD, SHARE_IDLE and TM_STEP of a Span. -/
  | trussConfig (c : Call)
  /-- TRUSS_STATUS (R271). Returns the last routine's steps, visits, phase and capacity. -/
  | trussStatus (c : Call)
  /-- OPEN_LOAD (R301). Checks an open-bank image, extends MEAS3 and writes it to every inactive page. -/
  | openLoad (c : Call)
  /-- OPEN_ACTIVATE (R302). Exchanges the open-bank pages at the apply point. -/
  | openActivate (c : Call)
  /-- OPEN_ACTIVATE_CLEAR (R302). Leaves no open-bank image active from the apply point. -/
  | openActivateClear (c : Call)
  /-- OPEN_BIND (R287). Binds an open-bank entry and CALL_LIMIT to a slice. -/
  | openBind (c : Call)
  /-- OPEN_UNBIND (R287). Removes a slice's open-bank binding. -/
  | openUnbind (c : Call)
  /-- OPEN_STATUS (R305). Returns the open-bank images and bindings. -/
  | openStatus (c : Call)
  /-- OPEN_STATS (R305). Returns a slice's open-call statistics on a Span. -/
  | openStats (c : Call)
  /-- TRUSS_MC_CONFIG (R305). Sets FINISH_LEAD of one or every Span. -/
  | trussMcConfig (c : Call)
  /-- UPLINK_FRAME_RX (R18). A frame received on an uplink or backplane port is checked, MACsec-validated and distributed to pipelines;
  `slips` are the port's lanes, from its first, whose elastic buffer slipped in it (R463). -/
  | uplinkFrameRx (port : PortIx) (frame : List Byte) (fcsOk : Bool) (slips : List (Fin 8))
  /-- ESMC_FRAME_TO_SAEND (R307). An ESMC frame removed before the distributor is handled by Saend. -/
  | esmcFrameToSaend (port : PortIx) (ql : Nat)
  /-- UPSTREAM_PIPELINE (R308). An upstream frame is classified, trapped, policed, learned and looked up in its pipeline. -/
  | upstreamPipeline (p : Fin 4)
  /-- QUEUE_ADMISSION (R349). At a frame's last byte the queue manager admits it shallow or as a spill, or drops it under its cause. -/
  | queueAdmission (n : Nat)
  /-- XP_FLUSH_RECEIVED (R328). A key sent by another pipeline removes a learned entry of that key. -/
  | xpFlushReceived (p : Fin 4)
  /-- AGING_SWEEP_START (R325). An aging class's sweep starts at a TAI second that is a multiple of P. -/
  | agingSweepStart (p : Fin 4) (cls : Fin 4)
  /-- AGING_BUCKET_VISIT (R325). The sweep visits a bucket, ages or removes learned entries and relocates overflow entries. -/
  | agingBucketVisit (p : Fin 4) (cls : Fin 4)
  /-- PUNT_LIMITER_REFILL (R334). A punt rate limiter refills at RATE punts per second up to BURST. -/
  | puntLimiterRefill (p : Fin 4) (slice : SliceIx) (reason : Fin 13)
  /-- SPILL_WRITE_COMPLETE (R347). A spilled record's copy into the deep store completes and its cells are released. -/
  | spillWriteComplete (q : QueueIx)
  /-- DEEP_FETCH_COMPLETE (R355). A deep record is fetched into Hank 0 cells, or dropped on an HBM error or failed header check. -/
  | deepFetchComplete (q : QueueIx) (bad headerLost : Bool)
  /-- DESCRIPTOR_FETCH_COMPLETE (R360). A missed queue descriptor arrives from HBM and the waiting admission or send proceeds. -/
  | descriptorFetchComplete (q : QueueIx)
  /-- QUEUE_DELETE_DRAIN (R361). A deleted queue drops its next packet with cause DELETED and releases its buffers, ending when empty. -/
  | queueDeleteDrain (q : QueueIx)
  /-- PACKET_TX_COMPLETE (R347). A packet's last byte is read out for transmission and its cells are released. -/
  | packetTxComplete (n : Nat)
  /-- SHAPER_REFILL (R373). At each refill instant a shaper's buckets gain INC up to their bucket sizes. -/
  | shaperRefill (node : NodeRef)
  /-- POLICER_REFILL (R377). Every 1,000 ns a policer's buckets refill. -/
  | policerRefill (port : Fin 262144)
  /-- WHEEL_FINE_RELEASE (R376). A fine-wheel entry is released at t_elig and its shaper may pass again. -/
  | wheelFineRelease (node : NodeRef) (committed : Bool)
  /-- WHEEL_COARSE_MIGRATE (R376). At a coarse slot's start its entries move into fine slots or are recomputed. -/
  | wheelCoarseMigrate (g : Fin 4)
  /-- PIER_SCHED_SELECT (R368). A Pier root selects the next frame for the next payload position, honouring timed queues, gates and shapers. -/
  | pierSchedSelect (sp : SpanIx) (pier : PierIx)
  /-- UPLINK_SCHED_SELECT (R368). When a port's MAC can take a frame the merger chooses among the four group roots' offers. -/
  | uplinkSchedSelect (port : PortIx)
  /-- GATE_ENTRY_CHANGE (R379). A gate list entry boundary changes which gate classes are open. -/
  | gateEntryChange (sp : SpanIx) (pier : PierIx)
  /-- GATE_CYCLE_END (R381). A gate cycle ends and any committed list swaps in. -/
  | gateCycleEnd (sp : SpanIx) (pier : PierIx)
  /-- HANK_PARTITION_SET (R344). Divides the deep store among Hanks 1 to 3 while every QM domain is OFF. -/
  | hankPartitionSet (c : Call)
  /-- HANK_STATUS (R367). Returns a Hank's count, free buffers and base. -/
  | hankStatus (c : Call)
  /-- SLICE_HANK_SET (R362). Sets a slice's quota in a Hank. -/
  | sliceHankSet (c : Call)
  /-- SLICE_HANK_READ (R367). Returns a slice's Hank quota, use and peak. -/
  | sliceHankRead (c : Call)
  /-- SLICE_QUEUES_SET (R357). Sets a slice's queue range. -/
  | sliceQueuesSet (c : Call)
  /-- QPROFILE_SET (R367). Sets a queue profile's depths, spill threshold, train and defer option. -/
  | qprofileSet (c : Call)
  /-- QNODE_SET (R359). Creates or changes an L1 or L2 queue node. -/
  | qnodeSet (c : Call)
  /-- QNODE_DELETE (R359). Deletes a queue node without children. -/
  | qnodeDelete (c : Call)
  /-- QUEUE_SET (R359). Creates or changes a queue. -/
  | queueSet (c : Call)
  /-- QUEUE_DELETE (R361). Deletes a queue at the apply point and starts its drain. -/
  | queueDelete (c : Call)
  /-- QUEUE_READ (R367). Returns a queue's state, depth and packets. -/
  | queueRead (c : Call)
  /-- VIADUCT_CONFIG (R353). Sets WR_BACKLOG, PREFETCH_RESERVE and low-water marks. -/
  | viaductConfig (c : Call)
  /-- VIADUCT_STATUS (R367). Returns the Viaduct backlog and rates. -/
  | viaductStatus (c : Call)
  /-- SCHED_NODE_SET (R372). Sets a node's or queue's priority, weight, gate and shaper. -/
  | schedNodeSet (c : Call)
  /-- SCHED_NODE_READ (R390). Returns a node's settings and credits. -/
  | schedNodeRead (c : Call)
  /-- POLICER_SET (R377). Sets a port record's policer rates and bursts. -/
  | policerSet (c : Call)
  /-- POLICER_READ (R390). Returns a policer's settings and credits. -/
  | policerRead (c : Call)
  /-- GATE_LIST_SET (R379). Reads a gate list by DMA and stages it for a Pier. -/
  | gateListSet (c : Call)
  /-- GATE_LIST_READ (R390). Returns the gate list in force. -/
  | gateListRead (c : Call)
  /-- PIER_SCHED_CONFIG (R384). Sets PROTECT for a Pier. -/
  | pierSchedConfig (c : Call)
  /-- UPLINK_SCHED_CONFIG (R385). Sets a port's group weights. -/
  | uplinkSchedConfig (c : Call)
  /-- UPLINK_BUDGET_SET (R386). Sets a slice's local uplink budget on a port. -/
  | uplinkBudgetSet (c : Call)
  /-- UPLINK_BUDGET_READ (R390). Returns a slice's local, Lanyard and effective uplink budget. -/
  | uplinkBudgetRead (c : Call)
  /-- DIST_SET (R18). Sets the distributor mask of a VLAN. -/
  | distSet (c : Call)
  /-- DIST_READ (R342). Returns the distributor mask of a VLAN. -/
  | distRead (c : Call)
  /-- DIST_PVID_SET (R306). Sets a port's default VLAN. -/
  | distPvidSet (c : Call)
  /-- VLAN_SET (R309). Sets a VLAN table entry in the pipelines named. -/
  | vlanSet (c : Call)
  /-- BD_SET (R342). Sets a bridge domain's options. -/
  | bdSet (c : Call)
  /-- REPL_SET (R313). Sets a replication list. -/
  | replSet (c : Call)
  /-- PORT_SET (R336). Creates or changes a port record. -/
  | portSet (c : Call)
  /-- PORT_DELETE (R341). Deletes a port record and its learned entries. -/
  | portDelete (c : Call)
  /-- FDB_STATIC_SET (R321). Installs a static exact-match entry. -/
  | fdbStaticSet (c : Call)
  /-- FDB_DELETE (R342). Removes an exact-match entry at the apply point. -/
  | fdbDelete (c : Call)
  /-- FDB_READ (R342). Returns an exact-match entry's place and result. -/
  | fdbRead (c : Call)
  /-- FDB_FLUSH (R341). Removes learned entries that the filter selects. -/
  | fdbFlush (c : Call)
  /-- DIRECT_SET (R316). Writes a direct entry. -/
  | directSet (c : Call)
  /-- ROUTE_SET (R331). Inserts or replaces an LPM route or host route. -/
  | routeSet (c : Call)
  /-- ROUTE_DELETE (R331). Deletes an LPM route. -/
  | routeDelete (c : Call)
  /-- ROUTE_READ (R342). Returns an LPM route's slot and result. -/
  | routeRead (c : Call)
  /-- FWD_TABLE_CONFIG (R341). Sets direct blocks, hash seeds, aging times and move alarm of a pipeline. -/
  | fwdTableConfig (c : Call)
  /-- FWD_STATUS (R342). Returns a pipeline's table occupancy. -/
  | fwdStatus (c : Call)
  /-- FWD_DSCP_SET (R342). Sets the DSCP to TC map. -/
  | fwdDscpSet (c : Call)
  /-- TRAP_CONFIG (R334). Sets a trap reason's action and rate limiter for a slice. -/
  | trapConfig (c : Call)
  /-- PON_CIPHER_CONFIG (R399). Sets key life, margin, switch lead, timeout and retire of a Pier. -/
  | ponCipherConfig (c : Call)
  /-- PON_MSK_SET (R402). Sets an ONU's MSK, from which PLOAM_IK and KEK are derived. -/
  | ponMskSet (c : Call)
  /-- PON_KEY_ROLL (R395). Starts a key exchange for an ONU. -/
  | ponKeyRoll (c : Call)
  /-- PON_KEY_STATUS (R424). Returns an ONU's key state. -/
  | ponKeyStatus (c : Call)
  /-- PON_BCAST_KEY_SET (R401). Loads a broadcast key into a slot as NEXT. -/
  | ponBcastKeySet (c : Call)
  /-- KEY_EXCHANGE_TIMEOUT (R395). No complete key within KEY_TIMEOUT: Saend counts the failure, raises the Key event and sends Key_Control again. -/
  | keyExchangeTimeout (sp : SpanIx) (onu : OnuIx)
  /-- KEY_SWITCH_FRAME (R397). At the switch frame the NEXT key becomes ACTIVE and the old slot retires. -/
  | keySwitchFrame (sp : SpanIx) (pier : PierIx)
  /-- KEY_MARGIN_REACHED (R399). A key reaching KEY_LIFE less KEY_MARGIN raises the Key event and starts an exchange with AUTO_ROLL. -/
  | keyMarginReached (sp : SpanIx) (onu : OnuIx)
  /-- KEY_EXPIRED (R399). A key reaching KEY_LIFE becomes EXPIRED, holding encrypted traffic and declaring LOKi. -/
  | keyExpired (sp : SpanIx) (onu : OnuIx)
  /-- KEY_RETIRE_END (R398). A RETIRING slot becomes EMPTY RETIRE frames after its switch frame. -/
  | keyRetireEnd (sp : SpanIx) (onu : OnuIx)
  /-- KEY_MIRROR_ACK_TIMEOUT (R418). Without the mate's acknowledgement within 10 ms Saend fixes the switch frame anyway. -/
  | keyMirrorAckTimeout (sp : SpanIx) (onu : OnuIx)
  /-- MACSEC_PORT_CONFIG (R404). Sets a port's SecY options and bypass list. -/
  | macsecPortConfig (c : Call)
  /-- MACSEC_SA_SET (R405). Installs an SA's SAK, salt and SSCI. -/
  | macsecSaSet (c : Call)
  /-- MACSEC_SA_DELETE (R424). Removes an SA. -/
  | macsecSaDelete (c : Call)
  /-- MACSEC_RX_SC_SET (R424). Sets a receive SC's peer SCI. -/
  | macsecRxScSet (c : Call)
  /-- MACSEC_RX_SC_DELETE (R424). Removes a receive SC and its SAs. -/
  | macsecRxScDelete (c : Call)
  /-- MACSEC_SA_PN (R405). Sets an SA's next or lowest acceptable PN. -/
  | macsecSaPn (c : Call)
  /-- MACSEC_TX_NEXT_NOW (R407). Makes an installed SA the transmit SA at the apply point. -/
  | macsecTxNextNow (c : Call)
  /-- MACSEC_TX_NEXT_STANDBY (R407). Names the SA that takes over on exhaustion. -/
  | macsecTxNextStandby (c : Call)
  /-- MACSEC_SA_READ (R424). Returns an SA's state and PN. -/
  | macsecSaRead (c : Call)
  /-- XTS_STATUS (R424). Returns a slice's XTS key presence and generation. -/
  | xtsStatus (c : Call)
  /-- PAIR_KEY_CONFIG (R417). Sets the mate certificate hash and rekey period. -/
  | pairKeyConfig (c : Call)
  /-- PAIR_KEY_STATUS (R424). Returns the pair key's state. -/
  | pairKeyStatus (c : Call)
  /-- ENTROPY_STATUS (R424). Returns the entropy source's health and reseeds. -/
  | entropyStatus (c : Call)
  /-- ENTROPY_HEALTH_FAIL (R419). A health test fails, the entropy-failure event is raised and key generation is refused. -/
  | entropyHealthFail (test : Word)
  /-- ENTROPY_RECOVERED (R419). The noise source passes its tests again. -/
  | entropyRecovered
  /-- DRBG_RESEED (R419). The CTR_DRBG reseeds from the noise source, at least once per second. -/
  | drbgReseed
  /-- PAIR_KEY_REKEY_TIMER (R417). REKEY hours after establishment the pair key is established again. -/
  | pairKeyRekeyTimer
  /-- PAIR_KEY_FLIT_RX (R417). A pair-key flit carries chain, ephemeral key or signature material, which is checked and used to derive the pair key. -/
  | pairKeyFlitRx (stage : Fin 4) (bytes : List Byte) (last : Bool)
  /-- LOOPB_CONFIG (R449). Sets a loop bus's divider, latencies, conversion times, alert mask and TEC budgets. -/
  | loopbConfig (c : Call)
  /-- LOOP_SET (R434). Sets a loop's parameters, taking effect at its next cycle. -/
  | loopSet (c : Call)
  /-- LOOP_READ (R449). Returns a loop's input, output, integrator and fault. -/
  | loopRead (c : Call)
  /-- OPTICS_START (R439). Starts a Pier's optics into WARMING, or PENDING on a STOPPING Pier. -/
  | opticsStart (c : Call)
  /-- OPTICS_STOP (R441). Ramps a Pier's bias down to OFF, or cancels a pending start. -/
  | opticsStop (c : Call)
  /-- OPTICS_STATUS (R449). Returns a Pier's optics state and fault causes. -/
  | opticsStatus (c : Call)
  /-- OPTICS_FAULT_CLEAR (R438). Moves a Pier from FAULT to OFF. -/
  | opticsFaultClear (c : Call)
  /-- RSSI_READ (R449). Returns an ONU's last RSSI samples. -/
  | rssiRead (c : Call)
  /-- CONV_READ (R449). Returns a converter's last sample and strobe instant. -/
  | convRead (c : Call)
  /-- LOOP_CONV_TIME_END (R430). CONV_TIME after a loop strobe the sequencer requests the input reads. -/
  | loopConvTimeEnd (bus : BusIx) (loop : Fin 36)
  /-- RSSI_CONV_TIME_END (R444). CONV_TIME after an RSSI strobe the sequencer requests the RSSI read. -/
  | rssiConvTimeEnd (bus : BusIx) (dev : Nat)
  /-- LOOPB_FRAME_DONE (R429). A loop bus frame completes, delivering a read result or applying a write, and the next waiting frame starts. -/
  | loopbFrameDone (bus : BusIx) (answer : Option (BitVec 16))
  /-- LOOPB_ALERT (R435). LOOPBk_ALERT_N low for 100 ns declares an alert fault on the masked Piers' thermal loops. -/
  | loopbAlert (bus : BusIx)
  /-- PORT_MODE_SET (R452). Sets an Ethernet port's mode while its lanes are OFF. -/
  | portModeSet (c : Call)
  /-- LANE_ENABLE_ON (R453). Starts a lane into STARTING, or PENDING during STOPPING. -/
  | laneEnableOn (c : Call)
  /-- LANE_ENABLE_OFF (R453). Takes a lane into STOPPING, or cancels a pending ON. -/
  | laneEnableOff (c : Call)
  /-- LANE_TX_EQ_SET (R456). Sets a transmitter's taps, swing and training. -/
  | laneTxEqSet (c : Call)
  /-- LANE_RX_EQ_SET (R458). Sets a receiver's equaliser mode and values. -/
  | laneRxEqSet (c : Call)
  /-- LANE_DETECT_CONFIG (R459). Sets a lane's LOS and degrade thresholds. -/
  | laneDetectConfig (c : Call)
  /-- LANE_LOOPBACK_SET (R465). Sets a lane's loopback. -/
  | laneLoopbackSet (c : Call)
  /-- LANE_PRBS (R466). Sets a lane's PRBS generator and checker and returns the error count. -/
  | lanePrbs (c : Call)
  /-- LANE_STATUS (R474). Returns a lane's state, flags and equalisation in force. -/
  | laneStatus (c : Call)
  /-- HAWSER_LANE_STATUS (R474). Returns the Hawser lane sets and skew. -/
  | hawserLaneStatus (c : Call)
  /-- PCIE_STATUS (R474). Returns the PCIe link and function state. -/
  | pcieStatus (c : Call)
  /-- LANE_STARTING_DONE (R453). A lane completes STARTING, is ON and its call returns DONE. -/
  | laneStartingDone (lane : LaneIx)
  /-- LANE_STOPPING_DONE (R453). A lane completes STOPPING, is OFF and any pending ON runs. -/
  | laneStoppingDone (lane : LaneIx)
  /-- LANE_LOS_DECLARE (R459). Input amplitude below LOS_TH for LOS_ASSERT declares LOS. -/
  | laneLosDeclare (lane : LaneIx)
  /-- LANE_LOS_CLEAR (R459). Amplitude above the threshold for 100 µs clears LOS. -/
  | laneLosClear (lane : LaneIx)
  /-- LANE_RX_LOL (R460). Two failed 1 µs lock measurements declare RX-LOL. -/
  | laneRxLol (lane : LaneIx)
  /-- LANE_RX_LOCK_HELD (R460). 100 µs of continuous lock clears RX-LOL. -/
  | laneRxLockHeld (lane : LaneIx)
  /-- LANE_TRAIN_COMPLETE (R457). Clause 72 training completes and the trained taps hold. -/
  | laneTrainComplete (lane : LaneIx) (pre post : Int)
  /-- LANE_TRAIN_TIMEOUT (R457). Training not complete in 500 ms counts LANE_TRAIN_FAIL. -/
  | laneTrainTimeout (lane : LaneIx)
  /-- LANE_TRAIN_RETRY (R457). 1 s after a failed training, training starts again. -/
  | laneTrainRetry (lane : LaneIx)
  /-- HAWSER_LOCK_GAINED (R468). 8 good codewords give a Hawser lane codeword lock. -/
  | hawserLockGained (lane : Fin 4)
  /-- HAWSER_LOCK_LOST (R468). 4 uncorrectable codewords, LOS or RX-LOL lose a lane's lock and change the set in use. -/
  | hawserLockLost (lane : Fin 4)
  /-- HAWSER_CODEWORD_RX (R468). A Hawser codeword is received and its flits are delivered in SEQ order, skipping missing codewords. -/
  | hawserCodewordRx (lane : Fin 4) (good : Bool) (seq : Fin 1024) (lanes : Fin 16) (flits : Nat)
  /-- HAWSER_NO_CODEWORD_TIMEOUT (R468). No codeword for 10 µs takes the Hawser link down. -/
  | hawserNoCodewordTimeout
  /-- HAWSER_LINK_UP (R506). The Hawser link comes up and the pair returns to HELLO. -/
  | hawserLinkUp
  /-- HAWSER_MAILBOX_FLIT_RX (R508). A mailbox flit delivers words to channel 0x10 and updates the mate's free count. -/
  | hawserMailboxFlitRx (reply : Bool) (words : List Word) (free : Nat)
  /-- HAWSER_FREE_FLIT_TIMER (R508). At least every 10 µs a mailbox flit carrying FREE is sent. -/
  | hawserFreeFlitTimer
  /-- HAWSER_TIMEBASE_FLIT_TIMER (R509). Every 1 ms the device sends a timebase flit. -/
  | hawserTimebaseFlitTimer
  /-- HAWSER_TIMEBASE_FLIT_RX (R509). A timebase flit updates the median timebase offset Δ_TB. -/
  | hawserTimebaseFlitRx (send echoSend echoRecv recv : Nat)
  /-- PCIE_LINK_CHANGE (R470). The PCIe link changes speed or width or goes down while the device keeps running. -/
  | pcieLinkChange (speed width : Nat)
  /-- PCIE_UNCORR_ERROR (R472). An AER uncorrectable error is logged and its event raised. -/
  | pcieUncorrError (status : Word)
  /-- STM16_FRAME_RX (R478). A received STM-16 frame is aligned, descrambled, parity-checked and its pointers, traces and K bytes are interpreted. -/
  | stm16FrameRx (lane : Fin 2) (frame : StmFrame)
  /-- LOF_TIMER (R478). OOF persisting 3 ms declares LOF, and in-frame for 3 ms clears it. -/
  | lofTimer (lane : Fin 2)
  /-- B2_WINDOW_END (R483). A B2 window ends and MS-EXC or MS-DEG is declared or cleared. -/
  | b2WindowEnd (lane : Fin 2) (sd : Bool)
  /-- V5_WINDOW_END (R483). A V5 window ends and LP-EXC or LP-DEG is declared or cleared. -/
  | v5WindowEnd (lane : Fin 2) (pos : Fin 1008) (sd : Bool)
  /-- MSP_HOLD_OFF_END (R486). A signal fail or degrade persisting HOLD_OFF becomes an MSP request. -/
  | mspHoldOffEnd (lane : Fin 2)
  /-- MSP_SELECTOR_EVALUATE (R488). The selector serves the highest-priority request and switches lanes. -/
  | mspSelectorEvaluate
  /-- MSP_WTR_END (R487). WTR passes with no higher request and the selector returns to lane 22. -/
  | mspWtrEnd
  /-- MSP_BRIDGE_MISMATCH_TIMEOUT (R489). A K2 bridged channel mismatch for 50 ms declares an MSP protocol failure. -/
  | mspBridgeMismatchTimeout
  /-- TSI_SWAP (R492). At the first transmitted multiframe boundary after the apply point the TSI pages exchange. -/
  | tsiSwap
  /-- CE_PAYLOAD_DEMAPPED (R494). A circuit's payload is demapped and its pseudowire packet is built and sent; `found`: where no alignment is held, the search has found the frame alignment signal at the first byte (R493). -/
  | cePayloadDemapped (circuit : Fin 1008) (e1 : E1Run) (found : Bool)
  /-- CE_PACKET_RX (R495). An upstream pseudowire packet is taken into its circuit's jitter buffer, or dropped as malformed or late. -/
  | cePacketRx (packet : List Byte)
  /-- CE_PLAYOUT_SLOT (R496). A jitter-buffer slot is played out, or played as all ones when missing. -/
  | cePlayoutSlot (circuit : Fin 1008)
  /-- SDH_CONFIG (R483). Sets SDH defect exponents and consequent-action options. -/
  | sdhConfig (c : Call)
  /-- SDH_STATUS (R503). Returns defects and pointers of a lane, AU-4 or position. -/
  | sdhStatus (c : Call)
  /-- SDH_TRACE_SET (R482). Sets expected and transmitted traces. -/
  | sdhTraceSet (c : Call)
  /-- SDH_TRACE_READ (R503). Returns an accepted trace and TIM. -/
  | sdhTraceRead (c : Call)
  /-- MSP_CONFIG (R486). Sets MSP architecture, revert, WTR and hold-off. -/
  | mspConfig (c : Call)
  /-- MSP_COMMAND_CLEAR (R490). Clears every MSP command and wait-to-restore. -/
  | mspCommandClear (c : Call)
  /-- MSP_COMMAND_LOCKOUT (R490). Sets lockout of protection. -/
  | mspCommandLockout (c : Call)
  /-- MSP_COMMAND_FORCED (R490). Sets a forced switch. -/
  | mspCommandForced (c : Call)
  /-- MSP_COMMAND_MANUAL (R490). Sets a manual switch. -/
  | mspCommandManual (c : Call)
  /-- MSP_STATUS (R503). Returns the MSP selection, request and K bytes. -/
  | mspStatus (c : Call)
  /-- TSI_PAGE_SET (R492). Writes TSI entries into the standby page. -/
  | tsiPageSet (c : Call)
  /-- TSI_READ (R503). Returns a position's TSI entry in force. -/
  | tsiRead (c : Call)
  /-- CE_CIRCUIT_SET (R503). Sets a circuit-emulation circuit. -/
  | ceCircuitSet (c : Call)
  /-- CE_CIRCUIT_READ (R503). Returns a circuit's state, fill and recovered frequency. -/
  | ceCircuitRead (c : Call)
  /-- PAIR_CONFIG (R504). Sets paired Spans, preferences and pair options. -/
  | pairConfig (c : Call)
  /-- PAIR_SWITCH (R515). Starts a switch-over of the Spans named. -/
  | pairSwitch (c : Call)
  /-- PAIR_STATUS (R533). Returns the pair state, roles, synchronisation and Δ_TB. -/
  | pairStatus (c : Call)
  /-- PAIR_HAWSER_CAL (R509). Sets the Hawser asymmetry ASYM. -/
  | pairHawserCal (c : Call)
  /-- MATE_HELLO (R522). Exchanges versions and role claims with the mate, choosing a format and resolving roles. -/
  | mateHello (c : Call)
  /-- MATE_BULK_SEND (R511). Asks the active device to send the bulk snapshot for the Spans named. -/
  | mateBulkSend (c : Call)
  /-- MATE_BULK_RECEIVED (R522). Reports that the snapshot for the Spans named was received. -/
  | mateBulkReceived (c : Call)
  /-- MIRROR_MAP_RX (R514). A standby receives a MAP record and opens search windows for its bursts. -/
  | mirrorMapRx (h : MirHead) (m : MirMap)
  /-- MIRROR_ONU_RX (R510). A standby receives an ONU record and updates the mirrored ONU state. -/
  | mirrorOnuRx (h : MirHead) (m : MirOnu)
  /-- MIRROR_ALLOC_RX (R510). A standby receives an ALLOC record and updates demand and policy state. -/
  | mirrorAllocRx (h : MirHead) (m : MirAlloc)
  /-- MIRROR_KEY_RX (R418). A standby receives wrapped keys, unwraps them and acknowledges. -/
  | mirrorKeyRx (h : MirHead) (m : MirKey)
  /-- MIRROR_COMMIT_RX (R512). A standby receives a COMMIT record and applies its pair-shared items at the apply point. -/
  | mirrorCommitRx (h : MirHead) (m : MirCommit)
  /-- MIRROR_SPAN_RX (R510). A standby receives a SPAN record with Teqd, reach model and open state. -/
  | mirrorSpanRx (h : MirHead) (m : MirSpan)
  /-- MIRROR_HEARTBEAT_RX (R510). A HEARTBEAT record is received from the mate. -/
  | mirrorHeartbeatRx (rseq sfc : Nat) (roles : Word) (st : Fin 7)
  /-- MIRROR_SWITCH_RX (R515). A CONTROL record with SWITCH asks the receiver to take over or to mute the Spans named. -/
  | mirrorSwitchRx (rseq : Nat) (spans : Word) (force : Bool) (row : Fin 6)
  /-- MIRROR_END_OF_SNAPSHOT_RX (R522). A CONTROL record with END_OF_SNAPSHOT closes a Span's bulk snapshot and starts listening. -/
  | mirrorEndOfSnapshotRx (rseq : Nat) (spans : Word)
  /-- MIRROR_ACK_RX (R511). An acknowledgement names the highest record received without a gap, updating mirror lag. -/
  | mirrorAckRx (rseq : Nat)
  /-- MIRROR_ACK_TIMER (R511). At least every 125 µs the standby sends an acknowledgement. -/
  | mirrorAckTimer
  /-- MATE_HEARTBEAT_TIMEOUT (R515). No HEARTBEAT for 3 frames declares mate loss on the standby. -/
  | mateHeartbeatTimeout
  /-- MATE_CONFIRM_END (R516). MATE_CONFIRM ends and Spans with no light seen are taken over, others leave the pair in SPLIT. -/
  | mateConfirmEnd (lit : Word)
  /-- SWITCHOVER_RELIGHT (R517). At T1 − 20 µs the new active device drives PIER_TXDIS low. -/
  | switchoverRelight (sp : SpanIx)
  /-- SWITCHOVER_FIRST_FRAME (R517). At T1 the new active device sends its first frame with the adjustment messages and starts mirroring. -/
  | switchoverFirstFrame (sp : SpanIx)
  /-- LANYARD_CONFIG (R525). Sets Lanyard VLAN, worker number, ports, shelf ID, timeout, event groups and MAC. -/
  | lanyardConfig (c : Call)
  /-- LANYARD_STATUS (R533). Returns the Lanyard state, workers and cached answers. -/
  | lanyardStatus (c : Call)
  /-- LANYARD_REG_SET (R528). Sets a shelf registry entry. -/
  | lanyardRegSet (c : Call)
  /-- LANYARD_REG_DELETE (R528). Deletes a shelf registry entry. -/
  | lanyardRegDelete (c : Call)
  /-- LANYARD_REG_READ (R533). Returns a shelf registry entry. -/
  | lanyardRegRead (c : Call)
  /-- SHELF_BUDGET_SET (R529). Sets a slice's shelf uplink rate and floor. -/
  | shelfBudgetSet (c : Call)
  /-- LANYARD_HELLO_TIMER (R526). Every 1 s a HELLO is sent on every enabled Lanyard port. -/
  | lanyardHelloTimer
  /-- LANYARD_HELLO_RX (R526). A HELLO is received, updating peer presence, port and free count. -/
  | lanyardHelloRx (port : PortIx) (h : LanHead) (manager : Bool) (free : Nat)
  /-- LANYARD_CALL_RX (R526). A CALL frame delivers words to the worker's channel 0x11 inbound queue. -/
  | lanyardCallRx (port : PortIx) (h : LanHead) (words : List Word)
  /-- LANYARD_REPLY_RX (R526). A REPLY frame delivers a worker's outbound words and events to the manager. -/
  | lanyardReplyRx (port : PortIx) (h : LanHead) (free : Nat) (words : List Word)
  /-- LANYARD_REG_QUERY_RX (R528). The manager looks a serial number up in its registry and answers. -/
  | lanyardRegQueryRx (port : PortIx) (h : LanHead) (sp : SpanIx) (pier : PierIx) (serial : BitVec 64)
  /-- LANYARD_REG_ANSWER_RX (R184). A worker acts on a registry answer, caching it and writing an expected entry or counting a foreign serial. -/
  | lanyardRegAnswerRx (port : PortIx) (h : LanHead) (serial : BitVec 64) (entry : Option RegEntry)
  /-- LANYARD_USAGE_RX (R529). The manager receives a worker's per-slice uplink usage report. -/
  | lanyardUsageRx (port : PortIx) (h : LanHead) (lines : List UsageLine)
  /-- LANYARD_BUDGET_RX (R386). A worker receives budget rates that apply at the first apply point at least 20 µs later. -/
  | lanyardBudgetRx (port : PortIx) (h : LanHead) (lines : List (SliceIx × PortIx × Nat))
  /-- LANYARD_MANAGER_TIMEOUT (R527). No HELLO from the manager, or from a worker, for MANAGER_TIMEOUT declares it lost. -/
  | lanyardManagerTimeout (peer : Nat)
  /-- LANYARD_APPORTION (R529). Each second after the usage reports the manager apportions shelf rates and sends BUDGET frames. -/
  | lanyardApportion
  /-- PCS_BLOCK_LOCK_CHANGE (R461). A port's PCS gains or loses block lock or alignment-marker lock, or starts or stops receiving a local or remote fault, and the link goes up or down. -/
  | pcsBlockLockChange (port : PortIx) (block align fault : Bool)
  /-- FREQUENCY_LOOP_SETTLED (R220). Saend's frequency loop settles on the selected frequency source and the timebase passes from ACQUIRING to FREQ_LOCKED. -/
  | frequencyLoopSettled
  /-- PAIR_KEY_TIMEOUT (R417). Pair-key establishment does not complete in time, mirroring stops and the pair-key-failure event is raised with cause 3. -/
  | pairKeyTimeout
  /-- VF_ENABLE (R45). A write of NumVFs in the SR-IOV capability enables virtual functions, each with its own BAR0, mailbox channel, rings and vectors. -/
  | vfEnable (n : Fin 16)
  /-- MSIX_VECTOR_UNMASK (R538). The host clears an MSI-X vector's mask in BAR2, and a vector whose pending bit is set is sent. -/
  | msixVectorUnmask (fn : Fn) (v : Fin 32)
  /-- SEARCH_WINDOW_START (R551). At the start of a placed burst or of a discovery or ranging window the receiver starts its delimiter search and drives PIER_BRST and PIER_BEN. -/
  | searchWindowStart (sp : SpanIx) (pier : PierIx)
  deriving DecidableEq, Repr

end Sys2Proof
end

