-- ==== Sys2Proof/Config.lean ====
section
/-! DEFINITION. What the spec leaves open, as constants with no body: the free values, what the recommendations derive, the
part's keys, and what the world outside holds. Nothing in Lean can evaluate one of them. -/

namespace Sys2Proof.Config

/-- A word the spec leaves open, the n-th one drawn (assumption 3). -/
opaque freeWord : Nat → Word

/-- An open number (a key of the DRBG, a frequency the servo chooses), the n-th one drawn (assumption 3). -/
opaque freeNat : Nat → Nat

/-- An open choice, the n-th one drawn (assumption 3). -/
opaque freeBool : Nat → Bool

/-- The word of host memory at a byte address of a function's space when the device reads it for the n-th time (assumption 4). -/
opaque hostWord : (fn addr n : Nat) → Word

/-- The Fineusk public key that signs flash slots: P-384, uncompressed (R111; assumption 5). -/
opaque vendorKey : List Byte

/-- The private device identity key, P-384 (R119; assumption 5). -/
opaque identityKey : Nat

/-- The certificate chain of the part, X.509 DER (R119; assumption 5). -/
opaque certChain : List Byte

/-- The public key that a certificate chain certifies, uncompressed P-384: none where the chain does not lead to the Fineusk root
(R417; assumption 5). -/
opaque chainKey : List Byte → Option (List Byte)

/-- The leaf certificate of a chain (R417; assumption 5). -/
opaque leafOf : List Byte → List Byte

/-- The 8-byte PON-TAG of a Pier, which its recommendation takes into the key derivation and no call sets (R402; assumption 5). -/
opaque ponTag : (span pier : Nat) → List Byte

/-- The KEK of an ONU that has no MSK, which the recommendation derives from its registration (R395, R402; assumption 5). -/
opaque defaultKek : Nat

/-- The i-th counter block from a counter value on, as the recommendation forms it (R394; assumption 5). -/
opaque ponBlock : (ctr i : Nat) → List Byte

/-- The 16-bit check over the fields of a record header (R354; assumption 140). -/
opaque recordCheck : List Byte → BitVec 16

/-- What a queue descriptor's 32 bytes hold, from the queue's number, its packet count, depth, and train (R360; assumption 140). -/
opaque descriptor : List Nat → List Byte

/-- The DATA of a mirror record of a type with its content, whose layout the spec does not give (R507, R510; assumption 146). -/
opaque recordData : (rtype : Nat) → List Nat → List Byte

/-- The payload of a Lanyard frame of a type: the fields that R526 lists in order, whose widths the spec does not give (assumption 146). -/
opaque lanyardBody : (type : Nat) → List Nat → List Byte

/-- The offset to which a clock recovery loop of a bandwidth steers a circuit's clock from the offset it had, by its error; what the loop's law
is the spec does not say (R499; assumption 14). -/
opaque clockSteer : (bandwidth : Nat) → (error : Int) → (offset : Int) → Int

/-- The TTL or hop limit of a frame that came with 0 and is forwarded all the same, for which the spec states no result (R311, R334;
assumption 143). -/
opaque ttlOfZero : BitVec 8

/-- Whether a line port ID of a Pier is a multicast or broadcast port of its recommendation (R139; assumption 18). -/
opaque multicastPort : (pier portId : Nat) → Bool

/-- Whether a G-pier ONU, by its Span and index, has upstream FEC on: the map's flag of R140 and R242, which no call sets
(assumption 126). -/
opaque onuFec : (span onu : Nat) → Bool

/-- The type byte and content of a downstream PLOAM message of a Pier, by its kind and fields, as the recommendation lays them out (R138;
assumption 5). -/
opaque ploamBody : (pier kind : Nat) → (args : List Nat) → List Byte

end Sys2Proof.Config
end

