-- ==== Sys2Proof/Machine/Maps.lean ====
section
/-! DEFINITION. The operations on sparse tables: reading, writing and erasing a key. A table keeps its keys strictly rising. -/

namespace Sys2Proof.Machine

/-- The value listed for a key. -/
def kget {α : Type} (m : KMap α) (k : Nat) : Option α :=
  match m with
  | [] => none
  | (j, a) :: t => if j = k then some a else kget t k

/-- The value of a key, or what an unlisted key holds. -/
def kgetD {α : Type} (m : KMap α) (k : Nat) (d : α) : α := (kget m k).getD d

/-- The table with a key's value written, in key order. -/
def kset {α : Type} (m : KMap α) (k : Nat) (a : α) : KMap α :=
  match m with
  | [] => [(k, a)]
  | (j, b) :: t => if k < j then (k, a) :: (j, b) :: t else if k = j then (k, a) :: t else (j, b) :: kset t k a

/-- The table without a key. -/
def kerase {α : Type} (m : KMap α) (k : Nat) : KMap α :=
  match m with
  | [] => []
  | (j, b) :: t => if j = k then t else (j, b) :: kerase t k

/-- Writes a key through a function of what it held. -/
def kmod {α : Type} (m : KMap α) (k : Nat) (d : α) (f : α → α) : KMap α := kset m k (f (kgetD m k d))

/-- Every listed value through a function of its key and value. -/
def kmap {α : Type} (m : KMap α) (f : Nat → α → α) : KMap α :=
  match m with
  | [] => []
  | (j, a) :: t => (j, f j a) :: kmap t f

/-- The entries that a test keeps. -/
def kfilter {α : Type} (m : KMap α) (p : Nat → α → Bool) : KMap α :=
  match m with
  | [] => []
  | (j, a) :: t => if p j a then (j, a) :: kfilter t p else kfilter t p

/-- Whether some listed entry passes a test. -/
def kany {α : Type} (m : KMap α) (p : Nat → α → Bool) : Bool :=
  match m with
  | [] => false
  | (j, a) :: t => p j a || kany t p

/-- Whether a key lies below every listed one. -/
def kabove {α : Type} (k : Nat) (m : KMap α) : Bool :=
  match m with
  | [] => true
  | (j, _) :: _ => k < j

/-- The canonical form: keys strictly rising. -/
def kwf {α : Type} (m : KMap α) : Bool :=
  match m with
  | [] => true
  | (j, _) :: t => kabove j t && kwf t

/-- A set of numbers kept strictly rising: insertion. -/
def sinsert (l : List Nat) (k : Nat) : List Nat :=
  match l with
  | [] => [k]
  | j :: t => if k < j then k :: j :: t else if k = j then j :: t else j :: sinsert t k

/-- The lowest number at or above `n` that a list does not hold: the lowest-numbered free buffer of R345. -/
def firstFree (l : List Nat) (n : Nat) : Nat := n + ((List.range (l.length + 1)).find? fun k => !l.contains (n + k)).getD 0

/-- A list with one place written. -/
def lset {α : Type} (l : List α) (i : Nat) (a : α) : List α :=
  match l, i with
  | [], _ => []
  | _ :: t, 0 => a :: t
  | b :: t, n + 1 => b :: lset t n a

/-- A list without one place. -/
def lremove {α : Type} (l : List α) (i : Nat) : List α :=
  match l, i with
  | [], _ => []
  | _ :: t, 0 => t
  | b :: t, n + 1 => b :: lremove t n

end Sys2Proof.Machine
end

