-- ==== Sys2Proof/Machine/Operands.lean ====
section
/-! DEFINITION. The operand forms of the commands: fields of call words and registers, values over several words,
byte strings, signed fields (R5). -/

namespace Sys2Proof.Machine

/-- Bits [hi:lo] of a word, as a number (R5). -/
def fld (w : Word) (hi lo : Nat) : Nat := (w.toNat / 2 ^ lo) % 2 ^ (hi + 1 - lo)

/-- One bit of a word. -/
def bit (w : Word) (i : Nat) : Bool := w.toNat.testBit i

/-- A number placed at bit `lo` of a word. -/
def put (v lo : Nat) : Word := BitVec.ofNat 32 (v * 2 ^ lo)

/-- One bit placed in a word. -/
def putb (b : Bool) (i : Nat) : Word := if b then BitVec.ofNat 32 (2 ^ i) else 0

/-- A number as a word, modulo 2^32. -/
def wd (n : Nat) : Word := BitVec.ofNat 32 n

/-- Payload word n of a call; a word that is absent reads 0. -/
def pw (ws : List Word) (n : Nat) : Word := (ws[n]?).getD 0

/-- A value of `n` words starting at word `i`, least significant word first (R5). -/
def wide (ws : List Word) (i n : Nat) : Nat :=
  match n with
  | 0 => 0
  | n + 1 => (pw ws i).toNat + 2 ^ 32 * wide ws (i + 1) n

/-- A number as `n` words, least significant word first (R5). -/
def toWords (n : Nat) (v : Nat) : List Word :=
  match n with
  | 0 => []
  | n + 1 => wd v :: toWords n (v / 2 ^ 32)

/-- A field of `n` bits read as two's complement. -/
def sgn (n : Nat) (v : Nat) : Int := if v < 2 ^ (n - 1) then (v : Int) else (v : Int) - (2 ^ n : Nat)

/-- A signed value as a field of `n` bits. -/
def unsgn (n : Nat) (v : Int) : Nat := (v % (2 ^ n : Nat)).toNat

/-- Bytes, lowest address first, as a number (little-endian, R5). -/
def leNat (bs : List Byte) : Nat :=
  match bs with
  | [] => 0
  | b :: t => b.toNat + 256 * leNat t

/-- Bytes, first on the line first, as a number (most significant byte first). -/
def beNatAcc (acc : Nat) (bs : List Byte) : Nat :=
  match bs with
  | [] => acc
  | b :: t => beNatAcc (256 * acc + b.toNat) t

/-- Bytes, most significant first, as a number. -/
def beNat (bs : List Byte) : Nat := beNatAcc 0 bs

/-- A number as `n` bytes, least significant first. -/
def toLe (n : Nat) (v : Nat) : List Byte :=
  match n with
  | 0 => []
  | n + 1 => BitVec.ofNat 8 v :: toLe n (v / 256)

/-- A number as `n` bytes, most significant first. -/
def toBe (n : Nat) (v : Nat) : List Byte := (toLe n v).reverse

/-- `n` bytes at an offset of a byte string. -/
def sub (bs : List Byte) (off n : Nat) : List Byte := (bs.drop off).take n

/-- The big-endian value of `n` bytes at an offset. -/
def beAt (bs : List Byte) (off n : Nat) : Nat := beNat (sub bs off n)

/-- Bytes of words, each word little-endian (R5). -/
def bytesOfWords (ws : List Word) : List Byte := ws.flatMap fun w => toLe 4 w.toNat

/-- Words of bytes, each word little-endian; a short last word is filled with 0. -/
def wordsOfBytesN (n : Nat) (bs : List Byte) : List Word :=
  match n with
  | 0 => []
  | n + 1 => wd (leNat (bs.take 4)) :: wordsOfBytesN n (bs.drop 4)

/-- The words of a byte string. -/
def wordsOfBytes (bs : List Byte) : List Word := wordsOfBytesN ((bs.length + 3) / 4) bs

/-- The quotient rounded up. -/
def ceilDiv (a b : Nat) : Nat := (a + b - 1) / b

/-- A value held between two bounds. -/
def clampI (lo hi x : Int) : Int := if x < lo then lo else if hi < x then hi else x

/-- Bits [hi:lo] of a number. -/
def nfld (v hi lo : Nat) : Nat := (v / 2 ^ lo) % 2 ^ (hi + 1 - lo)

/-- A number with its bits [hi:lo] replaced. -/
def nput (v hi lo x : Nat) : Nat := v - (nfld v hi lo) * 2 ^ lo + (x % 2 ^ (hi + 1 - lo)) * 2 ^ lo

end Sys2Proof.Machine
end

