-- ==== Sys2Proof/Machine/Crypto.lean ====
section
/-! DEFINITION. The cryptographic functions that R4 names by their standards: SHA-256 and SHA-384 (FIPS 180-4), AES (FIPS 197), its
counter, GCM, XTS and key-wrap modes (IEEE 802.1AE, IEEE 1619, NIST SP 800-38F), HKDF-SHA-384, ECDSA and key agreement on P-256 and
P-384 (FIPS 186-5). Their texts are outside the spec (assumption 5). -/

namespace Sys2Proof.Machine

/-! ### SHA-2 (FIPS 180-4) -/

/-- The first `n` prime numbers, by trial division. -/
def primesFrom (fuel n k : Nat) : List Nat :=
  match fuel, n with
  | f + 1, m + 1 => if (List.range k).all fun d => d < 2 || k % d ≠ 0 then k :: primesFrom f m (k + 1) else primesFrom f (m + 1) (k + 1)
  | _, _ => []

/-- The integer e-th root of a number below 2^(e × bits), bit by bit from the highest. -/
def rootOfNat (e v bits acc : Nat) : Nat :=
  match bits with
  | 0 => acc
  | b + 1 => rootOfNat e v b (if (acc + 2 ^ b) ^ e ≤ v then acc + 2 ^ b else acc)

/-- The first `w` bits of the fractional part of the e-th root of a prime. -/
def rootFrac (e w p : Nat) : BitVec w := BitVec.ofNat w (rootOfNat e (p * 2 ^ (e * w)) (w + 8) 0)

/-- The round constants: cube roots of the first 64 or 80 primes. -/
def shaK (w : Nat) : List (BitVec w) := (primesFrom 410 (if w = 32 then 64 else 80) 2).map (rootFrac 3 w)

/-- The initial values: square roots of the first eight primes, and for SHA-384 of the next eight. -/
def shaH (w : Nat) : List (BitVec w) := ((primesFrom 54 16 2).drop (if w = 32 then 0 else 8)).take 8 |>.map (rootFrac 2 w)

/-- The rotation and shift amounts: Σ0, Σ1, σ0, σ1. -/
def shaRot (w : Nat) : List (List Nat) :=
  if w = 32 then [[2, 13, 22], [6, 11, 25], [7, 18, 3], [17, 19, 10]] else [[28, 34, 39], [14, 18, 41], [1, 8, 7], [19, 61, 6]]
def bigSigma {w : Nat} (k : Nat) (x : BitVec w) : BitVec w :=
  match (shaRot w).getD k [] with | [a, b, c] => x.rotateRight a ^^^ x.rotateRight b ^^^ x.rotateRight c | _ => x
def smallSigma {w : Nat} (k : Nat) (x : BitVec w) : BitVec w :=
  match (shaRot w).getD k [] with | [a, b, c] => x.rotateRight a ^^^ x.rotateRight b ^^^ (x >>> c) | _ => x

/-- The message schedule, latest word first. -/
def shaSched {w : Nat} (n : Nat) (ws : List (BitVec w)) : List (BitVec w) :=
  match n with
  | 0 => ws
  | n + 1 => shaSched n ((smallSigma 3 (ws.getD 1 0) + ws.getD 6 0 + smallSigma 2 (ws.getD 14 0) + ws.getD 15 0) :: ws)

/-- One round on the eight working variables. -/
def shaRound {w : Nat} (v : List (BitVec w)) (kw : BitVec w × BitVec w) : List (BitVec w) :=
  match v with
  | [a, b, c, d, e, f, g, h] =>
    let t1 := h + bigSigma 1 e + ((e &&& f) ^^^ (~~~e &&& g)) + kw.1 + kw.2
    let t2 := bigSigma 0 a + ((a &&& b) ^^^ (a &&& c) ^^^ (b &&& c))
    [t1 + t2, a, b, c, d + t1, e, f, g]
  | _ => v

/-- The words of a block, most significant byte first. -/
def beWords (w n : Nat) (bs : List Byte) : List (BitVec w) :=
  match n with
  | 0 => []
  | n + 1 => BitVec.ofNat w (beNat (bs.take (w / 8))) :: beWords w n (bs.drop (w / 8))

/-- The compression of every block of a padded message. -/
def shaBlocks {w : Nat} (ks : List (BitVec w)) (n : Nat) (h : List (BitVec w)) (bs : List Byte) : List (BitVec w) :=
  match n with
  | 0 => h
  | n + 1 =>
    let ws := (shaSched (ks.length - 16) (beWords w 16 bs).reverse).reverse
    shaBlocks ks n (List.zipWith (· + ·) h ((ks.zip ws).foldl shaRound h)) (bs.drop (2 * w))

/-- SHA-2 with words of `w` bits: padding, blocks, the first `len` bytes of the digest. -/
def sha2 (w len : Nat) (msg : List Byte) : List Byte :=
  let b := 2 * w
  let z := (2 * b - 1 - b / 8 - msg.length % b) % b
  let padded := msg ++ [0x80] ++ List.replicate z 0 ++ toBe (b / 8) (8 * msg.length)
  ((shaBlocks (shaK w) (padded.length / b) (shaH w) padded).flatMap fun x => toBe (w / 8) x.toNat).take len

def sha256 (msg : List Byte) : List Byte := sha2 32 32 msg
def sha384 (msg : List Byte) : List Byte := sha2 64 48 msg

/-- HMAC-SHA-384. -/
def hmac384 (key msg : List Byte) : List Byte :=
  let k := (if 128 < key.length then sha384 key else key)
  let k := k ++ List.replicate (128 - k.length) 0
  sha384 (k.map (· ^^^ 0x5C) ++ sha384 (k.map (· ^^^ 0x36) ++ msg))

/-- HKDF-SHA-384 for at most 48 bytes of output. -/
def hkdf384 (salt secret info : List Byte) (len : Nat) : List Byte := (hmac384 (hmac384 salt secret) (info ++ [1])).take len

/-! ### AES (FIPS 197) -/

/-- Multiplication by x and by any element in GF(2^8). -/
def xtime (b : Byte) : Byte := (b <<< 1) ^^^ (if b.getLsbD 7 then 0x1B else 0)
def gmul (a b : Byte) : Byte := ((List.range 8).foldl (fun (r : Byte × Byte) i => (if b.getLsbD i then r.1 ^^^ r.2 else r.1, xtime r.2)) (0, a)).1

/-- The inverse in GF(2^8), 0 for 0: the 254th power. -/
def ginv (a : Byte) : Byte := ((List.range 7).foldl (fun (r : Byte × Byte) _ => let q := gmul r.2 r.2; (gmul r.1 q, q)) (1, a)).1

/-- The substitution box and its inverse. -/
def sbox (b : Byte) : Byte := let i := ginv b; i ^^^ i.rotateLeft 1 ^^^ i.rotateLeft 2 ^^^ i.rotateLeft 3 ^^^ i.rotateLeft 4 ^^^ 0x63
def sboxInv (b : Byte) : Byte := ginv (b.rotateLeft 1 ^^^ b.rotateLeft 3 ^^^ b.rotateLeft 6 ^^^ 0x05)

/-- The exclusive or of two byte strings. -/
def xorBytes (a b : List Byte) : List Byte := List.zipWith (· ^^^ ·) a b

/-- The key schedule, latest word first; `i` is the number of the next word, `nk` the words of the key. -/
def keySched (nk fuel i : Nat) (rcon : Byte) (ws : List (List Byte)) : List (List Byte) :=
  match fuel with
  | 0 => ws
  | n + 1 =>
    let t := ws.headD []
    let u := if i % nk = 0 then xorBytes ((t.drop 1 ++ t.take 1).map sbox) [rcon, 0, 0, 0] else if nk = 8 && i % nk = 4 then t.map sbox else t
    keySched nk n (i + 1) (if i % nk = 0 then xtime rcon else rcon) (xorBytes (ws.getD (nk - 1) []) u :: ws)

/-- A byte string in pieces of `n` bytes. -/
def pieces (n k : Nat) (bs : List Byte) : List (List Byte) :=
  match k with
  | 0 => []
  | k + 1 => bs.take n :: pieces n k (bs.drop n)

/-- The round keys of a key of 16 or 32 bytes. -/
def roundKeys (key : List Byte) : List (List Byte) :=
  let nk := key.length / 4
  let all := (keySched nk (4 * (nk + 7) - nk) nk 1 (pieces 4 nk key).reverse).reverse
  pieces 16 (nk + 7) all.flatten

/-- ShiftRows and its inverse on a block, column by column. -/
def shiftRows (inv : Bool) (b : List Byte) : List Byte := (List.range 16).map fun i => b.getD ((i + (if inv then 12 else 4) * (i % 4)) % 16) 0

/-- MixColumns by the first row of its matrix. -/
def mixColumns (row : List Byte) (b : List Byte) : List Byte :=
  (List.range 16).map fun i => ((List.range 4).map fun j => gmul (row.getD ((4 + j - i % 4) % 4) 0) (b.getD (i / 4 * 4 + j) 0)).foldl (· ^^^ ·) 0

/-- The cipher of one block. -/
def aesEnc (key b : List Byte) : List Byte :=
  match roundKeys key with
  | [] => b
  | k0 :: ks =>
    let b := ks.dropLast.foldl (fun b k => xorBytes (mixColumns [2, 3, 1, 1] (shiftRows false (b.map sbox))) k) (xorBytes b k0)
    xorBytes (shiftRows false (b.map sbox)) (ks.getLastD [])

/-- The inverse cipher of one block. -/
def aesDec (key b : List Byte) : List Byte :=
  match (roundKeys key).reverse with
  | [] => b
  | k0 :: ks =>
    let b := ks.dropLast.foldl (fun b k => mixColumns [14, 11, 13, 9] (xorBytes ((shiftRows true b).map sboxInv) k)) (xorBytes b k0)
    xorBytes ((shiftRows true b).map sboxInv) (ks.getLastD [])

/-- Counter mode over given counter blocks. -/
def aesCtr (key : List Byte) (block : Nat → List Byte) (bs : List Byte) : List Byte :=
  xorBytes bs ((List.range (ceilDiv bs.length 16)).flatMap fun i => aesEnc key (block i))

/-- A block as a number, first byte most significant. -/
def blockOf (bs : List Byte) : BitVec 128 := BitVec.ofNat 128 (beNat bs)

/-- Doubling in GF(2^128) with the reduction polynomial 0x87. -/
def dbl128 (t : BitVec 128) : BitVec 128 := (t <<< 1) ^^^ (if t.getLsbD 127 then 0x87 else 0)

/-- AES-CMAC (SP 800-38B; R402). -/
def aesCmac (key msg : List Byte) : List Byte :=
  let l := blockOf (aesEnc key (List.replicate 16 0))
  let n := max 1 (ceilDiv msg.length 16)
  let last := msg.drop (16 * (n - 1))
  let tail := if last.length = 16 then blockOf last ^^^ dbl128 l else blockOf (last ++ [0x80] ++ List.replicate (15 - last.length) 0) ^^^ dbl128 (dbl128 l)
  let x := (pieces 16 (n - 1) msg).foldl (fun x b => blockOf (aesEnc key (toBe 16 (x ^^^ blockOf b).toNat))) 0
  aesEnc key (toBe 16 (x ^^^ tail).toNat)

/-- The CRC-8 of a G-pier PLOAM message: polynomial x^8 + x^2 + x + 1. -/
def crc8 (bs : List Byte) : Byte := bs.foldl (fun c b => (List.range 8).foldl (fun c _ => (c <<< 1) ^^^ (if c.getLsbD 7 then 7 else 0)) (c ^^^ b)) 0

/-! ### PON keys (R395, R402; ITU-T G.987.3, PRESUMED, assumption 5) -/

/-- The PLOAM_IK of broadcast messages and of an ONU without an MSK. -/
def defaultIk : Nat := leNat (List.replicate 16 0x55)

/-- A key derived from an MSK: label 1 the PLOAM_IK, 2 the KEK, through the session key over serial number and PON-TAG. -/
def ponDerive (label msk : Nat) (serial tag : List Byte) : Nat :=
  let text (n : Nat) : List Byte := toBe 16 n
  let sk := aesCmac (toLe 16 msk) (serial ++ tag ++ toBe 8 0x53657373696F6E4B)
  leNat (aesCmac sk (if label = 1 then text 0x504C4F414D496E7465677274794B6579 else text 0x4B6579456E6372797074696F6E4B6579))

/-- A key as Key_Report carries it, one block under the KEK; none where it is no whole block. -/
def unwrapKey (kek : Nat) (bs : List Byte) : Option Nat := if bs.length = 16 then some (leNat (aesDec (toLe 16 kek) bs)) else none

/-- The MIC of a PLOAM message: direction 1 down, 2 up, then the message. -/
def ploamMic (ik dir : Nat) (msg : List Byte) : List Byte := (aesCmac (toLe 16 ik) (toBe 1 dir ++ msg)).take 8

/-- AES-128 counter mode over a PON payload that starts at a counter value (R394). -/
def ponCtr (key ctr : Nat) (bs : List Byte) : List Byte := aesCtr (toLe 16 key) (Config.ponBlock ctr) bs

/-! ### GCM-AES-XPN-256 (R404; IEEE 802.1AE) -/

/-- Multiplication in GF(2^128) with GCM's bit order: `v` walks along the bits of `x` from the first. -/
def ghMul (n : Nat) (x y v acc : BitVec 128) : BitVec 128 :=
  match n with
  | 0 => acc
  | n + 1 => ghMul n (x <<< 1) y ((v >>> 1) ^^^ (if v.getLsbD 0 then 0xE1#128 <<< 120 else 0)) (if x.getLsbD 127 then acc ^^^ v else acc)

/-- GHASH of a string padded to whole blocks. -/
def ghash (h : BitVec 128) (bs : List Byte) : BitVec 128 :=
  (pieces 16 (ceilDiv bs.length 16) bs).foldl (fun y b => let x := y ^^^ BitVec.ofNat 128 (beNat (b ++ List.replicate (16 - b.length) 0)); ghMul 128 x h h 0) 0

/-- The nonce: salt XOR SSCI and PN. -/
def xpnIv (salt ssci pn : Nat) : List Byte := xorBytes (toLe 12 salt) (toBe 4 ssci ++ toBe 8 pn)

/-- Whole blocks by zero bytes. -/
def padBlock (bs : List Byte) : List Byte := bs ++ List.replicate (ceilDiv bs.length 16 * 16 - bs.length) 0

/-- The tag over associated data and ciphertext. -/
def gcmTag (key iv aad ct : List Byte) : List Byte :=
  let h := BitVec.ofNat 128 (beNat (aesEnc key (List.replicate 16 0)))
  let y := ghash h (padBlock aad ++ padBlock ct ++ toBe 8 (8 * aad.length) ++ toBe 8 (8 * ct.length))
  xorBytes (toBe 16 y.toNat) (aesEnc key (iv ++ toBe 4 1))

/-- Encryption: the protected bytes, then the ICV. -/
def gcmSeal (sak salt ssci pn : Nat) (aad msg : List Byte) : List Byte :=
  let key := toLe 32 sak
  let iv := xpnIv salt ssci pn
  let ct := aesCtr key (fun i => iv ++ toBe 4 (2 + i)) msg
  ct ++ gcmTag key iv aad ct

/-- Decryption: the clear bytes, and whether the ICV holds. -/
def gcmOpen (sak salt ssci pn : Nat) (aad msg : List Byte) : List Byte × Bool :=
  let key := toLe 32 sak
  let iv := xpnIv salt ssci pn
  let ct := msg.take (msg.length - 16)
  (aesCtr key (fun i => iv ++ toBe 4 (2 + i)) ct, 16 ≤ msg.length && gcmTag key iv aad ct = msg.drop (msg.length - 16))

/-! ### XTS-AES-256 (R413 to R415; IEEE 1619) -/

/-- One block of XTS, by the cipher or its inverse. -/
def xtsBlock (enc : Bool) (key1 : List Byte) (t : BitVec 128) (b : List Byte) : List Byte :=
  let k := toLe 16 t.toNat
  xorBytes (if enc then aesEnc key1 (xorBytes b k) else aesDec key1 (xorBytes b k)) k

/-- The blocks of a data unit; a short last block steals from the one before it. `n` bounds the blocks. -/
def xtsBlocks (enc : Bool) (key1 : List Byte) (n : Nat) (t : BitVec 128) (bs : List Byte) : List Byte :=
  match n with
  | 0 => []
  | n + 1 =>
    if bs.length < 16 then []
    else if bs.length < 32 && 16 < bs.length then
      let u := dbl128 t
      let m := bs.length - 16
      let c := xtsBlock enc key1 (if enc then t else u) (bs.take 16)
      xtsBlock enc key1 (if enc then u else t) (bs.drop 16 ++ c.drop m) ++ c.take m
    else xtsBlock enc key1 t (bs.take 16) ++ xtsBlocks enc key1 n (dbl128 t) (bs.drop 16)

/-- A data unit under a key pair and a data unit number; the pair's first key is its low 256 bits. -/
def xtsUnit (enc : Bool) (pair tweak : Nat) (bs : List Byte) : List Byte :=
  let t := BitVec.ofNat 128 (leNat (aesEnc (toLe 32 (pair / 2 ^ 256)) (toLe 16 tweak)))
  xtsBlocks enc (toLe 32 pair) (ceilDiv bs.length 16) t bs

/-! ### Key wrap (R418; NIST SP 800-38F, KW) -/

/-- The steps of the wrapping function: `i` is the step's number. -/
def kwSteps (kek : List Byte) (n i : Nat) (a : List Byte) (rs : List (List Byte)) : List Byte × List (List Byte) :=
  match n, rs with
  | n + 1, r :: t =>
    let b := aesEnc kek (a ++ r)
    kwSteps kek n (i + 1) (xorBytes (b.take 8) (toBe 8 i)) (t ++ [b.drop 8])
  | _, _ => (a, rs)

/-- The steps of the unwrapping function, with the semiblocks in reverse. -/
def kwUndo (kek : List Byte) (i : Nat) (a : List Byte) (rs : List (List Byte)) : List Byte × List (List Byte) :=
  match i, rs with
  | j + 1, r :: t =>
    let b := aesDec kek (xorBytes a (toBe 8 (j + 1)) ++ r)
    kwUndo kek j (b.take 8) (t ++ [b.drop 8])
  | _, _ => (a, rs)

/-- A key of `n` semiblocks wrapped under a 256-bit key, and unwrapped: none where the check fails. -/
def kwWrap (n kek key : Nat) : List Byte :=
  let r := kwSteps (toLe 32 kek) (6 * n) 1 (List.replicate 8 0xA6) (pieces 8 n (toLe (8 * n) key))
  r.1 ++ r.2.flatten
def kwUnwrap (n kek : Nat) (bs : List Byte) : Option Nat :=
  let r := kwUndo (toLe 32 kek) (6 * n) (bs.take 8) (pieces 8 n (bs.drop 8)).reverse
  if bs.length = 8 * n + 8 && r.1 = List.replicate 8 0xA6 then some (leNat r.2.reverse.flatten) else none

/-! ### ECDSA and key agreement (FIPS 186-5) -/

/-- A curve y² = x³ − 3x + b over a prime field: bytes of a field element, p, b, the order n, the base point. -/
structure Curve where
  bytes : Nat
  p : Nat
  b : Nat
  n : Nat
  gx : Nat
  gy : Nat
  deriving DecidableEq, Repr

def p256 : Curve := {
  bytes := 32
  p := 2 ^ 256 - 2 ^ 224 + 2 ^ 192 + 2 ^ 96 - 1
  b := 0x5ac635d8aa3a93e7b3ebbd55769886bc651d06b0cc53b0f63bce3c3e27d2604b
  n := 0xffffffff00000000ffffffffffffffffbce6faada7179e84f3b9cac2fc632551
  gx := 0x6b17d1f2e12c4247f8bce6e563a440f277037d812deb33a0f4a13945d898c296
  gy := 0x4fe342e2fe1a7f9b8ee7eb4a7c0f9e162bce33576b315ececbb6406837bf51f5 }

def p384 : Curve := {
  bytes := 48
  p := 2 ^ 384 - 2 ^ 128 - 2 ^ 96 + 2 ^ 32 - 1
  b := 0xb3312fa7e23ee7e4988e056be3f82d19181d9c6efe8141120314088f5013875ac656398d8a2ed19d2a85c8edd3ec2aef
  n := 0xffffffffffffffffffffffffffffffffffffffffffffffffc7634d81f4372ddf581a0db248b0a77aecec196accc52973
  gx := 0xaa87ca22be8b05378eb1c71ef320ad746e1d3b628ba79b9859f741e082542a385502f25dbf55296c3a545e3872760ab7
  gy := 0x3617de4a96262c6f5d9e98bf9292dc29f8f41dbd289a147ce9da3113b5f0b8c00a60b1ce1d7e819d7a431d7c90ea0e5f }

/-- Powers modulo a number, by the exponent's bits from the highest. -/
def powMod (m b e bits : Nat) : Nat :=
  match bits with
  | 0 => 1 % m
  | n + 1 => let r := powMod m b (e / 2) n; r * r % m * (if e % 2 = 1 then b else 1) % m

/-- The inverse modulo a prime. -/
def invMod (m a : Nat) : Nat := powMod m (a % m) (m - 2) 384

/-- The sum of two points, none the point at infinity. -/
def Curve.add (c : Curve) (x y : Option (Nat × Nat)) : Option (Nat × Nat) :=
  match x, y with
  | none, q => q
  | q, none => q
  | some (x1, y1), some (x2, y2) =>
    if x1 = x2 && (y1 + y2) % c.p = 0 then none
    else
      let l := if x1 = x2 then (3 * x1 * x1 + c.p - 3) * invMod c.p (2 * y1) % c.p else (y2 + c.p - y1) * invMod c.p (x2 + c.p - x1) % c.p
      let x3 := (l * l + 2 * c.p - x1 - x2) % c.p
      some (x3, (l * (x1 + c.p - x3) + c.p - y1) % c.p)

/-- A multiple of a point. -/
def Curve.mul (c : Curve) (k : Nat) (q : Option (Nat × Nat)) (bits : Nat) : Option (Nat × Nat) :=
  match bits with
  | 0 => none
  | n + 1 => let r := c.mul (k / 2) q n; let d := c.add r r; if k % 2 = 1 then c.add d q else d

/-- A point from its uncompressed form: 0x04, X, Y; none where it is not on the curve. -/
def Curve.point (c : Curve) (bs : List Byte) : Option (Nat × Nat) :=
  let x := beAt bs 1 c.bytes
  let y := beAt bs (1 + c.bytes) c.bytes
  if bs.length = 1 + 2 * c.bytes && bs.take 1 = [4] && x < c.p && y < c.p && (y * y) % c.p = (x * x * x + (c.p - 3) * x + c.b) % c.p then some (x, y) else none

/-- Whether a signature r, s holds over a digest under a public key. -/
def Curve.verify (c : Curve) (key digest sig : List Byte) : Bool :=
  let r := beAt sig 0 c.bytes
  let t := beAt sig c.bytes c.bytes
  match c.point key with
  | none => false
  | some q =>
    sig.length = 2 * c.bytes && 0 < r && r < c.n && 0 < t && t < c.n &&
      let w := invMod c.n t
      match c.add (c.mul (beNat digest * w % c.n) (some (c.gx, c.gy)) 384) (c.mul (r * w % c.n) (some q) 384) with
      | some (x, _) => x % c.n = r
      | none => false

/-- The signature over a digest under a private key, with a number for this message. -/
def Curve.sign (c : Curve) (d k : Nat) (digest : List Byte) : List Byte :=
  let k := 1 + k % (c.n - 1)
  let r := match c.mul k (some (c.gx, c.gy)) 384 with | some (x, _) => x % c.n | none => 0
  toBe c.bytes r ++ toBe c.bytes (invMod c.n k * (beNat digest + r * d) % c.n)

/-- The public value of a private one, uncompressed. -/
def Curve.public (c : Curve) (d : Nat) : List Byte :=
  match c.mul (1 + d % (c.n - 1)) (some (c.gx, c.gy)) 384 with
  | some (x, y) => 4 :: (toBe c.bytes x ++ toBe c.bytes y)
  | none => []

/-- The shared secret of a private and a public value; empty where the public one is no point. -/
def Curve.agree (c : Curve) (d : Nat) (theirs : List Byte) : List Byte :=
  match (c.point theirs).bind fun q => c.mul (1 + d % (c.n - 1)) (some q) 384 with
  | some (x, _) => toBe c.bytes x
  | none => []

end Sys2Proof.Machine
end

