-- ==== Sys2Proof/Machine/StateBase.lean ====
section
/-! DEFINITION. What leaves the device, as the State records it, newest first (assumption 6): register reads answered, MSI-X
vectors, DMA writes, frames, messages and pulses. -/

namespace Sys2Proof.Machine

/-- The downstream PLOAM messages of R138, by what they do. The spec names no occasion on which Saend sends one of the power,
profile and protection messages or Encrypted_Port-ID (assumption 127). -/
inductive Ploam where
  | assignOnuId | rangingTime | deactivate | disableSerial | enableSerial | requestRegistration | burstProfile
  | upstreamOverhead | assignAllocId | keyControl | keySwitchingTime | requestKey | sleepAllow | popup
  | systemProfile | channelProfile | protectionControl | changePowerLevel | configurePortId | encryptedPortId
  deriving DecidableEq, Repr

/-- A message's number, by the order of the list above. -/
def Ploam.code : Ploam → Nat
  | .assignOnuId => 0 | .rangingTime => 1 | .deactivate => 2 | .disableSerial => 3 | .enableSerial => 4 | .requestRegistration => 5
  | .burstProfile => 6 | .upstreamOverhead => 7 | .assignAllocId => 8 | .keyControl => 9 | .keySwitchingTime => 10
  | .requestKey => 11 | .sleepAllow => 12 | .popup => 13 | .systemProfile => 14 | .channelProfile => 15
  | .protectionControl => 16 | .changePowerLevel => 17 | .configurePortId => 18 | .encryptedPortId => 19

/-- A flit of a Hawser codeword: its TYPE and its valid payload bytes, at most 62; type 0 is an idle one (R467). -/
structure Flit where
  kind : Nat := 0
  payload : List Byte := []
  deriving DecidableEq, Repr

/-- One thing that left the device. -/
inductive Output where
  /-- The answer to a register read on a channel (R54, R73, R539). -/
  | readData (chan : Nat) (w : Word)
  /-- An MSI-X vector of a function (R98). -/
  | msix (fn vec : Nat)
  /-- Bytes written by DMA through a function (R103, R118). -/
  | dma (fn addr : Nat) (bytes : List Byte)
  /-- A completed descriptor of a ring: what the device writes into its words 3 to 6 (R94), and the bytes written to its buffer. -/
  | ringDone (fn ring ix : Nat) (words : List Word) (bytes : List Byte)
  /-- An OMCI message sent on an ONU's OMCC (R95). -/
  | omci (span onu : Nat) (bytes : List Byte)
  /-- A downstream PLOAM message of a Pier, to an ONU-ID or to all, with its sequence number 0 on the G-pier, and its
bytes (R137, R402). -/
  | ploamDown (span pier onu : Nat) (kind : Ploam) (args : List Nat) (seq : Nat) (bytes : List Byte)
  /-- A set-point sent over AVSBus, mV (R128). -/
  | avs (mv : Nat)
  /-- A frame sent on an Ethernet port (R368). -/
  | ethTx (port : Nat) (bytes : List Byte)
  /-- A Pier frame starts: its superframe counter, its PON-ID on the H-pier and X-pier, and its map, as rows of numbers (R135,
  R136, R247). -/
  | pierFrame (span pier counter ponId : Nat) (map : List (List Nat))
  /-- A payload unit of a Pier: the line port ID, its Key_Index, 0 where it is in clear, and the bytes (R139, R368). -/
  | pierTx (span pier portId keyIx : Nat) (bytes : List Byte)
  /-- A frame on a loop bus: the device selected and the 32 bits of MOSI (R425, R426). -/
  | loopFrame (bus dev : Nat) (w : Word)
  /-- A strobe on a pin, named by its group and number. -/
  | pulse (group n : Nat)
  /-- A pin driven high from one instant of the counter to another, ps: group 0 TIME_EVT by number, 1 TIME_PPS_OUT (R230, R235), 2 PIER_BRST
  and 3 PIER_BEN by 3 × Span + Pier (R551). -/
  | level (group n rise fall : Nat)
  /-- Codewords of idle flits to the mate: the SEQ of the first, and how many (R467). -/
  | hawserIdle (seq count : Nat)
  /-- What a Hawser lane sends from now on: 0 nothing, 1 its test pattern, 2 idle codewords, 3 the link's codewords, each codeword with this
  LANES in its header (R460, R466 to R468). -/
  | hawserLine (lane content lanes : Nat)
  /-- A codeword to the mate: SEQ, LANE, LANES and its ten flits (R467, R468). -/
  | codeword (seq lane lanes : Nat) (flits : List Flit)
  /-- A lane's receiver sends its own coefficient requests of start-up training, an open value (R457). -/
  | trainAsk (lane asks : Nat)
  /-- The status with which a lane answers the far end's last requests for PRE and POST: 0 met, 1 minimum, 2 maximum (R457). -/
  | trainStatus (lane pre post : Nat)
  /-- A Lanyard frame: port, destination worker, type, content, and the bytes sent (R525, R526). -/
  | lanyard (port dest type : Nat) (data : List Nat) (bytes : List Byte)
  /-- A port starts or ends the fault sequence of its clause (R461). -/
  | portFault (port : Nat) (on : Bool)
  /-- A pseudowire packet of a circuit (R494). -/
  | pseudowire (circuit : Nat) (bytes : List Byte)
  /-- A position's VC-12 multiframe carries this many data bits more than 1,024, by its justification bits (R499). -/
  | justified (pos : Nat) (bits : Int)
  /-- E1 octets of a circuit played into its TDM position, at the recovered clock's offset, which justification absorbs (R491, R496, R499). -/
  | playout (circuit : Nat) (pos : Option Nat) (freq : Int) (bytes : List Byte)
  /-- An STM-16 frame sent on a lane, with its overhead (R479, R484, R485). -/
  | stmTx (lane : Nat) (frame : StmFrame)
  /-- The SPI pins went to high impedance (R113). -/
  | spiReleased
  deriving DecidableEq, Repr

end Sys2Proof.Machine
end

