-- ==== Sys2Proof/Machine/StateControl.lean ====
section
/-! DEFINITION. The state of the control complex: mailbox channels, sessions, transactions, Cleats, DMA rings, events,
counters, boot, power domains and thermal protection (chapters 02, 03 and 17 of the spec). Field defaults are the reset
values; `DC 1` marks those for which the spec states none (assumption 1). -/

namespace Sys2Proof.Machine

/-- A word of an inbound queue: `hd` marks a header word, `marked` a word lost to a collision (R56, R64). -/
structure InWord where
  w : Word
  hd : Bool
  marked : Bool
  deriving DecidableEq, Repr

/-- A word of an outbound queue: `hd` the first, `last` the last word of a message (R56); `event` says that it belongs to an event message (R59). -/
structure OutWord where
  w : Word
  hd : Bool
  last : Bool
  event : Bool
  deriving DecidableEq, Repr

/-- A message held in the outbound backlog (R65). -/
structure OutMsg where
  words : List Word
  event : Bool
  deriving DecidableEq, Repr

/-- A call that Saend has read and not yet answered (R60, R62): its channel, SEQUENCE and code; `id` tells two of them apart. -/
structure Ref where
  chan : Nat
  seq : Nat
  code : Nat
  id : Nat
  deriving DecidableEq, Repr

/-- The routing of one event group for one channel (R102, R536). -/
structure Route where
  msgMask : Word := 0
  vecMask : Word := 0
  vector : Nat
  deriving DecidableEq, Repr

/-- What a channel keeps of one source: occurrences since its last `EVT_DETAIL`, the time and DETAIL words of the last it may see
(R102), occurrences its next message carries, whether one of them was routed and has sent no message yet, and whether the 1 ms of R104 runs. -/
structure ChanEvt where
  count : Nat := 0
  held : Nat := 0
  due : Bool := false
  last : Nat := 0
  detail : List Word := []
  window : Bool := false
  deriving DecidableEq, Repr

/-- A group's pending and mask registers of one function, and the bits set since the function's last read (R537, R539). -/
structure EvtRegs where
  pend : Word := 0
  mask : Word := 0
  fresh : Word := 0
  deriving DecidableEq, Repr

/-- A mailbox channel and its session (R54, R56, R63 to R65, R77, R81, R119). -/
structure Channel where
  inq : List InWord := []
  inExpect : Nat := 0
  inColl : Bool := false
  outq : List OutWord := []
  outExpect : Nat := 0
  outColl : Bool := false
  backlog : List OutMsg := []
  freeThresh : Nat := 16
  inSpaceEn : Bool := false
  outMsgEn : Bool := true
  session : Option Nat := none
  txnSerial : Nat := 1
  waiting : List Ref := []
  nextId : Nat := 0
  routes : KMap Route := []
  evts : KMap ChanEvt := []
  report : Option (List Byte) := none
  deriving DecidableEq, Repr

/-- The registers of one DMA ring (R92), its pending restart (R93) and its completions not yet signalled. -/
structure Ring where
  baseLo : Word := 0
  baseHi : Word := 0
  log2 : Nat := 6
  cons : Nat := 0
  prod : Nat := 0
  coalesce : Nat := 1
  irqEn : Bool := false
  active : Bool := false
  enable : Bool := false
  restart : Bool := false
  drops : Nat := 0
  trunc : Bool := false
  ownerDrop : Bool := false
  faulted : Bool := false
  uncounted : Nat := 0
  deriving DecidableEq, Repr

/-- The timebase snapshot of one function (R215, R216). -/
structure Snap where
  valid : Bool := false
  seq : Nat := 0
  freqSrc : Nat := 0
  phaseSrc : Nat := 0
  state : Nat := 0
  ns : Nat := 0
  frac : Nat := 0
  utc : Nat := 0
  freq : Int := 0
  deriving DecidableEq, Repr

/-- What one PCIe function holds besides its channel (R45): rings, event registers, snapshot, MSI-X masks and pending bits (R470).
An unlisted vector is masked, as PCI Express Base 4.0 resets it (assumption 36). -/
structure Func where
  rings : KMap Ring := []
  evt : KMap EvtRegs := []
  snap : Snap := {}
  msixMask : KMap Bool := []
  msixPend : KMap Bool := []
  deriving DecidableEq, Repr

/-- A Cleat: its holder, 0xFF when free, and the identities that may use it (R72, R76). -/
structure Cleat where
  holder : Nat := 0xFF
  mask : Nat := 0xFFFF
  smb : Bool := true
  deriving DecidableEq, Repr

/-- The kinds of object that a transaction can hold (R82, R83). -/
inductive ObjKind where
  | slice | bind | cleat | route | avs | thermal
  | pier | profile | defectCfg | spliceCfg | onuExpect | discovery | rangeCal | reach | drift | stbyDelta
  | timeCfg | keystone | asym | timeEvt | ptpPort | alloc | sliceBudget | truss | openBank | openBind | trussMc
  | dist | pvid | vlan | bridge | repl | port | fdb | direct | route46 | fwdTable | dscp | trap
  | hankPart | sliceHank | sliceQueues | qprofile | qnode | queue | viaduct | schedNode | policer | gateList
  | pierSched | uplinkSched | uplinkBudget | ponCipher | ponMsk | bcastKey | macsecPort | macsecSa | macsecSc
  | macsecTx | pairKey | loopBus | loop | laneTx | laneRx | laneDetect | portMode | sdh | sdhTrace | msp | tsi
  | circuit | pair | lanyard | registry | shelfBudget | onuKey | onu | phaseStep
  deriving DecidableEq, Repr

/-- An object a transaction can hold: its kind and its number. -/
structure Obj where
  kind : ObjKind
  ix : Nat
  deriving DecidableEq, Repr

/-- A staged change: the call as it was read (R81, R85). `dma` is what Saend read by DMA for it, `mirrored` that it came in a COMMIT
record of the mate (R512). -/
structure Item where
  code : Nat
  chan : Nat
  slice : Option Nat
  version : Nat
  words : List Word
  dma : List Byte
  objs : List Obj
  mirrored : Bool := false
  deriving DecidableEq, Repr

/-- Where a transaction stands (R82, R100). -/
inductive TxnPhase where
  | opened
  | accepted (at_ : Nat)
  | applied
  deriving DecidableEq, Repr

/-- A transaction (R81 to R89): `ref` is the call whose response waits for the apply point. -/
structure Txn where
  handle : Nat
  chan : Nat
  implicit : Bool
  items : List Item := []
  phase : TxnPhase := .opened
  holds : List Obj := []
  ref : Option Ref := none
  deriving DecidableEq, Repr

/-- The state of a switchable power domain (R122). -/
inductive DomState where
  | off | ramp | on | drain
  deriving DecidableEq, Repr

/-- One power domain: a pending switch-on (R124), whether its RAMP came from one, whether an OFF waits for ON, the ON and OFF calls
that wait besides the one that a queued switch-on carries, the pace of its latest window, and the instant at which it came ON. -/
structure Domain where
  st : DomState := .off
  pendingOn : Bool := false
  onFromPending : Bool := false
  offAfterRamp : Bool := false
  onRefs : List Ref := []
  offRefs : List Ref := []
  pace : Nat := 0
  paceValid : Bool := false
  onSince : Nat := 0
  deriving DecidableEq, Repr

/-- A switch-on in the queue of R127: its domain, the call it answers, whether it is a pending ON of R124. -/
structure SwitchOn where
  dom : Nat
  ref : Option Ref
  fromPending : Bool
  deriving DecidableEq, Repr

/-- Boot, straps, fuses, measurement and the flash (R109 to R120). The flash is byte memory; an unlisted byte reads 0xFF (assumption 2).
`choiceSlot` holds for every reset, `choiceOnce` for the next one (R114); `lostEvents` is what a restart lost (R108). -/
structure Boot where
  released : Bool := false
  strapRole : Nat := 0
  strapBoot : Nat := 0
  strapSmb : Nat := 0
  slot : Nat := 0
  resultA : Nat := 0
  resultB : Nat := 0
  stage : Nat := 0
  trying : Option Nat := none
  svnMin : Nat := 0
  svnRunning : Nat := 0
  meas : KMap (List Byte) := []
  meas3Count : Nat := 0
  ownerHash : List Byte := []
  ownerState : Nat := 0
  flash : KMap Byte := []
  choiceSlot : Option Nat := none
  choiceOnce : Option Nat := none
  ready : Bool := false
  restarting : Bool := false
  lostEvents : Nat := 0
  resetAsked : Bool := false
  deriving DecidableEq, Repr

/-- Power, voltage and thermal control (R121 to R133). `shedding` is the domain being shed, `shedNext` the place reached in the shed
list, `paceShed` that shedding goes on for the pace, `lastPace` the end of the latest pace window (R34). -/
structure Power where
  doms : KMap Domain := []
  queue : List SwitchOn := []
  preRamp : Option SwitchOn := none
  vdd : Nat := 750
  lowerRuns : Nat := 0
  raise : Nat := 1965
  lower : Nat := 2183
  shedList : List Nat := []
  shedNext : Nat := 0
  shedding : Option Nat := none
  paceShed : Bool := false
  warn : Nat := 105
  tj : Int := 0
  tripped : Bool := false
  lastPace : Nat := 0
  paceLowValid : Bool := false
  paceLowDom : Nat := 0
  paceLow : Nat := 0
  deriving DecidableEq, Repr

/-- Mailboxes, functions, Cleats, bindings, ownership ranges (by 32 × slice + Span; R26), transactions, events and counters;
`omciDrops` counts by slice the OMCI messages that no function was there to take (R95), which R559 gives no identifier; `config` holds the committed configuration that a pair shares,
one item for each call and object (R512, R522). -/
structure Control where
  chans : KMap Channel := []
  funcs : KMap Func := []
  cleats : KMap Cleat := []
  numVfs : Nat := 0
  binds : KMap Nat := []
  slices : List Nat := [0]
  onuRanges : KMap (Nat × Nat) := []
  allocRanges : KMap (Nat × Nat) := []
  vrfOwners : KMap Nat := []
  txns : List Txn := []
  later : List Obj := []
  cntRun : KMap Nat := []
  cntSnap : KMap Nat := []
  omciDrops : KMap Nat := []
  snapSecond : Nat := 0
  lastApply : Nat := 0
  lastSecond : Nat := 0
  config : List Item := []
  deriving DecidableEq, Repr

end Sys2Proof.Machine
end

