-- ==== Sys2Proof/Machine/StateCipher.lean ====
section
/-! DEFINITION. The state of the encryption engines and keys, the SDH and circuit emulation block, the protection pair, the
Hawser and the Lanyard shelf (chapters 12, 15 and 16). Field defaults are the reset values of the spec; DC 1 marks those for
which the spec states none (assumption 1). -/

namespace Sys2Proof.Machine

/-- A key slot's state (R393). -/
inductive SlotSt where
  | empty | next | active | retiring | expired
  deriving DecidableEq, Repr

/-- A key slot: its state, its key, and the frame at which it switched or is to switch, none while that is not fixed, and whether its margin
has been told; of a NEXT key the instant at which it was loaded and the mirror record whose acknowledgement its switch frame waits for
(R393, R397, R399, R418). -/
structure Slot where
  st : SlotSt := .empty
  key : Nat := 0
  at_ : Option Nat := none
  told : Bool := false
  loaded : Nat := 0
  ack : Option Nat := none
  deriving DecidableEq, Repr

/-- An ONU's keys (R391, R395 to R402). Slots are indices 1 and 2; `frags` the fragments of the key that comes, by number, `lastFrag` the
number of the last one. -/
structure OnuKeys where
  s1 : Slot := {}
  s2 : Slot := {}
  exchange : Bool := false
  frags : KMap (List Byte) := []
  lastFrag : Option Nat := none
  msk : Option Nat := none
  ik : Nat := 0
  kek : Nat := 0
  deriving DecidableEq, Repr

/-- A Pier's cipher settings and broadcast slots (R399, R401, R424). -/
structure PierKeys where
  life : Nat := 691200000
  margin : Nat := 80000
  autoRoll : Bool := true
  lead : Nat := 8
  timeout : Nat := 1000
  retire : Nat := 8000
  s1 : Slot := {}
  s2 : Slot := {}
  deriving DecidableEq, Repr

/-- A MACsec SA: SAK, salt, SSCI, next or lowest acceptable PN, the PN committed for it, whether it has sent or validated a frame (R405). -/
structure Sa where
  sak : Nat
  salt : Nat
  ssci : Nat
  pn : Nat := 1
  pn0 : Nat := 1
  used : Bool := false
  deriving DecidableEq, Repr

/-- A receive SC (R404). -/
structure RxSc where
  sci : Nat
  sas : KMap Sa := []
  deriving DecidableEq, Repr

/-- The SecY of an uplink port (R404 to R412). -/
structure SecY where
  enable : Bool := false
  includeSci : Bool := true
  replay : Bool := true
  window : Nat := 64
  sci : Nat := 0
  bypass : List Nat := [0x888E, 0x8809, 0, 0]
  pnAlarm : Nat := 0xC000000000000000
  tx : KMap Sa := []
  txAn : Option Nat := none
  nextAn : Option Nat := none
  rx : KMap RxSc := []
  deriving DecidableEq, Repr

/-- A state of pair-key establishment (R424). -/
inductive PairKeySt where
  | none | establishing | established | failed
  deriving DecidableEq, Repr

/-- The pair key (R417): `got` the material received by step; `mine` this device's private ephemeral value, `nonce` its nonce. -/
structure PairKey where
  hash : List Byte := []
  rekey : Nat := 24
  st : PairKeySt := .none
  since : Nat := 0
  fails : Nat := 0
  key : Nat := 0
  got : KMap (List Byte) := []
  mine : Nat := 0
  nonce : Nat := 0
  deriving DecidableEq, Repr

/-- Keys and entropy. ONU keys by 512 × Span + ONU, Pier keys by 3 × Span + Pier, SecYs by port, XTS keys and generations by slice;
`wrap` the device-internal key under which Saend keeps the committed copies (R392). -/
structure Cipher where
  onus : KMap OnuKeys := []
  piers : KMap PierKeys := []
  secys : KMap SecY := []
  xts : KMap Nat := []
  xtsGen : KMap Nat := []
  pair : PairKey := {}
  wrap : Option Nat := none
  healthy : Bool := true
  failures : Nat := 0
  reseeds : Nat := 0
  deriving DecidableEq, Repr

/-! ### SDH and circuit emulation (chapter 15) -/

/-- A pointer interpreter (R480): state 0 normal, 1 AIS, 2 LOP; offset; the candidate new offset and its run; runs of invalid,
NDF, all-ones and valid reads; reads since the last change. -/
structure PtrInt where
  st : Nat := 0
  offset : Nat := 0
  cand : Nat := 0
  candRun : Nat := 0
  badRun : Nat := 0
  ndfRun : Nat := 0
  onesRun : Nat := 0
  okRun : Nat := 0
  since : Nat := 3
  deriving DecidableEq, Repr

/-- A trace (R482): CHECK, the 64 bytes given for the expected and for the transmitted trace, bytes being gathered, the last whole trace and its run, the accepted one, TIM. -/
structure Trace where
  check : Bool := false
  expected : List Byte := []
  sent : List Byte := []
  part : List Byte := []
  last : List Byte := []
  run : Nat := 0
  accepted : List Byte := []
  tim : Bool := false
  deriving DecidableEq, Repr

/-- A debounced condition: run of frames with it, run without it, whether it stands. -/
structure Cond where
  on : Nat := 0
  off : Nat := 0
  set : Bool := false
  deriving DecidableEq, Repr

/-- An AU-4 on a lane (R480 to R484); `b3` the last frame's violations. -/
structure Au where
  ptr : PtrInt := {}
  j1 : Trace := {}
  uneq : Cond := {}
  plm : Cond := {}
  rdi : Cond := {}
  h4 : Nat := 0
  oom : Bool := true
  stepRun : Nat := 0
  lom : Cond := {}
  b3 : Nat := 0
  deriving DecidableEq, Repr

/-- A TU-12 position on a lane: violations and bits covered in the V5 windows, SF first, and the numbers of the last windows that ended; `bad`
that the last multiframe's BIP-2 failed. -/
structure Tu where
  ptr : PtrInt := {}
  j2 : Trace := {}
  uneq : Cond := {}
  plm : Cond := {}
  rdi : Cond := {}
  exc : Bool := false
  deg : Bool := false
  sfErr : Nat := 0
  sfBits : Nat := 0
  sdErr : Nat := 0
  sdBits : Nat := 0
  sfWin : Nat := 0
  sdWin : Nat := 0
  bad : Bool := false
  deriving DecidableEq, Repr

/-- An STM-16 lane (R478 to R486): `pos` where the pattern stands in frame and `cand` where a candidate does, in bits of a frame; B2 counts of the SF and SD windows and the numbers of the last windows that ended; `b2` the last frame's
violations, `failAt` and `degAt` when a signal fail or degrade that stands began, ns. -/
structure Sdh where
  oof : Bool := true
  lof : Bool := false
  cand : Option Nat := none
  pos : Nat := 0
  badRun : Nat := 0
  msAis : Cond := {}
  msRdi : Cond := {}
  exc : Bool := false
  deg : Bool := false
  sfErr : Nat := 0
  sfBits : Nat := 0
  sdErr : Nat := 0
  sdBits : Nat := 0
  j0 : Trace := {}
  aus : KMap Au := []
  tus : KMap Tu := []
  b2 : Nat := 0
  sfWin : Nat := 0
  sdWin : Nat := 0
  failAt : Option Nat := none
  degAt : Option Nat := none
  k1New : Nat := 0
  k1Run : Nat := 0
  k2New : Nat := 0
  k2Run : Nat := 0
  k1 : Nat := 0
  k2 : Nat := 0
  sfReq : Bool := false
  sdReq : Bool := false
  deriving DecidableEq, Repr

/-- Settings of `SDH_CONFIG` (R483, R503). -/
structure SdhCfg where
  msSd : Nat := 6
  msSf : Nat := 3
  lpSd : Nat := 6
  lpSf : Nat := 3
  traceLen : Bool := false
  aisRs : Bool := false
  aisHp : Bool := false
  aisLp : Bool := false
  excAis : Bool := true
  deriving DecidableEq, Repr

/-- Linear MSP (R486 to R490). Commands: lockout, forced, manual; `want` the lane a decision waits for, `hand`
the positions whose demappers have not taken over from the selected lane yet (R488). -/
structure Msp where
  arch : Nat := 0
  revert : Bool := false
  wtr : Nat := 300
  holdOff : Nat := 0
  lockout : Bool := false
  forced : Bool := false
  manual : Bool := false
  wtrOn : Bool := false
  wtrEnd : Nat := 0
  dnr : Bool := false
  request : Nat := 9
  selected : Nat := 0
  want : Option Nat := none
  hand : List Nat := []
  fail : Bool := false
  deriving DecidableEq, Repr

/-- A packet in a jitter buffer: its payload and its L bit. -/
structure JbPkt where
  payload : List Byte
  lbit : Bool
  deriving DecidableEq, Repr

/-- A circuit (R493 to R499). State 0 off, 1 filling, 2 playing; LOPS apart. `nextSeq` is the slot to be played next, known
once `anyRx`; `played` that a slot has been played since the buffer restarted; `odd` that the next E1 frame carries no alignment signal; `freq` the
recovered clock's offset, 0.001 ppm; `came` that a packet came since the last slot; `gap` E1 bytes still to be replaced after a switch (R488);
`slack` billionths of a bit by which the clock has run ahead of its mapping; `fasHeld`, `fasOdd`, `fasRun`: whether the demapped E1 is aligned, whether
its next frame carries no signal, and the signals in error one after another (R493). -/
structure Circuit where
  mode : Nat := 0
  clock : Nat := 0
  rtp : Bool := false
  frames : Nat := 1
  payload : Nat := 32
  tsMask : Nat := 0
  lopsExit : Nat := 8
  lopsEnter : Nat := 8
  jbTarget : Nat := 1
  crBw : Nat := 100
  udpRx : Nat := 0
  template : List Byte := []
  st : Nat := 0
  txSeq : Nat := 0
  jb : KMap JbPkt := []
  nextSeq : Nat := 0
  anyRx : Bool := false
  played : Bool := false
  odd : Bool := false
  lops : Bool := false
  missRun : Nat := 0
  seqRun : Nat := 0
  lastSeq : Nat := 0
  freq : Int := 0
  came : Bool := false
  gap : Nat := 0
  slack : Int := 0
  fasHeld : Bool := false
  fasOdd : Bool := false
  fasRun : Nat := 0
  deriving DecidableEq, Repr

/-- The TDM block. Traces of the transmit side are in each trace's `sent`; TSI pages by position, the multiframe from
which a waiting page may be taken, and the entries still in force at receive demappers that have not taken their new ones (R492). -/
structure Tdm where
  cfg : SdhCfg := {}
  lanes : KMap Sdh := []
  msp : Msp := {}
  tsi : KMap Word := []
  tsiNext : Option (KMap Word) := none
  tsiAt : Nat := 0
  tsiOld : KMap Word := []
  circuits : KMap Circuit := []
  deriving DecidableEq, Repr

/-! ### Pair, Hawser and Lanyard (chapter 16) -/

/-- The state of the pair (R506). -/
inductive PairSt where
  | unpaired | hello | keying | bulk | paired | mateLost | split
  deriving DecidableEq, Repr

/-- A switch-over under way (R517): its Span, the trigger row, whether this device becomes active, and in frames T1 once R is known, or
for a release the frame by which the mate answers it (assumption 142). -/
structure SwitchRun where
  span : Nat
  row : Nat
  taking : Bool
  t1 : Option Nat
  deriving DecidableEq, Repr

/-- A `PAIR_SWITCH` that waits for T1 (R516, R533): its Spans and those that reached it. -/
structure SwitchCall where
  ref : Ref
  spans : List Nat
  done : List Nat
  force : Bool
  again : Bool
  deriving DecidableEq, Repr

/-- The Hawser link (R467 to R469, R508, R509). `arrived` holds codewords not yet delivered by SEQ as lane and non-idle flits; `txSeq` and
`txLane` are the next codeword's SEQ and the lane whose turn it is; `line` by lane what it sends and the LANES of its headers (R467). -/
structure Hawser where
  locked : List Nat := []
  remote : List Nat := []
  inUse : List Nat := []
  goodRun : KMap Nat := []
  badRun : KMap Nat := []
  up : Bool := false
  nextSeq : Option Nat := none
  arrived : List (Nat × Nat × Nat) := []
  mateFree : Nat := 0
  txSeq : Nat := 0
  txLane : Nat := 0
  quiet : Bool := false
  skew : Nat := 0
  tSend : Nat := 0
  tRecv : Nat := 0
  samples : List Int := []
  line : KMap (Nat × Nat) := []
  deriving DecidableEq, Repr

/-- The protection pair (R504 to R524). `unacked` are sent records by RSEQ and frame; `toMate` calls to the
mate that wait for its FREE; `late` by Span the apply point of a COMMIT record that came too late (R512); `unsynced` the Spans whose
takeover after a mate loss is of an unsynchronised Span (R515); `rxSince` the frame in which the oldest record that this device has not
acknowledged yet came (R511); `keysSent` by Span the RSEQ of the last KEY record sent after the pair key was established anew (R418). -/
structure Pair where
  enable : Bool := false
  auto : Bool := true
  takeUnsync : Bool := false
  mateConfirm : Nat := 1000
  stbySearch : Nat := 25
  mateWorker : Nat := 0x3F
  asym : Int := 0
  st : PairSt := .unpaired
  format : Nat := 0
  mateFw : Nat := 0
  sync : List Nat := []
  snapDone : List Nat := []
  rxTop : Nat := 0
  gapSpans : List Nat := []
  txSeq : Nat := 0
  unacked : List (Nat × Nat) := []
  rxNext : Nat := 0
  runs : List SwitchRun := []
  calls : List SwitchCall := []
  confirming : List Nat := []
  toMate : List (List Word) := []
  late : KMap Nat := []
  unsynced : List Nat := []
  rxSince : Option Nat := none
  keysSent : KMap Nat := []
  deriving DecidableEq, Repr

/-- A worker as its manager sees it, or the manager as a worker does (R526, R527): tag, port, FREE, FSEQ by type. -/
structure Peer where
  tag : BitVec 64
  port : Nat
  free : Nat
  fseq : KMap Nat := []
  present : Bool := true
  usage : List UsageLine := []
  deriving DecidableEq, Repr

/-- Lanyard (R525 to R529): peers by worker number; registry, cached answers and shelf budgets; FSEQ sent by type. -/
structure Lanyard where
  vid : Nat := 0
  worker : Nat := 0
  ports : Nat := 0
  shelf : Word := 0
  timeout : Nat := 3
  evtGroups : Word := 0
  mac : Nat := 0x030000 * 2 ^ 24 + 0x0088B5
  configured : Bool := false
  peers : KMap Peer := []
  everPresent : Bool := false
  txSeq : KMap Nat := []
  registry : KMap RegEntry := []
  cache : List (Nat × RegEntry) := []
  asked : List (Nat × Nat) := []
  shelfRate : KMap (Nat × Nat) := []
  deriving DecidableEq, Repr

/-- Pair, Hawser and Lanyard. -/
structure Redund where
  hawser : Hawser := {}
  pair : Pair := {}
  lan : Lanyard := {}
  deriving DecidableEq, Repr

end Sys2Proof.Machine
end

