-- ==== Sys2Proof/Machine/StateFwd.lean ====
section
/-! DEFINITION. The state of the pipelines, lookup tables, Hanks, queues, shapers and gates (chapters 09, 10 and 11).
Field defaults are the reset values; DC 1 marks those for which the spec states none (assumption 1). -/

namespace Sys2Proof.Machine

/-- A VLAN table entry (R309, R342); an unlisted one reads MODE 0. -/
structure Vlan where
  mode : Nat := 0
  tagOp : Nat := 0
  tcSrc : Nat := 0
  tc : Nat := 0
  domain : Nat := 0
  trapMask : Nat := 0
  deriving DecidableEq, Repr

/-- A bridge domain's options (R342). -/
structure Bridge where
  learn : Bool := true
  flood : Bool := false
  xpFlush : Bool := true
  agingClass : Nat := 0
  svAction : Nat := 1
  repl : Nat := 0
  deriving DecidableEq, Repr

/-- A port record (R336, R342); it keeps the Pier under which it was created (R561). -/
structure PortRec where
  onu : Nat
  pier : Nat
  portId : Nat
  encrypt : Bool
  mode : Nat
  tcSrc : Nat
  tc : Nat
  police : Bool
  learn : Bool
  pushTpid : Bool
  limitAction : Nat
  domain : Nat
  usClasses : Nat
  uplinkQueue : Nat
  dsClasses : Nat
  dsQueue : Nat
  pushVid : Nat
  macLimit : Nat
  trapMask : Nat
  deriving DecidableEq, Repr

/-- An exact-match entry: its 128-bit key (R314) and its 64-bit result (R315). -/
structure FdbEntry where
  key : Nat
  res : BitVec 64
  deriving DecidableEq, Repr

/-- An LPM prefix: IPv6 or not, VRF, address bits from the most significant, length, result (R329). -/
structure Prefix where
  v6 : Bool
  vrf : Nat
  addr : Nat
  len : Nat
  res : BitVec 64
  deriving DecidableEq, Repr

/-- Two LPM slots, an even one and the odd one after it: an IPv6 pair, or one or two IPv4 prefixes (R329, R330). -/
inductive LpmCell where
  | pair (p : Prefix)
  | one (p : Prefix)
  | two (p q : Prefix)
  deriving DecidableEq, Repr

/-- A trap reason's action and rate limiter for one slice (R334, R342). -/
structure Trap where
  action : Nat := 1
  rate : Nat := 1000
  burst : Nat := 64
  deriving DecidableEq, Repr

/-- A punt limiter's tokens in billionths, and when it was last refilled (R334). -/
structure Limiter where
  tokens : Nat
  at_ : Nat
  deriving DecidableEq, Repr

/-- One pipeline: tables keyed as the spec numbers them; `em` by 4 × bucket + slot, `ov` by overflow entry, `lpm` by
128 − prefix length (R313 to R332). `sweeps` holds each running class sweep's next place and `swept` the TAI second in which a
class's sweep last started (R325); `taught` is when the learning engine last took a new entry (R324). -/
structure Pipe where
  vlans : KMap Vlan := []
  bridges : KMap Bridge := []
  repl : KMap (List Nat) := []
  directBlocks : Nat := 0
  seed0 : Nat := 0
  seed1 : Nat := 0x1F3C3296
  ageTime : List Nat := [300, 0, 0, 0]
  moveAlarm : Nat := 0
  em : KMap FdbEntry := []
  ov : KMap FdbEntry := []
  direct : KMap (BitVec 64) := []
  lpm : KMap (List LpmCell) := []
  staticCfg : KMap (BitVec 64) := []
  dscp : KMap Nat := []
  traps : KMap Trap := []
  limiters : KMap Limiter := []
  sweeps : KMap Nat := []
  moves : Nat := 0
  moveTold : Bool := false
  hiTold : Bool := false
  ovTold : Bool := false
  xpWait : List Nat := []
  swept : KMap Nat := []
  taught : Option Nat := none
  deriving DecidableEq, Repr

/-- A frame from a Span that waits for its pipeline (R154, R308). -/
structure UpFrame where
  span : Nat
  port : Nat
  onu : Nat
  bytes : List Byte
  time : Nat
  deriving DecidableEq, Repr

/-- A frame between its pipeline and admission (R20, R349): its queue, colour, mark, staging cells and source Span, whether it
waits for its queue's descriptor (R360), and whether the host injected it (R218). -/
structure Staged where
  queue : Nat
  bytes : List Byte
  yellow : Bool
  marked : Bool
  cells : List Nat
  srcSpan : Option Nat
  waiting : Bool
  injected : Bool
  deriving DecidableEq, Repr

/-- Where a queued packet lies: in Hank 0 cells, in the deep store with its copy complete or not, or fetched back; a record's buffer,
its offset there and its size (R347, R352, R355). -/
inductive Place where
  | shallow
  | copying (hank buf off size : Nat)
  | deep (hank buf off size : Nat)
  | fetched (hank buf off size : Nat)
  deriving DecidableEq, Repr

/-- A queued packet: `launch` its launch time in ps, `late` that it goes at the first position available (R231,
R232), `injected` that the host injected it (R218), `port` the port record under which a Pier queue admitted it (R41). -/
structure Packet where
  bytes : List Byte
  yellow : Bool
  place : Place
  cells : List Nat
  launch : Option Nat := none
  late : Bool := false
  injected : Bool := false
  port : Option PortRec := none
  deriving DecidableEq, Repr

/-- Where a packet's record lies in the deep store: Hank, buffer, offset, size. -/
def Packet.record (p : Packet) : Option (Nat × Nat × Nat × Nat) :=
  match p.place with | .shallow => none | .copying h b o n => some (h, b, o, n) | .deep h b o n => some (h, b, o, n) | .fetched h b o n => some (h, b, o, n)

/-- An open spill train (R352). -/
structure Train where
  hank : Nat
  buf : Nat
  used : Nat
  deriving DecidableEq, Repr

/-- A queue profile (R367); depths in KiB. -/
structure Profile where
  maxDepth : Nat := 1024
  yellowDepth : Nat := 768
  spillThresh : Nat := 256
  train : Nat := 0
  defer_ : Bool := true
  deriving DecidableEq, Repr

/-- A packet that is being read out for transmission, whose cells are still held (R347). -/
structure Sending where
  queue : Nat
  cells : List Nat
  fetched : Bool
  deriving DecidableEq, Repr

/-- A wheel entry (R376): t_elig, whether it lies in the fine wheel, and the start of its slot. -/
structure Wheel where
  elig : Nat
  fine : Bool
  slot : Nat
  deriving DecidableEq, Repr

/-- The settings of a shaper (R373 to R376). -/
structure ShapeSet where
  cir : Nat := 0
  cbs : Nat := 0
  pir : Nat := 0xFFFFFFFF
  pbs : Nat := 16000
  adjust : Nat := 8
  deriving DecidableEq, Repr

/-- A shaper's running state. Credits are in 2^-16 byte. `at_` is the time up to which refills have acted; `next` holds settings
that the next refill takes up (R375); `waitP`, `waitC` are its wheel entries. -/
structure Shaper where
  set : ShapeSet := {}
  next : Option ShapeSet := none
  peak : Int := 16000 * 65536
  comm : Int := 0
  at_ : Nat := 0
  waitP : Option Wheel := none
  waitC : Option Wheel := none
  deriving DecidableEq, Repr

/-- What a node is to its parent (R370): class, weight, and its deficit in the committed and the excess tier. -/
structure Child where
  prio : Nat := 0
  weight : Nat := 1
  gate : Nat := 0
  defC : Int := 0
  defE : Int := 0
  deriving DecidableEq, Repr

/-- An L1 node's kind (R359); an ONU node keeps the Pier under which it was created (R561). -/
inductive L1Kind where
  | onu (span onu pier : Nat)
  | uplink (port slice : Nat)
  deriving DecidableEq, Repr

/-- An L1 node (R358). `ptrs` holds its 16 pointers, by 8 × tier + PRIO, tier 0 committed: 2 × child while the pointer stands on
a child, 2 × child + 1 once it has passed it (R370). -/
structure L1 where
  kind : L1Kind
  sh : Shaper
  ch : Child := {}
  ptrs : KMap Nat := []
  deriving DecidableEq, Repr

/-- An L2 node. -/
structure L2 where
  parent : Nat
  sh : Shaper
  ch : Child := {}
  ptrs : KMap Nat := []
  deriving DecidableEq, Repr

/-- A queue (R351, R359, R361). -/
structure Queue where
  parent : Nat
  profile : Nat
  port : Nat
  draining : Bool := false
  pkts : List Packet := []
  train : Option Train := none
  sh : Shaper
  ch : Child := {}
  deriving DecidableEq, Repr

/-- An upstream policer (R377). -/
structure Policer where
  cir : Nat := 0
  cbs : Nat := 0
  pir : Nat := 0
  pbs : Nat := 0
  next : Option (Nat × Nat × Nat × Nat) := none
  peak : Nat := 0
  comm : Nat := 0
  at_ : Nat := 0
  deriving DecidableEq, Repr

/-- A gate list: entries as mask and duration, CYCLE and BASE in ns (R378, R379). -/
structure GateList where
  entries : List (Nat × Nat)
  cycle : Nat
  base : Nat
  deriving DecidableEq, Repr

/-- What is to go on the payload of a Pier's next frame, with its port record: the remainder of a fragmented frame (R558), or a frame that
was selected for a data byte of that payload, `at_`, ahead of its start (R368). -/
structure Rest where
  port : PortRec
  bytes : List Byte
  at_ : Nat := 0
  deriving DecidableEq, Repr

/-- A frame chosen for a Pier's line (R380, R381): its gate class, its start and end in ps, and the downstream frame, the data byte and the
bytes it was chosen for. -/
structure OnLine where
  gate : Nat
  start : Rat
  stop : Rat
  frame : Nat
  d : Nat
  len : Nat
  deriving DecidableEq, Repr

/-- The downstream scheduling state of a Pier: gate list, the list that waits for its swap, PROTECT, what goes on the next frame's payload,
the start of the Pier frame being filled (frames of the timebase) with the data bytes of its header, of the header before it and those
given out, the PLOAM messages that the next frame's header was counted with, and the frames chosen that have not ended; `swapAt` is the end of the
gate cycle, in counter units, at which a waiting list takes over (R381). -/
structure PierSched where
  list : Option GateList := none
  waiting : Option (Option GateList) := none
  protect : Bool := true
  rest : List Rest := []
  frame : Nat := 0
  head : Nat := 0
  headBefore : Nat := 0
  fill : Nat := 0
  promised : Option Nat := none
  line : List OnLine := []
  swapAt : Nat := 0
  deriving DecidableEq, Repr

/-- An uplink budget shaper of a slice on a port (R386). -/
structure Budget where
  rate : Nat := 0xFFFFFFFF
  burst : Nat := 65536
  lanyard : Option Nat := none
  lanyardNext : List (Nat × Nat) := []
  sh : Shaper := { set := { pbs := 65536, adjust := 20 }, peak := 65536 * 65536 }
  deriving DecidableEq, Repr

/-- A port's merger (R385): weights, deficits and pointer over the four groups. -/
structure Merger where
  weights : List Nat := [1, 1, 1, 1]
  deficits : List Int := [0, 0, 0, 0]
  ptr : Nat := 0
  deriving DecidableEq, Repr

/-- Forwarding, buffers, queues and scheduling. Keys: VLAN and port by number; ports 8192 × Span + index; L1 8192 × group +
node; L2 65536 × group + node; profiles 256 × group + profile; Piers 3 × Span + Pier; budgets 24 × slice + port; Hank quotas
4 × slice + Hank. `taken` holds the taken buffer numbers of each Hank, as a rising list (R345); `hbm` the encrypted data units of HBM
by address (R354, R414); `descs` the descriptors on die, as decrypted when fetched (R360);
`fetchq` the fetches asked for, as queue and record address, oldest first (R355). -/
structure Fwd where
  dist : KMap Nat := []
  pvid : KMap Nat := []
  pipes : KMap Pipe := []
  ports : KMap PortRec := []
  policers : KMap Policer := []
  up : List UpFrame := []
  staged : List Staged := []
  h1Units : Nat := 14
  h3Units : Nat := 2
  taken : KMap (List Nat) := []
  lowTold : KMap Bool := []
  quotas : KMap Nat := []
  peaks : KMap Nat := []
  peakSnap : KMap Nat := []
  ranges : KMap (Nat × Nat) := []
  profiles : KMap Profile := []
  l1 : KMap L1 := []
  l2 : KMap L2 := []
  queues : KMap Queue := []
  roots : KMap (KMap Nat) := []
  cached : KMap (List Nat) := []
  descWait : List Nat := []
  wrBacklog : Nat := 1024
  prefetch : Nat := 8192
  lowWater : KMap Nat := []
  sending : List Sending := []
  hbm : KMap (List Byte) := []
  descs : KMap (List Byte) := []
  fetchq : List (Nat × Nat) := []
  piers : KMap PierSched := []
  budgets : KMap Budget := []
  mergers : KMap Merger := []
  deriving DecidableEq, Repr

end Sys2Proof.Machine
end

