-- ==== Sys2Proof/Machine/StatePon.lean ====
section
/-! DEFINITION. The state of the Spans: Piers, burst receivers, ONUs, discovery, ranging and the Trusses with their
allocations and open bank (chapters 04, 05, 07 and 08). Field defaults are the reset values of the spec; DC 1 marks those for
which the spec states none (assumption 1). Rational numbers are picoseconds. -/

namespace Sys2Proof.Machine

/-- A Span's state (R163, R164). -/
inductive SpanSt where
  | closed | opening | opened | closing
  deriving DecidableEq, Repr

/-- A downstream PLOAM message that waits (R137): its origin, 0 deactivation, 1 Ranging_Time, 2 announcement, 3 Saend; its ONU
index, none for all. -/
structure PMsg where
  origin : Nat
  onu : Option Nat
  kind : Ploam
  args : List Nat
  deriving DecidableEq, Repr

/-- A burst that the receiver expects: its grant, the start of the frame that granted it, in frames of the timebase, and the profile with
which its map was made (R41). -/
structure Due where
  grant : Grant
  frame : Nat
  prof : Option BProf
  deriving DecidableEq, Repr

/-- A receiver state as a Splice records it (R144). The spec gives no contents of a Splice that nothing has written: the defaults
are the receiver's default state of R145 (assumption 128). -/
structure Splice where
  ffe : List (BitVec 8) := [0, 0, 0, 0, 0, 0, 0, 64, 0, 0, 0, 0, 0, 0, 0]
  dfe1 : BitVec 7 := 0
  dfe2 : BitVec 7 := 0
  gain : BitVec 6 := 24
  phase : BitVec 6 := 0
  mse : BitVec 8 := 0
  valid : Bool := false
  deriving DecidableEq, Repr

/-- The search that runs on a Pier (R150 to R152). `deaf` marks a burst of another rate that follows too close (R142). -/
structure Rx where
  due : Due
  w0 : Rat
  wEnd : Rat
  accepted : Bool := false
  mismatch : Bool := false
  ended : Bool := false
  deaf : Bool := false
  deriving DecidableEq, Repr

/-- A rogue search (R206): the suspects S, the half disabled now, and every ONU disabled so far. -/
structure RogueSearch where
  suspects : List Nat
  half : List Nat
  disabled : List Nat
  deriving DecidableEq, Repr

/-- A staged or committed allocation entry (R244): an index of 2,048 + ONU stands for the default Alloc-ID of an ONU that has no
visited allocation; `units` what its stages were charged, `idle` the part not charged to a budget (R258). -/
structure Entry where
  alloc : Nat
  onu : Nat
  size : Nat
  dbru : Bool
  prof : Nat
  units : Nat
  idle : Nat
  deriving DecidableEq, Repr

/-- A map staging buffer: committed entries, reservations and window grants (R244). -/
structure Staging where
  entries : List Entry := []
  reserves : List (Nat × Nat) := []
  windows : List (Nat × Option Nat × Nat) := []
  deriving DecidableEq, Repr

/-- A Pier. Settings first, then what runs; `eq` is what its receiver has loaded (R145), `ploamSeq` the last sequence number of a
broadcast message (R137), `lastBurst` the rate of the burst last searched for and its end in StartTime units of the timebase (R142),
`snMeas` the serial number last received and its arrival in ps, `snFrom` the start of the last discovery window searched (R180, R186), `benFall` the last fall of PIER_BEN in ps (R551). `defect` bits: 0 LOS, 1 TX-LOL, 2 TF, 3 ROGUE. -/
structure Pier where
  enable : Bool := false
  fecDs : Bool := true
  xg : Bool := false
  hRates : Nat := 0
  bpCycle : Nat := 8
  ponId : Word := 0
  profs : KMap BProf := []
  lobN : Nat := 4
  sdExp : Nat := 4
  sfExp : Nat := 3
  auto : Bool := false
  protMask : Nat := 0
  losFrames : Nat := 16
  lobDeact : Nat := 1000
  spliceFails : Nat := 2
  spliceAge : Nat := 50
  spliceMse : Nat := 88
  tTx : Nat := 0
  tRx : Nat := 0
  nDown : Nat := 1467400
  nUp : Nat := 1467100
  driftK : Nat := 4
  corrUnits : Nat := 1
  margin : Nat := 2
  dfRerange : Bool := false
  driftMax : Nat := 200
  unifTol : Nat := 100
  outlierMax : Nat := 12
  announce : Nat := 0
  ploam : List PMsg := []
  staging : Staging := {}
  next : Option PMap := none
  sent : Option PMap := none
  due : List Due := []
  rx : Option Rx := none
  los : Bool := false
  txLol : Bool := false
  tf : Bool := false
  rogue : Bool := false
  losRun : Nat := 0
  rogueRun : Nat := 0
  calmRun : Nat := 0
  burstSeen : Bool := false
  teqd : Nat := 0
  rotation : Option Nat := none
  reserved : Nat := 0
  search : Option RogueSearch := none
  txOn : Bool := false
  rxOn : Bool := false
  ready : Bool := false
  mirTeqd : Option Nat := none
  mirTx : Nat := 0
  mirRx : Nat := 0
  eq : Splice := {}
  ploamSeq : Nat := 0
  lastBurst : Option (Nat × Nat) := none
  snMeas : Option (BitVec 64 × Rat) := none
  snFrom : Option Rat := none
  benFall : Nat := 0
  deriving DecidableEq, Repr

/-- An equalisation delay correction under way (R200): n units, how often it was sent, whether the last send has left, and whether
its period ended while a burst that lies within it was still being measured (R202). -/
structure Corr where
  n : Int
  sends : Nat
  carried : Bool
  ended : Bool := false
  deriving DecidableEq, Repr

/-- What an acceptance recorded for the ranging block: window start, and Z + P or t_exp (R186, R190, R192). -/
structure Meas where
  w0 : Rat
  ref : Rat
  deriving DecidableEq, Repr

/-- A bit error window that runs, and the last closed one (R157). -/
structure BerWin where
  n : Nat := 0
  e : Nat := 0
  windows : Nat := 0
  deriving DecidableEq, Repr

/-- An ONU index (R170 to R206). `deltaCount` is how many bursts have updated δ since EqD last changed, `deltaSet` says that one ever has
(R203); `adjusted` marks an ONU whose switch-over adjustment has not left, `grantFrom` the first frame
whose map may grant it (R177, R520), `stale` a Splice that no burst has written since its Span last closed (R149), `ploamSeq` the
last sequence number of a message to it (R137), `matched` a registration that takes effect at the next apply point. Defects: 0 LOBi, 1 SDi, 2 SFi, 3 MISi, 4 LOPLi, 5 DGi, 6 RDIi, 7 DFi, 8 LOKi. -/
structure Onu where
  st : OnuSt := .inactive
  cause : Nat := 0
  expect : Option Expected := none
  accepted : Bool := false
  pier : Nat := 0
  serial : BitVec 64 := 0
  onuId : Option Nat := none
  rate : Nat := 0
  rangeMiss : Nat := 0
  regTries : Nat := 0
  ploamMiss : Nat := 0
  ploamWait : Bool := false
  disableAfter : Bool := false
  defects : BitVec 9 := 0
  missRun : Nat := 0
  hdrRun : Nat := 0
  sd : BerWin := {}
  sf : BerWin := {}
  sdLast : Nat × Nat := (0, 0)
  splice : Splice := {}
  spliceSerial : BitVec 64 := 0
  spliceAt : Nat := 0
  failRun : Nat := 0
  spliceOk : Bool := false
  meas : Option Meas := none
  rtd : Rat := 0
  eqd : Nat := 0
  offset : Rat := 0
  distance : Nat := 0
  cumul : Rat := 0
  lastErr : Rat := 0
  corrections : Nat := 0
  corr : Option Corr := none
  lastFirstSend : Nat := 0
  delta : Rat := 0
  deltaCount : Nat := 0
  deltaSet : Bool := false
  adjusted : Bool := false
  grantFrom : Nat := 0
  matched : Bool := false
  stale : Bool := false
  ploamSeq : Nat := 0
  deriving DecidableEq, Repr

/-- A discovered-list entry (R182): serial number, Pier, cause, the index it is held for, whether the manager is asked. -/
structure DiscEntry where
  serial : BitVec 64
  pier : Nat
  rate : Nat
  cause : Nat
  onu : Option Nat
  deriving DecidableEq, Repr

/-- A decided window (R264, R265): kind 1 ranging or 2 discovery, its grant's frame, its bounds at the receive plane, and
whether a reservation of it was lost. -/
structure Window where
  pier : Nat
  kind : Nat
  onu : Option Nat
  prof : Nat
  frame : Nat
  lo : Rat
  hi : Rat
  broken : Bool := false
  deriving DecidableEq, Repr

/-- An allocation (R249, R283): its parameters, and its running state. `hist` holds payload granted by frame number, `stale` says
that it is forgotten when the routine that runs has ended (R239, R250), `sent` holds the words that the mate was last sent (R510). -/
structure Alloc where
  onu : Nat
  pier : Nat
  line : Nat
  mode : Nat
  policy : Bool
  weight : Nat
  poll : Nat
  si : Nat
  siPhase : Nat
  rf : Nat
  ra : Nat
  rna : Nat
  rm : Nat
  place : Nat
  longProf : Nat
  shortProf : Nat
  told : Bool := false
  d : Nat := 0
  report : Option (Nat × Nat) := none
  latched : Option (Nat × Nat) := none
  reportFrame : Nat := 0
  hist : List (Nat × Nat) := []
  pollAge : Nat := 64
  lastGrant : Nat := 0
  tmBytes : Nat := 0
  tmIdle : Bool := false
  tmSeen : Bool := false
  tmLast : Nat × Bool := (0, false)
  tmLatch : Nat × Bool := (0, false)
  tmNew : Bool := false
  stale : Bool := false
  st : List Word := [0, 0, 0, 0]
  sent : List Nat := []
  deriving DecidableEq, Repr

/-- A staged write of a commit interval (R282, R285). -/
inductive TWrite where
  | record (alloc word : Nat) (v : Word)
  | pop
  | inc (alloc counter n : Nat)
  | stage (pier : Nat) (e : Entry)
  | reserve (pier first last : Nat)
  | window (pier : Nat) (ranging : Bool) (onu start : Nat)
  deriving DecidableEq, Repr

/-- The registers of a Truss that a checkpoint saves (R291). -/
structure TRegs where
  scratch : KMap Word := []
  pd : List Word := [0, 0, 0, 0]
  cond : BitVec 16 := 0
  stack : List Nat := []
  cur : Option Nat := none
  deriving DecidableEq, Repr

/-- An open call (R286 to R289): its allocation, slice and CALL_LIMIT, whether it is a pass 2 call, its steps, the stack depth at
which it began, where its caller resumes, whether the vendor routine called it by itself, and the entry of the vendor bank that made it. -/
structure OpenCall where
  alloc : Nat
  slice : Nat
  limit : Nat
  pass2 : Bool
  steps : Nat
  depth : Nat
  back : Nat
  vendor : Bool
  by_ : Nat := 0
  deriving DecidableEq, Repr

/-- A share of pass 2 (R259, R289): the allocation, the bytes it wants in the rounds na and be, the units it still wants in the
round that runs, whether its entry is called with the give, and the GrantSize units of the round's share not granted yet. -/
structure Share where
  alloc : Nat
  na : Nat
  be : Nat
  want : Nat
  call : Bool
  left : Nat
  deriving DecidableEq, Repr

/-- Where the vendor frame routine stands (R259): what its next commit interval does. In pass 2: the Piers left, the first being
in work, the sweep (0 and 1 of round na, 2 and 3 of round be, 4 of the idle round), the shares the sweep has left, C and wrem. -/
inductive Cursor where
  | prologue
  | pass1 (todo : List Nat)
  | polls (todo : List Nat)
  | pass2 (piers : List Nat) (sweep : Nat) (todo : List Nat) (c wrem : Nat)
  | epilogue
  | done
  deriving DecidableEq, Repr

/-- What the last routine of a Span reached, per slice open calls, largest call, calls ended early (R271, R305). -/
structure TFigures where
  steps : Nat := 0
  visited : Nat := 0
  phase : Nat := 0
  capacity : List Nat := [0, 0, 0]
  calls : KMap Nat := []
  maxSteps : KMap Nat := []
  ended : KMap Nat := []
  deriving DecidableEq, Repr

/-- An open-bank page (R272, R300). -/
structure OpenPage where
  words : List (BitVec 192)
  entries : List Nat
  digest : List Byte
  deriving DecidableEq, Repr

/-- A Truss (R239, R276 to R298). `running` from the apply point to the cutoff; `entry` the hardware entry that runs; `base` the
steps before FRAME began; `frame` the frame whose map is built. `remain` are Pier capacities left, `budget` slice budgets left by 3 × slice + Pier, `heldRemain` and
`heldBudget` what they were at the last commit; `saved` and `savedCall` the checkpoint; `store`, `page` and `spare` are its control
store: vendor bank, active and inactive open page (R272 to R274). `srf` is the status-report FIFO as allocation, bytes, frame;
`view` its reports as latched and not popped, the first `lost` of which have since been displaced from the FIFO (R283). `visit`,
`ploamu`, `splices`, `reach`, `ranging` (the RANGING ONUs) and `mixed` (the Piers with ONUs at two rates) are what the input latch
fixed (R239). -/
structure Truss where
  running : Bool := false
  entry : Nat := 0
  addr : Nat := 0
  regs : TRegs := {}
  writes : List TWrite := []
  resume : Nat := 0
  saved : TRegs := {}
  savedCall : Option OpenCall := none
  remain : List Nat := [0, 0, 0]
  budget : KMap Nat := []
  heldRemain : List Nat := [0, 0, 0]
  heldBudget : KMap Nat := []
  cursor : Cursor := .done
  shares : List Share := []
  call : Option OpenCall := none
  steps : Nat := 0
  base : Nat := 0
  frame : Nat := 0
  faulted : Bool := false
  committed : Bool := false
  epilogued : Bool := false
  finished : Bool := false
  store : List (BitVec 192) := []
  page : Option OpenPage := none
  spare : Option OpenPage := none
  srf : List (Nat × Nat × Nat) := []
  view : List (Nat × Nat × Nat) := []
  lost : Nat := 0
  visit : List Nat := []
  ploamu : List Nat := []
  splices : List Nat := []
  reach : Nat × Nat := (0, 20000)
  ranging : List Nat := []
  mixed : List Nat := []
  now : TFigures := {}
  last : TFigures := {}
  deriving DecidableEq, Repr

/-- A Span. `phase` of an opening or closing: 0 before its first apply point, 1 transmit start, 2 grants stopped, 3 deactivating
(R163, R164); `cutOpening` says that a close has been accepted while the Span opened and its T0 is to come; `t0` the frame in which transmission started, `closeT0` the frame of the last close's T0. -/
structure Span where
  st : SpanSt := .closed
  openPending : Bool := false
  openRef : Option Ref := none
  cutOpening : Bool := false
  closeRefs : List Ref := []
  phase : Nat := 0
  t0 : Nat := 0
  closeT0 : Nat := 0
  granting : Bool := false
  reachMin : Nat := 0
  reachMax : Nat := 20000
  diff : Nat := 20000
  reachMargin : Nat := 200
  discPeriod : Nat := 200
  rogueIsolate : Bool := false
  policy : Nat := 1
  blockG : Nat := 48
  ploamuPeriod : Nat := 8
  shareIdle : Nat := 0
  tmStep : Nat := 1536
  finishLead : Nat := 2000
  disc : KMap DiscEntry := []
  discDue : Bool := true
  windows : List Window := []
  paired : Bool := false
  standby : Bool := false
  prefer : Bool := false
  mirOpen : Bool := false
  truss : Truss := {}
  used : KMap Nat := []
  deriving DecidableEq, Repr

/-- The Spans and the open bank. Keys: Piers 3 × Span + Pier; ONUs 512 × Span + index; allocations 2048 × Span + index;
budgets 96 × slice + 3 × Span + Pier; binds by slice, entry and CALL_LIMIT; `limits` the CALL_LIMIT last given to a slice (R287). `vendorBank` is the running slot's vendor bank as the
bootloader left it in control-complex memory (R108, R112). -/
structure Pon where
  spans : KMap Span := []
  piers : KMap Pier := []
  onus : KMap Onu := []
  allocs : KMap Alloc := []
  budgets : KMap Nat := []
  active : Option OpenPage := none
  inactive : Option OpenPage := none
  openOff : Bool := true
  binds : KMap (Nat × Nat) := []
  limits : KMap Nat := []
  vendorBank : List (BitVec 192) := []
  deriving DecidableEq, Repr

end Sys2Proof.Machine
end

