-- ==== Sys2Proof/Machine/StateTime.lean ====
section
/-! DEFINITION. The state of the timebase, Keystone, the time pins, the optics loops and the system lanes (chapters 06, 13 and
14). Field defaults are the reset values of the spec; DC 1 marks those for which the spec states none (assumption 1). -/

namespace Sys2Proof.Machine

/-- A timebase state (R220). -/
inductive TimeSt where
  | freerun | acquiring | freqLocked | locked | holdover | host
  deriving DecidableEq, Repr

/-- A Keystone entry: its five words, the instant from which it fires in ns, the instant in ps before which its firings are done or
passed over, its firings, and whether its COUNT has ended it (R228, R229). -/
structure KEntry where
  words : List Word
  start : Nat := 0
  done : Nat := 0
  firings : Nat := 0
  stopped : Bool := false
  deriving DecidableEq, Repr

/-- A time pin: mode, edge, delay in ps, stamps oldest first as ns, edge and 2^-16 ns fraction, stamps lost since the last read, and
the last pulse that firings drive, from and to in ps (R230, R235). -/
structure TPin where
  mode : Nat := 0
  edge : Nat := 1
  delay : Nat := 0
  stamps : List (Nat × Bool × Nat) := []
  lost : Nat := 0
  pulse : Option (Nat × Nat) := none
  deriving DecidableEq, Repr

/-- The asymmetry terms of a Pier (R226, R238). -/
structure Asym where
  dispDn : Int := 0
  dispUp : Int := 0
  dlDn : Int := 0
  dlUp : Int := 0
  rho : Nat := 500000
  deriving DecidableEq, Repr

/-- Settings that `TIME_CONFIG` writes (R238). -/
structure TimeCfg where
  host : Bool := false
  phaseSrc : Nat := 0
  freqSrc : Nat := 0
  freqLane : Nat := 0
  qlMin : Nat := 0
  leap59 : Bool := false
  leap61 : Bool := false
  utc : Nat := 0
  ppsInDelay : Nat := 0
  ppsOutAdv : Nat := 0
  ppsForce : Bool := false
  ppsWidth : Nat := 100000
  ptpTimeout : Nat := 5000
  phaseLock : Nat := 10
  slewMax : Nat := 1000000
  phaseBw : Nat := 100
  deriving DecidableEq, Repr

/-- What the commit of a map fixes for the anchored entries of an ONU (R233): the Pier, the ONU by 512 × Span + index, the first burst granted
to it by frame and StartTime, and that burst's t_exp in ps. -/
structure Anchor where
  pier : Nat
  onu : Nat
  burst : Nat
  at_ : Rat
  deriving DecidableEq, Repr

/-- Timebase, Keystone, pins and stamps. `y` in 10^-12; `slew` what is left of a slew, in 10^-12 of a counter unit; `steps` the
waiting steps, as apply point number and size in counter units; `since` the ns at which the state began. `qlLow` says that the last
ESMC level lies below QL_MIN; `phaseAt` is the counter at the last PTP sample, `ppsSec` the TAI second of the last edge within its
window, each at least the time of the source's selection (R219). `anchored` holds what the maps fixed for anchored entries
(R233). `ppsDone` is the last second boundary of TIME_PPS_OUT, `pps` its last pulse in ps (R235). Pier
keys 3 × Span + Pier. -/
structure TimeBase where
  cfg : TimeCfg := {}
  st : TimeSt := .freerun
  since : Int := 0
  y : Int := 0
  slew : Option Int := none
  steps : List (Nat × Int) := []
  freqLost : Bool := false
  phaseLost : Bool := false
  everLocked : Bool := false
  phaseErr : Int := 0
  goodRun : Nat := 0
  keystone : KMap KEntry := []
  qlLow : Bool := false
  phaseAt : Nat := 0
  ppsSec : Nat := 0
  anchored : List Anchor := []
  ppsDone : Nat := 0
  pps : Option (Nat × Nat) := none
  pins : KMap TPin := []
  asym : KMap Asym := []
  ptpMode : KMap Nat := []
  ptpStamps : KMap (List (Nat × Nat)) := []
  deriving DecidableEq, Repr

/-! ### Optics loops (chapter 13) -/

/-- A loop's committed settings (R432, R449). -/
structure LoopCfg where
  enable : Bool := false
  invert : Bool := false
  signed : Bool := false
  inConv : Nat := 0
  outConv : Nat := 0
  auxConv : Nat := 0
  setpoint : Nat := 0
  offCode : Nat := 0
  kp : Int := 0
  ki : Int := 0
  outMin : Int := 0
  outMax : Int := 0
  outBias : Int := 0
  slew : Nat := 1
  inMin : Nat := 0
  inMax : Nat := 0
  settleCycles : Nat := 1
  settleTol : Nat := 0
  satCycles : Nat := 1
  limit : Nat := 0
  apdV0 : Nat := 0
  apdT0 : Nat := 0
  apdTc : Int := 0
  outReg : Nat := 0
  deriving DecidableEq, Repr

/-- A loop (R430 to R440). `busy` while a cycle runs, `awaited` 1 until its CONV_TIME has passed; `xRead`, `tRead` the inputs read;
`x`, `u`, `e` of the last cycle; `i` has 16 fraction bits; runs count consecutive cycles; `holdLeft`, `preset` serve R443; `last` is the output
last given for the driver (R433), `written` the one whose write has gone out (R443). -/
structure Loop where
  cfg : LoopCfg := {}
  newCfg : Option LoopCfg := none
  running : Bool := false
  busy : Bool := false
  awaited : Nat := 0
  xRead : Option Nat := none
  tRead : Option Nat := none
  x : Nat := 0
  u : Int := 0
  i : Int := 0
  e : Int := 0
  settled : Bool := false
  inRun : Nat := 0
  outRun : Nat := 0
  rangeRun : Nat := 0
  satRun : Nat := 0
  eolRun : Nat := 0
  fault : Nat := 0
  holdLeft : Nat := 0
  preset : Bool := false
  last : Option Int := none
  written : Option Int := none
  deriving DecidableEq, Repr

/-- A frame on a loop bus (R426, R429): rank 0 shut-off write, 1 RSSI read, 2 loop frame; `again` marks the second read of READ_LAT 1.
`rssi` of an RSSI read: 0, or 1 + the ONU's key of an anchored entry, the strobe instant in ns, and the burst it belongs to; `out` the
loop whose driver a write sets. -/
structure LFrame where
  rank : Nat
  write : Bool
  conv : Nat
  reg : Nat
  data : Nat
  loop : Option Nat
  aux : Bool
  again : Bool
  rssi : Option (Nat × Nat × Nat)
  out : Option Nat := none
  deriving DecidableEq, Repr

/-- A strobed converter sample that waits for its result: converter, ONU key and burst of an anchored entry, strobe instant in ns (R444). -/
structure Strobe where
  conv : Nat
  onu : Option (Nat × Nat)
  time : Nat
  deriving DecidableEq, Repr

/-- A loop bus (R425 to R429, R449). `pend` holds, for a device with READ_LAT 1, the read whose result its next frame returns; `order` holds the cycles not yet computed, by the tick of their firing and their loop (R430). -/
structure Bus where
  div : Nat := 16
  readLat : Nat := 0
  convTime : List Nat := [10, 10, 10, 10]
  holdCycles : Nat := 16
  alertMask : Nat := 0
  tec : List Nat := [0, 0, 0, 0]
  loops : KMap Loop := []
  frame : Option LFrame := none
  waiting : List LFrame := []
  strobes : List Strobe := []
  order : List (Nat × Nat) := []
  samples : KMap (Nat × Nat) := []
  pend : KMap LFrame := []
  overrunTold : Bool := false
  deriving DecidableEq, Repr

/-- The state of a Pier's optics (R439). -/
inductive OptSt where
  | off | warming | lit | standby | stopping | fault
  deriving DecidableEq, Repr

/-- A Pier's optics (R439 to R443). `hold` is the hold of R443. -/
structure Optic where
  st : OptSt := .off
  stby : Option Nat := none
  asked : Nat := 0
  lastBias : Option Nat := none
  settled : Bool := false
  txdis : Bool := true
  startPending : Option Nat := none
  stopRefs : List Ref := []
  hold : Bool := false
  apdFault : Bool := false
  causes : List Nat := [0, 0, 0]
  deriving DecidableEq, Repr

/-- An ONU's RSSI record (R444): last sample of a missed and of an accepted burst, and when; the samples that wait for their burst's outcome,
each with its burst, value and instant, and the outcomes of its last bursts. -/
structure Rssi where
  miss : Nat := 0
  ok : Nat := 0
  okTime : Nat := 0
  waiting : List (Nat × Nat × Nat) := []
  outcomes : List (Nat × Bool) := []
  deriving DecidableEq, Repr

/-- The loop buses by number, Pier optics by 3 × Span + Pier, RSSI records by 512 × Span + ONU. -/
structure Optics where
  buses : KMap Bus := []
  piers : KMap Optic := []
  rssi : KMap Rssi := []
  deriving DecidableEq, Repr

/-! ### Lanes (chapter 14) -/

/-- A lane state (R453). -/
inductive LaneSt where
  | off | starting | on | stopping
  deriving DecidableEq, Repr

/-- A lane (R450 to R466). `onRefs`, `offRefs` are the calls that wait; `again` that it was ON when its domain left ON (R455);
`training` that start-up training runs; `must` that the lane's link waits for it; `trained` the taps it left; `ctle`, `vga`, `dfe` what
is in force; `fill` the elastic buffer's fill. -/
structure Lane where
  st : LaneSt := .off
  onPending : Bool := false
  onRefs : List Ref := []
  offRefs : List Ref := []
  again : Bool := false
  pre : Nat := 0
  post : Nat := 0
  amp : Nat := 16
  train : Bool := false
  training : Bool := false
  trained : Option (Nat × Nat) := none
  must : Bool := false
  rxMode : Nat := 0
  ctle : Nat := 0
  vga : Nat := 0
  dfe : List Word := [0, 0]
  losTh : Nat := 80
  losAssert : Nat := 4
  deg : Nat := 4
  los : Bool := false
  rxLol : Bool := false
  txLol : Bool := false
  loopback : Nat := 0
  pattern : Nat := 0
  gen : Bool := false
  check : Bool := false
  prbsErr : Nat := 0
  fill : Nat := 32
  deriving DecidableEq, Repr

/-- An Ethernet port (R451, R452, R461). -/
structure Port where
  mode : Nat := 0
  fec : Nat := 0
  block : Bool := false
  align : Bool := false
  fault : Bool := false
  link : Bool := false
  deriving DecidableEq, Repr

/-- The PCIe link (R470, R474); `down` that it has gone down, `mps` the payload size in force, `aer` the uncorrectable errors logged. -/
structure Pcie where
  speed : Nat := 0
  width : Nat := 0
  down : Bool := false
  mps : Nat := 128
  aer : Word := 0
  deriving DecidableEq, Repr

/-- The system lanes, Pier transmit lanes and ports. -/
structure Lanes where
  lanes : KMap Lane := []
  ports : KMap Port := []
  pcie : Pcie := {}
  deriving DecidableEq, Repr

end Sys2Proof.Machine
end

