-- ==== Sys2Proof/Machine/State.lean ====
section
/-! DEFINITION. The whole state of the Melcel 3296, its faults and refusals, and the state after reset. -/

namespace Sys2Proof.Machine

/-- Why a command stops the model. -/
inductive Fault where
  /-- Undefined use that the spec indexes (R15, R544), with the rule that declares it. Raised by the command that commits it; safe: the hardware may do anything, the model stops. -/
  | undefinedUse (rule : String)
  deriving DecidableEq, Repr

/-- Why the model gives a command no meaning. -/
inductive Refusal where
  /-- The command has no meaning yet. Raised by `exec` alone; safe. -/
  | notModelled (mnemonic : String)
  deriving DecidableEq, Repr

/-- The device. `tb` is the timebase counter in 2^-40 ns (R211); `pending` the commands that wait, first in, first out; `out`
what left the device, newest first, and `free` the count of free values drawn: these three are the model's own. -/
structure State where
  tb : Nat := 0
  ctl : Control := {}
  boot : Boot := {}
  pwr : Power := {}
  fwd : Fwd := {}
  pon : Pon := {}
  time : TimeBase := {}
  opt : Optics := {}
  lane : Lanes := {}
  ciph : Cipher := {}
  tdm : Tdm := {}
  red : Redund := {}
  out : List Output := []
  free : Nat := 0
  pending : List Instr := []
  deriving DecidableEq, Repr

/-- The machine right after power-on reset (R107): every field at the reset value its structure gives. -/
def State.reset : State := {}

end Sys2Proof.Machine
end

