-- ==== Sys2Proof/Machine/Flags.lean ====
section
/-! DEFINITION. The status side of the device: pending bits, event messages, counters and the outbound queue
(chapters 02 and 17). Every chapter raises events and counts through these operations. -/

namespace Sys2Proof.Machine

/-- The timebase in whole nanoseconds. -/
def nowNs (s : State) : Nat := s.tb / 2 ^ 40

/-- Records that something left the device. -/
def emit (o : Output) (s : State) : State := { s with out := o :: s.out }

/-- A channel's record (R53); channels never touched hold the reset values. -/
def chanOf (s : State) (ch : Nat) : Channel := kgetD s.ctl.chans ch {}

/-- Writes a channel's record. -/
def setChan (ch : Nat) (c : Channel) (s : State) : State := { s with ctl := { s.ctl with chans := kset s.ctl.chans ch c } }

/-- A function's record (R45). -/
def funcOf (s : State) (fn : Nat) : Func := kgetD s.ctl.funcs fn {}

/-- Writes a function's record. -/
def setFunc (fn : Nat) (f : Func) (s : State) : State := { s with ctl := { s.ctl with funcs := kset s.ctl.funcs fn f } }

/-- Draws the next free value's number. -/
def drawn (s : State) : State := { s with free := s.free + 1 }

/-- The slice that an identity is bound to (R27, R46). -/
def sliceOf (s : State) (ch : Nat) : Option Nat :=
  if ch = 0 then some 0 else if ch < 16 then kget s.ctl.binds ch else none

/-- The identities bound to a slice, lowest first. -/
def boundTo (s : State) (slice : Nat) : List Nat := (List.range 16).filter fun i => sliceOf s i = some slice

/-- Raises an MSI-X vector of a function; a masked one sets its pending bit instead (R98, R470, R538). -/
def msix (fn vec : Nat) (s : State) : State :=
  let f := funcOf s fn
  if kgetD f.msixMask vec true then setFunc fn { f with msixPend := kset f.msixPend vec true } s
  else emit (.msix fn vec) s

/-- Adds to a running counter, 64 bits (R161, R541). -/
def cnt (id n : Nat) (s : State) : State :=
  { s with ctl := { s.ctl with cntRun := kset s.ctl.cntRun id ((kgetD s.ctl.cntRun id 0 + n) % 2 ^ 64) } }

/-- A gauge that keeps the highest value of the second (R540). -/
def gaugeMax (id n : Nat) (s : State) : State :=
  { s with ctl := { s.ctl with cntRun := kset s.ctl.cntRun id (max (kgetD s.ctl.cntRun id 0) n) } }

/-- A gauge that keeps the lowest value of the second; an unlisted one has none yet. -/
def gaugeMin (id n : Nat) (s : State) : State :=
  { s with ctl := { s.ctl with cntRun := kset s.ctl.cntRun id (min (kgetD s.ctl.cntRun id n) n) } }

/-- Counter identifiers (R541, R559): BASE of the k-th counter of a row, plus the instance. -/
def cQueue (k q : Nat) : Nat := 0x100000 * k + q
def cPortRec (k span port : Nat) : Nat := 0x600000 + 0x40000 * k + 8192 * span + port
def cAlloc (k span a : Nat) : Nat := 0x6C0000 + 0x10000 * k + 2048 * span + a
def cOnu (k span onu : Nat) : Nat := 0x780000 + 0x4000 * k + 512 * span + onu
def cPier (k span pier : Nat) : Nat := 0x800000 + 0x1000 * k + 3 * span + pier
def cSpan (k span : Nat) : Nat := 0x820000 + 0x1000 * k + span
def cSlicePier (slice span pier : Nat) : Nat := 0x840000 + 96 * slice + 3 * span + pier
def cSliceSpan (k slice span : Nat) : Nat := 0x841000 + 0x1000 * k + 32 * slice + span
def cSliceCause (k slice cause : Nat) : Nat := 0x845000 + 0x1000 * k + 19 * slice + cause
def cPunt (k slice reason : Nat) : Nat := 0x847000 + 0x1000 * k + 13 * slice + reason
def cSlicePort (k slice port : Nat) : Nat := 0x849000 + 0x1000 * k + 24 * slice + port
def cPipe (k p : Nat) : Nat := 0x850000 + 0x1000 * k + p
def cHank (k h : Nat) : Nat := 0x860000 + 0x1000 * k + h
def cQm (k g : Nat) : Nat := 0x862000 + 0x1000 * k + g
def cMacTx (port an : Nat) : Nat := 0x870000 + 4 * port + an
def cMacTxNoSa (port : Nat) : Nat := 0x871000 + port
def cMacRxOk (port sc an : Nat) : Nat := 0x872000 + 16 * port + 4 * sc + an
def cMacRx (k port sc : Nat) : Nat := 0x873000 + 0x1000 * k + 4 * port + sc
def cMacRxPort (k port : Nat) : Nat := 0x875000 + 0x1000 * k + port
def cMacBypass (port dir : Nat) : Nat := 0x878000 + 2 * port + dir
def cLane (k lane : Nat) : Nat := 0x880000 + 0x1000 * k + lane
def cAu (k au lane : Nat) : Nat := 0x892000 + 0x1000 * k + 28 * au + lane
def cPos (k pos : Nat) : Nat := 0x8A0000 + 0x1000 * k + pos
def cLoop (k bus loop : Nat) : Nat := 0x8B0000 + 0x1000 * k + 36 * bus + loop
def cBus (k bus : Nat) : Nat := 0x8B3000 + 0x1000 * k + bus
def cDom (k d : Nat) : Nat := 0x8C0000 + 0x1000 * k + d
def cChan (k ch : Nat) : Nat := 0x8C2000 + 0x1000 * k + ch
def cPin (pin : Nat) : Nat := 0x8D0000 + pin
def cPtp (port : Nat) : Nat := 0x8D1000 + port
def cDev (k : Nat) : Nat := 0x8E0000 + 0x1000 * k

/-! ### Outbound queue (R56, R63, R65) -/

/-- Saend writes one word into an outbound queue: it joins the tail and is framed by count, or replaces the newest word of a full queue and sets COLLISION. -/
def pushOut (ch : Nat) (event : Bool) (w : Word) (s : State) : State :=
  let c := chanOf s ch
  if c.outq.length < 64 then
    let hd := c.outExpect = 0
    let rem := if hd then fld w 15 12 else c.outExpect - 1
    let c' := { c with outq := c.outq ++ [⟨w, hd, rem = 0, event⟩], outExpect := rem }
    let s := setChan ch c' s
    if rem = 0 && c.outMsgEn && ch < 16 then msix ch 0 s else s
  else
    let c' := { c with outq := c.outq.dropLast ++ (c.outq.getLast?.toList.map fun o => { o with w := w }), outColl := true }
    cnt (cChan 1 ch) 1 (setChan ch c' s)

/-- Writes a whole message, word by word. -/
def pushMsg (ch : Nat) (event : Bool) (ws : List Word) (s : State) : State :=
  match ws with
  | [] => s
  | w :: t => pushMsg ch event t (pushOut ch event w s)

/-- Whether Saend would hold no further event messages for a channel (R65). -/
def eventsHeld (s : State) (ch : Nat) : Bool := 24 ≤ (chanOf s ch).backlog.length

/-- Saend sends a message on a channel, into its queue, to the backlog's tail, or over a full backlog into the queue (R65). -/
def sendMsg (ch : Nat) (event : Bool) (ws : List Word) (s : State) : State :=
  let c := chanOf s ch
  if c.backlog = [] ∧ c.outq.length + ws.length ≤ 64 then pushMsg ch event ws s
  else if c.backlog.length < 32 then setChan ch { c with backlog := c.backlog ++ [⟨ws, event⟩] } s
  else pushMsg ch event ws s

/-! ### Events (R102, R104, R536 to R539) -/

/-- A group's routing at reset (R536). -/
def routeReset (g : Nat) : Route := { vector := if g < 24 then 8 + g else 31 }

/-- A group's routing for a channel. -/
def routeOf (s : State) (ch g : Nat) : Route := kgetD (chanOf s ch).routes g (routeReset g)

/-- Whether a channel's event messages select a source: by its routes, or by EVT_GROUPS on channel 0x11 (R102, R526, R536). Neither
needs an open session: `SESSION_CLOSE` clears the masks of a channel, and a Saend restart keeps them (R108). -/
def msgRouted (s : State) (ch src : Nat) : Bool :=
  if ch = 0x11 then bit s.red.lan.evtGroups (src / 32) else bit (routeOf s ch (src / 32)).msgMask (src % 32)

/-- Whether the reader of a channel may see an occurrence that the slices `own` see besides slice 0 (R102, R526, R535). -/
def seesEvt (s : State) (src : Nat) (own : List Nat) (ch : Nat) : Bool :=
  if ch = 0x12 then src / 32 = 29 || src / 32 = 31
  else if ch = 0x11 then msgRouted s ch src
  else match sliceOf s ch with
    | some k => k = 0 || own.contains k
    | none => false

/-- A source's record on a channel. -/
def chanEvt (s : State) (ch src : Nat) : ChanEvt := kgetD (chanOf s ch).evts src {}

/-- Writes a source's record on a channel. -/
def setChanEvt (ch src : Nat) (e : ChanEvt) (s : State) : State :=
  let c := chanOf s ch
  setChan ch { c with evts := kset c.evts src e } s

/-- Saend sends a source's event message on a channel with the occurrences held, or adds it to the lost events (R59, R65, R79, R102). -/
def sendEvt (ch src : Nat) (s : State) : State :=
  let e := chanEvt s ch src
  if eventsHeld s ch then cnt (cChan 2 ch) 1 s
  else
    let occ := if (chanOf s ch).session = some 0x0200 then 0 else min e.held 0xFFFF
    let ws := [0x0F80301F, wd (occ * 2 ^ 16 + src)] ++ toWords 2 e.last
    sendMsg ch true ws (setChanEvt ch src { e with held := 0, due := false, window := true } s)

/-- Sets a function's pending bit of a source and raises its group's vector (R537, R538). -/
def setPend (fn src : Nat) (s : State) : State :=
  let g := src / 32
  let r := routeOf s fn g
  if bit r.vecMask (src % 32) then
    let f := funcOf s fn
    let e := kgetD f.evt g {}
    let b := putb true (src % 32)
    let s' := setFunc fn { f with evt := kset f.evt g { e with pend := e.pend ||| b, fresh := e.fresh ||| b } } s
    if bit e.pend (src % 32) || bit e.mask (src % 32) then s' else msix fn r.vector s'
  else s

/-- One channel takes note of an occurrence: its counts, and its message if its routes select the source (R102, R104, R108). An
occurrence that the routes do not select waits in the count that the next message of its source carries. -/
def noteEvt (src : Nat) (own : List Nat) (detail : List Word) (ch : Nat) (s : State) : State :=
  if seesEvt s src own ch then
    let e := chanEvt s ch src
    let e := { e with count := (e.count + 1) % 2 ^ 32, held := e.held + 1, last := nowNs s, detail := detail }
    if msgRouted s ch src then
      let s' := setChanEvt ch src { e with due := true } s
      if s.boot.ready && !e.window then sendEvt ch src s' else s'
    else setChanEvt ch src e s
  else s

/-- Applies a step for each number of a list. -/
def forEach {α : Type} (l : List α) (f : α → State → State) (s : State) : State :=
  match l with
  | [] => s
  | a :: t => forEach t f (f a s)

/-- An occurrence of a source, with its DETAIL words; `own` are the slices besides slice 0 that see it (R534 to R539). -/
def raise (src : Nat) (own : List Nat) (detail : List Word) (s : State) : State :=
  let s := forEach (List.range 16) (fun fn s => if seesEvt s src own fn then setPend fn src s else s) s
  forEach (List.range 19) (fun ch s => noteEvt src own detail ch s) s

/-- A channel takes note of further occurrences that come at once with the next one it is told of (R102). -/
def heldMore (src : Nat) (own : List Nat) (k ch : Nat) (s : State) : State :=
  if seesEvt s src own ch then
    let e := chanEvt s ch src
    setChanEvt ch src { e with count := (e.count + k) % 2 ^ 32, held := e.held + k } s
  else s

/-- `k` occurrences of a source at once (R102, R535). -/
def raiseN (k src : Nat) (own : List Nat) (detail : List Word) (s : State) : State :=
  raise src own detail (if k ≤ 1 then s else forEach (List.range 19) (heldMore src own (k - 1)) s)

/-- A power domain's record. -/
def domOf (s : State) (d : Nat) : Domain := kgetD s.pwr.doms d {}

/-- Whether a domain is ON (R122). -/
def domOn (s : State) (d : Nat) : Bool := (domOf s d).st = .on

/-- Whether a domain is powered: RAMP, ON or DRAIN (R122). -/
def domLive (s : State) (d : Nat) : Bool := (domOf s d).st ≠ .off

/-- Writes a domain's record. -/
def setDom (d : Nat) (x : Domain) (s : State) : State := { s with pwr := { s.pwr with doms := kset s.pwr.doms d x } }

end Sys2Proof.Machine
end

