-- ==== Sys2Proof/Machine/Ops.lean ====
section
/-! DEFINITION. The operations every call goes through: reading a message, the checks in front of a call, its response, the
transaction that stages, validates and applies it (chapter 02), and the ownership tests of chapter 01. -/

namespace Sys2Proof.Machine

/-- What a meaning answers. -/
abbrev Out := Host.Outcome State Fault Refusal

/-- The status codes (R90). -/
inductive Status where
  | done | pending | busyObject | noSpace | badCall | badArg | notOwner | badState | version | txnFull | txnUnknown
  | validation | signature | keyLimit
  deriving DecidableEq, Repr

/-- A status as a response carries it (R90). -/
def Status.code : Status → Nat
  | .done => 0 | .pending => 1 | .busyObject => 2 | .noSpace => 3 | .badCall => 4 | .badArg => 5 | .notOwner => 6
  | .badState => 7 | .version => 8 | .txnFull => 9 | .txnUnknown => 10 | .validation => 11 | .signature => 12 | .keyLimit => 13

/-- A result with a status for its failure. -/
abbrev Res (α : Type) := Except Status α

/-- One microsecond and one 125 µs frame, in the units of the timebase counter (R12, R211). -/
def us : Nat := 1000 * 2 ^ 40
def frameTb : Nat := 125 * us

/-- INC_NOM (R211). -/
def incNom : Nat := 0x1999999999A

/-- The bound on |y|, in 10^-12 (R222). -/
def yMax : Int := 15000000

/-- The slew's addition to y now: at most SLEW_MAX, the sum held at the bound (R223). -/
def slewRate (t : TimeBase) : Int :=
  match t.slew with
  | none => 0
  | some r =>
    let m : Int := t.cfg.slewMax
    if 0 ≤ r then clampI 0 m (yMax - t.y) else -(clampI 0 m (yMax + t.y))

/-- What is left of a slew after an amount of it. -/
def slewLess (moved : Int) (t : TimeBase) : Option Int :=
  t.slew.bind fun r => if r.natAbs ≤ moved.natAbs then none else some (r - moved)

/-- The increment of the next tick: INC, with the slew's addition, the last of it cut to what is left (R211, R223). -/
def tickInc (t : TimeBase) : Nat :=
  let a : Int := incNom * slewRate t
  let moved := match t.slew with
    | none => 0
    | some r => if r.natAbs ≤ a.natAbs then r else a
  (((incNom : Int) * (1000000000000 + t.y) + moved + 500000000000) / 1000000000000).toNat

/-- Moves the counter forward to an instant, never back; a slew goes on meanwhile (R223). -/
def advance (t : Nat) (s : State) : State :=
  let a := slewRate s.time
  let moved : Int := (t - s.tb : Nat) * 1000000000000 * a / (1000000000000 + s.time.y + a)
  { s with tb := max s.tb t, time := { s.time with slew := slewLess moved s.time } }

/-! ### The inbound queue -/

/-- Free words of an inbound queue (R54). -/
def inFree (c : Channel) : Nat := 64 - c.inq.length

/-- Writes a channel whose inbound queue may have shrunk: the space interrupt fires when FREE rises to the threshold (R54). -/
def setChanRoom (ch : Nat) (old new : Channel) (s : State) : State :=
  let s := setChan ch new s
  if new.inSpaceEn && inFree old < new.freeThresh && new.freeThresh ≤ inFree new && ch < 16 then msix ch 1 s else s

/-- A word reaches the tail of an inbound queue (R56, R63, R64): stamped if it is a header, marked while COLLISION is 1; a full
queue has its newest word replaced, and the collision is told once. -/
def pushIn (ch : Nat) (w : Word) (s : State) : State :=
  let c := chanOf s ch
  if c.inq.length < 64 then
    let hd := c.inExpect = 0
    let w' := if hd then (w &&& 0xFFFFFF00) ||| wd ch else w
    setChan ch { c with inq := c.inq ++ [⟨w', hd, c.inColl⟩], inExpect := if hd then fld w 15 12 else c.inExpect - 1 } s
  else
    let s' := setChan ch { c with inq := c.inq.dropLast ++ (c.inq.getLast?.toList.map fun o => { o with w := w, marked := true }), inColl := true } s
    if c.inColl then s' else raise 960 ((sliceOf s ch).toList) [wd ch] s'

/-- The words of the message at the head of an inbound queue: its header word and the words up to the next header. -/
def headMsg (q : List InWord) : List InWord :=
  match q with
  | [] => []
  | h :: t => h :: t.takeWhile fun x => !x.hd

/-- Whether the message at the head is complete: its last word has been written (R56). -/
def headComplete (c : Channel) : Bool :=
  c.inq ≠ [] && ((headMsg c.inq).length < c.inq.length || c.inExpect = 0)

/-- Removes the head message from an inbound queue. -/
def dropHead (ch : Nat) (s : State) : State :=
  let c := chanOf s ch
  setChanRoom ch c { c with inq := c.inq.drop (headMsg c.inq).length } s

/-- The header word of a call as the hardware stamped it (R55). -/
def headerOf (code : Nat) (c : Call) : Word := wd (code * 2 ^ 16 + c.words.length * 2 ^ 12 + c.seq.toNat * 2 ^ 8 + c.chan.val)

/-- Whether the message at the head of an inbound queue is complete, unmarked and spells a call. -/
def atHead (code : Nat) (c : Call) (x : Channel) : Bool :=
  headComplete x && (headMsg x.inq).map (·.w) = headerOf code c :: c.words && (headMsg x.inq).all (!·.marked)

/-- Whether a call is the next that Saend reads on its channel (R60): its message stands at the head of the inbound queue, or the queue
is empty and the row stands for a message written whole and read at once (assumption 7). -/
def nextCall (code : Nat) (c : Call) (x : Channel) : Bool := x.inq = [] || atHead code c x

/-- Saend reads a call: the message at the head that spells it leaves the queue. -/
def readCall (code : Nat) (c : Call) (s : State) : State := if atHead code c (chanOf s c.chan) then dropHead c.chan s else s

/-! ### Registers of a function (R6, R7, R51) -/

/-- Whether a function is there: the physical one, or an enabled virtual one (R45). -/
def hostSees (s : State) (fn : Nat) : Bool := fn ≤ s.ctl.numVfs

/-- A register write on a function: nothing on a function that is not enabled; a 1 in a reserved field is undefined (R6). -/
def writeReg (fn reserved : Nat) (w : Word) (s t : State) : Out :=
  if !hostSees s fn then .next s else if (w &&& wd reserved) ≠ 0 then .fault (.undefinedUse "R6") else .next t

/-! ### Responses -/

/-- Sends a response: the call's code and SEQUENCE, identity 0x1F, the status, then the layout's words (R57). -/
def reply (chan seq code : Nat) (st : Status) (ws : List Word) (s : State) : State :=
  sendMsg chan false (wd (code * 2 ^ 16 + (1 + ws.length) * 2 ^ 12 + seq * 2 ^ 8 + 0x1F) :: wd st.code :: ws) s

/-- The response of a call that is answered as it is read. -/
def respond (code : Nat) (c : Call) (st : Status) (ws : List Word) (s : State) : State := reply c.chan c.seq.toNat code st ws s

/-- The reference under which a call waits. -/
def refFor (code : Nat) (c : Call) (s : State) : Ref := ⟨c.chan, c.seq.toNat, code, (chanOf s c.chan).nextId⟩

/-- Records that a call has been read and waits for its answer (R60, R62). -/
def defer_ (r : Ref) (s : State) : State :=
  let x := chanOf s r.chan
  setChan r.chan { x with waiting := x.waiting ++ [r], nextId := x.nextId + 1 } s

/-- Answers a waiting call; one whose session has closed is answered no more (R49, R80). -/
def answer (r : Ref) (st : Status) (ws : List Word) (s : State) : State :=
  let x := chanOf s r.chan
  if x.waiting.contains r then
    reply r.chan r.seq r.code st ws (setChan r.chan { x with waiting := x.waiting.filter (· ≠ r) } s)
  else s

/-- Answers a waiting call if there is one. -/
def answerOpt (r : Option Ref) (st : Status) (ws : List Word) (s : State) : State :=
  match r with
  | some r => answer r st ws s
  | none => s

/-! ### The checks in front of a call -/

/-- Who may make a call, besides the identities named for it (R47, R48, R99). -/
inductive Who where
  | any | session | bound | slice0 | nobody
  deriving DecidableEq, Repr

/-- A row of a call table with its payload layout: the lengths the call takes and, word by word, the bits that are fields. -/
structure CallSpec where
  code : Nat
  who : Who
  extra : List Nat := []
  intro : Nat := 0x0200
  lens : List Nat
  used : List Nat
  deriving DecidableEq, Repr

/-- Whether an identity may make a call (R47, R48). -/
def mayCall (s : State) (sp : CallSpec) (ch : Nat) : Bool :=
  sp.extra.contains ch || match sp.who with
    | .any => true
    | .session => ch < 16
    | .bound => (sliceOf s ch).isSome
    | .slice0 => sliceOf s ch = some 0
    | .nobody => false

/-- Whether a payload writes 1 to a bit that its layout does not name (R6). -/
def reservedSet (used : List Nat) (ws : List Word) : Bool :=
  match ws, used with
  | [], _ => false
  | w :: t, u :: v => (w &&& ~~~ wd u) != 0 || reservedSet v t
  | w :: t, [] => w != 0 || reservedSet [] t

/-- How the checks in front of a call end. -/
inductive Front where
  | idle
  | undefined_ (rule : String)
  | refuse (st : Status)
  | ok
  deriving DecidableEq, Repr

/-- The checks Saend makes before a call's own, in this order (R60, R62, R77, R79, R47, R90, R6; the order is assumption 8). Two calls
outstanding with one SEQUENCE are both answered (R61; assumption 41). -/
def front (sp : CallSpec) (c : Call) (s : State) : Front :=
  let x := chanOf s c.chan
  if !s.boot.ready || 64 ≤ x.waiting.length || !nextCall sp.code c x then .idle
  else if x.session.isNone && sp.code ≠ 0x0001 && sp.code ≠ 0x0003 then .refuse .badState
  else if (x.session.getD 0x0302) < sp.intro then .refuse .badCall
  else if !mayCall s sp c.chan then .refuse .notOwner
  else if !sp.lens.contains c.words.length then .refuse .badArg
  else if reservedSet sp.used c.words then .undefined_ "R6"
  else .ok

/-- A call that is not transactional: the checks, then its body, which sends the response. -/
def serve (sp : CallSpec) (c : Call) (s : State) (body : State → State) : Out :=
  match front sp c s with
  | .idle => .next s
  | .undefined_ r => .fault (.undefinedUse r)
  | .refuse st => .next (respond sp.code c st [] (readCall sp.code c s))
  | .ok => .next (body (readCall sp.code c s))

/-- A call that reads state: its body gives the response. -/
def serveRead (sp : CallSpec) (c : Call) (s : State) (body : State → Res (List Word)) : Out :=
  serve sp c s fun s => match body s with
    | .ok ws => respond sp.code c .done ws s
    | .error st => respond sp.code c st [] s

/-- A call that acts at once: its body gives the new state and the response. -/
def serveAct (sp : CallSpec) (c : Call) (s : State) (body : State → Res (State × List Word)) : Out :=
  serve sp c s fun s => match body s with
    | .ok (t, ws) => respond sp.code c .done ws t
    | .error st => respond sp.code c st [] s

/-- The negotiated version of a channel; 3.2 where none is open (R2, R78). -/
def versionOf (s : State) (ch : Nat) : Nat := ((chanOf s ch).session).getD 0x0302

/-! ### Ownership (R26, R28, R29, R210, R357) -/

/-- The slice a caller acts as: identities 0x10 to 0x12 act for slice 0 in the calls that name them. -/
def actingSlice (s : State) (ch : Nat) : Option Nat := if 16 ≤ ch then some 0 else sliceOf s ch

/-- Whether a slice's range holds an index. -/
def inRange (r : Option (Nat × Nat)) (i : Nat) : Bool :=
  match r with
  | some (base, count) => base ≤ i && i < base + count
  | none => false

/-- The slice that owns an index under a table of ranges keyed 32 × slice + Span; slice 0 owns what no other slice owns. -/
def ownerIn (ranges : KMap (Nat × Nat)) (span i : Nat) : Nat :=
  ((List.range 16).find? fun k => k ≠ 0 && inRange (kget ranges (32 * k + span)) i).getD 0

/-- The slice that owns an ONU index (R26). -/
def onuOwner (s : State) (span onu : Nat) : Nat := ownerIn s.ctl.onuRanges span onu

/-- The slice that owns an allocation index (R26). -/
def allocOwner (s : State) (span a : Nat) : Nat := ownerIn s.ctl.allocRanges span a

/-- The slice that owns a VRF (R26). -/
def vrfOwner (s : State) (vrf : Nat) : Nat := kgetD s.ctl.vrfOwners vrf 0

/-- The slice that owns a queue number (R357). -/
def queueOwner (s : State) (q : Nat) : Nat :=
  ((List.range 16).find? fun k => k ≠ 0 && inRange (kget s.fwd.ranges k) (q % 262144)).getD 0

/-- NOT_OWNER unless one who acts for a slice acts for slice 0 or for the owner (R28, R29). An item carries the slice that its caller
acted for when Saend read the call, under the binding of that moment (R46). -/
def needOwnerAs (who : Option Nat) (owner : Nat) : Res Unit := if who = some 0 || who = some owner then .ok () else .error .notOwner

/-- NOT_OWNER unless the caller of a channel acts for slice 0 or for the owner (R28, R29). -/
def needOwner (s : State) (ch owner : Nat) : Res Unit := needOwnerAs (actingSlice s ch) owner

/-- A status unless a condition holds. -/
def need (b : Bool) (st : Status) : Res Unit := if b then .ok () else .error st

/-- BAD_ARG where a slice that a call names beside its target does not exist (R560). -/
def needSlice (s : State) (k : Nat) : Res Unit := need (s.ctl.slices.contains k) .badArg

/-- A read of what a slice has: NOT_OWNER first, then BAD_STATE where the slice does not exist (R560). -/
def readsSlice (s : State) (ch k : Nat) : Res Unit := do
  needOwner s ch k
  need (s.ctl.slices.contains k) .badState

/-! ### Transactions -/

/-- A transactional call: its table row, the objects its words name (its own argument and ownership checks), what each item does
to the configuration at the apply point (existence and state checks with it), the check on the transaction as one whole, and the
call as one item per object (R82), for the calls that touch several. -/
structure TxnCall where
  spec : CallSpec
  objs : State → Item → Res (List Obj)
  apply : Item → State → Res State
  post : Item → State → Res Unit := fun _ _ => .ok ()
  parts : Item → List Item := fun i => [i]

/-- The transaction a handle names on a channel (R81). -/
def findTxn (s : State) (ch handle : Nat) : Option Txn :=
  s.ctl.txns.find? fun t => !t.implicit && t.chan = ch && t.handle = handle

/-- Replaces the list of transactions. -/
def setTxns (ts : List Txn) (s : State) : State := { s with ctl := { s.ctl with txns := ts } }

/-- Rewrites the transaction of a handle. -/
def modTxn (ch handle : Nat) (f : Txn → Txn) (s : State) : State :=
  setTxns (s.ctl.txns.map fun t => if !t.implicit && t.chan = ch && t.handle = handle then f t else t) s

/-- Closes the transaction of a handle and releases its objects. -/
def dropTxn (ch handle : Nat) (s : State) : State :=
  setTxns (s.ctl.txns.filter fun t => t.implicit || t.chan ≠ ch || t.handle ≠ handle) s

/-- Whether another transaction than that of a handle holds one of some objects (R83). -/
def heldElsewhere (s : State) (ch handle : Nat) (os : List Obj) : Bool :=
  s.ctl.txns.any fun t => (t.implicit || t.chan ≠ ch || t.handle ≠ handle) && os.any t.holds.contains

/-- Whether any transaction holds an object. -/
def isHeld (s : State) (o : Obj) : Bool := s.ctl.txns.any fun t => t.holds.contains o

/-- The items a transaction holds, counted by object (R82). -/
def itemCount (items : List Item) : Nat := (items.map fun i => i.objs.length).sum

/-- A change reached its later boundary: its object is released, and a transaction with none left is gone (R40). -/
def releaseObj (o : Obj) (s : State) : State :=
  let s := { s with ctl := { s.ctl with later := s.ctl.later.filter (· ≠ o) } }
  setTxns ((s.ctl.txns.map fun t => if t.phase = .applied then { t with holds := t.holds.filter (· ≠ o) } else t).filter
    fun t => t.phase ≠ .applied || t.holds ≠ []) s

/-- Marks an object whose change waits for a boundary later than the apply point (R40, R41). -/
def addLater (o : Obj) (s : State) : State := { s with ctl := { s.ctl with later := o :: s.ctl.later } }

/-- The first apply point at least 20 µs after an instant, put off by DEFER apply points (R38, R86). -/
def applyPointFor (t defer : Nat) : Nat := (ceilDiv (t + 20 * us) frameTb + defer) * frameTb

/-- How an item list fares on a state: the state after it, and the first item refused with its status, if any. -/
structure Judged where
  st : State
  bad : Option (Nat × Status)

/-- Runs the items in order; a refused item changes nothing and the first refusal is kept (R85, R560). -/
def runItems (ap : Item → State → Res State) (n : Nat) (items : List Item) (j : Judged) : Judged :=
  match items with
  | [] => j
  | i :: t =>
    match ap i j.st with
    | .ok s' => runItems ap (n + i.objs.length) t { j with st := s' }
    | .error e => runItems ap (n + i.objs.length) t { j with bad := j.bad <|> some (n, e) }

/-- The first item whose whole-transaction check fails. -/
def firstPost (po : Item → State → Res Unit) (n : Nat) (items : List Item) (s : State) : Option (Nat × Status) :=
  match items with
  | [] => none
  | i :: t => match po i s with
    | .ok _ => firstPost po (n + i.objs.length) t s
    | .error e => some (n, e)

/-- The earlier of two refusals. -/
def earlier (a b : Option (Nat × Status)) : Option (Nat × Status) :=
  match a, b with
  | some (i, x), some (j, y) => if j < i then some (j, y) else some (i, x)
  | some x, none => some x
  | none, y => y

/-- Validates items as one whole on a state (R85). -/
def judge (ap : Item → State → Res State) (po : Item → State → Res Unit) (items : List Item) (s : State) : Judged :=
  let j := runItems ap 0 items ⟨s, none⟩
  { j with bad := earlier j.bad (firstPost po 0 items j.st) }

/-- When an accepted transaction applies. -/
def acceptedAt (t : Txn) : Option Nat := match t.phase with | .accepted a => some a | _ => none

/-- Accepted transactions in the order of their apply points, those of one apply point in the order of acceptance (R39). -/
def insertByTime (t : Txn) (l : List Txn) : List Txn :=
  match l with
  | [] => [t]
  | u :: r => if (acceptedAt t).getD 0 < (acceptedAt u).getD 0 then t :: u :: r else u :: insertByTime t r

/-- The accepted transactions in that order. -/
def acceptedTxns (s : State) : List Txn :=
  (s.ctl.txns.filter fun t => (acceptedAt t).isSome).foldl (fun l t => insertByTime t l) []

/-- Runs the items of some transactions, refused items changing nothing. -/
def runTxns (ap : Item → State → Res State) (ts : List Txn) (s : State) : State :=
  match ts with
  | [] => s
  | t :: r => runTxns ap r (runItems ap 0 t.items ⟨s, none⟩).st

/-- The commit as a whole decides whether a later accepted transaction stays valid: where it does not, the item after which it is
refused to the end of the commit, with the status it then meets (R39; assumption 151). `seen` is what the items done have left. -/
def spoilAt (ap : Item → State → Res State) (po : Item → State → Res Unit) (before : State) (items done : List Item) (n : Nat)
    (mid : List Txn) (t : Txn) (seen : Option (Nat × Status)) : Option (Nat × Status) :=
  match items with
  | [] => seen
  | i :: r =>
    let done := done ++ [i]
    spoilAt ap po before r done (n + i.objs.length) mid t
      ((judge ap po t.items (runTxns ap mid (runItems ap 0 done ⟨before, none⟩).st)).bad.map fun e => ((seen.map (·.1)).getD n, e.2))

/-- The first item that would make an accepted transaction with a later apply point invalid there, if one would (R39). -/
def spoils (ap : Item → State → Res State) (po : Item → State → Res Unit) (before : State) (items : List Item)
    (mid later : List Txn) : Option (Nat × Status) :=
  match later with
  | [] => none
  | t :: r =>
    match (judge ap po t.items (runTxns ap mid before)).bad with
    | some _ => spoils ap po before items (mid ++ [t]) r
    | none => earlier (spoilAt ap po before items [] 0 mid t none) (spoils ap po before items (mid ++ [t]) r)

/-- Validates items for an apply point (R39, R85): none if Saend accepts them, else the index and status of the first invalid one. -/
def validate (ap : Item → State → Res State) (po : Item → State → Res Unit) (items : List Item) (target : Nat) (s : State) :
    Option (Nat × Status) :=
  let acc := acceptedTxns s
  let before := runTxns ap (acc.filter fun t => (acceptedAt t).getD 0 ≤ target) s
  match (judge ap po items before).bad with
  | some x => some x
  | none => spoils ap po before items [] (acc.filter fun t => target < (acceptedAt t).getD 0)

end Sys2Proof.Machine
end

