-- ==== Sys2Proof/Machine/Lookup.lean ====
section
/-! DEFINITION. The lookup tables of a pipeline (chapter 09): keys and results, the two-bucket hash table with its overflow store,
insertion, moves and eviction, aging, and the LPM memory. -/

namespace Sys2Proof.Machine

/-- A pipeline's record. -/
def pipeOf (s : State) (p : Nat) : Pipe := kgetD s.fwd.pipes p {}

/-- Writes a pipeline's record. -/
def setPipe (p : Nat) (x : Pipe) (s : State) : State := { s with fwd := { s.fwd with pipes := kset s.fwd.pipes p x } }

/-! ### Results (R315) -/

/-- Fields of a result. -/
def resAction (r : BitVec 64) : Nat := nfld r.toNat 63 62
def resStatic (r : BitVec 64) : Bool := r.toNat.testBit 61
def resBind (r : BitVec 64) : Bool := r.toNat.testBit 60
def resAge (r : BitVec 64) : Nat := nfld r.toNat 59 58
def resAgingClass (r : BitVec 64) : Nat := nfld r.toNat 57 56
def resClasses (r : BitVec 64) : Nat := nfld r.toNat 55 54
def resQueue (r : BitVec 64) : Nat := nfld r.toNat 51 32
def resSpan (r : BitVec 64) : Nat := nfld r.toNat 31 27
def resPort (r : BitVec 64) : Nat := nfld r.toNat 12 0

/-- A result with its AGE replaced. -/
def withAge (r : BitVec 64) (a : Nat) : BitVec 64 := BitVec.ofNat 64 (nput r.toNat 59 58 a)

/-- A result as a call writes it: STATIC 1, the hardware's AGE and AGING_CLASS 0 (R315). -/
def asStatic (r : BitVec 64) : BitVec 64 := BitVec.ofNat 64 (nput (nput (nput r.toNat 61 61 1) 59 58 0) 57 56 0)

/-- The result of a learned entry (R322): forward, BIND 1, AGE 3. -/
def learnedRes (span port classes queue cls : Nat) : BitVec 64 :=
  BitVec.ofNat 64 (2 ^ 60 + 3 * 2 ^ 58 + cls * 2 ^ 56 + classes * 2 ^ 54 + queue * 2 ^ 32 + span * 2 ^ 27 + port)

/-- The result of a direct entry that was never written: ACTION 1, drop (R309). -/
def dropRes : BitVec 64 := BitVec.ofNat 64 (2 ^ 62)

/-- The key of a station: KIND 1, bridge domain, MAC address (R314). -/
def macKey (bd mac : Nat) : Nat := 2 ^ 124 + bd * 2 ^ 110 + mac

/-- The key of an IPv4 host: KIND 2, VRF, address (R314). -/
def hostKey (vrf ip : Nat) : Nat := 2 * 2 ^ 124 + vrf * 2 ^ 112 + ip

/-! ### The hash (R317) -/

/-- One bit step of CRC-32C with its reflected polynomial. -/
def crcStep (c : Nat) : Nat := if c % 2 = 1 then (c / 2) ^^^ 0x82F63B78 else c / 2

/-- One byte of CRC-32C. -/
def crcByte (c : Nat) (b : Byte) : Nat :=
  crcStep (crcStep (crcStep (crcStep (crcStep (crcStep (crcStep (crcStep (c ^^^ b.toNat))))))))

/-- CRC-32C of a byte string under a seed. -/
def crc32c (seed : Nat) (bs : List Byte) : Nat := (bs.foldl crcByte (0xFFFFFFFF ^^^ seed)) ^^^ 0xFFFFFFFF

/-- Buckets of the hash region (R316). -/
def hashBuckets (x : Pipe) : Nat := 65536 - 1024 * x.directBlocks

/-- A key's candidate bucket under a seed (R317). -/
def bucketOf (x : Pipe) (seed key : Nat) : Nat := 1024 * x.directBlocks + (crc32c seed (toBe 16 key) * hashBuckets x) / 2 ^ 32

/-- A key's two candidate buckets. -/
def candidates (x : Pipe) (key : Nat) : Nat × Nat := (bucketOf x x.seed0 key, bucketOf x x.seed1 key)

/-- Where an entry lies: a bucket and slot, or an overflow entry. -/
inductive Where where
  | bucket (b slot : Nat)
  | overflow (i : Nat)
  deriving DecidableEq, Repr

/-- The slot of a key in a bucket. -/
def slotOf (x : Pipe) (b key : Nat) : Option Nat :=
  (List.range 4).find? fun i => match kget x.em (4 * b + i) with | some e => e.key = key | none => false

/-- The lowest free slot of a bucket. -/
def freeSlot (x : Pipe) (b : Nat) : Option Nat := (List.range 4).find? fun i => (kget x.em (4 * b + i)).isNone

/-- Where a key is, in b0, b1 or the overflow store (R318). -/
def findKey (x : Pipe) (key : Nat) : Option Where :=
  let (b0, b1) := candidates x key
  match slotOf x b0 key with
  | some i => some (.bucket b0 i)
  | none => match slotOf x b1 key with
    | some i => some (.bucket b1 i)
    | none => (x.ov.find? fun e => e.2.key = key).map fun e => .overflow e.1

/-- The entry at a place. -/
def entryAt (x : Pipe) (w : Where) : Option FdbEntry :=
  match w with
  | .bucket b i => kget x.em (4 * b + i)
  | .overflow i => kget x.ov i

/-- Writes an entry at a place. -/
def putAt (x : Pipe) (w : Where) (e : FdbEntry) : Pipe :=
  match w with
  | .bucket b i => { x with em := kset x.em (4 * b + i) e }
  | .overflow i => { x with ov := kset x.ov i e }

/-- Invalidates a place. -/
def clearAt (x : Pipe) (w : Where) : Pipe :=
  match w with
  | .bucket b i => { x with em := kerase x.em (4 * b + i) }
  | .overflow i => { x with ov := kerase x.ov i }

/-- The result a lookup of a key returns. -/
def lookupKey (x : Pipe) (key : Nat) : Option (BitVec 64) :=
  match findKey x key with
  | some w => (entryAt x w).map (·.res)
  | none => none

/-- Valid entries of the hash region, the overflow store among them (R316). -/
def hashEntries (x : Pipe) : Nat := x.em.length + x.ov.length

/-- The move of an entry: a copy to its new place, then the old one cleared (R320). -/
def moveEntry (x : Pipe) (src dst : Where) : Pipe :=
  match entryAt x src with
  | some e => clearAt (putAt x dst e) src
  | none => x

/-- The other candidate bucket of a key, none where it has one bucket. -/
def otherBucket (x : Pipe) (b key : Nat) : Option Nat :=
  let (c0, c1) := candidates x key
  if c0 = c1 then none else some (if c0 = b then c1 else c0)

/-- Frees a slot of one of some places by a chain of at most `depth` moves, in slot order; answers the freed place (R319). -/
def freeByMoves (x : Pipe) (depth : Nat) (places : List (Nat × Nat)) (fuel : Nat) : Option (Pipe × Where) :=
  match fuel with
  | 0 => none
  | fuel + 1 =>
    match places with
    | [] => none
    | (b, i) :: rest =>
      let tried : Option (Pipe × Where) :=
        match kget x.em (4 * b + i) with
        | none => none
        | some e => match otherBucket x b e.key with
          | none => none
          | some ob => match freeSlot x ob with
            | some j => some (moveEntry x (.bucket b i) (.bucket ob j), .bucket b i)
            | none => match depth with
              | 0 => none
              | 1 => none
              | d + 2 => match freeByMoves x (d + 1) ((List.range 4).map fun j => (ob, j)) fuel with
                | some (x', w) => some (moveEntry x' (.bucket b i) w, .bucket b i)
                | none => none
      match tried with
      | some r => some r
      | none => freeByMoves x depth rest fuel

/-- The first free overflow entry. -/
def freeOverflow (x : Pipe) : Option Nat :=
  let i := firstFree (x.ov.map (·.1)) 0
  if i < 4096 then some i else none

/-- The learned entry with the lowest AGE among some places, first of equals. -/
def oldest (x : Pipe) (ws : List Where) (best : Option (Where × Nat)) : Option Where :=
  match ws with
  | [] => best.map (·.1)
  | w :: t =>
    match entryAt x w with
    | none => oldest x t best
    | some e =>
      if resStatic e.res then oldest x t best
      else match best with
        | none => oldest x t (some (w, resAge e.res))
        | some (_, a) => oldest x t (if resAge e.res < a then some (w, resAge e.res) else best)

/-- What an insertion did: the table, and whether it evicted a learned entry. -/
structure Inserted where
  pipe : Pipe
  evicted : Bool
  deriving DecidableEq, Repr

/-- The slots of b0, then b1. -/
def bothBuckets (b0 b1 : Nat) : List (Nat × Nat) :=
  ((List.range 4).map fun i => (b0, i)) ++ (if b0 = b1 then [] else (List.range 4).map fun i => (b1, i))

/-- The first chain length, from 1 up to a limit, that frees a slot (R319). -/
def freeChain (x : Pipe) (b0 b1 : Nat) (ds : List Nat) : Option (Pipe × Where) :=
  match ds with
  | [] => none
  | d :: t => match freeByMoves x d (bothBuckets b0 b1) 64 with
    | some r => some r
    | none => freeChain x b0 b1 t

/-- An insertion (R319): in place, a free slot, a move, the overflow store, and for a static entry the eviction of a learned one. -/
def insertEntry (x : Pipe) (e : FdbEntry) (static : Bool) : Option Inserted :=
  let (b0, b1) := candidates x e.key
  match findKey x e.key with
  | some w => some ⟨putAt x w e, false⟩
  | none =>
    if 4 * hashBuckets x ≤ hashEntries x then none
    else match freeSlot x b0 with
      | some i => some ⟨putAt x (.bucket b0 i) e, false⟩
      | none => match freeSlot x b1 with
        | some i => some ⟨putAt x (.bucket b1 i) e, false⟩
        | none => match freeChain x b0 b1 (if static then [1, 2, 3] else [1]) with
          | some (x', w) => some ⟨putAt x' w e, false⟩
          | none => match freeOverflow x with
            | some i => some ⟨putAt x (.overflow i) e, false⟩
            | none =>
              if static then
                match oldest x ((bothBuckets b0 b1).map fun p => .bucket p.1 p.2) none with
                | some w => some ⟨putAt x w e, true⟩
                | none => none
              else none

/-- Removes a key from the table. -/
def removeKey (x : Pipe) (key : Nat) : Pipe :=
  match findKey x key with
  | some w => clearAt x w
  | none => x

/-- Removes the learned entries that a test selects. -/
def removeLearned (x : Pipe) (p : FdbEntry → Bool) : Pipe :=
  { x with em := kfilter x.em (fun _ e => resStatic e.res || !p e), ov := kfilter x.ov (fun _ e => resStatic e.res || !p e) }

/-- How many learned entries a test selects. -/
def countLearned (x : Pipe) (p : FdbEntry → Bool) : Nat :=
  ((x.em ++ x.ov).filter fun e => !resStatic e.2.res && p e.2).length

/-- A port's learned count (R323). -/
def learnedCount (x : Pipe) (span port : Nat) : Nat := countLearned x fun e => resSpan e.res = span && resPort e.res = port

/-- The threshold events of R339 that an insertion or a removal moves past: k = 0 and k = 2. -/
def tableLevels (p : Nat) (s : State) : State :=
  let x := pipeOf s p
  let hi := 9 * 4 * hashBuckets x < 10 * hashEntries x
  let ov := 3072 < x.ov.length
  let s' := setPipe p { x with hiTold := hi, ovTold := ov } s
  let s' := if hi && !x.hiTold then raise (512 + 8 * p) [] [wd (hashEntries x)] s' else s'
  if ov && !x.ovTold then raise (512 + 8 * p + 2) [] [wd x.ov.length] s' else s'

/-! ### Learning (R322, R323, R328) -/

/-- What becomes of a frame after learning: it goes on, is dropped, or is punted with a reason. -/
inductive Fate where
  | forward
  | drop
  | punt (reason : Nat)
  deriving DecidableEq, Repr

/-- The action codes 0 forward, 1 drop, 2 punt (R322, R323). -/
def fateOf (action reason : Nat) : Fate := if action = 1 then .drop else if action = 2 then .punt reason else .forward

/-- Sends a key to the other three pipelines (R328). -/
def xpSend (p key : Nat) (s : State) : State :=
  forEach ((List.range 4).filter (· ≠ p)) (fun q s => let x := pipeOf s q; setPipe q { x with xpWait := x.xpWait ++ [key] } s) s

/-- A port reached its MAC_LIMIT (R339 k = 5). -/
def limitReached (p span port owner : Nat) (limit : Nat) (s : State) : State :=
  if limit ≠ 0 && learnedCount (pipeOf s p) span port = limit then raise (512 + 8 * p + 5) [owner] [wd (span * 2 ^ 16 + port)] s else s

/-- Whether the learning engine may be busy: it took a new entry less than 50 ns ago, at the rate of R324 (assumption 95). -/
def engineBusy (x : Pipe) (s : State) : Bool :=
  match x.taught with
  | some t => s.tb < t + us / 20 && Config.freeBool s.free
  | none => false

/-- A pipeline learns a source address (R322 to R324, R328): the state after it and what becomes of the frame. One that finds the
engine busy goes on unlearned. -/
def learn (p span port owner : Nat) (r : PortRec) (mac : Nat) (s : State) : State × Fate :=
  let x := pipeOf s p
  let bd := kgetD x.bridges r.domain {}
  if !(r.learn && bd.learn) || mac = 0 || (mac / 2 ^ 40) % 2 = 1 then (s, .forward)
  else if engineBusy x s then (cnt (cPipe 11 p) 1 (drawn s), .forward)
  else
    let s := drawn s
    let key := macKey r.domain mac
    let fresh := learnedRes span port r.dsClasses r.dsQueue bd.agingClass
    let full := r.macLimit ≠ 0 && r.macLimit ≤ learnedCount x span port
    match findKey x key with
    | none =>
      if full then (cnt (cPortRec 0 span port) 1 s, fateOf r.limitAction 10)
      else match insertEntry x ⟨key, fresh⟩ false with
        | some i =>
          let s := tableLevels p (cnt (cPipe 7 p) 1 (setPipe p { i.pipe with taught := some s.tb } s))
          let s := limitReached p span port owner r.macLimit s
          (if bd.xpFlush then xpSend p key s else s, .forward)
        | none => (raise (512 + 8 * p + 1) [] [wd r.domain] (cnt (cPipe 10 p) 1 s), .forward)
    | some w =>
      match entryAt x w with
      | none => (s, .forward)
      | some e =>
        let same := resSpan e.res = span && resPort e.res = port
        if resStatic e.res then
          if resBind e.res && same then (s, .forward)
          else (raise (512 + 8 * p + 4) [] [wd (span * 2 ^ 16 + port)] (cnt (cPipe 15 p) 1 s), fateOf bd.svAction 11)
        else if same then (setPipe p (putAt x w { e with res := withAge e.res 3 }) s, .forward)
        else if full then
          (tableLevels p (setPipe p (clearAt x w) (cnt (cPortRec 0 span port) 1 s)), fateOf r.limitAction 10)
        else
          let moved := BitVec.ofNat 64 (nput fresh.toNat 57 56 (resAgingClass e.res))
          let x' := { putAt x w { e with res := moved } with moves := x.moves + 1 }
          let told := x.moveAlarm ≠ 0 && x.moveAlarm < x'.moves
          let s := cnt (cPipe 8 p) 1 (setPipe p { x' with moveTold := x.moveTold || told } s)
          let s := if told && !x.moveTold then raise (512 + 8 * p + 3) [] [wd x'.moves] s else s
          let s := limitReached p span port owner r.macLimit s
          (if bd.xpFlush then xpSend p key s else s, .forward)

/-! ### Aging (R325 to R327) -/

/-- The sweep acts on the entry at a place (R325). -/
def ageAt (p cls : Nat) (w : Where) (s : State) : State :=
  let x := pipeOf s p
  match entryAt x w with
  | none => s
  | some e =>
    if resStatic e.res || resAgingClass e.res ≠ cls then s
    else if 0 < resAge e.res then setPipe p (putAt x w { e with res := withAge e.res (resAge e.res - 1) }) s
    else tableLevels p (cnt (cPipe 9 p) 1 (setPipe p (clearAt x w) s))

/-- The lowest-numbered overflow entry whose candidate bucket is a bucket (R327). -/
def overflowFor (x : Pipe) (b : Nat) : Option Nat :=
  (x.ov.find? fun e => let (c0, c1) := candidates x e.2.key; c0 = b || c1 = b).map (·.1)

/-- The sweep moves one overflow entry into a bucket with a free slot (R327). -/
def relocate (p b : Nat) (s : State) : State :=
  let x := pipeOf s p
  match freeSlot x b, overflowFor x b with
  | some i, some o => tableLevels p (cnt (cPipe 13 p) 1 (setPipe p (moveEntry x (.overflow o) (.bucket b i)) s))
  | _, _ => s

/-! ### The LPM memory (R329 to R332) -/

/-- The leading address bits agree up to a length. -/
def prefixMatches (q : Prefix) (v6 : Bool) (vrf addr : Nat) : Bool :=
  let w := if v6 then 128 else 32
  q.v6 = v6 && q.vrf = vrf && q.addr / 2 ^ (w - q.len) = addr / 2 ^ (w - q.len)

/-- The prefixes of a cell, with the offset of the slot each one's result lies in. -/
def cellPrefixes (c : LpmCell) : List (Nat × Prefix) :=
  match c with
  | .pair p => [(0, p)]
  | .one p => [(0, p)]
  | .two p q => [(0, p), (1, q)]

/-- Every prefix of a memory with its slot, in slot order; `n` is the cell number reached. -/
def lpmSlotsFrom (n : Nat) (cells : List LpmCell) : List (Nat × Prefix) :=
  match cells with
  | [] => []
  | c :: t => ((cellPrefixes c).map fun q => (2 * n + q.1, q.2)) ++ lpmSlotsFrom (n + 1) t

/-- The cells of the memory in slot order: groups by prefix length from 128 down (R330). -/
def lpmCells (x : Pipe) : List LpmCell := x.lpm.flatMap (·.2)

/-- Slots used (R332). -/
def lpmUsed (x : Pipe) : Nat := 2 * (lpmCells x).length

/-- The lowest-numbered match (R330). -/
def lpmLookup (x : Pipe) (v6 : Bool) (vrf addr : Nat) : Option (Nat × Prefix) :=
  (lpmSlotsFrom 0 (lpmCells x)).find? fun q => prefixMatches q.2 v6 vrf addr

/-- The slot of a given prefix. -/
def lpmFind (x : Pipe) (v6 : Bool) (vrf addr len : Nat) : Option (Nat × Prefix) :=
  (lpmSlotsFrom 0 (lpmCells x)).find? fun q => q.2.v6 = v6 && q.2.vrf = vrf && q.2.addr = addr && q.2.len = len

/-- Each non-empty group after a length gives its first two slots to its end, as the shift of R331 leaves them. -/
def rotateUp (g : Nat) (m : KMap (List LpmCell)) : KMap (List LpmCell) :=
  kmap m fun k cs => if g < k then match cs with | [] => [] | c :: t => t ++ [c] else cs

/-- The shift back when a group gives up two slots (assumption 9). -/
def rotateDown (g : Nat) (m : KMap (List LpmCell)) : KMap (List LpmCell) :=
  kmap m fun k cs => if g < k then match cs.getLast? with | none => [] | some c => c :: cs.dropLast else cs

/-- Puts an IPv4 prefix into the group's half-filled cell, if it has one. -/
def fillHalf (cs : List LpmCell) (q : Prefix) : Option (List LpmCell) :=
  match cs with
  | [] => none
  | .one p :: t => some (.two p q :: t)
  | c :: t => (fillHalf t q).map (c :: ·)

/-- Inserts a prefix that the memory does not hold (R331). -/
def lpmInsert (x : Pipe) (q : Prefix) : Pipe :=
  let g := 128 - q.len
  let cs := kgetD x.lpm g []
  let half := if q.v6 then none else fillHalf cs q
  match half with
  | some cs' => { x with lpm := kset x.lpm g cs' }
  | none => { x with lpm := kset (rotateUp g x.lpm) g (cs ++ [if q.v6 then .pair q else .one q]) }

/-- Rewrites the result of a prefix. -/
def lpmRewrite (x : Pipe) (q : Prefix) : Pipe :=
  let f (p : Prefix) : Prefix := if p.v6 = q.v6 && p.vrf = q.vrf && p.addr = q.addr && p.len = q.len then q else p
  { x with lpm := kmap x.lpm fun _ cs => cs.map fun c => match c with | .pair p => .pair (f p) | .one p => .one (f p) | .two a b => .two (f a) (f b) }

/-- The cell that holds a prefix, with what stays of it. -/
def cutCell (same : Prefix → Bool) (c : LpmCell) : Option (Option Prefix) :=
  match c with
  | .pair p => if same p then some none else none
  | .one p => if same p then some none else none
  | .two p q => if same p then some (some q) else if same q then some (some p) else none

/-- An IPv4 cell with its later slot first, as its entries leave it for a free pair of slots, the last one first. -/
def LpmCell.turned (c : LpmCell) : LpmCell := match c with | .two p q => .two q p | c => c

/-- A free pair of slots at the head of a list of cells is filled from the end of the group. -/
def fillPair (t : List LpmCell) : List LpmCell := match t.getLast? with | none => [] | some c => c.turned :: t.dropLast

/-- The group's last IPv4 prefix that a single free slot can take: the last entry if it is one, else that of the half-filled cell,
whose slots are then filled from the end (assumption 9). -/
def giveOne (cs : List LpmCell) : Option (Prefix × List LpmCell) :=
  match cs with
  | [] => none
  | [.one p] => some (p, [])
  | [.two p q] => some (q, [.one p])
  | .one p :: t => match t.getLast? with | some (.pair _) => some (p, fillPair t) | _ => (giveOne t).map fun r => (r.1, .one p :: r.2)
  | c :: t => (giveOne t).map fun r => (r.1, c :: r.2)

/-- Two half-filled cells of a group become one: the later one's prefix joins the earlier one's. -/
def joinHalves (cs : List LpmCell) : List LpmCell :=
  match cs with
  | [] => []
  | .one p :: t => match t.find? fun c => match c with | .one _ => true | _ => false with
    | some (.one q) => .two p q :: t.filter fun c => match c with | .one _ => false | _ => true
    | _ => .one p :: t
  | c :: t => c :: joinHalves t

/-- A group after a prefix left it and the last entry filled the hole (R331): in the place of a pair of slots the last cell's
entries, in the place of one slot the last IPv4 prefix. -/
def fillHole (cs : List LpmCell) (same : Prefix → Bool) : List LpmCell :=
  match cs with
  | [] => []
  | c :: t => match cutCell same c with
    | none => c :: fillHole t same
    | some none => fillPair t
    | some (some m) =>
      let head (q : Prefix) : LpmCell := match c with | .two p _ => if same p then .two q m else .two m q | _ => .two q m
      match giveOne t with
      | some (q, t) => head q :: t
      | none => .one m :: t

/-- Deletes a prefix (R331). -/
def lpmDelete (x : Pipe) (v6 : Bool) (vrf addr len : Nat) : Pipe :=
  let g := 128 - len
  let cs := kgetD x.lpm g []
  let cs' := joinHalves (fillHole cs fun p => p.v6 = v6 && p.vrf = vrf && p.addr = addr && p.len = len)
  let m := kset x.lpm g cs'
  { x with lpm := if cs'.length < cs.length then rotateDown g m else m }

end Sys2Proof.Machine
end

