-- ==== Sys2Proof/Machine/Access.lean ====
section
/-! DEFINITION. Reading and writing the parts of the State by the numbers the spec gives them, and the arithmetic of frames,
bits and picoseconds (R12, R134, R213, R241). -/

namespace Sys2Proof.Machine

/-! ### Spans, Piers, ONUs, allocations -/

/-- A Pier at reset: the defaults that differ by its kind (R168, R187, R198, R200, R204). -/
def pierReset (p : Nat) : Pier :=
  if p = 0 then { hRates := 7, corrUnits := 8, margin := 2 }
  else if p = 1 then { nDown := 1468200, nUp := 1467100, margin := 12, unifTol := 400 }
  else { nDown := 1467700, nUp := 1467000, margin := 16, unifTol := 800 }

def spanOf (s : State) (sp : Nat) : Span := kgetD s.pon.spans sp {}
def setSpan (sp : Nat) (x : Span) (s : State) : State := { s with pon := { s.pon with spans := kset s.pon.spans sp x } }
def pierOf (s : State) (sp p : Nat) : Pier := kgetD s.pon.piers (3 * sp + p) (pierReset p)
def setPier (sp p : Nat) (x : Pier) (s : State) : State := { s with pon := { s.pon with piers := kset s.pon.piers (3 * sp + p) x } }
def onuOf (s : State) (sp o : Nat) : Onu := kgetD s.pon.onus (512 * sp + o) {}
def setOnu (sp o : Nat) (x : Onu) (s : State) : State := { s with pon := { s.pon with onus := kset s.pon.onus (512 * sp + o) x } }
def allocOf (s : State) (sp a : Nat) : Option Alloc := kget s.pon.allocs (2048 * sp + a)
def setAlloc (sp a : Nat) (x : Alloc) (s : State) : State := { s with pon := { s.pon with allocs := kset s.pon.allocs (2048 * sp + a) x } }
def budgetOf (s : State) (slice sp p : Nat) : Nat := kgetD s.pon.budgets (96 * slice + 3 * sp + p) 0

/-- Rewrites a Span, a Pier, an ONU. -/
def modSpan (sp : Nat) (f : Span → Span) (s : State) : State := setSpan sp (f (spanOf s sp)) s
def modPier (sp p : Nat) (f : Pier → Pier) (s : State) : State := setPier sp p (f (pierOf s sp p)) s
def modOnu (sp o : Nat) (f : Onu → Onu) (s : State) : State := setOnu sp o (f (onuOf s sp o)) s

/-- The ONU indices of a Span that the State lists. -/
def onusOf (s : State) (sp : Nat) : List Nat := (s.pon.onus.filter fun e => e.1 / 512 = sp).map fun e => e.1 % 512

/-- The allocation indices of a Span, ascending. -/
def allocsOf (s : State) (sp : Nat) : List Nat := (s.pon.allocs.filter fun e => e.1 / 2048 = sp).map fun e => e.1 % 2048

/-- The Pier that an ONU index has, by its expected entry (R561). -/
def pierOfOnu (s : State) (sp o : Nat) : Option Nat := (onuOf s sp o).expect.map (·.pier)

/-- The ONU indices of a Pier in some states. -/
def onusIn (s : State) (sp p : Nat) (sts : List OnuSt) : List Nat :=
  (onusOf s sp).filter fun o => let x := onuOf s sp o; x.pier = p && sts.contains x.st

/-- The Piers of a Span that are enabled. -/
def enabledPiers (s : State) (sp : Nat) : List Nat := (List.range 3).filter fun p => (pierOf s sp p).enable

/-! ### Frames and bits -/

/-- The frame grid (R12, R213). -/
def frameNo (s : State) : Nat := s.tb / frameTb

/-- The superframe counter that a Pier's frame carries (R213). -/
def sfcOf (p frame : Nat) : Nat := if p = 2 then frame % 2 ^ 30 else frame % 2 ^ 51

/-- Counter units to picoseconds, and back, rounded down. -/
def psOf (tb : Nat) : Rat := (tb * 1000 : Nat) / (2 ^ 40 : Nat)
def tbOf (ps : Rat) : Nat := (ps * (2 ^ 40 : Nat) / 1000).floor.toNat

/-- The instant of an event in ps: the counter at the tick before it and the event's sub-tick phase in 64ths of the tick's increment
(R214). -/
def eventPs (s : State) (phase : Nat) : Rat := psOf s.tb + (phase * tickInc s.time * 1000 : Nat) / (2 ^ 46 : Nat)

/-- Rounding to the nearest integer, halves toward the larger value (R192). -/
def roundUpHalf (q : Rat) : Int := (q + 1 / 2).floor

/-- Rounding to the nearest integer, halves away from zero (R432). -/
def roundAway (q : Rat) : Int := if q < 0 then -((-q + 1 / 2).floor) else (q + 1 / 2).floor

/-- The bit period in ps of an upstream rate of a Pier, numbered as RATE (R168). -/
def bitPs (p rate : Nat) : Rat :=
  let t : Rat := 390625 / 486
  match p, rate with
  | 0, 0 => t / 10
  | 0, 1 => t / 20
  | 0, _ => t / 40
  | 1, 0 => t / 8
  | 1, _ => t / 2
  | _, _ => t

/-- Upstream bits per second over 1.24416 Gb/s (R134). -/
def rateMul (p rate : Nat) : Nat :=
  match p, rate with
  | 0, 0 => 10
  | 0, 1 => 20
  | 0, _ => 40
  | 1, 0 => 8
  | 1, _ => 2
  | _, _ => 1

/-- The unit of EqD in ps (R192). -/
def eqdUnit (p : Nat) : Rat := if p = 0 then bitPs 0 2 else if p = 1 then bitPs 1 1 else bitPs 2 0

/-- StartTime units per frame (R241). -/
def unitsPer (p : Nat) : Nat := if p = 0 then 12150 else if p = 1 then 38880 else 19440

/-- A StartTime unit in ps. -/
def unitPs (p : Nat) : Rat := 125000000 / (unitsPer p : Nat)

/-- Bits of a StartTime unit at an upstream rate (R241). -/
def unitBits (p rate : Nat) : Nat :=
  match p, rate with
  | 0, 0 => 128
  | 0, 1 => 256
  | 0, _ => 512
  | 1, 0 => 32
  | _, _ => 8

/-- The GrantSize unit in bytes (R241). -/
def gsuOf (p rate : Nat) : Nat := if p = 0 then unitBits p rate / 8 else if p = 1 then 4 else 1

/-- The bytes of a DBRu. -/
def dbruBytes (p : Nat) : Nat := if p = 2 then 2 else 4

/-- The rate-switch time in units (R142, R243). -/
def switchUnits (p : Nat) : Nat := if p = 0 then 1 else if p = 1 then 4 else 0

/-- Allocation structures per map (R134). -/
def structsPer (p : Nat) : Nat := if p = 2 then 256 else 512

/-- ONUs per Pier (R134). -/
def onusPer (p : Nat) : Nat := if p = 2 then 128 else 256

/-- The guard in bits at an upstream rate (R141). -/
def guardBits (p rate : Nat) : Nat :=
  match p, rate with
  | 0, 0 => 256
  | 0, 1 => 512
  | 0, _ => 1024
  | 1, _ => 64
  | _, _ => 32

/-- The preamble of a profile in bits (R140). -/
def preambleBits (p : Nat) (f : BProf) : Nat := if p = 2 then 8 * f.reps else 64 * f.reps

/-- The bits before a burst's data, in units (R243). -/
def headUnits (p : Nat) (f : BProf) : Nat := ceilDiv (guardBits p f.rate + preambleBits p f + f.delimBits) (unitBits p f.rate)

/-- 1.6 ns (R198). -/
def tickPs : Rat := 1600

/-! ### The other parts -/

def loopBus (s : State) (k : Nat) : Bus := kgetD s.opt.buses k {}
def setBus (k : Nat) (x : Bus) (s : State) : State := { s with opt := { s.opt with buses := kset s.opt.buses k x } }
def modBus (k : Nat) (f : Bus → Bus) (s : State) : State := setBus k (f (loopBus s k)) s
def loopOf (s : State) (k n : Nat) : Loop := kgetD (loopBus s k).loops n {}
def setLoop (k n : Nat) (x : Loop) (s : State) : State := modBus k (fun b => { b with loops := kset b.loops n x }) s
def modLoop (k n : Nat) (f : Loop → Loop) (s : State) : State := setLoop k n (f (loopOf s k n)) s
def opticOf (s : State) (sp p : Nat) : Optic := kgetD s.opt.piers (3 * sp + p) {}
def setOptic (sp p : Nat) (x : Optic) (s : State) : State := { s with opt := { s.opt with piers := kset s.opt.piers (3 * sp + p) x } }
def modOptic (sp p : Nat) (f : Optic → Optic) (s : State) : State := setOptic sp p (f (opticOf s sp p)) s
/-- A burst by the frame that granted it and its StartTime (R444). -/
def burstKey (frame start : Nat) : Nat := 65536 * frame + start

def rssiOf (s : State) (sp o : Nat) : Rssi := kgetD s.opt.rssi (512 * sp + o) {}
def setRssi (sp o : Nat) (x : Rssi) (s : State) : State := { s with opt := { s.opt with rssi := kset s.opt.rssi (512 * sp + o) x } }

def laneOf (s : State) (n : Nat) : Lane := kgetD s.lane.lanes n {}
def setLane (n : Nat) (x : Lane) (s : State) : State := { s with lane := { s.lane with lanes := kset s.lane.lanes n x } }
def modLane (n : Nat) (f : Lane → Lane) (s : State) : State := setLane n (f (laneOf s n)) s
def portOf (s : State) (n : Nat) : Port := kgetD s.lane.ports n {}
def setPort (n : Nat) (x : Port) (s : State) : State := { s with lane := { s.lane with ports := kset s.lane.ports n x } }

/-- The lanes of a port by its mode (R451). -/
def portLanes (mode : Nat) : Nat := match mode with | 0 => 0 | 1 => 8 | 2 => 4 | 3 => 2 | _ => 1

/-- The lanes of a port (R451). -/
def lanesOf (s : State) (port : Nat) : List Nat := (List.range (portLanes (portOf s port).mode)).map (port + ·)

/-- The lane of a port that stands in a loopback (R466). -/
def loopedLane (s : State) (port : Nat) : Nat := ((lanesOf s port).find? fun n => (laneOf s n).loopback ≠ 0).getD port

/-- The loopback of a port's lanes, 0 none (R465). -/
def portLoop (s : State) (port : Nat) : Nat := ((lanesOf s port).map fun n => (laneOf s n).loopback).foldl max 0

def onuKeys (s : State) (sp o : Nat) : OnuKeys := kgetD s.ciph.onus (512 * sp + o) {}
def setOnuKeys (sp o : Nat) (x : OnuKeys) (s : State) : State := { s with ciph := { s.ciph with onus := kset s.ciph.onus (512 * sp + o) x } }
def modOnuKeys (sp o : Nat) (f : OnuKeys → OnuKeys) (s : State) : State := setOnuKeys sp o (f (onuKeys s sp o)) s
def pierKeys (s : State) (sp p : Nat) : PierKeys := kgetD s.ciph.piers (3 * sp + p) {}
def setPierKeys (sp p : Nat) (x : PierKeys) (s : State) : State := { s with ciph := { s.ciph with piers := kset s.ciph.piers (3 * sp + p) x } }
def secyOf (s : State) (n : Nat) : SecY := kgetD s.ciph.secys n {}
def setSecy (n : Nat) (x : SecY) (s : State) : State := { s with ciph := { s.ciph with secys := kset s.ciph.secys n x } }

def sdhOf (s : State) (l : Nat) : Sdh := kgetD s.tdm.lanes l {}
def setSdh (l : Nat) (x : Sdh) (s : State) : State := { s with tdm := { s.tdm with lanes := kset s.tdm.lanes l x } }
def setMsp (x : Msp) (s : State) : State := { s with tdm := { s.tdm with msp := x } }
def circuitOf (s : State) (c : Nat) : Circuit := kgetD s.tdm.circuits c {}
def setCircuit (c : Nat) (x : Circuit) (s : State) : State := { s with tdm := { s.tdm with circuits := kset s.tdm.circuits c x } }

def setHawser (x : Hawser) (s : State) : State := { s with red := { s.red with hawser := x } }
def setPair (x : Pair) (s : State) : State := { s with red := { s.red with pair := x } }
def setLan (x : Lanyard) (s : State) : State := { s with red := { s.red with lan := x } }
def setTime (x : TimeBase) (s : State) : State := { s with time := x }
def setPairKey (x : PairKey) (s : State) : State := { s with ciph := { s.ciph with pair := x } }

/-- A 32-bit mask of Spans, from a list, and back. -/
def maskOf (l : List Nat) : Word := wd ((l.map fun i => 2 ^ i).sum)
def spansIn (w : Word) : List Nat := (List.range 32).filter fun i => bit w i

/-- The domain numbers of R121. -/
def domSp (sp : Nat) : Nat := sp
def domPl (g : Nat) : Nat := 32 + g
def domTc (g : Nat) : Nat := 36 + g
def domQm (g : Nat) : Nat := 40 + g
def domUq (q : Nat) : Nat := 48 + q
def domTd : Nat := 55
def domMs (e : Nat) : Nat := 62 + e
def domLb (k : Nat) : Nat := 64 + k

/-- The domain of a lane (R450). -/
def domOfLane (n : Nat) : Nat :=
  if n < 16 then 48 + n / 4 else if n < 20 then 52 else if n < 24 then 53 else if n < 28 then 54 else (n - 32) / 3

/-- An event of a Span (R160): word 0 the ONU or 0x1FF and the Span, word 1 the Pier and further fields. -/
def spanEvt (sp k : Nat) (onu : Option Nat) (pier w1 : Nat) (s : State) : State :=
  let own := match onu with
    | some o => if k = 5 || k = 6 || k = 10 || k = 12 then [onuOwner s sp o] else []
    | none => []
  raise (16 * sp + k) own [wd ((onu.getD 0x1FF) * 2 ^ 16 + sp), wd (pier * 2 ^ 16 + w1), 0, 0] s

/-- An ONU defect is declared or cleared: bit, event 5 or 6 (R156, R160). -/
def setDefect (sp o d : Nat) (v told : Bool) (s : State) : State :=
  let x := onuOf s sp o
  if x.defects.getLsbD d = v then s
  else
    let s := setOnu sp o { x with defects := if v then x.defects ||| BitVec.ofNat 9 (2 ^ d) else x.defects &&& ~~~ BitVec.ofNat 9 (2 ^ d) } s
    if told then spanEvt sp (if v then 5 else 6) (some o) x.pier (2 ^ d) s else s

/-- Whether an ONU has a defect declared. -/
def hasDefect (s : State) (sp o d : Nat) : Bool := (onuOf s sp o).defects.getLsbD d

/-- Queues a downstream PLOAM message on a Pier (R137). -/
def queuePloam (sp p : Nat) (m : PMsg) (s : State) : State := modPier sp p (fun x => { x with ploam := x.ploam ++ [m] }) s

/-- Saend writes both open-bank pages into the control store of a Span's Truss (R273, R274). -/
def loadPages (sp : Nat) (s : State) : State :=
  modSpan sp (fun v => { v with truss := { v.truss with page := if s.pon.openOff then none else s.pon.active, spare := s.pon.inactive } }) s

/-- Saend writes the vendor bank and the open bank into the control store of a Span's Truss (R112, R274). -/
def loadVendor (sp : Nat) (s : State) : State := loadPages sp (modSpan sp (fun v => { v with truss := { v.truss with store := s.pon.vendorBank } }) s)

end Sys2Proof.Machine
end

