-- ==== Sys2Proof/Machine/Gates.lean ====
section
/-! DEFINITION. When a frame can leave a Pier: the payload positions of a downstream frame (R232, R558), gate lists (R378 to
R382) and the launch times of timed queues (R231). Instants are picoseconds of the timebase. -/

namespace Sys2Proof.Machine

/-! ### Payload positions -/

/-- Bytes of a downstream frame (R135). -/
def lineBytes (p : Nat) : Nat := if p = 0 then 777600 else if p = 1 then 155520 else 38880

/-- Bytes before the FEC codewords (R558). -/
def fecStart (p : Nat) : Nat := if p = 2 then 0 else 24

/-- Data bytes and length of a downstream codeword; without FEC the frame is one run of data (R558). The places of the data bytes
of an LDPC codeword are PRESUMED to be its first (assumption 15). -/
def codeword (p : Nat) (fec : Bool) : Nat × Nat :=
  if p = 0 then (1824, 2160) else if p = 1 then (216, 248) else if fec then (239, 255) else (38880, 38880)

/-- Data bytes of a downstream frame (R558). -/
def dataBytes (p : Nat) (fec : Bool) : Nat :=
  if p = 0 then 656616 else if p = 1 then 135432 else if fec then 36432 else 38880

/-- Where a data byte lies in the frame. -/
def lineByte (p : Nat) (fec : Bool) (d : Nat) : Nat :=
  let (k, n) := codeword p fec
  fecStart p + n * (d / k) + d % k

/-- The first data byte at or after a byte of the frame. -/
def dataByte (p : Nat) (fec : Bool) (b : Nat) : Nat :=
  let (k, n) := codeword p fec
  let r := b - fecStart p
  k * (r / n) + min k (r % n)

/-- A downstream byte time in ps. -/
def bytePs (p : Nat) : Rat := 125000000 / (lineBytes p : Nat)

/-- The payload unit in bytes (R558). -/
def payUnit (p : Nat) : Nat := if p = 0 then 8 else if p = 1 then 4 else 1

/-- The header of an XGEM or GEM frame or fragment (R558). -/
def gemHeader (p : Nat) : Nat := if p = 2 then 5 else 8

/-- The data bytes that a frame header takes, for N allocation structures and M PLOAM messages (R558). -/
def headerBytes (p n m : Nat) : Nat := if p = 2 then 30 + 8 * n else 4 + 8 * n + 48 * m

/-- The start of a byte of a frame. -/
def byteAt (p frame b : Nat) : Rat := (125000000 * frame : Nat) + bytePs p * (b : Nat)

/-- The data bytes that a piece of `n` payload bytes takes with its header, in whole payload units. -/
def pieceBytes (p n : Nat) : Nat := ceilDiv (gemHeader p + n) (payUnit p) * payUnit p

/-- The least line bytes that such a piece can take: its data, and the parity of the codewords that end within it where it starts one
(R380, R382). -/
def leastBytes (p : Nat) (fec : Bool) (n : Nat) : Nat :=
  let (k, len) := codeword p fec
  pieceBytes p n + (ceilDiv (pieceBytes p n) k - 1) * (len - k)

/-- The payload bytes of a frame's first fragment from a data byte to the end of the payload, none where a header and one unit do
not fit (R558). -/
def roomAt (p : Nat) (fec : Bool) (d : Nat) : Option Nat :=
  let r := (dataBytes p fec - d) / payUnit p * payUnit p
  if r < gemHeader p + payUnit p then none else some (r - gemHeader p)

/-- The first payload position at or after an instant, from the data byte reached; none where the frame has none left. -/
def positionFrom (p : Nat) (fec : Bool) (frame fill : Nat) (t : Rat) : Option Nat :=
  let b := ((t - (125000000 * frame : Nat)) / bytePs p).ceil.toNat
  let d := if b ≤ lineByte p fec fill then fill else fill + ceilDiv (dataByte p fec b - fill) (payUnit p) * payUnit p
  (roomAt p fec d).map fun _ => d

/-- When the last bit of a frame of `n` bytes ends that starts at a data byte; `next` are the header bytes of the following frame
(R380, R558). -/
def completion (p : Nat) (fec : Bool) (frame d n next : Nat) : Rat :=
  let whole := pieceBytes p n
  if d + whole ≤ dataBytes p fec then byteAt p frame (lineByte p fec (d + whole - 1) + 1)
  else byteAt p (frame + 1) (lineByte p fec (next + pieceBytes p (n - (roomAt p fec d).getD 0) - 1) + 1)

/-! ### Gate lists -/

/-- Gate class of a mask. -/
def classOpen (g : Nat) (e : Nat × Nat) : Bool := e.1.testBit g

/-- The offset of an instant in the cycle of a list. -/
def cycleOffset (l : GateList) (t : Rat) : Rat :=
  let c : Rat := (1000 * l.cycle : Nat)
  let x := t - (1000 * l.base : Nat)
  x - c * (x / c).floor

/-- The entries from the one in force at an offset on, with the time since that one began. -/
def entriesFrom (es : List (Nat × Nat)) (o : Rat) : List (Nat × Nat) × Rat :=
  match es with
  | [] => ([], o)
  | e :: t => if o < (1000 * e.2 : Nat) then (e :: t, o) else entriesFrom t (o - (1000 * e.2 : Nat))

/-- How long a class stays open over some entries, ns. -/
def openRun (g : Nat) (es : List (Nat × Nat)) : Nat :=
  match es with
  | [] => 0
  | e :: t => if classOpen g e then e.2 + openRun g t else 0

/-- Whether a class is open at an instant; a Pier with no list keeps every class open (R378). -/
def gateOpenAt (l : Option GateList) (g : Nat) (t : Rat) : Bool :=
  match l with
  | none => true
  | some l => match (entriesFrom l.entries (cycleOffset l t)).1 with
    | e :: _ => classOpen g e
    | [] => false

/-- The gate end of a class from an instant at which it is open, none if it has none; no run extends past a swap that waits (R380). -/
def gateEnd (l : GateList) (swap : Option Rat) (g : Nat) (t : Rat) : Option Rat :=
  let (es, o) := entriesFrom l.entries (cycleOffset l t)
  let e := t - o + (1000 * openRun g (es ++ l.entries) : Nat)
  if l.entries.all (classOpen g) then swap else some (match swap with | some w => if w < e then w else e | none => e)

/-- The instant in ps at which a waiting list takes over (R381). -/
def PierSched.swapPs (x : PierSched) : Rat := ((x.swapAt * 1000 : Nat) : Rat) / (2 ^ 40 : Nat)

/-- Whether a frame that starts at an instant starts at or after the swap that waits (R381). -/
def PierSched.swapped (x : PierSched) (start : Rat) : Bool := x.waiting.isSome && x.swapPs ≤ start

/-- The list under which a frame that starts at an instant is judged (R381). -/
def PierSched.listFor (x : PierSched) (start : Rat) : Option GateList := if x.swapped start then x.waiting.getD none else x.list

/-- Whether a frame of a class that starts and ends at two instants keeps within its gate (R380). -/
def gateAllows (x : PierSched) (g : Nat) (start stop : Rat) : Bool :=
  match x.listFor start with
  | none => true
  | some l => gateOpenAt (some l) g start && match gateEnd l (if x.waiting.isSome && !x.swapped start then some x.swapPs else none) g start with
    | none => true
    | some e => stop ≤ e

/-- The longest run of a class in a list, ns: none where it is open in every entry, 0 where in none (R382). -/
def longestRun (l : GateList) (g : Nat) : Option Nat :=
  if l.entries.all (classOpen g) then none
  else some (((List.range l.entries.length).map fun i => openRun g (l.entries.drop i ++ l.entries)).foldl max 0)

/-- Whether a class closes under a list at some instant of a span of time (R381). -/
def closesWithin (l : GateList) (g : Nat) (a b : Rat) : Bool :=
  !gateOpenAt (some l) g a || match gateEnd l none g a with
    | none => false
    | some e => e < b

/-! ### Timed queues -/

/-- The kind of a Keystone entry and whether its word 0 says that it fires (R228). -/
def keyKind (e : KEntry) : Nat := fld (pw e.words 0) 30 28
def keyValid (e : KEntry) : Bool := bit (pw e.words 0) 31 && !e.stopped

/-- The LAUNCH entry that names a queue (R231). -/
def launchEntry (s : State) (q : Nat) : Option KEntry :=
  (s.time.keystone.find? fun e => keyValid e.2 && keyKind e.2 = 3 && fld (pw e.2.words 1) 19 0 = q).map (·.2)

/-- SEND_LATE of the LAUNCH entry that gave a queue's frames their launch times: of the one that names it now, or of one that COUNT has ended
since (R229, R232). -/
def sendLate (s : State) (q : Nat) : Bool :=
  let names (e : Nat × KEntry) : Bool := bit (pw e.2.words 0) 31 && keyKind e.2 = 3 && fld (pw e.2.words 1) 19 0 = q
  match launchEntry s q <|> (s.time.keystone.find? names).map (·.2) with
  | some e => bit (pw e.words 0) 26
  | none => false

/-- An entry after its firing at an instant: COUNT, where not 0, ends it after that many (R229). -/
def KEntry.fired (e : KEntry) (n last : Nat) : KEntry :=
  let c := fld (pw e.words 0) 25 16
  let k := if c = 0 then n else min n (c - e.firings)
  { e with firings := min (e.firings + k) 0xFFFFFFFF, done := last + 1, stopped := e.stopped || (c ≠ 0 && c ≤ e.firings + k) }

/-- The first instant of an entry's grid at or after an instant, ps (R229). -/
def gridAfter (e : KEntry) (t : Nat) : Nat :=
  let per := 1000 * fld (pw e.words 3) 29 0
  let ph := (1000 * fld (pw e.words 2) 29 0 + 25 * fld (pw e.words 0) 5 0) % per
  let t := max t (1000 * e.start)
  if t ≤ ph then ph else ph + ceilDiv (t - ph) per * per

/-- The launch time of a frame admitted at an instant, ps: none where COUNT ends the grid before it (R229, R231). An instant that was dropped or
skipped is no firing and does not count. -/
def launchTime (e : KEntry) (now : Nat) : Option Nat :=
  let per := 1000 * fld (pw e.words 3) 29 0
  let l := gridAfter e (now + 1000000 * fld (pw e.words 1) 31 20)
  let n := fld (pw e.words 0) 25 16
  if n ≠ 0 && n ≤ e.firings + (l - gridAfter e e.done) / per then none else some l

/-- The assembly lead of a Pier, ps (R232). -/
def leadPs (p : Nat) : Nat := if p = 0 then 1600000 else if p = 1 then 2400000 else 4800000

/-- A Pier's scheduling state. -/
def schedOf (s : State) (sp p : Nat) : PierSched := kgetD s.fwd.piers (3 * sp + p) {}
def setSched (sp p : Nat) (x : PierSched) (s : State) : State := { s with fwd := { s.fwd with piers := kset s.fwd.piers (3 * sp + p) x } }

/-- Now, in ps rounded down, and rounded up. -/
def nowPs (s : State) : Nat := s.tb * 1000 / 2 ^ 40
def psCeil (s : State) : Nat := ceilDiv (s.tb * 1000) (2 ^ 40)

end Sys2Proof.Machine
end

