-- ==== Sys2Proof/Machine/Deep.lean ====
section
/-! DEFINITION. HBM: its map, its data units under XTS, the records of the deep store, and the descriptors (R352, R354, R356, R414,
R415). -/

namespace Sys2Proof.Machine

/-! ### The HBM map (R356) -/

/-- Bytes of a Hank's buffer (R343). -/
def bufSize (h : Nat) : Nat := match h with | 0 => 256 | 1 => 2048 | 2 => 12288 | _ => 65536

/-- The HBM address of a Hank's buffer 0; 0 for Hank 0, which is on die. -/
def hankBase (s : State) (h : Nat) : Nat :=
  match h with
  | 0 => 0
  | 1 => 0x80000000
  | 2 => 0x80000000 + s.fwd.h1Units * 0x20000000
  | _ => 0x400000000 - s.fwd.h3Units * 0x20000000

/-- The address of a place in a buffer. -/
def bufAddr (s : State) (h b off : Nat) : Nat := hankBase s h + b * bufSize h + off

/-- The address of a queue's descriptor. -/
def descAddr (q : Nat) : Nat := 0x40000000 + 32 * q

/-- The regions of HBM (R356, R414). -/
inductive Region where
  | workspace | descriptors | counters | deep
  deriving DecidableEq, Repr

/-- The region of an address. -/
def regionOf (a : Nat) : Region := if a < 0x40000000 then .workspace else if a < 0x42000000 then .descriptors else if a < 0x80000000 then .counters else .deep

/-- log2 of a region's data unit (R414). -/
def Region.shift (r : Region) : Nat := match r with | .workspace | .deep => 9 | .descriptors | .counters => 5

/-! ### Data units (R414 to R416) -/

/-- The tweak of the data unit that holds an address: its address over the unit's size, 33 address bits and less. -/
def tweakOf (a : Nat) : Nat := a % 2 ^ 34 / 2 ^ (regionOf a).shift

/-- A unit shorter than a block is padded with zero bytes to one. -/
def padUnit (bs : List Byte) : List Byte := bs ++ List.replicate (16 - bs.length) 0

/-- The XTS key pair of a slice (R413). -/
def xtsKey (s : State) (slice : Nat) : Nat := kgetD s.ciph.xts slice 0

/-- The slice whose key a data unit is under (the table of R414): slice 0 for the workspace and the table shadows, the queue's owner for a
descriptor, and the owner of the counters or of the record that a unit of the other two regions holds. -/
def unitOwner (s : State) (holder a : Nat) : Nat :=
  match regionOf a with
  | .workspace => 0
  | .descriptors => queueOwner s ((a - 0x40000000) / 32)
  | .counters | .deep => holder

/-- A data unit is encrypted under its owner's key and written at its address. -/
def putUnit (owner a : Nat) (bs : List Byte) (s : State) : State :=
  { s with fwd := { s.fwd with hbm := kset s.fwd.hbm a (xtsUnit true (xtsKey s (unitOwner s owner a)) (tweakOf a) (padUnit bs)) } }

/-- The first `m` bytes of the data unit at an address, decrypted under its owner's key; a unit that was never written reads as no
bytes. -/
def getUnit (s : State) (owner a m : Nat) : List Byte := (xtsUnit false (xtsKey s (unitOwner s owner a)) (tweakOf a) (kgetD s.fwd.hbm a [])).take m

/-- Writes `n` data units of 512 bytes from an address on. -/
def putUnits (owner a n : Nat) (bs : List Byte) (s : State) : State :=
  match n with
  | 0 => s
  | n + 1 => putUnits owner (a + 512) n (bs.drop 512) (putUnit owner a (bs.take 512) s)

/-- Reads `len` bytes of `n` data units from an address on. -/
def getUnits (s : State) (owner a n len : Nat) : List Byte :=
  match n with
  | 0 => []
  | n + 1 => getUnit s owner a (min 512 len) ++ getUnits s owner (a + 512) n (len - 512)

/-! ### Records (R352, R354) -/

/-- The record header of a packet: queue, owner, colour, L, launch time (all ones for none), the next record's address (0 for none) and
the check. The spec names the fields; their places and the check's function are the model's (assumption 140). -/
def recordHeader (q owner next : Nat) (p : Packet) : List Byte :=
  let f := toLe 4 q ++ toLe 1 owner ++ toLe 1 (if p.yellow then 1 else 0) ++ toLe 2 p.bytes.length ++ toLe 12 (p.launch.getD (2 ^ 96 - 1)) ++ toLe 8 next ++ [0, 0]
  f ++ toLe 2 (Config.recordCheck f).toNat

/-- Whether a decrypted header passes its check. -/
def headerPasses (h : List Byte) : Bool := h.length = 32 && h.drop 30 = toLe 2 (Config.recordCheck (h.take 30)).toNat

/-- The address of a packet's record, none for a packet in Hank 0 alone. -/
def recordAddr (s : State) (p : Packet) : Option Nat := p.record.map fun r => bufAddr s r.1 r.2.1 r.2.2.1

/-- The address of the first record after a place of a queue. -/
def nextRecord (s : State) (pkts : List Packet) : Nat := ((pkts.findSome? (recordAddr s)).getD 0)

/-- Writes a record: its header and its bytes, in data units. -/
def putRecord (q owner next a : Nat) (p : Packet) (s : State) : State :=
  let bs := recordHeader q owner next p ++ p.bytes
  putUnits owner a (ceilDiv bs.length 512) bs s

/-- Reads a record of L bytes: its header, and its bytes. -/
def getRecord (s : State) (owner a len : Nat) : List Byte × List Byte :=
  let bs := getUnits s owner a (ceilDiv (32 + len) 512) (32 + len)
  (bs.take 32, bs.drop 32)

end Sys2Proof.Machine
end

