-- ==== Sys2Proof/Machine/Queues.lean ====
section
/-! DEFINITION. Hanks, queues, spill trains and the calls of family 0x08 (chapter 10). -/

namespace Sys2Proof.Machine

/-! ### Hanks (R343 to R346, R348) -/

/-- Buffers of a Hank under the partition (R343, R344). -/
def hankCount (s : State) (h : Nat) : Nat :=
  match h with
  | 0 => 196608
  | 1 => 262144 * s.fwd.h1Units
  | 2 => (14 * 2 ^ 30 - (s.fwd.h1Units + s.fwd.h3Units) * 2 ^ 29) / 12288
  | _ => 8192 * s.fwd.h3Units

/-- The taken buffers of a Hank, and how many are free. -/
def takenOf (s : State) (h : Nat) : List Nat := kgetD s.fwd.taken h []
def hankFree (s : State) (h : Nat) : Nat := hankCount s h - (takenOf s h).length

/-- LOW_WATER of a Hank (R367). -/
def lowMark (s : State) (h : Nat) : Nat := kgetD s.fwd.lowWater h (hankCount s h / 64)

/-- The lowest-numbered free buffer of a Hank leaves its bitmap (R345); none where the Hank is empty. -/
def allocBuf (h : Nat) (s : State) : Option (Nat × State) :=
  if hankFree s h = 0 then none
  else
    let b := firstFree (takenOf s h) 0
    let s := { s with fwd := { s.fwd with taken := kset s.fwd.taken h (sinsert (takenOf s h) b) } }
    let s := gaugeMin (cHank 1 h) (hankFree s h) (cnt (cHank 0 h) 1 s)
    if hankFree s h < lowMark s h && !kgetD s.fwd.lowTold h false then
      some (b, raise (576 + h) [] [wd (hankFree s h)] { s with fwd := { s.fwd with lowTold := kset s.fwd.lowTold h true } })
    else some (b, s)

/-- A buffer returns to its Hank. -/
def freeBuf (h b : Nat) (s : State) : State :=
  let s := { s with fwd := { s.fwd with taken := kset s.fwd.taken h ((takenOf s h).filter (· ≠ b)) } }
  if lowMark s h ≤ hankFree s h then { s with fwd := { s.fwd with lowTold := kset s.fwd.lowTold h false } } else s

/-- Cells return to Hank 0. -/
def freeCells (cs : List Nat) (s : State) : State := forEach cs (freeBuf 0) s

/-- Whether a packet lies fetched in Hank 0. -/
def Packet.fetched (p : Packet) : Bool := match p.place with | .fetched _ _ _ _ => true | _ => false

/-- P of R348: cells that fetched packets hold. -/
def fetchCells (s : State) : Nat :=
  (s.fwd.queues.map fun e => (e.2.pkts.map fun p => if p.fetched then p.cells.length else 0).sum).sum +
    (s.fwd.sending.map fun x => if x.fetched then x.cells.length else 0).sum

/-- Takes cells one by one under the rule of R348 for an arriving frame or a fetch: whether all were found, and those taken. -/
def takeCells (fetch : Bool) (n : Nat) (got : List Nat) (s : State) : Bool × List Nat × State :=
  match n with
  | 0 => (true, got, s)
  | n + 1 =>
    let p := fetchCells s + if fetch then got.length else 0
    if (if fetch then p < s.fwd.prefetch else s.fwd.prefetch < hankFree s 0 + p) then
      match allocBuf 0 s with
      | some (b, t) => takeCells fetch n (got ++ [b]) t
      | none => (false, got, s)
    else (false, got, s)

/-- Cells of a frame of a length (R347). -/
def cellsFor (len : Nat) : Nat := ceilDiv len 256

/-! ### The tree (R357 to R359) -/

/-- A queue number's group. -/
def groupOf (q : Nat) : Nat := q / 262144

/-- The L2 node and the L1 node above a queue. -/
def l2At (s : State) (g n : Nat) : Option L2 := kget s.fwd.l2 (65536 * g + n)
def l1At (s : State) (g n : Nat) : Option L1 := kget s.fwd.l1 (8192 * g + n)
def l1Of (s : State) (q : Nat) (x : Queue) : Option L1 := (l2At s (groupOf q) x.parent).bind fun n => l1At s (groupOf q) n.parent

/-- The root of an L1 node in its group (R358). -/
def rootOf (k : L1Kind) : Nat := match k with | .onu sp _ p => 3 * (sp % 8) + p | .uplink port _ => 24 + port

/-- The owner of an L1 node (R359). -/
def l1Owner (s : State) (k : L1Kind) : Nat := match k with | .onu sp o _ => onuOwner s sp o | .uplink _ k => k

/-- The owner of an L2 node: that of its parent (R359). -/
def l2Owner (s : State) (g n : Nat) : Option Nat := ((l2At s g n).bind fun x => l1At s g x.parent).map fun x => l1Owner s x.kind

/-- The L1 node of an ONU, with its key. -/
def l1OfOnu (s : State) (sp o : Nat) : Option (Nat × L1) :=
  s.fwd.l1.find? fun e => match e.2.kind with | .onu a b _ => a = sp && b = o | _ => false

/-- ADJUST of a new node under a kind of root (R390). -/
def adjustFor (k : L1Kind) : Nat := match k with | .onu _ _ p => if p = 2 then 5 else 8 | .uplink _ _ => 20

/-- The shaper of a new node: both buckets full (R373, R390). -/
def newShaper (k : L1Kind) (now : Nat) : Shaper := { set := { adjust := adjustFor k }, at_ := now - 1 }

/-- The Pier of a queue under a Pier root. -/
def pierOfQueue (s : State) (q : Nat) (x : Queue) : Option (Nat × Nat) :=
  (l1Of s q x).bind fun n => match n.kind with | .onu sp _ p => some (sp, p) | _ => none

/-- The port record of a queue of a Span. -/
def queuePort (s : State) (sp : Nat) (x : Queue) : Option PortRec := kget s.fwd.ports (8192 * sp + x.port)

/-- A queue's record. -/
def queueAt (s : State) (q : Nat) : Option Queue := kget s.fwd.queues q
def setQueue (q : Nat) (x : Queue) (s : State) : State := { s with fwd := { s.fwd with queues := kset s.fwd.queues q x } }
def profileOf (s : State) (q : Nat) (x : Queue) : Profile := kgetD s.fwd.profiles (256 * groupOf q + x.profile) {}

/-- Depth in bytes (R350). -/
def Queue.depth (x : Queue) : Nat := (x.pkts.map fun p => p.bytes.length).sum

/-- The train buffers that a queue holds, of one Hank (R350). -/
def Queue.trains (x : Queue) (h : Nat) : List Nat :=
  let open_ := match x.train with | some t => if t.hank = h then [t.buf] else [] | none => []
  x.pkts.foldl (fun l p => match p.record with | some (k, b, _, _) => if k = h then sinsert l b else l | none => l) open_

/-- A slice's use of a Hank (R350). -/
def hankUse (s : State) (slice h : Nat) : Nat :=
  let mine := s.fwd.queues.filter fun e => queueOwner s e.1 = slice
  if h = 0 then
    (mine.map fun e => (e.2.pkts.map fun p => if p.place = .shallow then p.cells.length else 0).sum).sum +
      ((s.fwd.sending.filter fun x => !x.fetched && queueOwner s x.queue = slice).map fun x => x.cells.length).sum
  else (mine.map fun e => (e.2.trains h).length).sum

/-- Notes a slice's highest use of a Hank in the second (R367). -/
def notePeak (slice h : Nat) (s : State) : State :=
  let k := 4 * slice + h
  { s with fwd := { s.fwd with peaks := kset s.fwd.peaks k (max (kgetD s.fwd.peaks k 0) (hankUse s slice h)) } }

/-- A slice's quota (R367). -/
def quotaOf (s : State) (slice h : Nat) : Nat := kgetD s.fwd.quotas (4 * slice + h) 0

/-! ### Drops (R349, R363, R364) -/

/-- Counts a dropped frame of a queue under its cause; `looked` once its queue has been looked up. -/
def countDrop (q cause len : Nat) (looked : Bool) (s : State) : State :=
  let k := queueOwner s q
  let s := cnt (cSliceCause 0 k cause) 1 (cnt (cSliceCause 1 k cause) len s)
  let s := if looked then cnt (cQueue 4 q) 1 s else s
  if 7 ≤ cause && cause ≤ 10 then raise (608 + k) [k] [wd (q * 4096 + cause)] s
  else if 11 ≤ cause && cause ≤ 14 then raise (580 + (cause - 11)) [] [wd q] s
  else if cause = 18 then raise 585 [] [wd q] s
  else s

/-- Releases a train buffer that is closed and holds no queued record (R352). -/
def settleBuf (q h b : Nat) (s : State) : State :=
  match queueAt s q with
  | none => freeBuf h b s
  | some x => if (x.trains h).contains b then s else freeBuf h b s

/-- Closes a queue's open train (R352). -/
def closeTrain (q : Nat) (s : State) : State :=
  match queueAt s q with
  | some x => match x.train with
    | some t => settleBuf q t.hank t.buf (setQueue q { x with train := none } s)
    | none => s
  | none => s

/-- Whether packets lie below a node. -/
def l2Busy (s : State) (g n2 : Nat) : Bool := s.fwd.queues.any fun e => groupOf e.1 = g && e.2.parent = n2 && e.2.pkts ≠ []
def l1Busy (s : State) (g n1 : Nat) : Bool := s.fwd.l2.any fun e => e.1 / 65536 = g && e.2.parent = n1 && l2Busy s g (e.1 % 65536)

/-- Both deficits of a child that has become empty are 0 (R370). -/
def Child.cleared (c : Child) : Child := { c with defC := 0, defE := 0 }

/-- A port's merger. -/
def mergerOf (s : State) (port : Nat) : Merger := kgetD s.fwd.mergers port {}
def setMerger (port : Nat) (m : Merger) (s : State) : State := { s with fwd := { s.fwd with mergers := kset s.fwd.mergers port m } }

/-- Whether packets lie below a group's root for a port. -/
def portBusy (s : State) (g port : Nat) : Bool :=
  s.fwd.l1.any fun e => e.1 / 8192 = g && (match e.2.kind with | .uplink n _ => n = port | .onu _ _ _ => false) && l1Busy s g (e.1 % 8192)

/-- A group with nothing left for a port has the deficit 0 in the port's merger (R370, R385). -/
def clearMerger (g : Nat) (k : L1Kind) (s : State) : State :=
  match k with
  | .uplink port _ => if portBusy s g port then s else let m := mergerOf s port; setMerger port { m with deficits := lset m.deficits g 0 } s
  | .onu _ _ _ => s

/-- A child that has become empty has both its deficits 0, at each level of a queue's path (R370). -/
def clearEmpty (q : Nat) (s : State) : State :=
  match queueAt s q with
  | none => s
  | some x =>
    if x.pkts ≠ [] then s
    else
      let g := groupOf q
      let s := setQueue q { x with ch := x.ch.cleared } s
      match l2At s g x.parent with
      | none => s
      | some y =>
        if l2Busy s g x.parent then s
        else
          let s := { s with fwd := { s.fwd with l2 := kset s.fwd.l2 (65536 * g + x.parent) { y with ch := y.ch.cleared } } }
          match l1At s g y.parent with
          | none => s
          | some z =>
            if l1Busy s g y.parent then s
            else clearMerger g z.kind { s with fwd := { s.fwd with l1 := kset s.fwd.l1 (8192 * g + y.parent) { z with ch := z.ch.cleared } } }

/-- The addresses of the deep records that lie within 24,576 bytes of depth from the head (R355). -/
def fetchWindow (s : State) (pkts : List Packet) (ahead : Nat) : List Nat :=
  match pkts with
  | [] => []
  | p :: t =>
    if 24576 ≤ ahead then []
    else
      let rest := fetchWindow s t (ahead + p.bytes.length)
      match p.place with
      | .deep h b o _ => bufAddr s h b o :: rest
      | _ => rest

/-- The queue manager asks for the records of a queue that have come into its window and are not asked for yet (R355). -/
def askFetches (q : Nat) (s : State) : State :=
  match queueAt s q with
  | none => s
  | some x => { s with fwd := { s.fwd with fetchq := s.fwd.fetchq ++ ((fetchWindow s x.pkts 0).filter fun a => !s.fwd.fetchq.contains (q, a)).map fun a => (q, a) } }

/-- A packet leaves its queue: its record's buffer is settled and no fetch waits for it, and the queue's window moves; its cells stay
with the caller. -/
def unqueue (q i : Nat) (s : State) : State :=
  match queueAt s q with
  | none => s
  | some x => match x.pkts[i]? with
    | none => s
    | some p =>
      let s := setQueue q { x with pkts := lremove x.pkts i } s
      askFetches q (match p.record with
        | some (h, b, o, _) => settleBuf q h b { s with fwd := { s.fwd with fetchq := s.fwd.fetchq.filter (· ≠ (q, bufAddr s h b o)) } }
        | none => s)

/-- Drops a queued packet: its cells are freed and it is counted under a cause. -/
def dropQueued (q i cause : Nat) (s : State) : State :=
  match queueAt s q with
  | none => s
  | some x => match x.pkts[i]? with
    | none => s
    | some p => countDrop q cause p.bytes.length true (freeCells p.cells (clearEmpty q (unqueue q i s)))

/-! ### The head of a queue (R232, R382) -/

/-- What becomes of a Pier queue's head packet when it reaches the head: late and oversize frames are dropped. -/
def headReached (q fuel : Nat) (s : State) : State :=
  match fuel with
  | 0 => s
  | fuel + 1 =>
    match queueAt s q with
    | none => s
    | some x =>
      match x.pkts, pierOfQueue s q x with
      | p :: t, some (sp, pi) =>
        let late := match p.launch with | some l => !p.late && ((l : Nat) : Rat) < psOf s.tb + (leadPs pi : Nat) | none => false
        if late && !sendLate s q then headReached q fuel (cnt (cPier 17 sp pi) 1 (dropQueued q 0 17 s))
        else
          let s := if late then cnt (cPier 18 sp pi) 1 (setQueue q { x with pkts := { p with late := true } :: t } s) else s
          let over_ := match (schedOf s sp pi).list with
            | some l => match longestRun l x.ch.gate with
              | some r => r ≠ 0 && ((1000 * r : Nat) : Rat) < bytePs pi * (leastBytes pi (pierOf s sp pi).fecDs p.bytes.length : Nat)
              | none => false
            | none => false
          if over_ then
            headReached q fuel (cnt (cPier 12 sp pi) 1 (cnt (cQueue 4 q) 1 (freeCells p.cells (clearEmpty q (unqueue q 0 s)))))
          else s
      | _, _ => s

/-- Takes note of a packet that may just have reached the head of its queue. -/
def newHead (q : Nat) (s : State) : State :=
  match queueAt s q with
  | some x => headReached q x.pkts.length s
  | none => s

/-! ### Staging and admission (R347 to R353) -/

/-- A frame enters the queue manager's staging cells; refused at its first missing cell (R349 step 1). A queue manager slice that
is not ON takes nothing in and counts a power-off drop (assumption 16). -/
def stage (q : Nat) (bytes : List Byte) (yellow marked : Bool) (src : Option Nat) (injected : Bool) (s : State) : State :=
  if !domOn s (domQm (groupOf q)) then countDrop q 16 bytes.length false s
  else match takeCells false (cellsFor bytes.length) [] s with
    | (true, cs, t) => { t with fwd := { t.fwd with staged := t.fwd.staged ++ [⟨q, bytes, yellow, marked, cs, src, false, injected⟩] } }
    | (false, cs, t) => countDrop q 11 bytes.length false (freeCells cs t)

/-- The size of a spilled record (R352). -/
def recordSize (len : Nat) : Nat := ceilDiv (32 + len) 512 * 512

/-- The Viaduct's write backlog (R353): records whose copy is not complete. -/
def backlogOf (s : State) : Nat :=
  (s.fwd.queues.map fun e => (e.2.pkts.map fun p => match p.place with | .copying _ _ _ n => n | _ => 0).sum).sum

/-- The Hank of a new train (R352). -/
def trainHank (r train : Nat) : Nat :=
  ([1, 2].find? fun h => r ≤ bufSize h && (train = 0 || bufSize train ≤ bufSize h)).getD 3

/-- A spilled packet's place, or the cause of its drop (R349 steps 9 and 10, R352). -/
def placeSpill (q len : Nat) (s : State) : (State × Place) ⊕ (State × Nat) :=
  match queueAt s q with
  | none => .inr (s, 2)
  | some x =>
    let r := recordSize len
    match x.train with
    | some t =>
      if t.used + r ≤ bufSize t.hank then .inl (setQueue q { x with train := some { t with used := t.used + r } } s, .copying t.hank t.buf t.used r)
      else opened x r (closeTrain q s)
    | none => opened x r s
where
  /-- Opens a train for the record. -/
  opened (x : Queue) (r : Nat) (s : State) : (State × Place) ⊕ (State × Nat) :=
    let h := trainHank r (profileOf s q x).train
    let k := queueOwner s q
    if quotaOf s k h ≤ hankUse s k h then .inr (s, 7 + h)
    else match allocBuf h s with
      | none => .inr (s, 11 + h)
      | some (b, t) => match queueAt t q with
        | some y => .inl (notePeak k h (setQueue q { y with train := some ⟨h, b, r⟩ } t), .copying h b 0 r)
        | none => .inr (t, 2)

/-- The packet joins its queue's tail. -/
def enqueue (q : Nat) (p : Packet) (s : State) : State :=
  match queueAt s q with
  | none => s
  | some x =>
    let s := cnt (cQueue 0 q) 1 (cnt (cQueue 1 q) p.bytes.length (setQueue q { x with pkts := x.pkts ++ [p] } s))
    let s := match p.place with
      | .shallow => notePeak (queueOwner s q) 0 s
      | _ => s
    if x.pkts = [] then newHead q s else s

/-- Whether the Viaduct's backlog stands at WR_BACKLOG or above (R353). -/
def backlogFull (s : State) : Bool := 1024 * s.fwd.wrBacklog ≤ backlogOf s

/-- A frame past the checks of the queue is placed shallow. -/
def admitShallow (q : Nat) (p : Packet) (s : State) : State :=
  let k := queueOwner s q
  if quotaOf s k 0 ≤ hankUse s k 0 then countDrop q 7 p.bytes.length true (freeCells p.cells s)
  else enqueue q p (closeTrain q s)

/-- A frame past the checks of the queue is spilled. -/
def admitSpill (q : Nat) (p : Packet) (s : State) : State :=
  match placeSpill q p.bytes.length s with
  | .inr (t, cause) => countDrop q cause p.bytes.length true (freeCells p.cells t)
  | .inl (t, place) =>
    let was := backlogFull t
    let t := enqueue q { p with place := place } t
    if backlogFull t && !was then raise 584 [] [wd (backlogOf t / 1024)] t else t

/-- Whether a Span's downstream queues admit packets: while it is open, and while it closes until its grants stop (R164, R349). -/
def spanAdmits (v : Span) : Bool := (v.st = .opened || (v.st = .closing && v.granting)) && !v.standby

/-- Whether the destination of a queue and the frame's source take frames (R349 step 5, R23). -/
def queueOpen (s : State) (q : Nat) (x : Queue) (src : Option Nat) : Bool :=
  let fromOk : Bool := match src with | some sp => !(spanOf s sp).standby | none => true
  match l1Of s q x with
  | none => fromOk
  | some n => match n.kind with
    | .onu sp o _ => spanAdmits (spanOf s sp) && (onuOf s sp o).st = .active
    | .uplink _ _ => fromOk

/-- Admission at a frame's last byte (R349). -/
def admitFrame (f : Staged) (s : State) : State :=
  let q := f.queue
  let len := f.bytes.length
  let refuse (cause : Nat) (looked : Bool) : State := countDrop q cause len looked (freeCells f.cells s)
  if f.marked then refuse 0 false
  else if len < 14 || 16000 < len then refuse 1 false
  else match queueAt s q with
    | none => refuse 2 false
    | some x =>
      let pr := profileOf s q x
      let pier := pierOfQueue s q x
      let p : Packet := {
        bytes := f.bytes, yellow := f.yellow, place := .shallow, cells := f.cells, injected := f.injected
        port := pier.bind fun e => queuePort s e.1 x
        launch := (launchEntry s q).bind fun e => if pier.isSome then launchTime e (psCeil s) else none }
      if x.draining then refuse 2 true
      else if !queueOpen s q x f.srcSpan then refuse 3 true
      else if 1024 * pr.maxDepth ≤ x.depth then refuse 4 true
      else if f.yellow && 1024 * pr.yellowDepth ≤ x.depth then refuse 5 true
      else if pr.spillThresh ≠ 0xFFFFFF && 1024 * pr.spillThresh ≤ x.depth then
        if backlogFull s then
          if pr.defer_ then admitShallow q p (cnt (cQm 0 (groupOf q)) 1 s) else refuse 6 true
        else admitSpill q p s
      else admitShallow q p s

/-! ### Descriptors (R360) -/

/-- The cached descriptors of a group, least recently used first. -/
def cachedOf (s : State) (g : Nat) : List Nat := kgetD s.fwd.cached g []

/-- Whether a packet in flight uses a queue's descriptor. -/
def descBusy (s : State) (q : Nat) : Bool := s.fwd.staged.any (·.queue = q) || s.fwd.sending.any (·.queue = q)

/-- Marks a cached descriptor as the most recently used. -/
def touchDesc (q : Nat) (s : State) : State :=
  let g := groupOf q
  if (cachedOf s g).contains q then { s with fwd := { s.fwd with cached := kset s.fwd.cached g ((cachedOf s g).filter (· ≠ q) ++ [q]) } } else s

/-- A descriptor is written back to HBM under its owner's key (R354, R360). -/
def writeBack (q : Nat) (s : State) : State :=
  let f := match queueAt s q with | some x => [q, x.pkts.length, x.depth] ++ (match x.train with | some t => [t.hank, t.buf, t.used] | none => []) | none => [q]
  putUnit (queueOwner s q) (descAddr q) ((Config.descriptor f ++ List.replicate 32 0).take 32) s

/-- Puts the descriptor that HBM holds for a queue, decrypted, into the cache (R354), replacing the least recently used one that no packet
in flight is using; none where all are in use. -/
def cacheDesc (q : Nat) (s : State) : Option State :=
  let g := groupOf q
  let l := (cachedOf s g).filter (· ≠ q)
  let keep (l : List Nat) (s : State) : State :=
    { s with fwd := { s.fwd with cached := kset s.fwd.cached g (l ++ [q]), descs := kset s.fwd.descs q (getUnit s (queueOwner s q) (descAddr q) 32) } }
  if l.length < 16384 then some (keep l s)
  else (l.find? fun x => !descBusy s x).map fun v =>
    let s := writeBack v s
    keep (l.filter (· ≠ v)) { s with fwd := { s.fwd with descs := kerase s.fwd.descs v } }

/-- Asks for a missed descriptor. -/
def missDesc (q : Nat) (s : State) : State :=
  if s.fwd.descWait.contains q then s
  else cnt (cQm 1 (groupOf q)) 1 { s with fwd := { s.fwd with descWait := s.fwd.descWait ++ [q] } }

/-- Whether a queue's descriptor is on die. -/
def hasDesc (s : State) (q : Nat) : Bool := (cachedOf s (groupOf q)).contains q

/-- QUEUE_ADMISSION: the i-th staged frame's last byte has arrived. -/
def queueAdmission (i : Nat) (s : State) : State :=
  match s.fwd.staged[i]? with
  | none => s
  | some f =>
    if f.waiting then s
    else if !hasDesc s f.queue then
      missDesc f.queue { s with fwd := { s.fwd with staged := lset s.fwd.staged i { f with waiting := true } } }
    else admitFrame f (touchDesc f.queue { s with fwd := { s.fwd with staged := lremove s.fwd.staged i } })

/-- DESCRIPTOR_FETCH_COMPLETE: the frames that waited for the descriptor are admitted in order; the fetch waits while packets in flight
use every descriptor on die. -/
def descArrived (q : Nat) (s : State) : State :=
  if s.fwd.descWait.contains q then
    match cacheDesc q s with
    | none => s
    | some s =>
      let go := s.fwd.staged.filter fun f => f.waiting && f.queue = q
      let s := { s with fwd := { s.fwd with descWait := s.fwd.descWait.filter (· ≠ q), staged := s.fwd.staged.filter fun f => !(f.waiting && f.queue = q) } }
      forEach go admitFrame s
  else s

/-! ### The deep store (R347, R355) -/

/-- The record before a place of a queue, where it lies in the deep store, learns the address of the next one: its first data unit is
written again (R354). -/
def relink (q i next : Nat) (x : Queue) (s : State) : State :=
  match (x.pkts.take i).reverse.find? fun p => (recordAddr s p).isSome with
  | some p => match p.place with
    | .deep h b o _ => putUnit (queueOwner s q) (bufAddr s h b o) ((recordHeader q (queueOwner s q) next p ++ p.bytes).take 512) s
    | _ => s
  | none => s

/-- SPILL_WRITE_COMPLETE: the oldest record of a queue that is being copied is complete: written under its owner's key, counted, its
staging cells released (R347, R354, R363). -/
def spillWritten (q : Nat) (s : State) : State :=
  match queueAt s q with
  | none => s
  | some x =>
    match x.pkts.findIdx? fun p => match p.place with | .copying _ _ _ _ => true | _ => false with
    | none => s
    | some i => match x.pkts[i]? with
      | some p => match p.place with
        | .copying h b o n =>
          let a := bufAddr s h b o
          let s := relink q i a x (putRecord q (queueOwner s q) (nextRecord s (x.pkts.drop (i + 1))) a p s)
          let s := cnt (cDev 1) n (cnt (cQueue 5 q) 1 (setQueue q { x with pkts := lset x.pkts i { p with place := .deep h b o n, cells := [] } } s))
          askFetches q (freeCells p.cells s)
        | _ => s
      | none => s

/-- The place of a queue's record by its address. -/
def recordIx (s : State) (pkts : List Packet) (a : Nat) : Option Nat := pkts.findIdx? fun p => recordAddr s p = some a

/-- Drops the deep records from a place up to the next shallow packet. -/
def dropDeepRun (q i fuel : Nat) (s : State) : State :=
  match fuel with
  | 0 => s
  | fuel + 1 => match (queueAt s q).bind fun x => x.pkts[i]? with
    | some p => match p.place with
      | .deep _ _ _ _ => dropDeepRun q i fuel (dropQueued q i 18 s)
      | .copying _ _ _ _ => dropDeepRun q i fuel (dropQueued q i 18 s)
      | _ => s
    | none => s

/-- The fetch of a queue's i-th packet, a record in the deep store: into cells, or lost with the header or without it; a header that
fails its check loses its record. -/
def fetchRecord (q i : Nat) (x : Queue) (p : Packet) (bad headerLost : Bool) (s : State) : State :=
  let after (t : State) : State := if i = 0 then newHead q t else t
  match p.place with
  | .deep h b o n =>
    let a := bufAddr s h b o
    let r := getRecord s (queueOwner s q) a p.bytes.length
    if headerLost then after (dropDeepRun q i x.pkts.length (cnt (cDev 2) n s))
    else if bad || !headerPasses r.1 then after (dropQueued q i 18 (cnt (cDev 2) n s))
    else match takeCells true (cellsFor p.bytes.length) [] s with
      | (false, _, _) => s
      | (true, cs, t) =>
        let t := { t with fwd := { t.fwd with fetchq := t.fwd.fetchq.drop 1 } }
        cnt (cDev 2) n (setQueue q { x with pkts := lset x.pkts i { p with bytes := r.2, place := .fetched h b o n, cells := cs } } t)
  | _ => s

/-- DEEP_FETCH_COMPLETE: the oldest fetch asked for is served, where it is this queue's: fetches are served in the order in which they
are requested (R355). -/
def deepFetched (q : Nat) (bad headerLost : Bool) (s : State) : State :=
  match s.fwd.fetchq, queueAt s q with
  | (k, a) :: _, some x =>
    if k ≠ q then s
    else match recordIx s x.pkts a with
      | none => s
      | some i => match x.pkts[i]? with
        | none => s
        | some p => fetchRecord q i x p bad headerLost s
  | _, _ => s

/-- QUEUE_DELETE_DRAIN: a deleted queue drops its next packet, and is gone when it is empty (R361). -/
def drainStep (q : Nat) (s : State) : State :=
  match queueAt s q with
  | none => s
  | some x =>
    if !x.draining then s
    else
      let s := dropQueued q 0 15 s
      if x.pkts.length ≤ 1 then { s with fwd := { s.fwd with queues := kerase s.fwd.queues q } } else s

/-- PACKET_TX_COMPLETE: the last byte of the i-th packet being sent has been read out (R347). -/
def sendComplete (i : Nat) (s : State) : State :=
  match s.fwd.sending[i]? with
  | none => s
  | some x => freeCells x.cells { s with fwd := { s.fwd with sending := lremove s.fwd.sending i } }

/-- A queue's head packet is taken for the line: it leaves the queue, its cells held until it is read out. -/
def takeHead (q : Nat) (s : State) : Option (Packet × State) :=
  match queueAt s q with
  | none => none
  | some x => match x.pkts with
    | [] => none
    | p :: _ =>
      let t := unqueue q 0 s
      let t := { t with fwd := { t.fwd with sending := t.fwd.sending ++ [⟨q, p.cells, p.fetched⟩] } }
      some (p, newHead q (touchDesc q (cnt (cQueue 2 q) 1 (cnt (cQueue 3 q) p.bytes.length t))))

/-- Drops every packet of a queue under a cause. -/
def dropAll (cause fuel q : Nat) (s : State) : State :=
  match fuel with
  | 0 => s
  | fuel + 1 => dropAll cause fuel q (dropQueued q 0 cause s)

/-- A shaper as it comes back from OFF: with its committed settings and both buckets full, as a new one is (R122, R373). -/
def Shaper.afresh (now : Nat) (x : Shaper) : Shaper :=
  let set := x.next.getD x.set
  { set := set, peak := set.pbs * 65536, comm := set.cbs * 65536, at_ := now - 1 }

/-- The running state of a slice's schedulers is gone: credits, wheel entries, deficits and pointers, its deficits in the mergers too
(R122). -/
def schedLost (g : Nat) (s : State) : State :=
  { s with fwd := { s.fwd with
      l1 := kmap s.fwd.l1 fun k x => if k / 8192 = g then { x with sh := x.sh.afresh s.tb, ch := x.ch.cleared, ptrs := [] } else x
      l2 := kmap s.fwd.l2 fun k x => if k / 65536 = g then { x with sh := x.sh.afresh s.tb, ch := x.ch.cleared, ptrs := [] } else x
      queues := kmap s.fwd.queues fun q x => if groupOf q = g then { x with sh := x.sh.afresh s.tb, ch := x.ch.cleared } else x
      roots := kfilter s.fwd.roots fun k _ => k / 48 ≠ g
      mergers := kmap s.fwd.mergers fun _ m => { m with deficits := lset m.deficits g 0 } } }

/-- A queue manager slice drains: every packet in it is a power-off drop (R123); deleted queues are gone. -/
def drainGroup (g : Nat) (s : State) : State :=
  let qs := (s.fwd.queues.filter fun e => groupOf e.1 = g).map fun e => (e.1, e.2.pkts.length)
  let s := forEach qs (fun e s => closeTrain e.1 (dropAll 16 e.2 e.1 s)) s
  let mine := s.fwd.staged.filter fun f => groupOf f.queue = g
  let s := { s with fwd := { s.fwd with
      staged := s.fwd.staged.filter fun f => groupOf f.queue ≠ g
      descWait := s.fwd.descWait.filter fun q => groupOf q ≠ g
      cached := kerase s.fwd.cached g
      descs := kfilter s.fwd.descs fun q _ => groupOf q ≠ g
      queues := kfilter s.fwd.queues fun q x => !(groupOf q = g && x.draining) } }
  schedLost g (forEach mine (fun f s => countDrop f.queue 16 f.bytes.length false (freeCells f.cells s)) s)

/-! ### Calls of family 0x08 -/

/-- A configured queue that a change of a slice's range would exclude (R29, R357). -/
def excluded (s : State) (old : Option (Nat × Nat)) (base count : Nat) : Bool :=
  s.fwd.queues.any fun e => inRange old (e.1 % 262144) && !(base ≤ e.1 % 262144 && e.1 % 262144 < base + count)

/-- Whether two ranges overlap. -/
def overlaps (a : Nat × Nat) (b : Nat × Nat) : Bool := a.2 ≠ 0 && b.2 ≠ 0 && a.1 < b.1 + b.2 && b.1 < a.1 + a.2

/-- After a change of LOW_WATER, only a later fall below it is told (R364). -/
def lowRejudge (s : State) : State := { s with fwd := { s.fwd with lowTold := (List.range 4).map fun h => (h, decide (hankFree s h < lowMark s h)) } }

/-- HANK_MIN_FREE takes note of the free count of every Hank (R363). -/
def minFree (s : State) : State := forEach (List.range 4) (fun h s => gaugeMin (cHank 1 h) (hankFree s h) s) s

/-- The Hanks that stand below LOW_WATER as last judged. -/
def lowTold (s : State) : List Nat := (List.range 4).filter fun h => kgetD s.fwd.lowTold h false

/-- Raises source 576 + h for every Hank that stands below LOW_WATER and did not before (R364). -/
def lowCrossed (before : List Nat) (s : State) : State :=
  forEach ((lowTold s).filter fun h => !before.contains h) (fun h s => raise (576 + h) [] [wd (hankFree s h)] s) s

/-- `HANK_PARTITION_SET` (R344). -/
def hankPartition (ws : List Word) (s : State) : State × Status :=
  let h3 := fld (pw ws 0) 20 16
  let h1 := fld (pw ws 0) 4 0
  if h1 = 0 || h3 = 0 || 26 < h1 || 26 < h3 || 27 < h1 + h3 then (s, .badArg)
  else if [40, 41, 42, 43].all fun d => (domOf s d).st = .off then
    (lowCrossed (lowTold s) (lowRejudge (minFree { minFree s with fwd := { (minFree s).fwd with h1Units := h1, h3Units := h3 } })), .done)
  else (raise 586 [] [] s, .badState)

/-- `HANK_STATUS` (R367). -/
def hankStatus (ws : List Word) (s : State) : List Word :=
  let h := fld (pw ws 0) 1 0
  [wd (hankCount s h), wd (hankFree s h)] ++ toWords 2 (hankBase s h)

/-- `SLICE_HANK_SET` (R362, R367). -/
def sliceHankSet : TxnCall where
  spec := { code := 0x0803, who := .slice0, lens := [3], used := [0xFFFFFFFF, 0xF0003, 0x7FFFFF] }
  objs s i := do
    need (fld (pw i.words 2) 22 0 ≤ hankCount s (fld (pw i.words 1) 1 0)) .badArg
    return [⟨.sliceHank, 4 * fld (pw i.words 1) 19 16 + fld (pw i.words 1) 1 0⟩]
  apply i s := do
    let k := fld (pw i.words 1) 19 16
    needSlice s k
    return { s with fwd := { s.fwd with quotas := kset s.fwd.quotas (4 * k + fld (pw i.words 1) 1 0) (fld (pw i.words 2) 22 0) } }

/-- `SLICE_HANK_READ` (R367). -/
def sliceHankRead (ch : Nat) (ws : List Word) (s : State) : Res (List Word) := do
  let k := fld (pw ws 0) 19 16
  let h := fld (pw ws 0) 1 0
  readsSlice s ch k
  return [wd (quotaOf s k h), wd (hankUse s k h), wd (kgetD s.fwd.peakSnap (4 * k + h) 0)]

/-- `SLICE_QUEUES_SET` (R357). -/
def sliceQueuesSet : TxnCall where
  spec := { code := 0x0810, who := .slice0, lens := [4], used := [0xFFFFFFFF, 0xF0000, 0x3FFFF, 0x7FFFF] }
  objs _ i := do
    need (fld (pw i.words 3) 18 0 + fld (pw i.words 2) 17 0 ≤ 262144) .badArg
    return [⟨.sliceQueues, fld (pw i.words 1) 19 16⟩]
  apply i s := do
    let k := fld (pw i.words 1) 19 16
    let base := fld (pw i.words 2) 17 0
    let count := fld (pw i.words 3) 18 0
    needSlice s k
    need (!excluded s (kget s.fwd.ranges k) base count) .badState
    return { s with fwd := { s.fwd with ranges := kset s.fwd.ranges k (base, count) } }
  post i s :=
    let k := fld (pw i.words 1) 19 16
    let mine := kgetD s.fwd.ranges k (0, 0)
    need (!(s.fwd.ranges.any fun e => e.1 ≠ k && overlaps mine e.2)) .badArg

/-- `QPROFILE_SET` (R366, R367): a session of version 2.x leaves TRAIN 0. -/
def qprofileSet : TxnCall where
  spec := { code := 0x0811, who := .slice0, lens := [6], used := [0xFFFFFFFF, 0x300000FF, 0xFFFFFF, 0xFFFFFF, 0xFFFFFF, 0x80000003] }
  objs _ i := do
    let m := fld (pw i.words 2) 23 0
    let t := fld (pw i.words 4) 23 0
    need (1 ≤ m && m ≤ 14680064 && fld (pw i.words 3) 23 0 ≤ m && (t ≤ m || t = 0xFFFFFF)) .badArg
    return [⟨.qprofile, 256 * fld (pw i.words 1) 29 28 + fld (pw i.words 1) 7 0⟩]
  apply i s :=
    let f : Profile := { maxDepth := fld (pw i.words 2) 23 0, yellowDepth := fld (pw i.words 3) 23 0, spillThresh := fld (pw i.words 4) 23 0, train := if i.version < 0x0300 then 0 else fld (pw i.words 5) 1 0, defer_ := bit (pw i.words 5) 31 }
    .ok { s with fwd := { s.fwd with profiles := kset s.fwd.profiles (256 * fld (pw i.words 1) 29 28 + fld (pw i.words 1) 7 0) f } }

/-- The node that a QNODE call names: group, whether L2, number. -/
def qnodeName (w : Word) : Nat × Bool × Nat := (fld w 29 28, bit w 24, fld w 15 0)

/-- The object of a node. -/
def qnodeObj (w : Word) : Obj := ⟨.qnode, 4 * 65536 * fld w 24 24 + 65536 * fld w 29 28 + fld w 15 0⟩

/-- The owner of a node that exists. -/
def qnodeOwner (s : State) (w : Word) : Option Nat :=
  let (g, two, n) := qnodeName w
  if two then l2Owner s g n else (l1At s g n).map fun x => l1Owner s x.kind

/-- NOT_OWNER for a caller other than slice 0 and the owner, where there is an owner. -/
def needOwnerOptAs (who : Option Nat) (o : Option Nat) : Res Unit := match o with | some k => needOwnerAs who k | none => .ok ()
def needOwnerOpt (s : State) (ch : Nat) (o : Option Nat) : Res Unit := needOwnerOptAs (actingSlice s ch) o

/-- `QNODE_SET` (R358, R359, R561). -/
def qnodeSet : TxnCall where
  spec := { code := 0x0812, who := .bound, lens := [4], used := [0xFFFFFFFF, 0x3100FFFF, 0x81FF1F0F, 0x1FFF] }
  objs s i := do
    let w := pw i.words 1
    let v := pw i.words 2
    let (g, two, n) := qnodeName w
    needOwnerOptAs i.slice (qnodeOwner s w)
    needOwnerOptAs i.slice (if two then none else some (if bit v 31 then 0 else onuOwner s (fld v 12 8) (fld v 24 16)))
    need (if two then fld (pw i.words 3) 12 0 ≤ 8191 else n ≤ 8191 && (if bit v 31 then fld v 12 8 ≤ 23 else fld v 12 8 / 8 = g)) .badArg
    return [qnodeObj w]
  apply i s := do
    let w := pw i.words 1
    let v := pw i.words 2
    let (g, two, n) := qnodeName w
    if two then
      let par := fld (pw i.words 3) 12 0
      match l1At s g par with
      | none => .error .badArg
      | some a => do
        needOwnerAs i.slice (l1Owner s a.kind)
        let kids := s.fwd.l2.filter fun e => e.1 / 65536 = g && e.1 % 65536 ≠ n && e.2.parent = par
        need (kids.length < 256) .noSpace
        let x : L2 := match l2At s g n with | some x => { x with parent := par } | none => { parent := par, sh := newShaper a.kind s.tb }
        return { s with fwd := { s.fwd with l2 := kset s.fwd.l2 (65536 * g + n) x } }
    else
      let kind : Res L1Kind :=
        if bit v 31 then .ok (.uplink (fld v 12 8) (fld v 3 0))
        else match pierOfOnu s (fld v 12 8) (fld v 24 16) with
          | some p => .ok (.onu (fld v 12 8) (fld v 24 16) p)
          | none => .error .badState
      match kind with
      | .error e => .error e
      | .ok k => do
        match k with | .onu _ _ _ => pure () | .uplink _ c => needSlice s c
        let other := match k with | .onu sp o _ => l1OfOnu s sp o | .uplink _ _ => none
        need (match other with | some e => e.1 = 8192 * g + n | none => true) .badState
        let kids := s.fwd.l1.filter fun e => e.1 / 8192 = g && e.1 % 8192 ≠ n && rootOf e.2.kind = rootOf k
        need (kids.length < 4096) .noSpace
        let x : L1 := match l1At s g n with | some x => { x with kind := k } | none => { kind := k, sh := newShaper k s.tb }
        return { s with fwd := { s.fwd with l1 := kset s.fwd.l1 (8192 * g + n) x } }

/-- `QNODE_DELETE` (R359, R560). -/
def qnodeDelete : TxnCall where
  spec := { code := 0x0813, who := .bound, lens := [2], used := [0xFFFFFFFF, 0x3100FFFF] }
  objs s i := do
    need (bit (pw i.words 1) 24 || fld (pw i.words 1) 15 0 ≤ 8191) .badArg
    needOwnerOptAs i.slice (qnodeOwner s (pw i.words 1))
    return [qnodeObj (pw i.words 1)]
  apply i s := do
    let (g, two, n) := qnodeName (pw i.words 1)
    if two then
      need (l2At s g n).isSome .badState
      need (!(s.fwd.queues.any fun e => groupOf e.1 = g && e.2.parent = n)) .badState
      return { s with fwd := { s.fwd with l2 := kerase s.fwd.l2 (65536 * g + n) } }
    else
      need (l1At s g n).isSome .badState
      need (!(s.fwd.l2.any fun e => e.1 / 65536 = g && e.2.parent = n)) .badState
      return { s with fwd := { s.fwd with l1 := kerase s.fwd.l1 (8192 * g + n) } }

/-- The queue's object. -/
def queueObj (w : Word) : Obj := ⟨.queue, fld w 19 0⟩

/-- `QUEUE_SET` (R359, R361): the queue's owner and that of its L2 parent are one. -/
def queueSet : TxnCall where
  spec := { code := 0x0814, who := .bound, lens := [4], used := [0xFFFFFFFF, 0xFFFFF, 0xFFFF00FF, 0x1FFF0000] }
  objs s i := do
    needOwnerAs i.slice (queueOwner s (fld (pw i.words 1) 19 0))
    return [queueObj (pw i.words 1)]
  apply i s := do
    let q := fld (pw i.words 1) 19 0
    let g := groupOf q
    let par := fld (pw i.words 2) 31 16
    let port := fld (pw i.words 3) 28 16
    match (l2At s g par).bind fun x => l1At s g x.parent with
    | none => .error .badArg
    | some a => do
      needOwnerAs i.slice (l1Owner s a.kind)
      need (l1Owner s a.kind = queueOwner s q) .notOwner
      need (!((queueAt s q).any (·.draining))) .badState
      let kids := s.fwd.queues.filter fun e => groupOf e.1 = g && e.1 ≠ q && e.2.parent = par
      need (kids.length < 64) .noSpace
      need (match a.kind with
        | .onu sp o _ => match kget s.fwd.ports (8192 * sp + port) with | some r => r.onu = o | none => false
        | .uplink _ _ => true) .badArg
      let x : Queue := match queueAt s q with
        | some x => { x with parent := par, profile := fld (pw i.words 2) 7 0, port := port }
        | none => { parent := par, profile := fld (pw i.words 2) 7 0, port := port, sh := newShaper a.kind s.tb }
      return setQueue q x s

/-- `QUEUE_DELETE` (R361, R560). -/
def queueDelete : TxnCall where
  spec := { code := 0x0815, who := .bound, lens := [2], used := [0xFFFFFFFF, 0xFFFFF] }
  objs s i := do
    needOwnerAs i.slice (queueOwner s (fld (pw i.words 1) 19 0))
    return [queueObj (pw i.words 1)]
  apply i s :=
    let q := fld (pw i.words 1) 19 0
    match queueAt s q with
    | none => .error .badState
    | some x =>
      if x.draining then .error .badState
      else
        let t := closeTrain q s
        .ok (if x.pkts = [] then { t with fwd := { t.fwd with queues := kerase t.fwd.queues q } }
          else setQueue q { x with draining := true, train := none } t)

/-- `QUEUE_READ` (R367). -/
def queueRead (ch : Nat) (ws : List Word) (s : State) : Res (List Word) := do
  let q := fld (pw ws 0) 19 0
  needOwner s ch (queueOwner s q)
  match queueAt s q with
  | none => return [0, 0, 0, 0, 0]
  | some x =>
    let deep := (x.pkts.filter fun p => match p.place with | .copying _ _ _ _ => true | .deep _ _ _ _ => true | _ => false).length
    return [put (if x.draining then 2 else 1) 30 ||| putb x.train.isSome 24 ||| wd x.profile] ++ toWords 2 x.depth ++ [wd x.pkts.length, wd deep]

/-- `VIADUCT_CONFIG` (R353, R362, R367). -/
def viaductConfig : TxnCall where
  spec := { code := 0x0820, who := .slice0, lens := [7], used := [0xFFFFFFFF, 0x1FFF, 0xFFFF, 0x7FFFFF, 0x7FFFFF, 0x7FFFFF, 0x7FFFFF] }
  objs _ i := do
    let b := fld (pw i.words 1) 12 0
    let p := fld (pw i.words 2) 15 0
    need (256 ≤ b && b ≤ 4096 && 2048 ≤ p && p ≤ 32768) .badArg
    return [⟨.viaduct, 0⟩]
  apply i s := .ok (lowRejudge { s with fwd := { s.fwd with
    wrBacklog := fld (pw i.words 1) 12 0, prefetch := fld (pw i.words 2) 15 0, lowWater := (List.range 4).map fun h => (h, fld (pw i.words (3 + h)) 22 0) } })

/-- `VIADUCT_STATUS` (R367): the rates are those of the last latched second. -/
def viaductStatus (s : State) : List Word :=
  [wd (backlogOf s), wd (kgetD s.ctl.cntSnap (cDev 1) 0 * 8 / 1000000), wd (kgetD s.ctl.cntSnap (cDev 2) 0 * 8 / 1000000), wd (fetchCells s)]

end Sys2Proof.Machine
end

