-- ==== Sys2Proof/Machine/Mirror.lean ====
section
/-! DEFINITION. What the device sends over the Hawser: flits, and the mirror records of the spans it is active for (R467, R507, R510). -/

namespace Sys2Proof.Machine

/-- The 64 bytes of a flit: TYPE, the count of valid payload bytes, the payload (R467). -/
def Flit.bytes (f : Flit) : List Byte := BitVec.ofNat 8 (16 * f.kind) :: BitVec.ofNat 8 f.payload.length :: f.payload ++ List.replicate (62 - f.payload.length) 0

/-- The lanes in use, from the one whose turn it is (R468). -/
def Hawser.turn (h : Hawser) : List Nat := h.inUse.filter (h.txLane ≤ ·) ++ h.inUse.filter (· < h.txLane)

/-- The SEQ and the lane of the next codeword after `n` codewords have gone out, in ascending lane order and round-robin (R467, R468). -/
def Hawser.after (h : Hawser) (n : Nat) : Hawser := { h with txSeq := (h.txSeq + n) % 1024, txLane := h.turn.getD (n % h.turn.length) 0 }

/-- The codewords of idle flits that went out since the last one with content: how many is the world's (R467; assumption 145). -/
def idleOut (s : State) : State :=
  let h := s.red.hawser
  let n := Config.freeNat s.free
  emit (.hawserIdle h.txSeq n) (setHawser (h.after n) (drawn s))

/-- What a Hawser lane sends: nothing unless it is ON with its transmit PLL in lock, the pattern of its generator, the link's codewords
while the lane is in the set of a link that is up, and idle codewords otherwise (R460, R466 to R468). -/
def hawserContent (s : State) (i : Nat) : Nat :=
  let x := laneOf s (24 + i)
  if x.st ≠ .on || x.txLol then 0 else if x.gen then 1 else if s.red.hawser.up && s.red.hawser.inUse.contains i then 3 else 2

/-- The continuous streams of the Hawser lanes change with what each lane sends and with LANES (R467, R468). -/
def hawserLines (s : State) : State :=
  forEach (List.range 4) (fun i s =>
    let now := (hawserContent s i, (maskOf s.red.hawser.locked).toNat)
    if now = kgetD s.red.hawser.line i (0, 0) then s
    else emit (.hawserLine i now.1 now.2) (setHawser { s.red.hawser with line := kset s.red.hawser.line i now } s)) s

/-- A codeword of ten flits, idle ones at its end: SEQ, the lane and the lanes received with lock are its header (R467, R468). A lane whose
transmitter TX-LOL mutes sends nothing in its turn (R460). -/
def codewordOut (fs : List Flit) (s : State) : State :=
  let h := s.red.hawser
  let all := fs ++ List.replicate (10 - fs.length) ⟨0, []⟩
  let lane := h.turn.headD 0
  let t := setHawser (h.after 1) s
  cnt (cDev 6) fs.length (if (laneOf s (24 + lane)).txLol then t else emit (.codeword h.txSeq lane (maskOf h.locked).toNat all) t)

/-- A list in groups of `n`. -/
def groupsOf {α : Type} (n : Nat) (fuel : Nat) (l : List α) : List (List α) :=
  match fuel with
  | 0 => []
  | k + 1 => if l.isEmpty then [] else l.take n :: groupsOf n k (l.drop n)

/-- Flits go out to the mate, ten to a codeword, while the link is up (R467, R468). -/
def flitsOut (fs : List Flit) (s : State) : State :=
  if s.red.hawser.up then forEach (groupsOf 10 fs.length fs) codewordOut (idleOut s) else s

/-- A mailbox flit: DIR, FREE and up to 15 words (R507). -/
def mailFlit (dir free : Nat) (ws : List Word) : Flit := ⟨1, toLe 2 (dir * 2 ^ 15 + free % 128) ++ ws.flatMap fun w => toLe 4 w.toNat⟩

/-- A stamp of a timebase flit, in 2^-16 ns: 64 bits of ns, then the fraction (R507). -/
def stampBytes (t : Nat) : List Byte := toLe 8 (t / 65536) ++ toLe 2 t

/-- A timebase flit (R507, R509). -/
def timeFlit (send echo recv : Nat) : Flit := ⟨3, stampBytes send ++ stampBytes echo ++ stampBytes recv⟩

/-- The flits of material of the pair key, fragments of 61 bytes in order (R507). -/
def keyFlits (step : Nat) (bs : List Byte) : List Flit := (groupsOf 61 bs.length bs).map fun b => ⟨4, BitVec.ofNat 8 step :: b⟩

/-- The bytes of a record's DATA: a CONTROL record's by its layout, none of an acknowledgement, and of the other types as the device
lays them out, which the spec leaves open (R507, R510; assumption 146). -/
def recordBytes (rtype : Nat) (data : List Nat) : List Byte :=
  match rtype, data with
  | 8, [flags, spans, row, ns] => toLe 4 (flags % 256) ++ toLe 4 spans ++ toLe 8 (row % 256) ++ toLe 8 ns
  | 15, _ => []
  | _, _ => Config.recordData rtype data

/-- One fragment of a mirror record (R507). -/
def fragment (rtype span rseq n : Nat) (last : Bool) (bs : List Byte) : Flit :=
  ⟨2, [BitVec.ofNat 8 rtype, BitVec.ofNat 8 span] ++ toLe 2 ((if last then 2 ^ 15 else 0) + n % 2 ^ 15) ++ toLe 4 rseq ++ bs⟩

/-- The flits of a mirror record: 54 bytes of DATA each, numbered, the last marked (R507). -/
def recordFlits (rtype span rseq : Nat) (data : List Nat) : List Flit :=
  let bs := recordBytes rtype data
  let parts := if bs.isEmpty then [[]] else groupsOf 54 bs.length bs
  parts.zipIdx.map fun e => fragment rtype span rseq e.2 (e.2 + 1 = parts.length) e.1

/-- Whether a Span is paired and this device is active for it (R504). -/
def activeHere (s : State) (sp : Nat) : Bool := (spanOf s sp).paired && !(spanOf s sp).standby

/-- Whether the device mirrors a Span now (R510). -/
def mirrors (s : State) (sp : Nat) : Bool := activeHere s sp && (s.red.pair.st = .bulk || s.red.pair.st = .paired)

/-- A mirror record goes out under the next RSEQ of the direction while the link is up, and waits for its acknowledgement (R468, R507,
R511). -/
def recordOut (rtype span : Nat) (data : List Nat) (s : State) : State :=
  let p := s.red.pair
  let n := p.txSeq
  if !s.red.hawser.up then s
  else cnt (cDev 14) 1 (flitsOut (recordFlits rtype span n data) (setPair { p with txSeq := (n + 1) % 2 ^ 32, unacked := p.unacked ++ [(n, frameNo s)] } s))

/-- A record of a Span that the device mirrors. -/
def mirrorSpan (rtype sp : Nat) (data : List Nat) (s : State) : State := if mirrors s sp then recordOut rtype sp data s else s

/-- A rational value as a record carries it: sign, numerator, denominator; whole ps under a format below 4 (R523, R524). -/
def ratData (format : Nat) (q : Rat) : List Nat :=
  let q : Rat := if format < 4 then (roundAway q : Rat) else q
  [if q < 0 then 1 else 0, q.num.natAbs, q.den]

/-- An activation state's code (R173). -/
def OnuSt.code : OnuSt → Nat
  | .inactive => 0 | .held => 1 | .ranging => 2 | .registering => 3 | .active => 4 | .deactivating => 5 | .disabled => 6

/-- The ONU record of an index (R510). -/
def mirrorOnu (sp o : Nat) (s : State) : State :=
  let x := onuOf s sp o
  let f := s.red.pair.format
  mirrorSpan 2 sp ([o, x.st.code, x.pier, x.onuId.getD 0x3FF, x.rate, x.eqd] ++ ratData f x.offset ++ ratData 4 x.cumul ++
    (match x.expect with | some e => [1, e.pier, e.serial.toNat, e.auto.toNat, e.regCheck.toNat] ++ e.reg.map (·.toNat) | none => [0])) s

/-- A key's code of state (R393). -/
def SlotSt.code : SlotSt → Nat
  | .empty => 0 | .next => 1 | .active => 2 | .retiring => 3 | .expired => 4

/-- The age of a key in frames (R399). -/
def Slot.age (k : Slot) (frame : Nat) : Nat := match k.at_ with | some f => frame - f | none => 0

/-- Whether the device mirrors a Span's keys now: a failed check of the pair key stops that (R417). -/
def mirrorsKeys (s : State) (sp : Nat) : Bool := mirrors s sp && s.ciph.pair.st ≠ .failed

/-- The KEY record of a slot or, with index 0, 3 or 4, of an MSK, a PLOAM_IK or a KEK: wrapped under the pair key (R418). -/
def mirrorKey (sp : Nat) (onu : Option Nat) (pier ix : Nat) (k : Slot) (s : State) : State :=
  if mirrorsKeys s sp then
    recordOut 4 sp ([onu.getD 0x1FF, pier, ix, k.st.code, k.age (frameNo s)] ++ (kwWrap 2 s.ciph.pair.key k.key).map (·.toNat)) s
  else s

/-- The KEY records of an ONU's MSK and derived keys (R418). -/
def mirrorMsk (sp o : Nat) (s : State) : State :=
  let k := onuKeys s sp o
  match k.msk with
  | some m =>
    let out (ix key : Nat) (s : State) : State := mirrorKey sp (some o) (onuOf s sp o).pier ix { key := key } s
    out 4 k.kek (out 3 k.ik (out 0 m s))
  | none => s

/-- The SPAN record (R510). -/
def mirrorSpanRec (sp : Nat) (s : State) : State :=
  let x := spanOf s sp
  mirrorSpan 6 sp ((List.range 3).map (fun p => (pierOf s sp p).teqd) ++ [x.reachMin, x.reachMax, if x.st = .opened then 1 else 0] ++
    if s.red.pair.format = 2 then [] else [x.diff, x.reachMargin]) s

end Sys2Proof.Machine
end

