-- ==== Sys2Proof/Machine/Cipher.lean ====
section
/-! DEFINITION. PON keys and their exchange, MACsec, XTS key pairs, the pair key, entropy and the calls of family 0x0A
(chapter 12). -/

namespace Sys2Proof.Machine

/-! ### Key slots (R393 to R401) -/

/-- A slot of an ONU by its index. -/
def OnuKeys.slot (k : OnuKeys) (ix : Nat) : Slot := if ix = 2 then k.s2 else k.s1
def OnuKeys.put (k : OnuKeys) (ix : Nat) (x : Slot) : OnuKeys := if ix = 2 then { k with s2 := x } else { k with s1 := x }
def PierKeys.slot (k : PierKeys) (ix : Nat) : Slot := if ix = 2 then k.s2 else k.s1
def PierKeys.put (k : PierKeys) (ix : Nat) (x : Slot) : PierKeys := if ix = 2 then { k with s2 := x } else { k with s1 := x }

/-- The mirror record whose acknowledgement an ONU's NEXT key waits for. -/
def OnuKeys.waits (k : OnuKeys) : Option Nat := k.s1.ack <|> k.s2.ack

/-- The index of two slots that is in a state; 0 for none. -/
def ixIn (a b : Slot) (st : SlotSt) : Nat := if a.st = st then 1 else if b.st = st then 2 else 0

/-- The index that an exchange claims: the one whose slot is not ACTIVE; of two such, not the expired one (R395). -/
def claimIx (k : OnuKeys) : Nat :=
  if k.s1.st = .active then 2 else if k.s2.st = .active then 1 else if k.s1.st = .expired then 2 else 1

/-- The Key event of a Span (R421). -/
def keyEvent (sp o cause ix : Nat) (s : State) : State := raise (16 * sp + 14) [] [wd (cause * 2 ^ 28 + o * 2 ^ 16 + ix)] s

/-- Saend asks an ONU for a new key (R395, R396). -/
def askKey (sp o : Nat) (s : State) : State :=
  let k := onuKeys s sp o
  let x := onuOf s sp o
  let ix := claimIx k
  let m : PMsg := ⟨3, some o, if x.pier = 2 then .requestKey else .keyControl, [ix]⟩
  let s := if (k.slot ix).st = .retiring then mirrorKey sp (some o) x.pier ix {} (setOnuKeys sp o (k.put ix {}) s) else s
  queuePloam sp x.pier m (modOnuKeys sp o (fun k => { k with exchange := true, frags := [], lastFrag := none }) s)

/-- The frame that a switch frame counts from: the first apply point at least 20 µs after an instant, and no earlier than now (R397). -/
def switchBase (loaded now : Nat) : Nat := max (applyPointFor loaded 0 / frameTb) (ceilDiv now frameTb)

/-- Fixes the switch frame of an ONU's NEXT key; the G-pier is told it three times (R396, R397). -/
def fixSwitch (sp o : Nat) (s : State) : State :=
  let k := onuKeys s sp o
  let x := onuOf s sp o
  let ix := ixIn k.s1 k.s2 .next
  if ix = 0 then s
  else
    let f := switchBase (k.slot ix).loaded s.tb + (pierKeys s sp x.pier).lead
    let s := setOnuKeys sp o (k.put ix { k.slot ix with at_ := some f, ack := none }) s
    if x.pier = 2 then
      let m : PMsg := ⟨3, some o, .keySwitchingTime, [sfcOf 2 f]⟩
      queuePloam sp 2 m (queuePloam sp 2 m (queuePloam sp 2 m s))
    else s

/-- A key that enters NEXT now; where it is mirrored, its switch frame waits for the acknowledgement of the record that carries it (R418). -/
def nextSlot (s : State) (sp key : Nat) : Slot := { st := .next, key := key, loaded := s.tb, ack := if mirrorsKeys s sp then some s.red.pair.txSeq else none }

/-- A key enters NEXT: it is mirrored where the Span is, and its switch frame waits for the acknowledgement then (R395, R397, R418). -/
def loadKey (sp o key : Nat) (s : State) : State :=
  let k := onuKeys s sp o
  let ix := claimIx k
  let slot := nextSlot s sp key
  let t := setOnuKeys sp o { k.put ix slot with exchange := false, frags := [], lastFrag := none } s
  if mirrorsKeys s sp then mirrorKey sp (some o) (onuOf s sp o).pier ix slot t else fixSwitch sp o t

/-- Fixes the switch frame of a Pier's NEXT broadcast key in a slot (R397, R401). -/
def fixBcast (sp p ix : Nat) (s : State) : State :=
  let k := pierKeys s sp p
  let x := k.slot ix
  if x.st = .next then setPierKeys sp p (k.put ix { x with at_ := some (switchBase x.loaded s.tb + k.lead), ack := none }) s else s

/-- A broadcast key that no acknowledgement of the mate has met within 10 ms switches all the same (R418). -/
def bcastAckTimeout (sp p : Nat) (s : State) : State :=
  forEach [1, 2] (fun ix s =>
    let x := (pierKeys s sp p).slot ix
    if x.ack.isSome && x.loaded + 10000 * us ≤ s.tb then fixBcast sp p ix s else s) s

/-- An ONU that reaches INACTIVE or DISABLED loses its MSK, derived keys and unicast slots (R402). -/
def clearKeys (sp o : Nat) (s : State) : State := { s with ciph := { s.ciph with onus := kerase s.ciph.onus (512 * sp + o) } }

/-- An exchange with no complete key within KEY_TIMEOUT (R395). -/
def exchangeTimeout (sp o : Nat) (s : State) : State :=
  if (onuKeys s sp o).exchange && (onuOf s sp o).st = .active then
    askKey sp o (keyEvent sp o 3 (claimIx (onuKeys s sp o)) (cnt (cOnu 25 sp o) 1 s))
  else s

/-- Whether a NEXT slot has no switch frame yet. -/
def Slot.unfixed (k : Slot) : Bool := k.st = .next && k.at_ = none

/-- Whether a NEXT slot switches in a frame. -/
def Slot.due (k : Slot) (frame : Nat) : Bool := k.st = .next && match k.at_ with | some f => f ≤ frame | none => false

/-- What the old slot of a pair becomes when the other one switches, whether its key was in use or EXPIRED: RETIRING, or EMPTY on the
G-pier (R397). -/
def Slot.retire (k : Slot) (pier frame : Nat) : Slot :=
  if k.st = .active || k.st = .expired then (if pier = 2 then {} else { k with st := .retiring, at_ := some frame }) else k

/-- An ONU's NEXT key takes over at the start of a frame (R397, R400). -/
def switchOnu (sp o : Nat) (s : State) : State :=
  let k := onuKeys s sp o
  let f := frameNo s
  let ix := if k.s1.due f then 1 else if k.s2.due f then 2 else 0
  if ix = 0 then s
  else
    let p := (onuOf s sp o).pier
    let other := 3 - ix
    let k := (k.put other ((k.slot other).retire p f)).put ix { k.slot ix with st := .active, ack := none }
    let s := keyEvent sp o 2 ix (cnt (cOnu 24 sp o) 1 (setOnuKeys sp o k s))
    mirrorKey sp (some o) p ix (k.slot ix) (setDefect sp o 8 false true s)

/-- The broadcast key of a slot takes over at the start of a frame, and its slot is no longer held (R40, R401). -/
def switchBcast (sp p ix : Nat) (s : State) : State :=
  let k := pierKeys s sp p
  let f := frameNo s
  if !(k.slot ix).due f then s
  else
    let other := 3 - ix
    let k := (k.put other ((k.slot other).retire p f)).put ix { k.slot ix with st := .active, ack := none }
    mirrorKey sp none p ix (k.slot ix) <| raise 706 [] [wd (ix * 2 ^ 16 + sp * 256 + p)] (setPierKeys sp p k (releaseObj ⟨.bcastKey, 4 * (3 * sp + p) + ix⟩ s))

/-- KEY_SWITCH_FRAME: every key of a Pier whose switch frame has come takes over; of two broadcast keys with one switch frame the lower
index first (assumption 158). -/
def keySwitchFrame (sp p : Nat) (s : State) : State :=
  forEach [1, 2] (switchBcast sp p) (forEach ((onusOf s sp).filter fun o => (onuOf s sp o).pier = p) (switchOnu sp) s)

/-- Whether a slot's key has reached an age. -/
def Slot.aged (k : Slot) (age frame : Nat) : Bool := k.st = .active && match k.at_ with | some f => f + age ≤ frame | none => false

/-- KEY_MARGIN_REACHED (R399). -/
def keyMargin (sp o : Nat) (s : State) : State :=
  let k := onuKeys s sp o
  let ix := ixIn k.s1 k.s2 .active
  let c := pierKeys s sp (onuOf s sp o).pier
  if ix ≠ 0 && c.margin ≠ 0 && (k.slot ix).aged (c.life - c.margin) (frameNo s) && !(k.slot ix).told then
    let s := keyEvent sp o 0 ix (setOnuKeys sp o (k.put ix { k.slot ix with told := true }) s)
    if c.autoRoll && !k.exchange && (onuOf s sp o).st = .active then askKey sp o s else s
  else s

/-- KEY_EXPIRED (R399, R400): not where the next key switches in this very frame. -/
def keyExpired (sp o : Nat) (s : State) : State :=
  let k := onuKeys s sp o
  let ix := ixIn k.s1 k.s2 .active
  let c := pierKeys s sp (onuOf s sp o).pier
  if ix ≠ 0 && (k.slot ix).aged c.life (frameNo s) && !(k.slot (3 - ix)).due (frameNo s) then
    let x : Slot := { k.slot ix with st := .expired }
    setDefect sp o 8 true true (keyEvent sp o 1 ix (mirrorKey sp (some o) (onuOf s sp o).pier ix x (setOnuKeys sp o (k.put ix x) s)))
  else s

/-- KEY_RETIRE_END (R398). -/
def keyRetired (sp o : Nat) (s : State) : State :=
  let k := onuKeys s sp o
  let ix := ixIn k.s1 k.s2 .retiring
  let c := pierKeys s sp (onuOf s sp o).pier
  match (k.slot ix).at_ with
  | some f => if ix ≠ 0 && f + c.retire ≤ frameNo s then mirrorKey sp (some o) (onuOf s sp o).pier ix {} (setOnuKeys sp o (k.put ix {}) s) else s
  | none => s

/-- A Pier's broadcast key at a frame's start: margin and expiry (R401, R421), retirement (R398). -/
def bcastAging (sp p : Nat) (s : State) : State :=
  let k := pierKeys s sp p
  let f := frameNo s
  let ix := ixIn k.s1 k.s2 .active
  let w := wd (sp * 256 + p)
  let s := if ix ≠ 0 && k.margin ≠ 0 && (k.slot ix).aged (k.life - k.margin) f && !(k.slot ix).told then
    raise 704 [] [w] (setPierKeys sp p (k.put ix { k.slot ix with told := true }) s) else s
  let k := pierKeys s sp p
  let s := if ix ≠ 0 && (k.slot ix).aged k.life f && !(k.slot (3 - ix)).due f then
    let x : Slot := { k.slot ix with st := .expired }
    raise 705 [] [w] (mirrorKey sp none p ix x (setPierKeys sp p (k.put ix x) s)) else s
  let k := pierKeys s sp p
  let r := ixIn k.s1 k.s2 .retiring
  match (k.slot r).at_ with
  | some g => if r ≠ 0 && g + k.retire ≤ f then mirrorKey sp none p r {} (setPierKeys sp p (k.put r {}) s) else s
  | none => s

/-- The keys of a Pier as one of its frames starts, before anything is sent in it: those whose switch frame it is take over, those that
have reached their limit expire (R397, R399, R401). The records of the mate tell a standby. -/
def keyFrame (sp p : Nat) (s : State) : State :=
  if (spanOf s sp).standby then s
  else
    let s := keySwitchFrame sp p (bcastAckTimeout sp p s)
    bcastAging sp p (forEach ((onusOf s sp).filter fun o => (onuOf s sp o).pier = p) (keyExpired sp) s)

/-- Whether a Pier's broadcast key, or an ONU's key, holds encrypted traffic in this frame (R399, R401). -/
def bcastHeld (s : State) (sp p : Nat) : Bool := let k := pierKeys s sp p; ixIn k.s1 k.s2 .expired ≠ 0 && ixIn k.s1 k.s2 .active = 0
def onuHeld (s : State) (sp o : Nat) : Bool := let k := onuKeys s sp o; ixIn k.s1 k.s2 .expired ≠ 0 && ixIn k.s1 k.s2 .active = 0

/-- Whether a Pier, or an ONU, has a port record with the encryption flag: for a Pier a multicast or broadcast one, for an ONU another. -/
def encrypts (s : State) (sp p : Nat) (onu : Option Nat) : Bool :=
  s.fwd.ports.any fun e => e.1 / 8192 = sp && e.2.pier = p && e.2.encrypt && match onu with | none => Config.multicastPort p e.2.portId | some o => e.2.onu = o && !Config.multicastPort p e.2.portId

/-- Counts the frames in which encrypted traffic is held (R422). -/
def countHolds (sp p : Nat) (s : State) : State :=
  let s := if bcastHeld s sp p && encrypts s sp p none then cnt (cPier 15 sp p) 1 s else s
  forEach ((onusIn s sp p [.active]).filter fun o => onuHeld s sp o && encrypts s sp p (some o)) (fun o s => cnt (cOnu 26 sp o) 1 s) s

/-- The key a downstream fragment of a port goes under: none where the port is not encrypted, else its slot index and key, or that
its traffic is held. A port without an ACTIVE key is held (assumption 19). -/
inductive SendKey where
  | clear
  | under (ix key : Nat)
  | held
  deriving DecidableEq, Repr

/-- The key for a port record's fragments (R139, R399, R401). -/
def sendKey (s : State) (sp : Nat) (r : PortRec) : SendKey :=
  let multi := Config.multicastPort r.pier r.portId
  if !r.encrypt || (r.pier = 2 && multi) then .clear
  else
    let (a, b) := if multi then let k := pierKeys s sp r.pier; (k.s1, k.s2) else let k := onuKeys s sp r.onu; (k.s1, k.s2)
    match ixIn a b .active with
    | 0 => .held
    | 1 => .under 1 a.key
    | n => .under n b.key

/-- The counter block number of a place in a frame (R394). -/
def counterBlock (p frame pos : Nat) : Nat := sfcOf p frame * 2 ^ 20 + pos

/-- An upstream frame's payload as it leaves the cipher: none where its key discards it (R139, R393). -/
def openUp (s : State) (sp o p keyIx counter : Nat) (bs : List Byte) : Option (List Byte) :=
  if p = 2 || keyIx = 0 then some bs
  else if keyIx = 3 then none
  else
    let k := (onuKeys s sp o).slot keyIx
    if k.st = .active || k.st = .retiring then some (ponCtr k.key counter bs) else none

/-! ### Entropy and XTS (R413, R419) -/

/-- A number from the DRBG. -/
def drbg (s : State) : Nat × State := (Config.freeNat s.free, drawn s)

/-- A slice's XTS key pair is drawn (R413). -/
def drawXts (k : Nat) (s : State) : State :=
  let (v, s) := drbg s
  raise 711 [] [wd k] { s with ciph := { s.ciph with xts := kset s.ciph.xts k v, xtsGen := kset s.ciph.xtsGen k (kgetD s.ciph.xtsGen k 0 + 1) } }

/-- A slice's XTS key pair is destroyed. -/
def dropXts (k : Nat) (s : State) : State := { s with ciph := { s.ciph with xts := kerase s.ciph.xts k } }

/-- A health test of the entropy source fails (R419). -/
def entropyFail (test : Word) (s : State) : State :=
  raise 707 [] [test] { s with ciph := { s.ciph with healthy := false, failures := min 0xFFFF (s.ciph.failures + 1) } }

/-- The entropy source passes its tests again. -/
def entropyRecovered (s : State) : State := if s.ciph.healthy then s else raise 708 [] [] { s with ciph := { s.ciph with healthy := true } }

/-- The DRBG reseeds; not while the source fails (R419). -/
def reseed (s : State) : State := if s.ciph.healthy then cnt (cDev 11) 1 { s with ciph := { s.ciph with reseeds := s.ciph.reseeds + 1 } } else s

/-! ### The pair key (R417) -/

/-- Pair-key establishment fails (R417, R421). -/
def pairKeyFail (code : Nat) (s : State) : State :=
  let k := s.ciph.pair
  raise 710 [] [wd code] (setPairKey { k with st := .failed, fails := min 0xFFFF (k.fails + 1), got := [] } s)

/-- Establishment begins: an ephemeral key and a nonce are drawn and the three parts of the material are sent; it fails while the
entropy source does (R417, R419). -/
def pairKeyStart (s : State) : State :=
  if !s.ciph.healthy then setPairKey { s.ciph.pair with st := .failed, fails := min 0xFFFF (s.ciph.pair.fails + 1) } s
  else
    let (d, s) := drbg s
    let (n, s) := drbg s
    let eph := p384.public d ++ toBe 32 n
    let sig := p384.sign Config.identityKey (Config.freeNat s.free) (sha384 (Config.certChain ++ eph))
    let s := drawn s
    let s := setPairKey { s.ciph.pair with st := .establishing, since := s.tb, got := [], mine := d, nonce := n } s
    flitsOut (keyFlits 1 Config.certChain ++ keyFlits 2 eph ++ keyFlits 3 sig) s

/-- Whether the certificate hash is checked: not for a manager whose session is of version 2.x (R423). -/
def hashChecked (s : State) : Bool := 0x0300 ≤ versionOf s 0

/-- The pair key from the shared secret and both nonces with HKDF-SHA-384: the nonces, the lesser first, are the salt (R417; assumption
141). -/
def pairSecret (secret a b : List Byte) : Nat := leNat (hkdf384 (if beNat a ≤ beNat b then a ++ b else b ++ a) secret [] 32)

/-- The mate's material is complete: the checks of R417 in their order. -/
def pairKeyJudge (s : State) : State :=
  let k := s.ciph.pair
  let chain := kgetD k.got 1 []
  let eph := kgetD k.got 2 []
  let sig := kgetD k.got 3 []
  match Config.chainKey chain with
  | none => pairKeyFail 0 s
  | some pub =>
    if hashChecked s && sha384 (Config.leafOf chain) ≠ k.hash then pairKeyFail 1 s
    else if !p384.verify pub (sha384 (chain ++ eph)) sig then pairKeyFail 2 s
    else
      let key := pairSecret (p384.agree k.mine (eph.take 97)) (toBe 32 k.nonce) (eph.drop 97)
      raise 709 [] [] (setPairKey { k with st := .established, since := s.tb, key := key, got := [] } s)

/-- The mate's first material of a new establishment begins one here too: what a re-key needs on both sides (R417). At a link-up the
hello of the pair begins it. -/
def pairKeyJoin (stage : Nat) (s : State) : State :=
  if stage = 1 && s.ciph.pair.st ≠ .establishing && (s.red.pair.st = .bulk || s.red.pair.st = .paired) then pairKeyStart s else s

/-- A pair-key flit arrives: material of a step; the last of step 3 completes it. -/
def pairKeyFlit (stage : Nat) (bytes : List Byte) (last : Bool) (s : State) : State :=
  let s := pairKeyJoin stage s
  let k := s.ciph.pair
  if k.st ≠ .establishing || stage = 0 then s
  else
    let s := setPairKey { k with got := kmod k.got stage [] (· ++ bytes) } s
    if last && stage = 3 then pairKeyJudge s else s

/-! ### The committed copies (R392) -/

/-- The device-internal key is drawn once after each reset. -/
def drawWrap (s : State) : State :=
  if s.ciph.wrap.isSome then s else let (v, s) := drbg s; { s with ciph := { s.ciph with wrap := some v } }

/-- The committed copy of a key of `n` semiblocks in the always-on domain: encrypted under the device-internal key. -/
def committedKey (s : State) (n key : Nat) : List Byte := kwWrap n (s.ciph.wrap.getD 0) key

/-- A key as Saend writes it back from its committed copy. -/
def keyBack (s : State) (n key : Nat) : Nat := (kwUnwrap n (s.ciph.wrap.getD 0) (committedKey s n key)).getD 0

/-- A slot, and an SA, whose domain is powered again. -/
def Slot.back (x : Slot) (s : State) : Slot := if x.st = .empty then x else { x with key := keyBack s 2 x.key }
def Sa.back (a : Sa) (s : State) : Sa := { a with sak := keyBack s 4 a.sak, salt := keyBack s 2 a.salt }

/-- The SecYs of a MACsec engine with every SA rewritten. -/
def mapSas (e : Nat) (f : Sa → Sa) (s : State) : State :=
  { s with ciph := { s.ciph with secys := kmap s.ciph.secys fun port y =>
      if port / 8 = e then { y with tx := kmap y.tx fun _ a => f a, rx := kmap y.rx fun _ c => { c with sas := kmap c.sas fun _ a => f a } } else y } }

/-- A MACsec engine loses its state: every SA is back at its committed PN and has sent and validated nothing (R122). -/
def macPowerOff (e : Nat) (s : State) : State := mapSas e (fun a => { a with pn := a.pn0, used := false }) s

/-- The keys of a domain are written back as it enters RAMP: a PON cipher cluster's slots, a MACsec engine's SAs, the XTS key pairs (R392). -/
def keysReturn (d : Nat) (s : State) : State :=
  if 58 ≤ d && d < 62 then
    { s with ciph := { s.ciph with
        onus := kmap s.ciph.onus fun k x => if k / 4096 = d - 58 then { x with s1 := x.s1.back s, s2 := x.s2.back s } else x
        piers := kmap s.ciph.piers fun k x => if k / 24 = d - 58 then { x with s1 := x.s1.back s, s2 := x.s2.back s } else x } }
  else if d = 62 || d = 63 then mapSas (d - 62) (Sa.back · s) s
  else if d = 57 then { s with ciph := { s.ciph with xts := kmap s.ciph.xts fun _ k => keyBack s 8 k } }
  else s

/-! ### MACsec (R404 to R412) -/

/-- A transmit SA that has sent its last PN (R408). -/
def Sa.exhausted (a : Sa) : Bool := 2 ^ 64 ≤ a.pn

/-- The EtherType of a frame after its addresses. -/
def etherType (f : List Byte) : Nat := beAt f 12 2

/-- Whether the bypass list of a port holds a frame's EtherType (R412). -/
def SecY.bypasses (y : SecY) (f : List Byte) : Bool := etherType f ≠ 0 && y.bypass.contains (etherType f)

/-- The SecTAG of a protected frame: E and C set, with the SCI where INCLUDE_SCI is 1 (R406; the layout of IEEE 802.1AE is
PRESUMED, assumption 17). -/
def secTag (y : SecY) (an pn len : Nat) : List Byte :=
  [0x88, 0xE5, BitVec.ofNat 8 ((if y.includeSci then 0x2C else 0x0C) + an), BitVec.ofNat 8 (if len < 48 then len else 0)] ++
    toBe 4 pn ++ (if y.includeSci then toBe 8 y.sci else [])

/-- A named next SA that can take over (R408). -/
def SecY.takeover (y : SecY) : Option Nat :=
  y.nextAn.bind fun n => match kget y.tx n with | some a => if a.exhausted then none else some n | none => none

/-- Protects a frame under the transmit SA; the SA's last PN switches to the next SA (R406 to R408). -/
def protect (port an : Nat) (a : Sa) (y : SecY) (f : List Byte) (s : State) : State × List Byte :=
  let tag := secTag y an a.pn (f.length - 12)
  let hdr := f.take 12 ++ tag
  let body := gcmSeal a.sak a.salt a.ssci a.pn hdr (f.drop 12)
  let a' := { a with pn := a.pn + 1, used := true }
  let y' := { y with tx := kset y.tx an a' }
  let s := cnt (cMacTx port an) 1 (setSecy port y' s)
  let s := if a.pn = y.pnAlarm then raise (672 + port) [] [wd an] s else s
  let s := if a'.exhausted then
      let t := y'.takeover
      raise (688 + port) [] [wd (an * 256 + t.getD 0xFF)] (match t with | some n => setSecy port { y' with txAn := some n, nextAn := none } s | none => s)
    else s
  (s, hdr ++ body)

/-- A frame goes out on a port: none where no SA can protect it (R404, R408, R412). -/
def macTx (port : Nat) (f : List Byte) (s : State) : State × Option (List Byte) :=
  let y := secyOf s port
  if !y.enable then (s, some f)
  else if y.bypasses f then (cnt (cMacBypass port 1) 1 s, some f)
  else
    let usable (n : Option Nat) : Option (Nat × Sa) := n.bind fun n => match kget y.tx n with | some a => if a.exhausted then none else some (n, a) | none => none
    match usable y.txAn with
    | some (n, a) => let (s, g) := protect port n a y f s; (s, some g)
    | none => match usable y.nextAn with
      | some (n, a) =>
        let y := { y with txAn := some n, nextAn := none }
        let (s, g) := protect port n a y f (setSecy port y s)
        (s, some g)
      | none => (cnt (cMacTxNoSa port) 1 s, none)

/-- What the receive side makes of a frame: it goes on, with a mark where its ICV failed, or is dropped (R409). -/
inductive MacRx where
  | pass (f : List Byte) (marked : Bool)
  | drop
  deriving DecidableEq, Repr

/-- The 64-bit PN of a received frame (R410; the rule of IEEE 802.1AE for XPN is PRESUMED, assumption 17). -/
def recoverPn (lowest pn : Nat) : Nat :=
  let hi := lowest / 2 ^ 32
  (if (lowest % 2 ^ 32).testBit 31 && !pn.testBit 31 then hi + 1 else hi) * 2 ^ 32 + pn

/-- The receive SC that a SecTAG names: by its SCI, or SC 0 (R409). -/
def SecY.findSc (y : SecY) (sci : Option Nat) : Option Nat :=
  match sci with
  | none => if (kget y.rx 0).isSome then some 0 else none
  | some v => (y.rx.find? fun e => e.2.sci = v).map (·.1)

/-- A frame comes in on a port (R404, R409 to R411). -/
def macRx (port : Nat) (f : List Byte) (s : State) : State × MacRx :=
  let y := secyOf s port
  if !y.enable then (s, .pass f false)
  else if y.bypasses f then (cnt (cMacBypass port 0) 1 s, .pass f false)
  else if etherType f ≠ 0x88E5 then (cnt (cMacRxPort 1 port) 1 s, .drop)
  else
    let tci := beAt f 14 1
    let sc := tci.testBit 5
    let len := if sc then 16 else 8
    let pn32 := beAt f 16 4
    let sl := beAt f 15 1
    let data := f.length - (12 + len + 16)
    let bad := tci.testBit 7 || !tci.testBit 3 || !tci.testBit 2 || (sc && (tci.testBit 6 || tci.testBit 4)) || f.length < 12 + len + 16 ||
      48 ≤ sl || (if sl = 0 then data < 48 else data ≠ sl)
    if bad then (cnt (cMacRxPort 2 port) 1 s, .drop)
    else
      let an := tci % 4
      match y.findSc (if sc then some (beAt f 20 8) else none) with
      | none => (cnt (cMacRx 1 port 0) 1 s, .drop)
      | some n => match (kget y.rx n).bind fun c => (kget c.sas an).map fun a => (c, a) with
        | none => (cnt (cMacRx 1 port n) 1 s, .drop)
        | some (c, a) =>
          let pn := recoverPn a.pn pn32
          if y.replay && pn < a.pn then (cnt (cMacRx 0 port n) 1 s, .drop)
          else
            let hdr := f.take (12 + len)
            let (body, ok) := gcmOpen a.sak a.salt a.ssci pn hdr (f.drop (12 + len))
            if ok then
              let a' := { a with pn := max a.pn (pn + 1 - y.window), used := true }
              let c' := { c with sas := kset c.sas an a' }
              (cnt (cMacRxOk port n an) 1 (setSecy port { y with rx := kset y.rx n c' } s), .pass (f.take 12 ++ body) false)
            else (cnt (cMacRxPort 0 port) 1 s, .pass (f.take 12 ++ body) true)

/-- Every transmit SA of the device. -/
def txSas (s : State) : List Sa := s.ciph.secys.flatMap fun e => e.2.tx.map (·.2)

/-- Two transmit SAs with one SAK and one SSCI: their PN ranges, which both run on to the last PN, overlap (R405). -/
def saClash (l : List Sa) : Bool :=
  match l with
  | [] => false
  | a :: t => (!a.exhausted && t.any fun b => a.sak = b.sak && a.ssci = b.ssci && !b.exhausted) || saClash t

/-! ### Calls of family 0x0A -/

/-- A Pier named in bits [12:8] and [1:0] of a word. -/
def pierName (w : Word) : Nat × Nat := (fld w 12 8, fld w 1 0)
def pierIx (w : Word) : Nat := 3 * fld w 12 8 + fld w 1 0

/-- `PON_CIPHER_CONFIG` (R399, R424). -/
def ponCipherConfig : TxnCall where
  spec := { code := 0x0A01, who := .slice0, lens := [6], used := [0xFFFFFFFF, 0x1F03, 0xFFFFFFFF, 0xFFFFFFFF, 0x803FFFFF, 0x7FFFFF] }
  objs _ i := do
    let p := fld (pw i.words 1) 1 0
    let life := (pw i.words 2).toNat
    let t := fld (pw i.words 4) 15 0
    need (p ≤ 2 && 8000 ≤ life && (p ≠ 2 || life ≤ 1073733824) && (pw i.words 3).toNat < life) .badArg
    need (1 ≤ fld (pw i.words 4) 21 16 && 100 ≤ t && t ≤ 10000 && (p = 2 || fld (pw i.words 5) 22 0 ≤ 8000000)) .badArg
    return [⟨.ponCipher, pierIx (pw i.words 1)⟩]
  apply i s :=
    let (sp, p) := pierName (pw i.words 1)
    let v := pw i.words 4
    let k := pierKeys s sp p
    .ok (setPierKeys sp p { k with life := (pw i.words 2).toNat, margin := (pw i.words 3).toNat, autoRoll := bit v 31, lead := fld v 21 16, timeout := fld v 15 0, retire := if p = 2 then k.retire else fld (pw i.words 5) 22 0 } s)

/-- The ONU named in bits [24:16] and [4:0] of a word. -/
def onuName (w : Word) : Nat × Nat := (fld w 4 0, fld w 24 16)
def onuIx (w : Word) : Nat := 512 * fld w 4 0 + fld w 24 16

/-- NOT_OWNER unless the caller acts for the ONU's owner or slice 0. -/
def needOnu (s : State) (ch : Nat) (w : Word) : Res Unit := needOwner s ch (onuOwner s (onuName w).1 (onuName w).2)

/-- `PON_MSK_SET` (R402). -/
def ponMskSet : TxnCall where
  spec := { code := 0x0A02, who := .bound, intro := 0x0201, lens := [6], used := [0xFFFFFFFF, 0x01FF001F, 0xFFFFFFFF, 0xFFFFFFFF, 0xFFFFFFFF, 0xFFFFFFFF] }
  objs s i := do
    needOnu s i.chan (pw i.words 1)
    return [⟨.ponMsk, onuIx (pw i.words 1)⟩]
  apply i s := do
    let (sp, o) := onuName (pw i.words 1)
    let x := onuOf s sp o
    need (pierOfOnu s sp o ≠ some 2) .badArg
    need (x.st = .active) .badState
    let msk := wide i.words 2 4
    let derived (label : Nat) : Nat := ponDerive label msk (toLe 8 x.serial.toNat) (Config.ponTag sp x.pier)
    return mirrorMsk sp o (modOnuKeys sp o (fun k => { k with msk := some msk, ik := derived 1, kek := derived 2 }) s)

/-- `PON_KEY_ROLL` (R395, R424). -/
def ponKeyRoll (ch : Nat) (ws : List Word) (s : State) : Res (State × List Word) := do
  let (sp, o) := onuName (pw ws 0)
  needOnu s ch (pw ws 0)
  need ((onuOf s sp o).st = .active && !(onuKeys s sp o).exchange) .badState
  return (askKey sp o s, [])

/-- `PON_KEY_STATUS` (R424). -/
def ponKeyStatus (ch : Nat) (ws : List Word) (s : State) : Res (List Word) := do
  let (sp, o) := onuName (pw ws 0)
  needOnu s ch (pw ws 0)
  let k := onuKeys s sp o
  let a := ixIn k.s1 k.s2 .active
  let n := ixIn k.s1 k.s2 .next
  let sfc := if n = 0 then 0 else match (k.slot n).at_ with | some f => sfcOf (onuOf s sp o).pier f | none => 0
  return [putb (hasDefect s sp o 8) 31 ||| putb k.exchange 30 ||| wd (n * 16 + a), wd (if a = 0 then 0 else (k.slot a).age (frameNo s))] ++ toWords 2 sfc

/-- `PON_BCAST_KEY_SET` (R401, R424): the slot stays held until its switch frame (R40), which on a mirrored
Span waits for the mate's acknowledgement (R397, R418). -/
def ponBcastKeySet : TxnCall where
  spec := { code := 0x0A05, who := .slice0, lens := [6], used := [0xFFFFFFFF, 0x31F03, 0xFFFFFFFF, 0xFFFFFFFF, 0xFFFFFFFF, 0xFFFFFFFF] }
  objs _ i := do
    let ix := fld (pw i.words 1) 17 16
    need ((ix = 1 || ix = 2) && fld (pw i.words 1) 1 0 ≤ 1) .badArg
    return [⟨.bcastKey, 4 * pierIx (pw i.words 1) + ix⟩]
  apply i s := do
    let (sp, p) := pierName (pw i.words 1)
    let ix := fld (pw i.words 1) 17 16
    let k := pierKeys s sp p
    need ((k.slot ix).st ≠ .active) .badState
    let slot := nextSlot s sp (wide i.words 2 4)
    let s := addLater ⟨.bcastKey, 4 * (3 * sp + p) + ix⟩ (setPierKeys sp p (k.put ix slot) s)
    return if mirrorsKeys s sp then mirrorKey sp none p ix slot s else fixBcast sp p ix s

/-- `MACSEC_PORT_CONFIG` (R404, R424). -/
def macsecPortConfig : TxnCall where
  spec := { code := 0x0A10, who := .slice0, lens := [9], used := [0xFFFFFFFF, 0x1F0007, 0x7FFFFFFF, 0xFFFFFFFF, 0xFFFFFFFF, 0xFFFFFFFF, 0xFFFFFFFF, 0xFFFFFFFF, 0xFFFFFFFF] }
  objs _ i := do
    need (fld (pw i.words 1) 20 16 ≤ 15 && fld (pw i.words 2) 30 0 ≤ 2 ^ 30) .badArg
    return [⟨.macsecPort, fld (pw i.words 1) 20 16⟩]
  apply i s :=
    let w := pw i.words 1
    let n := fld w 20 16
    let a := pw i.words 5
    let b := pw i.words 6
    .ok (setSecy n { secyOf s n with replay := bit w 2, includeSci := bit w 1, enable := bit w 0, window := fld (pw i.words 2) 30 0, sci := wide i.words 3 2, bypass := [fld a 15 0, fld a 31 16, fld b 15 0, fld b 31 16], pnAlarm := wide i.words 7 2 } s)

/-- The SA that a word names: port, whether receive, SC, AN. -/
def saName (w : Word) : Nat × Bool × Nat × Nat := (fld w 20 16, bit w 8, fld w 5 4, fld w 1 0)

/-- The fields of an SA's name are in range (R424). -/
def saOk (w : Word) : Bool := fld w 20 16 ≤ 15 && (bit w 8 || fld w 5 4 = 0)

/-- The object of an SA. -/
def saObj (w : Word) : Obj := ⟨.macsecSa, 32 * fld w 20 16 + 16 * fld w 8 8 + 4 * fld w 5 4 + fld w 1 0⟩

/-- The SA of a name. -/
def findSa (y : SecY) (rx : Bool) (sc an : Nat) : Option Sa := if rx then (kget y.rx sc).bind fun c => kget c.sas an else kget y.tx an

/-- A SecY with an SA written or removed. -/
def putSa (y : SecY) (rx : Bool) (sc an : Nat) (a : Option Sa) : SecY :=
  let f (m : KMap Sa) : KMap Sa := match a with | some a => kset m an a | none => kerase m an
  if rx then match kget y.rx sc with | some c => { y with rx := kset y.rx sc { c with sas := f c.sas } } | none => y
  else { y with tx := f y.tx }

/-- `MACSEC_SA_SET` (R405, R424). -/
def macsecSaSet : TxnCall where
  spec := { code := 0x0A11, who := .slice0, lens := [2, 14], used := [0xFFFFFFFF, 0x801F0133] ++ List.replicate 12 0xFFFFFFFF }
  objs _ i := do
    need (saOk (pw i.words 1) && (if bit (pw i.words 1) 31 then i.words.length = 2 else i.words.length = 14)) .badArg
    return [saObj (pw i.words 1)]
  apply i s := do
    let w := pw i.words 1
    let (n, rx, sc, an) := saName w
    let y := secyOf s n
    if bit w 31 then
      need (findSa y rx sc an).isSome .badState
      need (rx || y.txAn ≠ some an) .badState
      return setSecy n (putSa y rx sc an none) s
    else
      need (!rx || (kget y.rx sc).isSome) .badArg
      return setSecy n (putSa y rx sc an (some { sak := wide i.words 2 8, salt := wide i.words 10 3, ssci := (pw i.words 13).toNat })) s

/-- `MACSEC_RX_SC_SET` (R404, R424). -/
def macsecRxScSet : TxnCall where
  spec := { code := 0x0A12, who := .slice0, lens := [2, 4], used := [0xFFFFFFFF, 0x801F0030, 0xFFFFFFFF, 0xFFFFFFFF] }
  objs _ i := do
    let w := pw i.words 1
    need (fld w 20 16 ≤ 15 && (bit w 31 || i.words.length = 4)) .badArg
    return [⟨.macsecSc, 4 * fld w 20 16 + fld w 5 4⟩]
  apply i s := do
    let w := pw i.words 1
    let n := fld w 20 16
    let sc := fld w 5 4
    let y := secyOf s n
    if bit w 31 then
      need (kget y.rx sc).isSome .badState
      return setSecy n { y with rx := kerase y.rx sc } s
    else
      let c := kgetD y.rx sc { sci := 0 }
      return setSecy n { y with rx := kset y.rx sc { c with sci := wide i.words 2 2 } } s

/-- `MACSEC_SA_PN` (R405). -/
def macsecSaPn : TxnCall where
  spec := { code := 0x0A13, who := .slice0, lens := [4], used := [0xFFFFFFFF, 0x1F0133, 0xFFFFFFFF, 0xFFFFFFFF] }
  objs _ i := do
    need (saOk (pw i.words 1) && 1 ≤ wide i.words 2 2) .badArg
    return [saObj (pw i.words 1)]
  apply i s := do
    let (n, rx, sc, an) := saName (pw i.words 1)
    let y := secyOf s n
    match findSa y rx sc an with
    | none => .error .badState
    | some a => do
      need (rx || !a.used) .badState
      return setSecy n (putSa y rx sc an (some { a with pn := wide i.words 2 2, pn0 := wide i.words 2 2 })) s

/-- `MACSEC_TX_NEXT` (R407). -/
def macsecTxNext : TxnCall where
  spec := { code := 0x0A14, who := .slice0, lens := [2], used := [0xFFFFFFFF, 0x1F0103] }
  objs _ i := do
    need (fld (pw i.words 1) 20 16 ≤ 15) .badArg
    return [⟨.macsecTx, fld (pw i.words 1) 20 16⟩]
  apply i s := do
    let w := pw i.words 1
    let n := fld w 20 16
    let an := fld w 1 0
    let y := secyOf s n
    match kget y.tx an with
    | none => .error .badState
    | some a => do
      need (!a.exhausted) .keyLimit
      return setSecy n (if bit w 8 then { y with txAn := some an } else { y with nextAn := some an }) s

/-- `MACSEC_SA_READ` (R424). -/
def macsecSaRead (ws : List Word) (s : State) : Res (List Word) :=
  let w := pw ws 0
  if !saOk w then .error .badArg
  else
    let (n, rx, sc, an) := saName w
    let y := secyOf s n
    match findSa y rx sc an with
    | none => .ok [0, 0, 0]
    | some a => .ok ([putb true 31 ||| putb (if rx then a.used else y.txAn = some an) 30 ||| putb (!rx && a.exhausted) 29 ||| putb (!rx && y.nextAn = some an) 28] ++ toWords 2 (min a.pn (2 ^ 64 - 1)))

/-- `XTS_STATUS` (R413, R424). -/
def xtsStatus (ch : Nat) (ws : List Word) (s : State) : Res (List Word) := do
  let k := fld (pw ws 0) 19 16
  needOwner s ch k
  return [putb (kget s.ciph.xts k).isSome 31 ||| wd (kgetD s.ciph.xtsGen k 0 % 65536)]

/-- `PAIR_KEY_CONFIG` (R417, R424). -/
def pairKeyConfig : TxnCall where
  spec := { code := 0x0A30, who := .slice0, intro := 0x0300, lens := [14], used := List.replicate 13 0xFFFFFFFF ++ [0x3FF] }
  objs _ i := do
    need (1 ≤ fld (pw i.words 13) 9 0 && fld (pw i.words 13) 9 0 ≤ 720) .badArg
    return [⟨.pairKey, 0⟩]
  apply i s := .ok (setPairKey { s.ciph.pair with hash := bytesOfWords ((i.words.drop 1).take 12), rekey := fld (pw i.words 13) 9 0 } s)

/-- A pair-key state's code. -/
def PairKeySt.code : PairKeySt → Nat
  | .none => 0 | .establishing => 1 | .established => 2 | .failed => 3

/-- `PAIR_KEY_STATUS` (R424). -/
def pairKeyStatus (s : State) : List Word :=
  let k := s.ciph.pair
  [wd k.st.code, wd (if k.st = .established then (nowNs s - k.since / 2 ^ 40) / 1000000000 else 0), wd k.fails]

/-- `ENTROPY_STATUS` (R424). -/
def entropyStatus (s : State) : List Word := [putb s.ciph.healthy 31 ||| wd s.ciph.failures, wd s.ciph.reseeds]

end Sys2Proof.Machine
end

