-- ==== Sys2Proof/Machine/Rings.lean ====
section
/-! DEFINITION. The DMA rings of the functions (R91 to R97): starting and stopping, delivery to the host, the host's descriptors. -/

namespace Sys2Proof.Machine

/-- A ring's record. -/
def ringOf (s : State) (fn r : Nat) : Ring := kgetD (funcOf s fn).rings r {}
def setRing (fn r : Nat) (x : Ring) (s : State) : State := let f := funcOf s fn; setFunc fn { f with rings := kset f.rings r x } s

/-- Descriptors of a ring (R92). -/
def Ring.size (x : Ring) : Nat := 2 ^ x.log2

/-- The start of a ring: both indices 0 (R93). -/
def Ring.start (x : Ring) : Ring := { x with cons := 0, prod := 0, enable := true, active := true, restart := false, uncounted := 0 }

/-- A write of 1 to ENABLE (R92, R93): a start, or a restart that waits until ACTIVE has reached 0. -/
def ringEnable (fn r : Nat) (w : Word) (s : State) : State :=
  let x := { ringOf s fn r with coalesce := fld w 23 16, irqEn := bit w 8 }
  setRing fn r (if !x.active then x.start else if x.enable then x else { x with restart := true }) s

/-- A write of 0 to ENABLE: the ring stops after the descriptor in progress (R93). -/
def ringDisable (fn r : Nat) (w : Word) (s : State) : State :=
  setRing fn r { ringOf s fn r with coalesce := fld w 23 16, irqEn := bit w 8, enable := false, restart := false } s

/-- The descriptor in progress is complete on a disabled ring: ACTIVE reaches 0, and a waiting restart acts. -/
def ringStopped (fn r : Nat) (s : State) : State :=
  let x := ringOf s fn r
  if x.active && !x.enable then setRing fn r (if x.restart then x.start else { x with active := false }) s else s

/-- Counts a completion toward the ring's interrupt (R92). -/
def completed (fn r : Nat) (s : State) : State :=
  let x := ringOf s fn r
  if !x.irqEn then s
  else if max 1 x.coalesce ≤ x.uncounted + 1 then msix fn (2 + r) (setRing fn r { x with uncounted := 0 } s)
  else setRing fn r { x with uncounted := x.uncounted + 1 } s

/-- 50 µs after the first uncounted completion (R92). -/
def ringTimeout (fn r : Nat) (s : State) : State :=
  let x := ringOf s fn r
  if x.irqEn && x.uncounted ≠ 0 then msix fn (2 + r) (setRing fn r { x with uncounted := 0 } s) else s

/-- A PCIe completion error stops a ring with ACTIVE = 0; ENABLE keeps what was last written, and a waiting restart acts (R92, R93). -/
def ringFault (fn r : Nat) (s : State) : State :=
  let x := { ringOf s fn r with faulted := true, active := false }
  setRing fn r (if x.restart then x.start else x) s

/-- The device delivers bytes on a ring to the host, with the fields of descriptor word 3 and the instant of arrival (R94, R96): the
host's words of the descriptor are what the function's memory holds (assumption 4). A write that a PCIe link-down keeps from completing
is a fault of the ring (R470). -/
def deliver (fn r : Nat) (w3 : Word) (arrived : Nat) (bytes : List Byte) (s : State) : State :=
  let x := ringOf s fn r
  if !x.active || !x.enable || (x.prod + 1) % x.size = x.cons then setRing fn r { x with drops := min 0xFFFF (x.drops + 1) } s
  else if s.lane.pcie.down then ringFault fn r s
  else
    let at_ := x.baseHi.toNat * 2 ^ 32 + x.baseLo.toNat + 32 * x.prod
    let w (i : Nat) : Word := Config.hostWord fn (at_ + 4 * i) s.free
    let room := fld (w 2) 15 0
    let cut := room < bytes.length
    let sent := bytes.take room
    let s := drawn s
    let s := emit (.ringDone fn r x.prod [w3, w 4, wd (arrived / 2 ^ 40), putb true 31 ||| putb cut 30 ||| wd sent.length] sent)
      (emit (.dma fn ((w 1).toNat * 2 ^ 32 + (w 0).toNat) sent) s)
    completed fn r (setRing fn r { x with prod := (x.prod + 1) % x.size, trunc := x.trunc || cut } s)

/-- A descriptor of a host-to-device ring completes with a result (R94, R95, R470). -/
def completeTx (fn r result : Nat) (desc : List Word) (s : State) : State :=
  let x := ringOf s fn r
  if s.lane.pcie.down then ringFault fn r s
  else
  let s := emit (.ringDone fn r x.cons [pw desc 3, pw desc 4, pw desc 5, putb true 31 ||| wd result] []) s
  completed fn r (setRing fn r { x with cons := (x.cons + 1) % x.size, ownerDrop := x.ownerDrop || result = 1 } s)

/-- Whether a host-to-device ring has a descriptor to take. -/
def Ring.hasWork (x : Ring) : Bool := x.active && x.enable && x.cons ≠ x.prod

/-- OMCI_TX_DESCRIPTOR (R95). -/
def omciTx (fn : Nat) (desc : List Word) (buf : List Byte) (s : State) : State :=
  let w := pw desc 3
  let sp := fld w 4 0
  let o := fld w 24 16
  let len := fld (pw desc 2) 15 0
  if !(ringOf s fn 0).hasWork then s
  else if sliceOf s fn ≠ some (onuOwner s sp o) then completeTx fn 0 1 desc s
  else if !(len = 48 || (14 ≤ len && len ≤ 1980)) then completeTx fn 0 3 desc s
  else if (onuOf s sp o).st ≠ .active then completeTx fn 0 2 desc s
  else completeTx fn 0 0 desc (emit (.omci sp o (buf.take len)) s)

/-- PUNT_TX_DESCRIPTOR (R95). -/
def puntTx (fn : Nat) (desc : List Word) (buf : List Byte) (s : State) : State :=
  let q := fld (pw desc 4) 19 0
  let len := fld (pw desc 2) 15 0
  if !(ringOf s fn 3).hasWork then s
  else if sliceOf s fn ≠ some (queueOwner s q) then completeTx fn 3 1 desc s
  else if len < 14 || 10240 < len then completeTx fn 3 3 desc s
  else completeTx fn 3 0 desc (stage q (buf.take len) false false none true s)

/-- The function that a slice's messages and punts go to: the lowest one bound to it (R95, R333; assumption 20). -/
def puntFn (s : State) (slice : Nat) : Option Nat := (boundTo s slice).head?

end Sys2Proof.Machine
end

