-- ==== Sys2Proof/Machine/Frames.lean ====
section
/-! DEFINITION. Ethernet frames as the pipelines and ports read them: tags, IP headers, traps, tag and TTL rewriting (R306, R308,
R311, R312, R333), and PTP event messages (R218). Field places inside IP, UDP and PTP headers are those of their standards
(assumption 17). Frames run from the destination address to the last byte before the FCS. -/

namespace Sys2Proof.Machine

/-- A frame as parsed (R306, R308): VLAN ID and PCP of the outer tag, the inner VLAN ID, the EtherType after the tags and the
place after it. -/
structure Parsed where
  outer : Option (Nat × Nat)
  inner : Option Nat
  etype : Nat
  off : Nat
  deriving DecidableEq, Repr

/-- The TPIDs that the distributor takes for an outer tag (R306). -/
def outerTpid (t : Nat) : Bool := t = 0x8100 || t = 0x88A8 || t = 0x9100

/-- Parses a frame's tags. -/
def parse (f : List Byte) : Parsed :=
  let t0 := beAt f 12 2
  if outerTpid t0 then
    let tci := beAt f 14 2
    let out := (tci % 4096, tci / 8192)
    if beAt f 16 2 = 0x8100 then ⟨some out, some (beAt f 18 2 % 4096), beAt f 20 2, 22⟩
    else ⟨some out, none, beAt f 16 2, 18⟩
  else ⟨none, none, t0, 14⟩

/-- An IP header that starts within the first 64 bytes (R308): version 6 or not, its place, its protocol, DSCP, TTL or hop limit,
destination, and the place of what follows it. -/
structure IpHead where
  v6 : Bool
  at_ : Nat
  proto : Nat
  dscp : Nat
  ttl : Nat
  dst : Nat
  next : Nat
  first : Bool
  deriving DecidableEq, Repr

/-- The IP header of a frame. -/
def ipHead (f : List Byte) : Option IpHead :=
  let p := parse f
  let o := p.off
  if 64 ≤ o then none
  else if p.etype = 0x0800 && beAt f o 1 / 16 = 4 && o + 20 ≤ f.length then
    some ⟨false, o, beAt f (o + 9) 1, beAt f (o + 1) 1 / 4, beAt f (o + 8) 1, beAt f (o + 16) 4, o + 4 * (beAt f o 1 % 16), beAt f (o + 6) 2 % 8192 = 0⟩
  else if p.etype = 0x86DD && beAt f o 1 / 16 = 6 && o + 40 ≤ f.length then
    some ⟨true, o, beAt f (o + 6) 1, beAt f o 2 / 64 % 64, beAt f (o + 7) 1, beAt f (o + 24) 16, o + 40, true⟩
  else none

/-- Whether a frame is UDP with one of some ports as source or destination. -/
def udpOf (f : List Byte) (h : IpHead) (ports : List Nat) : Bool :=
  h.proto = 17 && h.first && (ports.contains (beAt f h.next 2) || ports.contains (beAt f (h.next + 2) 2))

/-- The destination and source addresses of a frame. -/
def dstMac (f : List Byte) : Nat := beAt f 0 6
def srcMac (f : List Byte) : Nat := beAt f 6 6

/-- A group address: the first bit on the line is 1. -/
def groupMac (m : Nat) : Bool := m / 2 ^ 40 % 2 = 1

/-- Whether a frame is of a trap reason (R333). -/
def isReason (f : List Byte) (r : Nat) : Bool :=
  let p := parse f
  let icmp6 (l : List Nat) : Bool := match ipHead f with | some h => h.v6 && h.proto = 58 && l.contains (beAt f h.next 1) | none => false
  match r with
  | 2 => p.etype = 0x0806 || icmp6 [133, 134, 135, 136, 137]
  | 3 => match ipHead f with | some h => if h.v6 then udpOf f h [546, 547] else udpOf f h [67, 68] | none => false
  | 4 => icmp6 [130, 131, 132, 143] || match ipHead f with | some h => !h.v6 && h.proto = 2 | none => false
  | 5 => p.etype = 0x8863
  | 6 => p.etype = 0x888E
  | 12 => dstMac f / 16 = 0x0180C200000
  | _ => false

/-- The PTP header of a PTP event message (R218): its place and, over UDP, its IP header. -/
def ptpHead (f : List Byte) : Option (Nat × Option IpHead) :=
  let p := parse f
  if p.etype = 0x88F7 then some (p.off, none)
  else match ipHead f with
    | some h => if h.proto = 17 && h.first && beAt f (h.next + 2) 2 = 319 then some (h.next + 8, some h) else none
    | none => none

/-- Bytes of a frame replaced from a place on. -/
def splice (f : List Byte) (at_ : Nat) (bs : List Byte) : List Byte := f.take at_ ++ bs ++ f.drop (at_ + bs.length)

/-- The ones' complement sum of 16-bit words. -/
def onesSum (bs : List Byte) (acc : Nat) : Nat :=
  match bs with
  | [] => acc
  | [a] => acc + 256 * a.toNat
  | a :: b :: t => onesSum t (acc + 256 * a.toNat + b.toNat)

/-- An Internet checksum. -/
def inetSum (bs : List Byte) : Nat :=
  let s := onesSum bs 0
  let s := s % 65536 + s / 65536
  let s := s % 65536 + s / 65536
  65535 - s

/-- A TTL or hop limit one less; the spec states no result for 0 (R311, R334; assumption 143). -/
def ttlLess (n : Nat) : Nat := if n = 0 then Config.ttlOfZero.toNat else n - 1

/-- L3 rewriting: TTL or hop limit one less, the IPv4 header checksum recomputed (R311). -/
def lowerTtl (f : List Byte) (h : IpHead) : List Byte :=
  if h.v6 then splice f (h.at_ + 7) (toBe 1 (ttlLess h.ttl))
  else
    let g := splice (splice f (h.at_ + 8) (toBe 1 (ttlLess h.ttl))) (h.at_ + 10) [0, 0]
    splice g (h.at_ + 10) (toBe 2 (inetSum (sub g h.at_ (h.next - h.at_))))

/-- A tag pushed in front of a frame's own (R312). -/
def pushTag (f : List Byte) (tpid pcp dei vid : Nat) : List Byte := f.take 12 ++ toBe 2 tpid ++ toBe 2 (pcp * 8192 + dei * 4096 + vid) ++ f.drop 12

/-- TAG_OP downstream (R312): tags that the frame does not carry are not removed. -/
def tagOp (f : List Byte) (op : Nat) : List Byte :=
  let p := parse f
  match op with
  | 1 => if p.outer.isSome then f.take 12 ++ f.drop 16 else f
  | 2 => if p.inner.isSome then f.take 12 ++ f.drop 20 else if p.outer.isSome then f.take 12 ++ f.drop 16 else f
  | _ => f

/-- The priority of the outer tag, none for an untagged frame. -/
def pcpOf (f : List Byte) : Option Nat := (parse f).outer.map (·.2)

/-! ### PTP (R217, R218) -/

/-- The device's stamp of an instant in ps: ns and a fraction of 2^-16 ns, to the nearest unit (R214). -/
def stampOf (ps : Rat) : Nat × Nat :=
  let units := (roundUpHalf (ps * 65536 / 1000)).toNat
  (units / 65536, units % 65536)

/-- The instant of a symbol on a lane: the sub-tick phase is the world's (R214, R217; assumption 3). -/
def symbolPs (s : State) : Rat := eventPs s (Config.freeNat s.free % 64)

/-- The trailer of a punted PTP event message (R218). -/
def ptpTrailer (at_ : Rat) (port : Nat) : List Byte :=
  let (ns, fr) := stampOf at_
  toLe 6 (ns / 1000000000) ++ toLe 4 (ns % 1000000000) ++ toLe 2 fr ++ toLe 1 port ++ [0, 0, 0]

/-- The PTP mode of a port: 0 OFF, 1 TWO_STEP, 2 ONE_STEP. -/
def ptpMode (s : State) (port : Nat) : Nat := kgetD s.time.ptpMode port 0

/-- A Sync message with its own transmit stamp (R218). -/
def oneStep (f : List Byte) (o : Nat) (ip : Option IpHead) (at_ : Rat) : List Byte :=
  let (ns, fr) := stampOf at_
  let g := splice f (o + 34) (toBe 6 (ns / 1000000000) ++ toBe 4 (ns % 1000000000))
  let g := splice g (o + 8) (toBe 8 ((beAt g (o + 8) 8 + fr) % 2 ^ 64))
  match ip with
  | none => g
  | some h =>
    if beAt g (h.next + 6) 2 = 0 then g
    else
      let z := splice g (h.next + 6) [0, 0]
      let len := beAt g (h.next + 4) 2
      let addrs := if h.v6 then sub g (h.at_ + 8) 32 else sub g (h.at_ + 12) 8
      let c := inetSum (addrs ++ toBe 2 17 ++ toBe 2 len ++ sub z h.next len)
      splice z (h.next + 6) (toBe 2 (if c = 0 then 65535 else c))

/-- A transmit stamp joins a port's store of 64, replacing the oldest of a full one (R218). -/
def storeStamp (port key stamp : Nat) (s : State) : State :=
  let l := kgetD s.time.ptpStamps port []
  let full := 64 ≤ l.length
  let l := (if full then l.drop 1 else l) ++ [(key, stamp)]
  let s := setTime { s.time with ptpStamps := kset s.time.ptpStamps port l } s
  if full then raise 648 [] [wd port] (cnt (cPtp port) 1 s) else s

/-- A frame leaves on a port: the PTP stamp of an event message (R218, R412). `clear` says that it goes unprotected. -/
def ptpSend (port : Nat) (f : List Byte) (injected clear : Bool) (s : State) : State × List Byte :=
  if ptpMode s port = 0 then (s, f)
  else match ptpHead f with
    | none => (s, f)
    | some (o, ip) =>
      let ty := beAt f o 1 % 16
      if ptpMode s port = 2 && ty = 0 && injected && clear then (drawn s, oneStep f o ip (symbolPs s))
      else
        let (ns, fr) := stampOf (symbolPs s)
        (storeStamp port (ty * 2 ^ 24 + beAt f (o + 4) 1 * 2 ^ 16 + beAt f (o + 30) 2) (ns * 65536 + fr) (drawn s), f)

end Sys2Proof.Machine
end

