-- ==== Sys2Proof/Machine/Tdm.lean ====
section
/-! DEFINITION. The TDM block (chapter 15): framing, pointers, traces, error windows, linear MSP, the time-slot interchange and
circuit emulation. -/

namespace Sys2Proof.Machine

/-- Whether the TDM block runs (R475). -/
def tdmOn (s : State) : Bool := domOn s domTd && (portOf s 22).mode = 10 && (laneOf s 22).st = .on

/-- Whether a port's link is up: port 22 in MODE 10 is the TDM block's, up while TD is ON, and port 23 then has none (R461, R477). -/
def portUp (s : State) (port : Nat) : Bool :=
  if (portOf s port).mode = 10 then port = 22 && domOn s domTd else (portOf s port).link

/-- Whether a lane of the block takes part (R475). -/
def sdhRuns (s : State) (l : Nat) : Bool :=
  tdmOn s && (l = 0 || ((portOf s 23).mode = 10 && (laneOf s 23).st = .on && s.tdm.msp.arch ≠ 0))

/-! ### Defect bits (R484, R503) -/

/-- A lane's LOS as the detectors give it. -/
def sdhLos (s : State) (l : Nat) : Bool := let x := laneOf s (22 + l); x.los || x.rxLol

/-- The bits of a list of conditions, bit 0 first. -/
def bitsOf (l : List Bool) : Nat :=
  match l with
  | [] => 0
  | b :: t => (if b then 1 else 0) + 2 * bitsOf t

/-- A lane's defects. -/
def laneDefects (s : State) (l : Nat) : Nat :=
  let x := sdhOf s l
  bitsOf [sdhLos s l, x.oof, x.lof, x.j0.tim, x.msAis.set, x.msRdi.set, x.exc, x.deg]

/-- An AU-4's record on a lane, a position's record on a lane. -/
def auOf (s : State) (l a : Nat) : Au := kgetD (sdhOf s l).aus a {}
def tuOf (s : State) (l p : Nat) : Tu := kgetD (sdhOf s l).tus p {}

/-- An AU-4's defects. -/
def auDefects (x : Au) : Nat := bitsOf [x.ptr.st = 1, x.ptr.st = 2, x.j1.tim, x.uneq.set, x.plm.set, x.rdi.set, x.lom.set]

/-- A position's defects; TU-LOM of its VC-4 makes it TU-AIS (R481). -/
def tuDefects (s : State) (l p : Nat) : Nat :=
  let x := tuOf s l p
  bitsOf [x.ptr.st = 1 || (auOf s l (p / 63)).lom.set, x.ptr.st = 2, x.j2.tim, x.uneq.set, x.plm.set, x.rdi.set, x.exc, x.deg]

/-- Signal fail and signal degrade of a lane's multiplex section (R484). -/
def msFail (s : State) (l : Nat) : Bool := let x := sdhOf s l; sdhLos s l || x.lof || x.msAis.set || x.exc
def msDegrade (s : State) (l : Nat) : Bool := (sdhOf s l).deg

/-- Whether a position's E1 is replaced with all ones: AIS downstream of the section, the path or the tributary (R484). OOF acts as LOS
does, but on MSP (assumption 148). -/
def aisDownstream (s : State) (l p : Nat) : Bool :=
  let c := s.tdm.cfg
  let x := sdhOf s l
  let a := auOf s l (p / 63)
  let t := tuOf s l p
  sdhLos s l || x.oof || x.lof || x.msAis.set || (c.aisRs && x.j0.tim) || (c.excAis && x.exc) ||
  a.ptr.st ≠ 0 || (c.aisHp && a.j1.tim) || a.uneq.set || a.plm.set ||
  t.ptr.st ≠ 0 || a.lom.set || (c.aisLp && t.j2.tim) || t.uneq.set || t.plm.set || t.exc

/-! ### Counted conditions, pointers, traces -/

/-- A condition seen or not seen in one frame: set after `n` frames with it, cleared after `n` without (R484). -/
def Cond.see (c : Cond) (n : Nat) (here : Bool) : Cond :=
  if here then { on := min n (c.on + 1), off := 0, set := c.set || n ≤ c.on + 1 }
  else { on := 0, off := min n (c.off + 1), set := c.set && c.off + 1 < n }

/-- The number of ones in a pattern of `n` bits. -/
def ones (n v : Nat) : Nat := ((List.range n).filter fun i => v.testBit i).length

/-- Whether two patterns differ in at most one bit. -/
def within1 (n a b : Nat) : Bool := ones n (a ^^^ b) ≤ 1

/-- What a pointer read did: whether it justified, up or down. -/
structure PtrRead where
  ptr : PtrInt
  inc : Bool
  dec : Bool
  deriving DecidableEq, Repr

/-- Every second bit of the ten-bit pointer value: the I bits from 9 down, the D bits from 8 down. -/
def iBits (v : Nat) : Nat := bitsOf ((List.range 5).map fun i => v.testBit (2 * i + 1))
def dBits (v : Nat) : Nat := bitsOf ((List.range 5).map fun i => v.testBit (2 * i))

/-- One read of a pointer word: NDF in bits [15:12], offset in [9:0]; `top` the greatest valid offset (R480). A read in which both majorities
are inverted is neither an increment nor a decrement (assumption 163). -/
def PtrInt.read (p : PtrInt) (w top : Nat) : PtrRead :=
  let ndf := nfld w 15 12
  let off := nfld w 9 0
  let normal := within1 4 ndf 6
  let enabled := within1 4 ndf 9
  let all := w % 65536 = 0xFFFF
  let valid := off ≤ top && (normal || enabled)
  let since := min 3 (p.since + 1)
  let same := normal && off = p.offset
  let may := p.st = 0 && normal && !same && 3 ≤ since
  let inc := may && 3 ≤ ones 5 (iBits off ^^^ iBits p.offset) && ones 5 (dBits off ^^^ dBits p.offset) ≤ 2
  let dec := may && !inc && 3 ≤ ones 5 (dBits off ^^^ dBits p.offset) && ones 5 (iBits off ^^^ iBits p.offset) ≤ 2
  let bad := if valid || inc || dec then 0 else p.badRun + 1
  let ndfs := if valid && enabled then p.ndfRun + 1 else 0
  let one := if all then p.onesRun + 1 else 0
  let cand := if valid && normal && !same && !inc && !dec then (if off = p.cand then p.candRun + 1 else 1) else 0
  let ok := if valid && normal && !inc && !dec then p.okRun + 1 else 0
  let base : PtrInt := { p with cand := off, candRun := cand, badRun := min 8 bad, ndfRun := min 8 ndfs, onesRun := min 3 one, okRun := min 3 ok, since := since }
  if all then
    ⟨if 3 ≤ one then { base with st := 1, since := 3 } else { base with st := if p.st = 1 then 1 else if 8 ≤ bad then 2 else p.st }, false, false⟩
  else if valid && enabled then
    ⟨if 8 ≤ ndfs then { base with st := 2 } else { base with st := 0, offset := off, since := 0 }, false, false⟩
  else if p.st ≠ 0 then
    ⟨if 3 ≤ ok then { base with st := 0, offset := off, since := 0 } else if p.st = 1 && 8 ≤ bad then { base with st := 2 } else base, false, false⟩
  else if inc then ⟨{ base with offset := (p.offset + 1) % (top + 1), since := 0 }, true, false⟩
  else if dec then ⟨{ base with offset := (p.offset + top) % (top + 1), since := 0 }, false, true⟩
  else if 3 ≤ cand then ⟨{ base with offset := off, since := 0 }, false, false⟩
  else if 8 ≤ bad then ⟨{ base with st := 2 }, false, false⟩
  else ⟨base, false, false⟩

/-- One bit of the CRC-7 of 16-byte traces, x^7 + x^3 + 1 (assumption 12). -/
def crc7Bit (c : Nat) (b : Bool) : Nat :=
  let x := (c * 2) % 128
  if (c.testBit 6) != b then x ^^^ 9 else x

/-- CRC-7 overrun bytes, most significant bit first. -/
def crc7 (bs : List Byte) : Nat :=
  bs.foldl (fun c b => (List.range 8).foldl (fun c i => crc7Bit c (b.toNat.testBit (7 - i))) c) 0

/-- The bytes that are compared: 1 to 15 of a 16-byte trace, all of a 64-byte one (R482, R503). -/
def traceBody (t : List Byte) : List Byte := if t.length = 16 then t.drop 1 else t

/-- What a received trace of a length is compared with (R482, R503). -/
def Trace.want (t : Trace) (v : List Byte) : List Byte := if v.length = 16 then sub t.expected 1 15 else t.expected

/-- Whether a trace that is compared differs (R482). -/
def Trace.differs (t : Trace) (v : List Byte) : Bool := t.check && traceBody v ≠ t.want v

/-- A whole trace arrived (R482). -/
def Trace.whole (t : Trace) (v : List Byte) : Trace :=
  let run := if v = t.last then min 3 (t.run + 1) else 1
  let acc := if 3 ≤ run then v else t.accepted
  { t with part := [], last := v, run := run, accepted := acc, tim := if 3 ≤ run then t.differs v else t.tim }

/-- A trace of another length from now on: what was gathered and accepted under the old one is gone (R482). -/
def Trace.afresh (t : Trace) : Trace := { t with part := [], last := [], run := 0, accepted := [] }

/-- Whether gathered bytes end in CR LF. -/
def endsCrLf (p : List Byte) : Bool := p.getLast? = some 0x0A && p.dropLast.getLast? = some 0x0D

/-- Whether a gathered trace ends here: 16 bytes, or 64 bytes ending in CR LF; where the gathering began at the LF, that byte is left out
(assumption 12). -/
def Trace.byte (t : Trace) (long : Bool) (b : Byte) : Trace × Bool :=
  if long then
    let p := t.part ++ [b]
    if p.length = 64 && p.head? = some 0x0A && b = 0x0D then ({ t with part := p.drop 1 }, false)
    else if p.length = 64 then (t.whole p, false)
    else ({ t with part := if endsCrLf p then [] else p }, false)
  else
    let p := if b.toNat.testBit 7 then [b] else t.part ++ [b]
    if p.length = 16 then
      if crc7 ((0x80 : Byte) :: p.drop 1) = (p.headD 0).toNat % 128 then (t.whole p, false) else ({ t with part := [] }, true)
    else ({ t with part := p.take 16 }, false)

/-- A TIM change of a trace raises source 806 (R501). -/
def timEvent (kind ix : Nat) (old new : Bool) (s : State) : State :=
  if old = new then s else raise 806 [] [wd (kind * 2 ^ 28 + ix)] s

/-! ### A received frame (R478 to R484) -/

/-- The framer's step over a frame's time of descrambled bits, by the places where the pattern stands in it (R478): a search takes the first, a
candidate is looked for at its own place and where it fails the search goes on at the bit after it; in frame the expected place is judged, and
the search that follows OOF begins after it. -/
def Sdh.align (x : Sdh) (hits : List Nat) : Sdh :=
  if x.oof then
    match x.cand with
    | none => { x with cand := hits.head? }
    | some c =>
      if hits.contains c then { x with oof := false, cand := none, pos := c, badRun := 0 }
      else { x with cand := hits.find? (c < ·) }
  else if hits.contains x.pos then { x with badRun := 0 }
  else if 3 ≤ x.badRun then { x with oof := true, cand := hits.find? (x.pos < ·), badRun := 0 }
  else { x with badRun := x.badRun + 1 }

/-- The H4 multiframe of a VC-4 (R481). -/
def Au.multiframe (a : Au) (h4 : Nat) : Au :=
  let step := h4 % 4 = (a.h4 + 1) % 4
  let run := if step then a.stepRun + 1 else 0
  let oom := if step then a.oom && run < 2 else true
  { a with h4 := h4 % 4, stepRun := min 2 run, oom := oom, lom := a.lom.see 8 oom }

/-- One AU-4 of a received frame; TU-LOM is TU-AIS of its 63 positions (R480 to R484, R501). -/
def auFrame (l a : Nat) (i : AuIn) (s : State) : State :=
  let x := auOf s l a
  let r := x.ptr.read i.ptr 782
  let t := x.j1.byte s.tdm.cfg.traceLen i.j1
  let y : Au := Au.multiframe { x with b3 := i.b3, ptr := r.ptr, j1 := t.1, uneq := x.uneq.see 5 (i.c2 = 0), plm := x.plm.see 5 (i.c2 ≠ 0 && i.c2 ≠ 2 && i.c2 ≠ 0xFE), rdi := x.rdi.see 5 (i.g1.testBit 3) } i.h4
  let z := sdhOf s l
  let s' := setSdh l { z with aus := kset z.aus a y } s
  let s' := cnt (cAu 0 a (22 + l)) i.b3 s'
  let s' := if r.inc then cnt (cAu 1 a (22 + l)) 1 s' else s'
  let s' := if r.dec then cnt (cAu 2 a (22 + l)) 1 s' else s'
  let s' := if t.2 then cnt (cLane 17 (22 + l)) 1 s' else s'
  let s' := timEvent 1 a x.j1.tim y.j1.tim s'
  let s' := if x.lom.set = y.lom.set || s.tdm.msp.selected ≠ l then s'
    else forEach ((List.range 63).map (63 * a + ·)) (fun p t => if tuDefects s l p = tuDefects t l p then t else raise 805 [] [wd (p * 2 ^ 16 + tuDefects t l p)] t) s'
  if auDefects x = auDefects y then s' else raise 804 [] [wd (a * 2 ^ 16 + auDefects y)] s'

/-! ### What the demappers take (R488, R491, R492) -/

/-- The active page's entry of a position. -/
def tsiEntry (s : State) (p : Nat) : Word := kgetD s.tdm.tsi p 0

/-- The circuits that a page's entries name with a bit set. -/
def tsiNamed (page : KMap Word) (b : Nat) : List Nat := (page.filter fun e => bit e.2 b).map fun e => fld e.2 9 0

/-- The entry in force at a position's receive demapper (R492). -/
def rxEntry (s : State) (p : Nat) : Word := (kget s.tdm.tsiOld p).getD (tsiEntry s p)

/-- The position whose E1 goes to a circuit, as the receive demappers have it (R492). -/
def rxPosition (s : State) (c : Nat) : Option Nat :=
  let names (w : Word) : Bool := bit w 31 && fld w 9 0 = c
  ((s.tdm.tsiOld ++ s.tdm.tsi.filter fun e => (kget s.tdm.tsiOld e.1).isNone).find? fun e => names e.2).map (·.1)

/-- The position that a circuit's E1 is mapped into (R491). -/
def txPosition (s : State) (c : Nat) : Option Nat := (s.tdm.tsi.find? fun e => bit e.2 30 && fld e.2 9 0 = c).map (·.1)

/-- The lane that a position's demapper takes its VC-12 from: the selected one once it has taken over (R488). -/
def laneAt (s : State) (p : Nat) : Nat := let m := s.tdm.msp; if m.hand.contains p then 1 - m.selected else m.selected

/-- A position's demapper takes over from the selected lane; up to 128 bytes of its E1, how many is the world's, are then replaced with all
ones (R488; assumption 165). -/
def laneTaken (p : Nat) (s : State) : State :=
  let m := s.tdm.msp
  let t := drawn (setMsp { m with hand := m.hand.erase p } s)
  let w := rxEntry s p
  if bit w 31 then setCircuit (fld w 9 0) { circuitOf s (fld w 9 0) with gap := Config.freeNat s.free % 129 } t else t

/-- A swap is over once every receive demapper has its new entry: the page is held no longer (R492, R501). -/
def swapDone (s : State) : State := if s.tdm.tsiOld = [] then raise 809 [] [] (releaseObj ⟨.tsi, 0⟩ s) else s

/-- The multiframe of a position on a lane begins: its demapper takes over what waits for that (R488, R492). -/
def demapperTakes (l p : Nat) (s : State) : State :=
  let s := if s.tdm.msp.selected = l && s.tdm.msp.hand.contains p then laneTaken p s else s
  if laneAt s p = l && (kget s.tdm.tsiOld p).isSome then swapDone { s with tdm := { s.tdm with tsiOld := kerase s.tdm.tsiOld p } } else s

/-- What a received multiframe of a TU-12 says; counters and events follow the selected lane (R480 to R484, R500, R501). -/
def tuRead (l : Nat) (i : TuIn) (s : State) : State :=
  let p := i.pos.val
  let x := tuOf s l p
  let r := x.ptr.read i.ptr 139
  let t := x.j2.byte false i.j2
  let lab := nfld i.v5 3 1
  let y : Tu := { x with bad := i.bip ≠ 0, ptr := r.ptr, j2 := t.1, uneq := x.uneq.see 5 (lab = 0), plm := x.plm.see 5 (lab ≠ 0 && lab ≠ 1 && lab ≠ 2), rdi := x.rdi.see 5 (i.v5.testBit 0), sfErr := x.sfErr + i.bip, sfBits := x.sfBits + 1120, sdErr := x.sdErr + i.bip, sdBits := x.sdBits + 1120 }
  let z := sdhOf s l
  let s' := setSdh l { z with tus := kset z.tus p y } s
  let s' := if t.2 then cnt (cLane 17 (22 + l)) 1 s' else s'
  let s' := timEvent 2 p x.j2.tim y.j2.tim s'
  if s.tdm.msp.selected ≠ l then s'
  else
    let s' := cnt (cPos 0 p) i.bip s'
    let s' := if r.inc || r.dec then cnt (cPos 1 p) 1 s' else s'
    if tuDefects s l p = tuDefects s' l p then s' else raise 805 [] [wd (p * 2 ^ 16 + tuDefects s' l p)] s'

/-- One TU-12 whose multiframe completes in a received frame. Out of its VC-4's H4 multiframe none is interpreted (R481); a demapper takes over
here what waits for its multiframe (R488, R492). -/
def tuFrame (l : Nat) (i : TuIn) (s : State) : State :=
  if (auOf s l (i.pos / 63)).oom then s else tuRead l i (demapperTakes l i.pos s)

/-- Without hold-off a signal fail or degrade is a request at once; its end always ends the request (R486). -/
def mspRequests (l : Nat) (s : State) : State :=
  let x := sdhOf s l
  let f := msFail s l
  let d := msDegrade s l
  let now := s.tdm.msp.holdOff = 0
  let began (stands : Bool) (at_ : Option Nat) : Option Nat := if stands then some (at_.getD (nowNs s)) else none
  setSdh l { x with sfReq := f && (x.sfReq || now), sdReq := d && (x.sdReq || now), failAt := began f x.failAt, degAt := began d x.degAt } s

/-- A change of a lane's defects raises its source (R501). -/
def laneChange (l : Nat) (before : Nat) (s : State) : State :=
  let s := mspRequests l s
  let now := laneDefects s l
  if now = before then s else raise (800 + l) [] [wd now] s

/-- The lanes that take part (R475). -/
def sdhRunning (s : State) : List Nat := [0, 1].filter (sdhRuns s)

/-- Lanes that take part from now on tell of the defects they have (R475, R501). -/
def lanesJoin (before : List Nat) (s : State) : State := forEach ((sdhRunning s).filter (!before.contains ·)) (laneChange · 0) s

/-! ### Linear MSP (R486 to R490) -/

/-- The priority of the far end's accepted request (R487; request codes of G.841, assumption 13). -/
def farPriority (k1 : Nat) : Nat :=
  let ch := k1 % 16
  match nfld k1 7 4 with
  | 15 => 1
  | 14 => 3
  | 13 => if ch = 0 then 2 else 4
  | 12 => if ch = 0 then 2 else 4
  | 11 => if ch = 0 then 9 else 5
  | 10 => if ch = 0 then 9 else 5
  | 8 => 6
  | 6 => 7
  | 1 => 8
  | _ => 9

/-- The request code sent in K1 for a priority, with its channel (assumption 13). -/
def k1For (prio : Nat) : Nat :=
  match prio with
  | 1 => 0xF0
  | 2 => 0xD0
  | 3 => 0xE1
  | 4 => 0xD1
  | 5 => 0xB1
  | 6 => 0x81
  | 7 => 0x61
  | 8 => 0x11
  | _ => 0x00

/-- The highest local request besides wait-to-restore and do not revert (R487). -/
def localRequest (s : State) : Nat :=
  let m := s.tdm.msp
  let w := sdhOf s 0
  let p := sdhOf s 1
  if m.lockout then 1
  else if p.sfReq then 2
  else if m.forced then 3
  else if w.sfReq then 4
  else if w.sdReq && !p.sdReq then 5
  else if m.manual && !p.sfReq && !p.sdReq then 6
  else 9

/-- The lane a request selects: 1 stands for lane 23 (R487). -/
def laneFor (prio : Nat) : Nat := if 3 ≤ prio && prio ≤ 8 then 1 else 0

/-- Positions that a selector change gives other defects tell of them (R501). -/
def selectedTell (old new : Nat) (s : State) : State :=
  forEach ((List.range 1008).filter fun p => tuDefects s old p ≠ tuDefects s new p)
    (fun p t => raise 805 [] [wd (p * 2 ^ 16 + tuDefects s new p)] t) s

/-- The selector takes the lane wanted (R488): a selector change counts and raises source 802, and each
demapper takes over at its next multiframe. -/
def selectLane (l : Nat) (s : State) : State :=
  let m := s.tdm.msp
  let s := setMsp { m with selected := l, want := none, hand := (List.range 1008).filter fun p => laneAt s p ≠ l } s
  if m.selected = l then s else selectedTell m.selected l (raise 802 [] [wd (m.request * 2 ^ 8 + l)] (cnt (cDev 12) 1 s))

/-- The selector's evaluation (R487, R488, R490): a manual switch in force that is overridden is cleared, one that waits stays. A request that selects lane 23 is one on lane 22 (assumption 148). -/
def mspEvaluate (s : State) : State :=
  let m := s.tdm.msp
  if m.arch = 0 || !tdmOn s then s
  else
    let loc := localRequest s
    let base := if m.arch = 2 then min loc (farPriority (sdhOf s 1).k1) else loc
    let leaving := 7 ≤ base && m.selected = 1 && 3 ≤ m.request && m.request ≤ 6
    let m := if base ≤ 6 then { m with wtrOn := false, dnr := false, manual := m.manual && (6 ≤ base || m.request ≠ 6) }
      else if leaving && m.revert then { m with wtrOn := true, wtrEnd := nowNs s + m.wtr * 1000000000 }
      else if leaving then { m with dnr := true }
      else m
    let req := min base (if m.wtrOn then 7 else if m.dnr then 8 else 9)
    setMsp { m with request := req, want := if m.selected = laneFor req then none else some (laneFor req) } s

/-- Whether the request served is the far end's own (R487). -/
def servesFar (s : State) : Bool :=
  let m := s.tdm.msp
  m.arch = 2 && m.request < min (localRequest s) (if m.wtrOn then 7 else if m.dnr then 8 else 9)

/-- The K1 sent: the request served, or the reverse request where that is the far end's (R486; assumption 13). -/
def k1Out (s : State) : Nat :=
  let m := s.tdm.msp
  if m.arch = 0 then 0 else if servesFar s then 0x20 + laneFor m.request else k1For m.request

/-- A request changed: the selector is evaluated (R488). -/
def mspCommand (cmd : Nat) (s : State) : State :=
  let m := s.tdm.msp
  let m := if cmd = 0 then { m with lockout := false, forced := false, manual := false, wtrOn := false }
    else if cmd = 1 then { m with lockout := true }
    else if cmd = 2 then { m with forced := true }
    else { m with manual := true }
  mspEvaluate (setMsp m s)

/-- The received K bytes: each accepted after three frames (R486); an architecture other than 1+1 is a protocol failure (R489; which bit shows
it is assumption 164), which ends when the far end shows 1+1 and the channel requested (assumption 148). -/
def kBytes (l k1 k2 : Nat) (s : State) : State :=
  let x := sdhOf s l
  let r1 := if k1 = x.k1New then min 3 (x.k1Run + 1) else 1
  let r2 := if k2 = x.k2New then min 3 (x.k2Run + 1) else 1
  let x' := { x with k1New := k1, k1Run := r1, k2New := k2, k2Run := r2, k1 := if 3 ≤ r1 then k1 else x.k1, k2 := if 3 ≤ r2 then k2 else x.k2 }
  let s := setSdh l x' s
  let m := s.tdm.msp
  if !(l = 1 && m.arch = 2 && 3 ≤ r2) then s
  else if k2.testBit 3 then (if m.fail then s else raise 803 [] [1] (setMsp { m with fail := true } s))
  else if nfld k2 7 4 = laneFor m.request then setMsp { m with fail := false } s
  else s

/-- The switch that a decision waits for: a received frame boundary of the lane wanted, or with ARCH 2 the far end's K2 (R488). While a
protocol failure stands the selection stays as it was (R489). -/
def mspSwitch (l : Nat) (s : State) : State :=
  let m := s.tdm.msp
  match m.want with
  | none => s
  | some w =>
    if m.arch = 1 then (if l = w then selectLane w s else s)
    else if m.arch = 2 then (if l = 1 && !m.fail && nfld (sdhOf s 1).k2 7 4 = w then selectLane w s else s)
    else s

/-- The AU-4s of a frame in order. -/
def ausFrame (l a : Nat) (is_ : List AuIn) (s : State) : State :=
  match is_ with
  | [] => s
  | i :: t => ausFrame l (a + 1) t (auFrame l a i s)

/-- STM16_FRAME_RX: one received frame (R478 to R486); in a loopback it is counted and discarded, and while the lane's generator runs
the lane carries none (R466). -/
def stmFrame (l : Nat) (f : StmFrame) (s : State) : State :=
  if !sdhRuns s l then s
  else if (laneOf s (22 + l)).loopback ≠ 0 then cnt (cLane 11 (22 + l)) 1 s
  else if (laneOf s (22 + l)).gen then s
  else
    let before := laneDefects s l
    let s := setSdh l ((sdhOf s l).align f.hits) s
    let x := sdhOf s l
    if x.oof then laneChange l before (cnt (cLane 16 (22 + l)) 1 s)
    else
      let t := x.j0.byte false f.j0
      let x' := { x with b2 := f.b2, j0 := t.1, msAis := x.msAis.see 3 (f.k2 % 8 = 7), msRdi := x.msRdi.see 5 (f.k2 % 8 = 6), sfErr := x.sfErr + f.b2, sfBits := x.sfBits + 307584, sdErr := x.sdErr + f.b2, sdBits := x.sdBits + 307584 }
      let s := setSdh l x' s
      let s := cnt (cLane 13 (22 + l)) f.b1 (cnt (cLane 14 (22 + l)) f.b2 (cnt (cLane 15 (22 + l)) f.m1 s))
      let s := if t.2 then cnt (cLane 17 (22 + l)) 1 s else s
      let s := timEvent 0 l x.j0.tim x'.j0.tim s
      let s := forEach f.tus (tuFrame l) (ausFrame l 0 f.aus s)
      let s := kBytes l f.k1 f.k2 s
      laneChange l before (mspEvaluate (mspSwitch l s))

/-- LOF_TIMER: OOF or in-frame has persisted for 3 ms (R478). -/
def lofTimer (l : Nat) (s : State) : State :=
  if !sdhRuns s l then s
  else
    let before := laneDefects s l
    let x := sdhOf s l
    mspEvaluate (laneChange l before (setSdh l { x with lof := x.oof } s))

/-- Whether an error estimate is at or above 10^-n, and whether it is below 10^-(n+1) (R483). -/
def declares (e bits n : Nat) : Bool := bits ≠ 0 && bits ≤ e * 10 ^ n
def clears (e bits n : Nat) : Bool := e * 10 ^ (n + 1) < bits

/-- A window ends: the defect is declared, cleared or kept (R483). -/
def windowEnd (was : Bool) (e bits n : Nat) : Bool := if declares e bits n then true else if clears e bits n then false else was

/-- Length of a B2 window and of a V5 window by exponent, ns (R483). -/
def b2Ns (n : Nat) : Nat := 10 ^ 7 * 10 ^ (max n 6 - 6)
def v5Ns (n : Nat) : Nat := 10 ^ 8 * 10 ^ (max n 4 - 4)

/-- The number of the window of a length that has begun: windows are aligned to whole multiples of it (R483). -/
def windowNo (s : State) (len : Nat) : Nat := nowNs s / len

/-- B2_WINDOW_END (R483): a window ends once, at or after a whole multiple of its length. -/
def b2Window (l : Nat) (sd : Bool) (s : State) : State :=
  let x := sdhOf s l
  let no := windowNo s (b2Ns (if sd then s.tdm.cfg.msSd else s.tdm.cfg.msSf))
  if !sdhRuns s l || no = (if sd then x.sdWin else x.sfWin) then s
  else
    let before := laneDefects s l
    let x' := if sd then { x with deg := windowEnd x.deg x.sdErr x.sdBits s.tdm.cfg.msSd, sdErr := 0, sdBits := 0, sdWin := no }
      else { x with exc := windowEnd x.exc x.sfErr x.sfBits s.tdm.cfg.msSf, sfErr := 0, sfBits := 0, sfWin := no }
    mspEvaluate (laneChange l before (setSdh l x' s))

/-- V5_WINDOW_END (R483). -/
def v5Window (l p : Nat) (sd : Bool) (s : State) : State :=
  let x := tuOf s l p
  let no := windowNo s (v5Ns (if sd then s.tdm.cfg.lpSd else s.tdm.cfg.lpSf))
  if !sdhRuns s l || no = (if sd then x.sdWin else x.sfWin) then s
  else
    let before := tuDefects s l p
    let x' := if sd then { x with deg := windowEnd x.deg x.sdErr x.sdBits s.tdm.cfg.lpSd, sdErr := 0, sdBits := 0, sdWin := no }
      else { x with exc := windowEnd x.exc x.sfErr x.sfBits s.tdm.cfg.lpSf, sfErr := 0, sfBits := 0, sfWin := no }
    let z := sdhOf s l
    let s := setSdh l { z with tus := kset z.tus p x' } s
    if before = tuDefects s l p || s.tdm.msp.selected ≠ l then s else raise 805 [] [wd (p * 2 ^ 16 + tuDefects s l p)] s

/-- MSP_HOLD_OFF_END: a condition that has persisted for HOLD_OFF becomes a request (R486). -/
def mspHoldOffEnd (l : Nat) (s : State) : State :=
  let x := sdhOf s l
  let held (at_ : Option Nat) : Bool := match at_ with | some t => t + 100000000 * s.tdm.msp.holdOff ≤ nowNs s | none => false
  if !tdmOn s then s
  else mspEvaluate (setSdh l { x with sfReq := msFail s l && (x.sfReq || held x.failAt), sdReq := msDegrade s l && (x.sdReq || held x.degAt) } s)

/-- MSP_WTR_END: WTR has passed (R487). -/
def mspWtrEnd (s : State) : State :=
  let m := s.tdm.msp
  if tdmOn s && m.wtrOn && m.wtrEnd ≤ nowNs s then mspEvaluate (setMsp { m with wtrOn := false } s) else s

/-- MSP_BRIDGE_MISMATCH_TIMEOUT: the accepted K2 shows another channel than the one requested (R489). -/
def mspMismatch (s : State) : State :=
  let m := s.tdm.msp
  if tdmOn s && m.arch = 2 && !m.fail && nfld (sdhOf s 1).k2 7 4 ≠ laneFor m.request then raise 803 [] [0] (setMsp { m with fail := true } s) else s

/-! ### Time-slot interchange (R491, R492) -/

/-- A list with no number twice. -/
def noTwice (l : List Nat) : Bool :=
  match l with
  | [] => true
  | a :: t => !t.contains a && noTwice t

/-- A circuit's buffer emptied and its playout started again (R492, R496, R503). -/
def Circuit.restart (c : Circuit) : Circuit :=
  { c with jb := [], st := if c.mode = 0 then 0 else 1, anyRx := false, played := false, missRun := 0, seqRun := 0, came := false }

/-- Number of the first transmitted multiframe boundary at or after now: multiframes start at whole multiples of 500 µs (R479, R492). -/
def nextMultiframe (s : State) : Nat := ceilDiv s.tb (4 * frameTb)

/-- What the receive demappers of a page's positions connect: the circuit, if any. -/
def rxOf (page : KMap Word) (p : Nat) : Option Nat := let w := kgetD page p 0; if bit w 31 then some (fld w 9 0) else none

/-- The old entries of the positions whose receive demapper has another circuit in the new page. -/
def rxChanged (old new : KMap Word) : KMap Word :=
  (List.range 1008).foldl (fun m p => if rxOf old p = rxOf new p then m else kset m p (kgetD old p 0)) []

/-- TSI_SWAP: the pages exchange, at or after the multiframe boundary that the apply point fixed; the mappers act on the new page now, and each
receive demapper at its next multiframe (R492). -/
def tsiSwap (s : State) : State :=
  match s.tdm.tsiNext with
  | none => s
  | some page =>
    if !tdmOn s || s.tb < s.tdm.tsiAt * (4 * frameTb) then s
    else
    let old := s.tdm.tsi
    let new (b : Nat) : List Nat := (tsiNamed page b).filter fun c => !(tsiNamed old b).contains c
    let gained := (new 31).foldl sinsert (new 30)
    let s := { s with tdm := { s.tdm with tsi := page, tsiNext := none, tsiOld := rxChanged old page } }
    swapDone (forEach gained (fun c s => setCircuit c (circuitOf s c).restart s) s)

/-! ### Circuit emulation (R493 to R499) -/

/-- Payload bytes of a circuit's packets (R493). -/
def circuitLen (c : Circuit) : Nat := if c.mode = 2 then c.frames * ones 32 c.tsMask else c.payload

/-- Microseconds of E1 in one packet. -/
def packetUs (c : Circuit) : Nat := if c.mode = 2 then 125 * c.frames else 125 * c.payload / 32

/-- Microseconds of E1 held. -/
def fillUs (c : Circuit) : Nat := c.jb.length * packetUs c

/-- A 16-bit number in two bytes, most significant first. -/
def be16 (n : Nat) : List Byte := toBe 2 (n % 65536)

/-- The ones'-complement sum of big-endian 16-bit words. -/
def sum16 (bs : List Byte) : Nat :=
  match bs with
  | [] => 0
  | [a] => a.toNat * 256
  | a :: b :: t => a.toNat * 256 + b.toNat + sum16 t

/-- The IPv4 header checksum. -/
def ipChecksum (hdr : List Byte) : Nat :=
  let n := sum16 hdr
  let n := n % 65536 + n / 65536
  0xFFFF - (n % 65536 + n / 65536)

/-- Bytes replaced at an offset. -/
def patch (bs : List Byte) (off : Nat) (new : List Byte) : List Byte := bs.take off ++ new ++ bs.drop (off + new.length)

/-- The offset of the IPv4 header in an Ethernet frame, past its tags, where there is one (R493, R495). -/
def ipOffset (bs : List Byte) : Option Nat :=
  let p := parse bs
  if p.etype = 0x0800 && (bs.getD p.off 0).toNat / 16 = 4 then some p.off else none

/-- The packet of a circuit around a payload (R493, R494). -/
def cePacket (c : Circuit) (lbit : Bool) (payload : List Byte) (ts pt ssrc : Nat) : List Byte :=
  let rtp := if c.rtp then [(0x80 : Byte), BitVec.ofNat 8 (pt % 128)] ++ be16 c.txSeq ++ toBe 4 ts ++ toBe 4 ssrc else []
  let udp := rtp.length + 4 + payload.length
  let len := if udp < 64 then udp else 0
  let cw := [BitVec.ofNat 8 ((if lbit then 8 else 0) + (if c.lops then 4 else 0)), BitVec.ofNat 8 len] ++ be16 c.txSeq
  let head := c.template
  let all := head.length + udp
  let head := match ipOffset head with
    | some o =>
      let ihl := 4 * ((head.getD o 0).toNat % 16)
      let h := patch (patch head (o + 2) (be16 (all - o))) (o + 10) [0, 0]
      let h := patch h (o + 10) (be16 (ipChecksum (sub h o ihl)))
      patch (patch h (o + ihl + 4) (be16 (8 + udp))) (o + ihl + 6) [0, 0]
    | none => head
  head ++ rtp ++ cw ++ payload

/-- E1 bytes in one packet or slot. -/
def e1Bytes (c : Circuit) : Nat := packetUs c * 32 / 125

/-- The timeslots of a mask, 1 to 31, from frames of 32 bytes. -/
def pickSlots (mask : Nat) (fuel : Nat) (bs : List Byte) : List Byte :=
  match fuel with
  | 0 => []
  | n + 1 => (((List.range 32).filter fun t => 1 ≤ t && mask.testBit t).map fun t => bs.getD t 0) ++ pickSlots mask n (bs.drop 32)

/-- The E1 of a packet as it is demapped, all ones where a switch replaced it (R488). -/
def demappedE1 (c : Circuit) (e1 : List Byte) : List Byte :=
  let n := e1Bytes c
  (List.replicate (min c.gap n) 0xFF ++ e1.drop c.gap ++ List.replicate n 0xFF).take n

/-- The payload of a packet from the E1 demapped for it: SAToP takes it as it is, CESoPSN the timeslots of TS_MASK from its aligned
frames (R493). -/
def demapped (c : Circuit) (e1 : List Byte) : List Byte :=
  let raw := demappedE1 c e1
  if c.mode = 2 then pickSlots c.tsMask c.frames raw else raw

/-- The timeslot 0 bytes of frames of 32 bytes. -/
def slot0 (fuel : Nat) (bs : List Byte) : List Byte :=
  match fuel with
  | 0 => []
  | n + 1 => bs.headD 0 :: slot0 n (bs.drop 32)

/-- Whether a timeslot 0 byte holds the frame alignment signal, 0011011 in its bits 2 to 8 (assumption 168). -/
def isFas (b : Byte) : Bool := b.toNat % 128 = 0x1B

/-- One frame's timeslot 0: the signal stands in every second frame, and three in error one after another lose the alignment (R493;
assumption 168). -/
def Circuit.fasFrame (c : Circuit) (b : Byte) : Circuit :=
  let run := if c.fasOdd then c.fasRun else if isFas b then 0 else c.fasRun + 1
  { c with fasOdd := !c.fasOdd, fasRun := run, fasHeld := c.fasHeld && run < 3 }

/-- The alignment of a circuit over a packet's frames; `found`: with none held, the search over the bits has found the signal at the first of
them (R493; assumption 168). -/
def Circuit.fas (c : Circuit) (found : Bool) (e1 : List Byte) : Circuit :=
  let c := if c.fasHeld || !found then c else { c with fasHeld := true, fasOdd := false, fasRun := 0 }
  if c.mode = 2 then (slot0 c.frames e1).foldl Circuit.fasFrame c else c

/-- An instant in units of 1/19.44 MHz (R494, R499). -/
def rtpTime (ps : Rat) : Nat := (ps * 1944 / 100000000).floor.toNat

/-- The packet that a demapped payload makes, and the state after it: counted, the sequence number moved on (R493, R494). `first` is the
instant, ps, at which the first payload byte was demapped; `found` as in `Circuit.fas`. -/
def cePacketOut (n : Nat) (e1 : List Byte) (found : Bool) (first : Nat) (s : State) : Option (State × List Byte) :=
  let c := (circuitOf s n).fas found (demappedE1 (circuitOf s n) e1)
  match tdmOn s && c.mode ≠ 0, rxPosition s n with
  | true, some p =>
    let ais := aisDownstream s (laneAt s p) p
    let body := if ais then List.replicate (circuitLen c) 0xFF else demapped c e1
    let pkt := cePacket c (ais || (c.mode = 2 && !c.fasHeld)) body (rtpTime first) (Config.freeNat s.free) (Config.freeNat (s.free + 1))
    let s := if c.rtp then drawn (drawn s) else s
    let s := setCircuit n { c with txSeq := (c.txSeq + 1) % 65536, gap := c.gap - e1Bytes c } s
    some (emit (.pseudowire n pkt) (cnt (cPos 2 n) 1 s), pkt)
  | _, _ => none

/-- What an upstream frame carries for a circuit (R495): UDP destination port, sequence number, L bit, payload. -/
structure CeIn where
  port : Nat
  body : List Byte
  deriving DecidableEq, Repr

/-- The UDP payload of an IPv4 UDP frame. -/
def ceParse (bs : List Byte) : Option CeIn :=
  match ipOffset bs with
  | none => none
  | some o =>
    let ihl := 4 * ((bs.getD o 0).toNat % 16)
    if (bs.getD (o + 9) 0).toNat ≠ 17 then none
    else some ⟨beAt bs (o + ihl + 2) 2, (bs.drop (o + ihl + 8)).take (beAt bs (o + ihl + 4) 2 - 8)⟩

/-- Slots between the next to play and a sequence number. -/
def ahead (c : Circuit) (seq : Nat) : Nat := (seq + 65536 - c.nextSeq) % 65536

/-- The oldest packet of a buffer. -/
def oldestSeq (c : Circuit) : Option Nat :=
  (c.jb.foldl (fun b e => match b with
    | none => some e.1
    | some q => if ahead c e.1 < ahead c q then some e.1 else b) none)

/-- Discards the oldest packets until the fill is at the target (R496). -/
def discardTo (fuel : Nat) (c : Circuit) : Circuit :=
  match fuel with
  | 0 => c
  | f + 1 =>
    if fillUs c ≤ 1000 * c.jbTarget then c
    else match oldestSeq c with
      | some q => discardTo f { c with jb := kerase c.jb q, nextSeq := (q + 1) % 65536 }
      | none => c

/-- LOPS changes raise source 807 (R501). -/
def lopsEvent (n : Nat) (old new : Bool) (s : State) : State :=
  if old = new then s else raise 807 [] [putb new 31 ||| wd n] s

/-- A packet joins its circuit's jitter buffer (R496, R498): playout starts with the oldest packet held, and before the first slot is played no
packet is late. -/
def ceArrive (n seq : Nat) (p : JbPkt) (s : State) : State :=
  let c := { circuitOf s n with came := true }
  let c := if c.anyRx && (c.played || ahead c seq < 32768) then c else { c with anyRx := true, nextSeq := seq }
  let run := if seq = (c.lastSeq + 1) % 65536 then min 255 (c.seqRun + 1) else 1
  let lops := c.lops && run < c.lopsExit
  let s := lopsEvent n c.lops lops (cnt (cPos 3 n) 1 s)
  let c := { c with lastSeq := seq, seqRun := run, lops := lops }
  if 32768 ≤ ahead c seq then cnt (cPos 5 n) 1 (setCircuit n c s)
  else
    let overrun := 2000 * c.jbTarget < (if (kget c.jb seq).isSome then fillUs c else fillUs c + packetUs c)
    let c := { c with jb := kset c.jb seq p }
    let c := if overrun then discardTo c.jb.length c else c
    let c := if c.st = 1 && 1000 * c.jbTarget ≤ fillUs c then { c with st := 2, nextSeq := (oldestSeq c).getD c.nextSeq } else c
    let s := setCircuit n c s
    if overrun then raise 808 [] [wd n] (cnt (cPos 6 n) 1 s) else s

/-- The recovery loop steers a circuit's clock by its error, within 100 ppm (R499; assumption 14). -/
def Circuit.steer (c : Circuit) (err : Int) : Circuit := { c with freq := clampI (-100000) 100000 (Config.clockSteer c.crBw err c.freq) }

/-- The error of a differential clock: a packet's RTP timestamp against the timebase, 32 bits signed (R499). -/
def rtpError (ts : Nat) (s : State) : Int := sgn 32 ((ts + 2 ^ 32 - rtpTime (psOf s.tb) % 2 ^ 32) % 2 ^ 32)

/-- CE_PACKET_RX: the block takes a frame offered on port 22 (R495). -/
def cePacketIn (bs : List Byte) (s : State) : State :=
  if !tdmOn s then s
  else match ceParse bs with
  | none => cnt (cDev 13) 1 s
  | some i =>
    match s.tdm.circuits.find? fun e => e.2.mode ≠ 0 && e.2.udpRx = i.port with
    | none => cnt (cDev 13) 1 s
    | some (n, c) =>
      let b := if c.rtp then i.body.drop 12 else i.body
      let l := (b.getD 0 0).toNat.testBit 3
      let body := b.drop 4
      if b.length < 4 || !(body.length = circuitLen c || (body.length = 0 && l)) then cnt (cDev 13) 1 s
      else ceArrive n (beAt b 2 2) ⟨body, l⟩ (if c.clock = 1 then setCircuit n (c.steer (rtpError (beAt i.body 4 4) s)) s else s)

/-- The E1 octets of a CESoPSN payload: timeslot 0 regenerated in every second frame, timeslots not carried 0xFF (R499). -/
def expandFrames (mask : Nat) (fuel i : Nat) (bs : List Byte) : List Byte :=
  match fuel with
  | 0 => []
  | f + 1 =>
    let slots := (List.range 31).map (· + 1)
    let row := slots.foldl (fun (acc : List Byte × List Byte) t =>
      if mask.testBit t then (acc.1 ++ [acc.2.headD 0xFF], acc.2.drop 1) else (acc.1 ++ [0xFF], acc.2)) ([], bs)
    ((if i % 2 = 0 then (0x9B : Byte) else 0xDF) :: row.1) ++ expandFrames mask f (i + 1) row.2

/-- All ones for one slot of a circuit. -/
def onesOut (c : Circuit) : List Byte := List.replicate (e1Bytes c) 0xFF

/-- A slot's E1 is mapped into the circuit's position (R491, R499). -/
def playOut (n : Nat) (bs : List Byte) (s : State) : State := emit (.playout n (txPosition s n) (circuitOf s n).freq bs) s

/-- A slot is played whose packet is missing, as all ones (R496, R498). -/
def playMissing (n : Nat) (c : Circuit) (s : State) : State :=
  let run := min 255 (c.missRun + 1)
  let lops := c.lops || c.lopsEnter ≤ run
  lopsEvent n c.lops lops (playOut n (onesOut c) (setCircuit n { c with missRun := run, lops := lops } s))

/-- CE_PLAYOUT_SLOT: one slot of a circuit is played (R496, R498, R499). A circuit that no position sends plays all ones and keeps its buffer
(R492). While a buffer refills after an underrun, a packet is missing in a slot before which none came (assumption 149). -/
def cePlayout (n : Nat) (s : State) : State :=
  let c := circuitOf s n
  if !tdmOn s || c.mode = 0 then s
  else if (txPosition s n).isNone then playOut n (onesOut c) s
  else
    let c := if c.clock = 0 && c.st = 2 then c.steer ((fillUs c : Int) - (1000 * c.jbTarget : Nat)) else c
    let c' := { c with odd := if c.mode = 2 then c.odd != c.frames.testBit 0 else c.odd, came := false }
    if c.st ≠ 2 then
      (if c.played && !c.came then playMissing n c' s else playOut n (onesOut c) (setCircuit n { c' with missRun := 0 } s))
    else if c.jb = [] then
      raise 808 [] [putb true 31 ||| wd n] (cnt (cPos 7 n) 1 (playMissing n { c' with st := 1, played := true } s))
    else
      let c' := { c' with jb := kerase c.jb c.nextSeq, nextSeq := (c.nextSeq + 1) % 65536, played := true }
      match kget c.jb c.nextSeq with
      | some p =>
        let body := if p.lbit then onesOut c else if c.mode = 2 then expandFrames c.tsMask c.frames (if c.odd then 1 else 0) p.payload else p.payload
        playOut n body (setCircuit n { c' with missRun := 0 } s)
      | none => cnt (cPos 4 n) 1 (playMissing n c' s)

/-! ### The transmitted frame (R479, R481, R482, R484, R485, R488, R491) -/

/-- The byte of a transmitted trace in its place, of 64 or of 16, whose first holds the marker bit and the CRC-7 (R482; assumption 12). -/
def Trace.tx (t : Trace) (long : Bool) (i : Nat) : Byte :=
  if long then t.sent.getD (i % 64) 0
  else
    let body := (sub t.sent 1 15 ++ List.replicate 15 0).take 15
    if i % 16 = 0 then BitVec.ofNat 8 (128 + crc7 ((0x80 : Byte) :: body)) else body.getD (i % 16 - 1) 0

/-- Whether RDI is sent for the section, for an AU-4, for a position: the defects of the selected signal whose action names it (R484, R485). -/
def msRdiOut (s : State) : Bool := let l := s.tdm.msp.selected; let x := sdhOf s l; sdhLos s l || x.oof || x.lof || x.msAis.set
def hpRdiOut (s : State) (a : Nat) : Bool :=
  let x := auOf s s.tdm.msp.selected a
  x.ptr.st ≠ 0 || (s.tdm.cfg.aisHp && x.j1.tim) || x.uneq.set || x.plm.set
def lpRdiOut (s : State) (p : Nat) : Bool :=
  let l := s.tdm.msp.selected
  let x := tuOf s l p
  x.ptr.st ≠ 0 || (auOf s l (p / 63)).lom.set || (s.tdm.cfg.aisLp && x.j2.tim) || x.uneq.set || x.plm.set || x.exc

/-- An AU-4 of the transmitted frame `n`: pointer 522, J1, C2, REI and RDI in G1, H4. -/
def auOut (s : State) (n a : Nat) : AuIn :=
  ⟨0x6800 + 522, 0, (auOf s 0 a).j1.tx s.tdm.cfg.traceLen n, 2,
    16 * min 8 (auOf s s.tdm.msp.selected a).b3 + (if hpRdiOut s a then 8 else 0), n % 4⟩

/-- A TU-12 of the transmitted multiframe `m`: pointer 70, J2, V5 with REI, label and RDI; a position with TX clear is unequipped. -/
def tuOut (s : State) (m : Nat) (p : Fin 1008) : TuIn :=
  if bit (tsiEntry s p) 30 then
    ⟨p, 0x6800 + 70, 0, (tuOf s 0 p).j2.tx false m,
      (if (tuOf s s.tdm.msp.selected p).bad then 32 else 0) + 4 + (if lpRdiOut s p then 1 else 0)⟩
  else ⟨p, 0x6800 + 70, 0, 0, 0⟩

/-- The frame that a lane transmits from the apply point of frame `n` on; both lanes carry the same but for J0 (R479, R485, R486). -/
def stmOut (s : State) (l n : Nat) : StmFrame :=
  let m := s.tdm.msp
  { hits := [0], b1 := 0, b2 := 0, m1 := min 255 (sdhOf s m.selected).b2, k1 := k1Out s,
    k2 := (if m.arch = 0 then 0 else 16 * laneFor m.request) + (if msRdiOut s then 6 else 0), j0 := (sdhOf s l).j0.tx false n,
    aus := (List.range 16).map (auOut s n), tus := if n % 4 = 0 then (List.finRange 1008).map (tuOut s (n / 4)) else [] }

/-- Whether a lane carries the transmitted signal: TX-LOL mutes it and a running generator takes its place (R460, R466). -/
def stmSends (s : State) (l : Nat) : Bool := let x := laneOf s (22 + l); sdhRuns s l && !x.txLol && !x.gen

/-- The error counts that a transmitted frame has carried back are carried once; V5 goes out with its multiframe (R484). -/
def reported (v5 : Bool) (l : Nat) (s : State) : State :=
  let z := sdhOf s l
  setSdh l { z with b2 := 0, aus := kmap z.aus fun _ a => { a with b3 := 0 }, tus := if v5 then kmap z.tus fun _ t => { t with bad := false } else z.tus } s

/-- The justification of a circuit's VC-12 for one multiframe, by the billionths of a bit that its clock has run ahead of 1,024 bits: one bit
more or one bit fewer once a whole bit has gathered (R499; assumption 14). -/
def Circuit.justify (c : Circuit) : Circuit × Int :=
  let a := c.slack + 1024 * c.freq
  let j : Int := if 1000000000 ≤ a then 1 else if a ≤ -1000000000 then -1 else 0
  ({ c with slack := a - 1000000000 * j }, j)

/-- The asynchronous mappings absorb their circuits' offsets as a transmitted multiframe starts (R499). -/
def justifications (s : State) : State :=
  forEach (s.tdm.circuits.filter fun e => e.2.mode ≠ 0) (fun e s =>
    match txPosition s e.1 with
    | some p => let r := e.2.justify; let s := setCircuit e.1 r.1 s; if r.2 = 0 then s else emit (.justified p r.2) s
    | none => s) s

/-- The transmitted frames that start at an apply point (R475, R479). -/
def stmFrames (s : State) : State :=
  let ls := sdhRunning s
  let n := frameNo s
  let s := if ls ≠ [] && n % 4 = 0 then justifications s else s
  forEach ls (reported (n % 4 = 0)) (forEach (ls.filter (stmSends s)) (fun l s => emit (.stmTx (22 + l) (stmOut s l n)) s) s)

/-! ### Calls of family 0x0D -/

/-- `SDH_CONFIG` (R483, R503). -/
def sdhConfig : TxnCall where
  spec := { code := 0x0D01, who := .slice0, lens := [2], used := [0xFFFFFFFF, 0xFFFF001F] }
  objs _ i := do
    let w := pw i.words 1
    let msd := fld w 31 28
    let msf := fld w 27 24
    let lsd := fld w 23 20
    let lsf := fld w 19 16
    need (5 ≤ msd && msd ≤ 9 && 3 ≤ msf && msf ≤ 5 && 5 ≤ lsd && lsd ≤ 7 && 3 ≤ lsf && lsf ≤ 5 && msf < msd && lsf < lsd) .badArg
    return [⟨.sdh, 0⟩]
  apply i s :=
    let w := pw i.words 1
    let s := if bit w 4 = s.tdm.cfg.traceLen then s else forEach [0, 1] (fun l s =>
      let z := sdhOf s l
      if z.aus = [] then s else setSdh l { z with aus := kmap z.aus fun _ a => { a with j1 := a.j1.afresh } } s) s
    .ok { s with tdm := { s.tdm with cfg := { msSd := fld w 31 28, msSf := fld w 27 24, lpSd := fld w 23 20, lpSf := fld w 19 16, traceLen := bit w 4, aisRs := bit w 3, aisHp := bit w 2, aisLp := bit w 1, excAis := bit w 0 } } }

/-- Whether a trace name is in range: KIND and INDEX (R503). -/
def traceOk (w : Word) : Bool :=
  let k := fld w 29 28
  k ≤ 2 && (k = 0 || (k = 1 && fld w 9 0 ≤ 15) || (k = 2 && fld w 9 0 ≤ 1007))

/-- The settings of a trace from its 128 bytes (R503). -/
def Trace.setup (t : Trace) (check : Bool) (bs : List Byte) : Trace :=
  let x : Trace := { t with check := check, expected := sub bs 0 64, sent := sub bs 64 64 }
  { x with tim := t.accepted ≠ [] && x.differs t.accepted }

/-- `SDH_TRACE_SET` (R482, R503). J1 and J2 settings hold for both lanes. -/
def sdhTraceSet : TxnCall where
  spec := { code := 0x0D03, who := .slice0, lens := [5], used := [0xFFFFFFFF, 0x300103FF, 1, 0xFFFFFFFF, 0xFFFFFFFF] }
  objs _ i := do
    let w := pw i.words 1
    need (traceOk w) .badArg
    return [⟨.sdhTrace, (fld w 29 28) * 4096 + (if fld w 29 28 = 0 then fld w 16 16 else fld w 9 0)⟩]
  apply i s :=
    let w := pw i.words 1
    let ck := bit (pw i.words 2) 0
    let ix := fld w 9 0
    match fld w 29 28 with
    | 0 =>
      let l := fld w 16 16
      let x := sdhOf s l
      let t := x.j0.setup ck i.dma
      .ok (laneChange l (laneDefects s l) (timEvent 0 l x.j0.tim t.tim (setSdh l { x with j0 := t } s)))
    | 1 => .ok (forEach [0, 1] (fun l s =>
        let z := sdhOf s l
        let x := auOf s l ix
        let y := { x with j1 := x.j1.setup ck i.dma }
        let s := timEvent 1 ix x.j1.tim y.j1.tim (setSdh l { z with aus := kset z.aus ix y } s)
        if auDefects x = auDefects y then s else raise 804 [] [wd (ix * 2 ^ 16 + auDefects y)] s) s)
    | _ => .ok (forEach [0, 1] (fun l s =>
        let z := sdhOf s l
        let x := tuOf s l ix
        let y := { x with j2 := x.j2.setup ck i.dma }
        let t := timEvent 2 ix x.j2.tim y.j2.tim (setSdh l { z with tus := kset z.tus ix y } s)
        if s.tdm.msp.selected ≠ l || tuDefects s l ix = tuDefects t l ix then t else raise 805 [] [wd (ix * 2 ^ 16 + tuDefects t l ix)] t) s)

/-- `MSP_CONFIG` (R486, R503). -/
def mspConfig : TxnCall where
  spec := { code := 0x0D10, who := .slice0, lens := [3], used := [0xFFFFFFFF, 0x03010000, 0x03FF007F] }
  objs _ i := do
    let w := pw i.words 1
    let v := pw i.words 2
    need (fld w 25 24 ≤ 2 && 60 ≤ fld v 25 16 && fld v 25 16 ≤ 720 && fld v 6 0 ≤ 100) .badArg
    return [⟨.msp, 0⟩]
  apply i s :=
    let w := pw i.words 1
    let v := pw i.words 2
    let arch := fld w 25 24
    let m := { s.tdm.msp with arch := arch, revert := bit w 16, wtr := fld v 25 16, holdOff := fld v 6 0 }
    .ok (if arch = 0 then selectLane 0 (setMsp { m with lockout := false, forced := false, manual := false, wtrOn := false, dnr := false, request := 9, fail := false } s) else mspEvaluate (lanesJoin (sdhRunning s) (setMsp m s)))

/-- `TSI_PAGE_SET` (R491, R492, R503). -/
def tsiPageSet : TxnCall where
  spec := { code := 0x0D20, who := .slice0, lens := [4], used := [0xFFFFFFFF, 0x07FF03FF, 0xFFFFFFFF, 0xFFFFFFFF] }
  objs _ i := do
    let w := pw i.words 1
    let n := fld w 26 16
    need (1 ≤ n && n ≤ 1008 && fld w 9 0 + n ≤ 1008) .badArg
    return [⟨.tsi, 0⟩]
  apply i s :=
    let w := pw i.words 1
    let first := fld w 9 0
    let ws := (wordsOfBytes i.dma).take (fld w 26 16)
    if ws.any fun e => 1007 < fld e 9 0 then .error .badArg
    else
      let page := (ws.zipIdx).foldl (fun (m : KMap Word) e => kset m (first + e.2) (e.1 &&& 0xC00003FF)) (s.tdm.tsiNext.getD s.tdm.tsi)
      .ok (addLater ⟨.tsi, 0⟩ { s with tdm := { s.tdm with tsiNext := some page, tsiAt := nextMultiframe s } })
  post _ s := match s.tdm.tsiNext with
    | some p => need (noTwice (tsiNamed p 31) && noTwice (tsiNamed p 30)) .badArg
    | none => .ok ()

/-- Pages that the circuits take (R497). -/
def jbPages (s : State) : Nat := (s.tdm.circuits.map fun e => if e.2.mode = 0 then 0 else 2 * e.2.jbTarget).sum

/-- `CE_CIRCUIT_SET` (R493 to R499, R503). -/
def ceCircuitSet : TxnCall where
  spec := { code := 0x0D30, who := .slice0, lens := [9], used := [0xFFFFFFFF, 0x031303FF, 0x007F07FF, 0xFFFFFFFE, 0x00FFFF3F, 0x03FFFFFF, 0xFFFFFFFF, 0xFFFFFFFF, 0x7F] }
  objs _ i := do
    let w := pw i.words 1
    let mode := fld w 17 16
    let v := pw i.words 2
    let pay := fld v 10 0
    let fr := fld v 22 16
    let ts := ones 32 (pw i.words 3).toNat
    let l := pw i.words 4
    let k := pw i.words 5
    let tl := fld (pw i.words 8) 6 0
    need (fld w 9 0 ≤ 1007 && mode ≤ 2 && fld w 25 24 ≤ 2 && !(fld w 25 24 = 1 && !bit w 20)) .badArg
    need (mode ≠ 1 || (32 ≤ pay && pay ≤ 1440 && pay % 32 = 0)) .badArg
    need (mode ≠ 2 || (1 ≤ fr && fr ≤ 64 && 1 ≤ ts && fr * ts ≤ 1440)) .badArg
    need (1 ≤ fld l 23 16 && 1 ≤ fld l 15 8 && 1 ≤ fld l 5 0 && fld l 5 0 ≤ 32 && 10 ≤ fld k 25 16 && fld k 25 16 ≤ 1000 && 1 ≤ fld k 15 0 && 42 ≤ tl && tl ≤ 64) .badArg
    return [⟨.circuit, fld w 9 0⟩]
  apply i s :=
    let w := pw i.words 1
    let n := fld w 9 0
    let old := circuitOf s n
    let v := pw i.words 2
    let l := pw i.words 4
    let k := pw i.words 5
    let new := { old with mode := fld w 17 16, clock := fld w 25 24, rtp := bit w 20, frames := fld v 22 16, payload := fld v 10 0, tsMask := (pw i.words 3).toNat, lopsExit := fld l 23 16, lopsEnter := fld l 15 8, jbTarget := fld l 5 0, crBw := fld k 25 16, udpRx := fld k 15 0, template := i.dma.take (fld (pw i.words 8) 6 0) }
    let again := old.mode ≠ new.mode || circuitLen old ≠ circuitLen new || old.jbTarget ≠ new.jbTarget
    let new := if old.mode = 0 && new.mode ≠ 0 then { new with txSeq := 0, lops := false, freq := 0, gap := 0, slack := 0, fasHeld := false, fasRun := 0 } else new
    let new := { new with fasHeld := new.fasHeld && old.mode = new.mode }
    let new := if new.clock = 2 then { new with freq := 0 } else new
    .ok (lopsEvent n old.lops new.lops (setCircuit n (if again then new.restart else new) s))
  post _ s := do
    need (noTwice ((s.tdm.circuits.filter fun e => e.2.mode ≠ 0).map fun e => e.2.udpRx)) .badArg
    need (jbPages s ≤ 16384) .noSpace

/-- `SDH_STATUS` (R503). -/
def sdhStatus (ws : List Word) (s : State) : Res (List Word) :=
  let w := pw ws 0
  let l := fld w 16 16
  let ix := fld w 9 0
  match fld w 29 28 with
  | 0 => .ok [wd (laneDefects s l), 0]
  | 1 => if 15 < ix then .error .badArg else let a := auOf s l ix; .ok [wd (auDefects a), wd (a.ptr.st * 2 ^ 16 + a.ptr.offset)]
  | 2 => if 1007 < ix then .error .badArg else let l := s.tdm.msp.selected; .ok [wd (tuDefects s l ix), wd ((tuOf s l ix).ptr.st * 2 ^ 16 + (tuOf s l ix).ptr.offset)]
  | _ => .error .badArg

/-- The trace a name means on the selected lane, J0 on the lane named (R503). -/
def traceOf (w : Word) (s : State) : Trace :=
  let ix := fld w 9 0
  match fld w 29 28 with
  | 0 => (sdhOf s (fld w 16 16)).j0
  | 1 => (auOf s s.tdm.msp.selected ix).j1
  | _ => (tuOf s s.tdm.msp.selected ix).j2

/-- `SDH_TRACE_READ` (R503): the accepted trace goes to host memory, filled to 64 bytes with 0. -/
def sdhTraceRead (ch : Nat) (ws : List Word) (s : State) : Res (State × List Word) :=
  let w := pw ws 0
  if !traceOk w then .error .badArg
  else
    let t := traceOf w s
    .ok (emit (.dma ch (wide ws 1 2) ((t.accepted ++ List.replicate 64 0).take 64)) s, [putb t.tim 0])

/-- `MSP_STATUS` (R503). -/
def mspStatus (s : State) : List Word :=
  let m := s.tdm.msp
  let x := sdhOf s 1
  [putb m.fail 16 ||| put m.request 8 ||| wd m.selected, wd (x.k1 * 256 + x.k2), wd (if m.wtrOn then ceilDiv (m.wtrEnd - nowNs s) 1000000000 else 0)]

/-- `MSP_COMMAND` (R490, R503). -/
def mspCommandCall (ws : List Word) (s : State) : Res (State × List Word) :=
  if s.tdm.msp.arch = 0 then .error .badState else .ok (mspCommand (fld (pw ws 0) 1 0) s, [])

/-- `TSI_READ` (R503). -/
def tsiRead (ws : List Word) (s : State) : Res (List Word) :=
  let p := fld (pw ws 0) 9 0
  if 1007 < p then .error .badArg else .ok [tsiEntry s p, putb s.tdm.tsiNext.isSome 31]

/-- `CE_CIRCUIT_READ` (R503); a circuit that is off or clocked by the line has no offset (R499). -/
def ceCircuitRead (ws : List Word) (s : State) : Res (List Word) :=
  let n := fld (pw ws 0) 9 0
  if 1007 < n then .error .badArg
  else
    let c := circuitOf s n
    let st := if c.mode = 0 then 0 else if c.lops then 3 else c.st
    .ok [wd st, wd (fillUs c), if c.mode = 0 || c.clock = 2 then 0 else wd (unsgn 32 c.freq)]

end Sys2Proof.Machine
end

