-- ==== Sys2Proof/Machine/Sched.lean ====
section
/-! DEFINITION. Shapers, the calendar wheel, the schedulers of Pier and uplink roots, policers, and the calls of family 0x09
(chapter 11). -/

namespace Sys2Proof.Machine

/-! ### Shapers (R373 to R376) -/

/-- Refill periods in ns (R373). -/
def perNode : Nat := 200
def perLeaf : Nat := 1000

/-- INC of a rate in kb/s for a period in ns, halves rounded up (R373). -/
def incOf (rate per : Nat) : Nat := (2 * rate * per * 65536 + 8000000) / 16000000

/-- Refill instants of a period in an interval of the counter: after the first instant, up to the second. -/
def refills (per a b : Nat) : Nat := b / (per * 2 ^ 40) - a / (per * 2 ^ 40)

/-- A bucket after n refills. -/
def refilled (credit : Int) (n inc burst : Nat) : Int := min (credit + (n * inc : Nat)) (burst * 65536 : Nat)

/-- A shaper as every refill up to an instant leaves it; the first of them takes up waiting settings (R375). -/
def caught (per : Nat) (x : Shaper) (now : Nat) : Shaper :=
  match refills per x.at_ now with
  | 0 => x
  | n + 1 =>
    let v := x.next.getD x.set
    { x with set := v, next := none, at_ := now, peak := refilled x.peak (n + 1) (incOf v.pir per) v.pbs, comm := refilled x.comm (n + 1) (incOf v.cir per) v.cbs }

/-- A PIR that does not limit (R374). -/
def unshaped : Nat := 0xFFFFFFFF

/-- Whether a shaper passes (R374). -/
def Shaper.passes (x : Shaper) : Bool := x.set.pir = unshaped || (x.set.pir ≠ 0 && 0 ≤ x.peak)

/-- Whether a child is committed-eligible (R370, R374). -/
def Shaper.committed (x : Shaper) : Bool := 0 < x.set.cir && 0 ≤ x.comm

/-- New settings wait for the first refill at or after an instant (R375). -/
def reset (per : Nat) (x : Shaper) (v : ShapeSet) (now : Nat) : Shaper :=
  let y := caught per x (now - 1)
  { y with next := some v }

/-- Slots of the fine and the coarse wheel, ns (R376). -/
def coarseNs : Nat := 819200

/-- The wheel entry of an instant t_elig in ns (R376): fine, coarse, or parked at the coarse horizon. -/
def wheelAt (now elig : Nat) : Wheel :=
  if elig - now < coarseNs then ⟨elig, true, elig / 200 * 200⟩
  else if elig - now < 3355443200 then ⟨elig, false, elig / coarseNs * coarseNs⟩
  else ⟨elig, false, (now / coarseNs + 4095) * coarseNs⟩

/-- When a credit below 0 next reaches 0 or above, ns (R376); none at a rate of 0. -/
def eligAt (per now inc : Nat) (credit : Int) : Option Nat :=
  if inc = 0 then none else some ((now / per + ceilDiv credit.natAbs inc) * per)

/-- The settings of a shaper as a call would change them: those that wait, or those in force. -/
def Shaper.wanted (x : Shaper) : ShapeSet := x.next.getD x.set

/-- The wheel entry of a bucket: one that it has stands until its t_elig, and below 0 it makes one where packets lie below it. The refills
to come are those after `from_` ns (R376). -/
def entryFor (per now from_ rate : Nat) (credit : Int) (busy : Bool) (old : Option Wheel) : Option Wheel :=
  if credit < 0 then match old with
    | some w => some w
    | none => if busy then (eligAt per from_ (incOf rate per) credit).map (wheelAt now) else none
  else none

/-- The shaper's wheel entries after its credit or its settings changed; `busy` says that packets lie below it. Settings that wait for
the next refill are those of every refill to come (R375, R376). -/
def Shaper.parked (x : Shaper) (per now : Nat) (busy : Bool) : Shaper :=
  let v := x.wanted
  let from_ := x.at_ / 2 ^ 40
  { x with
    waitP := if v.pir = unshaped then none else entryFor per now from_ v.pir x.peak busy x.waitP
    waitC := entryFor per now from_ v.cir x.comm busy x.waitC }

/-- A shaper across a step of the counter: the refills up to the old value have acted, the next are those after the new one, and a wheel
entry keeps its refills to go (R373, R376; assumption 103). -/
def Shaper.stepped (per old new : Nat) (x : Shaper) : Shaper :=
  let x := { caught per x old with at_ := new }
  let again (w : Option Wheel) (rate : Nat) (credit : Int) : Option Wheel := w.bind fun _ => entryFor per (new / 2 ^ 40) (new / 2 ^ 40) rate credit true none
  { x with waitP := again x.waitP x.set.pir x.peak, waitC := again x.waitC x.set.cir x.comm }

/-- Whether a new entry lies beyond the coarse horizon. -/
def beyond (now : Nat) (old new : Option Wheel) : Bool :=
  match new with
  | some w => old ≠ some w && 3355443200 ≤ w.elig - now
  | none => false

/-- A charge (R371). -/
def Shaper.charge (x : Shaper) (bytes : Nat) (comm : Bool) : Shaper :=
  { x with peak := x.peak - (bytes * 65536 : Nat), comm := if comm then x.comm - (bytes * 65536 : Nat) else x.comm }

/-! ### The tree as the schedulers see it -/

/-- Writes nodes. -/
def setL1 (g n : Nat) (x : L1) (s : State) : State := { s with fwd := { s.fwd with l1 := kset s.fwd.l1 (8192 * g + n) x } }
def setL2 (g n : Nat) (x : L2) (s : State) : State := { s with fwd := { s.fwd with l2 := kset s.fwd.l2 (65536 * g + n) x } }

/-- Children by number, ascending. -/
def queuesUnder (s : State) (g n2 : Nat) : List (Nat × Queue) :=
  (s.fwd.queues.filter fun e => groupOf e.1 = g && e.2.parent = n2).map fun e => (e.1 % 262144, e.2)
def l2Under (s : State) (g n1 : Nat) : List (Nat × L2) := (s.fwd.l2.filter fun e => e.1 / 65536 = g && e.2.parent = n1).map fun e => (e.1 % 65536, e.2)
def l1Under (s : State) (g root : Nat) : List (Nat × L1) := (s.fwd.l1.filter fun e => e.1 / 8192 = g && rootOf e.2.kind = root).map fun e => (e.1 % 8192, e.2)

/-- An uplink budget (R386), its rate in force, and its shaper's settings. -/
def upBudget (s : State) (slice port : Nat) : Budget := kgetD s.fwd.budgets (24 * slice + port) {}
def setUpBudget (slice port : Nat) (x : Budget) (s : State) : State := { s with fwd := { s.fwd with budgets := kset s.fwd.budgets (24 * slice + port) x } }
def Budget.effective (b : Budget) : Nat := match b.lanyard with | some r => min b.rate r | none => b.rate

/-- Whether the shapers above a queue pass: those of L1, and of the slice's budget on an uplink. -/
def l1Passes (s : State) (x : L1) : Bool :=
  (caught perNode x.sh s.tb).passes && match x.kind with
    | .onu _ _ _ => true
    | .uplink port slice => (caught perNode (upBudget s slice port).sh s.tb).passes

/-- Whether no shaper on a queue's path blocks it (R369, R374). -/
def pathPasses (s : State) (g : Nat) (x : Queue) : Bool :=
  (caught perLeaf x.sh s.tb).passes && match l2At s g x.parent with
    | some y => (caught perLeaf y.sh s.tb).passes && match l1At s g y.parent with | some z => l1Passes s z | none => false
    | none => false

/-- A child as its parent selects among: number, tree fields, whether committed-eligible. -/
structure Kid where
  num : Nat
  ch : Child
  comm : Bool
  deriving DecidableEq, Repr

/-- The children of each level that are eligible, given which queues are ready (R369). -/
def liveQueues (s : State) (rdy : Nat → Queue → Bool) (g n2 : Nat) : List Kid :=
  (queuesUnder s g n2).filterMap fun e =>
    let sh := caught perLeaf e.2.sh s.tb
    if rdy (262144 * g + e.1) e.2 && sh.passes then some ⟨e.1, e.2.ch, sh.committed⟩ else none
def liveL2 (s : State) (rdy : Nat → Queue → Bool) (g n1 : Nat) : List Kid :=
  (l2Under s g n1).filterMap fun e =>
    let sh := caught perLeaf e.2.sh s.tb
    if sh.passes && liveQueues s rdy g e.1 ≠ [] then some ⟨e.1, e.2.ch, sh.committed⟩ else none
def liveL1 (s : State) (rdy : Nat → Queue → Bool) (g root : Nat) : List Kid :=
  (l1Under s g root).filterMap fun e =>
    if l1Passes s e.2 && liveL2 s rdy g e.1 ≠ [] then some ⟨e.1, e.2.ch, (caught perNode e.2.sh s.tb).committed⟩ else none

/-! ### Selection at a node (R370) -/

/-- What a node chose: the child, its tier (0 committed), its PRIO, the pointer, and the deficits that pointer moves changed. -/
structure Picked where
  num : Nat
  tier : Nat
  prio : Nat
  defs : List (Nat × Int)
  deriving DecidableEq, Repr

/-- A child's deficit of a tier. -/
def Child.def_ (c : Child) (tier : Nat) : Int := if tier = 0 then c.defC else c.defE
def Child.withDef (c : Child) (tier : Nat) (d : Int) : Child := if tier = 0 then { c with defC := d } else { c with defE := d }

/-- The pointer's walk: `moved` says that it has just moved onto the first child of the order, which then gains its quantum. -/
def walk (fuel : Nat) (order : List (Nat × Nat × Int)) (moved : Bool) (seen : List (Nat × Int)) : Option (Nat × List (Nat × Int)) :=
  match fuel, order with
  | fuel + 1, (n, w, d) :: t =>
    let d' := if moved then d + (256 * w : Nat) else d
    let seen' := if moved then (n, d') :: seen.filter (·.1 ≠ n) else seen
    if 0 < d' then some (n, seen') else walk fuel (t ++ [(n, w, d')]) true seen'
  | _, _ => none

/-- Selection among a list of children from a pointer (R370). -/
def pickFrom (set : List Kid) (tier : Nat) (ptr : Option Nat) : Option (Nat × List (Nat × Int)) :=
  let row (k : Kid) : Nat × Nat × Int := (k.num, k.ch.weight, k.ch.def_ tier)
  let order (below : Kid → Bool) : List (Nat × Nat × Int) := ((set.filter (!below ·)) ++ set.filter below).map row
  let fuel := 80 * set.length + 1
  match ptr with
  | none => walk fuel (set.map row) true []
  | some v =>
    let c := v / 2
    if v % 2 = 0 && set.any (·.num = c) then walk fuel (order (·.num < c)) false []
    else walk fuel (order (·.num ≤ c)) true []

/-- The tier and set of a node's candidates, and the choice (R370). -/
def pick (kids : List Kid) (ptrs : KMap Nat) : Option Picked :=
  let comm := kids.any (·.comm)
  let tier := if comm then 0 else 1
  let cands := if comm then kids.filter (·.comm) else kids
  match cands with
  | [] => none
  | k :: t =>
    let prio := (t.map (·.ch.prio)).foldl min k.ch.prio
    let set := cands.filter (·.ch.prio = prio)
    (pickFrom set tier (kget ptrs (8 * tier + prio))).map fun r => ⟨r.1, tier, prio, r.2⟩

/-- The pointer key of a choice. -/
def Picked.key (p : Picked) : Nat := 8 * p.tier + p.prio

/-- The pointers of a node after a choice. -/
def Picked.ptrs (p : Picked) (m : KMap Nat) : KMap Nat := kset m p.key (2 * p.num)

/-- A chosen path: the queue and what each level chose. -/
structure Path where
  g : Nat
  root : Nat
  a : Picked
  b : Picked
  c : Picked
  deriving DecidableEq, Repr

/-- The queue number of a path. -/
def Path.q (p : Path) : Nat := 262144 * p.g + p.c.num

/-- Writes the deficits that a node's pointer moves changed. -/
def giveL1 (g : Nat) (p : Picked) (s : State) : State := forEach p.defs (fun d s => match l1At s g d.1 with | some x => setL1 g d.1 { x with ch := x.ch.withDef p.tier d.2 } s | none => s) s
def giveL2 (g : Nat) (p : Picked) (s : State) : State := forEach p.defs (fun d s => match l2At s g d.1 with | some x => setL2 g d.1 { x with ch := x.ch.withDef p.tier d.2 } s | none => s) s
def giveQ (g : Nat) (p : Picked) (s : State) : State := forEach p.defs (fun d s => let q := 262144 * g + d.1; match queueAt s q with | some x => setQueue q { x with ch := x.ch.withDef p.tier d.2 } s | none => s) s

/-- Pointers of a root. -/
def rootPtrs (s : State) (g root : Nat) : KMap Nat := kgetD s.fwd.roots (48 * g + root) []
def setRootPtrs (g root : Nat) (m : KMap Nat) (s : State) : State := { s with fwd := { s.fwd with roots := kset s.fwd.roots (48 * g + root) m } }

/-- A root selects down to a queue (R370). -/
def choose (rdy : Nat → Queue → Bool) (g root : Nat) (s : State) : State × Option Path :=
  match pick (liveL1 s rdy g root) (rootPtrs s g root) with
  | none => (s, none)
  | some a => match l1At s g a.num with
    | none => (s, none)
    | some x => match pick (liveL2 s rdy g a.num) x.ptrs with
      | none => (s, none)
      | some b => match l2At s g b.num with
        | none => (s, none)
        | some y => match pick (liveQueues s rdy g b.num) y.ptrs with
          | none => (s, none)
          | some c =>
            let s := giveQ g c (giveL2 g b (giveL1 g a (setRootPtrs g root (a.ptrs (rootPtrs s g root)) s)))
            let s := match l1At s g a.num with | some x => setL1 g a.num { x with ptrs := b.ptrs x.ptrs } s | none => s
            let s := match l2At s g b.num with | some y => setL2 g b.num { y with ptrs := c.ptrs y.ptrs } s | none => s
            (s, some ⟨g, root, a, b, c⟩)

/-! ### Taking a frame (R370, R371) -/

/-- A deficit after a charge; one at 0 or below moves the pointer past the child; an empty child has both deficits 0. -/
def Child.spend (c : Child) (tier bytes : Nat) (empty : Bool) : Child :=
  if empty then { c with defC := 0, defE := 0 } else c.withDef tier (c.def_ tier - bytes)

/-- The pointers after a charge of the chosen child. -/
def pass (p : Picked) (before : Child) (bytes : Nat) (m : KMap Nat) : KMap Nat := if before.def_ p.tier - bytes ≤ 0 then kset m p.key (2 * p.num + 1) else m

/-- The entries of a shaper that have come to lie beyond the coarse horizon. -/
def parkedBeyond (now : Nat) (old new : Shaper) : Nat :=
  (if beyond now old.waitP new.waitP then 1 else 0) + (if beyond now old.waitC new.waitC then 1 else 0)

/-- Counts a shaper's entries beyond the coarse horizon (R388). -/
def notePark (g now : Nat) (old new : Shaper) (s : State) : State :=
  let k := parkedBeyond now old new
  if k = 0 then s else cnt (cQm 2 g) k s

/-- Counts that an uplink budget entered the wheel (R388). -/
def noteWait (slice port : Nat) (old new : Shaper) (s : State) : State :=
  if new.waitP.isSome && old.waitP.isNone then cnt (cSlicePort 1 slice port) 1 s else s

/-- Whether packets lie below an uplink budget: below an L1 node of its slice on its port, in any group (R386). -/
def budgetBusy (s : State) (slice port : Nat) : Bool :=
  s.fwd.l1.any fun e => e.2.kind = .uplink port slice && l1Busy s (e.1 / 8192) (e.1 % 8192)

/-- Writes an uplink budget whose shaper changed from `old`, and counts what entered the wheel (R376, R388). -/
def parkBudget (slice port : Nat) (b : Budget) (old : Shaper) (busy : Bool) (s : State) : State :=
  let sh := b.sh.parked perNode (nowNs s) busy
  noteWait slice port old sh (notePark 0 (nowNs s) old sh (setUpBudget slice port { b with sh := sh } s))

/-- Charges an uplink budget and counts the bytes (R386, R388). -/
def chargeBudget (slice port len : Nat) (s : State) : State :=
  let b := upBudget s slice port
  let old := caught perNode b.sh s.tb
  parkBudget slice port { b with sh := old.charge (len + 20) false } old true (cnt (cSlicePort 0 slice port) (len + 20) s)

/-- Charges every shaper on a queue's path; `path` holds the tiers of a scheduled frame, none for a timed one (R371, R383, R386).
The deficits and pointers follow for a scheduled one. The frame taken lay below each of them, so that a credit which it takes below 0
enters the wheel (R376). -/
def chargePath (q len : Nat) (path : Option Path) (s : State) : State :=
  let g := groupOf q
  let now := nowNs s
  match queueAt s q with
  | none => s
  | some x => match l2At s g x.parent with
    | none => s
    | some y => match l1At s g y.parent with
      | none => s
      | some z =>
        let n2 := x.parent
        let n1 := y.parent
        let cost (sh : Shaper) : Nat := len + sh.set.adjust
        let tier (p : Path → Picked) : Bool := match path with | some h => (p h).tier = 0 | none => false
        let qs := caught perLeaf x.sh s.tb
        let ys := caught perLeaf y.sh s.tb
        let zs := caught perNode z.sh s.tb
        let qc := match path with | some h => x.ch.spend h.c.tier (cost qs) (x.pkts = []) | none => x.ch
        let qn := (qs.charge (cost qs) (tier (·.c))).parked perLeaf now true
        let s := notePark g now qs qn (setQueue q { x with ch := qc, sh := qn } s)
        let b2 := l2Busy s g n2
        let yc := match path with | some h => y.ch.spend h.b.tier (cost ys) (!b2) | none => y.ch
        let yn := (ys.charge (cost ys) (tier (·.b))).parked perLeaf now true
        let yp := match path with | some h => pass h.c x.ch (cost qs) y.ptrs | none => y.ptrs
        let s := notePark g now ys yn (setL2 g n2 { y with ch := yc, sh := yn, ptrs := yp } s)
        let b1 := l1Busy s g n1
        let zc := match path with | some h => z.ch.spend h.a.tier (cost zs) (!b1) | none => z.ch
        let zn := (zs.charge (cost zs) (tier (·.a))).parked perNode now true
        let zp := match path with | some h => pass h.b y.ch (cost ys) z.ptrs | none => z.ptrs
        let s := notePark g now zs zn (setL1 g n1 { z with ch := zc, sh := zn, ptrs := zp } s)
        let s := match path with | some h => setRootPtrs g h.root (pass h.a z.ch (cost zs) (rootPtrs s g h.root)) s | none => s
        match z.kind with
        | .uplink port slice => chargeBudget slice port len s
        | .onu _ _ _ => s

/-! ### Toward the uplinks (R385, R386) -/

/-- Whether an uplink queue offers its head packet (R369). -/
def upReady (_ : Nat) (x : Queue) : Bool :=
  !x.draining && match x.pkts with | p :: _ => p.place = .shallow || p.fetched | [] => false

/-- The offers of the four group roots of a port. -/
def offers (port : Nat) (gs : List Nat) (s : State) : State × List (Nat × Path) :=
  match gs with
  | [] => (s, [])
  | g :: t =>
    let (s, p) := choose upReady g (24 + port) s
    let (s, l) := offers port t s
    (s, match p with | some p => (g, p) :: l | none => l)

/-- The PRIO of an offer's queue. -/
def offerPrio (s : State) (p : Path) : Nat := match queueAt s p.q with | some x => x.ch.prio | none => 7

/-- The merger's choice: the lowest PRIO, then the deficit rule over the groups (R385). -/
def merge (m : Merger) (l : List (Nat × Path)) (s : State) : Option (Path × Merger) :=
  match l with
  | [] => none
  | h :: t =>
    let prio := (t.map fun e => offerPrio s e.2).foldl min (offerPrio s h.2)
    let set := l.filter fun e => offerPrio s e.2 = prio
    let kids : List Kid := set.map fun e => ⟨e.1, { weight := m.weights.getD e.1 1, defE := m.deficits.getD e.1 0 }, false⟩
    match pickFrom kids 1 (if m.ptr = 0 then none else some (m.ptr - 1)) with
    | none => none
    | some (g, ds) => (set.find? (·.1 = g)).map fun e =>
        (e.2, { m with deficits := ds.foldl (fun a d => lset a d.1 d.2) m.deficits, ptr := 2 * g + 1 })

/-- A frame leaves on a port: stamped, protected, sent (R218, R404, R412). A near-end loopback also returns it to the port, which counts
and discards it; a far-end one sends nothing of the device's own (R465, R466). A message that MACsec drops or a loopback keeps from going
out is not sent, and gets no stamp (R218). -/
def sendOnPort (port : Nat) (f : List Byte) (injected : Bool) (s : State) : State :=
  let y := secyOf s port
  let (t, out) := macTx port f s
  if out.isNone || portLoop s port = 3 then t
  else
    let (s, f) := ptpSend port f injected (!y.enable || y.bypasses f) s
    match macTx port f s with
    | (s, some g) => let s := emit (.ethTx port g) s; if portLoop s port = 0 then s else cnt (cLane 11 (loopedLane s port)) 1 s
    | (s, none) => s

/-- Whether a port takes frames: its link is up; root 47 carries nothing for port 23 in MODE 10 (R369, R477). -/
def portTakes (s : State) (port : Nat) : Bool := portUp s port

/-- UPLINK_SCHED_SELECT: the port's MAC, or the TDM block, takes a frame (R368, R385, R477). -/
def uplinkSelect (port : Nat) (s : State) : State :=
  if !portTakes s port then s
  else
    let (s, l) := offers port [0, 1, 2, 3] s
    match merge (mergerOf s port) l s with
    | none => s
    | some (p, m) =>
      let q := p.q
      if !hasDesc s q then missDesc q s
      else match takeHead q s with
        | none => s
        | some (pkt, t) =>
          let len := pkt.bytes.length
          let d := m.deficits.getD p.g 0 - (len : Int)
          let empty := !(l1Under t p.g p.root).any fun e => l1Busy t p.g e.1
          let m := { m with deficits := lset m.deficits p.g (if empty then 0 else d), ptr := if d ≤ 0 then 2 * p.g + 2 else 2 * p.g + 1 }
          let t := chargePath q len (some p) (setMerger port m t)
          if (portOf s port).mode = 10 then cePacketIn pkt.bytes t else sendOnPort port pkt.bytes pkt.injected t

/-! ### Toward the Piers (R368, R369, R380, R383, R384) -/

/-- The allocation structures of a map (R134). -/
def PMap.structs (m : PMap) : Nat := (m.grants.map fun g => max 1 g.allocs.length).sum

/-- The PLOAM messages of a frame (R134). -/
def ploamLimit (p : Nat) : Nat := if p = 2 then 1 else 8

/-- The profile that a `PIER_PROFILE_SET` gives. -/
def profOf (ws : List Word) : BProf :=
  let w := pw ws 2
  let v := pw ws 3
  ⟨fld w 10 8, bit w 4, bit w 3, bit w 0, fld v 27 24, fld v 15 8, fld v 6 0, wide ws 4 2, wide ws 6 2⟩

/-- The items by which accepted transactions change a Pier's profiles at the start of a frame or before it (R143). -/
def profChanges (s : State) (sp p n : Nat) : List Item :=
  ((acceptedTxns s).filter fun t => (acceptedAt t).getD 0 ≤ n * frameTb).flatMap fun t =>
    t.items.filter fun i => i.code = 0x0211 && pierName (pw i.words 1) = (sp, p)

/-- A Pier's profiles as its frame of a number announces them: a change that applies with the frame is known before (R143). -/
def profsIn (s : State) (sp p n : Nat) : KMap BProf :=
  (profChanges s sp p n).foldl (fun m i => kset m (fld (pw i.words 2) 17 16) (profOf i.words)) (pierOf s sp p).profs

/-- What an announcement says of a profile: its index and every field (R138, R140). -/
def profArgs (ix : Nat) (f : BProf) : List Nat :=
  [ix, f.rate, f.fec.toNat, f.splice.toNat, f.dmax, f.reps, f.delimBits, f.preamble, f.delimiter]

/-- The announcement of a Pier's valid profiles in its frame of a number. -/
def announcements (s : State) (sp p n : Nat) : List PMsg :=
  ((profsIn s sp p n).filter fun e => e.2.valid).map fun e => ⟨2, none, if p = 2 then .upstreamOverhead else .burstProfile, profArgs e.1 e.2⟩

/-- Whether a Span's opening runs: also after a close was accepted, until that close's T0 (R163, R164). -/
def opens (v : Span) : Bool := v.st = .opening || (v.st = .closing && v.cutOpening)

/-- Whether a frame carries the profile announcement (R138, R143, R163). -/
def announceDue (s : State) (sp p n : Nat) : Bool :=
  opens (spanOf s sp) || sfcOf p n % (pierOf s sp p).bpCycle = 0 || 0 < (pierOf s sp p).announce || profChanges s sp p n ≠ []

/-- Whether a Span's frame of a number carries the broadcast deactivation of its close, which starts at the apply point after T0 (R164). -/
def deactivates (v : Span) (n : Nat) : Bool := v.st = .closing && (v.phase = 3 || (v.phase = 2 && v.closeT0 < n))

/-- The messages in the order in which they leave: by origin, each origin's as queued. -/
def ploamOrder (l : List PMsg) : List PMsg := [0, 1, 2, 3].flatMap fun k => l.filter fun m => m.origin = k

/-- The messages that a Pier's frame of a number can carry, in their order: those that wait, the profile announcement where it is due, in
place of an older one that still waits, and the deactivation of a Span whose close has reached it (R137, R138, R164). -/
def frameMsgs (s : State) (sp p n : Nat) : List PMsg :=
  let l := (pierOf s sp p).ploam
  let l := if announceDue s sp p n then l.filter (·.origin ≠ 2) ++ announcements s sp p n else l
  let out : PMsg := ⟨0, none, .deactivate, []⟩
  ploamOrder (if deactivates (spanOf s sp) n && !l.contains out then l ++ [out] else l)

/-- The PLOAM messages that the Pier's next frame will carry: as many as its header was counted with, or what is known now to go with it. -/
def nextPloams (s : State) (sp p : Nat) : Nat :=
  let c := schedOf s sp p
  c.promised.getD (min (ploamLimit p) (frameMsgs s sp p (c.frame + 1)).length)

/-- Whether the map of the next frame is sealed (R136, R245). -/
def mapSealed (s : State) (sp : Nat) : Bool := !(spanOf s sp).truss.running

/-- The header bytes of the Pier's next frame: from its map and its messages, or before the map is sealed the most that they can be. -/
def nextHeader (s : State) (sp p : Nat) : Nat :=
  if mapSealed s sp then headerBytes p (((pierOf s sp p).next.map (·.structs)).getD 0) (nextPloams s sp p)
  else headerBytes p (if p = 2 then 256 else 512) (ploamLimit p)

/-- Where the payload of the next frame goes on, after what is to go on it already. -/
def nextFill (s : State) (sp p : Nat) : Nat :=
  (schedOf s sp p).rest.foldl (fun d r => max d r.at_ + pieceBytes p r.bytes.length) (nextHeader s sp p)

/-- A place on a Pier's payload at which a frame may start: the frame, the data byte, the instant. -/
structure Spot where
  frame : Nat
  d : Nat
  t : Rat
  deriving DecidableEq, Repr

/-- The first payload position at or after an instant and after the last frame already chosen: in the frame being sent, or in the next one
once its map is sealed (R368). -/
def spotFrom (s : State) (sp p : Nat) (t : Rat) : Option Spot :=
  let c := schedOf s sp p
  let fec := (pierOf s sp p).fecDs
  let place (f fill : Nat) : Option Spot := (positionFrom p fec f fill t).map fun d => ⟨f, d, byteAt p f (lineByte p fec d)⟩
  if c.frame ≠ frameNo s then none
  else match place c.frame c.fill with
    | some w => some w
    | none => if mapSealed s sp then place (c.frame + 1) (nextFill s sp p) else none

/-- The earliest instant of a position that a selection made now, or at the next tick, can be for: the assembly lead ahead (R232, R368). -/
def leadNow (s : State) (p : Nat) : Rat := psOf s.tb + (leadPs p : Nat)
def leadNext (s : State) (p : Nat) : Rat := psOf (s.tb + tickInc s.time) + (leadPs p : Nat)

/-- The position of a selection made now (R368). -/
def spotOf (s : State) (sp p : Nat) : Option Spot := spotFrom s sp p (leadNow s p)

/-- The header bytes of a frame as the Pier knows them: of the frame being sent, the one before it and the one after it. -/
def headOf (s : State) (sp p f : Nat) : Nat :=
  let c := schedOf s sp p
  if f = c.frame then c.head else if f + 1 = c.frame then c.headBefore else if f = c.frame + 1 then nextHeader s sp p else headerBytes p 0 0

/-- When a frame of a queue's head would be complete. -/
def endAt (s : State) (sp p : Nat) (w : Spot) (len : Nat) : Rat :=
  completion p (pierOf s sp p).fecDs w.frame w.d len
    (if w.frame = (schedOf s sp p).frame then nextHeader s sp p else headerBytes p (if p = 2 then 256 else 512) (ploamLimit p))

/-- Whether a Pier queue could send its head, gates and other queues' launches aside (R369): under the port record of its admission. -/
def downReady (s : State) (sp : Nat) (x : Queue) : Bool :=
  !x.draining && match x.pkts with
    | p :: _ => (p.place = .shallow || p.fetched) && match p.port with | some r => sendKey s sp r ≠ .held | none => false
    | [] => false

/-- The first payload position at or after an instant, from a data byte of its frame on. -/
def positionAfter (s : State) (sp p f fill : Nat) (t : Rat) : Spot :=
  let fec := (pierOf s sp p).fecDs
  match positionFrom p fec f fill t with
  | some d => ⟨f, d, byteAt p f (lineByte p fec d)⟩
  | none => let d := headOf s sp p (f + 1); ⟨f + 1, d, byteAt p (f + 1) (lineByte p fec d)⟩

/-- The payload position of an instant, not before a place: in its frame, or as the header of a later frame leaves it (R384). -/
def launchSpot (s : State) (sp p : Nat) (w : Spot) (l : Nat) : Spot :=
  let f := l / 125000000
  positionAfter s sp p (max f w.frame) (if f ≤ w.frame then w.d else headOf s sp p f) ((l : Nat) : Rat)

/-- The first payload position at or after a launch time, whatever is on the line (R232). -/
def launchFirst (s : State) (sp p l : Nat) : Rat := let f := l / 125000000; (positionAfter s sp p f (headOf s sp p f) ((l : Nat) : Rat)).t

/-- The timed queues of a Pier with their head's launch time and lateness (R383). -/
def timedHeads (s : State) (sp p : Nat) : List (Nat × Queue × Nat × Bool) :=
  s.fwd.queues.filterMap fun e =>
    if pierOfQueue s e.1 e.2 = some (sp, p) && !e.2.draining then
      match e.2.pkts with
      | k :: _ => match k.launch with
        | some l => some (e.1, e.2, l, k.late)
        | none => none
      | [] => none
    else none

/-- Whether a queue is a timed queue of the schedule now: its head carries a launch time. -/
def isTimed (x : Queue) : Bool := match x.pkts with | k :: _ => k.launch.isSome | [] => false

/-- Whether a frame of a queue keeps within its gate at a place. -/
def gateFits (s : State) (sp p : Nat) (w : Spot) (x : Queue) : Bool :=
  match x.pkts with
  | k :: _ => gateAllows (schedOf s sp p) x.ch.gate w.t (endAt s sp p w k.bytes.length)
  | [] => false

/-- The instants in ps at which the entries of a list begin, from the cycle that holds an instant on, over two cycles. -/
def entryStarts (l : GateList) (t : Rat) : List Nat :=
  let at_ (c : Nat) : List Nat := (l.entries.foldl (fun (a : Nat × List Nat) e => (a.1 + 1000 * e.2, a.2 ++ [a.1])) (c, [])).2
  let c := (t - cycleOffset l t).floor.toNat
  at_ c ++ at_ (c + 1000 * l.cycle)

/-- The launch position of a timed queue's head: that of its launch time; of a late one, the place itself, or the first of a later gate
opening within which it completes, if there is one (R232, R384). -/
def launchPlace (s : State) (sp p : Nat) (w : Spot) (e : Nat × Queue × Nat × Bool) : Option Spot :=
  if !e.2.2.2 then some (launchSpot s sp p w e.2.2.1)
  else if gateFits s sp p w e.2.1 then some w
  else match (schedOf s sp p).listFor w.t with
    | none => some w
    | some l => ((entryStarts l w.t).filter fun t => w.t < ((t : Nat) : Rat)).findSome? fun t =>
        let u := launchSpot s sp p w t
        if gateFits s sp p u e.2.1 then some u else none

/-- Whether a non-timed frame of a queue may go at a place: ready, inside its gate, and clear of the protected launches. -/
def downFits (s : State) (sp p : Nat) (w : Spot) (x : Queue) : Bool × Bool × Bool :=
  let len := match x.pkts with | k :: _ => k.bytes.length | [] => 0
  let stop := endAt s sp p w len
  let prot := !(schedOf s sp p).protect || (timedHeads s sp p).all fun e => match launchPlace s sp p w e with | some u => stop ≤ u.t | none => true
  (downReady s sp x && !isTimed x, gateFits s sp p w x, prot)

/-- A frame or fragment of a port leaves at a data byte of a frame, its bytes counted, with the index of its key or 0 (R139, R161). -/
def sendPiece (sp p frame d : Nat) (r : PortRec) (bs : List Byte) (s : State) : State :=
  let s := cnt (cOnu 11 sp r.onu) bs.length s
  match sendKey s sp r with
  | .under ix k => emit (.pierTx sp p r.portId ix (ponCtr k (counterBlock p frame d) bs)) s
  | _ => emit (.pierTx sp p r.portId 0 bs) s

/-- Puts a port's bytes on the payload of the frame being sent from a data byte on: whole, or the first fragment with the rest kept for
the next frame (R558). -/
def putPiece (sp p d : Nat) (r : PortRec) (bs : List Byte) (s : State) : State :=
  let fec := (pierOf s sp p).fecDs
  let c := schedOf s sp p
  let whole := pieceBytes p bs.length
  if d + whole ≤ dataBytes p fec then sendPiece sp p c.frame d r bs (setSched sp p { c with fill := d + whole } s)
  else
    let c (n : Nat) : PierSched := { c with fill := dataBytes p fec, rest := c.rest ++ [{ port := r, bytes := bs.drop n }] }
    match roomAt p fec d with
    | some n => sendPiece sp p (c n).frame d r (bs.take n) (setSched sp p (c n) s)
    | none => setSched sp p (c 0) s

/-- A chosen frame goes on the line from a place: at once, or kept for its place in the next frame. A choice that reaches into the next
frame fixes the number of messages of that frame's header, but on the G-pier, whose PCBd always holds one (R380, R558; assumption 101). -/
def putOnLine (sp p : Nat) (w : Spot) (x : Queue) (pkt : Packet) (s : State) : State :=
  let fec := (pierOf s sp p).fecDs
  let c := schedOf s sp p
  let ahead := w.frame ≠ c.frame
  let into := ahead || dataBytes p fec < w.d + pieceBytes p pkt.bytes.length
  let c := { c with
    line := (c.line.filter fun e => psOf s.tb < e.stop) ++ [⟨x.ch.gate, w.t, endAt s sp p w pkt.bytes.length, w.frame, w.d, pkt.bytes.length⟩]
    promised := if into && mapSealed s sp && p ≠ 2 then some (nextPloams s sp p) else c.promised }
  match pkt.port with
  | none => s
  | some r =>
    if ahead then setSched sp p { c with fill := dataBytes p fec, rest := c.rest ++ [⟨r, pkt.bytes, w.d⟩] } s
    else putPiece sp p w.d r pkt.bytes (setSched sp p c s)

/-- What is to go on the payload of the Pier's new frame: the remainders of fragmented frames first, then what was selected for it, under
the keys of that frame (R397, R558); a piece whose traffic is held waits for the frame in which it is not (R399; assumption 139). -/
def sendRest (sp p : Nat) (s : State) : State :=
  let c := schedOf s sp p
  forEach c.rest (fun r s =>
    let c := schedOf s sp p
    if sendKey s sp r.port = .held then setSched sp p { c with rest := c.rest ++ [{ r with at_ := 0 }] } s
    else putPiece sp p (max c.fill r.at_) r.port r.bytes s)
    (setSched sp p { c with rest := [] } s)

/-- A frame on the line as the header of the frame after its own leaves it: its last bit's instant is exact once that header stands
(R380, R558). -/
def OnLine.settled (p : Nat) (fec : Bool) (frame head : Nat) (e : OnLine) : OnLine :=
  if e.frame + 1 = frame then { e with stop := completion p fec e.frame e.d e.len head } else e

/-- A Pier's new downstream frame: its header is placed and the remainders of fragmented frames follow (R135, R558). -/
def newPayload (sp p structs ploams : Nat) (s : State) : State :=
  let h := headerBytes p structs ploams
  let c := schedOf s sp p
  sendRest sp p (setSched sp p { c with
    frame := frameNo s, promised := none, head := h, headBefore := if c.frame + 1 = frameNo s then c.head else headerBytes p 0 0, fill := h
    line := c.line.map (OnLine.settled p (pierOf s sp p).fecDs (frameNo s) h) } s)

/-- The timed head that goes first: that of the first position at or after its launch time; of one position, that of the lower queue
number (R383). -/
def firstTimed (s : State) (sp p : Nat) (l : List (Nat × Queue × Nat × Bool)) : Option (Nat × Queue × Nat × Bool) :=
  let key (e : Nat × Queue × Nat × Bool) : Rat := launchFirst s sp p e.2.2.1
  l.foldl (fun best e => match best with | none => some e | some b => if key e < key b then some e else best) none

/-- The place of a timed head that a selection made now takes: that of a late one, or where it is due, as long as the next tick's selection
could not be for that position any more (R232, R368, R383). -/
def timedSpot (s : State) (sp p : Nat) (w : Spot) (e : Nat × Queue × Nat × Bool) : Option Spot :=
  if !downReady s sp e.2.1 then none
  else if e.2.2.2 then match launchPlace s sp p w e with
    | some u => if u.t ≤ w.t || u.t < leadNext s p then some u else none
    | none => none
  else if ((e.2.2.1 : Nat) : Rat) ≤ w.t then some w
  else match spotFrom s sp p (max (leadNow s p) ((e.2.2.1 : Nat) : Rat)) with
    | some u => if u.t < leadNext s p then some u else none
    | none => none

/-- A timed frame at its place: sent, or late where its gate would close first (R232, R383). -/
def timedStep (sp p : Nat) (w : Spot) (e : Nat × Queue × Nat × Bool) (s : State) : State :=
  let (q, x, l, late) := e
  match x.pkts with
  | [] => s
  | k :: t =>
    let len := k.bytes.length
    if !gateFits s sp p w x then
      if late then s
      else
        if sendLate s q then cnt (cPier 18 sp p) 1 (setQueue q { x with pkts := { k with late := true } :: t } s)
        else newHead q (cnt (cPier 17 sp p) 1 (dropQueued q 0 17 s))
    else if !hasDesc s q then missDesc q s
    else match takeHead q s with
      | none => s
      | some (pkt, s) =>
        let held := !late && (schedOf s sp p).line.any fun f => launchFirst s sp p l < f.stop
        let s := if held then cnt (cPier 19 sp p) 1 s else s
        putOnLine sp p w x pkt (clearEmpty q (chargePath q len none s))

/-- PIER_SCHED_SELECT: a Pier root selects the frame for the next payload position (R368 to R371, R380, R383, R384). A queue that a shaper
blocks anyway is passed over for no gate and no protection (R388). -/
def pierSelect (sp p : Nat) (s : State) : State :=
  let v := spanOf s sp
  if (v.st ≠ .opened && v.st ≠ .closing) || v.standby || !(pierOf s sp p).enable || !(pierOf s sp p).txOn then s
  else match spotOf s sp p with
    | none => s
    | some w =>
      let heads := (timedHeads s sp p).filter fun e => (timedSpot s sp p w e).isSome
      match firstTimed s sp p heads with
      | some e => timedStep sp p ((timedSpot s sp p w e).getD w) e s
      | none =>
        let g := sp / 8
        let mine := s.fwd.queues.filter fun e => pierOfQueue s e.1 e.2 = some (sp, p)
        let seen := (mine.filter fun e => pathPasses s g e.2).map fun e => (downFits s sp p w e.2, gateOpenAt ((schedOf s sp p).listFor w.t) e.2.ch.gate w.t)
        let s1 := if seen.any fun e => e.1.1 && !e.1.2.1 && e.2 then cnt (cPier 10 sp p) 1 s else s
        let s1 := if seen.any fun e => e.1.1 && e.1.2.1 && !e.1.2.2 then cnt (cPier 14 sp p) 1 s1 else s1
        let rdy (_ : Nat) (x : Queue) : Bool := let f := downFits s sp p w x; f.1 && f.2.1 && f.2.2
        match choose rdy g (3 * (sp % 8) + p) s1 with
        | (t, none) => t
        | (t, some h) =>
          if !hasDesc t h.q then missDesc h.q t
          else match queueAt t h.q, takeHead h.q t with
            | some x, some (pkt, u) => putOnLine sp p w x pkt (chargePath h.q pkt.bytes.length (some h) u)
            | _, _ => t

/-- The next cycle end of a list after now, in counter units (R379). -/
def nextCycleEnd (l : GateList) (tb : Nat) : Nat :=
  let c := l.cycle * 2 ^ 40
  tb + c - (tb + c - l.base * 2 ^ 40) % c

/-- The frames on a Pier's line that run into a class which a list in force from an instant on closes (R381). -/
def overruns (l : Option GateList) (at_ : Rat) (line : List OnLine) : Nat :=
  match l with
  | some l => (line.filter fun f => at_ < f.stop && closesWithin l f.gate (max at_ f.start) f.stop).length
  | none => 0

/-- A list comes into force on a Pier at an instant: the swap and the frames that it overruns are counted (R381, R388). -/
def listInForce (sp p : Nat) (l : Option GateList) (at_ : Rat) (s : State) : State :=
  let c := schedOf s sp p
  let bad := overruns l at_ c.line
  let s := cnt (cPier 13 sp p) 1 (setSched sp p { c with list := l, waiting := none } s)
  if bad = 0 then s else cnt (cPier 11 sp p) bad s

/-- GATE_CYCLE_END: the timebase reaches the end of a cycle of the list in force: of the cycle after which a list that waits takes over,
or of the one in progress (R379, R381). -/
def gateCycleEnd (sp p : Nat) (s : State) : State :=
  let c := schedOf s sp p
  match c.waiting, c.list with
  | some l, _ => releaseObj ⟨.gateList, 3 * sp + p⟩ (listInForce sp p l c.swapPs (advance c.swapAt s))
  | none, some l => advance (nextCycleEnd l s.tb) s
  | none, none => s

/-! ### Refills and the wheel -/

/-- The next refill instant of a period after now, in counter units. -/
def nextRefill (per : Nat) (s : State) : Nat := (s.tb / (per * 2 ^ 40) + 1) * (per * 2 ^ 40)

/-- Rewrites the shaper of a node, with its refill period. -/
def modShaper (n : NodeRef) (f : Nat → Shaper → Shaper) (s : State) : State :=
  match n with
  | .l1 g k => match l1At s g k with | some x => setL1 g k { x with sh := f perNode x.sh } s | none => s
  | .l2 g k => match l2At s g k with | some x => setL2 g k { x with sh := f perLeaf x.sh } s | none => s
  | .queue q => match queueAt s q with | some x => setQueue q { x with sh := f perLeaf x.sh } s | none => s
  | .budget k port => let b := upBudget s k port; setUpBudget k port { b with sh := f perNode b.sh } s

/-- The shaper of a node, its period, and whether packets lie below it. -/
def shaperOf (s : State) (n : NodeRef) : Option (Nat × Shaper × Bool) :=
  match n with
  | .l1 g k => (l1At s g k).map fun x => (perNode, x.sh, l1Busy s g k)
  | .l2 g k => (l2At s g k).map fun x => (perLeaf, x.sh, l2Busy s g k)
  | .queue q => (queueAt s q).map fun x => (perLeaf, x.sh, x.pkts ≠ [])
  | .budget k port => some (perNode, (upBudget s k port).sh, budgetBusy s k port)

/-- Writes a shaper whose wheel entries changed, and counts what entered the wheel (R388). -/
def putShaper (n : NodeRef) (now : Nat) (old new : Shaper) (s : State) : State :=
  let s := modShaper n (fun _ _ => new) s
  match n with
  | .l1 g _ => notePark g now old new s
  | .l2 g _ => notePark g now old new s
  | .queue q => notePark (groupOf q) now old new s
  | .budget k port => noteWait k port old new (notePark 0 now old new s)

/-- SHAPER_REFILL: the shaper's next refill instant comes; one that is below 0 with packets below it is in the wheel (R373, R376). -/
def shaperRefill (n : NodeRef) (s : State) : State :=
  match shaperOf s n with
  | none => s
  | some (per, x, busy) =>
    let s := advance (nextRefill per s) s
    let y := caught per x s.tb
    putShaper n (nowNs s) y (y.parked per (nowNs s) busy) s

/-- WHEEL_FINE_RELEASE: an entry is released at its t_elig; a bucket still below 0 enters again (R376). -/
def wheelRelease (n : NodeRef) (committed : Bool) (s : State) : State :=
  match shaperOf s n with
  | none => s
  | some (per, x, busy) =>
    match if committed then x.waitC else x.waitP with
    | some w =>
      if !w.fine then s
      else
        let s := advance (w.elig * 2 ^ 40) s
        let y := if committed then { caught per x s.tb with waitC := none } else { caught per x s.tb with waitP := none }
        putShaper n (nowNs s) y (y.parked per (nowNs s) busy) s
    | none => s

/-- The coarse entries of a shaper whose slot has come move into the fine wheel; a parked one is computed again. -/
def Shaper.migrate (x : Shaper) (per now : Nat) : Shaper :=
  let move (w : Option Wheel) (rate : Nat) (credit : Int) : Option Wheel :=
    match w with
    | some e => if e.fine || now < e.slot then some e else match eligAt per now (incOf rate per) credit with
      | some t => some (wheelAt now (if credit < 0 then t else now))
      | none => some ⟨e.elig, true, e.elig / 200 * 200⟩
    | none => none
  { x with waitP := move x.waitP x.set.pir x.peak, waitC := move x.waitC x.set.cir x.comm }

/-- The coarse slot starts of a group's wheel entries; group 0 holds those of the uplink budgets (assumption 144). -/
def coarseSlots (s : State) (g : Nat) : List Nat :=
  let of (x : Shaper) : List Nat := (x.waitP.toList ++ x.waitC.toList).filterMap fun w => if w.fine then none else some w.slot
  ((s.fwd.l1.filter fun e => e.1 / 8192 = g).flatMap fun e => of e.2.sh) ++ ((s.fwd.l2.filter fun e => e.1 / 65536 = g).flatMap fun e => of e.2.sh) ++
    ((s.fwd.queues.filter fun e => groupOf e.1 = g).flatMap fun e => of e.2.sh) ++ if g = 0 then s.fwd.budgets.flatMap fun e => of e.2.sh else []

/-- WHEEL_COARSE_MIGRATE: the timebase reaches the next coarse slot of a group that holds entries (R376). -/
def wheelMigrate (g : Nat) (s : State) : State :=
  match coarseSlots s g with
  | [] => s
  | a :: t =>
    let s := advance ((t.foldl min a) * 2 ^ 40) s
    let now := nowNs s
    let f (per : Nat) (x : Shaper) : Shaper := (caught per x s.tb).migrate per now
    let again (per : Nat) (x : Shaper) : Nat := parkedBeyond now x (f per x)
    let k := ((s.fwd.l1.filter fun e => e.1 / 8192 = g).map fun e => again perNode e.2.sh).sum +
      ((s.fwd.l2.filter fun e => e.1 / 65536 = g).map fun e => again perLeaf e.2.sh).sum +
      ((s.fwd.queues.filter fun e => groupOf e.1 = g).map fun e => again perLeaf e.2.sh).sum +
      (if g = 0 then (s.fwd.budgets.map fun e => again perNode e.2.sh).sum else 0)
    cnt (cQm 2 g) k { s with fwd := { s.fwd with
        l1 := kmap s.fwd.l1 fun k x => if k / 8192 = g then { x with sh := f perNode x.sh } else x
        l2 := kmap s.fwd.l2 fun k x => if k / 65536 = g then { x with sh := f perLeaf x.sh } else x
        queues := kmap s.fwd.queues fun k x => if groupOf k = g then { x with sh := f perLeaf x.sh } else x
        budgets := if g = 0 then kmap s.fwd.budgets fun _ x => { x with sh := f perNode x.sh } else s.fwd.budgets } }

/-- The shapers on a queue's path enter the wheel where packets have come to lie below them (R376). -/
def repark (q : Nat) (s : State) : State :=
  let g := groupOf q
  let now := nowNs s
  let f (n : NodeRef) (s : State) : State := match shaperOf s n with
    | some (per, x, busy) => let y := caught per x s.tb; putShaper n now y (y.parked per now busy) s
    | none => s
  match queueAt s q with
  | none => s
  | some x =>
    let s := match schedRef 3 q with | some n => f n s | none => s
    let s := match schedRef 2 (262144 * g + x.parent) with | some n => f n s | none => s
    match l2At s g x.parent with
    | some y =>
      let s := match schedRef 1 (262144 * g + y.parent) with | some n => f n s | none => s
      match l1At s g y.parent with
      | some z => match z.kind with
        | .uplink port k => if h : k < 16 ∧ port < 24 then f (.budget ⟨k, h.1⟩ ⟨port, h.2⟩) s else s
        | .onu _ _ _ => s
      | none => s
    | none => s
where
  /-- A node by its level and its number with the group. -/
  schedRef (level o : Nat) : Option NodeRef :=
    match level with
    | 1 => if h : o / 262144 < 4 ∧ o % 65536 < 8192 then some (.l1 ⟨o / 262144, h.1⟩ ⟨o % 65536, h.2⟩) else none
    | 2 => if h : o / 262144 < 4 ∧ o % 65536 < 65536 then some (.l2 ⟨o / 262144, h.1⟩ ⟨o % 65536, h.2⟩) else none
    | 3 => if h : o < 1048576 then some (.queue ⟨o, h⟩) else none
    | _ => none

/-! ### Policers (R377) -/

/-- A port's policer. -/
def policerOf (s : State) (port : Nat) : Policer := kgetD s.fwd.policers port {}
def setPolicer (port : Nat) (x : Policer) (s : State) : State := { s with fwd := { s.fwd with policers := kset s.fwd.policers port x } }

/-- A policer as every refill up to an instant leaves it (R373, R375, R377). -/
def Policer.caught (x : Policer) (now : Nat) : Policer :=
  match refills perLeaf x.at_ now with
  | 0 => x
  | n + 1 =>
    let (cir, cbs, pir, pbs) := x.next.getD (x.cir, x.cbs, x.pir, x.pbs)
    { cir, cbs, pir, pbs, next := none, at_ := now, peak := min (x.peak + (n + 1) * incOf pir perLeaf) (pbs * 65536), comm := min (x.comm + (n + 1) * incOf cir perLeaf) (cbs * 65536) }

/-- A policer as a pipeline that is switched on again has it: its settings, its buckets full (R122, R377). -/
def Policer.afresh (now : Nat) (x : Policer) : Policer :=
  let (cir, cbs, pir, pbs) := x.next.getD (x.cir, x.cbs, x.pir, x.pbs)
  { cir, cbs, pir, pbs, next := none, at_ := now - 1, peak := pbs * 65536, comm := cbs * 65536 }

/-- POLICER_REFILL. -/
def policerRefill (port : Nat) (s : State) : State :=
  let s := advance (nextRefill perLeaf s) s
  if (kget s.fwd.policers port).isSome then setPolicer port ((policerOf s port).caught s.tb) s else s

/-- The colour of a frame: 0 green, 1 yellow, 2 red (R377). -/
def police (port len : Nat) (s : State) : State × Nat :=
  let x := (policerOf s port).caught s.tb
  let n := len * 65536
  if x.peak < n then (setPolicer port x s, 2)
  else if x.comm < n then (setPolicer port { x with peak := x.peak - n } s, 1)
  else (setPolicer port { x with peak := x.peak - n, comm := x.comm - n } s, 0)

/-- Every shaper and policer across a step of the counter, and the end of the gate cycle that a waiting list waits for (R224, R373, R379). -/
def shapersStep (old new : Nat) (s : State) : State :=
  { s with fwd := { s.fwd with
      l1 := kmap s.fwd.l1 fun _ x => { x with sh := x.sh.stepped perNode old new }
      l2 := kmap s.fwd.l2 fun _ x => { x with sh := x.sh.stepped perLeaf old new }
      queues := kmap s.fwd.queues fun _ x => { x with sh := x.sh.stepped perLeaf old new }
      budgets := kmap s.fwd.budgets fun _ x => { x with sh := x.sh.stepped perNode old new }
      policers := kmap s.fwd.policers fun _ x => { x.caught old with at_ := new }
      piers := kmap s.fwd.piers fun _ x => match x.waiting, x.list with
        | some _, some l => { x with swapAt := if x.swapAt ≤ old then new else nextCycleEnd l new }
        | _, _ => x } }

/-! ### Calls of family 0x09 -/

/-- The object a `SCHED_NODE_SET` or `SCHED_NODE_READ` names, none for LEVEL 0 or a number out of range. -/
def schedName (w : Word) : Option NodeRef :=
  repark.schedRef (fld w 25 24) (fld w 19 0)

/-- The owner of a node, none where it does not exist, or of a queue number, by its range (R357). -/
def schedOwner (s : State) (n : NodeRef) : Option Nat :=
  match n with
  | .l1 g k => (l1At s g k).map fun x => l1Owner s x.kind
  | .l2 g k => l2Owner s g k
  | .queue q => some (queueOwner s q)
  | .budget _ _ => none

/-- The tree fields of a node. -/
def childOf (s : State) (n : NodeRef) : Option Child :=
  match n with
  | .l1 g k => (l1At s g k).map (·.ch)
  | .l2 g k => (l2At s g k).map (·.ch)
  | .queue q => (queueAt s q).map (·.ch)
  | .budget _ _ => none

/-- Writes the tree fields of a node. -/
def setChild (n : NodeRef) (c : Child) (s : State) : State :=
  match n with
  | .l1 g k => match l1At s g k with | some x => setL1 g k { x with ch := c } s | none => s
  | .l2 g k => match l2At s g k with | some x => setL2 g k { x with ch := c } s | none => s
  | .queue q => match queueAt s q with | some x => setQueue q { x with ch := c } s | none => s
  | .budget _ _ => s

/-- `SCHED_NODE_SET` (R372 to R375, R389, R390): GATE counts for Pier queues only, and a session of version 2.0 leaves it as it is
(assumption 144). -/
def schedNodeSet : TxnCall where
  spec := { code := 0x0901, who := .bound, lens := [7], used := [0xFFFFFFFF, 0x030FFFFF, 0xE3FF707F, 0xFFFFFFFF, 0xFFFFFF, 0xFFFFFFFF, 0xFFFFFF] }
  objs s i := do
    let w := pw i.words 1
    let v := pw i.words 2
    let pir := (pw i.words 5).toNat
    match schedName w with
    | none => .error .badArg
    | some n => do
      needOwnerOptAs i.slice (schedOwner s n)
      need (1 ≤ fld v 25 16 && (pir ≤ 800000000 || pir = unshaped) && (pw i.words 3).toNat ≤ pir) .badArg
      return [⟨.schedNode, (pw i.words 1).toNat⟩]
  apply i s := do
    let v := pw i.words 2
    match schedName (pw i.words 1) with
    | none => .error .badArg
    | some n => match childOf s n, shaperOf s n with
      | some c, some (per, sh, busy) => do
        let set : ShapeSet := { cir := (pw i.words 3).toNat, cbs := fld (pw i.words 4) 23 0, pir := (pw i.words 5).toNat, pbs := fld (pw i.words 6) 23 0, adjust := fld v 6 0 }
        let gate := match n with | .queue q => if i.version = 0x0200 then c.gate else if ((queueAt s q).bind (pierOfQueue s q)).isSome then fld v 14 12 else 0 | _ => 0
        let new := { c with prio := fld v 31 29, weight := fld v 25 16, gate := gate }
        let guarded := match n with | .l1 _ _ => true | _ => false
        let same := new.prio = c.prio && new.weight = c.weight && set.cir = sh.wanted.cir && set.cbs = sh.wanted.cbs
        need (!guarded || same || i.slice = some 0) .notOwner
        let moved := new.prio ≠ c.prio || (set.cir = 0) ≠ (sh.wanted.cir = 0)
        let new := if moved then { new with defC := 0, defE := 0 } else new
        let y := reset per sh set s.tb
        return putShaper n (nowNs s) y (y.parked per (nowNs s) busy) (setChild n new s)
      | _, _ => .error .badState

/-- `SCHED_NODE_READ` (R390); GATE reads 0 in a session of version 2.0 (R389). The table gives six words for five settings; the sixth word is a free value (assumption 37). -/
def schedNodeRead (ch : Nat) (ws : List Word) (s : State) : Res (State × List Word) := do
  match schedName (pw ws 0) with
  | none => .error .badArg
  | some n => do
    needOwnerOpt s ch (schedOwner s n)
    match childOf s n, shaperOf s n with
    | some c, some (per, sh, _) =>
      let x := caught per sh s.tb
      let b (v : Int) : Word := wd (unsgn 32 (v / 65536))
      let gate := if versionOf s ch = 0x0200 then 0 else c.gate
      return (drawn s, [put c.prio 29 ||| put c.weight 16 ||| put gate 12 ||| wd x.set.adjust, wd x.set.cir, wd x.set.cbs, wd x.set.pir, wd x.set.pbs,
        Config.freeWord s.free, b x.peak, b x.comm, putb x.waitC.isSome 1 ||| putb x.waitP.isSome 0])
    | _, _ => .error .badState

/-- The owner of a port record's ONU, none where the record was never set. -/
def portOwner (s : State) (k : Nat) : Option Nat := (kget s.fwd.ports k).map fun r => onuOwner s (k / 8192) r.onu

/-- The key of the port record named in bits [28:16] and [4:0]. -/
def portKey (w : Word) : Nat := 8192 * fld w 4 0 + fld w 28 16

/-- `POLICER_SET` (R377, R390). -/
def policerSet : TxnCall where
  spec := { code := 0x0910, who := .bound, lens := [6], used := [0xFFFFFFFF, 0x1FFF001F, 0xFFFFFFFF, 0xFFFFFF, 0xFFFFFFFF, 0xFFFFFF] }
  objs s i := do
    needOwnerOptAs i.slice (portOwner s (portKey (pw i.words 1)))
    need ((pw i.words 4).toNat ≤ 50000000 && (pw i.words 2).toNat ≤ (pw i.words 4).toNat) .badArg
    return [⟨.policer, portKey (pw i.words 1)⟩]
  apply i s := do
    let k := portKey (pw i.words 1)
    need (kget s.fwd.ports k).isSome .badState
    let x := (policerOf s k).caught (s.tb - 1)
    return setPolicer k { x with next := some ((pw i.words 2).toNat, fld (pw i.words 3) 23 0, (pw i.words 4).toNat, fld (pw i.words 5) 23 0) } s

/-- `POLICER_READ` (R390). -/
def policerRead (ch : Nat) (ws : List Word) (s : State) : Res (List Word) := do
  let k := portKey (pw ws 0)
  needOwnerOpt s ch (portOwner s k)
  need (kget s.fwd.ports k).isSome .badState
  let x := (policerOf s k).caught s.tb
  return [wd x.cir, wd x.cbs, wd x.pir, wd x.pbs, wd (x.comm / 65536), wd (x.peak / 65536)]

/-- Gate list entries from their words (R378). -/
def gateEntries (ws : List Word) : List (Nat × Nat) := ws.map fun w => (fld w 31 24, fld w 23 0)

/-- `GATE_LIST_SET` (R378 to R381, R390): the entries are those Saend read by DMA with the call. The list waits for the end of the
cycle in progress, which is the one that starts there at an apply point on a cycle start; a Pier with no list in force takes it at the
apply point (assumption 21). -/
def gateListSet : TxnCall where
  spec := { code := 0x0920, who := .slice0, intro := 0x0201, lens := [7], used := [0xFFFFFFFF, 0x1F03, 0x3FFFFFFF, 0x3FFFFFFF, 0x1FF, 0xFFFFFFFF, 0xFFFFFFFF] }
  objs _ i := do
    let n := fld (pw i.words 4) 8 0
    let cyc := fld (pw i.words 2) 29 0
    let es := gateEntries ((wordsOfBytes i.dma).take n)
    need (fld (pw i.words 1) 1 0 ≤ 2 && n ≤ 256) .badArg
    need (n = 0 || (10000 ≤ cyc && 1000000000 % cyc = 0 && fld (pw i.words 3) 29 0 < cyc && es.length = n && es.all (fun e => 200 ≤ e.2) && (es.map (·.2)).sum = cyc)) .badArg
    return [⟨.gateList, pierIx (pw i.words 1)⟩]
  apply i s :=
    let (sp, p) := pierName (pw i.words 1)
    let n := fld (pw i.words 4) 8 0
    let l : Option GateList := if n = 0 then none else some ⟨gateEntries ((wordsOfBytes i.dma).take n), fld (pw i.words 2) 29 0, fld (pw i.words 3) 29 0⟩
    let c := schedOf s sp p
    match c.list with
    | none => .ok (if n = 0 then s else listInForce sp p l (psOf s.tb) s)
    | some old => .ok (addLater ⟨.gateList, 3 * sp + p⟩ (setSched sp p { c with waiting := some l, swapAt := nextCycleEnd old s.tb } s))

/-- `GATE_LIST_READ` (R390). -/
def gateListRead (ch : Nat) (ws : List Word) (s : State) : Res (State × List Word) := do
  need (fld (pw ws 0) 1 0 ≤ 2) .badArg
  let (sp, p) := pierName (pw ws 0)
  let c := schedOf s sp p
  let es := (c.list.map (·.entries)).getD []
  let addr := wide ws 1 2
  let bytes := bytesOfWords (es.map fun e => wd (e.1 * 2 ^ 24 + e.2))
  let s := if addr = 0 then s else emit (.dma ch addr ((bytes ++ List.replicate 1024 0).take 1024)) s
  return (s, [putb c.waiting.isSome 31 ||| wd es.length, wd ((c.list.map (·.cycle)).getD 0), wd ((c.list.map (·.base)).getD 0)])

/-- `PIER_SCHED_CONFIG` (R384). -/
def pierSchedConfig : TxnCall where
  spec := { code := 0x0922, who := .slice0, intro := 0x0201, lens := [3], used := [0xFFFFFFFF, 0x1F03, 1] }
  objs _ i := do
    need (fld (pw i.words 1) 1 0 ≤ 2) .badArg
    return [⟨.pierSched, pierIx (pw i.words 1)⟩]
  apply i s :=
    let (sp, p) := pierName (pw i.words 1)
    .ok (setSched sp p { schedOf s sp p with protect := bit (pw i.words 2) 0 } s)

/-- `UPLINK_SCHED_CONFIG` (R385). -/
def uplinkSchedConfig : TxnCall where
  spec := { code := 0x0930, who := .slice0, lens := [3], used := [0xFFFFFFFF, 0x1F, 0xFFFFFFFF] }
  objs _ i := do
    let w := pw i.words 2
    need (fld (pw i.words 1) 4 0 ≤ 23 && 1 ≤ fld w 31 24 && 1 ≤ fld w 23 16 && 1 ≤ fld w 15 8 && 1 ≤ fld w 7 0) .badArg
    return [⟨.uplinkSched, fld (pw i.words 1) 4 0⟩]
  apply i s :=
    let w := pw i.words 2
    let n := fld (pw i.words 1) 4 0
    .ok (setMerger n { mergerOf s n with weights := [fld w 7 0, fld w 15 8, fld w 23 16, fld w 31 24] } s)

/-- A budget's shaper takes up the rate and burst in force (R375, R386). -/
def Budget.retune (b : Budget) (now : Nat) : Budget := { b with sh := reset perNode b.sh { pir := b.effective, pbs := b.burst, adjust := 20 } now }

/-- Writes an uplink budget of new rates: its shaper takes them up, and one below 0 with packets below it is in the wheel (R376). -/
def retuneBudget (slice port : Nat) (b : Budget) (s : State) : State :=
  let b := b.retune s.tb
  parkBudget slice port b b.sh (budgetBusy s slice port) s

/-- `UPLINK_BUDGET_SET` (R386). -/
def uplinkBudgetSet : TxnCall where
  spec := { code := 0x0931, who := .slice0, lens := [4], used := [0xFFFFFFFF, 0xF001F, 0xFFFFFFFF, 0xFFFFFF] }
  objs _ i := do
    let r := (pw i.words 2).toNat
    need (fld (pw i.words 1) 4 0 ≤ 23 && (r ≤ 800000000 || r = unshaped)) .badArg
    return [⟨.uplinkBudget, 24 * fld (pw i.words 1) 19 16 + fld (pw i.words 1) 4 0⟩]
  apply i s :=
    let k := fld (pw i.words 1) 19 16
    let n := fld (pw i.words 1) 4 0
    (needSlice s k).map fun _ => retuneBudget k n { upBudget s k n with rate := (pw i.words 2).toNat, burst := fld (pw i.words 3) 23 0 } s

/-- `UPLINK_BUDGET_READ` (R390): the Lanyard rate is cached while the manager is lost; the manager's own rates are current. -/
def uplinkBudgetRead (ch : Nat) (ws : List Word) (s : State) : Res (List Word) := do
  let k := fld (pw ws 0) 19 16
  let n := fld (pw ws 0) 4 0
  need (n ≤ 23) .badArg
  readsSlice s ch k
  let b := upBudget s k n
  let managed := s.boot.strapRole = 2 || match kget s.red.lan.peers 0 with | some p => p.present | none => false
  let st := match b.lanyard with | none => 0 | some _ => if managed then 1 else 2
  return [wd b.rate, wd (b.lanyard.getD unshaped), wd b.effective, wd st]

/-- At an apply point, the Lanyard rate whose apply point it is comes into force; of several, the one that came last (R386). While a switch-over
runs, from D to T1, the rates hold (R519). -/
def lanyardRates (s : State) : State :=
  if s.red.pair.runs ≠ [] || s.red.pair.confirming ≠ [] then s
  else forEach s.fwd.budgets (fun e s =>
    match (e.2.lanyardNext.filter fun l => l.2 ≤ frameNo s).getLast? with
    | some l => retuneBudget (e.1 / 24) (e.1 % 24) { e.2 with lanyard := some l.1, lanyardNext := e.2.lanyardNext.filter fun l => frameNo s < l.2 } s
    | none => s) s

end Sys2Proof.Machine
end

