-- ==== Sys2Proof/Machine/Forward.lean ====
section
/-! DEFINITION. The pipelines (chapter 09): the distributor, the stages downstream and upstream, punts and their limiters,
aging, and the calls of family 0x07. -/

namespace Sys2Proof.Machine

/-! ### Punts (R333, R334) -/

/-- A trap reason's configuration for a slice. -/
def trapOf (s : State) (p slice reason : Nat) : Trap := kgetD (pipeOf s p).traps (16 * slice + reason) {}

/-- A limiter refilled up to now; one never used is full (assumption 22). -/
def limiterNow (s : State) (p slice reason : Nat) : Limiter :=
  let t := trapOf s p slice reason
  match kget (pipeOf s p).limiters (16 * slice + reason) with
  | none => ⟨t.burst * 1000000000, nowNs s⟩
  | some l => ⟨min (t.burst * 1000000000) (l.tokens + t.rate * (nowNs s - l.at_)), nowNs s⟩

/-- Writes a limiter. -/
def setLimiter (p slice reason : Nat) (l : Limiter) (s : State) : State :=
  let x := pipeOf s p
  setPipe p { x with limiters := kset x.limiters (16 * slice + reason) l } s

/-- PUNT_LIMITER_REFILL. -/
def limiterRefill (p slice reason : Nat) (s : State) : State := setLimiter p slice reason (limiterNow s p slice reason) s

/-- Where a frame comes from, as word 3 of a ring 2 descriptor carries it, when it arrived (R94), and whether an earlier stage marked
it (R20). -/
structure Source where
  word : Word
  marked : Bool
  time : Nat
  deriving DecidableEq, Repr

/-- A frame is punted to its slice with a reason; a marked frame goes nowhere (R20). -/
def punt (p slice reason : Nat) (src : Source) (f : List Byte) (s : State) : State :=
  if src.marked then s
  else
    let l := limiterNow s p slice reason
    if l.tokens < 1000000000 then
      raise (512 + 8 * p + 6) [] [wd (slice * 256 + reason)] (cnt (cPunt 1 slice reason) 1 (setLimiter p slice reason l s))
    else match puntFn s slice with
      | none => cnt (cPunt 1 slice reason) 1 (setLimiter p slice reason l s)
      | some fn =>
        deliver fn 2 (src.word ||| put reason 8) src.time f
          (cnt (cPunt 0 slice reason) 1 (setLimiter p slice reason { l with tokens := l.tokens - 1000000000 } s))

/-- The first reason that a mask enables and a frame fits, lowest first (R333; assumption 23). -/
def trapReason (f : List Byte) (mask : Nat) : Option Nat := [2, 3, 4, 5, 6, 12].find? fun r => mask.testBit r && isReason f r

/-- The trap stage: the state after it, and whether the frame goes on (R333, R334). -/
def trapStage (p slice mask : Nat) (src : Source) (f : List Byte) (s : State) : State × Bool :=
  match trapReason f mask with
  | none => (s, true)
  | some r =>
    match (trapOf s p slice r).action with
    | 0 => (s, true)
    | 1 => (punt p slice r src f s, false)
    | 2 => (punt p slice r src f s, true)
    | _ => (s, false)

/-- The hop limit check of L3 mode (R311, R334): a frame with a TTL of 1 or less meets the action of reason 9. -/
def ttlStage (p slice : Nat) (src : Source) (f : List Byte) (s : State) : State × Bool :=
  match ipHead f with
  | some h =>
    if 1 < h.ttl then (s, true)
    else match (trapOf s p slice 9).action with
      | 0 => (s, true)
      | 1 => (punt p slice 9 src f s, false)
      | 2 => (punt p slice 9 src f s, true)
      | _ => (s, false)
  | none => (s, true)

/-! ### Lookup, rewriting and the hand-over to the queue manager (R309 to R313) -/

/-- TC of a frame (R310). -/
def tcOf (x : Pipe) (tcSrc tc : Nat) (f : List Byte) : Nat :=
  match tcSrc with
  | 1 => (pcpOf f).getD tc
  | 2 => match ipHead f with | some h => kgetD x.dscp h.dscp (h.dscp / 8) | none => tc
  | _ => tc

/-- The L3 lookup: the result and whether the LPM memory gave it (R309); a memory that is not ON misses (R121). -/
def l3Lookup (s : State) (p vrf : Nat) (f : List Byte) : Option (BitVec 64 × Bool) :=
  let x := pipeOf s p
  let lpm (h : IpHead) : Option (BitVec 64 × Bool) :=
    if domOn s (domTc p) then (lpmLookup x h.v6 vrf h.dst).map fun q => (q.2.res, true) else none
  match ipHead f with
  | none => none
  | some h =>
    if h.v6 then lpm h
    else match lookupKey x (hostKey vrf h.dst) with
      | some r => some (r, false)
      | none => lpm h

/-- Whether a queue is configured below the uplink side of its tree, none where it is not configured. -/
def queueUp (s : State) (q : Nat) : Option Bool :=
  (queueAt s q).bind fun x => (l1Of s q x).map fun n => match n.kind with | .uplink _ _ => true | .onu _ _ _ => false

/-- A frame enters a queue, unless the queue serves the other direction: undefined use (R337). -/
def enter (q : Nat) (up yellow : Bool) (marked : Bool) (span : Option Nat) (f : List Byte) (s : State) : Res State :=
  if queueUp s q = some (!up) then .error .badState else .ok (stage q f yellow marked span false s)

/-- A frame goes to a replication list, one copy into each listed queue, whatever its direction (R310, R313). -/
def replicate (p list : Nat) (marked : Bool) (f : List Byte) (s : State) : State :=
  match kgetD (pipeOf s p).repl list [] with
  | [] => cnt (cPipe 2 p) 1 s
  | qs => forEach qs (fun q s => stage q f false marked none false s) s

/-- A result acts on a downstream frame. -/
def downResult (p slice tc punted : Nat) (src : Source) (r : BitVec 64) (orig f : List Byte) (s : State) : Res State :=
  match resAction r with
  | 0 => enter (resQueue r + tc / 2 ^ (3 - resClasses r)) false false src.marked none f s
  | 1 => .ok (cnt (cPipe 3 p) 1 s)
  | 2 => .ok (punt p slice punted src orig s)
  | _ => .ok (replicate p (resQueue r % 4096) src.marked f s)

/-- A copy of a frame passes a pipeline downstream (R308, R309): `vid` the VLAN it came under, `many` whether the distributor
made several copies, `ptp` the trailer of a PTP event message that the port stamps (R218). -/
def downstream (p port vid : Nat) (many marked : Bool) (ptp : Option (List Byte)) (f : List Byte) (s : State) : Res State :=
  if !domOn s (domPl p) then .ok s
  else
    let s := cnt (cPipe 0 p) 1 s
    let x := pipeOf s p
    let v := kgetD x.vlans vid {}
    let src : Source := ⟨wd (128 + port), marked, s.tb⟩
    if v.mode = 0 then .ok (cnt (cPipe 2 p) 1 s)
    else match ptp with
      | some t => .ok (punt p 0 1 src (f ++ t) s)
      | none =>
        let slice := if v.mode = 3 then vrfOwner s v.domain else 0
        match trapStage p slice v.trapMask src f s with
        | (s, false) => .ok s
        | (s, true) =>
          let tc := tcOf x v.tcSrc v.tc f
          let g := tagOp f v.tagOp
          match v.mode with
          | 1 =>
            let mac := dstMac f
            let bd := kgetD x.bridges v.domain {}
            let hit := if mac = 2 ^ 48 - 1 then none else lookupKey x (macKey v.domain mac)
            match hit with
            | some r => downResult p 0 tc 7 src r f g s
            | none =>
              if groupMac mac || bd.flood then .ok (replicate p bd.repl marked g s)
              else
                let s := cnt (cPipe 5 p) 1 s
                .ok (if many then cnt (cPipe 6 p) 1 s else s)
          | 2 =>
            let inner := ((parse f).inner).getD 0
            downResult p 0 tc 7 src (kgetD x.direct (4096 * v.domain + inner) dropRes) f g s
          | _ =>
            match ttlStage p slice src f s with
            | (s, false) => .ok s
            | (s, true) =>
              match l3Lookup s p v.domain f with
              | none => .ok (cnt (cPipe 4 p) 1 s)
              | some (r, lpm) =>
                let g := match ipHead g with | some h => lowerTtl g h | none => g
                downResult p slice tc (if lpm then 8 else 7) src r f g s

/-- Each selected pipeline receives one copy (R18). -/
def toPipes (ps : List Nat) (port vid : Nat) (many marked : Bool) (ptp : Option (List Byte)) (f : List Byte) (s : State) : Res State :=
  match ps with
  | [] => .ok s
  | p :: t => match downstream p port vid many marked ptp f s with
    | .ok s => toPipes t port vid many marked ptp f s
    | .error e => .error e

/-- The distributor (R18, R306). -/
def distribute (port : Nat) (marked : Bool) (ptp : Option (List Byte)) (f : List Byte) (s : State) : Res State :=
  let own := match (parse f).outer with | some t => t.1 | none => 0
  let vid := if own = 0 then kgetD s.fwd.pvid port 1 else own
  let mask := if vid = 4095 then 0 else kgetD s.fwd.dist vid 0
  if mask = 0 then .ok (raise 544 [] [] (cnt (cDev 0) 1 s))
  else
    let ps := (List.range 4).filter fun p => mask.testBit p
    toPipes ps port vid (1 < ps.length) marked ptp f s

/-- Whether a received frame is Saend's (R307, R525): ESMC on every port, Lanyard frames on the enabled ports. -/
def forSaend (s : State) (port : Nat) (f : List Byte) : Bool :=
  let p := parse f
  (p.etype = 0x8809 && beAt f p.off 1 = 0x0A) ||
    (p.etype = 0x88B5 && s.red.lan.configured && s.red.lan.ports.testBit port && p.outer.map (·.1) = some s.red.lan.vid)

/-- The elastic buffer of a lane slips: it recentres, counts and raises its event (R463, R472). -/
def laneSlip (n : Nat) (s : State) : State := raise (768 + n) [] [0] (cnt (cLane 9 n) 1 (modLane n (fun x => { x with fill := 32 }) s))

/-- A frame received on an Ethernet port (R18, R20, R307, R463). In a far-end loopback it is sent back, counted and discarded; in a
near-end one the device hears itself and not the far end (R465, R466). -/
def uplinkRx (port : Nat) (f : List Byte) (fcsOk : Bool) (slips : List (Fin 8)) (s : State) : Res State :=
  if !(portOf s port).link then .ok s
  else
    let slipped := (lanesOf s port).filter fun n => slips.any fun i => n = port + i
    let slip := slipped ≠ []
    let s := forEach slipped laneSlip s
    match portLoop s port with
    | 3 => .ok (cnt (cLane 11 (loopedLane s port)) 1 (emit (.ethTx port f) s))
    | 2 | 1 => .ok s
    | _ =>
    if !fcsOk then .ok s
    else
      let at_ := symbolPs s
      match macRx port f (if ptpMode s port ≠ 0 then drawn s else s) with
      | (s, .drop) => .ok s
      | (s, .pass g bad) =>
        if forSaend s port g then .ok s
        else
          let ptp := if ptpMode s port ≠ 0 && (ptpHead g).isSome then some (ptpTrailer at_ port) else none
          distribute port (bad || slip) ptp g s

/-! ### Upstream (R308) -/

/-- The port record of a frame from a Span: its ONU and line port ID on the ONU's Pier. -/
def upRecord (s : State) (f : UpFrame) : Option (Nat × PortRec) :=
  (s.fwd.ports.find? fun e => e.1 / 8192 = f.span && e.2.onu = f.onu && e.2.portId = f.port && e.2.pier = (onuOf s f.span f.onu).pier).map
    fun e => (e.1 % 8192, e.2)

/-- The last stages of an upstream frame: rewriting and its queue (R310 to R312). -/
def upQueue (span q tc : Nat) (r : PortRec) (yellow : Bool) (f : List Byte) (s : State) : Res State :=
  let g := if r.pushVid = 0 then f else pushTag f (if r.pushTpid then 0x88A8 else 0x8100) tc (if yellow then 1 else 0) r.pushVid
  enter q true yellow false (some span) g s

/-- An upstream frame that its port's policer admits: learning and lookup. -/
def upForward (p port slice tc : Nat) (yellow : Bool) (r : PortRec) (src : Source) (u : UpFrame) (s : State) : Res State :=
  if r.mode = 1 then
    match learn p u.span port slice r (srcMac u.bytes) s with
    | (s, .drop) => .ok s
    | (s, .punt reason) => .ok (punt p slice reason src u.bytes s)
    | (s, .forward) => upQueue u.span (r.uplinkQueue + tc / 2 ^ (3 - r.usClasses)) tc r yellow u.bytes s
  else
    match l3Lookup s p r.domain u.bytes with
    | none => .ok (cnt (cPipe 4 p) 1 s)
    | some (res, _) =>
      let g := match ipHead u.bytes with | some h => lowerTtl u.bytes h | none => u.bytes
      if resAction res = 0 then upQueue u.span (resQueue res + tc / 2 ^ (3 - resClasses res)) tc r yellow g s
      else .ok (cnt (cPipe 3 p) 1 s)

/-- The policer stage (R335): the state after it, and whether the frame is yellow, none for a red one. -/
def policeStage (span port len : Nat) (r : PortRec) (s : State) : State × Option Bool :=
  if !r.police then (s, some false)
  else match police (8192 * span + port) len s with
    | (s, 0) => (s, some false)
    | (s, 1) => (cnt (cPortRec 1 span port) 1 s, some true)
    | (s, _) => (cnt (cPortRec 2 span port) 1 s, none)

/-- An upstream L3 result that punts; such a frame is not policed (R334). -/
def upPunt (s : State) (p : Nat) (r : PortRec) (f : List Byte) : Option Nat :=
  if r.mode = 3 then match l3Lookup s p r.domain f with
    | some (res, lpm) => if resAction res = 2 then some (if lpm then 8 else 7) else none
    | none => none
  else none

/-- A frame of a Span passes its pipeline (R17, R308). -/
def upstreamFrame (p : Nat) (u : UpFrame) (s : State) : Res State :=
  if !domOn s (domPl p) then .ok s
  else
    let s := cnt (cPipe 1 p) 1 s
    match upRecord s u with
    | none => .ok (cnt (cPipe 2 p) 1 s)
    | some (port, r) =>
      if r.mode = 0 then .ok (cnt (cPipe 2 p) 1 s)
      else
        let slice := onuOwner s u.span u.onu
        let src : Source := ⟨wd (u.onu * 2 ^ 16 + u.span), false, u.time⟩
        match trapStage p slice r.trapMask src u.bytes s with
        | (s, false) => .ok s
        | (s, true) =>
          match (if r.mode = 3 then ttlStage p slice src u.bytes s else (s, true)) with
          | (s, false) => .ok s
          | (s, true) =>
            match upPunt s p r u.bytes with
            | some reason => .ok (punt p slice reason src u.bytes s)
            | none =>
              let tc := tcOf (pipeOf s p) r.tcSrc r.tc u.bytes
              match policeStage u.span port u.bytes.length r s with
              | (s, none) => .ok s
              | (s, some yellow) => upForward p port slice tc yellow r src u s

/-- The first waiting frame of a span group, and the rest. -/
def takeUp (p : Nat) (l : List UpFrame) : Option (UpFrame × List UpFrame) :=
  match l with
  | [] => none
  | u :: t => if u.span / 8 = p then some (u, t) else (takeUp p t).map fun r => (r.1, u :: r.2)

/-- UPSTREAM_PIPELINE: the pipeline takes its next frame. -/
def upstreamStep (p : Nat) (s : State) : Res State :=
  match takeUp p s.fwd.up with
  | none => .ok s
  | some (u, rest) => upstreamFrame p u { s with fwd := { s.fwd with up := rest } }

/-- What a pipeline operation answers: undefined use under R337 where it finds a queue of the other direction. -/
def orUndefined (r : Res State) : Out := match r with | .ok s => .next s | .error _ => .fault (.undefinedUse "R337")

/-! ### Flush, aging and power (R325 to R328, R121) -/

/-- A key from another pipeline arrives (R328). -/
def xpFlush (p : Nat) (s : State) : State :=
  let x := pipeOf s p
  match x.xpWait with
  | [] => s
  | k :: t =>
    let s := setPipe p { x with xpWait := t } s
    match findKey x k with
    | none => s
    | some w => match entryAt x w with
      | none => s
      | some e => if resStatic e.res then s else tableLevels p (cnt (cPipe 14 p) 1 (setPipe p (clearAt (pipeOf s p) w) s))

/-- A class's sweep starts at the lowest hash bucket, once in each TAI second that is a multiple of P = AGE_TIME / 4 (R325). -/
def sweepStart (p cls : Nat) (s : State) : State :=
  let x := pipeOf s p
  let age := x.ageTime.getD cls 0
  let second := nowNs s / 1000000000
  if domOn s (domPl p) && age ≠ 0 && second % (age / 4) = 0 && kget x.swept cls ≠ some second then
    setPipe p { x with sweeps := kset x.sweeps cls (1024 * x.directBlocks), swept := kset x.swept cls second } s
  else s

/-- The sweep's next visit: buckets in ascending order, then the overflow store (R325, R327). -/
def sweepVisit (p cls : Nat) (s : State) : State :=
  let x := pipeOf s p
  match kget x.sweeps cls with
  | none => s
  | some n =>
    let next := if n + 1 < 65536 + 4096 then kset x.sweeps cls (n + 1) else kerase x.sweeps cls
    let s := setPipe p { x with sweeps := next } s
    if n < 65536 then relocate p n (forEach (List.range 4) (fun i s => ageAt p cls (.bucket n i) s) s)
    else ageAt p cls (.overflow (n - 65536)) s

/-- Inserts the committed static entries into an empty table. -/
def reloadStatic (cfg : KMap (BitVec 64)) (x : Pipe) : Pipe :=
  match cfg with
  | [] => x
  | (k, r) :: t => reloadStatic t (match insertEntry x ⟨k, asStatic r⟩ true with | some i => i.pipe | none => x)

/-- What a pipeline loses with its power, and what Saend writes again (R121). -/
def pipePowerOff (p : Nat) (s : State) : State :=
  let x := pipeOf s p
  let s := setPipe p { x with em := [], ov := [], limiters := [], sweeps := [], taught := none, moves := 0, moveTold := false, hiTold := false, ovTold := false, xpWait := [] } s
  { s with fwd := { s.fwd with
      up := s.fwd.up.filter fun u => u.span / 8 ≠ p
      policers := kmap s.fwd.policers fun k x => if k / 8192 / 8 = p then x.afresh s.tb else x } }
def pipePowerOn (p : Nat) (s : State) : State := let x := pipeOf s p; setPipe p (reloadStatic x.staticCfg x) s

/-- A new TAI second: the moves of R339 start anew. -/
def pipeSecond (s : State) : State := { s with fwd := { s.fwd with pipes := kmap s.fwd.pipes fun _ x => { x with moves := 0, moveTold := false } } }

/-! ### Calls of family 0x07 (R336, R340 to R342) -/

/-- The pipelines of a PIPES mask. -/
def pipesOf (w : Word) : List Nat := (List.range 4).filter fun p => bit w (28 + p)

/-- One object per pipeline named. -/
def perPipe (k : ObjKind) (size ix : Nat) (w : Word) : List Obj := (pipesOf w).map fun p => ⟨k, size * p + ix⟩

/-- An item over several pipelines as one item per pipeline (R82). -/
def pipeParts (i : Item) : List Item :=
  ((pipesOf (pw i.words 1)).zip i.objs).map fun e => { i with words := i.words.set 1 ((pw i.words 1 &&& 0x0FFFFFFF) ||| put 1 (28 + e.1)), objs := [e.2] }

/-- Rewrites the pipelines of a mask. -/
def modPipes (w : Word) (f : Pipe → Pipe) (s : State) : State := forEach (pipesOf w) (fun p s => setPipe p (f (pipeOf s p)) s) s

/-- The checks on a result a call names for some pipelines: its queue, or its list, which is slice 0's (R26, R336). -/
def resultOk (s : State) (ch : Nat) (ps : List Nat) (r : BitVec 64) : Res Unit := do
  if resAction r = 0 then do
    needOwner s ch (queueOwner s (resQueue r))
    need (ps.all fun p => groupOf (resQueue r) = p) .badArg
  else if resAction r = 3 then needOwner s ch 0
  else pure ()

/-- A queue base whose classes leave the slice's queue range: undefined (R337). -/
def classesLeave (s : State) (q classes : Nat) : Bool :=
  (List.range (2 ^ classes)).any fun i => groupOf (q + i) ≠ groupOf q || queueOwner s (q + i) ≠ queueOwner s q
def resultLeaves (s : State) (r : BitVec 64) : Bool := resAction r = 0 && classesLeave s (resQueue r) (resClasses r)

/-- A 64-bit result over two words. -/
def res64 (ws : List Word) (i : Nat) : BitVec 64 := BitVec.ofNat 64 (wide ws i 2)

/-- The layout's bits of a result (R315). -/
def resUsed : List Nat := [0xF8001FFF, 0xFFCFFFFF]

/-- `DIST_SET`. -/
def distSet : TxnCall where
  spec := { code := 0x0701, who := .slice0, lens := [2], used := [0xFFFFFFFF, 0x0F000FFF] }
  objs _ i := do
    let v := fld (pw i.words 1) 11 0
    need (1 ≤ v && v ≤ 4094) .badArg
    return [⟨.dist, v⟩]
  apply i s := .ok { s with fwd := { s.fwd with dist := kset s.fwd.dist (fld (pw i.words 1) 11 0) (fld (pw i.words 1) 27 24) } }

/-- `DIST_PVID_SET`. -/
def distPvidSet : TxnCall where
  spec := { code := 0x0703, who := .slice0, lens := [2], used := [0xFFFFFFFF, 0x001F0FFF] }
  objs _ i := do
    let v := fld (pw i.words 1) 11 0
    need (1 ≤ v && v ≤ 4094 && fld (pw i.words 1) 20 16 ≤ 23) .badArg
    return [⟨.pvid, fld (pw i.words 1) 20 16⟩]
  apply i s := .ok { s with fwd := { s.fwd with pvid := kset s.fwd.pvid (fld (pw i.words 1) 20 16) (fld (pw i.words 1) 11 0) } }

/-- Whether every VLAN entry in DIRECT mode names a block that exists (R341). -/
def blocksOk (x : Pipe) : Bool := !kany x.vlans fun _ v => v.mode = 2 && x.directBlocks ≤ v.domain

/-- `VLAN_SET`. -/
def vlanSet : TxnCall where
  spec := { code := 0x0710, who := .slice0, lens := [4], used := [0xFFFFFFFF, 0xF0000FFF, 0xFF803FFF, 0x0000FFFF] }
  parts := pipeParts
  objs _ i := do
    let v := fld (pw i.words 1) 11 0
    let w := pw i.words 2
    need (1 ≤ v && v ≤ 4094 && fld w 29 28 ≠ 3 && fld w 27 26 ≠ 3 && (fld w 31 30 ≠ 3 || fld w 13 0 ≤ 4095)) .badArg
    return perPipe .vlan 4096 v (pw i.words 1)
  apply i s :=
    let w := pw i.words 2
    let e : Vlan := { mode := fld w 31 30, tagOp := fld w 29 28, tcSrc := fld w 27 26, tc := fld w 25 23, domain := fld w 13 0, trapMask := fld (pw i.words 3) 15 0 }
    .ok (modPipes (pw i.words 1) (fun x => { x with vlans := kset x.vlans (fld (pw i.words 1) 11 0) e }) s)
  post i s := need ((pipesOf (pw i.words 1)).all fun p => blocksOk (pipeOf s p)) .badArg

/-- `BD_SET`; sessions of version 2.x keep XP_FLUSH (R340). -/
def bdSet : TxnCall where
  spec := { code := 0x0711, who := .slice0, lens := [3], used := [0xFFFFFFFF, 0xF0003FFF, 0xE3300FFF] }
  parts := pipeParts
  objs _ i := do
    need (fld (pw i.words 2) 21 20 ≠ 3) .badArg
    return perPipe .bridge 16384 (fld (pw i.words 1) 13 0) (pw i.words 1)
  apply i s :=
    let w := pw i.words 2
    let n := fld (pw i.words 1) 13 0
    .ok (modPipes (pw i.words 1) (fun x =>
      let old := kgetD x.bridges n {}
      { x with bridges := kset x.bridges n { learn := bit w 31, flood := bit w 30, xpFlush := if i.version < 0x0300 then old.xpFlush else bit w 29, agingClass := fld w 25 24, svAction := fld w 21 20, repl := fld w 11 0 } }) s)

/-- The queues of a `REPL_SET`. -/
def replQueues (ws : List Word) : List Nat := (List.range (fld (pw ws 2) 3 0)).map fun n => fld (pw ws (3 + n)) 19 0

/-- `REPL_SET`. -/
def replSet : TxnCall where
  spec := { code := 0x0712, who := .slice0, intro := 0x0201, lens := [3, 4, 5, 6, 7, 8, 9, 10, 11],
            used := [0xFFFFFFFF, 0x30000FFF, 0xF, 0xFFFFF, 0xFFFFF, 0xFFFFF, 0xFFFFF, 0xFFFFF, 0xFFFFF, 0xFFFFF, 0xFFFFF] }
  objs _ i := do
    let n := fld (pw i.words 2) 3 0
    need (n ≤ 8 && i.words.length = 3 + n) .badArg
    need ((replQueues i.words).all fun q => groupOf q = fld (pw i.words 1) 29 28) .badArg
    return [⟨.repl, 4096 * fld (pw i.words 1) 29 28 + fld (pw i.words 1) 11 0⟩]
  apply i s :=
    let p := fld (pw i.words 1) 29 28
    let x := pipeOf s p
    .ok (setPipe p { x with repl := kset x.repl (fld (pw i.words 1) 11 0) (replQueues i.words) } s)



/-- The record that a `PORT_SET` writes, under a Pier. -/
def portRecOf (ws : List Word) (pier : Nat) : PortRec :=
  let a := pw ws 3
  { onu := fld (pw ws 2) 24 16, pier := pier, portId := fld (pw ws 2) 15 0, encrypt := bit a 31, mode := fld a 29 28, tcSrc := fld a 27 26, tc := fld a 25 23,
    police := bit a 22, learn := bit a 21, pushTpid := bit a 20, limitAction := fld a 19 18, domain := fld a 13 0,
    usClasses := fld (pw ws 4) 21 20, uplinkQueue := fld (pw ws 4) 19 0, dsClasses := fld (pw ws 5) 21 20, dsQueue := fld (pw ws 5) 19 0,
    pushVid := fld (pw ws 6) 27 16, macLimit := fld (pw ws 6) 11 0, trapMask := fld (pw ws 7) 15 0 }

/-- `PORT_SET`. -/
def portSet : TxnCall where
  spec := { code := 0x0713, who := .bound, lens := [8],
            used := [0xFFFFFFFF, 0x1FFF001F, 0x01FFFFFF, 0xBFFC3FFF, 0x3FFFFF, 0x3FFFFF, 0x0FFF0FFF, 0xFFFF] }
  objs s i := do
    let r := portRecOf i.words 0
    let w := pw i.words 1
    let old := kget s.fwd.ports (portKey w)
    needOwnerAs i.slice (onuOwner s (fld w 4 0) r.onu)
    match old with | some o => needOwnerAs i.slice (onuOwner s (fld w 4 0) o.onu) | none => pure ()
    if r.mode = 1 && old.map (fun o => (o.mode, o.domain)) ≠ some (1, r.domain) then needOwnerAs i.slice 0 else pure ()
    if r.mode = 3 then do
      need (r.domain ≤ 4095) .badArg
      needOwnerAs i.slice (vrfOwner s r.domain)
    else pure ()
    needOwnerAs i.slice (queueOwner s r.uplinkQueue)
    needOwnerAs i.slice (queueOwner s r.dsQueue)
    need (groupOf r.uplinkQueue = fld w 4 0 / 8 && groupOf r.dsQueue = fld w 4 0 / 8) .badArg
    need (r.mode ≠ 2 && r.tcSrc ≠ 3 && r.limitAction ≠ 3 && r.pushVid ≤ 4094) .badArg
    return [⟨.port, portKey w⟩]
  apply i s := do
    let w := pw i.words 1
    match pierOfOnu s (fld w 4 0) (fld (pw i.words 2) 24 16) with
    | none => .error .badState
    | some pier => do
      let r := portRecOf i.words pier
      need (pier ≠ 2 || r.portId ≤ 4095) .badArg
      need (!kany s.fwd.ports fun k o => k / 8192 = fld w 4 0 && k ≠ portKey w && o.pier = pier && o.portId = r.portId) .noSpace
      return { s with fwd := { s.fwd with ports := kset s.fwd.ports (portKey w) r } }

/-- `PORT_DELETE`: its learned entries go with it (R341). -/
def portDelete : TxnCall where
  spec := { code := 0x0714, who := .bound, lens := [2], used := [0xFFFFFFFF, 0x1FFF001F] }
  objs s i := do
    let w := pw i.words 1
    needOwnerOptAs i.slice ((kget s.fwd.ports (portKey w)).map fun o => onuOwner s (fld w 4 0) o.onu)
    return [⟨.port, portKey w⟩]
  apply i s :=
    let w := pw i.words 1
    let p := fld w 4 0 / 8
    match kget s.fwd.ports (portKey w) with
    | none => .error .badState
    | some _ =>
      let s := tableLevels p (setPipe p (removeLearned (pipeOf s p) fun e => resSpan e.res = fld w 4 0 && resPort e.res = fld w 28 16) s)
      .ok { s with fwd := { s.fwd with ports := kerase s.fwd.ports (portKey w), policers := kerase s.fwd.policers (portKey w) } }

/-- Who may name a key, and whether it has a layout (R314, R340). -/
def keyOk (s : State) (ch key : Nat) : Res Unit :=
  match nfld key 127 124 with
  | 1 => do
    needOwner s ch 0
    need (nfld key 109 48 = 0) .badArg
  | 2 => do
    needOwner s ch (vrfOwner s (nfld key 123 112))
    need (nfld key 111 32 = 0) .badArg
  | _ => .error .badArg

/-- The object of an exact-match key in a pipeline. -/
def fdbObj (p key : Nat) : Obj := ⟨.fdb, 2 ^ 128 * p + key⟩

/-- A static entry enters each pipeline named (R319, R321). -/
def putStatic (ps : List Nat) (key : Nat) (r : BitVec 64) (s : State) : Res State :=
  match ps with
  | [] => .ok s
  | p :: t =>
    let x := pipeOf s p
    match insertEntry x ⟨key, asStatic r⟩ true with
    | none => .error .noSpace
    | some i =>
      let s := setPipe p { i.pipe with staticCfg := kset x.staticCfg key r } s
      let s := if i.evicted then cnt (cPipe 12 p) 1 s else s
      putStatic t key r (tableLevels p s)

/-- An exact-match entry leaves a pipeline. -/
def dropEntry (key p : Nat) (s : State) : State :=
  let x := pipeOf s p
  tableLevels p (setPipe p { removeKey x key with staticCfg := kerase x.staticCfg key } s)

/-- `FDB_STATIC_SET`. -/
def fdbStaticSet : TxnCall where
  spec := { code := 0x0720, who := .bound, lens := [8], used := [0xFFFFFFFF, 0xF0000000, 0xFFFFFFFF, 0xFFFFFFFF, 0xFFFFFFFF, 0xFFFFFFFF] ++ resUsed }
  parts := pipeParts
  objs s i := do
    let key := wide i.words 2 4
    keyOk s i.chan key
    resultOk s i.chan (pipesOf (pw i.words 1)) (res64 i.words 6)
    return (pipesOf (pw i.words 1)).map fun p => fdbObj p key
  apply i s := putStatic (pipesOf (pw i.words 1)) (wide i.words 2 4) (res64 i.words 6) s

/-- `FDB_DELETE`: an absent key is skipped. -/
def fdbDelete : TxnCall where
  spec := { code := 0x0721, who := .bound, lens := [6], used := [0xFFFFFFFF, 0xF0000000, 0xFFFFFFFF, 0xFFFFFFFF, 0xFFFFFFFF, 0xFFFFFFFF] }
  parts := pipeParts
  objs s i := do
    keyOk s i.chan (wide i.words 2 4)
    return (pipesOf (pw i.words 1)).map fun p => fdbObj p (wide i.words 2 4)
  apply i s := .ok (forEach (pipesOf (pw i.words 1)) (dropEntry (wide i.words 2 4)) s)

/-- `FDB_READ`. -/
def fdbRead (ch : Nat) (ws : List Word) (s : State) : Res (List Word) := do
  let key := wide ws 1 4
  keyOk s ch key
  let x := pipeOf s (fld (pw ws 0) 29 28)
  match findKey x key with
  | none => return [0, 0, 0]
  | some w =>
    let r := ((entryAt x w).map (·.res)).getD 0
    let head := match w with | .bucket b i => put i 28 ||| wd b | .overflow i => putb true 30 ||| wd i
    return (putb true 31 ||| head) :: toWords 2 r.toNat

/-- Whether a flush's filters select an entry (R341, R342). -/
def flushes (w v : Word) (e : FdbEntry) : Bool :=
  (!bit w 27 || (nfld e.key 127 124 = 1 && nfld e.key 123 110 = fld w 13 0)) &&
    (!bit w 26 || (resSpan e.res = fld v 4 0 && resPort e.res = fld v 28 16))

/-- `FDB_FLUSH` in the pipelines named: the count removed with the state. -/
def flushPipes (ps : List Nat) (w v : Word) (n : Nat) (s : State) : State × Nat :=
  match ps with
  | [] => (s, n)
  | p :: t =>
    let x := pipeOf s p
    flushPipes t w v (n + countLearned x (flushes w v)) (tableLevels p (setPipe p (removeLearned x (flushes w v)) s))

/-- `FDB_FLUSH`. -/
def fdbFlush (ch : Nat) (ws : List Word) (s : State) : Res (State × List Word) := do
  let w := pw ws 0
  let v := pw ws 1
  if bit w 27 || !bit w 26 then needOwner s ch 0
  else needOwnerOpt s ch ((kget s.fwd.ports (portKey v)).map fun o => onuOwner s (fld v 4 0) o.onu)
  let r := flushPipes (pipesOf w) w v 0 s
  return (r.1, [wd r.2])

/-- `DIRECT_SET`. -/
def directSet : TxnCall where
  spec := { code := 0x0724, who := .slice0, lens := [4], used := [0xFFFFFFFF, 0x3003FFFF] ++ resUsed }
  objs s i := do
    resultOk s i.chan [fld (pw i.words 1) 29 28] (res64 i.words 2)
    return [⟨.direct, 262144 * fld (pw i.words 1) 29 28 + fld (pw i.words 1) 17 0⟩]
  apply i s := do
    let p := fld (pw i.words 1) 29 28
    let x := pipeOf s p
    need (fld (pw i.words 1) 17 0 < 4096 * x.directBlocks) .badArg
    return setPipe p { x with direct := kset x.direct (fld (pw i.words 1) 17 0) (asStatic (res64 i.words 2)) } s

/-- The route that words 1 to 5 of a call name: HOST or not, and the prefix. -/
structure Route46 where
  host : Bool
  pre : Prefix
  deriving DecidableEq, Repr

/-- Reads a route from its first word, its address and the session's version; sessions of 2.x have no HOST (R340, R342). -/
def routeFrom (version : Nat) (w : Word) (addr : Nat) (r : BitVec 64) : Route46 :=
  ⟨0x0300 ≤ version && bit w 26, ⟨bit w 27, fld w 11 0, addr, fld w 23 16, r⟩⟩

/-- The argument checks of a route. -/
def Route46.ok (r : Route46) : Bool :=
  let n := if r.pre.v6 then 128 else 32
  r.pre.len ≤ n && r.pre.addr < 2 ^ n && r.pre.addr % 2 ^ (n - r.pre.len) = 0 && (!r.host || (!r.pre.v6 && r.pre.len = 32))

/-- The object of a route in a pipeline. -/
def Route46.obj (r : Route46) (p : Nat) : Obj :=
  if r.host then fdbObj p (hostKey r.pre.vrf r.pre.addr)
  else ⟨.route46, r.pre.addr + 2 ^ 128 * (r.pre.len + 256 * (r.pre.vrf + 4096 * (p + 4 * (if r.pre.v6 then 1 else 0))))⟩

/-- A prefix enters each pipeline named (R331, R332). -/
def putRoute (ps : List Nat) (q : Prefix) (s : State) : Res State :=
  match ps with
  | [] => .ok s
  | p :: t =>
    let x := pipeOf s p
    let y := match lpmFind x q.v6 q.vrf q.addr q.len with | some _ => lpmRewrite x q | none => lpmInsert x q
    if 16384 < lpmUsed y then .error .noSpace else putRoute t q (setPipe p y s)

/-- `ROUTE_SET`. -/
def routeSet : TxnCall where
  spec := { code := 0x0730, who := .bound, lens := [8], used := [0xFFFFFFFF, 0xFCFF0FFF, 0xFFFFFFFF, 0xFFFFFFFF, 0xFFFFFFFF, 0xFFFFFFFF] ++ resUsed }
  parts := pipeParts
  objs s i := do
    let r := routeFrom i.version (pw i.words 1) (wide i.words 2 4) (res64 i.words 6)
    needOwnerAs i.slice (vrfOwner s r.pre.vrf)
    resultOk s i.chan (pipesOf (pw i.words 1)) r.pre.res
    need r.ok .badArg
    return (pipesOf (pw i.words 1)).map r.obj
  apply i s :=
    let r := routeFrom i.version (pw i.words 1) (wide i.words 2 4) (res64 i.words 6)
    if r.host then putStatic (pipesOf (pw i.words 1)) (hostKey r.pre.vrf r.pre.addr) r.pre.res s
    else putRoute (pipesOf (pw i.words 1)) { r.pre with res := asStatic r.pre.res } s

/-- `ROUTE_DELETE`. -/
def routeDelete : TxnCall where
  spec := { code := 0x0731, who := .bound, lens := [6], used := [0xFFFFFFFF, 0xFCFF0FFF, 0xFFFFFFFF, 0xFFFFFFFF, 0xFFFFFFFF, 0xFFFFFFFF] }
  parts := pipeParts
  objs s i := do
    let r := routeFrom i.version (pw i.words 1) (wide i.words 2 4) 0
    needOwnerAs i.slice (vrfOwner s r.pre.vrf)
    need r.ok .badArg
    return (pipesOf (pw i.words 1)).map r.obj
  apply i s := do
    let r := routeFrom i.version (pw i.words 1) (wide i.words 2 4) 0
    let q := r.pre
    let ps := pipesOf (pw i.words 1)
    if r.host then do
      need (ps.all fun p => (kget (pipeOf s p).staticCfg (hostKey q.vrf q.addr)).isSome) .badState
      return forEach ps (dropEntry (hostKey q.vrf q.addr)) s
    else do
      need (ps.all fun p => (lpmFind (pipeOf s p) q.v6 q.vrf q.addr q.len).isSome) .badState
      return modPipes (pw i.words 1) (fun x => lpmDelete x q.v6 q.vrf q.addr q.len) s

/-- `ROUTE_READ`. -/
def routeRead (ch : Nat) (ws : List Word) (s : State) : Res (List Word) := do
  let r := routeFrom (versionOf s ch) (pw ws 0) (wide ws 1 4) 0
  needOwner s ch (vrfOwner s r.pre.vrf)
  need r.ok .badArg
  let x := pipeOf s (fld (pw ws 0) 29 28)
  if r.host then
    match lookupKey x (hostKey r.pre.vrf r.pre.addr) with
    | some v => return putb true 31 :: toWords 2 v.toNat
    | none => return [0, 0, 0]
  else match lpmFind x r.pre.v6 r.pre.vrf r.pre.addr r.pre.len with
    | some (n, q) => return (putb true 31 ||| wd n) :: toWords 2 q.res.toNat
    | none => return [0, 0, 0]

/-- An AGE_TIME (R325). -/
def ageOk (n : Nat) : Bool := n = 0 || (12 ≤ n && n ≤ 1000000 && n % 4 = 0)

/-- `FWD_TABLE_CONFIG` (R316, R325, R341); a session of version 2.x carries no word 8. -/
def fwdTableConfig : TxnCall where
  spec := { code := 0x0740, who := .slice0, lens := [8, 9],
            used := [0xFFFFFFFF, 0x3000007F, 0xFFFFFFFF, 0xFFFFFFFF, 0xFFFFF, 0xFFFFF, 0xFFFFF, 0xFFFFF, 0xFFFFFF] }
  objs _ i := do
    need (i.words.length = if i.version < 0x0300 then 8 else 9) .badArg
    need (fld (pw i.words 1) 6 0 ≤ 64 && (List.range 4).all fun n => ageOk (fld (pw i.words (4 + n)) 19 0)) .badArg
    return [⟨.fwdTable, fld (pw i.words 1) 29 28⟩]
  apply i s := do
    let p := fld (pw i.words 1) 29 28
    let x := pipeOf s p
    let b := fld (pw i.words 1) 6 0
    let s0 := (pw i.words 2).toNat
    let s1 := (pw i.words 3).toNat
    let changed := b ≠ x.directBlocks || s0 ≠ x.seed0 || s1 ≠ x.seed1
    let closed := (List.range 8).all fun n => (spanOf s (8 * p + n)).st = .closed
    need (!changed || (closed && x.staticCfg = [])) .badState
    let x := if changed then { x with em := [], ov := [], direct := [], hiTold := false, ovTold := false } else x
    return setPipe p { x with directBlocks := b, seed0 := s0, seed1 := s1, ageTime := (List.range 4).map (fun n => fld (pw i.words (4 + n)) 19 0), moveAlarm := if i.version < 0x0300 then x.moveAlarm else fld (pw i.words 8) 23 0 } s
  post i s := need (blocksOk (pipeOf s (fld (pw i.words 1) 29 28))) .badArg

/-- `FWD_STATUS`. -/
def fwdStatus (ws : List Word) (s : State) : List Word :=
  let x := pipeOf s (fld (pw ws 0) 29 28)
  let learned := countLearned x fun _ => true
  let v6 := ((lpmSlotsFrom 0 (lpmCells x)).filter fun q => q.2.v6).length
  let all := (lpmSlotsFrom 0 (lpmCells x)).length
  [wd (hashEntries x), wd learned, wd (hashEntries x - learned), wd x.ov.length, wd (lpmUsed x), put v6 16 ||| wd (all - v6)]

/-- `FWD_DSCP_SET`. -/
def fwdDscpSet : TxnCall where
  spec := { code := 0x0742, who := .slice0, lens := [9],
            used := [0xFFFFFFFF, 0xF0000000, 0x3FFFFFFF, 0x3FFFFFFF, 0x3FFFFFFF, 0x3FFFFFFF, 0x3FFFFFFF, 0x3FFFFFFF, 0x3FFFFFFF] }
  parts := pipeParts
  objs _ i := .ok (perPipe .dscp 1 0 (pw i.words 1))
  apply i s :=
    let map_ := (List.range 64).map fun d => (d, fld (pw i.words (2 + d / 10)) (3 * (d % 10) + 2) (3 * (d % 10)))
    .ok (modPipes (pw i.words 1) (fun x => { x with dscp := map_ }) s)

/-- `TRAP_CONFIG`: ACTION is ignored for reasons 1, 7, 8, 10 and 11. -/
def trapConfig : TxnCall where
  spec := { code := 0x0750, who := .slice0, lens := [4], used := [0xFFFFFFFF, 0xF00F00FF, 0x03FFFFFF, 0xFFFF] }
  parts := pipeParts
  objs _ i := do
    let r := fld (pw i.words 1) 7 0
    need (1 ≤ r && r ≤ 12 && fld (pw i.words 2) 23 0 ≤ 1000000 && 1 ≤ fld (pw i.words 3) 15 0) .badArg
    return perPipe .trap 256 (16 * fld (pw i.words 1) 19 16 + r) (pw i.words 1)
  apply i s := do
    let r := fld (pw i.words 1) 7 0
    let k := 16 * fld (pw i.words 1) 19 16 + r
    needSlice s (fld (pw i.words 1) 19 16)
    return (forEach (pipesOf (pw i.words 1)) (fun p s =>
      let s := limiterRefill p (fld (pw i.words 1) 19 16) r s
      let x := pipeOf s p
      let old := kgetD x.traps k {}
      let a := if [1, 7, 8, 10, 11].contains r then old.action else fld (pw i.words 2) 25 24
      setPipe p { x with traps := kset x.traps k { action := a, rate := fld (pw i.words 2) 23 0, burst := fld (pw i.words 3) 15 0 } } s) s)

/-- Whether a queue base and its classes name a queue of the wrong direction: an uplink queue, or with `up` a Pier queue (R337). -/
def namesWrong (s : State) (up : Bool) (q classes : Nat) : Bool := (List.range (2 ^ classes)).any fun i => queueUp s (q + i) = some (!up)

/-- Whether a result that only downstream frames reach names an uplink queue. -/
def downNamesUp (s : State) (r : BitVec 64) : Bool := resAction r = 0 && namesWrong s false (resQueue r) (resClasses r)

/-- Whether a written item of family 0x07 is undefined use (R337): it is, once it takes effect (assumption 41). A direct entry and an entry of
key kind 1 are reached by downstream frames alone (R309); a result of L3 serves both directions, and the frame that meets it shows which. -/
def fwdUndefined (s : State) (i : Item) : Bool :=
  match i.code with
  | 0x0712 => !(replQueues i.words).eraseDups.length = (replQueues i.words).length
  | 0x0713 => let r := portRecOf i.words 0; classesLeave s r.uplinkQueue r.usClasses || classesLeave s r.dsQueue r.dsClasses ||
      namesWrong s true r.uplinkQueue r.usClasses
  | 0x0720 => resultLeaves s (res64 i.words 6) || (wide i.words 2 4 / 2 ^ 124 = 1 && downNamesUp s (res64 i.words 6))
  | 0x0724 => resultLeaves s (res64 i.words 2) || downNamesUp s (res64 i.words 2)
  | 0x0730 => resultLeaves s (res64 i.words 6)
  | _ => false

end Sys2Proof.Machine
end

