-- ==== Sys2Proof/Machine/Lanes.lean ====
section
/-! DEFINITION. The system lanes, the Pier transmit lanes, the Ethernet ports and the PCIe link (chapter 14). -/

namespace Sys2Proof.Machine

/-! ### Ports and links (R451, R461) -/

/-- Whether a mode has RS-FEC, and so alignment markers to lock to (R451). -/
def hasRsFec (x : Port) : Bool := (1 ≤ x.mode && x.mode ≤ 5) || x.fec = 2

/-- The port that a lane belongs to: the port of the nearest lane at or below it whose mode reaches it. -/
def portOfLane (s : State) (n : Nat) : Option Nat :=
  ((List.range 8).find? fun d => d ≤ n && n < 24 && d < portLanes (portOf s (n - d)).mode).map (n - ·)

/-- Whether a lane trains at start-up: modes 8 and 9 with TRAIN (R457). -/
def trains (s : State) (n : Nat) : Bool := (laneOf s n).train && n < 24 && ((portOf s n).mode = 8 || (portOf s n).mode = 9)

/-- Whether a lane carries its port's traffic as far as its detectors say (R457, R461, R466). -/
def laneGood (s : State) (n : Nat) : Bool :=
  let x := laneOf s n
  x.st = .on && !x.los && !x.rxLol && !x.txLol && !x.gen && (!x.must || x.trained.isSome)

/-- Whether a port's link is up (R461). -/
def linkUp (s : State) (port : Nat) : Bool :=
  let x := portOf s port
  x.mode ≠ 0 && x.mode ≠ 10 && x.block && (!hasRsFec x || x.align) && !x.fault && (lanesOf s port).all (laneGood s)

/-- The link bit of a lane: its port's, or a Hawser lane's codeword lock; down while the lane's generator runs (R466). -/
def laneLink (s : State) (n : Nat) : Bool :=
  if 24 ≤ n && n < 28 then s.red.hawser.locked.contains (n - 24) && !(laneOf s n).gen
  else match portOfLane s n with | some p => portUp s p | none => false

/-! ### The frequency source that a lane gives (R219 to R221) -/

/-- The code of a timebase state (R220). -/
def TimeSt.code : TimeSt → Nat
  | .freerun => 0 | .acquiring => 1 | .freqLocked => 2 | .locked => 3 | .holdover => 4 | .host => 5

/-- The timebase enters a state (R220). -/
def setTimeSt (x : TimeSt) (s : State) : State :=
  if s.time.st = x then s
  else
    let old := s.time.st.code
    let t := { s.time with st := x, since := nowNs s, everLocked := s.time.everLocked || x = .freqLocked || x = .locked }
    raise 640 [] [put old 4 ||| wd x.code] (setTime t s)

/-- The state in servo mode without a lock: a source is selected and present, or not (R220, R221). -/
def unlocked (t : TimeBase) : TimeSt :=
  let c := t.cfg
  let lost := (c.freqSrc ≠ 0 && t.freqLost) || (c.phaseSrc ≠ 0 && t.phaseLost)
  if lost || (c.freqSrc = 0 && c.phaseSrc = 0) then (if t.everLocked then .holdover else .freerun) else .acquiring

/-- Whether the selected frequency source is lost now: by LOS, LOL or a link that is down, or by the quality level of its lane (R219, R461).
TIME_10M_IN shows only in its commands. -/
def freqGone (s : State) : Bool :=
  let n := s.time.cfg.freqLane
  match s.time.cfg.freqSrc with
  | 1 => (laneOf s n).los || (laneOf s n).rxLol || s.time.qlLow || !laneLink s n
  | 3 => sdhLos s (n - 22) || (sdhOf s (n - 22)).lof
  | _ => false

/-- A selected source is lost: y freezes (R221). -/
def sourceLost (phase : Bool) (s : State) : State :=
  let t := s.time
  if t.cfg.host || (if phase then t.cfg.phaseSrc = 0 || t.phaseLost else t.cfg.freqSrc = 0 || t.freqLost) then s
  else
    let t := if phase then { t with phaseLost := true } else { t with freqLost := true }
    raise 649 [] [wd (if phase then 1 else 0)] (setTimeSt (unlocked t) (setTime t s))

/-- A frequency source that is lost by what the device sees of its lane is declared so (R219). -/
def freqWatch (s : State) : State := if freqGone s then sourceLost false s else s

/-! ### Changes of a lane -/

/-- LOS, RX-LOL, TX-LOL and link of a lane, bit 0 first (R472, R474). -/
def laneFlags (s : State) (n : Nat) : Nat := let x := laneOf s n; bitsOf [x.los, x.rxLol, x.txLol, laneLink s n]

/-- A change of a lane's flags raises its source (R472). -/
def laneEvt (n before : Nat) (s : State) : State :=
  if laneFlags s n = before || 28 ≤ n then s else raise (736 + n) [] [wd (laneFlags s n)] s

/-- Judges a port's link anew; one that goes down sends its clause's fault sequence, and is counted on its lanes (R461, R471). -/
def judgeLink (port : Nat) (s : State) : State :=
  let x := portOf s port
  let up := linkUp s port
  if up = x.link then s
  else
    let ls := lanesOf s port
    let s := emit (.portFault port (!up)) (setPort port { x with link := up } s)
    if up then s else forEach ls (fun n s => cnt (cLane 3 n) 1 s) s

/-- A Hawser lane whose link bit has gone down by its generator counts it (R466, R471). -/
def hawserLink (n : Nat) (before : Bool) (s : State) : State := if before && !laneLink s n then cnt (cLane 3 n) 1 s else s

/-- Acts on a lane, then judges its port's link and tells of what changed, for every lane of the port. A SyncE source is lost with its
link (R461). A lane that takes part in the TDM block tells of its defects (R475, R501). -/
def onLane (n : Nat) (f : State → State) (s : State) : State :=
  let ls := match portOfLane s n with | some p => lanesOf s p | none => [n]
  let before := ls.map fun l => (l, laneFlags s l)
  let link := laneLink s n
  let defects := if sdhRuns s (n - 22) then laneDefects s (n - 22) else 0
  let s := f s
  let s := freqWatch (match portOfLane s n with | some p => judgeLink p s | none => hawserLink n link s)
  let s := forEach before (fun e s => laneEvt e.1 e.2 s) s
  if (n = 22 || n = 23) && sdhRuns s (n - 22) then laneChange (n - 22) defects s else s

/-- Takes a port's PCS lock away, as a loopback change or a stopping lane does. -/
def dropPcs (n : Nat) (s : State) : State :=
  match portOfLane s n with
  | some p => setPort p { portOf s p with block := false, align := false } s
  | none => s

/-! ### Lane states (R453 to R455) -/

/-- The Span of a Pier transmit lane. -/
def spanOfLane (n : Nat) : Nat := (n - 32) / 3

/-- A lane starts: its calibration runs. -/
def laneStart (n : Nat) (ref : List Ref) (s : State) : State := modLane n (fun x => { x with st := .starting, onRefs := ref }) s

/-- Adaptation of a lane's receiver, but in MANUAL, settles on what the channel needs: open numbers (R458; assumption 26). -/
def adapted (n : Nat) (s : State) : State :=
  let k := s.free
  if (laneOf s n).rxMode = 2 || 28 ≤ n then s
  else modLane n (fun x => { x with
    ctle := Config.freeNat k % 41, vga := Config.freeNat (k + 1) % 32, dfe := [Config.freeWord (k + 2), Config.freeWord (k + 3)] }) { s with free := k + 4 }

/-- Start-up training runs, and the lane's receiver sends its own requests, which are the world's (R457; assumption 161). -/
def train (n : Nat) (s : State) : State :=
  if trains s n then emit (.trainAsk n (Config.freeNat s.free)) (drawn (modLane n (fun x => { x with training := true, trained := none }) s)) else s

/-- A lane reaches ON: its calls answer, its receiver has adapted, and training starts where it is set (R453, R457, R458). -/
def laneOn (n : Nat) (s : State) : State :=
  let x := laneOf s n
  if x.st ≠ .starting then s
  else
    let s := onLane n (fun s => adapted n (train n (setLane n { x with st := .on, onRefs := [], trained := none, training := false, must := trains s n } s))) s
    forEach x.onRefs (fun r s => answer r .done [] s) s

/-- A Pier's TX-LOL goes with that of its lane (R453, R460). -/
def pierHeld (n : Nat) (s : State) : State := if n < 32 then s else modPier (spanOfLane n) ((n - 32) % 3) (fun x => { x with txLol := false }) s

/-- A lane leaves for STOPPING: its link goes down and its detectors report nothing (R453). -/
def laneStop (n : Nat) (s : State) : State :=
  onLane n (fun s =>
    let s := modLane n (fun x => { x with st := .stopping, onRefs := [], los := false, rxLol := false, txLol := false, trained := none, training := false }) s
    dropPcs n (pierHeld n s)) s

/-- A lane reaches OFF: OFF calls answer, and a pending ON runs if the domain is ON (R454). -/
def laneOff (n : Nat) (s : State) : State :=
  let x := laneOf s n
  if x.st ≠ .stopping then s
  else
    let s := setLane n { x with st := .off, offRefs := [], onPending := false } s
    let s := forEach x.offRefs (fun r s => answer r .done [] s) s
    if x.onPending && domOn s (domOfLane n) then laneStart n [] s else s

/-- Whether a lane number is one that a call may name (R450, R474). -/
def laneNamed (n : Nat) (piers : Bool) : Bool := n ≤ 27 || (piers && 32 ≤ n)

/-- `LANE_ENABLE` ON (R453, R454). -/
def laneEnableOn (code : Nat) (c : Call) (s : State) : State :=
  let n := fld (pw c.words 0) 6 0
  let x := laneOf s n
  if !laneNamed n true then respond code c .badArg [] s
  else if !domOn s (domOfLane n) then respond code c .badState [] s
  else match x.st with
    | .on => respond code c .done [] s
    | .off => let r := refFor code c s; laneStart n [r] (defer_ r s)
    | .starting => let r := refFor code c s; modLane n (fun x => { x with onRefs := x.onRefs ++ [r] }) (defer_ r s)
    | .stopping => respond code c .pending [] (setLane n { x with onPending := true } s)

/-- `LANE_ENABLE` OFF (R453, R454): an ON call that STARTING would have answered is refused (assumption 24). -/
def laneEnableOff (code : Nat) (c : Call) (s : State) : State :=
  let n := fld (pw c.words 0) 6 0
  let x := laneOf s n
  if !laneNamed n true then respond code c .badArg [] s
  else match x.st with
    | .off => respond code c .done [] s
    | .stopping => let r := refFor code c s; modLane n (fun x => { x with onPending := false, offRefs := x.offRefs ++ [r] }) (defer_ r s)
    | _ =>
      if x.st = .on && 32 ≤ n && (spanOf s (spanOfLane n)).st ≠ .closed then respond code c .badState [] s
      else
        let r := refFor code c s
        let s := laneStop n (defer_ r s)
        let s := modLane n (fun x => { x with offRefs := x.offRefs ++ [r] }) s
        forEach x.onRefs (fun r s => answer r .badState [] s) s

/-- The lanes of a domain. -/
def lanesOfDom (d : Nat) : List Nat :=
  if d < 32 then (List.range 3).map fun p => 32 + 3 * d + p
  else if 48 ≤ d && d < 52 then (List.range 4).map fun i => 4 * (d - 48) + i
  else if 52 ≤ d && d < 55 then (List.range 4).map fun i => 16 + 4 * (d - 52) + i
  else []

/-- A domain with lanes drains: every lane stops; those of a quad that were ON come back with it (R455). -/
def quadDrain (d : Nat) (s : State) : State :=
  forEach (lanesOfDom d) (fun n s =>
    let x := laneOf s n
    match x.st with
    | .on => laneStop n (setLane n { x with again := 48 ≤ d } s)
    | .starting =>
      let s := laneStop n (setLane n { x with again := false } s)
      forEach x.onRefs (fun r s => answer r .badState [] s) s
    | _ => setLane n { x with again := false } s) s

/-- A domain with lanes is OFF: every lane is OFF, and calls that wait for that answer. -/
def quadOff (d : Nat) (s : State) : State :=
  forEach (lanesOfDom d) (fun n s =>
    let x := laneOf s n
    let again := if x.st = .on then 48 ≤ d else x.again
    let s := if x.st = .on || x.st = .starting then laneStop n s else s
    let s := modLane n (fun x => { x with st := .off, onPending := false, offRefs := [], again := again, fill := 32, prbsErr := 0 }) s
    let s := forEach x.onRefs (fun r s => answer r .badState [] s) s
    forEach x.offRefs (fun r s => answer r .done [] s) s) s

/-- The RAMP of a quad domain ends: the lanes that were ON when it last left ON are ON (R455). -/
def quadRampEnd (d : Nat) (s : State) : State :=
  forEach (lanesOfDom d) (fun n s => if (laneOf s n).again then laneOn n (laneStart n [] (modLane n (fun x => { x with again := false }) s)) else s) s

/-! ### Detectors and training (R457 to R461) -/

/-- Whether a lane's detectors judge. -/
def laneAwake (s : State) (n : Nat) : Bool := (laneOf s n).st = .starting || (laneOf s n).st = .on

def losDeclare (n : Nat) (s : State) : State :=
  if !laneAwake s n || (laneOf s n).los || 28 ≤ n then s
  else cnt (cLane 0 n) 1 (onLane n (modLane n fun x => { x with los := true }) s)

def losClear (n : Nat) (s : State) : State := if (laneOf s n).los then onLane n (modLane n fun x => { x with los := false }) s else s

def rxLolDeclare (n : Nat) (s : State) : State :=
  if !laneAwake s n || (laneOf s n).rxLol || 28 ≤ n then s
  else cnt (cLane 1 n) 1 (onLane n (modLane n fun x => { x with rxLol := true }) s)

def rxLolClear (n : Nat) (s : State) : State := if (laneOf s n).rxLol then onLane n (modLane n fun x => { x with rxLol := false }) s else s

/-! ### What a lane counts in a second (R462, R463) -/

/-- Symbols of a lane's RS-FEC codeword: of its port's mode, or of the Hawser; none without RS-FEC (R451, R467). -/
def fecOf (s : State) (n : Nat) : Option Nat :=
  if 24 ≤ n then some 544
  else (portOfLane s n).bind fun p => if hasRsFec (portOf s p) then some (if (portOf s p).mode ≤ 5 then 544 else 528) else none

/-- The elastic buffer of a lane moves by blocks that came too many and too few: above 40 it deletes idle blocks as far as there are any,
below 24 it inserts them, and one that all the same fills or empties slips (R463). The far end's clock and gaps are the world's; R464 says
of which far ends no slip comes (assumption 38). -/
def elastic (n : Nat) (more idles fewer gaps : Nat) (s : State) : State :=
  let f := (laneOf s n).fill + more
  let del := min idles (f - 40)
  let g := f - del
  let s := cnt (cLane 8 n) del s
  if 64 ≤ g || g ≤ fewer then laneSlip n s
  else
    let h := g - fewer
    let ins := min gaps (24 - h)
    modLane n (fun x => { x with fill := h + ins }) (cnt (cLane 7 n) ins s)

/-- Whether a lane has an elastic buffer: an Ethernet lane that is ON; Hawser lanes carry none (R463, R464). -/
def buffered (s : State) (n : Nat) : Bool := (laneOf s n).st = .on && n < 24 && (portOf s ((portOfLane s n).getD n)).mode ≠ 10

/-- The buffer's moves since it was last looked at. -/
def bufferMoved (n : Nat) (s : State) : State :=
  let k := s.free
  if buffered s n then elastic n (Config.freeNat k) (Config.freeNat (k + 1)) (Config.freeNat (k + 2)) (Config.freeNat (k + 3)) { s with free := k + 4 } else s

/-- The errors a running checker found since it was last asked: a free value (R466; assumption 26). -/
def prbsPoll (n : Nat) (s : State) : State :=
  let x := laneOf s n
  if !x.check || x.st ≠ .on then s
  else
    let e := Config.freeNat s.free
    cnt (cLane 12 n) e (setLane n { x with prbsErr := (x.prbsErr + e) % 2 ^ 64 } (drawn s))

/-- What the FEC decoder, the checker and the elastic buffer of a lane that is ON counted in the second that ends: open numbers, which the
light and the far end's clock make (assumption 38). A Hawser lane's codewords are counted as they arrive. -/
def laneCounted (n : Nat) (s : State) : State :=
  if (laneOf s n).st ≠ .on then s
  else
    let s := bufferMoved n (prbsPoll n s)
    match if n < 24 then fecOf s n else none with
    | none => s
    | some m =>
      let k := s.free
      let cw := Config.freeNat k
      cnt (cLane 6 n) (Config.freeNat (k + 1) % (cw + 1)) (cnt (cLane 5 n) (Config.freeNat (k + 2) % (m * cw + 1)) (cnt (cLane 4 n) cw { s with free := k + 3 }))

/-- The correctable errors that the PCIe link's AER logged in the second that ends: an open number (R471; assumption 38). -/
def pcieCounted (s : State) : State := drawn (cnt (cDev 9) (Config.freeNat s.free) s)

/-- FEC-degrade, judged on the second that was latched (R462). -/
def laneDegraded (n : Nat) (s : State) : State :=
  match fecOf s n with
  | none => s
  | some m =>
    let cw := kgetD s.ctl.cntSnap (cLane 4 n) 0
    if 0 < cw && m * cw ≤ kgetD s.ctl.cntSnap (cLane 5 n) 0 * 10 ^ (laneOf s n).deg then raise (768 + n) [] [1] s else s

/-- A requested tap held in its range (R456, R457). -/
def tapIn (hi : Nat) (v : Int) : Nat := (clampI 0 hi v).toNat

/-- The status that answers a request for a tap: 0 met, 1 minimum, 2 maximum (R457). -/
def tapStatus (hi : Nat) (v : Int) : Nat := if v < 0 then 1 else if (hi : Int) < v then 2 else 0

/-- The highest POST beside a PRE: PRE + POST is at most 32 (R456). -/
def postMax (pre : Nat) : Nat := min 24 (32 - pre)

/-- Training completes with the far end's taps, each request answered and held in its range, and the receiver adapted (R456 to R458; which
tap yields where both reach for more than their sum is assumption 161). -/
def trainComplete (n : Nat) (pre post : Int) (s : State) : State :=
  if !(laneOf s n).training then s
  else
    let a := tapIn 16 pre
    let s := emit (.trainStatus n (tapStatus 16 pre) (tapStatus (postMax a) post)) s
    onLane n (fun s => adapted n (modLane n (fun x => { x with training := false, trained := some (a, tapIn (postMax a) post) }) s)) s

def trainTimeout (n : Nat) (s : State) : State :=
  if !(laneOf s n).training then s else cnt (cLane 10 n) 1 (modLane n (fun x => { x with training := false }) s)

def trainRetry (n : Nat) (s : State) : State :=
  let x := laneOf s n
  if x.st = .on && x.must && x.trained.isNone && !x.training then train n s else s

/-- A port's PCS reports its locks and faults (R461). -/
def pcsChange (port : Nat) (block align fault : Bool) (s : State) : State :=
  onLane port (fun s => setPort port { portOf s port with block := block, align := align, fault := fault } s) s

/-! ### Calls of family 0x0C (R473, R474) -/

/-- Whether a mode is allowed at a port (R451). -/
def modeAllowed (mode port : Nat) : Bool :=
  match mode with
  | 0 => true
  | 1 => port = 0 || port = 8
  | 2 => port = 0 || port = 4 || port = 8 || port = 12
  | 3 => port % 2 = 0 && port ≤ 14
  | 4 | 5 | 6 | 7 => port ≤ 15
  | 8 | 9 => 16 ≤ port && port ≤ 23
  | 10 => port = 22 || port = 23
  | _ => false

/-- Whether FEC is in range for a mode. -/
def fecAllowed (mode fec : Nat) : Bool :=
  match mode with
  | 6 | 8 => fec ≤ 2
  | 7 | 9 => fec ≤ 1
  | _ => true

/-- `PORT_MODE_SET` (R452). A port whose lanes another port has absorbed is used by that port's mode (assumption 25). A far-end loopback that MODE
10 does not have ends (R465; assumption 162). -/
def portModeSet (ws : List Word) (s : State) : Res (State × List Word) := do
  let port := fld (pw ws 0) 20 16
  let mode := fld (pw ws 0) 3 0
  let fec := fld (pw ws 0) 9 8
  need (port ≤ 23 && modeAllowed mode port && fecAllowed mode fec) .badArg
  let used := lanesOf s port ++ (List.range (portLanes mode)).map (port + ·)
  need (used.all fun n => (laneOf s n).st = .off) .badState
  need ((List.range (portLanes mode)).all fun i => match portOfLane s (port + i) with | some p => p = port | none => true) .badState
  let keep := if 6 ≤ mode && mode ≤ 9 then fec else 0
  let s := if mode = 10 && (laneOf s port).loopback = 3 then modLane port (fun x => { x with loopback := 0 }) s else s
  return (laneEvt port (laneFlags s port) (setPort port { mode := mode, fec := keep } s), [])

/-- `LANE_TX_EQ_SET` (R456, R457): TRAIN set on a lane that is ON acts when it next reaches ON; with TRAIN cleared the taps stay as set. -/
def laneTxEqSet (ws : List Word) (s : State) : Res (State × List Word) := do
  let n := fld (pw ws 0) 6 0
  let w := pw ws 1
  let pre := fld w 4 0
  let post := fld w 12 8
  need (laneNamed n true && pre ≤ 16 && post ≤ 24 && fld w 21 16 ≤ 32 && pre + post ≤ 32) .badArg
  let x := laneOf s n
  let can := n < 24 && ((portOf s n).mode = 8 || (portOf s n).mode = 9)
  let train := if can then bit w 31 else x.train
  return (onLane n (setLane n { x with
    pre := pre, post := post, amp := fld w 21 16, train := train, must := x.must && train,
    training := x.training && train, trained := x.trained.map fun _ => (pre, post) }) s, [])

/-- Whether a lane runs at 10.3125 or 2.48832 Gb/s, with four DFE taps (R458). -/
def shortDfe (s : State) (n : Nat) : Bool :=
  match portOfLane s n with | some p => let m := (portOf s p).mode; m = 7 || m = 9 || m = 10 | none => false

/-- `LANE_RX_EQ_SET` (R458): FREEZE holds what adaptation left, and ADAPT goes on from it. -/
def laneRxEqSet (ws : List Word) (s : State) : Res (State × List Word) := do
  let n := fld (pw ws 0) 6 0
  let m := fld (pw ws 0) 9 8
  need (laneNamed n false && m ≤ 2) .badArg
  need (m ≠ 2 || fld (pw ws 1) 13 8 ≤ 40) .badArg
  let x := laneOf s n
  if m = 2 then return (setLane n { x with rxMode := 2, ctle := fld (pw ws 1) 13 8, vga := fld (pw ws 1) 4 0, dfe := [pw ws 2, pw ws 3] } s, [])
  else return (modLane n (fun x => { x with rxMode := m }) (if x.st = .on && x.rxMode = 0 then adapted n s else s), [])

/-- `LANE_DETECT_CONFIG` (R459, R462). -/
def laneDetectConfig (ws : List Word) (s : State) : Res (State × List Word) := do
  let n := fld (pw ws 0) 6 0
  let w := pw ws 1
  let th := fld w 8 0
  need (laneNamed n false && 2 ≤ fld w 27 24 && fld w 27 24 ≤ 8 && 1 ≤ fld w 22 16 && fld w 22 16 ≤ 100 && 40 ≤ th && th ≤ 300 && th % 10 = 0) .badArg
  return (modLane n (fun x => { x with deg := fld w 27 24, losAssert := fld w 22 16, losTh := th }) s, [])

/-- Whether a loopback is defined for a lane: the far-end one on lanes 0 to 21, on lanes 22 and 23 in Ethernet modes only, and on no Hawser
lane (R464, R465). -/
def loopbackAllowed (s : State) (n mode : Nat) : Bool :=
  mode ≠ 3 || n < 22 || (n < 24 && (portOf s n).mode ≠ 0 && (portOf s n).mode ≠ 10)

/-- `LANE_LOOPBACK_SET` (R465): the link goes down, and comes up again as the PCS reports. -/
def laneLoopbackSet (ws : List Word) (s : State) : Res (State × List Word) := do
  let n := fld (pw ws 0) 6 0
  let m := fld (pw ws 0) 9 8
  need (laneNamed n false && loopbackAllowed s n m) .badArg
  need ((laneOf s n).st = .on) .badState
  return (onLane n (fun s => dropPcs n (modLane n (fun x => { x with loopback := m }) s)) s, [])

/-- Whether a lane is PAM4: Hawser lanes, and lanes of modes 1 to 5 (R450, R451). -/
def pam4 (s : State) (n : Nat) : Bool :=
  (24 ≤ n && n < 28) || match portOfLane s n with | some p => let m := (portOf s p).mode; 1 ≤ m && m ≤ 5 | none => false

/-- `LANE_PRBS` (R466). -/
def lanePrbs (ws : List Word) (s : State) : Res (State × List Word) := do
  let w := pw ws 0
  let n := fld w 6 0
  let pat := fld w 13 12
  need (laneNamed n false && pat ≤ 2 && (pat ≠ 2 || pam4 s n)) .badArg
  let s := prbsPoll n s
  let chk := bit w 8 && pat ≠ 0
  let s := onLane n (modLane n fun x => { x with pattern := pat, gen := bit w 9 && pat ≠ 0, check := chk, prbsErr := if chk && !x.check then 0 else x.prbsErr }) s
  return (s, toWords 2 (laneOf s n).prbsErr)

/-- A lane's state code (R474). -/
def laneCode (x : Lane) : Nat :=
  match x.st with
  | .off => 0 | .starting => 1 | .on => 2 | .stopping => if x.onPending then 4 else 3

/-- `LANE_STATUS` (R474): what continuous adaptation has found by now and the frequency offset are free values (assumption 26). -/
def laneStatus (ws : List Word) (s : State) : Res (State × List Word) := do
  let n := fld (pw ws 0) 6 0
  need (laneNamed n false) .badArg
  let s := bufferMoved n s
  let k := s.free
  let s := drawn s
  let s := if (laneOf s n).st = .on && (laneOf s n).rxMode = 0 then adapted n s else s
  let x := laneOf s n
  let ppm := if x.st = .on then Config.freeNat k % 65536 else 0
  let (pre, post) := x.trained.getD (x.pre, x.post)
  return (s, [put (laneCode x) 24 ||| put x.loopback 16 ||| putb x.trained.isSome 4 ||| wd (laneFlags s n), put ppm 16 ||| wd x.fill,
              put x.amp 16 ||| put post 8 ||| wd pre, put x.ctle 8 ||| wd x.vga, pw x.dfe 0, if shortDfe s n then 0 else pw x.dfe 1])

/-- `HAWSER_LANE_STATUS`: the largest skew seen, which what was seen since it was last asked may raise (assumption 26). -/
def hawserLaneStatus (s : State) : State × List Word :=
  let h := s.red.hawser
  let skew := max h.skew (Config.freeNat s.free % 65536)
  (drawn (setHawser { h with skew := skew } s), [put (maskOf h.remote).toNat 8 ||| put (maskOf h.locked).toNat 4 ||| maskOf h.inUse, wd skew])

/-- `PCIE_STATUS` (R470). -/
def pcieStatus (s : State) : List Word :=
  let x := s.lane.pcie
  [put x.speed 8 ||| wd x.width, wd x.mps, wd s.ctl.numVfs]

/-- What the link can train to: 2.5 to 16.0 GT/s, by code, and one, two, four or eight lanes; 0 lanes is link-down (R470). -/
def pcieTrains (speed width : Nat) : Bool := width = 0 || (1 ≤ speed && speed ≤ 4 && [1, 2, 4, 8].contains width)

/-- The PCIe link changes; a width of 0 is link-down (R470, R472). The payload size in force is then the host's choice among three
(assumption 26). -/
def pcieLink (speed width : Nat) (s : State) : State :=
  if !pcieTrains speed width then s
  else
    raise 797 [] [put speed 8 ||| wd width]
      (drawn { s with lane := { s.lane with pcie := { s.lane.pcie with
        speed := speed, width := width, down := width = 0, mps := 128 * 2 ^ (Config.freeNat s.free % 3) } } })

/-- AER logs an uncorrectable error (R470 to R472). -/
def pcieError (status : Word) (s : State) : State :=
  raise 798 [] [status] (cnt (cDev 10) 1 { s with lane := { s.lane with pcie := { s.lane.pcie with aer := s.lane.pcie.aer ||| status } } })

end Sys2Proof.Machine
end

