-- ==== Sys2Proof/Machine/Time.lean ====
section
/-! DEFINITION. The timebase, its servo and steps, Keystone and the time pins (chapter 06). -/

namespace Sys2Proof.Machine

/-! ### The counter (R211, R212, R222 to R224) -/

/-- One tick of the timebase clock: the counter's increment, and what is left of a slew (R211, R223). -/
def tick (s : State) : State :=
  let t := s.time
  { s with tb := s.tb + tickInc t, time := { t with slew := slewLess (incNom * slewRate t) t } }

/-- SLEW_COMPLETE (R223): the counter reaches the instant at which a slew has moved the phase by the amount asked; a slew that moves
nothing has no such instant. -/
def slewComplete (s : State) : State :=
  let a := slewRate s.time
  match s.time.slew with
  | some r =>
    if a = 0 then s
    else { s with tb := s.tb + (r * (1000000000000 + s.time.y + a) / (a * 1000000000000)).toNat, time := { s.time with slew := none } }
  | none => s

/-- A phase in ps as a slew. -/
def slewOf (ps : Int) : Int := ps * (2 ^ 40 * 1000000000 : Nat)

/-! ### The servo (R219 to R221) -/

/-- Whether every Span is closed. -/
def allClosed (s : State) : Bool := !kany s.pon.spans fun _ x => x.st ≠ .closed

/-- The servo writes y: a value of its own within the bound (R220; assumption 27). -/
def servoWrites (s : State) : State :=
  setTime { s.time with y := (Config.freeNat s.free % 30000001 : Nat) - yMax } (drawn s)

/-- Whether y is frozen: no source is there to follow (R221). -/
def frozen (t : TimeBase) : Bool := t.st = .freerun || t.st = .holdover

/-- The phase loop removes an accumulated phase error: by a step where every Span is closed and it exceeds 1 µs, else by a slew (R221). -/
def removeError (err : Int) (s : State) : State :=
  if allClosed s && 1000000 < err.natAbs then
    setTime { s.time with steps := s.time.steps ++ [(applyPointFor s.tb 0 / frameTb, -(err * 2 ^ 40 / 1000))] } s
  else setTime { s.time with slew := some (slewOf (-err)) } s

/-- A phase error reaches the phase loop, in ps (R219 to R221). The run of samples within PHASE_LOCK goes on through ACQUIRING, and ends
where no loop runs. Before LOCKED, the error that has accumulated is removed. -/
def phaseSample (err : Int) (s : State) : State :=
  let s := setTime { s.time with phaseErr := err } s
  if s.time.cfg.host || frozen s.time then setTime { s.time with goodRun := 0 } s
  else
    let s := servoWrites s
    let t := s.time
    let good := err.natAbs ≤ 1000 * t.cfg.phaseLock
    let run := if good then t.goodRun + 1 else 0
    let s := setTime { t with goodRun := run } s
    match t.st with
    | .freqLocked => if 16 ≤ run then setTimeSt .locked s else if good then s else removeError err s
    | .locked => if good then s else setTimeSt .freqLocked s
    | .acquiring => removeError err s
    | _ => s

/-- FREQUENCY_LOOP_SETTLED: to FREQ_LOCKED, or at once to LOCKED where 16 consecutive samples lay within PHASE_LOCK (R220). -/
def freqSettled (s : State) : State :=
  if s.time.st ≠ .acquiring then s
  else setTimeSt (if s.time.cfg.phaseSrc ≠ 0 && 16 ≤ s.time.goodRun then .locked else .freqLocked) (servoWrites s)

/-- One millisecond and one second, in the units of the counter. -/
def msTb : Nat := 1000 * us
def secTb : Nat := 8000 * frameTb

/-- Whether the selected phase source is lost now: no PTP sample for PTP_TIMEOUT, or three consecutive seconds whose window of
±1 µs has passed without an edge (R219). -/
def phaseGone (s : State) : Bool :=
  match s.time.cfg.phaseSrc with
  | 1 => s.time.phaseAt + s.time.cfg.ptpTimeout * msTb ≤ s.tb
  | 2 => (s.time.ppsSec + 3) * secTb + us ≤ s.tb
  | _ => false

/-- FREQ_SOURCE_LOST: TIME_10M_IN without an edge for 10 µs, or a source that its lane shows lost (R219). -/
def freqLostNow (s : State) : State := if s.time.cfg.freqSrc = 2 || freqGone s then sourceLost false s else s

/-- PHASE_SOURCE_LOST (R219). -/
def phaseLostNow (s : State) : State := if phaseGone s then sourceLost true s else s

/-- A lost source returns: what it was lost by has passed (R219, R221). -/
def sourceReturn (phase : Bool) (s : State) : State :=
  let t := s.time
  if t.cfg.host || !(if phase then t.phaseLost && !phaseGone s else t.freqLost && !freqGone s) then s
  else
    let t := if phase then { t with phaseLost := false, goodRun := 0 } else { t with freqLost := false, goodRun := 0 }
    setTimeSt (unlocked t) (setTime t s)

/-- One TAI second in ps. -/
def secPs : Nat := 1000000000000

/-- A rising edge of TIME_PPS_IN: the stamp less PPS_IN_DELAY less the nearest second (R219). An edge from 1 µs before a second to
1 µs after it keeps the source. -/
def ppsEdge (phase : Nat) (s : State) : State :=
  if s.time.cfg.phaseSrc ≠ 2 then s
  else
    let ps := eventPs s phase - (s.time.cfg.ppsInDelay : Nat)
    let sec := roundUpHalf (ps / (secPs : Nat))
    let err := ps - (sec : Rat) * (secPs : Nat)
    let s := if -1000000 ≤ err && err < 1000000 then setTime { s.time with ppsSec := max s.time.ppsSec sec.toNat } s else s
    phaseSample (roundAway err) s

/-! ### Steps (R224) -/

/-- The grid instants of a Keystone entry from one instant in ps to before another, its start and what it has done taken into account. -/
def gridBetween (e : KEntry) (a b : Nat) : Nat :=
  let per := 1000 * fld (pw e.words 3) 29 0
  let g := gridAfter e (max a e.done)
  if b ≤ g || per = 0 then 0 else ceilDiv (b - g) per

/-- The firings of an entry that a forward step skips (R224). -/
def skippedBy (e : KEntry) (a b : Nat) : Nat :=
  let n := gridBetween e a b
  let c := fld (pw e.words 0) 25 16
  if !keyValid e || bit (pw e.words 0) 27 then 0 else if c = 0 then n else min n (c - e.firings)

/-- Counts the skips of every entry. -/
def countSkips (es : List (Nat × KEntry)) (a b : Nat) (s : State) : State :=
  match es with
  | [] => s
  | e :: t =>
    let n := skippedBy e.2 a b
    countSkips t a b (if n = 0 then s else raiseN n 646 [] [wd e.1] (cnt (cDev 3) n s))

/-- The counter steps at apply point number `n` (R224): waiting commits, steps and Lanyard rates keep their count of apply points. Instants
that the device measures times from move with the counter; Keystone and TIME_PPS_OUT go on from the new instant (assumption 103). -/
def stepNow (n : Nat) (size : Int) (s : State) : State :=
  let old := n * frameTb
  let new := ((old : Int) + size).toNat
  let base := new / frameTb
  let ps := ceilDiv (new * 1000) (2 ^ 40)
  let s := if 0 < size then countSkips s.time.keystone (ceilDiv (old * 1000) (2 ^ 40)) ps s else s
  let move (k : Nat) : Nat := base + (k - n)
  let shift (t unit : Nat) : Nat := ((t : Int) + size / (unit : Int)).toNat
  let txns := s.ctl.txns.map fun t => match t.phase with
    | .accepted a => { t with phase := .accepted (move (a / frameTb) * frameTb) }
    | _ => t
  let t := s.time
  let doms := kmap s.pwr.doms fun _ d => { d with onSince := shift d.onSince 1 }
  let moveNs (t : Nat) : Nat := shift t (2 ^ 40)
  let sdh := kmap s.tdm.lanes fun _ x => { x with failAt := x.failAt.map moveNs, degAt := x.degAt.map moveNs }
  let s := shapersStep old new s
  let pipes := kmap s.fwd.pipes fun _ p => { p with limiters := kmap p.limiters fun _ l => { l with at_ := moveNs l.at_ } }
  { s with tb := new, fwd := { s.fwd with pipes := pipes, budgets := kmap s.fwd.budgets fun _ b => { b with lanyardNext := b.lanyardNext.map fun e => (e.1, move e.2) } },
           ciph := { s.ciph with pair := { s.ciph.pair with since := shift s.ciph.pair.since 1 } }, tdm := { s.tdm with lanes := sdh, msp := { s.tdm.msp with wtrEnd := moveNs s.tdm.msp.wtrEnd } }, ctl := { s.ctl with txns := txns, lastApply := base, lastSecond := new / secTb },
           pwr := { s.pwr with doms := doms, lastPace := shift s.pwr.lastPace 1 },
           time := { t with steps := t.steps.map fun e => (move e.1, e.2), since := t.since + ((new / 2 ^ 40 : Nat) - (old / 2 ^ 40 : Nat)), phaseAt := shift t.phaseAt 1,
                            ppsSec := t.ppsSec + new / secTb - old / secTb, ppsDone := (ps + t.cfg.ppsOutAdv - 1) / secPs,
                            keystone := kmap t.keystone fun _ e => { e with done := ps } } }

/-- At an apply point, the steps that fall due act, while every Span is closed (R224). -/
def stepsDue (n : Nat) (s : State) : State :=
  let due := s.time.steps.filter fun e => e.1 ≤ n
  let s := setTime { s.time with steps := s.time.steps.filter fun e => n < e.1 } s
  if due = [] || !allClosed s then s else stepNow n (due.map (·.2)).sum s

/-! ### Keystone (R228 to R230) -/

/-- A Keystone entry. -/
def keyEntry (s : State) (n : Nat) : Option KEntry := kget s.time.keystone n

/-- Writes a Keystone entry. -/
def setKey (n : Nat) (e : KEntry) (s : State) : State := setTime { s.time with keystone := kset s.time.keystone n e } s

/-- The ONU of an anchored entry, by 512 × Span + index (R228). -/
def keyOnu (e : KEntry) : Nat := 512 * fld (pw e.words 3) 12 8 + fld (pw e.words 3) 24 16

/-- The instant at which an anchored entry fires for a burst: t_exp + OFFSET (R233). -/
def anchorPs (e : KEntry) (a : Anchor) : Nat := (a.at_ + (((pw e.words 2).toInt : Int) : Rat)).floor.toNat

/-- The first burst of an anchored entry's ONU for which it fires at or after an instant in ps, whether or not the entry stood when the
burst's map was committed (R41, R233). -/
def keyAnchor (s : State) (e : KEntry) (t : Nat) : Option Anchor :=
  s.time.anchored.find? fun a => a.onu = keyOnu e && a.pier = fld (pw e.words 3) 1 0 && t ≤ anchorPs e a

/-- Whether an anchored entry's ONU is ACTIVE; another causes no firing (R233). -/
def keyActive (s : State) (e : KEntry) : Bool := (onuOf s (keyOnu e / 512) (keyOnu e % 512)).st = .active

/-- The first instant of an entry at or after one in ps: of its grid, or of those that the maps fixed for its ONU (R229, R233). -/
def keyInstant (s : State) (e : KEntry) (t : Nat) : Option Nat :=
  if bit (pw e.words 0) 27 then (keyAnchor s e t).map (anchorPs e) else some (gridAfter e t)

/-- The firing of an entry of a kind that is due now: the entry and its instant (R229, R233). -/
def dueFiring (s : State) (n kind : Nat) : Option (KEntry × Nat) :=
  match keyEntry s n with
  | none => none
  | some e =>
    if !keyValid e || keyKind e ≠ kind then none
    else match keyInstant s e e.done with
      | some g => if g ≤ nowPs s then some (e, g) else none
      | none => none

/-- The tick of an instant in ps: ticks are counted from each second in steps of 1.6 ns (assumption 103). -/
def tickOf (ps : Nat) : Nat := ps / 1600

/-- The tick, from 256 before to 256 after another, at which an entry falls due, if it fires there (R230): of every kind, an anchored one for
an ACTIVE ONU only. No entry falls due twice in that time. -/
def rivalTick (s : State) (tau : Nat) (e : Nat × KEntry) : Option Nat :=
  let w := pw e.2.words 0
  let c := fld w 25 16
  let per := 1000 * fld (pw e.2.words 3) 29 0
  if !bit w 31 || (bit w 27 && !keyActive s e.2) then none
  else match keyInstant s e.2 (1600 * (tau - 256)) with
    | none => none
    | some g =>
      let ahead := if bit w 27 then 1 else (g - gridAfter e.2 e.2.done) / per + 1
      if tau + 256 < tickOf g || (e.2.done ≤ g && (e.2.stopped || (c ≠ 0 && c < e.2.firings + ahead))) then none else some (tickOf g)

/-- The ticks by which a firing due at `tau` slips behind lower-numbered ones that fall due at `ds`, eight going at each tick;
`t` is the tick considered and `wait` those that wait there (R230). -/
def slipTicks (ds : List Nat) (tau t wait fuel : Nat) : Nat :=
  match fuel with
  | 0 => 0
  | fuel + 1 =>
    let w := wait + (ds.filter (· = t)).length
    if tau ≤ t && w < 8 then t - tau else slipTicks ds tau (t + 1) (w - 8) fuel

/-- The slip of a firing of an entry at an instant (R230). -/
def slipOf (s : State) (n g : Nat) : Nat :=
  let tau := tickOf g
  let ds := (s.time.keystone.filter (·.1 < n)).filterMap (rivalTick s tau)
  if ds.length < 8 then 0 else slipTicks ds tau (tau - 256) 0 513

/-- Whether a firing that slips is the first of its tick that does: every lower-numbered entry due there goes without a slip (R535). -/
def firstSlip (s : State) (n g : Nat) : Bool :=
  (s.time.keystone.filter (·.1 < n)).all fun e => rivalTick s (tickOf g) e ≠ some (tickOf g) || slipOf s e.1 g = 0

/-- A firing's slip is counted; the event of its tick names the first entry that slips there (R230, R535). -/
def slipped (n g : Nat) (s : State) : State :=
  let first := firstSlip s n g
  let s := cnt (cDev 4) 1 s
  if first then raise 645 [] [wd n] s else s

/-- An entry fires at an instant that is due: COUNT and FIRINGS count it, a slip moves it by whole ticks, and `act` is the firing itself
(R229, R230). -/
def fire (n : Nat) (e : KEntry) (g : Nat) (act : Nat → State → State) (s : State) : State :=
  let k := slipOf s n g
  act (g + 1600 * k) (setKey n (e.fired 1 g) (if k = 0 then s else slipped n g s))

/-- The lower-numbered entries of a kind with the same target whose firings fall at the tick of an entry's: they reach the bus before it
(R230). -/
def firesFirst (s : State) (n kind : Nat) (e : KEntry) (g : Nat) : List Nat :=
  let target (e : KEntry) : Word := pw e.words 1 &&& 0xFF7
  (s.time.keystone.filter fun f => f.1 < n && target f.2 = target e && match dueFiring s f.1 kind with | some (_, h) => tickOf h = tickOf g | none => false).map (·.1)

/-- The firing of an entry that is due, after those that reach its target before it (R230). -/
def inTurn (n kind : Nat) (turn : Nat → State → State) (s : State) : State :=
  match dueFiring s n kind with
  | some (e, g) => forEach (firesFirst s n kind e g ++ [n]) turn s
  | none => s

/-- The instants of an entry up to one pass without a firing. -/
def passBy (n : Nat) (e : KEntry) (g : Nat) (s : State) : State := setKey n { e with done := g + 1 } s

/-- Firings that fire nothing (R229): a CONV or LOOP one aimed at a bus that is not ON, one of a LAUNCH entry whose queue no Pier serves. -/
def keyDropped (n k : Nat) (e : KEntry) (g : Nat) (s : State) : State := raiseN k 646 [] [wd n] (cnt (cDev 5) k (passBy n e g s))

/-- A firing on a TIME_EVT pin that is an output drives it for WIDTH ticks; one that meets the last pulse merges with it (R230, R235). -/
def pinPulse (e : KEntry) (t : Nat) (s : State) : State :=
  let pin := fld (pw e.words 1) 1 0
  let x := kgetD s.time.pins pin {}
  let fall := t + 1600 * fld (pw e.words 1) 15 8
  let p := match x.pulse with
    | some (r, f) => if t ≤ f && r ≤ fall then (min r t, max f fall) else (t, fall)
    | none => (t, fall)
  if x.mode = 2 then emit (.level 0 pin t fall) (setTime { s.time with pins := kset s.time.pins pin { x with pulse := some p } } s) else s

/-- KEYSTONE_PIN_FIRE (R229). -/
def keyPin (n : Nat) (s : State) : State :=
  match dueFiring s n 0 with
  | some (e, g) => fire n e g (pinPulse e) s
  | none => s

/-- Whether a Pier serves the queue that a LAUNCH entry names; the instants of another entry fire nothing (R229). -/
def launchServed (s : State) (e : KEntry) : Bool :=
  let q := fld (pw e.words 1) 19 0
  ((queueAt s q).bind (pierOfQueue s q)).isSome

/-- The firings of a LAUNCH entry before an instant: each instant of its grid is one (R229, R231). -/
def launched (e : KEntry) (t : Nat) : KEntry :=
  let k := gridBetween e 0 t
  if !keyValid e || keyKind e ≠ 3 || k = 0 then e else e.fired k (t - 1)

/-- The slips of the next `k` firings of a LAUNCH entry: they take places like any others, though a launch time stays that of its grid
(R230, R231). -/
def launchSlips (e : Nat × KEntry) (k : Nat) (s : State) : State :=
  let per := 1000 * fld (pw e.2.words 3) 29 0
  let c := fld (pw e.2.words 0) 25 16
  let g := gridAfter e.2 e.2.done
  let at_ := (List.range (if c = 0 then k else min k (c - e.2.firings))).map fun i => g + i * per
  forEach (at_.filter fun t => slipOf s e.1 t ≠ 0) (slipped e.1) s

/-- The LAUNCH entries pass the instants of their grids before an instant in ps. -/
def passLaunches (t : Nat) (s : State) : State :=
  forEach (s.time.keystone.filter fun e => keyKind e.2 = 3 && keyValid e.2) (fun e s =>
    let k := gridBetween e.2 0 t
    if k = 0 then s
    else if launchServed s e.2 then setKey e.1 (launched e.2 t) (launchSlips e k s)
    else keyDropped e.1 k e.2 (t - 1) s) s

/-- Whether entry words name what exists (R228, R229). -/
def keyWordsOk (ws : List Word) : Bool :=
  let w := pw ws 0
  let k := fld w 30 28
  let per := fld (pw ws 3) 29 0
  let off := (pw ws 2).toInt
  k ≤ 3 && (k = 1 || !bit w 27) && (k ≠ 0 || 1 ≤ fld (pw ws 1) 15 8) && (k ≠ 1 || fld (pw ws 1) 11 4 ≤ 63) && (k ≠ 2 || fld (pw ws 1) 11 4 ≤ 35) &&
    (if bit w 27 then -7000000 ≤ off && off ≤ 125000000 && fld (pw ws 3) 1 0 ≤ 2
     else fld (pw ws 2) 29 0 ≤ 999999999 && per ≠ 0 && 1000000000 % per = 0 && (if k = 2 then 10000 else 1000) ≤ per)

/-- The start of an entry written at an instant: FIRST_SEC gives the low bits of a TAI second (R228, R229). -/
def firstNs (now first : Nat) : Nat :=
  if first = 0 then now
  else
    let sec := now / 1000000000
    max now ((sec / 2 ^ 32 * 2 ^ 32 + first) * 1000000000)

/-! ### Time pins (R235) -/

/-- An edge on a pin that is an input, at a sub-tick phase after the tick now. -/
def pinEdge (pin phase : Nat) (rising : Bool) (s : State) : State :=
  let x := kgetD s.time.pins pin {}
  if x.mode ≠ 1 || !(if rising then x.edge % 2 = 1 else x.edge / 2 % 2 = 1) then s
  else if 16 ≤ x.stamps.length then
    raise 647 [] [wd pin] (cnt (cPin pin) 1 (setTime { s.time with pins := kset s.time.pins pin { x with lost := min 0xFFFF (x.lost + 1) } } s))
  else
    let (ns, fr) := stampOf (eventPs s phase - (x.delay : Nat))
    let l := x.stamps ++ [(ns, rising, fr)]
    raise (641 + pin) [] [wd l.length] (setTime { s.time with pins := kset s.time.pins pin { x with stamps := l } } s)

/-- Whether TIME_PPS_OUT pulses. -/
def ppsRuns (t : TimeBase) : Bool := t.st = .locked || t.st = .holdover || t.cfg.ppsForce

/-- TIME_PPS_OUT_PULSE: the last second boundary less PPS_OUT_ADV raises the pin for PPS_WIDTH, once. -/
def ppsOut (s : State) : State :=
  let t := s.time
  let sec := (nowPs s + t.cfg.ppsOutAdv) / secPs
  let rise := sec * secPs - t.cfg.ppsOutAdv
  let fall := rise + 1000000 * t.cfg.ppsWidth
  if sec ≤ t.ppsDone then s
  else if ppsRuns t then emit (.level 1 0 rise fall) (setTime { t with ppsDone := sec, pps := some (rise, fall) } s)
  else setTime { t with ppsDone := sec } s

/-- Whether a pulse holds a pin high at an instant. -/
def highAt (p : Option (Nat × Nat)) (t : Nat) : Bool := match p with | some (r, f) => r ≤ t && t < f | none => false

/-- The levels of a TIME_EVT output and of TIME_PPS_OUT now. -/
def pinHigh (s : State) (pin : Nat) : Bool := highAt (kgetD s.time.pins pin {}).pulse (nowPs s)
def ppsHigh (s : State) : Bool := highAt s.time.pps (nowPs s)

/-- The first rising edge of TIME_10M_OUT at or after an instant in ps: one every 100 ns, in step with the edges of TIME_PPS_OUT. -/
def tenMegEdge (s : State) (t : Nat) : Nat := ceilDiv (t + s.time.cfg.ppsOutAdv) 100000 * 100000 - s.time.cfg.ppsOutAdv

/-! ### Snapshots (R215, R216) -/

/-- The codes of the sources in use, 0 when lost (R238). -/
def freqInUse (t : TimeBase) : Nat := if t.freqLost || t.cfg.host then 0 else t.cfg.freqSrc
def phaseInUse (t : TimeBase) : Nat := if t.phaseLost || t.cfg.host then 0 else t.cfg.phaseSrc

/-- A function's snapshot latches at the tick after the write. -/
def snapTake (fn : Nat) (s : State) : State :=
  let s := tick s
  let f := funcOf s fn
  let t := s.time
  setFunc fn { f with snap := { valid := true, seq := (f.snap.seq + 1) % 256, freqSrc := freqInUse t, phaseSrc := phaseInUse t, state := t.st.code,
                                ns := s.tb / 2 ^ 40 % 2 ^ 64, frac := s.tb % 2 ^ 40,
                                utc := bitsOf [t.cfg.leap61, t.cfg.leap59] * 2 ^ 16 + t.cfg.utc, freq := t.y } } s

/-! ### Time of day (R225, R226) -/

/-- Group delay per km in ns: index in 10^-6, dispersion in 0.01 ps/(nm km), wavelength offset in 0.001 nm (R226). -/
def groupDelay (n : Nat) (disp dl : Int) : Rat := (n : Rat) * 1000000 / 299792458 + (disp : Rat) * dl / 100000000

/-- The asymmetry terms of a Pier. -/
def asymOf (s : State) (sp p : Nat) : Asym := kgetD s.time.asym (3 * sp + p) {}

/-- The correction A in ps (R226); RESP_ADJ in ns. -/
def correctionA (s : State) (sp p o : Nat) (respAdj : Int) : Rat :=
  let x := pierOf s sp p
  let u := onuOf s sp o
  let a := asymOf s sp p
  let gd := groupDelay x.nDown a.dispDn a.dlDn
  let gu := groupDelay x.nUp a.dispUp a.dlUp
  let rtd : Rat := (1000 * x.teqd : Nat) - (u.eqd : Rat) * eqdUnit p + u.offset
  let f : Rat := rtd - x.tTx - x.tRx - (35000000 + 1000 * respAdj : Int)
  let rho := (a.rho : Rat) / 1000000
  f * (gd / (gd + gu) - rho) + rho * u.offset

/-- `TOD_CALC` (R226). The timestamp takes A in whole ps, as the answer carries it.
DEDUCED (notes/assumptions/11). -/
def todCalc (ch : Nat) (ws : List Word) (s : State) : Res (List Word) := do
  let w := pw ws 0
  let sp := fld w 12 8
  let o := fld w 24 16
  let p := fld w 1 0
  let adj := sgn 16 (fld (pw ws 1) 31 16)
  let lead := fld (pw ws 1) 15 0
  needOwner s ch (onuOwner s sp o)
  need (p ≤ 2 && 16 ≤ lead && lead ≤ 64000 && -1000 ≤ adj && adj ≤ 1000) .badArg
  let only := bit w 31
  need (only || ((onuOf s sp o).st = .active && (onuOf s sp o).pier = p)) .badState
  let n := ceilDiv s.tb frameTb + lead
  let a : Int := if only then 0 else roundAway (correctionA s sp p o adj)
  let t : Rat := (n : Rat) * 125000000 + (pierOf s sp p).tTx + a
  let units := (roundAway (t * 65536 / 1000)).toNat
  return toWords 2 (sfcOf p n) ++ toWords 2 (units / 65536) ++ [wd (units % 65536), wd (unsgn 32 a)]

/-! ### Calls of family 0x04 (R237, R238) -/

/-- `TIME_CONFIG`. -/
def timeConfig : TxnCall where
  spec := { code := 0x0401, who := .slice0, lens := [8],
            used := [0xFFFFFFFF, 0x83301F0F, 0x0003FFFF, 0xFFFFFFFF, 0x8007FFFF, 0xFFFFFFFF, 0xFFFFFFFF, 0xFFFF] }
  objs _ i := do
    let w := pw i.words 1
    let width := fld (pw i.words 4) 18 0
    let limit := fld (pw i.words 5) 31 16
    let lock := fld (pw i.words 5) 15 0
    let slew := (pw i.words 6).toNat
    let bw := fld (pw i.words 7) 15 0
    need (fld w 25 24 ≤ 2 && fld w 12 8 ≤ 23 && (fld w 21 20 ≠ 3 || fld w 12 8 = 22 || fld w 12 8 = 23)) .badArg
    need (1 ≤ width && width ≤ 500000 && 100 ≤ limit && limit ≤ 60000 && 1 ≤ lock && lock ≤ 1000) .badArg
    need (1 ≤ slew && slew ≤ 15000000 && 10 ≤ bw && bw ≤ 1000) .badArg
    return [⟨.timeCfg, 0⟩]
  apply i s :=
    let w := pw i.words 1
    let c : TimeCfg := {
      host := bit w 31, phaseSrc := fld w 25 24, freqSrc := fld w 21 20, freqLane := fld w 12 8, qlMin := fld w 3 0,
      leap59 := bit (pw i.words 2) 17, leap61 := bit (pw i.words 2) 16, utc := fld (pw i.words 2) 15 0,
      ppsInDelay := fld (pw i.words 3) 31 16, ppsOutAdv := fld (pw i.words 3) 15 0, ppsForce := bit (pw i.words 4) 31,
      ppsWidth := fld (pw i.words 4) 18 0, ptpTimeout := fld (pw i.words 5) 31 16, phaseLock := fld (pw i.words 5) 15 0,
      slewMax := (pw i.words 6).toNat, phaseBw := fld (pw i.words 7) 15 0 }
    let t := s.time
    let old := t.cfg
    let freqNew := c.freqSrc ≠ old.freqSrc || c.freqLane ≠ old.freqLane
    let phaseNew := c.phaseSrc ≠ old.phaseSrc
    let t := { t with cfg := c, freqLost := t.freqLost && !freqNew, qlLow := t.qlLow && !freqNew, phaseLost := t.phaseLost && !phaseNew }
    let t := if phaseNew then { t with phaseAt := s.tb, ppsSec := s.tb / secTb } else t
    let t := if phaseNew || c.host || old.host then { t with goodRun := 0 } else t
    .ok (freqWatch (setTimeSt (if c.host then .host else if old.host || freqNew || phaseNew then unlocked t else t.st) (setTime t s)))

/-- `TIME_STATUS`. -/
def timeStatus (s : State) : List Word :=
  let t := s.time
  [put (freqInUse t) 8 ||| put (phaseInUse t) 4 ||| wd t.st.code, wd (unsgn 32 t.y), wd (unsgn 32 t.phaseErr), wd (((nowNs s : Int) - t.since).toNat / 1000000000)]

/-- `TIME_FREQ_ADJUST` (R222). -/
def timeFreqAdjust (ws : List Word) (s : State) : Res (State × List Word) := do
  let y := (pw ws 0).toInt
  need (-yMax ≤ y && y ≤ yMax) .badArg
  need s.time.cfg.host .badState
  return (setTime { s.time with y := y } s, [])

/-- `TIME_PHASE_SLEW` (R223). -/
def timePhaseSlew (ws : List Word) (s : State) : Res (State × List Word) := do
  need (s.time.cfg.host || s.time.cfg.phaseSrc = 0) .badState
  return (setTime { s.time with slew := some (slewOf (pw ws 0).toInt) } s, [])

/-- `TIME_PHASE_STEP` (R224). -/
def timePhaseStep (ws : List Word) (s : State) : Res (State × List Word) := do
  need (allClosed s) .badState
  let t := applyPointFor s.tb 0
  let size := sgn 64 (wide ws 0 2) * (2 ^ 40 : Nat) + (fld (pw ws 2) 15 0 * 2 ^ 24 : Nat)
  return (setTime { s.time with steps := s.time.steps ++ [(t / frameTb, size)] } s, toWords 2 (t / 2 ^ 40))

/-- `TIME_PHASE_SAMPLE` (R219): a sample whose time lies ahead gives the servo an open phase error (assumption 27). -/
def timePhaseSample (ws : List Word) (s : State) : State :=
  let s := if s.time.cfg.phaseSrc = 1 then setTime { s.time with phaseAt := s.tb } s else s
  if s.time.cfg.phaseSrc ≠ 1 then s
  else if nowNs s < wide ws 1 2 then phaseSample (Config.freeWord s.free).toInt (drawn s)
  else phaseSample (pw ws 0).toInt s

/-- The five words of an entry with 0 in every bit that the table gives no use for its kind (R6, R228). -/
def keyLaid (ws : List Word) : List Word :=
  let burst := bit (pw ws 0) 27
  let target : Word := match fld (pw ws 0) 30 28 with | 0 => 0xFF03 | 1 | 2 => 0xFF7 | _ => 0xFFFFFFFF
  [pw ws 0, pw ws 1 &&& target, pw ws 2 &&& (if burst then 0xFFFFFFFF else 0x3FFFFFFF), pw ws 3 &&& (if burst then 0x01FF1F03 else 0x3FFFFFFF),
   if burst then 0 else pw ws 4]

/-- `KEYSTONE_SET` (R228, R231). -/
def keystoneSet : TxnCall where
  spec := { code := 0x0410, who := .slice0, lens := [7],
            used := [0xFFFFFFFF, 0x7FF, 0xFFFF003F, 0xFFFFFFFF, 0xFFFFFFFF, 0xFFFFFFFF, 0xFFFFFFFF] }
  objs _ i := do
    need (keyWordsOk (i.words.drop 2)) .badArg
    return [⟨.keystone, fld (pw i.words 1) 10 0⟩]
  apply i s := do
    let n := fld (pw i.words 1) 10 0
    let ws := (i.words.drop 2).take 5
    let launch := bit (pw ws 0) 31 && fld (pw ws 0) 30 28 = 3
    need (!launch || !kany s.time.keystone fun k e => k ≠ n && keyValid e && keyKind e = 3 && fld (pw e.words 1) 19 0 = fld (pw ws 1) 19 0) .badArg
    let first := if bit (pw ws 0) 27 then 0 else (pw ws 4).toNat
    let now := 125000 * frameNo s
    return setKey n { words := keyLaid ws, start := firstNs now first, done := 1000 * now } s

/-- `KEYSTONE_READ` (R229). -/
def keystoneRead (ws : List Word) (s : State) : List Word :=
  match keyEntry s (fld (pw ws 0) 10 0) with
  | none => [0, 0, 0, 0, 0, 0]
  | some e =>
    let e := if launchServed s e then launched e (nowPs s + 1) else e
    ((pw e.words 0) &&& (if e.stopped then 0x7FFFFFFF else 0xFFFFFFFF)) :: (List.range 4).map (fun i => pw e.words (i + 1)) ++ [wd e.firings]

/-- `ASYM_CONFIG`. -/
def asymConfig : TxnCall where
  spec := { code := 0x0421, who := .slice0, intro := 0x0300, lens := [5], used := [0xFFFFFFFF, 0x1F03, 0xFFFFFFFF, 0xFFFFFFFF, 0xFFFFF] }
  objs _ i := do
    let r := fld (pw i.words 4) 19 0
    need (fld (pw i.words 1) 1 0 ≤ 2 && 400000 ≤ r && r ≤ 600000) .badArg
    return [⟨.asym, pierIx (pw i.words 1)⟩]
  apply i s :=
    let d := pw i.words 2
    let l := pw i.words 3
    let a : Asym := { dispDn := sgn 16 (fld d 31 16), dispUp := sgn 16 (fld d 15 0), dlDn := sgn 16 (fld l 31 16), dlUp := sgn 16 (fld l 15 0), rho := fld (pw i.words 4) 19 0 }
    .ok (setTime { s.time with asym := kset s.time.asym (pierIx (pw i.words 1)) a } s)

/-- `TIME_EVT_CONFIG`. -/
def timeEvtConfig : TxnCall where
  spec := { code := 0x0430, who := .slice0, lens := [3], used := [0xFFFFFFFF, 0x333, 0xFFFF] }
  objs _ i := do
    let w := pw i.words 1
    need (fld w 5 4 ≤ 2 && (fld w 5 4 ≠ 1 || fld w 9 8 ≠ 0)) .badArg
    return [⟨.timeEvt, fld w 1 0⟩]
  apply i s :=
    let w := pw i.words 1
    let x := kgetD s.time.pins (fld w 1 0) {}
    .ok (setTime { s.time with pins := kset s.time.pins (fld w 1 0) { x with
      mode := fld w 5 4, edge := fld w 9 8, delay := fld (pw i.words 2) 15 0, pulse := if fld w 5 4 = 2 then x.pulse else none } } s)

/-- `TIME_EVT_READ`: up to four stamps leave the store. -/
def timeEvtRead (ws : List Word) (s : State) : State × List Word :=
  let pin := fld (pw ws 0) 1 0
  let x := kgetD s.time.pins pin {}
  let out := x.stamps.take 4
  (setTime { s.time with pins := kset s.time.pins pin { x with stamps := x.stamps.drop 4, lost := 0 } } s,
    (put x.lost 16 ||| wd out.length) :: out.flatMap fun e => toWords 2 e.1 ++ [putb e.2.1 16 ||| wd e.2.2])

/-- `PTP_PORT_CONFIG`: port 22, which the TDM block is, stays OFF (R477). -/
def ptpPortConfig : TxnCall where
  spec := { code := 0x0440, who := .slice0, lens := [2], used := [0xFFFFFFFF, 0x31F] }
  objs _ i := do
    need (fld (pw i.words 1) 9 8 ≤ 2 && fld (pw i.words 1) 4 0 ≤ 23) .badArg
    return [⟨.ptpPort, fld (pw i.words 1) 4 0⟩]
  apply i s := if fld (pw i.words 1) 4 0 = 22 && fld (pw i.words 1) 9 8 ≠ 0 then .error .badState else .ok (setTime { s.time with ptpMode := kset s.time.ptpMode (fld (pw i.words 1) 4 0) (fld (pw i.words 1) 9 8) } s)

/-- `PTP_TXTS_READ`: a stamp leaves its store. -/
def ptpTxtsRead (ws : List Word) (s : State) : Res (State × List Word) :=
  let w := pw ws 0
  let port := fld w 4 0
  let key := fld w 11 8 * 2 ^ 24 + fld w 23 16 * 2 ^ 16 + fld (pw ws 1) 15 0
  let l := kgetD s.time.ptpStamps port []
  if 23 < port then .error .badArg
  else match l.find? fun e => e.1 = key with
    | none => .error .badState
    | some e => .ok (setTime { s.time with ptpStamps := kset s.time.ptpStamps port (l.erase e) } s, toWords 2 (e.2 / 65536) ++ [wd (e.2 % 65536)])

end Sys2Proof.Machine
end

