-- ==== Sys2Proof/Machine/Optics.lean ====
section
/-! DEFINITION. The loop buses, their frames and strobes, and the states of a Pier's optics (chapter 13). -/

namespace Sys2Proof.Machine

/-! ### Numbers (R428) -/

/-- The bus of a Span, a Pier's number on it, and a loop's number by kind: 0 thermal, 1 bias, 2 APD. -/
def busOf (sp : Nat) : Nat := sp / 4
def jOf (sp p : Nat) : Nat := 3 * (sp % 4) + p
def loopNo (kind sp p : Nat) : Nat := 12 * kind + jOf sp p

/-- The Span and Pier of a loop. -/
def spanOfLoop (k n : Nat) : Nat := 4 * k + n % 12 / 3
def pierOfLoop (n : Nat) : Nat := n % 3

/-- A Pier's loop of a kind. -/
def pierLoop (s : State) (kind sp p : Nat) : Loop := loopOf s (busOf sp) (loopNo kind sp p)
def modPierLoop (kind sp p : Nat) (f : Loop → Loop) (s : State) : State := modLoop (busOf sp) (loopNo kind sp p) f s

/-- A code in a loop's output format (R432). -/
def outCode (c : LoopCfg) (v : Nat) : Int := if c.signed then sgn 16 v else v
def LoopCfg.off (c : LoopCfg) : Int := outCode c c.offCode

/-! ### Frames (R426, R429) -/

/-- A frame joins those that wait, before those of its rank: the second read of a result was requested with the first (R429). -/
def insertFirst (f : LFrame) (l : List LFrame) : List LFrame := (l.filter fun g => g.rank < f.rank) ++ f :: l.filter fun g => f.rank ≤ g.rank

/-- A frame joins those that wait, behind those of its rank (R429). -/
def insertFrame (f : LFrame) (l : List LFrame) : List LFrame := (l.filter fun g => g.rank ≤ f.rank) ++ f :: l.filter fun g => f.rank < g.rank

/-- An idle bus takes the first waiting frame. -/
def startFrame (k : Nat) (s : State) : State :=
  let b := loopBus s k
  match b.frame, b.waiting with
  | none, f :: t => setBus k { b with frame := some f, waiting := t } s
  | _, _ => s

/-- The sequencer asks for a frame. -/
def askFrame (k : Nat) (f : LFrame) (s : State) : State := startFrame k (modBus k (fun b => { b with waiting := insertFrame f b.waiting }) s)

/-- The 32 bits that the sequencer sends in a frame (R426). -/
def frameWord (f : LFrame) : Word :=
  if f.write then put 1 30 ||| put (f.conv % 16) 26 ||| put f.reg 16 ||| wd f.data else put 2 30 ||| put (f.conv % 16) 26

/-- A write of an output to the driver of a loop: the last frame of a cycle, or a write that no cycle makes. -/
def writeOut (k rank n : Nat) (cycle : Bool) (u : Int) (s : State) : State :=
  let c := (loopOf s k n).cfg
  askFrame k ⟨rank, true, c.outConv, c.outReg, unsgn 16 u, if cycle then some n else none, false, false, none, some n⟩
    (modLoop k n (fun l => { l with u := u, last := some u }) s)

/-- LOOPBk_SAFE_N is low (R425). -/
def safeLow (s : State) (k : Nat) : Bool := !domOn s (domLb k) || s.pwr.tripped

/-- Whether a Pier's lane sends PRBS31 (R439). -/
def sendsPrbs (s : State) (sp p : Nat) : Bool := (spanOf s sp).st = .closed && (opticOf s sp p).st = .lit

/-! ### Strobes (R427, R444, R445) -/

/-- The device of a converter. -/
def deviceOf (conv : Nat) : Nat := conv / 16

/-- RSSI results of a device that a further strobe loses are counted (R445). -/
def loseStrobes (k dev : Nat) (s : State) : State :=
  let b := loopBus s k
  let lostS := b.strobes.filter fun x => deviceOf x.conv = dev
  let lostF := b.waiting.filter fun f => f.rssi.isSome && !f.again && deviceOf f.conv = dev
  let n := lostS.length + lostF.length
  if n = 0 then s
  else
    let s := setBus k { b with strobes := b.strobes.filter fun x => deviceOf x.conv ≠ dev, waiting := b.waiting.filter fun f => !(f.rssi.isSome && !f.again && deviceOf f.conv = dev) } s
    raise (848 + k) [] [1] (cnt (cBus 1 k) n s)

/-- A strobe of a device. -/
def strobe (k dev : Nat) (s : State) : State := emit (.pulse (2 + k) dev) (loseStrobes k dev s)

/-- A CONV firing (R233, R444): `onu` of an anchored entry by 512 × Span + index, with the burst that the sample belongs to. -/
def convFire (k conv : Nat) (onu : Option (Nat × Nat)) (t : Nat) (s : State) : State :=
  modBus k (fun b => { b with strobes := b.strobes ++ [⟨conv, onu, t / 1000⟩] }) (strobe k (deviceOf conv) s)

/-- The due firing of a CONV entry (R229, R233): an anchored one fires only while its ONU is ACTIVE. -/
def convTurn (n : Nat) (s : State) : State :=
  match dueFiring s n 1 with
  | none => s
  | some (e, g) =>
    let k := fld (pw e.words 1) 2 0
    let anchored := bit (pw e.words 0) 27
    let burst := if anchored then (keyAnchor s e e.done).map fun a => (a.onu, a.burst) else none
    if anchored && !keyActive s e then passBy n e g s
    else if !domOn s (domLb k) then keyDropped n 1 e g s
    else fire n e g (convFire k (fld (pw e.words 1) 11 4) burst) s

/-- KEYSTONE_CONV_FIRE (R229, R230). -/
def keyConv (n : Nat) (s : State) : State := inTurn n 1 convTurn s

/-- CONV_TIME after a strobe: the samples of a device are read (R444). -/
def rssiConvEnd (k dev : Nat) (s : State) : State :=
  let b := loopBus s k
  let mine := b.strobes.filter fun x => deviceOf x.conv = dev
  let s := setBus k { b with strobes := b.strobes.filter fun x => deviceOf x.conv ≠ dev } s
  forEach mine (fun x s => askFrame k ⟨1, false, x.conv, 0, 0, none, false, false, some (match x.onu with | some (o, b) => (o + 1, x.time, b) | none => (0, x.time, 0)), none⟩ s) s

/-- An ONU's sample and the outcome of its burst have met (R444). -/
def rssiStore (o : Nat) (ok : Bool) (v t : Nat) (s : State) : State :=
  let x := kgetD s.opt.rssi o {}
  cnt (cOnu 27 (o / 512) (o % 512)) 1 { s with opt := { s.opt with rssi := kset s.opt.rssi o (if ok then { x with ok := v, okTime := t } else { x with miss := v }) } }

/-- The bursts of an ONU that a record still speaks of: the last 64 outcomes and as many samples (R444; assumption 167). -/
def lastBursts {α : Type} (l : List α) : List α := l.drop (l.length - 64)

/-- A burst of an ONU has its outcome; its samples that wait are stored under it. -/
def rssiOutcome (sp o burst : Nat) (ok : Bool) (s : State) : State :=
  let x := rssiOf s sp o
  let s := setRssi sp o { x with outcomes := lastBursts (x.outcomes ++ [(burst, ok)]), waiting := x.waiting.filter (·.1 ≠ burst) } s
  forEach (x.waiting.filter (·.1 = burst)) (fun w s => rssiStore (512 * sp + o) ok w.2.1 w.2.2 s) s

/-- The result of an RSSI read (R444): an anchored sample is stored under its own burst's outcome, now or once that is known. -/
def rssiRead (k conv onu time burst value : Nat) (s : State) : State :=
  let s := modBus k (fun b => { b with samples := kset b.samples conv (value, time) }) s
  if onu = 0 then s
  else
    let x := kgetD s.opt.rssi (onu - 1) {}
    match x.outcomes.find? (·.1 = burst) with
    | some e => rssiStore (onu - 1) e.2 value time s
    | none => { s with opt := { s.opt with rssi := kset s.opt.rssi (onu - 1) { x with waiting := lastBursts (x.waiting ++ [(burst, value, time)]) } } }

/-! ### Loops run and stop (R432, R439) -/

/-- A loop starts with I = 0 and u_prev = OFF_CODE. -/
def Loop.start (l : Loop) : Loop :=
  let c := l.newCfg.getD l.cfg
  if !c.enable then l
  else { l with cfg := c, newCfg := none, running := true, busy := false, awaited := 0, xRead := none, tRead := none, u := c.off, i := 0,
                settled := false, inRun := 0, outRun := 0, rangeRun := 0, satRun := 0, eolRun := 0, fault := 0, holdLeft := 0, preset := false }

/-- A loop stops; settings that waited for its next cycle are its settings. -/
def Loop.stop (l : Loop) : Loop := { l with cfg := l.newCfg.getD l.cfg, newCfg := none, running := false, busy := false, awaited := 0, settled := false, holdLeft := 0 }

/-- Settings that waited for a loop's next cycle are taken up: their loop is held no longer (R40, R434). -/
def freeLoop (k n : Nat) (s : State) : State := if (loopOf s k n).newCfg.isSome then releaseObj ⟨.loop, 64 * k + n⟩ s else s

/-- Starts a Pier's loop. -/
def startLoop (kind sp p : Nat) (s : State) : State := modPierLoop kind sp p Loop.start (freeLoop (busOf sp) (loopNo kind sp p) s)

/-- Stops a Pier's loop: the frames of its cycle that wait go with it. -/
def stopLoop (kind sp p : Nat) (s : State) : State :=
  modBus (busOf sp) (fun b => { b with waiting := b.waiting.filter fun f => f.loop ≠ some (loopNo kind sp p) })
    (modPierLoop kind sp p Loop.stop (freeLoop (busOf sp) (loopNo kind sp p) s))

/-- Stops a loop, and writes OFF_CODE to its driver if it is enabled: by the settings in force, not by those that waited for a cycle which
never comes (R434, R437). -/
def shutLoop (rank kind sp p : Nat) (s : State) : State :=
  let c := (pierLoop s kind sp p).cfg
  let s := stopLoop kind sp p s
  if c.enable then writeOut (busOf sp) rank (loopNo kind sp p) false c.off s else s

/-- Whether a loop of a LIT Pier, if it runs, is settled (R440). -/
def runsFine (s : State) (kind sp p : Nat) : Bool := let l := pierLoop s kind sp p; !l.running || l.settled

/-- Whether the loop is left out or settled (R439, R440). -/
def loopFine (s : State) (kind sp p : Nat) : Bool := let l := pierLoop s kind sp p; !l.cfg.enable || (l.running && l.settled)

/-- STBY_BIAS, none while it is unknown (R440). -/
def stbyBias (x : Optic) : Option Nat := x.stby <|> (if x.asked ≠ 0 then some x.asked else x.lastBias)

/-- Whether a Pier is SETTLED (R440). -/
def settledNow (s : State) (sp p : Nat) : Bool :=
  let x := opticOf s sp p
  !x.apdFault && match x.st with
    | .lit => runsFine s 0 sp p && runsFine s 1 sp p && runsFine s 2 sp p
    | .standby => loopFine s 0 sp p && loopFine s 2 sp p && (stbyBias x).isSome
    | _ => false

/-- The code of an optics state (R449). -/
def OptSt.code : OptSt → Nat
  | .off => 0 | .warming => 1 | .lit => 2 | .standby => 3 | .stopping => 4 | .fault => 5

/-- A transmitter fault ends as the Pier is SETTLED again (R438). -/
def tfClear (sp p : Nat) (s : State) : State :=
  if !(pierOf s sp p).tf then s
  else
    let s := spanEvt sp 4 none p 0 (modPier sp p (fun x => { x with tf := false }) s)
    if (pierOf s sp p).protMask.testBit 2 && (spanOf s sp).paired && (spanOf s sp).standby then spanEvt sp 7 none p 4 s else s

/-- Takes note of a Pier that enters or leaves SETTLED (R438, R440, R446). -/
def judgeSettled (sp p : Nat) (s : State) : State :=
  let x := opticOf s sp p
  let now := settledNow s sp p
  if now = x.settled then s
  else
    let s := setOptic sp p { x with settled := now } s
    let s := raise (840 + busOf sp) [] [put (jOf sp p) 16 ||| put x.st.code 8 ||| putb now 0] s
    if now then tfClear sp p s else s

/-- The laser's light is let on, unless a thermal trip keeps it off (R131). -/
def lightOn (sp p : Nat) (s : State) : State := modOptic sp p (fun x => { x with txdis := s.pwr.tripped }) s

/-- A warming Pier whose thermal loop has settled goes on to LIT or STANDBY (R439). -/
def opticAdvance (sp p : Nat) (s : State) : State :=
  let x := opticOf s sp p
  let s :=
    if x.st ≠ .warming || !loopFine s 0 sp p then s
    else if (spanOf s sp).paired && (spanOf s sp).standby then
      let s := setOptic sp p { x with st := .standby } s
      match stbyBias x with
      | some b =>
        let c := (pierLoop s 1 sp p).cfg
        if c.enable then writeOut (busOf sp) 2 (loopNo 1 sp p) false (outCode c b) s else s
      | none => s
    else lightOn sp p (startLoop 1 sp p (setOptic sp p { x with st := .lit } s))
  judgeSettled sp p s

/-- A Pier starts to warm: thermal and APD loops run (R439). -/
def opticWarm (sp p stby : Nat) (s : State) : State :=
  let s := modOptic sp p (fun x => { x with st := .warming, asked := stby, stby := none, startPending := none, apdFault := false, causes := [0, 0, 0] }) s
  let s := modPierLoop 1 sp p (fun l => { l with cfg := l.newCfg.getD l.cfg, newCfg := none, u := (l.newCfg.getD l.cfg).off }) (freeLoop (busOf sp) (loopNo 1 sp p) s)
  opticAdvance sp p (startLoop 2 sp p (startLoop 0 sp p s))

/-- The end of STOPPING: every output at OFF_CODE, light off, the calls answered, a pending start run (R439, R441). -/
def opticStopped (sp p : Nat) (s : State) : State :=
  let x := opticOf s sp p
  let s := setOptic sp p { x with st := .off, txdis := true, stopRefs := [], startPending := none } s
  let s := judgeSettled sp p (shutLoop 2 2 sp p (shutLoop 2 1 sp p (shutLoop 2 0 sp p s)))
  let s := forEach x.stopRefs (fun r s => answer r .done [] s) s
  match x.startPending with
  | some b => opticWarm sp p b s
  | none => s

/-- STOPPING begins, with PIER_TXDISq Low; it ends at once where the bias output is at OFF_CODE already (R439). -/
def opticStopping (sp p : Nat) (s : State) : State :=
  let s := judgeSettled sp p (modOptic sp p (fun x => { x with st := .stopping }) s)
  let l := pierLoop s 1 sp p
  if !l.cfg.enable || l.u = l.cfg.off then opticStopped sp p s else lightOn sp p s

/-- Every optic of a Pier is forced dark and OFF: a thermal trip, or a bus that loses its power (R121, R437). -/
def opticDark (sp p : Nat) (s : State) : State :=
  let x := opticOf s sp p
  if x.st = .off then s
  else
    let s := setOptic sp p { x with st := .off, txdis := true, stopRefs := [], startPending := none, hold := false } s
    let s := judgeSettled sp p (stopLoop 2 sp p (stopLoop 1 sp p (stopLoop 0 sp p s)))
    forEach x.stopRefs (fun r s => answer r .done [] s) s

/-- A loop bus loses its power. -/
def busPowerOff (k : Nat) (s : State) : State :=
  let s := forEach (List.range 4) (fun i s => forEach (List.range 3) (fun p s => opticDark (4 * k + i) p s) s) s
  modBus k (fun b => { b with
    frame := none, waiting := [], strobes := [], order := [], samples := [], overrunTold := false, pend := [], loops := kmap b.loops fun _ l => { cfg := l.newCfg.getD l.cfg } }) s

/-! ### The hold of a switch-over (R443) -/

/-- The bias last written to a Pier's driver, the write in progress, which completes, among them (R429, R443): before any, OFF_CODE. -/
def lastBiasOut (s : State) (sp p : Nat) : Nat :=
  let n := loopNo 1 sp p
  let l := pierLoop s 1 sp p
  match (loopBus s (busOf sp)).frame with
  | some f => if f.out = some n then f.data else unsgn 16 (l.written.getD l.cfg.off)
  | none => unsgn 16 (l.written.getD l.cfg.off)

/-- The old active device goes dark at the trigger. -/
def opticMute (sp p : Nat) (s : State) : State :=
  let x := opticOf s sp p
  let s :=
    if x.st = .lit then
      stopLoop 1 sp p (setOptic sp p { x with st := .standby, stby := some (lastBiasOut s sp p), txdis := true, hold := true } s)
    else setOptic sp p { x with txdis := true, hold := true } s
  judgeSettled sp p s

/-- The new active device holds its outputs until its first frame. -/
def opticHold (sp p : Nat) (s : State) : State := modOptic sp p (fun x => { x with hold := true }) s

/-- The new active device lets its light on, 20 µs before its first frame. -/
def opticRelight (sp p : Nat) (s : State) : State :=
  let x := opticOf s sp p
  if x.st ≠ .standby then s
  else
    let s := lightOn sp p (setOptic sp p { x with st := .lit } s)
    let hold := (loopBus s (busOf sp)).holdCycles
    judgeSettled sp p (modPierLoop 1 sp p (fun l => match stbyBias x with
      | some b => { l.start with u := outCode l.cfg b, holdLeft := hold, preset := true }
      | none => l.start) (freeLoop (busOf sp) (loopNo 1 sp p) s))

/-- Writing resumes at the first frame. -/
def opticResume (sp p : Nat) (s : State) : State := modOptic sp p (fun x => { x with hold := false }) s

/-- Acts on the three Piers of a Span. -/
def threePiers (f : Nat → State → State) (s : State) : State := forEach (List.range 3) f s

/-! ### Calls of family 0x0B (R448, R449) -/

/-- Whether every Pier on a bus has its optics OFF. -/
def busOff (s : State) (k : Nat) : Bool := (List.range 4).all fun i => (List.range 3).all fun p => (opticOf s (4 * k + i) p).st = .off

/-- `LOOPB_CONFIG`. -/
def loopbConfig : TxnCall where
  spec := { code := 0x0B01, who := .slice0, lens := [7], used := [0xFFFFFFFF, 0x7, 0x00FF0F7F, 0xFFFFFFFF, 0xFFF, 0xFFFFFFFF, 0xFFFFFFFF] }
  objs _ i := do
    let d := fld (pw i.words 2) 6 0
    need (d % 2 = 0 && 8 ≤ d && d ≤ 64 && (List.range 4).all fun n => 1 ≤ fld (pw i.words 3) (8 * n + 7) (8 * n)) .badArg
    return [⟨.loopBus, fld (pw i.words 1) 2 0⟩]
  apply i s := do
    let k := fld (pw i.words 1) 2 0
    let b := loopBus s k
    let div := fld (pw i.words 2) 6 0
    let lat := fld (pw i.words 2) 11 8
    let conv := (List.range 4).map fun n => fld (pw i.words 3) (8 * n + 7) (8 * n)
    need ((div = b.div && lat = b.readLat && conv = b.convTime) || busOff s k) .badState
    let tec := [fld (pw i.words 5) 15 0, fld (pw i.words 5) 31 16, fld (pw i.words 6) 15 0, fld (pw i.words 6) 31 16]
    return setBus k { b with div := div, readLat := lat, convTime := conv, holdCycles := fld (pw i.words 2) 23 16, alertMask := fld (pw i.words 4) 11 0, tec := tec } s

/-- The settings that a `LOOP_SET` gives. -/
def loopCfgOf (ws : List Word) : LoopCfg :=
  let w := pw ws 2
  let c : LoopCfg := { enable := bit w 31, invert := bit w 30, signed := bit w 29, inConv := fld w 21 16, outConv := fld w 13 8, auxConv := fld w 5 0 }
  { c with setpoint := fld (pw ws 3) 31 16, offCode := fld (pw ws 3) 15 0, kp := sgn 24 (fld (pw ws 4) 23 0), ki := sgn 24 (fld (pw ws 5) 23 0),
           outMin := outCode c (fld (pw ws 6) 31 16), outMax := outCode c (fld (pw ws 6) 15 0),
           outBias := outCode c (fld (pw ws 7) 31 16), slew := fld (pw ws 7) 15 0, inMin := fld (pw ws 8) 31 16, inMax := fld (pw ws 8) 15 0,
           settleCycles := fld (pw ws 9) 31 16, settleTol := fld (pw ws 9) 15 0, satCycles := fld (pw ws 10) 31 16, limit := fld (pw ws 10) 15 0,
           apdV0 := fld (pw ws 11) 31 16, apdT0 := fld (pw ws 11) 15 0, apdTc := sgn 24 (fld (pw ws 12) 23 0), outReg := fld (pw ws 13) 7 0 }

/-- Whether a state of the optics runs the loops of a kind (R439). -/
def runsIn (st : OptSt) (kind : Nat) : Bool := st = .lit || ((st = .warming || st = .standby) && kind ≠ 1)

/-- `LOOP_SET` (R434): settings of a running loop hold it until its next cycle. One that they enable in a state which runs its kind starts;
one that they disable is left out, so that it delays neither WARMING nor STOPPING (R439). -/
def loopSet : TxnCall where
  spec := { code := 0x0B02, who := .slice0, lens := [14],
            used := [0xFFFFFFFF, 0x7003F, 0xE03F3F3F, 0xFFFFFFFF, 0xFFFFFF, 0xFFFFFF, 0xFFFFFFFF, 0xFFFFFFFF, 0xFFFFFFFF, 0xFFFFFFFF, 0xFFFFFFFF, 0xFFFFFFFF, 0xFFFFFF, 0xFF] }
  objs _ i := do
    let c := loopCfgOf i.words
    need (fld (pw i.words 1) 5 0 ≤ 35 && c.outMin ≤ c.outMax && 1 ≤ c.slew && 1 ≤ c.settleCycles && 1 ≤ c.satCycles) .badArg
    return [⟨.loop, 64 * fld (pw i.words 1) 18 16 + fld (pw i.words 1) 5 0⟩]
  apply i s := do
    let k := fld (pw i.words 1) 18 16
    let n := fld (pw i.words 1) 5 0
    let c := loopCfgOf i.words
    let l := loopOf s k n
    let old := l.newCfg.getD l.cfg
    let same := c.inConv = old.inConv && c.outConv = old.outConv && c.auxConv = old.auxConv && c.outReg = old.outReg && c.signed = old.signed
    let st := (opticOf s (spanOfLoop k n) (pierOfLoop n)).st
    need (same || st = .off) .badState
    if l.running then return addLater ⟨.loop, 64 * k + n⟩ (setLoop k n { l with newCfg := some c } s)
    else
      let l : Loop := { l with cfg := c, newCfg := none }
      let s := setLoop k n (if runsIn st (n / 12) then l.start else l) s
      return if n / 12 = 1 && st = .stopping && !c.enable then opticStopped (spanOfLoop k n) (pierOfLoop n) s
        else if st = .off then s else opticAdvance (spanOfLoop k n) (pierOfLoop n) s

/-- `LOOP_READ`. -/
def loopRead (ws : List Word) (s : State) : Res (List Word) := do
  let w := pw ws 0
  need (fld w 5 0 ≤ 35) .badArg
  let l := loopOf s (fld w 18 16) (fld w 5 0)
  return [put l.x 16 ||| wd (unsgn 16 l.u), wd (unsgn 32 l.i), putb l.settled 31 ||| put l.fault 16 ||| wd (unsgn 16 l.e)]

/-- `OPTICS_START` (R439, R441): its status. -/
def opticsStart (ws : List Word) (s : State) : State × Status :=
  let (sp, p) := pierName (pw ws 0)
  let b := fld (pw ws 1) 15 0
  let x := opticOf s sp p
  if 2 < p then (s, .badArg)
  else match x.st with
    | .off => (opticWarm sp p b s, .done)
    | .stopping => (if x.startPending.isSome then s else setOptic sp p { x with startPending := some b } s, .pending)
    | _ => (s, .badState)

/-- `OPTICS_STOP`, which answers when the Pier reaches OFF (R441). -/
def opticsStop (code : Nat) (c : Call) (s : State) : State :=
  let (sp, p) := pierName (pw c.words 0)
  let x := opticOf s sp p
  let open_ := (spanOf s sp).st = .opened || (spanOf s sp).st = .opening
  if 2 < p then respond code c .badArg [] s
  else if open_ then respond code c .badState [] s
  else match x.st with
    | .off => respond code c .done [] s
    | .fault => respond code c .badState [] s
    | _ =>
      let r := refFor code c s
      let s := modOptic sp p (fun x => { x with stopRefs := x.stopRefs ++ [r], startPending := none }) (defer_ r s)
      if x.st = .stopping then s else opticStopping sp p s

/-- `OPTICS_STATUS`. -/
def opticsStatus (ws : List Word) (s : State) : Res (List Word) := do
  let (sp, p) := pierName (pw ws 0)
  need (p ≤ 2) .badArg
  let x := opticOf s sp p
  return [putb x.settled 31 ||| put x.st.code 16 ||| put (x.causes.getD 2 0) 8 ||| put (x.causes.getD 1 0) 4 ||| wd (x.causes.getD 0 0), wd ((stbyBias x).getD 0)]

/-- `OPTICS_FAULT_CLEAR` (R438): in OFF every output is at OFF_CODE, the APD loop's too (R439). -/
def opticsFaultClear (ws : List Word) (s : State) : Res (State × List Word) := do
  let (sp, p) := pierName (pw ws 0)
  need (p ≤ 2) .badArg
  need ((opticOf s sp p).st = .fault) .badState
  return (shutLoop 2 2 sp p (modOptic sp p (fun x => { x with st := .off }) s), [])

/-- `RSSI_READ`. -/
def rssiReadCall (ch : Nat) (ws : List Word) (s : State) : Res (List Word) := do
  let (sp, o) := onuName (pw ws 0)
  needOnu s ch (pw ws 0)
  let x := rssiOf s sp o
  return (put x.miss 16 ||| wd x.ok) :: toWords 2 x.okTime

/-- `CONV_READ`. -/
def convRead (ws : List Word) (s : State) : List Word :=
  let w := pw ws 0
  let (v, t) := kgetD (loopBus s (fld w 18 16)).samples (fld w 5 0) (0, 0)
  wd v :: toWords 2 t

end Sys2Proof.Machine
end

