-- ==== Sys2Proof/Machine/Switch.lean ====
section
/-! DEFINITION. The first part of a switch-over, which a Pier's defects can start: what the old active device does at the
detection instant, and the Lanyard frames a worker sends (R159, R515 to R518, R525, R526). -/

namespace Sys2Proof.Machine

/-- The queues of a Span's Piers: queue, Pier, packets. -/
def spanQueues (s : State) (sp : Nat) : List (Nat × Nat × Nat) :=
  s.fwd.queues.filterMap fun e => match pierOfQueue s e.1 e.2 with
    | some (v, p) => if v = sp then some (e.1, p, e.2.pkts.length) else none
    | none => none

/-- Every packet queued for a Span's Piers is dropped with cause 3 CLOSED (R164, R518); `close` also counts it as a close drop. -/
def dropSpan (sp : Nat) (close : Bool) (s : State) : State :=
  let s := forEach (spanQueues s sp) (fun e s => dropAll 3 e.2.2 e.1 (if close then cnt (cPier 7 sp e.2.1) e.2.2 s else s)) s
  forEach (List.range 3) (fun p s => setSched sp p { schedOf s sp p with rest := [] } s) s

/-! ### What a standby Pier's measurements give (R204, R205) -/

/-- A rational list in rising order. -/
def insertRat (x : Rat) (l : List Rat) : List Rat :=
  match l with
  | [] => [x]
  | y :: t => if x ≤ y then x :: y :: t else y :: insertRat x t

/-- The measured ONUs of a standby Pier (R203). -/
def measured (s : State) (sp p : Nat) : List Nat := (onusIn s sp p [.registering, .active]).filter fun o => 8 ≤ (onuOf s sp o).deltaCount

/-- δ_c (R204). -/
def deltaC (s : State) (sp p : Nat) : Option Rat :=
  let m := ((measured s sp p).map fun o => (onuOf s sp o).delta).foldl (fun a x => insertRat x a) []
  m[(m.length - 1) / 2]?

/-- Whether a measured ONU is an outlier (R204). -/
def outlier (s : State) (sp p o : Nat) : Bool :=
  match deltaC s sp p with
  | some c => (measured s sp p).contains o && (((pierOf s sp p).unifTol : Nat) : Rat) < |(onuOf s sp o).delta - c|
  | none => false

/-- Δ_RT from a delta (R204). -/
def deltaRt (x : Pier) (d : Rat) : Rat :=
  let tx : Rat := (x.tTx : Nat) - (x.mirTx : Nat)
  let rx : Rat := (x.tRx : Nat) - (x.mirRx : Nat)
  tx + rx + (d - rx) * ((x.nDown + x.nUp : Nat) : Rat) / ((x.nUp : Nat) : Rat)

/-- ΔEqD from a delta, rounded as EqD is (R192, R204). -/
def deltaEqd (p : Nat) (x : Pier) (d : Rat) : Int := roundUpHalf (deltaRt x d / eqdUnit p)

/-- The delta by which an ONU is adjusted: its own for an outlier, else the Pier's (R205). -/
def ownDelta (s : State) (sp p o : Nat) (common : Rat) : Rat := if outlier s sp p o then (onuOf s sp o).delta else common

/-- Whether a standby Pier is READY (R205). -/
def readyNow (s : State) (sp p : Nat) : Bool :=
  match deltaC s sp p with
  | none => false
  | some c =>
    let x := pierOf s sp p
    let m := measured s sp p
    let out := (m.filter (outlier s sp p)).length
    100 * out ≤ x.outlierMax * m.length &&
      (onusIn s sp p [.active]).all fun o => 0 ≤ ((onuOf s sp o).eqd : Int) - deltaEqd p x (ownDelta s sp p o c)

/-- Takes note of a READY change (R205, R530). -/
def judgeReady (sp p : Nat) (s : State) : State :=
  let now := (spanOf s sp).paired && (spanOf s sp).standby && readyNow s sp p
  if now = (pierOf s sp p).ready then s
  else raise 869 [] [putb now 31 ||| wd (256 * sp + p)] (modPier sp p (fun x => { x with ready := now }) s)

/-! ### The release of Spans (R515 to R518) -/

/-- A Span's grants, transmitters and downstream messages stop: it is STANDBY, and READY of its Piers is judged (R205, R517). -/
def muteSpan (sp : Nat) (s : State) : State :=
  let s := modSpan sp (fun x => { x with standby := true, granting := false, windows := [], truss := { x.truss with running := false } }) s
  let s := threePiers (fun p s =>
    opticMute sp p (if (pierOf s sp p).enable then modPier sp p (fun x => { x with txOn := false, next := none, staging := {}, ploam := [] }) s else s)) s
  let s := forEach (onusOf s sp) (fun o s => if (onuOf s sp o).corr.isSome then modOnu sp o (fun x => { x with corr := none }) s else s) s
  threePiers (judgeReady sp) (dropSpan sp false s)

/-- Whether a switch-over of a Span is under way, from its trigger on: a mate loss that is being confirmed is one (R516, R517). -/
def switching (s : State) (sp : Nat) : Bool := (s.red.pair.runs.any fun r => r.span = sp) || s.red.pair.confirming.contains sp

/-- A trigger that is absorbed (R516). -/
def absorb (sp : Nat) (s : State) : State := cnt (cSpan 17 sp) 1 s

/-- A switch request or end of snapshot goes out ahead of every queued record (R510). -/
def controlOut (flags row : Nat) (spans : List Nat) (s : State) : State :=
  recordOut 8 0xFF [flags, (maskOf spans).toNat, row, nowNs s] s

/-- A switch-over starts for a Span (R515, R516). -/
def addRun (sp row : Nat) (taking : Bool) (t1 : Option Nat) (s : State) : State :=
  setPair { s.red.pair with runs := s.red.pair.runs ++ [⟨sp, row, taking, t1⟩] } s

/-- The started and the refused event (R530). -/
def startedEvt (row : Nat) (spans : List Nat) (s : State) : State := if spans = [] then s else raise 866 [] [wd row, maskOf spans] s
def refusedEvt (why : Nat) (spans : List Nat) (s : State) : State := if spans = [] then s else raise 867 [] [wd why, maskOf spans] s

/-- The active device releases Spans at the detection instant: it mutes them, and asks the mate to take them over unless the mate
asked (R515, R517). A release that no heartbeat of the mate has answered four frames later was refused there (R130; assumption 142). -/
def release (row : Nat) (force tell : Bool) (spans : List Nat) (s : State) : State :=
  let mine := spans.filter (activeHere s)
  let s := forEach (mine.filter (switching s)) absorb s
  let go := mine.filter fun sp => !switching s sp
  if go = [] then s
  else
    let s := startedEvt row go s
    let s := forEach go (fun sp s => addRun sp row false (some (frameNo s + 4)) (muteSpan sp s)) s
    if tell then controlOut (1 + if force then 4 else 0) row go s else s

/-- A request that this device's view of the pair refuses is refused here, with its reason: 2 no mate, 0 not synchronised (R515;
assumption 31). -/
def releaseSynced (row : Nat) (spans : List Nat) (s : State) : State :=
  let p := s.red.pair
  let mine := spans.filter (activeHere s)
  if p.st ≠ .paired then refusedEvt (if p.st = .bulk || p.st = .keying then 0 else 2) mine s
  else refusedEvt 0 (mine.filter fun sp => !p.sync.contains sp) (release row false true (mine.filter p.sync.contains) s)

/-- A Pier defect of R158 declares: the protection trigger, or on a standby Span the standby-path fault (R159, R160). -/
def protection (sp p d : Nat) (declared : Bool) (s : State) : State :=
  let v := spanOf s sp
  let x := pierOf s sp p
  if !x.protMask.testBit d then s
  else if v.paired && v.standby then spanEvt sp 7 none p ((if declared then 256 else 0) + 2 ^ d) s
  else if declared && activeHere s sp && x.auto && onusIn s sp p [.active] ≠ [] then releaseSynced 0 [sp] (spanEvt sp 15 none p (2 ^ d) s)
  else s

/-- A Pier defect declares or clears: 0 LOS, 1 TX-LOL, 2 TF, 3 ROGUE (R158, R160). -/
def pierDefect (sp p d : Nat) (on : Bool) (s : State) : State :=
  let s := spanEvt sp (match d with | 0 => p | 1 => 3 | 2 => 4 | _ => 11) none p (if on then 1 else 0) s
  if d = 3 then s else protection sp p d on s

/-! ### Lanyard frames (R525, R526) -/

/-- Whether the device takes part in the shelf: its strap role 1 worker or 2 manager (R110, R525). -/
def lanRole (s : State) : Nat := s.boot.strapRole

/-- This device's worker number: 0 on the manager. -/
def lanWorker (s : State) : Nat := if s.boot.strapRole = 2 then 0 else s.red.lan.worker

/-- The port on which the device last received a peer's HELLO. -/
def peerPort (s : State) (peer : Nat) : Option Nat := (kget s.red.lan.peers peer).map (·.port)

/-- DEVICE_TAG (R505). -/
def deviceTag : Nat := beNat ((sha384 (Config.leafOf Config.certChain)).take 8)

/-- The bytes of a Lanyard frame before any protection: addresses, VLAN tag with PCP 7, EtherType, the 20-byte header and the payload (R525;
assumption 146). -/
def lanyardFrame (s : State) (dest type fseq : Nat) (body : List Byte) : List Byte :=
  let l := s.red.lan
  toBe 6 l.mac ++ toBe 1 0x02 ++ toBe 5 (deviceTag / 2 ^ 24) ++ toBe 2 0x8100 ++ toBe 2 (7 * 2 ^ 13 + l.vid) ++ toBe 2 0x88B5 ++
    toBe 1 0x01 ++ toBe 1 type ++ toBe 1 (lanWorker s) ++ toBe 1 dest ++ toBe 4 l.shelf.toNat ++ toBe 8 deviceTag ++ toBe 2 fseq ++
    toBe 2 body.length ++ body

/-- A Lanyard frame goes out on ports under the next FSEQ of its type; a port whose link is down sends none, and MACsec protects it like
any other frame (R461, R525). -/
def lanyardOn (ports : List Nat) (dest type : Nat) (data : List Nat) (s : State) : State :=
  let n := kgetD s.red.lan.txSeq type 0
  let s := setLan { s.red.lan with txSeq := kset s.red.lan.txSeq type ((n + 1) % 65536) } s
  forEach ports (fun port s =>
    if !(portOf s port).link || portLoop s port = 3 then s
    else match macTx port (lanyardFrame s dest type n (Config.lanyardBody type data)) s with
      | (s, some g) => cnt (cDev 16) 1 (emit (.lanyard port dest type (n :: data) g) s)
      | (s, none) => s) s

/-- A Lanyard frame to a peer, on the port where it was last heard if that is enabled still (R525). -/
def lanyardTo (peer type : Nat) (data : List Nat) (s : State) : State :=
  match peerPort s peer with
  | some port => if s.red.lan.ports.testBit port then lanyardOn [port] peer type data s else s
  | none => s

/-- Whether a worker's manager is present (R527). -/
def managerHere (s : State) : Bool := match kget s.red.lan.peers 0 with | some p => p.present | none => false

end Sys2Proof.Machine
end

