-- ==== Sys2Proof/Machine/Loops.lean ====
section
/-! DEFINITION. The cycles of the optics loops: firing, reads, the PI law, settling, faults and the frames that carry them (R429 to
R437, R440, R443). -/

namespace Sys2Proof.Machine

/-- A loop takes up waiting settings at a cycle (R434). -/
def Loop.adopt (l : Loop) : Loop :=
  match l.newCfg with
  | none => l
  | some c =>
    let again := c.setpoint ≠ l.cfg.setpoint || c.settleTol ≠ l.cfg.settleTol || c.settleCycles ≠ l.cfg.settleCycles
    { l with
      cfg := c, newCfg := none, i := clampI ((c.outMin - c.outBias) * 65536) ((c.outMax - c.outBias) * 65536) l.i,
      inRun := if again then 0 else l.inRun, outRun := if again then 0 else l.outRun }

/-- Whether a firing starts a cycle: of a running loop, or of the bias loop that falls to OFF_CODE (R430, R439). -/
def cycles (s : State) (k n : Nat) : Bool :=
  let l := loopOf s k n
  l.running || (n / 12 = 1 && l.cfg.enable && (opticOf s (spanOfLoop k n) (pierOfLoop n)).st = .stopping)

/-- A cycle joins those to be computed: in firing order, those of one tick by ascending loop number (R430). -/
def insertCycle (c : Nat × Nat) (l : List (Nat × Nat)) : List (Nat × Nat) :=
  match l with
  | [] => [c]
  | d :: t => if c.1 < d.1 || (c.1 = d.1 && c.2 < d.2) then c :: d :: t else d :: insertCycle c t

/-- A cycle of a loop fires at an instant in ps (R430, R431); a loop that new settings disable is left out from there on (R439). -/
def loopFire (k n t : Nat) (s : State) : State :=
  let l := loopOf s k n
  if !cycles s k n then s
  else if l.busy then
    let s := cnt (cLoop 1 k n) 1 s
    if (loopBus s k).overrunTold then s else raise (848 + k) [] [0] (modBus k (fun b => { b with overrunTold := true }) s)
  else
    let s := freeLoop k n s
    let l := l.adopt
    if !l.cfg.enable then
      let s := setLoop k n l.stop s
      if n / 12 = 1 && (opticOf s (spanOfLoop k n) (pierOfLoop n)).st = .stopping then opticStopped (spanOfLoop k n) (pierOfLoop n) s
      else opticAdvance (spanOfLoop k n) (pierOfLoop n) s
    else
      let s := setLoop k n { l with busy := true, awaited := 1, xRead := none, tRead := none } s
      let s := modBus k (fun b => { b with order := insertCycle (tickOf t, n) (b.order.filter (·.2 ≠ n)) }) s
      let devs := if n / 12 = 2 then [deviceOf l.cfg.inConv, deviceOf l.cfg.auxConv] else [deviceOf l.cfg.inConv]
      forEach devs.eraseDups (strobe k) s

/-- The due firing of a LOOP entry (R229, R430). -/
def loopTurn (n : Nat) (s : State) : State :=
  match dueFiring s n 2 with
  | none => s
  | some (e, g) =>
    let k := fld (pw e.words 1) 2 0
    if !domOn s (domLb k) then keyDropped n 1 e g s
    else fire n e g (loopFire k (fld (pw e.words 1) 11 4)) s

/-- KEYSTONE_LOOP_FIRE (R229, R230). -/
def keyLoop (n : Nat) (s : State) : State := inTurn n 2 loopTurn s

/-- LOOP_CONV_TIME_END: the reads of a cycle are asked for (R430). -/
def loopConvEnd (k n : Nat) (s : State) : State :=
  let l := loopOf s k n
  if !l.busy || l.awaited = 0 then s
  else
    let s := setLoop k n { l with awaited := 0 } s
    let s := askFrame k ⟨2, false, l.cfg.inConv, 0, 0, some n, false, false, none, none⟩ s
    if n / 12 = 2 then askFrame k ⟨2, false, l.cfg.auxConv, 0, 0, some n, true, false, none, none⟩ s else s

/-! ### The PI law (R432, R433) -/

/-- An output after its clips, whether one lowered it, whether one raised it. -/
structure Clipped where
  u : Int
  low : Bool := false
  high : Bool := false

/-- One more clip. -/
def Clipped.clip (c : Clipped) (lo hi : Int) : Clipped :=
  let v := clampI lo hi c.u
  ⟨v, c.low || v < c.u, c.high || c.u < v⟩

/-- The set-point of a cycle. -/
def setpointOf (kind : Nat) (c : LoopCfg) (t : Nat) : Int :=
  if kind = 2 then clampI c.outMin c.limit ((c.apdV0 : Int) + roundAway (((c.apdTc * ((t : Int) - c.apdT0) : Int) : Rat) / 65536)) else c.setpoint

/-- The room that the thermal budget leaves a Pier's loop, none without a budget (R433). -/
def tecRoom (s : State) (sp p : Nat) : Option Int :=
  let b := (loopBus s (busOf sp)).tec.getD (sp % 4) 0
  if b = 0 then none
  else
    let used := (((List.range 3).filter (· ≠ p)).map fun q => let l := pierLoop s 0 sp q; match l.last with | some u => (u - l.cfg.outBias).natAbs | none => 0).sum
    some (max 0 ((b : Int) - used))

/-- What a cycle computes: its output, its integrator, whether a clip changed the output and whether the budget did. -/
structure Computed where
  u : Int
  i : Int
  clipped : Bool
  budget : Bool

/-- The computation of R432. -/
def piLaw (l : Loop) (e : Int) (room : Option Int) : Computed :=
  let c := l.cfg
  let i2 := clampI ((c.outMin - c.outBias) * 65536) ((c.outMax - c.outBias) * 65536) (l.i + c.ki * e)
  let u0 := c.outBias + roundAway (((c.kp * e + i2 : Int) : Rat) / 65536)
  let a := (Clipped.clip ⟨u0, false, false⟩ c.outMin c.outMax).clip (l.u - c.slew) (l.u + c.slew)
  let b := match room with | some r => a.clip (c.outBias - r) (c.outBias + r) | none => a
  let keep := (b.low && 0 < c.ki * e) || (b.high && c.ki * e < 0)
  ⟨b.u, if keep then l.i else i2, b.low || b.high, b.u ≠ a.u⟩

/-! ### Settling and faults (R435 to R437, R440) -/

/-- A cycle's part in settling. -/
def Loop.settle (l : Loop) (clipped : Bool) : Loop :=
  let a := if l.e.natAbs ≤ l.cfg.settleTol && !clipped then min 65535 (l.inRun + 1) else 0
  let b := if 4 * l.cfg.settleTol < l.e.natAbs then min 65535 (l.outRun + 1) else 0
  { l with inRun := a, outRun := b, settled := if l.cfg.settleCycles ≤ a then true else if l.cfg.settleCycles ≤ b then false else l.settled }

/-- The runs that a cycle adds to: x, or t of an APD loop, out of range; an output at a limit; a bias output at LIMIT or above. -/
def Loop.runs (l : Loop) (kind : Nat) (v : Nat) (wrote : Bool) : Loop :=
  let out := v < l.cfg.inMin || l.cfg.inMax < v
  let sat := wrote && (l.u = l.cfg.outMin || l.u = l.cfg.outMax)
  let eol := wrote && kind = 1 && outCode l.cfg l.cfg.limit ≤ l.u
  { l with
    rangeRun := if out then min 2 (l.rangeRun + 1) else 0
    satRun := if sat then min 65535 (l.satRun + 1) else if wrote then 0 else l.satRun
    eolRun := if eol then min 65535 (l.eolRun + 1) else if wrote then 0 else l.eolRun }

/-- The first cause of R435 that a loop declares, 0 none. -/
def Loop.cause (l : Loop) (kind : Nat) : Nat :=
  if 2 ≤ l.rangeRun then 1 else if l.cfg.satCycles ≤ l.satRun then 2 else if kind = 1 && l.cfg.satCycles ≤ l.eolRun then 3 else 0

/-- A transmitter fault: dark, muted, shut off, FAULT (R436, R437). -/
def transmitterFault (sp p : Nat) (s : State) : State :=
  let x := opticOf s sp p
  let s := setOptic sp p { x with st := .fault, txdis := true, stopRefs := [], startPending := none } s
  let s := stopLoop 2 sp p (shutLoop 0 0 sp p (shutLoop 0 1 sp p s))
  let s := judgeSettled sp p s
  let s := if (pierOf s sp p).tf then s else pierDefect sp p 2 true (modPier sp p (fun q => { q with tf := true, txOn := false }) s)
  forEach x.stopRefs (fun r s => answer r .badState [] s) s

/-- A loop declares a fault. -/
def loopFault (k n cause : Nat) (s : State) : State :=
  let sp := spanOfLoop k n
  let p := pierOfLoop n
  let kind := n / 12
  let s := modLoop k n (fun l => { l with fault := cause }) s
  let s := modOptic sp p (fun x => { x with causes := lset x.causes kind cause }) s
  let s := raise (832 + k) [] [put n 24 ||| wd cause] (cnt (cPier 16 sp p) 1 s)
  if kind = 2 then judgeSettled sp p (modOptic sp p (fun x => { x with apdFault := true }) (shutLoop 2 2 sp p s)) else transmitterFault sp p s

/-- LOOPB_ALERT (R435). -/
def busAlert (k : Nat) (s : State) : State :=
  let m := (loopBus s k).alertMask
  let s := raise (856 + k) [] [wd m] s
  forEach ((List.range 12).filter fun j => m.testBit j && (loopOf s k j).running) (fun j s => if (loopOf s k j).running then loopFault k j 4 s else s) s

/-! ### A cycle's computation and its end -/

/-- A cycle ends (R447). -/
def cycleDone (k n : Nat) (s : State) : State := cnt (cLoop 0 k n) 1 (modLoop k n (fun l => { l with busy := false }) s)

/-- The write of a cycle has gone out: the cycle is complete, and STOPPING ends with the bias output at OFF_CODE (R430, R439). -/
def writeDone (k n : Nat) (s : State) : State :=
  let sp := spanOfLoop k n
  let p := pierOfLoop n
  let s := cycleDone k n s
  let l := loopOf s k n
  if n / 12 = 1 && (opticOf s sp p).st = .stopping && l.u = l.cfg.off then opticStopped sp p s else s

/-- A cycle's output goes to its driver. -/
def cycleWrite (k n : Nat) (u : Int) (s : State) : State :=
  let sp := spanOfLoop k n
  let p := pierOfLoop n
  let s := modLoop k n (fun l => { l with u := u }) s
  let s := if n / 12 = 1 && (opticOf s sp p).settled && (opticOf s sp p).st = .lit then modOptic sp p (fun x => { x with lastBias := some (unsgn 16 u) }) s else s
  writeOut k 2 n true u s

/-- A cycle has read its inputs (R432, R439, R443). -/
def loopCompute (k n : Nat) (s : State) : State :=
  let sp := spanOfLoop k n
  let p := pierOfLoop n
  let kind := n / 12
  let o := opticOf s sp p
  let l := loopOf s k n
  let x := l.xRead.getD 0
  let t := l.tRead.getD 0
  let sp0 := setpointOf kind l.cfg t
  let e := if l.cfg.invert then (x : Int) - sp0 else sp0 - x
  let v := if kind = 2 then t else x
  let l := { l with x := x, e := e }
  if kind = 1 && o.st = .stopping then
    let u := clampI (l.u - l.cfg.slew) (l.u + l.cfg.slew) l.cfg.off
    cycleWrite k n u (setLoop k n l s)
  else
    let wait := o.hold || 0 < l.holdLeft
    let l := if l.preset && !wait then { l with i := (l.u - l.cfg.outBias) * 65536, preset := false } else l
    let l := if !o.hold && 0 < l.holdLeft then { l with holdLeft := l.holdLeft - 1 } else l
    let r : Computed := if wait then ⟨l.u, l.i, false, false⟩ else piLaw l e (if kind = 0 then tecRoom s sp p else none)
    let l := ({ l with i := r.i, u := r.u }.settle r.clipped).runs kind v (!wait)
    let s := setLoop k n l s
    let s := if r.clipped then cnt (cLoop 2 k n) 1 s else s
    let s := if r.budget then cnt (cSpan 14 sp) 1 s else s
    if l.cause kind ≠ 0 then cycleDone k n (loopFault k n (l.cause kind) s)
    else opticAdvance sp p (if wait then cycleDone k n s else cycleWrite k n r.u s)

/-- A read of a cycle has its result. -/
def loopRead_ (k n : Nat) (aux : Bool) (v : Nat) (s : State) : State :=
  let l := loopOf s k n
  if !l.busy then s else setLoop k n (if aux then { l with tRead := some v } else { l with xRead := some v }) s

/-- Whether a cycle has read its inputs. -/
def hasRead (n : Nat) (l : Loop) : Bool := l.xRead.isSome && (n / 12 ≠ 2 || l.tRead.isSome)

/-- The cycles of a bus that can be computed are, in firing order; one that has not read its inputs holds those behind it, and one whose
loop has stopped falls away (R430). -/
def computeCycles (k fuel : Nat) (s : State) : State :=
  match fuel, (loopBus s k).order with
  | fuel + 1, c :: t =>
    let l := loopOf s k c.2
    let rest (s : State) : State := modBus k (fun b => { b with order := t }) s
    if !l.busy then computeCycles k fuel (rest s)
    else if hasRead c.2 l then computeCycles k fuel (loopCompute k c.2 (rest s))
    else s
  | _, _ => s

/-- The result of a read reaches what asked for it (R430, R444). -/
def readDone (k : Nat) (f : LFrame) (value : Nat) (s : State) : State :=
  match f.rssi, f.loop with
  | some (onu, time, burst), _ => rssiRead k f.conv onu time burst value s
  | none, some n => loopRead_ k n f.aux value s
  | none, none => s

/-- A write has gone out: its driver holds the output, and the cycle that it ends is complete (R427, R430). -/
def frameWritten (k : Nat) (f : LFrame) (s : State) : State :=
  let s := match f.out with | some n => modLoop k n (fun l => { l with written := some (outCode l.cfg f.data) }) s | none => s
  match f.loop with
  | some n => if (loopOf s k n).busy then writeDone k n s else s
  | none => s

/-- A frame of a device whose READ_LAT is 1: it returns the result of the read before it, whichever channel that read; a read is followed by
a read of the same channel, whose own result nothing asks for (R427). -/
def frameLate (k : Nat) (f : LFrame) (value : Nat) (s : State) : State :=
  let dev := deviceOf f.conv
  let s := match kget (loopBus s k).pend dev with | some g => readDone k g value (modBus k (fun b => { b with pend := kerase b.pend dev }) s) | none => s
  if f.write || f.again then s
  else modBus k (fun b => { b with pend := kset b.pend dev f, waiting := insertFirst { f with again := true } b.waiting }) s

/-- LOOPB_FRAME_DONE (R426, R427, R429): a read returns its result in its own frame or, on a device with READ_LAT 1, in that device's next
frame; a frame that no device answers returns a value the spec leaves open. -/
def frameDone (k : Nat) (ans : Option (BitVec 16)) (s : State) : State :=
  let b := loopBus s k
  match b.frame with
  | none => s
  | some f =>
    let value := match ans with | some a => a.toNat | none => fld (Config.freeWord s.free) 15 0
    let s := if ans.isNone then drawn s else s
    let s := emit (.loopFrame k (deviceOf f.conv) (frameWord f)) (cnt (cBus 0 k) 1 (modBus k (fun b => { b with frame := none }) s))
    let s := if b.readLat.testBit (deviceOf f.conv) then frameLate k f value s else if f.write then s else readDone k f value s
    let s := if f.write then frameWritten k f s else s
    startFrame k (computeCycles k (loopBus s k).order.length s)

end Sys2Proof.Machine
end

