-- ==== Sys2Proof/Machine/Sessions.lean ====
section
/-! DEFINITION. The end of a session (R80), which a call, the loss of the Lanyard manager and a lost binding share. -/

namespace Sys2Proof.Machine

/-- A session closes: its open transactions are rolled back, no response of it leaves any more, its report is dropped, and its routes
send no message (R80, R119, R536); accepted commits stay. -/
def closeSession (ch : Nat) (s : State) : State :=
  let c := chanOf s ch
  let s := setTxns (s.ctl.txns.filter fun t => t.chan ≠ ch || t.phase ≠ .opened) s
  setChan ch { c with session := none, waiting := [], backlog := c.backlog.filter (·.event), report := none, routes := kmap c.routes fun _ r => { r with msgMask := 0 } } s

end Sys2Proof.Machine
end

