-- ==== Sys2Proof/Machine/Spans.lean ====
section
/-! DEFINITION. The Piers' downstream frames and PLOAM messages, activation, ranging and drift (R134 to R143, R170 to R202). -/

namespace Sys2Proof.Machine

/-! ### PLOAM messages (R137, R138) -/

/-- The ONU-ID on the line that names every ONU, and the unassigned one (R151). -/
def allOnus (p : Nat) : Nat := if p = 2 then 255 else 1023

/-- The ONU-ID of an index on the line (R171): its own; an index that holds none goes by its number on the H-pier and X-pier, and on
the G-pier by an ONU-ID that no ONU holds (assumption 35). -/
def idOnLine (s : State) (sp o : Nat) : Nat :=
  let x := onuOf s sp o
  x.onuId.getD (if x.pier = 2 then (let used := (onusOf s sp).filterMap fun o => if (onuOf s sp o).pier = 2 then (onuOf s sp o).onuId else none
    ((List.range 128).find? fun i => !used.contains i).getD 254) else o)

/-- The ONU-ID that a message names; serial number messages name none and go to all. -/
def lineId (s : State) (sp p : Nat) (m : PMsg) : Nat :=
  match m.onu with
  | none => allOnus p
  | some o => if m.kind = .disableSerial || m.kind = .enableSerial then allOnus p else
      (onuOf s sp o).onuId.getD (match m.args with | a :: _ => if m.kind = .deactivate || m.kind = .assignOnuId then a else idOnLine s sp o | [] => idOnLine s sp o)

/-- Queues messages that do not wait already. -/
def queueOnce (sp p : Nat) (ms : List PMsg) (s : State) : State :=
  modPier sp p (fun x => { x with ploam := x.ploam ++ ms.filter fun m => !x.ploam.contains m }) s

/-- Saend queues a message for an ONU. -/
def tell (sp o : Nat) (kind : Ploam) (args : List Nat) (s : State) : State := queuePloam sp (onuOf s sp o).pier ⟨3, some o, kind, args⟩ s

/-- Whether a message calls for a reply (R156; assumption 32). -/
def wantsReply (k : Ploam) : Bool := k = .requestRegistration || k = .assignAllocId || k = .keyControl || k = .requestKey || k = .sleepAllow

/-- The sequence number after another: 1 to 255 (the recommendation's, PRESUMED, assumption 129). -/
def nextSeq (n : Nat) : Nat := if n = 255 then 1 else n + 1

/-- The PLOAM_IK under which an ONU's unicast messages go, both ways: its own, or the default one where it has no MSK (R402). -/
def ploamIk (s : State) (sp o : Nat) : Nat := let k := onuKeys s sp o; if k.msk.isSome then k.ik else defaultIk

/-- The bytes of a downstream message: 48 with ONU-ID, type, sequence number, content and MIC; on the G-pier 13 with ONU-ID, type, data and
CRC-8 (R137, R402; the recommendations' layout, PRESUMED, assumption 5). -/
def ploamBytes (p ik id seq : Nat) (m : PMsg) : List Byte :=
  let body := Config.ploamBody p m.kind.code m.args ++ List.replicate 37 0
  if p = 2 then let b := toBe 1 id ++ body.take 11; b ++ [crc8 b]
  else let b := toBe 2 id ++ body.take 1 ++ toBe 1 seq ++ (body.drop 1).take 36; b ++ ploamMic ik 1 b

/-- Whether an upstream message's MIC, under its ONU's PLOAM_IK, or its CRC-8 holds (R154, R402). -/
def ploamOk (s : State) (sp p o : Nat) (bs : List Byte) : Bool :=
  if p = 2 then bs.length = 13 && bs.drop 12 = [crc8 (bs.take 12)] else bs.length = 48 && bs.drop 40 = ploamMic (ploamIk s sp o) 2 (bs.take 40)

/-- The type byte of an upstream message. -/
def ploamType (p : Nat) (bs : List Byte) : Nat := beAt bs (if p = 2 then 1 else 2) 1

/-- A message leaves a Pier: on the H-pier and X-pier with its sequence number, one count per ONU and one for broadcast messages, and
its MIC under the ONU's PLOAM_IK, or the default one (R137, R402). -/
def sendPloam (sp p : Nat) (m : PMsg) (s : State) : State :=
  let id := lineId s sp p m
  if p = 2 then emit (.ploamDown sp p id m.kind m.args 0 (ploamBytes p 0 id 0 m)) s
  else match if id = allOnus p then none else m.onu with
    | some o =>
      let n := nextSeq (onuOf s sp o).ploamSeq
      emit (.ploamDown sp p id m.kind m.args n (ploamBytes p (ploamIk s sp o) id n m)) (modOnu sp o (fun x => { x with ploamSeq := n }) s)
    | none =>
      let n := nextSeq (pierOf s sp p).ploamSeq
      emit (.ploamDown sp p id m.kind m.args n (ploamBytes p defaultIk id n m)) (modPier sp p (fun x => { x with ploamSeq := n }) s)

/-- What the sending of a message in a frame starts (R174, R200, R254, R520). -/
def ploamSent (sp p n : Nat) (m : PMsg) (s : State) : State :=
  let s := sendPloam sp p m (cnt (cPier (if m.origin = 3 then 3 else 2) sp p) 1 s)
  match m.onu with
  | none =>
    if m.kind = .rangingTime then
      forEach ((onusOf s sp).filter fun o => let x := onuOf s sp o; x.pier = p && x.adjusted && !(pierOf s sp p).ploam.any fun w => w.onu = some o)
        (fun o s => modOnu sp o (fun x => { x with adjusted := false, grantFrom := n + 2 }) s) s
    else s
  | some o =>
    let s := if wantsReply m.kind then modOnu sp o (fun x => { x with ploamWait := true }) s else s
    match m.kind with
    | .assignOnuId => modOnu sp o (fun x => { x with grantFrom := n + 2 }) s
    | .rangingTime => modOnu sp o (fun x =>
        let x := if x.adjusted then { x with adjusted := false, grantFrom := n + 2 } else x
        match x.corr with
        | some c => if c.carried then x else { x with corr := some { c with carried := true }, lastFirstSend := if c.sends = 1 then n else x.lastFirstSend }
        | none => x) s
    | .assignAllocId => if m.args.length = 3 then s else match allocOf s sp (m.args.headD 0) with
        | some a => if a.onu = o then setAlloc sp (m.args.headD 0) { a with told := true } s else s
        | none => s
    | _ => s

/-! ### Reach and equalisation (R190 to R196) -/

/-- τ(d) of a Pier in ps, d in metres (R191). -/
def tauPs (x : Pier) (d : Rat) : Rat := d * ((x.nDown + x.nUp : Nat) : Rat) * 1000000 / 299792458

/-- Teqd as the device derives it when the Span opens, ns (R191). -/
def deriveTeqd (x : Pier) (reachMax : Nat) : Nat :=
  1000 * (((x.tTx + x.tRx : Nat) + 38000000 + tauPs x (reachMax : Nat)) / 1000000 : Rat).ceil.toNat

/-- The Teqd in force, ps: on a paired Span that did not derive it, the mirrored one (R191, R520). -/
def teqdPs (s : State) (sp p : Nat) : Rat := ((1000 * (pierOf s sp p).teqd : Nat) : Rat)

/-- The distances of the ONUs that the reach model counts (R196). -/
def distances (s : State) (sp : Nat) : List Nat :=
  (onusOf s sp).filterMap fun o => let x := onuOf s sp o; if x.st = .registering || x.st = .active then some x.distance else none

/-- D_min and D_max, none without an ONU. -/
def reachSeen (s : State) (sp : Nat) : Option (Nat × Nat) :=
  match distances s sp with
  | [] => none
  | d :: t => some (t.foldl min d, t.foldl max d)

/-- d_lo and d_hi (R196). -/
def reachOf (s : State) (sp : Nat) : Nat × Nat :=
  let v := spanOf s sp
  match reachSeen s sp with
  | none => (v.reachMin, v.reachMax)
  | some (lo, hi) => (max v.reachMin (hi - v.diff - v.reachMargin), min v.reachMax (lo + v.diff + v.reachMargin))

/-- An ONU's distance estimate, m: rounded down, and 0 where it is negative (R194; assumption 134). -/
def distanceOf (x : Pier) (rtd : Rat) : Nat :=
  ((rtd - ((x.tTx + x.tRx : Nat) : Rat) - 35000000) * 299792458 / (((x.nDown + x.nUp : Nat) : Rat) * 1000000)).floor.toNat

/-- A profile of a Pier. -/
def profAt (s : State) (sp p ix : Nat) : Option BProf := kget (pierOf s sp p).profs ix

/-- The preamble of a profile in ps. -/
def preamblePs (p : Nat) (f : BProf) : Rat := (preambleBits p f : Nat) * bitPs p f.rate

/-- The guard in ps. -/
def guardPs (p rate : Nat) : Rat := (guardBits p rate : Nat) * bitPs p rate

/-- The whole discovery or ranging burst in ps, guard included (R191). -/
def bigBurst (p rate : Nat) : Rat := (if p = 2 then 432 else 800) * bitPs p rate

/-- A_min and A_max of a Pier for a reach, with or without the random delay (R191). -/
def arrivalMin (x : Pier) (lo : Nat) : Rat := ((x.tTx + x.tRx : Nat) : Rat) + 34000000 + tauPs x (lo : Nat)
def arrivalMax (x : Pier) (hi : Nat) (disc : Bool) : Rat := ((x.tTx + x.tRx : Nat) : Rat) + 36000000 + (if disc then 48000000 else 0) + tauPs x (hi : Nat)

/-- The zero-distance instant of a grant: frame start, StartTime and guard (R190). -/
def zOf (p rate frame start : Nat) : Rat := ((125000000 * frame : Nat) : Rat) + (start : Nat) * unitPs p + guardPs p rate

/-! ### States and leaving them (R173 to R176) -/

/-- Writes an ONU's activation state, and mirrors it (R173, R510). -/
def setOnuSt (sp o : Nat) (st : OnuSt) (cause : Nat) (s : State) : State := mirrorOnu sp o (modOnu sp o (fun x => { x with st := st, cause := cause }) s)

/-- What an allocation knows of demand, forgotten (R250). -/
def Alloc.forget (a : Alloc) : Alloc := { a with d := 0, report := none, latched := none, hist := [], pollAge := 64, tmSeen := false, tmNew := false, stale := false }

/-- What an ONU's allocations lose when it leaves: their Assign_Alloc-ID and what they know of demand (R250, R254). A routine that
runs goes on with what its input latch fixed (R239, R295). -/
def untellAllocs (sp o : Nat) (s : State) : State :=
  let runs := (spanOf s sp).truss.running
  { s with pon := { s.pon with allocs := kmap s.pon.allocs fun k a =>
      if k / 2048 = sp && a.onu = o then (if runs then { a with told := false, report := none, stale := true } else { a.forget with told := false }) else a } }

/-- SPLICE_OK as R148 has it now; not after a reopening until a burst has written the Splice back (R149). -/
def spliceOkNow (s : State) (sp o : Nat) : Bool :=
  let x := onuOf s sp o
  let q := pierOf s sp 0
  x.splice.valid && !x.stale && x.failRun < q.spliceFails && s.tb < x.spliceAt + q.spliceAge * 1000 * us

/-- Takes note of SPLICE_OK; its fall is told (R148, R160). -/
def judgeSplice (sp o : Nat) (s : State) : State :=
  let x := onuOf s sp o
  let now := spliceOkNow s sp o
  if now = x.spliceOk then s
  else
    let s := modOnu sp o (fun x => { x with spliceOk := now }) s
    if now then s else spanEvt sp 10 (some o) 0 (min 15 x.failRun) s

/-- An index reaches INACTIVE or DISABLED: its ONU-ID is free, its defects and keys are gone, its Splice loses VALID unless the
Span closes or the ONU never left by message (R149, R171, R174, R402). -/
def leaveTo (sp o : Nat) (st : OnuSt) (cause : Nat) (splice : Bool) (s : State) : State :=
  let s := modOnu sp o (fun x => { x with
    onuId := none, defects := 0, corr := none, rangeMiss := 0, regTries := 0, ploamMiss := 0, ploamWait := false,
    disableAfter := false, accepted := false, meas := none, matched := false, adjusted := false, missRun := 0, hdrRun := 0, deltaCount := 0, deltaSet := false,
    splice := if splice then { x.splice with valid := false } else x.splice }) s
  setOnuSt sp o st cause (clearKeys sp o (untellAllocs sp o (judgeSplice sp o s)))

/-- A serial number message names the serial number and its code. -/
def serialMsg (sp o : Nat) (disable : Bool) (s : State) : State :=
  tell sp o (if disable then .disableSerial else .enableSerial) [(onuOf s sp o).serial.toNat] s

/-- An activation that ends at once: Deactivate_ONU-ID, INACTIVE (R174, R193). -/
def dropOnu (sp o : Nat) (s : State) : State :=
  leaveTo sp o .inactive 0 true (tell sp o .deactivate [idOnLine s sp o] s)

/-- Removes the discovered-list entries that hold an index. -/
def unlist (sp o : Nat) (s : State) : State := modSpan sp (fun v => { v with disc := kfilter v.disc fun _ e => e.onu ≠ some o }) s

/-- An ONU leaves its state: DEACTIVATING with its message queued (R174, R176). One that is HELD or DISABLED goes there too, and one
that is DEACTIVATING is sent the message once more, to end DISABLED where any of them asked for it (R209; assumption 35). A standby
drives no transition (R173). -/
def deactivate (sp o : Nat) (disable : Bool) (s : State) : State :=
  let x := onuOf s sp o
  if x.st = .inactive || (spanOf s sp).standby then s
  else
    let s := unlist sp o s
    let s := modOnu sp o (fun x => { x with disableAfter := disable || (x.st = .deactivating && x.disableAfter), corr := none, matched := false }) s
    let s := if x.st = .deactivating then s else setOnuSt sp o .deactivating 0 s
    if disable then serialMsg sp o true s else tell sp o .deactivate [idOnLine s sp o] s

/-- An index whose expected entry changes or goes: any that is not INACTIVE goes to DEACTIVATING (R176). -/
def expectChanged (sp o : Nat) (s : State) : State := if (onuOf s sp o).st = .deactivating then s else deactivate sp o false s

/-- Whether an ONU's leaving message still waits. -/
def leaving (s : State) (sp o : Nat) : Bool :=
  (pierOf s sp (onuOf s sp o).pier).ploam.any fun m => m.onu = some o && (m.kind = .deactivate || m.kind = .disableSerial)

/-- Queued packets of an ONU drop with cause 3 (R174; assumption 33). -/
def dropOnuQueues (sp o : Nat) (s : State) : State :=
  let qs : List (Nat × Nat) := s.fwd.queues.filterMap fun e => match (l1Of s e.1 e.2).map (fun (x : L1) => x.kind) with
    | some (.onu v u _) => if v = sp && u = o then some (e.1, e.2.pkts.length) else none
    | _ => none
  forEach qs (fun e s => dropAll 3 e.2 e.1 s) s

/-- DEACTIVATING_END (R174). -/
def deactivated (sp o : Nat) (s : State) : State :=
  let x := onuOf s sp o
  if x.st ≠ .deactivating || leaving s sp o || (spanOf s sp).standby then s
  else leaveTo sp o (if x.disableAfter then .disabled else .inactive) 0 true (dropOnuQueues sp o s)

/-- Whether Saend takes activation steps on a Span: it serves, the Span is open and not standby (R173, R180). -/
def activates (s : State) (sp : Nat) : Bool := s.boot.ready && (spanOf s sp).st = .opened && !(spanOf s sp).standby

/-! ### Serial numbers (R171, R172, R177, R181 to R184) -/

/-- The upstream rates that a Pier admits (R179). -/
def rateAdmitted (s : State) (sp p rate : Nat) : Bool :=
  let x := pierOf s sp p
  if p = 0 then rate ≤ 2 && x.hRates.testBit rate else if p = 1 then rate = 0 || (rate = 1 && x.xg) else rate = 0

/-- The slices that see a discovered-list entry besides slice 0 (R535). -/
def discOwners (s : State) (sp cause : Nat) : List Nat :=
  if cause = 1 then (List.range 16).filter fun k => k ≠ 0 && match kget s.ctl.onuRanges (32 * k + sp) with | some (_, n) => n ≠ 0 | none => false else []

/-- A serial number is entered in the discovered list; one that stands there already is refreshed (R182). -/
def enterDisc (sp : Nat) (e : DiscEntry) (s : State) : State :=
  let v := spanOf s sp
  match v.disc.find? fun x => x.2.serial = e.serial && x.2.pier = e.pier with
  | some (n, old) => setSpan sp { v with disc := kset v.disc n { e with onu := e.onu <|> old.onu } } s
  | none => match (List.range 64).find? fun n => (kget v.disc n).isNone with
    | none => cnt (cSpan 2 sp) 1 s
    | some n => raise 963 (discOwners s sp e.cause) [wd (sp * 2 ^ 16 + e.cause * 2 ^ 8 + n)] (setSpan sp { v with disc := kset v.disc n e } s)

/-- Whether the list holds a serial number, or has room for it. -/
def discRoom (s : State) (sp : Nat) (serial : BitVec 64) (p : Nat) : Bool :=
  let v := spanOf s sp
  v.disc.length < 64 || v.disc.any fun x => x.2.serial = serial && x.2.pier = p

/-- An expected ONU is held, for a cause (R172, R174). -/
def holdOnu (sp o p rate : Nat) (serial : BitVec 64) (cause : Nat) (s : State) : State :=
  if !discRoom s sp serial p then cnt (cSpan 2 sp) 1 s
  else
    let s := cnt (cSpan 3 sp) 1 (enterDisc sp ⟨serial, p, rate, cause, some o⟩ s)
    setOnuSt sp o .held cause (modOnu sp o (fun x => { x with pier := p, serial := serial, rate := rate }) s)

/-- The lowest ONU-ID that no ONU of a G-pier holds (R171). -/
def freeOnuId (s : State) (sp : Nat) : Option Nat :=
  let used := (onusIn s sp 2 [.ranging, .registering, .active, .deactivating]).filterMap fun o => (onuOf s sp o).onuId
  (List.range 128).find? fun i => !used.contains i

/-- An activation begins: RANGING and Assign_ONU-ID, or HELD for a full Pier (R171, R172, R174, R149). -/
def activateOnu (sp o p rate : Nat) (serial : BitVec 64) (s : State) : State :=
  let full := onusPer p ≤ (onusIn s sp p [.ranging, .registering, .active, .deactivating]).length
  match (if p = 2 then freeOnuId s sp else some o) with
  | none => holdOnu sp o p rate serial 4 s
  | some i =>
    if full then holdOnu sp o p rate serial 4 s
    else
      let s := judgeSplice sp o (modOnu sp o (fun x => { x with
        pier := p, serial := serial, rate := rate, onuId := some i, rangeMiss := 0, accepted := false, ploamSeq := 0,
        grantFrom := 2 ^ 64, splice := { x.splice with valid := x.splice.valid && x.spliceSerial = serial } }) (unlist sp o s))
      tell sp o .assignOnuId [i, serial.toNat] (setOnuSt sp o .ranging 0 s)

/-- Writes an expected entry. -/
def putExpected (sp o : Nat) (e : Option Expected) (s : State) : State :=
  modOnu sp o (fun x => { x with expect := e, pier := match e with | some e => if x.st = .inactive then e.pier else x.pier | none => x.pier }) s

/-- A registry answer that found the serial number (R184). -/
def registryFound (sp : Nat) (serial : BitVec 64) (e : RegEntry) (s : State) : State :=
  let lan := s.red.lan
  match (spanOf s sp).disc.find? fun x => x.2.serial = serial && x.2.cause = 2 with
  | none => s
  | some (n, d) =>
    let here := (e.worker = lanWorker s || (e.worker = s.red.pair.mateWorker && e.worker ≠ 0x3F && (spanOf s sp).paired)) && e.span = sp
    if !here then cnt (cSpan 5 sp) 1 s
    else
      let free := (List.range 512).find? fun o => onuOwner s sp o = e.slice && (onuOf s sp o).st = .inactive && (onuOf s sp o).expect.isNone
      match free with
      | none => modSpan sp (fun v => { v with disc := kset v.disc n { d with cause := 5 } }) s
      | some o => putExpected sp o (some ⟨d.pier, serial, true, e.check, e.reg⟩)
          (modSpan sp (fun v => { v with disc := kerase v.disc n }) (setLan { lan with asked := lan.asked.filter fun q => q ≠ (serial.toNat, sp) } s))

/-- Saend asks the manager for a serial number, or acts on a cached answer while the manager is lost (R184). -/
def askRegistry (sp p : Nat) (serial : BitVec 64) (s : State) : State :=
  let lan := s.red.lan
  if managerHere s then
    let s := setLan { lan with asked := lan.asked.filter (· ≠ (serial.toNat, sp)) ++ [(serial.toNat, sp)] } s
    cnt (cDev 18) 1 (lanyardTo 0 4 [sp, p, serial.toNat] s)
  else match lan.cache.find? fun e => e.1 = serial.toNat with
    | some (_, e) => registryFound sp serial e s
    | none => s

/-- A serial number burst is measured from the start of the discovery window it came in, on a standby too, also when Saend reads it after
the burst's last bit (R180, R186). -/
def snMeasured (sp p rate k64 : Nat) (serial : BitVec 64) (s : State) : State :=
  match (pierOf s sp p).snFrom with
  | some w => modPier sp p (fun x => { x with snMeas := some (serial, w + ((k64 : Nat) : Rat) / 64 * bitPs p rate) }) s
  | none => s

/-- SN_RECEIVED: the receiver accepts a serial number burst of a rate it admits (R179, R180). What Saend does with it (R174, R177,
R181, R182): a serial number seen on another Pier than its entry's is listed with cause WRONG_PIER while its index stays INACTIVE
(assumption 131), one whose index is DEACTIVATING or DISABLED under another serial number takes no step, and an entry of cause NO_INDEX is not asked about again (assumption 133). -/
def snReceived (sp p rate k64 : Nat) (serial : BitVec 64) (s : State) : State :=
  if !(pierOf s sp p).rxOn || !rateAdmitted s sp p rate then s
  else
  let s := snMeasured sp p rate k64 serial s
  if !activates s sp then cnt (cSpan 1 sp) 1 s
  else
    let s := cnt (cSpan 1 sp) 1 s
    let os := onusOf s sp
    match os.find? fun o => let x := onuOf s sp o; x.serial = serial && x.st ≠ .inactive && x.st ≠ .held with
    | some o => raise 962 [] [wd (sp * 2 ^ 16 + o)] (cnt (cSpan 4 sp) 1 s)
    | none =>
      match os.find? fun o => match (onuOf s sp o).expect with | some e => e.serial = serial && e.pier = p | none => false with
      | some o =>
        let x := onuOf s sp o
        let auto := match x.expect with | some e => e.auto | none => false
        if x.st ≠ .inactive && x.st ≠ .held then s
        else if auto || x.accepted then activateOnu sp o p rate serial s else holdOnu sp o p rate serial 6 s
      | none =>
        if os.any fun o => match (onuOf s sp o).expect with | some e => e.serial = serial | none => false then
          if discRoom s sp serial p then cnt (cSpan 3 sp) 1 (enterDisc sp ⟨serial, p, rate, 3, none⟩ s) else cnt (cSpan 2 sp) 1 s
        else
          let v := spanOf s sp
          if v.policy = 0 || !discRoom s sp serial p then cnt (cSpan 2 sp) 1 s
          else
            let cause := if v.policy = 2 then 2 else 1
            let old := (v.disc.find? fun x => x.2.serial = serial && x.2.pier = p).map (·.2.cause)
            let s := cnt (cSpan 3 sp) 1 (enterDisc sp ⟨serial, p, rate, (match old with | some 5 => 5 | _ => cause), none⟩ s)
            if v.policy = 2 && old ≠ some 5 then askRegistry sp p serial s else s

/-- DISC_ENTRY_EXPIRY (R182). -/
def discExpiry (sp n : Nat) (s : State) : State :=
  match kget (spanOf s sp).disc n with
  | none => s
  | some e =>
    let s := modSpan sp (fun v => { v with disc := kerase v.disc n }) s
    match e.onu with
    | some o => if (onuOf s sp o).st = .held && !(spanOf s sp).standby then setOnuSt sp o .inactive 0 s else s
    | none => s

/-- REG_ANSWER_TIMEOUT (R184, R530). -/
def regAnswerTimeout (sp : Nat) (serial : BitVec 64) (s : State) : State :=
  let lan := s.red.lan
  if lan.asked.contains (serial.toNat, sp) then
    raise 899 [] (wd sp :: toWords 2 serial.toNat) (setLan { lan with asked := lan.asked.filter (· ≠ (serial.toNat, sp)) } s)
  else s

/-! ### Ranging and registration (R185, R190 to R194) -/

/-- The arrival that a measurement gives (R186). -/
def arrivalOf (p rate : Nat) (m : Meas) (k64 : Nat) : Rat := m.w0 + ((k64 : Nat) : Rat) / 64 * bitPs p rate

/-- RANGING_BURST_ACCEPTED (R190, R192, R193). -/
def ranged (sp o k64 : Nat) (s : State) : State :=
  let x := onuOf s sp o
  match x.st, x.meas with
  | .ranging, some m =>
    if !activates s sp then s
    else
      let p := x.pier
      let rtd := arrivalOf p x.rate m k64 - m.ref
      let teqd := teqdPs s sp p
      if teqd < rtd then dropOnu sp o (cnt (cSpan 6 sp) 1 s)
      else
        let u := eqdUnit p
        let eqd := roundUpHalf ((teqd - rtd) / u)
        let s := setDefect sp o 7 false true s
        let s := modOnu sp o (fun x => { x with
          rtd := rtd, eqd := eqd.toNat, offset := eqd * u - (teqd - rtd), distance := distanceOf (pierOf s sp p) rtd,
          cumul := 0, lastErr := 0, corrections := 0, corr := none, rangeMiss := 0, regTries := 1, meas := none, deltaCount := 0 }) s
        tell sp o .requestRegistration [] (tell sp o .rangingTime [eqd.toNat] (setOnuSt sp o .registering 0 s))
  | _, _ => s

/-- A ranging grant of an ONU was missed (R174). -/
def rangeMissed (sp o : Nat) (s : State) : State :=
  let n := (onuOf s sp o).rangeMiss + 1
  let s := cnt (cOnu 21 sp o) 1 s
  if (onuOf s sp o).st ≠ .ranging then s
  else if 3 ≤ n && activates s sp then dropOnu sp o s else modOnu sp o (fun x => { x with rangeMiss := min n 3 }) s

/-- The registration ID compares equal: 36 bytes, on the G-pier the first 10 (R185). -/
def regMatches (p : Nat) (e : Expected) (reg : List Byte) : Bool :=
  let n := if p = 2 then 10 else 36
  !e.regCheck || reg.take n = e.reg.take n

/-- A reply of an ONU arrives (R156). -/
def replied (sp o : Nat) (s : State) : State := setDefect sp o 4 false true (modOnu sp o (fun x => { x with ploamMiss := 0, ploamWait := false }) s)

/-- REGISTRATION_RECEIVED (R174, R176, R185). -/
def registration (sp o : Nat) (reg : List Byte) (s : State) : State :=
  let x := onuOf s sp o
  if x.st ≠ .registering || x.matched || !activates s sp then s
  else
    let s := replied sp o s
    let ok := match x.expect with | some e => regMatches x.pier e reg | none => true
    if ok then modOnu sp o (fun x => { x with matched := true }) s
    else
      let s := leaveTo sp o .disabled 7 true (serialMsg sp o true s)
      raise 964 [onuOwner s sp o] (wd (sp * 2 ^ 16 + o) :: toWords 2 (leNat (reg.take 8))) s

/-- REG_REQUEST_TIMEOUT (R174). -/
def regTimeout (sp o : Nat) (s : State) : State :=
  let x := onuOf s sp o
  if x.st ≠ .registering || x.matched || !activates s sp then s
  else if 3 ≤ x.regTries then dropOnu sp o s
  else tell sp o .requestRegistration [] (modOnu sp o (fun x => { x with regTries := x.regTries + 1 }) s)

/-- A matched ONU becomes ACTIVE at an apply point: Saend tells it its allocations and asks for its key (R174, R177, R395). -/
def becomeActive (sp o : Nat) (s : State) : State :=
  let s := setOnuSt sp o .active 0 (modOnu sp o (fun x => { x with matched := false, regTries := 0, missRun := 0, hdrRun := 0 }) s)
  let s := forEach ((allocsOf s sp).filter fun a => match allocOf s sp a with | some x => x.onu = o | none => false)
    (fun a s => tell sp o .assignAllocId [a, match allocOf s sp a with | some x => x.line | none => 0] s) s
  askKey sp o s

/-! ### Tracking (R198 to R202) -/

/-- DFi is declared: corrections stop, and the ONU is re-ranged where DF_RERANGE asks for it (R201). -/
def driftDefect (sp o why : Nat) (s : State) : State :=
  let x := onuOf s sp o
  let s := modOnu sp o (fun x => { x with corr := none }) s
  if x.defects.getLsbD 7 then s
  else
    let s := spanEvt sp 13 (some o) x.pier why (setDefect sp o 7 true true s)
    if (pierOf s sp x.pier).dfRerange && s.boot.ready then deactivate sp o false s else s

/-- Sends a correction's Ranging_Time (R200). -/
def sendCorr (sp o : Nat) (c : Corr) (s : State) : State :=
  let x := onuOf s sp o
  let s := modOnu sp o (fun x => { x with corr := some { c with sends := c.sends + 1, carried := false } }) s
  queuePloam sp x.pier ⟨1, some o, .rangingTime, [(x.eqd - c.n).toNat]⟩ s

/-- A correction begins when |O| reaches its bound (R200). -/
def maybeCorrect (sp o : Nat) (s : State) : State :=
  let x := onuOf s sp o
  let q := pierOf s sp x.pier
  let u := eqdUnit x.pier
  if x.corr.isSome || x.defects.getLsbD 7 || |x.offset| < (q.corrUnits : Nat) * u then s
  else if x.lastFirstSend ≠ 0 && frameNo s + 1 < x.lastFirstSend + 80 then s
  else
    let n := roundUpHalf (x.offset / u)
    if (x.eqd : Int) - n < 0 then driftDefect sp o 1 s else sendCorr sp o ⟨n, 0, false, false⟩ s

/-- An outstanding correction is confirmed by a burst (R200). -/
def confirmCorr (sp o : Nat) (n : Int) (s : State) : State :=
  let x := onuOf s sp o
  let u := eqdUnit x.pier
  let off := x.offset - n * u
  let eqd := ((x.eqd : Int) - n).toNat
  let rtd := teqdPs s sp x.pier - (eqd : Nat) * u + off
  let s := cnt (cOnu 22 sp o) 1 (modOnu sp o (fun x => { x with
    offset := off, eqd := eqd, cumul := x.cumul + n * u, corr := none,
    corrections := min 0xFFFF (x.corrections + 1), rtd := rtd, distance := distanceOf (pierOf s sp x.pier) rtd }) s)
  let s := mirrorOnu sp o (modPier sp x.pier (fun q => { q with ploam := q.ploam.filter fun m => !(m.origin = 1 && m.onu = some o) }) s)
  if ((1000 * (pierOf s sp x.pier).driftMax : Nat) : Rat) < |x.cumul + n * u| then driftDefect sp o 0 s else s

/-- A burst of an ONU is measured: confirmation, offset, and the next correction (R199 to R201). -/
def track (sp o : Nat) (tMeas tExp : Rat) (s : State) : State :=
  let x := onuOf s sp o
  let (s, tExp) := match x.corr with
    | some c =>
      let moved := tExp - c.n * eqdUnit x.pier
      if 0 < c.sends && |tMeas - moved| < |tMeas - tExp| then (confirmCorr sp o c.n s, moved) else (s, tExp)
    | none => (s, tExp)
  let e := tMeas - tExp
  maybeCorrect sp o (modOnu sp o (fun x => { x with offset := x.offset + e / (2 ^ (pierOf s sp x.pier).driftK : Nat), lastErr := e }) s)

/-- A confirmation period has ended unconfirmed (R200). -/
def corrOver (sp o : Nat) (c : Corr) (s : State) : State :=
  if 3 ≤ c.sends then driftDefect sp o 1 s else sendCorr sp o { c with ended := false } s

/-- EQD_CONFIRM_TIMEOUT (R200): a burst accepted within the period is measured first (R202). -/
def corrTimeout (sp o : Nat) (s : State) : State :=
  let x := onuOf s sp o
  match x.corr with
  | some c => if !c.carried then s else if x.meas.isSome then modOnu sp o (fun x => { x with corr := some { c with ended := true } }) s else corrOver sp o c s
  | none => s

/-- The measurement for which the end of a confirmation period waited is complete (R202). -/
def corrJudge (sp o : Nat) (s : State) : State :=
  match (onuOf s sp o).corr with
  | some c => if c.ended then corrOver sp o c s else s
  | none => s

/-! ### The standby's measurement (R203 to R205) -/

/-- Δ_TB in ps: the median of the last samples, the lower middle one of an even count (R509). -/
def insertInt (x : Int) (l : List Int) : List Int :=
  match l with
  | [] => [x]
  | y :: t => if x ≤ y then x :: y :: t else y :: insertInt x t
def medianInt (l : List Int) : Int := let m := l.foldl (fun a x => insertInt x a) []; (m[(m.length - 1) / 2]?).getD 0
def deltaTb (s : State) : Int := medianInt s.red.hawser.samples

/-- A burst that the standby measures (R203); the first one of an ONU sets δ (assumption 30). A change of EqD starts the count of updates
anew, not the filter. -/
def measureStandby (sp o : Nat) (tMeas tExpA : Rat) (s : State) : State :=
  let x := onuOf s sp o
  let d := tMeas - tExpA - deltaTb s
  let k := (pierOf s sp x.pier).driftK
  let s := modOnu sp o (fun x => { x with delta := if x.deltaSet then x.delta + (d - x.delta) / (2 ^ k : Nat) else d, deltaSet := true, deltaCount := x.deltaCount + 1 }) s
  judgeReady sp x.pier (cnt (cOnu 23 sp o) 1 s)

/-- ARRIVAL_MEASURED (R186, R199, R203). -/
def arrival (sp o k64 : Nat) (s : State) : State :=
  let x := onuOf s sp o
  match x.meas with
  | none => s
  | some m =>
    if x.st ≠ .active && x.st ≠ .registering then s
    else
      let t := arrivalOf x.pier x.rate m k64
      let s := modOnu sp o (fun x => { x with meas := none }) s
      if (spanOf s sp).standby then measureStandby sp o t m.ref s else corrJudge sp o (track sp o t m.ref s)

/-! ### Rogue isolation (R206) -/

/-- Disables or enables the ONUs of a search. -/
def rogueDisable (sp : Nat) (os : List Nat) (s : State) : State := forEach os (fun o s => leaveTo sp o .disabled 8 true (serialMsg sp o true s)) s
def rogueEnable (sp : Nat) (os : List Nat) (s : State) : State := forEach os (fun o s => leaveTo sp o .inactive 0 true (serialMsg sp o false s)) s

/-- A step of the search: the lower half is disabled. -/
def rogueStep (sp p : Nat) (r : RogueSearch) (s : State) : State :=
  let half := r.suspects.take ((r.suspects.length + 1) / 2)
  rogueDisable sp half (modPier sp p (fun x => { x with search := some { r with half := half, disabled := r.disabled ++ half.filter fun o => !r.disabled.contains o } }) s)

/-- ROGUE starts a search where ROGUE_ISOLATE asks for it. -/
def rogueStart (sp p : Nat) (s : State) : State :=
  let x := pierOf s sp p
  if !(spanOf s sp).rogueIsolate || x.search.isSome || !activates s sp then s
  else match onusIn s sp p [.active, .registering, .ranging] with
    | [] => raise 966 [] [wd (sp * 2 ^ 16 + p * 2 ^ 12)] s
    | l => rogueStep sp p ⟨l, [], []⟩ s

/-- ROGUE_HALVING_WAIT_END: the search goes on by the Pier's ROGUE defect as it stands (R206; assumption 34). -/
def rogueWaitEnd (sp p : Nat) (s : State) : State :=
  match (pierOf s sp p).search with
  | none => s
  | some r =>
    let rogue := (pierOf s sp p).rogue
    if (spanOf s sp).standby then modPier sp p (fun x => { x with search := none }) s
    else
    let s := if rogue then rogueEnable sp r.half s else s
    let rest := if rogue then r.suspects.filter fun o => !r.half.contains o else r.half
    match rest with
    | [] => raise 966 [] [wd (sp * 2 ^ 16 + p * 2 ^ 12)] (modPier sp p (fun x => { x with search := none }) s)
    | [o] =>
      let s := if (onuOf s sp o).st = .disabled then s else rogueDisable sp [o] s
      raise 965 [] [wd (sp * 2 ^ 16 + p * 2 ^ 12 + o)] (modPier sp p (fun x => { x with search := none }) s)
    | l => rogueStep sp p { r with suspects := l } s

end Sys2Proof.Machine
end

