-- ==== Sys2Proof/Machine/Burst.lean ====
section
/-! DEFINITION. Frames sent and bursts received by the Piers, their defects, and a Span's opening and closing (chapter 04,
R178 to R180, R198). -/

namespace Sys2Proof.Machine

/-! ### Downstream frames (R135 to R138, R163, R164) -/

/-- Whether a Span's Piers transmit: from transmit start to transmit stop, and not as a standby (R23, R163, R164). -/
def transmits (v : Span) : Bool := (v.st = .opened || (v.st ≠ .closed && 1 ≤ v.phase)) && !(v.paired && v.standby)

/-- Whether a frame ought to carry a map of the Truss (R136, R163). -/
def mapDue (v : Span) (n : Nat) : Bool := v.granting && v.t0 + 17 ≤ n

/-- Whether a grant of an allocation is a poll: no payload, its DBRu only (R252). -/
def isPoll (a : Nat × Nat × Bool) : Bool := a.2.1 = 0 && a.2.2

/-- What the sending of a map counts (R161, R255, R269, R271). -/
def mapSent (sp p : Nat) (m : PMap) (s : State) : State :=
  let s := cnt (cPier 9 sp p) m.reserved s
  let s := forEach m.grants (fun g s =>
    let s := match g.onu with | some o => cnt (cPier 4 sp p) 1 (cnt (cOnu 0 sp o) 1 s) | none => s
    if g.kind ≠ 0 then s
    else
      let s := cnt (cSlicePier g.slice sp p) g.units (cnt (cPier 8 sp p) g.n s)
      let s := modSpan sp (fun v => { v with used := kmod v.used (3 * g.slice + p) 0 (· + g.units) }) s
      forEach g.served (fun a s =>
        let s := cnt (cAlloc 2 sp a.1) a.2.1 (cnt (cAlloc 0 sp a.1) 1 s)
        let s := if isPoll a then cnt (cAlloc 1 sp a.1) 1 s else s
        match allocOf s sp a.1 with | some x => setAlloc sp a.1 { x with lastGrant := a.2.1 } s | none => s) s) s
  s

/-- The allocation structures of a burst on the H-pier and X-pier: allocation, StartTime, GrantSize units that its DBRu and payload take,
DBRu and PLOAMu flags; a later one is contiguous, with StartTime 0xFFFF (R242, R247). -/
def structsHx (p gsu : Nat) (g : Grant) (first : Bool) (l : List (Nat × Nat × Bool)) : List (List Nat) :=
  match l with
  | [] => []
  | a :: t =>
    [a.1, if first then g.start else 0xFFFF, ceilDiv (a.2.1 + if a.2.2 then dbruBytes p else 0) gsu, if a.2.2 then 1 else 0, if first && g.ploamu then 1 else 0] ::
      structsHx p gsu g false t

/-- Those of a G-pier burst: allocation, StartTime, StopTime, and the DBRu, PLOAMu, PLOu and FEC flags; a later one starts at the
StopTime before it plus 1, and each covers its DBRu, its payload and their parity (R242, R247). -/
def structsG (g : Grant) (fec : Bool) (start : Nat) (first : Bool) (l : List (Nat × Nat × Bool)) : List (List Nat) :=
  match l with
  | [] => []
  | a :: t =>
    let n := a.2.1 + if a.2.2 then 2 else 0
    let n := n + if fec then 16 * ceilDiv n 239 else 0
    [a.1, start, start + n - 1, if a.2.2 then 1 else 0, if first && g.ploamu then 1 else 0, if first then 1 else 0, if fec then 1 else 0] ::
      structsG g fec (start + n) false t

/-- A map as rows of numbers: per grant its kind, ONU, StartTime and profile, then its allocation structures (R247). -/
def mapRows (sp p : Nat) (m : PMap) : List (List Nat) :=
  m.grants.flatMap fun g => [g.kind, g.onu.getD 0x1FF, g.start, g.prof] ::
    if p = 2 then structsG g (match g.onu with | some o => Config.onuFec sp o | none => false) g.start true g.allocs else structsHx p (gsuOf p (((kget m.profs g.prof).map (·.rate)).getD 0)) g true g.allocs

/-- A Pier's frame starts: its map, its PLOAM messages, its payload. -/
def sendFrame (sp p n : Nat) (s : State) : State :=
  let v := spanOf s sp
  let x := pierOf s sp p
  let m : PMap := x.next.getD { grants := [], reserved := 0 }
  let s := if x.next.isNone && mapDue v n then spanEvt sp 9 none p 0 (cnt (cPier 1 sp p) 1 s) else s
  let s := forEach ((List.range 16).filter fun k => (kget v.used (3 * k + p)).isSome) (fun k s => modSpan sp (fun v => { v with used := kerase v.used (3 * k + p) }) s) s
  let s := forEach (allocsOf s sp) (fun a s => match allocOf s sp a with
    | some y => if y.pier = p && y.lastGrant ≠ 0 then setAlloc sp a { y with lastGrant := 0 } s else s
    | none => s) s
  let all := frameMsgs s sp p n
  let c := schedOf s sp p
  let room := if c.frame + 1 = n then c.promised.getD (ploamLimit p) else ploamLimit p
  let now := all.take (min room (ploamLimit p))
  let s := modPier sp p (fun x =>
    { x with next := none, sent := some m, announce := x.announce - 1, ploam := all.drop now.length, due := x.due ++ m.grants.map fun g => ⟨g, n, kget m.profs g.prof⟩ }) s
  let s := forEach now (ploamSent sp p n) (mapSent sp p m s)
  let s := emit (.pierFrame sp p (sfcOf p n) (if p = 2 then 0 else x.ponId.toNat) (mapRows sp p m)) (cnt (cPier 0 sp p) 1 s)
  newPayload sp p m.structs now.length s

/-- At an apply point a Pier's transmitter that nothing mutes any longer sends again (R158, R438), and its frame starts. A frame for which
it is mute carries no map, so that no ONU is granted in it. -/
def pierFrame (sp p n : Nat) (s : State) : State :=
  let x := pierOf s sp p
  if !x.enable || !transmits (spanOf s sp) || (switching s sp && !(spanOf s sp).granting) then s
  else if x.txLol || x.tf then modPier sp p (fun x => { x with next := none, sent := none }) s
  else sendFrame sp p n (if x.txOn then s else modPier sp p (fun x => { x with txOn := true }) s)

/-! ### Defects of a Pier (R158) -/

/-- Whether the frame that ends had an ONU both active and granted. -/
def hadGrant (s : State) (sp p : Nat) : Bool :=
  match (pierOf s sp p).sent with
  | some m => m.grants.any fun g => g.kind = 0 && match g.onu with | some o => (onuOf s sp o).st = .active | none => false
  | none => false

/-- LOS is judged as a frame ends; a frame without an ONU both active and granted neither counts nor breaks the run. -/
def judgeLos (sp p : Nat) (s : State) : State :=
  let x := pierOf s sp p
  if !x.rxOn then s
  else if !hadGrant s sp p then (if x.burstSeen then modPier sp p (fun x => { x with burstSeen := false }) s else s)
  else if x.burstSeen then modPier sp p (fun x => { x with burstSeen := false, losRun := 0 }) s
  else
    let n := min (x.losRun + 1) 128
    let s := modPier sp p (fun x => { x with losRun := n }) s
    if x.losFrames ≤ n && !x.los then pierDefect sp p 0 true (modPier sp p (fun x => { x with los := true }) s) else s

/-- ROGUE is judged as a frame ends, from what the line showed outside the grants. -/
def judgeRogue (sp p : Nat) (seen : Bool) (s : State) : State :=
  let x := pierOf s sp p
  if !x.rxOn then s
  else if seen then
    let n := min (x.rogueRun + 1) 8
    let s := cnt (cPier 6 sp p) 1 (modPier sp p (fun x => { x with rogueRun := n, calmRun := 0 }) s)
    if n = 8 && !x.rogue then rogueStart sp p (pierDefect sp p 3 true (modPier sp p (fun x => { x with rogue := true }) s)) else s
  else
    let n := min (x.calmRun + 1) 8
    let s := modPier sp p (fun x => { x with rogueRun := 0, calmRun := n }) s
    if n = 8 && x.rogue then pierDefect sp p 3 false (modPier sp p (fun x => { x with rogue := false }) s) else s

/-- PIER_TX_LOCK_LOSS: on a Pier's transmit lane and on a system lane (R158, R460, R471). -/
def txLockLoss (n : Nat) (s : State) : State :=
  if !laneAwake s n || (laneOf s n).txLol || (28 ≤ n && n < 32) then s
  else if n < 28 then cnt (cLane 2 n) 1 (onLane n (modLane n fun x => { x with txLol := true }) s)
  else
    let sp := spanOfLane n
    let p := (n - 32) % 3
    let s := modLane n (fun x => { x with txLol := true }) s
    pierDefect sp p 1 true (modPier sp p (fun x => { x with txLol := true, txOn := false }) s)

/-- TX_LOCK_HELD: on a system lane and on a Pier's (R158, R460). -/
def txLockHeld (n : Nat) (s : State) : State :=
  if !(laneOf s n).txLol then s
  else if n < 32 then onLane n (modLane n fun x => { x with txLol := false }) s
  else
    let sp := spanOfLane n
    let p := (n - 32) % 3
    let s := modLane n (fun x => { x with txLol := false }) s
    if (pierOf s sp p).txLol then pierDefect sp p 1 false (modPier sp p (fun x => { x with txLol := false }) s) else s

/-! ### Search windows (R150, R179, R190, R198, R514) -/

/-- Rounding to ticks of 1.6 ns. -/
def tickDown (t : Rat) : Rat := (t / tickPs).floor * tickPs
def tickUp (t : Rat) : Rat := (t / tickPs).ceil * tickPs

/-- The decided window of a discovery or ranging grant. -/
def windowOf (s : State) (sp p : Nat) (d : Due) : Option Window :=
  (spanOf s sp).windows.find? fun w => w.pier = p && w.kind = d.grant.kind && w.frame = d.frame

/-- The margin M of a Pier in ps. -/
def marginPs (x : Pier) : Rat := ((x.margin : Nat) : Rat) * tickPs

/-- Where a standby Pier looks for what it has not measured, as seen from the active device's instants: Δ_TB with δ_c, or with the difference
of the receive calibrations; and the half-width of such a search, in ps (R514). -/
def standbyShift (s : State) (sp p : Nat) : Rat :=
  let x := pierOf s sp p
  (deltaTb s : Rat) + (deltaC s sp p).getD ((x.tRx : Nat) - (x.mirRx : Nat))
def standbySearch (s : State) : Rat := ((1000000 * s.red.pair.stbySearch : Nat) : Rat)

/-- A granted burst's search window and the instant that its measurement refers to: t_exp, or Z + P of a ranging grant. -/
def searchWindow (s : State) (sp p : Nat) (d : Due) : Rat × Rat × Rat :=
  let x := pierOf s sp p
  let f := d.prof.getD ⟨0, false, false, false, 0, 0, 0, 0, 0⟩
  let z := zOf p f.rate d.frame d.grant.start
  let pre := preamblePs p f
  if d.grant.kind = 0 then
    let o := d.grant.onu.getD 0
    let u := onuOf s sp o
    let t := z + teqdPs s sp p + pre + u.offset
    if (spanOf s sp).standby then
      let b : Rat := deltaTb s
      if 8 ≤ u.deltaCount then (tickDown (t + b + u.delta - marginPs x), tickUp (t + b + u.delta + marginPs x), t)
      else
        let c := t + standbyShift s sp p
        (tickDown (c - standbySearch s), tickUp (c + standbySearch s), t)
    else
      let (early, late) : Rat × Rat := match u.corr with
        | some c => if 0 < c.n then (c.n * eqdUnit p, 0) else (0, -c.n * eqdUnit p)
        | none => (0, 0)
      (tickDown (t - marginPs x - early), tickUp (t + marginPs x + late), t)
  else
    let big := bigBurst p f.rate
    let (lo, hi) := match windowOf s sp p d with
      | some w => (w.lo + marginPs x, w.hi - marginPs x)
      | none => let r := reachOf s sp; (z + arrivalMin x r.1, z + arrivalMax x r.2 (d.grant.kind = 2) + big)
    let (lo, hi) := if (spanOf s sp).standby then (lo + standbyShift s sp p - standbySearch s, hi + standbyShift s sp p + standbySearch s) else (lo, hi)
    if d.grant.kind = 2 then (tickDown (lo + guardPs p f.rate + pre), hi - big + guardPs p f.rate + pre, z + pre)
    else (tickDown lo, hi, z + pre)

/-- The expected burst whose window comes first, and the others. -/
def firstDue (s : State) (sp p : Nat) (l : List Due) : Option (Due × List Due) :=
  match l with
  | [] => none
  | d :: t => match firstDue s sp p t with
    | none => some (d, [])
    | some (e, r) => if (searchWindow s sp p e).1 < (searchWindow s sp p d).1 then some (e, d :: r) else some (d, t)

/-- The StartTime units of the timebase that a burst occupies, from the start of frame 0 (R190, R243). -/
def burstSpan (p : Nat) (d : Due) : Nat × Nat :=
  let f := d.prof.getD ⟨0, false, false, false, 0, 0, 0, 0, 0⟩
  let a := d.frame * unitsPer p + d.grant.start - headUnits p f
  (a, a + d.grant.n)

/-- Whether a burst follows one of another rate without the rate-switch time: it is not received (R142). -/
def tooClose (s : State) (sp p : Nat) (d : Due) : Bool :=
  match (pierOf s sp p).lastBurst with
  | some (r, stop) => d.grant.kind = 0 && r ≠ (d.prof.map (·.rate)).getD 0 && (burstSpan p d).1 < stop + switchUnits p
  | none => false

/-- The burst last searched for, by its rate and its end. -/
def noteBurst (sp p : Nat) (d : Due) (s : State) : State :=
  if d.grant.kind ≠ 0 then s
  else
    modPier sp p (fun x => { x with lastBurst := some ((d.prof.map (·.rate)).getD 0, (burstSpan p d).2) }) s

/-- The range in which a due burst or window arrives at the receive reference plane: all units of a placed burst, guard included, from its first
StartTime unit on, or the window (R264); a standby moves it as it moves its windows (R514, R551). -/
def burstRange (s : State) (sp p : Nat) (d : Due) : Rat × Rat :=
  if d.grant.kind = 0 then
    let o := d.grant.onu.getD 0
    let head := match d.prof with | some f => headUnits p f | none => 0
    let a := ((125000000 * d.frame : Nat) : Rat) + teqdPs s sp p + ((d.grant.start - head : Nat) : Rat) * unitPs p
    let shift : Rat := if !(spanOf s sp).standby then 0 else if 8 ≤ (onuOf s sp o).deltaCount then deltaTb s + (onuOf s sp o).delta else standbyShift s sp p
    (a + shift, a + shift + (d.grant.n : Nat) * unitPs p)
  else let w := searchWindow s sp p d; (w.1, w.2.1)

/-- PIER_BRST and PIER_BEN of a due burst, ahead of it by T_RX_CAL: 3.2 ns from the start of its range, and high over the range widened by M on
both sides; a gap of PIER_BEN shorter than 25.6 ns is filled (R551). -/
def strobes (sp p : Nat) (d : Due) (s : State) : State :=
  let x := pierOf s sp p
  let (a, b) := burstRange s sp p d
  let at_ (t : Rat) : Nat := (t - (x.tRx : Nat)).floor.toNat
  let rise := at_ (a - marginPs x)
  let fall := at_ (b + marginPs x)
  let q := 3 * sp + p
  emit (.level 3 q (if rise < x.benFall + 25600 then min x.benFall fall else rise) fall)
    (emit (.level 2 q (at_ a) (at_ a + 3200)) (modPier sp p (fun x => { x with benFall := max x.benFall fall }) s))

/-- SEARCH_WINDOW_START (R150, R551): the receiver takes up the expected burst that comes first and drives its strobes. -/
def searchStart (sp p : Nat) (s : State) : State :=
  let x := pierOf s sp p
  if !x.rxOn then s
  else match firstDue s sp p x.due with
    | none => s
    | some (d, rest) =>
      let (w0, we, _) := searchWindow s sp p d
      let near := tooClose s sp p d
      let s := noteBurst sp p d (modPier sp p (fun x => { x with due := rest, rx := some { due := d, w0 := w0, wEnd := we, deaf := near }, snFrom := if d.grant.kind = 2 then some w0 else x.snFrom }) s)
      strobes sp p d s

/-! ### Delimiters and missed bursts (R151, R152, R156) -/

/-- LOBi and its event, which DGi suppresses (R156). -/
def lobDefect (sp o : Nat) (v : Bool) (s : State) : State := setDefect sp o 0 v (!hasDefect s sp o 5) s

/-- A short-preamble burst that fails (R148). -/
def spliceFail (sp o : Nat) (s : State) : State :=
  judgeSplice sp o (cnt (cOnu 20 sp o) 1 (modOnu sp o (fun x => { x with failRun := min 15 (x.failRun + 1) }) s))

/-- Whether a burst is sent under a short-preamble profile. -/
def shortBurst (p : Nat) (d : Due) : Bool := p = 0 && match d.prof with | some f => f.splice | none => false

/-- A burst of an ONU is missed (R152, R156). -/
def burstMissed (sp p o : Nat) (r : Rx) (s : State) : State :=
  let s := cnt (cPier 5 sp p) 1 (cnt (cOnu 2 sp o) 1 s)
  let s := if r.mismatch then cnt (cOnu 4 sp o) 1 s else s
  let x := onuOf s sp o
  let m := min (x.missRun + 1) 15
  let h := if r.mismatch then min (x.hdrRun + 1) 3 else 0
  let s := modOnu sp o (fun x => { x with missRun := m, hdrRun := h }) s
  let s := if (pierOf s sp p).lobN ≤ m then lobDefect sp o true s else s
  let s := if h = 3 then setDefect sp o 3 true true s else s
  if r.due.grant.kind = 1 then rangeMissed sp o s
  else
    let s := if shortBurst p r.due then spliceFail sp o s else s
    rssiOutcome sp o (burstKey r.due.frame r.due.grant.start) false s

/-- What an accepted delimiter of an ONU's burst does (R151, R156, R158, R186). -/
def burstAccepted (sp p o : Nat) (b : BurstHead) (r : Rx) (ref : Rat) (s : State) : State :=
  let s := cnt (cOnu 1 sp o) 1 (modOnu sp o (fun x => { x with missRun := 0, hdrRun := 0, meas := some ⟨r.w0, ref⟩ }) s)
  let s := setDefect sp o 3 false true (lobDefect sp o false s)
  let s := if p = 2 then setDefect sp o 6 b.rdi true s else s
  let s := if b.dyingGasp then setDefect sp o 5 true true s else s
  let s := forEach r.due.grant.served (fun a s => match allocOf s sp a.1 with
    | some x => setAlloc sp a.1 { x with tmBytes := 0, tmIdle := false } s
    | none => s) s
  if r.due.grant.kind = 0 then rssiOutcome sp o (burstKey r.due.frame r.due.grant.start) true s else s

/-- DELIMITER_MATCH (R150, R151). -/
def delimiterMatch (sp p : Nat) (b : BurstHead) (s : State) : State :=
  let x := pierOf s sp p
  match x.rx with
  | none => s
  | some r =>
    let f := r.due.prof.getD ⟨0, false, false, false, 0, 0, 0, 0, 0⟩
    if r.accepted || r.ended || r.deaf || r.wEnd ≤ r.w0 + ((b.pos : Nat) : Rat) * bitPs p f.rate then s
    else
      let want := match r.due.grant.onu with | some o => (onuOf s sp o).onuId.getD (allOnus p) | none => allOnus p
      if b.headerOk && b.onuId = want then
        let s := modPier sp p (fun x => { x with rx := some { r with accepted := true }, burstSeen := true }) s
        let s := if x.los then pierDefect sp p 0 false (modPier sp p (fun x => { x with los := false }) s) else s
        match r.due.grant.onu with
        | some o => burstAccepted sp p o b r (searchWindow s sp p r.due).2.2 s
        | none => s
      else
        let s := modPier sp p (fun x => { x with rx := some { r with mismatch := r.mismatch || b.headerOk } }) s
        match r.due.grant.onu with
        | some o => cnt (cOnu 3 sp o) 1 s
        | none => s

/-- SEARCH_WINDOW_END (R152). -/
def searchEnd (sp p : Nat) (s : State) : State :=
  match (pierOf s sp p).rx with
  | none => s
  | some r =>
    if r.ended then s
    else if r.accepted then modPier sp p (fun x => { x with rx := some { r with ended := true } }) s
    else
      let s := modPier sp p (fun x => { x with rx := none }) s
      match r.due.grant.onu with
      | some o => burstMissed sp p o r s
      | none => s

/-! ### Splices (R144 to R149) -/

/-- SPLICE_LOAD (R145). -/
def spliceLoad (sp o : Nat) (s : State) : State :=
  let x := onuOf s sp o
  modPier sp 0 (fun q => { q with eq := if x.splice.valid then x.splice else {} }) s

/-- Whether a burst's adaptation converged (R146). -/
def converged (q : Pier) (a : Adapted) : Bool := q.spliceMse ≤ a.mse.toNat && a.steady

/-- What a burst leaves in its ONU's Splice (R146 to R148). -/
def spliceWrite (sp o : Nat) (d : Due) (a : Adapted) (s : State) : State :=
  let q := pierOf s sp 0
  if a.symbols < 1024 then s
  else if converged q a then
    judgeSplice sp o (cnt (cOnu 18 sp o) 1 (modOnu sp o (fun x =>
      { x with splice := ⟨a.ffe, a.dfe1, a.dfe2, a.gain, a.phase, a.mse, true⟩, spliceSerial := x.serial, spliceAt := s.tb, failRun := 0, stale := false }) s))
  else
    let s := cnt (cOnu 19 sp o) 1 s
    if shortBurst 0 d then spliceFail sp o s else s

/-- BURST_LAST_BIT (R147, R250). -/
def burstLast (sp p : Nat) (a : Adapted) (s : State) : State :=
  match (pierOf s sp p).rx with
  | none => s
  | some r =>
    if !r.accepted then s
    else
      let s := modPier sp p (fun x => { x with rx := none, eq := if p = 0 then ⟨a.ffe, a.dfe1, a.dfe2, a.gain, a.phase, a.mse, true⟩ else x.eq }) s
      let s := forEach r.due.grant.served (fun b s => match allocOf s sp b.1 with
        | some x => setAlloc sp b.1 { x with tmSeen := true, tmLast := (x.tmBytes, x.tmIdle) } s
        | none => s) s
      match r.due.grant.onu with
      | some o => if p = 0 && r.due.grant.kind = 0 then spliceWrite sp o r.due a s else s
      | none => s

/-- `SPLICE_CLEAR` and the other actions that clear VALID (R149). -/
def spliceClearAt (sp o : Nat) (s : State) : State := judgeSplice sp o (modOnu sp o (fun x => { x with splice := { x.splice with valid := false } }) s)

/-! ### What a burst carries (R153 to R157) -/

/-- The ONU and the profile of the accepted burst that a Pier receives. -/
def rxOnu (s : State) (sp p : Nat) : Option (Nat × Due) :=
  match (pierOf s sp p).rx with
  | some r => if r.accepted then r.due.grant.onu.map fun o => (o, r.due) else none
  | none => none

/-- Adds to both bit error windows of an ONU. -/
def berAdd (sp o n e : Nat) (s : State) : State :=
  modOnu sp o (fun x => { x with sd := { x.sd with n := x.sd.n + n, e := x.sd.e + e }, sf := { x.sf with n := x.sf.n + n, e := x.sf.e + e } }) s

/-- FEC_CODEWORD_DECODED (R153, R157); for a G-pier ONU with FEC off, the BIP-8 errors of the bits. -/
def codewordDecoded (sp p bits : Nat) (corrected : Option Nat) (bip : Nat) (s : State) : State :=
  match rxOnu s sp p with
  | none => s
  | some (o, d) =>
    if p = 2 && !Config.onuFec sp o then berAdd sp o bits bip (cnt (cOnu 8 sp o) bip s)
    else if p ≠ 2 && !(match d.prof with | some f => f.fec | none => false) then s
    else
      let s := cnt (cOnu 5 sp o) 1 s
      match corrected with
      | some c => berAdd sp o bits c (cnt (cOnu 6 sp o) c s)
      | none => berAdd sp o bits (if p = 0 then 64 else 9) (cnt (cOnu 7 sp o) 1 s)

/-- Judges a closed window: declared at 10^-exp, cleared below a tenth of it. -/
def judgeBer (sp o d exp : Nat) (w : BerWin) (s : State) : State :=
  if w.n ≤ w.e * 10 ^ exp then setDefect sp o d true true s
  else if w.e * 10 ^ (exp + 1) < w.n then setDefect sp o d false true s
  else s

/-- SD_WINDOW_END and SF_WINDOW_END (R157): a window short of bits is extended, for 60 s at most. -/
def sdEnd (sp o : Nat) (s : State) : State :=
  let x := onuOf s sp o
  let exp := (pierOf s sp x.pier).sdExp
  let w := { x.sd with windows := x.sd.windows + 1 }
  if w.n < 10 * 10 ^ exp && w.windows < 60 then modOnu sp o (fun x => { x with sd := w }) s
  else
    let s := modOnu sp o (fun x => { x with sd := {}, sdLast := (w.n, w.e) }) s
    if w.n < 10 * 10 ^ exp then s else judgeBer sp o 1 exp w s

def sfEnd (sp o : Nat) (s : State) : State :=
  let x := onuOf s sp o
  let exp := (pierOf s sp x.pier).sfExp
  let w := { x.sf with windows := x.sf.windows + 1 }
  if w.n < 10 * 10 ^ exp && w.windows < 6000 then modOnu sp o (fun x => { x with sf := w }) s
  else
    let s := modOnu sp o (fun x => { x with sf := {} }) s
    if w.n < 10 * 10 ^ exp then s else judgeBer sp o 2 exp w s

/-- A report reaches the Truss: the status-report FIFO, and word 7 of its allocation, in bytes (R154, R250, R283). -/
def reportIn (sp p a value frame : Nat) (s : State) : State :=
  let v := spanOf s sp
  let n := value * if p = 2 then v.blockG else 4
  let full := 4096 ≤ v.truss.srf.length
  let s := match allocOf s sp a with
    | some x => setAlloc sp a { x with report := some (n, frame), reportFrame := sfcOf p frame % 2 ^ 32 } s
    | none => s
  let old := if full then v.truss.srf.drop 1 else v.truss.srf
  let lost := if full && v.truss.lost < v.truss.view.length then v.truss.lost + 1 else v.truss.lost
  let s := modSpan sp (fun v => { v with truss := { v.truss with srf := old ++ [(a, n, frame)], lost := lost } }) s
  if full then cnt (cSpan 13 sp) 1 s else s

/-- DBRU_EXTRACTED (R154, R250). -/
def dbru (sp p a value : Nat) (ok : Bool) (s : State) : State :=
  match rxOnu s sp p with
  | none => s
  | some (o, d) => if ok then cnt (cOnu 14 sp o) 1 (reportIn sp p a value d.frame s) else cnt (cOnu 15 sp o) 1 s

/-- Whether an upstream message is a reply: Registration or Password, Key_Report or Encryption_Key, Acknowledge; and the G-pier's
Dying_Gasp (the recommendations' type codes, PRESUMED, assumption 130). -/
def isReply (t : Nat) : Bool := t = 2 || t = 5 || t = 9
def isDyingGasp (p t : Nat) : Bool := p = 2 && t = 3

/-- PLOAMU_EXTRACTED (R154, R156, R402). -/
def ploamUp (sp p : Nat) (bs : List Byte) (s : State) : State :=
  match rxOnu s sp p with
  | none => s
  | some (o, _) =>
    if !ploamOk s sp p o bs then cnt (cOnu 17 sp o) 1 s
    else
      let s := cnt (cOnu 16 sp o) 1 s
      let s := if isDyingGasp p (ploamType p bs) then setDefect sp o 5 true true s else s
      if isReply (ploamType p bs) && s.boot.ready && !(spanOf s sp).standby then replied sp o s else s

/-- Whether a line port is an ONU's OMCC: the port whose number is its ONU-ID (assumption 29). -/
def isOmcc (s : State) (sp o port : Nat) : Bool := (onuOf s sp o).onuId = some port

/-- An OMCI message whose slice no function is bound to is dropped and counted (R95). -/
def omciDropped (slice : Nat) (s : State) : State :=
  { s with ctl := { s.ctl with omciDrops := kset s.ctl.omciDrops slice (kgetD s.ctl.omciDrops slice 0 + 1) } }

/-- A frame of an ONU is passed on, to its ring or to the pipeline (R154, R161). -/
def framePassed (sp o len : Nat) (s : State) : State := cnt (cOnu 10 sp o) len (cnt (cOnu 9 sp o) 1 s)

/-- UPSTREAM_XGEM_FRAME (R139, R153 to R155): every good frame of an accepted burst is passed on, whatever its ONU's state; OMCI messages
go to their ring on a standby too (R95, R514; assumption 153). -/
def upFrame (sp p o : Nat) (f : GemUp) (s : State) : State :=
  match rxOnu s sp p with
  | none => s
  | some (q, d) =>
    if q ≠ o || f.overlapBad then s
    else if !f.headerOk then cnt (cOnu 12 sp o) 1 s
    else
      let note (n : Nat) (s : State) : State := match allocOf s sp f.alloc with
        | some x => if x.onu = o then setAlloc sp f.alloc { x with tmBytes := x.tmBytes + n, tmIdle := x.tmIdle || f.idle } s else s
        | none => s
      if f.idle then note 0 s
      else
        let s := note f.payload.length s
        match openUp s sp o p f.keyIx (counterBlock p d.frame f.pos) f.payload with
        | none => cnt (cOnu 13 sp o) 1 s
        | some bs =>
          if isOmcc s sp o f.portId then
            match puntFn s (onuOwner s sp o) with
            | some fn => deliver fn 1 (wd (o * 2 ^ 16 + sp)) s.tb bs (framePassed sp o bs.length s)
            | none => omciDropped (onuOwner s sp o) s
          else
            let s := framePassed sp o bs.length s
            { s with fwd := { s.fwd with up := s.fwd.up ++ [⟨sp, f.portId, o, bs, s.tb⟩] } }

/-- LOB_DEACT_TIMEOUT (R156). -/
def lobDeact (sp o : Nat) (s : State) : State :=
  let x := onuOf s sp o
  if x.st = .active && x.defects.getLsbD 0 && (pierOf s sp x.pier).lobDeact ≠ 0 && activates s sp then
    deactivate sp o false (spanEvt sp 12 (some o) x.pier 0 s)
  else s

/-- PLOAM_REPLY_TIMEOUT (R156). -/
def ploamTimeout (sp o : Nat) (s : State) : State :=
  let x := onuOf s sp o
  if x.st ≠ .active || !x.ploamWait || !activates s sp then s
  else
    let n := x.ploamMiss + 1
    let s := modOnu sp o (fun x => { x with ploamMiss := min n 3 }) s
    if 3 ≤ n then deactivate sp o false (setDefect sp o 4 true true s) else s

/-! ### Opening and closing (R162 to R165, R505) -/

/-- Whether a Span can open (R162). -/
def mayOpen (s : State) (sp : Nat) : Bool :=
  let ps := enabledPiers s sp
  domOn s (domSp sp) && ps ≠ [] && ps.all fun p =>
    let l := laneOf s (32 + 3 * sp + p)
    settledNow s sp p && l.st = .on && !l.txLol

/-- A Span enters the opening state; a paired one opens before its pair forms in the role that PREFER gives it. -/
def startOpening (sp : Nat) (ref : Option Ref) (s : State) : State :=
  modSpan sp (fun v => { v with
                                st := .opening, phase := 0, openPending := false, openRef := ref, t0 := applyPointFor s.tb 0 / frameTb,
                                standby := if v.paired && (s.red.pair.st = .unpaired || s.red.pair.st = .hello) then !v.prefer else v.standby }) s

/-- `SPAN_OPEN` (R162, R165). -/
def spanOpen (code : Nat) (c : Call) (s : State) : State :=
  let sp := fld (pw c.words 0) 4 0
  match (spanOf s sp).st with
  | .closed =>
    if mayOpen s sp then let r := refFor code c s; startOpening sp (some r) (defer_ r s)
    else respond code c .badState [] s
  | .closing => respond code c .pending [] (modSpan sp (fun v => { v with openPending := true }) s)
  | _ => respond code c .badState [] s

/-- A Span enters the closing state, the mate hears of it, and its activations in progress are abandoned (R164, R174, R510). -/
def startClosing (sp : Nat) (s : State) : State :=
  let s := mirrorSpanRec sp (modSpan sp (fun v => { v with st := .closing, phase := if v.st = .opened then 1 else v.phase, cutOpening := v.st = .opening, closeT0 := applyPointFor s.tb 0 / frameTb }) s)
  if (spanOf s sp).standby then s else
    forEach ((onusOf s sp).filter fun o => (onuOf s sp o).st = .ranging || (onuOf s sp o).st = .registering) (fun o s => leaveTo sp o .inactive 0 false s) s

/-- `SPAN_CLOSE` (R164, R165). -/
def spanClose (code : Nat) (c : Call) (s : State) : State :=
  let sp := fld (pw c.words 0) 4 0
  match (spanOf s sp).st with
  | .closed => respond code c .done [] s
  | st =>
    let r := refFor code c s
    let s := modSpan sp (fun v => { v with closeRefs := v.closeRefs ++ [r], openPending := false }) (defer_ r s)
    if st = .closing then s else startClosing sp s

/-- The frame that starts now on a Pier whose apply point has passed already. -/
def lateFrame (sp : Nat) (s : State) : State :=
  if s.ctl.lastApply = frameNo s then forEach (enabledPiers s sp) (fun p s => if (schedOf s sp p).frame = frameNo s then s else pierFrame sp p (frameNo s) s) s else s

/-- SPAN_OPEN_TX_START (R163, R191). -/
def openTx (sp : Nat) (s : State) : State :=
  let v := spanOf s sp
  if !opens v || v.phase ≠ 0 then s
  else
    let s := setSpan sp { v with phase := 1, t0 := frameNo s } s
    let s := forEach (enabledPiers s sp) (fun p s => modPier sp p (fun x =>
      { x with
               rxOn := true, txOn := transmits { v with phase := 1 } && !x.txLol, next := none, sent := none, due := [], rx := none, lastBurst := none, losRun := 0, rogueRun := 0,
               calmRun := 0, burstSeen := false, rotation := none, staging := {},
               teqd := match v.standby, x.mirTeqd with | true, some t => t | _, _ => deriveTeqd x v.reachMax }) s) s
    lateFrame sp (mirrorSpanRec sp s)

/-- SPAN_OPEN_GRANT_START, but for the routine that starts then (R163). -/
def openGrant (sp : Nat) (s : State) : State :=
  let v := spanOf s sp
  if v.st ≠ .opening || v.phase ≠ 1 then s
  else
    let s := setSpan sp { v with st := .opened, phase := 0, granting := !(v.paired && v.standby), openRef := none, windows := [], discDue := true, used := [] } s
    answerOpt v.openRef .done [] (mirrorSpanRec sp (spanEvt sp 8 none 0 (1 * 16 + 2) s))

/-- SPAN_CLOSE_STOP_GRANTS (R164). -/
def closeStop (sp : Nat) (s : State) : State :=
  let v := spanOf s sp
  if v.st ≠ .closing || 2 ≤ v.phase then s
  else
    let s := setSpan sp { v with phase := 2, granting := false, openRef := none, cutOpening := false, windows := [], truss := { v.truss with running := false } } s
    answerOpt v.openRef .badState [] s

/-- SPAN_CLOSE_DEACTIVATE (R164): the frames that start from now on have empty maps and carry the message. -/
def closeDeactivate (sp : Nat) (s : State) : State :=
  let v := spanOf s sp
  if v.st ≠ .closing || v.phase ≠ 2 then s
  else threePiers (fun p s => modPier sp p (fun x => { x with next := none }) s) (setSpan sp { v with phase := 3 } s)

/-- At the apply point after a close's T0 its deactivation starts, so that the three frames from there on carry the message (R164). -/
def closeDue (sp n : Nat) (s : State) : State := if (spanOf s sp).closeT0 < n then closeDeactivate sp s else s

/-- The Splices of a Span that has closed: none is usable before a burst has written it back (R149). -/
def splicesStale (sp : Nat) (s : State) : State :=
  forEach ((onusOf s sp).filter fun o => (onuOf s sp o).splice.valid) (fun o s => judgeSplice sp o (modOnu sp o (fun x => { x with stale := true }) s)) s

/-- The ONUs of a Span whose own leaving message has gone out: they are DEACTIVATING and it does not wait any more (R149, R174). -/
def sentAway (s : State) (sp : Nat) : List Nat := (onusOf s sp).filter fun o => (onuOf s sp o).st = .deactivating && !leaving s sp o

/-- Every ONU of a closing Span is inactive; the broadcast message clears no Splice, but an ONU's own message has (R149, R164). -/
def onusClosed (sp : Nat) (told : List Nat) (s : State) : State :=
  let s := splicesStale sp s
  forEach ((onusOf s sp).filter fun o => (onuOf s sp o).st ≠ .inactive) (fun o s => leaveTo sp o .inactive 0 (told.contains o) s) s

/-- A Span is closed at once: the end of a close, or the loss of its power (R121, R164). -/
def spanClosed (sp : Nat) (s : State) : State :=
  let v := spanOf s sp
  let old := if v.st = .closing then 3 else if v.st = .opened then 2 else 1
  let told := sentAway s sp
  let s := setSpan sp { v with st := .closed, phase := 0, granting := false, openRef := none, cutOpening := false, closeRefs := [], windows := [], used := [], truss := { v.truss with running := false } } s
  let s := forEach (List.range 3) (fun p s => modPier sp p (fun x =>
    { x with
             txOn := false, rxOn := false, ploam := [], next := none, sent := none, due := [], rx := none, snFrom := none, staging := {}, los := false, txLol := false, tf := false,
             rogue := false, losRun := 0, rogueRun := 0, calmRun := 0, search := none, announce := 0 }) s) s
  let s := onusClosed sp told (dropSpan sp true s)
  let s := threePiers (judgeReady sp) (mirrorSpanRec sp (spanEvt sp 8 none 0 (old * 16) s))
  let s := answerOpt v.openRef .badState [] s
  forEach v.closeRefs (fun r s => answer r .done [] s) s

/-- SPAN_CLOSE_TX_STOP (R164, R165): a pending open is judged and runs. -/
def closeEnd (sp : Nat) (s : State) : State :=
  let v := spanOf s sp
  if v.st ≠ .closing || v.phase ≠ 3 then s
  else
    let s := spanClosed sp s
    if !v.openPending then s
    else if mayOpen s sp then startOpening sp none s
    else modSpan sp (fun v => { v with openPending := false }) s

end Sys2Proof.Machine
end

