-- ==== Sys2Proof/Machine/Truss.lean ====
section
/-! DEFINITION. What a Truss does with one micro-word: sources, ALU, condition bits, ports, sequencing, commits and
abandonment (chapter 08), and the burst cost that MAP STAGE clips by (R241 to R243, R284). -/

namespace Sys2Proof.Machine

/-! ### Burst cost (R241 to R243, R260) -/

/-- Data bytes with their parity, in bits (R242). -/
def codedBits (p : Nat) (fec : Bool) (bytes : Nat) : Nat :=
  8 * bytes + if !fec then 0 else if p = 0 then 2688 * ceilDiv (8 * bytes) 14592 else 128 * ceilDiv bytes (if p = 1 then 232 else 239)

/-- The bytes of a burst's header, PLOAMu and trailer. -/
def fixedBytes (p : Nat) (ploamu : Bool) : Nat := (if p = 2 then 3 else 8) + if ploamu then (if p = 2 then 13 else 48) else 0

/-- The bytes of an allocation's grant. -/
def grantBytes (p rate size : Nat) (dbru : Bool) : Nat := size * gsuOf p rate + if dbru then dbruBytes p else 0

/-- n of a burst, as the packer reckons it (R243). -/
def burstUnits (p : Nat) (f : BProf) (ploamu : Bool) (bytes : Nat) : Nat :=
  headUnits p f + ceilDiv (codedBits p f.fec (fixedBytes p ploamu + bytes)) (unitBits p f.rate)

/-- An allocation's grant alone, its parity reckoned apart (R260). -/
def allocUnits (p : Nat) (f : BProf) (bytes : Nat) : Nat := ceilDiv (codedBits p f.fec bytes) (unitBits p f.rate)

/-- The profile of a Pier, blank where it is not VALID. -/
def validProf (s : State) (sp p ix : Nat) : Option BProf := (profAt s sp p ix).filter fun f => f.valid
def blankProf : BProf := ⟨0, false, false, false, 0, 0, 0, 0, 0⟩
def profOr (s : State) (sp p ix : Nat) : BProf := (validProf s sp p ix).getD blankProf

/-- The profile of an ONU's burst: on the G-pier FEC follows the ONU's flag (R140, R242; assumption 126). -/
def profFor (s : State) (sp p o ix : Nat) : BProf := let f := profOr s sp p ix; if p = 2 then { f with fec := Config.onuFec sp o } else f

/-- The largest size from 0 to `lo + 2^fuel − 1` whose cost does not exceed `room`, given that the cost of `lo` does not. -/
def largestFit (cost : Nat → Nat) (room lo fuel : Nat) : Nat :=
  match fuel with
  | 0 => lo
  | n + 1 => largestFit cost room (if cost (lo + 2 ^ n) ≤ room then lo + 2 ^ n else lo) n

/-! ### What a Truss sees of an allocation -/

def trussOf (s : State) (sp : Nat) : Truss := (spanOf s sp).truss
def setTruss (sp : Nat) (t : Truss) (s : State) : State := modSpan sp (fun v => { v with truss := t }) s
def modTruss (sp : Nat) (f : Truss → Truss) (s : State) : State := modSpan sp (fun v => { v with truss := f v.truss }) s

/-- An allocation by its index; indices beyond the table name none. -/
def allocAt (s : State) (sp a : Nat) : Option Alloc := if a < 2048 then allocOf s sp a else none

/-- Whether an allocation is visited in a routine that builds the map of frame `m` (R254, R520). -/
def visitedIn (s : State) (sp m : Nat) (x : Alloc) : Bool :=
  let u := onuOf s sp x.onu
  u.st = .active && x.told && u.pier = x.pier && !u.adjusted && u.grantFrom ≤ m && (pierOf s sp x.pier).enable

/-- Whether the fixed share falls due in the map that is built (R249). -/
def fixedDue (sp : Nat) (x : Alloc) (s : State) : Bool := sfcOf x.pier (trussOf s sp).frame % (max 1 x.si) = x.siPhase

/-- The profile that R253 selects. -/
def usualProf (s : State) (sp : Nat) (x : Alloc) : Nat :=
  if x.pier = 0 && (trussOf s sp).splices.contains x.onu then x.shortProf else x.longProf

/-- S of R250: the payload granted in the maps after the one that granted the reporting burst. -/
def grantedSince (x : Alloc) : Nat :=
  match x.latched with
  | some (_, f) => ((x.hist.filter fun e => f < e.1).map (·.2)).sum
  | none => 0

/-- D of R250. -/
def demandOf (s : State) (sp : Nat) (x : Alloc) : Nat :=
  match x.mode with
  | 1 => match x.latched with
    | some (r, _) => r - grantedSince x
    | none => 0
  | 2 => if x.tmNew then x.tmLatch.1 + (if x.tmLatch.2 then 0 else (spanOf s sp).tmStep) else x.d
  | _ => 0

/-- The entries of a Pier that are committed or staged. -/
def stagedIn (t : Truss) (p : Nat) : List Entry := t.writes.filterMap fun w => match w with | .stage q e => if q = p then some e else none | _ => none
def entriesOf (s : State) (sp p : Nat) : List Entry := (pierOf s sp p).staging.entries ++ stagedIn (trussOf s sp) p

/-- FIRST: the ONU has no entry in this map (R279). -/
def firstOf (s : State) (sp p o : Nat) : Bool := !(entriesOf s sp p).any fun e => e.onu = o

/-- Whether a Pier has ONUs active at two rates: those that its map may grant, ACTIVE or REGISTERING (R284, R260; assumption 136). -/
def twoRates (s : State) (sp p : Nat) : Bool :=
  match (onusIn s sp p [.active, .registering]).map fun o => (onuOf s sp o).rate with
  | [] => false
  | r :: t => t.any (· ≠ r)

/-- The profile index of an ONU's burst: that of its first entry in the map, else the one given (assumption 135). -/
def burstProf (s : State) (sp p o prof : Nat) : Nat := match (entriesOf s sp p).find? fun e => e.onu = o with | some e => e.prof | none => prof

/-- The windows of a staging buffer, committed or staged. -/
def windowsOf (s : State) (sp p : Nat) : Nat :=
  (pierOf s sp p).staging.windows.length + ((trussOf s sp).writes.filter fun w => match w with | .window q _ _ _ => q = p | _ => false).length

/-- The reservations of a staging buffer, committed or staged. -/
def reservesOf (s : State) (sp p : Nat) : List (Nat × Nat) :=
  (pierOf s sp p).staging.reserves ++ (trussOf s sp).writes.filterMap fun w => match w with | .reserve q a b => if q = p then some (a, b) else none | _ => none

/-- The units of some half-open ranges, each unit once. -/
def rangeUnits (l : List (Nat × Nat)) : Nat :=
  let f := l.foldl (fun (acc : List (Nat × Nat)) r => insertRange r acc) []
  (f.foldl (fun (acc : Nat × Nat) r => (acc.1 + (r.2 - max r.1 acc.2), max acc.2 r.2)) (0, 0)).1
where
  /-- Ranges in the order of their starts. -/
  insertRange (r : Nat × Nat) (l : List (Nat × Nat)) : List (Nat × Nat) :=
    match l with
    | [] => [r]
    | q :: t => if r.1 ≤ q.1 then r :: q :: t else q :: insertRange r t

/-! ### MAP STAGE (R244, R284, R285) -/

/-- What a stage did. -/
structure Staging1 where
  st : State
  refused : Bool
  clipped : Bool
  size : Nat
  units : Nat

/-- Slice budget left on a Pier. -/
def budgetLeft (t : Truss) (slice p : Nat) : Nat := kgetD t.budget (3 * slice + p) 0
def capacityLeft (t : Truss) (p : Nat) : Nat := t.remain.getD p 0

/-- What an entry adds to the map at a size. -/
def stageCost (s : State) (sp a o p prof : Nat) (dbru : Bool) (size : Nat) : Nat :=
  let f := profFor s sp p o (burstProf s sp p o prof)
  let old := (entriesOf s sp p).filter fun e => e.alloc = a
  let held := (old.map (·.size)).sum
  let was := old.any (·.dbru)
  let before := if old = [] then 0 else allocUnits p f (grantBytes p f.rate held was)
  let after := allocUnits p f (grantBytes p f.rate (held + size) (was || dbru))
  let first := firstOf s sp p o
  (after - before) + (if first then headUnits p f + allocUnits p f (fixedBytes p ((trussOf s sp).ploamu.contains o)) +
    (if (trussOf s sp).mixed.contains p then switchUnits p else 0) else 0)

/-- Stages an entry for an allocation, or for the default Alloc-ID of an ONU, clipped to what remains. -/
def stageEntry (sp a o p slice prof size : Nat) (dbru idle : Bool) (s : State) : Staging1 :=
  let t := trussOf s sp
  let no : Staging1 := ⟨s, true, false, 0, 0⟩
  let es := entriesOf s sp p
  if 128 ≤ t.writes.length then no
  else if !es.any (fun e => e.alloc = a) && structsPer p ≤ ((es.map (·.alloc)).eraseDups).length + windowsOf s sp p then no
  else
    let cost := stageCost s sp a o p prof dbru
    let room := if idle then capacityLeft t p else min (capacityLeft t p) (budgetLeft t slice p)
    let fits := cost size ≤ room
    if !fits && room < cost 0 then no
    else
      let n := if fits then size else largestFit cost room 0 20
      if !fits && n = 0 && !dbru then no
      else
        let u := cost n
        let t := { t with
          writes := t.writes ++ [.stage p ⟨a, o, n, dbru, prof, u, if idle then u else 0⟩]
          remain := lset t.remain p (capacityLeft t p - u)
          budget := if idle then t.budget else kset t.budget (3 * slice + p) (budgetLeft t slice p - u) }
        ⟨setTruss sp t s, false, !fits, n, u⟩

/-! ### Commit and abandonment (R245, R291, R292) -/

/-- An entry joins those committed for its allocation. -/
def joinEntry (e : Entry) (l : List Entry) : List Entry :=
  match l with
  | [] => [e]
  | f :: t => if f.alloc = e.alloc then { f with size := f.size + e.size, dbru := f.dbru || e.dbru, units := f.units + e.units, idle := f.idle + e.idle } :: t
              else f :: joinEntry e t

/-- An allocation after a write to a word of its record (R282, R283). What the record derives from other state is not written: VISITED
and PIER of word 0, the slice of word 10, RATE_SPLICE of word 11 (assumption 88). -/
def Alloc.putWord (x : Alloc) (frame word : Nat) (v : Word) : Alloc :=
  match word with
  | 0 => { x with mode := fld v 31 30, policy := bit v 29, place := fld v 27 26, weight := fld v 23 16, poll := fld v 13 8, si := fld v 7 4, siPhase := fld v 3 0 }
  | 1 => { x with rf := fld v 19 0 }
  | 2 => { x with ra := fld v 19 0 }
  | 3 => { x with rna := fld v 19 0 }
  | 4 => { x with rm := fld v 19 0 }
  | 5 => { x with d := v.toNat }
  | 6 => match x.latched with | some (_, f) => { x with hist := [(f + 1, v.toNat)] } | none => x
  | 7 =>
    let r := if bit v 31 then some (fld v 30 0, match x.latched with | some (_, f) => f | none => frame) else none
    { x with latched := r, report := r }
  | 8 => { x with pollAge := fld v 7 0 }
  | 9 => { x with onu := fld v 24 16, line := fld v 13 0 }
  | 11 => { x with longProf := fld v 9 8, shortProf := fld v 1 0 }
  | _ => if 12 ≤ word && word ≤ 15 then { x with st := lset x.st (word - 12) v } else x

/-- Writes a word of an allocation record. -/
def recordPut (sp a word : Nat) (v : Word) (s : State) : State :=
  match allocAt s sp a with
  | none => s
  | some x => setAlloc sp a (x.putWord (trussOf s sp).frame word v) s

/-- A staged write becomes visible. -/
def commitWrite (sp : Nat) (w : TWrite) (s : State) : State :=
  match w with
  | .record a i v => recordPut sp a i v s
  | .pop => modTruss sp (fun t => { t with view := t.view.drop 1, lost := t.lost - 1, srf := if t.lost = 0 then t.srf.drop 1 else t.srf }) s
  | .inc a k n => if k = 0 then cnt (cAlloc 3 sp a) n s else if k = 1 then cnt (cAlloc 4 sp a) n s else if 8 ≤ k && k ≤ 11 then cnt (cAlloc k sp a) n s else s
  | .stage p e => modPier sp p (fun x => { x with staging := { x.staging with entries := joinEntry e x.staging.entries } }) s
  | .reserve p a b => modPier sp p (fun x => { x with staging := { x.staging with reserves := x.staging.reserves ++ [(a, b)] } }) s
  | .window p ranging o start =>
    modPier sp p (fun x => { x with staging := { x.staging with windows := x.staging.windows ++ [(if ranging then 1 else 2, if ranging then some o else none, start)] } }) s

/-- A commit: every staged write is visible; outside FINISH, a checkpoint and a resume point are recorded. -/
def commitAll (sp resume : Nat) (s : State) : State :=
  let ws := (trussOf s sp).writes
  let s := modTruss sp (fun t => { t with writes := [], faulted := false, committed := true, regs := { t.regs with cond := t.regs.cond &&& 0xFBFF } }) (forEach ws (commitWrite sp) s)
  modTruss sp (fun t =>
    let t := { t with heldRemain := t.remain, heldBudget := t.budget }
    if t.entry = 8 then t else { t with resume := resume, saved := t.regs, savedCall := t.call }) s

/-- What was staged since the last commit is discarded, and has charged nothing. -/
def discard (sp : Nat) (s : State) : State := modTruss sp (fun t => { t with writes := [], remain := t.heldRemain, budget := t.heldBudget }) s

/-- A condition bit written. -/
def setC (c : BitVec 16) (k : Nat) (v : Bool) : BitVec 16 := if v then c ||| BitVec.ofNat 16 (2 ^ k) else c &&& ~~~ BitVec.ofNat 16 (2 ^ k)

/-- Whether a call has used its CALL_LIMIT less 16 steps or more (R279). -/
def OpenCall.near (c : OpenCall) : Bool := c.limit ≤ c.steps + 16

/-- A checkpoint's call with the steps that it has used since, where the call at hand is the same entry's. -/
def OpenCall.upTo (d : OpenCall) (c : Option OpenCall) : OpenCall :=
  match c with | some c => if c.by_ = d.by_ then { d with steps := c.steps } else d | none => d

/-- Execution restarts at the last resume point, from its checkpoint, with C10 set: within the call if that is where the resume point
lies, whose steps go on from where they stood (R292), with C11 by those steps. -/
def restart (sp : Nat) (s : State) : State :=
  cnt (cSpan 10 sp) 1 (modTruss sp (fun t =>
    let c := t.savedCall.map (·.upTo t.call)
    let near := match c with | some c => c.near | none => false
    { t with addr := t.resume, call := c, regs := { t.saved with cond := setC (setC t.saved.cond 10 true) 11 near } }) s)

/-! ### Sources, ALU and conditions (R277 to R280) -/

/-- Words 0 to 15 of an allocation record (R283). -/
def recordWord (s : State) (sp a n : Nat) : Word :=
  match allocAt s sp a with
  | none => 0
  | some x =>
    match n with
    | 0 => put x.mode 30 ||| putb x.policy 29 ||| putb ((trussOf s sp).visit.contains a) 28 ||| put x.place 26 ||| put x.pier 24 ||| put x.weight 16 |||
           put x.poll 8 ||| put (x.si % 16) 4 ||| wd x.siPhase
    | 1 => wd x.rf
    | 2 => wd x.ra
    | 3 => wd x.rna
    | 4 => wd x.rm
    | 5 => wd x.d
    | 6 => wd (grantedSince x)
    | 7 => match x.latched with | some (r, _) => putb true 31 ||| wd (r % 2 ^ 31) | none => 0
    | 8 => wd (min 255 x.pollAge)
    | 9 => put x.onu 16 ||| wd x.line
    | 10 => wd (allocOwner s sp a)
    | 11 => putb ((trussOf s sp).splices.contains x.onu) 16 ||| put x.longProf 8 ||| wd x.shortProf
    | _ => x.st.getD (n - 12) 0

def recordWords (s : State) (sp a n : Nat) : List Word := (List.range 4).map fun i => recordWord s sp a (n + i)

/-- The open call in which the Truss executes: one that the entry that runs has made, so none of FRAME while FINISH runs. -/
def inCall (t : Truss) : Option OpenCall := t.call.filter fun c => c.by_ = t.entry

/-- The open calls that have not ended: the one made last, and one of FRAME that FINISH interrupted. -/
def openCalls (t : Truss) : List OpenCall :=
  t.call.toList ++ t.savedCall.toList.filter fun d => t.entry = 8 && t.call.all fun c => c.by_ = 8 && d.by_ ≠ 8

/-- The value of a source; `imm` are IMM_A and IMM_B. What belongs to a current allocation is open while there is none (assumption 3). -/
def source (s : State) (sp : Nat) (imm : Word × Word) (code : Nat) : Word :=
  let t := trussOf s sp
  if code < 64 then kgetD t.regs.scratch code 0
  else match code with
    | 64 => imm.1
    | 65 => imm.2
    | 66 => t.regs.pd.getD 0 0
    | 67 => t.regs.pd.getD 1 0
    | 68 => t.regs.pd.getD 2 0
    | 69 => t.regs.pd.getD 3 0
    | 70 => wd t.regs.cond.toNat
    | 71 => match inCall t with | some c => wd c.steps | none => 0
    | 72 => wd (if t.entry = 16 then 0 else t.steps - t.base)
    | 73 => wd t.frame
    | 74 => match t.regs.cur.bind (allocAt s sp) with | some x => wd (gsuOf x.pier (onuOf s sp x.onu).rate) | none => Config.freeWord s.free
    | 76 => wd sp
    | 77 => match t.regs.cur.bind (allocAt s sp) with | some x => wd x.pier | none => Config.freeWord s.free
    | _ => 0

/-- An ALU result: the value written if any, and C2 (R278). -/
def alu (op : Nat) (a b : Word) : Option Word × Bool :=
  let x := a.toNat
  let y := b.toNat
  match op with
  | 0 => (none, false)
  | 1 => (some a, false)
  | 2 => (some (a + b), 2 ^ 32 ≤ x + y)
  | 3 => (some (a - b), x < y)
  | 4 => (some (if x < y then 0 else a - b), x < y)
  | 5 => (some (a &&& b), false)
  | 6 => (some (a ||| b), false)
  | 7 => (some (a ^^^ b), false)
  | 8 => (some (wd (min x y)), false)
  | 9 => (some (wd (max x y)), false)
  | 10 => (some (a <<< (y % 32)), false)
  | 11 => (some (a >>> (y % 32)), false)
  | 12 => (some (a.sshiftRight (y % 32)), false)
  | 13 => (some (a * b), 2 ^ 32 ≤ x * y)
  | 14 => (some (wd (x * y / 2 ^ 32)), 2 ^ 32 ≤ x * y)
  | 15 => (some (if y = 0 then 0xFFFFFFFF else wd (x / y)), y = 0)
  | _ => (some (if y = 0 then 0xFFFFFFFF else wd (ceilDiv x y)), y = 0)

/-- The extra steps of an ALU operation and of a port operation (R278, R282). -/
def aluExtra (op : Nat) : Nat := if op = 13 || op = 14 then 1 else if op = 15 || op = 16 then 7 else 0
def portExtra (port op : Nat) : Nat :=
  match port, op with
  | 1, 0 => 2 | 1, 1 => 1 | 2, 0 => 1 | 6, 0 => 3 | 6, 1 => 1 | 6, 2 => 1 | 6, 3 => 1 | _, _ => 0

/-- Whether the ports table lists an operation (R282). -/
def portListed (port op : Nat) : Bool :=
  match port with
  | 0 => true
  | 1 => op ≤ 2
  | 2 => op ≤ 1
  | 3 | 4 | 5 => op = 0
  | 6 => op ≤ 3
  | _ => false

/-! ### Ports (R282) -/

/-- What a port operation leaves: the state, PD0 to PD3 if it reads, the condition bits it names. -/
structure PortOut where
  st : State
  pd : Option (List Word) := none
  cond : List (Nat × Bool) := []
  undef : Option String := none

/-- A staged write, refused beyond the 128th. -/
def stageWrite (sp : Nat) (w : TWrite) (s : State) : PortOut :=
  if 128 ≤ (trussOf s sp).writes.length then { st := s, cond := [(4, true)] }
  else { st := modTruss sp (fun t => { t with writes := t.writes ++ [w] }) s, cond := [(4, false)] }

/-- SELECT: the allocation is current, and C3, C6, C7 and C8 tell of it. -/
def selectAlloc (sp a : Nat) (s : State) : PortOut :=
  let x := allocAt s sp a
  let t := trussOf s sp
  {
    st := modTruss sp (fun t => { t with regs := { t.regs with cur := some a } }) s, pd := some (recordWords s sp a 0),
    cond := [(3, !t.visit.contains a), (6, match x with | some x => fixedDue sp x s | none => false),
             (7, match x with | some x => t.splices.contains x.onu | none => false),
             (8, match x with | some x => firstOf s sp x.pier x.onu | none => false)] }

/-- SRF POP and PEEK. -/
def srfRead (sp : Nat) (pop : Bool) (s : State) : PortOut :=
  let t := trussOf s sp
  let k := (t.writes.filter (· = .pop)).length
  match t.view[k]? with
  | none => { st := s, pd := some [], cond := [(3, true)] }
  | some (a, n, f) =>
    let o := if pop then stageWrite sp .pop s else { st := s }
    { o with pd := some [wd a, wd n, wd f], cond := (3, false) :: o.cond }

/-- The guaranteed cost of a slice on a Pier (R256). -/
def guaranteed (s : State) (sp slice p : Nat) : Nat :=
  let mine := (allocsOf s sp).filterMap fun a => match allocOf s sp a with
    | some x => if x.pier = p && allocOwner s sp a = slice && 0 < x.rf + x.ra then some x else none
    | none => none
  ((((mine.map (·.onu)).eraseDups).map fun o =>
    match mine.filter fun x => x.onu = o with
    | [] => 0
    | x :: t =>
      let f := profFor s sp p o x.longProf
      burstUnits p f true (((x :: t).map fun y => grantBytes p f.rate (ceilDiv (y.rf + y.ra) (gsuOf p f.rate)) (y.mode = 1)).sum))).sum

/-- BUDGET READ, of the current allocation's Pier and slice. -/
def budgetRead (sp : Nat) (s : State) : PortOut :=
  let t := trussOf s sp
  match t.regs.cur with
  | none => { st := s, pd := some ((List.range 4).map fun i => Config.freeWord (s.free + i)) }
  | some a =>
    match allocAt s sp a with
    | none => { st := s, pd := some ((List.range 4).map fun i => Config.freeWord (s.free + i)) }
    | some x =>
      let k := allocOwner s sp a
      { st := s, pd := some [wd (capacityLeft t x.pier), wd (budgetLeft t k x.pier), wd (guaranteed s sp k x.pier), wd (unitsPer x.pier - rangeUnits (reservesOf s sp x.pier))] }

/-- TM READ. -/
def tmRead (sp a : Nat) (s : State) : PortOut :=
  match allocAt s sp a with
  | some x => { st := s, pd := some [wd x.tmLatch.1, putb x.tmLatch.2 0 ||| putb x.tmNew 1] }
  | none => { st := s, pd := some [] }

/-- Whether an entry that a routine stages is one that R267 lists; `own` is the slice of an open call. -/
def badEntry (s : State) (sp a prof size : Nat) (dbru : Bool) (own : Option Nat) : Bool :=
  match allocAt s sp a with
  | none => true
  | some x =>
    !(trussOf s sp).visit.contains a ||
    (match validProf s sp x.pier prof with | some f => f.rate ≠ (onuOf s sp x.onu).rate | none => true) ||
    (match own with | some k => allocOwner s sp a ≠ k | none => false) || (size = 0 && dbru && x.mode ≠ 1)

/-- MAP STAGE. -/
def mapStage (sp a size param : Nat) (own : Option Nat) (s : State) : PortOut :=
  match allocAt s sp a with
  | none => { st := s, undef := some "R267" }
  | some x =>
    let sel := param / 4 % 4
    let dbru := param.testBit 0
    let prof := if sel = 1 then x.longProf else if sel = 2 then x.shortProf else usualProf s sp x
    if badEntry s sp a prof size dbru own then { st := s, undef := some "R267" }
    else
      let k := allocOwner s sp a
      let r := stageEntry sp a x.onu x.pier k prof size dbru (own.isNone && param.testBit 4) s
      let t := trussOf r.st sp
      {
        st := r.st, pd := some [wd r.size, wd r.units, wd (capacityLeft t x.pier), wd (budgetLeft t k x.pier)],
        cond := [(4, r.refused), (5, r.clipped), (8, firstOf r.st sp x.pier x.onu)] }

/-- MAP QUERY. -/
def mapQuery (sp a : Nat) (s : State) : PortOut :=
  match allocAt s sp a with
  | none => { st := s, pd := some [] }
  | some x =>
    let here (l : List Entry) : Nat := ((l.filter fun e => e.alloc = a).map (·.size)).sum
    {
                           st := s, pd := some [wd (here (pierOf s sp x.pier).staging.entries), wd (here (stagedIn (trussOf s sp) x.pier)),
                           wd ((((entriesOf s sp x.pier).filter fun e => e.onu = x.onu).map (·.units)).sum)] }

/-- RESERVE and WINDOW, of the vendor bank. -/
def mapReserve (sp p a b : Nat) (s : State) : PortOut :=
  if 8 ≤ (reservesOf s sp p).length then { st := s, cond := [(4, true)] }
  else
    let old := rangeUnits (reservesOf s sp p)
    let o := stageWrite sp (.reserve p a b) s
    let more := rangeUnits (reservesOf o.st sp p) - old
    { o with st := modTruss sp (fun t => { t with remain := lset t.remain p (capacityLeft t p - more) }) o.st }
def mapWindow (sp p : Nat) (ranging : Bool) (o start : Nat) (s : State) : PortOut :=
  if structsPer p ≤ (((entriesOf s sp p).map (·.alloc)).eraseDups).length + windowsOf s sp p then { st := s, cond := [(4, true)] }
  else stageWrite sp (.window p ranging o start) s

/-- A port operation; `own` is the slice of the open call that makes it. -/
def portOp (sp port op pa pd param : Nat) (own : Option Nat) (s : State) : PortOut :=
  let foreign := match own with | some k => (allocAt s sp pa).isSome && allocOwner s sp pa ≠ k | none => false
  let refused : PortOut := { st := s, cond := [(4, true)] }
  match port, op with
  | 1, 0 => selectAlloc sp pa s
  | 1, 1 => if 12 < param then { st := s, undef := some "R282" } else { st := s, pd := some (recordWords s sp pa param) }
  | 1, 2 => if own.isSome && (param < 12 || 15 < param) then refused else if 15 < param then { st := s, undef := some "R282" }
            else if foreign then { st := s, undef := some "R299" } else stageWrite sp (.record pa param (wd pd)) s
  | 2, 0 => srfRead sp true s
  | 2, 1 => srfRead sp false s
  | 3, 0 => budgetRead sp s
  | 4, 0 => tmRead sp pa s
  | 5, 0 => if own.isSome && (param < 8 || 11 < param) then refused else if 11 < param then { st := s, undef := some "R282" }
            else if foreign then { st := s, undef := some "R299" } else stageWrite sp (.inc pa param pd) s
  | 6, 0 => if param / 4 % 4 = 3 then { st := s, undef := some "R284" } else mapStage sp pa pd param own s
  | 6, 1 => if own.isSome then refused else if param % 4 = 3 then { st := s, undef := some "R282" } else mapReserve sp (param % 4) pa pd s
  | 6, 2 => if own.isSome then refused else if param % 4 = 3 then { st := s, undef := some "R282" } else mapWindow sp (param % 4) (param.testBit 2) pa pd s
  | 6, 3 => mapQuery sp pa s
  | _, _ => { st := s }

/-! ### Open calls (R286 to R293) -/

/-- The open bank's active image. -/
def openImage (s : State) : Option OpenPage := if s.pon.openOff then none else s.pon.active

/-- The entry address and the CALL_LIMIT that a slice's allocations are called at, none where no call is made (R287). -/
def openEntry (s : State) (slice : Nat) : Option (Nat × Nat) :=
  match openImage s, kget s.pon.binds slice with
  | some img, some (e, limit) => (img.entries[e]?).map fun off => (0x1800 + off, limit)
  | _, _ => none

/-- The word of a control store at an address (R272): the vendor bank below 0x1800, the active open page from there; words beyond
what is loaded are 0. -/
def storeWord (t : Truss) (addr : Nat) : BitVec 192 :=
  if addr < 0x1800 then t.store.getD addr 0 else match t.page with | some g => g.words.getD (addr - 0x1800) 0 | none => 0

/-- Notes a figure of the routine that runs. -/
def modFig (sp : Nat) (f : TFigures → TFigures) (s : State) : State := modTruss sp (fun t => { t with now := f t.now }) s

/-- S5 to S31 at the start of a call: open, because they hold no value from one call to the next (R290; assumption 3). -/
def openScratch (free : Nat) (m : KMap Word) : KMap Word := (List.range 27).foldl (fun m i => kset m (5 + i) (Config.freeWord (free + i))) m

/-- A call of an allocation's entry begins: the commit records the entry as the resume point. `ret` is pushed, `back` is where the
caller goes on if the call is ended (R281, R292). -/
def beginCall (sp a slice entry limit ret back : Nat) (pass2 vendor : Bool) (s : State) : State :=
  let s := modTruss sp (fun t =>
    let c : OpenCall := {
      alloc := a, slice := slice, limit := limit, pass2 := pass2, steps := 0, depth := t.regs.stack.length + 1, back := back, vendor := vendor, by_ := t.entry }
    { t with
      savedCall := t.savedCall.map (·.upTo t.call)
      regs := { t.regs with
        stack := ret :: t.regs.stack, cond := setC (setC (setC t.regs.cond 9 pass2) 3 false) 11 c.near, scratch := openScratch s.free t.regs.scratch }
      call := some c
      addr := entry }) { s with free := s.free + 27 }
  let s := commitAll sp entry s
  cnt (cSliceSpan 0 slice sp) 1 (modFig sp (fun g => { g with calls := kmod g.calls slice 0 (· + 1) }) s)

/-- A call is over: its figures, and what it leaves of the registers; a resume point within it keeps its steps. -/
def closeCall (sp : Nat) (c : OpenCall) (ended : Bool) (s : State) : State :=
  let s := modTruss sp (fun t => { t with call := none, savedCall := t.savedCall.map (·.upTo (some c)), regs := { t.regs with cond := setC (setC t.regs.cond 9 false) 11 false } }) s
  modFig sp (fun g => { g with maxSteps := kmod g.maxSteps c.slice 0 (max c.steps), ended := if ended then kmod g.ended c.slice 0 (· + 1) else g.ended }) s

end Sys2Proof.Machine
end

