-- ==== Sys2Proof/Machine/Routine.lean ====
section
/-! DEFINITION. The frame routine: its input latch, the vendor routine interval by interval, the micro-words that run, FINISH,
the map cutoff and the packer (chapter 07, R246, R264, R276, R286 to R298). -/

namespace Sys2Proof.Machine

/-! ### Start and input latch (R239) -/

/-- Slice budgets of a Span by 3 × slice + Pier. -/
def budgetsOf (s : State) (sp : Nat) : KMap Nat :=
  (List.range 48).filterMap fun k => let b := budgetOf s (k / 3) sp (k % 3); if b = 0 then none else some (k, b)

/-- What the input latch fixes of an allocation; one taken back while the last routine ran is forgotten now. A burst counts as received
since the last grant until a later routine grants again (R282; assumption 87). POLL_AGE counts this frame, whatever the last map held
(R283). -/
def latchAlloc (x : Alloc) : Alloc :=
  let x := if x.stale then x.forget else x
  let hist := match x.report with
    | some (_, f) => x.hist.filter fun e => f < e.1
    | none => x.hist.drop (x.hist.length - 64)
  { x with latched := x.report, hist := hist, pollAge := min 255 (x.pollAge + 1), tmLatch := x.tmLast, tmNew := x.tmNew || x.tmSeen, tmSeen := false }

/-- The ONUs whose PLOAMu is requested in a map (R252). -/
def ploamuIn (s : State) (sp m : Nat) : List Nat :=
  (onusOf s sp).filter fun o =>
    let x := onuOf s sp o
    (x.st = .active || x.st = .registering) && !x.adjusted && x.grantFrom ≤ m && (pierOf s sp x.pier).enable &&
      (x.ploamWait || sfcOf x.pier m % (max 1 (spanOf s sp).ploamuPeriod) = 0)

/-- The frame routine of a Span starts at the apply point that starts frame `n`; it builds the maps of frame n + 1. -/
def startRoutine (sp n : Nat) (s : State) : State :=
  let s := { s with pon := { s.pon with allocs := kmap s.pon.allocs fun k a => if k / 2048 = sp then latchAlloc a else a } }
  let s := forEach (List.range 3) (fun p s => modPier sp p (fun x => { x with staging := {} }) s) s
  let cap := (List.range 3).map fun p => if (pierOf s sp p).enable then unitsPer p else 0
  let b := budgetsOf s sp
  modTruss sp (fun t => { t with
    running := true, entry := if t.entry = 16 then 16 else 0, addr := t.entry, regs := {}, writes := [], resume := if t.entry = 16 then 16 else 0, saved := {}, savedCall := none,
    remain := cap, budget := b, heldRemain := cap, heldBudget := b, cursor := .prologue, shares := [], call := none, steps := 0, base := 0, frame := n + 1,
    faulted := false, committed := false, epilogued := false, finished := false, view := t.srf, lost := 0,
    visit := (allocsOf s sp).filter fun a => match allocOf s sp a with | some x => visitedIn s sp (n + 1) x | none => false
    ploamu := ploamuIn s sp (n + 1), splices := (onusOf s sp).filter (fun o => (onuOf s sp o).spliceOk), reach := reachOf s sp,
    ranging := (onusOf s sp).filter (fun o => (onuOf s sp o).st = .ranging), mixed := (List.range 3).filter (twoRates s sp), now := {} }) s

/-! ### Prologue: quiet windows (R264, R265) -/

/-- The slowest upstream rate that a Pier admits. -/
def slowest (s : State) (sp p : Nat) : Nat :=
  if p = 0 then ((List.range 3).find? fun r => (pierOf s sp p).hRates.testBit r).getD 0 else if p = 1 && (pierOf s sp p).xg then 1 else 0

/-- The lowest VALID profile of a rate that is no short-preamble profile. -/
def plainProf (s : State) (sp p rate : Nat) : Option Nat :=
  ((pierOf s sp p).profs.find? fun e => e.2.valid && !e.2.splice && e.2.rate = rate).map (·.1)

/-- A window whose grant goes in the map of frame `f`, at StartTime 0. -/
def windowAt (s : State) (sp p kind : Nat) (onu : Option Nat) (prof rate f : Nat) : Window :=
  let q := pierOf s sp p
  let z := zOf p rate f 0
  let r := (trussOf s sp).reach
  ⟨p, kind, onu, prof, f, z + arrivalMin q r.1 - marginPs q, z + arrivalMax q r.2 (kind = 2) + bigBurst p rate + marginPs q, false⟩

/-- Whether two windows of a Pier meet. -/
def Window.meets (a b : Window) : Bool := a.pier = b.pier && a.lo < b.hi && b.lo < a.hi

/-- A window eight maps later. -/
def Window.later (w : Window) : Window := { w with frame := w.frame + 8, lo := w.lo + 1000000000, hi := w.hi + 1000000000, broken := false }

/-- The units that a window reserves in the map of frame `m`. -/
def Window.reserves (w : Window) (teqd : Rat) (m : Nat) : Option (Nat × Nat) :=
  let base := ((125000000 * m : Nat) : Rat) + teqd
  let a := ((w.lo - base) / unitPs w.pier).floor.toNat
  let b := min (unitsPer w.pier) ((w.hi - base) / unitPs w.pier).ceil.toNat
  if a < b then some (a, b) else none

/-- Replaces the windows of a Span. -/
def setWindows (sp : Nat) (l : List Window) (s : State) : State := modSpan sp (fun v => { v with windows := l }) s

/-- A decided window that is not granted yet goes on by eight maps until it meets none of some others. -/
def Window.settle (ws : List Window) (w : Window) (fuel : Nat) : Window :=
  match fuel with
  | 0 => w
  | n + 1 => if ws.any w.meets then Window.settle ws w.later n else w

/-- Ranging windows not granted yet wait until the discovery windows and the ranging windows before them on their Pier have ended
(R265); `m` is the map that is built. -/
def settleWindows (m : Nat) (ws : List Window) : List Window :=
  let fixed := ws.filter fun w => w.kind ≠ 1 || w.frame < m
  (ws.filter fun w => w.kind = 1 && m ≤ w.frame).foldl (fun l w => l ++ [w.settle l (2 * ws.length)]) fixed

/-- The discovery windows of all enabled Piers, when a DISC_PERIOD has passed (R178). -/
def decideDiscovery (sp m : Nat) (s : State) : State :=
  let v := spanOf s sp
  if !v.discDue || v.discPeriod = 0 then s
  else
    let new := (enabledPiers s sp).filterMap fun p =>
      let r := slowest s sp p
      (plainProf s sp p r).map fun f => windowAt s sp p 2 none f r (m + 8)
    setSpan sp { v with discDue := false, windows := settleWindows (m + 1) (v.windows ++ new) } s

/-- A ranging window for the lowest RANGING ONU of a Pier that waits for one. -/
def decideRanging (sp m p : Nat) (s : State) : State :=
  let ws := (spanOf s sp).windows
  match ((trussOf s sp).ranging.filter fun o => (onuOf s sp o).pier = p).find? fun o => (onuOf s sp o).grantFrom ≤ m + 8 && !ws.any (fun w => w.onu = some o) with
  | none => s
  | some o =>
    let r := (onuOf s sp o).rate
    match plainProf s sp p r with
    | none => s
    | some f =>
      let w := windowAt s sp p 1 (some o) f r (m + 8)
      if ws.any w.meets then s else setWindows sp (ws ++ [w]) s

/-- Windows due in this map whose earlier reservations were not all committed move, all discovery windows together, and are held
against the others again; a window of an ONU that left RANGING is gone, and so is one that has ended. -/
def deferWindows (sp m : Nat) (s : State) : State :=
  let ws := (spanOf s sp).windows.filter fun w => (nowPs s : Rat) < w.hi && (w.frame < m || match w.onu with | some o => (trussOf s sp).ranging.contains o | none => true)
  let disc := ws.any fun w => w.frame = m && w.kind = 2 && w.broken
  let moves (w : Window) : Bool := w.frame = m && (w.broken || (disc && w.kind = 2))
  cnt (cSpan 9 sp) (ws.filter moves).length (setWindows sp (settleWindows (m + 1) (ws.map fun w => if moves w then w.later else w)) s)

/-- The reservations and the window grants of a Pier in the map of frame `m`. -/
def stageWindows (sp m p : Nat) (s : State) : State :=
  let s := forEach (spanOf s sp).windows (fun w s =>
    if w.pier ≠ p then s
    else match w.reserves (teqdPs s sp p) m with
      | some (a, b) => (mapReserve sp p a b s).st
      | none => s) s
  forEach ((spanOf s sp).windows.filter fun w => w.pier = p && w.frame = m) (fun w s =>
    let s := (mapWindow sp p (w.kind = 1) (w.onu.getD 0) 0 s).st
    if w.kind = 2 then cnt (cSpan 0 sp) 1 s else s) s

/-- Steps of a part of the vendor routine: an open number up to its greatest (R261; assumption 3). -/
def spend (sp most : Nat) (s : State) : State :=
  let n := Config.freeNat s.free % (most + 1)
  drawn (cnt (cSpan 8 sp) n (modFig sp (fun g => { g with steps := g.steps + n }) (modTruss sp (fun t => { t with steps := t.steps + n }) s)))

/-- Where the vendor routine goes on. -/
def setCursor (sp : Nat) (c : Cursor) (s : State) : State :=
  let ph := match c with | .prologue => 0 | .pass1 _ | .polls _ => 1 | .pass2 _ _ _ _ _ | .epilogue => 2 | .done => 0
  modTruss sp (fun t => { t with cursor := c, now := { t.now with phase := max t.now.phase ph } }) s

/-- The allocations of pass 1 in the order of visit. -/
def visitOrder (s : State) (sp : Nat) : List Nat :=
  let v := (trussOf s sp).visit
  let pick (p : Nat) (f : Alloc → Bool) : List Nat := v.filter fun a => match allocOf s sp a with | some x => x.pier = p && f x | none => false
  (List.range 3).flatMap fun p => pick p (fun x => 0 < x.rf) ++ pick p (fun x => x.rf = 0 && 0 < x.ra) ++ pick p (fun x => x.rf = 0 && x.ra = 0)

/-- The prologue: one commit interval for the three Piers. -/
def prologue (sp : Nat) (s : State) : State :=
  let m := (trussOf s sp).frame
  let ps := enabledPiers s sp
  let s := forEach ps (decideRanging sp m) (decideDiscovery sp m (deferWindows sp m s))
  let s := forEach ps (stageWindows sp m) s
  let s := modFig sp (fun g => { g with capacity := (trussOf s sp).remain }) s
  setCursor sp (.pass1 (visitOrder s sp)) (commitAll sp 0 (spend sp 6000 s))

/-! ### Pass 1 (R250 to R253, R257, R259, R263, R288) -/

/-- The shares of R251 in bytes: fixed, assured, non-assured, best effort. -/
def sharesOf (s : State) (sp : Nat) (x : Alloc) : Nat × Nat × Nat × Nat :=
  let fixed := if fixedDue sp x s then max 1 x.si * x.rf else 0
  let left := demandOf s sp x - fixed
  let assured := min x.ra left
  let na := min x.rna (left - assured)
  (fixed, assured, na, min (x.rm - fixed - assured - na) (left - assured - na))

/-- Whether the vendor routine may stage an entry for an allocation: its profile is VALID and of its ONU's rate (R253, R268), and it is a short-preamble profile only for an ONU whose Splice is usable (R140). -/
def usable (s : State) (sp : Nat) (x : Alloc) : Bool :=
  match validProf s sp x.pier (usualProf s sp x) with
  | some f => f.rate = (onuOf s sp x.onu).rate && (!f.splice || (trussOf s sp).splices.contains x.onu)
  | none => false

/-- The GrantSize unit of an allocation. -/
def gsuFor (s : State) (sp : Nat) (x : Alloc) : Nat := gsuOf x.pier (onuOf s sp x.onu).rate

/-- Entries in ascending allocation index. -/
def insertEntry' (e : Entry) (l : List Entry) : List Entry :=
  match l with
  | [] => [e]
  | f :: t => if e.alloc < f.alloc then e :: f :: t else f :: insertEntry' e t

/-- A burst to be placed: its sort key, its rate, its grant with start 0, and the units before its StartTime. -/
structure BurstPlan where
  key : Nat × Nat × Nat
  rate : Nat
  head : Nat
  idle : Nat
  grant : Grant

/-- Lexicographic order of keys. -/
def keyLt (a b : Nat × Nat × Nat) : Bool := a.1 < b.1 || (a.1 = b.1 && (a.2.1 < b.2.1 || (a.2.1 = b.2.1 && a.2.2 < b.2.2)))
def insertPlan (b : BurstPlan) (l : List BurstPlan) : List BurstPlan :=
  match l with
  | [] => [b]
  | c :: t => if keyLt b.key c.key then b :: c :: t else c :: insertPlan b t

/-- The lowest PLACE among an ONU's allocations. -/
def placeOf (s : State) (sp o : Nat) : Nat :=
  let l := (allocsOf s sp).filterMap fun a => (allocOf s sp a).bind fun x => if x.onu = o then some x.place else none
  l.foldl min 3

/-- The burst of an ONU, under the profile of its first entry (assumption 135). -/
def planOf (s : State) (sp p o : Nat) (es : List Entry) : BurstPlan :=
  let prof := (es.head?.map (·.prof)).getD 0
  let f := profFor s sp p o prof
  let es := es.foldl (fun l e => insertEntry' e l) []
  let pu := (trussOf s sp).ploamu.contains o
  let n := burstUnits p f pu ((es.map fun e => grantBytes p f.rate e.size e.dbru).sum)
  ⟨(placeOf s sp o, rateMul p f.rate, o), f.rate, headUnits p f, (es.map (·.idle)).sum,
   ⟨0, some o, 0, prof, pu, es.map (fun e => (e.alloc, e.size * gsuOf p f.rate, e.dbru)), n, n, onuOwner s sp o⟩⟩

/-- The first place at or after `start` that meets no reservation. -/
def clearOf (rs : List (Nat × Nat)) (n start fuel : Nat) : Nat :=
  match fuel with
  | 0 => start
  | k + 1 => match rs.find? fun r => start < r.2 && r.1 < start + n with
    | some r => clearOf rs n r.2 k
    | none => start

/-- Places bursts in order: those placed, and those dropped. -/
def placeAll (p : Nat) (rs : List (Nat × Nat)) (pos : Nat) (rate : Option Nat) (l : List BurstPlan) : List Grant × List BurstPlan :=
  match l with
  | [] => ([], [])
  | b :: t =>
    let sw := match rate with | some r => if r = b.rate then 0 else switchUnits p | none => 0
    let start := clearOf rs b.grant.n (pos + sw) (rs.length + 1)
    if unitsPer p < start + b.grant.n then ([], b :: t)
    else
      let (gs, ds) := placeAll p rs (start + b.grant.n) (some b.rate) t
      ({ b.grant with start := start + b.head, units := b.grant.n + sw - b.idle } :: gs, ds)

/-- The bursts of a Pier's entries in their order: one for each ONU that has more than empty entries. -/
def plansOf (s : State) (sp p : Nat) (entries : List Entry) : List BurstPlan :=
  (((entries.map (·.onu)).eraseDups).filterMap fun o =>
    let es := entries.filter fun e => e.onu = o
    if es.all fun e => e.size = 0 && !e.dbru then none else some (planOf s sp p o es)).foldl (fun l b => insertPlan b l) []

/-- The ONUs whose bursts the packer would drop of what is staged for a Pier, once committed (R246, R248). -/
def wouldDrop (s : State) (sp p : Nat) : List Nat :=
  (placeAll p (reservesOf s sp p) 0 none (plansOf s sp p ((entriesOf s sp p).foldl (fun l e => joinEntry e l) []))).2.filterMap (·.grant.onu)

/-- Whether the packer would drop no burst but some that it drops already: what open code staged may overrun a gap of the
reservations, which takes nothing from what follows but what the packer drops with it (R260, R266). -/
def packs (s : State) (sp p : Nat) (already : List Nat) : Bool := (wouldDrop s sp p).all already.contains

/-- The largest size at or above `lo` for which a test that holds at `lo` holds, by halving steps. -/
def largestOk (ok : Nat → Bool) (lo fuel : Nat) : Nat :=
  match fuel with
  | 0 => lo
  | n + 1 => largestOk ok (if ok (lo + 2 ^ n) then lo + 2 ^ n else lo) n

/-- A vendor routine stages an entry: at most what the packer still places, so that R248 never acts on it (R260, R268). -/
def stagePacked (sp a o p slice prof size : Nat) (dbru idle : Bool) (s : State) : Staging1 :=
  let try_ (n : Nat) : Staging1 := stageEntry sp a o p slice prof n dbru idle s
  let r := try_ size
  let already := wouldDrop s sp p
  if packs r.st sp p already then r
  else
    let ok (n : Nat) : Bool := n ≤ size && packs (try_ n).st sp p already
    let n := largestOk ok 0 20
    if (n = 0 && !dbru) || !ok n then ⟨s, true, false, 0, 0⟩ else try_ n

/-- The vendor routine stages a grant; every grant of a MODE 1 allocation carries the DBRu flag. -/
def vendorStage (sp a size : Nat) (idle : Bool) (s : State) : Staging1 :=
  match allocOf s sp a with
  | none => ⟨s, true, false, 0, 0⟩
  | some x => if usable s sp x then stagePacked sp a x.onu x.pier (allocOwner s sp a) (usualProf s sp x) size (x.mode = 1) idle s else ⟨s, true, false, 0, 0⟩

/-- The units that a size costs an allocation now. -/
def vendorCost (s : State) (sp a : Nat) (x : Alloc) (size : Nat) : Nat := stageCost s sp a x.onu x.pier (usualProf s sp x) (x.mode = 1) size

/-- The fixed and assured shares, each in whole GrantSize units. -/
def guarSize (s : State) (sp : Nat) (x : Alloc) : Nat :=
  let h := sharesOf s sp x
  ceilDiv h.1 (gsuFor s sp x) + ceilDiv h.2.1 (gsuFor s sp x)

/-- A poll, where one is due and the allocation has no entry in the map (R252). -/
def pollIfDue (sp a : Nat) (s : State) : State :=
  match allocOf s sp a with
  | some x =>
    if x.mode = 1 && x.poll ≤ x.pollAge && !(entriesOf s sp x.pier).any (fun e => e.alloc = a) then (vendorStage sp a 0 false s).st else s
  | none => s

/-- Stages some of the fixed and assured shares; what is missing counts as a shortage of the budget where that is what bounds it, and of
capacity where the Pier or its reservations leave no more (R257, R263). -/
def stageGuar (sp a size : Nat) (s : State) : State :=
  match allocOf s sp a with
  | none => s
  | some x =>
    if size = 0 then s
    else
      let t := trussOf s sp
      let r := vendorStage sp a size false s
      if r.size < size && usable s sp x then
        let b := budgetLeft t (allocOwner s sp a) x.pier
        let cost := vendorCost s sp a x
        cnt (cAlloc (if b < capacityLeft t x.pier && b < cost size && largestFit cost b 0 20 ≤ r.size then 4 else 3) sp a) 1 r.st
      else r.st

/-- Takes note of what an allocation brings to pass 2. -/
def bring (sp a na be : Nat) (call : Bool) (s : State) : State :=
  if na = 0 && be = 0 then s else modTruss sp (fun t => { t with shares := t.shares ++ [⟨a, na, be, 0, call, 0⟩] }) s

/-- The vendor per-allocation routine. -/
def vendorAlloc (sp a : Nat) (s : State) : State :=
  match allocOf s sp a with
  | none => s
  | some x =>
    let h := sharesOf s sp x
    bring sp a h.2.2.1 h.2.2.2 false (pollIfDue sp a (stageGuar sp a (guarSize s sp x) s))

/-- The vendor routine calls an entry with the values of R288. -/
def vendorCall (sp a entry limit : Nat) (offer : Option Nat) (s : State) : State :=
  match allocOf s sp a with
  | none => s
  | some x =>
    let k := allocOwner s sp a
    let t := trussOf s sp
    let given := (((entriesOf s sp x.pier).filter fun e => e.alloc = a).map (·.size)).sum * gsuFor s sp x
    let d := demandOf s sp x
    let o := selectAlloc sp a s
    let regs : List Word := [wd a, wd (if offer.isSome then 2 else 1), wd (offer.getD (capacityLeft t x.pier)), wd (budgetLeft t k x.pier),
                             wd (if offer.isSome then d - given else d)]
    let s := modTruss sp (fun t => { t with regs := { t.regs with
      pd := o.pd.getD [], cond := o.cond.foldl (fun c e => setC c e.1 e.2) t.regs.cond
      scratch := (List.range 5).foldl (fun m i => kset m i (regs.getD i 0)) t.regs.scratch } }) o.st
    beginCall sp a k entry limit 0 0 offer.isSome true s

/-- Pass 1 visits an allocation (R259, R266, R287). -/
def visitAlloc (sp a : Nat) (s : State) : State :=
  let s := modFig sp (fun g => { g with visited := g.visited + 1 }) (spend sp 120 s)
  match allocOf s sp a with
  | none => s
  | some x =>
    match (if x.policy then openEntry s (allocOwner s sp a) else none) with
    | some (e, limit) => vendorCall sp a e limit none s
    | none => commitAll sp 0 (vendorAlloc sp a s)

/-- An ONU with a PLOAMu request and no grant receives one (R173, R252). Its steps are the prologue's, to which R239 gives PLOAMu
requests. -/
def pollOnu (sp o : Nat) (s : State) : State :=
  let x := onuOf s sp o
  if !firstOf s sp x.pier o then s
  else
    let mine := (trussOf s sp).visit.filter fun a => match allocOf s sp a with | some y => y.onu = o | none => false
    match mine.find? (fun a => match allocOf s sp a with | some y => y.mode = 1 | none => false), mine with
    | some a, _ => (vendorStage sp a 0 false s).st
    | none, a :: _ => (vendorStage sp a 1 false s).st
    | none, [] => match plainProf s sp x.pier x.rate with
      | some f => (stagePacked sp (2048 + o) o x.pier (onuOwner s sp o) f 1 false false s).st
      | none => s

/-! ### Pass 2 (R259, R289) -/

/-- A Pier's visited allocations from its rotation pointer on. -/
def rotated (s : State) (sp p : Nat) : List Nat :=
  let v := (trussOf s sp).visit.filter fun a => match allocOf s sp a with | some x => x.pier = p | none => false
  match (pierOf s sp p).rotation with
  | some r => v.filter (r ≤ ·) ++ v.filter (· < r)
  | none => v

/-- A share by its allocation. -/
def shareOf (s : State) (sp a : Nat) : Option Share := (trussOf s sp).shares.find? fun h => h.alloc = a
def setShare (sp : Nat) (h : Share) (s : State) : State := modTruss sp (fun t => { t with shares := t.shares.map fun g => if g.alloc = h.alloc then h else g }) s

/-- The weight of an allocation in a sweep: RNA in round na, else W. -/
def sweepWeight (sweep : Nat) (x : Alloc) : Nat := if sweep ≤ 1 then x.rna else x.weight

/-- A sweep begins: at the start of a round the wants are taken anew; its shares in rotation order, C, and the sum of weights. -/
def openSweep (sp p sweep : Nat) (rest : List Nat) (c : Nat) (s : State) : State :=
  let here := (rotated s sp p).filter fun a => (shareOf s sp a).isSome
  let s := if sweep = 0 || sweep = 2 then
      forEach here (fun a s => match shareOf s sp a, allocOf s sp a with
        | some h, some x =>
          let n := ceilDiv (if sweep = 0 then h.na else h.be) (gsuFor s sp x)
          setShare sp { h with want := if n = 0 || !usable s sp x then 0 else vendorCost s sp a x n, left := n } s
        | _, _ => s) s
    else s
  let todo := here.filter fun a => match shareOf s sp a with
    | some h => 0 < (if sweep = 4 then h.want else min h.want (budgetLeft (trussOf s sp) (allocOwner s sp a) p))
    | none => false
  let wrem := (todo.map fun a => match allocOf s sp a with | some x => sweepWeight sweep x | none => 0).sum
  setCursor sp (.pass2 (p :: rest) sweep todo c wrem) s

/-- The order in which pass 2 takes the Piers. -/
def pierOrder (n : Nat) : List Nat := match n % 3 with | 0 => [0, 1, 2] | 1 => [1, 2, 0] | _ => [2, 0, 1]

/-- Pass 2 turns to the next Pier. -/
def nextPier (sp : Nat) (ps : List Nat) (s : State) : State :=
  match ps with
  | [] => setCursor sp .epilogue s
  | p :: t => openSweep sp p 0 t (capacityLeft (trussOf s sp) p) s

/-- After a sweep: the next one, the idle round where SHARE_IDLE asks for it, or the next Pier. -/
def afterSweep (sp p sweep : Nat) (rest : List Nat) (c : Nat) (s : State) : State :=
  if sweep < 3 || (sweep = 3 && (spanOf s sp).shareIdle.testBit p) then openSweep sp p (sweep + 1) rest c s else nextPier sp rest s

/-- One allocation's turn in a sweep. Once its ONU has a burst its want holds no burst overhead, and what is staged of a round never
exceeds the round's share (R251, R259). -/
def sweepTurn (sp p sweep a : Nat) (rest todo : List Nat) (c wrem : Nat) (s : State) : State :=
  match shareOf s sp a, allocOf s sp a with
  | some h, some x =>
    let h := { h with want := if h.left = 0 then 0 else min h.want (vendorCost s sp a x h.left) }
    let w := sweepWeight sweep x
    let b := budgetLeft (trussOf s sp) (allocOwner s sp a) p
    let first := sweep = 0 || sweep = 2
    let g := if first then min (min h.want (ceilDiv (c * w) (max 1 wrem))) b else if sweep = 4 then min h.want c else min (min h.want c) b
    let g := if firstOf s sp p x.onu && g < vendorCost s sp a x 0 + 1 then 0 else g
    let s := setCursor sp (.pass2 (p :: rest) sweep todo (c - g) (if first then wrem - w else wrem)) (setShare sp { h with want := h.want - g } s)
    if g = 0 then s
    else
      match (if h.call && 2 ≤ sweep then openEntry s (allocOwner s sp a) else none) with
      | some (e, limit) => vendorCall sp a e limit (some g) s
      | none =>
        let n := min h.left (largestFit (vendorCost s sp a x) g 0 20)
        let r := vendorStage sp a n (sweep = 4) s
        if n = 0 then s else commitAll sp 0 (setShare sp { h with want := h.want - g, left := h.left - r.size } r.st)
  | _, _ => setCursor sp (.pass2 (p :: rest) sweep todo c wrem) s

/-! ### Epilogue -/

/-- A rotation pointer goes on by one allocation. -/
def advanceRotation (sp p : Nat) (s : State) : State :=
  match rotated s sp p with
  | [] => s
  | a :: t => modPier sp p (fun x => { x with rotation := some (t.headD a) }) s

/-- The epilogue: rotation pointers and demand state. -/
def epilogue (sp : Nat) (s : State) : State :=
  if (trussOf s sp).epilogued then s
  else
    let s := forEach (List.range 3) (advanceRotation sp) (spend sp 2000 s)
    let s := forEach (trussOf s sp).visit (fun a s => match allocOf s sp a with | some x => setAlloc sp a { x with d := demandOf s sp x } s | none => s) s
    modTruss sp (fun t => { t with epilogued := true, now := { t.now with phase := 3 } }) (commitAll sp 0 s)

/-! ### Open calls end (R289, R292, R293) -/

/-- A call of the vendor routine has returned, with what S0 says. -/
def afterCall (sp : Nat) (c : OpenCall) (s0 : Word) (s : State) : State :=
  let s := if c.pass2 then s else bring sp c.alloc 0 (s0.toNat % 2 ^ 31) (bit s0 31) (pollIfDue sp c.alloc s)
  commitAll sp 0 s

/-- A call was ended: the allocation gets what it lacks of its fixed and assured shares, and nothing further where it lacks none
(R293; assumption 137). -/
def afterAbandon (sp : Nat) (c : OpenCall) (s : State) : State :=
  match allocOf s sp c.alloc with
  | none => s
  | some x =>
    let held := (((pierOf s sp x.pier).staging.entries.filter fun e => e.alloc = c.alloc).map (·.size)).sum
    commitAll sp c.back (cnt (cAlloc 7 sp c.alloc) 1 (stageGuar sp c.alloc (guarSize s sp x - held) s))

/-- An open call is ended by CALL_LIMIT or by a fault: its caller goes on at the RESUME of the OPEN word, with C3 clear and C10 set (R292;
assumption 137). -/
def endCall (sp : Nat) (c : OpenCall) (fault : Bool) (s : State) : State :=
  let s := closeCall sp c true (cnt (cSliceSpan (if fault then 3 else 2) c.slice sp) 1 (discard sp s))
  let s := modTruss sp (fun t => { t with addr := c.back, regs := { t.regs with
    stack := t.regs.stack.drop (t.regs.stack.length + 1 - c.depth) } }) s
  modTruss sp (fun t => { t with regs := { t.regs with cond := setC (setC t.regs.cond 3 false) 10 true } }) (afterAbandon sp c s)

/-! ### Micro-words (R276, R281, R294, R297, R298) -/

/-- Reservations that were not committed break the windows they serve; a grant not staged moves (R265). -/
def breakWindows (sp m : Nat) (s : State) : State :=
  if !(trussOf s sp).running || (trussOf s sp).cursor ≠ .prologue then s
  else
    let ws := (spanOf s sp).windows
    let due := ws.filter fun w => w.frame = m
    cnt (cSpan 9 sp) due.length (setWindows sp (settleWindows (m + 1) (ws.map fun w =>
      if w.frame = m then w.later
      else if m < w.frame && (w.reserves (teqdPs s sp w.pier) m).isSome then { w with broken := true } else w)) s)

/-- A fault of vendor code: a restart, and the second before a commit ends the routine as the cutoff does (R292). -/
def vendorFault (sp : Nat) (s : State) : State :=
  let t := trussOf s sp
  let s := discard sp s
  if t.faulted then
    raise 967 [] [wd (sp * 2 ^ 16 + t.addr)]
      (cnt (cSpan 11 sp) 1 (setCursor sp .done (breakWindows sp t.frame (modTruss sp (fun t => { t with call := none, savedCall := none, entry := 0 }) s))))
  else restart sp (modTruss sp (fun t => { t with faulted := true, entry := if t.entry = 16 then 16 else 0 }) s)

/-- What a fault does, in an open call or in the vendor bank. -/
def microFault (sp : Nat) (s : State) : State :=
  match inCall (trussOf s sp) with
  | some c => endCall sp c true s
  | none => vendorFault sp s

/-- Whether a word holds a reserved encoding (R275, R277, R278, R281, R282). -/
def reservedWord (n : Nat) : Bool :=
  4 < nfld n 178 176 || 16 < nfld n 128 124 || 77 < nfld n 123 117 || 77 < nfld n 116 110 || 77 < nfld n 93 87 || 77 < nfld n 86 80 ||
    (63 < nfld n 109 103 && nfld n 109 103 ≠ 127) || !portListed (nfld n 101 98) (nfld n 97 94)

/-- The steps of a word (R296). -/
def wordCost (n : Nat) : Nat :=
  1 + aluExtra (nfld n 128 124) + portExtra (nfld n 101 98) (nfld n 97 94) + (if nfld n 178 176 = 3 then 1 else 0) + nfld n 142 142

/-- The formed address (R280). -/
def formed (n : Nat) (c : BitVec 16) : Nat :=
  let sel (k : Nat) : Nat := let m := nfld n (160 + 5 * k) (156 + 5 * k); if m.testBit 4 && c.getLsbD (m % 16) then 2 ^ k else 0
  nfld n 191 179 ||| sel 0 ||| sel 1 ||| sel 2 ||| sel 3

/-- The condition bits after a word, before its sequencing. -/
def newCond (n : Nat) (c0 : BitVec 16) (res : Option Word × Bool) (port : List (Nat × Bool)) (near : Bool) (open_ : Bool × Bool) : BitVec 16 :=
  let c := if nfld n 102 102 = 0 then c0
    else match res.1 with
      | some r => setC (setC (setC c0 0 (r = 0)) 1 (bit r 31)) 2 res.2
      | none => setC (setC (setC c0 0 open_.1) 1 open_.2) 2 false
  let c := setC (port.foldl (fun c e => setC c e.1 e.2) c) 11 near
  (List.range 4).foldl (fun c k =>
    match (nfld n 79 76).testBit k, (nfld n 75 72).testBit k with
    | true, true => setC c (12 + k) (!c.getLsbD (12 + k))
    | true, false => setC c (12 + k) true
    | false, true => setC c (12 + k) false
    | false, false => c) c

/-- INIT has ended: the Truss waits for its next entry, or FRAME begins (R281, R286). -/
def initDone (sp : Nat) (s : State) : State := modTruss sp (fun t => { t with entry := 0, addr := 0, regs := {}, resume := 0, saved := {}, savedCall := none, call := none, base := t.steps }) s

/-- The commit of a word that is no OPEN that calls. -/
def commitIf (n sp resume : Nat) (s : State) : State := if nfld n 142 142 = 1 then commitAll sp resume s else s

/-- The sequencing of a word that has otherwise executed on `s`; `old` is the state before it, to which a fault returns. -/
def sequence (sp n : Nat) (old s : State) : State :=
  let t := trussOf s sp
  let call := inCall t
  let to_ := formed n t.regs.cond
  let ret := nfld n 155 143
  let resume := nfld n 141 129
  let outside (a : Nat) : Bool := call.isSome && a < 0x1800
  let full := 8 ≤ t.regs.stack.length || (match call with | some c => 4 ≤ t.regs.stack.length - c.depth | none => false)
  let go (a : Nat) (st : List Nat) (s : State) : State := modTruss sp (fun t => { t with addr := a, regs := { t.regs with stack := st } }) s
  match nfld n 178 176 with
  | 0 => if outside to_ then microFault sp old else commitIf n sp resume (go to_ t.regs.stack s)
  | 1 => if full || outside to_ then microFault sp old else commitIf n sp resume (go to_ (ret :: t.regs.stack) s)
  | 2 =>
    match t.regs.stack with
    | [] => if t.entry = 8 then restart sp (modTruss sp (fun t => { t with entry := 0 }) (commitIf n sp resume s)) else microFault sp old
    | a :: st =>
      match call with
      | some c =>
        if t.regs.stack.length = c.depth then
          let s := commitIf n sp a (closeCall sp c false (go a st s))
          if c.vendor then afterCall sp c (kgetD t.regs.scratch 0 0) s else s
        else if outside a then microFault sp old else commitIf n sp a (go a st s)
      | none => commitIf n sp a (go a st s)
  | 3 =>
    if call.isSome then microFault sp old
    else
      match t.regs.cur.bind fun a => (allocAt s sp a).bind fun _ => (openEntry s (allocOwner s sp a)).map fun e => (a, e) with
      | some (a, e, limit) => if full then microFault sp old else beginCall sp a (allocOwner s sp a) e limit ret resume (nfld n 71 64 % 2 = 1) false s
      | none =>
        let cond := setC t.regs.cond 3 true
        commitIf n sp resume (go (formed n cond) t.regs.stack (modTruss sp (fun t => { t with regs := { t.regs with cond := cond } }) s))
  | _ =>
    if call.isSome then microFault sp old
    else
      let s := commitIf n sp resume s
      if t.entry = 16 then initDone sp s
      else setCursor sp .done (modTruss sp (fun t => { t with entry := 0 }) s)

/-- A word executes in full as one step; a rule's name where its use is undefined. -/
def microWord (sp : Nat) (w : BitVec 192) (s : State) : State ⊕ String :=
  let n := w.toNat
  let t := trussOf s sp
  let call := inCall t
  let cost := wordCost n
  if reservedWord n then .inr (if call.isSome then "R299" else "R6")
  else match call with
    | some c => if c.limit < c.steps + cost then .inl (endCall sp c false s) else run n t call cost
    | none => run n t call cost
where
  /-- The word within its limit. -/
  run (n : Nat) (t : Truss) (call : Option OpenCall) (cost : Nat) : State ⊕ String :=
    let imm : Word × Word := (wd (nfld n 63 32), wd (nfld n 31 0))
    let src (c : Nat) : Word := source s sp imm c
    let own := call.map (·.slice)
    let res := alu (nfld n 128 124) (src (nfld n 123 117)) (src (nfld n 116 110))
    let o := portOp sp (nfld n 101 98) (nfld n 97 94) (src (nfld n 93 87)).toNat (src (nfld n 86 80)).toNat (nfld n 71 64) own s
    match o.undef with
    | some r => .inr r
    | none =>
      let near := match call with | some c => { c with steps := c.steps + cost }.near | none => false
      let dst := nfld n 109 103
      let keep := dst = 127 || (call.isSome && 32 ≤ dst)
      let s1 := modTruss sp (fun u => { u with
        steps := u.steps + cost, now := { u.now with steps := u.now.steps + cost }
        call := u.call.map fun c => if call.isSome then { c with steps := c.steps + cost } else c
        regs := { u.regs with
          scratch := match res.1 with | some r => if keep then u.regs.scratch else kset u.regs.scratch dst r | none => u.regs.scratch
          pd := match o.pd with | some l => (List.range 4).map fun i => l.getD i 0 | none => u.regs.pd
          cond := newCond n t.regs.cond res o.cond near (Config.freeBool s.free, Config.freeBool (s.free + 1)) } }) o.st
      let s1 := { s1 with free := s1.free + 4 }
      let s1 := cnt (cSpan 8 sp) cost (match call with | some c => cnt (cSliceSpan 1 c.slice sp) cost s1 | none => s1)
      .inl (sequence sp n s s1)

/-! ### The vendor routine by itself -/

/-- The vendor routine's next commit interval. -/
def vendorStep (sp : Nat) (s : State) : State :=
  let t := trussOf s sp
  match t.cursor with
  | .prologue => prologue sp s
  | .pass1 [] => setCursor sp (.polls t.ploamu) s
  | .pass1 (a :: r) => visitAlloc sp a (setCursor sp (.pass1 r) s)
  | .polls [] => nextPier sp (pierOrder (sfcOf 0 t.frame)) s
  | .polls (o :: r) => commitAll sp 0 (pollOnu sp o (setCursor sp (.polls r) s))
  | .pass2 (p :: rest) sweep (a :: r) c w => sweepTurn sp p sweep a rest r c w (spend sp 6 s)
  | .pass2 (p :: rest) sweep [] c _ => afterSweep sp p sweep rest c s
  | .pass2 [] _ _ _ _ => setCursor sp .epilogue s
  | .epilogue => setCursor sp .done (epilogue sp s)
  | .done => s

/-- TRUSS_MICROWORD: the word of the control store at the address reached. In the vendor bank, whose words are not the spec's but what
its routine computes is, the command runs by words, or the vendor routine of R259 to its next commit (assumption 85). -/
def microStep (sp : Nat) (words : Bool) (s : State) : State ⊕ String :=
  let t := trussOf s sp
  if t.entry = 0 && (!t.running || t.cursor = .done) then .inl s
  else if words || (inCall t).isSome then microWord sp (storeWord t t.addr) s
  else if t.entry = 8 then .inl (restart sp (modTruss sp (fun t => { t with entry := 0 }) (epilogue sp s)))
  else if t.entry = 16 then .inl (initDone sp s)
  else .inl (vendorStep sp s)

/-- CALL_LIMIT_REACHED (R297): acts where the next word of the call would carry it beyond its limit. -/
def callLimit (sp : Nat) (s : State) : State :=
  let t := trussOf s sp
  match inCall t with
  | some c => if (t.running || t.entry = 16) && c.limit < c.steps + wordCost (storeWord t t.addr).toNat then endCall sp c false s else s
  | none => s

/-- FINISH_ENTRY (R286, R292). -/
def finishEntry (sp : Nat) (s : State) : State :=
  let t := trussOf s sp
  if !t.running || t.cursor = .done || t.entry ≠ 0 || t.finished || (spanOf s sp).finishLead = 0 then s
  else cnt (cSpan 12 sp) 1 (modTruss sp (fun t => { t with entry := 8, addr := 8, finished := true, regs := { t.regs with stack := [] } }) (discard sp s))

/-- TRUSS_INIT_ENTRY (R286). -/
def initEntry (sp : Nat) (s : State) : State :=
  let v := spanOf s sp
  if v.st = .closed || v.standby || (v.truss.running && v.truss.cursor ≠ .prologue) then s
  else modTruss sp (fun t => { t with entry := 16, addr := 16, regs := {}, resume := 16, saved := {}, savedCall := none, call := none }) s

/-! ### The packer (R243, R246 to R248) -/

/-- The window grants of a map. -/
def windowGrants (s : State) (sp p m : Nat) : List Grant :=
  (pierOf s sp p).staging.windows.map fun w =>
    let prof := match (spanOf s sp).windows.find? fun x => x.pier = p && x.kind = w.1 && x.frame = m with
      | some x => x.prof
      | none => (((pierOf s sp p).profs.find? fun e => e.2.valid).map (·.1)).getD 0
    ⟨w.1, w.2.1, w.2.2, prof, false, [], 0, 0, 0⟩

/-- The map of a Pier from its committed entries, and the bursts that did not fit. -/
def packMap (s : State) (sp p m : Nat) : PMap × List BurstPlan :=
  let st := (pierOf s sp p).staging
  let (gs, ds) := placeAll p st.reserves 0 none (plansOf s sp p st.entries)
  ({ grants := windowGrants s sp p m ++ gs, reserved := rangeUnits st.reserves }, ds)

/-- What a sealed map tells its allocations: payload granted, and frames since a DBRu. -/
def noteGrants (sp p m : Nat) (gs : List Grant) (s : State) : State :=
  let as := gs.flatMap (·.allocs)
  forEach ((trussOf s sp).visit) (fun a s => match allocOf s sp a with
    | none => s
    | some x =>
      if x.pier ≠ p then s
      else match as.find? fun g => g.1 = a with
        | some g => setAlloc sp a { x with tmNew := false, hist := x.hist ++ [(m, g.2.1)], pollAge := if g.2.2 then 0 else x.pollAge } s
        | none => s) s

/-- Seals and packs a Pier's buffer (R136, R245). -/
def sealPier (sp m p : Nat) (s : State) : State :=
  if !(trussOf s sp).committed then modPier sp p (fun x => { x with next := none, staging := {} }) s
  else
    let (map, ds) := packMap s sp p m
    let s := forEach ds (fun b s => forEach b.grant.served (fun a s => cnt (cAlloc 6 sp a.1) 1 s) s) s
    noteGrants sp p m map.grants (modPier sp p (fun x => { x with next := some { map with profs := x.profs }, staging := {}, reserved := map.reserved }) s)

/-- A map as a MAP record carries it. -/
def mapData (p : Nat) (m : PMap) : List Nat :=
  [p, m.reserved] ++ m.grants.flatMap fun g => [g.kind, g.onu.getD 0x1FF, g.start, g.prof, g.n] ++ g.allocs.flatMap fun a => [a.1, a.2.1]

/-- The words of an ALLOC record (R510, R524). -/
def allocData (s : State) (sp a : Nat) : List Nat :=
  a :: (([5, 6, 7, 8] ++ if s.red.pair.format = 2 then [] else [12, 13, 14, 15]).map fun n => (recordWord s sp a n).toNat)

/-- The ALLOC record of an allocation. -/
def mirrorAlloc (sp a : Nat) (s : State) : State :=
  match allocOf s sp a with
  | some x => let ws := allocData s sp a; mirrorSpan 3 sp ws (setAlloc sp a { x with sent := ws } s)
  | none => s

/-- The MAP, ONU and ALLOC records of a frame: an allocation's where its words differ from those last sent (R510). -/
def mirrorFrame (sp m : Nat) (s : State) : State :=
  if !mirrors s sp then s
  else
    let maps := (enabledPiers s sp).filterMap fun p => (pierOf s sp p).next.map fun x => (p, x)
    let s := mirrorSpan 1 sp ((m % 2 ^ 51) :: maps.flatMap fun e => mapData e.1 e.2) s
    let os := (maps.flatMap fun e => e.2.grants.filterMap (·.onu)).eraseDups
    let s := forEach os (mirrorOnu sp) s
    forEach ((allocsOf s sp).filter fun a => match allocOf s sp a with | some x => x.sent ≠ allocData s sp a | none => false) (mirrorAlloc sp) s

/-- Whether a sealed buffer would hold an only entry of a G-pier ONU without a byte (R267). -/
def emptyEntry (s : State) (sp : Nat) : Bool :=
  let es := (pierOf s sp 2).staging.entries
  es.any fun e => e.size = 0 && !e.dbru && (es.filter fun f => f.onu = e.onu).length = 1

/-- What a map fixes for anchored entries (R233): t_exp of the first burst granted to each ONU. Bursts long past leave the list. -/
def anchorMap (sp p m : Nat) (gs : List Grant) (s : State) : State :=
  let now := nowPs s
  let os := (gs.filterMap fun g => if g.kind = 0 then g.onu else none).eraseDups
  let new := os.filterMap fun o => (gs.find? fun g => g.kind = 0 && g.onu = some o).map fun g =>
    (⟨p, 512 * sp + o, burstKey m g.start, (searchWindow s sp p ⟨g, m, profAt s sp p g.prof⟩).2.2⟩ : Anchor)
  setTime { s.time with anchored := (s.time.anchored.filter fun a => ((now : Nat) : Rat) < a.at_ + 1000000000) ++ new } s

/-- MAP_CUTOFF (R245, R262). -/
def mapCutoff (sp : Nat) (s : State) : State :=
  let t := trussOf s sp
  if !t.running then s
  else
    let lost := ((t.writes.filterMap fun w => match w with | .stage _ e => if e.alloc < 2048 then some e.alloc else none | _ => none).eraseDups)
    let some_ := t.writes.any fun w => match w with | .stage _ _ | .reserve _ _ _ | .window _ _ _ _ => true | _ => false
    let s := forEach lost (fun a s => cnt (cAlloc 5 sp a) 1 s) s
    let s := if some_ then cnt (cSpan 7 sp) 1 s else s
    let s := forEach (openCalls t) (fun c s => closeCall sp c false s) s
    let s := breakWindows sp t.frame (discard sp s)
    let s := forEach (enabledPiers s sp) (sealPier sp t.frame) s
    let s := forEach (enabledPiers s sp) (fun p s => anchorMap sp p t.frame (match (pierOf s sp p).next with | some m => m.grants | none => []) s) s
    let s := modTruss sp (fun t => { t with running := false, entry := 0, cursor := .done, shares := [], last := t.now }) s
    mirrorFrame sp t.frame (gaugeMax (cSpan 15 sp) (t.steps - t.base) s)

end Sys2Proof.Machine
end

