-- ==== Sys2Proof/Machine/SpanCalls.lean ====
section
/-! DEFINITION. The calls of families 0x02 and 0x03: Spans, Piers, profiles, defects, Splices, ONUs, discovery, ranging and the
standby delta (R166 to R169, R207 to R210, R561). -/

namespace Sys2Proof.Machine

/-! ### Family 0x02 -/

/-- The mask of the Piers that pass a test, at bit `lo`. -/
def pierBits (f : Nat → Bool) (lo : Nat) : Word := put (bitsOf ((List.range 3).map f)) lo

/-- The code of a Span's state (R168). -/
def SpanSt.code : SpanSt → Nat
  | .closed => 0 | .opening => 1 | .opened => 2 | .closing => 3

/-- `SPAN_STATUS`. -/
def spanStatus (ws : List Word) (s : State) : List Word :=
  let sp := fld (pw ws 0) 4 0
  let v := spanOf s sp
  let p (f : Pier → Bool) (n : Nat) : Bool := f (pierOf s sp n)
  [pierBits (p (·.enable)) 8 ||| putb v.openPending 4 ||| wd v.st.code,
   pierBits (p (·.tf)) 8 ||| pierBits (p (·.txLol)) 4 ||| pierBits (p (·.los)) 0,
   wd (((onusOf s sp).filter fun o => (onuOf s sp o).st = .active).length)]

/-- BAD_ARG for PIER 3. -/
def needPier (w : Word) : Res Unit := need (fld w 1 0 ≤ 2) .badArg

/-- `PIER_CONFIG` (R166). -/
def pierConfig : TxnCall where
  spec := { code := 0x0210, who := .slice0, lens := [5], used := [0xFFFFFFFF, 0x1F03, 0x80000117, 0x1FFF, 0xFFFFFFFF] }
  objs _ i := do
    let v := pw i.words 2
    let p := fld (pw i.words 1) 1 0
    needPier (pw i.words 1)
    need ((p = 2 || bit v 8) && (p = 1 || !bit v 4) && (p = 0 || fld v 2 0 = 0)) .badArg
    need (1 ≤ fld (pw i.words 3) 12 0 && fld (pw i.words 3) 12 0 ≤ 8000) .badArg
    return [⟨.pier, pierIx (pw i.words 1)⟩]
  apply i s := do
    let (sp, p) := pierName (pw i.words 1)
    let v := pw i.words 2
    let x := pierOf s sp p
    let same := x.enable = bit v 31 && x.fecDs = bit v 8 && x.xg = bit v 4 && x.hRates = fld v 2 0
    need (same || (spanOf s sp).st = .closed) .badState
    return setPier sp p { x with enable := bit v 31, fecDs := bit v 8, xg := bit v 4, hRates := fld v 2 0, bpCycle := fld (pw i.words 3) 12 0, ponId := pw i.words 4 } s

/-- The shortest preamble of a rate (R141). -/
def minReps (p rate : Nat) (splice : Bool) : Nat :=
  match p, rate with
  | 0, 0 => if splice then 2 else 12
  | 0, 1 => if splice then 4 else 24
  | 0, _ => if splice then 8 else 48
  | 1, 0 => 3
  | 1, _ => 2
  | _, _ => 6

/-- Whether a profile lies inside the values of R140. -/
def profOk (p ix : Nat) (f : BProf) : Bool :=
  (p ≠ 2 || ix = 0) && f.rate ≤ (if p = 0 then 2 else if p = 1 then 1 else 0) && (p = 0 || !f.splice) &&
    minReps p f.rate f.splice ≤ f.reps && (p ≠ 2 || f.reps ≤ 16) &&
    (match p with
      | 0 => f.delimBits = 64 && f.dmax ≤ 12
      | 1 => (f.delimBits = 32 && f.dmax ≤ 6) || (f.delimBits = 64 && f.dmax ≤ 12)
      | _ => f.delimBits = 24 && f.dmax ≤ 4)

/-- `PIER_PROFILE_SET` (R140, R143). -/
def pierProfileSet : TxnCall where
  spec := {
            code := 0x0211, who := .slice0, lens := [8],
            used := [0xFFFFFFFF, 0x1F03, 0x00030719, 0x0F00FF7F, 0xFFFFFFFF, 0xFFFFFFFF, 0xFFFFFFFF, 0xFFFFFFFF] }
  objs _ i := do
    let ix := fld (pw i.words 2) 17 16
    needPier (pw i.words 1)
    need (profOk (fld (pw i.words 1) 1 0) ix (profOf i.words)) .badArg
    return [⟨.profile, 4 * pierIx (pw i.words 1) + ix⟩]
  apply i s :=
    let (sp, p) := pierName (pw i.words 1)
    .ok (modPier sp p (fun x => { x with profs := kset x.profs (fld (pw i.words 2) 17 16) (profOf i.words), announce := 3 }) s)

/-- `PIER_DEFECT_CONFIG`. -/
def pierDefectConfig : TxnCall where
  spec := { code := 0x0212, who := .slice0, lens := [4], used := [0xFFFFFFFF, 0x1F03, 0x0F0F0F0F, 0xFF00FFFF] }
  objs _ i := do
    let v := pw i.words 2
    let sd := fld v 19 16
    let sf := fld v 11 8
    needPier (pw i.words 1)
    need (1 ≤ fld v 27 24 && 3 ≤ sd && sd ≤ 9 && 2 ≤ sf && sf ≤ 6 && sf < sd) .badArg
    need (8 ≤ fld (pw i.words 3) 31 24 && fld (pw i.words 3) 31 24 ≤ 128 && fld (pw i.words 3) 15 0 ≤ 60000) .badArg
    return [⟨.defectCfg, pierIx (pw i.words 1)⟩]
  apply i s :=
    let (sp, p) := pierName (pw i.words 1)
    let v := pw i.words 2
    .ok (modPier sp p (fun x =>
      { x with
        lobN := fld v 27 24, sdExp := fld v 19 16, sfExp := fld v 11 8, auto := bit v 3, protMask := fld v 2 0,
        losFrames := fld (pw i.words 3) 31 24, lobDeact := fld (pw i.words 3) 15 0 }) s)

/-- `ONU_DEFECT_READ`. -/
def onuDefectRead (ch : Nat) (ws : List Word) (s : State) : Res (List Word) := do
  let (sp, o) := onuName (pw ws 0)
  needOnu s ch (pw ws 0)
  let x := onuOf s sp o
  return [put x.pier 16 ||| wd x.defects.toNat] ++ toWords 2 x.sdLast.1 ++ toWords 2 x.sdLast.2

/-- `SPLICE_CONFIG`. -/
def spliceConfig : TxnCall where
  spec := { code := 0x0221, who := .slice0, intro := 0x0300, lens := [4], used := [0xFFFFFFFF, 0x1F03, 0x000F03FF, 0xFF] }
  objs _ i := do
    let v := pw i.words 2
    need (fld (pw i.words 1) 1 0 = 0 && 1 ≤ fld v 19 16 && 1 ≤ fld v 9 0 && fld v 9 0 ≤ 1000 && 40 ≤ fld (pw i.words 3) 7 0 && fld (pw i.words 3) 7 0 ≤ 160) .badArg
    return [⟨.spliceCfg, pierIx (pw i.words 1)⟩]
  apply i s :=
    let (sp, p) := pierName (pw i.words 1)
    let s := modPier sp p (fun x => { x with spliceFails := fld (pw i.words 2) 19 16, spliceAge := fld (pw i.words 2) 9 0, spliceMse := fld (pw i.words 3) 7 0 }) s
    .ok (forEach (onusOf s sp) (judgeSplice sp) s)

/-- The ONU of a word that names ONU, SPAN and PIER. -/
def spliceName (w : Word) : Nat × Nat := (fld w 12 8, fld w 24 16)

/-- `SPLICE_CLEAR` (R149); ownership is judged first (R210, R560). -/
def spliceClear : TxnCall where
  spec := { code := 0x0222, who := .bound, intro := 0x0300, lens := [2], used := [0xFFFFFFFF, 0x01FF1F03] }
  objs s i := do
    let (sp, o) := spliceName (pw i.words 1)
    needOwnerAs i.slice (onuOwner s sp o)
    need (fld (pw i.words 1) 1 0 = 0) .badArg
    return [⟨.onu, 512 * sp + o⟩]
  apply i s := let (sp, o) := spliceName (pw i.words 1); .ok (spliceClearAt sp o s)

/-- `SPLICE_READ` (R168, R169). The AGE of a Splice that no burst has written is 0xFFFF, the model's choice (assumption 132). -/
def spliceRead (ws : List Word) (s : State) : Res (List Word) := do
  let (sp, o) := spliceName (pw ws 0)
  need (fld (pw ws 0) 1 0 = 0) .badArg
  let x := onuOf s sp o
  let y := x.splice
  let tap (n : Nat) (lo : Nat) : Word := put (y.ffe.getD n 0).toNat lo
  let four (n : Nat) : Word := tap (n + 3) 24 ||| tap (n + 2) 16 ||| tap (n + 1) 8 ||| tap n 0
  let age := if x.spliceAt = 0 && !y.valid then 0xFFFF else min 0xFFFF ((s.tb - x.spliceAt) / (1000 * us))
  return [four 0, four 4, four 8, put y.mse.toNat 24 ||| tap 14 16 ||| tap 13 8 ||| tap 12 0,
          putb y.valid 31 ||| put y.phase.toNat 24 ||| put y.gain.toNat 16 ||| put y.dfe2.toNat 8 ||| wd y.dfe1.toNat,
          put (min 15 x.failRun) 20 ||| putb x.spliceOk 16 ||| wd age]

/-! ### Family 0x03 -/

/-- Whether an allocation, a port record or an L1 node of an ONU was created under another Pier (R561). -/
def pierClash (s : State) (sp o p : Nat) : Bool :=
  (s.pon.allocs.any fun e => e.1 / 2048 = sp && e.2.onu = o && e.2.pier ≠ p) ||
  (s.fwd.ports.any fun e => e.1 / 8192 = sp && e.2.onu = o && e.2.pier ≠ p) ||
  s.fwd.l1.any fun e => match e.2.kind with | .onu a b q => a = sp && b = o && q ≠ p | _ => false

/-- The expected entry that an `ONU_EXPECT_SET` gives. -/
def expectOf (ws : List Word) : Expected :=
  ⟨fld (pw ws 1) 1 0, BitVec.ofNat 64 (wide ws 3 2), bit (pw ws 2) 0, bit (pw ws 2) 1, bytesOfWords ((ws.drop 5).take 9)⟩

/-- `ONU_EXPECT_SET` (R176, R181, R210, R561). On an index that is not INACTIVE it applies as R176 states. -/
def onuExpectSet : TxnCall where
  spec := { code := 0x0301, who := .bound, lens := [14], used := [0xFFFFFFFF, 0x01FF1F03, 0x3] ++ List.replicate 11 0xFFFFFFFF }
  objs s i := do
    let (sp, o) := spliceName (pw i.words 1)
    needOwnerAs i.slice (onuOwner s sp o)
    needPier (pw i.words 1)
    return [⟨.onuExpect, 512 * sp + o⟩]
  apply i s := do
    let (sp, o) := spliceName (pw i.words 1)
    let e := expectOf i.words
    need (!pierClash s sp o e.pier) .badState
    let moved := match (onuOf s sp o).expect with | some f => f.serial ≠ e.serial || f.pier ≠ e.pier || f.reg ≠ e.reg | none => true
    let s := if moved then expectChanged sp o s else s
    return putExpected sp o (some e) s

/-- `ONU_EXPECT_DELETE` (R176). -/
def onuExpectDelete : TxnCall where
  spec := { code := 0x0302, who := .bound, lens := [2], used := [0xFFFFFFFF, 0x01FF001F] }
  objs s i := do
    needOnu s i.chan (pw i.words 1)
    return [⟨.onuExpect, onuIx (pw i.words 1)⟩]
  apply i s := do
    let (sp, o) := onuName (pw i.words 1)
    need (onuOf s sp o).expect.isSome .badState
    return putExpected sp o none (expectChanged sp o s)

/-- `ONU_STATE_READ`. -/
def onuStateRead (ch : Nat) (ws : List Word) (s : State) : Res (List Word) := do
  let (sp, o) := onuName (pw ws 0)
  needOnu s ch (pw ws 0)
  let x := onuOf s sp o
  let (serial, pier) := match x.st, x.expect with | .inactive, some e => (e.serial, e.pier) | _, _ => (x.serial, x.pier)
  return [put x.st.code 24 ||| put pier 16 ||| wd (x.onuId.getD 0x3FF), wd x.cause] ++ toWords 2 serial.toNat

/-- `ONU_AUTHORISE` (R174, R183, R209, R560). For a DISABLED index ENTRY is ignored, and a registration ID that the call gives replaces
that of its expected entry (assumption 35). A standby takes the outcome from the ONU's record (R173, R510). -/
def onuAuthorise : TxnCall where
  spec := { code := 0x0304, who := .bound, lens := [3, 12], used := [0xFFFFFFFF, 0x3F, 0x81FF001F] ++ List.replicate 9 0xFFFFFFFF }
  objs s i := do
    needOnu s i.chan (pw i.words 2)
    return [⟨.onuExpect, onuIx (pw i.words 2)⟩]
  apply i s := do
    let (sp, o) := onuName (pw i.words 2)
    let accept := bit (pw i.words 2) 31
    let n := fld (pw i.words 1) 5 0
    let x := onuOf s sp o
    let check := i.words.length = 12
    let reg := bytesOfWords (i.words.drop 3)
    if (spanOf s sp).standby then .ok s
    else if x.st = .disabled then do
      need accept .badState
      let s := if check then putExpected sp o (x.expect.map fun e => { e with regCheck := true, reg := reg }) s else s
      return setOnuSt sp o .inactive 0 (serialMsg sp o false s)
    else match kget (spanOf s sp).disc n with
      | none => .error .badArg
      | some e => do
        need (e.cause = 1 || i.slice = some 0) .notOwner
        need (x.st = .inactive || (x.st = .held && e.onu = some o)) .badState
        need (!accept || !pierClash s sp o e.pier) .badState
        let s := modSpan sp (fun v => { v with disc := kerase v.disc n }) s
        if accept then
          return modOnu sp o (fun x => { x with accepted := true })
            (putExpected sp o (some ⟨e.pier, e.serial, true, check, if check then reg else List.replicate 36 0⟩) s)
        else
          let s := modOnu sp o (fun x => { x with serial := e.serial, pier := e.pier }) s
          return leaveTo sp o .disabled 0 true (serialMsg sp o true s)

/-- `ONU_DEACTIVATE` (R174, R209): also on an index that is HELD or DEACTIVATING (assumption 35). A standby takes the outcome from the
ONU's record (R173, R510). -/
def onuDeactivate : TxnCall where
  spec := { code := 0x0305, who := .bound, lens := [2], used := [0xFFFFFFFF, 0x81FF001F] }
  objs s i := do
    needOnu s i.chan (pw i.words 1)
    return [⟨.onu, onuIx (pw i.words 1)⟩]
  apply i s := do
    let (sp, o) := onuName (pw i.words 1)
    let st := (onuOf s sp o).st
    need ((spanOf s sp).standby || (st ≠ .inactive && st ≠ .disabled)) .badState
    return deactivate sp o (bit (pw i.words 1) 31) s

/-- `DISC_LIST_READ`: slices other than 0 see the entries of cause UNKNOWN. -/
def discListRead (ch : Nat) (ws : List Word) (s : State) : List Word :=
  let v := spanOf s (fld (pw ws 0) 4 0)
  let start := fld (pw ws 0) 13 8
  let l := (v.disc.filter fun e => start ≤ e.1 && (e.2.cause = 1 || actingSlice s ch = some 0)).take 4
  wd l.length :: l.flatMap fun e => (put e.1 24 ||| put e.2.pier 16 ||| wd e.2.cause) :: toWords 2 e.2.serial.toNat

/-- `DISCOVERY_CONFIG`. -/
def discoveryConfig : TxnCall where
  spec := { code := 0x0310, who := .slice0, lens := [3], used := [0xFFFFFFFF, 0x1F, 0xFFFF0103] }
  objs _ i := do
    need (fld (pw i.words 2) 31 16 ≤ 60000 && fld (pw i.words 2) 1 0 ≤ 2) .badArg
    return [⟨.discovery, fld (pw i.words 1) 4 0⟩]
  apply i s := do
    let w := pw i.words 2
    need (fld w 1 0 ≠ 2 || lanRole s = 1) .badState
    return modSpan (fld (pw i.words 1) 4 0) (fun v => { v with discPeriod := fld w 31 16, rogueIsolate := bit w 8, policy := fld w 1 0 }) s

/-- `RANGE_CAL_SET` (R187, R188): what changes nothing may be given at any time. -/
def rangeCalSet : TxnCall where
  spec := { code := 0x0311, who := .slice0, lens := [5], used := [0xFFFFFFFF, 0x1F03, 0xFFFFFFFF, 0x1FFFFF, 0x1FFFFF] }
  objs _ i := do
    let ok (w : Word) : Bool := 1400000 ≤ fld w 20 0 && fld w 20 0 ≤ 1550000
    needPier (pw i.words 1)
    need (ok (pw i.words 3) && ok (pw i.words 4)) .badArg
    return [⟨.rangeCal, pierIx (pw i.words 1)⟩]
  apply i s := do
    let (sp, p) := pierName (pw i.words 1)
    let x := pierOf s sp p
    let y := { x with tTx := fld (pw i.words 2) 31 16, tRx := fld (pw i.words 2) 15 0, nDown := fld (pw i.words 3) 20 0, nUp := fld (pw i.words 4) 20 0 }
    need (y = x || (spanOf s sp).st = .closed) .badState
    return setPier sp p y s

/-- `REACH_CONFIG` (R188, R195). -/
def reachConfig : TxnCall where
  spec := { code := 0x0312, who := .slice0, intro := 0x0300, lens := [4], used := [0xFFFFFFFF, 0x1F, 0xFFFFFFFF, 0xFFFFFFFF] }
  objs _ i := do
    let lo := fld (pw i.words 2) 15 0
    let hi := fld (pw i.words 2) 31 16
    let d := fld (pw i.words 3) 31 16
    need (lo ≤ 59000 && lo + 1000 ≤ hi && hi ≤ 60000 && 1000 ≤ d && d ≤ 60000 && fld (pw i.words 3) 15 0 ≤ 2000) .badArg
    return [⟨.reach, fld (pw i.words 1) 4 0⟩]
  apply i s := do
    let sp := fld (pw i.words 1) 4 0
    let v := spanOf s sp
    let u := { v with
      reachMax := fld (pw i.words 2) 31 16, reachMin := fld (pw i.words 2) 15 0, diff := fld (pw i.words 3) 31 16, reachMargin := fld (pw i.words 3) 15 0 }
    need (u = v || v.st = .closed) .badState
    return if u = v then s else mirrorSpanRec sp (setSpan sp u s)

/-- `REACH_READ`. -/
def reachRead (ws : List Word) (s : State) : List Word :=
  let sp := fld (pw ws 0) 4 0
  let (lo, hi) := (reachSeen s sp).getD (0xFFFF, 0xFFFF)
  let (dlo, dhi) := reachOf s sp
  [put (min hi 0xFFFF) 16 ||| wd (min lo 0xFFFF), put dhi 16 ||| wd dlo] ++ (List.range 3).map fun p => wd (pierOf s sp p).teqd

/-- `DRIFT_CONFIG` (R198 to R201). -/
def driftConfig : TxnCall where
  spec := { code := 0x0314, who := .slice0, intro := 0x0201, lens := [4], used := [0xFFFFFFFF, 0x1F03, 0x0F7F007F, 0x80003FFF] }
  objs _ i := do
    let w := pw i.words 2
    let d := fld (pw i.words 3) 13 0
    needPier (pw i.words 1)
    need (fld w 27 24 ≤ 8 && 1 ≤ fld w 22 16 && fld w 22 16 ≤ 64 && 1 ≤ fld w 6 0 && fld w 6 0 ≤ 64 && 1 ≤ d && d ≤ 10000) .badArg
    return [⟨.drift, pierIx (pw i.words 1)⟩]
  apply i s :=
    let (sp, p) := pierName (pw i.words 1)
    let w := pw i.words 2
    .ok (modPier sp p (fun x =>
      { x with driftK := fld w 27 24, corrUnits := fld w 22 16, margin := fld w 6 0, dfRerange := bit (pw i.words 3) 31, driftMax := fld (pw i.words 3) 13 0 }) s)

/-- Picoseconds rounded to a whole number, as a signed word. -/
def psWord (q : Rat) : Word := wd (unsgn 32 (roundAway q))

/-- `ONU_RANGE_READ`. -/
def onuRangeRead (ch : Nat) (ws : List Word) (s : State) : Res (List Word) := do
  let (sp, o) := onuName (pw ws 0)
  needOnu s ch (pw ws 0)
  let x := onuOf s sp o
  need (x.st = .registering || x.st = .active || x.st = .deactivating) .badState
  return [psWord x.rtd, wd x.eqd, psWord x.offset, wd x.distance, psWord x.cumul, psWord x.lastErr, putb x.corr.isSome 31 ||| wd x.corrections]

/-- `STBY_DELTA_CONFIG` (R204, R205). -/
def stbyDeltaConfig : TxnCall where
  spec := { code := 0x0320, who := .slice0, intro := 0x0300, lens := [3], used := [0xFFFFFFFF, 0x1F03, 0xFFFF007F] }
  objs _ i := do
    needPier (pw i.words 1)
    need (10 ≤ fld (pw i.words 2) 31 16 && fld (pw i.words 2) 6 0 ≤ 100) .badArg
    return [⟨.stbyDelta, pierIx (pw i.words 1)⟩]
  apply i s :=
    let (sp, p) := pierName (pw i.words 1)
    .ok (judgeReady sp p (modPier sp p (fun x => { x with unifTol := fld (pw i.words 2) 31 16, outlierMax := fld (pw i.words 2) 6 0 }) s))

/-- `STBY_DELTA_READ`. -/
def stbyDeltaRead (ws : List Word) (s : State) : Res (List Word) := do
  let (sp, p) := pierName (pw ws 0)
  needPier (pw ws 0)
  need ((spanOf s sp).paired && (spanOf s sp).standby) .badState
  let x := pierOf s sp p
  let m := measured s sp p
  let c : Rat := (deltaC s sp p).getD 0
  let out := (m.filter (outlier s sp p)).length
  let have_ := (deltaC s sp p).isSome
  return [putb (readyNow s sp p) 31 ||| put out 16 ||| wd m.length, psWord c, if have_ then psWord (deltaRt x c) else 0,
          if have_ then wd (unsgn 32 (deltaEqd p x c)) else 0]

end Sys2Proof.Machine
end

