-- ==== Sys2Proof/Machine/TrussCalls.lean ====
section
/-! DEFINITION. The calls of families 0x05 and 0x06: allocations, budgets, Trusses and the open bank (R249, R256, R270, R271, R300 to
R305). -/

namespace Sys2Proof.Machine

/-- An allocation named by ALLOC and SPAN. -/
def allocName (w : Word) : Nat × Nat := (fld w 4 0, fld w 26 16)
def needAlloc (s : State) (ch : Nat) (w : Word) : Res Unit := needOwner s ch (allocOwner s (allocName w).1 (allocName w).2)

/-- The assignable allocation IDs of a Pier's recommendation: PRESUMED from ITU-T G.9804.2, G.987.3 and G.984.3. -/
def lineOk (p line : Nat) : Bool := if p = 2 then 256 ≤ line && line ≤ 4095 else 1024 ≤ line && line ≤ 16383

/-- The allocation that an `ALLOC_SET` gives under a version. Under 2.x there is no word 8: LONG_PROF is 0 (assumption 121), and R270 gives
PLACE 1 and SHORT_PROF as LONG_PROF. -/
def allocFrom (version : Nat) (ws : List Word) (pier : Nat) : Alloc :=
  let w := pw ws 3
  let v := pw ws 8
  let old := version < 0x0300
  {
    onu := fld (pw ws 2) 24 16, pier := pier, line := fld (pw ws 2) 13 0, mode := fld w 31 30, policy := bit w 29, weight := fld w 23 16,
    poll := fld w 13 8, si := fld w 7 4, siPhase := fld w 3 0, rf := fld (pw ws 4) 19 0, ra := fld (pw ws 5) 19 0, rna := fld (pw ws 6) 19 0,
    rm := fld (pw ws 7) 19 0, place := if old then 1 else fld v 17 16, longProf := fld v 9 8, shortProf := if old then fld v 9 8 else fld v 1 0 }

/-- Whether an allocation's parameters lie in their ranges (R249). -/
def Alloc.inRange (x : Alloc) : Bool :=
  x.mode ≤ 2 && 1 ≤ x.weight && 1 ≤ x.poll && x.poll ≤ 64 && 1 ≤ x.si && x.si ≤ 16 && x.siPhase < x.si && x.rf ≤ 777600 && x.ra ≤ 777600 &&
    x.rna ≤ 777600 && x.rf + x.ra + x.rna ≤ x.rm

/-- An allocation of an ACTIVE ONU is taken back by message (R271). -/
def deallocMsg (sp a : Nat) (x : Alloc) (s : State) : State :=
  if (onuOf s sp x.onu).st = .active then queuePloam sp (onuOf s sp x.onu).pier ⟨3, some x.onu, .assignAllocId, [a, x.line, 1]⟩ s else s

/-- `ALLOC_SET` (R249, R254, R256, R271, R561). On the H-pier SHORT_PROF names a short-preamble profile; an index whose profile is not
VALID yet is no argument out of range, because R253 asks for VALID when a routine starts (assumption 138). A new
allocation that applies while Saend restarts waits for it (R240). -/
def allocSet : TxnCall where
  spec := {
            code := 0x0501, who := .bound, lens := [8, 9],
            used := [0xFFFFFFFF, 0x07FF001F, 0x01FF3FFF, 0xE0FF3FFF, 0xFFFFF, 0xFFFFF, 0xFFFFF, 0xFFFFF, 0x00030303] }
  objs s i := do
    let (sp, a) := allocName (pw i.words 1)
    needAlloc s i.chan (pw i.words 1)
    needOwnerAs i.slice (onuOwner s sp (fld (pw i.words 2) 24 16))
    need (i.words.length = if i.version < 0x0300 then 8 else 9) .badArg
    need (allocFrom i.version i.words 0).inRange .badArg
    return [⟨.alloc, 2048 * sp + a⟩]
  apply i s :=
    let (sp, a) := allocName (pw i.words 1)
    let o := fld (pw i.words 2) 24 16
    match pierOfOnu s sp o with
    | none => .error .badState
    | some p => do
      let x := allocFrom i.version i.words p
      need (lineOk p x.line) .badArg
      need (p ≠ 0 || i.version < 0x0300 || match validProf s sp p x.shortProf with | some f => f.splice | none => true) .badArg
      need (!(s.pon.allocs.any fun e => e.1 / 2048 = sp && e.1 % 2048 ≠ a && e.2.pier = p && e.2.line = x.line)) .noSpace
      let old := allocOf s sp a
      let same := match old with | some y => y.onu = x.onu && y.line = x.line && y.pier = x.pier | none => false
      let x := match old with
        | some y => if same then { x with
                                     told := y.told, d := y.d, report := y.report, latched := y.latched, reportFrame := y.reportFrame,
                                     hist := y.hist, pollAge := y.pollAge, lastGrant := y.lastGrant, tmBytes := y.tmBytes, tmIdle := y.tmIdle,
                                     tmSeen := y.tmSeen, tmLast := y.tmLast, tmLatch := y.tmLatch, tmNew := y.tmNew,
                                     st := if y.policy = x.policy then y.st else [0, 0, 0, 0] }
                    else x
        | none => x
      let s := match old with | some y => if same then s else deallocMsg sp a y s | none => s
      let s := setAlloc sp a x s
      return if !same && (onuOf s sp o).st = .active && s.boot.ready then tell sp o .assignAllocId [a, x.line] s else s
  post i s :=
    let (sp, a) := allocName (pw i.words 1)
    match allocOf s sp a with
    | none => .ok ()
    | some x =>
      let k := allocOwner s sp a
      need (guaranteed s sp k x.pier ≤ budgetOf s k sp x.pier &&
        (((List.range 16).map fun k => guaranteed s sp k x.pier).sum ≤ unitsPer x.pier)) .noSpace

/-- `ALLOC_DELETE`. -/
def allocDelete : TxnCall where
  spec := { code := 0x0502, who := .bound, lens := [2], used := [0xFFFFFFFF, 0x07FF001F] }
  objs s i := do
    needAlloc s i.chan (pw i.words 1)
    let (sp, a) := allocName (pw i.words 1)
    return [⟨.alloc, 2048 * sp + a⟩]
  apply i s :=
    let (sp, a) := allocName (pw i.words 1)
    match allocOf s sp a with
    | none => .error .badState
    | some x => .ok (deallocMsg sp a x { s with pon := { s.pon with allocs := kerase s.pon.allocs (2048 * sp + a) } })

/-- `ALLOC_READ`. -/
def allocRead (ch : Nat) (ws : List Word) (s : State) : Res (List Word) := do
  let (sp, a) := allocName (pw ws 0)
  needAlloc s ch (pw ws 0)
  match allocOf s sp a with
  | none => .error .badState
  | some x =>
    return [putb (visitedIn s sp (frameNo s + 1) x) 31 ||| put x.onu 16 ||| wd x.line, wd x.d, wd x.lastGrant, wd x.reportFrame]

/-- `SLICE_BUDGET_SET` (R255, R257). -/
def sliceBudgetSet : TxnCall where
  spec := { code := 0x0510, who := .slice0, lens := [5], used := [0xFFFFFFFF, 0x000F001F, 0xFFFF, 0xFFFF, 0xFFFF] }
  objs _ i := do
    need ((List.range 3).all fun p => fld (pw i.words (2 + p)) 15 0 ≤ unitsPer p) .badArg
    return [⟨.sliceBudget, 32 * fld (pw i.words 1) 19 16 + fld (pw i.words 1) 4 0⟩]
  apply i s :=
    let k := fld (pw i.words 1) 19 16
    let sp := fld (pw i.words 1) 4 0
    let b := (List.range 3).foldl (fun m p => kset m (96 * k + 3 * sp + p) (fld (pw i.words (2 + p)) 15 0)) s.pon.budgets
    (needSlice s k).map fun _ => { s with pon := { s.pon with budgets := b } }

/-- `SLICE_BUDGET_READ`. -/
def sliceBudgetRead (ch : Nat) (ws : List Word) (s : State) : Res (List Word) := do
  let k := fld (pw ws 0) 19 16
  let sp := fld (pw ws 0) 4 0
  readsSlice s ch k
  return (List.range 3).map (fun p => wd (budgetOf s k sp p)) ++ (List.range 3).map (fun p => wd (guaranteed s sp k p % 65536)) ++
    (List.range 3).map fun p => wd (kgetD (spanOf s sp).used (3 * k + p) 0)

/-- `TRUSS_CONFIG`. -/
def trussConfig : TxnCall where
  spec := { code := 0x0520, who := .slice0, lens := [4], used := [0xFFFFFFFF, 0x1F, 0xFF3F0700, 0xFFFFF] }
  objs _ i := do
    let w := pw i.words 2
    need (1 ≤ fld w 31 24 && 1 ≤ fld w 21 16 && fld (pw i.words 3) 19 0 ≤ 777600) .badArg
    return [⟨.truss, fld (pw i.words 1) 4 0⟩]
  apply i s :=
    let w := pw i.words 2
    .ok (modSpan (fld (pw i.words 1) 4 0) (fun v =>
      { v with blockG := fld w 31 24, ploamuPeriod := fld w 21 16, shareIdle := fld w 10 8, tmStep := fld (pw i.words 3) 19 0 }) s)

/-- `TRUSS_STATUS`. -/
def trussStatus (ws : List Word) (s : State) : List Word :=
  let f := (trussOf s (fld (pw ws 0) 4 0)).last
  [wd f.steps, put f.visited 16 ||| wd f.phase] ++ (List.range 3).map fun p => wd (f.capacity.getD p 0)

/-! ### Family 0x06 -/

/-- What the device reads of a function's memory for a call (assumption 4). -/
def hostBytes (fn addr n : Nat) (s : State) : List Byte :=
  (bytesOfWords ((List.range ((n + 3) / 4)).map fun i => Config.hostWord fn (addr + 4 * i) s.free)).take n

/-- A measurement register is extended (R116). -/
def extendMeas (n : Nat) (digest : List Byte) (s : State) : State :=
  let old := kgetD s.boot.meas n (List.replicate 48 0)
  { s with boot := { s.boot with meas := kset s.boot.meas n (sha384 (old ++ digest)) } }

/-- A little-endian word of an image. -/
def leAt (bs : List Byte) (off : Nat) : Nat := leNat (sub bs off 4)

/-- Whether an image's header holds the values of R300. -/
def imageOk (bs : List Byte) (len : Nat) : Bool :=
  let n := leAt bs 0x14
  let e := leAt bs 0x18
  bs.length = len && len = 320 + 24 * n && leAt bs 0 = 0x4B4E424F && leAt bs 4 = 1 && leAt bs 8 = 0x3296 && leAt bs 0xC = 1 &&
    1 ≤ n && n ≤ 2048 && 1 ≤ e && e ≤ 16 && leAt bs 0x1C = 0 &&
    (List.range 16).all (fun i => if i < e then leAt bs (0x20 + 4 * i) < n else leAt bs (0x20 + 4 * i) = 0) &&
    (sub bs 0xD1 47).all (· = 0)

/-- The words of an image. -/
def imageWords (n : Nat) (bs : List Byte) : List (BitVec 192) :=
  match n with
  | 0 => []
  | n + 1 => BitVec.ofNat 192 (leNat (bs.take 24)) :: imageWords n (bs.drop 24)

/-- The page that an image fills. -/
def imagePage (bs : List Byte) : OpenPage :=
  let n := leAt bs 0x14
  ⟨imageWords n (bs.drop 256), (List.range (leAt bs 0x18)).map fun i => leAt bs (0x20 + 4 * i), sha384 (bs.take (256 + 24 * n))⟩

/-- Saend writes the pages into every Truss that has power (R272, R273). -/
def writePages (s : State) : State := forEach ((List.range 32).filter fun sp => domLive s (domSp sp)) loadPages s

/-- `OPEN_LOAD` (R301). -/
def openLoad (ch : Nat) (ws : List Word) (s : State) : State × Status × List Word :=
  let len := fld (pw ws 2) 15 0
  if s.ctl.txns.any fun t => (acceptedAt t).isSome && t.items.any fun i => i.code = 0x0602 then (s, .badState, [])
  else if s.boot.ownerState ≠ 1 then (raise 994 [] [1] s, .badState, [])
  else if len < 344 || 49472 < len then (raise 994 [] [2] s, .badArg, [])
  else
    let bs := hostBytes ch (wide ws 0 2) len s
    let s := drawn s
    let key := sub bs 0x90 65
    let fail (n : Nat) (st : Status) : State × Status × List Word := (raise 994 [] [wd n] s, st, [])
    if !imageOk bs len then fail 2 .badArg
    else if sha256 key ≠ s.boot.ownerHash then fail 3 .signature
    else if !p256.verify key (sha256 (bs.take (len - 64))) (bs.drop (len - 64)) then fail 4 .signature
    else
      let pg := imagePage bs
      let s := extendMeas 3 pg.digest s
      let s := { s with boot := { s.boot with meas3Count := s.boot.meas3Count + 1 }, pon := { s.pon with inactive := some pg } }
      let s := writePages s
      (raise 995 [] [wd s.boot.meas3Count] s, .done, (put (pg.entries.length - 1) 16 ||| wd pg.words.length) :: wordsOfBytes pg.digest)

/-- `OPEN_ACTIVATE` (R273, R283, R302): the pages are exchanged; with CLEAR the one that becomes active is not used. -/
def openActivate : TxnCall where
  spec := { code := 0x0602, who := .slice0, intro := 0x0201, lens := [2], used := [0xFFFFFFFF, 0x3] }
  objs _ _ := .ok [⟨.openBank, 0⟩]
  apply i s := do
    let clear := bit (pw i.words 1) 0
    need (clear || s.pon.inactive.isSome) .badState
    let p := s.pon
    let allocs := if bit (pw i.words 1) 1 && 0x0300 ≤ i.version then kmap p.allocs (fun _ a => if a.policy then { a with st := [0, 0, 0, 0] } else a) else p.allocs
    return writePages { s with pon := { p with active := p.inactive, inactive := p.active, openOff := clear, allocs := allocs } }
  post _ s :=
    match openImage s with
    | some img => need (s.pon.binds.all fun e => e.2.1 < img.entries.length) .badState
    | none => .ok ()

/-- `OPEN_BIND` (R287): UNBIND deletes a binding, and one that is absent is BAD_STATE (R560). -/
def openBind : TxnCall where
  spec := { code := 0x0603, who := .slice0, intro := 0x0201, lens := [3], used := [0xFFFFFFFF, 0x800F000F, 0xFFF] }
  objs _ i := do
    let n := fld (pw i.words 2) 11 0
    need (bit (pw i.words 1) 31 || (16 ≤ n && n ≤ 2048)) .badArg
    return [⟨.openBind, fld (pw i.words 1) 19 16⟩]
  apply i s := do
    let k := fld (pw i.words 1) 19 16
    needSlice s k
    if bit (pw i.words 1) 31 then
      need (kget s.pon.binds k).isSome .badState
      return { s with pon := { s.pon with binds := kerase s.pon.binds k } }
    else
      let n := fld (pw i.words 2) 11 0
      return { s with pon := { s.pon with binds := kset s.pon.binds k (fld (pw i.words 1) 3 0, n), limits := kset s.pon.limits k n } }
  post i s :=
    match kget s.pon.binds (fld (pw i.words 1) 19 16), openImage s with
    | some (e, _), some img => need (e < img.entries.length) .badArg
    | some _, none => .error .badArg
    | none, _ => .ok ()

/-- `OPEN_STATUS`. -/
def openStatus (s : State) : List Word :=
  let bound := ((List.range 16).filter fun k => (kget s.pon.binds k).isSome)
  match openImage s with
  | some img => [putb true 31 ||| putb s.pon.inactive.isSome 30 ||| put (img.entries.length - 1) 16 ||| wd img.words.length, maskOf bound] ++ wordsOfBytes img.digest
  | none => [putb s.pon.inactive.isSome 30, maskOf bound] ++ List.replicate 12 0

/-- `OPEN_STATS`. -/
def openStats (ch : Nat) (ws : List Word) (s : State) : Res (List Word) := do
  let k := fld (pw ws 0) 19 16
  readsSlice s ch k
  let f := (trussOf s (fld (pw ws 0) 4 0)).last
  let b := match kget s.pon.binds k with | some (e, n) => putb true 31 ||| put e 16 ||| wd n | none => wd (kgetD s.pon.limits k 120)
  return [b, wd (kgetD f.calls k 0 % 65536), wd (kgetD f.maxSteps k 0 % 65536), wd (kgetD f.ended k 0 % 65536)]

/-- `TRUSS_MC_CONFIG` (R286, R305). -/
def trussMcConfig : TxnCall where
  spec := { code := 0x0610, who := .slice0, intro := 0x0300, lens := [3], used := [0xFFFFFFFF, 0x8000001F, 0xFFFF] }
  objs _ i := do
    let n := fld (pw i.words 2) 15 0
    need (n = 0 || (500 ≤ n && n ≤ 20000)) .badArg
    return if bit (pw i.words 1) 31 then (List.range 32).map (fun sp => ⟨.trussMc, sp⟩) else [⟨.trussMc, fld (pw i.words 1) 4 0⟩]
  apply i s :=
    let sps := if bit (pw i.words 1) 31 then List.range 32 else [fld (pw i.words 1) 4 0]
    .ok (forEach sps (fun sp s => modSpan sp (fun v => { v with finishLead := fld (pw i.words 2) 15 0 }) s) s)

end Sys2Proof.Machine
end

