-- ==== Sys2Proof/Machine/Pair.lean ====
section
/-! DEFINITION. The Hawser, the protection pair and the switch-over of its Spans (R467 to R469, R504 to R524). -/

namespace Sys2Proof.Machine

/-! ### State of the pair (R504 to R506, R513) -/

/-- The state of the pair as a number. -/
def PairSt.code : PairSt → Nat
  | .unpaired => 0 | .hello => 1 | .keying => 2 | .bulk => 3 | .paired => 4 | .mateLost => 5 | .split => 6

/-- The pair changes state (R530). -/
def setPairSt (st : PairSt) (s : State) : State :=
  if s.red.pair.st = st then s else raise 864 [] [wd st.code] (setPair { s.red.pair with st := st } s)

/-- The Spans that are paired, and those for which this device is active or standby. -/
def pairedSpans (s : State) : List Nat := (List.range 32).filter fun sp => (spanOf s sp).paired
def activeSpans (s : State) : List Nat := (List.range 32).filter (activeHere s)
def standbySpans (s : State) : List Nat := (List.range 32).filter fun sp => (spanOf s sp).paired && (spanOf s sp).standby

/-- Whether a Span has an ACTIVE ONU. -/
def hasActive (s : State) (sp : Nat) : Bool := (onusOf s sp).any fun o => (onuOf s sp o).st = .active

/-- Mirror lag: the frames that have started since the oldest record not yet acknowledged was sent (R511). -/
def mirrorLag (s : State) : Nat := match s.red.pair.unacked with | [] => 0 | u :: _ => frameNo s - u.2

/-- Mirror lag as the standby sees it: the frames that have started since the oldest record came that it has not acknowledged (R511). -/
def lagHere (s : State) : Nat := match s.red.pair.rxSince with | some f => if standbySpans s = [] then 0 else frameNo s - f | none => 0

/-- Whether the keys of a Span that were sent anew are acknowledged (R418). -/
def keysTaken (s : State) (sp : Nat) : Bool :=
  match kget s.red.pair.keysSent sp with | some n => !s.red.pair.unacked.any (·.1 = n) | none => true

/-- Whether a Span is synchronised (R513): the standby judges every condition; no record tells the active device of READY and SETTLED, and
it judges the others (assumption 31). -/
def syncNow (s : State) (sp : Nat) : Bool :=
  let p := s.red.pair
  let v := spanOf s sp
  v.paired && p.st = .paired && s.ciph.pair.st = .established && kgetD p.late sp 0 ≤ s.ctl.lastApply * frameTb && p.snapDone.contains sp && !p.gapSpans.contains sp &&
    if v.standby then
      lagHere s ≤ 8 &&
        (enabledPiers s sp).all fun q => ((pierOf s sp q).ready || onusIn s sp q [.active] = []) && (opticOf s sp q).st = .standby && settledNow s sp q
    else mirrorLag s ≤ 8 && keysTaken s sp

/-- Takes note of a synchronisation change (R513, R530). -/
def judgeSync (sp : Nat) (s : State) : State :=
  let p := s.red.pair
  let now := syncNow s sp
  if now = p.sync.contains sp then s
  else raise 872 [] [putb now 31 ||| wd sp] (setPair { p with sync := if now then sinsert p.sync sp else p.sync.filter (· ≠ sp) } s)

/-- Judges every Span. -/
def judgeSyncs (s : State) : State := forEach (List.range 32) judgeSync s

/-- Bulk is complete for every paired Span (R506). -/
def judgePaired (s : State) : State :=
  judgeSyncs (if s.red.pair.st = .bulk && (pairedSpans s).all s.red.pair.snapDone.contains then setPairSt .paired s else s)

/-! ### Calls to the mate (R508) -/

/-- Sends the calls that wait for the mate, as far as its FREE goes and while the link is up. -/
def flushMate (fuel : Nat) (s : State) : State :=
  match fuel, s.red.pair.toMate with
  | n + 1, ws :: t =>
    if s.red.hawser.up && ws.length ≤ s.red.hawser.mateFree then
      let s := setHawser { s.red.hawser with mateFree := s.red.hawser.mateFree - ws.length } (setPair { s.red.pair with toMate := t } s)
      flushMate n (flitsOut ((groupsOf 15 ws.length ws).map (mailFlit 0 (inFree (chanOf s 16)))) s)
    else s
  | _, _ => s

/-- Saend calls the mate; the call waits until the mate's FREE holds it. -/
def mateCall (code : Nat) (ws : List Word) (s : State) : State :=
  let p := s.red.pair
  let msg := wd (code * 2 ^ 16 + ws.length * 2 ^ 12) :: ws
  flushMate 32 (setPair { p with toMate := p.toMate ++ [msg] } s)

/-! ### The pair's view of an item (R512) -/

/-- Whether items of a call are device-local (R512). -/
def deviceLocal (code : Nat) : Bool :=
  [0x01, 0x04, 0x0B, 0x0C, 0x0D, 0x0E, 0x0F].contains (code / 256) || [0x0311, 0x0320, 0x0801, 0x0820, 0x0A30].contains code ||
    (0x0A10 ≤ code && code ≤ 0x0A1F) || (0x0600 ≤ code && code < 0x0610)

/-- The Span of an L1 node, none of an uplink's. -/
def L1.span (x : L1) : Option Nat := match x.kind with | .onu sp _ _ => some sp | .uplink _ _ => none

/-- The Span of an L2 node's parent, and of a queue's. -/
def l2Span (s : State) (g n : Nat) : Option Nat := (l2At s g n).bind fun x => (l1At s g x.parent).bind (·.span)
def queueSpan (s : State) (q : Nat) : Option Nat := (queueAt s q).bind fun x => l2Span s (groupOf q) x.parent

/-- The Span an object belongs to, if it belongs to one. -/
def objSpan (s : State) (o : Obj) : Option Nat :=
  match o.kind with
  | .pier | .defectCfg | .spliceCfg | .rangeCal | .drift | .stbyDelta | .ponCipher | .gateList | .pierSched => some (o.ix / 3)
  | .profile | .bcastKey => some (o.ix / 12)
  | .onu | .onuExpect | .ponMsk => some (o.ix / 512)
  | .alloc => some (o.ix / 2048)
  | .port | .policer => some (o.ix / 8192)
  | .discovery | .reach | .truss | .trussMc => some o.ix
  | .sliceBudget => some (o.ix % 32)
  | .qnode => let g := o.ix / 65536 % 4; if o.ix / 262144 = 1 then l2Span s g (o.ix % 65536) else (l1At s g (o.ix % 65536)).bind (·.span)
  | .queue => queueSpan s o.ix
  | .schedNode => match schedName (wd o.ix) with
    | some (.l1 g n) => (l1At s g n).bind (·.span)
    | some (.l2 g n) => l2Span s g n
    | some (.queue q) => queueSpan s q
    | _ => none
  | _ => none

/-- The Span whose ONU or node an item of `QNODE_SET` or `QUEUE_SET` names as parent of what it sets. -/
def parentSpan (s : State) (i : Item) : Option Nat :=
  let w := pw i.words 1
  let v := pw i.words 2
  match i.code with
  | 0x0812 =>
    let (g, two, _) := qnodeName w
    if two then (l1At s g (fld (pw i.words 3) 12 0)).bind (·.span) else if bit v 31 then none else some (fld v 12 8)
  | 0x0814 => l2Span s (groupOf (fld w 19 0)) (fld v 31 16)
  | _ => none

/-- The Spans that an item bears on (R512). -/
def itemSpans (s : State) (i : Item) : List Nat := i.objs.filterMap (objSpan s) ++ (parentSpan s i).toList

/-- What a COMMIT record says: the apply point, and each item's call without its handle (R510). -/
def commitData (target : Nat) (items : List Item) : List Nat :=
  target / frameTb :: items.flatMap fun i => i.code :: (i.words.length - 1) :: (i.words.drop 1).map (·.toNat) ++ i.dma.map (·.toNat)

/-- The calls of the pair-shared families that act once, and leave nothing of their own to be carried to a mate that joins later: what
they did is in the records of the ONUs. -/
def actsOnce (code : Nat) : Bool := [0x0222, 0x0304, 0x0305].contains code

/-- The calls that delete an object. -/
def deletes (code : Nat) : Bool := [0x0302, 0x0502, 0x0714, 0x0721, 0x0731, 0x0813, 0x0815].contains code

/-- The committed configuration that the pair shares, after one more item: the last item of each call on an object stands, and what was set
of a deleted object goes. -/
def configWith (l : List Item) (i : Item) : List Item :=
  if deviceLocal i.code || actsOnce i.code || i.objs = [] then l
  else
    let l := l.filter fun j => !(j.objs = i.objs && (j.code = i.code || deletes i.code))
    if deletes i.code then l else l ++ [i]

/-- The pair-shared configuration of a Span as one record: what bears on no other Span (R522; assumption 59). -/
def spanConfig (s : State) (sp : Nat) : List Item := s.ctl.config.filter fun i => (itemSpans s i).all (· = sp)

/-! ### The bulk snapshot (R522) -/

/-- The KEY records of a Span (R418). -/
def snapshotKeys (sp : Nat) (s : State) : State :=
  let s := forEach (onusOf s sp) (fun o s =>
    let k := onuKeys s sp o
    let p := (onuOf s sp o).pier
    let s := mirrorMsk sp o s
    let s := if k.s1.st = .empty then s else mirrorKey sp (some o) p 1 k.s1 s
    if k.s2.st = .empty then s else mirrorKey sp (some o) p 2 k.s2 s) s
  forEach (List.range 3) (fun p s =>
    let k := pierKeys s sp p
    let s := if k.s1.st = .empty then s else mirrorKey sp none p 1 k.s1 s
    if k.s2.st = .empty then s else mirrorKey sp none p 2 k.s2 s) s

/-- The keys of a Span are sent anew, and the Span is out of synchronisation until they are acknowledged: what changed while the pair key stood
failed was not sent (R417, R418). -/
def resendKeys (sp : Nat) (s : State) : State :=
  let n := s.red.pair.txSeq
  let s := snapshotKeys sp s
  let m := s.red.pair.txSeq
  if m = n then s else setPair { s.red.pair with keysSent := kset s.red.pair.keysSent sp ((m + 2 ^ 32 - 1) % 2 ^ 32) } s

/-- The records of a Span: its pair-shared configuration, every ONU, allocation and key, and the SPAN record. -/
def snapshotSpan (sp : Nat) (s : State) : State :=
  let s := mirrorSpan 5 sp (commitData (applyPointFor s.tb 0) (spanConfig s sp)) s
  let s := forEach (onusOf s sp) (mirrorOnu sp) s
  mirrorSpanRec sp (snapshotKeys sp (forEach (allocsOf s sp) (mirrorAlloc sp) s))

/-- The active device sends the snapshot of Spans, and its end. -/
def snapshot (spans : List Nat) (s : State) : State :=
  let mine := spans.filter (activeHere s)
  let s := setPair { s.red.pair with snapDone := s.red.pair.snapDone.filter fun sp => !mine.contains sp } s
  if mine = [] then s else controlOut 2 0 mine (forEach mine snapshotSpan s)

/-- The pair key is established: the bulk snapshot starts, or where it runs or has run already the keys are sent anew (R418, R506, R522).
`was` says that the key was established before. -/
def keyDone (was : Bool) (s : State) : State :=
  let now := s.ciph.pair.st = .established
  if s.red.pair.st = .keying && now then judgePaired (snapshot (activeSpans s) (setPairSt .bulk s))
  else judgeSyncs (if now && !was then forEach (activeSpans s) resendKeys s else s)

/-! ### Hello and roles (R505, R522, R523) -/

/-- The Spans that this device claims: open and active with ACTIVE ONUs. -/
def claims (s : State) : List Nat := (List.range 32).filter fun sp => (spanOf s sp).st = .opened && !(spanOf s sp).standby && hasActive s sp

/-- The layout that both sides of `MATE_HELLO` carry (R533). -/
def helloWords (s : State) : List Word :=
  [wd (4 * 2 ^ 24 + 2 * 2 ^ 16 + 0x0302)] ++ toWords 2 deviceTag ++
    [maskOf (pairedSpans s), maskOf ((pairedSpans s).filter fun sp => (spanOf s sp).prefer), maskOf (claims s)]

/-- The highest format that both sides speak, from the mate's MIRROR_MAX and MIRROR_MIN (R523). -/
def commonFormat (mx mn : Nat) : Option Nat := [4, 3, 2].find? fun f => mn ≤ f && f ≤ mx

/-- The role of a paired Span, true for ACTIVE: the first rule of R505 that decides. `more` and `less` say which side has more
ACTIVE ONUs where both claim it; no record carries the mate's count (assumption 3). -/
def roleOf (s : State) (sp : Nat) (mine theirs more less prefer matePrefer : Bool) (tag : Nat) : Bool :=
  if mine ≠ theirs then mine
  else if mine && more then true
  else if mine && less then false
  else if prefer ≠ matePrefer then prefer
  else if tag = deviceTag then !(spanOf s sp).standby
  else deviceTag < tag

/-- A Span takes a role; true where it changed. -/
def takeRole (sp : Nat) (active : Bool) (s : State) : State :=
  if active then
    let s := modSpan sp (fun v => { v with standby := false, granting := v.st = .opened, t0 := frameNo s }) s
    threePiers (judgeReady sp) (threePiers (fun p s => opticResume sp p (opticRelight sp p s)) s)
  else threePiers (opticResume sp) (muteSpan sp s)

/-- The roles of every paired Span are resolved against the mate's claims; a change raises the role-conflict event. -/
def resolveRoles (tag : Nat) (prefer openActive : Word) (s : State) : State :=
  let step (acc : State × List Nat) (sp : Nat) : State × List Nat :=
    let (s, changed) := acc
    let more := Config.freeBool s.free
    let less := Config.freeBool (s.free + 1)
    let s := drawn (drawn s)
    let a := roleOf s sp ((claims s).contains sp) (bit openActive sp) more less (spanOf s sp).prefer (bit prefer sp) tag
    if a = !(spanOf s sp).standby then (s, changed) else (takeRole sp a s, changed ++ [sp])
  let r := (pairedSpans s).foldl step (s, [])
  if r.2 = [] then r.1 else raise 870 [] [0, maskOf r.2] r.1

/-- What the mate says of itself, in its call or its response: roles are resolved and a format is chosen (R505, R506, R523). -/
def helloFrom (ws : List Word) (s : State) : State :=
  if s.red.pair.st ≠ .hello then s
  else
    let s := setPair { s.red.pair with mateFw := fld (pw ws 0) 15 0 } s
    let s := resolveRoles (wide ws 1 2) (pw ws 4) (pw ws 5) s
    match commonFormat (fld (pw ws 0) 31 24) (fld (pw ws 0) 23 16) with
    | none => raise 871 [] [wd s.red.pair.mateFw] s
    | some f => keyDone false (pairKeyStart (setPairSt .keying (setPair { s.red.pair with format := f } s)))

/-- Whether the pair runs at all: ENABLE and a paired Span (R506). -/
def pairOn (s : State) : Bool := s.red.pair.enable && pairedSpans s ≠ []

/-! ### Taking over (R203 to R205, R515 to R520) -/

/-- An ONU is adjusted by its delta: EqD, offset and round trip (R205). -/
def adjustOnu (sp o : Nat) (d : Rat) (s : State) : State :=
  let p := (onuOf s sp o).pier
  let x := pierOf s sp p
  let n := deltaEqd p x d
  modOnu sp o (fun u => { u with
    eqd := ((u.eqd : Int) - n).toNat, offset := u.offset + (deltaRt x d - n * eqdUnit p), rtd := u.rtd + deltaRt x d,
    adjusted := true, grantFrom := 2 ^ 64, corr := none }) s

/-- An absolute Ranging_Time of an ONU. -/
def tellEqd (sp o : Nat) (s : State) : State := queuePloam sp (onuOf s sp o).pier ⟨1, some o, .rangingTime, [(onuOf s sp o).eqd]⟩ s

/-- An ONU that cannot be adjusted is deactivated by the hardware. -/
def cannotAdjust (sp o : Nat) (s : State) : State :=
  let x := onuOf s sp o
  queuePloam sp x.pier ⟨0, some o, .deactivate, [x.onuId.getD 0]⟩ (setOnuSt sp o .deactivating 0 (modOnu sp o (fun x => { x with corr := none }) s))

/-- The adjustments of a Pier: of every ONU that holds a ranging result, REGISTERING ones too (R205, R520). On a READY Pier only a
REGISTERING one can come below an EqD of 0; it is deactivated as the last row has it (assumption 157). The Piers of a Span taken without
synchronisation are adjusted as not READY (R515). -/
def adjustPier (sp p : Nat) (synced : Bool) (s : State) : State :=
  let x := pierOf s sp p
  let os := onusIn s sp p [.registering, .active]
  let m := measured s sp p
  match synced && readyNow s sp p, deltaC s sp p with
  | true, some c =>
    let out := os.filter (outlier s sp p)
    let s := if p = 2 || os = [] then s else queuePloam sp p ⟨1, none, .rangingTime, [if deltaEqd p x c < 0 then 0 else 1, (deltaEqd p x c).natAbs]⟩ s
    forEach os (fun o s =>
      let d := if out.contains o then (onuOf s sp o).delta else c
      if ((onuOf s sp o).eqd : Int) < deltaEqd p x d then cannotAdjust sp o s
      else
        let s := adjustOnu sp o d s
        if p = 2 || out.contains o then tellEqd sp o s else s) s
  | _, _ =>
    forEach os (fun o s =>
      let u := onuOf s sp o
      if !m.contains o || (u.eqd : Int) < deltaEqd p x u.delta then cannotAdjust sp o s else tellEqd sp o (adjustOnu sp o u.delta s)) s

/-- The mirrored keys in NEXT get their switch frames: no acknowledgement of a mate is waited for (R397, R418). -/
def fixKeys (sp : Nat) (s : State) : State :=
  let s := forEach ((onusOf s sp).filter fun o => (onuKeys s sp o).s1.unfixed || (onuKeys s sp o).s2.unfixed) (fixSwitch sp) s
  forEach (List.range 3) (fun p s => forEach ([1, 2].filter fun ix => ((pierKeys s sp p).slot ix).unfixed) (fixBcast sp p) s) s

/-- A standby Span begins to take over; T1 is the first apply point at least 150 µs later (R517). -/
def beginTake (sp row : Nat) (s : State) : State :=
  let synced := if row = 5 then !s.red.pair.unsynced.contains sp else s.red.pair.sync.contains sp
  let s := threePiers (opticHold sp) (addRun sp row true (some (ceilDiv (s.tb + 150 * us) frameTb)) s)
  let s := forEach (enabledPiers s sp) (fun p s => adjustPier sp p synced s) s
  let s := fixKeys sp (modSpan sp (fun v => { v with standby := false }) s)
  judgeSync sp (forEach (List.range 3) (judgeReady sp) s)

/-- The standby takes Spans over; a Span whose switch-over runs already absorbs the trigger. -/
def startTake (row : Nat) (spans : List Nat) (s : State) : State :=
  let s := forEach (spans.filter (switching s)) absorb s
  let go := spans.filter fun sp => !switching s sp
  forEach go (fun sp s => beginTake sp row s) (startedEvt row go s)

/-- A request for standby Spans is judged (R515): automatic rows need AUTO and synchronisation, a call synchronisation or FORCE. -/
def takeOver (row : Nat) (force : Bool) (spans : List Nat) (s : State) : State :=
  let mine := spans.filter fun sp => (spanOf s sp).paired && (spanOf s sp).standby
  if row = 1 || row = 2 then
    let ok := mine.filter fun sp => force || s.red.pair.sync.contains sp || switching s sp
    startTake row ok (refusedEvt 0 (mine.filter fun sp => !ok.contains sp) s)
  else if !s.red.pair.auto then refusedEvt 1 mine s
  else
    let ok := mine.filter fun sp => s.red.pair.sync.contains sp || switching s sp
    startTake row ok (refusedEvt 0 (mine.filter fun sp => !ok.contains sp) s)

/-- SWITCHOVER_RELIGHT (R443, R517). -/
def relight (sp : Nat) (s : State) : State :=
  if s.red.pair.runs.any fun r => r.span = sp && r.taking then threePiers (opticRelight sp) s else s

/-! ### `PAIR_SWITCH` (R515, R516, R533) -/

/-- The Spans of a call that this device can switch, and those it refuses for want of a mate or of synchronisation. -/
def switchable (s : State) (force : Bool) (sp : Nat) : Bool :=
  let p := s.red.pair
  if (spanOf s sp).standby then force || p.sync.contains sp
  else (p.st = .bulk || p.st = .paired) && (force || p.sync.contains sp)

/-- Switches Spans for a call, on whichever side of each this device is. -/
def callSwitch (force : Bool) (spans : List Nat) (s : State) : State :=
  let mate := s.red.pair.st = .bulk || s.red.pair.st = .paired
  let bad := spans.filter fun sp => !switchable s force sp
  let s := refusedEvt (if mate then 0 else 2) bad s
  let act := spans.filter fun sp => switchable s force sp && activeHere s sp
  let stby := spans.filter fun sp => switchable s force sp && !activeHere s sp
  let s := release 1 force true act s
  let s := if stby ≠ [] && mate then controlOut (1 + if force then 4 else 0) 2 stby s else s
  startTake 2 stby s

/-- `PAIR_SWITCH`. -/
def pairSwitch (code : Nat) (c : Call) (s : State) : State :=
  let force := bit (pw c.words 0) 30
  let spans := if bit (pw c.words 0) 31 then pairedSpans s else spansIn (pw c.words 1)
  if spans.any fun sp => !(spanOf s sp).paired then respond code c .badArg [] s
  else if s.red.pair.calls.any (·.again) then respond code c .pending [] s
  else if spans.any (switching s) then
    respond code c .pending [] (setPair { s.red.pair with calls := s.red.pair.calls ++ [⟨refFor code c s, spans, [], force, true⟩] } s)
  else
    let go := spans.filter (switchable s force)
    if go = [] then respond code c .badState [] (callSwitch force spans s)
    else
      let r := refFor code c s
      let s := defer_ r s
      callSwitch force spans (setPair { s.red.pair with calls := s.red.pair.calls ++ [⟨r, go, [], force, false⟩] } s)

/-- The calls whose Spans have all reached T1 are answered; one that waited is judged again (R516). -/
def settleCalls (sp : Nat) (s : State) : State :=
  let cs := s.red.pair.calls.map fun c => if c.spans.contains sp then { c with done := sinsert c.done sp } else c
  let ended (c : SwitchCall) : Bool := if c.again then !c.spans.any (switching s) else c.spans.all c.done.contains
  let s := setPair { s.red.pair with calls := cs.filter fun c => !ended c } s
  forEach (cs.filter ended) (fun c s => if c.again then callSwitch c.force c.spans s else answer c.ref .done [maskOf c.done] s) s

/-- A release that the mate refused, or a mate loss that was not confirmed, is over: the loops write again, and the calls that wait for the
Span wait no longer (R130, R443, R515, R516; assumption 142). -/
def refuseRun (sp : Nat) (s : State) : State :=
  let s := threePiers (opticResume sp) (setPair { s.red.pair with
    runs := s.red.pair.runs.filter fun r => r.span ≠ sp, confirming := s.red.pair.confirming.filter (· ≠ sp) } s)
  let cs := s.red.pair.calls.map fun c => if c.again then c else { c with spans := c.spans.filter (· ≠ sp) }
  let ended (c : SwitchCall) : Bool := if c.again then !c.spans.any (switching s) else c.spans.all c.done.contains
  let s := setPair { s.red.pair with calls := cs.filter fun c => !ended c } s
  forEach (cs.filter ended) (fun c s =>
    if c.again then callSwitch c.force c.spans s
    else if c.done = [] then answer c.ref .badState [] s else answer c.ref .done [maskOf c.done] s) s

/-- The releases that the mate has not answered by a frame. -/
def refuseRuns (n : Nat) (s : State) : State :=
  forEach ((s.red.pair.runs.filter fun r => !r.taking && match r.t1 with | some t => t ≤ n | none => false).map (·.span)) refuseRun s

/-- The pair enters HELLO: a session and the claims are offered to the mate. -/
def enterHello (s : State) : State :=
  let s := forEach s.red.pair.confirming refuseRun s
  let s := setPair { s.red.pair with format := 0, snapDone := [], gapSpans := [], unacked := [], txSeq := 0, rxNext := 0, rxTop := 0, toMate := [], rxSince := none, keysSent := [] } s
  let s := judgeSyncs (setPairSt .hello s)
  mateCall 0x0E10 (helloWords s) (mateCall 0x0001 [0x03020200] s)

/-- The pair after its configuration changed. -/
def refreshPair (s : State) : State :=
  if !pairOn s then judgeSyncs (setPairSt .unpaired (forEach s.red.pair.confirming refuseRun s))
  else if s.red.pair.st = .unpaired && s.red.hawser.up then enterHello s
  else judgePaired s

/-- A switch-over of a Span has reached T1: the loops of its Piers write again (R443, R531). -/
def endRun (sp : Nat) (s : State) : State :=
  settleCalls sp (threePiers (opticResume sp) <| cnt (cSpan 16 sp) 1 (setPair { s.red.pair with runs := s.red.pair.runs.filter fun r => r.span ≠ sp } s))

/-- SWITCHOVER_FIRST_FRAME (R517, R520): transmission resumes with this frame, whose routine makes the next frame's maps. -/
def firstFrame (sp : Nat) (s : State) : State :=
  match s.red.pair.runs.find? fun r => r.span = sp && r.taking with
  | none => s
  | some r =>
    let t1 := r.t1.getD (frameNo s)
    let s := modSpan sp (fun v => { v with granting := v.st = .opened, t0 := t1 - 16, windows := [] }) s
    let s := forEach (enabledPiers s sp) (fun p s => modPier sp p (fun x => { x with rotation := none, next := none, sent := none, due := [] }) s) s
    let s := endRun sp s
    if s.ctl.lastApply = t1 && frameNo s = t1 then startRoutine sp t1 (lateFrame sp s) else s

/-! ### Loss of the mate (R515, R516) -/

/-- The mate is lost: 0 the Hawser is down, 1 no heartbeat. What takes over after the confirm time is judged now, and its loops hold from now
on (R443, R515, R519); a Span whose switch-over runs already absorbs the trigger (R516). -/
def mateLost (why : Nat) (s : State) : State :=
  let p := s.red.pair
  if p.st = .unpaired || p.st = .mateLost || p.st = .split then s
  else
    let s := forEach ((standbySpans s).filter (switching s)) absorb s
    let cand := (standbySpans s).filter fun sp => hasActive s sp && !switching s sp
    let ok := cand.filter fun sp => p.sync.contains sp || (p.takeUnsync && p.snapDone.contains sp)
    let s := raise 865 [] [wd why] (setPairSt .mateLost s)
    let s := if p.auto then refusedEvt 0 (cand.filter fun sp => !ok.contains sp) s else refusedEvt 1 cand s
    let go := if p.auto then ok else []
    let s := setPair { s.red.pair with confirming := go, unsynced := go.filter fun sp => !p.sync.contains sp, unacked := [], toMate := [], rxSince := none } s
    judgeSyncs (forEach go (fun sp s => threePiers (opticHold sp) s) s)

/-- MATE_CONFIRM_END: `lit` are the Spans whose signal detectors were asserted (R516). -/
def confirmEnd (lit : Word) (s : State) : State :=
  if s.red.pair.st ≠ .mateLost then s
  else
    let seen := (standbySpans s).filter (bit lit)
    let go := s.red.pair.confirming.filter fun sp => !seen.contains sp && (spanOf s sp).standby
    let s := forEach (s.red.pair.confirming.filter fun sp => !go.contains sp) refuseRun s
    let s := setPair { s.red.pair with confirming := [] } s
    let s := if seen = [] then s else raise 868 [] [0, maskOf seen] (setPairSt .split s)
    startTake 5 go s

/-! ### The Hawser link (R467, R468, R508, R509) -/

/-- The lanes of the Hawser in use: enabled here and set in the mate's LANES. -/
def hawserSet (s : State) : List Nat := (List.range 4).filter fun i => (laneOf s (24 + i)).st = .on && !(laneOf s (24 + i)).gen && s.red.hawser.remote.contains i

/-- The link goes down. -/
def hawserDown (s : State) : State :=
  if s.red.hawser.up then mateLost 0 (setHawser { s.red.hawser with up := false, arrived := [], nextSeq := none } s) else s

/-- The link comes up, and the pair returns to HELLO (R468, R506). -/
def hawserUp (s : State) : State :=
  if s.red.hawser.up then s
  else
    let s := setHawser { s.red.hawser with up := true, nextSeq := none, arrived := [], mateFree := 0, samples := [] } s
    if pairOn s then enterHello s else s

/-- The set in use follows the lanes; the link is up while the set is not empty and codewords arrive; a lane that leaves the set sends idle
codewords only (R468, R472). -/
def hawserSetNow (s : State) : State :=
  let now := hawserSet s
  let s := if now = s.red.hawser.inUse then s else raise 796 [] [maskOf now] (setHawser { s.red.hawser with inUse := now } s)
  hawserLines (if now = [] || s.red.hawser.quiet then hawserDown s else hawserUp s)

/-- HAWSER_LINK_UP: codewords arrive (R468, R506). -/
def hawserLinkUp (s : State) : State := hawserSetNow (setHawser { s.red.hawser with quiet := false } s)

/-- HAWSER_NO_CODEWORD_TIMEOUT: no codeword has arrived for 10 µs (R468). -/
def hawserSilent (s : State) : State := hawserSetNow (setHawser { s.red.hawser with quiet := true } s)

/-- Whether a Hawser lane can hold codeword lock: it is ON with neither LOS nor RX-LOL (R468). -/
def canLock (s : State) (i : Nat) : Bool := let x := laneOf s (24 + i); x.st = .on && !x.los && !x.rxLol

/-- Codeword lock of a Hawser lane: its loss is the lane's link going down, and LANES tells the mate of it; the set in use follows the LANES
last received (R467, R468, R471, R472). -/
def hawserLock (i : Nat) (on : Bool) (s : State) : State :=
  let h := s.red.hawser
  if h.locked.contains i = on || (on && !canLock s i) then s
  else
  let before := laneFlags s (24 + i)
  let h := { h with locked := if on then sinsert h.locked i else h.locked.filter (· ≠ i), goodRun := kset h.goodRun i 0, badRun := kset h.badRun i 0 }
  let s := laneEvt (24 + i) before (setHawser h s)
  hawserLines (if on then s else cnt (cLane 3 (24 + i)) 1 s)

/-- The lanes of the Hawser have changed: one that cannot hold lock loses it, and the set in use follows (R468). -/
def hawserLanes (s : State) : State :=
  hawserSetNow (forEach (List.range 4) (fun i s => if canLock s i then s else hawserLock i false s) s)

/-- A flit of the mailbox channel may be among those lost: the inbound direction collides and its partial message is discarded (R64,
R508). -/
def mailboxLost (ch : Nat) (s : State) : State :=
  let c := chanOf s ch
  let whole (q : List InWord) : List InWord := if c.inExpect = 0 then q else (q.reverse.dropWhile fun x => !x.hd).tail.reverse
  let s := setChan ch { c with inColl := true, inq := whole c.inq, inExpect := 0 } s
  if c.inColl then s else raise 960 [] [wd ch] s

/-- A flit of the other direction may be: the outbound direction collides, and what is left of a message partly sent is discarded (R64,
R508). -/
def mailboxOutLost (ch : Nat) (s : State) : State :=
  let c := chanOf s ch
  setChan ch { c with outColl := true, outq := c.outq.dropWhile fun o => !o.hd } s

/-- A codeword is lost: whether flits of the mailbox channel were in it, and of which direction, is the world's (assumption 111). -/
def lostFlits (s : State) : State :=
  let t := drawn (drawn s)
  let t := if Config.freeBool s.free then mailboxLost 16 t else t
  if Config.freeBool (s.free + 1) then mailboxOutLost 16 t else t

/-- How far a SEQ lies ahead of another, modulo 1,024. -/
def seqAhead (a b : Nat) : Nat := (a + 1024 - b) % 1024

/-- Delivers codewords in SEQ order; skips one once later ones have arrived on every lane in use (R468). -/
def deliverFlits (fuel : Nat) (s : State) : State :=
  match fuel with
  | 0 => s
  | n + 1 =>
    let h := s.red.hawser
    match h.nextSeq with
    | none => s
    | some q =>
      match h.arrived.find? fun a => a.1 = q with
      | some a => deliverFlits n (cnt (cDev 7) a.2.2 (setHawser { h with nextSeq := some ((q + 1) % 1024), arrived := h.arrived.filter fun b => b.1 ≠ q } s))
      | none =>
        if h.arrived ≠ [] && h.inUse.all fun i => h.arrived.any fun a => a.2.1 = i && seqAhead a.1 q < 512 then
          deliverFlits n (lostFlits (cnt (cDev 8) 10 (setHawser { h with nextSeq := some ((q + 1) % 1024) } s)))
        else s

/-- The RS-FEC decoder of a Hawser lane counts a codeword; how many symbols it corrected in one that decodes, of the 15 it can, is the
world's (R462, R467; assumption 38). -/
def codewordCounted (i : Nat) (good : Bool) (s : State) : State :=
  let s := cnt (cLane 4 (24 + i)) 1 s
  if good then drawn (cnt (cLane 5 (24 + i)) (Config.freeNat s.free % 16) s) else cnt (cLane 6 (24 + i)) 1 s

/-- HAWSER_CODEWORD_RX: lock, the mate's LANES and delivery by SEQ (R468); in a loopback the flits are counted and discarded (R466). The
flits' contents come in commands of their own; one of a reserved TYPE comes in none and is discarded (R467). -/
def hawserCodeword (i : Nat) (good : Bool) (seq : Nat) (lanes : Nat) (flits : Nat) (s : State) : State :=
  if !canLock s i then s
  else
  let s := codewordCounted i good (setHawser { s.red.hawser with quiet := false } s)
  let h := s.red.hawser
  if !good then
    let n := kgetD h.badRun i 0 + 1
    let s := setHawser { h with badRun := kset h.badRun i n, goodRun := kset h.goodRun i 0 } s
    if 4 ≤ n && h.locked.contains i then hawserLock i false s else s
  else
    let n := min 8 (kgetD h.goodRun i 0 + 1)
    let s := setHawser { h with goodRun := kset h.goodRun i n, badRun := kset h.badRun i 0 } s
    let s := if 8 ≤ n && !h.locked.contains i then hawserLock i true s else s
    if !s.red.hawser.locked.contains i then s
    else if (laneOf s (24 + i)).gen then s
    else if (laneOf s (24 + i)).loopback ≠ 0 then cnt (cLane 11 (24 + i)) flits s
    else
      let s := hawserSetNow (setHawser { s.red.hawser with remote := (List.range 4).filter fun j => lanes.testBit j } s)
      let h := s.red.hawser
      let q := h.nextSeq.getD seq
      if 512 ≤ seqAhead seq q then s
      else deliverFlits 1024 (setHawser { h with nextSeq := some q, arrived := h.arrived ++ [(seq, i, flits)] } s)

/-- What the mate sends takes effect; not while every lane in use, or where none is every lane that is ON, is in a loopback, which discards
its flits, or runs its generator (R466). -/
def fromMate (f : State → State) (s : State) : State :=
  let ls := if s.red.hawser.inUse ≠ [] then s.red.hawser.inUse else (List.range 4).filter fun i => (laneOf s (24 + i)).st = .on
  if ls ≠ [] && ls.all fun i => (laneOf s (24 + i)).loopback ≠ 0 || (laneOf s (24 + i)).gen then s else f s

/-- The FREE of this device's channel 0x10. -/
def mateChanFree (s : State) : Nat := inFree (chanOf s 16)

/-- HAWSER_FREE_FLIT_TIMER: FREE, with up to 15 words of the outbound queue. -/
def freeFlit (s : State) : State :=
  if !s.red.hawser.up then s
  else
    let c := chanOf s 16
    flitsOut [mailFlit 1 (mateChanFree s) ((c.outq.take 15).map (·.w))] (setChan 16 { c with outq := c.outq.drop 15 } s)

/-- Feeds words into an inbound queue in order. -/
def pushAll (ch : Nat) (ws : List Word) (s : State) : State :=
  match ws with
  | [] => s
  | w :: t => pushAll ch t (pushIn ch w s)

/-- HAWSER_MAILBOX_FLIT_RX: calls for channel 0x10, or the mate's answers to this device's calls. -/
def mailboxFlit (reply : Bool) (words : List Word) (free : Nat) (s : State) : State :=
  let s := setHawser { s.red.hawser with mateFree := free } s
  let s := if !reply then pushAll 16 words s
    else if fld (pw words 0) 31 16 = 0x0E10 && pw words 1 = 0 && words.length = 9 then helloFrom (words.drop 2) s else s
  flushMate 32 s

/-- This device's stamp of a flit at the Hawser balls, in 2^-16 ns (R214, R509). -/
def stamp16 (s : State) : Nat := let t := stampOf (symbolPs s); t.1 * 65536 + t.2

/-- HAWSER_TIMEBASE_FLIT_TIMER (R507, R509). -/
def timebaseFlit (s : State) : State :=
  if s.red.hawser.up then flitsOut [timeFlit (stamp16 s) s.red.hawser.tSend s.red.hawser.tRecv] (drawn s) else s

/-- HAWSER_TIMEBASE_FLIT_RX (R509): the mate's T_SEND, the echo of this device's own and the mate's stamp of it, and this device's. -/
def timebaseRx (send echoSend echoRecv recv : Nat) (s : State) : State :=
  let h := s.red.hawser
  let h := { h with tSend := send, tRecv := recv }
  if echoSend = 0 then setHawser h s
  else
    let raw : Int := ((recv : Int) - send) - ((echoRecv : Int) - echoSend)
    let d := roundAway ((((raw : Rat) * 1000 / 65536) - (s.red.pair.asym : Rat)) / 2)
    setHawser { h with samples := (h.samples ++ [d]).drop (h.samples.length + 1 - 16) } s

/-! ### Mirror records received (R510 to R514) -/

/-- A record arrives: a gap in RSEQ takes the standby Spans out of synchronisation until a new snapshot (R511). Acknowledgements stay at
the last record before the gap till then (R507). -/
def mirrorIn (rseq : Nat) (s : State) : State :=
  let s := cnt (cDev 15) 1 s
  let p := s.red.pair
  let gap := rseq ≠ p.rxTop
  let next := (rseq + 1) % 2 ^ 32
  let hit := standbySpans s
  let s := setPair { p with rxTop := next, rxNext := if hit = [] || (!gap && p.rxNext = p.rxTop) then next else p.rxNext, rxSince := if hit = [] then none else some (p.rxSince.getD (frameNo s)) } s
  if gap then
    let s := setPair { s.red.pair with gapSpans := hit } s
    let s := forEach hit (fun sp s => raise 873 [] [wd sp, wd rseq] (cnt (cSpan 18 sp) 1 s)) s
    judgeSyncs (if hit = [] then s else mateCall 0x0E11 [1, maskOf hit] s)
  else s

/-- Whether a record of a Span is taken: the Span is paired and standby here. -/
def listens (s : State) (sp : Nat) : Bool := (spanOf s sp).paired && (spanOf s sp).standby

/-- A MAP record (R514). -/
def mirrorMap (sp : Nat) (m : MirMap) (s : State) : State :=
  if !listens s sp then s
  else forEach m.maps (fun e s =>
    let dues := e.2.grants.map fun g => (⟨g, m.sfc, profAt s sp e.1 g.prof⟩ : Due)
    let late := dues.filter fun d => (searchWindow s sp e.1 d).1 < psOf s.tb
    let s := anchorMap sp e.1 m.sfc e.2.grants (modPier sp e.1 (fun x => { x with sent := some e.2, due := x.due ++ dues.filter fun d => !late.contains d }) s)
    if late = [] then s else cnt (cSpan 19 sp) 1 s) s

/-- An ONU record (R203, R510). One that leaves by a message to it alone loses its Splice's VALID here too; one that goes with its
Span, which the SPAN record has shown to close, does not (R149). -/
def mirrorOnuIn (sp : Nat) (m : MirOnu) (s : State) : State :=
  if !listens s sp then s
  else
    let o := m.onu.val
    let was := (onuOf s sp o).st
    let told := was = .deactivating || ((was = .ranging || was = .registering || was = .active) && (m.st = .disabled || (spanOf s sp).mirOpen))
    let s := if m.st = .inactive || m.st = .disabled then leaveTo sp o m.st 0 told s else s
    let old := onuOf s sp o
    let p := m.pier.val
    let rtd := teqdPs s sp p - (m.eqd : Nat) * eqdUnit p
    let s := modOnu sp o (fun x => { x with
      st := m.st, pier := p, onuId := m.onuId, rate := m.rate, eqd := m.eqd, offset := m.offset, cumul := m.cumul, expect := m.expect, rtd := rtd,
      serial := match m.expect with | some e => e.serial | none => x.serial,
      distance := distanceOf (pierOf s sp p) rtd, deltaCount := if old.eqd = m.eqd then x.deltaCount else 0 }) s
    let s := if m.st = .ranging || m.st = .registering || m.st = .active then
      judgeSplice sp o (modOnu sp o (fun x => { x with splice := { x.splice with valid := x.splice.valid && x.spliceSerial = x.serial } }) s) else s
    let s := if m.st = .active then { s with pon := { s.pon with allocs := kmap s.pon.allocs fun k a => if k / 2048 = sp && a.onu = o then { a with told := true } else a } } else s
    judgeReady sp p s

/-- An ALLOC record: words 5 to 8 and 12 to 15, which format 2 leaves out (R283, R510, R524). -/
def mirrorAllocIn (sp : Nat) (m : MirAlloc) (s : State) : State :=
  if !listens s sp then s
  else match allocOf s sp m.alloc with
    | none => s
    | some x =>
      let w := pw m.words
      let f := frameNo s
      let r := if bit (w 2) 31 then some (fld (w 2) 30 0, f) else none
      setAlloc sp m.alloc { x with
        d := (w 0).toNat, report := r, latched := r, hist := if w 1 = 0 then [] else [(f + 1, (w 1).toNat)], pollAge := fld (w 3) 7 0,
        st := if m.words.length = 8 then m.words.drop 4 else [0, 0, 0, 0] } s

/-- A key slot as a record carries it. -/
def slotFrom (s : State) (m : MirKey) (key : Nat) : Slot :=
  let st : SlotSt := match m.state.val with | 0 => .empty | 1 => .next | 2 => .active | 3 => .retiring | _ => .expired
  { st := st, key := key, at_ := if st = .next then none else some (frameNo s - m.age), loaded := s.tb }

/-- A KEY record, unwrapped with the pair key (R418); one that shows a key ACTIVE retires the other slot's, as the switch did (R397). A
broadcast key that it shows past NEXT has been switched to: what a commit of this device still holds of it is free (R40). -/
def mirrorKeyIn (sp : Nat) (m : MirKey) (s : State) : State :=
  if !listens s sp then s
  else match kwUnwrap 2 s.ciph.pair.key m.wrapped with
    | none => s
    | some key =>
      match m.onu with
      | some o =>
        match m.index.val with
        | 0 => modOnuKeys sp o (fun k => { k with msk := some key }) s
        | 3 => modOnuKeys sp o (fun k => { k with ik := key }) s
        | 4 => modOnuKeys sp o (fun k => { k with kek := key }) s
        | ix => modOnuKeys sp o (fun k =>
          let other := 3 - ix
          let k := if m.state.val = 2 then k.put other ((k.slot other).retire m.pier (frameNo s)) else k
          k.put ix (slotFrom s m key)) s
      | none =>
        let k := pierKeys s sp m.pier
        let other := 3 - m.index.val
        let k := if m.state.val = 2 then k.put other ((k.slot other).retire m.pier (frameNo s)) else k
        let s := if m.state.val = 1 then s else releaseObj ⟨.bcastKey, 4 * (3 * sp + m.pier) + m.index⟩ s
        setPierKeys sp m.pier (k.put m.index (slotFrom s m key)) s

/-- A SPAN record: the Teqd of each Pier, the reach and whether the Span is open on the mate; READY is judged on it, and the Splices of a
Span that has closed there are usable only once written back (R149, R205, R510, R520). -/
def mirrorSpanIn (sp : Nat) (m : MirSpan) (s : State) : State :=
  if !listens s sp then s
  else
    let s := if m.opened || (spanOf s sp).mirOpen then s else splicesStale sp s
    let s := modSpan sp (fun v => { v with
      reachMin := m.reach.1, reachMax := m.reach.2, mirOpen := m.opened
      diff := (m.model.map (·.1)).getD v.diff, reachMargin := (m.model.map (·.2)).getD v.reachMargin }) s
    forEach (List.range 3) (fun p s => judgeReady sp p (match m.teqd[p]? with
      | some t => modPier sp p (fun x => { x with mirTeqd := some t, teqd := t }) s
      | none => s)) s

/-- A HEARTBEAT: a Span that the mate shows as its own ends this device's release (R517). -/
def heartbeatIn (roles : Word) (s : State) : State :=
  forEach ((s.red.pair.runs.filter fun r => !r.taking && bit roles r.span).map (·.span)) endRun s

/-- A switch request: standby Spans are taken over, active ones released (R510, R515, R517). -/
def switchIn (row : Nat) (force : Bool) (spans : List Nat) (s : State) : State :=
  let act := spans.filter (activeHere s)
  release row force false act (takeOver row force (spans.filter fun sp => !act.contains sp) s)

/-- The snapshot of Spans ends: the standby answers, and they may synchronise (R511, R522). The active device's T_TX_CAL and
T_RX_CAL, which no record names, are values the spec leaves open (assumption 3). -/
def snapshotEnd (spans : Word) (s : State) : State :=
  let mine := (standbySpans s).filter (bit spans)
  let s := forEach mine (fun sp s => forEach (List.range 3) (fun p s =>
    let a := Config.freeNat s.free
    let b := Config.freeNat (s.free + 1)
    judgeReady sp p (modPier sp p (fun x => { x with mirTx := a, mirRx := b }) (drawn (drawn s)))) s) s
  let p := s.red.pair
  let left := p.gapSpans.filter fun sp => !mine.contains sp
  let s := setPair { p with snapDone := mine.foldl sinsert p.snapDone, gapSpans := left, rxNext := if left = [] then p.rxTop else p.rxNext } s
  judgePaired (if mine = [] then s else mateCall 0x0E11 [2, maskOf mine] s)

/-- The mate has received the snapshot of Spans. -/
def snapshotTaken (spans : Word) (s : State) : State :=
  let p := s.red.pair
  judgePaired (setPair { p with snapDone := ((activeSpans s).filter (bit spans)).foldl sinsert p.snapDone } s)

/-- An acknowledgement up to RSEQ: keys that waited for it fix their switch frame (R397, R418, R511). -/
def ackIn (rseq : Nat) (s : State) : State :=
  let p := s.red.pair
  let upTo (n : Nat) : Bool := (rseq + 2 ^ 32 - n) % 2 ^ 32 < 2 ^ 31
  let s := setPair { p with unacked := p.unacked.filter fun u => !upTo u.1 } s
  let met (a : Option Nat) : Bool := match a with | some n => upTo n | none => false
  let due := s.ciph.onus.filter fun e => met e.2.waits
  judgeSyncs (forEach s.ciph.piers (fun e s => forEach ([1, 2].filter fun ix => met (e.2.slot ix).ack) (fixBcast (e.1 / 3) (e.1 % 3)) s) (forEach due (fun e s => fixSwitch (e.1 / 512) (e.1 % 512) s) s))

/-- MIRROR_ACK_TIMER (R507, R511). -/
def ackOut (s : State) : State :=
  if s.red.hawser.up && standbySpans s ≠ [] then
    let p := s.red.pair
    flitsOut (recordFlits 15 0xFF ((p.rxNext + 2 ^ 32 - 1) % 2 ^ 32) []) (setPair { p with rxSince := if p.rxNext = p.rxTop then none else p.rxSince } s)
  else s

/-- The Spans that a HEARTBEAT names as its sender's own: a Span being taken over is from T1 on (R510, R517). -/
def claimedSpans (s : State) (n : Nat) : List Nat :=
  (activeSpans s).filter fun sp => !s.red.pair.runs.any fun r => r.span = sp && r.taking && (match r.t1 with | some t => n < t | none => true)

/-- The HEARTBEAT of a frame (R510). -/
def heartbeatOut (n : Nat) (s : State) : State :=
  if (s.red.pair.st = .bulk || s.red.pair.st = .paired) && claimedSpans s n ≠ [] then
    recordOut 7 0xFF [n % 2 ^ 51, (maskOf (claimedSpans s n)).toNat, s.red.pair.st.code] s
  else s

/-! ### Calls of family 0x0E, pair part (R532, R533) -/

def pairConfig : TxnCall where
  spec := { code := 0x0E01, who := .slice0, lens := [5], used := [0xFFFFFFFF, 0xFFFFFFFF, 0xFFFFFFFF, 0xE00007FF, 0x003F007F] }
  objs := fun _ i => do
    let c := fld (pw i.words 3) 10 0
    let b := fld (pw i.words 4) 6 0
    need (250 ≤ c && c ≤ 1500 && 1 ≤ b && b ≤ 100) .badArg
    .ok [⟨.pair, 0⟩]
  apply := fun i s => do
    let paired := pw i.words 1
    need ((List.range 32).all fun sp => (spanOf s sp).paired = bit paired sp || (spanOf s sp).st = .closed) .badState
    let w := pw i.words 3
    let s := forEach (List.range 32) (fun sp s =>
      if (spanOf s sp).paired = bit paired sp && (spanOf s sp).prefer = bit (pw i.words 2) sp then s
      else modSpan sp (fun v => { v with paired := bit paired sp, prefer := bit (pw i.words 2) sp, standby := v.standby && bit paired sp }) s) s
    .ok (refreshPair (setPair { s.red.pair with
      enable := bit w 31, auto := bit w 30, takeUnsync := bit w 29, mateConfirm := fld w 10 0, stbySearch := fld (pw i.words 4) 6 0,
      mateWorker := fld (pw i.words 4) 21 16 } s))

def pairHawserCal : TxnCall where
  spec := { code := 0x0E04, who := .slice0, intro := 0x0300, lens := [2], used := [0xFFFFFFFF, 0xFFFFFFFF] }
  objs := fun _ _ => .ok [⟨.pair, 1⟩]
  apply := fun i s => .ok (setPair { s.red.pair with asym := sgn 32 (pw i.words 1).toNat } s)

/-- `PAIR_STATUS`. -/
def pairStatus (s : State) : List Word :=
  let p := s.red.pair
  [put p.format 8 ||| wd p.st.code, maskOf (activeSpans s), maskOf (standbySpans s), maskOf p.sync, wd (unsgn 32 (deltaTb s)),
   put (min 0xFFFF (max (mirrorLag s) (lagHere s))) 16 ||| wd p.mateFw]

/-- `MATE_HELLO`: the mate's claims in, this device's out with the format chosen; 0 where there is none. -/
def mateHello (ws : List Word) (s : State) : State × List Word :=
  let own := helloWords s
  (helloFrom ws s, own ++ [wd ((commonFormat (fld (pw ws 0) 31 24) (fld (pw ws 0) 23 16)).getD 0)])

/-- `MATE_BULK`. -/
def mateBulk (ws : List Word) (s : State) : Res (State × List Word) := do
  let op := fld (pw ws 0) 1 0
  need (op = 1 || op = 2) .badArg
  need (s.red.pair.st = .bulk || s.red.pair.st = .paired) .badState
  .ok (if op = 1 then judgeSyncs (snapshot (spansIn (pw ws 1)) s) else snapshotTaken (pw ws 1) s, [])

end Sys2Proof.Machine
end

