-- ==== Sys2Proof/Machine/Power.lean ====
section
/-! DEFINITION. Power domains, adaptive voltage, load shedding and thermal protection (R34 to R36, R121 to R133). -/

namespace Sys2Proof.Machine

/-! ### Domains and their needs (R121, R122) -/

/-- The domains that a domain needs ON (R121). -/
def needsOf (d : Nat) : List Nat :=
  if d < 32 then [domPl (d / 8), 58 + d / 8, domQm (d / 8), domLb (busOf d)]
  else if d < 36 then [domQm (d - 32)]
  else if d < 40 then [domPl (d - 36)]
  else if d < 44 then [44, 45, 46, 47, 56, 57]
  else if d < 48 then []
  else if d < 50 then [domMs 0]
  else if d < 52 then [domMs 1]
  else if d = 55 then [53]
  else if d = 57 then [56]
  else if 58 ≤ d && d < 62 then [domQm (d - 58)]
  else []

/-- Whether a domain has a pace monitor (R543). -/
def hasPace (d : Nat) : Bool := d ≤ 47 || d = 55 || (57 ≤ d && d ≤ 63)

/-- The switch-ons that have not entered RAMP: the one whose voltage step runs, then those that wait (R127, R128). -/
def comingOn (s : State) : List SwitchOn := s.pwr.preRamp.toList ++ s.pwr.queue

/-- Whether a domain must stay powered: a powered domain, or one whose switch-on waits, needs it (R121, R122). -/
def neededBy (s : State) (d : Nat) : Bool :=
  (List.range 72).any fun e => (needsOf e).contains d && (domLive s e || (comingOn s).any fun o => o.dom = e)

/-- Whether a domain is ON, in RAMP or has a switch-on ahead (R121). -/
def willBeOn (s : State) (d : Nat) : Bool := (domOf s d).st = .on || (domOf s d).st = .ramp || (comingOn s).any fun o => o.dom = d

/-- Whether a domain's needs are ON now. -/
def needsMet (s : State) (d : Nat) : Bool := (needsOf d).all (domOn s)

def modDom (d : Nat) (f : Domain → Domain) (s : State) : State := setDom d (f (domOf s d)) s
def setPwr (x : Power) (s : State) : State := { s with pwr := x }

/-- The domain that holds a counter, none for those of the always-on domain (R161). -/
def domOfCounter (id : Nat) : Option Nat :=
  if id < 0x600000 then some (domQm (id % 0x100000 / 262144))
  else if id < 0x6C0000 then some (domSp ((id - 0x600000) % 0x40000 / 8192))
  else if id < 0x780000 then some (domSp ((id - 0x6C0000) % 0x10000 / 2048))
  else if id < 0x800000 then some (domSp ((id - 0x780000) % 0x4000 / 512))
  else if id < 0x820000 then some (domSp (id % 0x1000 / 3))
  else if id < 0x840000 then some (domSp (id % 0x1000 % 32))
  else if id < 0x841000 then some (domSp (id % 0x1000 % 96 / 3))
  else if id < 0x845000 then some (domSp (id % 0x1000 % 32))
  else if 0x850000 ≤ id && id < 0x860000 then some (domPl (id % 0x1000 % 4))
  else if 0x862000 ≤ id && id < 0x870000 then some (domQm (id % 0x1000 % 4))
  else if 0x870000 ≤ id && id < 0x871000 then some (domMs (id % 0x1000 / 4 / 8))
  else if id = 0x871000 || (0x871000 < id && id < 0x872000) then some (domMs (id % 0x1000 / 8))
  else if 0x872000 ≤ id && id < 0x873000 then some (domMs (id % 0x1000 / 16 / 8))
  else if 0x873000 ≤ id && id < 0x875000 then some (domMs (id % 0x1000 / 4 / 8))
  else if 0x875000 ≤ id && id < 0x878000 then some (domMs (id % 0x1000 / 8))
  else if 0x878000 ≤ id && id < 0x879000 then some (domMs (id % 0x1000 / 2 / 8))
  else if 0x880000 ≤ id && id < 0x892000 then some (domOfLane (id % 0x1000))
  else if 0x892000 ≤ id && id < 0x8B0000 then some domTd
  else if 0x8B0000 ≤ id && id < 0x8B3000 then some (domLb (id % 0x1000 / 36))
  else if 0x8B3000 ≤ id && id < 0x8C0000 then some (domLb (id % 0x1000))
  else if 0x8C0000 ≤ id && id < 0x8C2000 then some (id % 0x1000)
  else none

/-- The counts that a domain holds are lost (R161). -/
def dropCounts (d : Nat) (s : State) : State :=
  { s with ctl := { s.ctl with cntRun := kfilter s.ctl.cntRun fun id _ => domOfCounter id ≠ some d || (0x8C0000 ≤ id && id < 0x8C1000) } }

/-! ### What a domain loses with its power (R121 to R123) -/

/-- A Span loses its Splices, its bit error windows and the state of its Truss; its configuration stays. -/
def spanPowerOff (sp : Nat) (s : State) : State :=
  let s := modSpan sp (fun v => { v with truss := {}, used := [] }) s
  let s := forEach (onusOf s sp) (fun o s => modOnu sp o (fun x =>
    { x with splice := {}, spliceOk := false, failRun := 0, sd := {}, sf := {}, sdLast := (0, 0), missRun := 0, hdrRun := 0 }) s) s
  let s := { s with pon := { s.pon with allocs := kmap s.pon.allocs fun k a => if k / 2048 = sp then
    { a with st := [0, 0, 0, 0], d := 0, report := none, latched := none, hist := [], pollAge := 64, tmBytes := 0, tmIdle := false, tmSeen := false, tmNew := false } else a } }
  forEach (List.range 3) (fun p s => modPier sp p (fun x => { x with eq := {}, rotation := none, burstSeen := false }) s) s

/-- The TDM block loses what its lanes, demappers and circuits hold; a swap that its demappers had not finished is over. -/
def tdmPowerOff (s : State) : State :=
  let trace (t : Trace) : Trace := { check := t.check, expected := t.expected, sent := t.sent }
  let lane (x : Sdh) : Sdh := { j0 := trace x.j0, aus := kmap x.aus fun _ a => { j1 := trace a.j1 }, tus := kmap x.tus fun _ t => { j2 := trace t.j2 } }
  let waits := s.tdm.tsiOld ≠ []
  let s := setMsp { s.tdm.msp with hand := [] } { s with tdm := { s.tdm with
    lanes := kmap s.tdm.lanes fun _ x => lane x, tsiOld := [], circuits := kmap s.tdm.circuits fun _ c => { c.restart with freq := 0, gap := 0 } } }
  if waits then swapDone s else s

/-- A domain is OFF: its state and its unlatched counts are gone. -/
def domLoses (d : Nat) (s : State) : State :=
  let s := quadOff d s
  let s :=
    if d < 32 then spanPowerOff d s
    else if d < 36 then pipePowerOff (d - 32) s
    else if 40 ≤ d && d < 44 then drainGroup (d - 40) s
    else if d = 54 then hawserLanes s
    else if d = 56 then { s with fwd := { s.fwd with hbm := [] } }
    else if d = 55 then tdmPowerOff s
    else if d = 62 || d = 63 then macPowerOff (d - 62) s
    else if 64 ≤ d then busPowerOff (d - 64) s
    else s
  dropCounts d s

/-- What comes back with a domain (R121, R274): a Truss's control store, a pipeline's static entries. -/
def domReturns (d : Nat) (s : State) : State := if d < 32 then loadVendor d s else if 32 ≤ d && d < 36 then pipePowerOn (d - 32) s else s

/-! ### Switching (R122 to R127) -/

/-- The link bit of lane 22 in MODE 10 follows domain TD (R472, R477). -/
def tdLink (d before : Nat) (s : State) : State := if d = domTd then lanesJoin [] (laneEvt 22 before s) else s

/-- A domain enters DRAIN. -/
def startDrain (d : Nat) (s : State) : State :=
  let before := laneFlags s 22
  let s := tdLink d before (quadDrain d (modDom d (fun x => { x with st := .drain, offAfterRamp := false }) s))
  if d = 54 then hawserLanes s else s

/-- Answers a list of calls. -/
def answerAll (rs : List Ref) (st : Status) (s : State) : State := forEach rs (fun r s => answer r st [] s) s

/-- A switch-on joins the queue. -/
def enqueueOn (o : SwitchOn) (s : State) : State := setPwr { s.pwr with queue := s.pwr.queue ++ [o] } s

/-- A switch-on ends without its RAMP: the call it answers and those that joined it return a status (R121, R127). -/
def endOn (o : SwitchOn) (st : Status) (s : State) : State :=
  let x := domOf s o.dom
  answerAll (o.ref.toList ++ x.onRefs) st (setDom o.dom { x with onRefs := [] } s)

/-- Cancels a domain's switch-on that has not entered RAMP; calls that wait return BAD_STATE (R127). -/
def cancelOn (d : Nat) (s : State) : State :=
  let gone := (comingOn s).filter fun o => o.dom = d
  let keep (o : SwitchOn) : Bool := o.dom ≠ d
  let s := setPwr { s.pwr with queue := s.pwr.queue.filter keep, preRamp := s.pwr.preRamp.filter keep } s
  forEach gone (fun o s => endOn o .badState s) s

/-- A domain reaches OFF from DRAIN (R122, R124). -/
def reachOff (d : Nat) (s : State) : State :=
  let x := domOf s d
  let s := domLoses d (setDom d { x with st := .off, pendingOn := false, offRefs := [], pace := 0, paceValid := false } s)
  let s := answerAll x.offRefs .done s
  if x.pendingOn then enqueueOn ⟨d, none, true⟩ s else s

/-- `PWR_DOMAIN_SET` ON (R121, R124, R126, R127). A call for a domain whose switch-on waits or runs joins it, and is answered with it. -/
def powerOnCall (code : Nat) (c : Call) (d : Nat) (s : State) : State :=
  let join (s : State) : State := let r := refFor code c s; modDom d (fun x => { x with onRefs := x.onRefs ++ [r] }) (defer_ r s)
  if s.pwr.tripped then respond code c .badState [] s
  else match (domOf s d).st with
    | .on => respond code c .done [] s
    | .ramp => join s
    | .drain => respond code c .pending [] (modDom d (fun x => { x with pendingOn := true }) s)
    | .off =>
      if (comingOn s).any fun o => o.dom = d then join s
      else if (needsOf d).all (willBeOn s) then let r := refFor code c s; enqueueOn ⟨d, some r, false⟩ (defer_ r s)
      else respond code c .badState [] s

/-- `PWR_DOMAIN_SET` OFF (R121, R123, R124, R127). -/
def powerOffCall (code : Nat) (c : Call) (d : Nat) (s : State) : State :=
  let r := refFor code c s
  let wait (s : State) : State := modDom d (fun x => { x with offRefs := x.offRefs ++ [r] }) (defer_ r s)
  match (domOf s d).st with
  | .off => respond code c .done [] (cancelOn d s)
  | .drain => modDom d (fun x => { x with pendingOn := false }) (wait s)
  | .ramp => if neededBy s d then respond code c .badState [] s else modDom d (fun x => { x with offAfterRamp := true }) (wait s)
  | .on =>
    if neededBy s d || (d < 32 && (spanOf s d).st ≠ .closed) then respond code c .badState [] s
    else startDrain d (wait s)

/-- `PWR_DOMAIN_SET`: bit 8 of its word chooses. -/
def powerSet (code : Nat) (c : Call) (s : State) : State :=
  let w := pw c.words 0
  let d := fld w 6 0
  if 71 < d then respond code c .badArg [] s
  else if bit w 8 then powerOnCall code c d s
  else powerOffCall code c d s

/-- The code of a domain's state (R133). -/
def domCode (x : Domain) : Nat :=
  match x.st with
  | .off => 0 | .ramp => 1 | .on => 2
  | .drain => if x.pendingOn then 4 else 3

/-- `PWR_DOMAIN_GET`. -/
def powerGet (ws : List Word) (s : State) : Res (List Word) := do
  let d := fld (pw ws 0) 6 0
  need (d ≤ 71) .badArg
  return [wd (domCode (domOf s d))]

/-- A set-point goes out over AVSBus (R36, R128). -/
def setVdd (mv : Nat) (s : State) : State :=
  let old := s.pwr.vdd
  if mv = old then s
  else
    let s := emit (.avs mv) (setPwr { s.pwr with vdd := mv } s)
    gaugeMax (cDev 22) (max mv old) (gaugeMin (cDev 21) (min mv old) s)

/-- Whether a domain is in RAMP. -/
def anyRamp (s : State) : Bool := (List.range 72).any fun d => (domOf s d).st = .ramp

/-- POWER_SWITCH_ON_TURN (R122, R127, R128): needs are checked again; the voltage step comes before RAMP, which starts from OFF alone. -/
def switchOnTurn (s : State) : State :=
  match s.pwr.queue, s.pwr.preRamp with
  | o :: rest, none =>
    if anyRamp s then s
    else
      let s := setPwr { s.pwr with queue := rest } s
      if domOn s o.dom then endOn o .done s
      else if (domOf s o.dom).st ≠ .off || !needsMet s o.dom then endOn o .badState s
      else setVdd (min 800 (s.pwr.vdd + 20)) (setPwr { s.pwr with preRamp := some o } s)
  | _, _ => s

/-- AVS_PRE_RAMP_WAIT_END (R128): RAMP begins, and a PC, MS or VD domain gets its keys back (R392). A need lost in the 100 µs ends the
switch-on as at its turn. -/
def rampStart (s : State) : State :=
  match s.pwr.preRamp with
  | none => s
  | some o =>
    let s := setPwr { s.pwr with preRamp := none } s
    if (domOf s o.dom).st ≠ .off || !needsMet s o.dom then endOn o .badState s
    else keysReturn o.dom (modDom o.dom (fun x => { x with st := .ramp, onFromPending := o.fromPending, onRefs := o.ref.toList ++ x.onRefs, offAfterRamp := false }) s)

/-- The one domain in RAMP (R127). -/
def rampingDom (s : State) : Option Nat := (List.range 72).find? fun d => (domOf s d).st = .ramp

/-- RAMP_END (R122, R124): the domain is ON; an OFF that waits drains it at once. -/
def rampEnd (s : State) : State :=
  match rampingDom s with
  | none => s
  | some d =>
    let x := domOf s d
    let s := tdLink d (laneFlags s 22) (setDom d { x with st := .on, onRefs := [], onFromPending := false, onSince := s.tb } s)
    let first := hasPace d && !(List.range 72).any fun e => e ≠ d && hasPace e && domOn s e
    let s := setPwr { s.pwr with paceLowValid := s.pwr.paceLowValid && !first } s
    let s := quadRampEnd d (domReturns d s)
    let s := answerAll x.onRefs .done s
    let s := if x.onFromPending then raise 930 [] [wd d] s else s
    if x.offAfterRamp then startDrain d s else s

/-! ### Load shedding (R130, R131) -/

/-- The lowest pace of the ON domains with a monitor, and its domain (R128). -/
def lowestPace (s : State) : Option (Nat × Nat) :=
  ((List.range 72).filter fun d => hasPace d && domOn s d && (domOf s d).paceValid).foldl
    (fun best d => match best with
      | some (e, v) => if (domOf s d).pace < v then some (d, (domOf s d).pace) else some (e, v)
      | none => some (d, (domOf s d).pace)) none

/-- Whether the pace is below the floor with no voltage left (R130). -/
def paceShort (s : State) : Bool :=
  s.pwr.vdd = 800 && match lowestPace s with | some (_, v) => v < 1819 | none => false

/-- A shed that waits for its Span goes on: the Span of a finished or refused switch-over closes, a closed Span's domain drains. -/
def shedAdvance (s : State) : State :=
  match s.pwr.shedding with
  | none => s
  | some d =>
    match (domOf s d).st with
    | .off => setPwr { s.pwr with shedding := none } s
    | .on =>
      if d < 32 && (spanOf s d).st ≠ .closed then
        if (spanOf s d).st = .closing || switching s d then s else startClosing d s
      else if neededBy s d then s
      else startDrain d s
    | _ => s

/-- The next domain of the shed list that may be shed is shed; the others are passed over (R130). -/
def shedFrom (l : List Nat) (s : State) : State :=
  match l with
  | [] => s
  | d :: t =>
    let s := setPwr { s.pwr with shedNext := s.pwr.shedNext + 1 } s
    if !domOn s d || neededBy s d then shedFrom t s
    else
      let s := raise 931 [] [wd d] (setPwr { s.pwr with shedding := some d } s)
      let s := if d < 32 && (spanOf s d).st = .opened && activeHere s d then releaseSynced 4 [d] s else s
      shedAdvance s

/-- Saend sheds the next domain, unless one is being shed. -/
def shedNextDom (s : State) : State := if s.pwr.shedding.isSome then s else shedFrom (s.pwr.shedList.drop s.pwr.shedNext) s

/-- Shedding stops: the next one starts at the head of the list. -/
def shedStop (s : State) : State := setPwr { s.pwr with paceShed := false, shedNext := 0 } s

/-- PACE_SHED_TIMEOUT (R130): the pace has been below the floor at 0.80 V for 10 ms. -/
def paceShedTimeout (s : State) : State := if paceShort s then shedNextDom (setPwr { s.pwr with paceShed := true } s) else s

/-- DRAIN_END (R122, R130): the domain is OFF, and shedding judges whether to shed the next one. -/
def drainEnd (d : Nat) (s : State) : State :=
  if (domOf s d).st ≠ .drain then s
  else
    let s := reachOff d s
    if s.pwr.shedding ≠ some d then s
    else
      let s := setPwr { s.pwr with shedding := none } s
      if s.pwr.paceShed && paceShort s then shedNextDom s else s

/-! ### The control law (R128, R129) -/

/-- A raise step. -/
def raiseStep (s : State) : State := setVdd (min (s.pwr.vdd + 10) 800) s

/-- AVS_CONTROL_TICK (R128): once per millisecond. With no pace there is nothing to act on. -/
def avsTick (s : State) : State :=
  match lowestPace s with
  | none => setPwr { s.pwr with lowerRuns := 0 } s
  | some (_, v) =>
    if v < s.pwr.raise then raiseStep (setPwr { s.pwr with lowerRuns := 0 } s)
    else if s.pwr.lower < v then
      let n := min 20 (s.pwr.lowerRuns + 1)
      let s := setPwr { s.pwr with lowerRuns := n } s
      if 20 ≤ n then setVdd (max (s.pwr.vdd - 5) 650) s else s
    else setPwr { s.pwr with lowerRuns := 0 } s

/-- PACE_ALARM (R129). -/
def paceAlarm (d : Nat) (s : State) : State := if domLive s d && hasPace d then raise 929 [] [wd d] (raiseStep s) else s

/-- Ten microseconds of the timebase, the length of a pace window (R34). -/
def paceTb : Nat := 10 * us

/-- Whether a domain was ON for the whole of the window that ends at an instant (R34). -/
def onForWindow (s : State) (d end_ : Nat) : Bool := domOn s d && (domOf s d).onSince + paceTb ≤ end_

/-- One domain's window of 10 µs ends with its mean in steps per µs, if the domain was ON for the whole of it (R34). -/
def paceOne (d steps end_ : Nat) (s : State) : State :=
  if !onForWindow s d end_ || !hasPace d then s
  else
    let v := steps / 10
    let s := modDom d (fun x => { x with pace := v, paceValid := true }) s
    let s := gaugeMin (cDom 0 d) v s
    let s := if v < 1819 then cnt (cDom 1 d) 1 s else s
    if v < 1819 && s.pwr.vdd = 800 then raise 928 [] [wd d] s else s

/-- The end of the pace window in progress: the next whole multiple of 10 µs of the timebase (R34). -/
def paceEnd (s : State) : Nat := let n := ceilDiv s.tb paceTb * paceTb; if n = s.pwr.lastPace then n + paceTb else n

/-- PACE_WINDOW_END: the counter reaches a multiple of 10 µs, with the steps of every domain's window (R34, R117). -/
def paceWindow (l : List (Nat × Nat)) (s : State) : State :=
  let end_ := paceEnd s
  let s := setPwr { s.pwr with lastPace := end_ } (advance end_ s)
  let s := forEach l (fun e s => paceOne e.1 e.2 end_ s) s
  match lowestPace s with
  | none => s
  | some (d, v) =>
    let s := setPwr { s.pwr with paceLowValid := true, paceLowDom := d, paceLow := v } s
    if 1819 ≤ v && s.pwr.tj < 460 then shedStop s else if 1819 ≤ v then setPwr { s.pwr with paceShed := false } s else s

/-! ### Temperature (R131); Tj in 0.25 °C -/

/-- The highest Tj of the second, as a 16-bit two's complement value (R543). -/
def gaugeTj (tj : Int) (s : State) : State :=
  let best := match kget s.ctl.cntRun (cDev 23) with | some v => max (sgn 16 v) tj | none => tj
  { s with ctl := { s.ctl with cntRun := kset s.ctl.cntRun (cDev 23) (unsgn 16 best) } }

/-- Takes note of Tj. -/
def noteTj (tj : Int) (s : State) : State :=
  let s := gaugeTj tj (setPwr { s.pwr with tj := tj } s)
  if tj < 460 && !s.pwr.paceShed then shedStop s else s

/-- THERMAL_WARN. -/
def thermalWarn (tj : Int) (s : State) : State :=
  let s := noteTj tj s
  if (4 * s.pwr.warn : Nat) ≤ tj then raise 932 [] [wd (unsgn 16 tj)] s else s

/-- THERMAL_HOT_TIMEOUT: Tj has been at or above 115 °C for 100 ms. -/
def thermalHot (tj : Int) (s : State) : State :=
  let s := noteTj tj s
  if 460 ≤ tj then shedNextDom s else s

/-- One domain loses its power at a trip: its calls are answered, and no DRAIN runs. -/
def tripDom (d : Nat) (s : State) : State :=
  let x := domOf s d
  let s := tdLink d (laneFlags s 22)
    (setDom d { x with st := .off, pendingOn := false, onFromPending := false, offAfterRamp := false, onRefs := [], offRefs := [], pace := 0, paceValid := false } s)
  let s := if x.st = .off then s else domLoses d s
  answerAll x.offRefs .done (answerAll x.onRefs .badState s)

/-- THERMAL_TRIP: hardware darkens every Pier and switches every domain off (R131, R515). -/
def thermalTrip (tj : Int) (s : State) : State :=
  let s := noteTj tj s
  if tj < 500 || s.pwr.tripped then s
  else
    let s := setPwr { s.pwr with tripped := true } s
    let s := releaseSynced 4 ((List.range 32).filter (activeHere s)) s
    let s := forEach (List.range 32) (fun sp s => threePiers (fun p s => opticDark sp p s) s) s
    let s := forEach ((List.range 32).filter fun sp => (spanOf s sp).st ≠ .closed) (fun sp s => modSpan sp (fun v => { v with openPending := false }) (spanClosed sp s)) s
    let gone := comingOn s
    let s := setPwr { s.pwr with queue := [], preRamp := none, shedding := none, paceShed := false, shedNext := 0 } s
    let s := forEach gone (fun o s => answerOpt o.ref .badState [] s) s
    let s := forEach (List.range 72) tripDom s
    raise 933 [] [wd (unsgn 16 tj)] s

/-- THERMAL_CLEAR: below 100 °C after a trip. -/
def thermalClear (tj : Int) (s : State) : State :=
  let s := noteTj tj s
  if s.pwr.tripped && tj < 400 then raise 934 [] [wd (unsgn 16 tj)] (setPwr { s.pwr with tripped := false } s) else s

/-- PMB_ALERT: the regulator's status word (R535). -/
def pmbAlert (status : Nat) (s : State) : State := raise 935 [] [wd status] s

/-! ### Calls of family 0x01 (R129, R133) -/

/-- The domains of a shed list, up to 0xFF. -/
def shedOf (ws : List Word) : List Nat := ((bytesOfWords ws).map (·.toNat)).takeWhile (· ≠ 0xFF)

/-- `AVS_CONFIG`. -/
def avsConfig : TxnCall where
  spec := { code := 0x0140, who := .slice0, intro := 0x0300, lens := [5], used := [0xFFFFFFFF, 0xFFFFFFFF, 0xFFFFFFFF, 0xFFFFFFFF, 0xFFFFFFFF] }
  objs := fun _ i => do
    let w := pw i.words 1
    let (hi, lo) := (fld w 31 16, fld w 15 0)
    need (1900 ≤ lo && lo ≤ 2400 && lo + 100 ≤ hi) .badArg
    need ((bytesOfWords (i.words.drop 2)).all fun b => b.toNat ≤ 71 || b.toNat = 0xFF) .badArg
    return [⟨.avs, 0⟩]
  apply := fun i s =>
    let w := pw i.words 1
    .ok (setPwr { s.pwr with raise := fld w 15 0, lower := fld w 31 16, shedList := shedOf (i.words.drop 2), shedNext := 0 } s)

/-- `THERMAL_CONFIG`. -/
def thermalConfig : TxnCall where
  spec := { code := 0x0141, who := .slice0, intro := 0x0201, lens := [2], used := [0xFFFFFFFF, 0x7F] }
  objs := fun _ i => do
    let w := fld (pw i.words 1) 6 0
    need (80 ≤ w && w ≤ 110) .badArg
    return [⟨.thermal, 0⟩]
  apply := fun i s => .ok (setPwr { s.pwr with warn := fld (pw i.words 1) 6 0 } s)

/-- `THERMAL_READ`: the power is the regulator's telemetry, a free value (R133). -/
def thermalRead (s : State) : State × List Word :=
  (drawn s, [wd (unsgn 16 s.pwr.tj), wd s.pwr.vdd, wd s.pwr.paceLow, Config.freeWord s.free &&& 0xFFFF])

end Sys2Proof.Machine
end

