-- ==== Sys2Proof/Machine/Boot.lean ====
section
/-! DEFINITION. Resets, boot, measurement, attestation and the Saend restart (R107 to R120, R49). -/

namespace Sys2Proof.Machine

def setBoot (x : Boot) (s : State) : State := { s with boot := x }

/-! ### The flash (R111) -/

/-- Bytes of a slot. -/
def slotSize : Nat := 2 ^ 25

/-- The byte at an offset of a slot. -/
def flashByte (s : State) (slot off : Nat) : Byte := kgetD s.boot.flash (slotSize * slot + off) 0xFF

/-- Bytes of a slot from an offset. -/
def flashBytes (s : State) (slot off n : Nat) : List Byte := (List.range n).map fun i => flashByte s slot (off + i)

/-- A flash with a byte written, in canonical form: a byte of 0xFF is not listed. -/
def flashPut (m : KMap Byte) (a : Nat) (b : Byte) : KMap Byte := if b = 0xFF then kerase m a else kset m a b

/-- A flash with bytes written from an address on. -/
def flashWrite (m : KMap Byte) (a : Nat) (bs : List Byte) : KMap Byte :=
  match bs with
  | [] => m
  | b :: t => flashWrite (flashPut m a b) (a + 1) t

/-- The canonical form of the flash: addresses strictly rising and within the two slots, no byte of 0xFF listed. -/
def Memory.wf (m : KMap Byte) : Bool := kwf m && m.all fun e => e.2 ≠ 0xFF && e.1 < 2 * slotSize

/-- A header field of four bytes. -/
def hdr (s : State) (slot off : Nat) : Nat := leNat (flashBytes s slot off 4)

/-- The security version of a slot. -/
def slotSvn (s : State) (slot : Nat) : Nat := hdr s slot 8 % 65536

/-- Offset and length of an image: 0 bootloader, 1 Saend, 2 vendor bank. -/
def image (s : State) (slot k : Nat) : Nat × Nat := (hdr s slot (0x10 + 8 * k), hdr s slot (0x14 + 8 * k))

/-- The digest that the header gives for an image. -/
def digestOf (s : State) (slot k : Nat) : List Byte := flashBytes s slot (0x28 + 48 * k) 48

/-- Whether two images are apart. -/
def apart (a b : Nat × Nat) : Bool := a.1 + a.2 ≤ b.1 || b.1 + b.2 ≤ a.1

/-- MAGIC, FORMAT, DEVICE and the image bounds (R111). -/
def headerOk (s : State) (slot : Nat) : Bool :=
  let (a, b, c) := (image s slot 0, image s slot 1, image s slot 2)
  hdr s slot 0 = 0x4C45434D && hdr s slot 4 = 1 && hdr s slot 0xC = 0x3296 && a.2 ≤ 2 ^ 19 && b.2 ≤ 24 * 2 ^ 20 && c.2 = 147456 &&
    [a, b, c].all (fun i => 0x1000 ≤ i.1 && i.1 + i.2 ≤ slotSize) && apart a b && apart a c && apart b c

/-- The signature over the header. -/
def slotSigned (s : State) (slot : Nat) : Bool := p384.verify Config.vendorKey (sha384 (flashBytes s slot 0 0xFA0)) (flashBytes s slot 0xFA0 96)

/-- Whether an image has its digest. -/
def imageGood (s : State) (slot k : Nat) : Bool :=
  let (off, n) := image s slot k
  sha384 (flashBytes s slot off n) = digestOf s slot k

/-! ### Boot (R109 to R113) -/

/-- The slot that a reset tries first (R109, R114). -/
def firstSlot (b : Boot) : Nat := (b.choiceOnce <|> b.choiceSlot).getD b.strapBoot

/-- The result recorded for a slot. -/
def setResult (slot v : Nat) (b : Boot) : Boot := if slot = 0 then { b with resultA := v } else { b with resultB := v }

/-- The straps are sampled and the boot ROM starts on the first slot. -/
def bootStart (role boot smb : Nat) (s : State) : State :=
  let b := { s.boot with released := true, strapRole := role, strapBoot := boot, strapSmb := smb }
  setBoot { b with stage := 0, trying := some (firstSlot b), choiceOnce := none } s

/-- RESET_RELEASE. -/
def resetRelease (role boot smb : Nat) (s : State) : State := if s.boot.released then s else bootStart role boot smb s

/-- A slot fails with a cause: the other one is tried, or both have failed (R112, R113). -/
def slotFailed (slot cause : Nat) (s : State) : State :=
  let b := setResult slot cause s.boot
  let other := if slot = 0 then b.resultB else b.resultA
  if other = 0 then setBoot { b with stage := 0, trying := some (1 - slot) } s
  else emit .spiReleased (setBoot { b with stage := 0xF, trying := none } s)

/-- The first check of the boot ROM that a slot fails, 0 for none (R112). -/
def romCheck (s : State) (slot : Nat) (readError : Bool) : Nat :=
  if readError then 6 else if !headerOk s slot then 2 else if !slotSigned s slot then 3
  else if slotSvn s slot < s.boot.svnMin then 4 else if !imageGood s slot 0 then 5 else 0

/-- BOOT_ROM_CHECK_DONE. -/
def romDone (readError : Bool) (s : State) : State :=
  match s.boot.stage, s.boot.trying with
  | 0, some slot =>
    let e := romCheck s slot readError
    if e ≠ 0 then slotFailed slot e s else let s := extendMeas 0 (digestOf s slot 0) s; setBoot { s.boot with stage := 1 } s
  | _, _ => s

/-- The micro-words of a slot's vendor bank: 24 bytes each, least significant first (R5, R111). -/
def vendorWords (s : State) (slot : Nat) : List (BitVec 192) :=
  let (off, n) := image s slot 2
  (List.range (n / 24)).map fun i => BitVec.ofNat 192 (leNat (flashBytes s slot (off + 24 * i) 24))

/-- BOOTLOADER_CHECK_DONE: the checked vendor bank stands in control-complex memory for Saend to load (R108, R112). -/
def loaderDone (readError : Bool) (s : State) : State :=
  match s.boot.stage, s.boot.trying with
  | 1, some slot =>
    if readError then slotFailed slot 6 s
    else if !imageGood s slot 1 || !imageGood s slot 2 then slotFailed slot 5 s
    else
      let s := extendMeas 2 (digestOf s slot 2) (extendMeas 1 (digestOf s slot 1) s)
      let s := setBoot { setResult slot 1 s.boot with stage := 2, trying := none, slot := slot, svnRunning := slotSvn s slot } s
      { s with pon := { s.pon with vendorBank := vendorWords s slot } }
  | _, _ => s

/-- `BOOT_STATUS` (R117). -/
def bootStatus (b : Boot) : Word :=
  put b.strapSmb 21 ||| put b.strapBoot 20 ||| put b.strapRole 18 ||| put b.slot 16 ||| put b.resultB 12 ||| put b.resultA 8 ||| wd b.stage

/-- SAEND_READY (R110, R112, R413): the Saend that a bootloader started loads the vendor bank and serves the channels; the events of the
boot are raised, slice 0's key and the key of the committed copies are drawn (R392). -/
def saendReady (s : State) : State :=
  if s.boot.ready || s.boot.restarting || s.boot.stage ≠ 2 then s
  else
    let s := forEach (List.range 32) loadVendor s
    let s := setBoot { s.boot with ready := true, stage := 3, trying := none } s
    let s := if s.boot.strapRole = 3 then raise 992 [] [3] s else s
    let other := if s.boot.slot = 0 then s.boot.resultB else s.boot.resultA
    let s := if 2 ≤ other then raise 993 [] [bootStatus s.boot] s else s
    drawWrap (if (kget s.ciph.xts 0).isNone then drawXts 0 s else s)

/-! ### Resets (R49, R107, R536) -/

/-- Everything at its reset value, but fuses, flash contents and the boot choice, and the model's own fields. -/
def resetAll (s : State) : State :=
  { State.reset with
    boot := {
              svnMin := s.boot.svnMin, ownerHash := s.boot.ownerHash, ownerState := s.boot.ownerState, flash := s.boot.flash,
              choiceSlot := s.boot.choiceSlot, choiceOnce := s.boot.choiceOnce },
    out := s.out, free := s.free, pending := s.pending }

/-- DEVICE_RESET: the PCIe link and configuration space survive, the straps are sampled again (R107, R109). -/
def deviceReset (role boot smb : Nat) (s : State) : State :=
  if !s.boot.resetAsked then s
  else
    let t := resetAll s
    let funcs := kmap s.ctl.funcs fun _ f => ({ msixMask := f.msixMask, msixPend := f.msixPend } : Func)
    bootStart role boot smb { t with ctl := { t.ctl with numVfs := s.ctl.numVfs, funcs := funcs }, lane := { t.lane with pcie := s.lane.pcie } }

/-- Releases every Cleat that an identity holds. -/
def releaseCleats (ch : Nat) (s : State) : State :=
  { s with ctl := { s.ctl with cleats := kmap s.ctl.cleats fun _ c => if c.holder = ch then { c with holder := 0xFF } else c } }

/-- A channel whose queues the hardware empties and whose collision flags it clears; what remains of a message is gone with them. -/
def Channel.emptied (c : Channel) : Channel :=
  { c with inq := [], inExpect := 0, inColl := false, outq := [], outExpect := 0, outColl := false }

/-- FUNCTION_LEVEL_RESET and VF_DISABLE (R49, R215, R536). -/
def functionReset (fn : Nat) (s : State) : State :=
  let s := setChanRoom fn (chanOf s fn) (chanOf s fn).emptied s
  let s := closeSession fn s
  let s := setChan fn { chanOf s fn with routes := [] } s
  let s := releaseCleats fn s
  let f := funcOf s fn
  setFunc fn { f with snap := {}, rings := kmap f.rings fun _ r => { r with enable := false, restart := false } } s

/-- PCIE_PERST: every function resets, and with it its BAR0 registers, and the endpoint (R107). -/
def perst (s : State) : State :=
  let s := forEach (List.range 16) (fun fn s =>
    let s := functionReset fn s
    setChan fn { chanOf s fn with freeThresh := 16, inSpaceEn := false, outMsgEn := true } (setFunc fn {} s)) s
  { s with ctl := { s.ctl with numVfs := 0 }, lane := { s.lane with pcie := {} } }

/-- VF_ENABLE: NumVFs (R45). Functions it no longer covers are disabled (R49). -/
def vfEnable (n : Nat) (s : State) : State :=
  let gone := (List.range 16).filter fun fn => n < fn && fn ≤ s.ctl.numVfs
  let s := forEach gone functionReset s
  { s with ctl := { s.ctl with numVfs := n } }

/-- VF_DISABLE of one function; the virtual functions above it are no longer there either, as SR-IOV counts them. -/
def vfDisable (fn : Nat) (s : State) : State := if fn = 0 || s.ctl.numVfs < fn then s else vfEnable (fn - 1) s

/-! ### A Saend restart (R108) -/

/-- The event messages that a channel's outbound queue and backlog hold. -/
def eventsQueued (c : Channel) : Nat :=
  (c.outq.filter fun w => w.hd && w.event).length + (c.backlog.filter (·.event)).length

/-- SAEND_WATCHDOG_EXPIRY: queues empty, sessions close with their routes kept, open transactions are rolled back, Saend's PLOAM
messages are lost. Switch-ons that wait, a voltage step under way and a shed stay as they are (assumption 125). -/
def restartBegin (s : State) : State :=
  if !s.boot.ready then s
  else
    let lost := ((List.range 19).map fun ch => eventsQueued (chanOf s ch)).sum
    let s := setBoot { s.boot with ready := false, restarting := true, lostEvents := lost } s
    let s := forEach (List.range 19) (fun ch s =>
      let c := chanOf s ch
      setChanRoom ch c { c.emptied with backlog := [], session := none, waiting := [], report := none } s) s
    let s := setTxns (s.ctl.txns.filter fun t => t.phase ≠ .opened) s
    { s with pon := { s.pon with piers := kmap s.pon.piers fun _ x => { x with ploam := x.ploam.filter fun m => m.origin ≠ 3 } } }

/-- One event message for each source that occurred and that a channel's routes select. -/
def deliverHeld (ch : Nat) (s : State) : State :=
  forEach (((chanOf s ch).evts.filter fun e => e.2.due).map (·.1)) (fun src s => if msgRouted s ch src then sendEvt ch src s else s) s

/-- Whether an allocation of an ACTIVE ONU still needs its Assign_Alloc-ID and none waits (R240, R254). -/
def untold (s : State) (sp a : Nat) : Bool :=
  match allocOf s sp a with
  | some x => !x.told && (onuOf s sp x.onu).st = .active && !(pierOf s sp (onuOf s sp x.onu).pier).ploam.any fun m => m.kind = .assignAllocId && m.args = [a, x.line]
  | none => false

/-- SAEND_RESTART_COMPLETE (R108, R240): the allocations that waited for Saend are told. -/
def restartEnd (s : State) : State :=
  if !s.boot.restarting then s
  else
    let s := setBoot { s.boot with ready := true, restarting := false } s
    let s := raise 968 ((List.range 16).filter (· ≠ 0)) [wd (min s.boot.lostEvents 0xFFFF)] s
    let s := forEach (List.range 19) deliverHeld s
    let spans := List.range 32
    let s := forEach spans (fun sp s => forEach ((onusOf s sp).filter fun o => activates s sp && ((onuOf s sp o).st = .ranging || (onuOf s sp o).st = .registering))
      (fun o s => deactivate sp o false s) s) s
    let s := forEach spans (fun sp s => forEach ((allocsOf s sp).filter fun a => activates s sp && untold s sp a)
      (fun a s => match allocOf s sp a with | some x => tell sp x.onu .assignAllocId [a, x.line] s | none => s) s) s
    forEach spans (fun sp s => forEach ((onusOf s sp).filter fun o => (onuKeys s sp o).exchange && (onuOf s sp o).st = .active) (askKey sp) s) s

/-! ### Calls of family 0x01 (R114 to R120, R133) -/

/-- The fused hash as the calls and the report give it: 32 bytes. -/
def ownerBytes (s : State) : List Byte := if s.boot.ownerState = 0 then List.replicate 32 0 else (s.boot.ownerHash ++ List.replicate 32 0).take 32

/-- `DEV_INFO`. -/
def devInfo (s : State) : List Word :=
  let b := s.boot
  [put b.strapSmb 19 ||| put b.strapBoot 18 ||| put b.strapRole 16 ||| wd b.svnRunning, put b.svnMin 16 ||| putb (b.ownerState ≠ 0) 0] ++ wordsOfBytes (ownerBytes s)

/-- A measurement register. -/
def measOf (s : State) (n : Nat) : List Byte := kgetD s.boot.meas n (List.replicate 48 0)

/-- The report without its signature (R118). -/
def reportBody (ch : Nat) (nonce : List Word) (s : State) : List Byte :=
  let slice := match sliceOf s ch with | some k => k | none => 0xF0
  toLe 4 1 ++ toLe 4 0x329600B0 ++ toLe 4 0x00000302 ++ toLe 4 (256 * ch + slice) ++ bytesOfWords nonce ++ toLe 8 (nowNs s) ++
    toLe 4 (s.boot.slot * 65536 + s.boot.svnRunning) ++ toLe 4 s.boot.meas3Count ++ (List.range 4).flatMap (measOf s) ++ ownerBytes s ++ List.replicate 16 0

/-- Bytes for the caller: written to its buffer by DMA, or held for `DEV_REPORT_READ` (R118, R119). -/
def handOut (ch addr : Nat) (bs : List Byte) (s : State) : State :=
  let s := setChan ch { chanOf s ch with report := if addr = 0 then some bs else none } s
  if addr = 0 then s else emit (.dma ch addr bs) s

/-- Identity 0x12 has no DMA: it may make these calls with ADDR 0 alone (R132). -/
def noDma (ch addr : Nat) : Res Unit := need (ch < 16 || addr = 0) .notOwner

/-- `DEV_ATTEST`. -/
def devAttest (ch : Nat) (ws : List Word) (s : State) : Res (State × List Word) := do
  let addr := wide ws 8 2
  noDma ch addr
  let body := reportBody ch (ws.take 8) s
  let bs := body ++ p384.sign Config.identityKey (Config.freeNat s.free) (sha384 body)
  return (handOut ch addr bs (drawn s), [wd 400])

/-- `DEV_CERT_READ`. -/
def devCertRead (ch : Nat) (ws : List Word) (s : State) : Res (State × List Word) := do
  let addr := wide ws 0 2
  let n := Config.certChain.length
  noDma ch addr
  need (addr = 0 || n ≤ fld (pw ws 2) 15 0) .noSpace
  return (handOut ch addr Config.certChain s, [wd n &&& 0xFFFF])

/-- `DEV_REPORT_READ`. -/
def devReportRead (ch : Nat) (ws : List Word) (s : State) : Res (List Word) :=
  match (chanOf s ch).report with
  | none => .error .badState
  | some bs => .ok (((wordsOfBytes bs).drop (fld (pw ws 0) 13 0)).take 14)

/-- `DEV_FLASH_WRITE`. -/
def devFlashWrite (ch : Nat) (ws : List Word) (s : State) : Res (State × List Word) := do
  let len := fld (pw ws 2) 24 0
  let off := fld (pw ws 3) 24 0
  let slot := fld (pw ws 4) 0 0
  need (len % 4096 = 0 && off % 4096 = 0 && off + len ≤ slotSize) .badArg
  need (slot ≠ s.boot.slot) .badState
  return (drawn (setBoot { s.boot with flash := flashWrite s.boot.flash (slotSize * slot + off) (hostBytes ch (wide ws 0 2) len s) } s), [])

/-- `DEV_SLOT_SET`. -/
def devSlotSet (ws : List Word) (s : State) : Res (State × List Word) := do
  let slot := fld (pw ws 0) 0 0
  need (headerOk s slot && slotSigned s slot && imageGood s slot 0 && imageGood s slot 1 && imageGood s slot 2) .signature
  return (setBoot (if bit (pw ws 0) 1 then { s.boot with choiceOnce := some slot } else { s.boot with choiceSlot := some slot, choiceOnce := none }) s, [])

/-- `DEV_RESET`: DONE, then 10 ms later the reset; the Spans the device is active for go to the mate at once (R133, R515). -/
def devReset (ws : List Word) (s : State) : Res (State × List Word) := do
  need (pw ws 0 = 0x52535444) .badArg
  let mine := (activeSpans s).filter s.red.pair.sync.contains
  let s := if mine = [] then s else releaseSynced 3 mine s
  return (setBoot { s.boot with resetAsked := true } s, [])

/-- `DEV_SVN_ADVANCE`. -/
def devSvnAdvance (s : State) : Res (State × List Word) := do
  need (s.boot.svnMin < 64) .noSpace
  let n := min 64 s.boot.svnRunning
  if n ≤ s.boot.svnMin then return (s, [])
  else return (raise 997 [] [wd n] (setBoot { s.boot with svnMin := n } s), [])

/-- `OWNER_KEY_FUSE`: the read-back may differ, a free choice; what the fuses then hold is free as well. -/
def ownerKeyFuse (ws : List Word) (s : State) : State × Status :=
  if pw ws 8 ≠ 0x4B455946 then (s, .badArg)
  else if s.boot.ownerState ≠ 0 then (s, .badState)
  else
    let good := Config.freeBool s.free
    let s := drawn s
    if good then (raise 996 [] [0] (setBoot { s.boot with ownerState := 1, ownerHash := bytesOfWords (ws.take 8) } s), .done)
    else
      let bad := bytesOfWords ((List.range 8).map fun i => Config.freeWord (s.free + i))
      (raise 996 [] [1] (setBoot { s.boot with ownerState := 2, ownerHash := bad } { s with free := s.free + 8 }), .badState)

end Sys2Proof.Machine
end

