-- ==== Sys2Proof/Machine/BootCommands.lean ====
section
/-! DEFINITION. The commands of boot, resets and attestation. -/

namespace Sys2Proof.Machine

/-- POWER_ON_RESET: PMB_RESET_N is low (R107). -/
def execPowerOnReset (s : State) : Out := .next (resetAll s)
def execResetRelease (role : Fin 4) (boot : Fin 2) (smb : Fin 8) (s : State) : Out := .next (resetRelease role boot smb s)
def execBootRomCheckDone (readError : Bool) (s : State) : Out := .next (romDone readError s)
def execBootloaderCheckDone (readError : Bool) (s : State) : Out := .next (loaderDone readError s)
def execSaendReady (s : State) : Out := .next (saendReady s)
def execDeviceReset (role : Fin 4) (boot : Fin 2) (smb : Fin 8) (s : State) : Out := .next (deviceReset role boot smb s)
def execPciePerst (s : State) : Out := .next (perst s)
def execFunctionLevelReset (fn : Fn) (s : State) : Out := .next (functionReset fn s)
def execVfEnable (n : Fin 16) (s : State) : Out := .next (vfEnable n s)
def execVfDisable (fn : Fn) (s : State) : Out := .next (vfDisable fn s)

/-- JTAG_TEST_RESET: the TAP controller alone, of which the spec gives the machine no state (R107). -/
def execJtagTestReset (s : State) : Out := .next s
def execSaendWatchdogExpiry (s : State) : Out := .next (restartBegin s)
def execSaendRestartComplete (s : State) : Out := .next (restartEnd s)

def devInfoSpec : CallSpec := { code := 0x0101, who := .session, extra := [18], lens := [0], used := [] }
def execDevInfo (c : Call) (s : State) : Out := serveRead devInfoSpec c s fun s => .ok (devInfo s)

def devAttestSpec : CallSpec := {
  code := 0x0102, who := .session, extra := [18], lens := [10],
  used := [0xFFFFFFFF, 0xFFFFFFFF, 0xFFFFFFFF, 0xFFFFFFFF, 0xFFFFFFFF, 0xFFFFFFFF, 0xFFFFFFFF, 0xFFFFFFFF, 0xFFFFFFFF, 0xFFFFFFFF] }
def execDevAttest (c : Call) (s : State) : Out := serveAct devAttestSpec c s (devAttest c.chan c.words)

def devCertReadSpec : CallSpec := { code := 0x0103, who := .session, extra := [18], lens := [3], used := [0xFFFFFFFF, 0xFFFFFFFF, 0xFFFF] }
def execDevCertRead (c : Call) (s : State) : Out := serveAct devCertReadSpec c s (devCertRead c.chan c.words)

def devReportReadSpec : CallSpec := { code := 0x0104, who := .session, extra := [18], lens := [1], used := [0x3FFF] }
def execDevReportRead (c : Call) (s : State) : Out := serveRead devReportReadSpec c s (devReportRead c.chan c.words)

def devFlashWriteSpec : CallSpec := { code := 0x0110, who := .slice0, lens := [5], used := [0xFFFFFFFF, 0xFFFFFFFF, 0x1FFFFFF, 0x1FFFFFF, 1] }
def execDevFlashWrite (c : Call) (s : State) : Out := serveAct devFlashWriteSpec c s (devFlashWrite c.chan c.words)

def devSlotSetSpec : CallSpec := { code := 0x0111, who := .slice0, extra := [18], lens := [1], used := [3] }
def execDevSlotSet (c : Call) (s : State) : Out := serveAct devSlotSetSpec c s (devSlotSet c.words)

def devResetSpec : CallSpec := { code := 0x0112, who := .slice0, extra := [18], lens := [1], used := [0xFFFFFFFF] }
def execDevReset (c : Call) (s : State) : Out := serveAct devResetSpec c s (devReset c.words)

def devSvnAdvanceSpec : CallSpec := { code := 0x0113, who := .slice0, intro := 0x0300, lens := [0], used := [] }
def execDevSvnAdvance (c : Call) (s : State) : Out := serveAct devSvnAdvanceSpec c s devSvnAdvance

def ownerKeyFuseSpec : CallSpec := {
  code := 0x0120, who := .slice0, lens := [9],
  used := [0xFFFFFFFF, 0xFFFFFFFF, 0xFFFFFFFF, 0xFFFFFFFF, 0xFFFFFFFF, 0xFFFFFFFF, 0xFFFFFFFF, 0xFFFFFFFF, 0xFFFFFFFF] }
def execOwnerKeyFuse (c : Call) (s : State) : Out :=
  serve ownerKeyFuseSpec c s fun s => let (s, st) := ownerKeyFuse c.words s; respond 0x0120 c st [] s

end Sys2Proof.Machine
end

