-- ==== Sys2Proof/Machine/CipherCommands.lean ====
section
/-! DEFINITION. The commands of the entropy source and the calls of family 0x0A that pass no transaction. -/

namespace Sys2Proof.Machine

def execEntropyHealthFail (test : Word) (s : State) : Out := .next (entropyFail test s)
def execEntropyRecovered (s : State) : Out := .next (entropyRecovered s)
def execDrbgReseed (s : State) : Out := .next (reseed s)

def ponKeyRollSpec : CallSpec := { code := 0x0A03, who := .bound, lens := [1], used := [0x1FF001F] }
def execPonKeyRoll (c : Call) (s : State) : Out := serveAct ponKeyRollSpec c s (ponKeyRoll c.chan c.words)

def ponKeyStatusSpec : CallSpec := { code := 0x0A04, who := .bound, lens := [1], used := [0x1FF001F] }
def execPonKeyStatus (c : Call) (s : State) : Out := serveRead ponKeyStatusSpec c s (ponKeyStatus c.chan c.words)

def macsecSaReadSpec : CallSpec := { code := 0x0A15, who := .slice0, lens := [1], used := [0x001F0133] }
def execMacsecSaRead (c : Call) (s : State) : Out := serveRead macsecSaReadSpec c s (macsecSaRead c.words)

def xtsStatusSpec : CallSpec := { code := 0x0A20, who := .bound, lens := [1], used := [0xF0000] }
def execXtsStatus (c : Call) (s : State) : Out := serveRead xtsStatusSpec c s (xtsStatus c.chan c.words)

def pairKeyStatusSpec : CallSpec := { code := 0x0A31, who := .slice0, intro := 0x0300, lens := [0], used := [] }
def execPairKeyStatus (c : Call) (s : State) : Out := serveRead pairKeyStatusSpec c s fun s => .ok (pairKeyStatus s)

def entropyStatusSpec : CallSpec := { code := 0x0A40, who := .slice0, lens := [0], used := [] }
def execEntropyStatus (c : Call) (s : State) : Out := serveRead entropyStatusSpec c s fun s => .ok (entropyStatus s)

end Sys2Proof.Machine
end

