-- ==== Sys2Proof/Machine/Mailbox.lean ====
section
/-! DEFINITION. The mailbox registers, Cleats, event registers, MSI-X and sessions: chapter 02 but for the transactions, and R536 to
R542. -/

namespace Sys2Proof.Machine

/-! ### The mailbox channel (R53 to R56, R63 to R65) -/

/-- Whether a sender can reach its channel: an enabled function, the mate, the Lanyard manager, the board (R45, R50). -/
def reaches (s : State) (ch : Nat) : Bool := 16 ≤ ch || hostSees s ch

/-- MBX_IN_ABORT: the words of the partly written message leave; the next word is a header. -/
def inAbort (ch : Nat) (s : State) : State :=
  let c := chanOf s ch
  if c.inExpect = 0 then s
  else
    let n := (c.inq.reverse.takeWhile fun w => !w.hd).length + 1
    setChanRoom ch c { c with inq := c.inq.take (c.inq.length - n), inExpect := 0 } s

/-- The word at the head of an outbound queue; 0 from an empty one. -/
def outHead (s : State) (ch : Nat) : Word := ((chanOf s ch).outq.head?.map (·.w)).getD 0

/-- MBX_OUT_DATA_READ: the head word, popped; 0 from an empty queue. -/
def outRead (ch : Nat) (s : State) : State :=
  let c := chanOf s ch
  emit (.readData ch (outHead s ch)) (if c.outq = [] then s else setChan ch { c with outq := c.outq.tail } s)

/-- A write of MBX_IRQ_CTRL (R54). -/
def irqCtrl (fn : Nat) (w : Word) (s : State) : State :=
  let c := chanOf s fn
  let n := { c with freeThresh := fld w 22 16, inSpaceEn := bit w 1, outMsgEn := bit w 0 }
  let s := setChan fn n s
  if !c.inSpaceEn && n.inSpaceEn && n.freeThresh ≤ inFree n then msix fn 1 s else s

/-- MARKED_MESSAGE_DISCARD: a message with a marked word is read and discarded without a response, and counted (R62, R64). -/
def discardMarked (ch : Nat) (s : State) : State :=
  let c := chanOf s ch
  if s.boot.ready && c.waiting.length < 64 && headComplete c && (headMsg c.inq).any (·.marked) then cnt (cChan 0 ch) 1 (dropHead ch s) else s

/-- OUTBOUND_BACKLOG_MOVE: the head message of the backlog moves into the queue where it fits (R65). -/
def moveBacklog (ch : Nat) (s : State) : State :=
  let c := chanOf s ch
  match c.backlog with
  | m :: t =>
    if s.boot.ready && c.outq.length + m.words.length ≤ 64 then pushMsg ch m.event m.words (setChan ch { c with backlog := t } s) else s
  | [] => s

/-- EVENT_RATE_WINDOW_END: 1 ms after a source's message on a channel; what occurred meanwhile goes out in the next one (R104). -/
def rateWindowEnd (ch src : Nat) (s : State) : State :=
  let e := chanEvt s ch src
  let s := if e.window then setChanEvt ch src { e with window := false } s else s
  if e.window && s.boot.ready && e.due && msgRouted s ch src then sendEvt ch src s else s

/-! ### Cleats (R72 to R76) -/

def cleatOf (s : State) (n : Nat) : Cleat := kgetD s.ctl.cleats n {}
def setCleat (n : Nat) (c : Cleat) (s : State) : State := { s with ctl := { s.ctl with cleats := kset s.ctl.cleats n c } }

/-- Whether an identity may use a Cleat. -/
def mayUse (c : Cleat) (ch : Nat) : Bool := if ch = 18 then c.smb else ch < 16 && c.mask.testBit ch

/-- Whether a read claims a Cleat: the reader may use it and it is free (R73). -/
def claimsCleat (c : Cleat) (ch : Nat) : Bool := mayUse c ch && c.holder = 0xFF

/-- What a read of a Cleat returns (R72). -/
def cleatWord (s : State) (ch n : Nat) : Word :=
  let c := cleatOf s n
  if !mayUse c ch then 0xFF else if c.holder = 0xFF then putb true 31 ||| wd ch else wd c.holder

/-- CLEAT_READ. -/
def cleatRead (ch n : Nat) (s : State) : State :=
  emit (.readData ch (cleatWord s ch n)) (if claimsCleat (cleatOf s n) ch then setCleat n { cleatOf s n with holder := ch } s else s)

/-- CLEAT_WRITE. -/
def cleatWrite (ch n : Nat) (w : Word) (s : State) : State :=
  let c := cleatOf s n
  if w = 0 && mayUse c ch then setCleat n { c with holder := 0xFF } s else s

/-! ### Event registers and MSI-X (R537 to R539, R470) -/

def evtRegs (s : State) (fn g : Nat) : EvtRegs := kgetD (funcOf s fn).evt g {}
def setEvtRegs (fn g : Nat) (e : EvtRegs) (s : State) : State := let f := funcOf s fn; setFunc fn { f with evt := kset f.evt g e } s

/-- EVT_PEND_READ: the bits it shows may be cleared later. -/
def pendRead (fn g : Nat) (s : State) : State :=
  let e := evtRegs s fn g
  emit (.readData fn e.pend) (setEvtRegs fn g { e with fresh := 0 } s)

/-- EVT_PEND_CLEAR: a bit set since the last read stays, and its vector is raised again. -/
def pendClear (fn g : Nat) (w : Word) (s : State) : State :=
  let e := evtRegs s fn g
  let kept := w &&& e.pend &&& e.fresh
  let s := setEvtRegs fn g { e with pend := e.pend &&& ~~~(w &&& ~~~e.fresh) } s
  if kept &&& ~~~e.mask = 0 then s else msix fn (routeOf s fn g).vector s

/-- EVT_MASK_WRITE. -/
def maskWrite (fn g : Nat) (w : Word) (s : State) : State :=
  let e := evtRegs s fn g
  let s := setEvtRegs fn g { e with mask := w } s
  if e.mask &&& ~~~w &&& e.pend = 0 then s else msix fn (routeOf s fn g).vector s

/-- MSIX_VECTOR_UNMASK: a vector whose pending bit is set is sent. -/
def unmask (fn v : Nat) (s : State) : State :=
  let f := funcOf s fn
  let s := setFunc fn { f with msixMask := kset f.msixMask v false, msixPend := kerase f.msixPend v } s
  if kgetD f.msixPend v false then emit (.msix fn v) s else s

/-! ### Sessions (R77 to R80, R100) -/

/-- The versions that exist (R78). -/
def versions : List Nat := [0x0302, 0x0301, 0x0300, 0x0201, 0x0200]

/-- The version negotiated for a caller's range, if any. -/
def negotiate (lo hi : Nat) : Option Nat := versions.find? fun v => lo ≤ v && v ≤ hi

/-- `SESSION_OPEN`: an open session closes first, whatever the answer (R77). -/
def sessionOpen (c : Call) (s : State) : State :=
  let ch : Nat := c.chan
  let w := pw c.words 0
  let s := if (chanOf s ch).session.isSome then closeSession ch s else s
  match negotiate (fld w 15 0) (fld w 31 16) with
  | none => respond 0x0001 c .version [0x03020200] s
  | some v =>
    let b := sliceOf s ch
    respond 0x0001 c .done [wd v, put ch 16 ||| putb b.isSome 8 ||| wd (b.getD 0)] (setChan ch { chanOf s ch with session := some v } s)

/-- `SESSION_CLOSE`: the response is the session's last. -/
def sessionClose (c : Call) (s : State) : State := respond 0x0002 c .done [] (closeSession c.chan s)

/-! ### Calls of family 0x0F that pass no transaction (R102) -/

/-- The groups whose sources identity 0x12 may see (R535). -/
def smbGroups : List Nat := [29, 31]

/-- `EVT_ROUTE_GET`. -/
def evtRouteGet (ch : Nat) (ws : List Word) (s : State) : List Word :=
  let r := routeOf s ch (fld (pw ws 0) 4 0)
  [r.msgMask, r.vecMask, wd r.vector]

end Sys2Proof.Machine
end

