-- ==== Sys2Proof/Machine/Counters.lean ====
section
/-! DEFINITION. Who may see which event source and which counter, the per-second snapshot, and the calls of family 0x0F
(R101 to R103, R534 to R543, R559). -/

namespace Sys2Proof.Machine

/-! ### Event sources (R534, R535 and the tables it names) -/

/-- Whether a source number names a source; the others are reserved. -/
def realSource (n : Nat) : Bool :=
  if n < 512 then true
  else if n < 544 then (n - 512) % 8 ≠ 7
  else n = 544 || (576 ≤ n && n ≤ 586) || (608 ≤ n && n ≤ 623) || (640 ≤ n && n ≤ 649) || (672 ≤ n && n ≤ 711) || (736 ≤ n && n ≤ 763) ||
    (768 ≤ n && n ≤ 798) || (800 ≤ n && n ≤ 809) || (832 ≤ n && n ≤ 873) || (896 ≤ n && n ≤ 902) || (928 ≤ n && n ≤ 935) ||
    (960 ≤ n && n ≤ 968) || (992 ≤ n && n ≤ 997)

/-- Whether a slice owns some ONU index of a Span (R26). -/
def ownsOnus (s : State) (slice sp : Nat) : Bool := match kget s.ctl.onuRanges (32 * slice + sp) with | some (_, n) => n ≠ 0 | none => false

/-- Whether a slice other than 0 can see a source at all (R160, R339, R364, R535). -/
def sliceSees (s : State) (slice n : Nat) : Bool :=
  if n < 512 then (n % 16 = 5 || n % 16 = 6 || n % 16 = 10 || n % 16 = 12) && ownsOnus s slice (n / 16)
  else if n < 544 then (n - 512) % 8 = 5 && (List.range 8).any fun i => ownsOnus s slice (8 * ((n - 512) / 8) + i)
  else if 608 ≤ n && n ≤ 623 then n = 608 + slice
  else if n = 963 || n = 964 then (List.range 32).any (ownsOnus s slice)
  else n = 960 || n = 961 || n = 968

/-- Whether the caller of a channel may see a source. -/
def maySee (s : State) (ch n : Nat) : Bool :=
  if ch = 18 then smbGroups.contains (n / 32)
  else match sliceOf s ch with
    | some 0 => true
    | some k => sliceSees s k n
    | none => false

/-- A mask of a group with the bits of reserved sources taken off. -/
def realBits (g : Nat) (w : Word) : Word := wd (((List.range 32).map fun b => if bit w b && realSource (32 * g + b) then 2 ^ b else 0).sum)

/-- Whether every real source of a mask may be seen. -/
def maskSeen (s : State) (ch g : Nat) (w : Word) : Bool := (List.range 32).all fun b => !bit w b || !realSource (32 * g + b) || maySee s ch (32 * g + b)

/-- `EVT_ROUTE_SET` (R102). -/
def evtRouteSet : TxnCall where
  spec := { code := 0x0F01, who := .bound, extra := [18], lens := [5], used := [0xFFFFFFFF, 0x1F, 0xFFFFFFFF, 0xFFFFFFFF, 0x1F] }
  objs := fun s i => do
    let g := fld (pw i.words 1) 4 0
    need (8 ≤ fld (pw i.words 4) 4 0) .badArg
    need (maskSeen s i.chan g (pw i.words 2) && (i.chan = 18 || maskSeen s i.chan g (pw i.words 3))) .notOwner
    return [⟨.route, 32 * i.chan + g⟩]
  apply := fun i s =>
    let g := fld (pw i.words 1) 4 0
    let r : Route := { msgMask := realBits g (pw i.words 2), vecMask := if i.chan = 18 then 0 else realBits g (pw i.words 3), vector := fld (pw i.words 4) 4 0 }
    let c := chanOf s i.chan
    .ok (setChan i.chan { c with routes := kset c.routes g r } s)

/-- `EVT_DETAIL` (R102). -/
def evtDetail (ch : Nat) (ws : List Word) (s : State) : Res (State × List Word) := do
  let n := fld (pw ws 0) 9 0
  need (realSource n) .badArg
  need (maySee s ch n) .notOwner
  let e := chanEvt s ch n
  return (setChanEvt ch n { e with count := 0 } s, [wd e.count] ++ toWords 2 e.last ++ (List.range 4).map fun i => pw e.detail i)

/-! ### Counter identifiers (R541, R559) -/

/-- A row of R559: BASE, step, counters, instances. -/
structure CntRow where
  base : Nat
  step : Nat
  count : Nat
  insts : Nat
  deriving DecidableEq, Repr

/-- The rows of R559, in order. -/
def cntRows : List CntRow := [
  ⟨0x000000, 0x100000, 6, 1048576⟩, ⟨0x600000, 0x40000, 3, 262144⟩, ⟨0x6C0000, 0x10000, 12, 65536⟩, ⟨0x780000, 0x4000, 28, 16384⟩,
  ⟨0x800000, 0x1000, 20, 96⟩, ⟨0x820000, 0x1000, 20, 32⟩, ⟨0x840000, 0x1000, 1, 1536⟩, ⟨0x841000, 0x1000, 4, 512⟩,
  ⟨0x845000, 0x1000, 2, 304⟩, ⟨0x847000, 0x1000, 2, 208⟩, ⟨0x849000, 0x1000, 2, 384⟩, ⟨0x850000, 0x1000, 16, 4⟩,
  ⟨0x860000, 0x1000, 2, 4⟩, ⟨0x862000, 0x1000, 3, 4⟩, ⟨0x870000, 0x1000, 1, 96⟩, ⟨0x871000, 0x1000, 1, 24⟩,
  ⟨0x872000, 0x1000, 1, 384⟩, ⟨0x873000, 0x1000, 2, 96⟩, ⟨0x875000, 0x1000, 3, 24⟩, ⟨0x878000, 0x1000, 1, 48⟩,
  ⟨0x880000, 0x1000, 18, 28⟩, ⟨0x892000, 0x1000, 3, 448⟩, ⟨0x8A0000, 0x1000, 8, 1008⟩, ⟨0x8B0000, 0x1000, 3, 288⟩,
  ⟨0x8B3000, 0x1000, 2, 8⟩, ⟨0x8C0000, 0x1000, 2, 72⟩, ⟨0x8C2000, 0x1000, 3, 19⟩, ⟨0x8D0000, 0x1000, 1, 4⟩,
  ⟨0x8D1000, 0x1000, 1, 24⟩, ⟨0x8E0000, 0x1000, 24, 1⟩ ]

/-- The row, the counter and the instance of an identifier. -/
def cntName (id : Nat) : Option (Nat × Nat × Nat) :=
  (List.range 30).findSome? fun r => match cntRows[r]? with
    | some x => if x.base ≤ id && (id - x.base) / x.step < x.count && (id - x.base) % x.step < x.insts then some (r, (id - x.base) / x.step, (id - x.base) % x.step) else none
    | none => none

/-- The slice besides slice 0 that sees a counter (R161, R269, R303, R338, R363, R388, R422, R447, R543). -/
def cntOwner (s : State) (id : Nat) : Option Nat :=
  match cntName id with
  | some (0, _, q) => some (queueOwner s q)
  | some (1, _, k) => portOwner s k
  | some (2, _, a) => some (allocOwner s (a / 2048) (a % 2048))
  | some (3, _, o) => some (onuOwner s (o / 512) (o % 512))
  | some (6, _, n) => some (n / 96)
  | some (7, _, n) => some (n / 32)
  | some (8, _, n) => some (n / 19)
  | some (9, _, n) => some (n / 13)
  | some (10, _, n) => some (n / 24)
  | some (26, _, ch) => sliceOf s ch
  | _ => none

/-- Whether the caller of a channel may see a counter; identity 0x12 sees those of R543 alone. -/
def cntSeen (s : State) (ch id : Nat) : Bool :=
  match cntName id with
  | none => false
  | some (r, k, n) =>
    if ch = 18 then r = 25 || (r = 26 && n = 18) || (r = 29 && 21 ≤ k)
    else match sliceOf s ch with
      | some 0 => true
      | some j => cntOwner s id = some j
      | none => false

/-! ### The snapshot (R103, R161, R540, R542, R543) -/

/-- What every gauge holds before it is latched: the pace gauge of a monitored domain that completed no window reads 0xFFFF; the
others hold at least their value now. -/
def gaugesNow (s : State) : State :=
  let s := forEach (List.range 72) (fun d s => if hasPace d && (kget s.ctl.cntRun (cDom 0 d)).isNone then gaugeMin (cDom 0 d) 0xFFFF s else s) s
  let s := minFree s
  gaugeTj s.pwr.tj (gaugeMax (cDev 22) s.pwr.vdd (gaugeMin (cDev 21) s.pwr.vdd s))

/-- Whether a counter's domain is OFF, so that it latches 0; `PACE_MIN` alone keeps its value (R161). -/
def latchesZero (s : State) (id : Nat) : Bool :=
  match domOfCounter id with
  | some d => !domLive s d && !(0x8C0000 ≤ id && id < 0x8C1000)
  | none => false

/-- The latch at a TAI second boundary: `second` begins (R161, R540). -/
def latch (second : Nat) (s : State) : State :=
  let s := gaugesNow s
  let snap := kfilter s.ctl.cntRun fun id v => v ≠ 0 && !latchesZero s id
  { s with ctl := { s.ctl with cntSnap := snap, cntRun := [], snapSecond := second - 1 } }

/-- `CNT_READ`. -/
def cntRead (ch : Nat) (ws : List Word) (s : State) : Res (List Word) := do
  let id := fld (pw ws 0) 23 0
  need (cntSeen s ch id) .badArg
  return toWords 2 (kgetD s.ctl.cntSnap id 0) ++ [wd s.ctl.snapSecond]

/-- The bytes of a snapshot copy (R542). -/
def snapshotBytes (recs : List (Nat × Nat)) (second : Nat) : List Byte :=
  toLe 4 1 ++ toLe 4 0 ++ toLe 8 second ++ toLe 4 recs.length ++ List.replicate 44 0 ++ recs.flatMap fun r => toLe 4 r.1 ++ toLe 4 0 ++ toLe 8 r.2

/-- `CNT_SNAPSHOT_COPY`. -/
def cntSnapshotCopy (ch : Nat) (ws : List Word) (s : State) : Res (State × List Word) := do
  let addr := wide ws 0 2
  need (addr % 64 = 0) .badArg
  let recs := s.ctl.cntSnap.filter fun r => cntSeen s ch r.1
  let bs := snapshotBytes recs s.ctl.snapSecond
  need (bs.length ≤ fld (pw ws 2) 23 0) .noSpace
  return (emit (.dma ch addr bs) s, [wd s.ctl.snapSecond, wd bs.length])

end Sys2Proof.Machine
end

