-- ==== Sys2Proof/Machine/Registers.lean ====
section
/-! DEFINITION. The BAR0 and SMBus registers by offset: what a read returns, and what a write to a register with no row of its own
does (R6, R7, R51 to R54, R70, R92, R117, R215, R537). -/

namespace Sys2Proof.Machine

/-- The ID block (R52). -/
def idRead (s : State) (ch off : Nat) : Word :=
  let r := s.boot.ready
  match off with
  | 0x00 => 0x32961F3C
  | 0x04 => 0xB0
  | 0x08 => if r then 0x0302 else 0
  | 0x0C => if r then 0x03020200 else 0
  | 0x10 => if ch = 18 then 0x12 else match sliceOf s ch with | some k => putb true 12 ||| put k 8 ||| wd ch | none => wd ch
  | 0x14 => putb r 0
  | _ => 0

/-- The mailbox registers; MBX_OUT_DATA has a row of its own, whose read pops (R54). MSGS counts a message until its last word is
popped (assumption 123). -/
def mbxRead (s : State) (ch off : Nat) : Word :=
  let c := chanOf s ch
  match off with
  | 0x104 => wd (inFree c)
  | 0x108 => put c.inExpect 8 ||| putb (c.inExpect ≠ 0) 1 ||| putb c.inColl 0
  | 0x114 => put (c.outq.filter (·.last)).length 8 ||| wd c.outq.length
  | 0x118 => putb (c.backlog ≠ []) 1 ||| putb c.outColl 0
  | 0x11C => put c.freeThresh 16 ||| putb c.inSpaceEn 1 ||| putb c.outMsgEn 0
  | _ => 0

/-- The event registers (R537). -/
def evtRead (s : State) (fn off : Nat) : Word :=
  let g := off % 0x80 / 4
  if off = 0x2000 then wd (((List.range 32).map fun g => if (evtRegs s fn g).pend ≠ 0 then 2 ^ g else 0).sum)
  else if 0x2100 ≤ off && off < 0x2180 then (evtRegs s fn g).pend
  else if 0x2200 ≤ off && off < 0x2280 then (evtRegs s fn g).mask
  else 0

/-- The boot, measurement and pace registers (R117). -/
def bootRead (s : State) (off : Nat) : Word :=
  if off = 0x3000 then bootStatus s.boot
  else if off = 0x3004 then put s.boot.svnMin 16 ||| wd s.boot.svnRunning
  else if off = 0x3008 then wd s.boot.meas3Count
  else if off = 0x3010 then putb s.pwr.paceLowValid 31 ||| put s.pwr.paceLowDom 16 ||| wd s.pwr.paceLow
  else if 0x3100 ≤ off && off < 0x3200 && off % 0x40 < 48 then pw (wordsOfBytes (measOf s ((off - 0x3100) / 0x40))) (off % 0x40 / 4)
  else if 0x3400 ≤ off && off < 0x3400 + 4 * 72 then
    let d := (off - 0x3400) / 4
    putb (domOn s d) 31 ||| wd (if domLive s d && hasPace d then (domOf s d).pace % 65536 else 0)
  else 0

/-- The timebase snapshot (R215). -/
def snapRead (s : State) (fn off : Nat) : Word :=
  let x := (funcOf s fn).snap
  match off with
  | 0x4004 => putb x.valid 31 ||| put x.seq 16 ||| put x.freqSrc 8 ||| put x.phaseSrc 4 ||| wd x.state
  | 0x4008 => wd x.ns
  | 0x400C => wd (x.ns / 2 ^ 32)
  | 0x4010 => wd (x.frac / 256)
  | 0x4014 => wd x.utc
  | 0x4018 => wd (unsgn 32 x.freq)
  | _ => 0

/-- The ring registers (R92); ENABLE reads the value last written, 1 while a restart waits. -/
def ringRead (s : State) (fn off : Nat) : Word :=
  let x := ringOf s fn ((off - 0x8000) / 0x40)
  match off % 0x40 with
  | 0x00 => x.baseLo
  | 0x04 => x.baseHi
  | 0x08 => wd x.log2
  | 0x0C => wd x.cons
  | 0x10 => wd x.prod
  | 0x14 => put x.coalesce 16 ||| putb x.irqEn 8 ||| putb x.active 1 ||| putb (x.enable || x.restart) 0
  | 0x18 => put (min x.drops 0xFFFF) 16 ||| putb x.trunc 2 ||| putb x.ownerDrop 1 ||| putb x.faulted 0
  | _ => 0

/-- The BAR0 offset of the register that an SMBus command code accesses (R70, R72). -/
def smbOffset (code : Nat) : Option Nat :=
  if code ≤ 0x05 then some (4 * code)
  else if 0x40 ≤ code && code ≤ 0x7F then some (0x1000 + 4 * (code - 0x40))
  else match code with
    | 0x08 => some 0x3000 | 0x09 => some 0x3004 | 0x10 => some 0x100 | 0x11 => some 0x104 | 0x12 => some 0x108 | 0x14 => some 0x110
    | 0x15 => some 0x114 | 0x16 => some 0x118 | _ => none

/-- The SMBus address of the board management channel: 0x60 plus the strap (R70, R109). -/
def smbAddress (s : State) : Nat := 0x60 + s.boot.strapSmb

/-- Whether the device boots: Saend has not been ready since the last reset. Then every register but the ID block, BOOT_STATUS and BOOT_SVN
reads 0 (R117, R552); a restart of Saend alone leaves them readable (R119). -/
def booting (s : State) : Bool := !s.boot.ready && !s.boot.restarting

/-- The registers that read as they stand while the device boots. -/
def bootShown (off : Nat) : Bool := off < 0x100 || off = 0x3000 || off = 0x3004

/-- What a read of a register without side effect returns; 0 outside every register (R51). SMBus reaches the ID block, BOOT_STATUS,
BOOT_SVN and the mailbox alone (R70); a Cleat and MBX_OUT_DATA have rows of their own. -/
def regRead (s : State) (ch off : Nat) : Word :=
  if off % 4 ≠ 0 then 0
  else if off < 0x100 then idRead s ch off
  else if booting s && !bootShown off then 0
  else if off < 0x200 then (if ch = 18 && off = 0x11C then 0 else mbxRead s ch off)
  else if off = 0x3000 || off = 0x3004 then bootRead s off
  else if 16 ≤ ch then 0
  else if 0x2000 ≤ off && off < 0x3000 then evtRead s ch off
  else if 0x3000 ≤ off && off < 0x4000 then bootRead s off
  else if 0x4000 ≤ off && off < 0x5000 then snapRead s ch off
  else if 0x8000 ≤ off && off < 0x8100 then ringRead s ch off
  else 0

/-! ### Writes (R6, R7, R92, R93) -/

/-- The bits that a register reserves; none of an offset that holds no register (R52, R54, R92, R117, R215). -/
def reservedBits (off : Nat) : Word :=
  if 0x8000 ≤ off && off < 0x8100 then
    match off % 0x40 with
    | 0x00 => 0x3F | 0x08 => 0xFFFFFFE0 | 0x0C => 0xFFFF0000 | 0x10 => 0xFFFF0000 | 0x14 => 0xFF00FEFC | 0x18 => 0xFFF8 | _ => 0
  else if 0x3400 ≤ off && off < 0x3520 then 0x7FFF0000
  else match off with
    | 0x04 => 0xFFFFFF00 | 0x08 => 0xFFFF0000 | 0x10 => 0xFFFFE000 | 0x14 => 0xFFFFFFFE
    | 0x104 => 0xFFFFFF80 | 0x108 => 0xFFFFF0F8 | 0x114 => 0xFFFF8080 | 0x118 => 0xFFFFFFFC | 0x11C => 0xFF80FFFC
    | 0x3000 => 0xFF0200F0 | 0x3010 => 0x7F800000
    | 0x4000 => 0xFFFFFFFE | 0x4004 => 0x7F00FCC8 | 0x4014 => 0xFFFC0000
    | _ => 0

/-- Whether a write changes a ring's base or size while the ring is active (R93). -/
def movesRing (s : State) (fn off : Nat) (w : Word) : Bool :=
  let x := ringOf s fn ((off - 0x8000) / 0x40)
  0x8000 ≤ off && off < 0x8100 && x.active &&
    match off % 0x40 with
    | 0x00 => w != x.baseLo
    | 0x04 => w != x.baseHi
    | 0x08 => fld w 4 0 ≠ x.log2
    | _ => false

/-- A write of a ring register (R92). -/
def ringWrite (fn off : Nat) (w : Word) (s : State) : State :=
  let r := (off - 0x8000) / 0x40
  let x := ringOf s fn r
  match off % 0x40 with
  | 0x00 => setRing fn r { x with baseLo := w } s
  | 0x04 => setRing fn r { x with baseHi := w } s
  | 0x08 => setRing fn r { x with log2 := fld w 4 0 } s
  | 0x0C => if r = 1 || r = 2 then setRing fn r { x with cons := fld w 15 0 % x.size } s else s
  | 0x10 => if r = 0 || r = 3 then setRing fn r { x with prod := fld w 15 0 % x.size } s else s
  | 0x14 => if bit w 0 then ringEnable fn r w s else ringDisable fn r w s
  | 0x18 => setRing fn r { x with trunc := x.trunc && !bit w 2, ownerDrop := x.ownerDrop && !bit w 1, faulted := x.faulted && !bit w 0 } s
  | _ => s

/-- A write of MBX_IN_STATUS: COLLISION is W1C, ABORT acts (R54, R64). -/
def inStatusWrite (ch : Nat) (w : Word) (s : State) : State :=
  let s := if bit w 0 then setChan ch { chanOf s ch with inColl := false } s else s
  if bit w 2 then inAbort ch s else s

/-- A write of MBX_OUT_STATUS. -/
def outStatusWrite (ch : Nat) (w : Word) (s : State) : State := if bit w 0 then setChan ch { chanOf s ch with outColl := false } s else s

/-- A write by a register's offset; a register that is RO, and an offset outside every register, ignore it (R7, R51). -/
def regWrite (ch off : Nat) (w : Word) (s : State) : State :=
  if off % 4 ≠ 0 then s
  else if off = 0x100 then pushIn ch w s
  else if off = 0x108 then inStatusWrite ch w s
  else if off = 0x118 then outStatusWrite ch w s
  else if 0x1000 ≤ off && off < 0x1100 then cleatWrite ch ((off - 0x1000) / 4) w s
  else if 16 ≤ ch then s
  else if off = 0x11C then irqCtrl ch w s
  else if 0x2100 ≤ off && off < 0x2180 then pendClear ch ((off - 0x2100) / 4) w s
  else if 0x2200 ≤ off && off < 0x2280 then maskWrite ch ((off - 0x2200) / 4) w s
  else if off = 0x4000 then (if bit w 0 then snapTake ch s else s)
  else if 0x8000 ≤ off && off < 0x8100 then ringWrite ch off w s
  else s

/-! ### The bus of the board management controller (R70) -/

/-- The word that a read of a register returns, its side effect aside: MBX_OUT_DATA the head word, a Cleat what its claim answers. -/
def readWord (s : State) (ch off : Nat) : Word :=
  if booting s && !bootShown off then 0
  else if off = 0x110 then outHead s ch
  else if 0x1000 ≤ off && off < 0x1100 && off % 4 = 0 then cleatWord s ch ((off - 0x1000) / 4)
  else regRead s ch off

/-- The side effect of a read of a register, with what it answered: MBX_OUT_DATA pops, a free Cleat is claimed (R54, R72). -/
def readReg (ch off : Nat) (s : State) : State :=
  if booting s && !bootShown off then emit (.readData ch 0) s
  else if off = 0x110 then outRead ch s
  else if 0x1000 ≤ off && off < 0x1100 && off % 4 = 0 then cleatRead ch ((off - 0x1000) / 4) s
  else emit (.readData ch (regRead s ch off)) s

/-- The 4 bytes of an SMBus Block Read by address and command code, least significant first; another address is not this device's. -/
def smbBytes (s : State) (address code : Nat) : Option (List Byte) :=
  if address ≠ smbAddress s then none else (smbOffset code).map fun off => toLe 4 (readWord s 18 off).toNat

/-- An SMBus Block Read by address and command code. -/
def smbBlockRead (address code : Nat) (s : State) : State :=
  if address ≠ smbAddress s then s else match smbOffset code with | some off => readReg 18 off s | none => s

/-- An SMBus Block Write by address and command code: 4 bytes, least significant first; a write of another length does nothing. -/
def smbBlockWrite (address code : Nat) (bytes : List Byte) (s : State) : State :=
  if address ≠ smbAddress s || bytes.length ≠ 4 then s
  else match smbOffset code with | some off => regWrite 18 off (wd (leNat bytes)) s | none => s

/-- The register that an operand names: the offset in a function's BAR0; on SMBus the bus address in bits [15:8] and the command code in bits
[7:0], where the address is this device's; the mate and the Lanyard manager reach no register (R50, R70). -/
def regOffset (s : State) (ch operand : Nat) : Option Nat :=
  if ch < 16 then some operand
  else if ch = 18 && operand / 256 = smbAddress s then smbOffset (operand % 256) else none

/-- A register written by its operand: on SMBus a Block Write of the word's 4 bytes (R7, R70). -/
def writeBy (ch operand : Nat) (w : Word) (s : State) : State :=
  if ch = 18 then smbBlockWrite (operand / 256) (operand % 256) (toLe 4 w.toNat) s else regWrite ch operand w s

/-- A register read that has a row of its own: by BAR0 offset, on SMBus a Block Read of its command code at the device's address (R70). -/
def readBy (ch off code : Nat) (s : State) : State := if ch = 18 then smbBlockRead (smbAddress s) code s else readReg ch off s

end Sys2Proof.Machine
end

