-- ==== Sys2Proof/Machine/Shelf.lean ====
section
/-! DEFINITION. The Lanyard shelf: frames between the manager and its workers, the registry, and the shelf's uplink budgets
(R525 to R529). -/

namespace Sys2Proof.Machine

/-! ### Frames (R525, R526) -/

/-- Whether a Lanyard frame is of this device's shelf. -/
def lanHeard (s : State) (port : Nat) (h : LanHead) : Bool :=
  let l := s.red.lan
  (lanRole s = 1 || lanRole s = 2) && l.configured && l.ports.testBit port && h.shelf = l.shelf

/-- Whether it is addressed to this device. -/
def lanForMe (s : State) (port : Nat) (h : LanHead) : Bool := lanHeard s port h && (h.dst = 0xFF || h.dst = lanWorker s)

/-- Whether its sender is the device that is followed under that number: of two managers the one with the lower DEVICE_TAG (R527). -/
def lanFollowed (s : State) (h : LanHead) : Bool := match kget s.red.lan.peers h.src with | some p => p.tag = h.tag | none => true

/-- A peer's record is rewritten. -/
def modPeer (w : Nat) (f : Peer → Peer) (s : State) : State :=
  match kget s.red.lan.peers w with
  | some p => setLan { s.red.lan with peers := kset s.red.lan.peers w (f p) } s
  | none => s

/-- A frame of a type is received: its FSEQ is checked against the sender's last of that type, whoever the frames went to; a gap acts as a
lost flit does. A HELLO comes with one FSEQ on every port (R525, R526; assumption 146). -/
def lanIn (h : LanHead) (type : Nat) (s : State) : State :=
  match kget s.red.lan.peers h.src with
  | none => s
  | some p =>
    let gap : Bool := match kget p.fseq type with | some n => h.fseq.toNat ≠ (n + 1) % 65536 && !(type = 1 && h.fseq.toNat = n) | none => false
    let s := modPeer h.src (fun p => { p with fseq := kset p.fseq type h.fseq.toNat }) s
    if gap then
      let s := raise 902 [] [wd h.src] (cnt (cDev 20) 1 s)
      if type = 2 then mailboxLost 17 s else s
    else s

/-- A frame of the shelf is counted and its FSEQ checked; one for this device acts, any other is discarded (R525, R527). -/
def lanFrame (port : Nat) (h : LanHead) (type : Nat) (f : State → State) (s : State) : State :=
  if !lanHeard s port h then s
  else
    let mine := lanForMe s port h && (type = 1 || lanFollowed s h)
    let s := cnt (cDev 17) 1 (if lanFollowed s h then lanIn h type s else s)
    if mine then f s else s

/-- The ports on which Lanyard runs. -/
def lanPorts (s : State) : List Nat := (List.range 24).filter fun p => s.red.lan.ports.testBit p

/-- A worker's REPLY: FREE of channel 0x11, and the words of its outbound queue. -/
def replyOut (s : State) : State :=
  let c := chanOf s 17
  let s := setChan 17 { c with outq := [] } s
  lanyardTo 0 3 (inFree c :: c.outq.map fun o => o.w.toNat) s

/-- LANYARD_HELLO_TIMER. -/
def helloTimer (s : State) : State :=
  if !(lanRole s = 1 || lanRole s = 2) || !s.red.lan.configured then s
  else
    let free := if lanRole s = 1 then [inFree (chanOf s 17)] else []
    let s := lanyardOn (lanPorts s) 0xFF 1 ([lanRole s, 0x0302] ++ free) s
    if lanRole s = 1 && managerHere s && (chanOf s 17).outq ≠ [] then replyOut s else s

/-- Whether a HELLO shows two workers with one number, whose result the spec leaves undefined (R525). -/
def twoWorkers (s : State) (port : Nat) (h : LanHead) (manager : Bool) : Bool :=
  lanForMe s port h && !manager &&
    ((lanRole s = 1 && h.src = s.red.lan.worker && h.tag.toNat ≠ deviceTag) ||
     (lanRole s = 2 && match kget s.red.lan.peers h.src with | some p => p.present && p.tag ≠ h.tag | none => false))

/-- A HELLO: the manager appears to its workers, a worker to its manager, a second manager to a manager (R525 to R527). -/
def helloIn (port : Nat) (h : LanHead) (manager : Bool) (free : Nat) (s : State) : State :=
  let l := s.red.lan
  let known := kget l.peers h.src
  let note (s : State) : State :=
    let old : Peer := match known with | some p => if p.tag = h.tag then p else ⟨h.tag, port, free, [], false, []⟩ | none => ⟨h.tag, port, free, [], false, []⟩
    setLan { s.red.lan with peers := kset s.red.lan.peers h.src { old with port := port, free := free, fseq := kset old.fseq 1 h.fseq.toNat, present := true } } s
  let here := match known with | some p => p.present | none => false
  if lanRole s = 2 then
    if manager then (if h.tag.toNat = deviceTag then s else raise 898 [] [wd (h.tag.toNat / 2 ^ 32)] s)
    else if here then note s else raise 897 [] [putb true 31 ||| wd h.src] (note s)
  else if !manager then s
  else
    let second := match known with | some p => p.present && p.tag ≠ h.tag && p.tag.toNat < h.tag.toNat | none => false
    if second then s
    else if here then note s
    else raise 896 [] [1] (note (setLan { l with everPresent := true } s))

/-- A CALL from the manager; the worker's REPLY carries what its outbound queue holds. -/
def lanCall (h : LanHead) (words : List Word) (s : State) : State :=
  if lanRole s = 1 && h.src = 0 then replyOut (pushAll 17 words s) else s

/-- The event messages among the words of a REPLY, as their payloads; `fuel` bounds the messages. -/
def eventsIn (fuel : Nat) (ws : List Word) : List (List Word) :=
  match fuel, ws with
  | n + 1, h :: t =>
    let len := fld h 15 12
    (if fld h 31 16 = 0x0F80 then [t.take len] else []) ++ eventsIn n (t.drop len)
  | _, _ => []

/-- A REPLY from a worker: its FREE, and each event message as the worker-event source. -/
def lanReply (h : LanHead) (free : Nat) (words : List Word) (s : State) : State :=
  if lanRole s ≠ 2 then s
  else
    let s := modPeer h.src (fun p => { p with free := free }) s
    forEach (eventsIn 64 words) (fun e s =>
      raise 901 [] [wd (h.src * 2 ^ 24 + fld (pw e 0) 9 0), wd (fld (pw e 0) 31 16), pw e 1, pw e 2] s) s

/-! ### The registry (R184, R526, R528) -/

/-- A REG_QUERY, served from the registry. -/
def regQuery (h : LanHead) (serial : BitVec 64) (s : State) : State :=
  if lanRole s ≠ 2 then s
  else
    let s := cnt (cDev 18) 1 s
    match kget s.red.lan.registry serial.toNat with
    | some e =>
      cnt (cDev 19) 1 (lanyardTo h.src 5 ([serial.toNat, 1, e.worker, e.span, e.slice, if e.check then 1 else 0] ++ e.reg.map (·.toNat)) s)
    | none => lanyardTo h.src 5 [serial.toNat, 0, 0, 0, 0, 0] s

/-- A REG_ANSWER: one that found an entry is cached, the oldest giving way, and acted on; another leaves the serial number held. -/
def regAnswer (serial : BitVec 64) (e : Option RegEntry) (s : State) : State :=
  if lanRole s ≠ 1 then s
  else
    let l := s.red.lan
    let spans := (l.asked.filter fun q => q.1 = serial.toNat).map (·.2)
    let s := setLan { l with asked := l.asked.filter fun q => q.1 ≠ serial.toNat } s
    match e with
    | none => s
    | some e =>
      let c := (s.red.lan.cache.filter fun x => x.1 ≠ serial.toNat) ++ [(serial.toNat, e)]
      let s := cnt (cDev 19) 1 (setLan { s.red.lan with cache := c.drop (c.length - 16384) } s)
      forEach spans (fun sp s => registryFound sp serial e s) s

/-! ### Budgets (R386, R526, R529) -/

/-- This device's usage: every slice and port with an L1 uplink node, as the last TAI second closed. -/
def usageNow (s : State) : List UsageLine :=
  let has (k p : Nat) : Bool := s.fwd.l1.any fun e => e.2.kind = .uplink p k
  (List.finRange 16).flatMap fun (k : SliceIx) => ((List.finRange 24).filter fun (p : PortIx) => has k p).map fun (p : PortIx) =>
    ⟨k, p, kgetD s.ctl.cntSnap (cSlicePort 0 k p) 0, kgetD s.ctl.cntSnap (cSlicePort 1 k p) 0⟩

/-- Groups of at most 64 entries. -/
def by64 {α : Type} (fuel : Nat) (l : List α) : List (List α) :=
  match fuel, l with
  | n + 1, _ :: _ => l.take 64 :: by64 n (l.drop 64)
  | _, _ => []

/-- A worker reports its usage each TAI second, 64 lines in a frame at most (R525, R526; assumption 146). -/
def usageOut (s : State) : State :=
  if lanRole s = 1 && managerHere s then
    forEach (by64 8 (usageNow s)) (fun us s => lanyardTo 0 6 (us.flatMap fun u => [u.slice.val, u.port.val, u.bytes, u.waits]) s) s
  else s

/-- Usage lines of a worker, in place of older ones of the same slice and port. -/
def usageIn (worker : Nat) (lines : List UsageLine) (s : State) : State :=
  modPeer worker (fun p => { p with usage := p.usage.filter (fun u => !lines.any fun l => l.slice = u.slice && l.port = u.port) ++ lines }) s

/-- A rate from the manager waits for its apply point. -/
def budgetIn (slice port rate : Nat) (s : State) : State :=
  setUpBudget slice port { upBudget s slice port with lanyardNext := (upBudget s slice port).lanyardNext ++ [(rate, applyPointFor s.tb 0 / frameTb)] } s

/-- What a pair of worker and port wants of a slice's rate, kb/s. -/
def wantOf (u : UsageLine) : Rat :=
  let w : Rat := (8 * u.bytes : Nat) / 1000
  if 0 < u.waits then w * 5 / 4 else w

/-- The shares of a slice's shelf rate among its pairs. -/
def apportion (rate pct : Nat) (us : List UsageLine) : List Nat :=
  let n := us.length
  let floor := rate * pct / 100 / max 1 n
  let rest := rate - floor * n
  let sum := (us.map wantOf).sum
  us.map fun u => if sum = 0 then floor + rest / max 1 n else floor + (((rest : Nat) : Rat) * wantOf u / sum).floor.toNat

/-- Every usage line that was reported, with its worker; this device's own are the manager's. -/
def allUsage (s : State) : List (Nat × UsageLine) :=
  (usageNow s).map (fun u => (0, u)) ++ s.red.lan.peers.flatMap fun e => if e.1 ≠ 0 && e.2.present then e.2.usage.map fun u => (e.1, u) else []

/-- LANYARD_APPORTION: the shares of the second's reports, which the next second's replace (R529). -/
def lanApportion (s : State) : State :=
  if lanRole s ≠ 2 then s
  else
    let lines : List (Nat × Nat × Nat × Nat) := s.red.lan.shelfRate.flatMap fun e =>
      if e.2.1 = unshaped then []
      else
        let mine := (allUsage s).filter fun u => u.2.slice.val = e.1
        (mine.zip (apportion e.2.1 e.2.2 (mine.map (·.2)))).map fun x => (x.1.1, e.1, x.1.2.port.val, x.2)
    let s := setLan { s.red.lan with peers := kmap s.red.lan.peers fun _ p => { p with usage := [] } } s
    let s := forEach (lines.filter fun l => l.1 = 0) (fun l s => budgetIn l.2.1 l.2.2.1 l.2.2.2 s) s
    forEach (s.red.lan.peers.map (·.1)) (fun w s =>
      forEach (by64 64 (lines.filter fun l => l.1 = w && w ≠ 0)) (fun g s => lanyardTo w 7 (g.flatMap fun l => [l.2.1, l.2.2.1, l.2.2.2]) s) s) s

/-- LANYARD_MANAGER_TIMEOUT: a worker loses its manager, or the manager a worker (R527). -/
def lanTimeout (peer : Nat) (s : State) : State :=
  match kget s.red.lan.peers peer with
  | none => s
  | some p =>
    if !p.present then s
    else if lanRole s = 2 then
      if peer = 0 then s else raise 897 [] [wd peer] (setLan { s.red.lan with peers := kerase s.red.lan.peers peer } s)
    else if peer = 0 then closeSession 17 (raise 896 [] [0] (modPeer 0 (fun p => { p with present := false }) s))
    else s

/-! ### Calls (R532, R533) -/

def lanyardConfig : TxnCall where
  spec := { code := 0x0E20, who := .slice0, lens := [8], used := [0xFFFFFFFF, 0x0FFF003F, 0xFFFFFF, 0xFFFFFFFF, 0x3F, 0xFFFFFFFF, 0xFFFFFFFF, 0xFFFF] }
  objs := fun s i => do
    let v := fld (pw i.words 1) 27 16
    let t := fld (pw i.words 4) 5 0
    need (1 ≤ v && v ≤ 4094 && 1 ≤ t && t ≤ 60) .badArg
    need (lanRole s = 2 || 1 ≤ fld (pw i.words 1) 5 0) .badArg
    .ok [⟨.lanyard, 0⟩]
  apply := fun i s => .ok (setLan { s.red.lan with
    configured := true, vid := fld (pw i.words 1) 27 16, worker := fld (pw i.words 1) 5 0, ports := fld (pw i.words 2) 23 0,
    shelf := pw i.words 3, timeout := fld (pw i.words 4) 5 0, evtGroups := pw i.words 5, mac := wide i.words 6 2 } s)

/-- `LANYARD_STATUS`. -/
def lanyardStatus (s : State) : List Word :=
  let l := s.red.lan
  let st := if !l.configured || !(lanRole s = 1 || lanRole s = 2) then 0 else if lanRole s = 2 || managerHere s then 2 else if l.everPresent then 3 else 1
  let ws := ((l.peers.filter fun e => e.2.present && e.1 ≠ 0 && lanRole s = 2).map fun e => 2 ^ e.1).sum
  wd st :: toWords 2 ws ++ [wd l.cache.length]

/-- A device that is not the manager refuses the registry and shelf budget calls. -/
def needManager (s : State) : Res Unit := need (lanRole s = 2) .badState

def lanyardRegSet : TxnCall where
  spec := { code := 0x0E22, who := .slice0, lens := [13], used := [0xFFFFFFFF, 0xFFFFFFFF, 0xFFFFFFFF, 0xBF1F000F] ++ List.replicate 9 0xFFFFFFFF }
  objs := fun s i => do
    needManager s
    .ok [⟨.registry, wide i.words 1 2⟩]
  apply := fun i s => do
    let w := pw i.words 3
    let n := wide i.words 1 2
    let fresh := (kget s.red.lan.registry n).isNone
    need (!fresh || s.red.lan.registry.length < 262144) .noSpace
    let s := setLan { s.red.lan with
      registry := kset s.red.lan.registry n ⟨fld w 29 24, fld w 20 16, fld w 3 0, bit w 31, bytesOfWords ((i.words.drop 4).take 9)⟩ } s
    .ok (if fresh && s.red.lan.registry.length = 262144 then raise 900 [] [] s else s)

def lanyardRegDelete : TxnCall where
  spec := { code := 0x0E23, who := .slice0, lens := [3], used := [0xFFFFFFFF, 0xFFFFFFFF, 0xFFFFFFFF] }
  objs := fun s i => do
    needManager s
    .ok [⟨.registry, wide i.words 1 2⟩]
  apply := fun i s => do
    need (kget s.red.lan.registry (wide i.words 1 2)).isSome .badState
    .ok (setLan { s.red.lan with registry := kerase s.red.lan.registry (wide i.words 1 2) } s)

/-- `LANYARD_REG_READ`. -/
def lanyardRegRead (ws : List Word) (s : State) : Res (List Word) := do
  needManager s
  .ok [match kget s.red.lan.registry (wide ws 0 2) with
    | some e => putb true 31 ||| put e.worker 24 ||| put e.span 16 ||| wd e.slice
    | none => 0]

def shelfBudgetSet : TxnCall where
  spec := { code := 0x0E25, who := .slice0, intro := 0x0201, lens := [4], used := [0xFFFFFFFF, 0xF0000, 0xFFFFFFFF, 0x7F] }
  objs := fun s i => do
    needManager s
    need (fld (pw i.words 3) 6 0 ≤ 100) .badArg
    .ok [⟨.shelfBudget, fld (pw i.words 1) 19 16⟩]
  apply := fun i s => do
    let k := fld (pw i.words 1) 19 16
    needSlice s k
    return setLan { s.red.lan with shelfRate := kset s.red.lan.shelfRate k ((pw i.words 2).toNat, fld (pw i.words 3) 6 0) } s

end Sys2Proof.Machine
end

