-- ==== Sys2Proof/Machine/Slices.lean ====
section
/-! DEFINITION. The calls that make slices, bind identities and assign Cleats (R27, R29, R46, R76, R100, R413, R560). -/

namespace Sys2Proof.Machine

/-- Whether an ONU index is in use: not INACTIVE, or expected (R29). -/
def onuInUse (x : Onu) : Bool := x.st ≠ .inactive || x.expect.isSome

/-- Whether a slice owns an object in use (R29). -/
def sliceInUse (s : State) (k : Nat) : Bool :=
  (s.pon.onus.any fun e => onuInUse e.2 && onuOwner s (e.1 / 512) (e.1 % 512) = k) ||
  (s.pon.allocs.any fun e => allocOwner s (e.1 / 2048) (e.1 % 2048) = k) ||
  (s.fwd.queues.any fun e => queueOwner s e.1 = k)

/-- A slice number that a call may name: 1 to 15. -/
def sliceArg (k : Nat) : Res Unit := need (k ≠ 0) .badArg

/-- `SLICE_CREATE`. -/
def sliceCreate : TxnCall where
  spec := { code := 0x0020, who := .slice0, lens := [2], used := [0xFFFFFFFF, 0xF] }
  objs := fun _ i => do
    sliceArg (fld (pw i.words 1) 3 0)
    return [⟨.slice, fld (pw i.words 1) 3 0⟩]
  apply := fun i s => do
    let k := fld (pw i.words 1) 3 0
    need (!s.ctl.slices.contains k) .badState
    need s.ciph.healthy .badState
    return drawXts k { s with ctl := { s.ctl with slices := sinsert s.ctl.slices k } }

/-- `SLICE_DELETE`: what it held of ranges and VRFs is slice 0's again. -/
def sliceDelete : TxnCall where
  spec := { code := 0x0021, who := .slice0, lens := [2], used := [0xFFFFFFFF, 0xF] }
  objs := fun _ i => do
    sliceArg (fld (pw i.words 1) 3 0)
    return [⟨.slice, fld (pw i.words 1) 3 0⟩]
  apply := fun i s => do
    let k := fld (pw i.words 1) 3 0
    need (s.ctl.slices.contains k) .badState
    need (!sliceInUse s k && boundTo s k = []) .badState
    let s := { s with ctl := { s.ctl with
      slices := s.ctl.slices.filter (· ≠ k), onuRanges := kfilter s.ctl.onuRanges fun j _ => j / 32 ≠ k,
      allocRanges := kfilter s.ctl.allocRanges fun j _ => j / 32 ≠ k, vrfOwners := kfilter s.ctl.vrfOwners fun _ v => v ≠ k } }
    return dropXts k { s with fwd := { s.fwd with ranges := kerase s.fwd.ranges k } }

/-- `SLICE_BIND` with UNBIND clear, and `SLICE_BIND` with it set: one layout. -/
def sliceBind : TxnCall where
  spec := { code := 0x0022, who := .slice0, lens := [2], used := [0xFFFFFFFF, 0x8000FF0F] }
  objs := fun _ i => do
    let id := fld (pw i.words 1) 15 8
    need (1 ≤ id && id ≤ 15) .badArg
    need (bit (pw i.words 1) 31 || fld (pw i.words 1) 3 0 ≠ 0) .badArg
    return [⟨.bind, id⟩]
  apply := fun i s => do
    let id := fld (pw i.words 1) 15 8
    let k := fld (pw i.words 1) 3 0
    if bit (pw i.words 1) 31 then do
      need (kget s.ctl.binds id).isSome .badState
      return { s with ctl := { s.ctl with binds := kerase s.ctl.binds id } }
    else do
      need (s.ctl.slices.contains k) .badArg
      need ((boundTo s k).all fun j => j = id) .badState
      return { s with ctl := { s.ctl with binds := kset s.ctl.binds id k } }

/-- `CLEAT_ASSIGN`. -/
def cleatAssign : TxnCall where
  spec := { code := 0x0030, who := .slice0, intro := 0x0300, lens := [3], used := [0xFFFFFFFF, 0x3F, 0x4FFFF] }
  objs := fun _ i => .ok [⟨.cleat, fld (pw i.words 1) 5 0⟩]
  apply := fun i s =>
    let n := fld (pw i.words 1) 5 0
    .ok (setCleat n { cleatOf s n with mask := fld (pw i.words 2) 15 0, smb := bit (pw i.words 2) 18 } s)

end Sys2Proof.Machine
end

