-- ==== Sys2Proof/Machine/Txn.lean ====
section
/-! DEFINITION. Transactions: staging, commit, rollback, query, the mirroring of accepted commits, the apply point and the second
boundary (R38 to R41, R81 to R89, R512, R524, R540). -/

namespace Sys2Proof.Machine

/-! ### The transactional calls -/

/-- The transactional calls of families 0x00 to 0x06 and 0x0F. -/
def txnCallsA : List TxnCall := [
  sliceCreate, sliceDelete, sliceBind, cleatAssign, avsConfig, thermalConfig, pierConfig, pierProfileSet, pierDefectConfig, spliceConfig,
  spliceClear, onuExpectSet, onuExpectDelete, onuAuthorise, onuDeactivate, discoveryConfig, rangeCalSet, reachConfig, driftConfig,
  stbyDeltaConfig, timeConfig, keystoneSet, asymConfig, timeEvtConfig, ptpPortConfig, allocSet, allocDelete, sliceBudgetSet, trussConfig,
  openActivate, openBind, trussMcConfig, evtRouteSet ]

/-- The transactional calls of families 0x07 to 0x0E. -/
def txnCallsB : List TxnCall := [
  distSet, distPvidSet, vlanSet, bdSet, replSet, portSet, portDelete, fdbStaticSet, fdbDelete, directSet, routeSet, routeDelete,
  fwdTableConfig, fwdDscpSet, trapConfig, sliceHankSet, sliceQueuesSet, qprofileSet, qnodeSet, qnodeDelete, queueSet, queueDelete,
  viaductConfig, schedNodeSet, policerSet, gateListSet, pierSchedConfig, uplinkSchedConfig, uplinkBudgetSet, ponCipherConfig, ponMskSet,
  ponBcastKeySet, macsecPortConfig, macsecSaSet, macsecRxScSet, macsecSaPn, macsecTxNext, pairKeyConfig, loopbConfig, loopSet, sdhConfig,
  sdhTraceSet, mspConfig, tsiPageSet, ceCircuitSet, pairConfig, pairHawserCal, lanyardConfig, lanyardRegSet, lanyardRegDelete, shelfBudgetSet ]

/-- The transactional call of a code. -/
def txnCall (code : Nat) : Option TxnCall := (txnCallsA ++ txnCallsB).find? fun t => t.spec.code = code

/-- What an item does at its apply point. -/
def applyItem (i : Item) (s : State) : Res State := match txnCall i.code with | some t => t.apply i s | none => .error .badCall

/-- A call's item as one item per object it touches (R82). -/
def partsOf (i : Item) : List Item := match txnCall i.code with | some t => t.parts i | none => [i]

/-- What an item requires of its transaction as one whole. -/
def postItem (i : Item) (s : State) : Res Unit := match txnCall i.code with | some t => t.post i s | none => .ok ()

/-! ### The pair's view of an item (R512, R524) -/

/-- Whether an item gives a field that mirror format 2 does not carry a value other than its default (R523, R524). -/
def beyondFormat2 (i : Item) : Bool :=
  if i.code = 0x0501 then
    let x := allocFrom i.version i.words 0
    x.place ≠ 1 || x.shortProf ≠ x.longProf
  else i.code = 0x0312 && (fld (pw i.words 3) 31 16 ≠ 20000 || fld (pw i.words 3) 15 0 ≠ 200)

/-- Whether the pair refuses an item: a pair-shared one for a standby Span, or one that the mirror format cannot carry. What the mate
mirrors is not refused. -/
def pairRefuses (s : State) (i : Item) : Bool :=
  let p := s.red.pair
  let runs := p.st = .keying || p.st = .bulk || p.st = .paired
  !deviceLocal i.code && !i.mirrored &&
    ((itemSpans s i).any (fun sp => (spanOf s sp).paired && (spanOf s sp).standby) ||
      (runs && p.format = 2 && beyondFormat2 i))

/-- What an item does as validation sees it: refused by the pair on the state it would meet, or as it is applied (R39, R512, R524). -/
def checkedItem (i : Item) (s : State) : Res State := if pairRefuses s i then .error .badState else applyItem i s

/-- Validates items, object by object, for an apply point (R39, R82, R85). -/
def judgeItems (items : List Item) (target : Nat) (s : State) : Option (Nat × Status) :=
  validate checkedItem postItem (items.flatMap partsOf) target s

/-- Accepted items join the configuration that the pair shares. -/
def noteConfig (items : List Item) (s : State) : State := { s with ctl := { s.ctl with config := (items.flatMap partsOf).foldl configWith s.ctl.config } }

/-- The COMMIT record of an accepted transaction goes to the mate (R510). -/
def mirrorCommit (items : List Item) (target : Nat) (s : State) : State :=
  let s := noteConfig items s
  let shared := items.filter fun i => !deviceLocal i.code
  let p := s.red.pair
  if shared = [] || (p.st ≠ .bulk && p.st ≠ .paired) || activeSpans s = [] then s
  else recordOut 5 0xFF (commitData target shared) s

/-! ### Staging and the implicit transaction (R58, R81 to R83, R89) -/

/-- The item a call stages. -/
def itemOf (sp : CallSpec) (c : Call) (objs : List Obj) (s : State) : Item :=
  { code := sp.code, chan := c.chan, slice := actingSlice s c.chan, version := versionOf s c.chan, words := c.words, dma := c.dma, objs := objs }

/-- Accepts a commit: it applies at its apply point and then answers a call (R38, R85). -/
def accept (t : Txn) (target : Nat) (r : Ref) (s : State) : State :=
  mirrorCommit t.items target (setTxns (s.ctl.txns ++ [{ t with phase := .accepted target, ref := some r }]) (defer_ r s))

/-- The body of a transactional call: staged under its handle, or validated at once as an implicit transaction. Of several failing
checks the first of these counts: the handle, the call's arguments and ownership, a held object, the limit on items, and for an
implicit transaction its validation last (assumption 122). -/
def stageCall (t : TxnCall) (c : Call) (s : State) : State :=
  let h := (pw c.words 0).toNat
  let say (st : Status) (s : State) : State := respond t.spec.code c st [] s
  let found := findTxn s c.chan h
  if h ≠ 0 && (match found with | some x => x.phase ≠ .opened | none => true) then say .txnUnknown s
  else match t.objs s (itemOf t.spec c [] s) with
    | .error st => say st s
    | .ok objs =>
      let i := itemOf t.spec c objs s
      if h = 0 then
        if s.ctl.txns.any fun x => objs.any x.holds.contains then say .busyObject s
        else
          let target := applyPointFor s.tb 0
          match judgeItems [i] target s with
          | some (_, st) => say st s
          | none => accept ⟨0, c.chan, true, [i], .opened, objs, none⟩ target (refFor t.spec.code c s) s
      else if heldElsewhere s c.chan h objs then say .busyObject s
      else if 16384 < itemCount ((found.map (·.items)).getD []) + objs.length then say .txnFull s
      else say .done (modTxn c.chan h (fun x => { x with items := x.items ++ [i], holds := x.holds ++ objs.filter fun o => !x.holds.contains o }) s)

/-- A transactional call: the checks in front, then its staging. -/
def txnServe (t : TxnCall) (c : Call) (s : State) : Out := serve t.spec c s (stageCall t c)

/-! ### The calls that carry a handle (R81 to R88, R100) -/

/-- The open transactions of a channel, and of the device (R82). -/
def openTxns (s : State) : List Txn := s.ctl.txns.filter fun t => !t.implicit && t.phase = .opened

/-- The serial after one; channel 0 leaves out 0, whose handle would name an implicit transaction. -/
def nextSerial (ch n : Nat) : Nat := let m := (n + 1) % 65536; if ch = 0 && m = 0 then 1 else m

/-- `TXN_BEGIN`. -/
def txnBegin (ch : Nat) (s : State) : Res (State × List Word) := do
  let c := chanOf s ch
  need (((openTxns s).filter fun t => t.chan = ch).length < 4 && (openTxns s).length < 64) .txnFull
  let h := ch * 65536 + c.txnSerial
  let s := setTxns (s.ctl.txns ++ [⟨h, ch, false, [], .opened, [], none⟩]) (setChan ch { c with txnSerial := nextSerial ch c.txnSerial } s)
  return (s, [wd h])

/-- `TXN_COMMIT`. -/
def txnCommit (c : Call) (s : State) : State :=
  let h := (pw c.words 0).toNat
  let v := versionOf s c.chan
  let defer := fld (pw c.words 1) 12 0
  if (c.words.length = 2 && v < 0x0300) || 8000 < defer then respond 0x0011 c .badArg [] s
  else match findTxn s c.chan h with
    | none => respond 0x0011 c .txnUnknown [] s
    | some t =>
      if t.phase ≠ .opened then respond 0x0011 c .txnUnknown [] s
      else
        let target := applyPointFor s.tb defer
        match judgeItems t.items target s with
        | some (i, e) => respond 0x0011 c .validation (if v ≤ 0x0300 then [] else [wd i, wd e.code]) (dropTxn c.chan h s)
        | none => accept t target (refFor 0x0011 c s) (dropTxn c.chan h s)

/-- `TXN_ROLLBACK`. -/
def txnRollback (ch : Nat) (ws : List Word) (s : State) : Res (State × List Word) :=
  match findTxn s ch (pw ws 0).toNat with
  | none => .error .txnUnknown
  | some t => if t.phase = .opened then .ok (dropTxn ch (pw ws 0).toNat s, []) else .error .badState

/-- `TXN_QUERY`. -/
def txnQuery (ch : Nat) (ws : List Word) (s : State) : Res (List Word) :=
  match findTxn s ch (pw ws 0).toNat with
  | none => .error .txnUnknown
  | some t => .ok [match t.phase with | .opened => 0 | .accepted _ => 1 | .applied => 2, wd (itemCount t.items)]

/-- TXN_IDLE_TIMEOUT (R88). -/
def txnIdle (handle : Nat) (s : State) : State :=
  let ch := handle / 65536 % 256
  match findTxn s ch handle with
  | some t => if t.phase = .opened then raise 961 ((sliceOf s ch).toList) [wd handle] (dropTxn ch handle s) else s
  | none => s

/-! ### A standby's COMMIT records (R512) -/

/-- The items of a record as this device applies them. -/
def mirItems (s : State) (m : MirCommit) : List Item :=
  m.items.filterMap fun i => (txnCall i.code.toNat).bind fun t =>
    let it : Item := { code := i.code.toNat, chan := 16, slice := some 0, version := 0x0302, words := 0 :: i.words, dma := i.dma, objs := [], mirrored := true }
    if deviceLocal it.code then none
    else match t.objs s it with | .ok objs => some { it with objs := objs } | .error _ => some it

/-- MIRROR_COMMIT_RX: the record waits for its apply point, or for the first one it can reach, its Spans out of step till then. -/
def commitIn (m : MirCommit) (s : State) : State :=
  let its := mirItems s m
  if !((List.range 32).any fun sp => (spanOf s sp).paired) then s
  else
    let asked := m.point * frameTb
    let late := asked < s.tb + 20 * us
    let target := if late then applyPointFor s.tb 0 else asked
    let s := noteConfig its (setTxns (s.ctl.txns ++ [⟨0, 16, true, its, .accepted target, [], none⟩]) s)
    if !late then s
    else
      let spans := (its.flatMap (itemSpans s)).filter fun sp => (spanOf s sp).paired && (spanOf s sp).standby
      judgeSyncs (setPair { s.red.pair with late := spans.foldl (fun l sp => kset l sp target) s.red.pair.late } s)

/-! ### The apply point (R38, R40, R212) -/

/-- A transaction takes effect: its objects are free but for those that wait for a later boundary, and its call is answered. An item
that the state refuses by now, for another cause than a later commit, changes nothing, and the call is answered DONE (assumption 124). -/
def takeEffect (t : Txn) (target : Nat) (s : State) : State :=
  let s := (runItems applyItem 0 t.items ⟨s, none⟩).st
  let left := t.holds.filter s.ctl.later.contains
  let s := if left = [] then s else setTxns (s.ctl.txns ++ [{ t with phase := .applied, holds := left, ref := none }]) s
  match t.ref with
  | some r => answer r .done (if r.code = 0x0011 then toWords 2 (target / 2 ^ 40) else []) s
  | none => s

/-- The accepted transactions whose apply point is reached take effect in order (R39). -/
def applyTxns (now : Nat) (s : State) : State :=
  let due := (acceptedTxns s).filter fun t => (acceptedAt t).getD 0 ≤ now
  let s := setTxns (s.ctl.txns.filter fun t => match t.phase with | .accepted a => now < a | _ => true) s
  forEach due (fun t s => takeEffect t ((acceptedAt t).getD 0) s) s

/-- Every Span and Pier, in order. -/
def allPiers (f : Nat → Nat → State → State) (s : State) : State := forEach (List.range 32) (fun sp s => forEach (List.range 3) (fun p s => f sp p s) s) s

/-- What the Spans do at the apply point that begins frame `n` (R136, R173, R239, R399). A matched ONU becomes ACTIVE only where Saend
takes activation steps (R164, R240). -/
def spanFrames (n : Nat) (s : State) : State :=
  let s := forEach (List.range 32) (fun sp s => forEach ((onusOf s sp).filter fun o => activates s sp && (onuOf s sp o).matched) (becomeActive sp) s) s
  let s := forEach (List.range 32) (fun sp s => closeDue sp n s) s
  let s := allPiers (fun sp p s => pierFrame sp p n (keyFrame sp p s)) s
  let s := forEach (List.range 32) (fun sp s => let v := spanOf s sp; if v.granting && v.t0 + 16 ≤ n then startRoutine sp n s else s) s
  allPiers countHolds s

/-- APPLY_POINT, a TSI page that is due exchanging before the multiframe that begins here is sent (R41, R492): `lines` is what each Pier's line showed in the frame that ends; a Pier not listed showed nothing outside its grants. -/
def applyPoint (lines : List LineWatch) (s : State) : State :=
  let n := max (s.ctl.lastApply + 1) (frameNo s)
  let s := advance (n * frameTb) s
  let s := allPiers (fun sp p s => judgeRogue sp p (lines.any fun l => l.pier.val = 3 * sp + p && l.rogue) (judgeLos sp p s)) s
  let s := { s with ctl := { s.ctl with lastApply := n } }
  let s := applyTxns (n * frameTb) (passLaunches (n * 125000000) s)
  let s := spanFrames n (stmFrames (tsiSwap (stepsDue n s)))
  shedAdvance (refuseRuns n (judgeSyncs (heartbeatOut n (lanyardRates s))))

/-- SECOND_BOUNDARY (R161, R462, R528, R540): the counters are latched, and what counts per second starts anew. -/
def secondBoundary (s : State) : State :=
  let second := 8000 * frameTb
  let n := max (s.ctl.lastSecond + 1) (s.tb / second)
  let s := advance (n * second) s
  let s := passLaunches (n * secPs) { s with ctl := { s.ctl with lastSecond := n } }
  let s := gaugesNow (latch n (pcieCounted (forEach (List.range 28) laneCounted s)))
  let s := pipeSecond (forEach (List.range 28) laneDegraded s)
  let s := { s with fwd := { s.fwd with peakSnap := s.fwd.peaks, peaks := kmap s.fwd.peaks fun k _ => hankUse s (k / 4) (k % 4) }, opt := { s.opt with buses := kmap s.opt.buses fun _ b => { b with overrunTold := false } } }
  usageOut s

end Sys2Proof.Machine
end

