-- ==== Sys2Proof/Machine/ControlCommands.lean ====
section
/-! DEFINITION. The commands of the mailboxes, Cleats, event registers, sessions, transactions, events and counters, the apply point
and the second boundary (chapters 01, 02 and 17). -/

namespace Sys2Proof.Machine

/-! ### Registers -/

def execMbxInDataWrite (ch : Chan) (w : Word) (s : State) : Out := .next (if reaches s ch then pushIn ch w s else s)
def execMbxInAbort (ch : Chan) (s : State) : Out := .next (if reaches s ch then inAbort ch s else s)
def execMbxInCollisionClear (ch : Chan) (s : State) : Out := .next (if reaches s ch then setChan ch { chanOf s ch with inColl := false } s else s)
def execMbxOutDataRead (ch : Chan) (s : State) : Out := .next (if reaches s ch then readBy ch 0x110 0x14 s else s)
def execMbxOutCollisionClear (ch : Chan) (s : State) : Out := .next (if reaches s ch then setChan ch { chanOf s ch with outColl := false } s else s)
def execMbxIrqCtrlWrite (fn : Fn) (w : Word) (s : State) : Out := writeReg fn 0xFF80FFFC w s (irqCtrl fn w s)
def execCleatRead (ch : Chan) (n : Fin 64) (s : State) : Out := .next (if reaches s ch then readBy ch (0x1000 + 4 * n) (0x40 + n) s else s)
def execCleatWrite (ch : Chan) (n : Fin 64) (w : Word) (s : State) : Out := .next (if reaches s ch then cleatWrite ch n w s else s)
def execEvtPendRead (fn : Fn) (g : Fin 32) (s : State) : Out := .next (if !hostSees s fn then s else if booting s then emit (.readData fn 0) s else pendRead fn g s)
def execEvtPendClear (fn : Fn) (g : Fin 32) (w : Word) (s : State) : Out := .next (if hostSees s fn then pendClear fn g w s else s)
def execEvtMaskWrite (fn : Fn) (g : Fin 32) (w : Word) (s : State) : Out := .next (if hostSees s fn then maskWrite fn g w s else s)
def execMsixVectorUnmask (fn : Fn) (v : Fin 32) (s : State) : Out := .next (if hostSees s fn then unmask fn v s else s)

/-- REGISTER_WRITE (R6, R7, R93): by BAR0 offset, or by address and command code on SMBus (R70). A Cleat ignores every value but 0 (R75). -/
def execRegisterWrite (ch : Chan) (offset : BitVec 16) (w : Word) (s : State) : Out :=
  match regOffset s ch offset.toNat with
  | none => .next s
  | some off =>
    if !reaches s ch then .next s
    else if off % 4 = 0 && (w &&& reservedBits off) ≠ 0 then .fault (.undefinedUse "R6")
    else if ch.val < 16 && movesRing s ch off w then .fault (.undefinedUse "R93")
    else .next (writeBy ch offset.toNat w s)

/-! ### What Saend does with messages and events -/

def execMarkedMessageDiscard (ch : Chan) (s : State) : Out := .next (discardMarked ch s)
def execOutboundBacklogMove (ch : Chan) (s : State) : Out := .next (moveBacklog ch s)
def execEventRateWindowEnd (ch : Chan) (src : Fin 1024) (s : State) : Out := .next (rateWindowEnd ch src s)

/-- The calls of the tables and the versions that introduced them, part 0. -/
def known0 : List (Nat × Nat) := [
  (0x0001, 0x0200), (0x0002, 0x0200), (0x0003, 0x0200), (0x0010, 0x0200), (0x0011, 0x0200), (0x0012, 0x0200), (0x0013, 0x0301),
  (0x0020, 0x0200), (0x0021, 0x0200), (0x0022, 0x0200), (0x0030, 0x0300), (0x0101, 0x0200), (0x0102, 0x0200), (0x0103, 0x0200),
  (0x0104, 0x0200), (0x0110, 0x0200), (0x0111, 0x0200), (0x0112, 0x0200), (0x0113, 0x0300), (0x0120, 0x0200), (0x0130, 0x0200),
  (0x0131, 0x0200), (0x0140, 0x0300), (0x0141, 0x0201), (0x0142, 0x0200), (0x0201, 0x0200), (0x0202, 0x0200), (0x0203, 0x0200),
  (0x0210, 0x0200), (0x0211, 0x0200), (0x0212, 0x0200), (0x0220, 0x0200), (0x0221, 0x0300), (0x0222, 0x0300), (0x0223, 0x0300),
  (0x0301, 0x0200), (0x0302, 0x0200), (0x0303, 0x0200), (0x0304, 0x0200), (0x0305, 0x0200), (0x0306, 0x0200), (0x0310, 0x0200),
  (0x0311, 0x0200), (0x0312, 0x0300), (0x0313, 0x0300), (0x0314, 0x0201), (0x0315, 0x0200), (0x0320, 0x0300), (0x0321, 0x0300),
  (0x0401, 0x0200) ]

/-- The calls of the tables and the versions that introduced them, part 1. -/
def known1 : List (Nat × Nat) := [
  (0x0402, 0x0200), (0x0403, 0x0200), (0x0404, 0x0200), (0x0405, 0x0200), (0x0406, 0x0201), (0x0410, 0x0200), (0x0411, 0x0200),
  (0x0420, 0x0300), (0x0421, 0x0300), (0x0430, 0x0200), (0x0431, 0x0200), (0x0440, 0x0200), (0x0441, 0x0200), (0x0501, 0x0200),
  (0x0502, 0x0200), (0x0503, 0x0200), (0x0510, 0x0200), (0x0511, 0x0200), (0x0520, 0x0200), (0x0521, 0x0300), (0x0601, 0x0201),
  (0x0602, 0x0201), (0x0603, 0x0201), (0x0604, 0x0201), (0x0605, 0x0300), (0x0610, 0x0300), (0x0701, 0x0200), (0x0702, 0x0200),
  (0x0703, 0x0200), (0x0710, 0x0200), (0x0711, 0x0200), (0x0712, 0x0201), (0x0713, 0x0200), (0x0714, 0x0200), (0x0720, 0x0200),
  (0x0721, 0x0200), (0x0722, 0x0200), (0x0723, 0x0200), (0x0724, 0x0200), (0x0730, 0x0200), (0x0731, 0x0200), (0x0732, 0x0200),
  (0x0740, 0x0200), (0x0741, 0x0200), (0x0742, 0x0200), (0x0750, 0x0200), (0x0801, 0x0200), (0x0802, 0x0200), (0x0803, 0x0200),
  (0x0804, 0x0200) ]

/-- The calls of the tables and the versions that introduced them, part 2. -/
def known2 : List (Nat × Nat) := [
  (0x0810, 0x0200), (0x0811, 0x0200), (0x0812, 0x0200), (0x0813, 0x0200), (0x0814, 0x0200), (0x0815, 0x0200), (0x0816, 0x0200),
  (0x0820, 0x0200), (0x0821, 0x0300), (0x0901, 0x0200), (0x0902, 0x0200), (0x0910, 0x0200), (0x0911, 0x0200), (0x0920, 0x0201),
  (0x0921, 0x0201), (0x0922, 0x0201), (0x0930, 0x0200), (0x0931, 0x0200), (0x0932, 0x0300), (0x0A01, 0x0200), (0x0A02, 0x0201),
  (0x0A03, 0x0200), (0x0A04, 0x0200), (0x0A05, 0x0200), (0x0A10, 0x0200), (0x0A11, 0x0200), (0x0A12, 0x0200), (0x0A13, 0x0200),
  (0x0A14, 0x0200), (0x0A15, 0x0200), (0x0A20, 0x0200), (0x0A30, 0x0300), (0x0A31, 0x0300), (0x0A40, 0x0200), (0x0B01, 0x0200),
  (0x0B02, 0x0200), (0x0B03, 0x0200), (0x0B10, 0x0200), (0x0B11, 0x0200), (0x0B12, 0x0200), (0x0B13, 0x0200), (0x0B20, 0x0201),
  (0x0B21, 0x0201), (0x0C01, 0x0200), (0x0C02, 0x0200), (0x0C03, 0x0200), (0x0C04, 0x0200), (0x0C05, 0x0200), (0x0C06, 0x0200),
  (0x0C07, 0x0201) ]

/-- The calls of the tables and the versions that introduced them, part 3. -/
def known3 : List (Nat × Nat) := [
  (0x0C10, 0x0200), (0x0C11, 0x0300), (0x0C20, 0x0200), (0x0D01, 0x0200), (0x0D02, 0x0200), (0x0D03, 0x0200), (0x0D04, 0x0200),
  (0x0D10, 0x0200), (0x0D11, 0x0200), (0x0D12, 0x0200), (0x0D20, 0x0200), (0x0D21, 0x0200), (0x0D30, 0x0200), (0x0D31, 0x0200),
  (0x0E01, 0x0200), (0x0E02, 0x0200), (0x0E03, 0x0200), (0x0E04, 0x0300), (0x0E10, 0x0200), (0x0E11, 0x0200), (0x0E20, 0x0200),
  (0x0E21, 0x0200), (0x0E22, 0x0200), (0x0E23, 0x0200), (0x0E24, 0x0200), (0x0E25, 0x0201), (0x0F01, 0x0200), (0x0F02, 0x0200),
  (0x0F03, 0x0201), (0x0F10, 0x0200), (0x0F11, 0x0200) ]

/-- Whether a session of a version may make a call of a code (R6, R79, R90). -/
def introduced (code version : Nat) : Bool := (known0 ++ known1 ++ known2 ++ known3).any fun e => e.1 = code && e.2 ≤ version

/-- BAD_CALL_RECEIVED: an unknown, reserved, outbound-only or not yet introduced code (R6, R59, R77, R79). A message with a code that
the session may use is no such message. -/
def execBadCallReceived (code : BitVec 16) (c : Call) (s : State) : Out :=
  let sp : CallSpec := { code := code.toNat, who := .any, intro := 0, lens := List.range 16, used := List.replicate 15 0xFFFFFFFF }
  if introduced code.toNat (versionOf s c.chan) then .next s else serve sp c s fun s => respond code.toNat c .badCall [] s

/-! ### Sessions and transactions -/

def sessionOpenSpec : CallSpec := { code := 0x0001, who := .any, intro := 0, lens := [1], used := [0xFFFFFFFF] }
def execSessionOpen (c : Call) (s : State) : Out := serve sessionOpenSpec c s (sessionOpen c)

def sessionCloseSpec : CallSpec := { code := 0x0002, who := .any, lens := [0], used := [] }
def execSessionClose (c : Call) (s : State) : Out := serve sessionCloseSpec c s (sessionClose c)

def sessionPingSpec : CallSpec := { code := 0x0003, who := .any, intro := 0, lens := List.range 16, used := List.replicate 15 0xFFFFFFFF }
def execSessionPing (c : Call) (s : State) : Out := serveRead sessionPingSpec c s fun _ => .ok (c.words.take 14)

def txnBeginSpec : CallSpec := { code := 0x0010, who := .bound, extra := [16, 17, 18], lens := [0], used := [] }
def execTxnBegin (c : Call) (s : State) : Out := serveAct txnBeginSpec c s (txnBegin c.chan)

def txnCommitSpec : CallSpec := { code := 0x0011, who := .bound, extra := [16, 17, 18], lens := [1, 2], used := [0xFFFFFFFF, 0x1FFF] }
def execTxnCommit (c : Call) (s : State) : Out := serve txnCommitSpec c s (txnCommit c)

def txnRollbackSpec : CallSpec := { code := 0x0012, who := .bound, extra := [16, 17, 18], lens := [1], used := [0xFFFFFFFF] }
def execTxnRollback (c : Call) (s : State) : Out := serveAct txnRollbackSpec c s (txnRollback c.chan c.words)

def txnQuerySpec : CallSpec := { code := 0x0013, who := .bound, extra := [16, 17, 18], intro := 0x0301, lens := [1], used := [0xFFFFFFFF] }
def execTxnQuery (c : Call) (s : State) : Out := serveRead txnQuerySpec c s (txnQuery c.chan c.words)

def execTxnIdleTimeout (handle : Word) (s : State) : Out := .next (txnIdle handle.toNat s)

/-! ### Events and counters -/

def evtRouteGetSpec : CallSpec := { code := 0x0F02, who := .bound, extra := [18], lens := [1], used := [0x1F] }
def execEvtRouteGet (c : Call) (s : State) : Out := serveRead evtRouteGetSpec c s fun s => .ok (evtRouteGet c.chan c.words s)

def evtDetailSpec : CallSpec := { code := 0x0F03, who := .bound, extra := [18], intro := 0x0201, lens := [1], used := [0x3FF] }
def execEvtDetail (c : Call) (s : State) : Out := serveAct evtDetailSpec c s (evtDetail c.chan c.words)

def cntSnapshotCopySpec : CallSpec := { code := 0x0F10, who := .bound, lens := [3], used := [0xFFFFFFFF, 0xFFFFFFFF, 0xFFFFFF] }
def execCntSnapshotCopy (c : Call) (s : State) : Out := serveAct cntSnapshotCopySpec c s (cntSnapshotCopy c.chan c.words)

def cntReadSpec : CallSpec := { code := 0x0F11, who := .bound, extra := [18], lens := [1], used := [0xFFFFFF] }
def execCntRead (c : Call) (s : State) : Out := serveRead cntReadSpec c s (cntRead c.chan c.words)

/-! ### The clock -/

/-- Whether an item that takes effect at the next apply point writes what R337 leaves undefined. -/
def undefinedWrite (s t : State) : Bool :=
  s.ctl.txns.any fun x => match x.phase with | .accepted a => a ≤ t.tb && x.items.any (fwdUndefined t) | _ => false

/-- APPLY_POINT: SAs and forwarding objects whose use would become undefined there stop the model (R405, R337). -/
def execApplyPoint (lines : List LineWatch) (s : State) : Out :=
  let t := applyPoint lines s
  if undefinedWrite s t then .fault (.undefinedUse "R337")
  else if !saClash (txSas s) && saClash (txSas t) then .fault (.undefinedUse "R405") else .next t

def execSecondBoundary (s : State) : Out := .next (secondBoundary s)

/-! ### Frames and records that Saend takes -/

/-- ESMC_FRAME_TO_SAEND: a quality level below QL_MIN on the port of the selected lane loses the frequency source while it lasts
(R219, R307). -/
def execEsmcFrameToSaend (port : PortIx) (ql : Nat) (s : State) : Out :=
  let t := s.time.cfg
  .next (if s.boot.ready && t.freqSrc = 1 && (lanesOf s port).contains t.freqLane then
    freqWatch (setTime { s.time with qlLow := ql < t.qlMin } s) else s)

def execMirrorCommitRx (h : MirHead) (m : MirCommit) (s : State) : Out := .next (fromMate (fun s => commitIn m (mirrorIn h.rseq s)) s)

end Sys2Proof.Machine
end

