-- ==== Sys2Proof/Machine/ForwardCommands.lean ====
section
/-! DEFINITION. The commands of the pipelines: frames from the ports and the Spans, flush, aging and limiters, and the calls of
family 0x07 that are not transactional. -/

namespace Sys2Proof.Machine

def execUplinkFrameRx (port : PortIx) (frame : List Byte) (fcsOk : Bool) (slips : List (Fin 8)) (s : State) : Out := orUndefined (uplinkRx port frame fcsOk slips s)
def execUpstreamPipeline (p : Fin 4) (s : State) : Out := orUndefined (upstreamStep p s)
def execXpFlushReceived (p : Fin 4) (s : State) : Out := .next (xpFlush p s)
def execAgingSweepStart (p cls : Fin 4) (s : State) : Out := .next (sweepStart p cls s)
def execAgingBucketVisit (p cls : Fin 4) (s : State) : Out := .next (sweepVisit p cls s)
def execPuntLimiterRefill (p : Fin 4) (slice : SliceIx) (reason : Fin 13) (s : State) : Out := .next (limiterRefill p slice reason s)

def distReadSpec : CallSpec := { code := 0x0702, who := .slice0, lens := [1], used := [0xFFF] }
def execDistRead (c : Call) (s : State) : Out :=
  serveRead distReadSpec c s fun s => .ok [put (kgetD s.fwd.dist (fld (pw c.words 0) 11 0) 0) 24]

def fdbReadSpec : CallSpec := { code := 0x0722, who := .bound, lens := [5], used := [0x30000000, 0xFFFFFFFF, 0xFFFFFFFF, 0xFFFFFFFF, 0xFFFFFFFF] }
def execFdbRead (c : Call) (s : State) : Out := serveRead fdbReadSpec c s (fdbRead c.chan c.words)

def fdbFlushSpec : CallSpec := { code := 0x0723, who := .bound, lens := [2], used := [0xFC003FFF, 0x1FFF001F] }
def execFdbFlush (c : Call) (s : State) : Out := serveAct fdbFlushSpec c s (fdbFlush c.chan c.words)

def routeReadSpec : CallSpec := { code := 0x0732, who := .bound, lens := [5], used := [0x3CFF0FFF, 0xFFFFFFFF, 0xFFFFFFFF, 0xFFFFFFFF, 0xFFFFFFFF] }
def execRouteRead (c : Call) (s : State) : Out := serveRead routeReadSpec c s (routeRead c.chan c.words)

def fwdStatusSpec : CallSpec := { code := 0x0741, who := .slice0, lens := [1], used := [0x30000000] }
def execFwdStatus (c : Call) (s : State) : Out := serveRead fwdStatusSpec c s fun s => .ok (fwdStatus c.words s)

end Sys2Proof.Machine
end

