-- ==== Sys2Proof/Machine/LaneCommands.lean ====
section
/-! DEFINITION. The commands of the serial lanes, Ethernet ports and the PCIe link, and the calls of family 0x0C (chapter 14). -/

namespace Sys2Proof.Machine

/-- The Hawser follows a change of one of its lanes (R468). -/
def andSet (n : Nat) (s : State) : State := if 24 ≤ n && n ≤ 27 then hawserLanes s else s

def execLaneStartingDone (lane : LaneIx) (s : State) : Out := .next (andSet lane (laneOn lane s))
def execLaneStoppingDone (lane : LaneIx) (s : State) : Out := .next (laneOff lane s)
def execLaneLosDeclare (lane : LaneIx) (s : State) : Out := .next (freqWatch (andSet lane (losDeclare lane s)))
def execLaneLosClear (lane : LaneIx) (s : State) : Out := .next (losClear lane s)
def execLaneRxLol (lane : LaneIx) (s : State) : Out := .next (freqWatch (andSet lane (rxLolDeclare lane s)))
def execLaneRxLockHeld (lane : LaneIx) (s : State) : Out := .next (rxLolClear lane s)
def execLaneTrainComplete (lane : LaneIx) (pre post : Int) (s : State) : Out := .next (trainComplete lane pre post s)
def execLaneTrainTimeout (lane : LaneIx) (s : State) : Out := .next (trainTimeout lane s)
def execLaneTrainRetry (lane : LaneIx) (s : State) : Out := .next (trainRetry lane s)
def execPcsBlockLockChange (port : PortIx) (block align fault : Bool) (s : State) : Out := .next (pcsChange port block align fault s)

/-- PCIE_LINK_CHANGE (R470). -/
def execPcieLinkChange (speed width : Nat) (s : State) : Out := .next (pcieLink speed width s)

/-- PCIE_UNCORR_ERROR (R472). -/
def execPcieUncorrError (status : Word) (s : State) : Out := .next (pcieError status s)

def portModeSetSpec : CallSpec := { code := 0x0C01, who := .slice0, lens := [1], used := [0x1F030F] }
def execPortModeSet (c : Call) (s : State) : Out := serveAct portModeSetSpec c s (portModeSet c.words)

/-- `LANE_ENABLE`, ON or OFF as its words say (R453, R454). -/
def laneEnable (c : Call) (s : State) : State :=
  let n := fld (pw c.words 0) 6 0
  andSet n (if bit (pw c.words 0) 8 then laneEnableOn 0x0C02 c s else laneEnableOff 0x0C02 c s)

def laneEnableSpec : CallSpec := { code := 0x0C02, who := .slice0, lens := [1], used := [0x17F] }
def execLaneEnableOn (c : Call) (s : State) : Out := serve laneEnableSpec c s (laneEnable c)
def execLaneEnableOff (c : Call) (s : State) : Out := serve laneEnableSpec c s (laneEnable c)

def laneTxEqSetSpec : CallSpec := { code := 0x0C03, who := .slice0, lens := [2], used := [0x7F, 0x803F1F1F] }
def execLaneTxEqSet (c : Call) (s : State) : Out := serveAct laneTxEqSetSpec c s (laneTxEqSet c.words)

def laneRxEqSetSpec : CallSpec := { code := 0x0C04, who := .slice0, lens := [4], used := [0x37F, 0x3F1F, 0xFFFFFFFF, 0xFFFFFFFF] }
def execLaneRxEqSet (c : Call) (s : State) : Out := serveAct laneRxEqSetSpec c s (laneRxEqSet c.words)

def laneDetectConfigSpec : CallSpec := { code := 0x0C05, who := .slice0, lens := [2], used := [0x7F, 0xF7F01FF] }
def execLaneDetectConfig (c : Call) (s : State) : Out := serveAct laneDetectConfigSpec c s (laneDetectConfig c.words)

def laneLoopbackSetSpec : CallSpec := { code := 0x0C06, who := .slice0, lens := [1], used := [0x37F] }
def execLaneLoopbackSet (c : Call) (s : State) : Out := serveAct laneLoopbackSetSpec c s (laneLoopbackSet c.words)

def lanePrbsSpec : CallSpec := { code := 0x0C07, who := .slice0, intro := 0x0201, lens := [1], used := [0x337F] }
def execLanePrbs (c : Call) (s : State) : Out := serveAct lanePrbsSpec c s fun s => (lanePrbs c.words s).map fun r => (andSet (fld (pw c.words 0) 6 0) r.1, r.2)

def laneStatusSpec : CallSpec := { code := 0x0C10, who := .slice0, extra := [18], lens := [1], used := [0x7F] }
def execLaneStatus (c : Call) (s : State) : Out := serveAct laneStatusSpec c s (laneStatus c.words)

def hawserLaneStatusSpec : CallSpec := { code := 0x0C11, who := .slice0, extra := [18], intro := 0x0300, lens := [0], used := [] }
def execHawserLaneStatus (c : Call) (s : State) : Out := serveAct hawserLaneStatusSpec c s fun s => .ok (hawserLaneStatus s)

def pcieStatusSpec : CallSpec := { code := 0x0C20, who := .slice0, extra := [18], lens := [0], used := [] }
def execPcieStatus (c : Call) (s : State) : Out := serveRead pcieStatusSpec c s fun s => .ok (pcieStatus s)

end Sys2Proof.Machine
end

