-- ==== Sys2Proof/Machine/OpticsCommands.lean ====
section
/-! DEFINITION. The commands of the optics loops (chapter 13) that pass no transaction. -/

namespace Sys2Proof.Machine

def execKeystoneConvFire (entry : Fin 2048) (s : State) : Out := .next (keyConv entry s)
def execKeystoneLoopFire (entry : Fin 2048) (s : State) : Out := .next (keyLoop entry s)
def execLoopConvTimeEnd (bus : BusIx) (loop : Fin 36) (s : State) : Out := .next (loopConvEnd bus loop s)
def execRssiConvTimeEnd (bus : BusIx) (dev : Nat) (s : State) : Out := .next (rssiConvEnd bus dev s)
def execLoopbFrameDone (bus : BusIx) (answer : Option (BitVec 16)) (s : State) : Out := .next (frameDone bus answer s)
def execLoopbAlert (bus : BusIx) (s : State) : Out := .next (busAlert bus s)

def loopReadSpec : CallSpec := { code := 0x0B03, who := .slice0, lens := [1], used := [0x7003F] }
def execLoopRead (c : Call) (s : State) : Out := serveRead loopReadSpec c s (loopRead c.words)

/-- `OPTICS_START`: DONE as the Pier enters WARMING, PENDING while it stops (R441, R449). -/
def opticsStartSpec : CallSpec := { code := 0x0B10, who := .slice0, lens := [2], used := [0x1F03, 0xFFFF] }
def execOpticsStart (c : Call) (s : State) : Out :=
  serve opticsStartSpec c s fun s => let r := opticsStart c.words s; respond 0x0B10 c r.2 [] r.1

def opticsStopSpec : CallSpec := { code := 0x0B11, who := .slice0, lens := [1], used := [0x1F03] }
def execOpticsStop (c : Call) (s : State) : Out := serve opticsStopSpec c s (opticsStop 0x0B11 c)

def opticsStatusSpec : CallSpec := { code := 0x0B12, who := .slice0, lens := [1], used := [0x1F03] }
def execOpticsStatus (c : Call) (s : State) : Out := serveRead opticsStatusSpec c s (opticsStatus c.words)

def opticsFaultClearSpec : CallSpec := { code := 0x0B13, who := .slice0, lens := [1], used := [0x1F03] }
def execOpticsFaultClear (c : Call) (s : State) : Out := serveAct opticsFaultClearSpec c s (opticsFaultClear c.words)

def rssiReadSpec : CallSpec := { code := 0x0B20, who := .bound, intro := 0x0201, lens := [1], used := [0x1FF001F] }
def execRssiRead (c : Call) (s : State) : Out := serveRead rssiReadSpec c s (rssiReadCall c.chan c.words)

def convReadSpec : CallSpec := { code := 0x0B21, who := .slice0, intro := 0x0201, lens := [1], used := [0x7003F] }
def execConvRead (c : Call) (s : State) : Out := serveRead convReadSpec c s fun s => .ok (convRead c.words s)

end Sys2Proof.Machine
end

