-- ==== Sys2Proof/Machine/PairCommands.lean ====
section
/-! DEFINITION. The commands of the Hawser, the pair key, the protection pair and the shelf that do not pass a transaction
(chapters 12, 14 and 16). -/

namespace Sys2Proof.Machine

/-! ### Hawser -/

def execHawserLockGained (lane : Fin 4) (s : State) : Out := .next (hawserLock lane true s)
def execHawserLockLost (lane : Fin 4) (s : State) : Out := .next (hawserLock lane false s)
def execHawserCodewordRx (lane : Fin 4) (good : Bool) (seq : Fin 1024) (lanes : Fin 16) (flits : Nat) (s : State) : Out :=
  .next (hawserCodeword lane good seq lanes flits s)
def execHawserNoCodewordTimeout (s : State) : Out := .next (hawserSilent s)
def execHawserLinkUp (s : State) : Out := .next (hawserLinkUp s)
def execHawserMailboxFlitRx (reply : Bool) (words : List Word) (free : Nat) (s : State) : Out := .next (fromMate (mailboxFlit reply words free) s)
def execHawserFreeFlitTimer (s : State) : Out := .next (freeFlit s)
def execHawserTimebaseFlitTimer (s : State) : Out := .next (timebaseFlit s)
def execHawserTimebaseFlitRx (send echoSend echoRecv recv : Nat) (s : State) : Out := .next (fromMate (timebaseRx send echoSend echoRecv recv) s)

/-! ### Pair key (R417) -/

/-- PAIR_KEY_REKEY_TIMER: REKEY hours after its establishment the pair key is established again, while the link is up; 24
hours under sessions of version 2.x (R423). -/
def execPairKeyRekeyTimer (s : State) : Out :=
  let k := s.ciph.pair
  .next (if s.red.hawser.up && k.st = .established && k.since + 3600000000 * us * (if hashChecked s then k.rekey else 24) ≤ s.tb then pairKeyStart s else s)

def execPairKeyFlitRx (stage : Fin 4) (bytes : List Byte) (last : Bool) (s : State) : Out := .next (fromMate (fun s => keyDone (s.ciph.pair.st = .established) (pairKeyFlit stage bytes last s)) s)

/-- PAIR_KEY_TIMEOUT: an establishment that has not completed fails with cause 3. -/
def execPairKeyTimeout (s : State) : Out := .next (if s.ciph.pair.st = .establishing then judgeSyncs (pairKeyFail 3 s) else s)

/-! ### Mirror records -/

def execMirrorMapRx (h : MirHead) (m : MirMap) (s : State) : Out := .next (fromMate (fun s => mirrorMap h.span m (mirrorIn h.rseq s)) s)
def execMirrorOnuRx (h : MirHead) (m : MirOnu) (s : State) : Out := .next (fromMate (fun s => mirrorOnuIn h.span m (mirrorIn h.rseq s)) s)
def execMirrorAllocRx (h : MirHead) (m : MirAlloc) (s : State) : Out := .next (fromMate (fun s => mirrorAllocIn h.span m (mirrorIn h.rseq s)) s)
def execMirrorKeyRx (h : MirHead) (m : MirKey) (s : State) : Out := .next (fromMate (fun s => mirrorKeyIn h.span m (mirrorIn h.rseq s)) s)
def execMirrorSpanRx (h : MirHead) (m : MirSpan) (s : State) : Out := .next (fromMate (fun s => mirrorSpanIn h.span m (mirrorIn h.rseq s)) s)
def execMirrorHeartbeatRx (rseq _sfc : Nat) (roles : Word) (_st : Fin 7) (s : State) : Out := .next (fromMate (fun s => heartbeatIn roles (mirrorIn rseq s)) s)
def execMirrorSwitchRx (rseq : Nat) (spans : Word) (force : Bool) (row : Fin 6) (s : State) : Out :=
  .next (fromMate (fun s => switchIn row force (spansIn spans) (mirrorIn rseq s)) s)
def execMirrorEndOfSnapshotRx (rseq : Nat) (spans : Word) (s : State) : Out := .next (fromMate (fun s => snapshotEnd spans (mirrorIn rseq s)) s)
def execMirrorAckRx (rseq : Nat) (s : State) : Out := .next (fromMate (ackIn rseq) s)
def execMirrorAckTimer (s : State) : Out := .next (ackOut s)

/-! ### Loss of the mate and switch-over -/

/-- MATE_HEARTBEAT_TIMEOUT: mate loss on a device that is standby for a Span (R515). -/
def execMateHeartbeatTimeout (s : State) : Out :=
  .next (if standbySpans s ≠ [] && (s.red.pair.st = .bulk || s.red.pair.st = .paired) then mateLost 1 s else s)
def execMateConfirmEnd (lit : Word) (s : State) : Out := .next (confirmEnd lit s)
def execSwitchoverRelight (sp : SpanIx) (s : State) : Out := .next (relight sp s)
def execSwitchoverFirstFrame (sp : SpanIx) (s : State) : Out := .next (firstFrame sp s)

/-! ### Calls of the pair -/

def pairSwitchSpec : CallSpec := { code := 0x0E02, who := .slice0, lens := [2], used := [0xC0000000, 0xFFFFFFFF] }
def execPairSwitch (c : Call) (s : State) : Out := serve pairSwitchSpec c s (pairSwitch 0x0E02 c)

def pairStatusSpec : CallSpec := { code := 0x0E03, who := .slice0, extra := [16, 18], lens := [0], used := [] }
def execPairStatus (c : Call) (s : State) : Out := serveRead pairStatusSpec c s fun s => .ok (pairStatus s)

def mateHelloSpec : CallSpec := { code := 0x0E10, who := .nobody, extra := [16], lens := [6], used := List.replicate 6 0xFFFFFFFF }
def execMateHello (c : Call) (s : State) : Out := serveAct mateHelloSpec c s fun s => .ok (mateHello c.words s)

def mateBulkSpec : CallSpec := { code := 0x0E11, who := .nobody, extra := [16], lens := [2], used := [3, 0xFFFFFFFF] }
def execMateBulkSend (c : Call) (s : State) : Out := serveAct mateBulkSpec c s (mateBulk c.words)
def execMateBulkReceived (c : Call) (s : State) : Out := serveAct mateBulkSpec c s (mateBulk c.words)

/-! ### Lanyard -/

def execLanyardHelloTimer (s : State) : Out := .next (helloTimer s)

/-- LANYARD_HELLO_RX: two workers with one number are undefined use (R525). -/
def execLanyardHelloRx (port : PortIx) (h : LanHead) (manager : Bool) (free : Nat) (s : State) : Out :=
  if twoWorkers s port h manager then .fault (.undefinedUse "R525") else .next (lanFrame port h 1 (helloIn port h manager free) s)
def execLanyardCallRx (port : PortIx) (h : LanHead) (words : List Word) (s : State) : Out := .next (lanFrame port h 2 (lanCall h words) s)
def execLanyardReplyRx (port : PortIx) (h : LanHead) (free : Nat) (words : List Word) (s : State) : Out :=
  .next (lanFrame port h 3 (lanReply h free words) s)
def execLanyardRegQueryRx (port : PortIx) (h : LanHead) (_sp : SpanIx) (_pier : PierIx) (serial : BitVec 64) (s : State) : Out :=
  .next (lanFrame port h 4 (regQuery h serial) s)
def execLanyardRegAnswerRx (port : PortIx) (h : LanHead) (serial : BitVec 64) (entry : Option RegEntry) (s : State) : Out :=
  .next (lanFrame port h 5 (fun s => if h.src = 0 then regAnswer serial entry s else s) s)
def execLanyardUsageRx (port : PortIx) (h : LanHead) (lines : List UsageLine) (s : State) : Out :=
  .next (lanFrame port h 6 (fun s => if lanRole s = 2 then usageIn h.src lines s else s) s)
def execLanyardBudgetRx (port : PortIx) (h : LanHead) (lines : List (SliceIx × PortIx × Nat)) (s : State) : Out :=
  .next (lanFrame port h 7 (fun s => if lanRole s = 1 && h.src = 0 then forEach lines (fun l s => budgetIn l.1 l.2.1 l.2.2 s) s else s) s)
def execLanyardManagerTimeout (peer : Nat) (s : State) : Out := .next (lanTimeout peer s)
def execLanyardApportion (s : State) : Out := .next (lanApportion s)

def lanyardStatusSpec : CallSpec := { code := 0x0E21, who := .slice0, extra := [17, 18], lens := [0], used := [] }
def execLanyardStatus (c : Call) (s : State) : Out := serveRead lanyardStatusSpec c s fun s => .ok (lanyardStatus s)

def lanyardRegReadSpec : CallSpec := { code := 0x0E24, who := .slice0, extra := [17], lens := [2], used := [0xFFFFFFFF, 0xFFFFFFFF] }
def execLanyardRegRead (c : Call) (s : State) : Out := serveRead lanyardRegReadSpec c s (lanyardRegRead c.words)

end Sys2Proof.Machine
end

