-- ==== Sys2Proof/Machine/PonCommands.lean ====
section
/-! DEFINITION. The commands of the Spans, Piers, ONUs, Trusses and PON keys that the line, the clock or a timer gives
(chapters 04, 05, 07, 08 and 12). -/

namespace Sys2Proof.Machine

/-! ### The Truss (R239, R245, R267, R276 to R298) -/

/-- MAP_CUTOFF: the commit of an only entry without a byte is undefined use (R267). -/
def execMapCutoff (sp : SpanIx) (s : State) : Out :=
  if (trussOf s sp).running && emptyEntry s sp then .fault (.undefinedUse "R267") else .next (mapCutoff sp s)

def execFinishEntry (sp : SpanIx) (s : State) : Out := .next (finishEntry sp s)
def execTrussInitEntry (sp : SpanIx) (s : State) : Out := .next (initEntry sp s)
def execCallLimitReached (sp : SpanIx) (s : State) : Out := .next (callLimit sp s)

/-- TRUSS_MICROWORD: a word the spec declares undefined use stops the model (R299). -/
def execTrussMicroword (sp : SpanIx) (words : Bool) (s : State) : Out :=
  match microStep sp words s with
  | .inl t => .next t
  | .inr r => .fault (.undefinedUse r)

/-! ### Opening and closing (R163, R164) -/

def execSpanOpenTxStart (sp : SpanIx) (s : State) : Out := .next (openTx sp s)

/-- SPAN_OPEN_GRANT_START: the frame routine starts with it where its apply point has passed. -/
def execSpanOpenGrantStart (sp : SpanIx) (s : State) : Out :=
  let was := (spanOf s sp).st
  let s := openGrant sp s
  .next (if was = .opening && (spanOf s sp).granting && s.ctl.lastApply = frameNo s then startRoutine sp (frameNo s) s else s)

def execSpanCloseStopGrants (sp : SpanIx) (s : State) : Out := .next (closeStop sp s)
def execSpanCloseDeactivate (sp : SpanIx) (s : State) : Out := .next (closeDeactivate sp s)
def execSpanCloseTxStop (sp : SpanIx) (s : State) : Out := .next (closeEnd sp s)

/-! ### Burst reception (R143 to R157) -/

def execSpliceLoad (sp : SpanIx) (onu : OnuIx) (s : State) : Out := .next (spliceLoad sp onu s)
def execSearchWindowStart (sp : SpanIx) (pier : PierIx) (s : State) : Out := .next (searchStart sp pier s)
def execDelimiterMatch (sp : SpanIx) (pier : PierIx) (burst : BurstHead) (s : State) : Out := .next (delimiterMatch sp pier burst s)
def execSearchWindowEnd (sp : SpanIx) (pier : PierIx) (s : State) : Out := .next (searchEnd sp pier s)
def execBurstLastBit (sp : SpanIx) (pier : PierIx) (adapted : Adapted) (s : State) : Out := .next (burstLast sp pier adapted s)
def execFecCodewordDecoded (sp : SpanIx) (pier : PierIx) (bits : Nat) (corrected : Option Nat) (bip : Nat) (s : State) : Out :=
  .next (codewordDecoded sp pier bits corrected bip s)
def execDbruExtracted (sp : SpanIx) (pier : PierIx) (alloc : Fin 2048) (value : Nat) (crcOk : Bool) (s : State) : Out :=
  .next (dbru sp pier alloc value crcOk s)
def execPloamuExtracted (sp : SpanIx) (pier : PierIx) (msg check : List Byte) (s : State) : Out := .next (ploamUp sp pier (msg ++ check) s)
def execUpstreamXgemFrame (sp : SpanIx) (pier : PierIx) (onu : OnuIx) (frame : GemUp) (s : State) : Out := .next (upFrame sp pier onu frame s)
def execSpliceAgeExpiry (sp : SpanIx) (onu : OnuIx) (s : State) : Out := .next (judgeSplice sp onu s)
def execSdWindowEnd (sp : SpanIx) (onu : OnuIx) (s : State) : Out := .next (sdEnd sp onu s)
def execSfWindowEnd (sp : SpanIx) (onu : OnuIx) (s : State) : Out := .next (sfEnd sp onu s)
def execLobDeactTimeout (sp : SpanIx) (onu : OnuIx) (s : State) : Out := .next (lobDeact sp onu s)
def execDgiClearTimeout (sp : SpanIx) (onu : OnuIx) (s : State) : Out := .next (setDefect sp onu 5 false true s)
def execPloamReplyTimeout (sp : SpanIx) (onu : OnuIx) (s : State) : Out := .next (ploamTimeout sp onu s)
def execPierTxLockLoss (lane : LaneIx) (s : State) : Out := .next (hawserLines (txLockLoss lane s))
def execTxLockHeld (lane : LaneIx) (s : State) : Out := .next (hawserLines (txLockHeld lane s))

/-! ### Activation and ranging (R170 to R206) -/

def execArrivalMeasured (sp : SpanIx) (onu : OnuIx) (k64 : Nat) (s : State) : Out := .next (arrival sp onu k64 s)
def execEqdConfirmTimeout (sp : SpanIx) (onu : OnuIx) (s : State) : Out := .next (corrTimeout sp onu s)
def execSnReceived (sp : SpanIx) (pier : PierIx) (serial : BitVec 64) (burst : SnBurst) (s : State) : Out := .next (snReceived sp pier burst.rate burst.k64 serial s)
def execRangingBurstAccepted (sp : SpanIx) (onu : OnuIx) (k64 : Nat) (s : State) : Out := .next (ranged sp onu k64 s)
def execRegistrationReceived (sp : SpanIx) (onu : OnuIx) (reg : List Byte) (s : State) : Out := .next (registration sp onu reg s)
def execRegRequestTimeout (sp : SpanIx) (onu : OnuIx) (s : State) : Out := .next (regTimeout sp onu s)
def execDeactivatingEnd (sp : SpanIx) (onu : OnuIx) (s : State) : Out := .next (deactivated sp onu s)

/-- DISCOVERY_PERIOD (R178): the next prologue decides a discovery window on every enabled Pier. -/
def execDiscoveryPeriod (sp : SpanIx) (s : State) : Out :=
  let v := spanOf s sp
  .next (if v.st = .opened && !v.standby && v.discPeriod ≠ 0 then setSpan sp { v with discDue := true } s else s)

def execDiscEntryExpiry (sp : SpanIx) (entry : Fin 64) (s : State) : Out := .next (discExpiry sp entry s)
def execRegAnswerTimeout (sp : SpanIx) (serial : BitVec 64) (s : State) : Out := .next (regAnswerTimeout sp serial s)
def execRogueHalvingWaitEnd (sp : SpanIx) (pier : PierIx) (_lit : Bool) (s : State) : Out := .next (rogueWaitEnd sp pier s)

/-! ### PON keys (R395 to R402, R418) -/

/-- Whether this device runs a Span's key exchanges: not as its standby. -/
def keysHere (sp : Nat) (f : State → State) (s : State) : Out := .next (if (spanOf s sp).standby then s else f s)

/-- Whether an ONU of a kind of Pier has an exchange outstanding. -/
def exchanging (s : State) (sp o : Nat) (gPier : Bool) : Bool :=
  (onuKeys s sp o).exchange && (onuOf s sp o).st = .active && ((onuOf s sp o).pier = 2) = gPier

/-- A fragment of the key that comes joins the others; `last` says that it is the last one (R395, R396). -/
def takeFrag (sp o frag : Nat) (last : Bool) (bytes : List Byte) (s : State) : State :=
  modOnuKeys sp o (fun k => { k with frags := kset k.frags frag bytes, lastFrag := if last then some frag else k.lastFrag }) s

/-- The bytes of a key whose fragments, from the first to the last, are all there. -/
def OnuKeys.assembled (k : OnuKeys) : Option (List Byte) :=
  k.lastFrag.bind fun n => if (List.range (n + 1)).all fun i => (kget k.frags i).isSome then some ((List.range (n + 1)).flatMap fun i => kgetD k.frags i []) else none

/-- KEY_REPORT_RECEIVED on an H-pier or X-pier: the key comes in one or more messages; the whole of it is unwrapped under the ONU's KEK
and loaded (R395). -/
def execKeyReportReceived (sp : SpanIx) (onu : OnuIx) (frag : KeyFrag) (s : State) : Out :=
  keysHere sp (fun s =>
    let s := replied sp onu s
    if exchanging s sp onu false && frag.keyIx = claimIx (onuKeys s sp onu) then
      let s := takeFrag sp onu frag.frag frag.last frag.bytes s
      let k := onuKeys s sp onu
      match k.assembled.bind (unwrapKey (if k.msk.isSome then k.kek else Config.defaultKek)) with
      | some key => loadKey sp onu key s
      | none => s
    else s) s

/-- ENCRYPTION_KEY_RECEIVED on the G-pier: fragments are assembled until the key's 16 bytes are there (R396). -/
def execEncryptionKeyReceived (sp : SpanIx) (onu : OnuIx) (keyIx frag : Nat) (bytes : List Byte) (s : State) : Out :=
  keysHere sp (fun s =>
    let s := replied sp onu s
    if exchanging s sp onu true && keyIx = claimIx (onuKeys s sp onu) then
      let s := takeFrag sp onu frag false bytes s
      let all := (onuKeys s sp onu).frags.flatMap (·.2)
      if 16 ≤ all.length then loadKey sp onu (leNat (all.take 16)) s else s
    else s) s

def execKeyExchangeTimeout (sp : SpanIx) (onu : OnuIx) (s : State) : Out := keysHere sp (exchangeTimeout sp onu) s
def execKeySwitchFrame (sp : SpanIx) (pier : PierIx) (s : State) : Out := keysHere sp (keySwitchFrame sp pier) s
def execKeyMarginReached (sp : SpanIx) (onu : OnuIx) (s : State) : Out := keysHere sp (keyMargin sp onu) s
def execKeyExpired (sp : SpanIx) (onu : OnuIx) (s : State) : Out := keysHere sp (keyExpired sp onu) s
def execKeyRetireEnd (sp : SpanIx) (onu : OnuIx) (s : State) : Out := .next (keyRetired sp onu s)

/-- KEY_MIRROR_ACK_TIMEOUT (R418): the switch frame is fixed anyway. -/
def execKeyMirrorAckTimeout (sp : SpanIx) (onu : OnuIx) (s : State) : Out :=
  .next (if (onuKeys s sp onu).waits.isSome then fixSwitch sp onu s else s)

end Sys2Proof.Machine
end

