-- ==== Sys2Proof/Machine/PowerCommands.lean ====
section
/-! DEFINITION. The commands of power, voltage and temperature (R121 to R133). -/

namespace Sys2Proof.Machine

def execPowerSwitchOnTurn (s : State) : Out := .next (switchOnTurn s)
def execAvsPreRampWaitEnd (s : State) : Out := .next (rampStart s)
def execRampEnd (s : State) : Out := .next (rampEnd s)
def execDrainEnd (d : DomIx) (s : State) : Out := .next (drainEnd d s)
def execAvsControlTick (s : State) : Out := .next (avsTick s)
def execPaceWindowEnd (steps : List (DomIx × Nat)) (s : State) : Out := .next (paceWindow (steps.map fun e => (e.1.val, e.2)) s)
def execPaceAlarm (d : DomIx) (s : State) : Out := .next (paceAlarm d s)
def execPaceShedTimeout (s : State) : Out := .next (paceShedTimeout s)
def execThermalWarn (tj : Int) (s : State) : Out := .next (thermalWarn tj s)
def execThermalHotTimeout (tj : Int) (s : State) : Out := .next (thermalHot tj s)
def execThermalTrip (tj : Int) (s : State) : Out := .next (thermalTrip tj s)
def execThermalClear (tj : Int) (s : State) : Out := .next (thermalClear tj s)
def execPmbAlert (status : BitVec 16) (s : State) : Out := .next (pmbAlert status.toNat s)

/-- `PWR_DOMAIN_SET`: two rows of the table, one layout; its bit 8 chooses. -/
def pwrDomainSetSpec : CallSpec := { code := 0x0130, who := .slice0, extra := [18], lens := [1], used := [0x17F] }
def execPwrDomainSetOn (c : Call) (s : State) : Out := serve pwrDomainSetSpec c s (powerSet 0x0130 c)
def execPwrDomainSetOff (c : Call) (s : State) : Out := serve pwrDomainSetSpec c s (powerSet 0x0130 c)

def pwrDomainGetSpec : CallSpec := { code := 0x0131, who := .slice0, extra := [18], lens := [1], used := [0x7F] }
def execPwrDomainGet (c : Call) (s : State) : Out := serveRead pwrDomainGetSpec c s (powerGet c.words)

def thermalReadSpec : CallSpec := { code := 0x0142, who := .session, extra := [18], intro := 0x0200, lens := [0], used := [] }
def execThermalRead (c : Call) (s : State) : Out := serveAct thermalReadSpec c s fun s => .ok (thermalRead s)

end Sys2Proof.Machine
end

