-- ==== Sys2Proof/Machine/QueueCommands.lean ====
section
/-! DEFINITION. The commands of the queues, schedulers and rings: the calls of families 0x08 and 0x09 that are not transactional,
and what the queue managers, schedulers and rings do on their own. -/

namespace Sys2Proof.Machine

/-! ### Rings -/

def execRingEnable (fn : Fn) (r : Fin 4) (w : Word) (s : State) : Out := writeReg fn 0xFF00FEFC w s (ringEnable fn r w s)
def execRingDisable (fn : Fn) (r : Fin 4) (w : Word) (s : State) : Out := writeReg fn 0xFF00FEFC w s (ringDisable fn r w s)
def execRingStopComplete (fn : Fn) (r : Fin 4) (s : State) : Out := .next (ringStopped fn r s)
def execRingIrqTimeout (fn : Fn) (r : Fin 4) (s : State) : Out := .next (ringTimeout fn r s)
def execRingPcieFault (fn : Fn) (r : Fin 4) (s : State) : Out := .next (ringFault fn r s)
def execOmciTxDescriptor (fn : Fn) (desc : List Word) (buf : List Byte) (s : State) : Out := .next (omciTx fn desc buf s)
def execPuntTxDescriptor (fn : Fn) (desc : List Word) (buf : List Byte) (s : State) : Out := .next (puntTx fn desc buf s)

/-- A write of RING_PROD on a host-to-device ring; RO on rings 1 and 2 (R92). -/
def execRingProdWrite (fn : Fn) (r : Fin 4) (w : Word) (s : State) : Out :=
  writeReg fn 0xFFFF0000 w s (if r = 0 || r = 3 then setRing fn r { ringOf s fn r with prod := fld w 15 0 % (ringOf s fn r).size } s else s)

/-- A write of RING_STATUS: its three flags are cleared by writing 1 (R92). -/
def execRingStatusClear (fn : Fn) (r : Fin 4) (w : Word) (s : State) : Out :=
  let x := ringOf s fn r
  writeReg fn 0xFFF8 w s (setRing fn r { x with trunc := x.trunc && !bit w 2, ownerDrop := x.ownerDrop && !bit w 1, faulted := x.faulted && !bit w 0 } s)

/-! ### Queue managers -/

/-- The i-th staged frame's last byte has arrived; the path of its queue enters the wheel where it has to. -/
def execQueueAdmission (i : Nat) (s : State) : Out :=
  .next (match s.fwd.staged[i]? with | some f => repark f.queue (queueAdmission i s) | none => s)

def execSpillWriteComplete (q : QueueIx) (s : State) : Out := .next (spillWritten q s)
def execDeepFetchComplete (q : QueueIx) (bad headerLost : Bool) (s : State) : Out := .next (deepFetched q bad headerLost s)
def execDescriptorFetchComplete (q : QueueIx) (s : State) : Out :=
  .next (if s.fwd.descWait.contains q.val && (cacheDesc q s).isSome then repark q (descArrived q s) else s)
def execQueueDeleteDrain (q : QueueIx) (s : State) : Out := .next (drainStep q s)
def execPacketTxComplete (i : Nat) (s : State) : Out := .next (sendComplete i s)

/-! ### Schedulers -/

def execShaperRefill (node : NodeRef) (s : State) : Out := .next (shaperRefill node s)
def execPolicerRefill (port : Fin 262144) (s : State) : Out := .next (policerRefill port s)
def execWheelFineRelease (node : NodeRef) (committed : Bool) (s : State) : Out := .next (wheelRelease node committed s)
def execWheelCoarseMigrate (g : Fin 4) (s : State) : Out := .next (wheelMigrate g s)
def execPierSchedSelect (sp : SpanIx) (pier : PierIx) (s : State) : Out := .next (pierSelect sp pier s)
def execUplinkSchedSelect (port : PortIx) (s : State) : Out := .next (uplinkSelect port s)

/-- The open classes of a Pier change: its scheduler selects again (R368, R379). -/
def execGateEntryChange (sp : SpanIx) (pier : PierIx) (s : State) : Out := .next (pierSelect sp pier s)
def execGateCycleEnd (sp : SpanIx) (pier : PierIx) (s : State) : Out := .next (gateCycleEnd sp pier s)

/-! ### Calls of families 0x08 and 0x09 -/

def hankPartitionSpec : CallSpec := { code := 0x0801, who := .slice0, lens := [1], used := [0x1F001F] }
def execHankPartitionSet (c : Call) (s : State) : Out :=
  serve hankPartitionSpec c s fun s => let r := hankPartition c.words s; respond 0x0801 c r.2 [] r.1

def hankStatusSpec : CallSpec := { code := 0x0802, who := .slice0, lens := [1], used := [3] }
def execHankStatus (c : Call) (s : State) : Out := serveRead hankStatusSpec c s fun s => .ok (hankStatus c.words s)

def sliceHankReadSpec : CallSpec := { code := 0x0804, who := .bound, lens := [1], used := [0xF0003] }
def execSliceHankRead (c : Call) (s : State) : Out := serveRead sliceHankReadSpec c s (sliceHankRead c.chan c.words)

def queueReadSpec : CallSpec := { code := 0x0816, who := .bound, lens := [1], used := [0xFFFFF] }
def execQueueRead (c : Call) (s : State) : Out := serveRead queueReadSpec c s (queueRead c.chan c.words)

def viaductStatusSpec : CallSpec := { code := 0x0821, who := .slice0, intro := 0x0300, lens := [0], used := [] }
def execViaductStatus (c : Call) (s : State) : Out := serveRead viaductStatusSpec c s fun s => .ok (viaductStatus s)

def schedNodeReadSpec : CallSpec := { code := 0x0902, who := .bound, lens := [1], used := [0x030FFFFF] }
def execSchedNodeRead (c : Call) (s : State) : Out := serveAct schedNodeReadSpec c s (schedNodeRead c.chan c.words)

def policerReadSpec : CallSpec := { code := 0x0911, who := .bound, lens := [1], used := [0x1FFF001F] }
def execPolicerRead (c : Call) (s : State) : Out := serveRead policerReadSpec c s (policerRead c.chan c.words)

def gateListReadSpec : CallSpec := { code := 0x0921, who := .slice0, intro := 0x0201, lens := [3], used := [0x1F03, 0xFFFFFFFF, 0xFFFFFFFF] }
def execGateListRead (c : Call) (s : State) : Out := serveAct gateListReadSpec c s (gateListRead c.chan c.words)

def uplinkBudgetReadSpec : CallSpec := { code := 0x0932, who := .bound, intro := 0x0300, lens := [1], used := [0xF001F] }
def execUplinkBudgetRead (c : Call) (s : State) : Out := serveRead uplinkBudgetReadSpec c s (uplinkBudgetRead c.chan c.words)

end Sys2Proof.Machine
end

