-- ==== Sys2Proof/Machine/SpanCommands.lean ====
section
/-! DEFINITION. The calls of families 0x02, 0x03, 0x05 and 0x06 that pass no transaction. -/

namespace Sys2Proof.Machine

def spanOpenSpec : CallSpec := { code := 0x0201, who := .slice0, lens := [1], used := [0x1F] }
def execSpanOpen (c : Call) (s : State) : Out := serve spanOpenSpec c s (spanOpen 0x0201 c)

def spanCloseSpec : CallSpec := { code := 0x0202, who := .slice0, lens := [1], used := [0x1F] }
def execSpanClose (c : Call) (s : State) : Out := serve spanCloseSpec c s (spanClose 0x0202 c)

def spanStatusSpec : CallSpec := { code := 0x0203, who := .bound, lens := [1], used := [0x1F] }
def execSpanStatus (c : Call) (s : State) : Out := serveRead spanStatusSpec c s fun s => .ok (spanStatus c.words s)

def onuDefectReadSpec : CallSpec := { code := 0x0220, who := .bound, lens := [1], used := [0x1FF001F] }
def execOnuDefectRead (c : Call) (s : State) : Out := serveRead onuDefectReadSpec c s (onuDefectRead c.chan c.words)

def spliceReadSpec : CallSpec := { code := 0x0223, who := .slice0, intro := 0x0300, lens := [1], used := [0x1FF1F03] }
def execSpliceRead (c : Call) (s : State) : Out := serveRead spliceReadSpec c s (spliceRead c.words)

def onuStateReadSpec : CallSpec := { code := 0x0303, who := .bound, lens := [1], used := [0x1FF001F] }
def execOnuStateRead (c : Call) (s : State) : Out := serveRead onuStateReadSpec c s (onuStateRead c.chan c.words)

def discListReadSpec : CallSpec := { code := 0x0306, who := .bound, lens := [1], used := [0x3F1F] }
def execDiscListRead (c : Call) (s : State) : Out := serveRead discListReadSpec c s fun s => .ok (discListRead c.chan c.words s)

def reachReadSpec : CallSpec := { code := 0x0313, who := .slice0, intro := 0x0300, lens := [1], used := [0x1F] }
def execReachRead (c : Call) (s : State) : Out := serveRead reachReadSpec c s fun s => .ok (reachRead c.words s)

def onuRangeReadSpec : CallSpec := { code := 0x0315, who := .bound, lens := [1], used := [0x1FF001F] }
def execOnuRangeRead (c : Call) (s : State) : Out := serveRead onuRangeReadSpec c s (onuRangeRead c.chan c.words)

def stbyDeltaReadSpec : CallSpec := { code := 0x0321, who := .slice0, intro := 0x0300, lens := [1], used := [0x1F03] }
def execStbyDeltaRead (c : Call) (s : State) : Out := serveRead stbyDeltaReadSpec c s (stbyDeltaRead c.words)

def allocReadSpec : CallSpec := { code := 0x0503, who := .bound, lens := [1], used := [0x7FF001F] }
def execAllocRead (c : Call) (s : State) : Out := serveRead allocReadSpec c s (allocRead c.chan c.words)

def sliceBudgetReadSpec : CallSpec := { code := 0x0511, who := .bound, lens := [1], used := [0xF001F] }
def execSliceBudgetRead (c : Call) (s : State) : Out := serveRead sliceBudgetReadSpec c s (sliceBudgetRead c.chan c.words)

def trussStatusSpec : CallSpec := { code := 0x0521, who := .slice0, intro := 0x0300, lens := [1], used := [0x1F] }
def execTrussStatus (c : Call) (s : State) : Out := serveRead trussStatusSpec c s fun s => .ok (trussStatus c.words s)

def openLoadSpec : CallSpec := { code := 0x0601, who := .slice0, intro := 0x0201, lens := [3], used := [0xFFFFFFFF, 0xFFFFFFFF, 0xFFFF] }
def execOpenLoad (c : Call) (s : State) : Out :=
  serve openLoadSpec c s fun s => let (t, st, ws) := openLoad c.chan c.words s; respond 0x0601 c st ws t

def openStatusSpec : CallSpec := { code := 0x0604, who := .slice0, intro := 0x0201, lens := [0], used := [] }
def execOpenStatus (c : Call) (s : State) : Out := serveRead openStatusSpec c s fun s => .ok (openStatus s)

def openStatsSpec : CallSpec := { code := 0x0605, who := .bound, intro := 0x0300, lens := [1], used := [0xF001F] }
def execOpenStats (c : Call) (s : State) : Out := serveRead openStatsSpec c s (openStats c.chan c.words)

end Sys2Proof.Machine
end

