-- ==== Sys2Proof/Machine/TdmCommands.lean ====
section
/-! DEFINITION. The commands of the SDH and circuit emulation block, and the calls of family 0x0D that pass no transaction. -/

namespace Sys2Proof.Machine

def execStm16FrameRx (lane : Fin 2) (frame : StmFrame) (s : State) : Out := .next (freqWatch (stmFrame lane frame s))
def execLofTimer (lane : Fin 2) (s : State) : Out := .next (freqWatch (lofTimer lane s))
def execB2WindowEnd (lane : Fin 2) (sd : Bool) (s : State) : Out := .next (b2Window lane sd s)
def execV5WindowEnd (lane : Fin 2) (pos : Fin 1008) (sd : Bool) (s : State) : Out := .next (v5Window lane pos sd s)
def execMspHoldOffEnd (lane : Fin 2) (s : State) : Out := .next (mspHoldOffEnd lane s)
def execMspSelectorEvaluate (s : State) : Out := .next (mspEvaluate s)
def execMspWtrEnd (s : State) : Out := .next (mspWtrEnd s)
def execMspBridgeMismatchTimeout (s : State) : Out := .next (mspMismatch s)
def execTsiSwap (s : State) : Out := .next (tsiSwap s)
/-- CE_PAYLOAD_DEMAPPED: the packet enters the distributor as a frame received on port 22 (R494). -/
def execCePayloadDemapped (circuit : Fin 1008) (e1 : E1Run) (found : Bool) (s : State) : Out :=
  match cePacketOut circuit e1.bytes found e1.first s with
  | some (t, pkt) => orUndefined (distribute 22 false none pkt t)
  | none => .next s

def execCePacketRx (packet : List Byte) (s : State) : Out := .next (cePacketIn packet s)
def execCePlayoutSlot (circuit : Fin 1008) (s : State) : Out := .next (cePlayout circuit s)

def sdhStatusSpec : CallSpec := { code := 0x0D02, who := .slice0, extra := [18], lens := [1], used := [0x300103FF] }
def execSdhStatus (c : Call) (s : State) : Out := serveRead sdhStatusSpec c s (sdhStatus c.words)

def sdhTraceReadSpec : CallSpec := { code := 0x0D04, who := .slice0, lens := [3], used := [0x300103FF, 0xFFFFFFFF, 0xFFFFFFFF] }
def execSdhTraceRead (c : Call) (s : State) : Out := serveAct sdhTraceReadSpec c s (sdhTraceRead c.chan c.words)

def mspCommandSpec : CallSpec := { code := 0x0D11, who := .slice0, lens := [1], used := [3] }
def execMspCommandClear (c : Call) (s : State) : Out := serveAct mspCommandSpec c s (mspCommandCall c.words)
def execMspCommandLockout (c : Call) (s : State) : Out := serveAct mspCommandSpec c s (mspCommandCall c.words)
def execMspCommandForced (c : Call) (s : State) : Out := serveAct mspCommandSpec c s (mspCommandCall c.words)
def execMspCommandManual (c : Call) (s : State) : Out := serveAct mspCommandSpec c s (mspCommandCall c.words)

def mspStatusSpec : CallSpec := { code := 0x0D12, who := .slice0, extra := [18], lens := [0], used := [] }
def execMspStatus (c : Call) (s : State) : Out := serveRead mspStatusSpec c s fun s => .ok (mspStatus s)

def tsiReadSpec : CallSpec := { code := 0x0D21, who := .slice0, lens := [1], used := [0x3FF] }
def execTsiRead (c : Call) (s : State) : Out := serveRead tsiReadSpec c s (tsiRead c.words)

def ceCircuitReadSpec : CallSpec := { code := 0x0D31, who := .slice0, lens := [1], used := [0x3FF] }
def execCeCircuitRead (c : Call) (s : State) : Out := serveRead ceCircuitReadSpec c s (ceCircuitRead c.words)

end Sys2Proof.Machine
end

