-- ==== Sys2Proof/Machine/TimeCommands.lean ====
section
/-! DEFINITION. The commands of the timebase, its sources and pins, and the calls of family 0x04 that pass no transaction. -/

namespace Sys2Proof.Machine

def execTbSnapTake (fn : Fn) (s : State) : Out := .next (if hostSees s fn then snapTake fn s else s)

def execSlewComplete (s : State) : Out := .next (slewComplete s)
def execPpsInEdge (phase : Fin 64) (s : State) : Out := .next (ppsEdge phase s)
def execFreqSourceLost (s : State) : Out := .next (freqLostNow s)
def execPhaseSourceLost (s : State) : Out := .next (phaseLostNow s)
def execReferenceSourceReturn (phase : Bool) (s : State) : Out := .next (sourceReturn phase s)
def execFrequencyLoopSettled (s : State) : Out := .next (freqSettled s)
def execTimeEvtInputEdge (pin : Fin 4) (phase : Fin 64) (rising : Bool) (s : State) : Out := .next (pinEdge pin phase rising s)
def execTimePpsOutPulse (s : State) : Out := .next (ppsOut s)
def execKeystonePinFire (entry : Fin 2048) (s : State) : Out := .next (keyPin entry s)

def timeStatusSpec : CallSpec := { code := 0x0402, who := .bound, extra := [18], lens := [0], used := [] }
def execTimeStatus (c : Call) (s : State) : Out := serveRead timeStatusSpec c s fun s => .ok (timeStatus s)

def timeFreqAdjustSpec : CallSpec := { code := 0x0403, who := .slice0, lens := [1], used := [0xFFFFFFFF] }
def execTimeFreqAdjust (c : Call) (s : State) : Out := serveAct timeFreqAdjustSpec c s (timeFreqAdjust c.words)

def timePhaseSlewSpec : CallSpec := { code := 0x0404, who := .slice0, lens := [1], used := [0xFFFFFFFF] }
def execTimePhaseSlew (c : Call) (s : State) : Out := serveAct timePhaseSlewSpec c s (timePhaseSlew c.words)

def timePhaseStepSpec : CallSpec := { code := 0x0405, who := .slice0, lens := [3], used := [0xFFFFFFFF, 0xFFFFFFFF, 0xFFFF] }
def execTimePhaseStep (c : Call) (s : State) : Out := serveAct timePhaseStepSpec c s (timePhaseStep c.words)

def timePhaseSampleSpec : CallSpec := { code := 0x0406, who := .slice0, intro := 0x0201, lens := [3], used := [0xFFFFFFFF, 0xFFFFFFFF, 0xFFFFFFFF] }
def execTimePhaseSample (c : Call) (s : State) : Out := serveAct timePhaseSampleSpec c s fun s => .ok (timePhaseSample c.words s, [])

def keystoneReadSpec : CallSpec := { code := 0x0411, who := .slice0, lens := [1], used := [0x7FF] }
def execKeystoneRead (c : Call) (s : State) : Out := serveRead keystoneReadSpec c s fun s => .ok (keystoneRead c.words s)

def todCalcSpec : CallSpec := { code := 0x0420, who := .bound, intro := 0x0300, lens := [2], used := [0x81FF1F03, 0xFFFFFFFF] }
def execTodCalc (c : Call) (s : State) : Out := serveRead todCalcSpec c s (todCalc c.chan c.words)

def timeEvtReadSpec : CallSpec := { code := 0x0431, who := .slice0, lens := [1], used := [3] }
def execTimeEvtRead (c : Call) (s : State) : Out := serveAct timeEvtReadSpec c s fun s => .ok (timeEvtRead c.words s)

def ptpTxtsReadSpec : CallSpec := { code := 0x0441, who := .slice0, lens := [2], used := [0xFF0F1F, 0xFFFF] }
def execPtpTxtsRead (c : Call) (s : State) : Out := serveAct ptpTxtsReadSpec c s (ptpTxtsRead c.words)

end Sys2Proof.Machine
end

