-- ==== Sys2Proof/Machine/TxnCommands.lean ====
section
/-! DEFINITION. The transactional calls: each is staged under its handle or runs as an implicit transaction (R58, R81 to R89). Two
rows of one call share its layout, whose bits choose between them. -/

namespace Sys2Proof.Machine

def execSliceCreate (c : Call) (s : State) : Out := txnServe sliceCreate c s
def execSliceDelete (c : Call) (s : State) : Out := txnServe sliceDelete c s
def execSliceBind (c : Call) (s : State) : Out := txnServe sliceBind c s
def execSliceUnbind (c : Call) (s : State) : Out := txnServe sliceBind c s
def execCleatAssign (c : Call) (s : State) : Out := txnServe cleatAssign c s
def execEvtRouteSet (c : Call) (s : State) : Out := txnServe evtRouteSet c s
def execAvsConfig (c : Call) (s : State) : Out := txnServe avsConfig c s
def execThermalConfig (c : Call) (s : State) : Out := txnServe thermalConfig c s
def execPierConfig (c : Call) (s : State) : Out := txnServe pierConfig c s
def execPierProfileSet (c : Call) (s : State) : Out := txnServe pierProfileSet c s
def execPierDefectConfig (c : Call) (s : State) : Out := txnServe pierDefectConfig c s
def execSpliceConfig (c : Call) (s : State) : Out := txnServe spliceConfig c s
def execSpliceClear (c : Call) (s : State) : Out := txnServe spliceClear c s
def execOnuExpectSet (c : Call) (s : State) : Out := txnServe onuExpectSet c s
def execOnuExpectDelete (c : Call) (s : State) : Out := txnServe onuExpectDelete c s
def execOnuAuthoriseAccept (c : Call) (s : State) : Out := txnServe onuAuthorise c s
def execOnuAuthoriseReject (c : Call) (s : State) : Out := txnServe onuAuthorise c s
def execOnuDeactivate (c : Call) (s : State) : Out := txnServe onuDeactivate c s
def execOnuDeactivateDisable (c : Call) (s : State) : Out := txnServe onuDeactivate c s
def execDiscoveryConfig (c : Call) (s : State) : Out := txnServe discoveryConfig c s
def execRangeCalSet (c : Call) (s : State) : Out := txnServe rangeCalSet c s
def execReachConfig (c : Call) (s : State) : Out := txnServe reachConfig c s
def execDriftConfig (c : Call) (s : State) : Out := txnServe driftConfig c s
def execStbyDeltaConfig (c : Call) (s : State) : Out := txnServe stbyDeltaConfig c s
def execTimeConfig (c : Call) (s : State) : Out := txnServe timeConfig c s
def execKeystoneSet (c : Call) (s : State) : Out := txnServe keystoneSet c s
def execAsymConfig (c : Call) (s : State) : Out := txnServe asymConfig c s
def execTimeEvtConfig (c : Call) (s : State) : Out := txnServe timeEvtConfig c s
def execPtpPortConfig (c : Call) (s : State) : Out := txnServe ptpPortConfig c s
def execAllocSet (c : Call) (s : State) : Out := txnServe allocSet c s
def execAllocDelete (c : Call) (s : State) : Out := txnServe allocDelete c s
def execSliceBudgetSet (c : Call) (s : State) : Out := txnServe sliceBudgetSet c s
def execTrussConfig (c : Call) (s : State) : Out := txnServe trussConfig c s
def execOpenActivate (c : Call) (s : State) : Out := txnServe openActivate c s
def execOpenActivateClear (c : Call) (s : State) : Out := txnServe openActivate c s
def execOpenBind (c : Call) (s : State) : Out := txnServe openBind c s
def execOpenUnbind (c : Call) (s : State) : Out := txnServe openBind c s
def execTrussMcConfig (c : Call) (s : State) : Out := txnServe trussMcConfig c s
def execSliceHankSet (c : Call) (s : State) : Out := txnServe sliceHankSet c s
def execSliceQueuesSet (c : Call) (s : State) : Out := txnServe sliceQueuesSet c s
def execQprofileSet (c : Call) (s : State) : Out := txnServe qprofileSet c s
def execQnodeSet (c : Call) (s : State) : Out := txnServe qnodeSet c s
def execQnodeDelete (c : Call) (s : State) : Out := txnServe qnodeDelete c s
def execQueueSet (c : Call) (s : State) : Out := txnServe queueSet c s
def execQueueDelete (c : Call) (s : State) : Out := txnServe queueDelete c s
def execViaductConfig (c : Call) (s : State) : Out := txnServe viaductConfig c s
def execSchedNodeSet (c : Call) (s : State) : Out := txnServe schedNodeSet c s
def execPolicerSet (c : Call) (s : State) : Out := txnServe policerSet c s
def execGateListSet (c : Call) (s : State) : Out := txnServe gateListSet c s
def execPierSchedConfig (c : Call) (s : State) : Out := txnServe pierSchedConfig c s
def execUplinkSchedConfig (c : Call) (s : State) : Out := txnServe uplinkSchedConfig c s
def execUplinkBudgetSet (c : Call) (s : State) : Out := txnServe uplinkBudgetSet c s
def execDistSet (c : Call) (s : State) : Out := txnServe distSet c s
def execDistPvidSet (c : Call) (s : State) : Out := txnServe distPvidSet c s
def execVlanSet (c : Call) (s : State) : Out := txnServe vlanSet c s
def execBdSet (c : Call) (s : State) : Out := txnServe bdSet c s
def execReplSet (c : Call) (s : State) : Out := txnServe replSet c s
def execPortSet (c : Call) (s : State) : Out := txnServe portSet c s
def execPortDelete (c : Call) (s : State) : Out := txnServe portDelete c s
def execFdbStaticSet (c : Call) (s : State) : Out := txnServe fdbStaticSet c s
def execFdbDelete (c : Call) (s : State) : Out := txnServe fdbDelete c s
def execDirectSet (c : Call) (s : State) : Out := txnServe directSet c s
def execRouteSet (c : Call) (s : State) : Out := txnServe routeSet c s
def execRouteDelete (c : Call) (s : State) : Out := txnServe routeDelete c s
def execFwdTableConfig (c : Call) (s : State) : Out := txnServe fwdTableConfig c s
def execFwdDscpSet (c : Call) (s : State) : Out := txnServe fwdDscpSet c s
def execTrapConfig (c : Call) (s : State) : Out := txnServe trapConfig c s
def execPonCipherConfig (c : Call) (s : State) : Out := txnServe ponCipherConfig c s
def execPonMskSet (c : Call) (s : State) : Out := txnServe ponMskSet c s
def execPonBcastKeySet (c : Call) (s : State) : Out := txnServe ponBcastKeySet c s
def execMacsecPortConfig (c : Call) (s : State) : Out := txnServe macsecPortConfig c s
def execMacsecSaSet (c : Call) (s : State) : Out := txnServe macsecSaSet c s
def execMacsecSaDelete (c : Call) (s : State) : Out := txnServe macsecSaSet c s
def execMacsecRxScSet (c : Call) (s : State) : Out := txnServe macsecRxScSet c s
def execMacsecRxScDelete (c : Call) (s : State) : Out := txnServe macsecRxScSet c s
def execMacsecSaPn (c : Call) (s : State) : Out := txnServe macsecSaPn c s
def execMacsecTxNextNow (c : Call) (s : State) : Out := txnServe macsecTxNext c s
def execMacsecTxNextStandby (c : Call) (s : State) : Out := txnServe macsecTxNext c s
def execPairKeyConfig (c : Call) (s : State) : Out := txnServe pairKeyConfig c s
def execLoopbConfig (c : Call) (s : State) : Out := txnServe loopbConfig c s
def execLoopSet (c : Call) (s : State) : Out := txnServe loopSet c s
def execSdhConfig (c : Call) (s : State) : Out := txnServe sdhConfig c s
def execSdhTraceSet (c : Call) (s : State) : Out := txnServe sdhTraceSet c s
def execMspConfig (c : Call) (s : State) : Out := txnServe mspConfig c s
def execTsiPageSet (c : Call) (s : State) : Out := txnServe tsiPageSet c s
def execCeCircuitSet (c : Call) (s : State) : Out := txnServe ceCircuitSet c s
def execPairConfig (c : Call) (s : State) : Out := txnServe pairConfig c s
def execPairHawserCal (c : Call) (s : State) : Out := txnServe pairHawserCal c s
def execLanyardConfig (c : Call) (s : State) : Out := txnServe lanyardConfig c s
def execLanyardRegSet (c : Call) (s : State) : Out := txnServe lanyardRegSet c s
def execLanyardRegDelete (c : Call) (s : State) : Out := txnServe lanyardRegDelete c s
def execShelfBudgetSet (c : Call) (s : State) : Out := txnServe shelfBudgetSet c s

end Sys2Proof.Machine
end

