-- ==== Sys2Proof/Machine/Dispatch.lean ====
section
/-! DEFINITION. One arm per command: a direct call of its meaning. -/

namespace Sys2Proof.Machine

/-- A command's effect on everything but the queue of waiting commands. -/
def exec (i : Instr) (s : State) : Host.Outcome State Fault Refusal :=
  match i with
  | .mbxInDataWrite ch w => Sys2Proof.Machine.execMbxInDataWrite ch w s
  | .mbxInAbort ch => Sys2Proof.Machine.execMbxInAbort ch s
  | .mbxInCollisionClear ch => Sys2Proof.Machine.execMbxInCollisionClear ch s
  | .mbxOutDataRead ch => Sys2Proof.Machine.execMbxOutDataRead ch s
  | .mbxOutCollisionClear ch => Sys2Proof.Machine.execMbxOutCollisionClear ch s
  | .mbxIrqCtrlWrite fn w => Sys2Proof.Machine.execMbxIrqCtrlWrite fn w s
  | .cleatRead ch n => Sys2Proof.Machine.execCleatRead ch n s
  | .cleatWrite ch n w => Sys2Proof.Machine.execCleatWrite ch n w s
  | .tbSnapTake fn => Sys2Proof.Machine.execTbSnapTake fn s
  | .evtPendRead fn g => Sys2Proof.Machine.execEvtPendRead fn g s
  | .evtPendClear fn g w => Sys2Proof.Machine.execEvtPendClear fn g w s
  | .evtMaskWrite fn g w => Sys2Proof.Machine.execEvtMaskWrite fn g w s
  | .ringEnable fn r w => Sys2Proof.Machine.execRingEnable fn r w s
  | .ringDisable fn r w => Sys2Proof.Machine.execRingDisable fn r w s
  | .ringStopComplete fn r => Sys2Proof.Machine.execRingStopComplete fn r s
  | .ringProdWrite fn r w => Sys2Proof.Machine.execRingProdWrite fn r w s
  | .omciTxDescriptor fn desc buf => Sys2Proof.Machine.execOmciTxDescriptor fn desc buf s
  | .puntTxDescriptor fn desc buf => Sys2Proof.Machine.execPuntTxDescriptor fn desc buf s
  | .ringStatusClear fn r w => Sys2Proof.Machine.execRingStatusClear fn r w s
  | .ringIrqTimeout fn r => Sys2Proof.Machine.execRingIrqTimeout fn r s
  | .ringPcieFault fn r => Sys2Proof.Machine.execRingPcieFault fn r s
  | .registerWrite ch offset w => Sys2Proof.Machine.execRegisterWrite ch offset w s
  | .badCallReceived code c => Sys2Proof.Machine.execBadCallReceived code c s
  | .markedMessageDiscard ch => Sys2Proof.Machine.execMarkedMessageDiscard ch s
  | .outboundBacklogMove ch => Sys2Proof.Machine.execOutboundBacklogMove ch s
  | .eventRateWindowEnd ch src => Sys2Proof.Machine.execEventRateWindowEnd ch src s
  | .sessionOpen c => Sys2Proof.Machine.execSessionOpen c s
  | .sessionClose c => Sys2Proof.Machine.execSessionClose c s
  | .sessionPing c => Sys2Proof.Machine.execSessionPing c s
  | .txnBegin c => Sys2Proof.Machine.execTxnBegin c s
  | .txnCommit c => Sys2Proof.Machine.execTxnCommit c s
  | .txnRollback c => Sys2Proof.Machine.execTxnRollback c s
  | .txnQuery c => Sys2Proof.Machine.execTxnQuery c s
  | .txnIdleTimeout handle => Sys2Proof.Machine.execTxnIdleTimeout handle s
  | .sliceCreate c => Sys2Proof.Machine.execSliceCreate c s
  | .sliceDelete c => Sys2Proof.Machine.execSliceDelete c s
  | .sliceBind c => Sys2Proof.Machine.execSliceBind c s
  | .sliceUnbind c => Sys2Proof.Machine.execSliceUnbind c s
  | .cleatAssign c => Sys2Proof.Machine.execCleatAssign c s
  | .evtRouteSet c => Sys2Proof.Machine.execEvtRouteSet c s
  | .evtRouteGet c => Sys2Proof.Machine.execEvtRouteGet c s
  | .evtDetail c => Sys2Proof.Machine.execEvtDetail c s
  | .cntSnapshotCopy c => Sys2Proof.Machine.execCntSnapshotCopy c s
  | .cntRead c => Sys2Proof.Machine.execCntRead c s
  | .devInfo c => Sys2Proof.Machine.execDevInfo c s
  | .devAttest c => Sys2Proof.Machine.execDevAttest c s
  | .devCertRead c => Sys2Proof.Machine.execDevCertRead c s
  | .devReportRead c => Sys2Proof.Machine.execDevReportRead c s
  | .devFlashWrite c => Sys2Proof.Machine.execDevFlashWrite c s
  | .devSlotSet c => Sys2Proof.Machine.execDevSlotSet c s
  | .devReset c => Sys2Proof.Machine.execDevReset c s
  | .devSvnAdvance c => Sys2Proof.Machine.execDevSvnAdvance c s
  | .ownerKeyFuse c => Sys2Proof.Machine.execOwnerKeyFuse c s
  | .pwrDomainSetOn c => Sys2Proof.Machine.execPwrDomainSetOn c s
  | .pwrDomainSetOff c => Sys2Proof.Machine.execPwrDomainSetOff c s
  | .pwrDomainGet c => Sys2Proof.Machine.execPwrDomainGet c s
  | .avsConfig c => Sys2Proof.Machine.execAvsConfig c s
  | .thermalConfig c => Sys2Proof.Machine.execThermalConfig c s
  | .thermalRead c => Sys2Proof.Machine.execThermalRead c s
  | .powerOnReset => Sys2Proof.Machine.execPowerOnReset s
  | .resetRelease role boot smb => Sys2Proof.Machine.execResetRelease role boot smb s
  | .bootRomCheckDone readError => Sys2Proof.Machine.execBootRomCheckDone readError s
  | .bootloaderCheckDone readError => Sys2Proof.Machine.execBootloaderCheckDone readError s
  | .saendReady => Sys2Proof.Machine.execSaendReady s
  | .deviceReset role boot smb => Sys2Proof.Machine.execDeviceReset role boot smb s
  | .pciePerst => Sys2Proof.Machine.execPciePerst s
  | .functionLevelReset fn => Sys2Proof.Machine.execFunctionLevelReset fn s
  | .vfDisable fn => Sys2Proof.Machine.execVfDisable fn s
  | .jtagTestReset => Sys2Proof.Machine.execJtagTestReset s
  | .saendWatchdogExpiry => Sys2Proof.Machine.execSaendWatchdogExpiry s
  | .saendRestartComplete => Sys2Proof.Machine.execSaendRestartComplete s
  | .powerSwitchOnTurn => Sys2Proof.Machine.execPowerSwitchOnTurn s
  | .avsPreRampWaitEnd => Sys2Proof.Machine.execAvsPreRampWaitEnd s
  | .rampEnd => Sys2Proof.Machine.execRampEnd s
  | .drainEnd d => Sys2Proof.Machine.execDrainEnd d s
  | .avsControlTick => Sys2Proof.Machine.execAvsControlTick s
  | .paceWindowEnd steps => Sys2Proof.Machine.execPaceWindowEnd steps s
  | .paceAlarm d => Sys2Proof.Machine.execPaceAlarm d s
  | .paceShedTimeout => Sys2Proof.Machine.execPaceShedTimeout s
  | .thermalWarn tj => Sys2Proof.Machine.execThermalWarn tj s
  | .thermalHotTimeout tj => Sys2Proof.Machine.execThermalHotTimeout tj s
  | .thermalTrip tj => Sys2Proof.Machine.execThermalTrip tj s
  | .thermalClear tj => Sys2Proof.Machine.execThermalClear tj s
  | .pmbAlert status => Sys2Proof.Machine.execPmbAlert status s
  | .applyPoint lines => Sys2Proof.Machine.execApplyPoint lines s
  | .mapCutoff sp => Sys2Proof.Machine.execMapCutoff sp s
  | .finishEntry sp => Sys2Proof.Machine.execFinishEntry sp s
  | .trussInitEntry sp => Sys2Proof.Machine.execTrussInitEntry sp s
  | .trussMicroword sp words => Sys2Proof.Machine.execTrussMicroword sp words s
  | .callLimitReached sp => Sys2Proof.Machine.execCallLimitReached sp s
  | .spanOpen c => Sys2Proof.Machine.execSpanOpen c s
  | .spanOpenTxStart sp => Sys2Proof.Machine.execSpanOpenTxStart sp s
  | .spanOpenGrantStart sp => Sys2Proof.Machine.execSpanOpenGrantStart sp s
  | .spanClose c => Sys2Proof.Machine.execSpanClose c s
  | .spanCloseStopGrants sp => Sys2Proof.Machine.execSpanCloseStopGrants sp s
  | .spanCloseDeactivate sp => Sys2Proof.Machine.execSpanCloseDeactivate sp s
  | .spanCloseTxStop sp => Sys2Proof.Machine.execSpanCloseTxStop sp s
  | .spanStatus c => Sys2Proof.Machine.execSpanStatus c s
  | .pierConfig c => Sys2Proof.Machine.execPierConfig c s
  | .pierProfileSet c => Sys2Proof.Machine.execPierProfileSet c s
  | .pierDefectConfig c => Sys2Proof.Machine.execPierDefectConfig c s
  | .onuDefectRead c => Sys2Proof.Machine.execOnuDefectRead c s
  | .spliceConfig c => Sys2Proof.Machine.execSpliceConfig c s
  | .spliceClear c => Sys2Proof.Machine.execSpliceClear c s
  | .spliceRead c => Sys2Proof.Machine.execSpliceRead c s
  | .spliceLoad sp onu => Sys2Proof.Machine.execSpliceLoad sp onu s
  | .delimiterMatch sp pier burst => Sys2Proof.Machine.execDelimiterMatch sp pier burst s
  | .searchWindowEnd sp pier => Sys2Proof.Machine.execSearchWindowEnd sp pier s
  | .burstLastBit sp pier adapted => Sys2Proof.Machine.execBurstLastBit sp pier adapted s
  | .fecCodewordDecoded sp pier bits corrected bip => Sys2Proof.Machine.execFecCodewordDecoded sp pier bits corrected bip s
  | .dbruExtracted sp pier alloc value crcOk => Sys2Proof.Machine.execDbruExtracted sp pier alloc value crcOk s
  | .ploamuExtracted sp pier msg check => Sys2Proof.Machine.execPloamuExtracted sp pier msg check s
  | .upstreamXgemFrame sp pier onu frame => Sys2Proof.Machine.execUpstreamXgemFrame sp pier onu frame s
  | .arrivalMeasured sp onu k64 => Sys2Proof.Machine.execArrivalMeasured sp onu k64 s
  | .eqdConfirmTimeout sp onu => Sys2Proof.Machine.execEqdConfirmTimeout sp onu s
  | .spliceAgeExpiry sp onu => Sys2Proof.Machine.execSpliceAgeExpiry sp onu s
  | .sdWindowEnd sp onu => Sys2Proof.Machine.execSdWindowEnd sp onu s
  | .sfWindowEnd sp onu => Sys2Proof.Machine.execSfWindowEnd sp onu s
  | .lobDeactTimeout sp onu => Sys2Proof.Machine.execLobDeactTimeout sp onu s
  | .dgiClearTimeout sp onu => Sys2Proof.Machine.execDgiClearTimeout sp onu s
  | .ploamReplyTimeout sp onu => Sys2Proof.Machine.execPloamReplyTimeout sp onu s
  | .pierTxLockLoss lane => Sys2Proof.Machine.execPierTxLockLoss lane s
  | .txLockHeld lane => Sys2Proof.Machine.execTxLockHeld lane s
  | .snReceived sp pier serial burst => Sys2Proof.Machine.execSnReceived sp pier serial burst s
  | .rangingBurstAccepted sp onu k64 => Sys2Proof.Machine.execRangingBurstAccepted sp onu k64 s
  | .registrationReceived sp onu reg => Sys2Proof.Machine.execRegistrationReceived sp onu reg s
  | .regRequestTimeout sp onu => Sys2Proof.Machine.execRegRequestTimeout sp onu s
  | .keyReportReceived sp onu frag => Sys2Proof.Machine.execKeyReportReceived sp onu frag s
  | .encryptionKeyReceived sp onu keyIx frag bytes => Sys2Proof.Machine.execEncryptionKeyReceived sp onu keyIx frag bytes s
  | .deactivatingEnd sp onu => Sys2Proof.Machine.execDeactivatingEnd sp onu s
  | .discoveryPeriod sp => Sys2Proof.Machine.execDiscoveryPeriod sp s
  | .discEntryExpiry sp entry => Sys2Proof.Machine.execDiscEntryExpiry sp entry s
  | .regAnswerTimeout sp serial => Sys2Proof.Machine.execRegAnswerTimeout sp serial s
  | .rogueHalvingWaitEnd sp pier lit => Sys2Proof.Machine.execRogueHalvingWaitEnd sp pier lit s
  | .onuExpectSet c => Sys2Proof.Machine.execOnuExpectSet c s
  | .onuExpectDelete c => Sys2Proof.Machine.execOnuExpectDelete c s
  | .onuStateRead c => Sys2Proof.Machine.execOnuStateRead c s
  | .onuAuthoriseAccept c => Sys2Proof.Machine.execOnuAuthoriseAccept c s
  | .onuAuthoriseReject c => Sys2Proof.Machine.execOnuAuthoriseReject c s
  | .onuDeactivate c => Sys2Proof.Machine.execOnuDeactivate c s
  | .onuDeactivateDisable c => Sys2Proof.Machine.execOnuDeactivateDisable c s
  | .discListRead c => Sys2Proof.Machine.execDiscListRead c s
  | .discoveryConfig c => Sys2Proof.Machine.execDiscoveryConfig c s
  | .rangeCalSet c => Sys2Proof.Machine.execRangeCalSet c s
  | .reachConfig c => Sys2Proof.Machine.execReachConfig c s
  | .reachRead c => Sys2Proof.Machine.execReachRead c s
  | .driftConfig c => Sys2Proof.Machine.execDriftConfig c s
  | .onuRangeRead c => Sys2Proof.Machine.execOnuRangeRead c s
  | .stbyDeltaConfig c => Sys2Proof.Machine.execStbyDeltaConfig c s
  | .stbyDeltaRead c => Sys2Proof.Machine.execStbyDeltaRead c s
  | .secondBoundary => Sys2Proof.Machine.execSecondBoundary s
  | .timeConfig c => Sys2Proof.Machine.execTimeConfig c s
  | .timeStatus c => Sys2Proof.Machine.execTimeStatus c s
  | .timeFreqAdjust c => Sys2Proof.Machine.execTimeFreqAdjust c s
  | .timePhaseSlew c => Sys2Proof.Machine.execTimePhaseSlew c s
  | .timePhaseStep c => Sys2Proof.Machine.execTimePhaseStep c s
  | .timePhaseSample c => Sys2Proof.Machine.execTimePhaseSample c s
  | .slewComplete => Sys2Proof.Machine.execSlewComplete s
  | .ppsInEdge phase => Sys2Proof.Machine.execPpsInEdge phase s
  | .freqSourceLost => Sys2Proof.Machine.execFreqSourceLost s
  | .phaseSourceLost => Sys2Proof.Machine.execPhaseSourceLost s
  | .referenceSourceReturn phase => Sys2Proof.Machine.execReferenceSourceReturn phase s
  | .timeEvtInputEdge pin phase rising => Sys2Proof.Machine.execTimeEvtInputEdge pin phase rising s
  | .timePpsOutPulse => Sys2Proof.Machine.execTimePpsOutPulse s
  | .keystonePinFire entry => Sys2Proof.Machine.execKeystonePinFire entry s
  | .keystoneConvFire entry => Sys2Proof.Machine.execKeystoneConvFire entry s
  | .keystoneLoopFire entry => Sys2Proof.Machine.execKeystoneLoopFire entry s
  | .keystoneSet c => Sys2Proof.Machine.execKeystoneSet c s
  | .keystoneRead c => Sys2Proof.Machine.execKeystoneRead c s
  | .todCalc c => Sys2Proof.Machine.execTodCalc c s
  | .asymConfig c => Sys2Proof.Machine.execAsymConfig c s
  | .timeEvtConfig c => Sys2Proof.Machine.execTimeEvtConfig c s
  | .timeEvtRead c => Sys2Proof.Machine.execTimeEvtRead c s
  | .ptpPortConfig c => Sys2Proof.Machine.execPtpPortConfig c s
  | .ptpTxtsRead c => Sys2Proof.Machine.execPtpTxtsRead c s
  | .allocSet c => Sys2Proof.Machine.execAllocSet c s
  | .allocDelete c => Sys2Proof.Machine.execAllocDelete c s
  | .allocRead c => Sys2Proof.Machine.execAllocRead c s
  | .sliceBudgetSet c => Sys2Proof.Machine.execSliceBudgetSet c s
  | .sliceBudgetRead c => Sys2Proof.Machine.execSliceBudgetRead c s
  | .trussConfig c => Sys2Proof.Machine.execTrussConfig c s
  | .trussStatus c => Sys2Proof.Machine.execTrussStatus c s
  | .openLoad c => Sys2Proof.Machine.execOpenLoad c s
  | .openActivate c => Sys2Proof.Machine.execOpenActivate c s
  | .openActivateClear c => Sys2Proof.Machine.execOpenActivateClear c s
  | .openBind c => Sys2Proof.Machine.execOpenBind c s
  | .openUnbind c => Sys2Proof.Machine.execOpenUnbind c s
  | .openStatus c => Sys2Proof.Machine.execOpenStatus c s
  | .openStats c => Sys2Proof.Machine.execOpenStats c s
  | .trussMcConfig c => Sys2Proof.Machine.execTrussMcConfig c s
  | .uplinkFrameRx port frame fcsOk slips => Sys2Proof.Machine.execUplinkFrameRx port frame fcsOk slips s
  | .esmcFrameToSaend port ql => Sys2Proof.Machine.execEsmcFrameToSaend port ql s
  | .upstreamPipeline p => Sys2Proof.Machine.execUpstreamPipeline p s
  | .queueAdmission n => Sys2Proof.Machine.execQueueAdmission n s
  | .xpFlushReceived p => Sys2Proof.Machine.execXpFlushReceived p s
  | .agingSweepStart p cls => Sys2Proof.Machine.execAgingSweepStart p cls s
  | .agingBucketVisit p cls => Sys2Proof.Machine.execAgingBucketVisit p cls s
  | .puntLimiterRefill p slice reason => Sys2Proof.Machine.execPuntLimiterRefill p slice reason s
  | .spillWriteComplete q => Sys2Proof.Machine.execSpillWriteComplete q s
  | .deepFetchComplete q bad headerLost => Sys2Proof.Machine.execDeepFetchComplete q bad headerLost s
  | .descriptorFetchComplete q => Sys2Proof.Machine.execDescriptorFetchComplete q s
  | .queueDeleteDrain q => Sys2Proof.Machine.execQueueDeleteDrain q s
  | .packetTxComplete n => Sys2Proof.Machine.execPacketTxComplete n s
  | .shaperRefill node => Sys2Proof.Machine.execShaperRefill node s
  | .policerRefill port => Sys2Proof.Machine.execPolicerRefill port s
  | .wheelFineRelease node committed => Sys2Proof.Machine.execWheelFineRelease node committed s
  | .wheelCoarseMigrate g => Sys2Proof.Machine.execWheelCoarseMigrate g s
  | .pierSchedSelect sp pier => Sys2Proof.Machine.execPierSchedSelect sp pier s
  | .uplinkSchedSelect port => Sys2Proof.Machine.execUplinkSchedSelect port s
  | .gateEntryChange sp pier => Sys2Proof.Machine.execGateEntryChange sp pier s
  | .gateCycleEnd sp pier => Sys2Proof.Machine.execGateCycleEnd sp pier s
  | .hankPartitionSet c => Sys2Proof.Machine.execHankPartitionSet c s
  | .hankStatus c => Sys2Proof.Machine.execHankStatus c s
  | .sliceHankSet c => Sys2Proof.Machine.execSliceHankSet c s
  | .sliceHankRead c => Sys2Proof.Machine.execSliceHankRead c s
  | .sliceQueuesSet c => Sys2Proof.Machine.execSliceQueuesSet c s
  | .qprofileSet c => Sys2Proof.Machine.execQprofileSet c s
  | .qnodeSet c => Sys2Proof.Machine.execQnodeSet c s
  | .qnodeDelete c => Sys2Proof.Machine.execQnodeDelete c s
  | .queueSet c => Sys2Proof.Machine.execQueueSet c s
  | .queueDelete c => Sys2Proof.Machine.execQueueDelete c s
  | .queueRead c => Sys2Proof.Machine.execQueueRead c s
  | .viaductConfig c => Sys2Proof.Machine.execViaductConfig c s
  | .viaductStatus c => Sys2Proof.Machine.execViaductStatus c s
  | .schedNodeSet c => Sys2Proof.Machine.execSchedNodeSet c s
  | .schedNodeRead c => Sys2Proof.Machine.execSchedNodeRead c s
  | .policerSet c => Sys2Proof.Machine.execPolicerSet c s
  | .policerRead c => Sys2Proof.Machine.execPolicerRead c s
  | .gateListSet c => Sys2Proof.Machine.execGateListSet c s
  | .gateListRead c => Sys2Proof.Machine.execGateListRead c s
  | .pierSchedConfig c => Sys2Proof.Machine.execPierSchedConfig c s
  | .uplinkSchedConfig c => Sys2Proof.Machine.execUplinkSchedConfig c s
  | .uplinkBudgetSet c => Sys2Proof.Machine.execUplinkBudgetSet c s
  | .uplinkBudgetRead c => Sys2Proof.Machine.execUplinkBudgetRead c s
  | .distSet c => Sys2Proof.Machine.execDistSet c s
  | .distRead c => Sys2Proof.Machine.execDistRead c s
  | .distPvidSet c => Sys2Proof.Machine.execDistPvidSet c s
  | .vlanSet c => Sys2Proof.Machine.execVlanSet c s
  | .bdSet c => Sys2Proof.Machine.execBdSet c s
  | .replSet c => Sys2Proof.Machine.execReplSet c s
  | .portSet c => Sys2Proof.Machine.execPortSet c s
  | .portDelete c => Sys2Proof.Machine.execPortDelete c s
  | .fdbStaticSet c => Sys2Proof.Machine.execFdbStaticSet c s
  | .fdbDelete c => Sys2Proof.Machine.execFdbDelete c s
  | .fdbRead c => Sys2Proof.Machine.execFdbRead c s
  | .fdbFlush c => Sys2Proof.Machine.execFdbFlush c s
  | .directSet c => Sys2Proof.Machine.execDirectSet c s
  | .routeSet c => Sys2Proof.Machine.execRouteSet c s
  | .routeDelete c => Sys2Proof.Machine.execRouteDelete c s
  | .routeRead c => Sys2Proof.Machine.execRouteRead c s
  | .fwdTableConfig c => Sys2Proof.Machine.execFwdTableConfig c s
  | .fwdStatus c => Sys2Proof.Machine.execFwdStatus c s
  | .fwdDscpSet c => Sys2Proof.Machine.execFwdDscpSet c s
  | .trapConfig c => Sys2Proof.Machine.execTrapConfig c s
  | .ponCipherConfig c => Sys2Proof.Machine.execPonCipherConfig c s
  | .ponMskSet c => Sys2Proof.Machine.execPonMskSet c s
  | .ponKeyRoll c => Sys2Proof.Machine.execPonKeyRoll c s
  | .ponKeyStatus c => Sys2Proof.Machine.execPonKeyStatus c s
  | .ponBcastKeySet c => Sys2Proof.Machine.execPonBcastKeySet c s
  | .keyExchangeTimeout sp onu => Sys2Proof.Machine.execKeyExchangeTimeout sp onu s
  | .keySwitchFrame sp pier => Sys2Proof.Machine.execKeySwitchFrame sp pier s
  | .keyMarginReached sp onu => Sys2Proof.Machine.execKeyMarginReached sp onu s
  | .keyExpired sp onu => Sys2Proof.Machine.execKeyExpired sp onu s
  | .keyRetireEnd sp onu => Sys2Proof.Machine.execKeyRetireEnd sp onu s
  | .keyMirrorAckTimeout sp onu => Sys2Proof.Machine.execKeyMirrorAckTimeout sp onu s
  | .macsecPortConfig c => Sys2Proof.Machine.execMacsecPortConfig c s
  | .macsecSaSet c => Sys2Proof.Machine.execMacsecSaSet c s
  | .macsecSaDelete c => Sys2Proof.Machine.execMacsecSaDelete c s
  | .macsecRxScSet c => Sys2Proof.Machine.execMacsecRxScSet c s
  | .macsecRxScDelete c => Sys2Proof.Machine.execMacsecRxScDelete c s
  | .macsecSaPn c => Sys2Proof.Machine.execMacsecSaPn c s
  | .macsecTxNextNow c => Sys2Proof.Machine.execMacsecTxNextNow c s
  | .macsecTxNextStandby c => Sys2Proof.Machine.execMacsecTxNextStandby c s
  | .macsecSaRead c => Sys2Proof.Machine.execMacsecSaRead c s
  | .xtsStatus c => Sys2Proof.Machine.execXtsStatus c s
  | .pairKeyConfig c => Sys2Proof.Machine.execPairKeyConfig c s
  | .pairKeyStatus c => Sys2Proof.Machine.execPairKeyStatus c s
  | .entropyStatus c => Sys2Proof.Machine.execEntropyStatus c s
  | .entropyHealthFail test => Sys2Proof.Machine.execEntropyHealthFail test s
  | .entropyRecovered => Sys2Proof.Machine.execEntropyRecovered s
  | .drbgReseed => Sys2Proof.Machine.execDrbgReseed s
  | .pairKeyRekeyTimer => Sys2Proof.Machine.execPairKeyRekeyTimer s
  | .pairKeyFlitRx stage bytes last => Sys2Proof.Machine.execPairKeyFlitRx stage bytes last s
  | .loopbConfig c => Sys2Proof.Machine.execLoopbConfig c s
  | .loopSet c => Sys2Proof.Machine.execLoopSet c s
  | .loopRead c => Sys2Proof.Machine.execLoopRead c s
  | .opticsStart c => Sys2Proof.Machine.execOpticsStart c s
  | .opticsStop c => Sys2Proof.Machine.execOpticsStop c s
  | .opticsStatus c => Sys2Proof.Machine.execOpticsStatus c s
  | .opticsFaultClear c => Sys2Proof.Machine.execOpticsFaultClear c s
  | .rssiRead c => Sys2Proof.Machine.execRssiRead c s
  | .convRead c => Sys2Proof.Machine.execConvRead c s
  | .loopConvTimeEnd bus loop => Sys2Proof.Machine.execLoopConvTimeEnd bus loop s
  | .rssiConvTimeEnd bus dev => Sys2Proof.Machine.execRssiConvTimeEnd bus dev s
  | .loopbFrameDone bus answer => Sys2Proof.Machine.execLoopbFrameDone bus answer s
  | .loopbAlert bus => Sys2Proof.Machine.execLoopbAlert bus s
  | .portModeSet c => Sys2Proof.Machine.execPortModeSet c s
  | .laneEnableOn c => Sys2Proof.Machine.execLaneEnableOn c s
  | .laneEnableOff c => Sys2Proof.Machine.execLaneEnableOff c s
  | .laneTxEqSet c => Sys2Proof.Machine.execLaneTxEqSet c s
  | .laneRxEqSet c => Sys2Proof.Machine.execLaneRxEqSet c s
  | .laneDetectConfig c => Sys2Proof.Machine.execLaneDetectConfig c s
  | .laneLoopbackSet c => Sys2Proof.Machine.execLaneLoopbackSet c s
  | .lanePrbs c => Sys2Proof.Machine.execLanePrbs c s
  | .laneStatus c => Sys2Proof.Machine.execLaneStatus c s
  | .hawserLaneStatus c => Sys2Proof.Machine.execHawserLaneStatus c s
  | .pcieStatus c => Sys2Proof.Machine.execPcieStatus c s
  | .laneStartingDone lane => Sys2Proof.Machine.execLaneStartingDone lane s
  | .laneStoppingDone lane => Sys2Proof.Machine.execLaneStoppingDone lane s
  | .laneLosDeclare lane => Sys2Proof.Machine.execLaneLosDeclare lane s
  | .laneLosClear lane => Sys2Proof.Machine.execLaneLosClear lane s
  | .laneRxLol lane => Sys2Proof.Machine.execLaneRxLol lane s
  | .laneRxLockHeld lane => Sys2Proof.Machine.execLaneRxLockHeld lane s
  | .laneTrainComplete lane pre post => Sys2Proof.Machine.execLaneTrainComplete lane pre post s
  | .laneTrainTimeout lane => Sys2Proof.Machine.execLaneTrainTimeout lane s
  | .laneTrainRetry lane => Sys2Proof.Machine.execLaneTrainRetry lane s
  | .hawserLockGained lane => Sys2Proof.Machine.execHawserLockGained lane s
  | .hawserLockLost lane => Sys2Proof.Machine.execHawserLockLost lane s
  | .hawserCodewordRx lane good seq lanes flits => Sys2Proof.Machine.execHawserCodewordRx lane good seq lanes flits s
  | .hawserNoCodewordTimeout => Sys2Proof.Machine.execHawserNoCodewordTimeout s
  | .hawserLinkUp => Sys2Proof.Machine.execHawserLinkUp s
  | .hawserMailboxFlitRx reply words free => Sys2Proof.Machine.execHawserMailboxFlitRx reply words free s
  | .hawserFreeFlitTimer => Sys2Proof.Machine.execHawserFreeFlitTimer s
  | .hawserTimebaseFlitTimer => Sys2Proof.Machine.execHawserTimebaseFlitTimer s
  | .hawserTimebaseFlitRx send echoSend echoRecv recv => Sys2Proof.Machine.execHawserTimebaseFlitRx send echoSend echoRecv recv s
  | .pcieLinkChange speed width => Sys2Proof.Machine.execPcieLinkChange speed width s
  | .pcieUncorrError status => Sys2Proof.Machine.execPcieUncorrError status s
  | .stm16FrameRx lane frame => Sys2Proof.Machine.execStm16FrameRx lane frame s
  | .lofTimer lane => Sys2Proof.Machine.execLofTimer lane s
  | .b2WindowEnd lane sd => Sys2Proof.Machine.execB2WindowEnd lane sd s
  | .v5WindowEnd lane pos sd => Sys2Proof.Machine.execV5WindowEnd lane pos sd s
  | .mspHoldOffEnd lane => Sys2Proof.Machine.execMspHoldOffEnd lane s
  | .mspSelectorEvaluate => Sys2Proof.Machine.execMspSelectorEvaluate s
  | .mspWtrEnd => Sys2Proof.Machine.execMspWtrEnd s
  | .mspBridgeMismatchTimeout => Sys2Proof.Machine.execMspBridgeMismatchTimeout s
  | .tsiSwap => Sys2Proof.Machine.execTsiSwap s
  | .cePayloadDemapped circuit e1 found => Sys2Proof.Machine.execCePayloadDemapped circuit e1 found s
  | .cePacketRx packet => Sys2Proof.Machine.execCePacketRx packet s
  | .cePlayoutSlot circuit => Sys2Proof.Machine.execCePlayoutSlot circuit s
  | .sdhConfig c => Sys2Proof.Machine.execSdhConfig c s
  | .sdhStatus c => Sys2Proof.Machine.execSdhStatus c s
  | .sdhTraceSet c => Sys2Proof.Machine.execSdhTraceSet c s
  | .sdhTraceRead c => Sys2Proof.Machine.execSdhTraceRead c s
  | .mspConfig c => Sys2Proof.Machine.execMspConfig c s
  | .mspCommandClear c => Sys2Proof.Machine.execMspCommandClear c s
  | .mspCommandLockout c => Sys2Proof.Machine.execMspCommandLockout c s
  | .mspCommandForced c => Sys2Proof.Machine.execMspCommandForced c s
  | .mspCommandManual c => Sys2Proof.Machine.execMspCommandManual c s
  | .mspStatus c => Sys2Proof.Machine.execMspStatus c s
  | .tsiPageSet c => Sys2Proof.Machine.execTsiPageSet c s
  | .tsiRead c => Sys2Proof.Machine.execTsiRead c s
  | .ceCircuitSet c => Sys2Proof.Machine.execCeCircuitSet c s
  | .ceCircuitRead c => Sys2Proof.Machine.execCeCircuitRead c s
  | .pairConfig c => Sys2Proof.Machine.execPairConfig c s
  | .pairSwitch c => Sys2Proof.Machine.execPairSwitch c s
  | .pairStatus c => Sys2Proof.Machine.execPairStatus c s
  | .pairHawserCal c => Sys2Proof.Machine.execPairHawserCal c s
  | .mateHello c => Sys2Proof.Machine.execMateHello c s
  | .mateBulkSend c => Sys2Proof.Machine.execMateBulkSend c s
  | .mateBulkReceived c => Sys2Proof.Machine.execMateBulkReceived c s
  | .mirrorMapRx h m => Sys2Proof.Machine.execMirrorMapRx h m s
  | .mirrorOnuRx h m => Sys2Proof.Machine.execMirrorOnuRx h m s
  | .mirrorAllocRx h m => Sys2Proof.Machine.execMirrorAllocRx h m s
  | .mirrorKeyRx h m => Sys2Proof.Machine.execMirrorKeyRx h m s
  | .mirrorCommitRx h m => Sys2Proof.Machine.execMirrorCommitRx h m s
  | .mirrorSpanRx h m => Sys2Proof.Machine.execMirrorSpanRx h m s
  | .mirrorHeartbeatRx rseq sfc roles st => Sys2Proof.Machine.execMirrorHeartbeatRx rseq sfc roles st s
  | .mirrorSwitchRx rseq spans force row => Sys2Proof.Machine.execMirrorSwitchRx rseq spans force row s
  | .mirrorEndOfSnapshotRx rseq spans => Sys2Proof.Machine.execMirrorEndOfSnapshotRx rseq spans s
  | .mirrorAckRx rseq => Sys2Proof.Machine.execMirrorAckRx rseq s
  | .mirrorAckTimer => Sys2Proof.Machine.execMirrorAckTimer s
  | .mateHeartbeatTimeout => Sys2Proof.Machine.execMateHeartbeatTimeout s
  | .mateConfirmEnd lit => Sys2Proof.Machine.execMateConfirmEnd lit s
  | .switchoverRelight sp => Sys2Proof.Machine.execSwitchoverRelight sp s
  | .switchoverFirstFrame sp => Sys2Proof.Machine.execSwitchoverFirstFrame sp s
  | .lanyardConfig c => Sys2Proof.Machine.execLanyardConfig c s
  | .lanyardStatus c => Sys2Proof.Machine.execLanyardStatus c s
  | .lanyardRegSet c => Sys2Proof.Machine.execLanyardRegSet c s
  | .lanyardRegDelete c => Sys2Proof.Machine.execLanyardRegDelete c s
  | .lanyardRegRead c => Sys2Proof.Machine.execLanyardRegRead c s
  | .shelfBudgetSet c => Sys2Proof.Machine.execShelfBudgetSet c s
  | .lanyardHelloTimer => Sys2Proof.Machine.execLanyardHelloTimer s
  | .lanyardHelloRx port h manager free => Sys2Proof.Machine.execLanyardHelloRx port h manager free s
  | .lanyardCallRx port h words => Sys2Proof.Machine.execLanyardCallRx port h words s
  | .lanyardReplyRx port h free words => Sys2Proof.Machine.execLanyardReplyRx port h free words s
  | .lanyardRegQueryRx port h sp pier serial => Sys2Proof.Machine.execLanyardRegQueryRx port h sp pier serial s
  | .lanyardRegAnswerRx port h serial entry => Sys2Proof.Machine.execLanyardRegAnswerRx port h serial entry s
  | .lanyardUsageRx port h lines => Sys2Proof.Machine.execLanyardUsageRx port h lines s
  | .lanyardBudgetRx port h lines => Sys2Proof.Machine.execLanyardBudgetRx port h lines s
  | .lanyardManagerTimeout peer => Sys2Proof.Machine.execLanyardManagerTimeout peer s
  | .lanyardApportion => Sys2Proof.Machine.execLanyardApportion s
  | .pcsBlockLockChange port block align fault => Sys2Proof.Machine.execPcsBlockLockChange port block align fault s
  | .frequencyLoopSettled => Sys2Proof.Machine.execFrequencyLoopSettled s
  | .pairKeyTimeout => Sys2Proof.Machine.execPairKeyTimeout s
  | .vfEnable n => Sys2Proof.Machine.execVfEnable n s
  | .msixVectorUnmask fn v => Sys2Proof.Machine.execMsixVectorUnmask fn v s
  | .searchWindowStart sp pier => Sys2Proof.Machine.execSearchWindowStart sp pier s

end Sys2Proof.Machine
end

