-- ==== Sys2Proof/Machine/Calls.lean ====
section
/-! DEFINITION. The calls among the commands: the call-table row and the message of each, and the transactional call that each of the
transactional rows makes (R58, R81). -/

namespace Sys2Proof.Machine

/-- The transactional call and the message of a row that makes one. -/
def txnRow (i : Instr) : Option (TxnCall × Call) :=
  match i with
  | .sliceCreate c => some (sliceCreate, c)
  | .sliceDelete c => some (sliceDelete, c)
  | .sliceBind c => some (sliceBind, c)
  | .sliceUnbind c => some (sliceBind, c)
  | .cleatAssign c => some (cleatAssign, c)
  | .evtRouteSet c => some (evtRouteSet, c)
  | .avsConfig c => some (avsConfig, c)
  | .thermalConfig c => some (thermalConfig, c)
  | .pierConfig c => some (pierConfig, c)
  | .pierProfileSet c => some (pierProfileSet, c)
  | .pierDefectConfig c => some (pierDefectConfig, c)
  | .spliceConfig c => some (spliceConfig, c)
  | .spliceClear c => some (spliceClear, c)
  | .onuExpectSet c => some (onuExpectSet, c)
  | .onuExpectDelete c => some (onuExpectDelete, c)
  | .onuAuthoriseAccept c => some (onuAuthorise, c)
  | .onuAuthoriseReject c => some (onuAuthorise, c)
  | .onuDeactivate c => some (onuDeactivate, c)
  | .onuDeactivateDisable c => some (onuDeactivate, c)
  | .discoveryConfig c => some (discoveryConfig, c)
  | .rangeCalSet c => some (rangeCalSet, c)
  | .reachConfig c => some (reachConfig, c)
  | .driftConfig c => some (driftConfig, c)
  | .stbyDeltaConfig c => some (stbyDeltaConfig, c)
  | .timeConfig c => some (timeConfig, c)
  | .keystoneSet c => some (keystoneSet, c)
  | .asymConfig c => some (asymConfig, c)
  | .timeEvtConfig c => some (timeEvtConfig, c)
  | .ptpPortConfig c => some (ptpPortConfig, c)
  | .allocSet c => some (allocSet, c)
  | .allocDelete c => some (allocDelete, c)
  | .sliceBudgetSet c => some (sliceBudgetSet, c)
  | .trussConfig c => some (trussConfig, c)
  | .openActivate c => some (openActivate, c)
  | .openActivateClear c => some (openActivate, c)
  | .openBind c => some (openBind, c)
  | .openUnbind c => some (openBind, c)
  | .trussMcConfig c => some (trussMcConfig, c)
  | .sliceHankSet c => some (sliceHankSet, c)
  | .sliceQueuesSet c => some (sliceQueuesSet, c)
  | .qprofileSet c => some (qprofileSet, c)
  | .qnodeSet c => some (qnodeSet, c)
  | .qnodeDelete c => some (qnodeDelete, c)
  | .queueSet c => some (queueSet, c)
  | .queueDelete c => some (queueDelete, c)
  | .viaductConfig c => some (viaductConfig, c)
  | .schedNodeSet c => some (schedNodeSet, c)
  | .policerSet c => some (policerSet, c)
  | .gateListSet c => some (gateListSet, c)
  | .pierSchedConfig c => some (pierSchedConfig, c)
  | .uplinkSchedConfig c => some (uplinkSchedConfig, c)
  | .uplinkBudgetSet c => some (uplinkBudgetSet, c)
  | .distSet c => some (distSet, c)
  | .distPvidSet c => some (distPvidSet, c)
  | .vlanSet c => some (vlanSet, c)
  | .bdSet c => some (bdSet, c)
  | .replSet c => some (replSet, c)
  | .portSet c => some (portSet, c)
  | .portDelete c => some (portDelete, c)
  | .fdbStaticSet c => some (fdbStaticSet, c)
  | .fdbDelete c => some (fdbDelete, c)
  | .directSet c => some (directSet, c)
  | .routeSet c => some (routeSet, c)
  | .routeDelete c => some (routeDelete, c)
  | .fwdTableConfig c => some (fwdTableConfig, c)
  | .fwdDscpSet c => some (fwdDscpSet, c)
  | .trapConfig c => some (trapConfig, c)
  | .ponCipherConfig c => some (ponCipherConfig, c)
  | .ponMskSet c => some (ponMskSet, c)
  | .ponBcastKeySet c => some (ponBcastKeySet, c)
  | .macsecPortConfig c => some (macsecPortConfig, c)
  | .macsecSaSet c => some (macsecSaSet, c)
  | .macsecSaDelete c => some (macsecSaSet, c)
  | .macsecRxScSet c => some (macsecRxScSet, c)
  | .macsecRxScDelete c => some (macsecRxScSet, c)
  | .macsecSaPn c => some (macsecSaPn, c)
  | .macsecTxNextNow c => some (macsecTxNext, c)
  | .macsecTxNextStandby c => some (macsecTxNext, c)
  | .pairKeyConfig c => some (pairKeyConfig, c)
  | .loopbConfig c => some (loopbConfig, c)
  | .loopSet c => some (loopSet, c)
  | .sdhConfig c => some (sdhConfig, c)
  | .sdhTraceSet c => some (sdhTraceSet, c)
  | .mspConfig c => some (mspConfig, c)
  | .tsiPageSet c => some (tsiPageSet, c)
  | .ceCircuitSet c => some (ceCircuitSet, c)
  | .pairConfig c => some (pairConfig, c)
  | .pairHawserCal c => some (pairHawserCal, c)
  | .lanyardConfig c => some (lanyardConfig, c)
  | .lanyardRegSet c => some (lanyardRegSet, c)
  | .lanyardRegDelete c => some (lanyardRegDelete, c)
  | .shelfBudgetSet c => some (shelfBudgetSet, c)
  | _ => none

/-- The call-table row and the message of a row whose call acts or answers as it is read. -/
def plainRow (i : Instr) : Option (CallSpec × Call) :=
  match i with
  | .sessionOpen c => some (sessionOpenSpec, c)
  | .sessionClose c => some (sessionCloseSpec, c)
  | .sessionPing c => some (sessionPingSpec, c)
  | .txnBegin c => some (txnBeginSpec, c)
  | .txnCommit c => some (txnCommitSpec, c)
  | .txnRollback c => some (txnRollbackSpec, c)
  | .txnQuery c => some (txnQuerySpec, c)
  | .evtRouteGet c => some (evtRouteGetSpec, c)
  | .evtDetail c => some (evtDetailSpec, c)
  | .cntSnapshotCopy c => some (cntSnapshotCopySpec, c)
  | .cntRead c => some (cntReadSpec, c)
  | .devInfo c => some (devInfoSpec, c)
  | .devAttest c => some (devAttestSpec, c)
  | .devCertRead c => some (devCertReadSpec, c)
  | .devReportRead c => some (devReportReadSpec, c)
  | .devFlashWrite c => some (devFlashWriteSpec, c)
  | .devSlotSet c => some (devSlotSetSpec, c)
  | .devReset c => some (devResetSpec, c)
  | .devSvnAdvance c => some (devSvnAdvanceSpec, c)
  | .ownerKeyFuse c => some (ownerKeyFuseSpec, c)
  | .pwrDomainSetOn c => some (pwrDomainSetSpec, c)
  | .pwrDomainSetOff c => some (pwrDomainSetSpec, c)
  | .pwrDomainGet c => some (pwrDomainGetSpec, c)
  | .thermalRead c => some (thermalReadSpec, c)
  | .spanOpen c => some (spanOpenSpec, c)
  | .spanClose c => some (spanCloseSpec, c)
  | .spanStatus c => some (spanStatusSpec, c)
  | .onuDefectRead c => some (onuDefectReadSpec, c)
  | .spliceRead c => some (spliceReadSpec, c)
  | .onuStateRead c => some (onuStateReadSpec, c)
  | .discListRead c => some (discListReadSpec, c)
  | .reachRead c => some (reachReadSpec, c)
  | .onuRangeRead c => some (onuRangeReadSpec, c)
  | .stbyDeltaRead c => some (stbyDeltaReadSpec, c)
  | .timeStatus c => some (timeStatusSpec, c)
  | .timeFreqAdjust c => some (timeFreqAdjustSpec, c)
  | .timePhaseSlew c => some (timePhaseSlewSpec, c)
  | .timePhaseStep c => some (timePhaseStepSpec, c)
  | .timePhaseSample c => some (timePhaseSampleSpec, c)
  | .keystoneRead c => some (keystoneReadSpec, c)
  | .todCalc c => some (todCalcSpec, c)
  | .timeEvtRead c => some (timeEvtReadSpec, c)
  | .ptpTxtsRead c => some (ptpTxtsReadSpec, c)
  | .allocRead c => some (allocReadSpec, c)
  | .sliceBudgetRead c => some (sliceBudgetReadSpec, c)
  | .trussStatus c => some (trussStatusSpec, c)
  | .openLoad c => some (openLoadSpec, c)
  | .openStatus c => some (openStatusSpec, c)
  | .openStats c => some (openStatsSpec, c)
  | .hankPartitionSet c => some (hankPartitionSpec, c)
  | .hankStatus c => some (hankStatusSpec, c)
  | .sliceHankRead c => some (sliceHankReadSpec, c)
  | .queueRead c => some (queueReadSpec, c)
  | .viaductStatus c => some (viaductStatusSpec, c)
  | .schedNodeRead c => some (schedNodeReadSpec, c)
  | .policerRead c => some (policerReadSpec, c)
  | .gateListRead c => some (gateListReadSpec, c)
  | .uplinkBudgetRead c => some (uplinkBudgetReadSpec, c)
  | .distRead c => some (distReadSpec, c)
  | .fdbRead c => some (fdbReadSpec, c)
  | .fdbFlush c => some (fdbFlushSpec, c)
  | .routeRead c => some (routeReadSpec, c)
  | .fwdStatus c => some (fwdStatusSpec, c)
  | .ponKeyRoll c => some (ponKeyRollSpec, c)
  | .ponKeyStatus c => some (ponKeyStatusSpec, c)
  | .macsecSaRead c => some (macsecSaReadSpec, c)
  | .xtsStatus c => some (xtsStatusSpec, c)
  | .pairKeyStatus c => some (pairKeyStatusSpec, c)
  | .entropyStatus c => some (entropyStatusSpec, c)
  | .loopRead c => some (loopReadSpec, c)
  | .opticsStart c => some (opticsStartSpec, c)
  | .opticsStop c => some (opticsStopSpec, c)
  | .opticsStatus c => some (opticsStatusSpec, c)
  | .opticsFaultClear c => some (opticsFaultClearSpec, c)
  | .rssiRead c => some (rssiReadSpec, c)
  | .convRead c => some (convReadSpec, c)
  | .portModeSet c => some (portModeSetSpec, c)
  | .laneEnableOn c => some (laneEnableSpec, c)
  | .laneEnableOff c => some (laneEnableSpec, c)
  | .laneTxEqSet c => some (laneTxEqSetSpec, c)
  | .laneRxEqSet c => some (laneRxEqSetSpec, c)
  | .laneDetectConfig c => some (laneDetectConfigSpec, c)
  | .laneLoopbackSet c => some (laneLoopbackSetSpec, c)
  | .lanePrbs c => some (lanePrbsSpec, c)
  | .laneStatus c => some (laneStatusSpec, c)
  | .hawserLaneStatus c => some (hawserLaneStatusSpec, c)
  | .pcieStatus c => some (pcieStatusSpec, c)
  | .sdhStatus c => some (sdhStatusSpec, c)
  | .sdhTraceRead c => some (sdhTraceReadSpec, c)
  | .mspCommandClear c => some (mspCommandSpec, c)
  | .mspCommandLockout c => some (mspCommandSpec, c)
  | .mspCommandForced c => some (mspCommandSpec, c)
  | .mspCommandManual c => some (mspCommandSpec, c)
  | .mspStatus c => some (mspStatusSpec, c)
  | .tsiRead c => some (tsiReadSpec, c)
  | .ceCircuitRead c => some (ceCircuitReadSpec, c)
  | .pairSwitch c => some (pairSwitchSpec, c)
  | .pairStatus c => some (pairStatusSpec, c)
  | .mateHello c => some (mateHelloSpec, c)
  | .mateBulkSend c => some (mateBulkSpec, c)
  | .mateBulkReceived c => some (mateBulkSpec, c)
  | .lanyardStatus c => some (lanyardStatusSpec, c)
  | .lanyardRegRead c => some (lanyardRegReadSpec, c)
  | _ => none

/-- The call-table row and the message of a row that is a call. -/
def callRow (i : Instr) : Option (CallSpec × Call) :=
  match txnRow i with
  | some (t, c) => some (t.spec, c)
  | none => plainRow i

end Sys2Proof.Machine
end

