-- ==== Sys2Proof/Safety.lean ====
section
/-! DEFINITION. What a safe step is, and when Saend serves a call. -/

namespace Sys2Proof

open Sys2Proof.Machine

/-- The step goes on. -/
def Goes (s : Machine.State) : Prop := ∃ t, Machine.step s = .next t

/-- Saend serves a call: it is running, fewer than 64 of the channel's calls wait, the call is the next of its channel, a session is
open where the call needs one, its version introduced the call, the identity may make it, and the payload has a length of its layout
with no reserved bit set (R60, R62, R77, R79, R47, R90, R6). -/
abbrev Served (sp : CallSpec) (c : Call) (s : Machine.State) : Prop :=
  s.boot.ready = true ∧ (chanOf s c.chan).waiting.length < 64 ∧ nextCall sp.code c (chanOf s c.chan) = true ∧
    ((chanOf s c.chan).session.isSome = true ∨ sp.code = 0x0001 ∨ sp.code = 0x0003) ∧ sp.intro ≤ versionOf s c.chan ∧
    mayCall s sp c.chan = true ∧ sp.lens.contains c.words.length = true ∧ reservedSet sp.used c.words = false

/-- A served call is answered DONE with some words, as it is read: the message leaves its queue, `t` is the state its effect leaves, and
the response follows (R57, R60). -/
abbrev Answered (i : Instr) (sp : CallSpec) (c : Call) (s : Machine.State) (ws : List Word) (t : Machine.State) : Prop :=
  Machine.exec i s = .next (respond sp.code c .done ws t)

/-- A served call is refused with a status: it leaves its queue, has no effect, and its response carries no word (R57, R60). -/
abbrev Refused (i : Instr) (sp : CallSpec) (c : Call) (s : Machine.State) (st : Status) : Prop :=
  Machine.exec i s = .next (respond sp.code c st [] (readCall sp.code c s))

end Sys2Proof
end

