-- ==== Sys2Proof/Certificates/Slice0/Obligations.lean ====
section
/-! DEFINITION. What is claimed of the model: the statements for the provers. -/

open Sys2Proof Sys2Proof.Machine

/-- The queue of waiting commands is first in, first out, and is the model's own (notes/assumptions/10): a step runs the command at its
front on the state with the rest, an empty queue is one tick, and no word of the table spells a command. -/
def Obligations.TheFrontCommandIsExecuted : Prop :=
  (∀ (s : State) (c : Instr) (rest : List Instr), Machine.step { s with pending := c :: rest } = exec c { s with pending := rest }) ∧
  (∀ s : State, s.pending = [] → Machine.step s = .next (tick s)) ∧
  (∀ nbits w : Nat, decodeTableWord nbits w = none ∧ ∀ s : State, s.withFetchWord nbits w = s)

/-- R27, R45, R72, R76, R114, R121, R306, R309, R367, R415, R452, R536: what the spec gives for the machine right after reset; besides, as
the model's own, no command waits (notes/assumptions/10) and the flash has the canonical form of notes/assumptions/2. -/
def Obligations.ResetHoldsTheValuesGiven : Prop :=
  let s := State.reset
  sliceOf s 0 = some 0 ∧ (∀ ch, 1 ≤ ch → ch ≤ 18 → sliceOf s ch = none) ∧ s.boot.ready = false ∧ s.ctl.numVfs = 0 ∧
    (∀ n, (cleatOf s n).holder = 0xFF) ∧ (∀ n ch, ch < 16 ∨ ch = 18 → mayUse (cleatOf s n) ch = true) ∧
    (∀ d, (domOf s d).st = .off) ∧ (∀ v, kgetD s.fwd.dist v 0 = 0) ∧ (∀ p, kgetD s.fwd.pvid p 1 = 1) ∧
    (∀ p v, (kgetD (pipeOf s p).vlans v {}).mode = 0) ∧ (∀ p, (portOf s p).mode = 0) ∧ (∀ sp, (spanOf s sp).st = .closed) ∧
    (∀ sp p, (pierOf s sp p).enable = false ∧ (pierOf s sp p).fecDs = true) ∧ (∀ sp o, (onuOf s sp o).st = .inactive) ∧
    s.fwd.h1Units = 14 ∧ s.fwd.h3Units = 2 ∧ s.fwd.prefetch = 8192 ∧ s.fwd.wrBacklog = 1024 ∧ (∀ k h, quotaOf s k h = 0) ∧
    (∀ fn g, (routeOf s fn g).msgMask = 0 ∧ (routeOf s fn g).vecMask = 0 ∧ (routeOf s fn g).vector = if g < 24 then 8 + g else 31) ∧
    (∀ ch, (chanOf s ch).session = none ∧ (chanOf s ch).inq = [] ∧ (chanOf s ch).outq = []) ∧ s.pending = [] ∧ Memory.wf s.boot.flash = true

/-- R6, R47, R60, R62, R77, R79, R90, R99: the checks in front of every call, in the model's order (notes/assumptions/8): a call is not
read before Saend runs, while 64 wait, or while it is not the next of its channel (notes/assumptions/7); what the session, the version,
the identity or the length refuses is answered with its status; a reserved bit is undefined use. R6, R59, R77, R79: a message whose code
the session may not use is answered BAD_CALL and changes nothing else. -/
def Obligations.CallsAreCheckedFirst : Prop :=
  (
    ∀ (i : Instr) (sp : CallSpec) (c : Call) (s : State), callRow i = some (sp, c) → let x := chanOf s c.chan
      let refused (st : Status) : Prop := exec i s = .next (respond sp.code c st [] (readCall sp.code c s))
      ((s.boot.ready = false ∨ 64 ≤ x.waiting.length ∨ nextCall sp.code c x = false) → exec i s = .next s) ∧
      (s.boot.ready = true → x.waiting.length < 64 → nextCall sp.code c x = true →
        (x.session = none → sp.code ≠ 0x0001 → sp.code ≠ 0x0003 → refused .badState) ∧ ((x.session.isSome = true ∨ sp.code = 0x0001 ∨ sp.code = 0x0003) →
          (versionOf s c.chan < sp.intro → refused .badCall) ∧ (sp.intro ≤ versionOf s c.chan → (mayCall s sp c.chan = false → refused .notOwner) ∧
            (mayCall s sp c.chan = true → (sp.lens.contains c.words.length = false → refused .badArg) ∧
              (sp.lens.contains c.words.length = true → reservedSet sp.used c.words = true → exec i s = .fault (.undefinedUse "R6"))))))) ∧
  (
    ∀ (code : BitVec 16) (c : Call) (s : State), introduced code.toNat (versionOf s c.chan) = false → s.boot.ready = true →
      (chanOf s c.chan).waiting.length < 64 → (chanOf s c.chan).session.isSome = true → c.words.length ≤ 15 →
      nextCall code.toNat c (chanOf s c.chan) = true →
      exec (.badCallReceived code c) s = .next (respond code.toNat c .badCall [] (readCall code.toNat c s)))

/-- R54 to R57, R63, R65: reading a call takes its message out of the inbound queue, or nothing where none spells it (notes/assumptions/7); a
response that fits joins the outbound queue, and vector 0 is raised where the function enables it; one that does not fit, or finds a message
in the backlog, joins the backlog; with 32 there its words go into the queue all the same and over a full one replace its newest word;
neither touches another channel or any other unit. -/
def Obligations.CallsAreReadAndAnswered : Prop :=
  ∀ (code : Nat) (c : Call) (s : State), let x := chanOf s c.chan
    let spelt : Bool := headComplete x && (headMsg x.inq).map (·.w) = headerOf code c :: c.words && (headMsg x.inq).all (!·.marked)
    (spelt = true → readCall code c s = setChanRoom c.chan x { x with inq := x.inq.drop (headMsg x.inq).length } s) ∧
    (spelt = false → readCall code c s = s) ∧
    (let u := readCall code c s; u.boot = s.boot ∧ u.pwr = s.pwr ∧ u.fwd = s.fwd ∧ u.pon = s.pon ∧ u.time = s.time ∧ u.opt = s.opt ∧ u.lane = s.lane ∧ u.ciph = s.ciph ∧ u.tdm = s.tdm ∧
      u.red = s.red ∧ u.tb = s.tb ∧ u.pending = s.pending ∧ (∀ k, k ≠ c.chan.val → chanOf u k = chanOf s k) ∧ (chanOf u c.chan).outq = x.outq ∧ (chanOf u c.chan).session = x.session) ∧
    (∀ (st : Status) (ws : List Word), let m := wd (code * 2 ^ 16 + (1 + ws.length) * 2 ^ 12 + c.seq.toNat * 2 ^ 8 + 0x1F) :: wd st.code :: ws; let t := respond code c st ws s
      (x.backlog = [] → x.outExpect = 0 → code < 65536 → ws.length ≤ 14 → x.outq.length + m.length ≤ 64 →
        let u := setChan c.chan { x with outq := x.outq ++ m.zipIdx.map fun e => ⟨e.1, e.2 = 0, e.2 + 1 = m.length, false⟩ } s
        t = if x.outMsgEn = true ∧ c.chan.val < 16 then msix c.chan 0 u else u) ∧
      (x.backlog = [] → 64 < x.outq.length + m.length → t = setChan c.chan { x with backlog := [⟨m, false⟩] } s) ∧
      (x.backlog ≠ [] → x.backlog.length < 32 → t = setChan c.chan { x with backlog := x.backlog ++ [⟨m, false⟩] } s) ∧
      (∀ (q : List OutWord) (o : OutWord), 32 ≤ x.backlog.length → 64 ≤ x.outq.length → x.outq = q ++ [o] →
        (chanOf t c.chan).backlog = x.backlog ∧ (chanOf t c.chan).outColl = true ∧
        (chanOf t c.chan).outq = q ++ [{ o with w := (wd st.code :: ws).getLast (List.cons_ne_nil _ _) }]) ∧
      t.boot = s.boot ∧ t.pwr = s.pwr ∧ t.fwd = s.fwd ∧ t.pon = s.pon ∧ t.time = s.time ∧ t.opt = s.opt ∧ t.lane = s.lane ∧ t.ciph = s.ciph ∧ t.tdm = s.tdm ∧ t.red = s.red ∧ t.tb = s.tb ∧
      t.pending = s.pending ∧ (∀ k, k ≠ c.chan.val → chanOf t k = chanOf s k) ∧ (chanOf t c.chan).inq = x.inq ∧ (chanOf t c.chan).session = x.session)

/-- R55, R56, R63, R64: a word written to MBX_IN_DATA joins the tail of the inbound queue, a header with its low byte replaced by the
identity; into a full queue it replaces the newest word, which is marked, and COLLISION becomes 1, told once by event 960. R54, R56,
R63: a word that Saend writes over a full outbound queue replaces its newest word too; an abort takes the partly written message out; a
collision flag is cleared by writing 1; a read of MBX_OUT_DATA pops the head word, and answers 0 from an empty queue. Before SAEND_READY it and a
Cleat read 0 (R552). An identity that does not reach its channel does nothing there (R45; which identity reaches it, and that nothing
happens, is the model's choice: notes/assumptions/46). R62, R64, R65, R104: Saend discards a message with a marked word and counts it; the backlog's head moves into a queue with room; after its 1 ms a
source's held occurrences go out in one message. -/
def Obligations.MailboxQueuesHoldTheirWords : Prop :=
  (
    ∀ (s : State) (ch : Chan) (w : Word), reaches s ch = true → let c := chanOf s ch
      (c.inq.length < 64 → c.inExpect = 0 → exec (.mbxInDataWrite ch w) s = .next (setChan ch { c with
        inq := c.inq ++ [⟨(w &&& 0xFFFFFF00) ||| wd ch, true, c.inColl⟩], inExpect := fld w 15 12 } s)) ∧
      (c.inq.length < 64 → c.inExpect ≠ 0 → exec (.mbxInDataWrite ch w) s = .next (setChan ch { c with
        inq := c.inq ++ [⟨w, false, c.inColl⟩], inExpect := c.inExpect - 1 } s)) ∧
      (∀ (q : List InWord) (h : InWord), 64 ≤ c.inq.length → c.inq = q ++ [h] →
        exec (.mbxInDataWrite ch w) s = .next (
          let t := setChan ch { c with inq := q ++ [{ h with w := w, marked := true }], inColl := true } s
          if c.inColl then t else raise 960 ((sliceOf s ch).toList) [wd ch] t))) ∧
  (
    ∀ (s : State) (ch : Chan), reaches s ch = true → let c := chanOf s ch
      (∀ (q m : List InWord) (h : InWord), c.inExpect ≠ 0 → c.inq = q ++ h :: m → h.hd = true → (∀ x ∈ m, x.hd = false) →
        exec (.mbxInAbort ch) s = .next (setChanRoom ch c { c with inq := q, inExpect := 0 } s)) ∧
      (c.inExpect = 0 → exec (.mbxInAbort ch) s = .next s) ∧
      exec (.mbxInCollisionClear ch) s = .next (setChan ch { c with inColl := false } s) ∧
      exec (.mbxOutCollisionClear ch) s = .next (setChan ch { c with outColl := false } s) ∧
      (∀ (w : OutWord) (q : List OutWord), c.outq = w :: q →
        booting s = false → exec (.mbxOutDataRead ch) s = .next (emit (.readData ch w.w) (setChan ch { c with outq := q } s))) ∧
      ((c.outq = [] ∨ booting s = true) → exec (.mbxOutDataRead ch) s = .next (emit (.readData ch 0) s)) ∧
      (∀ n : Fin 64, booting s = true → exec (.cleatRead ch n) s = .next (emit (.readData ch 0) s)) ∧
      (∀ (q : List OutWord) (o : OutWord) (ev : Bool) (w : Word), 64 ≤ c.outq.length → c.outq = q ++ [o] →
        pushOut ch ev w s = cnt (cChan 1 ch) 1 (setChan ch { c with outq := q ++ [{ o with w := w }], outColl := true } s))) ∧
  (
    ∀ (s : State) (ch : Chan) (w : Word), reaches s ch = false → exec (.mbxInDataWrite ch w) s = .next s ∧ exec (.mbxInAbort ch) s = .next s ∧
      exec (.mbxInCollisionClear ch) s = .next s ∧ exec (.mbxOutCollisionClear ch) s = .next s ∧ exec (.mbxOutDataRead ch) s = .next s ∧
      ∀ n : Fin 64, exec (.cleatRead ch n) s = .next s ∧ exec (.cleatWrite ch n w) s = .next s) ∧
  (
    ∀ (s : State) (ch : Chan), s.boot.ready = true → let c := chanOf s ch
      (c.waiting.length < 64 → headComplete c = true → (headMsg c.inq).any (·.marked) = true →
        exec (.markedMessageDiscard ch) s = .next (cnt (cChan 0 ch) 1 (setChanRoom ch c { c with inq := c.inq.drop (headMsg c.inq).length } s))) ∧
      (∀ (m : OutMsg) (q : List OutMsg), c.backlog = m :: q → c.outq.length + m.words.length ≤ 64 →
        exec (.outboundBacklogMove ch) s = .next (pushMsg ch m.event m.words (setChan ch { c with backlog := q } s))) ∧
      (∀ src : Fin 1024, let e := chanEvt s ch src; let t := setChanEvt ch src { e with window := false } s
        (e.window = true → e.due = true → msgRouted t ch src = true → exec (.eventRateWindowEnd ch src) s = .next (sendEvt ch src t)) ∧
          (e.window = true → (e.due = false ∨ msgRouted t ch src = false) → exec (.eventRateWindowEnd ch src) s = .next t) ∧
          (e.window = false → exec (.eventRateWindowEnd ch src) s = .next s)))

/-- R6, R45, R54, R92, R93: a write of MBX_IRQ_CTRL sets its three fields and raises vector 1 where the enable rises at or above the
threshold; a write of 1 to a ring's ENABLE starts a ring that is not active, waits on one that is being disabled and leaves one that runs;
a write of 0 disables it; the producer index of rings 0 and 3 is written, that of rings 1 and 2 is not; a ring flag is cleared by writing
1; base and size of a ring that is not active are written, and changing them on an active one is undefined use, as a 1 in a reserved bit
of any of these registers is. R51, R52: a write to a read-only register, or to an offset at which the function has none, changes nothing. The
model's choices: a function that is not enabled takes no write (notes/assumptions/46), a read-only field ignores one (notes/assumptions/42),
and RING_SIZE.LOG2 is stored as written, the producer index modulo 2^LOG2 (notes/assumptions/43). -/
def Obligations.FunctionRegisterWrites : Prop :=
  ∀ (s : State) (fn : Fn) (w : Word),
    (hostSees s fn = false → exec (.mbxIrqCtrlWrite fn w) s = .next s ∧ ∀ r : Fin 4, exec (.ringEnable fn r w) s = .next s ∧
      exec (.ringDisable fn r w) s = .next s ∧ exec (.ringProdWrite fn r w) s = .next s ∧ exec (.ringStatusClear fn r w) s = .next s) ∧
    (hostSees s fn = true →
    (w &&& 0xFF80FFFC = 0 → let n := { chanOf s fn with freeThresh := fld w 22 16, inSpaceEn := bit w 1, outMsgEn := bit w 0 }
      exec (.mbxIrqCtrlWrite fn w) s = .next (
        if (chanOf s fn).inSpaceEn = false ∧ bit w 1 = true ∧ fld w 22 16 ≤ inFree (chanOf s fn) then msix fn 1 (setChan fn n s) else setChan fn n s)) ∧
    (w &&& 0xFF80FFFC ≠ 0 → exec (.mbxIrqCtrlWrite fn w) s = .fault (.undefinedUse "R6")) ∧
    (∀ r : Fin 4, w &&& 0xFF00FEFC = 0 → let x := { ringOf s fn r with coalesce := fld w 23 16, irqEn := bit w 8 }
      exec (.ringDisable fn r w) s = .next (setRing fn r { x with enable := false, restart := false } s) ∧
      ((ringOf s fn r).active = false → exec (.ringEnable fn r w) s = .next (setRing fn r
        { x with cons := 0, prod := 0, enable := true, active := true, restart := false, uncounted := 0 } s)) ∧
      ((ringOf s fn r).active = true → (ringOf s fn r).enable = false → exec (.ringEnable fn r w) s = .next (setRing fn r { x with restart := true } s)) ∧
      ((ringOf s fn r).active = true → (ringOf s fn r).enable = true → exec (.ringEnable fn r w) s = .next (setRing fn r x s))) ∧
    (∀ r : Fin 4, w &&& 0xFF00FEFC ≠ 0 → exec (.ringEnable fn r w) s = .fault (.undefinedUse "R6") ∧ exec (.ringDisable fn r w) s = .fault (.undefinedUse "R6")) ∧
    (∀ r : Fin 4, w &&& 0xFFFF0000 ≠ 0 → exec (.ringProdWrite fn r w) s = .fault (.undefinedUse "R6")) ∧
    (∀ r : Fin 4, w &&& 0xFFF8 ≠ 0 → exec (.ringStatusClear fn r w) s = .fault (.undefinedUse "R6")) ∧
    (∀ r : Fin 4, r = 0 ∨ r = 3 → w &&& 0xFFFF0000 = 0 →
      exec (.ringProdWrite fn r w) s = .next (setRing fn r { ringOf s fn r with prod := fld w 15 0 % 2 ^ (ringOf s fn r).log2 } s)) ∧
    (∀ r : Fin 4, r = 1 ∨ r = 2 → w &&& 0xFFFF0000 = 0 → exec (.ringProdWrite fn r w) s = .next s) ∧
    (∀ r : Fin 4, w &&& 0xFFF8 = 0 → let x := ringOf s fn r
      exec (.ringStatusClear fn r w) s = .next (setRing fn r
        { x with trunc := x.trunc && !bit w 2, ownerDrop := x.ownerDrop && !bit w 1, faulted := x.faulted && !bit w 0 } s)) ∧
    (∀ (r : Fin 4) (ch : Chan), ch.val = fn.val → let x := ringOf s fn r
      let reg (k : Nat) : Out := exec (.registerWrite ch (BitVec.ofNat 16 (0x8000 + 0x40 * r.val + k)) w) s
      (x.active = false → (w &&& 0x3F = 0 → reg 0x00 = .next (setRing fn r { x with baseLo := w } s)) ∧ reg 0x04 = .next (setRing fn r { x with baseHi := w } s) ∧
        (w &&& 0xFFFFFFE0 = 0 → reg 0x08 = .next (setRing fn r { x with log2 := fld w 4 0 } s))) ∧
      (x.active = true → (w &&& 0x3F = 0 → w ≠ x.baseLo → reg 0x00 = .fault (.undefinedUse "R93")) ∧ (w ≠ x.baseHi → reg 0x04 = .fault (.undefinedUse "R93")) ∧
        (w &&& 0xFFFFFFE0 = 0 → fld w 4 0 ≠ x.log2 → reg 0x08 = .fault (.undefinedUse "R93"))) ∧
      (w &&& 0x3F ≠ 0 → reg 0x00 = .fault (.undefinedUse "R6")) ∧ (w &&& 0xFFFFFFE0 ≠ 0 → reg 0x08 = .fault (.undefinedUse "R6"))) ∧
    (∀ (ch : Chan) (off : BitVec 16), ch.val = fn.val → (off.toNat % 4 = 0 → w &&& reservedBits off.toNat = 0) →
      (off.toNat % 4 ≠ 0 ∨ [0x104, 0x10C, 0x110, 0x114].contains off.toNat = true ∨ (0x8000 ≤ off.toNat ∧ off.toNat < 0x8100 ∧ 0x1C ≤ off.toNat % 0x40) ∨ off.toNat < 0x100 ∨ (0x11C < off.toNat ∧ off.toNat < 0x1000) ∨
        (0x1100 ≤ off.toNat ∧ off.toNat < 0x2100) ∨ (0x2180 ≤ off.toNat ∧ off.toNat < 0x2200) ∨ (0x2280 ≤ off.toNat ∧ off.toNat < 0x4000) ∨
        (0x4000 < off.toNat ∧ off.toNat < 0x8000) ∨ 0x8100 ≤ off.toNat) → exec (.registerWrite ch off w) s = .next s))

/-- R92, R93, R95: a disabled ring whose descriptor is complete stops, or starts again where a restart waits; a ring that is not active or
not disabled has nothing to stop; the interrupt timer counts only where a completion waits for it; a completion error stops the ring,
and a restart that waits acts; the device's descriptor with a message for an ACTIVE ONU of its slice, or a frame for a queue of its slice,
is completed with result 0 and what it carries goes out or is staged; another slice's, a wrong length and an ONU that is not ACTIVE
complete with their results; without a descriptor nothing happens. That the message goes out on a Span for which the device is standby
too, with RESULT 0, is the model's choice (notes/assumptions/153). -/
def Obligations.RingsRunAndStop : Prop :=
  ∀ (s : State) (fn : Fn) (r : Fin 4), let x := ringOf s fn r
    (x.active = true → x.enable = false → x.restart = false →
      exec (.ringStopComplete fn r) s = .next (setRing fn r { x with active := false } s)) ∧
    (x.active = true → x.enable = false → x.restart = true → exec (.ringStopComplete fn r) s = .next (setRing fn r
      { x with cons := 0, prod := 0, enable := true, active := true, restart := false, uncounted := 0 } s)) ∧
    ((x.active = false ∨ x.enable = true) → exec (.ringStopComplete fn r) s = .next s) ∧
    (x.irqEn = true → x.uncounted ≠ 0 → exec (.ringIrqTimeout fn r) s = .next (msix fn (2 + r) (setRing fn r { x with uncounted := 0 } s))) ∧
    ((x.irqEn = false ∨ x.uncounted = 0) → exec (.ringIrqTimeout fn r) s = .next s) ∧
    (x.restart = false → exec (.ringPcieFault fn r) s = .next (setRing fn r { x with faulted := true, active := false } s)) ∧
    (x.restart = true → exec (.ringPcieFault fn r) s = .next (setRing fn r
      { x with faulted := true, cons := 0, prod := 0, enable := true, active := true, restart := false, uncounted := 0 } s)) ∧
    (∀ (desc : List Word) (buf : List Byte), ((ringOf s fn 0).hasWork = false → exec (.omciTxDescriptor fn desc buf) s = .next s) ∧
      ((ringOf s fn 3).hasWork = false → exec (.puntTxDescriptor fn desc buf) s = .next s)) ∧
    (∀ (desc : List Word) (buf : List Byte), let sp := fld (pw desc 3) 4 0; let o := fld (pw desc 3) 24 16; let len := fld (pw desc 2) 15 0
      (ringOf s fn 0).hasWork = true → (sliceOf s fn ≠ some (onuOwner s sp o) → exec (.omciTxDescriptor fn desc buf) s = .next (completeTx fn 0 1 desc s)) ∧
        (sliceOf s fn = some (onuOwner s sp o) → len ≠ 48 → (len < 14 ∨ 1980 < len) → exec (.omciTxDescriptor fn desc buf) s = .next (completeTx fn 0 3 desc s)) ∧
        (sliceOf s fn = some (onuOwner s sp o) → 14 ≤ len → len ≤ 1980 → (onuOf s sp o).st ≠ .active →
          exec (.omciTxDescriptor fn desc buf) s = .next (completeTx fn 0 2 desc s))) ∧
    (∀ (desc : List Word) (buf : List Byte), let q := fld (pw desc 4) 19 0; let len := fld (pw desc 2) 15 0
      (ringOf s fn 3).hasWork = true → (sliceOf s fn ≠ some (queueOwner s q) → exec (.puntTxDescriptor fn desc buf) s = .next (completeTx fn 3 1 desc s)) ∧
        (sliceOf s fn = some (queueOwner s q) → (len < 14 ∨ 10240 < len) → exec (.puntTxDescriptor fn desc buf) s = .next (completeTx fn 3 3 desc s))) ∧
    (∀ (desc : List Word) (buf : List Byte), let sp := fld (pw desc 3) 4 0; let o := fld (pw desc 3) 24 16; let len := fld (pw desc 2) 15 0
      (ringOf s fn 0).active = true → (ringOf s fn 0).enable = true → (ringOf s fn 0).cons ≠ (ringOf s fn 0).prod →
      sliceOf s fn = some (onuOwner s sp o) → (len = 48 ∨ (14 ≤ len ∧ len ≤ 1980)) → (onuOf s sp o).st = .active →
      exec (.omciTxDescriptor fn desc buf) s = .next (completeTx fn 0 0 desc (emit (.omci sp o (buf.take len)) s))) ∧
    (∀ (desc : List Word) (buf : List Byte), let q := fld (pw desc 4) 19 0; let len := fld (pw desc 2) 15 0
      (ringOf s fn 3).active = true → (ringOf s fn 3).enable = true → (ringOf s fn 3).cons ≠ (ringOf s fn 3).prod →
      sliceOf s fn = some (queueOwner s q) → 14 ≤ len → len ≤ 10240 →
      exec (.puntTxDescriptor fn desc buf) s = .next (completeTx fn 3 0 desc (stage q (buf.take len) false false none true s)))

/-- R73 to R76: a read of a free Cleat takes it, a read of a held one shows its holder, an identity that may not use it reads 0xFF, and
a write of 0 by one that may releases it, every other value being ignored. -/
def Obligations.CleatsTakenAndReleased : Prop :=
  ∀ (s : State) (ch : Chan) (n : Fin 64), let c := cleatOf s n
    reaches s ch = true → (booting s = false → (mayUse c ch = false → exec (.cleatRead ch n) s = .next (emit (.readData ch 0xFF) s)) ∧
      (mayUse c ch = true → c.holder = 0xFF →
        exec (.cleatRead ch n) s = .next (emit (.readData ch (putb true 31 ||| wd ch)) (setCleat n { c with holder := ch } s))) ∧
      (mayUse c ch = true → c.holder ≠ 0xFF → exec (.cleatRead ch n) s = .next (emit (.readData ch (wd c.holder)) s))) ∧
    (mayUse c ch = true → exec (.cleatWrite ch n 0) s = .next (setCleat n { c with holder := 0xFF } s)) ∧
    (mayUse c ch = false → exec (.cleatWrite ch n 0) s = .next s) ∧
    (∀ w : Word, w ≠ 0 → exec (.cleatWrite ch n w) s = .next s)

/-- R102, R104, R534 to R539: an occurrence of a source reaches the channels that may see it and no other: it is counted with its time and
detail, one within 1 ms of the last message, or that the routes do not select, waits for the next, the pending bit of a routed function is
set; nothing but the mailbox, event and interrupt state changes, and a count changes nothing but its counter. That last time and detail are kept
for each channel and that a channel which may not see an occurrence has none of it on record is the model's choice (notes/assumptions/55).
R215, R470, R537 to R539, R552: a pending register read, 0 before SAEND_READY, cleared and masked, a vector unmasked, and the timebase
snapshot taken. -/
def Obligations.EventsReachTheirChannels : Prop :=
  (
    ∀ (s : State) (src : Nat) (owners : List Nat) (d : List Word), let t := raise src owners d s
      { t with ctl := s.ctl, out := s.out } = s ∧
      (∀ id v, { cnt id v s with ctl := { (cnt id v s).ctl with cntRun := s.ctl.cntRun } } = s ∧ kgetD (cnt id v s).ctl.cntRun id 0 = (kgetD s.ctl.cntRun id 0 + v) % 2 ^ 64) ∧
      t.ctl.txns = s.ctl.txns ∧ t.ctl.cleats = s.ctl.cleats ∧ t.ctl.slices = s.ctl.slices ∧
      (∀ ch : Nat, (chanOf t ch).inq = (chanOf s ch).inq ∧ (chanOf t ch).session = (chanOf s ch).session ∧
        (chanOf t ch).waiting = (chanOf s ch).waiting ∧ (chanOf t ch).routes = (chanOf s ch).routes) ∧
      (∀ ch, ch < 19 → (seesEvt s src owners ch = false → chanOf t ch = chanOf s ch) ∧ (seesEvt s src owners ch = true →
        (chanEvt t ch src).count = ((chanEvt s ch src).count + 1) % 2 ^ 32 ∧ (chanEvt t ch src).last = nowNs s ∧ (chanEvt t ch src).detail = d ∧
        (((chanEvt s ch src).window = true ∨ msgRouted s ch src = false ∨ s.boot.ready = false) →
          (chanEvt t ch src).held = (chanEvt s ch src).held + 1 ∧ (chanOf t ch).outq = (chanOf s ch).outq))) ∧
      (∀ fn : Fn, (seesEvt s src owners fn = true → bit (routeOf s fn (src / 32)).vecMask (src % 32) = true → bit (evtRegs t fn (src / 32)).pend (src % 32) = true) ∧
        (seesEvt s src owners fn = false → funcOf t fn = funcOf s fn) ∧
        (bit (routeOf s fn (src / 32)).vecMask (src % 32) = false → { funcOf t fn with msixPend := (funcOf s fn).msixPend } = funcOf s fn))) ∧
  (
    ∀ (s : State) (fn : Fn) (g : Fin 32) (w : Word), hostSees s fn = true → let e := evtRegs s fn g
      (booting s = false → exec (.evtPendRead fn g) s = .next (emit (.readData fn e.pend) (setEvtRegs fn g { e with fresh := 0 } s))) ∧
      (booting s = true → exec (.evtPendRead fn g) s = .next (emit (.readData fn 0) s)) ∧
      (w &&& e.pend &&& e.fresh &&& ~~~e.mask = 0 → exec (.evtPendClear fn g w) s = .next (
        setEvtRegs fn g { e with pend := e.pend &&& ~~~(w &&& ~~~e.fresh) } s)) ∧
      (e.fresh = 0 → exec (.evtPendClear fn g w) s = .next (setEvtRegs fn g { e with pend := e.pend &&& ~~~w } s)) ∧
      (w &&& e.pend &&& e.fresh &&& ~~~e.mask ≠ 0 → exec (.evtPendClear fn g w) s = .next (msix fn (routeOf s fn g).vector
        (setEvtRegs fn g { e with pend := e.pend &&& ~~~(w &&& ~~~e.fresh) } s))) ∧
      (e.mask &&& ~~~w &&& e.pend = 0 → exec (.evtMaskWrite fn g w) s = .next (setEvtRegs fn g { e with mask := w } s)) ∧
      (e.mask &&& ~~~w &&& e.pend ≠ 0 →
        exec (.evtMaskWrite fn g w) s = .next (msix fn (routeOf s fn g).vector (setEvtRegs fn g { e with mask := w } s))) ∧
      (∀ v : Fin 32, let f := funcOf s fn
        let t := setFunc fn { f with msixMask := kset f.msixMask v false, msixPend := kerase f.msixPend v } s
        exec (.msixVectorUnmask fn v) s = .next (if kgetD f.msixPend v false then emit (.msix fn v) t else t)) ∧
      exec (.tbSnapTake fn) s = .next (let t := tick s
        setFunc fn { funcOf t fn with snap := {
          valid := true, seq := ((funcOf t fn).snap.seq + 1) % 256, freqSrc := freqInUse t.time, phaseSrc := phaseInUse t.time, state := t.time.st.code,
          ns := t.tb / 2 ^ 40 % 2 ^ 64, frac := t.tb % 2 ^ 40, utc := bitsOf [t.time.cfg.leap61, t.time.cfg.leap59] * 2 ^ 16 + t.time.cfg.utc,
          freq := t.time.y } } t))

/-- R78: SESSION_OPEN chooses the highest version that the device has and the caller's range holds, and answers it with the channel's
identity; where there is none it answers VERSION with the range it has, and no session opens. R100: a ping returns its words. -/
def Obligations.SessionsOpenCloseAndPing : Prop :=
  (
    ∀ lo hi v : Nat, negotiate lo hi = some v ↔
      (v ∈ [0x0200, 0x0201, 0x0300, 0x0301, 0x0302] ∧ lo ≤ v ∧ v ≤ hi ∧ ∀ x ∈ [0x0200, 0x0201, 0x0300, 0x0301, 0x0302], lo ≤ x → x ≤ hi → x ≤ v)) ∧
  (
    ∀ (c : Call) (s : State),
      (Served sessionOpenSpec c s → (chanOf (readCall 0x0001 c s) c.chan).session = none → let u := readCall 0x0001 c s; let w := pw c.words 0
        (∀ v, negotiate (fld w 15 0) (fld w 31 16) = some v → Answered (.sessionOpen c) sessionOpenSpec c s
          [wd v, put c.chan 16 ||| putb (sliceOf u c.chan).isSome 8 ||| wd ((sliceOf u c.chan).getD 0)] (setChan c.chan { chanOf u c.chan with session := some v } u)) ∧
        (negotiate (fld w 15 0) (fld w 31 16) = none → exec (.sessionOpen c) s = .next (respond 0x0001 c .version [0x03020200] u))) ∧
      (Served sessionPingSpec c s → Answered (.sessionPing c) sessionPingSpec c s (c.words.take 14) (readCall 0x0003 c s)))

/-- R81, R82, R84 to R88: a transaction is opened under a handle of its channel, queried, rolled back, committed to an apply point or
refused as one whole, and dropped after its idle time with event 961. R77, R80: closing a session drops the channel's open transactions, the
calls that wait and the responses in its backlog, and stops its event messages; opening one closes the one before, whatever the answer.
That the event messages of its backlog stay is the model's choice (notes/assumptions/49). -/
def Obligations.TransactionsOpenAndClose : Prop :=
  ∀ (c : Call) (s : State),
    (Served txnBeginSpec c s → let u := readCall 0x0010 c s; let x := chanOf u c.chan; let h := c.chan.val * 65536 + x.txnSerial
      ((openTxns u).filter fun t => t.chan = c.chan.val).length < 4 → (openTxns u).length < 64 →
      Answered (.txnBegin c) txnBeginSpec c s [wd h]
        (setTxns (u.ctl.txns ++ [⟨h, c.chan, false, [], .opened, [], none⟩]) (setChan c.chan { x with txnSerial := nextSerial c.chan x.txnSerial } u))) ∧
    (∀ t, Served txnQuerySpec c s → let u := readCall 0x0013 c s; findTxn u c.chan (pw c.words 0).toNat = some t →
      Answered (.txnQuery c) txnQuerySpec c s [match t.phase with | .opened => 0 | .accepted _ => 1 | .applied => 2, wd (itemCount t.items)] u) ∧
    (∀ t, Served txnRollbackSpec c s → let u := readCall 0x0012 c s; findTxn u c.chan (pw c.words 0).toNat = some t → t.phase = .opened →
      Answered (.txnRollback c) txnRollbackSpec c s [] (dropTxn c.chan (pw c.words 0).toNat u)) ∧
    (∀ t, Served txnCommitSpec c s → let u := readCall 0x0011 c s; let target := applyPointFor u.tb (fld (pw c.words 1) 12 0)
      (c.words.length = 1 ∨ 0x0300 ≤ versionOf u c.chan) → fld (pw c.words 1) 12 0 ≤ 8000 →
      findTxn u c.chan (pw c.words 0).toNat = some t → t.phase = .opened →
      (judgeItems t.items target u = none →
        exec (.txnCommit c) s = .next (accept t target (refFor 0x0011 c u) (dropTxn c.chan (pw c.words 0).toNat u))) ∧
      (∀ i e, judgeItems t.items target u = some (i, e) → 0x0300 < versionOf u c.chan →
        exec (.txnCommit c) s = .next (respond 0x0011 c .validation [wd i, wd e.code] (dropTxn c.chan (pw c.words 0).toNat u))) ∧
      (∀ i e, judgeItems t.items target u = some (i, e) → versionOf u c.chan ≤ 0x0300 →
        exec (.txnCommit c) s = .next (respond 0x0011 c .validation [] (dropTxn c.chan (pw c.words 0).toNat u)))) ∧
    (let u := readCall 0x0011 c s; Served txnCommitSpec c s → (c.words.length = 1 ∨ 0x0300 ≤ versionOf u c.chan) → fld (pw c.words 1) 12 0 ≤ 8000 →
      findTxn u c.chan (pw c.words 0).toNat = none → exec (.txnCommit c) s = .next (respond 0x0011 c .txnUnknown [] u)) ∧
    (∀ (h : Word) t, let ch := h.toNat / 65536 % 256; findTxn s ch h.toNat = some t → t.phase = .opened →
      exec (.txnIdleTimeout h) s = .next (raise 961 (sliceOf s ch).toList [h] (dropTxn ch h.toNat s))) ∧
    (let closed (u : State) : State := let x := chanOf u c.chan
        setChan c.chan { x with
          session := none, waiting := [], report := none, backlog := x.backlog.filter (·.event), routes := kmap x.routes fun _ r => { r with msgMask := 0 } } (setTxns (u.ctl.txns.filter fun t => t.chan ≠ c.chan.val ∨ t.phase ≠ .opened) u);
      (Served sessionCloseSpec c s → Answered (.sessionClose c) sessionCloseSpec c s [] (closed (readCall 0x0002 c s))) ∧
      (Served sessionOpenSpec c s → (chanOf (readCall 0x0001 c s) c.chan).session.isSome = true → let w := pw c.words 0; let t := closed (readCall 0x0001 c s)
        (∀ v, negotiate (fld w 15 0) (fld w 31 16) = some v → Answered (.sessionOpen c) sessionOpenSpec c s
          [wd v, put c.chan 16 ||| putb (sliceOf t c.chan).isSome 8 ||| wd ((sliceOf t c.chan).getD 0)] (setChan c.chan { chanOf t c.chan with session := some v } t)) ∧
        (negotiate (fld w 15 0) (fld w 31 16) = none → exec (.sessionOpen c) s = .next (respond 0x0001 c .version [0x03020200] t))))

/-- R81 to R83, R85: each of the 92 rows whose call is transactional stages its item under its handle, or with handle 0 is accepted for the
next apply point as a transaction of its own; what its handle, its arguments, another transaction, the limit on items or its validation
refuses stages nothing (their order is the model's: notes/assumptions/122). -/
def Obligations.TransactionalCallsStageOrAccept : Prop :=
  ∀ (i : Instr) (t : TxnCall) (c : Call) (s : State), txnRow i = some (t, c) → Served t.spec c s →
    let u := readCall t.spec.code c s; let h := (pw c.words 0).toNat; let it := itemOf t.spec c [] u
    (∀ x objs, h ≠ 0 → findTxn u c.chan h = some x → x.phase = .opened → t.objs u it = .ok objs →
      (heldElsewhere u c.chan h objs = false → itemCount x.items + objs.length ≤ 16384 → Answered i t.spec c s [] (modTxn c.chan h (fun x =>
        { x with items := x.items ++ [{ it with objs := objs }], holds := x.holds ++ objs.filter fun o => !x.holds.contains o }) u)) ∧
      (heldElsewhere u c.chan h objs = true → exec i s = .next (respond t.spec.code c .busyObject [] u)) ∧
      (heldElsewhere u c.chan h objs = false → 16384 < itemCount x.items + objs.length → exec i s = .next (respond t.spec.code c .txnFull [] u))) ∧
    (∀ x e, h ≠ 0 → findTxn u c.chan h = some x → x.phase = .opened → t.objs u it = .error e → exec i s = .next (respond t.spec.code c e [] u)) ∧
    (∀ objs, h = 0 → t.objs u it = .ok objs → let target := applyPointFor u.tb 0
      ((∃ o ∈ objs, isHeld u o = true) → exec i s = .next (respond t.spec.code c .busyObject [] u)) ∧
      ((∀ o ∈ objs, isHeld u o = false) → (∀ n e, judgeItems [{ it with objs := objs }] target u = some (n, e) →
        exec i s = .next (respond t.spec.code c e [] u)) ∧
        (judgeItems [{ it with objs := objs }] target u = none →
          exec i s = .next (accept ⟨0, c.chan, true, [{ it with objs := objs }], .opened, objs, none⟩ target (refFor t.spec.code c u) u)))) ∧
    (∀ e, h = 0 → t.objs u it = .error e → exec i s = .next (respond t.spec.code c e [] u)) ∧
    (h ≠ 0 → (∀ x, findTxn u c.chan h = some x → x.phase ≠ .opened) → exec i s = .next (respond t.spec.code c .txnUnknown [] u))

/-- R39, R40, R81, R85, R560: at an apply point the accepted transactions that have reached theirs take effect in the order of their apply
points, and within one in that of their acceptance, each item running its call's effect on the state the item before left, and the call
that waits is answered; what an object still waits for keeps it held; a transaction that is not due stays. An item that is refused by then
is dropped alone and its commit is answered DONE, as the model chooses (notes/assumptions/124). -/
def Obligations.AcceptedTransactionsApply : Prop :=
  (∀ (i : Instr) (t : TxnCall) (c : Call) (objs : List Obj) (u s : State), txnRow i = some (t, c) → applyItem (itemOf t.spec c objs u) s = t.apply (itemOf t.spec c objs u) s) ∧
  (∀ (s : State) (now : Nat), (∀ t ∈ s.ctl.txns, ∀ a, t.phase = .accepted a → now < a) → applyTxns now s = s) ∧
  (∀ (s : State) (now : Nat), let at_ (t : Txn) : Nat := (acceptedAt t).getD 0
    applyTxns now s = ((acceptedTxns s).filter fun t => decide (at_ t ≤ now)).foldl (fun s t => takeEffect t (at_ t) s)
      (setTxns (s.ctl.txns.filter fun t => match acceptedAt t with | some a => decide (now < a) | none => true) s) ∧
    (acceptedTxns s).Perm (s.ctl.txns.filter fun t => (acceptedAt t).isSome) ∧ (acceptedTxns s).Pairwise (fun t u => at_ t ≤ at_ u) ∧
    ∀ a : Nat, (acceptedTxns s).filter (fun t => acceptedAt t = some a) = s.ctl.txns.filter fun t => acceptedAt t = some a) ∧
  (∀ (s : State) (t : Txn) (a : Nat), let y := t.items.foldl (fun s i => match applyItem i s with | .ok u => u | .error _ => s) s
    let left := t.holds.filter y.ctl.later.contains
    let z := if left = [] then y else setTxns (y.ctl.txns ++ [{ t with phase := .applied, holds := left, ref := none }]) y
    takeEffect t a s = match t.ref with
      | none => z
      | some r => answer r .done (if r.code = 0x0011 then toWords 2 (a / 2 ^ 40) else []) z)

/-- R100, R102, R133, R168, R209, R271, R305, by the layouts of their calls: what items of families 0x00 to 0x06 and 0x0F write when they
take effect, and what they leave. The model's choices among them: what ONU_DEACTIVATE does to an ONU that is HELD or DEACTIVATING
(notes/assumptions/35), and BAD_ARG of a set for a slice that does not exist (notes/assumptions/169). -/
def Obligations.ControlItemsTakeEffect : Prop :=
  ∀ (i : Item) (s : State), let w := pw i.words 1; let v := pw i.words 2; let p := pierName w
    (s.ctl.slices.contains (fld w 3 0) = false → s.ciph.healthy = true → sliceCreate.apply i s = .ok (drawXts (fld w 3 0) { s with ctl := { s.ctl with slices := sinsert s.ctl.slices (fld w 3 0) } })) ∧
    (s.ciph.healthy = false → sliceCreate.apply i s = .error .badState) ∧
    (s.ctl.slices.contains (fld w 3 0) = true → sliceCreate.apply i s = .error .badState ∧ (sliceInUse s (fld w 3 0) = true → sliceDelete.apply i s = .error .badState)) ∧
    (let k := fld w 3 0; s.ctl.slices.contains k = true → sliceInUse s k = false → boundTo s k = [] → sliceDelete.apply i s = .ok (dropXts k { s with
        ctl := { s.ctl with
          slices := s.ctl.slices.filter (· ≠ k), onuRanges := kfilter s.ctl.onuRanges fun j _ => j / 32 ≠ k,
          allocRanges := kfilter s.ctl.allocRanges fun j _ => j / 32 ≠ k, vrfOwners := kfilter s.ctl.vrfOwners fun _ v => v ≠ k }
        fwd := { s.fwd with ranges := kerase s.fwd.ranges k } })) ∧
    (s.ctl.slices.contains (fld w 3 0) = false ∨ boundTo s (fld w 3 0) ≠ [] → sliceDelete.apply i s = .error .badState) ∧
    (bit w 31 = true → (kget s.ctl.binds (fld w 15 8) = none → sliceBind.apply i s = .error .badState) ∧
      ((kget s.ctl.binds (fld w 15 8)).isSome = true → sliceBind.apply i s = .ok { s with ctl := { s.ctl with binds := kerase s.ctl.binds (fld w 15 8) } })) ∧
    (bit w 31 = false → s.ctl.slices.contains (fld w 3 0) = false → sliceBind.apply i s = .error .badArg) ∧
    (bit w 31 = false → s.ctl.slices.contains (fld w 3 0) = true → boundTo s (fld w 3 0) = [] → ∃ t, sliceBind.apply i s = .ok t ∧
      (∀ n, kget t.ctl.binds n = if n = fld w 15 8 then some (fld w 3 0) else kget s.ctl.binds n) ∧ { t with ctl := { t.ctl with binds := s.ctl.binds } } = s) ∧
    (∃ t, cleatAssign.apply i s = .ok t ∧ (∀ n, cleatOf t n = if n = fld w 5 0 then { cleatOf s n with mask := fld v 15 0, smb := bit v 18 } else cleatOf s n) ∧ { t with ctl := s.ctl } = s) ∧
    (∃ t, evtRouteSet.apply i s = .ok t ∧ (∀ g, routeOf t i.chan g = if g = fld w 4 0 then
        { msgMask := realBits g v, vecMask := if i.chan = 18 then 0 else realBits g (pw i.words 3), vector := fld (pw i.words 4) 4 0 } else routeOf s i.chan g) ∧
      (∀ k, k ≠ i.chan → chanOf t k = chanOf s k) ∧ { t with ctl := s.ctl } = s) ∧
    (∃ t, avsConfig.apply i s = .ok t ∧ t.pwr.raise = fld w 15 0 ∧ t.pwr.lower = fld w 31 16 ∧ t.pwr.doms = s.pwr.doms ∧ { t with pwr := s.pwr } = s) ∧
    thermalConfig.apply i s = .ok { s with pwr := { s.pwr with warn := fld w 6 0 } } ∧
    ((spanOf s p.1).st = .closed → ∃ t, pierConfig.apply i s = .ok t ∧ (let x := pierOf t p.1 p.2
        x.enable = bit v 31 ∧ x.fecDs = bit v 8 ∧ x.xg = bit v 4 ∧ x.hRates = fld v 2 0 ∧ x.bpCycle = fld (pw i.words 3) 12 0 ∧ x.ponId = pw i.words 4) ∧ { t with pon := s.pon } = s) ∧
    ((spanOf s p.1).st ≠ .closed → (pierOf s p.1 p.2).enable ≠ bit v 31 → pierConfig.apply i s = .error .badState) ∧
    (∃ t, pierDefectConfig.apply i s = .ok t ∧ (let x := pierOf t p.1 p.2
        x.lobN = fld v 27 24 ∧ x.sdExp = fld v 19 16 ∧ x.sfExp = fld v 11 8 ∧ x.auto = bit v 3 ∧ x.losFrames = fld (pw i.words 3) 31 24 ∧ x.lobDeact = fld (pw i.words 3) 15 0) ∧ { t with pon := s.pon } = s) ∧
    (∃ t, pierProfileSet.apply i s = .ok t ∧ (∀ n, kget (pierOf t p.1 p.2).profs n = if n = fld v 17 16 then some (profOf i.words) else kget (pierOf s p.1 p.2).profs n) ∧ (pierOf t p.1 p.2).announce = 3 ∧ { t with pon := s.pon } = s) ∧
    (∃ t, spliceConfig.apply i s = .ok t ∧ (let x := pierOf t p.1 p.2; x.spliceFails = fld v 19 16 ∧ x.spliceAge = fld v 9 0 ∧ x.spliceMse = fld (pw i.words 3) 7 0) ∧
      t = forEach (onusOf s p.1) (judgeSplice p.1) (setPier p.1 p.2 { pierOf s p.1 p.2 with spliceFails := fld v 19 16, spliceAge := fld v 9 0, spliceMse := fld (pw i.words 3) 7 0 } s)) ∧
    (let z := spliceName w; ∃ t, spliceClear.apply i s = .ok t ∧ (onuOf t z.1 z.2).splice = { (onuOf s z.1 z.2).splice with valid := false } ∧
      (∀ a b, b < 512 → (a, b) ≠ z → onuOf t a b = onuOf s a b) ∧ { t with pon := s.pon, ctl := s.ctl, out := s.out } = s) ∧
    (let z := spliceName w; let e := expectOf i.words; let x := onuOf s z.1 z.2
      let put (s : State) : State := modOnu z.1 z.2 (fun x => { x with expect := some e, pier := if x.st = .inactive then e.pier else x.pier }) s;
      (pierClash s z.1 z.2 e.pier = true → onuExpectSet.apply i s = .error .badState) ∧ (pierClash s z.1 z.2 e.pier = false →
        (∀ f, x.expect = some f → f.serial = e.serial → f.pier = e.pier → f.reg = e.reg → onuExpectSet.apply i s = .ok (put s)) ∧
        ((∀ f, x.expect = some f → f.serial ≠ e.serial ∨ f.pier ≠ e.pier ∨ f.reg ≠ e.reg) → onuExpectSet.apply i s =
          .ok (put (if x.st = .deactivating then s else deactivate z.1 z.2 false s))))) ∧
    (let o := onuName w; (onuOf s o.1 o.2).expect.isSome = true → onuExpectDelete.apply i s =
      .ok (modOnu o.1 o.2 (fun x => { x with expect := none }) (if (onuOf s o.1 o.2).st = .deactivating then s else deactivate o.1 o.2 false s))) ∧
    (let o := onuName v; let n := fld w 5 0; let x := onuOf s o.1 o.2; let check := decide (i.words.length = 12); let reg := bytesOfWords (i.words.drop 3)
      let say (st : Res State) : Prop := onuAuthorise.apply i s = st;
      ((spanOf s o.1).standby = true → say (.ok s)) ∧ ((spanOf s o.1).standby = false →
        (x.st = .disabled → bit v 31 = false → say (.error .badState)) ∧
        (x.st = .disabled → bit v 31 = true → say (.ok (setOnuSt o.1 o.2 .inactive 0 (serialMsg o.1 o.2 false (if check then
          modOnu o.1 o.2 (fun y => { y with expect := y.expect.map fun e => { e with regCheck := true, reg := reg } }) s else s))))) ∧
        (x.st ≠ .disabled → kget (spanOf s o.1).disc n = none → say (.error .badArg)) ∧
        (∀ e, x.st ≠ .disabled → kget (spanOf s o.1).disc n = some e → let left := modSpan o.1 (fun y => { y with disc := kerase y.disc n }) s
          (e.cause ≠ 1 → i.slice ≠ some 0 → say (.error .notOwner)) ∧ (e.cause = 1 ∨ i.slice = some 0 →
            (x.st ≠ .inactive → ¬(x.st = .held ∧ e.onu = some o.2) → say (.error .badState)) ∧ (x.st = .inactive ∨ (x.st = .held ∧ e.onu = some o.2) →
              (bit v 31 = true → pierClash s o.1 o.2 e.pier = true → say (.error .badState)) ∧
              (bit v 31 = true → pierClash s o.1 o.2 e.pier = false → say (.ok (modOnu o.1 o.2 (fun y => { y with
                expect := some ⟨e.pier, e.serial, true, check, if check then reg else List.replicate 36 0⟩, pier := if y.st = .inactive then e.pier else y.pier, accepted := true }) left))) ∧
              (bit v 31 = false → say (.ok (leaveTo o.1 o.2 .disabled 0 true (serialMsg o.1 o.2 true
                (modOnu o.1 o.2 (fun y => { y with serial := e.serial, pier := e.pier }) left)))))))))) ∧
    (let o := onuName w; ((onuOf s o.1 o.2).expect = none → onuExpectDelete.apply i s = .error .badState) ∧
      ((onuOf s o.1 o.2).st ≠ .inactive → (onuOf s o.1 o.2).st ≠ .disabled → onuDeactivate.apply i s = .ok (deactivate o.1 o.2 (bit w 31) s)) ∧
      ((spanOf s o.1).standby = false → (onuOf s o.1 o.2).st = .inactive ∨ (onuOf s o.1 o.2).st = .disabled → onuDeactivate.apply i s = .error .badState)) ∧
    (fld v 1 0 ≠ 2 → discoveryConfig.apply i s = .ok (modSpan (fld w 4 0) (fun x => { x with discPeriod := fld v 31 16, rogueIsolate := bit v 8, policy := fld v 1 0 }) s)) ∧
    ((spanOf s p.1).st = .closed → ∃ t, rangeCalSet.apply i s = .ok t ∧ (let x := pierOf t p.1 p.2
        x.tTx = fld v 31 16 ∧ x.tRx = fld v 15 0 ∧ x.nDown = fld (pw i.words 3) 20 0 ∧ x.nUp = fld (pw i.words 4) 20 0) ∧ { t with pon := s.pon } = s) ∧
    ((spanOf s p.1).st ≠ .closed → (let x := pierOf s p.1 p.2; ¬(x.tTx = fld v 31 16 ∧ x.tRx = fld v 15 0 ∧ x.nDown = fld (pw i.words 3) 20 0 ∧ x.nUp = fld (pw i.words 4) 20 0)) →
      rangeCalSet.apply i s = .error .badState) ∧
    (let sp := fld w 4 0; (spanOf s sp).st = .closed → ∃ t, reachConfig.apply i s = .ok t ∧ (let x := spanOf t sp
        x.reachMax = fld v 31 16 ∧ x.reachMin = fld v 15 0 ∧ x.diff = fld (pw i.words 3) 31 16 ∧ x.reachMargin = fld (pw i.words 3) 15 0) ∧
      { t with pon := { t.pon with spans := s.pon.spans }, ctl := s.ctl, red := s.red, out := s.out } = s) ∧
    (let sp := fld w 4 0; let x := spanOf s sp; x.st ≠ .closed → (fld v 31 16 ≠ x.reachMax ∨ fld v 15 0 ≠ x.reachMin) → reachConfig.apply i s = .error .badState) ∧
    (∃ t, driftConfig.apply i s = .ok t ∧ (let x := pierOf t p.1 p.2; x.driftK = fld v 27 24 ∧ x.corrUnits = fld v 22 16 ∧ x.margin = fld v 6 0 ∧ x.dfRerange = bit (pw i.words 3) 31 ∧ x.driftMax = fld (pw i.words 3) 13 0) ∧ { t with pon := s.pon } = s) ∧
    (∃ t, stbyDeltaConfig.apply i s = .ok t ∧ (pierOf t p.1 p.2).unifTol = fld v 31 16 ∧ (pierOf t p.1 p.2).outlierMax = fld v 6 0 ∧ { t with pon := s.pon, ctl := s.ctl, out := s.out } = s) ∧
    (let a := allocName w; let o := fld v 24 16; (pierOfOnu s a.1 o = none → allocSet.apply i s = .error .badState) ∧
      (∀ p, pierOfOnu s a.1 o = some p → let x := allocFrom i.version i.words p
        (lineOk p x.line = false → allocSet.apply i s = .error .badArg) ∧ (lineOk p x.line = true →
        (p ≠ 0 ∨ i.version < 0x0300 ∨ (validProf s a.1 p x.shortProf).all (·.splice) = true) →
        ((∃ e ∈ s.pon.allocs, e.1 / 2048 = a.1 ∧ e.1 % 2048 ≠ a.2 ∧ e.2.pier = p ∧ e.2.line = x.line) → allocSet.apply i s = .error .noSpace) ∧
        ((∀ e ∈ s.pon.allocs, e.1 / 2048 = a.1 → e.1 % 2048 ≠ a.2 → e.2.pier = p → e.2.line ≠ x.line) → ∃ t, allocSet.apply i s = .ok t ∧
          (∀ b, b < 2048 → b ≠ a.2 → allocOf t a.1 b = allocOf s a.1 b) ∧ { t with pon := { t.pon with allocs := s.pon.allocs, piers := s.pon.piers } } = s ∧
          ((onuOf s a.1 o).st ≠ .active → (allocOf s a.1 a.2 = none ∨ ∃ y, allocOf s a.1 a.2 = some y ∧ y.onu = x.onu ∧ y.line = x.line ∧ y.pier = x.pier) →
            t.pon.piers = s.pon.piers) ∧
          (∀ y, allocOf t a.1 a.2 = some y → y.onu = o ∧ y.pier = p ∧ y.line = x.line ∧ y.mode = x.mode ∧ y.policy = x.policy ∧ y.weight = x.weight ∧ y.poll = x.poll ∧
            y.si = x.si ∧ y.siPhase = x.siPhase ∧ y.rf = x.rf ∧ y.ra = x.ra ∧ y.rna = x.rna ∧ y.rm = x.rm ∧ y.place = x.place ∧ y.longProf = x.longProf ∧ y.shortProf = x.shortProf ∧
            (∀ z, allocOf s a.1 a.2 = some z → z.onu = x.onu → z.line = x.line → z.pier = x.pier → y.d = z.d ∧ y.report = z.report ∧ y.hist = z.hist ∧ y.tmBytes = z.tmBytes) ∧
            (allocOf s a.1 a.2 = none → y = x)) ∧ (allocOf t a.1 a.2).isSome = true)))) ∧
    (allocOf s (allocName w).1 (allocName w).2 = none → allocDelete.apply i s = .error .badState) ∧
    (∀ x, allocOf s (allocName w).1 (allocName w).2 = some x → allocDelete.apply i s = .ok (deallocMsg (allocName w).1 (allocName w).2 x
      { s with pon := { s.pon with allocs := kerase s.pon.allocs (2048 * (allocName w).1 + (allocName w).2) } })) ∧
    (s.ctl.slices.contains (fld w 19 16) = true → ∃ t, sliceBudgetSet.apply i s = .ok t ∧ (∀ q, q ≤ 2 → budgetOf t (fld w 19 16) (fld w 4 0) q = fld (pw i.words (2 + q)) 15 0) ∧
      { t with pon := { t.pon with budgets := s.pon.budgets } } = s) ∧
    (s.ctl.slices.contains (fld w 19 16) = false → sliceBudgetSet.apply i s = .error .badArg ∧ openBind.apply i s = .error .badArg) ∧
    trussConfig.apply i s = .ok (modSpan (fld w 4 0) (fun x => { x with blockG := fld v 31 24, ploamuPeriod := fld v 21 16, shareIdle := fld v 10 8, tmStep := fld (pw i.words 3) 19 0 }) s) ∧
    (bit w 0 = false → s.pon.inactive = none → openActivate.apply i s = .error .badState) ∧
    (∀ g, bit w 0 = false → bit w 1 = false → s.pon.inactive = some g → ∃ t, openActivate.apply i s = .ok t ∧ t.pon.active = some g ∧ t.pon.openOff = false ∧
      t.pon.inactive = s.pon.active ∧ (∀ sp, sp < 32 → domLive s sp = true → (spanOf t sp).truss.page = some g ∧ (spanOf t sp).truss.spare = s.pon.active) ∧
      { t with pon := { t.pon with active := s.pon.active, inactive := s.pon.inactive, openOff := s.pon.openOff, spans := s.pon.spans } } = s) ∧
    (bit w 0 = true → ∃ t, openActivate.apply i s = .ok t ∧ t.pon.openOff = true ∧ t.pon.active = s.pon.inactive ∧ t.pon.inactive = s.pon.active ∧
      (∀ sp, sp < 32 → domLive s sp = true → (spanOf t sp).truss.page = none)) ∧
    (bit w 31 = true → s.ctl.slices.contains (fld w 19 16) = true → (kget s.pon.binds (fld w 19 16) = none → openBind.apply i s = .error .badState) ∧
      ((kget s.pon.binds (fld w 19 16)).isSome = true → openBind.apply i s = .ok { s with pon := { s.pon with binds := kerase s.pon.binds (fld w 19 16) } })) ∧
    (bit w 31 = false → s.ctl.slices.contains (fld w 19 16) = true → ∃ t, openBind.apply i s = .ok t ∧
      (∀ k, kget t.pon.binds k = if k = fld w 19 16 then some (fld w 3 0, fld v 11 0) else kget s.pon.binds k) ∧ kget t.pon.limits (fld w 19 16) = some (fld v 11 0) ∧
      { t with pon := { t.pon with binds := s.pon.binds, limits := s.pon.limits } } = s) ∧
    (bit w 31 = false → trussMcConfig.apply i s = .ok (modSpan (fld w 4 0) (fun x => { x with finishLead := fld v 15 0 }) s))

/-- R342, R367, R390, by the layouts of their calls: what items of families 0x07 to 0x09 write when they take effect, and what they leave.
The model's choices among them: a Pier with no gate list takes a new one at once (notes/assumptions/21), and a set for a slice that does not
exist is BAD_ARG (notes/assumptions/169). -/
def Obligations.ForwardingItemsTakeEffect : Prop :=
  ∀ (i : Item) (s : State), let w := pw i.words 1; let v := pw i.words 2
    (∃ t, distSet.apply i s = .ok t ∧ (∀ n, kgetD t.fwd.dist n 0 = if n = fld w 11 0 then fld w 27 24 else kgetD s.fwd.dist n 0) ∧ { t with fwd := { t.fwd with dist := s.fwd.dist } } = s) ∧
    (∃ t, distPvidSet.apply i s = .ok t ∧ (∀ n, kgetD t.fwd.pvid n 1 = if n = fld w 20 16 then fld w 11 0 else kgetD s.fwd.pvid n 1) ∧ { t with fwd := { t.fwd with pvid := s.fwd.pvid } } = s) ∧
    (∃ t, vlanSet.apply i s = .ok t ∧ (∀ p, (p ∉ pipesOf w → pipeOf t p = pipeOf s p) ∧ (p ∈ pipesOf w → ∀ n, kget (pipeOf t p).vlans n = if n = fld w 11 0 then
        some { mode := fld v 31 30, tagOp := fld v 29 28, tcSrc := fld v 27 26, tc := fld v 25 23, domain := fld v 13 0, trapMask := fld (pw i.words 3) 15 0 } else kget (pipeOf s p).vlans n)) ∧
      { t with fwd := { t.fwd with pipes := s.fwd.pipes } } = s) ∧
    (0x0300 ≤ i.version → ∃ t, bdSet.apply i s = .ok t ∧ (∀ p, (p ∉ pipesOf w → pipeOf t p = pipeOf s p) ∧ (p ∈ pipesOf w → ∀ n, kget (pipeOf t p).bridges n = if n = fld w 13 0 then
        some { learn := bit v 31, flood := bit v 30, xpFlush := bit v 29, agingClass := fld v 25 24, svAction := fld v 21 20, repl := fld v 11 0 } else kget (pipeOf s p).bridges n)) ∧
      { t with fwd := { t.fwd with pipes := s.fwd.pipes } } = s) ∧
    (∃ t, replSet.apply i s = .ok t ∧ (∀ n, kget (pipeOf t (fld w 29 28)).repl n = if n = fld w 11 0 then some (replQueues i.words) else kget (pipeOf s (fld w 29 28)).repl n) ∧ { t with fwd := { t.fwd with pipes := s.fwd.pipes } } = s) ∧
    (pierOfOnu s (fld w 4 0) (fld v 24 16) = none → portSet.apply i s = .error .badState) ∧
    (∀ p, pierOfOnu s (fld w 4 0) (fld v 24 16) = some p → (p ≠ 2 ∨ (portRecOf i.words p).portId ≤ 4095) →
      (∀ e ∈ s.fwd.ports, e.1 / 8192 = fld w 4 0 → e.1 = portKey w ∨ e.2.pier ≠ p ∨ e.2.portId ≠ (portRecOf i.words p).portId) →
      ∃ t, portSet.apply i s = .ok t ∧ (∀ k, kget t.fwd.ports k = if k = portKey w then some (portRecOf i.words p) else kget s.fwd.ports k) ∧ { t with fwd := { t.fwd with ports := s.fwd.ports } } = s) ∧
    (kget s.fwd.ports (portKey w) = none → portDelete.apply i s = .error .badState) ∧
    ((kget s.fwd.ports (portKey w)).isSome = true → let q := fld w 4 0 / 8
      let y := removeLearned (pipeOf s q) fun e => resSpan e.res = fld w 4 0 && resPort e.res = fld w 28 16
      ∃ t, portDelete.apply i s = .ok t ∧ t.fwd.ports = kerase s.fwd.ports (portKey w) ∧ t.fwd.policers = kerase s.fwd.policers (portKey w) ∧
        { pipeOf t q with hiTold := y.hiTold, ovTold := y.ovTold } = y ∧ (∀ p, p ≠ q → pipeOf t p = pipeOf s p) ∧
        { t with fwd := { t.fwd with ports := s.fwd.ports, policers := s.fwd.policers, pipes := s.fwd.pipes }, ctl := s.ctl, out := s.out } = s) ∧
    (∀ (key : Nat) (r : BitVec 64), let put := putStatic (pipesOf w) key r s
      ((∃ p ∈ pipesOf w, insertEntry (pipeOf s p) ⟨key, asStatic r⟩ true = none) → put = .error .noSpace) ∧
      ((∀ p ∈ pipesOf w, (insertEntry (pipeOf s p) ⟨key, asStatic r⟩ true).isSome = true) → ∃ t, put = .ok t ∧ (∀ p, p ∉ pipesOf w → pipeOf t p = pipeOf s p) ∧
        (∀ p ∈ pipesOf w, (pipeOf t p).staticCfg = kset (pipeOf s p).staticCfg key r ∧ ∀ e, insertEntry (pipeOf s p) ⟨key, asStatic r⟩ true = some e →
          { pipeOf t p with staticCfg := e.pipe.staticCfg, hiTold := e.pipe.hiTold, ovTold := e.pipe.ovTold } = e.pipe) ∧
        { t with fwd := { t.fwd with pipes := s.fwd.pipes }, ctl := s.ctl, out := s.out } = s)) ∧
    fdbStaticSet.apply i s = putStatic (pipesOf w) (wide i.words 2 4) (res64 i.words 6) s ∧
    (let cut (key : Nat) (t : State) : Prop := (∀ p, p ∉ pipesOf w → pipeOf t p = pipeOf s p) ∧
        (∀ p ∈ pipesOf w, let y := removeKey (pipeOf s p) key; (pipeOf t p).staticCfg = kerase (pipeOf s p).staticCfg key ∧
          { pipeOf t p with staticCfg := y.staticCfg, hiTold := y.hiTold, ovTold := y.ovTold } = y) ∧
        { t with fwd := { t.fwd with pipes := s.fwd.pipes }, ctl := s.ctl, out := s.out } = s;
      (∃ t, fdbDelete.apply i s = .ok t ∧ cut (wide i.words 2 4) t) ∧
      (let r := routeFrom i.version w (wide i.words 2 4) 0; r.host = true →
        ((∃ p ∈ pipesOf w, kget (pipeOf s p).staticCfg (hostKey r.pre.vrf r.pre.addr) = none) → routeDelete.apply i s = .error .badState) ∧
        ((∀ p ∈ pipesOf w, (kget (pipeOf s p).staticCfg (hostKey r.pre.vrf r.pre.addr)).isSome = true) → ∃ t, routeDelete.apply i s = .ok t ∧ cut (hostKey r.pre.vrf r.pre.addr) t))) ∧
    (let r := routeFrom i.version w (wide i.words 2 4) (res64 i.words 6); let q : Prefix := { r.pre with res := asStatic r.pre.res }
      let new (p : Nat) : Pipe := let x := pipeOf s p; if (lpmFind x q.v6 q.vrf q.addr q.len).isSome then lpmRewrite x q else lpmInsert x q
      (r.host = true → routeSet.apply i s = putStatic (pipesOf w) (hostKey r.pre.vrf r.pre.addr) r.pre.res s) ∧
      (r.host = false → ((∃ p ∈ pipesOf w, 16384 < lpmUsed (new p)) → routeSet.apply i s = .error .noSpace) ∧
        ((∀ p ∈ pipesOf w, lpmUsed (new p) ≤ 16384) → ∃ t, routeSet.apply i s = .ok t ∧ (∀ p, pipeOf t p = if p ∈ pipesOf w then new p else pipeOf s p) ∧
          { t with fwd := { t.fwd with pipes := s.fwd.pipes } } = s))) ∧
    (let r := routeFrom i.version w (wide i.words 2 4) 0; let q := r.pre; r.host = false →
      ((∃ p ∈ pipesOf w, lpmFind (pipeOf s p) q.v6 q.vrf q.addr q.len = none) → routeDelete.apply i s = .error .badState) ∧
      ((∀ p ∈ pipesOf w, (lpmFind (pipeOf s p) q.v6 q.vrf q.addr q.len).isSome = true) → ∃ t, routeDelete.apply i s = .ok t ∧
        (∀ p, pipeOf t p = if p ∈ pipesOf w then lpmDelete (pipeOf s p) q.v6 q.vrf q.addr q.len else pipeOf s p) ∧ { t with fwd := { t.fwd with pipes := s.fwd.pipes } } = s)) ∧
    (let p := fld w 29 28; let x := pipeOf s p; let moved := decide (fld w 6 0 ≠ x.directBlocks ∨ v.toNat ≠ x.seed0 ∨ (pw i.words 3).toNat ≠ x.seed1)
      let free := (∀ n < 8, (spanOf s (8 * p + n)).st = .closed) ∧ x.staticCfg = []
      (moved = true → ¬free → fwdTableConfig.apply i s = .error .badState) ∧ (moved = false ∨ free →
        fwdTableConfig.apply i s = .ok (setPipe p { (if moved then { x with em := [], ov := [], direct := [], hiTold := false, ovTold := false } else x) with
          directBlocks := fld w 6 0, seed0 := v.toNat, seed1 := (pw i.words 3).toNat, ageTime := (List.range 4).map fun n => fld (pw i.words (4 + n)) 19 0,
          moveAlarm := if i.version < 0x0300 then x.moveAlarm else fld (pw i.words 8) 23 0 } s))) ∧
    (let g := fld w 29 28; let n := fld w 15 0; let par := fld (pw i.words 3) 12 0; bit w 24 = true → (l1At s g par = none → qnodeSet.apply i s = .error .badArg) ∧
      (∀ a, l1At s g par = some a → (i.slice ≠ some 0 → i.slice ≠ some (l1Owner s a.kind) → qnodeSet.apply i s = .error .notOwner) ∧
        (i.slice = some 0 ∨ i.slice = some (l1Owner s a.kind) → let kids := (s.fwd.l2.filter fun e => e.1 / 65536 = g && e.1 % 65536 ≠ n && e.2.parent = par).length
          let x : L2 := match l2At s g n with | some x => { x with parent := par } | none => { parent := par, sh := newShaper a.kind s.tb }
          (256 ≤ kids → qnodeSet.apply i s = .error .noSpace) ∧
          (kids < 256 → qnodeSet.apply i s = .ok { s with fwd := { s.fwd with l2 := kset s.fwd.l2 (65536 * g + n) x } })))) ∧
    (let g := fld w 29 28; let n := fld w 15 0; bit w 24 = false →
      (bit v 31 = false → pierOfOnu s (fld v 12 8) (fld v 24 16) = none → qnodeSet.apply i s = .error .badState) ∧
      (bit v 31 = false → (pierOfOnu s (fld v 12 8) (fld v 24 16)).isSome = true → (∃ e ∈ l1OfOnu s (fld v 12 8) (fld v 24 16), e.1 ≠ 8192 * g + n) →
        qnodeSet.apply i s = .error .badState) ∧
      (bit v 31 = true → s.ctl.slices.contains (fld v 3 0) = false → qnodeSet.apply i s = .error .badArg) ∧
      (∀ k : L1Kind, (bit v 31 = true ∧ s.ctl.slices.contains (fld v 3 0) = true ∧ k = .uplink (fld v 12 8) (fld v 3 0)) ∨ (bit v 31 = false ∧
          (∀ e ∈ l1OfOnu s (fld v 12 8) (fld v 24 16), e.1 = 8192 * g + n) ∧ ∃ p, pierOfOnu s (fld v 12 8) (fld v 24 16) = some p ∧ k = .onu (fld v 12 8) (fld v 24 16) p) →
        let kids := (s.fwd.l1.filter fun e => e.1 / 8192 = g && e.1 % 8192 ≠ n && rootOf e.2.kind = rootOf k).length
        let x : L1 := match l1At s g n with | some x => { x with kind := k } | none => { kind := k, sh := newShaper k s.tb }
        (4096 ≤ kids → qnodeSet.apply i s = .error .noSpace) ∧
        (kids < 4096 → qnodeSet.apply i s = .ok { s with fwd := { s.fwd with l1 := kset s.fwd.l1 (8192 * g + n) x } }))) ∧
    (let g := fld w 29 28; let n := fld w 15 0; (bit w 24 = true →
        (l2At s g n = none ∨ (∃ e ∈ s.fwd.queues, groupOf e.1 = g ∧ e.2.parent = n) → qnodeDelete.apply i s = .error .badState) ∧
        ((l2At s g n).isSome = true → (∀ e ∈ s.fwd.queues, groupOf e.1 = g → e.2.parent ≠ n) →
          qnodeDelete.apply i s = .ok { s with fwd := { s.fwd with l2 := kerase s.fwd.l2 (65536 * g + n) } })) ∧ (bit w 24 = false →
        (l1At s g n = none ∨ (∃ e ∈ s.fwd.l2, e.1 / 65536 = g ∧ e.2.parent = n) → qnodeDelete.apply i s = .error .badState) ∧
        ((l1At s g n).isSome = true → (∀ e ∈ s.fwd.l2, e.1 / 65536 = g → e.2.parent ≠ n) →
          qnodeDelete.apply i s = .ok { s with fwd := { s.fwd with l1 := kerase s.fwd.l1 (8192 * g + n) } }))) ∧
    (let q := fld w 19 0; let par := fld v 31 16; let port := fld (pw i.words 3) 28 16; let up := (l2At s (groupOf q) par).bind fun x => l1At s (groupOf q) x.parent
      (up = none → queueSet.apply i s = .error .badArg) ∧ (∀ a, up = some a →
        (l1Owner s a.kind ≠ queueOwner s q ∨ (i.slice ≠ some 0 ∧ i.slice ≠ some (l1Owner s a.kind)) → queueSet.apply i s = .error .notOwner) ∧
        (l1Owner s a.kind = queueOwner s q → (i.slice = some 0 ∨ i.slice = some (l1Owner s a.kind)) →
          (∀ x, queueAt s q = some x → x.draining = true → queueSet.apply i s = .error .badState) ∧ ((∀ x, queueAt s q = some x → x.draining = false) →
            let kids := (s.fwd.queues.filter fun e => groupOf e.1 = groupOf q && e.1 ≠ q && e.2.parent = par).length
            (64 ≤ kids → queueSet.apply i s = .error .noSpace) ∧ (kids < 64 →
              (∀ sp o p, a.kind = .onu sp o p → (kget s.fwd.ports (8192 * sp + port)).map (·.onu) ≠ some o → queueSet.apply i s = .error .badArg) ∧
              ((∀ sp o p, a.kind = .onu sp o p → (kget s.fwd.ports (8192 * sp + port)).map (·.onu) = some o) → queueSet.apply i s = .ok (setQueue q
                (match queueAt s q with
                | some x => { x with parent := par, profile := fld v 7 0, port := port }
                | none => { parent := par, profile := fld v 7 0, port := port, sh := newShaper a.kind s.tb }) s))))))) ∧
    (fld w 17 0 < 4096 * (pipeOf s (fld w 29 28)).directBlocks → ∃ t, directSet.apply i s = .ok t ∧
      (∀ n, kget (pipeOf t (fld w 29 28)).direct n = if n = fld w 17 0 then some (asStatic (res64 i.words 2)) else kget (pipeOf s (fld w 29 28)).direct n) ∧ { t with fwd := { t.fwd with pipes := s.fwd.pipes } } = s) ∧
    (4096 * (pipeOf s (fld w 29 28)).directBlocks ≤ fld w 17 0 → directSet.apply i s = .error .badArg) ∧
    (∃ t, fwdDscpSet.apply i s = .ok t ∧ (∀ p, (p ∉ pipesOf w → pipeOf t p = pipeOf s p) ∧ (p ∈ pipesOf w → ∀ d, d < 64 →
        kget (pipeOf t p).dscp d = some (fld (pw i.words (2 + d / 10)) (3 * (d % 10) + 2) (3 * (d % 10))))) ∧ { t with fwd := { t.fwd with pipes := s.fwd.pipes } } = s) ∧
    (s.ctl.slices.contains (fld w 19 16) = true → ∃ t, trapConfig.apply i s = .ok t ∧ (∀ p, (p ∉ pipesOf w → pipeOf t p = pipeOf s p) ∧ (p ∈ pipesOf w → (kgetD (pipeOf t p).traps (16 * fld w 19 16 + fld w 7 0) {}).rate = fld v 23 0 ∧
        (kgetD (pipeOf t p).traps (16 * fld w 19 16 + fld w 7 0) {}).burst = fld (pw i.words 3) 15 0)) ∧ { t with fwd := { t.fwd with pipes := s.fwd.pipes } } = s) ∧
    (s.ctl.slices.contains (fld w 19 16) = false → trapConfig.apply i s = .error .badArg ∧ sliceHankSet.apply i s = .error .badArg ∧ sliceQueuesSet.apply i s = .error .badArg ∧
      uplinkBudgetSet.apply i s = .error .badArg) ∧
    (s.ctl.slices.contains (fld w 19 16) = true → ∃ t, sliceHankSet.apply i s = .ok t ∧ (∀ n, kget t.fwd.quotas n = if n = 4 * fld w 19 16 + fld w 1 0 then some (fld v 22 0) else kget s.fwd.quotas n) ∧ { t with fwd := { t.fwd with quotas := s.fwd.quotas } } = s) ∧
    (s.ctl.slices.contains (fld w 19 16) = true → kget s.fwd.ranges (fld w 19 16) = none → ∃ t, sliceQueuesSet.apply i s = .ok t ∧ kget t.fwd.ranges (fld w 19 16) = some (fld v 17 0, fld (pw i.words 3) 18 0) ∧ { t with fwd := { t.fwd with ranges := s.fwd.ranges } } = s) ∧
    (0x0300 ≤ i.version → ∃ t, qprofileSet.apply i s = .ok t ∧ (∀ n, kget t.fwd.profiles n = if n = 256 * fld w 29 28 + fld w 7 0 then
        some { maxDepth := fld v 23 0, yellowDepth := fld (pw i.words 3) 23 0, spillThresh := fld (pw i.words 4) 23 0, train := fld (pw i.words 5) 1 0, defer_ := bit (pw i.words 5) 31 } else kget s.fwd.profiles n) ∧
      { t with fwd := { t.fwd with profiles := s.fwd.profiles } } = s) ∧
    (∀ x, queueAt s (fld w 19 0) = some x → (x.draining = true → queueDelete.apply i s = .error .badState) ∧ (x.draining = false → x.pkts ≠ [] →
      ∃ t, queueDelete.apply i s = .ok t ∧ (queueAt t (fld w 19 0)).map (·.draining) = some true ∧ (∀ q, q ≠ fld w 19 0 → queueAt t q = queueAt (closeTrain (fld w 19 0) s) q))) ∧
    (queueAt s (fld w 19 0) = none → queueDelete.apply i s = .error .badState) ∧
    (∃ t, viaductConfig.apply i s = .ok t ∧ t.fwd.wrBacklog = fld w 12 0 ∧ t.fwd.prefetch = fld v 15 0 ∧ (∀ h, h < 4 → kget t.fwd.lowWater h = some (fld (pw i.words (3 + h)) 22 0)) ∧
      (∀ h, h < 4 → kget t.fwd.lowTold h = some (decide (hankFree t h < lowMark t h))) ∧
      { t with fwd := { t.fwd with wrBacklog := s.fwd.wrBacklog, prefetch := s.fwd.prefetch, lowWater := s.fwd.lowWater, lowTold := s.fwd.lowTold } } = s) ∧
    (∀ n c per sh b, schedName w = some n → childOf s n = some c → shaperOf s n = some (per, sh, b) → i.slice = some 0 → 0x0201 ≤ i.version → ∃ t, schedNodeSet.apply i s = .ok t ∧
      ((childOf t n).map fun x => (x.prio, x.weight)) = some (fld v 31 29, fld v 25 16)) ∧
    (kget s.fwd.ports (portKey w) = none → policerSet.apply i s = .error .badState) ∧
    ((kget s.fwd.ports (portKey w)).isSome = true → ∃ t, policerSet.apply i s = .ok t ∧
      (policerOf t (portKey w)).next = some (v.toNat, fld (pw i.words 3) 23 0, (pw i.words 4).toNat, fld (pw i.words 5) 23 0) ∧ { t with fwd := { t.fwd with policers := s.fwd.policers } } = s) ∧
    (let p := pierName w; (schedOf s p.1 p.2).list = none → fld (pw i.words 4) 8 0 ≠ 0 → ∃ t, gateListSet.apply i s = .ok t ∧
      (schedOf t p.1 p.2).list = some ⟨gateEntries ((wordsOfBytes i.dma).take (fld (pw i.words 4) 8 0)), fld v 29 0, fld (pw i.words 3) 29 0⟩ ∧ { t with fwd := s.fwd, ctl := s.ctl } = s) ∧
    (let p := pierName w; ∀ g, (schedOf s p.1 p.2).list = some g → fld (pw i.words 4) 8 0 ≠ 0 → ∃ t, gateListSet.apply i s = .ok t ∧ (schedOf t p.1 p.2).list = some g ∧
      (schedOf t p.1 p.2).waiting = some (some ⟨gateEntries ((wordsOfBytes i.dma).take (fld (pw i.words 4) 8 0)), fld v 29 0, fld (pw i.words 3) 29 0⟩) ∧
      ⟨.gateList, 3 * p.1 + p.2⟩ ∈ t.ctl.later ∧ { t with fwd := s.fwd, ctl := s.ctl } = s) ∧
    (let p := pierName w; pierSchedConfig.apply i s = .ok (setSched p.1 p.2 { schedOf s p.1 p.2 with protect := bit v 0 } s)) ∧
    uplinkSchedConfig.apply i s = .ok (setMerger (fld w 4 0) { mergerOf s (fld w 4 0) with weights := [fld v 7 0, fld v 15 8, fld v 23 16, fld v 31 24] } s) ∧
    (s.ctl.slices.contains (fld w 19 16) = true → ∃ t, uplinkBudgetSet.apply i s = .ok t ∧ (upBudget t (fld w 19 16) (fld w 4 0)).rate = v.toNat ∧ (upBudget t (fld w 19 16) (fld w 4 0)).burst = fld (pw i.words 3) 23 0 ∧
      (∀ k, k ≠ 24 * fld w 19 16 + fld w 4 0 → kget t.fwd.budgets k = kget s.fwd.budgets k) ∧ { t with fwd := { t.fwd with budgets := s.fwd.budgets }, ctl := s.ctl, out := s.out } = s)

/-- R238, R424, R449, R503, R533, by the layouts of their calls: what items of families 0x04 and 0x0A to 0x0E write when they take effect,
and what they leave. The model's choices among them: from which instant on a Keystone entry fires (notes/assumptions/103), that a change of
TRACE_LEN starts every J1 trace afresh (notes/assumptions/12), and BAD_STATE for the delete of an absent registry entry
(notes/assumptions/114). -/
def Obligations.TimeCipherAndPairItemsTakeEffect : Prop :=
  ∀ (i : Item) (s : State), let w := pw i.words 1; let v := pw i.words 2; let n := fld w 20 16; let p := pierName w
    (∃ t, timeConfig.apply i s = .ok t ∧ t.time.cfg.host = bit w 31 ∧ t.time.cfg.phaseSrc = fld w 25 24 ∧ t.time.cfg.freqSrc = fld w 21 20 ∧ t.time.cfg.freqLane = fld w 12 8 ∧ t.time.cfg.qlMin = fld w 3 0 ∧
      t.time.cfg.utc = fld v 15 0 ∧ t.time.cfg.slewMax = (pw i.words 6).toNat ∧ t.time.keystone = s.time.keystone ∧ { t with time := s.time, ctl := s.ctl, out := s.out } = s) ∧
    (let ws := (i.words.drop 2).take 5; (bit (pw ws 0) 31 = true → fld (pw ws 0) 30 28 ≠ 3) → ∃ t, keystoneSet.apply i s = .ok t ∧
      (∀ k, kget t.time.keystone k = if k = fld w 10 0 then some { words := keyLaid ws, start := firstNs (125000 * frameNo s) (if bit (pw ws 0) 27 then 0 else (pw ws 4).toNat), done := 125000000 * frameNo s }
        else kget s.time.keystone k) ∧ { t with time := { t.time with keystone := s.time.keystone } } = s) ∧
    (∃ t, asymConfig.apply i s = .ok t ∧ kget t.time.asym (pierIx w) = some { dispDn := sgn 16 (fld v 31 16), dispUp := sgn 16 (fld v 15 0), dlDn := sgn 16 (fld (pw i.words 3) 31 16), dlUp := sgn 16 (fld (pw i.words 3) 15 0), rho := fld (pw i.words 4) 19 0 } ∧ (∀ k, k ≠ pierIx w → kget t.time.asym k = kget s.time.asym k) ∧ { t with time := { t.time with asym := s.time.asym } } = s) ∧
    (∃ t, timeEvtConfig.apply i s = .ok t ∧ (let x := kgetD t.time.pins (fld w 1 0) {}; x.mode = fld w 5 4 ∧ x.edge = fld w 9 8 ∧ x.delay = fld v 15 0 ∧ x.stamps = (kgetD s.time.pins (fld w 1 0) {}).stamps) ∧
      { t with time := { t.time with pins := s.time.pins } } = s) ∧
    (fld w 4 0 = 22 → fld w 9 8 ≠ 0 → ptpPortConfig.apply i s = .error .badState) ∧
    ((fld w 4 0 ≠ 22 ∨ fld w 9 8 = 0) → ∃ t, ptpPortConfig.apply i s = .ok t ∧ (∀ k, kget t.time.ptpMode k = if k = fld w 4 0 then some (fld w 9 8) else kget s.time.ptpMode k) ∧ { t with time := { t.time with ptpMode := s.time.ptpMode } } = s) ∧
    (∃ t, ponCipherConfig.apply i s = .ok t ∧ (let k := pierKeys t p.1 p.2; k.life = v.toNat ∧ k.margin = (pw i.words 3).toNat ∧ k.autoRoll = bit (pw i.words 4) 31 ∧ k.lead = fld (pw i.words 4) 21 16 ∧ k.timeout = fld (pw i.words 4) 15 0 ∧
      k.s1 = (pierKeys s p.1 p.2).s1 ∧ k.s2 = (pierKeys s p.1 p.2).s2) ∧ { t with ciph := s.ciph } = s) ∧
    (let o := onuName w; ((pierOfOnu s o.1 o.2 = some 2 → ponMskSet.apply i s = .error .badArg) ∧ (pierOfOnu s o.1 o.2 ≠ some 2 → (onuOf s o.1 o.2).st ≠ .active → ponMskSet.apply i s = .error .badState) ∧
      (pierOfOnu s o.1 o.2 ≠ some 2 → (onuOf s o.1 o.2).st = .active → let x := onuOf s o.1 o.2; let msk := wide i.words 2 4
        let key (l : Nat) : Nat := ponDerive l msk (toLe 8 x.serial.toNat) (Config.ponTag o.1 x.pier)
        ponMskSet.apply i s = .ok (mirrorMsk o.1 o.2 (modOnuKeys o.1 o.2 (fun k => { k with msk := some msk, ik := key 1, kek := key 2 }) s))))) ∧
    (let ix := fld w 17 16; (ix = 1 ∨ ix = 2) → ((pierKeys s p.1 p.2).slot ix).st ≠ .active → ∃ t, ponBcastKeySet.apply i s = .ok t ∧
      (let x := (pierKeys t p.1 p.2).slot ix; x.st = .next ∧ x.key = wide i.words 2 4 ∧ x.loaded = s.tb ∧ (mirrorsKeys s p.1 = false → x.at_ = some (switchBase s.tb s.tb + (pierKeys s p.1 p.2).lead))) ∧
      (pierKeys t p.1 p.2).slot (3 - ix) = (pierKeys s p.1 p.2).slot (3 - ix) ∧ ⟨.bcastKey, 4 * (3 * p.1 + p.2) + ix⟩ ∈ t.ctl.later ∧
      (∀ k, k ≠ 3 * p.1 + p.2 → kget t.ciph.piers k = kget s.ciph.piers k) ∧ { t with ciph := s.ciph, ctl := s.ctl, red := s.red, out := s.out } = s) ∧
    (((pierKeys s p.1 p.2).slot (fld w 17 16)).st = .active → ponBcastKeySet.apply i s = .error .badState) ∧
    (∃ t, macsecPortConfig.apply i s = .ok t ∧ (let y := secyOf t n; y.replay = bit w 2 ∧ y.includeSci = bit w 1 ∧ y.enable = bit w 0 ∧ y.window = fld v 30 0 ∧ y.sci = wide i.words 3 2 ∧ y.pnAlarm = wide i.words 7 2 ∧
      y.tx = (secyOf s n).tx ∧ y.rx = (secyOf s n).rx) ∧ (∀ k, k ≠ n → secyOf t k = secyOf s k) ∧ { t with ciph := { t.ciph with secys := s.ciph.secys } } = s) ∧
    (bit w 31 = false → bit w 8 = false → ∃ t, macsecSaSet.apply i s = .ok t ∧ findSa (secyOf t n) false (fld w 5 4) (fld w 1 0) =
        some { sak := wide i.words 2 8, salt := wide i.words 10 3, ssci := (pw i.words 13).toNat } ∧ (∀ k, k ≠ n → secyOf t k = secyOf s k) ∧ { t with ciph := { t.ciph with secys := s.ciph.secys } } = s) ∧
    (bit w 31 = true → bit w 8 = false → (secyOf s n).txAn = some (fld w 1 0) → macsecSaSet.apply i s = .error .badState) ∧
    (bit w 31 = false → bit w 8 = true → let a : Sa := { sak := wide i.words 2 8, salt := wide i.words 10 3, ssci := (pw i.words 13).toNat }
      (kget (secyOf s n).rx (fld w 5 4) = none → macsecSaSet.apply i s = .error .badArg) ∧ (∀ c, kget (secyOf s n).rx (fld w 5 4) = some c →
        macsecSaSet.apply i s = .ok (setSecy n { secyOf s n with rx := kset (secyOf s n).rx (fld w 5 4) { c with sas := kset c.sas (fld w 1 0) a } } s))) ∧
    (bit w 31 = true → findSa (secyOf s n) (bit w 8) (fld w 5 4) (fld w 1 0) = none → macsecSaSet.apply i s = .error .badState) ∧
    (bit w 31 = true → bit w 8 = false → (secyOf s n).txAn ≠ some (fld w 1 0) → (kget (secyOf s n).tx (fld w 1 0)).isSome = true →
      macsecSaSet.apply i s = .ok (setSecy n { secyOf s n with tx := kerase (secyOf s n).tx (fld w 1 0) } s)) ∧
    (∀ c, bit w 31 = true → bit w 8 = true → kget (secyOf s n).rx (fld w 5 4) = some c → (kget c.sas (fld w 1 0)).isSome = true →
      macsecSaSet.apply i s = .ok (setSecy n { secyOf s n with rx := kset (secyOf s n).rx (fld w 5 4) { c with sas := kerase c.sas (fld w 1 0) } } s)) ∧
    (∀ a, let b := { a with pn := wide i.words 2 2, pn0 := wide i.words 2 2 }; findSa (secyOf s n) (bit w 8) (fld w 5 4) (fld w 1 0) = some a →
      (bit w 8 = false → a.used = true → macsecSaPn.apply i s = .error .badState) ∧
      (bit w 8 = false → a.used = false → macsecSaPn.apply i s = .ok (setSecy n { secyOf s n with tx := kset (secyOf s n).tx (fld w 1 0) b } s)) ∧
      (∀ c, bit w 8 = true → kget (secyOf s n).rx (fld w 5 4) = some c →
        macsecSaPn.apply i s = .ok (setSecy n { secyOf s n with rx := kset (secyOf s n).rx (fld w 5 4) { c with sas := kset c.sas (fld w 1 0) b } } s))) ∧
    (bit w 31 = false → ∃ t, macsecRxScSet.apply i s = .ok t ∧ (kgetD (secyOf t n).rx (fld w 5 4) { sci := 0 }).sci = wide i.words 2 2 ∧ (∀ k, k ≠ fld w 5 4 → kget (secyOf t n).rx k = kget (secyOf s n).rx k) ∧
      { t with ciph := { t.ciph with secys := s.ciph.secys } } = s) ∧
    (findSa (secyOf s n) (bit w 8) (fld w 5 4) (fld w 1 0) = none → macsecSaPn.apply i s = .error .badState) ∧
    (∀ a, kget (secyOf s n).tx (fld w 1 0) = some a → (a.exhausted = true → macsecTxNext.apply i s = .error .keyLimit) ∧ (a.exhausted = false →
      (bit w 8 = true → macsecTxNext.apply i s = .ok (setSecy n { secyOf s n with txAn := some (fld w 1 0) } s)) ∧
      (bit w 8 = false → macsecTxNext.apply i s = .ok (setSecy n { secyOf s n with nextAn := some (fld w 1 0) } s)))) ∧
    pairKeyConfig.apply i s = .ok (setPairKey { s.ciph.pair with hash := bytesOfWords ((i.words.drop 1).take 12), rekey := fld (pw i.words 13) 9 0 } s) ∧
    (busOff s (fld w 2 0) = true → ∃ t, loopbConfig.apply i s = .ok t ∧ (let b := loopBus t (fld w 2 0); b.div = fld v 6 0 ∧ b.readLat = fld v 11 8 ∧ b.holdCycles = fld v 23 16 ∧ b.alertMask = fld (pw i.words 4) 11 0) ∧ { t with opt := s.opt } = s) ∧
    (let k := fld w 18 16; let m := fld w 5 0; (opticOf s (spanOfLoop k m) (pierOfLoop m)).st = .off → ((loopOf s k m).running = false → ∃ t, loopSet.apply i s = .ok t ∧ (loopOf t k m).cfg = loopCfgOf i.words) ∧
      ((loopOf s k m).running = true → ∃ t, loopSet.apply i s = .ok t ∧ (loopOf t k m).newCfg = some (loopCfgOf i.words) ∧ (loopOf t k m).cfg = (loopOf s k m).cfg)) ∧
    (∃ t, sdhConfig.apply i s = .ok t ∧ (bit w 4 ≠ s.tdm.cfg.traceLen → ∀ l, l < 2 → ∀ k, (kget (sdhOf s l).aus k).isSome = true → (auOf t l k).j1 = (auOf s l k).j1.afresh) ∧ (bit w 4 = s.tdm.cfg.traceLen → t.tdm.lanes = s.tdm.lanes) ∧
      { t with tdm := { t.tdm with cfg := s.tdm.cfg, lanes := s.tdm.lanes } } = s ∧ t.tdm.cfg = { msSd := fld w 31 28, msSf := fld w 27 24, lpSd := fld w 23 20, lpSf := fld w 19 16, traceLen := bit w 4, aisRs := bit w 3, aisHp := bit w 2, aisLp := bit w 1, excAis := bit w 0 }) ∧
    (fld w 29 28 = 0 → ∃ t, sdhTraceSet.apply i s = .ok t ∧ (sdhOf t (fld w 16 16)).j0 = (sdhOf s (fld w 16 16)).j0.setup (bit v 0) i.dma ∧
      { t with tdm := { t.tdm with lanes := s.tdm.lanes }, ctl := s.ctl, out := s.out } = s) ∧
    (fld w 29 28 = 1 → ∃ t, sdhTraceSet.apply i s = .ok t ∧ (∀ l, l < 2 → auOf t l (fld w 9 0) = { auOf s l (fld w 9 0) with j1 := (auOf s l (fld w 9 0)).j1.setup (bit v 0) i.dma } ∧
        (∀ a, a ≠ fld w 9 0 → auOf t l a = auOf s l a) ∧ { sdhOf t l with aus := (sdhOf s l).aus } = sdhOf s l) ∧ { t with tdm := { t.tdm with lanes := s.tdm.lanes }, ctl := s.ctl, out := s.out } = s) ∧
    (2 ≤ fld w 29 28 → ∃ t, sdhTraceSet.apply i s = .ok t ∧ (∀ l, l < 2 → tuOf t l (fld w 9 0) = { tuOf s l (fld w 9 0) with j2 := (tuOf s l (fld w 9 0)).j2.setup (bit v 0) i.dma } ∧
        (∀ a, a ≠ fld w 9 0 → tuOf t l a = tuOf s l a) ∧ { sdhOf t l with tus := (sdhOf s l).tus } = sdhOf s l) ∧ { t with tdm := { t.tdm with lanes := s.tdm.lanes }, ctl := s.ctl, out := s.out } = s) ∧
    (fld w 25 24 ≠ 0 → let t := setMsp { s.tdm.msp with arch := fld w 25 24, revert := bit w 16, wtr := fld v 25 16, holdOff := fld v 6 0 } s
      mspConfig.apply i s = .ok (mspEvaluate (forEach ([0, 1].filter fun l => sdhRuns t l && !sdhRuns s l) (fun l s => laneChange l 0 s) t))) ∧
    (fld w 25 24 = 0 → mspConfig.apply i s = .ok (selectLane 0 (setMsp { s.tdm.msp with
      arch := 0, revert := bit w 16, wtr := fld v 25 16, holdOff := fld v 6 0, lockout := false, forced := false, manual := false, wtrOn := false, dnr := false, request := 9, fail := false } s))) ∧
    ((∀ e ∈ (wordsOfBytes i.dma).take (fld w 26 16), fld e 9 0 ≤ 1007) → ∃ t page, tsiPageSet.apply i s = .ok t ∧ t.tdm.tsiNext = some page ∧ t.tdm.tsiAt = nextMultiframe s ∧ t.tdm.tsi = s.tdm.tsi ∧ ⟨.tsi, 0⟩ ∈ t.ctl.later ∧
      { t with tdm := s.tdm, ctl := s.ctl } = s) ∧
    (∃ t, ceCircuitSet.apply i s = .ok t ∧ (let c := circuitOf t (fld w 9 0); c.mode = fld w 17 16 ∧ c.clock = fld w 25 24 ∧ c.rtp = bit w 20 ∧ c.payload = fld v 10 0 ∧ c.udpRx = fld (pw i.words 5) 15 0 ∧
        (c.clock = 2 → c.freq = 0) ∧ ((circuitOf s (fld w 9 0)).mode = 0 → c.mode ≠ 0 → c.txSeq = 0 ∧ c.lops = false ∧ c.jb = [] ∧ c.st = 1)) ∧
      (∀ k, k ≠ fld w 9 0 → circuitOf t k = circuitOf s k) ∧ { t with tdm := { t.tdm with circuits := s.tdm.circuits }, ctl := s.ctl, out := s.out } = s) ∧
    ((∀ sp < 32, (spanOf s sp).st = .closed) → ∃ t, pairConfig.apply i s = .ok t ∧ t.red.pair.enable = bit (pw i.words 3) 31 ∧ t.red.pair.auto = bit (pw i.words 3) 30 ∧ t.red.pair.takeUnsync = bit (pw i.words 3) 29) ∧
    (∀ sp, sp < 32 → (spanOf s sp).st ≠ .closed → (spanOf s sp).paired ≠ bit w sp → pairConfig.apply i s = .error .badState) ∧
    pairHawserCal.apply i s = .ok { s with red := { s.red with pair := { s.red.pair with asym := sgn 32 w.toNat } } } ∧
    (∃ t, lanyardConfig.apply i s = .ok t ∧ t.red.lan.configured = true ∧ t.red.lan.vid = fld w 27 16 ∧ t.red.lan.worker = fld w 5 0 ∧ t.red.lan.ports = fld v 23 0 ∧ t.red.lan.registry = s.red.lan.registry ∧ { t with red := s.red } = s) ∧
    (∀ e, kget s.red.lan.registry (wide i.words 1 2) = some e → ∃ t, lanyardRegSet.apply i s = .ok t ∧ kget t.red.lan.registry (wide i.words 1 2) =
      some ⟨fld (pw i.words 3) 29 24, fld (pw i.words 3) 20 16, fld (pw i.words 3) 3 0, bit (pw i.words 3) 31, bytesOfWords ((i.words.drop 4).take 9)⟩ ∧
      (∀ m, m ≠ wide i.words 1 2 → kget t.red.lan.registry m = kget s.red.lan.registry m) ∧ { t with red := s.red } = s) ∧
    (kget s.red.lan.registry (wide i.words 1 2) = none → 262144 ≤ s.red.lan.registry.length → lanyardRegSet.apply i s = .error .noSpace) ∧
    (kget s.red.lan.registry (wide i.words 1 2) = none → lanyardRegDelete.apply i s = .error .badState) ∧
    ((kget s.red.lan.registry (wide i.words 1 2)).isSome = true → lanyardRegDelete.apply i s =
      .ok { s with red := { s.red with lan := { s.red.lan with registry := kerase s.red.lan.registry (wide i.words 1 2) } } }) ∧
    (s.ctl.slices.contains (fld w 19 16) = true → ∃ t, shelfBudgetSet.apply i s = .ok t ∧ (∀ k, kget t.red.lan.shelfRate k = if k = fld w 19 16 then some (v.toNat, fld (pw i.words 3) 6 0) else kget s.red.lan.shelfRate k) ∧
      { t with red := { t.red with lan := { t.red.lan with shelfRate := s.red.lan.shelfRate } } } = s) ∧
    (s.ctl.slices.contains (fld w 19 16) = false → shelfBudgetSet.apply i s = .error .badArg)

/-- R38, R39, R161, R219, R307, R337, R405, R462, R540: what the apply point, the second boundary and an ESMC frame do; transmit SAs that
would come to use one PN twice at the apply point, and an item that writes what R337 leaves undefined, are undefined use. The order of
what happens at one apply point and at one second boundary is the model's own (logs 61, 62, 63). -/
def Obligations.ApplyPointsAndSeconds : Prop :=
  ∀ s : State,
    (∀ lines : List LineWatch, let n := max (s.ctl.lastApply + 1) (frameNo s); let t := advance (n * frameTb) s
      let t := allPiers (fun sp p s => judgeRogue sp p (lines.any fun l => l.pier.val = 3 * sp + p && l.rogue) (judgeLos sp p s)) t
      let t := applyTxns (n * frameTb) (passLaunches (n * 125000000) { t with ctl := { t.ctl with lastApply := n } })
      let t := shedAdvance (refuseRuns n (judgeSyncs (heartbeatOut n (lanyardRates (spanFrames n (stmFrames (tsiSwap (stepsDue n t))))))))
      (undefinedWrite s t = false → (saClash (txSas s) = true ∨ saClash (txSas t) = false) → exec (.applyPoint lines) s = .next t) ∧
      (undefinedWrite s t = true → exec (.applyPoint lines) s = .fault (.undefinedUse "R337")) ∧
      (undefinedWrite s t = false → saClash (txSas s) = false → saClash (txSas t) = true → exec (.applyPoint lines) s = .fault (.undefinedUse "R405"))) ∧
    (let n := max (s.ctl.lastSecond + 1) (s.tb / (8000 * frameTb)); let t := advance (n * (8000 * frameTb)) s
      let t := passLaunches (n * secPs) { t with ctl := { t.ctl with lastSecond := n } }
      let t := gaugesNow (pcieCounted (forEach (List.range 28) laneCounted t))
      let t := gaugesNow { t with ctl := { t.ctl with cntSnap := kfilter t.ctl.cntRun (fun id v => v ≠ 0 && !latchesZero t id), cntRun := [], snapSecond := n - 1 } }
      let t := pipeSecond (forEach (List.range 28) laneDegraded t)
      exec .secondBoundary s = .next (usageOut { t with
        fwd := { t.fwd with peakSnap := t.fwd.peaks, peaks := kmap t.fwd.peaks fun k _ => hankUse t (k / 4) (k % 4) },
        opt := { t.opt with buses := kmap t.opt.buses fun _ b => { b with overrunTold := false } } })) ∧
    (∀ (p : PortIx) (ql : Nat), let t := s.time.cfg; let hit : Prop := s.boot.ready = true ∧ t.freqSrc = 1 ∧ t.freqLane ∈ lanesOf s p
      (hit → ql < t.qlMin → exec (.esmcFrameToSaend p ql) s = .next (sourceLost false { s with time := { s.time with qlLow := true } })) ∧
      (hit → t.qlMin ≤ ql → exec (.esmcFrameToSaend p ql) s = .next (freqWatch { s with time := { s.time with qlLow := false } })) ∧
      (¬ hit → exec (.esmcFrameToSaend p ql) s = .next s))

/-- R102, R103, R542, R543: the event routes and details of a channel are read, a detail read clearing its count; a counter is read from the
snapshot, and the snapshot is copied by DMA. That each channel keeps its own count, last time and detail, and that the count alone is
cleared by the read, is the model's choice (log 55). -/
def Obligations.EventAndCounterReads : Prop :=
  ∀ (c : Call) (s : State),
    (Served evtRouteGetSpec c s → let u := readCall 0x0F02 c s; let r := routeOf u c.chan (fld (pw c.words 0) 4 0)
      Answered (.evtRouteGet c) evtRouteGetSpec c s [r.msgMask, r.vecMask, wd r.vector] u) ∧
    (Served evtDetailSpec c s → let u := readCall 0x0F03 c s; let n := fld (pw c.words 0) 9 0; let e := chanEvt u c.chan n
      realSource n = true → maySee u c.chan n = true → Answered (.evtDetail c) evtDetailSpec c s
        ([wd e.count] ++ toWords 2 e.last ++ [pw e.detail 0, pw e.detail 1, pw e.detail 2, pw e.detail 3]) (setChanEvt c.chan n { e with count := 0 } u)) ∧
    (Served cntReadSpec c s → let u := readCall 0x0F11 c s; let id := fld (pw c.words 0) 23 0
      cntSeen u c.chan id = true → Answered (.cntRead c) cntReadSpec c s (toWords 2 (kgetD u.ctl.cntSnap id 0) ++ [wd u.ctl.snapSecond]) u) ∧
    (Served cntSnapshotCopySpec c s → let u := readCall 0x0F10 c s
      let bs := snapshotBytes (u.ctl.cntSnap.filter fun r => cntSeen u c.chan r.1) u.ctl.snapSecond
      wide c.words 0 2 % 64 = 0 → bs.length ≤ fld (pw c.words 2) 23 0 →
      Answered (.cntSnapshotCopy c) cntSnapshotCopySpec c s [wd u.ctl.snapSecond, wd bs.length] (emit (.dma c.chan (wide c.words 0 2) bs) u))

/-- R107, R109, R112, R113: PMB_RESET_N low resets everything but fuses, flash and the boot choice; at release the straps are sampled and
the boot ROM tries the chosen slot; each check that fails records its cause and tries the other slot, or ends the boot at STAGE 0xF; of a
slot that passes the bootloader, Saend and the vendor bank are measured, and its vendor bank waits for Saend. That both images are checked
before either is measured, that the result is recorded as Saend starts, and how a ONCE choice stands beside the lasting one are the
model's choices (logs 64, 65). -/
def Obligations.BootTriesSlotsInOrder : Prop :=
  ∀ (s : State),
    exec .powerOnReset s = .next { State.reset with
      boot := { svnMin := s.boot.svnMin, ownerHash := s.boot.ownerHash, ownerState := s.boot.ownerState, flash := s.boot.flash,
                choiceSlot := s.boot.choiceSlot, choiceOnce := s.boot.choiceOnce }, out := s.out, free := s.free, pending := s.pending } ∧
    (∀ (role : Fin 4) (boot : Fin 2) (smb : Fin 8), s.boot.released = false → exec (.resetRelease role boot smb) s = .next { s with boot := { s.boot with
      released := true, strapRole := role, strapBoot := boot, strapSmb := smb, stage := 0, choiceOnce := none,
      trying := some (match s.boot.choiceOnce, s.boot.choiceSlot with | some x, _ => x | none, some x => x | none, none => boot) } }) ∧
    (∀ (role : Fin 4) (boot : Fin 2) (smb : Fin 8), s.boot.released = true → exec (.resetRelease role boot smb) s = .next s) ∧
    (∀ e : Bool, ((s.boot.stage ≠ 0 ∨ s.boot.trying = none) → exec (.bootRomCheckDone e) s = .next s) ∧
      ((s.boot.stage ≠ 1 ∨ s.boot.trying = none) → exec (.bootloaderCheckDone e) s = .next s)) ∧
    (∀ slot, s.boot.stage = 0 → s.boot.trying = some slot →
      exec (.bootRomCheckDone false) s = .next (if headerOk s slot = false then slotFailed slot 2 s
        else if slotSigned s slot = false then slotFailed slot 3 s
        else if slotSvn s slot < s.boot.svnMin then slotFailed slot 4 s
        else if imageGood s slot 0 = false then slotFailed slot 5 s
        else let t := extendMeas 0 (digestOf s slot 0) s; { t with boot := { t.boot with stage := 1 } }) ∧
      exec (.bootRomCheckDone true) s = .next (slotFailed slot 6 s)) ∧
    (∀ slot, s.boot.stage = 1 → s.boot.trying = some slot →
      (∃ t, exec (.bootloaderCheckDone false) s = .next t ∧ if imageGood s slot 1 = true ∧ imageGood s slot 2 = true then
        t.boot.stage = 2 ∧ t.boot.slot = slot ∧ t.boot.svnRunning = slotSvn s slot ∧ t.boot.trying = none ∧
        (if slot = 0 then t.boot.resultA else t.boot.resultB) = 1 ∧ t.boot.flash = s.boot.flash ∧ t.pon.vendorBank = vendorWords s slot ∧
        t.boot.meas = (extendMeas 2 (digestOf s slot 2) (extendMeas 1 (digestOf s slot 1) s)).boot.meas ∧
        { t with boot := s.boot, pon := { t.pon with vendorBank := s.pon.vendorBank } } = s
        else t = slotFailed slot 5 s) ∧
      exec (.bootloaderCheckDone true) s = .next (slotFailed slot 6 s)) ∧
    (∀ slot cause, let r := if slot = 0 then s.boot.resultB else s.boot.resultA
      let b := if slot = 0 then { s.boot with resultA := cause } else { s.boot with resultB := cause }
      slotFailed slot cause s = if r = 0 then { s with boot := { b with stage := 0, trying := some (1 - slot) } }
        else emit .spiReleased { s with boot := { b with stage := 0xF, trying := none } })

/-- R49, R107, R536: a function level reset empties the function's channel, closes its session, clears its routes, releases its Cleats and
stops its rings; VFs are enabled and disabled by NumVFs; the other resets act as their rules say. Which VFs exist, what a function level
reset takes with it beyond R49's list, and that a test reset moves nothing of the device are the model's readings (logs 46, 47, 48). -/
def Obligations.FunctionResetsAndVfs : Prop :=
  ∀ (s : State) (fn : Fn),
    (∃ t, exec (.functionLevelReset fn) s = .next t ∧ (chanOf t fn).inq = [] ∧ (chanOf t fn).outq = [] ∧ (chanOf t fn).inColl = false ∧
      (chanOf t fn).outColl = false ∧ (chanOf t fn).session = none ∧ (chanOf t fn).waiting = [] ∧ (chanOf t fn).routes = [] ∧
      (∀ r, (ringOf t fn r).enable = false) ∧ (funcOf t fn).snap = {} ∧
      t.ctl.cleats = (kmap s.ctl.cleats fun _ c => if c.holder = fn.val then { c with holder := 0xFF } else c) ∧
      (∀ ch : Nat, ch ≠ fn → chanOf t ch = chanOf s ch) ∧ (∀ f : Nat, f ≠ fn → funcOf t f = funcOf s f) ∧
      t.ctl.txns = (s.ctl.txns.filter fun x => x.chan ≠ fn.val ∨ x.phase ≠ .opened) ∧ t.ctl.numVfs = s.ctl.numVfs ∧ { t with ctl := s.ctl, out := s.out } = s) ∧
    (∀ n : Fin 16, s.ctl.numVfs ≤ n → exec (.vfEnable n) s = .next { s with ctl := { s.ctl with numVfs := n } }) ∧
    (∀ n : Fin 16, ∃ t, exec (.vfEnable n) s = .next t ∧ t.ctl.numVfs = n ∧ { t with ctl := s.ctl, out := s.out } = s) ∧
    (fn ≠ 0 → fn ≤ s.ctl.numVfs → ∃ t, exec (.vfDisable fn) s = .next t ∧ t.ctl.numVfs = fn - 1 ∧ { t with ctl := s.ctl, out := s.out } = s) ∧
    ((fn = 0 ∨ s.ctl.numVfs < fn) → exec (.vfDisable fn) s = .next s) ∧
    (∃ t, exec .pciePerst s = .next t ∧ t.ctl.numVfs = 0 ∧ t.lane.pcie = {} ∧ (∀ f : Fn, (chanOf t f).session = none ∧ funcOf t f = {} ∧
      (chanOf t f).inq = [] ∧ (chanOf t f).freeThresh = 16 ∧ (chanOf t f).outMsgEn = true) ∧ { t with ctl := s.ctl, lane := s.lane, out := s.out } = s) ∧
    exec .jtagTestReset s = .next s

/-- R108, R110, R112, R413: the Saend that the bootloader started loads the vendor bank and comes up at STAGE 3, and its events are raised;
a watchdog expiry empties its queues and closes its sessions; the restart ends with event 968; a device reset keeps fuses and flash. When
the keys are drawn, what a restart keeps, and in which order it goes on are the model's choices (logs 66, 125, 159). -/
def Obligations.SaendStartsAndRestarts : Prop :=
  ∀ (s : State),
    ((s.boot.ready = true ∨ s.boot.restarting = true ∨ s.boot.stage ≠ 2) → exec .saendReady s = .next s) ∧
    (s.boot.ready = false → s.boot.restarting = false → s.boot.stage = 2 → let u := forEach (List.range 32) loadVendor s
      let t := { u with boot := { u.boot with ready := true, stage := 3, trying := none } }; let other := if s.boot.slot = 0 then s.boot.resultB else s.boot.resultA
      (s.boot.strapRole ≠ 3 → other ≤ 1 → exec .saendReady s = .next (drawWrap (if kget s.ciph.xts 0 = none then drawXts 0 t else t))) ∧
      (s.boot.strapRole = 3 → other ≤ 1 → kget s.ciph.xts 0 ≠ none → exec .saendReady s = .next (drawWrap (raise 992 [] [3] t))) ∧
      (s.boot.strapRole ≠ 3 → 2 ≤ other → kget s.ciph.xts 0 ≠ none → exec .saendReady s = .next (drawWrap (raise 993 [] [bootStatus t.boot] t)))) ∧
    (∀ sp, (spanOf (loadVendor sp s) sp).truss.store = s.pon.vendorBank ∧ ∀ k, k ≠ sp → spanOf (loadVendor sp s) k = spanOf s k) ∧
    (s.boot.ready = true → ∃ t, exec .saendWatchdogExpiry s = .next t ∧ t.boot.ready = false ∧ t.boot.restarting = true ∧
      t.boot.lostEvents = ((List.range 19).map fun ch => eventsQueued (chanOf s ch)).sum ∧
      (∀ ch, ch < 19 → chanOf t ch = { chanOf s ch with
        inq := [], inExpect := 0, inColl := false, outq := [], outExpect := 0, outColl := false, backlog := [], session := none, waiting := [], report := none }) ∧
      t.ctl.txns = (s.ctl.txns.filter fun x => x.phase ≠ .opened) ∧
      t.pon.piers = (kmap s.pon.piers fun _ x => { x with ploam := x.ploam.filter fun m => m.origin ≠ 3 }) ∧
      { t with boot := s.boot, ctl := s.ctl, pon := s.pon, out := s.out } = s) ∧
    (s.boot.ready = false → exec .saendWatchdogExpiry s = .next s) ∧ (s.boot.restarting = false → exec .saendRestartComplete s = .next s) ∧
    (s.boot.restarting = true → exec .saendRestartComplete s = .next (
      let t := raise 968 [1, 2, 3, 4, 5, 6, 7, 8, 9, 10, 11, 12, 13, 14, 15] [wd (min s.boot.lostEvents 0xFFFF)]
        { s with boot := { s.boot with ready := true, restarting := false } }
      let t := forEach (List.range 19) deliverHeld t
      let t := forEach (List.range 32) (fun sp t => forEach ((onusOf t sp).filter fun o =>
        activates t sp && ((onuOf t sp o).st = .ranging || (onuOf t sp o).st = .registering)) (fun o => deactivate sp o false) t) t
      let t := forEach (List.range 32) (fun sp t => forEach ((allocsOf t sp).filter fun a => activates t sp && untold t sp a)
        (fun a t => match allocOf t sp a with | some x => tell sp x.onu .assignAllocId [a, x.line] t | none => t) t) t
      forEach (List.range 32) (fun sp t => forEach ((onusOf t sp).filter fun o => (onuKeys t sp o).exchange && (onuOf t sp o).st = .active) (askKey sp) t) t)) ∧
    (∀ (role : Fin 4) (boot : Fin 2) (smb : Fin 8), s.boot.resetAsked = true → ∃ t, exec (.deviceReset role boot smb) s = .next t ∧
      t.boot.svnMin = s.boot.svnMin ∧ t.boot.ownerHash = s.boot.ownerHash ∧ t.boot.ownerState = s.boot.ownerState ∧ t.boot.flash = s.boot.flash ∧
      t.boot.ready = false ∧ t.boot.resetAsked = false ∧ t.boot.stage = 0 ∧ t.boot.strapRole = role ∧ t.ctl.numVfs = s.ctl.numVfs ∧
      t.lane.pcie = s.lane.pcie ∧ t.pon = State.reset.pon ∧ t.fwd = State.reset.fwd ∧ t.tb = State.reset.tb) ∧
    (∀ (role : Fin 4) (boot : Fin 2) (smb : Fin 8), s.boot.resetAsked = false → exec (.deviceReset role boot smb) s = .next s)

/-- R114, R117 to R119, R133: the identity, report and certificate calls answer what the device holds, by DMA or through DEV_REPORT_READ; a
flash write changes the bytes named in the other slot and no others; the boot choice and the reset are recorded. R115, R120: the
security version is fused upward, never down, and the owner key once; each is told by its event. The widths and
orders of the tests, the length of a certificate read at ADDR 0, the slot that SIGNATURE refuses, the partial fuse write and the
security version's cap are the model's choices (logs 67, 68, 69, 154). -/
def Obligations.DeviceCallsAnswer : Prop :=
  (
    ∀ (c : Call) (s : State),
      (Served devInfoSpec c s → let u := readCall 0x0101 c s; let b := u.boot
        Answered (.devInfo c) devInfoSpec c s ([put b.strapSmb 19 ||| put b.strapBoot 18 ||| put b.strapRole 16 ||| wd b.svnRunning,
          put b.svnMin 16 ||| putb (b.ownerState ≠ 0) 0] ++ wordsOfBytes (ownerBytes u)) u) ∧
      (Served devAttestSpec c s → let u := readCall 0x0102 c s; let addr := wide c.words 8 2; let body := reportBody c.chan (c.words.take 8) u
        (c.chan.val < 16 ∨ addr = 0) → Answered (.devAttest c) devAttestSpec c s [wd 400]
          (handOut c.chan addr (body ++ p384.sign Config.identityKey (Config.freeNat u.free) (sha384 body)) (drawn u))) ∧
      (Served devCertReadSpec c s → let u := readCall 0x0103 c s; let addr := wide c.words 0 2; let n := Config.certChain.length
        (c.chan.val < 16 ∨ addr = 0) → (addr = 0 ∨ n ≤ fld (pw c.words 2) 15 0) →
        Answered (.devCertRead c) devCertReadSpec c s [wd n &&& 0xFFFF] (handOut c.chan addr Config.certChain u)) ∧
      (∀ bs, Served devReportReadSpec c s → let u := readCall 0x0104 c s; (chanOf u c.chan).report = some bs →
        Answered (.devReportRead c) devReportReadSpec c s (((wordsOfBytes bs).drop (fld (pw c.words 0) 13 0)).take 14) u) ∧
      (Served devFlashWriteSpec c s → let u := readCall 0x0110 c s; let len := fld (pw c.words 2) 24 0; let off := fld (pw c.words 3) 24 0
        let slot := fld (pw c.words 4) 0 0
        len % 4096 = 0 → off % 4096 = 0 → off + len ≤ slotSize → slot ≠ u.boot.slot → Memory.wf u.boot.flash = true → ∃ m, Answered (.devFlashWrite c) devFlashWriteSpec c s []
          { u with boot := { u.boot with flash := m }, free := u.free + 1 } ∧
          (∀ i < len, kgetD m (slotSize * slot + off + i) 0xFF = (hostBytes c.chan (wide c.words 0 2) len u).getD i 0xFF) ∧
          ∀ a, a < slotSize * slot + off ∨ slotSize * slot + off + len ≤ a → kgetD m a 0xFF = kgetD u.boot.flash a 0xFF) ∧
      (Served devSlotSetSpec c s → let u := readCall 0x0111 c s; let slot := fld (pw c.words 0) 0 0
        exec (.devSlotSet c) s = .next (if (headerOk u slot && slotSigned u slot && imageGood u slot 0 && imageGood u slot 1 && imageGood u slot 2) = true then respond 0x0111 c .done []
          { u with boot := if bit (pw c.words 0) 1 then { u.boot with choiceOnce := some slot } else { u.boot with choiceSlot := some slot, choiceOnce := none } }
          else respond 0x0111 c .signature [] u)) ∧
      (Served devResetSpec c s → let u := readCall 0x0112 c s; pw c.words 0 = 0x52535444 → (∀ sp ∈ activeSpans u, u.red.pair.sync.contains sp = false) →
        Answered (.devReset c) devResetSpec c s [] { u with boot := { u.boot with resetAsked := true } }) ∧
      (Served devResetSpec c s → let u := readCall 0x0112 c s; let mine := (activeSpans u).filter u.red.pair.sync.contains
        pw c.words 0 = 0x52535444 → mine ≠ [] → Answered (.devReset c) devResetSpec c s [] (let t := releaseSynced 3 mine u; { t with boot := { t.boot with resetAsked := true } }))) ∧
  (
    ∀ (c : Call) (s : State),
      (Served devSvnAdvanceSpec c s → let u := readCall 0x0113 c s; let n := min 64 u.boot.svnRunning
        u.boot.svnMin < 64 → (n ≤ u.boot.svnMin → Answered (.devSvnAdvance c) devSvnAdvanceSpec c s [] u) ∧
          (u.boot.svnMin < n → Answered (.devSvnAdvance c) devSvnAdvanceSpec c s [] (raise 997 [] [wd n] { u with boot := { u.boot with svnMin := n } }))) ∧
      (Served ownerKeyFuseSpec c s → let u := readCall 0x0120 c s
        (pw c.words 8 = 0x4B455946 → u.boot.ownerState = 0 → ∃ t, exec (.ownerKeyFuse c) s = .next t ∧ if Config.freeBool u.free = true then t = respond 0x0120 c .done []
            (raise 996 [] [0] { u with boot := { u.boot with ownerState := 1, ownerHash := bytesOfWords (c.words.take 8) }, free := u.free + 1 })
          else t.boot.ownerState = 2 ∧ { t.boot with ownerState := 0, ownerHash := u.boot.ownerHash } = u.boot) ∧
        (pw c.words 8 = 0x4B455946 → u.boot.ownerState ≠ 0 → exec (.ownerKeyFuse c) s = .next (respond 0x0120 c .badState [] u)) ∧
        (pw c.words 8 ≠ 0x4B455946 → exec (.ownerKeyFuse c) s = .next (respond 0x0120 c .badArg [] u))))

/-- R121, R123, R124, R126, R127: a domain that is OFF, or coming up, with its needs met waits for its turn; a second call joins the first;
one that is ON answers at once; one that drains answers PENDING; OFF drains a domain that nothing needs, waits for the end of its RAMP,
and answers BAD_STATE where something needs it; a domain above 71 answers BAD_ARG. R122, R127, R128: the
switch-on at the head of the queue takes its voltage step, ramps after it, and is ON at the end of its ramp; one that finds its domain ON
answers DONE, and one that finds it neither ON nor OFF, or its needs lost, answers BAD_STATE; a domain that has drained
is OFF, has lost what it held and answers, and a shed of it ends and goes on where the pace is still short; with nothing to switch, ramp
or drain each of these commands changes nothing; a domain's state is read by its code. That the message's bit and not the row's name
decides, what an OFF cancels, when needs are looked at again and what a DRAIN still keeps ON are the model's readings (logs 45, 70, 71,
73). -/
def Obligations.DomainsTakeTheirTurn : Prop :=
  (
    ∀ (c : Call) (s : State), Served pwrDomainSetSpec c s → let u := readCall 0x0130 c s; let w := pw c.words 0; let d := fld w 6 0; let x := domOf u d
      let r := refFor 0x0130 c u
      (71 < d → exec (.pwrDomainSetOn c) s = .next (respond 0x0130 c .badArg [] u) ∧ exec (.pwrDomainSetOff c) s = .next (respond 0x0130 c .badArg [] u)) ∧
      (d ≤ 71 → exec (.pwrDomainSetOn c) s = exec (.pwrDomainSetOff c) s) ∧
      (d ≤ 71 → bit w 8 = true → u.pwr.tripped = false →
        (x.st = .on → Answered (.pwrDomainSetOn c) pwrDomainSetSpec c s [] u) ∧
        (x.st = .ramp → exec (.pwrDomainSetOn c) s = .next (modDom d (fun x => { x with onRefs := x.onRefs ++ [r] }) (defer_ r u))) ∧
        (x.st = .drain → exec (.pwrDomainSetOn c) s = .next (respond 0x0130 c .pending [] (setDom d { x with pendingOn := true } u))) ∧
        (x.st = .off → (∃ o ∈ comingOn u, o.dom = d) → exec (.pwrDomainSetOn c) s = .next (modDom d (fun x => { x with onRefs := x.onRefs ++ [r] }) (defer_ r u))) ∧
        (x.st = .off → (∀ o ∈ comingOn u, o.dom ≠ d) → (∀ n ∈ needsOf d, willBeOn u n = true) → exec (.pwrDomainSetOn c) s = .next (enqueueOn ⟨d, some r, false⟩ (defer_ r u))) ∧
        (x.st = .off → (∀ o ∈ comingOn u, o.dom ≠ d) → (∃ n ∈ needsOf d, willBeOn u n = false) → exec (.pwrDomainSetOn c) s = .next (respond 0x0130 c .badState [] u))) ∧
      (d ≤ 71 → bit w 8 = true → u.pwr.tripped = true → exec (.pwrDomainSetOn c) s = .next (respond 0x0130 c .badState [] u)) ∧
      (d ≤ 71 → bit w 8 = false → let wait (t : State) : State := modDom d (fun x => { x with offRefs := x.offRefs ++ [r] }) (defer_ r t)
        (x.st = .off → Answered (.pwrDomainSetOff c) pwrDomainSetSpec c s [] (cancelOn d u)) ∧
        (x.st = .drain → exec (.pwrDomainSetOff c) s = .next (modDom d (fun x => { x with pendingOn := false }) (wait u))) ∧
        (x.st = .on → neededBy u d = false → (d < 32 → (spanOf u d).st = .closed) → exec (.pwrDomainSetOff c) s = .next (startDrain d (wait u))) ∧
        (x.st = .ramp → neededBy u d = false → exec (.pwrDomainSetOff c) s = .next (modDom d (fun x => { x with offAfterRamp := true }) (wait u))) ∧
        ((x.st = .on ∨ x.st = .ramp) → neededBy u d = true → exec (.pwrDomainSetOff c) s = .next (respond 0x0130 c .badState [] u)) ∧
        (x.st = .on → d < 32 → (spanOf u d).st ≠ .closed → exec (.pwrDomainSetOff c) s = .next (respond 0x0130 c .badState [] u)))) ∧
  (
    ∀ (s : State),
      (∀ o q, s.pwr.queue = o :: q → s.pwr.preRamp = none → anyRamp s = false → let t := setPwr { s.pwr with queue := q } s
        let ended (st : Status) : State := let x := domOf t o.dom; answerAll (o.ref.toList ++ x.onRefs) st (setDom o.dom { x with onRefs := [] } t)
        ((domOf s o.dom).st = .on → exec .powerSwitchOnTurn s = .next (ended .done)) ∧
        ((domOf s o.dom).st = .off → needsMet s o.dom = true →
          exec .powerSwitchOnTurn s = .next (setVdd (min 800 (s.pwr.vdd + 20)) (setPwr { t.pwr with preRamp := some o } t))) ∧
        ((domOf s o.dom).st ≠ .on → ((domOf s o.dom).st ≠ .off ∨ needsMet s o.dom = false) → exec .powerSwitchOnTurn s = .next (ended .badState))) ∧
      (s.pwr.queue = [] ∨ s.pwr.preRamp.isSome = true ∨ anyRamp s = true → exec .powerSwitchOnTurn s = .next s) ∧
      (∀ o, s.pwr.preRamp = some o → let t := setPwr { s.pwr with preRamp := none } s
        ((domOf s o.dom).st = .off → needsMet s o.dom = true → exec .avsPreRampWaitEnd s = .next (keysReturn o.dom (modDom o.dom (fun x =>
          { x with st := .ramp, onFromPending := o.fromPending, onRefs := o.ref.toList ++ x.onRefs, offAfterRamp := false }) t))) ∧
        (((domOf s o.dom).st ≠ .off ∨ needsMet s o.dom = false) →
          exec .avsPreRampWaitEnd s = .next (let x := domOf t o.dom; answerAll (o.ref.toList ++ x.onRefs) .badState (setDom o.dom { x with onRefs := [] } t)))) ∧
      (s.pwr.preRamp = none → exec .avsPreRampWaitEnd s = .next s) ∧
      (rampingDom s = none → exec .rampEnd s = .next s) ∧
      (∀ d, rampingDom s = some d → let x := domOf s d; let u := tdLink d (laneFlags s 22) (setDom d { x with st := .on, onRefs := [], onFromPending := false, onSince := s.tb } s)
        let first := hasPace d && !(List.range 72).any fun e => e ≠ d && hasPace e && domOn u e
        let u := quadRampEnd d (domReturns d (setPwr { u.pwr with paceLowValid := u.pwr.paceLowValid && !first } u))
        (x.onFromPending = false → x.offAfterRamp = false → exec .rampEnd s = .next (answerAll x.onRefs .done u)) ∧
        (x.onFromPending = true → x.offAfterRamp = false → exec .rampEnd s = .next (raise 930 [] [wd d] (answerAll x.onRefs .done u))) ∧
        (x.onFromPending = false → x.offAfterRamp = true → exec .rampEnd s = .next (startDrain d (answerAll x.onRefs .done u))) ∧
        (x.onFromPending = true → x.offAfterRamp = true → exec .rampEnd s = .next (startDrain d (raise 930 [] [wd d] (answerAll x.onRefs .done u))))) ∧
      (∀ d : DomIx, (domOf s d).st = .drain → let x := domOf s d
        let t := answerAll x.offRefs .done (domLoses d (setDom d { x with st := .off, pendingOn := false, offRefs := [], pace := 0, paceValid := false } s))
        let t := if x.pendingOn then enqueueOn ⟨d, none, true⟩ t else t; let v := setPwr { t.pwr with shedding := none } t
        (t.pwr.shedding ≠ some d.val → exec (.drainEnd d) s = .next t) ∧
        (t.pwr.shedding = some d.val → (v.pwr.paceShed && paceShort v) = false → exec (.drainEnd d) s = .next v) ∧
        (t.pwr.shedding = some d.val → (v.pwr.paceShed && paceShort v) = true → exec (.drainEnd d) s = .next (shedFrom (v.pwr.shedList.drop v.pwr.shedNext) v))) ∧
      (∀ d : DomIx, (domOf s d).st ≠ .drain → exec (.drainEnd d) s = .next s) ∧
      (∀ c : Call, Served pwrDomainGetSpec c s → 71 < fld (pw c.words 0) 6 0 →
        exec (.pwrDomainGet c) s = .next (respond 0x0131 c .badArg [] (readCall 0x0131 c s))) ∧
      (∀ c : Call, Served pwrDomainGetSpec c s → let u := readCall 0x0131 c s; let x := domOf u (fld (pw c.words 0) 6 0)
        fld (pw c.words 0) 6 0 ≤ 71 → Answered (.pwrDomainGet c) pwrDomainGetSpec c s
          [match x.st with | .off => 0 | .ramp => 1 | .on => 2 | .drain => if x.pendingOn then 4 else 3] u))

/-- R34, R128 to R130: the voltage rises by 10 mV where the lowest pace is below RAISE or a monitor alarms, falls by 5 mV after 20 ticks
above LOWER, and stays between 650 and 800 mV; a window ends at a multiple of 10 µs and records the pace of each monitored domain that was
ON for the whole of it, counting and telling a pace below 1,819; with the pace short at 0.80 V the shed list's next domain that is ON and
not needed is shed, its Span first switched over or closed. R131, R133, R535: the warning is told at its threshold, 115 °C sheds, a trip
takes every domain's power, and the trip ends below 100 °C; an alert of the power manager is told; the temperature, voltage and pace are
read. A command that meets none of its conditions only takes note of Tj or changes nothing. How the shed list
goes on, the free power report, what becomes of a shed that is under way, and what a trip answers and loses besides R131's list are the
model's choices (logs 72, 74, 156, 171). -/
def Obligations.VoltageAndTemperatureAct : Prop :=
  (
    ∀ (s : State),
      (∀ d v, lowestPace s = some (d, v) → v < s.pwr.raise →
        exec .avsControlTick s = .next (setVdd (min (s.pwr.vdd + 10) 800) (setPwr { s.pwr with lowerRuns := 0 } s))) ∧
      (∀ d v, lowestPace s = some (d, v) → s.pwr.raise ≤ v → s.pwr.lower < v → (s.pwr.lowerRuns < 19 →
          exec .avsControlTick s = .next (setPwr { s.pwr with lowerRuns := s.pwr.lowerRuns + 1 } s)) ∧
        (19 ≤ s.pwr.lowerRuns → exec .avsControlTick s = .next (setVdd (max (s.pwr.vdd - 5) 650) (setPwr { s.pwr with lowerRuns := 20 } s)))) ∧
      (∀ d v, lowestPace s = some (d, v) → s.pwr.raise ≤ v → v ≤ s.pwr.lower → exec .avsControlTick s = .next (setPwr { s.pwr with lowerRuns := 0 } s)) ∧
      (lowestPace s = none → exec .avsControlTick s = .next (setPwr { s.pwr with lowerRuns := 0 } s)) ∧
      (∀ d : DomIx, domLive s d = true → hasPace d = true → exec (.paceAlarm d) s = .next (raise 929 [] [wd d] (setVdd (min (s.pwr.vdd + 10) 800) s))) ∧
      (∀ d : DomIx, domLive s d = false ∨ hasPace d = false → exec (.paceAlarm d) s = .next s) ∧
      (∀ l : List (DomIx × Nat), let e := paceEnd s; let t := setPwr { s.pwr with lastPace := e } (advance e s)
        let u := forEach l (fun x u => paceOne x.1 x.2 e u) t
        e % paceTb = 0 ∧ s.tb ≤ e ∧
        (lowestPace u = none → exec (.paceWindowEnd l) s = .next u) ∧
        (∀ d v, lowestPace u = some (d, v) → let w := setPwr { u.pwr with paceLowValid := true, paceLowDom := d, paceLow := v } u
          (v < 1819 → exec (.paceWindowEnd l) s = .next w) ∧
          (1819 ≤ v → u.pwr.tj < 460 → exec (.paceWindowEnd l) s = .next (setPwr { w.pwr with paceShed := false, shedNext := 0 } w)) ∧
          (1819 ≤ v → 460 ≤ u.pwr.tj → exec (.paceWindowEnd l) s = .next (setPwr { w.pwr with paceShed := false } w)))) ∧
      (∀ (d : DomIx) (n e : Nat), let v := n / 10; let t := gaugeMin (cDom 0 d) v (modDom d (fun x => { x with pace := v, paceValid := true }) s)
        ((domOf s d).st ≠ .on ∨ e < (domOf s d).onSince + paceTb ∨ hasPace d = false → paceOne d n e s = s) ∧
        ((domOf s d).st = .on → (domOf s d).onSince + paceTb ≤ e → hasPace d = true →
          (1819 ≤ v → paceOne d n e s = t) ∧
          (v < 1819 → s.pwr.vdd ≠ 800 → paceOne d n e s = cnt (cDom 1 d) 1 t) ∧
          (v < 1819 → s.pwr.vdd = 800 → paceOne d n e s = raise 928 [] [wd d] (cnt (cDom 1 d) 1 t)))) ∧
      (paceShort s = true → s.pwr.shedding = none → exec .paceShedTimeout s = .next (let t := setPwr { s.pwr with paceShed := true } s
        shedFrom (s.pwr.shedList.drop s.pwr.shedNext) t)) ∧
      (paceShort s = true → s.pwr.shedding ≠ none → exec .paceShedTimeout s = .next (setPwr { s.pwr with paceShed := true } s)) ∧
      (paceShort s = false → exec .paceShedTimeout s = .next s) ∧
      (∀ (d : Nat) (l : List Nat) (t : State), let next := setPwr { t.pwr with shedNext := t.pwr.shedNext + 1 } t
        let r := raise 931 [] [wd d] (setPwr { t.pwr with shedNext := t.pwr.shedNext + 1, shedding := some d } t)
        (domOn t d = false ∨ neededBy t d = true → shedFrom (d :: l) t = shedFrom l next) ∧
        (domOn t d = true → neededBy t d = false → (d < 32 → (spanOf t d).st = .closed) → shedFrom (d :: l) t = startDrain d r) ∧
        (domOn t d = true → neededBy t d = false → d < 32 → (spanOf t d).st ≠ .closed → (spanOf t d).st ≠ .opened ∨ activeHere r d = false →
          shedFrom (d :: l) t = shedAdvance r) ∧
        (domOn t d = true → neededBy t d = false → d < 32 → (spanOf t d).st = .opened → activeHere r d = true →
          shedFrom (d :: l) t = shedAdvance (releaseSynced 4 [d] r)))) ∧
  (
    ∀ (s : State) (tj : Int), let noted := gaugeTj tj (setPwr { s.pwr with tj := tj } s)
      let noted := if tj < 460 ∧ s.pwr.paceShed = false then setPwr { noted.pwr with paceShed := false, shedNext := 0 } noted else noted
      ((4 * s.pwr.warn : Nat) ≤ tj → exec (.thermalWarn tj) s = .next (raise 932 [] [wd (unsgn 16 tj)] noted)) ∧
      (tj < (4 * s.pwr.warn : Nat) → exec (.thermalWarn tj) s = .next noted) ∧
      (460 ≤ tj → noted.pwr.shedding = none → exec (.thermalHotTimeout tj) s = .next (shedFrom (noted.pwr.shedList.drop noted.pwr.shedNext) noted)) ∧
      (tj < 460 ∨ noted.pwr.shedding ≠ none → exec (.thermalHotTimeout tj) s = .next noted) ∧
      (tj < 500 ∨ s.pwr.tripped = true → exec (.thermalTrip tj) s = .next noted) ∧
      (500 ≤ tj → s.pwr.tripped = false → exec (.thermalTrip tj) s = .next (raise 933 [] [wd (unsgn 16 tj)]
        (forEach (List.range 72) tripDom (let u := gaugeTj tj (setPwr { s.pwr with tj := tj } s)
          let u := releaseSynced 4 ((List.range 32).filter (activeHere (setPwr { u.pwr with tripped := true } u))) (setPwr { u.pwr with tripped := true } u)
          let u := forEach (List.range 32) (fun sp u => threePiers (fun p u => opticDark sp p u) u) u
          let u := forEach ((List.range 32).filter fun sp => (spanOf u sp).st ≠ .closed)
            (fun sp u => modSpan sp (fun v => { v with openPending := false }) (spanClosed sp u)) u
          forEach (comingOn u) (fun o u => answerOpt o.ref .badState [] u)
            (setPwr { u.pwr with queue := [], preRamp := none, shedding := none, paceShed := false, shedNext := 0 } u))))) ∧
      (s.pwr.tripped = true → tj < 400 → exec (.thermalClear tj) s = .next (raise 934 [] [wd (unsgn 16 tj)] (setPwr { noted.pwr with tripped := false } noted))) ∧
      (s.pwr.tripped = false ∨ 400 ≤ tj → exec (.thermalClear tj) s = .next noted) ∧
      (∀ st : BitVec 16, exec (.pmbAlert st) s = .next (raise 935 [] [wd st.toNat] s)) ∧
      (∀ c : Call, Served thermalReadSpec c s → let u := readCall 0x0142 c s; Answered (.thermalRead c) thermalReadSpec c s
        [wd (unsgn 16 u.pwr.tj), wd u.pwr.vdd, wd u.pwr.paceLow, Config.freeWord u.free &&& 0xFFFF] { u with free := u.free + 1 }))

/-- R142, R150 to R152, R147, R156, R158, R186, R551: a search window takes up the burst that is due first, notes its rate and its end and
gives its strobes: BRST for 3.2 ns from the burst's first unit, less T_RX_CAL, and BEN over the burst's range and its margins, a gap under
25.6 ns filled; a burst that stands too close to one of another rate is not received; a header in time that carries the granted ONU-ID
accepts the burst and ends a LOS, another is counted; a window that ends without one counts a missed burst; the last bit ends the burst, keeps what its
allocations carried and, on the H-pier, its equaliser's state and its Splice. Without a window, a burst or a receiver these commands
change nothing. A Splice load gives the H-pier's equaliser the ONU's VALID Splice, or the default state. -/
def Obligations.BurstsAreSearchedAndAccepted : Prop :=
  ∀ (s : State) (sp : SpanIx) (pier : PierIx), let x := pierOf s sp pier
    (x.rxOn = false ∨ firstDue s sp pier x.due = none → exec (.searchWindowStart sp pier) s = .next s) ∧
    (∀ d rest, x.rxOn = true → firstDue s sp pier x.due = some (d, rest) → let w := searchWindow s sp pier d
      let t := setPier sp pier { x with
        due := rest, rx := some { due := d, w0 := w.1, wEnd := w.2.1, deaf := tooClose s sp pier d }
        snFrom := if d.grant.kind = 2 then some w.1 else x.snFrom } s
      let t := if d.grant.kind = 0 then modPier sp pier (fun y => { y with
        lastBurst := some ((d.prof.map (·.rate)).getD 0, (burstSpan pier d).2) }) t else t
      exec (.searchWindowStart sp pier) s = .next (strobes sp pier d t)) ∧
    (∀ (d : Due), let r := burstRange s sp pier d; let at_ (q : Rat) : Nat := (q - (x.tRx : Nat)).floor.toNat
      let rise := at_ (r.1 - marginPs x); let fall := at_ (r.2 + marginPs x); let n := 3 * sp.val + pier.val
      let t := emit (.level 2 n (at_ r.1) (at_ r.1 + 3200)) (modPier sp pier (fun y => { y with benFall := max y.benFall fall }) s)
      (x.benFall + 25600 ≤ rise → strobes sp pier d s = emit (.level 3 n rise fall) t) ∧
      (rise < x.benFall + 25600 → strobes sp pier d s = emit (.level 3 n (min x.benFall fall) fall) t)) ∧
    (∀ (d : Due) (f : BProf) (o : Nat), d.grant.kind = 0 → d.prof = some f → d.grant.onu = some o → (spanOf s sp).standby = false →
      let a := ((125000000 * d.frame : Nat) : Rat) + teqdPs s sp pier + ((d.grant.start - headUnits pier f : Nat) : Rat) * unitPs pier
      burstRange s sp pier d = (a, a + (d.grant.n : Nat) * unitPs pier)) ∧
    (∀ d : Due, d.grant.kind ≠ 0 → burstRange s sp pier d = ((searchWindow s sp pier d).1, (searchWindow s sp pier d).2.1)) ∧
    (∀ b : BurstHead, x.rx = none → exec (.delimiterMatch sp pier b) s = .next s) ∧
    (∀ r (b : BurstHead), x.rx = some r → let rate := (r.due.prof.map (·.rate)).getD 0
      let want := match r.due.grant.onu with | some o => (onuOf s sp o).onuId.getD (allOnus pier) | none => allOnus pier
      let late := r.wEnd ≤ r.w0 + ((b.pos : Nat) : Rat) * bitPs pier rate
      (r.accepted = true ∨ r.ended = true ∨ r.deaf = true ∨ late → exec (.delimiterMatch sp pier b) s = .next s) ∧
      (r.accepted = false → r.ended = false → r.deaf = false → ¬ late → b.headerOk = true → b.onuId = want →
        let t := setPier sp pier { x with rx := some { r with accepted := true }, burstSeen := true } s
        let t := if x.los then pierDefect sp pier 0 false (modPier sp pier (fun y => { y with los := false }) t) else t
        (r.due.grant.onu = none → exec (.delimiterMatch sp pier b) s = .next t) ∧
        (∀ o, r.due.grant.onu = some o → exec (.delimiterMatch sp pier b) s = .next (burstAccepted sp pier o b r (searchWindow t sp pier r.due).2.2 t))) ∧
      (r.accepted = false → r.ended = false → r.deaf = false → ¬ late → b.headerOk = false ∨ b.onuId ≠ want →
        let t := setPier sp pier { x with rx := some { r with mismatch := r.mismatch || b.headerOk } } s
        (r.due.grant.onu = none → exec (.delimiterMatch sp pier b) s = .next t) ∧
        (∀ o, r.due.grant.onu = some o → exec (.delimiterMatch sp pier b) s = .next (cnt (cOnu 3 sp o) 1 t)))) ∧
    (x.rx = none → exec (.searchWindowEnd sp pier) s = .next s) ∧
    (∀ r, x.rx = some r → let gone := setPier sp pier { x with rx := none } s
      (r.ended = true → exec (.searchWindowEnd sp pier) s = .next s) ∧
      (r.ended = false → r.accepted = true → exec (.searchWindowEnd sp pier) s = .next (setPier sp pier { x with rx := some { r with ended := true } } s)) ∧
      (r.ended = false → r.accepted = false → r.due.grant.onu = none → exec (.searchWindowEnd sp pier) s = .next gone) ∧
      (∀ o, r.ended = false → r.accepted = false → r.due.grant.onu = some o → exec (.searchWindowEnd sp pier) s = .next (burstMissed sp pier o r gone))) ∧
    (∀ a : Adapted, (∀ r, x.rx = some r → r.accepted = false) → exec (.burstLastBit sp pier a) s = .next s) ∧
    (∀ r (a : Adapted), x.rx = some r → r.accepted = true →
      let t := setPier sp pier { x with rx := none, eq := if pier = 0 then ⟨a.ffe, a.dfe1, a.dfe2, a.gain, a.phase, a.mse, true⟩ else x.eq } s
      let t := forEach r.due.grant.served (fun b t => match allocOf t sp b.1 with
        | some y => setAlloc sp b.1 { y with tmSeen := true, tmLast := (y.tmBytes, y.tmIdle) } t
        | none => t) t
      (r.due.grant.onu = none ∨ pier ≠ 0 ∨ r.due.grant.kind ≠ 0 → exec (.burstLastBit sp pier a) s = .next t) ∧
      (∀ o, r.due.grant.onu = some o → pier = 0 → r.due.grant.kind = 0 → exec (.burstLastBit sp pier a) s = .next (spliceWrite sp o r.due a t))) ∧
    (∀ o : OnuIx, exec (.spliceLoad sp o) s = .next (modPier sp 0 (fun q => { q with eq := if (onuOf s sp o).splice.valid then (onuOf s sp o).splice else {} }) s))

/-- R139, R153 to R155, R157, R161, R250: what an accepted burst carries reaches its counters, its error windows, the Truss, the PLOAM timers
and the upstream pipeline: codewords, or the BIP-8 errors of a G-pier ONU without FEC; reports; the upstream messages, of which a reply
ends the wait for one and a Dying_Gasp declares DGi; and frames, of an OMCC to their slice's ring and of other ports to the pipeline. With
no accepted burst of that ONU these commands change nothing. The 48-byte form of an upstream message with its MIC and the 13-byte form with
its CRC-8 are taken from the standards (notes/assumptions/5, PRESUMED); whether a G-pier ONU uses FEC is left open (notes/assumptions/126). -/
def Obligations.BurstContentsAreTaken : Prop :=
  (
    ∀ (s : State) (sp : SpanIx) (pier : PierIx), rxOnu s sp pier = none →
      (∀ bits c bip, exec (.fecCodewordDecoded sp pier bits c bip) s = .next s) ∧
      (∀ (a : Fin 2048) (v : Nat) (ok : Bool), exec (.dbruExtracted sp pier a v ok) s = .next s) ∧
      (∀ msg check : List Byte, exec (.ploamuExtracted sp pier msg check) s = .next s) ∧
      (∀ (o : OnuIx) (f : GemUp), exec (.upstreamXgemFrame sp pier o f) s = .next s)) ∧
  (
    ∀ (s : State) (sp : SpanIx) (pier : PierIx) (o : OnuIx) (d : Due), rxOnu s sp pier = some (o.val, d) →
    (∀ bits bip c, pier = 2 → Config.onuFec sp o = false →
      exec (.fecCodewordDecoded sp pier bits c bip) s = .next (berAdd sp o bits bip (cnt (cOnu 8 sp o) bip s))) ∧
    (∀ bits bip c, pier ≠ 2 → (∀ f, d.prof = some f → f.fec = false) → exec (.fecCodewordDecoded sp pier bits c bip) s = .next s) ∧
    (∀ bits bip c, (pier = 2 ∧ Config.onuFec sp o = true) ∨ (pier ≠ 2 ∧ ∃ f, d.prof = some f ∧ f.fec = true) →
      exec (.fecCodewordDecoded sp pier bits c bip) s = .next (
        match c with
        | some n => berAdd sp o bits n (cnt (cOnu 6 sp o) n (cnt (cOnu 5 sp o) 1 s))
        | none => berAdd sp o bits (if pier = 0 then 64 else 9) (cnt (cOnu 7 sp o) 1 (cnt (cOnu 5 sp o) 1 s)))) ∧
    (∀ (a : Fin 2048) (v : Nat), exec (.dbruExtracted sp pier a v true) s = .next (cnt (cOnu 14 sp o) 1 (reportIn sp pier a v d.frame s)) ∧
      exec (.dbruExtracted sp pier a v false) s = .next (cnt (cOnu 15 sp o) 1 s)) ∧
    (∀ msg check : List Byte, let bs := msg ++ check; ploamOk s sp pier o bs = true → let t := cnt (cOnu 16 sp o) 1 s; let type := ploamType pier bs
      let t := if isDyingGasp pier type then setDefect sp o 5 true true t else t
      (isReply type = true → t.boot.ready = true → (spanOf t sp).standby = false → exec (.ploamuExtracted sp pier msg check) s = .next (replied sp o t)) ∧
      (isReply type = false ∨ t.boot.ready = false ∨ (spanOf t sp).standby = true → exec (.ploamuExtracted sp pier msg check) s = .next t)) ∧
    (∀ msg check : List Byte, ploamOk s sp pier o (msg ++ check) = false → exec (.ploamuExtracted sp pier msg check) s = .next (cnt (cOnu 17 sp o) 1 s)) ∧
    (∀ bs : List Byte, (pier = 2 → (ploamOk s sp pier o bs = true ↔ bs.length = 13 ∧ bs.drop 12 = [crc8 (bs.take 12)])) ∧
      (pier ≠ 2 → (ploamOk s sp pier o bs = true ↔ bs.length = 48 ∧ bs.drop 40 = ploamMic (ploamIk s sp o) 2 (bs.take 40)))) ∧
    (∀ (q : OnuIx) (f : GemUp), q ≠ o ∨ f.overlapBad = true → exec (.upstreamXgemFrame sp pier q f) s = .next s) ∧
    (∀ f : GemUp, f.overlapBad = false →
      let noted (n : Nat) : State := match allocOf s sp f.alloc with
        | some x => if x.onu = o.val then setAlloc sp f.alloc { x with tmBytes := x.tmBytes + n, tmIdle := x.tmIdle || f.idle } s else s
        | none => s
      let t := noted f.payload.length; let key := openUp t sp o pier f.keyIx (counterBlock pier d.frame f.pos) f.payload
      (f.headerOk = false → exec (.upstreamXgemFrame sp pier o f) s = .next (cnt (cOnu 12 sp o) 1 s)) ∧
      (f.headerOk = true → f.idle = true → exec (.upstreamXgemFrame sp pier o f) s = .next (noted 0)) ∧
      (f.headerOk = true → f.idle = false → key = none → exec (.upstreamXgemFrame sp pier o f) s = .next (cnt (cOnu 13 sp o) 1 t)) ∧
      (∀ bs, f.headerOk = true → f.idle = false → key = some bs → let u := cnt (cOnu 10 sp o) bs.length (cnt (cOnu 9 sp o) 1 t)
        ((onuOf t sp o).onuId ≠ some f.portId → exec (.upstreamXgemFrame sp pier o f) s = .next
          { u with fwd := { u.fwd with up := u.fwd.up ++ [⟨sp, f.portId, o, bs, u.tb⟩] } }) ∧
        (∀ fn, (onuOf t sp o).onuId = some f.portId → puntFn t (onuOwner t sp o) = some fn →
          exec (.upstreamXgemFrame sp pier o f) s = .next (deliver fn 1 (wd (o * 2 ^ 16 + sp)) t.tb bs u)) ∧
        ((onuOf t sp o).onuId = some f.portId → puntFn t (onuOwner t sp o) = none →
          exec (.upstreamXgemFrame sp pier o f) s = .next { t with ctl := { t.ctl with
            omciDrops := kset t.ctl.omciDrops (onuOwner t sp o) (kgetD t.ctl.omciDrops (onuOwner t sp o) 0 + 1) } }))))

/-- R148, R156 to R158, R200, R202: the error windows judge SD and SF, a window short of bits is extended for 60 s at most, a Splice's
state follows R148 and its fall is told, and the defect timers declare and clear their defects; a confirmation that ends unconfirmed is
sent again or declares DFi, once a measurement under way is complete. R158, R182, R206, R460, R471: a Pier's and a lane's transmit lock, a
discovered entry's life and the search for a rogue ONU, which goes on by the Pier's ROGUE defect; how the search halves and how a
confirmation is repeated are read from R206 and R202 (log 34). A timer that finds nothing to do
changes nothing. -/
def Obligations.DefectsAndPierTimersAct : Prop :=
  (
    ∀ (s : State) (sp : SpanIx) (o : OnuIx), let x := onuOf s sp o; let q := pierOf s sp x.pier
      (let w := { x.sd with windows := x.sd.windows + 1 }; let short := w.n < 10 * 10 ^ q.sdExp; let t := setOnu sp o { x with sd := {}, sdLast := (w.n, w.e) } s
        (short → w.windows < 60 → exec (.sdWindowEnd sp o) s = .next (setOnu sp o { x with sd := w } s)) ∧
        (short → 60 ≤ w.windows → exec (.sdWindowEnd sp o) s = .next t) ∧
        (¬ short → exec (.sdWindowEnd sp o) s = .next (judgeBer sp o 1 q.sdExp w t))) ∧
      (let w := { x.sf with windows := x.sf.windows + 1 }; let short := w.n < 10 * 10 ^ q.sfExp; let t := setOnu sp o { x with sf := {} } s
        (short → w.windows < 6000 → exec (.sfWindowEnd sp o) s = .next (setOnu sp o { x with sf := w } s)) ∧
        (short → 6000 ≤ w.windows → exec (.sfWindowEnd sp o) s = .next t) ∧
        (¬ short → exec (.sfWindowEnd sp o) s = .next (judgeBer sp o 2 q.sfExp w t))) ∧
      ((spliceOkNow s sp o = x.spliceOk → exec (.spliceAgeExpiry sp o) s = .next s) ∧
        (x.spliceOk = true → spliceOkNow s sp o = false →
          exec (.spliceAgeExpiry sp o) s = .next (spanEvt sp 10 (some o.val) 0 (min 15 x.failRun) (setOnu sp o { x with spliceOk := false } s))) ∧
        (x.spliceOk = false → spliceOkNow s sp o = true → exec (.spliceAgeExpiry sp o) s = .next (setOnu sp o { x with spliceOk := true } s))) ∧
      (x.st = .active → x.defects.getLsbD 0 = true → q.lobDeact ≠ 0 → activates s sp = true →
        exec (.lobDeactTimeout sp o) s = .next (deactivate sp o false (spanEvt sp 12 (some o.val) x.pier 0 s))) ∧
      (x.st ≠ .active ∨ x.defects.getLsbD 0 = false ∨ q.lobDeact = 0 ∨ activates s sp = false → exec (.lobDeactTimeout sp o) s = .next s) ∧
      (x.defects.getLsbD 5 = true → exec (.dgiClearTimeout sp o) s = .next (spanEvt sp 6 (some o.val) x.pier 32 (setOnu sp o
        { x with defects := x.defects &&& ~~~ (32 : BitVec 9) } s))) ∧
      (x.defects.getLsbD 5 = false → exec (.dgiClearTimeout sp o) s = .next s) ∧
      (x.st = .active → x.ploamWait = true → activates s sp = true →
        (x.ploamMiss < 2 → exec (.ploamReplyTimeout sp o) s = .next (setOnu sp o { x with ploamMiss := x.ploamMiss + 1 } s)) ∧
        (2 ≤ x.ploamMiss → exec (.ploamReplyTimeout sp o) s = .next (deactivate sp o false (setDefect sp o 4 true true (setOnu sp o { x with ploamMiss := 3 } s))))) ∧
      (x.st ≠ .active ∨ x.ploamWait = false ∨ activates s sp = false → exec (.ploamReplyTimeout sp o) s = .next s) ∧
      (∀ c, x.corr = some c → c.carried = true → x.meas = none → (3 ≤ c.sends → exec (.eqdConfirmTimeout sp o) s = .next (driftDefect sp o 1 s)) ∧
        (c.sends < 3 → exec (.eqdConfirmTimeout sp o) s = .next (sendCorr sp o { c with ended := false } s))) ∧
      (∀ c m, x.corr = some c → c.carried = true → x.meas = some m →
        exec (.eqdConfirmTimeout sp o) s = .next (setOnu sp o { x with corr := some { c with ended := true } } s)) ∧
      ((∀ c, x.corr = some c → c.carried = false) → exec (.eqdConfirmTimeout sp o) s = .next s)) ∧
  (
    ∀ (s : State) (sp : SpanIx) (pier : PierIx), let n := 32 + 3 * sp.val + pier.val; let q := pierOf s sp pier
      (∀ l : LaneIx, l.val = n → laneAwake s n = true → (laneOf s n).txLol = false → exec (.pierTxLockLoss l) s = .next (hawserLines (pierDefect sp pier 1 true
        (modPier sp pier (fun x => { x with txLol := true, txOn := false }) (modLane n (fun x => { x with txLol := true }) s))))) ∧
      (∀ l : LaneIx, l.val = n → (laneOf s n).txLol = true → let t := modLane n (fun x => { x with txLol := false }) s
        ((pierOf s sp pier).txLol = true → exec (.txLockHeld l) s = .next (hawserLines (pierDefect sp pier 1 false (modPier sp pier (fun x => { x with txLol := false }) t)))) ∧
        ((pierOf s sp pier).txLol = false → exec (.txLockHeld l) s = .next (hawserLines t))) ∧
      (∀ l : LaneIx, l.val < 28 → laneAwake s l = true → (laneOf s l).txLol = false →
        exec (.pierTxLockLoss l) s = .next (hawserLines (cnt (cLane 2 l) 1 (onLane l (modLane l fun x => { x with txLol := true }) s)))) ∧
      (∀ l : LaneIx, laneAwake s l = false ∨ (laneOf s l).txLol = true ∨ (28 ≤ l.val ∧ l.val < 32) → exec (.pierTxLockLoss l) s = .next (hawserLines s)) ∧
      (∀ l : LaneIx, l.val < 32 → (laneOf s l).txLol = true → exec (.txLockHeld l) s = .next (hawserLines (onLane l (modLane l fun x => { x with txLol := false }) s))) ∧
      (∀ l : LaneIx, (laneOf s l).txLol = false → exec (.txLockHeld l) s = .next (hawserLines s)) ∧
      (∀ e : Fin 64, kget (spanOf s sp).disc e = none → exec (.discEntryExpiry sp e) s = .next s) ∧
      (∀ (e : Fin 64) d, kget (spanOf s sp).disc e = some d → let t := modSpan sp (fun v => { v with disc := kerase v.disc e }) s
        (d.onu = none → exec (.discEntryExpiry sp e) s = .next t) ∧
        (∀ o, d.onu = some o → (onuOf s sp o).st = .held → (spanOf s sp).standby = false → exec (.discEntryExpiry sp e) s = .next (setOnuSt sp o .inactive 0 t)) ∧
        (∀ o, d.onu = some o → (onuOf s sp o).st ≠ .held ∨ (spanOf s sp).standby = true → exec (.discEntryExpiry sp e) s = .next t)) ∧
      (q.search = none → ∀ lit, exec (.rogueHalvingWaitEnd sp pier lit) s = .next s) ∧
      (∀ r, q.search = some r → (spanOf s sp).standby = true → ∀ lit, exec (.rogueHalvingWaitEnd sp pier lit) s = .next (modPier sp pier (fun x => { x with search := none }) s)) ∧
      (∀ r, q.search = some r → (spanOf s sp).standby = false → ∀ lit, let stopped (t : State) : State := modPier sp pier (fun x => { x with search := none }) t
        let t := if q.rogue then rogueEnable sp r.half s else s
        let rest := if q.rogue then r.suspects.filter fun o => !r.half.contains o else r.half
        (rest = [] → exec (.rogueHalvingWaitEnd sp pier lit) s = .next (raise 966 [] [wd (sp * 2 ^ 16 + pier * 2 ^ 12)] (stopped t))) ∧
        (∀ o, rest = [o] → exec (.rogueHalvingWaitEnd sp pier lit) s = .next (raise 965 [] [wd (sp * 2 ^ 16 + pier * 2 ^ 12 + o)]
          (stopped (if (onuOf t sp o).st = .disabled then t else rogueDisable sp [o] t)))) ∧
        (∀ a b l, rest = a :: b :: l → exec (.rogueHalvingWaitEnd sp pier lit) s = .next (rogueStep sp pier { r with suspects := rest } t))))

/-- R174, R177, R178, R180, R181, R182, R184, R185, R190, R192, R193, R199, R202, R203: what a serial number, a ranging burst, a registration,
a measured burst, their timers and the end of a deactivation do to an ONU index. A serial number of an index that is under way is told, an
expected one that is INACTIVE or HELD is activated or held, one expected on another Pier is listed (that its index stays INACTIVE is assumption 131), and an
unknown one is listed or counted as the policy says. Where a command finds its ONU in another state it changes nothing. -/
def Obligations.OnusActivateAndLeave : Prop :=
  ∀ (s : State) (sp : SpanIx) (o : OnuIx), let x := onuOf s sp o
    (∀ (p : PierIx) (serial : BitVec 64) (rate k : Nat), (pierOf s sp p).rxOn = false ∨ rateAdmitted s sp p rate = false →
      exec (.snReceived sp p serial ⟨rate, k⟩) s = .next s) ∧
    (∀ (p : PierIx) (serial : BitVec 64) (rate k : Nat), (pierOf s sp p).rxOn = true → rateAdmitted s sp p rate = true → let u := snMeasured sp p rate k serial s
      activates u sp = false → exec (.snReceived sp p serial ⟨rate, k⟩) s = .next (cnt (cSpan 1 sp) 1 u)) ∧
    (∀ (p : PierIx) (serial : BitVec 64) (rate k : Nat), (pierOf s sp p).rxOn = true → rateAdmitted s sp p rate = true → let u := snMeasured sp p rate k serial s
      activates u sp = true → let t := cnt (cSpan 1 sp) 1 u
      let busy := (onusOf t sp).find? fun i => let y := onuOf t sp i; y.serial = serial && y.st ≠ .inactive && y.st ≠ .held
      let mine := (onusOf t sp).find? fun i => match (onuOf t sp i).expect with | some e => e.serial = serial && e.pier = p.val | none => false
      let wrong := (onusOf t sp).any fun i => match (onuOf t sp i).expect with | some e => e.serial = serial | none => false
      let policy := (spanOf t sp).policy
      (∀ i, busy = some i → exec (.snReceived sp p serial ⟨rate, k⟩) s = .next (raise 962 [] [wd (sp * 2 ^ 16 + i)] (cnt (cSpan 4 sp) 1 t))) ∧
      (∀ i e, busy = none → mine = some i → (onuOf t sp i).expect = some e →
        ((onuOf t sp i).st ≠ .inactive → (onuOf t sp i).st ≠ .held → exec (.snReceived sp p serial ⟨rate, k⟩) s = .next t) ∧
        ((onuOf t sp i).st = .inactive ∨ (onuOf t sp i).st = .held → e.auto = true ∨ (onuOf t sp i).accepted = true → exec (.snReceived sp p serial ⟨rate, k⟩) s = .next (activateOnu sp i p rate serial t)) ∧
        ((onuOf t sp i).st = .inactive ∨ (onuOf t sp i).st = .held → e.auto = false → (onuOf t sp i).accepted = false → exec (.snReceived sp p serial ⟨rate, k⟩) s = .next (holdOnu sp i p rate serial 6 t))) ∧
      (busy = none → mine = none → wrong = true → discRoom t sp serial p = true →
        exec (.snReceived sp p serial ⟨rate, k⟩) s = .next (cnt (cSpan 3 sp) 1 (enterDisc sp ⟨serial, p, rate, 3, none⟩ t))) ∧
      (busy = none → mine = none → (discRoom t sp serial p = false ∨ (wrong = false ∧ policy = 0)) →
        exec (.snReceived sp p serial ⟨rate, k⟩) s = .next (cnt (cSpan 2 sp) 1 t)) ∧
      (busy = none → mine = none → wrong = false → policy ≠ 0 → discRoom t sp serial p = true →
        let old : Option Nat := ((spanOf t sp).disc.find? fun y => y.2.serial = serial && y.2.pier = p.val).map (·.2.cause)
        let u := cnt (cSpan 3 sp) 1 (enterDisc sp ⟨serial, p, rate, if old = some 5 then 5 else if policy = 2 then 2 else 1, none⟩ t)
        (policy = 2 → old ≠ some 5 → exec (.snReceived sp p serial ⟨rate, k⟩) s = .next (askRegistry sp p serial u)) ∧
        (policy ≠ 2 ∨ old = some 5 → exec (.snReceived sp p serial ⟨rate, k⟩) s = .next u))) ∧
    (∀ (p : PierIx) (serial : BitVec 64) (rate k : Nat),
      (∀ w, (pierOf s sp p).snFrom = some w → snMeasured sp p rate k serial s =
        modPier sp p (fun y => { y with snMeas := some (serial, w + ((k : Nat) : Rat) / 64 * bitPs p rate) }) s) ∧
      ((pierOf s sp p).snFrom = none → snMeasured sp p rate k serial s = s)) ∧
    (∀ k : Nat, x.st ≠ .ranging ∨ x.meas = none ∨ activates s sp = false → exec (.rangingBurstAccepted sp o k) s = .next s) ∧
    (∀ m (k : Nat), x.st = .ranging → x.meas = some m → activates s sp = true →
      let rtd := m.w0 + ((k : Nat) : Rat) / 64 * bitPs x.pier x.rate - m.ref; let teqd : Rat := ((1000 * (pierOf s sp x.pier).teqd : Nat) : Rat)
      let eqd := roundUpHalf ((teqd - rtd) / eqdUnit x.pier)
      (teqd < rtd → exec (.rangingBurstAccepted sp o k) s = .next (dropOnu sp o (cnt (cSpan 6 sp) 1 s))) ∧
      (rtd ≤ teqd → let t := setDefect sp o 7 false true s
        exec (.rangingBurstAccepted sp o k) s = .next (tell sp o .requestRegistration []
        (tell sp o .rangingTime [eqd.toNat] (setOnuSt sp o .registering 0 (modOnu sp o (fun y => { y with
          rtd := rtd, eqd := eqd.toNat, offset := eqd * eqdUnit x.pier - (teqd - rtd), distance := distanceOf (pierOf t sp x.pier) rtd, cumul := 0,
          lastErr := 0, corrections := 0, corr := none, rangeMiss := 0, regTries := 1, meas := none, deltaCount := 0 }) t)))))) ∧
    (∀ reg : List Byte, x.st ≠ .registering ∨ x.matched = true ∨ activates s sp = false →
      exec (.registrationReceived sp o reg) s = .next s ∧ exec (.regRequestTimeout sp o) s = .next s) ∧
    (∀ reg : List Byte, x.st = .registering → x.matched = false → activates s sp = true → let t := replied sp o s
      let ok := match (onuOf s sp o).expect with | some e => regMatches x.pier e reg | none => true
      (ok = true → exec (.registrationReceived sp o reg) s = .next (modOnu sp o (fun x => { x with matched := true }) t)) ∧
      (ok = false → exec (.registrationReceived sp o reg) s = .next (
        let t := leaveTo sp o .disabled 7 true (serialMsg sp o true t)
        raise 964 [onuOwner t sp o] (wd (sp * 2 ^ 16 + o) :: toWords 2 (leNat (reg.take 8))) t))) ∧
    (x.st = .registering → x.matched = false → activates s sp = true →
      (3 ≤ x.regTries → exec (.regRequestTimeout sp o) s = .next (dropOnu sp o s)) ∧
      (x.regTries < 3 → exec (.regRequestTimeout sp o) s = .next (tell sp o .requestRegistration [] (setOnu sp o { x with regTries := x.regTries + 1 } s)))) ∧
    (x.st = .deactivating → leaving s sp o = false → (spanOf s sp).standby = false → exec (.deactivatingEnd sp o) s = .next
      (leaveTo sp o (if x.disableAfter then .disabled else .inactive) 0 true (dropOnuQueues sp o s))) ∧
    (x.st ≠ .deactivating ∨ leaving s sp o = true ∨ (spanOf s sp).standby = true → exec (.deactivatingEnd sp o) s = .next s) ∧
    ((spanOf s sp).st = .opened → (spanOf s sp).standby = false → (spanOf s sp).discPeriod ≠ 0 →
      exec (.discoveryPeriod sp) s = .next (modSpan sp (fun v => { v with discDue := true }) s)) ∧
    ((spanOf s sp).st ≠ .opened ∨ (spanOf s sp).standby = true ∨ (spanOf s sp).discPeriod = 0 → exec (.discoveryPeriod sp) s = .next s) ∧
    (∀ serial : BitVec 64, (s.red.lan.asked.contains (serial.toNat, sp.val) = true → exec (.regAnswerTimeout sp serial) s = .next (raise 899 []
        (wd sp :: toWords 2 serial.toNat) (setLan { s.red.lan with asked := s.red.lan.asked.filter (· ≠ (serial.toNat, sp.val)) } s))) ∧
      (s.red.lan.asked.contains (serial.toNat, sp.val) = false → exec (.regAnswerTimeout sp serial) s = .next s)) ∧
    (∀ k : Nat, x.meas = none ∨ (x.st ≠ .active ∧ x.st ≠ .registering) → exec (.arrivalMeasured sp o k) s = .next s) ∧
    (∀ m (k : Nat), x.meas = some m → x.st = .active ∨ x.st = .registering → let t := setOnu sp o { x with meas := none } s
      let at_ := m.w0 + ((k : Nat) : Rat) / 64 * bitPs x.pier x.rate
      ((spanOf s sp).standby = true → exec (.arrivalMeasured sp o k) s = .next (measureStandby sp o at_ m.ref t)) ∧
      ((spanOf s sp).standby = false → let u := track sp o at_ m.ref t; exec (.arrivalMeasured sp o k) s = .next (
        match (onuOf u sp o).corr with | some c => if c.ended then corrOver sp o c u else u | none => u)))

/-- R395 to R400, R418: an ONU's key is loaded when the last of its reports or fragments has come, switches at its frame, ages and retires. A standby
runs no exchange and no switch. A command that finds no exchange, no key of that age, or no acknowledgement outstanding changes nothing,
but that a report ends the wait for a reply. -/
def Obligations.OnuKeysRoll : Prop :=
  (
    ∀ (s : State) (sp : SpanIx) (o : OnuIx), (spanOf s sp).standby = true →
      (∀ ix frag last w, exec (.keyReportReceived sp o ⟨ix, frag, last, w⟩) s = .next s) ∧ (∀ ix frag bytes, exec (.encryptionKeyReceived sp o ix frag bytes) s = .next s) ∧
      exec (.keyExchangeTimeout sp o) s = .next s ∧ (∀ pier : PierIx, exec (.keySwitchFrame sp pier) s = .next s) ∧
      exec (.keyMarginReached sp o) s = .next s ∧ exec (.keyExpired sp o) s = .next s) ∧
  (
    ∀ (s : State) (sp : SpanIx) (o : OnuIx), let k := onuKeys s sp o; let x := onuOf s sp o
    ((spanOf s sp).standby = false →
      (let t := replied sp o s; let y := onuOf t sp o; let kt := onuKeys t sp o
        (∀ (frag : Nat) (last : Bool) (w : List Byte), kt.exchange = true → y.st = .active → y.pier ≠ 2 →
          let u := takeFrag sp o frag last w t; let ku := onuKeys u sp o; let kek := if kt.msk.isSome then kt.kek else Config.defaultKek
          (∀ bs, ku.assembled = some bs → bs.length = 16 →
            exec (.keyReportReceived sp o ⟨claimIx kt, frag, last, w⟩) s = .next (loadKey sp o (leNat (aesDec (toLe 16 kek) bs)) u)) ∧
          (∀ bs, ku.assembled = some bs → bs.length ≠ 16 → exec (.keyReportReceived sp o ⟨claimIx kt, frag, last, w⟩) s = .next u) ∧
          (ku.assembled = none → exec (.keyReportReceived sp o ⟨claimIx kt, frag, last, w⟩) s = .next u)) ∧
        (∀ (ix frag : Nat) (last : Bool) (w : List Byte), kt.exchange = false ∨ y.st ≠ .active ∨ y.pier = 2 ∨ ix ≠ claimIx kt →
          exec (.keyReportReceived sp o ⟨ix, frag, last, w⟩) s = .next t) ∧
        (∀ (frag : Nat) (bytes : List Byte), kt.exchange = true → y.st = .active → y.pier = 2 →
          let u := takeFrag sp o frag false bytes t; let all := (onuKeys u sp o).frags.flatMap (·.2)
          (16 ≤ all.length → exec (.encryptionKeyReceived sp o (claimIx kt) frag bytes) s = .next (loadKey sp o (leNat (all.take 16)) u)) ∧
          (all.length < 16 → exec (.encryptionKeyReceived sp o (claimIx kt) frag bytes) s = .next u)) ∧
        (∀ (ix frag : Nat) (bytes : List Byte), kt.exchange = false ∨ y.st ≠ .active ∨ y.pier ≠ 2 ∨ ix ≠ claimIx kt →
          exec (.encryptionKeyReceived sp o ix frag bytes) s = .next t)) ∧
      (k.exchange = true → x.st = .active → exec (.keyExchangeTimeout sp o) s = .next (askKey sp o (keyEvent sp o 3 (claimIx k) (cnt (cOnu 25 sp o) 1 s)))) ∧
      (k.exchange = false ∨ x.st ≠ .active → exec (.keyExchangeTimeout sp o) s = .next s) ∧
      (∀ pier : PierIx, exec (.keySwitchFrame sp pier) s = .next (forEach [1, 2] (switchBcast sp pier)
        (forEach ((onusOf s sp).filter fun i => (onuOf s sp i).pier = pier.val) (switchOnu sp) s))) ∧
      (let ix := ixIn k.s1 k.s2 .active; let c := pierKeys s sp x.pier
        (ix ≠ 0 → c.margin ≠ 0 → (k.slot ix).aged (c.life - c.margin) (frameNo s) = true → (k.slot ix).told = false →
          let t := keyEvent sp o 0 ix (setOnuKeys sp o (k.put ix { k.slot ix with told := true }) s)
          (c.autoRoll = false ∨ k.exchange = true ∨ (onuOf t sp o).st ≠ .active → exec (.keyMarginReached sp o) s = .next t) ∧
          (c.autoRoll = true → k.exchange = false → (onuOf t sp o).st = .active → exec (.keyMarginReached sp o) s = .next (askKey sp o t))) ∧
        (ix = 0 ∨ c.margin = 0 ∨ (k.slot ix).aged (c.life - c.margin) (frameNo s) = false ∨ (k.slot ix).told = true → exec (.keyMarginReached sp o) s = .next s) ∧
        (ix ≠ 0 → (k.slot ix).aged c.life (frameNo s) = true → (k.slot (3 - ix)).due (frameNo s) = false → exec (.keyExpired sp o) s = .next
          (let e : Slot := { k.slot ix with st := .expired }; setDefect sp o 8 true true (keyEvent sp o 1 ix (mirrorKey sp (some o.val) x.pier ix e (setOnuKeys sp o (k.put ix e) s))))) ∧
        (ix = 0 ∨ (k.slot ix).aged c.life (frameNo s) = false ∨ (k.slot (3 - ix)).due (frameNo s) = true → exec (.keyExpired sp o) s = .next s))) ∧
    (let ix := ixIn k.s1 k.s2 .retiring;
      (∀ f, ix ≠ 0 → (k.slot ix).at_ = some f → f + (pierKeys s sp x.pier).retire ≤ frameNo s →
        exec (.keyRetireEnd sp o) s = .next (mirrorKey sp (some o.val) x.pier ix {} (setOnuKeys sp o (k.put ix {}) s))) ∧
      ((ix = 0 ∨ ∀ f, (k.slot ix).at_ = some f → frameNo s < f + (pierKeys s sp x.pier).retire) → exec (.keyRetireEnd sp o) s = .next s)) ∧
    (k.waits ≠ none → exec (.keyMirrorAckTimeout sp o) s = .next (fixSwitch sp o s)) ∧
    (k.waits = none → exec (.keyMirrorAckTimeout sp o) s = .next s))

/-- R162 to R165: a Span whose Piers can open starts to open, transmits, grants, and is OPEN; it stops grants, deactivates its ONUs and
closes in order, and what waits for the end of its closing is answered: an open call that waits runs where the Span can open. One that
opens or is OPEN refuses an open call. A phase's command in another phase changes nothing. -/
def Obligations.SpansOpenAndClose : Prop :=
  ∀ (s : State) (sp : SpanIx), let v := spanOf s sp
    (∀ c : Call, Served spanOpenSpec c s → let u := readCall 0x0201 c s; fld (pw c.words 0) 4 0 = sp.val → let r := refFor 0x0201 c u
      ((spanOf u sp).st = .closed → mayOpen u sp = true → exec (.spanOpen c) s = .next (startOpening sp (some r) (defer_ r u))) ∧
      ((spanOf u sp).st = .closed → mayOpen u sp = false → exec (.spanOpen c) s = .next (respond 0x0201 c .badState [] u)) ∧
      ((spanOf u sp).st = .closing → exec (.spanOpen c) s = .next (respond 0x0201 c .pending [] (modSpan sp (fun v => { v with openPending := true }) u))) ∧
      ((spanOf u sp).st = .opening ∨ (spanOf u sp).st = .opened → Refused (.spanOpen c) spanOpenSpec c s .badState)) ∧
    (∀ c : Call, Served spanCloseSpec c s → let u := readCall 0x0202 c s; fld (pw c.words 0) 4 0 = sp.val → let r := refFor 0x0202 c u
      ((spanOf u sp).st = .closed → Answered (.spanClose c) spanCloseSpec c s [] u) ∧
      ((spanOf u sp).st = .opened ∨ (spanOf u sp).st = .opening → exec (.spanClose c) s = .next (startClosing sp
        (modSpan sp (fun v => { v with closeRefs := v.closeRefs ++ [r], openPending := false }) (defer_ r u)))) ∧
      ((spanOf u sp).st = .closing → exec (.spanClose c) s = .next
        (modSpan sp (fun v => { v with closeRefs := v.closeRefs ++ [r], openPending := false }) (defer_ r u)))) ∧
    (v.st ≠ .opening ∧ (v.st ≠ .closing ∨ v.cutOpening = false) ∨ v.phase ≠ 0 → exec (.spanOpenTxStart sp) s = .next s) ∧
    (v.st = .opening ∨ (v.st = .closing ∧ v.cutOpening = true) → v.phase = 0 → exec (.spanOpenTxStart sp) s = .next (lateFrame sp (mirrorSpanRec sp (forEach (enabledPiers s sp)
      (fun p => modPier sp p fun x => { x with
        rxOn := true, txOn := transmits { v with phase := 1 } && !x.txLol, next := none, sent := none,
        due := [], rx := none, lastBurst := none, losRun := 0, rogueRun := 0, calmRun := 0, burstSeen := false, rotation := none, staging := {},
        teqd := match v.standby, x.mirTeqd with | true, some t => t | _, _ => deriveTeqd x v.reachMax })
      (setSpan sp { v with phase := 1, t0 := frameNo s } s))))) ∧
    (v.st ≠ .opening ∨ (v.phase ≠ 1 ∧ v.granting = false) → exec (.spanOpenGrantStart sp) s = .next s) ∧
    (v.st = .opening → v.phase = 1 → let g := !(v.paired && v.standby)
      let t := answerOpt v.openRef .done [] (mirrorSpanRec sp (spanEvt sp 8 none 0 18 (setSpan sp
        { v with st := .opened, phase := 0, granting := g, openRef := none, windows := [], discDue := true, used := [] } s)))
      exec (.spanOpenGrantStart sp) s = .next (if g = true ∧ t.ctl.lastApply = frameNo t then startRoutine sp (frameNo t) t else t)) ∧
    (v.st ≠ .closing ∨ 2 ≤ v.phase → exec (.spanCloseStopGrants sp) s = .next s) ∧
    (v.st ≠ .closing ∨ v.phase ≠ 2 → exec (.spanCloseDeactivate sp) s = .next s) ∧
    (v.st ≠ .closing ∨ v.phase ≠ 3 → exec (.spanCloseTxStop sp) s = .next s) ∧
    (v.st = .closing → v.phase < 2 → exec (.spanCloseStopGrants sp) s = .next (answerOpt v.openRef .badState [] (setSpan sp
      { v with phase := 2, granting := false, openRef := none, cutOpening := false, windows := [], truss := { v.truss with running := false } } s))) ∧
    (v.st = .closing → v.phase = 2 → exec (.spanCloseDeactivate sp) s = .next (threePiers (fun p => modPier sp p fun x => { x with next := none })
      (setSpan sp { v with phase := 3 } s))) ∧
    (v.st = .closing → v.phase = 3 → let t := spanClosed sp s
      (v.openPending = false → exec (.spanCloseTxStop sp) s = .next t) ∧
      (v.openPending = true → mayOpen t sp = true → exec (.spanCloseTxStop sp) s = .next (startOpening sp none t)) ∧
      (v.openPending = true → mayOpen t sp = false → exec (.spanCloseTxStop sp) s = .next (modSpan sp (fun v => { v with openPending := false }) t)))

/-- R245, R259, R262, R267, R276, R278 to R282, R284 to R286, R291, R292, R296 to R299: a Truss leaves a running map at its cutoff with what it had committed,
enters FINISH and INIT where their leads ask for it, runs a word as one step, and ends a call at its limit; undefined use stops the model
under its rule. A word without a port operation, a call or a commit goes to the address that its condition bits form, costs its steps and
leaves the stack and what is staged. Any word that runs writes its destination, PD0 to PD3 and its condition bits by its ALU and its port
operation, and goes on by its SEQ code: jump, call, return, OPEN or DONE; a commit makes what is staged visible and records its
checkpoint; a port write stages or is refused. Without words the vendor routine runs to its next commit (assumption 85). A Truss that runs nothing
is left as it is. -/
def Obligations.TrussesRunTheirRoutine : Prop :=
  ∀ (s : State) (sp : SpanIx), let t := trussOf s sp
    (t.running = false → exec (.mapCutoff sp) s = .next s) ∧
    (t.running = true → emptyEntry s sp = true → exec (.mapCutoff sp) s = .fault (.undefinedUse "R267")) ∧
    (t.running = true → emptyEntry s sp = false →
      let lost := ((t.writes.filterMap fun w => match w with | .stage _ e => if e.alloc < 2048 then some e.alloc else none | _ => none).eraseDups)
      let some_ := t.writes.any fun w => match w with | .stage _ _ | .reserve _ _ _ | .window _ _ _ _ => true | _ => false
      let u := forEach lost (fun a u => cnt (cAlloc 5 sp a) 1 u) s
      let u := if some_ then cnt (cSpan 7 sp) 1 u else u
      let u := forEach (openCalls t) (fun c u => closeCall sp c false u) u
      let u := breakWindows sp t.frame (discard sp u)
      let u := forEach (enabledPiers u sp) (sealPier sp t.frame) u
      let u := forEach (enabledPiers u sp) (fun p u => anchorMap sp p t.frame (match (pierOf u sp p).next with | some m => m.grants | none => []) u) u
      let u := modTruss sp (fun t => { t with running := false, entry := 0, cursor := .done, shares := [], last := t.now }) u
      exec (.mapCutoff sp) s = .next (mirrorFrame sp t.frame (gaugeMax (cSpan 15 sp) (t.steps - t.base) u))) ∧
    (let may := t.running = true ∧ t.cursor ≠ .done ∧ t.entry = 0 ∧ t.finished = false ∧ (spanOf s sp).finishLead ≠ 0;
      (may → exec (.finishEntry sp) s = .next
        (cnt (cSpan 12 sp) 1 (modTruss sp (fun t => { t with entry := 8, addr := 8, finished := true, regs := { t.regs with stack := [] } }) (discard sp s)))) ∧
      (¬ may → exec (.finishEntry sp) s = .next s)) ∧
    (let may := (spanOf s sp).st ≠ .closed ∧ (spanOf s sp).standby = false ∧ (t.running = false ∨ t.cursor = .prologue);
      (may → exec (.trussInitEntry sp) s = .next
        (modTruss sp (fun t => { t with entry := 16, addr := 16, regs := {}, resume := 16, saved := {}, savedCall := none, call := none }) s)) ∧
      (¬ may → exec (.trussInitEntry sp) s = .next s)) ∧
    (let spent (c : OpenCall) : Prop := inCall t = some c ∧ (t.running = true ∨ t.entry = 16) ∧ c.limit < c.steps + wordCost (storeWord t t.addr).toNat;
      (∀ c, spent c → exec (.callLimitReached sp) s = .next (endCall sp c false s)) ∧
      ((∀ c, ¬ spent c) → exec (.callLimitReached sp) s = .next s)) ∧
    (∀ b, t.entry = 0 → t.running = false ∨ t.cursor = .done → exec (.trussMicroword sp b) s = .next s) ∧
    (t.running = true → t.cursor ≠ .done → t.entry = 0 → t.call = none → exec (.trussMicroword sp false) s = .next (match t.cursor with
      | .prologue => prologue sp s
      | .pass1 [] => setCursor sp (.polls t.ploamu) s
      | .pass1 (a :: r) => visitAlloc sp a (setCursor sp (.pass1 r) s)
      | .polls [] => nextPier sp (pierOrder (sfcOf 0 t.frame)) s
      | .polls (o :: r) => commitAll sp 0 (pollOnu sp o (setCursor sp (.polls r) s))
      | .pass2 (p :: rest) k (a :: r) c w => sweepTurn sp p k a rest r c w (spend sp 6 s)
      | .pass2 (p :: rest) k [] c _ => afterSweep sp p k rest c s
      | .pass2 [] _ _ _ _ => setCursor sp .epilogue s
      | .epilogue => setCursor sp .done (epilogue sp s)
      | .done => s)) ∧
    (t.entry = 8 → inCall t = none → exec (.trussMicroword sp false) s = .next (restart sp (modTruss sp (fun t => { t with entry := 0 }) (epilogue sp s)))) ∧
    (t.entry = 16 → inCall t = none → exec (.trussMicroword sp false) s = .next (initDone sp s)) ∧
    (∀ b, (t.entry ≠ 0 ∨ (t.running = true ∧ t.cursor ≠ .done)) → b = true ∨ inCall t ≠ none → let n := (storeWord t t.addr).toNat
      (reservedWord n = true → exec (.trussMicroword sp b) s = .fault (.undefinedUse (if inCall t = none then "R6" else "R299"))) ∧
      (∀ c, inCall t = some c → reservedWord n = false → c.limit < c.steps + wordCost n → exec (.trussMicroword sp b) s = .next (endCall sp c false s)) ∧
      (inCall t = none → reservedWord n = false → nfld n 101 98 = 0 → nfld n 178 176 = 0 → nfld n 142 142 = 0 → ∃ u, exec (.trussMicroword sp b) s = .next u ∧
        (trussOf u sp).addr = formed n (trussOf u sp).regs.cond ∧ (trussOf u sp).steps = t.steps + wordCost n ∧
        (trussOf u sp).regs.stack = t.regs.stack ∧ (trussOf u sp).writes = t.writes)) ∧
    (∀ b, (t.entry ≠ 0 ∨ (t.running = true ∧ t.cursor ≠ .done)) → b = true ∨ inCall t ≠ none → let n := (storeWord t t.addr).toNat; let call := inCall t
      reservedWord n = false → (∀ c, call = some c → c.steps + wordCost n ≤ c.limit) →
      let src (k : Nat) : Word := source s sp (wd (nfld n 63 32), wd (nfld n 31 0)) k
      let res := alu (nfld n 128 124) (src (nfld n 123 117)) (src (nfld n 116 110))
      let o := portOp sp (nfld n 101 98) (nfld n 97 94) (src (nfld n 93 87)).toNat (src (nfld n 86 80)).toNat (nfld n 71 64) (call.map (·.slice)) s
      (∀ r, o.undef = some r → exec (.trussMicroword sp b) s = .fault (.undefinedUse r)) ∧
      (o.undef = none → ∃ v, exec (.trussMicroword sp b) s = .next (sequence sp n s v) ∧ let q := trussOf v sp
        q.steps = t.steps + wordCost n ∧ q.regs.stack = t.regs.stack ∧ q.writes = (trussOf o.st sp).writes ∧ q.regs.cur = (trussOf o.st sp).regs.cur ∧
        q.remain = (trussOf o.st sp).remain ∧ q.budget = (trussOf o.st sp).budget ∧
        (∀ k, kgetD q.regs.scratch k 0 = match res.1 with
          | some x => if nfld n 109 103 = k ∧ k ≠ 127 ∧ (call = none ∨ k < 32) then x else kgetD t.regs.scratch k 0
          | none => kgetD t.regs.scratch k 0) ∧
        q.regs.pd = (match o.pd with | some l => (List.range 4).map fun i => l.getD i 0 | none => t.regs.pd) ∧
        (∀ k < 12, q.regs.cond.getLsbD k = if k = 11 then call.any fun c => c.limit ≤ c.steps + wordCost n + 16
          else match o.cond.find? (·.1 = k) with
            | some e => e.2
            | none => if nfld n 102 102 = 0 ∨ 2 < k then t.regs.cond.getLsbD k
              else match res.1 with
                | some x => if k = 0 then x = 0 else if k = 1 then bit x 31 else res.2
                | none => if k = 0 then Config.freeBool s.free else if k = 1 then Config.freeBool (s.free + 1) else false) ∧
        (∀ k < 4, q.regs.cond.getLsbD (12 + k) = match (nfld n 79 76).testBit k, (nfld n 75 72).testBit k with
          | true, true => !t.regs.cond.getLsbD (12 + k) | true, false => true | false, true => false | false, false => t.regs.cond.getLsbD (12 + k)))) ∧
    (∀ (n : Nat) (c : BitVec 16) (k : Nat), (formed n c).testBit k = ((nfld n 191 179).testBit k ||
      (decide (k < 4) && (nfld n (160 + 5 * k) (156 + 5 * k)).testBit 4 && c.getLsbD (nfld n (160 + 5 * k) (156 + 5 * k) % 16)))) ∧
    (∀ (n : Nat) (v : State), let call := inCall t; let to_ := formed n t.regs.cond; let ret := nfld n 155 143
      let outside (a : Nat) : Prop := call ≠ none ∧ a < 0x1800
      let full : Prop := 8 ≤ t.regs.stack.length ∨ ∃ c, call = some c ∧ 4 ≤ t.regs.stack.length - c.depth
      let go (a : Nat) (l : List Nat) (u : State) : State := modTruss sp (fun q => { q with addr := a, regs := { q.regs with stack := l } }) u
      let done (r : Nat) (u : State) : State := if nfld n 142 142 = 1 then commitAll sp r u else u
      let resume := nfld n 141 129
      (nfld n 178 176 = 0 → (outside to_ → sequence sp n v s = microFault sp v) ∧ (¬ outside to_ → sequence sp n v s = done resume (go to_ t.regs.stack s))) ∧
      (nfld n 178 176 = 1 → (full ∨ outside to_ → sequence sp n v s = microFault sp v) ∧
        (¬ full → ¬ outside to_ → sequence sp n v s = done resume (go to_ (ret :: t.regs.stack) s))) ∧
      (nfld n 178 176 = 2 → (t.regs.stack = [] → t.entry ≠ 8 → sequence sp n v s = microFault sp v) ∧
        (∀ a l, t.regs.stack = a :: l → call = none → sequence sp n v s = done a (go a l s)) ∧
        (∀ a l c, t.regs.stack = a :: l → call = some c → l.length + 1 ≠ c.depth → (a < 0x1800 → sequence sp n v s = microFault sp v) ∧
          (0x1800 ≤ a → sequence sp n v s = done a (go a l s))) ∧
        (∀ a l c, t.regs.stack = a :: l → call = some c → l.length + 1 = c.depth → c.vendor = false →
          sequence sp n v s = done a (closeCall sp c false (go a l s)))) ∧
      (nfld n 178 176 = 3 → call ≠ none → sequence sp n v s = microFault sp v) ∧
      (nfld n 178 176 = 3 → call = none → let target := t.regs.cur.bind fun a => (allocAt s sp a).bind fun _ => (openEntry s (allocOwner s sp a)).map fun e => (a, e)
        (∀ a e, target = some (a, e) → (full → sequence sp n v s = microFault sp v) ∧
          (¬ full → sequence sp n v s = beginCall sp a (allocOwner s sp a) e.1 e.2 ret resume (nfld n 71 64 % 2 = 1) false s)) ∧
        (target = none → ∃ u, sequence sp n v s = done resume u ∧ (trussOf u sp).regs.cond = setC t.regs.cond 3 true ∧
          (trussOf u sp).addr = formed n (setC t.regs.cond 3 true) ∧ (trussOf u sp).regs.stack = t.regs.stack ∧ (trussOf u sp).writes = t.writes)) ∧
      (nfld n 178 176 = 4 → call ≠ none → sequence sp n v s = microFault sp v) ∧
      (nfld n 178 176 = 4 → call = none → let u := done resume s
        (t.entry = 16 → sequence sp n v s = initDone sp u) ∧
        (t.entry ≠ 16 → sequence sp n v s = setCursor sp .done (modTruss sp (fun q => { q with entry := 0 }) u)))) ∧
    (∀ r, let u := commitAll sp r s; let q := trussOf u sp
      q.writes = [] ∧ q.committed = true ∧ q.faulted = false ∧ q.regs = { t.regs with cond := t.regs.cond &&& 0xFBFF } ∧
      q.heldRemain = t.remain ∧ q.heldBudget = t.budget ∧ q.remain = t.remain ∧ q.budget = t.budget ∧
      (t.entry ≠ 8 → q.resume = r ∧ q.saved = q.regs ∧ q.savedCall = t.call) ∧ (t.entry = 8 → q.resume = t.resume ∧ q.saved = t.saved ∧ q.savedCall = t.savedCall) ∧
      u.pon.allocs = (forEach t.writes (commitWrite sp) s).pon.allocs ∧ u.pon.piers = (forEach t.writes (commitWrite sp) s).pon.piers) ∧
    (∀ p e, commitWrite sp (.stage p e) s = modPier sp p (fun x => { x with staging := { x.staging with entries := joinEntry e x.staging.entries } }) s) ∧
    (∀ a k v x, a < 2048 → allocOf s sp a = some x → commitWrite sp (.record a k v) s = setAlloc sp a (x.putWord t.frame k v) s) ∧
    (∀ a slice e limit ret back pass2 vendor, let q := trussOf (beginCall sp a slice e limit ret back pass2 vendor s) sp
      q.addr = e ∧ q.regs.stack = ret :: t.regs.stack ∧ q.writes = [] ∧ q.regs.cond.getLsbD 9 = pass2 ∧ q.regs.cond.getLsbD 3 = false ∧
      q.call = some { alloc := a, slice := slice, limit := limit, pass2 := pass2, steps := 0, depth := t.regs.stack.length + 1, back := back, vendor := vendor, by_ := t.entry } ∧
      (t.entry ≠ 8 → q.resume = e)) ∧
    (∀ w, let o := stageWrite sp w s
      (128 ≤ t.writes.length → o.st = s ∧ o.cond = [(4, true)]) ∧
      (t.writes.length < 128 → o.st = modTruss sp (fun q => { q with writes := q.writes ++ [w] }) s ∧ o.cond = [(4, false)])) ∧
    (∀ (a d param k : Nat), let word (own : Option Nat) : PortOut := portOp sp 1 2 a d param own s; let inc (own : Option Nat) : PortOut := portOp sp 5 0 a d param own s
      (param ≤ 15 → word none = stageWrite sp (.record a param (wd d)) s) ∧ (15 < param → (word none).undef = some "R282") ∧
      (param < 12 ∨ 15 < param → (word (some k)).st = s ∧ (word (some k)).cond = [(4, true)] ∧ (word (some k)).undef = none) ∧
      (12 ≤ param → param ≤ 15 → allocOwner s sp a = k → word (some k) = stageWrite sp (.record a param (wd d)) s) ∧
      (12 ≤ param → param ≤ 15 → allocAt s sp a ≠ none → allocOwner s sp a ≠ k → (word (some k)).undef = some "R299") ∧
      (param ≤ 11 → inc none = stageWrite sp (.inc a param d) s) ∧ (11 < param → (inc none).undef = some "R282") ∧
      (param < 8 ∨ 11 < param → (inc (some k)).st = s ∧ (inc (some k)).cond = [(4, true)] ∧ (inc (some k)).undef = none) ∧
      (∀ op, op = 1 ∨ op = 2 → (portOp sp 6 op a d param (some k) s).st = s ∧ (portOp sp 6 op a d param (some k) s).cond = [(4, true)]) ∧
      (∀ own, param ≤ 12 → (portOp sp 1 1 a d param own s).pd = some (recordWords s sp a param) ∧ (portOp sp 1 1 a d param own s).st = s) ∧
      (∀ own, 12 < param → (portOp sp 1 1 a d param own s).undef = some "R282") ∧
      (∀ own, (portOp sp 1 0 a d param own s).pd = some (recordWords s sp a 0) ∧ (3, !t.visit.contains a) ∈ (portOp sp 1 0 a d param own s).cond ∧
        (trussOf (portOp sp 1 0 a d param own s).st sp).regs.cur = some a) ∧
      (∀ own, param / 4 % 4 = 3 → (portOp sp 6 0 a d param own s).undef = some "R284") ∧
      (∀ own, param / 4 % 4 ≠ 3 → allocAt s sp a = none → (portOp sp 6 0 a d param own s).undef = some "R267")) ∧
    (∀ a b : Word, let x := a.toNat; let y := b.toNat
      alu 1 a b = (some a, false) ∧ alu 2 a b = (some (a + b), decide (2 ^ 32 ≤ x + y)) ∧ alu 3 a b = (some (a - b), decide (x < y)) ∧
      alu 4 a b = (some (wd (x - y)), decide (x < y)) ∧ alu 5 a b = (some (a &&& b), false) ∧ alu 6 a b = (some (a ||| b), false) ∧ alu 7 a b = (some (a ^^^ b), false) ∧ alu 8 a b = (some (wd (min x y)), false) ∧ alu 9 a b = (some (wd (max x y)), false) ∧
      alu 10 a b = (some (a <<< (y % 32)), false) ∧ alu 11 a b = (some (a >>> (y % 32)), false) ∧ alu 12 a b = (some (a.sshiftRight (y % 32)), false) ∧
      alu 13 a b = (some (wd (x * y)), decide (2 ^ 32 ≤ x * y)) ∧ alu 14 a b = (some (wd (x * y / 2 ^ 32)), decide (2 ^ 32 ≤ x * y)) ∧
      (y ≠ 0 → alu 15 a b = (some (wd (x / y)), false) ∧ alu 16 a b = (some (wd (ceilDiv x y)), false)) ∧
      (y = 0 → alu 15 a b = (some 0xFFFFFFFF, true) ∧ alu 16 a b = (some 0xFFFFFFFF, true)))

/-- R168, R169, R184, R196, R202, R204, R210: what the calls that read a Span, its ONUs and its discovered list answer; they change nothing
but their response. A caller who does not own what it names is refused NOT_OWNER, a Pier that the call cannot name BAD_ARG, and an ONU or
a Span in another state BAD_STATE. That an unwritten Splice's AGE reads 0xFFFF is assumption 132. -/
def Obligations.SpanReadsAnswer : Prop :=
  ∀ (c : Call) (s : State), let w := pw c.words 0
    (Served spanStatusSpec c s → let u := readCall 0x0203 c s; let v := spanOf u (fld w 4 0); let p := pierOf u (fld w 4 0)
      Answered (.spanStatus c) spanStatusSpec c s [pierBits (fun n => (p n).enable) 8 ||| putb v.openPending 4 ||| wd v.st.code,
        pierBits (fun n => (p n).tf) 8 ||| pierBits (fun n => (p n).txLol) 4 ||| pierBits (fun n => (p n).los) 0,
        wd (((onusOf u (fld w 4 0)).filter fun o => (onuOf u (fld w 4 0) o).st = .active).length)] u) ∧
    (Served onuDefectReadSpec c s → let u := readCall 0x0220 c s; let x := onuOf u (fld w 4 0) (fld w 24 16)
      (needOnu u c.chan w = .ok () → Answered (.onuDefectRead c) onuDefectReadSpec c s
        ([put x.pier 16 ||| wd x.defects.toNat] ++ toWords 2 x.sdLast.1 ++ toWords 2 x.sdLast.2) u) ∧
      (needOnu u c.chan w ≠ .ok () → Refused (.onuDefectRead c) onuDefectReadSpec c s .notOwner)) ∧
    (Served spliceReadSpec c s → let u := readCall 0x0223 c s; let x := onuOf u (fld w 12 8) (fld w 24 16); let y := x.splice
      (fld w 1 0 ≠ 0 → Refused (.spliceRead c) spliceReadSpec c s .badArg) ∧
      (fld w 1 0 = 0 → ∃ ws, Answered (.spliceRead c) spliceReadSpec c s ws u ∧ ws.length = 6 ∧
        pw ws 4 = (putb y.valid 31 ||| put y.phase.toNat 24 ||| put y.gain.toNat 16 ||| put y.dfe2.toNat 8 ||| wd y.dfe1.toNat) ∧
        pw ws 5 = (put (min 15 x.failRun) 20 ||| putb x.spliceOk 16 |||
          wd (if x.spliceAt = 0 ∧ y.valid = false then 0xFFFF else min 0xFFFF ((u.tb - x.spliceAt) / (1000 * us)))))) ∧
    (Served onuStateReadSpec c s → let u := readCall 0x0303 c s; let x := onuOf u (fld w 4 0) (fld w 24 16)
      let named := match x.st, x.expect with | .inactive, some e => (e.serial, e.pier) | _, _ => (x.serial, x.pier)
      (needOnu u c.chan w = .ok () → Answered (.onuStateRead c) onuStateReadSpec c s
        ([put x.st.code 24 ||| put named.2 16 ||| wd (x.onuId.getD 0x3FF), wd x.cause] ++ toWords 2 named.1.toNat) u) ∧
      (needOnu u c.chan w ≠ .ok () → Refused (.onuStateRead c) onuStateReadSpec c s .notOwner)) ∧
    (Served discListReadSpec c s → let u := readCall 0x0306 c s
      let l := ((spanOf u (fld w 4 0)).disc.filter fun e => fld w 13 8 ≤ e.1 && (e.2.cause = 1 || actingSlice u c.chan = some 0)).take 4
      Answered (.discListRead c) discListReadSpec c s
        (wd l.length :: l.flatMap fun e => (put e.1 24 ||| put e.2.pier 16 ||| wd e.2.cause) :: toWords 2 e.2.serial.toNat) u) ∧
    (Served reachReadSpec c s → let u := readCall 0x0313 c s; let r := (reachSeen u (fld w 4 0)).getD (0xFFFF, 0xFFFF); let d := reachOf u (fld w 4 0)
      Answered (.reachRead c) reachReadSpec c s ([put (min r.2 0xFFFF) 16 ||| wd (min r.1 0xFFFF), put d.2 16 ||| wd d.1] ++
        (List.range 3).map fun p => wd (pierOf u (fld w 4 0) p).teqd) u) ∧
    (Served onuRangeReadSpec c s → let u := readCall 0x0315 c s; let x := onuOf u (fld w 4 0) (fld w 24 16)
      let ranged := x.st = .registering ∨ x.st = .active ∨ x.st = .deactivating
      (needOnu u c.chan w = .ok () → ranged → Answered (.onuRangeRead c) onuRangeReadSpec c s
        [psWord x.rtd, wd x.eqd, psWord x.offset, wd x.distance, psWord x.cumul, psWord x.lastErr, putb x.corr.isSome 31 ||| wd x.corrections] u) ∧
      (needOnu u c.chan w = .ok () → ¬ ranged → Refused (.onuRangeRead c) onuRangeReadSpec c s .badState) ∧
      (needOnu u c.chan w ≠ .ok () → Refused (.onuRangeRead c) onuRangeReadSpec c s .notOwner)) ∧
    (Served stbyDeltaReadSpec c s → let u := readCall 0x0321 c s; let sp := fld w 12 8; let p := fld w 1 0; let x := pierOf u sp p
      (2 < p → Refused (.stbyDeltaRead c) stbyDeltaReadSpec c s .badArg) ∧
      (p ≤ 2 → (spanOf u sp).paired = false ∨ (spanOf u sp).standby = false → Refused (.stbyDeltaRead c) stbyDeltaReadSpec c s .badState) ∧
      (p ≤ 2 → (spanOf u sp).paired = true → (spanOf u sp).standby = true → Answered (.stbyDeltaRead c) stbyDeltaReadSpec c s
        ((putb (readyNow u sp p) 31 ||| put ((measured u sp p).filter (outlier u sp p)).length 16 ||| wd (measured u sp p).length) ::
          match deltaC u sp p with
          | some d => [psWord d, psWord (deltaRt x d), wd (unsgn 32 (deltaEqd p x d))]
          | none => [0, 0, 0]) u))

/-- R249, R257, R270, R272, R273, R287, R301, R303, R304: allocations, budgets, the Truss and the open bank are read; an image that passes its
checks in their order is loaded, written to every powered Truss and measured, and one that does not is told and refused. A caller who does
not own what it names is refused NOT_OWNER, an allocation or a slice that does not exist BAD_STATE, and a slice without a binding reads its
CALL_LIMIT, 120 where none was set. -/
def Obligations.AllocationAndOpenBankCalls : Prop :=
  ∀ (c : Call) (s : State), let w := pw c.words 0
    (Served allocReadSpec c s → let u := readCall 0x0503 c s; let sp := fld w 4 0
      (needAlloc u c.chan w ≠ .ok () → Refused (.allocRead c) allocReadSpec c s .notOwner) ∧
      (needAlloc u c.chan w = .ok () → allocOf u sp (fld w 26 16) = none → Refused (.allocRead c) allocReadSpec c s .badState) ∧
      (∀ x, needAlloc u c.chan w = .ok () → allocOf u sp (fld w 26 16) = some x → Answered (.allocRead c) allocReadSpec c s
        [putb (visitedIn u sp (frameNo u + 1) x) 31 ||| put x.onu 16 ||| wd x.line, wd x.d, wd x.lastGrant, wd x.reportFrame] u)) ∧
    (Served sliceBudgetReadSpec c s → let u := readCall 0x0511 c s; let k := fld w 19 16; let sp := fld w 4 0
      (∀ e, readsSlice u c.chan k = .error e → Refused (.sliceBudgetRead c) sliceBudgetReadSpec c s e) ∧
      (readsSlice u c.chan k = .ok () → Answered (.sliceBudgetRead c) sliceBudgetReadSpec c s ((List.range 3).map (fun p => wd (budgetOf u k sp p)) ++
        (List.range 3).map (fun p => wd (guaranteed u sp k p % 65536)) ++ (List.range 3).map fun p => wd (kgetD (spanOf u sp).used (3 * k + p) 0)) u)) ∧
    (Served trussStatusSpec c s → let u := readCall 0x0521 c s; let f := (trussOf u (fld w 4 0)).last
      Answered (.trussStatus c) trussStatusSpec c s ([wd f.steps, put f.visited 16 ||| wd f.phase] ++ (List.range 3).map fun p => wd (f.capacity.getD p 0)) u) ∧
    (Served openStatusSpec c s → let u := readCall 0x0604 c s; let staged := putb u.pon.inactive.isSome 30
      let bound := maskOf ((List.range 16).filter fun k => (kget u.pon.binds k).isSome); let img := if u.pon.openOff then none else u.pon.active
      (∀ g, img = some g → Answered (.openStatus c) openStatusSpec c s
        ([putb true 31 ||| staged ||| put (g.entries.length - 1) 16 ||| wd g.words.length, bound] ++ wordsOfBytes g.digest) u) ∧
      (img = none → Answered (.openStatus c) openStatusSpec c s ([staged, bound] ++ List.replicate 12 0) u)) ∧
    (Served openStatsSpec c s → let u := readCall 0x0605 c s; let k := fld w 19 16; let f := (trussOf u (fld w 4 0)).last
      (∀ e, readsSlice u c.chan k = .error e → Refused (.openStats c) openStatsSpec c s e) ∧
      (readsSlice u c.chan k = .ok () → Answered (.openStats c) openStatsSpec c s
        [match kget u.pon.binds k with | some (e, n) => putb true 31 ||| put e 16 ||| wd n | none => wd (kgetD u.pon.limits k 120),
        wd (kgetD f.calls k 0 % 65536), wd (kgetD f.maxSteps k 0 % 65536), wd (kgetD f.ended k 0 % 65536)] u)) ∧
    (Served openLoadSpec c s → let u := readCall 0x0601 c s; let len := fld (pw c.words 2) 15 0; let bs := hostBytes c.chan (wide c.words 0 2) len u
      let waits := u.ctl.txns.any fun t => (acceptedAt t).isSome && t.items.any fun i => i.code = 0x0602
      (waits = true → Refused (.openLoad c) openLoadSpec c s .badState) ∧
      (waits = false → u.boot.ownerState ≠ 1 → exec (.openLoad c) s = .next (respond 0x0601 c .badState [] (raise 994 [] [1] u))) ∧
      (waits = false → u.boot.ownerState = 1 → len < 344 ∨ 49472 < len → exec (.openLoad c) s = .next (respond 0x0601 c .badArg [] (raise 994 [] [2] u))) ∧
      (waits = false → u.boot.ownerState = 1 → 344 ≤ len → len ≤ 49472 → let v := drawn u; let key := sub bs 0x90 65; let pg := imagePage bs; let e := extendMeas 3 pg.digest v
        exec (.openLoad c) s = .next (if imageOk bs len = false then respond 0x0601 c .badArg [] (raise 994 [] [2] v)
          else if sha256 key ≠ u.boot.ownerHash then respond 0x0601 c .signature [] (raise 994 [] [3] v)
          else if p256.verify key (sha256 (bs.take (len - 64))) (bs.drop (len - 64)) = false then respond 0x0601 c .signature [] (raise 994 [] [4] v)
          else let e := writePages { e with boot := { e.boot with meas3Count := e.boot.meas3Count + 1 }, pon := { e.pon with inactive := some pg } }
            respond 0x0601 c .done ((put (pg.entries.length - 1) 16 ||| wd pg.words.length) :: wordsOfBytes pg.digest)
            (raise 995 [] [wd e.boot.meas3Count] e))))

/-- R219 to R224: an edge of TIME_PPS_IN and a phase sample set the phase error and drive the servo's state, y frozen while no source is there;
the loss of a selected source that its lane, its edges or its samples show is told, its return ends the loss; a settled frequency loop
locks, at once where 16 samples were good; a slew ends at the instant by which it has moved the phase as asked; in host mode y, the slew
and a step take the call's values. In any other state these commands change nothing, and their calls are refused: y out of range BAD_ARG,
a mode that does not take it BAD_STATE. -/
def Obligations.TimebaseServoAndHostControl : Prop :=
  (
    ∀ (err : Int) (s : State), let t := s.time; let u := setTime { t with phaseErr := err } s
      (t.cfg.host = true ∨ t.st = .freerun ∨ t.st = .holdover → phaseSample err s = setTime { t with phaseErr := err, goodRun := 0 } s) ∧
      (t.cfg.host = false → t.st ≠ .freerun → t.st ≠ .holdover → let good := err.natAbs ≤ 1000 * t.cfg.phaseLock
        let v := servoWrites u; let w := setTime { v.time with goodRun := if good then t.goodRun + 1 else 0 } v
        (t.st = .freqLocked → phaseSample err s = if good ∧ 16 ≤ t.goodRun + 1 then setTimeSt .locked w else if good then w else removeError err w) ∧
        (t.st = .locked → phaseSample err s = if good then w else setTimeSt .freqLocked w) ∧
        (t.st = .acquiring → phaseSample err s = removeError err w) ∧
        removeError err w = (if allClosed w = true ∧ 1000000 < err.natAbs
          then setTime { w.time with steps := w.time.steps ++ [(applyPointFor w.tb 0 / frameTb, -(err * 2 ^ 40 / 1000))] } w
          else setTime { w.time with slew := some (slewOf (-err)) } w) ∧
        (t.st = .host → phaseSample err s = w))) ∧
  (
    ∀ (s : State) (c : Call), let t := s.time
    (∀ phase : Fin 64, let ps := eventPs s phase - (t.cfg.ppsInDelay : Nat); let sec := roundUpHalf (ps / (secPs : Nat)); let err := ps - (sec : Rat) * (secPs : Nat)
      (t.cfg.phaseSrc ≠ 2 → exec (.ppsInEdge phase) s = .next s) ∧
      (t.cfg.phaseSrc = 2 → exec (.ppsInEdge phase) s = .next (phaseSample (roundAway err)
        (if -1000000 ≤ err ∧ err < 1000000 then setTime { t with ppsSec := max t.ppsSec sec.toNat } s else s)))) ∧
    (t.st = .acquiring → exec .frequencyLoopSettled s = .next (setTimeSt (if t.cfg.phaseSrc ≠ 0 ∧ 16 ≤ t.goodRun then .locked else .freqLocked) (servoWrites s))) ∧
    (t.st ≠ .acquiring → exec .frequencyLoopSettled s = .next s) ∧
    (let lost := t.cfg.freqSrc = 2 ∨ freqGone s = true; let open_ := t.cfg.host = false ∧ t.cfg.freqSrc ≠ 0 ∧ t.freqLost = false;
      (lost → open_ → exec .freqSourceLost s = .next (let x := { t with freqLost := true }
        raise 649 [] [0] (setTimeSt (unlocked x) { s with time := x }))) ∧
      (¬ lost ∨ ¬ open_ → exec .freqSourceLost s = .next s)) ∧
    (let open_ := t.cfg.host = false ∧ t.cfg.phaseSrc ≠ 0 ∧ t.phaseLost = false;
      (phaseGone s = true → open_ → exec .phaseSourceLost s = .next (let x := { t with phaseLost := true }
        raise 649 [] [1] (setTimeSt (unlocked x) { s with time := x }))) ∧
      (phaseGone s = false ∨ ¬ open_ → exec .phaseSourceLost s = .next s)) ∧
    (let back := t.cfg.host = false ∧ t.freqLost = true ∧ freqGone s = false;
      (back → exec (.referenceSourceReturn false) s = .next (let x := { t with freqLost := false, goodRun := 0 }
        setTimeSt (unlocked x) { s with time := x })) ∧
      (¬ back → exec (.referenceSourceReturn false) s = .next s)) ∧
    (let back := t.cfg.host = false ∧ t.phaseLost = true ∧ phaseGone s = false;
      (back → exec (.referenceSourceReturn true) s = .next (let x := { t with phaseLost := false, goodRun := 0 }
        setTimeSt (unlocked x) { s with time := x })) ∧
      (¬ back → exec (.referenceSourceReturn true) s = .next s)) ∧
    (∀ r, t.slew = some r → slewRate t ≠ 0 → exec .slewComplete s = .next
      { s with tb := s.tb + (r * (1000000000000 + t.y + slewRate t) / (slewRate t * 1000000000000)).toNat, time := { t with slew := none } }) ∧
    (t.slew = none ∨ slewRate t = 0 → exec .slewComplete s = .next s) ∧
    (Served timeFreqAdjustSpec c s → let u := readCall 0x0403 c s; let y := (pw c.words 0).toInt
      (y < -15000000 ∨ 15000000 < y → Refused (.timeFreqAdjust c) timeFreqAdjustSpec c s .badArg) ∧
      (-15000000 ≤ y → y ≤ 15000000 → u.time.cfg.host = false → Refused (.timeFreqAdjust c) timeFreqAdjustSpec c s .badState) ∧
      (-15000000 ≤ y → y ≤ 15000000 → u.time.cfg.host = true →
        Answered (.timeFreqAdjust c) timeFreqAdjustSpec c s [] { u with time := { u.time with y := y } })) ∧
    (Served timePhaseSlewSpec c s → let u := readCall 0x0404 c s; let may := u.time.cfg.host = true ∨ u.time.cfg.phaseSrc = 0;
      (may → Answered (.timePhaseSlew c) timePhaseSlewSpec c s [] { u with time := { u.time with slew := some (slewOf (pw c.words 0).toInt) } }) ∧
      (¬ may → Refused (.timePhaseSlew c) timePhaseSlewSpec c s .badState)) ∧
    (Served timePhaseStepSpec c s → let u := readCall 0x0405 c s; let at_ := applyPointFor u.tb 0
      let size := sgn 64 (wide c.words 0 2) * (2 ^ 40 : Nat) + (fld (pw c.words 2) 15 0 * 2 ^ 24 : Nat)
      (allClosed u = false → Refused (.timePhaseStep c) timePhaseStepSpec c s .badState) ∧
      (allClosed u = true →
        Answered (.timePhaseStep c) timePhaseStepSpec c s (toWords 2 (at_ / 2 ^ 40)) { u with time := { u.time with steps := u.time.steps ++ [(at_ / frameTb, size)] } })) ∧
    (Served timePhaseSampleSpec c s → let u := readCall 0x0406 c s; let v := setTime { u.time with phaseAt := u.tb } u
      (u.time.cfg.phaseSrc ≠ 1 → Answered (.timePhaseSample c) timePhaseSampleSpec c s [] u) ∧
      (u.time.cfg.phaseSrc = 1 → wide c.words 1 2 ≤ nowNs u → Answered (.timePhaseSample c) timePhaseSampleSpec c s [] (phaseSample (pw c.words 0).toInt v)) ∧
      (u.time.cfg.phaseSrc = 1 → nowNs u < wide c.words 1 2 →
        Answered (.timePhaseSample c) timePhaseSampleSpec c s [] (phaseSample (Config.freeWord v.free).toInt (drawn v)))))

/-- R220, R225, R226, R228 to R230, R235, R237, R238: a Keystone entry's pin firing goes at its due instant, counted against COUNT, moved by
whole ticks where it slips, and drives its output pin for WIDTH, merged with the pulse it meets; TIME_PPS_OUT pulses once a second while the
timebase holds the time; the time pins stamp the edges asked for, 16 at most; the status, the entries, the stamps and the time of day are
read. A command with nothing due changes nothing; a time of day or a stamp that cannot be given is refused. -/
def Obligations.KeystoneFiresAndTimePinsStamp : Prop :=
  ∀ (s : State) (c : Call), let t := s.time
    (∀ (n : Fin 2048) k, (keyEntry s n = none → dueFiring s n k = none) ∧
      (∀ e, keyEntry s n = some e → keyValid e = false ∨ keyKind e ≠ k → dueFiring s n k = none) ∧
      (∀ e, keyEntry s n = some e → keyValid e = true → keyKind e = k → bit (pw e.words 0) 27 = false →
        dueFiring s n k = if gridAfter e e.done ≤ nowPs s then some (e, gridAfter e e.done) else none)) ∧
    (∀ n : Fin 2048, (dueFiring s n 0 = none → exec (.keystonePinFire n) s = .next s) ∧
      (∀ e g, dueFiring s n 0 = some (e, g) → let k := slipOf s n g; let c := fld (pw e.words 0) 25 16; let f := if c = 0 then 1 else min 1 (c - e.firings)
        let u := if k = 0 then s else if firstSlip s n g then raise 645 [] [wd n] (cnt (cDev 4) 1 s) else cnt (cDev 4) 1 s
        exec (.keystonePinFire n) s = .next (pinPulse e (g + 1600 * k) (setKey n
          { e with firings := min (e.firings + f) 0xFFFFFFFF, done := g + 1, stopped := e.stopped || (c ≠ 0 && c ≤ e.firings + f) } u)))) ∧
    (∀ n g : Nat, firstSlip s n g = true ↔ ∀ e ∈ t.keystone, e.1 < n → rivalTick s (tickOf g) e = some (tickOf g) → slipOf s e.1 g = 0) ∧
    (∀ (e : KEntry) (rise : Nat), let pin := fld (pw e.words 1) 1 0; let x := kgetD t.pins pin {}; let fall := rise + 1600 * fld (pw e.words 1) 15 8
      (x.mode ≠ 2 → pinPulse e rise s = s) ∧
      (x.mode = 2 → pinPulse e rise s = emit (.level 0 pin rise fall) (setTime { t with pins := kset t.pins pin { x with pulse :=
        match x.pulse with
        | some (r, f) => if rise ≤ f ∧ r ≤ fall then some (min r rise, max f fall) else some (rise, fall)
        | none => some (rise, fall) } } s))) ∧
    (∀ (pin : Fin 4) (phase : Fin 64) (rising : Bool), let x := kgetD t.pins pin {}
      let asked := if rising then x.edge % 2 = 1 else x.edge / 2 % 2 = 1
      let st := stampOf (eventPs s phase - (x.delay : Nat))
      (x.mode ≠ 1 ∨ ¬ asked → exec (.timeEvtInputEdge pin phase rising) s = .next s) ∧
      (x.mode = 1 → asked → x.stamps.length < 16 → exec (.timeEvtInputEdge pin phase rising) s = .next (
        let l := x.stamps ++ [(st.1, rising, st.2)]
        raise (641 + pin) [] [wd l.length] { s with time := { t with pins := kset t.pins pin { x with stamps := l } } })) ∧
      (x.mode = 1 → asked → 16 ≤ x.stamps.length → exec (.timeEvtInputEdge pin phase rising) s = .next (raise 647 [] [wd pin] (cnt (cPin pin) 1
        { s with time := { t with pins := kset t.pins pin { x with lost := min 0xFFFF (x.lost + 1) } } })))) ∧
    (let sec := (nowPs s + t.cfg.ppsOutAdv) / secPs; let rise := sec * secPs - t.cfg.ppsOutAdv; let fall := rise + 1000000 * t.cfg.ppsWidth
      let runs := t.st = .locked ∨ t.st = .holdover ∨ t.cfg.ppsForce = true;
      (sec ≤ t.ppsDone → exec .timePpsOutPulse s = .next s) ∧
      (t.ppsDone < sec → runs → exec .timePpsOutPulse s = .next (emit (.level 1 0 rise fall) (setTime { t with ppsDone := sec, pps := some (rise, fall) } s))) ∧
      (t.ppsDone < sec → ¬ runs → exec .timePpsOutPulse s = .next (setTime { t with ppsDone := sec } s))) ∧
    (Served timeStatusSpec c s → let u := readCall 0x0402 c s; Answered (.timeStatus c) timeStatusSpec c s
      [put (freqInUse u.time) 8 ||| put (phaseInUse u.time) 4 ||| wd u.time.st.code, wd (unsgn 32 u.time.y), wd (unsgn 32 u.time.phaseErr),
        wd (((nowNs u : Int) - u.time.since).toNat / 1000000000)] u) ∧
    (Served keystoneReadSpec c s → let u := readCall 0x0411 c s; let n := fld (pw c.words 0) 10 0
      (keyEntry u n = none → Answered (.keystoneRead c) keystoneReadSpec c s [0, 0, 0, 0, 0, 0] u) ∧
      (∀ e, keyEntry u n = some e → let f := if launchServed u e then launched e (nowPs u + 1) else e; Answered (.keystoneRead c) keystoneReadSpec c s
        [pw f.words 0 &&& (if f.stopped then 0x7FFFFFFF else 0xFFFFFFFF), pw f.words 1, pw f.words 2, pw f.words 3, pw f.words 4, wd f.firings] u)) ∧
    (Served todCalcSpec c s → let u := readCall 0x0420 c s; let w := pw c.words 0; let sp := fld w 12 8; let o := fld w 24 16; let p := fld w 1 0
      let lead := fld (pw c.words 1) 15 0; let adj := sgn 16 (fld (pw c.words 1) 31 16)
      let ok := p ≤ 2 ∧ 16 ≤ lead ∧ lead ≤ 64000 ∧ -1000 ≤ adj ∧ adj ≤ 1000
      let ready := bit w 31 = true ∨ ((onuOf u sp o).st = .active ∧ (onuOf u sp o).pier = p); let mine := needOwner u c.chan (onuOwner u sp o) = .ok ()
      let n := ceilDiv u.tb frameTb + lead; let a : Int := if bit w 31 then 0 else roundAway (correctionA u sp p o adj)
      let v := (roundAway (((n : Rat) * 125000000 + (pierOf u sp p).tTx + a) * 65536 / 1000)).toNat
      (¬ mine → Refused (.todCalc c) todCalcSpec c s .notOwner) ∧
      (mine → ¬ ok → Refused (.todCalc c) todCalcSpec c s .badArg) ∧
      (mine → ok → ¬ ready → Refused (.todCalc c) todCalcSpec c s .badState) ∧
      (mine → ok → ready → Answered (.todCalc c) todCalcSpec c s (toWords 2 (sfcOf p n) ++ toWords 2 (v / 65536) ++ [wd (v % 65536), wd (unsgn 32 a)]) u)) ∧
    (Served timeEvtReadSpec c s → let u := readCall 0x0431 c s; let pin := fld (pw c.words 0) 1 0; let x := kgetD u.time.pins pin {}
      Answered (.timeEvtRead c) timeEvtReadSpec c s ((put x.lost 16 ||| wd (x.stamps.take 4).length) ::
          (x.stamps.take 4).flatMap fun e => toWords 2 e.1 ++ [putb e.2.1 16 ||| wd e.2.2])
        { u with time := { u.time with pins := kset u.time.pins pin { x with stamps := x.stamps.drop 4, lost := 0 } } }) ∧
    (Served ptpTxtsReadSpec c s → let u := readCall 0x0441 c s; let w := pw c.words 0; let port := fld w 4 0
      let key := fld w 11 8 * 2 ^ 24 + fld w 23 16 * 2 ^ 16 + fld (pw c.words 1) 15 0; let l := kgetD u.time.ptpStamps port []
      (23 < port → Refused (.ptpTxtsRead c) ptpTxtsReadSpec c s .badArg) ∧
      (port ≤ 23 → l.find? (fun e => e.1 = key) = none → Refused (.ptpTxtsRead c) ptpTxtsReadSpec c s .badState) ∧
      (∀ e, port ≤ 23 → l.find? (fun e => e.1 = key) = some e → Answered (.ptpTxtsRead c) ptpTxtsReadSpec c s
        (toWords 2 (e.2 / 65536) ++ [wd (e.2 % 65536)]) { u with time := { u.time with ptpStamps := kset u.time.ptpStamps port (l.erase e) } }))

/-- R229, R230, R233, R427, R429, R430, R432, R444: a converter firing strobes its device and a loop firing starts a cycle, each at its due
instant moved by its slip, those of one target that are due in one tick in ascending entry order; on a bus that is not ON the firing is dropped, and an anchored one passes by while its ONU is not ACTIVE; after
CONV_TIME their reads are asked for; a frame that completes gives its result, the cycles that have read their inputs are computed in firing
order, and the next frame starts; an alert declares the faults of the Piers that it names. R432: a cycle's integrator and output stay
within their limits, the output moves by at most SLEW, and each is what the law gives where no limit acts. A command with nothing due
changes nothing. -/
def Obligations.LoopBusesCycle : Prop :=
  (
    ∀ (s : State),
      (∀ (n : Fin 2048), (dueFiring s n 1 = none → exec (.keystoneConvFire n) s = .next s) ∧ (dueFiring s n 2 = none → exec (.keystoneLoopFire n) s = .next s)) ∧
      (∀ (n : Fin 2048) e g, let k := fld (pw e.words 1) 2 0; let o := keyOnu e; let anchored := bit (pw e.words 0) 27
        let slip := slipOf s n g; let slid := cnt (cDev 4) 1 s
        let t := setKey n (e.fired 1 g) (if slip = 0 then s else if firstSlip s n g then raise 645 [] [wd n] slid else slid)
        let passed := setKey n { e with done := g + 1 } s; let idle := anchored = true ∧ (onuOf s (o / 512) (o % 512)).st ≠ .active
        let burst := if anchored then (keyAnchor s e e.done).map fun a => (a.onu, a.burst) else none
        (dueFiring s n 1 = some (e, g) → exec (.keystoneConvFire n) s = .next (forEach (firesFirst s n 1 e g ++ [n.val]) convTurn s)) ∧
        (dueFiring s n 1 = some (e, g) → idle → convTurn n s = passed) ∧
        (dueFiring s n 1 = some (e, g) → ¬ idle → domOn s (domLb k) = false → convTurn n s = raise 646 [] [wd n] (cnt (cDev 5) 1 passed)) ∧
        (dueFiring s n 1 = some (e, g) → ¬ idle → domOn s (domLb k) = true → convTurn n s =
          convFire k (fld (pw e.words 1) 11 4) burst (g + 1600 * slip) t) ∧
        (dueFiring s n 2 = some (e, g) → exec (.keystoneLoopFire n) s = .next (forEach (firesFirst s n 2 e g ++ [n.val]) loopTurn s)) ∧
        (dueFiring s n 2 = some (e, g) → domOn s (domLb k) = false → loopTurn n s = raise 646 [] [wd n] (cnt (cDev 5) 1 passed)) ∧
        (dueFiring s n 2 = some (e, g) → domOn s (domLb k) = true → loopTurn n s = loopFire k (fld (pw e.words 1) 11 4) (g + 1600 * slip) t)) ∧
      (∀ (k : BusIx) (n : Fin 36), let l := loopOf s k n
        let t := askFrame k ⟨2, false, l.cfg.inConv, 0, 0, some n.val, false, false, none, none⟩ (setLoop k n { l with awaited := 0 } s)
        (l.busy = true → l.awaited ≠ 0 →
          exec (.loopConvTimeEnd k n) s = .next (if n.val / 12 = 2 then askFrame k ⟨2, false, l.cfg.auxConv, 0, 0, some n.val, true, false, none, none⟩ t else t)) ∧
        (l.busy = false ∨ l.awaited = 0 → exec (.loopConvTimeEnd k n) s = .next s)) ∧
      (∀ (k : BusIx) (dev : Nat), let b := loopBus s k
        exec (.rssiConvTimeEnd k dev) s = .next (forEach (b.strobes.filter fun x => deviceOf x.conv = dev)
          (fun x => askFrame k ⟨1, false, x.conv, 0, 0, none, false, false, some (match x.onu with | some (o, b) => (o + 1, x.time, b) | none => (0, x.time, 0)), none⟩)
          (setBus k { b with strobes := b.strobes.filter fun x => deviceOf x.conv ≠ dev } s))) ∧
      (∀ (k : BusIx) a, (loopBus s k).frame = none → exec (.loopbFrameDone k a) s = .next s) ∧
      (∀ (k : BusIx) f (a : Option (BitVec 16)), (loopBus s k).frame = some f →
        let v := match a with | some v => v.toNat | none => fld (Config.freeWord s.free) 15 0
        let t := emit (.loopFrame k (deviceOf f.conv) (frameWord f)) (cnt (cBus 0 k) 1
          (modBus k (fun b => { b with frame := none }) (if a.isNone then drawn s else s)))
        let dev := deviceOf f.conv; let on (t : State) : State := startFrame k (computeCycles k (loopBus t k).order.length t); let lat := (loopBus s k).readLat.testBit dev
        let u := match kget (loopBus t k).pend dev with | some g => readDone k g v (modBus k (fun b => { b with pend := kerase b.pend dev }) t) | none => t
        (lat = false → f.write = false → exec (.loopbFrameDone k a) s = .next (on (readDone k f v t))) ∧
        (lat = false → f.write = true → exec (.loopbFrameDone k a) s = .next (on (frameWritten k f t))) ∧
        (lat = true → f.write = true → exec (.loopbFrameDone k a) s = .next (on (frameWritten k f u))) ∧
        (lat = true → f.write = false → f.again = true → exec (.loopbFrameDone k a) s = .next (on u)) ∧
        (lat = true → f.write = false → f.again = false → exec (.loopbFrameDone k a) s = .next (on (modBus k (fun b =>
          { b with pend := kset b.pend dev f, waiting := insertFirst { f with again := true } b.waiting }) u)))) ∧
      (∀ (k : Nat) (f : LFrame) (v : Nat),
        (∀ onu time burst, f.rssi = some (onu, time, burst) → readDone k f v s = rssiRead k f.conv onu time burst v s) ∧
        (∀ n, f.rssi = none → f.loop = some n → readDone k f v s = loopRead_ k n f.aux v s) ∧ (f.rssi = none → f.loop = none → readDone k f v s = s) ∧
        (f.out = none → f.loop = none → frameWritten k f s = s) ∧
        (∀ n, f.out = none → f.loop = some n → frameWritten k f s = if (loopOf s k n).busy then writeDone k n s else s) ∧
        (∀ n, f.out = some n → f.loop = none → frameWritten k f s = modLoop k n (fun l => { l with written := some (outCode l.cfg f.data) }) s)) ∧
      (∀ k : BusIx, let m := (loopBus s k).alertMask; let t := raise (856 + k) [] [wd m] s
        exec (.loopbAlert k) s = .next (forEach ((List.range 12).filter fun j => m.testBit j && (loopOf t k j).running)
          (fun j t => if (loopOf t k j).running then loopFault k j 4 t else t) t))) ∧
  (
    ∀ (l : Loop) (e : Int), l.cfg.outMin ≤ l.u → l.u ≤ l.cfg.outMax → l.cfg.outMin ≤ l.cfg.outMax → let r := piLaw l e none; let c := l.cfg
      c.outMin ≤ r.u ∧ r.u ≤ c.outMax ∧ (r.u - l.u).natAbs ≤ c.slew ∧ (r.i = l.i ∨ r.i = clampI ((c.outMin - c.outBias) * 65536) ((c.outMax - c.outBias) * 65536) (l.i + c.ki * e)) ∧
      (let i2 := l.i + c.ki * e; let u0 := c.outBias + roundAway (((c.kp * e + i2 : Int) : Rat) / 65536)
        (c.outMin - c.outBias) * 65536 ≤ i2 → i2 ≤ (c.outMax - c.outBias) * 65536 → c.outMin ≤ u0 → u0 ≤ c.outMax → (u0 - l.u).natAbs ≤ c.slew →
        r.u = u0 ∧ r.i = i2 ∧ r.clipped = false))

/-- R437 to R441, R444, R449: a Pier's optics start, stop, leave FAULT and are read. A Pier or a loop that does not exist is refused
BAD_ARG, a state that does not take the call BAD_STATE, and an ONU of another slice NOT_OWNER; a start while the optics stop is PENDING. -/
def Obligations.OpticsStartStopAndRead : Prop :=
  ∀ (c : Call) (s : State), let w := pw c.words 0; let sp := fld w 12 8; let p := fld w 1 0
    (Served opticsStartSpec c s → let u := readCall 0x0B10 c s; let x := opticOf u sp p; let b := fld (pw c.words 1) 15 0
      (2 < p → Refused (.opticsStart c) opticsStartSpec c s .badArg) ∧
      (p ≤ 2 → x.st = .off → Answered (.opticsStart c) opticsStartSpec c s [] (opticWarm sp p b u)) ∧
      (p ≤ 2 → x.st = .stopping → exec (.opticsStart c) s = .next (respond 0x0B10 c .pending []
        (if x.startPending.isSome then u else setOptic sp p { x with startPending := some b } u))) ∧
      (p ≤ 2 → x.st ≠ .off → x.st ≠ .stopping → Refused (.opticsStart c) opticsStartSpec c s .badState)) ∧
    (Served opticsStopSpec c s → let u := readCall 0x0B11 c s; let x := opticOf u sp p; let r := refFor 0x0B11 c u
      let t := modOptic sp p (fun x => { x with stopRefs := x.stopRefs ++ [r], startPending := none }) (defer_ r u)
      let busy := (spanOf u sp).st = .opened ∨ (spanOf u sp).st = .opening
      (2 < p → Refused (.opticsStop c) opticsStopSpec c s .badArg) ∧
      (p ≤ 2 → busy ∨ x.st = .fault → Refused (.opticsStop c) opticsStopSpec c s .badState) ∧
      (p ≤ 2 → ¬ busy → x.st = .off → Answered (.opticsStop c) opticsStopSpec c s [] u) ∧
      (p ≤ 2 → ¬ busy → x.st = .lit ∨ x.st = .standby ∨ x.st = .warming → exec (.opticsStop c) s = .next (opticStopping sp p t)) ∧
      (p ≤ 2 → ¬ busy → x.st = .stopping → exec (.opticsStop c) s = .next t)) ∧
    (Served opticsFaultClearSpec c s → let u := readCall 0x0B13 c s
      (2 < p → Refused (.opticsFaultClear c) opticsFaultClearSpec c s .badArg) ∧
      (p ≤ 2 → (opticOf u sp p).st ≠ .fault → Refused (.opticsFaultClear c) opticsFaultClearSpec c s .badState) ∧
      (p ≤ 2 → (opticOf u sp p).st = .fault →
        Answered (.opticsFaultClear c) opticsFaultClearSpec c s [] (shutLoop 2 2 sp p (modOptic sp p (fun x => { x with st := .off }) u)))) ∧
    (Served opticsStatusSpec c s → let u := readCall 0x0B12 c s; let x := opticOf u sp p
      (2 < p → Refused (.opticsStatus c) opticsStatusSpec c s .badArg) ∧
      (p ≤ 2 → Answered (.opticsStatus c) opticsStatusSpec c s
        [putb x.settled 31 ||| put x.st.code 16 ||| put (x.causes.getD 2 0) 8 ||| put (x.causes.getD 1 0) 4 ||| wd (x.causes.getD 0 0), wd ((stbyBias x).getD 0)] u)) ∧
    (Served loopReadSpec c s → let u := readCall 0x0B03 c s; let l := loopOf u (fld w 18 16) (fld w 5 0)
      (35 < fld w 5 0 → Refused (.loopRead c) loopReadSpec c s .badArg) ∧
      (fld w 5 0 ≤ 35 →
        Answered (.loopRead c) loopReadSpec c s [put l.x 16 ||| wd (unsgn 16 l.u), wd (unsgn 32 l.i), putb l.settled 31 ||| put l.fault 16 ||| wd (unsgn 16 l.e)] u)) ∧
    (Served rssiReadSpec c s → let u := readCall 0x0B20 c s; let x := rssiOf u (fld w 4 0) (fld w 24 16)
      (needOnu u c.chan w ≠ .ok () → Refused (.rssiRead c) rssiReadSpec c s .notOwner) ∧
      (needOnu u c.chan w = .ok () → Answered (.rssiRead c) rssiReadSpec c s ((put x.miss 16 ||| wd x.ok) :: toWords 2 x.okTime) u)) ∧
    (Served convReadSpec c s → let u := readCall 0x0B21 c s; let v := kgetD (loopBus u (fld w 18 16)).samples (fld w 5 0) (0, 0)
      Answered (.convRead c) convReadSpec c s (wd v.1 :: toWords 2 v.2) u)

/-- R453, R454, R457 to R461, R470 to R472: a lane starts and stops by LANE_ENABLE and the end of its states, which answer the calls that
wait; a lane number that does not exist is refused BAD_ARG, a lane whose domain is not ON BAD_STATE, and so is OFF for a Pier's lane
whose Span is not closed. A lane's detectors, its training, a port's PCS and the PCIe link take what the line shows; a detector that
declares is counted, and a frequency source that its lane shows lost is declared so. A command that meets its lane in another state
changes nothing of it; the two rows of LANE_ENABLE are one call, whose word chooses. -/
def Obligations.LanesStartStopAndDetect : Prop :=
  (
    ∀ (s : State),
      (∀ n : LaneIx, let x := laneOf s n
        (x.st = .starting → exec (.laneStartingDone n) s = .next (andSet n (forEach x.onRefs (fun r => answer r .done [])
          (onLane n (fun t => adapted n (train n (setLane n { x with st := .on, onRefs := [], trained := none, training := false, must := trains t n } t))) s)))) ∧
        (x.st ≠ .starting → exec (.laneStartingDone n) s = .next (andSet n s)) ∧
        (x.st = .stopping → let t := forEach x.offRefs (fun r => answer r .done []) (setLane n { x with st := .off, offRefs := [], onPending := false } s)
          (x.onPending = false ∨ domOn t (domOfLane n) = false → exec (.laneStoppingDone n) s = .next t) ∧
          (x.onPending = true → domOn t (domOfLane n) = true → exec (.laneStoppingDone n) s = .next (modLane n (fun x => { x with st := .starting, onRefs := [] }) t))) ∧
        (x.st ≠ .stopping → exec (.laneStoppingDone n) s = .next s)) ∧
      (∀ c : Call, exec (.laneEnableOn c) s = exec (.laneEnableOff c) s) ∧
      (∀ c : Call, Served laneEnableSpec c s → let u := readCall 0x0C02 c s; let n := fld (pw c.words 0) 6 0; let x := laneOf u n; let r := refFor 0x0C02 c u
        let gives (t : State) : Prop := exec (.laneEnableOn c) s = .next (andSet n t); let on := bit (pw c.words 0) 8 = true; let named := n ≤ 27 ∨ 32 ≤ n
        (¬ named → Refused (.laneEnableOn c) laneEnableSpec c s .badArg) ∧
        (named → on → domOn u (domOfLane n) = false → gives (respond 0x0C02 c .badState [] u)) ∧
        (named → on → domOn u (domOfLane n) = true →
          (x.st = .off → gives (modLane n (fun x => { x with st := .starting, onRefs := [r] }) (defer_ r u))) ∧
          (x.st = .on → gives (respond 0x0C02 c .done [] u)) ∧
          (x.st = .starting → gives (modLane n (fun x => { x with onRefs := x.onRefs ++ [r] }) (defer_ r u))) ∧
          (x.st = .stopping → gives (respond 0x0C02 c .pending [] (setLane n { x with onPending := true } u)))) ∧
        (named → ¬ on → let held := x.st = .on ∧ 32 ≤ n ∧ (spanOf u (spanOfLane n)).st ≠ .closed
          (x.st = .off → gives (respond 0x0C02 c .done [] u)) ∧
          (held → gives (respond 0x0C02 c .badState [] u)) ∧
          (x.st = .on ∨ x.st = .starting → ¬ held → gives (forEach x.onRefs (fun r => answer r .badState [])
            (modLane n (fun x => { x with offRefs := x.offRefs ++ [r] }) (laneStop n (defer_ r u))))) ∧
          (x.st = .stopping → gives (modLane n (fun x => { x with onPending := false, offRefs := x.offRefs ++ [r] }) (defer_ r u)))))) ∧
  (
    ∀ (s : State) (n : LaneIx), let x := laneOf s n
      (let may := laneAwake s n = true ∧ x.los = false ∧ n.val < 28;
        (may → exec (.laneLosDeclare n) s = .next (freqWatch (andSet n (cnt (cLane 0 n) 1 (onLane n (modLane n fun x => { x with los := true }) s))))) ∧
        (¬ may → exec (.laneLosDeclare n) s = .next (freqWatch (andSet n s)))) ∧
      (x.los = true → exec (.laneLosClear n) s = .next (onLane n (modLane n fun x => { x with los := false }) s)) ∧
      (x.los = false → exec (.laneLosClear n) s = .next s) ∧
      (let may := laneAwake s n = true ∧ x.rxLol = false ∧ n.val < 28;
        (may → exec (.laneRxLol n) s = .next (freqWatch (andSet n (cnt (cLane 1 n) 1 (onLane n (modLane n fun x => { x with rxLol := true }) s))))) ∧
        (¬ may → exec (.laneRxLol n) s = .next (freqWatch (andSet n s)))) ∧
      (x.rxLol = true → exec (.laneRxLockHeld n) s = .next (onLane n (modLane n fun x => { x with rxLol := false }) s)) ∧
      (x.rxLol = false → exec (.laneRxLockHeld n) s = .next s) ∧
      (∀ pre post : Int, x.training = true → let a := tapIn 16 pre; let most := postMax a; exec (.laneTrainComplete n pre post) s = .next
        (onLane n (fun t => adapted n (modLane n (fun x => { x with training := false, trained := some (a, tapIn most post) }) t))
          (emit (.trainStatus n (tapStatus 16 pre) (tapStatus most post)) s)) ∧ a ≤ 16 ∧ tapIn most post ≤ 24 ∧ a + tapIn most post ≤ 32) ∧
      (x.training = true → exec (.laneTrainTimeout n) s = .next (cnt (cLane 10 n) 1 (setLane n { x with training := false } s))) ∧
      (x.training = false → (∀ pre post : Int, exec (.laneTrainComplete n pre post) s = .next s) ∧ exec (.laneTrainTimeout n) s = .next s) ∧
      (x.st = .on → x.must = true → x.trained = none → x.training = false → exec (.laneTrainRetry n) s = .next (train n s)) ∧
      (x.st ≠ .on ∨ x.must = false ∨ x.trained ≠ none ∨ x.training = true → exec (.laneTrainRetry n) s = .next s) ∧
      (trains s n = false → train n s = s) ∧
      (trains s n = true → train n s = emit (.trainAsk n (Config.freeNat s.free)) (drawn (setLane n { x with training := true, trained := none } s))) ∧
      (∀ (p : PortIx) (a b f : Bool), exec (.pcsBlockLockChange p a b f) s = .next
        (onLane p (fun t => setPort p { portOf t p with block := a, align := b, fault := f } t) s)) ∧
      (∀ speed width : Nat, (pcieTrains speed width = false → exec (.pcieLinkChange speed width) s = .next s) ∧
        (pcieTrains speed width = true → exec (.pcieLinkChange speed width) s = .next (raise 797 [] [put speed 8 ||| wd width] (drawn { s with lane := { s.lane with
          pcie := { s.lane.pcie with speed := speed, width := width, down := width = 0, mps := 128 * 2 ^ (Config.freeNat s.free % 3) } } })))) ∧
      (∀ w : Word, exec (.pcieUncorrError w) s = .next (raise 798 [] [w] (cnt (cDev 10) 1
        { s with lane := { s.lane with pcie := { s.lane.pcie with aer := s.lane.pcie.aer ||| w } } }))))

/-- R451, R452, R456 to R459, R465, R466, R468, R470, R474: the calls that set a port's mode and a lane's equalisers, detectors,
loopback and test pattern act at once; the lane, Hawser and PCIe states are read. Arguments out of range are refused BAD_ARG, lanes that
are not OFF, or not ON for a loopback, BAD_STATE. What adaptation, a clock's offset, a buffer, a checker and the host's payload size give
are free values (assumption 26). -/
def Obligations.LaneCallsSetAndRead : Prop :=
  ∀ (c : Call) (s : State), let w := pw c.words 0; let v := pw c.words 1; let n := fld w 6 0
    (Served portModeSetSpec c s → let u := readCall 0x0C01 c s; let port := fld w 20 16; let mode := fld w 3 0; let fec := fld w 9 8
      let ok := port ≤ 23 ∧ modeAllowed mode port = true ∧ fecAllowed mode fec = true
      let idle := (∀ i ∈ lanesOf u port, (laneOf u i).st = .off) ∧
        ∀ i < portLanes mode, (laneOf u (port + i)).st = .off ∧ (portOfLane u (port + i) = none ∨ portOfLane u (port + i) = some port);
      (¬ ok → Refused (.portModeSet c) portModeSetSpec c s .badArg) ∧
      (ok → ¬ idle → Refused (.portModeSet c) portModeSetSpec c s .badState) ∧
      (ok → idle → let t := if mode = 10 ∧ (laneOf u port).loopback = 3 then modLane port (fun x => { x with loopback := 0 }) u else u
        Answered (.portModeSet c) portModeSetSpec c s []
          (laneEvt port (laneFlags t port) (setPort port { mode := mode, fec := if 6 ≤ mode ∧ mode ≤ 9 then fec else 0 } t)))) ∧
    (Served laneTxEqSetSpec c s → let u := readCall 0x0C03 c s; let x := laneOf u n
      let ok := laneNamed n true = true ∧ fld v 4 0 ≤ 16 ∧ fld v 12 8 ≤ 24 ∧ fld v 21 16 ≤ 32 ∧ fld v 4 0 + fld v 12 8 ≤ 32
      let train := if n < 24 ∧ ((portOf u n).mode = 8 ∨ (portOf u n).mode = 9) then bit v 31 else x.train;
      (¬ ok → Refused (.laneTxEqSet c) laneTxEqSetSpec c s .badArg) ∧
      (ok → Answered (.laneTxEqSet c) laneTxEqSetSpec c s [] (onLane n (setLane n { x with
        pre := fld v 4 0, post := fld v 12 8, amp := fld v 21 16, train := train, must := x.must && train, training := x.training && train
        trained := x.trained.map fun _ => (fld v 4 0, fld v 12 8) }) u))) ∧
    (Served laneRxEqSetSpec c s → let u := readCall 0x0C04 c s; let x := laneOf u n; let m := fld w 9 8
      (27 < n ∨ m = 3 ∨ (m = 2 ∧ 40 < fld v 13 8) → Refused (.laneRxEqSet c) laneRxEqSetSpec c s .badArg) ∧
      (n ≤ 27 → m < 2 → Answered (.laneRxEqSet c) laneRxEqSetSpec c s []
        (modLane n (fun x => { x with rxMode := m }) (if x.st = .on ∧ x.rxMode = 0 then adapted n u else u))) ∧
      (n ≤ 27 → m = 2 → fld v 13 8 ≤ 40 → Answered (.laneRxEqSet c) laneRxEqSetSpec c s []
        (setLane n { x with rxMode := 2, ctle := fld v 13 8, vga := fld v 4 0, dfe := [pw c.words 2, pw c.words 3] } u))) ∧
    (Served laneDetectConfigSpec c s → let u := readCall 0x0C05 c s
      let ok := n ≤ 27 ∧ 2 ≤ fld v 27 24 ∧ fld v 27 24 ≤ 8 ∧ 1 ≤ fld v 22 16 ∧ fld v 22 16 ≤ 100 ∧ 40 ≤ fld v 8 0 ∧ fld v 8 0 ≤ 300 ∧ fld v 8 0 % 10 = 0;
      (¬ ok → Refused (.laneDetectConfig c) laneDetectConfigSpec c s .badArg) ∧
      (ok → Answered (.laneDetectConfig c) laneDetectConfigSpec c s []
        (setLane n { laneOf u n with deg := fld v 27 24, losAssert := fld v 22 16, losTh := fld v 8 0 } u))) ∧
    (Served laneLoopbackSetSpec c s → let u := readCall 0x0C06 c s; let ok := n ≤ 27 ∧ loopbackAllowed u n (fld w 9 8) = true;
      (¬ ok → Refused (.laneLoopbackSet c) laneLoopbackSetSpec c s .badArg) ∧
      (ok → (laneOf u n).st ≠ .on → Refused (.laneLoopbackSet c) laneLoopbackSetSpec c s .badState) ∧
      (ok → (laneOf u n).st = .on →
        Answered (.laneLoopbackSet c) laneLoopbackSetSpec c s [] (onLane n (fun t => dropPcs n (modLane n (fun x => { x with loopback := fld w 9 8 }) t)) u))) ∧
    (Served lanePrbsSpec c s → let u := readCall 0x0C07 c s; let pat := fld w 13 12; let ok := n ≤ 27 ∧ pat ≤ 2 ∧ (pat = 2 → pam4 u n = true)
      let t := prbsPoll n u; let chk := bit w 8 && pat ≠ 0
      let r := onLane n (modLane n fun y => { y with pattern := pat, gen := bit w 9 && pat ≠ 0, check := chk, prbsErr := if chk && !y.check then 0 else y.prbsErr }) t
      (¬ ok → Refused (.lanePrbs c) lanePrbsSpec c s .badArg) ∧
      (ok → Answered (.lanePrbs c) lanePrbsSpec c s (toWords 2 (laneOf r n).prbsErr) (andSet n r))) ∧
    (Served laneStatusSpec c s → let u := readCall 0x0C10 c s; let b := bufferMoved n u; let t := drawn b
      let t := if (laneOf t n).st = .on ∧ (laneOf t n).rxMode = 0 then adapted n t else t
      let x := laneOf t n; let taps := x.trained.getD (x.pre, x.post)
      (27 < n → Refused (.laneStatus c) laneStatusSpec c s .badArg) ∧
      (n ≤ 27 → Answered (.laneStatus c) laneStatusSpec c s
        [put (laneCode x) 24 ||| put x.loopback 16 ||| putb x.trained.isSome 4 ||| wd (laneFlags t n),
          put (if x.st = .on then Config.freeNat b.free % 65536 else 0) 16 ||| wd x.fill, put x.amp 16 ||| put taps.2 8 ||| wd taps.1, put x.ctle 8 ||| wd x.vga,
          pw x.dfe 0, if shortDfe t n then 0 else pw x.dfe 1] t)) ∧
    (Served hawserLaneStatusSpec c s → let u := readCall 0x0C11 c s; let h := u.red.hawser; let skew := max h.skew (Config.freeNat u.free % 65536)
      Answered (.hawserLaneStatus c) hawserLaneStatusSpec c s [put (maskOf h.remote).toNat 8 ||| put (maskOf h.locked).toNat 4 ||| maskOf h.inUse, wd skew]
        (drawn (setHawser { h with skew := skew } u))) ∧
    (Served pcieStatusSpec c s → let u := readCall 0x0C20 c s; Answered (.pcieStatus c) pcieStatusSpec c s [put u.lane.pcie.speed 8 ||| wd u.lane.pcie.width,
      wd u.lane.pcie.mps, wd u.ctl.numVfs] u)

/-- R18, R20, R306 to R311, R333 to R337, R463, R465: a frame that a port receives reaches the distributor's pipelines, which a mask of zero
leaves empty; a lane whose elastic buffer slips counts, tells and recentres, and marks the frame; a port in a far-end loopback sends a
frame back, one in a near-end loopback hears only itself, and Saend takes its own, marked or not. A pipeline
takes the oldest frame of its Spans, drops it where no record or MODE 0 names it, passes it through its traps, its hop limit, its policer,
its lookup and its queue in that order, and gives a bridged frame to its queue; a queue that serves the other direction is undefined use. -/
def Obligations.PortsAndSpansFeedThePipelines : Prop :=
  (∀ (l : Nat) (s : State), laneSlip l s = raise (768 + l) [] [0] (cnt (cLane 9 l) 1 (modLane l (fun x => { x with fill := 32 }) s))) ∧
  (∀ (s : State) (n : PortIx) (f : List Byte) (ok : Bool) (slips : List (Fin 8)), let slipped := (lanesOf s n).filter fun l => slips.any fun i => l = n.val + i.val
    let t := forEach slipped laneSlip s; let v := if ptpMode t n ≠ 0 then drawn t else t
    ((portOf s n).link = false → exec (.uplinkFrameRx n f ok slips) s = .next s) ∧
    ((portOf s n).link = true → portLoop t n = 3 → exec (.uplinkFrameRx n f ok slips) s = .next (cnt (cLane 11 (loopedLane t n)) 1 (emit (.ethTx n f) t))) ∧
    ((portOf s n).link = true → portLoop t n = 1 ∨ portLoop t n = 2 → exec (.uplinkFrameRx n f ok slips) s = .next t) ∧
    ((portOf s n).link = true → (portLoop t n = 0 ∨ 3 < portLoop t n) → ok = false → exec (.uplinkFrameRx n f ok slips) s = .next t) ∧
    ((portOf s n).link = true → (portLoop t n = 0 ∨ 3 < portLoop t n) → ok = true →
      (∀ w, macRx n f v = (w, .drop) → exec (.uplinkFrameRx n f ok slips) s = .next w) ∧
      (∀ w g bad, macRx n f v = (w, .pass g bad) → let bad := bad || decide (slipped ≠ [])
        (forSaend w n g = true → exec (.uplinkFrameRx n f ok slips) s = .next w) ∧
        (forSaend w n g = false → let own := match (parse g).outer with | some x => x.1 | none => 0
          let vid := if own = 0 then kgetD w.fwd.pvid n 1 else own
          let ptp := if ptpMode w n ≠ 0 ∧ (ptpHead g).isSome then some (ptpTrailer (symbolPs t) n) else none
          (vid = 4095 ∨ kgetD w.fwd.dist vid 0 = 0 → exec (.uplinkFrameRx n f ok slips) s = .next (raise 544 [] [] (cnt (cDev 0) 1 w))) ∧
          (vid ≠ 4095 → kgetD w.fwd.dist vid 0 ≠ 0 → let ps := (List.range 4).filter fun p => (kgetD w.fwd.dist vid 0).testBit p
            let r := toPipes ps n vid (1 < ps.length) bad ptp g w
            (∀ z, r = .ok z → exec (.uplinkFrameRx n f ok slips) s = .next z) ∧
            (∀ e, r = .error e → exec (.uplinkFrameRx n f ok slips) s = .fault (.undefinedUse "R337"))))))) ∧
  (∀ (s : State) (p : Fin 4), (takeUp p s.fwd.up = none → exec (.upstreamPipeline p) s = .next s) ∧
    (∀ u rest, takeUp p s.fwd.up = some (u, rest) → let t := { s with fwd := { s.fwd with up := rest } }
      (domOn s (domPl p) = false → exec (.upstreamPipeline p) s = .next t) ∧
      (domOn s (domPl p) = true → let t := cnt (cPipe 1 p) 1 t
        (upRecord t u = none → exec (.upstreamPipeline p) s = .next (cnt (cPipe 2 p) 1 t)) ∧
        (∀ i r, upRecord t u = some (i, r) → let slice := onuOwner t u.span u.onu; let src : Source := ⟨wd (u.onu * 2 ^ 16 + u.span), false, u.time⟩
          let trap := trapStage p slice r.trapMask src u.bytes t; let ttl := if r.mode = 3 then ttlStage p slice src u.bytes trap.1 else (trap.1, true)
          let tc := tcOf (pipeOf ttl.1 p) r.tcSrc r.tc u.bytes; let police := policeStage u.span i u.bytes.length r ttl.1
          (r.mode = 0 → exec (.upstreamPipeline p) s = .next (cnt (cPipe 2 p) 1 t)) ∧
          (r.mode ≠ 0 → trap.2 = false → exec (.upstreamPipeline p) s = .next trap.1) ∧
          (r.mode ≠ 0 → trap.2 = true → ttl.2 = false → exec (.upstreamPipeline p) s = .next ttl.1) ∧
          (∀ reason, r.mode ≠ 0 → trap.2 = true → ttl.2 = true → upPunt ttl.1 p r u.bytes = some reason →
            exec (.upstreamPipeline p) s = .next (punt p slice reason src u.bytes ttl.1)) ∧
          (r.mode ≠ 0 → trap.2 = true → ttl.2 = true → upPunt ttl.1 p r u.bytes = none → police.2 = none → exec (.upstreamPipeline p) s = .next police.1) ∧
          (∀ yellow, r.mode ≠ 0 → trap.2 = true → ttl.2 = true → upPunt ttl.1 p r u.bytes = none → police.2 = some yellow →
            let z := upForward p i slice tc yellow r src u police.1
            (∀ q, z = .ok q → exec (.upstreamPipeline p) s = .next q) ∧
            (∀ e, z = .error e → exec (.upstreamPipeline p) s = .fault (.undefinedUse "R337"))) ∧
          (r.mode = 1 → trapReason u.bytes r.trapMask = none → r.police = false → r.learn = false → let tc := tcOf (pipeOf t p) r.tcSrc r.tc u.bytes
            let q := r.uplinkQueue + tc / 2 ^ (3 - r.usClasses)
            (r.pushVid = 0 → queueUp t q ≠ some false → exec (.upstreamPipeline p) s = .next (stage q u.bytes false false (some u.span) false t)) ∧
            (queueUp t q = some false → exec (.upstreamPipeline p) s = .fault (.undefinedUse "R337")))))))

/-- R325, R327, R328, R334: a sweep of a class starts at the first hash bucket, once in each TAI second that is a multiple of AGE_TIME / 4,
and visits one place at a time, an aged entry leaves, a key from another pipeline removes a learned entry and spares a static one, and a
punt limiter is refilled. With no sweep due or under way, or no key waiting, these commands change nothing. -/
def Obligations.EntriesAgeAndFlush : Prop :=
  ∀ (s : State) (p : Fin 4), let x := pipeOf s p
    (∀ c : Fin 4, (let age := x.ageTime.getD c 0; let second := nowNs s / 1000000000
        let due := domOn s (domPl p) = true ∧ age ≠ 0 ∧ second % (age / 4) = 0 ∧ kget x.swept c ≠ some second;
        (due → exec (.agingSweepStart p c) s =
          .next (setPipe p { x with sweeps := kset x.sweeps c (1024 * x.directBlocks), swept := kset x.swept c second } s)) ∧
        (¬ due → exec (.agingSweepStart p c) s = .next s)) ∧
      (kget x.sweeps c = none → exec (.agingBucketVisit p c) s = .next s) ∧
      (∀ n, kget x.sweeps c = some n → n < 65536 → let t := setPipe p { x with sweeps := kset x.sweeps c (n + 1) } s
        exec (.agingBucketVisit p c) s = .next (relocate p n (ageAt p c (.bucket n 3) (ageAt p c (.bucket n 2) (ageAt p c (.bucket n 1) (ageAt p c (.bucket n 0) t)))))) ∧
      (∀ n, kget x.sweeps c = some n → 65536 ≤ n → n < 69631 → exec (.agingBucketVisit p c) s =
        .next (ageAt p c (.overflow (n - 65536)) (setPipe p { x with sweeps := kset x.sweeps c (n + 1) } s))) ∧
      (kget x.sweeps c = some 69631 → exec (.agingBucketVisit p c) s =
        .next (ageAt p c (.overflow 4095) (setPipe p { x with sweeps := kerase x.sweeps c } s)))) ∧
    (∀ (c : Fin 4) w, entryAt x w = none → ageAt p c w s = s) ∧
    (∀ (c : Fin 4) w e, entryAt x w = some e →
      (resStatic e.res = false → resAgingClass e.res ≠ c → ageAt p c w s = s) ∧
      (resStatic e.res = true → ageAt p c w s = s) ∧
      (resStatic e.res = false → resAgingClass e.res = c → 0 < resAge e.res → ageAt p c w s = setPipe p (putAt x w { e with res := withAge e.res (resAge e.res - 1) }) s) ∧
      (resStatic e.res = false → resAgingClass e.res = c → resAge e.res = 0 → ageAt p c w s = tableLevels p (cnt (cPipe 9 p) 1 (setPipe p (clearAt x w) s)))) ∧
    (x.xpWait = [] → exec (.xpFlushReceived p) s = .next s) ∧
    (∀ k rest, x.xpWait = k :: rest → let t := setPipe p { x with xpWait := rest } s
      (findKey x k = none → exec (.xpFlushReceived p) s = .next t) ∧
      (∀ w e, findKey x k = some w → entryAt x w = some e → (resStatic e.res = true → exec (.xpFlushReceived p) s = .next t) ∧
        (resStatic e.res = false → exec (.xpFlushReceived p) s = .next (tableLevels p (cnt (cPipe 14 p) 1 (setPipe p (clearAt (pipeOf t p) w) t)))))) ∧
    (∀ (k : SliceIx) (r : Fin 13), let t := kgetD x.traps (16 * k + r) {}
      let l : Limiter := match kget x.limiters (16 * k + r) with
        | none => ⟨t.burst * 1000000000, nowNs s⟩
        | some l => ⟨min (t.burst * 1000000000) (l.tokens + t.rate * (nowNs s - l.at_)), nowNs s⟩
      exec (.puntLimiterRefill p k r) s = .next (setPipe p { x with limiters := kset x.limiters (16 * k + r) l } s))

/-- R18, R318, R330, R340 to R342: what the calls answer that read the distributor, a key, a route and a pipeline's tables; a flush of the
pipelines it names, and of one alone, removes the learned entries it selects and answers their number. A caller who does not own what it
names is refused NOT_OWNER, a key without a layout or a route out of range BAD_ARG. -/
def Obligations.ForwardingTablesAreRead : Prop :=
  ∀ (c : Call) (s : State), let w := pw c.words 0
    (Served distReadSpec c s → let u := readCall 0x0702 c s; Answered (.distRead c) distReadSpec c s [put (kgetD u.fwd.dist (fld w 11 0) 0) 24] u) ∧
    (Served fdbReadSpec c s → let u := readCall 0x0722 c s; let key := wide c.words 1 4; let x := pipeOf u (fld w 29 28)
      (∀ e, keyOk u c.chan key = .error e → Refused (.fdbRead c) fdbReadSpec c s e) ∧
      (keyOk u c.chan key = .ok () → (findKey x key = none → Answered (.fdbRead c) fdbReadSpec c s [0, 0, 0] u) ∧
      (∀ b i e, findKey x key = some (.bucket b i) → entryAt x (.bucket b i) = some e →
        Answered (.fdbRead c) fdbReadSpec c s ((putb true 31 ||| (put i 28 ||| wd b)) :: toWords 2 e.res.toNat) u) ∧
      (∀ i e, findKey x key = some (.overflow i) → entryAt x (.overflow i) = some e →
        Answered (.fdbRead c) fdbReadSpec c s ((putb true 31 ||| (putb true 30 ||| wd i)) :: toWords 2 e.res.toNat) u))) ∧
    (Served fdbFlushSpec c s → let u := readCall 0x0723 c s; let v := pw c.words 1; let r := flushPipes (pipesOf w) w v 0 u
      let may := if bit w 27 = true ∨ bit w 26 = false then needOwner u c.chan 0
        else needOwnerOpt u c.chan ((kget u.fwd.ports (portKey v)).map fun o => onuOwner u (fld v 4 0) o.onu);
      (∀ e, may = .error e → Refused (.fdbFlush c) fdbFlushSpec c s e) ∧
      (may = .ok () → Answered (.fdbFlush c) fdbFlushSpec c s [wd r.2] r.1)) ∧
    (Served fdbFlushSpec c s → let u := readCall 0x0723 c s; let v := pw c.words 1; fld w 31 28 = 1 →
      ((bit w 27 = true ∨ bit w 26 = false) → needOwner u c.chan 0 = .ok () → Answered (.fdbFlush c) fdbFlushSpec c s [wd (countLearned (pipeOf u 0) (flushes w v))]
        (tableLevels 0 (setPipe 0 (removeLearned (pipeOf u 0) (flushes w v)) u))) ∧
      (bit w 27 = false → bit w 26 = true → ∀ r, kget u.fwd.ports (portKey v) = some r → needOwner u c.chan (onuOwner u (fld v 4 0) r.onu) = .ok () →
        Answered (.fdbFlush c) fdbFlushSpec c s [wd (countLearned (pipeOf u 0) (flushes w v))]
          (tableLevels 0 (setPipe 0 (removeLearned (pipeOf u 0) (flushes w v)) u)))) ∧
    (Served routeReadSpec c s → let u := readCall 0x0732 c s; let r := routeFrom (versionOf u c.chan) w (wide c.words 1 4) 0
      let x := pipeOf u (fld w 29 28); let mine := needOwner u c.chan (vrfOwner u r.pre.vrf) = .ok ();
      (¬ mine → Refused (.routeRead c) routeReadSpec c s .notOwner) ∧
      (mine → r.ok = false → Refused (.routeRead c) routeReadSpec c s .badArg) ∧
      (mine → r.ok = true → r.host = true → Answered (.routeRead c) routeReadSpec c s
        (match lookupKey x (hostKey r.pre.vrf r.pre.addr) with | some v => putb true 31 :: toWords 2 v.toNat | none => [0, 0, 0]) u) ∧
      (mine → r.ok = true → r.host = false → Answered (.routeRead c) routeReadSpec c s
        (match lpmFind x r.pre.v6 r.pre.vrf r.pre.addr r.pre.len with | some (n, q) => (putb true 31 ||| wd n) :: toWords 2 q.res.toNat | none => [0, 0, 0]) u)) ∧
    (Served fwdStatusSpec c s → let u := readCall 0x0741 c s; let x := pipeOf u (fld w 29 28); let l := countLearned x fun _ => true
      let v6 := ((lpmSlotsFrom 0 (lpmCells x)).filter fun q => q.2.v6).length; let all := (lpmSlotsFrom 0 (lpmCells x)).length
      Answered (.fwdStatus c) fwdStatusSpec c s [wd (x.em.length + x.ov.length), wd l, wd (x.em.length + x.ov.length - l), wd x.ov.length,
        wd (2 * (lpmCells x).length), put v6 16 ||| wd (all - v6)] u)

/-- R347, R349 to R351, R353, R360: a frame whose last byte has arrived is admitted by the steps in order; the first that fails drops it
under its cause with its cells freed, and one whose descriptor is not on die waits for it. -/
def Obligations.AdmissionFollowsItsSteps : Prop :=
  ∀ (s : State) (i : Nat), (s.fwd.staged[i]? = none → exec (.queueAdmission i) s = .next s) ∧ (∀ f, s.fwd.staged[i]? = some f →
    let becomes (t : State) : Prop := exec (.queueAdmission i) s = .next (repark f.queue t)
    let u := touchDesc f.queue { s with fwd := { s.fwd with staged := lremove s.fwd.staged i } }
    let drops (cause : Nat) (looked : Bool) : Prop := becomes (countDrop f.queue cause f.bytes.length looked (freeCells f.cells u))
    (f.waiting = true → becomes s) ∧
    (f.waiting = false → hasDesc s f.queue = false →
      becomes (missDesc f.queue { s with fwd := { s.fwd with staged := lset s.fwd.staged i { f with waiting := true } } })) ∧
    (f.waiting = false → hasDesc s f.queue = true → (f.marked = true → drops 0 false) ∧ (f.marked = false →
      ((f.bytes.length < 14 ∨ 16000 < f.bytes.length) → drops 1 false) ∧ (14 ≤ f.bytes.length → f.bytes.length ≤ 16000 →
        (queueAt s f.queue = none → drops 2 false) ∧ (∀ x, queueAt s f.queue = some x →
          (x.draining = true → drops 2 true) ∧ (x.draining = false → (queueOpen u f.queue x f.srcSpan = false → drops 3 true) ∧
            (queueOpen u f.queue x f.srcSpan = true → let pr := profileOf u f.queue x; let pier := pierOfQueue u f.queue x
              let p : Packet := {
                bytes := f.bytes, yellow := f.yellow, place := .shallow, cells := f.cells, injected := f.injected
                port := pier.bind fun e => queuePort u e.1 x
                launch := (launchEntry u f.queue).bind fun e => if pier.isSome then launchTime e (psCeil u) else none };
              (1024 * pr.maxDepth ≤ x.depth → drops 4 true) ∧ (x.depth < 1024 * pr.maxDepth →
                (f.yellow = true → 1024 * pr.yellowDepth ≤ x.depth → drops 5 true) ∧ ((f.yellow = false ∨ x.depth < 1024 * pr.yellowDepth) →
                  ((pr.spillThresh = 0xFFFFFF ∨ x.depth < 1024 * pr.spillThresh) → hankUse u (queueOwner u f.queue) 0 < quotaOf u (queueOwner u f.queue) 0 →
                    becomes (enqueue f.queue p (closeTrain f.queue u))) ∧
                  ((pr.spillThresh = 0xFFFFFF ∨ x.depth < 1024 * pr.spillThresh) → quotaOf u (queueOwner u f.queue) 0 ≤ hankUse u (queueOwner u f.queue) 0 → drops 7 true) ∧
                  (pr.spillThresh ≠ 0xFFFFFF → 1024 * pr.spillThresh ≤ x.depth → (backlogFull u = false → becomes (admitSpill f.queue p u)) ∧
                    (backlogFull u = true → pr.defer_ = false → drops 6 true) ∧
                    (backlogFull u = true → pr.defer_ = true → becomes (admitShallow f.queue p (cnt (cQm 0 (groupOf f.queue)) 1 u)))))))))))))

/-- R345, R346, R348: an allocation takes the lowest free buffer of its Hank alone and fails where none is free; an arriving frame takes a
cell only while more than PREFETCH_RESERVE less P are free, and a fetch only while P is below PREFETCH_RESERVE. R352: a spilled record goes
to its queue's open train where it fits, or opens one in the smallest Hank that its size and TRAIN allow, within the quota. R347, R354,
R355, R360, R361, R363: a copied record is written and counted and frees its cells; the oldest fetch asked for takes cells, waits for them,
or is lost under its cause; an arrived descriptor admits the frames that waited; a deleted queue drops packet by packet; a sent packet
frees its cells. With nothing there that it names, such a command changes nothing. -/
def Obligations.PacketsMoveThroughTheStores : Prop :=
  (
    ∀ (s : State) (h : Nat),
      (hankFree s h = 0 → allocBuf h s = none) ∧
      (∀ b t, allocBuf h s = some (b, t) → b ∉ takenOf s h ∧ (∀ k < b, k ∈ takenOf s h) ∧ b ∈ takenOf t h ∧
        ∀ k, k ≠ h → takenOf t k = takenOf s k) ∧
      (∀ n got, hankFree s 0 + fetchCells s ≤ s.fwd.prefetch → takeCells false (n + 1) got s = (false, got, s)) ∧
      (∀ n got b t, s.fwd.prefetch < hankFree s 0 + fetchCells s → allocBuf 0 s = some (b, t) → takeCells false (n + 1) got s = takeCells false n (got ++ [b]) t) ∧
      (∀ n got, s.fwd.prefetch ≤ fetchCells s + got.length → takeCells true (n + 1) got s = (false, got, s)) ∧
      (∀ n got b t, fetchCells s + got.length < s.fwd.prefetch → allocBuf 0 s = some (b, t) → takeCells true (n + 1) got s = takeCells true n (got ++ [b]) t)) ∧
  (
    ∀ (r train : Nat), let h := trainHank r train
      1 ≤ h ∧ h ≤ 3 ∧ (r ≤ 65536 → r ≤ bufSize h) ∧ (train ≠ 0 → train ≤ 3 → bufSize train ≤ bufSize h) ∧
        ∀ k, 1 ≤ k → k < h → bufSize k < r ∨ (train ≠ 0 ∧ bufSize k < bufSize train)) ∧
  (
    ∀ (s : State) (q len : Nat) x, queueAt s q = some x → let r := recordSize len; let h := trainHank r (profileOf s q x).train; let k := queueOwner s q
      (∀ t, x.train = some t → t.used + r ≤ bufSize t.hank →
        placeSpill q len s = .inl (setQueue q { x with train := some { t with used := t.used + r } } s, .copying t.hank t.buf t.used r)) ∧
      (x.train = none → quotaOf s k h ≤ hankUse s k h → placeSpill q len s = .inr (s, 7 + h)) ∧
      (x.train = none → hankUse s k h < quotaOf s k h → hankFree s h = 0 → placeSpill q len s = .inr (s, 11 + h)) ∧
      (∀ b t, x.train = none → hankUse s k h < quotaOf s k h → allocBuf h s = some (b, t) →
        placeSpill q len s = .inl (notePeak k h (setQueue q { x with train := some ⟨h, b, r⟩ } t), .copying h b 0 r))) ∧
  (
    ∀ (s : State),
      (∀ q : QueueIx, queueAt s q = none → exec (.spillWriteComplete q) s = .next s ∧ exec (.queueDeleteDrain q) s = .next s ∧
        ∀ bad lost, exec (.deepFetchComplete q bad lost) s = .next s) ∧
      (∀ (q : QueueIx) x, queueAt s q = some x → let at_ := x.pkts.findIdx? fun p => match p.place with | .copying _ _ _ _ => true | _ => false
        (at_ = none → exec (.spillWriteComplete q) s = .next s) ∧
        (∀ i p h b o n, at_ = some i → x.pkts[i]? = some p → p.place = .copying h b o n → let a := bufAddr s h b o
          exec (.spillWriteComplete q) s = .next (askFetches q (freeCells p.cells (cnt (cDev 1) n (cnt (cQueue 5 q) 1
            (setQueue q { x with pkts := lset x.pkts i { p with place := .deep h b o n, cells := [] } }
              (relink q i a x (putRecord q (queueOwner s q) (nextRecord s (x.pkts.drop (i + 1))) a p s))))))))) ∧
      (∀ (q : QueueIx) bad lost, (∀ a ∈ s.fwd.fetchq.head?, a.1 ≠ q.val) → exec (.deepFetchComplete q bad lost) s = .next s) ∧
      (∀ (q : QueueIx) x a, queueAt s q = some x → s.fwd.fetchq.head? = some (q.val, a) →
        (recordIx s x.pkts a = none → ∀ bad lost, exec (.deepFetchComplete q bad lost) s = .next s) ∧
        (∀ i p, recordIx s x.pkts a = some i → x.pkts[i]? = some p →
          ((∀ h b o n, p.place ≠ .deep h b o n) → ∀ bad lost, exec (.deepFetchComplete q bad lost) s = .next s) ∧
          (∀ h b o n, p.place = .deep h b o n → let r := getRecord s (queueOwner s q) (bufAddr s h b o) p.bytes.length; let v := cnt (cDev 2) n s
            (headerPasses r.1 = true →
              (∀ cs t, takeCells true (cellsFor p.bytes.length) [] s = (true, cs, t) → exec (.deepFetchComplete q false false) s =
                .next (cnt (cDev 2) n (setQueue q { x with pkts := lset x.pkts i { p with bytes := r.2, place := .fetched h b o n, cells := cs } }
                  { t with fwd := { t.fwd with fetchq := t.fwd.fetchq.drop 1 } }))) ∧
              (∀ cs t, takeCells true (cellsFor p.bytes.length) [] s = (false, cs, t) → exec (.deepFetchComplete q false false) s = .next s)) ∧
            (∀ bad, (bad = true ∨ headerPasses r.1 = false) → (0 < i → exec (.deepFetchComplete q bad false) s = .next (dropQueued q i 18 v)) ∧
              (i = 0 → exec (.deepFetchComplete q bad false) s = .next (newHead q (dropQueued q i 18 v)))) ∧
            (∀ bad, (0 < i → exec (.deepFetchComplete q bad true) s = .next (dropDeepRun q i x.pkts.length v)) ∧
              (i = 0 → exec (.deepFetchComplete q bad true) s = .next (newHead q (dropDeepRun q i x.pkts.length v))))))) ∧
      (∀ q : QueueIx, let mine (f : Staged) : Bool := f.waiting && f.queue = q.val
        ((s.fwd.descWait.contains q.val = false ∨ cacheDesc q s = none) → exec (.descriptorFetchComplete q) s = .next s) ∧
        (∀ v, s.fwd.descWait.contains q.val = true → cacheDesc q s = some v → exec (.descriptorFetchComplete q) s =
          .next (repark q (forEach (v.fwd.staged.filter mine) admitFrame
            { v with fwd := { v.fwd with descWait := v.fwd.descWait.filter (· ≠ q.val), staged := v.fwd.staged.filter fun f => !mine f } })))) ∧
      (∀ (q : QueueIx) x, queueAt s q = some x → (x.draining = false → exec (.queueDeleteDrain q) s = .next s) ∧ (x.draining = true → let t := dropQueued q 0 15 s
        (1 < x.pkts.length → exec (.queueDeleteDrain q) s = .next t) ∧
        (x.pkts.length ≤ 1 → exec (.queueDeleteDrain q) s = .next { t with fwd := { t.fwd with queues := kerase t.fwd.queues q } }))) ∧
      (∀ (i : Nat), (s.fwd.sending[i]? = none → exec (.packetTxComplete i) s = .next s) ∧ (∀ x, s.fwd.sending[i]? = some x →
        exec (.packetTxComplete i) s = .next (freeCells x.cells { s with fwd := { s.fwd with sending := lremove s.fwd.sending i } }))))

/-- R344, R350, R356, R357, R367, R381, R386, R389, R390: the partition is set only with every queue manager slice off, and what the calls
that read Hanks, queues, the Viaduct, nodes, policers, gate lists and uplink budgets answer. A caller who does not own what it names is
refused NOT_OWNER, a name out of range BAD_ARG, and a node or a policer that does not exist BAD_STATE. The sixth word of a node's answer is
a free value (notes/assumptions/37). -/
def Obligations.QueueAndSchedulerCallsAnswer : Prop :=
  ∀ (c : Call) (s : State), let w := pw c.words 0
    (Served hankPartitionSpec c s → let u := readCall 0x0801 c s; let h3 := fld w 20 16; let h1 := fld w 4 0
      let off := (domOf u 40).st = .off ∧ (domOf u 41).st = .off ∧ (domOf u 42).st = .off ∧ (domOf u 43).st = .off
      ((h1 = 0 ∨ h3 = 0 ∨ 27 < h1 + h3) → Refused (.hankPartitionSet c) hankPartitionSpec c s .badArg) ∧
      (1 ≤ h1 → 1 ≤ h3 → h1 + h3 ≤ 27 →
        (off → let m := minFree u; let m := lowRejudge (minFree { m with fwd := { m.fwd with h1Units := h1, h3Units := h3 } })
          Answered (.hankPartitionSet c) hankPartitionSpec c s []
            (forEach ((lowTold m).filter fun h => !(lowTold u).contains h) (fun h t => raise (576 + h) [] [wd (hankFree t h)] t) m)) ∧
        (¬ off → exec (.hankPartitionSet c) s = .next (respond 0x0801 c .badState [] (raise 586 [] [] u))))) ∧
    (Served hankStatusSpec c s → let u := readCall 0x0802 c s; let h := fld w 1 0
      Answered (.hankStatus c) hankStatusSpec c s ([wd (hankCount u h), wd (hankCount u h - (takenOf u h).length)] ++ toWords 2 (hankBase u h)) u) ∧
    (Served sliceHankReadSpec c s → let u := readCall 0x0804 c s; let k := fld w 19 16; let h := fld w 1 0
      (∀ e, readsSlice u c.chan k = .error e → Refused (.sliceHankRead c) sliceHankReadSpec c s e) ∧
      (readsSlice u c.chan k = .ok () →
        Answered (.sliceHankRead c) sliceHankReadSpec c s [wd (quotaOf u k h), wd (hankUse u k h), wd (kgetD u.fwd.peakSnap (4 * k + h) 0)] u)) ∧
    (Served queueReadSpec c s → let u := readCall 0x0816 c s; let q := fld w 19 0
      (∀ e, needOwner u c.chan (queueOwner u q) = .error e → Refused (.queueRead c) queueReadSpec c s e) ∧
      (needOwner u c.chan (queueOwner u q) = .ok () → (queueAt u q = none → Answered (.queueRead c) queueReadSpec c s [0, 0, 0, 0, 0] u) ∧
        (∀ x, queueAt u q = some x → let deep := (x.pkts.filter fun p => match p.place with | .copying _ _ _ _ => true | .deep _ _ _ _ => true | _ => false).length
          Answered (.queueRead c) queueReadSpec c s
            ([put (if x.draining = true then 2 else 1) 30 ||| putb x.train.isSome 24 ||| wd x.profile] ++ toWords 2 x.depth ++ [wd x.pkts.length, wd deep]) u))) ∧
    (Served viaductStatusSpec c s → let u := readCall 0x0821 c s; Answered (.viaductStatus c) viaductStatusSpec c s
      [wd (backlogOf u), wd (kgetD u.ctl.cntSnap (cDev 1) 0 * 8 / 1000000), wd (kgetD u.ctl.cntSnap (cDev 2) 0 * 8 / 1000000), wd (fetchCells u)] u) ∧
    (Served schedNodeReadSpec c s → let u := readCall 0x0902 c s; (schedName w = none → Refused (.schedNodeRead c) schedNodeReadSpec c s .badArg) ∧
      (∀ n, schedName w = some n → (∀ e, needOwnerOpt u c.chan (schedOwner u n) = .error e → Refused (.schedNodeRead c) schedNodeReadSpec c s e) ∧
        (needOwnerOpt u c.chan (schedOwner u n) = .ok () → ((childOf u n = none ∨ shaperOf u n = none) → Refused (.schedNodeRead c) schedNodeReadSpec c s .badState) ∧
          (∀ ch per sh busy, childOf u n = some ch → shaperOf u n = some (per, sh, busy) → let x := caught per sh u.tb; let b (v : Int) : Word := wd (unsgn 32 (v / 65536))
            let gate := if versionOf u c.chan = 0x0200 then 0 else ch.gate
            Answered (.schedNodeRead c) schedNodeReadSpec c s [put ch.prio 29 ||| put ch.weight 16 ||| put gate 12 ||| wd x.set.adjust, wd x.set.cir, wd x.set.cbs,
              wd x.set.pir, wd x.set.pbs, Config.freeWord u.free, b x.peak, b x.comm, putb x.waitC.isSome 1 ||| putb x.waitP.isSome 0] (drawn u))))) ∧
    (Served policerReadSpec c s → let u := readCall 0x0911 c s; let k := portKey w; let x := (policerOf u k).caught u.tb
      (∀ e, needOwnerOpt u c.chan (portOwner u k) = .error e → Refused (.policerRead c) policerReadSpec c s e) ∧
      (kget u.fwd.ports k = none → Refused (.policerRead c) policerReadSpec c s .badState) ∧
      ((kget u.fwd.ports k).isSome = true → needOwnerOpt u c.chan (portOwner u k) = .ok () →
        Answered (.policerRead c) policerReadSpec c s [wd x.cir, wd x.cbs, wd x.pir, wd x.pbs, wd (x.comm / 65536), wd (x.peak / 65536)] u)) ∧
    (Served gateListReadSpec c s → let u := readCall 0x0921 c s; let v := schedOf u (fld w 12 8) (fld w 1 0); let es := (v.list.map (·.entries)).getD []
      let addr := wide c.words 1 2; let bytes := bytesOfWords (es.map fun e => wd (e.1 * 2 ^ 24 + e.2))
      let ws := [putb v.waiting.isSome 31 ||| wd es.length, wd ((v.list.map (·.cycle)).getD 0), wd ((v.list.map (·.base)).getD 0)]
      (fld w 1 0 = 3 → Refused (.gateListRead c) gateListReadSpec c s .badArg) ∧ (fld w 1 0 ≤ 2 →
        (addr = 0 → Answered (.gateListRead c) gateListReadSpec c s ws u) ∧
        (addr ≠ 0 → Answered (.gateListRead c) gateListReadSpec c s ws (emit (.dma c.chan addr ((bytes ++ List.replicate 1024 0).take 1024)) u)))) ∧
    (Served uplinkBudgetReadSpec c s → let u := readCall 0x0932 c s; let k := fld w 19 16; let n := fld w 4 0; let b := upBudget u k n
      let managed : Bool := u.boot.strapRole = 2 || match kget u.red.lan.peers 0 with | some p => p.present | none => false
      (24 ≤ n → Refused (.uplinkBudgetRead c) uplinkBudgetReadSpec c s .badArg) ∧
      (∀ e, n ≤ 23 → readsSlice u c.chan k = .error e → Refused (.uplinkBudgetRead c) uplinkBudgetReadSpec c s e) ∧
      (n ≤ 23 → readsSlice u c.chan k = .ok () → (b.lanyard = none → Answered (.uplinkBudgetRead c) uplinkBudgetReadSpec c s [wd b.rate, 0xFFFFFFFF, wd b.rate, 0] u) ∧
        (∀ r, b.lanyard = some r → Answered (.uplinkBudgetRead c) uplinkBudgetReadSpec c s [wd b.rate, wd r, wd (min b.rate r), if managed = true then 1 else 2] u)))

/-- R373 to R377, R381: a refill acts at the next multiple of its period and takes up the settings that wait, an entry lies in the wheel at
its t_elig and is released there, coarse entries migrate when their slot comes, and a gate cycle's end brings the waiting list into force.
A node that does not exist, an empty wheel and an entry not yet in the fine wheel leave such a command without effect. Group 0's wheel holds
the entries of the uplink budgets (notes/assumptions/144). -/
def Obligations.ShapersRefillAndRelease : Prop :=
  ∀ (s : State),
    (let v := advance ((s.tb / (1000 * 2 ^ 40) + 1) * (1000 * 2 ^ 40)) s;
      (∀ n, shaperOf s n = none → exec (.shaperRefill n) s = .next s) ∧
      (∀ n per x busy, shaperOf s n = some (per, x, busy) → let t := advance ((s.tb / (per * 2 ^ 40) + 1) * (per * 2 ^ 40)) s; let y := caught per x t.tb
        exec (.shaperRefill n) s = .next (putShaper n (nowNs t) y (y.parked per (nowNs t) busy) t)) ∧
      (∀ (g : Fin 4) (k : Fin 8192), shaperOf s (.l1 g k) = (l1At s g k).map fun x => (200, x.sh, l1Busy s g k)) ∧
      (∀ (g : Fin 4) (k : Fin 65536), shaperOf s (.l2 g k) = (l2At s g k).map fun x => (1000, x.sh, l2Busy s g k)) ∧
      (∀ q : QueueIx, shaperOf s (.queue q) = (queueAt s q).map fun x => (1000, x.sh, decide (x.pkts ≠ []))) ∧
      (∀ (k : SliceIx) (n : PortIx), shaperOf s (.budget k n) = some (200, (upBudget s k n).sh, budgetBusy s k n)) ∧
      (∀ (x : Shaper) (per now : Nat) (busy : Bool), let y := x.parked per now busy; let v := x.wanted;
        { y with waitP := x.waitP, waitC := x.waitC } = x ∧ (v.pir = unshaped ∨ 0 ≤ x.peak → y.waitP = none) ∧ (0 ≤ x.comm → y.waitC = none) ∧
        (v.pir ≠ unshaped → x.peak < 0 → y.waitP = match x.waitP with
          | some w => some w | none => if busy then (eligAt per (x.at_ / 2 ^ 40) (incOf v.pir per) x.peak).map (wheelAt now) else none) ∧
        (x.comm < 0 → y.waitC = match x.waitC with
          | some w => some w | none => if busy then (eligAt per (x.at_ / 2 ^ 40) (incOf v.cir per) x.comm).map (wheelAt now) else none)) ∧
      (∀ port : Fin 262144, (kget s.fwd.policers port.val = none → exec (.policerRefill port) s = .next v) ∧
        (∀ x, kget s.fwd.policers port.val = some x → exec (.policerRefill port) s = .next (setPolicer port (x.caught v.tb) v)))) ∧
    (∀ (per : Nat) (x : Shaper) now, (refills per x.at_ now = 0 → caught per x now = x) ∧
      (∀ n, refills per x.at_ now = n + 1 → let y := caught per x now; let v := x.next.getD x.set; y.set = v ∧ y.next = none ∧
        y.peak = min (x.peak + (((n + 1) * ((2 * v.pir * per * 65536 + 8000000) / 16000000) : Nat) : Int)) ((v.pbs * 65536 : Nat) : Int) ∧
        y.comm = min (x.comm + (((n + 1) * ((2 * v.cir * per * 65536 + 8000000) / 16000000) : Nat) : Int)) ((v.cbs * 65536 : Nat) : Int))) ∧
    (∀ (per now inc : Nat) (credit : Int), credit < 0 → (inc = 0 → eligAt per now inc credit = none) ∧ (0 < inc → ∃ k : Nat,
      eligAt per now inc credit = some ((now / per + k) * per) ∧ 0 ≤ credit + ((k * inc : Nat) : Int) ∧ ∀ j < k, credit + ((j * inc : Nat) : Int) < 0)) ∧
    (∀ now elig : Nat, (elig - now < 819200 → wheelAt now elig = ⟨elig, true, elig / 200 * 200⟩) ∧
      (819200 ≤ elig - now → elig - now < 3355443200 → wheelAt now elig = ⟨elig, false, elig / 819200 * 819200⟩) ∧
      (3355443200 ≤ elig - now → wheelAt now elig = ⟨elig, false, (now / 819200 + 4095) * 819200⟩)) ∧
    (∀ n comm, (shaperOf s n = none → exec (.wheelFineRelease n comm) s = .next s) ∧
      (∀ per x busy, shaperOf s n = some (per, x, busy) → let e := if comm = true then x.waitC else x.waitP
        (e = none → exec (.wheelFineRelease n comm) s = .next s) ∧ (∀ w, e = some w → (w.fine = false → exec (.wheelFineRelease n comm) s = .next s) ∧
          (w.fine = true → let t := advance (w.elig * 2 ^ 40) s; let y := caught per x t.tb
            let y := if comm = true then { y with waitC := none } else { y with waitP := none }
            exec (.wheelFineRelease n comm) s = .next (putShaper n (nowNs t) y (y.parked per (nowNs t) busy) t))))) ∧
    (∀ g : Fin 4, (coarseSlots s g = [] → exec (.wheelCoarseMigrate g) s = .next s) ∧ (coarseSlots s g ≠ [] →
      ∀ m ∈ coarseSlots s g, (∀ k ∈ coarseSlots s g, m ≤ k) → let t := advance (m * 2 ^ 40) s
        let f (per : Nat) (x : Shaper) : Shaper := (caught per x t.tb).migrate per (nowNs t)
        let again (per : Nat) (x : Shaper) : Nat := parkedBeyond (nowNs t) x (f per x)
        let n := ((t.fwd.l1.filter fun e => e.1 / 8192 = g.val).map fun e => again 200 e.2.sh).sum +
          ((t.fwd.l2.filter fun e => e.1 / 65536 = g.val).map fun e => again 1000 e.2.sh).sum +
          ((t.fwd.queues.filter fun e => groupOf e.1 = g.val).map fun e => again 1000 e.2.sh).sum +
          (if g.val = 0 then (t.fwd.budgets.map fun e => again 200 e.2.sh).sum else 0)
        exec (.wheelCoarseMigrate g) s = .next (cnt (cQm 2 g) n { t with fwd := { t.fwd with
          l1 := kmap t.fwd.l1 fun k x => if k / 8192 = g then { x with sh := f 200 x.sh } else x
          l2 := kmap t.fwd.l2 fun k x => if k / 65536 = g then { x with sh := f 1000 x.sh } else x
          queues := kmap t.fwd.queues fun k x => if groupOf k = g then { x with sh := f 1000 x.sh } else x
          budgets := if g.val = 0 then kmap t.fwd.budgets fun _ x => { x with sh := f 200 x.sh } else t.fwd.budgets } }))) ∧
    (∀ (l : GateList) (tb : Nat), 0 < l.cycle → l.base ≤ l.cycle → let c := l.cycle * 2 ^ 40; let e := nextCycleEnd l tb
      tb < e ∧ e ≤ tb + c ∧ (e + c - l.base * 2 ^ 40) % c = 0) ∧
    (∀ (sp : SpanIx) (p : PierIx), let c := schedOf s sp p; let t := match c.list with | some l => advance (nextCycleEnd l s.tb) s | none => s
      (c.waiting = none → exec (.gateCycleEnd sp p) s = .next t) ∧
      (∀ l, c.waiting = some l → let cut := overruns l c.swapPs c.line
        let u := cnt (cPier 13 sp p) 1 (setSched sp p { c with list := l, waiting := none } (advance c.swapAt s))
        exec (.gateCycleEnd sp p) s = .next (releaseObj ⟨.gateList, 3 * sp + p⟩ (if cut = 0 then u else cnt (cPier 11 sp p) cut u)))) ∧
    (∀ at_ line, overruns none at_ line = 0 ∧ ∀ k, overruns (some k) at_ line =
      (line.filter fun f => at_ < f.stop && closesWithin k f.gate (max at_ f.start) f.stop).length)

/-- R368 to R371, R380, R383 to R385, R397, R477, R558: each of the three selections answers a next state in every state; where a Pier of an
open Span, or a port that takes frames, has a position and an eligible queue's head, that head is charged and leaves: on the Pier's line,
whole, in fragments, or for its place in the next frame, under its key; to the port's MAC, or to the TDM block on port 22 in MODE 10 (the
same step: notes/assumptions/147). A timed frame that is due outranks every other, the first launch position first, and goes, waits for its
descriptor, or is late where its gate would close first. A Pier or a port that cannot send, or has no place or no eligible head, selects
nothing, and a queue whose descriptor is missing fetches it. -/
def Obligations.SchedulersSelectWhatMaySend : Prop :=
  (∀ (s : State) (sp : SpanIx) (p : PierIx) (n : PortIx),
    (∃ t, exec (.pierSchedSelect sp p) s = .next t ∧ exec (.gateEntryChange sp p) s = .next t) ∧ ∃ t, exec (.uplinkSchedSelect n) s = .next t) ∧
  (∀ (s : State) (sp : SpanIx) (p : PierIx) (i : Instr), i = .pierSchedSelect sp p ∨ i = .gateEntryChange sp p →
    let v := spanOf s sp; let sends := (v.st = .opened ∨ v.st = .closing) ∧ v.standby = false ∧ (pierOf s sp p).enable = true ∧ (pierOf s sp p).txOn = true
    (¬ sends → exec i s = .next s) ∧ (sends → spotOf s sp p = none → exec i s = .next s) ∧
    (∀ w, sends → spotOf s sp p = some w →
      let timed := firstTimed s sp p ((timedHeads s sp p).filter fun e => (timedSpot s sp p w e).isSome)
      let seen := (s.fwd.queues.filter fun e => decide (pierOfQueue s e.1 e.2 = some (sp.val, p.val)) && pathPasses s (sp / 8) e.2).map fun e =>
        (downFits s sp p w e.2, gateOpenAt ((schedOf s sp p).listFor w.t) e.2.ch.gate w.t)
      let v := if seen.any fun e => e.1.1 && !e.1.2.1 && e.2 then cnt (cPier 10 sp p) 1 s else s
      let v := if seen.any fun e => e.1.1 && e.1.2.1 && !e.1.2.2 then cnt (cPier 14 sp p) 1 v else v
      let rdy (_ : Nat) (x : Queue) : Bool := (downFits s sp p w x).1 && (downFits s sp p w x).2.1 && (downFits s sp p w x).2.2
      let c := choose rdy (sp / 8) (3 * (sp % 8) + p) v
      (∀ e, timed = some e → exec i s = .next (timedStep sp p ((timedSpot s sp p w e).getD w) e s)) ∧
      (timed = none → c.2 = none → exec i s = .next c.1) ∧
      (∀ h, timed = none → c.2 = some h → hasDesc c.1 h.q = false → exec i s = .next (missDesc h.q c.1)) ∧
      (∀ h, timed = none → c.2 = some h → hasDesc c.1 h.q = true → takeHead h.q c.1 = none → exec i s = .next c.1) ∧
      (∀ h x k rest, timed = none → c.2 = some h → hasDesc c.1 h.q = true → queueAt c.1 h.q = some x → x.pkts = k :: rest →
        ∃ u, takeHead h.q c.1 = some (k, u) ∧ exec i s = .next (putOnLine sp p w x k (chargePath h.q k.bytes.length (some h) u)))) ∧
    (∀ l e, firstTimed s sp p l = some e → e ∈ l ∧ ∀ g ∈ l, launchFirst s sp p e.2.2.1 ≤ launchFirst s sp p g.2.2.1) ∧
    (∀ w q x l late k rest, x.pkts = k :: rest → let fits := gateAllows (schedOf s sp p) x.ch.gate w.t (endAt s sp p w k.bytes.length)
      (fits = false → late = true → timedStep sp p w (q, x, l, late) s = s) ∧
      (fits = false → late = false → sendLate s q = true →
        timedStep sp p w (q, x, l, late) s = cnt (cPier 18 sp p) 1 (setQueue q { x with pkts := { k with late := true } :: rest } s)) ∧
      (fits = false → late = false → sendLate s q = false → timedStep sp p w (q, x, l, late) s = newHead q (cnt (cPier 17 sp p) 1 (dropQueued q 0 17 s))) ∧
      (fits = true → hasDesc s q = false → timedStep sp p w (q, x, l, late) s = missDesc q s) ∧
      (∀ pkt u, fits = true → hasDesc s q = true → takeHead q s = some (pkt, u) →
        let held : Prop := late = false ∧ ∃ g ∈ (schedOf u sp p).line, launchFirst u sp p l < g.stop
        (held → timedStep sp p w (q, x, l, late) s =
          putOnLine sp p w x pkt (clearEmpty q (chargePath q k.bytes.length none (cnt (cPier 19 sp p) 1 u)))) ∧
        (¬ held → timedStep sp p w (q, x, l, late) s = putOnLine sp p w x pkt (clearEmpty q (chargePath q k.bytes.length none u))))) ∧
    (∀ w x pkt r, pkt.port = some r → let c := schedOf s sp p; let full := dataBytes p (pierOf s sp p).fecDs
      let into : Bool := w.frame ≠ c.frame || full < w.d + pieceBytes p pkt.bytes.length
      let c := { c with
        line := (c.line.filter fun e => psOf s.tb < e.stop) ++ [⟨x.ch.gate, w.t, endAt s sp p w pkt.bytes.length, w.frame, w.d, pkt.bytes.length⟩]
        promised := if into && mapSealed s sp && p.val ≠ 2 then some (nextPloams s sp p) else c.promised }
      (w.frame = c.frame → putOnLine sp p w x pkt s = putPiece sp p w.d r pkt.bytes (setSched sp p c s)) ∧
      (w.frame ≠ c.frame → putOnLine sp p w x pkt s = setSched sp p { c with fill := full, rest := c.rest ++ [⟨r, pkt.bytes, w.d⟩] } s)) ∧
    (∀ d r bs, let fec := (pierOf s sp p).fecDs; let c := schedOf s sp p; let full := dataBytes p fec; let whole := d + pieceBytes p bs.length
      (whole ≤ full → putPiece sp p d r bs s = sendPiece sp p c.frame d r bs (setSched sp p { c with fill := whole } s)) ∧
      (∀ n, full < whole → roomAt p fec d = some n → putPiece sp p d r bs s = sendPiece sp p c.frame d r (bs.take n)
        (setSched sp p { c with fill := full, rest := c.rest ++ [{ port := r, bytes := bs.drop n }] } s)) ∧
      (full < whole → roomAt p fec d = none → putPiece sp p d r bs s = setSched sp p { c with fill := full, rest := c.rest ++ [{ port := r, bytes := bs }] } s)) ∧
    (∀ (frame d : Nat) (r : PortRec) bs, let t := cnt (cOnu 11 sp r.onu) bs.length s
      (∀ ix k, sendKey t sp r = .under ix k →
        sendPiece sp p frame d r bs s = emit (.pierTx sp p r.portId ix (ponCtr k (counterBlock p frame d) bs)) t) ∧
      ((∀ ix k, sendKey t sp r ≠ .under ix k) → sendPiece sp p frame d r bs s = emit (.pierTx sp p r.portId 0 bs) t))) ∧
  (∀ (s : State) (n : PortIx),
    (portTakes s n = false → exec (.uplinkSchedSelect n) s = .next s) ∧
    ((portOf s n).mode ≠ 10 → portTakes s n = (portOf s n).link) ∧ ((portOf s n).mode = 10 → (portTakes s n = true ↔ n.val = 22 ∧ domOn s domTd = true)) ∧
    (portTakes s n = true → let o := offers n [0, 1, 2, 3] s; let t := o.1; let c := merge (mergerOf t n) o.2 t
      (c = none → exec (.uplinkSchedSelect n) s = .next t) ∧
      (∀ h m, c = some (h, m) → hasDesc t h.q = false → exec (.uplinkSchedSelect n) s = .next (missDesc h.q t)) ∧
      (∀ h m, c = some (h, m) → hasDesc t h.q = true → takeHead h.q t = none → exec (.uplinkSchedSelect n) s = .next t) ∧
      (∀ h m x k rest, c = some (h, m) → hasDesc t h.q = true → queueAt t h.q = some x → x.pkts = k :: rest → ∃ u, takeHead h.q t = some (k, u) ∧
        (let d := m.deficits.getD h.g 0 - (k.bytes.length : Int); let busy := (l1Under u h.g h.root).any fun e => l1Busy u h.g e.1
          let z := chargePath h.q k.bytes.length (some h)
            (setMerger n { m with deficits := lset m.deficits h.g (if busy = true then d else 0), ptr := if d ≤ 0 then 2 * h.g + 2 else 2 * h.g + 1 } u)
          ((portOf t n).mode ≠ 10 → exec (.uplinkSchedSelect n) s = .next (sendOnPort n k.bytes k.injected z)) ∧
          ((portOf t n).mode = 10 → exec (.uplinkSchedSelect n) s = .next (cePacketIn k.bytes z))))))

/-- R466, R475, R478, R483, R484: a frame that finds the block or its lane off is nothing, one that finds a loopback is counted and
discarded; one that leaves its framer out of frame counts an OOF and no more; one in frame is read whole; the LOF timer and the error
windows set or clear their defects. R480: a pointer interpreter keeps its offset on a normal pointer, takes the new offset of an enabled
NDF or of three normal reads, moves by one on three inverted I or D bits, finds AIS after three words of all ones and LOP after eight
invalid ones or eight enabled NDFs, and comes back after three valid normal ones. -/
def Obligations.SdhFramesAndPointers : Prop :=
  (
    ∀ (s : State) (l : Fin 2), let x := sdhOf s l; let before := laneDefects s l
      (∀ f : StmFrame, (sdhRuns s l = false → exec (.stm16FrameRx l f) s = .next (freqWatch s)) ∧
        (sdhRuns s l = true → (laneOf s (22 + l)).loopback ≠ 0 → exec (.stm16FrameRx l f) s = .next (freqWatch (cnt (cLane 11 (22 + l)) 1 s))) ∧
        (sdhRuns s l = true → (laneOf s (22 + l)).loopback = 0 → (laneOf s (22 + l)).gen = true → exec (.stm16FrameRx l f) s = .next (freqWatch s)) ∧
        (sdhRuns s l = true → (laneOf s (22 + l)).loopback = 0 → (laneOf s (22 + l)).gen = false → let y := x.align f.hits
        (y.oof = true → exec (.stm16FrameRx l f) s = .next (freqWatch (laneChange l before (cnt (cLane 16 (22 + l)) 1 (setSdh l y s))))) ∧
        (y.oof = false → let j := y.j0.byte false f.j0
          let z := { y with
            b2 := f.b2, j0 := j.1, msAis := y.msAis.see 3 (f.k2 % 8 = 7), msRdi := y.msRdi.see 5 (f.k2 % 8 = 6),
            sfErr := y.sfErr + f.b2, sfBits := y.sfBits + 307584, sdErr := y.sdErr + f.b2, sdBits := y.sdBits + 307584 }
          let t := cnt (cLane 13 (22 + l)) f.b1 (cnt (cLane 14 (22 + l)) f.b2 (cnt (cLane 15 (22 + l)) f.m1 (setSdh l z (setSdh l y s))))
          let t := timEvent 0 l y.j0.tim j.1.tim (if j.2 = true then cnt (cLane 17 (22 + l)) 1 t else t)
          let t := kBytes l f.k1 f.k2 (forEach f.tus (tuFrame l) (ausFrame l 0 f.aus t))
          exec (.stm16FrameRx l f) s = .next (freqWatch (laneChange l before (mspEvaluate (mspSwitch l t))))))) ∧
      (∀ hits : List Nat, (x.oof = true → x.cand = none → (x.align hits).oof = true ∧ (x.align hits).cand = hits.head?) ∧
        (∀ c, x.oof = true → x.cand = some c → (c ∈ hits → (x.align hits).oof = false ∧ (x.align hits).pos = c) ∧
          (c ∉ hits → (x.align hits).oof = true ∧ (x.align hits).cand = hits.find? (c < ·))) ∧
        (x.oof = false → x.pos ∈ hits → (x.align hits).oof = false ∧ (x.align hits).badRun = 0) ∧
        (x.oof = false → x.pos ∉ hits → x.badRun = 3 → (x.align hits).oof = true ∧ (x.align hits).cand = hits.find? (x.pos < ·)) ∧
        (x.oof = false → x.pos ∉ hits → x.badRun < 3 → (x.align hits).oof = false ∧ (x.align hits).badRun = x.badRun + 1)) ∧
      (sdhRuns s l = false → exec (.lofTimer l) s = .next (freqWatch s)) ∧
      (sdhRuns s l = true → exec (.lofTimer l) s = .next (freqWatch (mspEvaluate (laneChange l before (setSdh l { x with lof := x.oof } s))))) ∧
      (∀ sd : Bool, let no := nowNs s / b2Ns (if sd = true then s.tdm.cfg.msSd else s.tdm.cfg.msSf)
        let z := if sd = true then { x with deg := windowEnd x.deg x.sdErr x.sdBits s.tdm.cfg.msSd, sdErr := 0, sdBits := 0, sdWin := no }
          else { x with exc := windowEnd x.exc x.sfErr x.sfBits s.tdm.cfg.msSf, sfErr := 0, sfBits := 0, sfWin := no };
        ((sdhRuns s l = false ∨ no = if sd = true then x.sdWin else x.sfWin) → exec (.b2WindowEnd l sd) s = .next s) ∧
        (sdhRuns s l = true → (no ≠ if sd = true then x.sdWin else x.sfWin) →
          exec (.b2WindowEnd l sd) s = .next (mspEvaluate (laneChange l before (setSdh l z s))))) ∧
      (∀ (pos : Fin 1008) (sd : Bool), let y := tuOf s l pos; let no := nowNs s / v5Ns (if sd = true then s.tdm.cfg.lpSd else s.tdm.cfg.lpSf)
        let z := if sd = true then { y with deg := windowEnd y.deg y.sdErr y.sdBits s.tdm.cfg.lpSd, sdErr := 0, sdBits := 0, sdWin := no }
          else { y with exc := windowEnd y.exc y.sfErr y.sfBits s.tdm.cfg.lpSf, sfErr := 0, sfBits := 0, sfWin := no }
        let t := setSdh l { x with tus := kset x.tus pos z } s;
        ((sdhRuns s l = false ∨ no = if sd = true then y.sdWin else y.sfWin) → exec (.v5WindowEnd l pos sd) s = .next s) ∧
        (sdhRuns s l = true → (no ≠ if sd = true then y.sdWin else y.sfWin) →
          ((s.tdm.msp.selected ≠ l ∨ tuDefects t l pos = tuDefects s l pos) → exec (.v5WindowEnd l pos sd) s = .next t) ∧
          (s.tdm.msp.selected = l → tuDefects t l pos ≠ tuDefects s l pos → exec (.v5WindowEnd l pos sd) s = .next (raise 805 [] [wd (pos * 2 ^ 16 + tuDefects t l pos)] t)))) ∧
      (∀ (was : Bool) (e bits n : Nat), 0 < bits → (bits ≤ e * 10 ^ n → windowEnd was e bits n = true) ∧
        (e * 10 ^ (n + 1) < bits → windowEnd was e bits n = false) ∧ (e * 10 ^ n < bits → bits ≤ e * 10 ^ (n + 1) → windowEnd was e bits n = was)) ∧
      (∀ n : Nat, (n ≤ 6 → b2Ns n = 10 ^ 7) ∧ (7 ≤ n → b2Ns n = 10 ^ (n + 1)) ∧ (n ≤ 4 → v5Ns n = 10 ^ 8) ∧ (5 ≤ n → v5Ns n = 10 ^ (n + 4)))) ∧
  (
    ∀ (p : PtrInt) (w top : Nat), let ndf := nfld w 15 12; let off := nfld w 9 0
      (w % 65536 ≠ 0xFFFF → p.st = 0 → within1 4 ndf 6 = true → within1 4 ndf 9 = false → off = p.offset → off ≤ top →
        (p.read w top).ptr.st = 0 ∧ (p.read w top).ptr.offset = p.offset ∧ (p.read w top).inc = false ∧ (p.read w top).dec = false) ∧
      (w % 65536 ≠ 0xFFFF → within1 4 ndf 9 = true → off ≤ top → p.ndfRun < 7 → (p.read w top).ptr.st = 0 ∧ (p.read w top).ptr.offset = off) ∧
      (w % 65536 ≠ 0xFFFF → within1 4 ndf 9 = true → off ≤ top → 7 ≤ p.ndfRun → (p.read w top).ptr.st = 2) ∧
      (p.st = 0 → w % 65536 ≠ 0xFFFF → within1 4 ndf 6 = true → within1 4 ndf 9 = false → off ≠ p.offset → 3 ≤ p.since + 1 →
        (3 ≤ ones 5 (iBits off ^^^ iBits p.offset) → ones 5 (dBits off ^^^ dBits p.offset) ≤ 2 →
          (p.read w top).inc = true ∧ (p.read w top).ptr.offset = (p.offset + 1) % (top + 1)) ∧
        (3 ≤ ones 5 (dBits off ^^^ dBits p.offset) → ones 5 (iBits off ^^^ iBits p.offset) ≤ 2 →
          (p.read w top).dec = true ∧ (p.read w top).ptr.offset = (p.offset + top) % (top + 1))) ∧
      (p.st = 0 → w % 65536 ≠ 0xFFFF → within1 4 ndf 6 = true → within1 4 ndf 9 = false → off ≠ p.offset → off ≤ top → p.cand = off → 2 ≤ p.candRun →
        ones 5 (iBits off ^^^ iBits p.offset) ≤ 2 → ones 5 (dBits off ^^^ dBits p.offset) ≤ 2 → (p.read w top).ptr.st = 0 ∧ (p.read w top).ptr.offset = off) ∧
      (p.st ≠ 0 → w % 65536 ≠ 0xFFFF → within1 4 ndf 6 = true → within1 4 ndf 9 = false → off ≤ top → 2 ≤ p.okRun →
        (p.read w top).ptr.st = 0 ∧ (p.read w top).ptr.offset = off) ∧
      (w % 65536 = 0xFFFF → 2 ≤ p.onesRun → (p.read w top).ptr.st = 1) ∧
      (p.st = 0 → w % 65536 ≠ 0xFFFF → within1 4 ndf 6 = false → within1 4 ndf 9 = false → 7 ≤ p.badRun → (p.read w top).ptr.st = 2))

/-- R486 to R490, R501: a condition that outlasts the hold-off becomes a request; the selector follows the lane asked for, in architecture 2
not while the protocol stands failed, and tells the positions whose defects change; the selector's evaluation takes the highest request by the
table's order and asks for its lane, a signal fail or a command that ends leaves a wait to restore or a do-not-revert; the end of the wait
and a command have it evaluated again, and the bridge's mismatch is a protocol failure. A wait still running, a mismatch that is not one,
or no MSP leaves such a command without effect. A request of any kind that selected lane 23 is waited for (notes/assumptions/148). -/
def Obligations.MspEvaluatesItsRequests : Prop :=
  (∀ (s : State) (l : Fin 2), let x := sdhOf s l; let held (at_ : Option Nat) : Prop := ∃ t, at_ = some t ∧ t + 100000000 * s.tdm.msp.holdOff ≤ nowNs s
    (tdmOn s = false → exec (.mspHoldOffEnd l) s = .next s) ∧ (tdmOn s = true → ∃ f d : Bool, (f = true ↔ msFail s l = true ∧ (x.sfReq = true ∨ held x.failAt)) ∧ (d = true ↔ msDegrade s l = true ∧ (x.sdReq = true ∨ held x.degAt)) ∧
      exec (.mspHoldOffEnd l) s = .next (mspEvaluate (setSdh l { x with sfReq := f, sdReq := d } s)))) ∧
  (∀ s : State, let m := s.tdm.msp; let w := sdhOf s 0; let p := sdhOf s 1
    (m.lockout = true → localRequest s = 1) ∧ (m.lockout = false →
      (p.sfReq = true → localRequest s = 2) ∧ (p.sfReq = false → (m.forced = true → localRequest s = 3) ∧ (m.forced = false →
        (w.sfReq = true → localRequest s = 4) ∧ (w.sfReq = false → (w.sdReq = true → p.sdReq = false → localRequest s = 5) ∧ ((w.sdReq = false ∨ p.sdReq = true) →
          (m.manual = true → p.sdReq = false → localRequest s = 6) ∧ ((m.manual = false ∨ p.sdReq = true) → localRequest s = 9)))))) ∧
    ((m.arch = 0 ∨ tdmOn s = false) → exec .mspSelectorEvaluate s = .next s) ∧
    (m.arch ≠ 0 → tdmOn s = true → let base := if m.arch = 2 then min (localRequest s) (farPriority p.k1) else localRequest s
      let lane (r : Nat) : Nat := if 3 ≤ r ∧ r ≤ 8 then 1 else 0
      let ask (n : Msp) (r : Nat) : Out := .next (setMsp { n with request := r, want := if m.selected = lane r then none else some (lane r) } s)
      let leaving := m.selected = 1 ∧ 3 ≤ m.request ∧ m.request ≤ 6
      (base ≤ 6 → exec .mspSelectorEvaluate s = ask { m with wtrOn := false, dnr := false, manual := m.manual && (decide (6 ≤ base) || decide (m.request ≠ 6)) } base) ∧
      (7 ≤ base → (leaving → m.revert = true → exec .mspSelectorEvaluate s = ask { m with wtrOn := true, wtrEnd := nowNs s + m.wtr * 1000000000 } 7) ∧
        (leaving → m.revert = false → exec .mspSelectorEvaluate s = ask { m with dnr := true } (min base (if m.wtrOn = true then 7 else 8))) ∧
        (¬ leaving → exec .mspSelectorEvaluate s = ask m (min base (if m.wtrOn = true then 7 else if m.dnr = true then 8 else 9))))) ∧
    (∀ l w, m.want = some w → (m.arch = 1 → mspSwitch l s = if l = w then selectLane w s else s) ∧
      (m.arch = 2 → (l = 1 ∧ m.fail = false ∧ nfld p.k2 7 4 = w → mspSwitch l s = selectLane w s) ∧ (l ≠ 1 ∨ m.fail = true ∨ nfld p.k2 7 4 ≠ w → mspSwitch l s = s))) ∧
    (m.want = none → ∀ l, mspSwitch l s = s) ∧
    (∀ l, let t := setMsp { m with selected := l, want := none, hand := (List.range 1008).filter fun q => laneAt s q ≠ l } s
      (m.selected = l → selectLane l s = t) ∧ (m.selected ≠ l → selectLane l s =
        let u := raise 802 [] [wd (m.request * 2 ^ 8 + l)] (cnt (cDev 12) 1 t)
        forEach ((List.range 1008).filter fun q => tuDefects u m.selected q ≠ tuDefects u l q) (fun q v => raise 805 [] [wd (q * 2 ^ 16 + tuDefects u l q)] v) u)) ∧
    ((tdmOn s = false ∨ m.wtrOn = false ∨ nowNs s < m.wtrEnd) → exec .mspWtrEnd s = .next s) ∧
    (tdmOn s = true → m.wtrOn = true → m.wtrEnd ≤ nowNs s → exec .mspWtrEnd s = .next (mspEvaluate (setMsp { m with wtrOn := false } s))) ∧
    (let here := nfld p.k2 7 4 = if 3 ≤ m.request ∧ m.request ≤ 8 then 1 else 0;
      (tdmOn s = true → m.arch = 2 → m.fail = false → ¬ here → exec .mspBridgeMismatchTimeout s = .next (raise 803 [] [0] (setMsp { m with fail := true } s))) ∧
      ((tdmOn s = false ∨ m.arch ≠ 2 ∨ m.fail = true ∨ here) → exec .mspBridgeMismatchTimeout s = .next s))) ∧
  (∀ (c : Call) (s : State), Served mspCommandSpec c s → let u := readCall 0x0D11 c s; let m := u.tdm.msp; let k := fld (pw c.words 0) 1 0
    let n := if k = 0 then { m with lockout := false, forced := false, manual := false, wtrOn := false }
      else if k = 1 then { m with lockout := true } else if k = 2 then { m with forced := true } else { m with manual := true }
    ∀ i, (i = .mspCommandClear c ∨ i = .mspCommandLockout c ∨ i = .mspCommandForced c ∨ i = .mspCommandManual c) →
      (m.arch ≠ 0 → Answered i mspCommandSpec c s [] (mspEvaluate (setMsp n u))) ∧
      (m.arch = 0 → Refused i mspCommandSpec c s .badState))

/-- R492 to R499: a committed page comes into force whole at its multiframe boundary and its new circuits start again; a circuit with CAS
holds its alignment while timeslot 0 shows the FAS in every second frame (log 168, PRESUMED), and a circuit's clock is sent by a
justification bit for each whole bit that it has gained or lost; a demapped payload
leaves as a packet and enters the distributor on port 22; a packet for no circuit or of another length is counted; an arriving packet joins
its buffer, is late, or overruns it; a slot plays the next packet, or all ones where it is missing or the buffer is empty, or where no
position sends the circuit. What counts toward LOPS while the buffer refills is notes/assumptions/149; the random RTP numbers and how far an
error moves a recovered clock are free values. -/
def Obligations.CircuitsArePackedAndPlayed : Prop :=
  ∀ (s : State),
    (s.tdm.tsiNext = none → exec .tsiSwap s = .next s) ∧
    (∀ page, s.tdm.tsiNext = some page →
      ((tdmOn s = false ∨ s.tb < s.tdm.tsiAt * (4 * frameTb)) → exec .tsiSwap s = .next s) ∧
      (tdmOn s = true → s.tdm.tsiAt * (4 * frameTb) ≤ s.tb → ∃ gained : List Nat,
        (∀ c, c ∈ gained ↔ (c ∈ tsiNamed page 30 ∧ c ∉ tsiNamed s.tdm.tsi 30) ∨ (c ∈ tsiNamed page 31 ∧ c ∉ tsiNamed s.tdm.tsi 31)) ∧
        (let t := forEach gained (fun c s => setCircuit c (circuitOf s c).restart s)
          { s with tdm := { s.tdm with tsi := page, tsiNext := none, tsiOld := rxChanged s.tdm.tsi page } };
          exec .tsiSwap s = .next (if rxChanged s.tdm.tsi page = [] then raise 809 [] [] (releaseObj ⟨.tsi, 0⟩ t) else t)))) ∧
    (∀ (c : Circuit) (found : Bool) (e1 : List Byte), let d := if c.fasHeld = true ∨ found = false then c else { c with fasHeld := true, fasOdd := false, fasRun := 0 };
      (c.mode ≠ 2 → c.fas found e1 = d) ∧ (c.mode = 2 → c.fas found e1 = (slot0 c.frames e1).foldl Circuit.fasFrame d)) ∧
    (∀ (c : Circuit) (b : Byte), (isFas b = true ↔ b.toNat % 128 = 0x1B) ∧ (c.fasFrame b).fasOdd = !c.fasOdd ∧
      (c.fasFrame b).fasRun = (if c.fasOdd = true then c.fasRun else if isFas b = true then 0 else c.fasRun + 1) ∧
      ((c.fasFrame b).fasHeld = true ↔ c.fasHeld = true ∧ (c.fasFrame b).fasRun < 3)) ∧
    (∀ c : Circuit, let a := c.slack + 1024 * c.freq
      (1000000000 ≤ a → c.justify = ({ c with slack := a - 1000000000 }, 1)) ∧ (a ≤ -1000000000 → c.justify = ({ c with slack := a + 1000000000 }, -1)) ∧
      (-1000000000 < a → a < 1000000000 → c.justify = ({ c with slack := a }, 0))) ∧
    (∀ (n : Fin 1008) (b : List Byte) (al : Bool) (first : Nat), let c := (circuitOf s n).fas al (demappedE1 (circuitOf s n) b)
      ((tdmOn s = false ∨ c.mode = 0 ∨ rxPosition s n = none) → exec (.cePayloadDemapped n ⟨b, first⟩ al) s = .next s) ∧
      (∀ i, tdmOn s = true → c.mode ≠ 0 → rxPosition s n = some i → let ais := aisDownstream s (laneAt s i) i
        let pkt := cePacket c (ais || (decide (c.mode = 2) && !c.fasHeld)) (if ais = true then List.replicate (circuitLen c) 0xFF else demapped c b)
          (((first : Nat) : Rat) * 1944 / 100000000).floor.toNat (Config.freeNat s.free) (Config.freeNat (s.free + 1))
        let t := emit (.pseudowire n pkt) (cnt (cPos 2 n) 1 (setCircuit n { c with txSeq := (c.txSeq + 1) % 65536, gap := c.gap - packetUs c * 32 / 125 } (if c.rtp = true then drawn (drawn s) else s)))
        let own := match (parse pkt).outer with | some x => x.1 | none => 0
        let vid := if own = 0 then kgetD t.fwd.pvid 22 1 else own
        ((vid = 4095 ∨ kgetD t.fwd.dist vid 0 = 0) → exec (.cePayloadDemapped n ⟨b, first⟩ al) s = .next (raise 544 [] [] (cnt (cDev 0) 1 t))) ∧
        (vid ≠ 4095 → kgetD t.fwd.dist vid 0 ≠ 0 → let ps := (List.range 4).filter fun p => (kgetD t.fwd.dist vid 0).testBit p
          let r := toPipes ps 22 vid (1 < ps.length) false none pkt t
          (∀ z, r = .ok z → exec (.cePayloadDemapped n ⟨b, first⟩ al) s = .next z) ∧
          (∀ e, r = .error e → exec (.cePayloadDemapped n ⟨b, first⟩ al) s = .fault (.undefinedUse "R337"))))) ∧
    (∀ bs : List Byte, (tdmOn s = false → exec (.cePacketRx bs) s = .next s) ∧ (tdmOn s = true →
      (ceParse bs = none → exec (.cePacketRx bs) s = .next (cnt (cDev 13) 1 s)) ∧
      (∀ i, ceParse bs = some i → let at_ := s.tdm.circuits.find? fun e => e.2.mode ≠ 0 && e.2.udpRx = i.port
        (at_ = none → exec (.cePacketRx bs) s = .next (cnt (cDev 13) 1 s)) ∧
        (∀ n c, at_ = some (n, c) → let b := if c.rtp = true then i.body.drop 12 else i.body; let lbit := (b.getD 0 0).toNat.testBit 3
          let fits := 4 ≤ b.length ∧ ((b.drop 4).length = circuitLen c ∨ ((b.drop 4).length = 0 ∧ lbit = true))
          (¬ fits → exec (.cePacketRx bs) s = .next (cnt (cDev 13) 1 s)) ∧
          (fits → exec (.cePacketRx bs) s = .next (ceArrive n (beAt b 2 2) ⟨b.drop 4, lbit⟩
            (if c.clock = 1 then setCircuit n (c.steer (rtpError (beAt i.body 4 4) s)) s else s))))))) ∧
    (∀ (n seq : Nat) (p : JbPkt), let c := { circuitOf s n with came := true }; let late := 32768 ≤ ahead c seq
      let d := if c.anyRx = true ∧ (c.played = true ∨ ¬ late) then c else { c with anyRx := true, nextSeq := seq }
      let run := if seq = (c.lastSeq + 1) % 65536 then min 255 (c.seqRun + 1) else 1
      let lops := c.lops && decide (run < c.lopsExit); let t := lopsEvent n c.lops lops (cnt (cPos 3 n) 1 s)
      let d := { d with lastSeq := seq, seqRun := run, lops := lops }
      let full := 2000 * c.jbTarget < (if (kget c.jb seq).isSome = true then fillUs c else fillUs c + packetUs c)
      let e := { d with jb := kset c.jb seq p }; let e := if full then discardTo e.jb.length e else e
      let e := if e.st = 1 ∧ 1000 * c.jbTarget ≤ fillUs e then { e with st := 2, nextSeq := (oldestSeq e).getD e.nextSeq } else e;
      (32768 ≤ ahead d seq → ceArrive n seq p s = cnt (cPos 5 n) 1 (setCircuit n d t)) ∧
      (ahead d seq < 32768 → ¬ full → ceArrive n seq p s = setCircuit n e t) ∧
      (ahead d seq < 32768 → full → ceArrive n seq p s = raise 808 [] [wd n] (cnt (cPos 6 n) 1 (setCircuit n e t)))) ∧
    (∀ n : Fin 1008, let c := circuitOf s n; let sent := (txPosition s n).isSome = true; let ones := List.replicate (packetUs c * 32 / 125) (0xFF : Byte)
      let f := if c.clock = 0 ∧ c.st = 2 then c.steer ((fillUs c : Int) - ((1000 * c.jbTarget : Nat) : Int)) else c
      let d := { f with odd := if c.mode = 2 then c.odd != c.frames.testBit 0 else c.odd, came := false }
      let play (b : List Byte) (x : Circuit) : State := emit (.playout n (txPosition s n) x.freq b) (setCircuit n x s)
      let missing (x : Circuit) : State := let run := min 255 (x.missRun + 1); let lops := x.lops || decide (x.lopsEnter ≤ run)
        lopsEvent n x.lops lops (play ones { x with missRun := run, lops := lops });
      ((tdmOn s = false ∨ c.mode = 0) → exec (.cePlayoutSlot n) s = .next s) ∧ (tdmOn s = true → c.mode ≠ 0 →
      (¬ sent → exec (.cePlayoutSlot n) s = .next (emit (.playout n none c.freq ones) s)) ∧
      (sent → c.st ≠ 2 → (c.played = false ∨ c.came = true) → exec (.cePlayoutSlot n) s = .next (play ones { d with missRun := 0 })) ∧
      (sent → c.st ≠ 2 → c.played = true → c.came = false → exec (.cePlayoutSlot n) s = .next (missing d)) ∧
      (sent → c.st = 2 → c.jb = [] → exec (.cePlayoutSlot n) s =
        .next (raise 808 [] [putb true 31 ||| wd n] (cnt (cPos 7 n) 1 (missing { d with st := 1, played := true })))) ∧
      (sent → c.st = 2 → c.jb ≠ [] → let e := { d with jb := kerase c.jb c.nextSeq, nextSeq := (c.nextSeq + 1) % 65536, played := true }
        (∀ p, kget c.jb c.nextSeq = some p →
          let body := if p.lbit = true then ones else if c.mode = 2 then expandFrames c.tsMask c.frames (if c.odd = true then 1 else 0) p.payload else p.payload
          exec (.cePlayoutSlot n) s = .next (play body { e with missRun := 0 })) ∧
        (kget c.jb c.nextSeq = none → exec (.cePlayoutSlot n) s = .next (cnt (cPos 4 n) 1 (missing e))))))

/-- R482, R490 to R492, R498, R499, R503: what the calls of family 0x0D answer that read a status, a trace, the selector, a page entry and a
circuit, with the frequency offset that its recovered clock holds; an index out of range is refused BAD_ARG. -/
def Obligations.TdmCallsAnswer : Prop :=
  ∀ (c : Call) (s : State), let w := pw c.words 0; let ix := fld w 9 0
    (Served sdhStatusSpec c s → let u := readCall 0x0D02 c s; let a := auOf u (fld w 16 16) ix; let p := tuOf u u.tdm.msp.selected ix
      (fld w 29 28 = 0 → Answered (.sdhStatus c) sdhStatusSpec c s [wd (laneDefects u (fld w 16 16)), 0] u) ∧
      (fld w 29 28 = 1 → ix ≤ 15 → Answered (.sdhStatus c) sdhStatusSpec c s [wd (auDefects a), wd (a.ptr.st * 2 ^ 16 + a.ptr.offset)] u) ∧
      (fld w 29 28 = 2 → ix ≤ 1007 → Answered (.sdhStatus c) sdhStatusSpec c s
        [wd (tuDefects u u.tdm.msp.selected ix), wd (p.ptr.st * 2 ^ 16 + p.ptr.offset)] u) ∧
      ((fld w 29 28 = 3 ∨ (fld w 29 28 = 1 ∧ 15 < ix) ∨ (fld w 29 28 = 2 ∧ 1007 < ix)) → Refused (.sdhStatus c) sdhStatusSpec c s .badArg)) ∧
    (Served sdhTraceReadSpec c s → let u := readCall 0x0D04 c s; let t := traceOf w u
      (traceOk w = true → Answered (.sdhTraceRead c) sdhTraceReadSpec c s [putb t.tim 0] (emit (.dma c.chan (wide c.words 1 2) ((t.accepted ++ List.replicate 64 0).take 64)) u)) ∧
      (traceOk w = false → Refused (.sdhTraceRead c) sdhTraceReadSpec c s .badArg)) ∧
    (Served mspStatusSpec c s → let u := readCall 0x0D12 c s; let m := u.tdm.msp; Answered (.mspStatus c) mspStatusSpec c s
      [putb m.fail 16 ||| put m.request 8 ||| wd m.selected, wd ((sdhOf u 1).k1 * 256 + (sdhOf u 1).k2), wd (if m.wtrOn = true then ceilDiv (m.wtrEnd - nowNs u) 1000000000 else 0)] u) ∧
    (Served tsiReadSpec c s → let u := readCall 0x0D21 c s
      (ix ≤ 1007 → Answered (.tsiRead c) tsiReadSpec c s [kgetD u.tdm.tsi ix 0, putb u.tdm.tsiNext.isSome 31] u) ∧
      (1008 ≤ ix → Refused (.tsiRead c) tsiReadSpec c s .badArg)) ∧
    (Served ceCircuitReadSpec c s → let u := readCall 0x0D31 c s; let x := circuitOf u ix; let st := if x.lops = true then 3 else x.st
      (1008 ≤ ix → Refused (.ceCircuitRead c) ceCircuitReadSpec c s .badArg) ∧ (ix ≤ 1007 →
        (x.mode = 0 → Answered (.ceCircuitRead c) ceCircuitReadSpec c s [0, wd (fillUs x), 0] u) ∧
        (x.mode ≠ 0 → x.clock = 2 → Answered (.ceCircuitRead c) ceCircuitReadSpec c s [wd st, wd (fillUs x), 0] u) ∧
        (x.mode ≠ 0 → x.clock ≠ 2 → Answered (.ceCircuitRead c) ceCircuitReadSpec c s [wd st, wd (fillUs x), wd (unsgn 32 x.freq)] u)))

/-- R395, R407, R413, R417, R419, R424: the entropy source fails, recovers and reseeds; the pair key is established again REKEY hours after
it was or as the mate begins, gathers the mate's material, is judged once that is complete, and times out; what the calls of family 0x0A answer that read keys or
start an exchange. How the pair key is derived is notes/assumptions/141. -/
def Obligations.EntropyKeysAndTheirCalls : Prop :=
  (∀ (s : State), let k := s.ciph.pair
    let due := s.red.hawser.up = true ∧ k.st = .established ∧ k.since + 3600000000 * us * (if hashChecked s = true then k.rekey else 24) ≤ s.tb;
    (∀ test, exec (.entropyHealthFail test) s = .next (raise 707 [] [test] { s with ciph := { s.ciph with healthy := false, failures := min 0xFFFF (s.ciph.failures + 1) } })) ∧
    (s.ciph.healthy = false → exec .entropyRecovered s = .next (raise 708 [] [] { s with ciph := { s.ciph with healthy := true } })) ∧
    (s.ciph.healthy = true → exec .entropyRecovered s = .next s) ∧
    (s.ciph.healthy = true → exec .drbgReseed s = .next (cnt (cDev 11) 1 { s with ciph := { s.ciph with reseeds := s.ciph.reseeds + 1 } })) ∧
    (s.ciph.healthy = false → exec .drbgReseed s = .next s) ∧
    (¬ due → exec .pairKeyRekeyTimer s = .next s) ∧
    (due → s.ciph.healthy = false →
      exec .pairKeyRekeyTimer s = .next (setPairKey { k with st := .failed, fails := min 0xFFFF (k.fails + 1) } s)) ∧
    (due → s.ciph.healthy = true → ∃ t, exec .pairKeyRekeyTimer s = .next t ∧ t.ciph.pair.st = .establishing ∧ t.ciph.pair.got = [] ∧ t.ciph.pair.since = s.tb) ∧
    (∀ (stage : Fin 4) bs last, let ls := if s.red.hawser.inUse ≠ [] then s.red.hawser.inUse else (List.range 4).filter fun i => (laneOf s (24 + i)).st = .on
      let looped := ls ≠ [] ∧ ∀ i ∈ ls, (laneOf s (24 + i)).loopback ≠ 0 ∨ (laneOf s (24 + i)).gen = true
      let joins := stage = 1 ∧ k.st ≠ .establishing ∧ (s.red.pair.st = .bulk ∨ s.red.pair.st = .paired)
      let j := if joins then pairKeyStart s else s; let i := j.ciph.pair; let t := setPairKey { i with got := kmod i.got stage [] (· ++ bs) } j
      (looped → exec (.pairKeyFlitRx stage bs last) s = .next s) ∧
      let was := decide (k.st = .established);
      (¬ looped → (i.st ≠ .establishing ∨ stage = 0) → exec (.pairKeyFlitRx stage bs last) s = .next (keyDone was j)) ∧
      (¬ looped → i.st = .establishing → stage ≠ 0 → (stage ≠ 3 ∨ last = false) → exec (.pairKeyFlitRx stage bs last) s = .next (keyDone was t)) ∧
      (¬ looped → i.st = .establishing → stage = 3 → last = true → exec (.pairKeyFlitRx stage bs last) s = .next (keyDone was (pairKeyJudge t)))) ∧
    (∀ was, (s.red.pair.st = .keying → k.st = .established → keyDone was s = judgePaired (snapshot (activeSpans s) (setPairSt .bulk s))) ∧
      (k.st ≠ .established ∨ (was = true ∧ s.red.pair.st ≠ .keying) → keyDone was s = judgeSyncs s) ∧
      (was = false → s.red.pair.st ≠ .keying → k.st = .established → keyDone was s = judgeSyncs (forEach (activeSpans s) resendKeys s))) ∧
    (let chain := kgetD k.got 1 []; let eph := kgetD k.got 2 []; let sig := kgetD k.got 3 []
      let fails (code : Nat) : Prop := pairKeyJudge s = raise 710 [] [wd code] (setPairKey { k with st := .failed, fails := min 0xFFFF (k.fails + 1), got := [] } s)
      (Config.chainKey chain = none → fails 0) ∧ (∀ pub, Config.chainKey chain = some pub → let hashBad := hashChecked s = true ∧ sha384 (Config.leafOf chain) ≠ k.hash
        (hashBad → fails 1) ∧ (¬ hashBad → (p384.verify pub (sha384 (chain ++ eph)) sig = false → fails 2) ∧
          (p384.verify pub (sha384 (chain ++ eph)) sig = true → pairKeyJudge s = raise 709 [] [] (setPairKey { k with
            st := .established, since := s.tb, key := pairSecret (p384.agree k.mine (eph.take 97)) (toBe 32 k.nonce) (eph.drop 97), got := [] } s))))) ∧
    (k.st ≠ .establishing → exec .pairKeyTimeout s = .next s) ∧
    (k.st = .establishing → exec .pairKeyTimeout s = .next (judgeSyncs (raise 710 [] [3] (setPairKey { k with st := .failed, fails := min 0xFFFF (k.fails + 1), got := [] } s))))) ∧
  (∀ (c : Call) (s : State), let w := pw c.words 0
    (Served ponKeyRollSpec c s → let u := readCall 0x0A03 c s; let sp := fld w 4 0; let o := fld w 24 16
      (∀ e, needOnu u c.chan w = .error e → Refused (.ponKeyRoll c) ponKeyRollSpec c s e) ∧ (needOnu u c.chan w = .ok () →
      ((onuOf u sp o).st = .active → (onuKeys u sp o).exchange = false → Answered (.ponKeyRoll c) ponKeyRollSpec c s [] (askKey sp o u)) ∧
      (((onuOf u sp o).st ≠ .active ∨ (onuKeys u sp o).exchange = true) → Refused (.ponKeyRoll c) ponKeyRollSpec c s .badState))) ∧
    (Served ponKeyStatusSpec c s → let u := readCall 0x0A04 c s; let sp := fld w 4 0; let o := fld w 24 16; let k := onuKeys u sp o
      let a := ixIn k.s1 k.s2 .active; let n := ixIn k.s1 k.s2 .next; let sfc := if n = 0 then 0 else match (k.slot n).at_ with | some f => sfcOf (onuOf u sp o).pier f | none => 0
      (∀ e, needOnu u c.chan w = .error e → Refused (.ponKeyStatus c) ponKeyStatusSpec c s e) ∧ (needOnu u c.chan w = .ok () →
        Answered (.ponKeyStatus c) ponKeyStatusSpec c s ([putb (hasDefect u sp o 8) 31 ||| putb k.exchange 30 ||| wd (n * 16 + a),
          wd (if a = 0 then 0 else (k.slot a).age (frameNo u))] ++ toWords 2 sfc) u)) ∧
    (Served macsecSaReadSpec c s → let u := readCall 0x0A15 c s; let y := secyOf u (fld w 20 16); let rx := bit w 8; let an := fld w 1 0
      (saOk w = false → Refused (.macsecSaRead c) macsecSaReadSpec c s .badArg) ∧ (saOk w = true →
        (findSa y rx (fld w 5 4) an = none → Answered (.macsecSaRead c) macsecSaReadSpec c s [0, 0, 0] u) ∧
        (∀ a, findSa y rx (fld w 5 4) an = some a → Answered (.macsecSaRead c) macsecSaReadSpec c s ([putb true 31 ||| putb (if rx = true then a.used else decide (y.txAn = some an)) 30 |||
          putb (!rx && a.exhausted) 29 ||| putb (!rx && decide (y.nextAn = some an)) 28] ++ toWords 2 (min a.pn (2 ^ 64 - 1))) u))) ∧
    (Served xtsStatusSpec c s → let u := readCall 0x0A20 c s; let k := fld w 19 16
      (∀ e, needOwner u c.chan k = .error e → Refused (.xtsStatus c) xtsStatusSpec c s e) ∧ (needOwner u c.chan k = .ok () →
        Answered (.xtsStatus c) xtsStatusSpec c s [putb (kget u.ciph.xts k).isSome 31 ||| wd (kgetD u.ciph.xtsGen k 0 % 65536)] u)) ∧
    (Served pairKeyStatusSpec c s → let u := readCall 0x0A31 c s; let k := u.ciph.pair
      Answered (.pairKeyStatus c) pairKeyStatusSpec c s [wd k.st.code, wd (if k.st = .established then (nowNs u - k.since / 2 ^ 40) / 1000000000 else 0), wd k.fails] u) ∧
    (Served entropyStatusSpec c s → let u := readCall 0x0A40 c s
      Answered (.entropyStatus c) entropyStatusSpec c s [putb u.ciph.healthy 31 ||| wd u.ciph.failures, wd u.ciph.reseeds] u))

/-- R466 to R468, R507 to R509: a lane that can hold lock gains it after 8 good codewords and loses it after 4 bad ones, codewords are
delivered by SEQ, the link is up while the set in use is not empty and down when no codeword comes, and mailbox and timebase flits go out,
in codewords of ten, and come in; what each lane sends is told where it changes: nothing, its pattern, idle codewords or its share of the
flits. On a lane that cannot hold lock, with the link down, or with every lane in use looped back or sending its pattern, they change
nothing. How many codewords of idle flits went before is free (notes/assumptions/145), and so is whether a lost codeword held mailbox flits
(notes/assumptions/111). -/
def Obligations.HawserCarriesItsFlits : Prop :=
  ∀ (s : State), let h := s.red.hawser
    (∀ i : Fin 4, let x := laneOf s (24 + i); let can := x.st = .on ∧ x.los = false ∧ x.rxLol = false; let before := laneFlags s (24 + i); let good := kgetD h.goodRun i 0
      (((h.locked.contains i.val = true ∨ ¬ can) → exec (.hawserLockGained i) s = .next s) ∧
      (h.locked.contains i.val = false → can → exec (.hawserLockGained i) s = .next (hawserLines (laneEvt (24 + i) before
        (setHawser { h with locked := sinsert h.locked i, goodRun := kset h.goodRun i 0, badRun := kset h.badRun i 0 } s)))) ∧
      (h.locked.contains i.val = false → exec (.hawserLockLost i) s = .next s) ∧
      (h.locked.contains i.val = true → let l := h.locked.filter (· ≠ i.val)
        exec (.hawserLockLost i) s = .next (hawserLines (cnt (cLane 3 (24 + i)) 1 (laneEvt (24 + i) before (setHawser { h with
          locked := l, goodRun := kset h.goodRun i 0, badRun := kset h.badRun i 0 } s)))))) ∧
      (¬ can → ∀ g seq lanes flits, exec (.hawserCodewordRx i g seq lanes flits) s = .next s) ∧ (can → ∀ (seq : Fin 1024) (lanes : Fin 16) flits,
        let c := cnt (cLane 4 (24 + i)) 1 (setHawser { h with quiet := false } s); let b := cnt (cLane 6 (24 + i)) 1 c
        let g := drawn (cnt (cLane 5 (24 + i)) (Config.freeNat s.free % 16) c)
        (let n := kgetD h.badRun i 0 + 1; let t := setHawser { h with quiet := false, badRun := kset h.badRun i n, goodRun := kset h.goodRun i 0 } b
          ((n < 4 ∨ h.locked.contains i.val = false) → exec (.hawserCodewordRx i false seq lanes flits) s = .next t) ∧
          (4 ≤ n → h.locked.contains i.val = true → exec (.hawserCodewordRx i false seq lanes flits) s = .next (hawserLock i false t))) ∧
        (let n := min 8 (good + 1); let t := setHawser { h with quiet := false, goodRun := kset h.goodRun i n, badRun := kset h.badRun i 0 } g
          let u := if h.locked.contains i.val = false then hawserLock i true t else t
          let v := hawserSetNow (setHawser { u.red.hawser with remote := (List.range 4).filter fun j => lanes.val.testBit j } u); let q := v.red.hawser.nextSeq.getD seq
          (h.locked.contains i.val = false → n < 8 → exec (.hawserCodewordRx i true seq lanes flits) s = .next t) ∧ ((h.locked.contains i.val = true ∨ n = 8) →
            (x.gen = true → exec (.hawserCodewordRx i true seq lanes flits) s = .next u) ∧
            (x.gen = false → (laneOf u (24 + i)).loopback ≠ 0 → exec (.hawserCodewordRx i true seq lanes flits) s = .next (cnt (cLane 11 (24 + i)) flits u)) ∧
            (x.gen = false → (laneOf u (24 + i)).loopback = 0 → (512 ≤ seqAhead seq q → exec (.hawserCodewordRx i true seq lanes flits) s = .next v) ∧
              (seqAhead seq q < 512 → exec (.hawserCodewordRx i true seq lanes flits) s =
                .next (deliverFlits 1024 (setHawser { v.red.hawser with nextSeq := some q, arrived := v.red.hawser.arrived ++ [(seq.val, i.val, flits)] } v)))))))) ∧
    (∀ n q, h.nextSeq = some q → (∀ a, (h.arrived.find? fun a => a.1 = q) = some a → deliverFlits (n + 1) s = deliverFlits n (cnt (cDev 7) a.2.2
        (setHawser { h with nextSeq := some ((q + 1) % 1024), arrived := h.arrived.filter fun b => b.1 ≠ q } s))) ∧
      ((h.arrived.find? fun a => a.1 = q) = none → let later := h.arrived ≠ [] ∧ ∀ i ∈ h.inUse, ∃ a ∈ h.arrived, a.2.1 = i ∧ seqAhead a.1 q < 512
        (later → deliverFlits (n + 1) s = deliverFlits n (lostFlits (cnt (cDev 8) 10 (setHawser { h with nextSeq := some ((q + 1) % 1024) } s)))) ∧
        (¬ later → deliverFlits (n + 1) s = s))) ∧
    (exec .hawserNoCodewordTimeout s = .next (hawserSetNow (setHawser { h with quiet := true } s))) ∧
    (exec .hawserLinkUp s = .next (hawserSetNow (setHawser { h with quiet := false } s))) ∧
    (let now := hawserSet s; let t := if now = h.inUse then s else raise 796 [] [maskOf now] (setHawser { h with inUse := now } s); let x := t.red.hawser
      ((now = [] ∨ h.quiet = true) → h.up = false → hawserSetNow s = hawserLines t) ∧
      ((now = [] ∨ h.quiet = true) → h.up = true → hawserSetNow s = hawserLines (mateLost 0 (setHawser { x with up := false, arrived := [], nextSeq := none } t))) ∧
      (now ≠ [] → h.quiet = false → h.up = true → hawserSetNow s = hawserLines t) ∧
      (now ≠ [] → h.quiet = false → h.up = false → let u := setHawser { x with up := true, nextSeq := none, arrived := [], mateFree := 0, samples := [] } t;
        (pairOn u = true → hawserSetNow s = hawserLines (enterHello u)) ∧ (pairOn u = false → hawserSetNow s = hawserLines u))) ∧
    (hawserLines s = forEach (List.range 4) (fun i t => let now := (hawserContent t i, (maskOf t.red.hawser.locked).toNat)
      if now = kgetD t.red.hawser.line i (0, 0) then t else emit (.hawserLine i now.1 now.2) (setHawser { t.red.hawser with line := kset t.red.hawser.line i now } t)) s) ∧
    (∀ i, let x := laneOf s (24 + i); (x.st ≠ .on ∨ x.txLol = true → hawserContent s i = 0) ∧ (x.st = .on → x.txLol = false → (x.gen = true → hawserContent s i = 1) ∧
      (x.gen = false → h.up = true → i ∈ h.inUse → hawserContent s i = 3) ∧ (x.gen = false → h.up = false ∨ i ∉ h.inUse → hawserContent s i = 2))) ∧
    (let ls := if s.red.hawser.inUse ≠ [] then s.red.hawser.inUse else (List.range 4).filter fun i => (laneOf s (24 + i)).st = .on
     let looped := ls ≠ [] ∧ ∀ i ∈ ls, (laneOf s (24 + i)).loopback ≠ 0 ∨ (laneOf s (24 + i)).gen = true;
      (looped → (∀ r ws free, exec (.hawserMailboxFlitRx r ws free) s = .next s) ∧ ∀ a b c d, exec (.hawserTimebaseFlitRx a b c d) s = .next s) ∧
      (¬ looped → (∀ ws free, let t := setHawser { h with mateFree := free } s; let hello := fld (pw ws 0) 31 16 = 0x0E10 ∧ pw ws 1 = 0 ∧ ws.length = 9
          (exec (.hawserMailboxFlitRx false ws free) s = .next (flushMate 32 (pushAll 16 ws t))) ∧
          (¬ hello → exec (.hawserMailboxFlitRx true ws free) s = .next (flushMate 32 t)) ∧
          (hello → exec (.hawserMailboxFlitRx true ws free) s = .next (flushMate 32 (helloFrom (ws.drop 2) t)))) ∧
        (∀ a b c d, (b = 0 → exec (.hawserTimebaseFlitRx a b c d) s = .next (setHawser { h with tSend := a, tRecv := d } s)) ∧
          (b ≠ 0 → let raw : Int := ((d : Int) - a) - ((c : Int) - b); let x := roundAway ((((raw : Rat) * 1000 / 65536) - (s.red.pair.asym : Rat)) / 2)
            exec (.hawserTimebaseFlitRx a b c d) s = .next (setHawser { h with tSend := a, tRecv := d, samples := (h.samples ++ [x]).drop (h.samples.length + 1 - 16) } s))))) ∧
    (h.up = false → exec .hawserFreeFlitTimer s = .next s ∧ exec .hawserTimebaseFlitTimer s = .next s) ∧
    (h.up = true → let c := chanOf s 16; let words := (c.outq.take 15).flatMap fun o => toLe 4 o.w.toNat
      exec .hawserFreeFlitTimer s = .next (flitsOut [⟨1, toLe 2 (2 ^ 15 + inFree c % 128) ++ words⟩] (setChan 16 { c with outq := c.outq.drop 15 } s))) ∧
    (h.up = true → exec .hawserTimebaseFlitTimer s = .next (flitsOut [⟨3, [stamp16 s, h.tSend, h.tRecv].flatMap fun t => toLe 8 (t / 65536) ++ toLe 2 t⟩] (drawn s))) ∧
    (h.up = true → ∀ f : Flit, ∃ n : Nat, let o := h.after n; let v := setHawser (o.after 1) (emit (.hawserIdle h.txSeq n) (setHawser o (drawn s)))
      flitsOut [f] s = cnt (cDev 6) 1 (if (laneOf s (24 + o.turn.headD 0)).txLol = true then v
        else emit (.codeword o.txSeq (o.turn.headD 0) (maskOf h.locked).toNat (f :: List.replicate 9 ⟨0, []⟩)) v))

/-- R203, R397, R418, R510, R511, R514, R515, R517, R520, R522, R524: a record is counted, a gap in the sequence takes the standby Spans out of
synchronisation and asks for a new snapshot; its Span's content is taken where the Span is standby here, and one for any other Span changes
nothing more, and none comes while every lane in use is looped back. A HEARTBEAT ends the releases that the mate has taken over, a switch request takes over and releases, an end of snapshot is
answered. The active device's calibration constants, which no record names, are free (notes/assumptions/3). -/
def Obligations.MirrorRecordsAreTaken : Prop :=
  ∀ (s : State) (n : Nat),
    let c := cnt (cDev 15) 1 s; let hit := standbySpans c; let p := s.red.pair; let next := (n + 1) % 2 ^ 32
    let v := setPair { p with rxTop := next, rxNext := if hit = [] ∨ (n = p.rxTop ∧ p.rxNext = p.rxTop) then next else p.rxNext, rxSince := if hit = [] then none else some (p.rxSince.getD (frameNo c)) } c
    let w := judgeSyncs ((fun t => if hit = [] then t else mateCall 0x0E11 [1, maskOf hit] t)
      (forEach hit (fun sp t => raise 873 [] [wd sp, wd n] (cnt (cSpan 18 sp) 1 t)) (setPair { v.red.pair with gapSpans := hit } v)))
    let u := if n = p.rxTop then v else w
    let ls := if s.red.hawser.inUse ≠ [] then s.red.hawser.inUse else (List.range 4).filter fun i => (laneOf s (24 + i)).st = .on
    let looped := ls ≠ [] ∧ ∀ i ∈ ls, (laneOf s (24 + i)).loopback ≠ 0 ∨ (laneOf s (24 + i)).gen = true
    (looped → ∀ h : MirHead, h.rseq = n → (∀ m, exec (.mirrorMapRx h m) s = .next s) ∧ (∀ m, exec (.mirrorOnuRx h m) s = .next s) ∧ (∀ m, exec (.mirrorAllocRx h m) s = .next s) ∧
      (∀ m, exec (.mirrorKeyRx h m) s = .next s) ∧ (∀ m, exec (.mirrorSpanRx h m) s = .next s) ∧ (∀ m, exec (.mirrorCommitRx h m) s = .next s) ∧
      (∀ roles st a, exec (.mirrorHeartbeatRx n a roles st) s = .next s) ∧ (∀ spans force row, exec (.mirrorSwitchRx n spans force row) s = .next s) ∧
      (∀ spans, exec (.mirrorEndOfSnapshotRx n spans) s = .next s)) ∧
    (¬ looped →
    (∀ h : MirHead, h.rseq = n → let sp := h.span
      (listens u sp = false → (∀ m, exec (.mirrorMapRx h m) s = .next u) ∧ (∀ m, exec (.mirrorOnuRx h m) s = .next u) ∧ (∀ m, exec (.mirrorAllocRx h m) s = .next u) ∧
        (∀ m, exec (.mirrorKeyRx h m) s = .next u) ∧ (∀ m, exec (.mirrorSpanRx h m) s = .next u)) ∧
      (listens u sp = true →
        (∀ m : MirMap, exec (.mirrorMapRx h m) s = .next (forEach m.maps (fun e t =>
          let dues := e.2.grants.map fun g => (⟨g, m.sfc, profAt t sp e.1 g.prof⟩ : Due)
          let late := dues.filter fun d => (searchWindow t sp e.1 d).1 < psOf t.tb
          let t := anchorMap sp e.1 m.sfc e.2.grants (modPier sp e.1 (fun x => { x with sent := some e.2, due := x.due ++ dues.filter fun d => !late.contains d }) t)
          if late = [] then t else cnt (cSpan 19 sp) 1 t) u)) ∧
        (∀ m : MirAlloc, (allocOf u sp m.alloc = none → exec (.mirrorAllocRx h m) s = .next u) ∧ (∀ x, allocOf u sp m.alloc = some x →
          exec (.mirrorAllocRx h m) s = .next (setAlloc sp m.alloc { x with
            d := (pw m.words 0).toNat, hist := if pw m.words 1 = 0 then [] else [(frameNo u + 1, (pw m.words 1).toNat)]
            report := if bit (pw m.words 2) 31 then some (fld (pw m.words 2) 30 0, frameNo u) else none
            latched := if bit (pw m.words 2) 31 then some (fld (pw m.words 2) 30 0, frameNo u) else none
            pollAge := fld (pw m.words 3) 7 0
            st := if m.words.length = 8 then m.words.drop 4 else [0, 0, 0, 0] } u))) ∧
        (∀ m : MirOnu, ∃ t, exec (.mirrorOnuRx h m) s = .next t ∧ (let x := onuOf t sp m.onu
          x.st = m.st ∧ x.pier = m.pier.val ∧ x.onuId = m.onuId ∧ x.rate = m.rate ∧ x.eqd = m.eqd ∧ x.offset = m.offset ∧ x.cumul = m.cumul ∧ x.expect = m.expect) ∧
          (m.st = .active → ∀ (a : Fin 2048) x, allocOf u sp a = some x → x.onu = m.onu.val → ∃ y, allocOf t sp a = some y ∧ y.told = true)) ∧
        (∀ m : MirKey, (kwUnwrap 2 u.ciph.pair.key m.wrapped = none → exec (.mirrorKeyRx h m) s = .next u) ∧
          (∀ key, kwUnwrap 2 u.ciph.pair.key m.wrapped = some key →
            (∀ o, m.onu = some o → (m.index.val = 0 → exec (.mirrorKeyRx h m) s = .next (modOnuKeys sp o (fun k => { k with msk := some key }) u)) ∧
              (m.index.val = 3 → exec (.mirrorKeyRx h m) s = .next (modOnuKeys sp o (fun k => { k with ik := key }) u)) ∧
              (m.index.val = 4 → exec (.mirrorKeyRx h m) s = .next (modOnuKeys sp o (fun k => { k with kek := key }) u)) ∧
              ((m.index.val = 1 ∨ m.index.val = 2) → exec (.mirrorKeyRx h m) s = .next (modOnuKeys sp o (fun k => let other := 3 - m.index.val
                (if m.state.val = 2 then k.put other ((k.slot other).retire m.pier (frameNo u)) else k).put m.index (slotFrom u m key)) u))) ∧
            (m.onu = none → let k := pierKeys u sp m.pier; let other := 3 - m.index.val
              let k := if m.state.val = 2 then k.put other ((k.slot other).retire m.pier (frameNo u)) else k
              exec (.mirrorKeyRx h m) s = .next (setPierKeys sp m.pier (k.put m.index (slotFrom u m key))
                (if m.state.val = 1 then u else releaseObj ⟨.bcastKey, 4 * (3 * sp.val + m.pier.val) + m.index.val⟩ u))))) ∧
        (∀ m : MirSpan, exec (.mirrorSpanRx h m) s = .next (forEach (List.range 3) (fun p t => judgeReady sp p (match m.teqd[p]? with
          | some x => modPier sp p (fun y => { y with mirTeqd := some x, teqd := x }) t
          | none => t)) (modSpan sp (fun v => { v with
            reachMin := m.reach.1, reachMax := m.reach.2, mirOpen := m.opened
            diff := (m.model.map (·.1)).getD v.diff, reachMargin := (m.model.map (·.2)).getD v.reachMargin })
          (if m.opened = true ∨ (spanOf u sp).mirOpen = true then u else splicesStale sp u)))))) ∧
    (∀ (h : MirHead) (m : MirCommit), h.rseq = n → exec (.mirrorCommitRx h m) s = .next (commitIn m u)) ∧
    (∀ m : MirCommit, let its := mirItems u m; let asked := m.point * frameTb; let paired := ∃ sp < 32, (spanOf u sp).paired = true
      let waits (target : Nat) : State := noteConfig its (setTxns (u.ctl.txns ++ [⟨0, 16, true, its, .accepted target, [], none⟩]) u)
      (¬ paired → commitIn m u = u) ∧ (paired → u.tb + 20 * us ≤ asked → commitIn m u = waits asked) ∧
      (paired → asked < u.tb + 20 * us → let t := waits (applyPointFor u.tb 0)
        let spans := (its.flatMap (itemSpans t)).filter fun sp => (spanOf t sp).paired && (spanOf t sp).standby
        commitIn m u = judgeSyncs (setPair { t.red.pair with late := spans.foldl (fun l sp => kset l sp (applyPointFor u.tb 0)) t.red.pair.late } t))) ∧
    (∀ roles st a, exec (.mirrorHeartbeatRx n a roles st) s = .next (forEach ((u.red.pair.runs.filter fun r => !r.taking && bit roles r.span).map (·.span)) endRun u)) ∧
    (∀ spans force row, let act := (spansIn spans).filter (activeHere u); exec (.mirrorSwitchRx n spans force row) s =
      .next (release row force false act (takeOver row force ((spansIn spans).filter fun sp => !act.contains sp) u))) ∧
    (∀ spans, let mine := (standbySpans u).filter (bit spans)
      let t := forEach mine (fun sp t => forEach (List.range 3) (fun p t =>
          judgeReady sp p (modPier sp p (fun x => { x with mirTx := Config.freeNat t.free, mirRx := Config.freeNat (t.free + 1) }) (drawn (drawn t)))) t) u
      let p := t.red.pair; let left := p.gapSpans.filter fun sp => !mine.contains sp
      let t := setPair { p with snapDone := mine.foldl sinsert p.snapDone, gapSpans := left, rxNext := if left = [] then p.rxTop else p.rxNext } t
      (mine = [] → exec (.mirrorEndOfSnapshotRx n spans) s = .next (judgePaired t)) ∧
      (mine ≠ [] → exec (.mirrorEndOfSnapshotRx n spans) s = .next (judgePaired (mateCall 0x0E11 [2, maskOf mine] t)))))

/-- R397, R418, R507, R511, R515 to R517, R533: acknowledgements end what waits for them and fix the keys' switch frames, mate loss is declared
and confirmed, the optics relight and the first frame resumes; what `PAIR_SWITCH`, `PAIR_STATUS`, `MATE_HELLO` and `MATE_BULK` do. With
nothing of the kind under way, such an event changes nothing. -/
def Obligations.PairAcknowledgesAndSwitches : Prop :=
  (∀ (s : State), let p := s.red.pair
    (∀ n, let upTo (k : Nat) : Bool := decide ((n + 2 ^ 32 - k) % 2 ^ 32 < 2 ^ 31); let met (a : Option Nat) : Bool := match a with | some k => upTo k | none => false
      let ls := if s.red.hawser.inUse ≠ [] then s.red.hawser.inUse else (List.range 4).filter fun i => (laneOf s (24 + i)).st = .on
      let looped := ls ≠ [] ∧ ∀ i ∈ ls, (laneOf s (24 + i)).loopback ≠ 0 ∨ (laneOf s (24 + i)).gen = true
      (looped → exec (.mirrorAckRx n) s = .next s) ∧
      (¬ looped → exec (.mirrorAckRx n) s = .next (judgeSyncs (forEach s.ciph.piers (fun e t => forEach ([1, 2].filter fun ix => met (e.2.slot ix).ack) (fixBcast (e.1 / 3) (e.1 % 3)) t)
        (forEach (s.ciph.onus.filter fun e => met e.2.waits) (fun e t => fixSwitch (e.1 / 512) (e.1 % 512) t)
          (setPair { p with unacked := p.unacked.filter fun u => !upTo u.1 } s)))))) ∧
    (s.red.hawser.up = true → standbySpans s ≠ [] → exec .mirrorAckTimer s = .next (flitsOut
      [⟨2, [15, 0xFF] ++ toLe 2 (2 ^ 15) ++ toLe 4 ((p.rxNext + 2 ^ 32 - 1) % 2 ^ 32)⟩]
      (setPair { p with rxSince := if p.rxNext = p.rxTop then none else p.rxSince } s))) ∧
    ((s.red.hawser.up = false ∨ standbySpans s = []) → exec .mirrorAckTimer s = .next s) ∧
    (standbySpans s ≠ [] → (p.st = .bulk ∨ p.st = .paired) → let s' := forEach ((standbySpans s).filter (switching s)) (fun sp t => cnt (cSpan 17 sp) 1 t) s
      let cand := (standbySpans s').filter fun sp => hasActive s' sp && !switching s' sp
      let ok := cand.filter fun sp => p.sync.contains sp || (p.takeUnsync && p.snapDone.contains sp)
      let t := raise 865 [] [1] (setPairSt .mateLost s')
      (p.auto = true → let t := refusedEvt 0 (cand.filter fun sp => !ok.contains sp) t
        exec .mateHeartbeatTimeout s = .next (judgeSyncs (forEach ok (fun sp => threePiers (opticHold sp))
          (setPair { t.red.pair with confirming := ok, unsynced := ok.filter fun sp => !p.sync.contains sp, unacked := [], toMate := [], rxSince := none } t)))) ∧
      (p.auto = false → let t := refusedEvt 1 cand t
        exec .mateHeartbeatTimeout s = .next (judgeSyncs (setPair { t.red.pair with confirming := [], unsynced := [], unacked := [], toMate := [], rxSince := none } t)))) ∧
    ((standbySpans s = [] ∨ (p.st ≠ .bulk ∧ p.st ≠ .paired)) → exec .mateHeartbeatTimeout s = .next s) ∧
    (∀ lit, (p.st ≠ .mateLost → exec (.mateConfirmEnd lit) s = .next s) ∧ (p.st = .mateLost → let seen := (standbySpans s).filter (bit lit)
      let go := p.confirming.filter fun sp => !seen.contains sp && (spanOf s sp).standby
      let t := forEach (p.confirming.filter fun sp => !go.contains sp) refuseRun s; let t := setPair { t.red.pair with confirming := [] } t
      (seen = [] → exec (.mateConfirmEnd lit) s = .next (startTake 5 go t)) ∧
      (seen ≠ [] → exec (.mateConfirmEnd lit) s = .next (startTake 5 go (raise 868 [] [0, maskOf seen] (setPairSt .split t)))))) ∧
    (∀ sp : SpanIx, ((p.runs.any fun r => r.span = sp.val && r.taking) = true → exec (.switchoverRelight sp) s = .next (threePiers (opticRelight sp) s)) ∧
      ((p.runs.any fun r => r.span = sp.val && r.taking) = false → exec (.switchoverRelight sp) s = .next s ∧ exec (.switchoverFirstFrame sp) s = .next s) ∧
      (∀ r, (p.runs.find? fun r => r.span = sp.val && r.taking) = some r → let t1 := r.t1.getD (frameNo s)
        let t := modSpan sp (fun v => { v with granting := v.st = .opened, t0 := t1 - 16, windows := [] }) s
        let t := forEach (enabledPiers t sp) (fun p => modPier sp p fun x => { x with rotation := none, next := none, sent := none, due := [] }) t
        let t := endRun sp t
        ((t.ctl.lastApply ≠ t1 ∨ frameNo t ≠ t1) → exec (.switchoverFirstFrame sp) s = .next t) ∧
        (t.ctl.lastApply = t1 → frameNo t = t1 → exec (.switchoverFirstFrame sp) s = .next (startRoutine sp t1 (lateFrame sp t)))))) ∧
  (∀ (c : Call) (s : State), let w := pw c.words 0
    (Served pairSwitchSpec c s → let u := readCall 0x0E02 c s; let force := bit w 30; let r := refFor 0x0E02 c u
      let spans := if bit w 31 = true then pairedSpans u else spansIn (pw c.words 1); let go := spans.filter (switchable u force)
      ((∃ sp ∈ spans, (spanOf u sp).paired = false) → Refused (.pairSwitch c) pairSwitchSpec c s .badArg) ∧ ((∀ sp ∈ spans, (spanOf u sp).paired = true) →
        (u.red.pair.calls.any (·.again) = true → Refused (.pairSwitch c) pairSwitchSpec c s .pending) ∧ (u.red.pair.calls.any (·.again) = false →
          ((∃ sp ∈ spans, switching u sp = true) → exec (.pairSwitch c) s =
            .next (respond 0x0E02 c .pending [] (setPair { u.red.pair with calls := u.red.pair.calls ++ [⟨r, spans, [], force, true⟩] } u))) ∧
          ((∀ sp ∈ spans, switching u sp = false) →
            (go = [] → exec (.pairSwitch c) s = .next (respond 0x0E02 c .badState [] (callSwitch force spans u))) ∧
            (go ≠ [] → let t := defer_ r u
              exec (.pairSwitch c) s = .next (callSwitch force spans (setPair { t.red.pair with calls := t.red.pair.calls ++ [⟨r, go, [], force, false⟩] } t))))))) ∧
    (Served pairStatusSpec c s → let u := readCall 0x0E03 c s; let p := u.red.pair; Answered (.pairStatus c) pairStatusSpec c s
      [put p.format 8 ||| wd p.st.code, maskOf (activeSpans u), maskOf (standbySpans u), maskOf p.sync, wd (unsgn 32 (deltaTb u)), put (min 0xFFFF (max (mirrorLag u) (lagHere u))) 16 ||| wd p.mateFw] u) ∧
    (Served mateHelloSpec c s → let u := readCall 0x0E10 c s
      Answered (.mateHello c) mateHelloSpec c s (helloWords u ++ [wd ((commonFormat (fld w 31 24) (fld w 23 16)).getD 0)]) (helloFrom c.words u)) ∧
    (∀ i, (i = .mateBulkSend c ∨ i = .mateBulkReceived c) → Served mateBulkSpec c s → let u := readCall 0x0E11 c s
      ((fld w 1 0 = 0 ∨ fld w 1 0 = 3) → Refused i mateBulkSpec c s .badArg) ∧ ((fld w 1 0 = 1 ∨ fld w 1 0 = 2) → u.red.pair.st ≠ .bulk → u.red.pair.st ≠ .paired →
        Refused i mateBulkSpec c s .badState) ∧ ((u.red.pair.st = .bulk ∨ u.red.pair.st = .paired) →
        (fld w 1 0 = 1 → Answered i mateBulkSpec c s [] (judgeSyncs (snapshot (spansIn (pw c.words 1)) u))) ∧ (fld w 1 0 = 2 → Answered i mateBulkSpec c s [] (snapshotTaken (pw c.words 1) u)))))

/-- R525 to R529, R532, R533: a frame of another shelf or port does nothing; one of this shelf is counted and its FSEQ checked, and one for
this device from the sender it follows acts by its role; timers send HELLOs, lose peers and apportion rates; two workers of one number are
undefined; what the calls that read the shelf answer. -/
def Obligations.LanyardFramesAndCalls : Prop :=
  (∀ (s : State) (port : PortIx) (h : LanHead),
    (lanHeard s port h = false → (∀ mg fr, exec (.lanyardHelloRx port h mg fr) s = .next s) ∧ (∀ ws, exec (.lanyardCallRx port h ws) s = .next s) ∧
      (∀ fr ws, exec (.lanyardReplyRx port h fr ws) s = .next s) ∧ (∀ a b sn, exec (.lanyardRegQueryRx port h a b sn) s = .next s) ∧ (∀ sn e, exec (.lanyardRegAnswerRx port h sn e) s = .next s) ∧
      (∀ us, exec (.lanyardUsageRx port h us) s = .next s) ∧ (∀ bs, exec (.lanyardBudgetRx port h bs) s = .next s)) ∧
    (lanHeard s port h = true → let u (type : Nat) : State := cnt (cDev 17) 1 (if lanFollowed s h = true then lanIn h type s else s); let role := lanRole s
      (lanForMe s port h = false → ∀ mg fr, exec (.lanyardHelloRx port h mg fr) s = .next (u 1)) ∧
      ((lanForMe s port h = false ∨ lanFollowed s h = false) → (∀ ws, exec (.lanyardCallRx port h ws) s = .next (u 2)) ∧
        (∀ fr ws, exec (.lanyardReplyRx port h fr ws) s = .next (u 3)) ∧ (∀ a b sn, exec (.lanyardRegQueryRx port h a b sn) s = .next (u 4)) ∧
        (∀ sn e, exec (.lanyardRegAnswerRx port h sn e) s = .next (u 5)) ∧ (∀ us, exec (.lanyardUsageRx port h us) s = .next (u 6)) ∧
        (∀ bs, exec (.lanyardBudgetRx port h bs) s = .next (u 7))) ∧
      (lanForMe s port h = true → ∀ mg fr, (twoWorkers s port h mg = true → exec (.lanyardHelloRx port h mg fr) s = .fault (.undefinedUse "R525")) ∧
        (twoWorkers s port h mg = false → exec (.lanyardHelloRx port h mg fr) s = .next (helloIn port h mg fr (u 1)))) ∧
      (lanForMe s port h = true → lanFollowed s h = true →
        (∀ ws, (role = 1 → h.src = 0 → exec (.lanyardCallRx port h ws) s = .next (replyOut (pushAll 17 ws (u 2)))) ∧
          ((role ≠ 1 ∨ h.src ≠ 0) → exec (.lanyardCallRx port h ws) s = .next (u 2))) ∧
        (∀ fr ws, (role = 2 → exec (.lanyardReplyRx port h fr ws) s = .next (forEach (eventsIn 64 ws) (fun e s =>
            raise 901 [] [wd (h.src * 2 ^ 24 + fld (pw e 0) 9 0), wd (fld (pw e 0) 31 16), pw e 1, pw e 2] s) (modPeer h.src (fun p => { p with free := fr }) (u 3)))) ∧
          (role ≠ 2 → exec (.lanyardReplyRx port h fr ws) s = .next (u 3))) ∧
        (∀ a b sn, let t := cnt (cDev 18) 1 (u 4)
          (role ≠ 2 → exec (.lanyardRegQueryRx port h a b sn) s = .next (u 4)) ∧
          (role = 2 → kget t.red.lan.registry sn.toNat = none → exec (.lanyardRegQueryRx port h a b sn) s = .next (lanyardTo h.src 5 [sn.toNat, 0, 0, 0, 0, 0] t)) ∧
          (∀ e, role = 2 → kget t.red.lan.registry sn.toNat = some e → exec (.lanyardRegQueryRx port h a b sn) s = .next
            (cnt (cDev 19) 1 (lanyardTo h.src 5 ([sn.toNat, 1, e.worker, e.span, e.slice, if e.check = true then 1 else 0] ++ e.reg.map (·.toNat)) t)))) ∧
        (∀ sn, let l := (u 5).red.lan; let t := setLan { l with asked := l.asked.filter fun q => q.1 ≠ sn.toNat } (u 5)
          (∀ e, (role ≠ 1 ∨ h.src ≠ 0) → exec (.lanyardRegAnswerRx port h sn e) s = .next (u 5)) ∧
          (role = 1 → h.src = 0 → exec (.lanyardRegAnswerRx port h sn none) s = .next t) ∧
          (∀ e, role = 1 → h.src = 0 → let c := (l.cache.filter fun x => x.1 ≠ sn.toNat) ++ [(sn.toNat, e)]
            exec (.lanyardRegAnswerRx port h sn (some e)) s = .next (forEach ((l.asked.filter fun q => q.1 = sn.toNat).map (·.2)) (fun sp s => registryFound sp sn e s)
              (cnt (cDev 19) 1 (setLan { t.red.lan with cache := c.drop (c.length - 16384) } t))))) ∧
        (∀ us, (role = 2 → exec (.lanyardUsageRx port h us) s = .next (modPeer h.src (fun p =>
            { p with usage := p.usage.filter (fun u => !us.any fun l => l.slice = u.slice && l.port = u.port) ++ us }) (u 6))) ∧
          (role ≠ 2 → exec (.lanyardUsageRx port h us) s = .next (u 6))) ∧
        (∀ bs, (role = 1 → h.src = 0 → exec (.lanyardBudgetRx port h bs) s = .next (forEach bs (fun l s => setUpBudget l.1 l.2.1
            { upBudget s l.1 l.2.1 with lanyardNext := (upBudget s l.1 l.2.1).lanyardNext ++ [(l.2.2, applyPointFor s.tb 0 / frameTb)] } s) (u 7))) ∧
          ((role ≠ 1 ∨ h.src ≠ 0) → exec (.lanyardBudgetRx port h bs) s = .next (u 7))))) ∧
    (∀ mg fr, let known := kget s.red.lan.peers h.src; let here := match known with | some p => p.present | none => false
      let old : Peer := match known with | some p => if p.tag = h.tag then p else ⟨h.tag, port, fr, [], false, []⟩ | none => ⟨h.tag, port, fr, [], false, []⟩
      let p : Peer := { old with port := port, free := fr, fseq := kset old.fseq 1 h.fseq.toNat, present := true }
      let note (l : Lanyard) : State := setLan { l with peers := kset s.red.lan.peers h.src p } s
      let second := match known with | some p => p.present && p.tag ≠ h.tag && decide (p.tag.toNat < h.tag.toNat) | none => false
      (lanRole s = 2 → mg = true → h.tag.toNat = deviceTag → helloIn port h mg fr s = s) ∧
      (lanRole s = 2 → mg = true → h.tag.toNat ≠ deviceTag → helloIn port h mg fr s = raise 898 [] [wd (h.tag.toNat / 2 ^ 32)] s) ∧
      (lanRole s = 2 → mg = false → here = true → helloIn port h mg fr s = note s.red.lan) ∧
      (lanRole s = 2 → mg = false → here = false → helloIn port h mg fr s = raise 897 [] [putb true 31 ||| wd h.src] (note s.red.lan)) ∧
      (lanRole s ≠ 2 → mg = false → helloIn port h mg fr s = s) ∧ (lanRole s ≠ 2 → mg = true → second = true → helloIn port h mg fr s = s) ∧
      (lanRole s ≠ 2 → mg = true → second = false → here = true → helloIn port h mg fr s = note s.red.lan) ∧
      (lanRole s ≠ 2 → mg = true → second = false → here = false → helloIn port h mg fr s = raise 896 [] [1] (note { s.red.lan with everPresent := true })))) ∧
  (∀ s : State, let l := s.red.lan
    ((l.configured = false ∨ (lanRole s ≠ 1 ∧ lanRole s ≠ 2)) → exec .lanyardHelloTimer s = .next s) ∧
    (l.configured = true → lanRole s = 2 → exec .lanyardHelloTimer s = .next (lanyardOn (lanPorts s) 0xFF 1 [2, 0x0302] s)) ∧
    (l.configured = true → lanRole s = 1 → let t := lanyardOn (lanPorts s) 0xFF 1 [1, 0x0302, inFree (chanOf s 17)] s
      (managerHere t = true → (chanOf t 17).outq ≠ [] → exec .lanyardHelloTimer s = .next (replyOut t)) ∧
      ((managerHere t = false ∨ (chanOf t 17).outq = []) → exec .lanyardHelloTimer s = .next t)) ∧
    (∀ w, ((kget l.peers w = none ∨ ∃ p, kget l.peers w = some p ∧ p.present = false) → exec (.lanyardManagerTimeout w) s = .next s) ∧
      (∀ p, kget l.peers w = some p → p.present = true → (lanRole s = 2 → w ≠ 0 → exec (.lanyardManagerTimeout w) s = .next (raise 897 [] [wd w] (setLan { l with peers := kerase l.peers w } s))) ∧
        (lanRole s ≠ 2 → w = 0 → exec (.lanyardManagerTimeout w) s = .next (closeSession 17 (raise 896 [] [0] (modPeer 0 (fun p => { p with present := false }) s)))) ∧
        ((lanRole s = 2 ↔ w = 0) → exec (.lanyardManagerTimeout w) s = .next s))) ∧
    (lanRole s ≠ 2 → exec .lanyardApportion s = .next s) ∧
    (lanRole s = 2 → let lines : List (Nat × Nat × Nat × Nat) := l.shelfRate.flatMap fun e => if e.2.1 = unshaped then [] else
          let mine := (allUsage s).filter fun u => u.2.slice.val = e.1
          (mine.zip (apportion e.2.1 e.2.2 (mine.map (·.2)))).map fun x => (x.1.1, e.1, x.1.2.port.val, x.2)
        let t := setLan { l with peers := kmap l.peers fun _ p => { p with usage := [] } } s
        let t := forEach (lines.filter fun l => l.1 = 0) (fun l s => budgetIn l.2.1 l.2.2.1 l.2.2.2 s) t
        exec .lanyardApportion s = .next (forEach (t.red.lan.peers.map (·.1)) (fun w s =>
          forEach (by64 64 (lines.filter fun l => l.1 = w && w ≠ 0)) (fun g s => lanyardTo w 7 (g.flatMap fun l => [l.2.1, l.2.2.1, l.2.2.2]) s) s) t))) ∧
  (∀ (rate pct : Nat) (us : List UsageLine), let n := us.length; let floor := rate * pct / 100 / max 1 n; let rest := rate - floor * n; let sum := (us.map wantOf).sum
    (sum = 0 → apportion rate pct us = us.map fun _ => floor + rest / max 1 n) ∧
    (sum ≠ 0 → apportion rate pct us = us.map fun u => floor + (((rest : Nat) : Rat) * wantOf u / sum).floor.toNat)) ∧
  (∀ (c : Call) (s : State),
    (Served lanyardStatusSpec c s → let u := readCall 0x0E21 c s; let l := u.red.lan; let on := l.configured = true ∧ (lanRole u = 1 ∨ lanRole u = 2)
      let ws := ((l.peers.filter fun e => e.2.present && e.1 ≠ 0 && lanRole u = 2).map fun e => 2 ^ e.1).sum
      let tells (st : Nat) : Prop := Answered (.lanyardStatus c) lanyardStatusSpec c s ([wd st] ++ toWords 2 ws ++ [wd l.cache.length]) u
      (¬ on → tells 0) ∧ (on → (lanRole u = 2 ∨ managerHere u = true) → tells 2) ∧ (on → lanRole u = 1 → managerHere u = false → tells (if l.everPresent = true then 3 else 1))) ∧
    (Served lanyardRegReadSpec c s → let u := readCall 0x0E24 c s
      (lanRole u = 2 → Answered (.lanyardRegRead c) lanyardRegReadSpec c s
        [match kget u.red.lan.registry (wide c.words 0 2) with | some e => putb true 31 ||| put e.worker 24 ||| put e.span 16 ||| wd e.slice | none => 0] u) ∧
      (lanRole u ≠ 2 → Refused (.lanyardRegRead c) lanyardRegReadSpec c s .badState)))

/-- R113, R114: every step, of every command and of the clock, leaves the flash in its canonical form: addresses rising, within its two
slots, and no byte listed that reads as an erased one (notes/assumptions/2). -/
def Obligations.FlashKeepsItsForm : Prop :=
  ∀ s t : State, Memory.wf s.boot.flash = true → Machine.step s = .next t → Memory.wf t.boot.flash = true

/-- R111, R114, R116: what a command leaves of the flash and of the fuses. Every command but `DEV_FLASH_WRITE` leaves every byte of the
flash, that one leaves every byte of the slot the device runs from, and every command but `DEV_SVN_ADVANCE` and `OWNER_KEY_FUSE` leaves
the fuse it writes. -/
def Obligations.OnlyTheirCallsReachFlashAndFuses : Prop :=
  ∀ (i : Instr) (s t : State), exec i s = .next t →
    ((∀ c, i ≠ .devFlashWrite c) → ∀ a, kgetD t.boot.flash a 0xFF = kgetD s.boot.flash a 0xFF) ∧
    (∀ a, a / slotSize = s.boot.slot → kgetD t.boot.flash a 0xFF = kgetD s.boot.flash a 0xFF) ∧
    ((∀ c, i ≠ .devSvnAdvance c) → t.boot.svnMin = s.boot.svnMin) ∧
    ((∀ c, i ≠ .ownerKeyFuse c) → t.boot.ownerHash = s.boot.ownerHash ∧ t.boot.ownerState = s.boot.ownerState)

/-- R111, R116: no step, a reset among them, lowers the security version in the fuses, and the owner key fuses change once at most. -/
def Obligations.FusesNeverGoBack : Prop :=
  ∀ s t : State, Machine.step s = .next t → s.boot.svnMin ≤ t.boot.svnMin ∧
    (s.boot.ownerState ≠ 0 → t.boot.ownerState = s.boot.ownerState ∧ t.boot.ownerHash = s.boot.ownerHash)

/-- The queue of waiting commands (notes/assumptions/10): every step that goes on takes the command at its front and no other, and no
command adds one. -/
def Obligations.AStepTakesOneCommand : Prop :=
  ∀ s t : State, Machine.step s = .next t → t.pending = s.pending.tail
end

