-- ==== Sys2Proof/Laws/Maps.lean ====
section
/-! SUPPORT. The laws of sparse tables: what is read after a write, an erasure or a map, and that each keeps the keys strictly rising. -/

namespace Sys2Proof.Machine

@[simp] theorem kget_kset_same {α : Type} (m : KMap α) (k : Nat) (a : α) : kget (kset m k a) k = some a := by
  induction m with
  | nil => simp [kset, kget]
  | cons h t ih =>
    obtain ⟨j, b⟩ := h
    simp only [kset]
    split
    · simp [kget]
    · split
      · simp [kget]
      · rename_i h1 h2
        simp [kget, Ne.symm h2, ih]

theorem kget_kset_other {α : Type} (m : KMap α) (k j : Nat) (a : α) (h : j ≠ k) : kget (kset m k a) j = kget m j := by
  induction m with
  | nil => simp [kset, kget, h.symm]
  | cons e t ih =>
    obtain ⟨i, b⟩ := e
    simp only [kset]
    split
    · simp [kget, h.symm]
    · split
      · rename_i h2; subst h2; simp [kget, h.symm]
      · simp [kget, ih]

@[simp] theorem kgetD_kset_same {α : Type} (m : KMap α) (k : Nat) (a d : α) : kgetD (kset m k a) k d = a := by simp [kgetD]

theorem kgetD_kset_other {α : Type} (m : KMap α) (k j : Nat) (a d : α) (h : j ≠ k) : kgetD (kset m k a) j d = kgetD m j d := by
  simp [kgetD, kget_kset_other m k j a h]

theorem kgetD_kset {α : Type} (m : KMap α) (k j : Nat) (a d : α) : kgetD (kset m k a) j d = if j = k then a else kgetD m j d := by
  split
  · rename_i h; subst h; simp
  · rename_i h; exact kgetD_kset_other m k j a d h

theorem kget_kmap {α : Type} (m : KMap α) (f : Nat → α → α) (k : Nat) : kget (kmap m f) k = (kget m k).map (f k) := by
  induction m with
  | nil => rfl
  | cons h t ih =>
    obtain ⟨j, b⟩ := h
    simp only [kmap, kget]
    split
    · rename_i h; subst h; rfl
    · exact ih

/-- A write over a write of the same key: only the second is seen. -/
theorem kset_kset {α : Type} (m : KMap α) (k : Nat) (a b : α) : kset (kset m k a) k b = kset m k b := by
  induction m with
  | nil => simp [kset]
  | cons h t ih =>
    obtain ⟨j, c⟩ := h
    simp only [kset]
    split
    · simp [kset]
    · split
      · simp [kset]
      · rename_i h1 h2; simp [kset, h1, h2, ih]

theorem kabove_kset {α : Type} (m : KMap α) (i k : Nat) (a : α) (h : kabove i m = true) (hk : i < k) : kabove i (kset m k a) = true := by
  cases m with
  | nil => simpa [kset, kabove] using hk
  | cons e t =>
    simp only [kset]
    split
    · simpa [kabove] using hk
    · split
      · simpa [kabove] using hk
      · simpa [kabove] using h

/-- A write keeps the keys strictly rising. -/
theorem kwf_kset {α : Type} (m : KMap α) (k : Nat) (a : α) (h : kwf m = true) : kwf (kset m k a) = true := by
  induction m with
  | nil => simp [kset, kwf, kabove]
  | cons e t ih =>
    obtain ⟨j, b⟩ := e
    simp only [kwf, Bool.and_eq_true] at h
    simp only [kset]
    split
    · rename_i hk; simp only [kwf, Bool.and_eq_true]; exact ⟨by simpa [kabove] using hk, h⟩
    · split
      · rename_i h1 h2; subst h2; simp [kwf, h.1, h.2]
      · rename_i h1 h2
        simp [kwf, ih h.2, kabove_kset t j k a h.1 (by omega)]

theorem kabove_trans {α : Type} (t : KMap α) (i j : Nat) (h : kabove j t = true) (hij : i < j) : kabove i t = true := by
  cases t with
  | nil => rfl
  | cons e t => simp only [kabove, decide_eq_true_eq] at *; omega

theorem kabove_kerase {α : Type} (m : KMap α) (i k : Nat) (h : kabove i m = true) (hw : kwf m = true) : kabove i (kerase m k) = true := by
  cases m with
  | nil => rfl
  | cons e t =>
    obtain ⟨j, b⟩ := e
    simp only [kwf, Bool.and_eq_true] at hw
    simp only [kerase]
    split
    · exact kabove_trans t i j hw.1 (by simpa [kabove] using h)
    · exact h

/-- An erasure keeps the keys strictly rising. -/
theorem kwf_kerase {α : Type} (m : KMap α) (k : Nat) (h : kwf m = true) : kwf (kerase m k) = true := by
  induction m with
  | nil => rfl
  | cons e t ih =>
    obtain ⟨j, b⟩ := e
    have h' := h
    simp only [kwf, Bool.and_eq_true] at h
    simp only [kerase]
    split
    · exact h.2
    · simp [kwf, ih h.2, kabove_kerase t j k h.1 h.2]

theorem kget_below {α : Type} (m : KMap α) (k : Nat) (h : kabove k m = true) (hw : kwf m = true) : kget m k = none := by
  induction m with
  | nil => rfl
  | cons e t ih =>
    obtain ⟨j, b⟩ := e
    simp only [kwf, Bool.and_eq_true] at hw
    simp only [kabove, decide_eq_true_eq] at h
    simp only [kget]
    rw [if_neg (by omega)]
    exact ih (kabove_trans t k j hw.1 h) hw.2

/-- An erased key of a table in canonical form is listed no more. -/
theorem kget_kerase_same {α : Type} (m : KMap α) (k : Nat) (h : kwf m = true) : kget (kerase m k) k = none := by
  induction m with
  | nil => rfl
  | cons e t ih =>
    obtain ⟨j, b⟩ := e
    simp only [kwf, Bool.and_eq_true] at h
    simp only [kerase]
    split
    · rename_i hk; subst hk; exact kget_below t j h.1 h.2
    · rename_i hk; simp [kget, hk, ih h.2]

theorem kget_kerase_other {α : Type} (m : KMap α) (k j : Nat) (h : j ≠ k) : kget (kerase m k) j = kget m j := by
  induction m with
  | nil => rfl
  | cons e t ih =>
    obtain ⟨i, b⟩ := e
    simp only [kerase]
    split
    · rename_i hk; subst hk; simp [kget, h.symm]
    · simp [kget, ih]

end Sys2Proof.Machine
end

