-- ==== Sys2Proof/Laws/State.lean ====
section
/-! SUPPORT. One lemma per part of the State for each update: what it writes reads back, and what it leaves. -/

namespace Sys2Proof.Machine

/-! `emit` -/

@[simp] theorem emit_tb (o : Output) (s : State) : (emit o s).tb = s.tb := rfl
@[simp] theorem emit_ctl (o : Output) (s : State) : (emit o s).ctl = s.ctl := rfl
@[simp] theorem emit_boot (o : Output) (s : State) : (emit o s).boot = s.boot := rfl
@[simp] theorem emit_pwr (o : Output) (s : State) : (emit o s).pwr = s.pwr := rfl
@[simp] theorem emit_fwd (o : Output) (s : State) : (emit o s).fwd = s.fwd := rfl
@[simp] theorem emit_pon (o : Output) (s : State) : (emit o s).pon = s.pon := rfl
@[simp] theorem emit_time (o : Output) (s : State) : (emit o s).time = s.time := rfl
@[simp] theorem emit_opt (o : Output) (s : State) : (emit o s).opt = s.opt := rfl
@[simp] theorem emit_lane (o : Output) (s : State) : (emit o s).lane = s.lane := rfl
@[simp] theorem emit_ciph (o : Output) (s : State) : (emit o s).ciph = s.ciph := rfl
@[simp] theorem emit_tdm (o : Output) (s : State) : (emit o s).tdm = s.tdm := rfl
@[simp] theorem emit_red (o : Output) (s : State) : (emit o s).red = s.red := rfl
@[simp] theorem emit_free (o : Output) (s : State) : (emit o s).free = s.free := rfl
@[simp] theorem emit_pending (o : Output) (s : State) : (emit o s).pending = s.pending := rfl

/-! `setChan` -/

@[simp] theorem setChan_tb (ch : Nat) (c : Channel) (s : State) : (setChan ch c s).tb = s.tb := rfl
@[simp] theorem setChan_boot (ch : Nat) (c : Channel) (s : State) : (setChan ch c s).boot = s.boot := rfl
@[simp] theorem setChan_pwr (ch : Nat) (c : Channel) (s : State) : (setChan ch c s).pwr = s.pwr := rfl
@[simp] theorem setChan_fwd (ch : Nat) (c : Channel) (s : State) : (setChan ch c s).fwd = s.fwd := rfl
@[simp] theorem setChan_pon (ch : Nat) (c : Channel) (s : State) : (setChan ch c s).pon = s.pon := rfl
@[simp] theorem setChan_time (ch : Nat) (c : Channel) (s : State) : (setChan ch c s).time = s.time := rfl
@[simp] theorem setChan_opt (ch : Nat) (c : Channel) (s : State) : (setChan ch c s).opt = s.opt := rfl
@[simp] theorem setChan_lane (ch : Nat) (c : Channel) (s : State) : (setChan ch c s).lane = s.lane := rfl
@[simp] theorem setChan_ciph (ch : Nat) (c : Channel) (s : State) : (setChan ch c s).ciph = s.ciph := rfl
@[simp] theorem setChan_tdm (ch : Nat) (c : Channel) (s : State) : (setChan ch c s).tdm = s.tdm := rfl
@[simp] theorem setChan_red (ch : Nat) (c : Channel) (s : State) : (setChan ch c s).red = s.red := rfl
@[simp] theorem setChan_out (ch : Nat) (c : Channel) (s : State) : (setChan ch c s).out = s.out := rfl
@[simp] theorem setChan_free (ch : Nat) (c : Channel) (s : State) : (setChan ch c s).free = s.free := rfl
@[simp] theorem setChan_pending (ch : Nat) (c : Channel) (s : State) : (setChan ch c s).pending = s.pending := rfl
@[simp] theorem chanOf_setChan (ch : Nat) (c : Channel) (s : State) : chanOf (setChan ch c s) ch = c := by simp [chanOf, setChan]
theorem chanOf_setChan_other (ch : Nat) (c : Channel) (s : State) (ch' : Nat) (h : ch' ≠ ch) : chanOf (setChan ch c s) ch' = chanOf s ch' := by
  simp [chanOf, setChan, kgetD_kset_other _ _ _ _ _ h]
@[simp] theorem funcOf_setChan (ch : Nat) (c : Channel) (s : State) (fn' : Nat) : funcOf (setChan ch c s) fn' = funcOf s fn' := rfl
@[simp] theorem cleatOf_setChan (ch : Nat) (c : Channel) (s : State) (n' : Nat) : cleatOf (setChan ch c s) n' = cleatOf s n' := rfl

/-! `setFunc` -/

@[simp] theorem setFunc_tb (fn : Nat) (f : Func) (s : State) : (setFunc fn f s).tb = s.tb := rfl
@[simp] theorem setFunc_boot (fn : Nat) (f : Func) (s : State) : (setFunc fn f s).boot = s.boot := rfl
@[simp] theorem setFunc_pwr (fn : Nat) (f : Func) (s : State) : (setFunc fn f s).pwr = s.pwr := rfl
@[simp] theorem setFunc_fwd (fn : Nat) (f : Func) (s : State) : (setFunc fn f s).fwd = s.fwd := rfl
@[simp] theorem setFunc_pon (fn : Nat) (f : Func) (s : State) : (setFunc fn f s).pon = s.pon := rfl
@[simp] theorem setFunc_time (fn : Nat) (f : Func) (s : State) : (setFunc fn f s).time = s.time := rfl
@[simp] theorem setFunc_opt (fn : Nat) (f : Func) (s : State) : (setFunc fn f s).opt = s.opt := rfl
@[simp] theorem setFunc_lane (fn : Nat) (f : Func) (s : State) : (setFunc fn f s).lane = s.lane := rfl
@[simp] theorem setFunc_ciph (fn : Nat) (f : Func) (s : State) : (setFunc fn f s).ciph = s.ciph := rfl
@[simp] theorem setFunc_tdm (fn : Nat) (f : Func) (s : State) : (setFunc fn f s).tdm = s.tdm := rfl
@[simp] theorem setFunc_red (fn : Nat) (f : Func) (s : State) : (setFunc fn f s).red = s.red := rfl
@[simp] theorem setFunc_out (fn : Nat) (f : Func) (s : State) : (setFunc fn f s).out = s.out := rfl
@[simp] theorem setFunc_free (fn : Nat) (f : Func) (s : State) : (setFunc fn f s).free = s.free := rfl
@[simp] theorem setFunc_pending (fn : Nat) (f : Func) (s : State) : (setFunc fn f s).pending = s.pending := rfl
@[simp] theorem chanOf_setFunc (fn : Nat) (f : Func) (s : State) (ch' : Nat) : chanOf (setFunc fn f s) ch' = chanOf s ch' := rfl
@[simp] theorem funcOf_setFunc (fn : Nat) (f : Func) (s : State) : funcOf (setFunc fn f s) fn = f := by simp [funcOf, setFunc]
theorem funcOf_setFunc_other (fn : Nat) (f : Func) (s : State) (fn' : Nat) (h : fn' ≠ fn) : funcOf (setFunc fn f s) fn' = funcOf s fn' := by
  simp [funcOf, setFunc, kgetD_kset_other _ _ _ _ _ h]
@[simp] theorem cleatOf_setFunc (fn : Nat) (f : Func) (s : State) (n' : Nat) : cleatOf (setFunc fn f s) n' = cleatOf s n' := rfl

/-! `drawn` -/

@[simp] theorem drawn_tb (s : State) : (drawn s).tb = s.tb := rfl
@[simp] theorem drawn_ctl (s : State) : (drawn s).ctl = s.ctl := rfl
@[simp] theorem drawn_boot (s : State) : (drawn s).boot = s.boot := rfl
@[simp] theorem drawn_pwr (s : State) : (drawn s).pwr = s.pwr := rfl
@[simp] theorem drawn_fwd (s : State) : (drawn s).fwd = s.fwd := rfl
@[simp] theorem drawn_pon (s : State) : (drawn s).pon = s.pon := rfl
@[simp] theorem drawn_time (s : State) : (drawn s).time = s.time := rfl
@[simp] theorem drawn_opt (s : State) : (drawn s).opt = s.opt := rfl
@[simp] theorem drawn_lane (s : State) : (drawn s).lane = s.lane := rfl
@[simp] theorem drawn_ciph (s : State) : (drawn s).ciph = s.ciph := rfl
@[simp] theorem drawn_tdm (s : State) : (drawn s).tdm = s.tdm := rfl
@[simp] theorem drawn_red (s : State) : (drawn s).red = s.red := rfl
@[simp] theorem drawn_out (s : State) : (drawn s).out = s.out := rfl
@[simp] theorem drawn_pending (s : State) : (drawn s).pending = s.pending := rfl

/-! `cnt` -/

@[simp] theorem cnt_tb (id n : Nat) (s : State) : (cnt id n s).tb = s.tb := rfl
@[simp] theorem cnt_boot (id n : Nat) (s : State) : (cnt id n s).boot = s.boot := rfl
@[simp] theorem cnt_pwr (id n : Nat) (s : State) : (cnt id n s).pwr = s.pwr := rfl
@[simp] theorem cnt_fwd (id n : Nat) (s : State) : (cnt id n s).fwd = s.fwd := rfl
@[simp] theorem cnt_pon (id n : Nat) (s : State) : (cnt id n s).pon = s.pon := rfl
@[simp] theorem cnt_time (id n : Nat) (s : State) : (cnt id n s).time = s.time := rfl
@[simp] theorem cnt_opt (id n : Nat) (s : State) : (cnt id n s).opt = s.opt := rfl
@[simp] theorem cnt_lane (id n : Nat) (s : State) : (cnt id n s).lane = s.lane := rfl
@[simp] theorem cnt_ciph (id n : Nat) (s : State) : (cnt id n s).ciph = s.ciph := rfl
@[simp] theorem cnt_tdm (id n : Nat) (s : State) : (cnt id n s).tdm = s.tdm := rfl
@[simp] theorem cnt_red (id n : Nat) (s : State) : (cnt id n s).red = s.red := rfl
@[simp] theorem cnt_out (id n : Nat) (s : State) : (cnt id n s).out = s.out := rfl
@[simp] theorem cnt_free (id n : Nat) (s : State) : (cnt id n s).free = s.free := rfl
@[simp] theorem cnt_pending (id n : Nat) (s : State) : (cnt id n s).pending = s.pending := rfl

/-! `gaugeMax` -/

@[simp] theorem gaugeMax_tb (id n : Nat) (s : State) : (gaugeMax id n s).tb = s.tb := rfl
@[simp] theorem gaugeMax_boot (id n : Nat) (s : State) : (gaugeMax id n s).boot = s.boot := rfl
@[simp] theorem gaugeMax_pwr (id n : Nat) (s : State) : (gaugeMax id n s).pwr = s.pwr := rfl
@[simp] theorem gaugeMax_fwd (id n : Nat) (s : State) : (gaugeMax id n s).fwd = s.fwd := rfl
@[simp] theorem gaugeMax_pon (id n : Nat) (s : State) : (gaugeMax id n s).pon = s.pon := rfl
@[simp] theorem gaugeMax_time (id n : Nat) (s : State) : (gaugeMax id n s).time = s.time := rfl
@[simp] theorem gaugeMax_opt (id n : Nat) (s : State) : (gaugeMax id n s).opt = s.opt := rfl
@[simp] theorem gaugeMax_lane (id n : Nat) (s : State) : (gaugeMax id n s).lane = s.lane := rfl
@[simp] theorem gaugeMax_ciph (id n : Nat) (s : State) : (gaugeMax id n s).ciph = s.ciph := rfl
@[simp] theorem gaugeMax_tdm (id n : Nat) (s : State) : (gaugeMax id n s).tdm = s.tdm := rfl
@[simp] theorem gaugeMax_red (id n : Nat) (s : State) : (gaugeMax id n s).red = s.red := rfl
@[simp] theorem gaugeMax_out (id n : Nat) (s : State) : (gaugeMax id n s).out = s.out := rfl
@[simp] theorem gaugeMax_free (id n : Nat) (s : State) : (gaugeMax id n s).free = s.free := rfl
@[simp] theorem gaugeMax_pending (id n : Nat) (s : State) : (gaugeMax id n s).pending = s.pending := rfl

/-! `gaugeMin` -/

@[simp] theorem gaugeMin_tb (id n : Nat) (s : State) : (gaugeMin id n s).tb = s.tb := rfl
@[simp] theorem gaugeMin_boot (id n : Nat) (s : State) : (gaugeMin id n s).boot = s.boot := rfl
@[simp] theorem gaugeMin_pwr (id n : Nat) (s : State) : (gaugeMin id n s).pwr = s.pwr := rfl
@[simp] theorem gaugeMin_fwd (id n : Nat) (s : State) : (gaugeMin id n s).fwd = s.fwd := rfl
@[simp] theorem gaugeMin_pon (id n : Nat) (s : State) : (gaugeMin id n s).pon = s.pon := rfl
@[simp] theorem gaugeMin_time (id n : Nat) (s : State) : (gaugeMin id n s).time = s.time := rfl
@[simp] theorem gaugeMin_opt (id n : Nat) (s : State) : (gaugeMin id n s).opt = s.opt := rfl
@[simp] theorem gaugeMin_lane (id n : Nat) (s : State) : (gaugeMin id n s).lane = s.lane := rfl
@[simp] theorem gaugeMin_ciph (id n : Nat) (s : State) : (gaugeMin id n s).ciph = s.ciph := rfl
@[simp] theorem gaugeMin_tdm (id n : Nat) (s : State) : (gaugeMin id n s).tdm = s.tdm := rfl
@[simp] theorem gaugeMin_red (id n : Nat) (s : State) : (gaugeMin id n s).red = s.red := rfl
@[simp] theorem gaugeMin_out (id n : Nat) (s : State) : (gaugeMin id n s).out = s.out := rfl
@[simp] theorem gaugeMin_free (id n : Nat) (s : State) : (gaugeMin id n s).free = s.free := rfl
@[simp] theorem gaugeMin_pending (id n : Nat) (s : State) : (gaugeMin id n s).pending = s.pending := rfl

/-! `setDom` -/

@[simp] theorem setDom_tb (d : Nat) (x : Domain) (s : State) : (setDom d x s).tb = s.tb := rfl
@[simp] theorem setDom_ctl (d : Nat) (x : Domain) (s : State) : (setDom d x s).ctl = s.ctl := rfl
@[simp] theorem setDom_boot (d : Nat) (x : Domain) (s : State) : (setDom d x s).boot = s.boot := rfl
@[simp] theorem setDom_fwd (d : Nat) (x : Domain) (s : State) : (setDom d x s).fwd = s.fwd := rfl
@[simp] theorem setDom_pon (d : Nat) (x : Domain) (s : State) : (setDom d x s).pon = s.pon := rfl
@[simp] theorem setDom_time (d : Nat) (x : Domain) (s : State) : (setDom d x s).time = s.time := rfl
@[simp] theorem setDom_opt (d : Nat) (x : Domain) (s : State) : (setDom d x s).opt = s.opt := rfl
@[simp] theorem setDom_lane (d : Nat) (x : Domain) (s : State) : (setDom d x s).lane = s.lane := rfl
@[simp] theorem setDom_ciph (d : Nat) (x : Domain) (s : State) : (setDom d x s).ciph = s.ciph := rfl
@[simp] theorem setDom_tdm (d : Nat) (x : Domain) (s : State) : (setDom d x s).tdm = s.tdm := rfl
@[simp] theorem setDom_red (d : Nat) (x : Domain) (s : State) : (setDom d x s).red = s.red := rfl
@[simp] theorem setDom_out (d : Nat) (x : Domain) (s : State) : (setDom d x s).out = s.out := rfl
@[simp] theorem setDom_free (d : Nat) (x : Domain) (s : State) : (setDom d x s).free = s.free := rfl
@[simp] theorem setDom_pending (d : Nat) (x : Domain) (s : State) : (setDom d x s).pending = s.pending := rfl
@[simp] theorem domOf_setDom (d : Nat) (x : Domain) (s : State) : domOf (setDom d x s) d = x := by simp [domOf, setDom]
theorem domOf_setDom_other (d : Nat) (x : Domain) (s : State) (d' : Nat) (h : d' ≠ d) : domOf (setDom d x s) d' = domOf s d' := by
  simp [domOf, setDom, kgetD_kset_other _ _ _ _ _ h]

/-! `setSpan` -/

@[simp] theorem setSpan_tb (sp : Nat) (x : Span) (s : State) : (setSpan sp x s).tb = s.tb := rfl
@[simp] theorem setSpan_ctl (sp : Nat) (x : Span) (s : State) : (setSpan sp x s).ctl = s.ctl := rfl
@[simp] theorem setSpan_boot (sp : Nat) (x : Span) (s : State) : (setSpan sp x s).boot = s.boot := rfl
@[simp] theorem setSpan_pwr (sp : Nat) (x : Span) (s : State) : (setSpan sp x s).pwr = s.pwr := rfl
@[simp] theorem setSpan_fwd (sp : Nat) (x : Span) (s : State) : (setSpan sp x s).fwd = s.fwd := rfl
@[simp] theorem setSpan_time (sp : Nat) (x : Span) (s : State) : (setSpan sp x s).time = s.time := rfl
@[simp] theorem setSpan_opt (sp : Nat) (x : Span) (s : State) : (setSpan sp x s).opt = s.opt := rfl
@[simp] theorem setSpan_lane (sp : Nat) (x : Span) (s : State) : (setSpan sp x s).lane = s.lane := rfl
@[simp] theorem setSpan_ciph (sp : Nat) (x : Span) (s : State) : (setSpan sp x s).ciph = s.ciph := rfl
@[simp] theorem setSpan_tdm (sp : Nat) (x : Span) (s : State) : (setSpan sp x s).tdm = s.tdm := rfl
@[simp] theorem setSpan_red (sp : Nat) (x : Span) (s : State) : (setSpan sp x s).red = s.red := rfl
@[simp] theorem setSpan_out (sp : Nat) (x : Span) (s : State) : (setSpan sp x s).out = s.out := rfl
@[simp] theorem setSpan_free (sp : Nat) (x : Span) (s : State) : (setSpan sp x s).free = s.free := rfl
@[simp] theorem setSpan_pending (sp : Nat) (x : Span) (s : State) : (setSpan sp x s).pending = s.pending := rfl
@[simp] theorem spanOf_setSpan (sp : Nat) (x : Span) (s : State) : spanOf (setSpan sp x s) sp = x := by simp [spanOf, setSpan]
theorem spanOf_setSpan_other (sp : Nat) (x : Span) (s : State) (sp' : Nat) (h : sp' ≠ sp) : spanOf (setSpan sp x s) sp' = spanOf s sp' := by
  simp [spanOf, setSpan, kgetD_kset_other _ _ _ _ _ h]
@[simp] theorem pierOf_setSpan (sp : Nat) (x : Span) (s : State) (sp' p' : Nat) : pierOf (setSpan sp x s) sp' p' = pierOf s sp' p' := rfl
@[simp] theorem onuOf_setSpan (sp : Nat) (x : Span) (s : State) (sp' o' : Nat) : onuOf (setSpan sp x s) sp' o' = onuOf s sp' o' := rfl

/-! `setPier` -/

@[simp] theorem setPier_tb (sp p : Nat) (x : Pier) (s : State) : (setPier sp p x s).tb = s.tb := rfl
@[simp] theorem setPier_ctl (sp p : Nat) (x : Pier) (s : State) : (setPier sp p x s).ctl = s.ctl := rfl
@[simp] theorem setPier_boot (sp p : Nat) (x : Pier) (s : State) : (setPier sp p x s).boot = s.boot := rfl
@[simp] theorem setPier_pwr (sp p : Nat) (x : Pier) (s : State) : (setPier sp p x s).pwr = s.pwr := rfl
@[simp] theorem setPier_fwd (sp p : Nat) (x : Pier) (s : State) : (setPier sp p x s).fwd = s.fwd := rfl
@[simp] theorem setPier_time (sp p : Nat) (x : Pier) (s : State) : (setPier sp p x s).time = s.time := rfl
@[simp] theorem setPier_opt (sp p : Nat) (x : Pier) (s : State) : (setPier sp p x s).opt = s.opt := rfl
@[simp] theorem setPier_lane (sp p : Nat) (x : Pier) (s : State) : (setPier sp p x s).lane = s.lane := rfl
@[simp] theorem setPier_ciph (sp p : Nat) (x : Pier) (s : State) : (setPier sp p x s).ciph = s.ciph := rfl
@[simp] theorem setPier_tdm (sp p : Nat) (x : Pier) (s : State) : (setPier sp p x s).tdm = s.tdm := rfl
@[simp] theorem setPier_red (sp p : Nat) (x : Pier) (s : State) : (setPier sp p x s).red = s.red := rfl
@[simp] theorem setPier_out (sp p : Nat) (x : Pier) (s : State) : (setPier sp p x s).out = s.out := rfl
@[simp] theorem setPier_free (sp p : Nat) (x : Pier) (s : State) : (setPier sp p x s).free = s.free := rfl
@[simp] theorem setPier_pending (sp p : Nat) (x : Pier) (s : State) : (setPier sp p x s).pending = s.pending := rfl
@[simp] theorem spanOf_setPier (sp p : Nat) (x : Pier) (s : State) (sp' : Nat) : spanOf (setPier sp p x s) sp' = spanOf s sp' := rfl
@[simp] theorem pierOf_setPier (sp p : Nat) (x : Pier) (s : State) : pierOf (setPier sp p x s) sp p = x := by simp [pierOf, setPier]
@[simp] theorem onuOf_setPier (sp p : Nat) (x : Pier) (s : State) (sp' o' : Nat) : onuOf (setPier sp p x s) sp' o' = onuOf s sp' o' := rfl

/-! `setOnu` -/

@[simp] theorem setOnu_tb (sp o : Nat) (x : Onu) (s : State) : (setOnu sp o x s).tb = s.tb := rfl
@[simp] theorem setOnu_ctl (sp o : Nat) (x : Onu) (s : State) : (setOnu sp o x s).ctl = s.ctl := rfl
@[simp] theorem setOnu_boot (sp o : Nat) (x : Onu) (s : State) : (setOnu sp o x s).boot = s.boot := rfl
@[simp] theorem setOnu_pwr (sp o : Nat) (x : Onu) (s : State) : (setOnu sp o x s).pwr = s.pwr := rfl
@[simp] theorem setOnu_fwd (sp o : Nat) (x : Onu) (s : State) : (setOnu sp o x s).fwd = s.fwd := rfl
@[simp] theorem setOnu_time (sp o : Nat) (x : Onu) (s : State) : (setOnu sp o x s).time = s.time := rfl
@[simp] theorem setOnu_opt (sp o : Nat) (x : Onu) (s : State) : (setOnu sp o x s).opt = s.opt := rfl
@[simp] theorem setOnu_lane (sp o : Nat) (x : Onu) (s : State) : (setOnu sp o x s).lane = s.lane := rfl
@[simp] theorem setOnu_ciph (sp o : Nat) (x : Onu) (s : State) : (setOnu sp o x s).ciph = s.ciph := rfl
@[simp] theorem setOnu_tdm (sp o : Nat) (x : Onu) (s : State) : (setOnu sp o x s).tdm = s.tdm := rfl
@[simp] theorem setOnu_red (sp o : Nat) (x : Onu) (s : State) : (setOnu sp o x s).red = s.red := rfl
@[simp] theorem setOnu_out (sp o : Nat) (x : Onu) (s : State) : (setOnu sp o x s).out = s.out := rfl
@[simp] theorem setOnu_free (sp o : Nat) (x : Onu) (s : State) : (setOnu sp o x s).free = s.free := rfl
@[simp] theorem setOnu_pending (sp o : Nat) (x : Onu) (s : State) : (setOnu sp o x s).pending = s.pending := rfl
@[simp] theorem spanOf_setOnu (sp o : Nat) (x : Onu) (s : State) (sp' : Nat) : spanOf (setOnu sp o x s) sp' = spanOf s sp' := rfl
@[simp] theorem pierOf_setOnu (sp o : Nat) (x : Onu) (s : State) (sp' p' : Nat) : pierOf (setOnu sp o x s) sp' p' = pierOf s sp' p' := rfl
@[simp] theorem onuOf_setOnu (sp o : Nat) (x : Onu) (s : State) : onuOf (setOnu sp o x s) sp o = x := by simp [onuOf, setOnu]

/-! `setAlloc` -/

@[simp] theorem setAlloc_tb (sp a : Nat) (x : Alloc) (s : State) : (setAlloc sp a x s).tb = s.tb := rfl
@[simp] theorem setAlloc_ctl (sp a : Nat) (x : Alloc) (s : State) : (setAlloc sp a x s).ctl = s.ctl := rfl
@[simp] theorem setAlloc_boot (sp a : Nat) (x : Alloc) (s : State) : (setAlloc sp a x s).boot = s.boot := rfl
@[simp] theorem setAlloc_pwr (sp a : Nat) (x : Alloc) (s : State) : (setAlloc sp a x s).pwr = s.pwr := rfl
@[simp] theorem setAlloc_fwd (sp a : Nat) (x : Alloc) (s : State) : (setAlloc sp a x s).fwd = s.fwd := rfl
@[simp] theorem setAlloc_time (sp a : Nat) (x : Alloc) (s : State) : (setAlloc sp a x s).time = s.time := rfl
@[simp] theorem setAlloc_opt (sp a : Nat) (x : Alloc) (s : State) : (setAlloc sp a x s).opt = s.opt := rfl
@[simp] theorem setAlloc_lane (sp a : Nat) (x : Alloc) (s : State) : (setAlloc sp a x s).lane = s.lane := rfl
@[simp] theorem setAlloc_ciph (sp a : Nat) (x : Alloc) (s : State) : (setAlloc sp a x s).ciph = s.ciph := rfl
@[simp] theorem setAlloc_tdm (sp a : Nat) (x : Alloc) (s : State) : (setAlloc sp a x s).tdm = s.tdm := rfl
@[simp] theorem setAlloc_red (sp a : Nat) (x : Alloc) (s : State) : (setAlloc sp a x s).red = s.red := rfl
@[simp] theorem setAlloc_out (sp a : Nat) (x : Alloc) (s : State) : (setAlloc sp a x s).out = s.out := rfl
@[simp] theorem setAlloc_free (sp a : Nat) (x : Alloc) (s : State) : (setAlloc sp a x s).free = s.free := rfl
@[simp] theorem setAlloc_pending (sp a : Nat) (x : Alloc) (s : State) : (setAlloc sp a x s).pending = s.pending := rfl
@[simp] theorem spanOf_setAlloc (sp a : Nat) (x : Alloc) (s : State) (sp' : Nat) : spanOf (setAlloc sp a x s) sp' = spanOf s sp' := rfl
@[simp] theorem pierOf_setAlloc (sp a : Nat) (x : Alloc) (s : State) (sp' p' : Nat) : pierOf (setAlloc sp a x s) sp' p' = pierOf s sp' p' := rfl
@[simp] theorem onuOf_setAlloc (sp a : Nat) (x : Alloc) (s : State) (sp' o' : Nat) : onuOf (setAlloc sp a x s) sp' o' = onuOf s sp' o' := rfl

/-! `setBus` -/

@[simp] theorem setBus_tb (k : Nat) (x : Bus) (s : State) : (setBus k x s).tb = s.tb := rfl
@[simp] theorem setBus_ctl (k : Nat) (x : Bus) (s : State) : (setBus k x s).ctl = s.ctl := rfl
@[simp] theorem setBus_boot (k : Nat) (x : Bus) (s : State) : (setBus k x s).boot = s.boot := rfl
@[simp] theorem setBus_pwr (k : Nat) (x : Bus) (s : State) : (setBus k x s).pwr = s.pwr := rfl
@[simp] theorem setBus_fwd (k : Nat) (x : Bus) (s : State) : (setBus k x s).fwd = s.fwd := rfl
@[simp] theorem setBus_pon (k : Nat) (x : Bus) (s : State) : (setBus k x s).pon = s.pon := rfl
@[simp] theorem setBus_time (k : Nat) (x : Bus) (s : State) : (setBus k x s).time = s.time := rfl
@[simp] theorem setBus_lane (k : Nat) (x : Bus) (s : State) : (setBus k x s).lane = s.lane := rfl
@[simp] theorem setBus_ciph (k : Nat) (x : Bus) (s : State) : (setBus k x s).ciph = s.ciph := rfl
@[simp] theorem setBus_tdm (k : Nat) (x : Bus) (s : State) : (setBus k x s).tdm = s.tdm := rfl
@[simp] theorem setBus_red (k : Nat) (x : Bus) (s : State) : (setBus k x s).red = s.red := rfl
@[simp] theorem setBus_out (k : Nat) (x : Bus) (s : State) : (setBus k x s).out = s.out := rfl
@[simp] theorem setBus_free (k : Nat) (x : Bus) (s : State) : (setBus k x s).free = s.free := rfl
@[simp] theorem setBus_pending (k : Nat) (x : Bus) (s : State) : (setBus k x s).pending = s.pending := rfl
@[simp] theorem loopBus_setBus (k : Nat) (x : Bus) (s : State) : loopBus (setBus k x s) k = x := by simp [loopBus, setBus]
theorem loopBus_setBus_other (k : Nat) (x : Bus) (s : State) (k' : Nat) (h : k' ≠ k) : loopBus (setBus k x s) k' = loopBus s k' := by
  simp [loopBus, setBus, kgetD_kset_other _ _ _ _ _ h]
@[simp] theorem opticOf_setBus (k : Nat) (x : Bus) (s : State) (sp' p' : Nat) : opticOf (setBus k x s) sp' p' = opticOf s sp' p' := rfl
@[simp] theorem rssiOf_setBus (k : Nat) (x : Bus) (s : State) (sp' o' : Nat) : rssiOf (setBus k x s) sp' o' = rssiOf s sp' o' := rfl

/-! `setOptic` -/

@[simp] theorem setOptic_tb (sp p : Nat) (x : Optic) (s : State) : (setOptic sp p x s).tb = s.tb := rfl
@[simp] theorem setOptic_ctl (sp p : Nat) (x : Optic) (s : State) : (setOptic sp p x s).ctl = s.ctl := rfl
@[simp] theorem setOptic_boot (sp p : Nat) (x : Optic) (s : State) : (setOptic sp p x s).boot = s.boot := rfl
@[simp] theorem setOptic_pwr (sp p : Nat) (x : Optic) (s : State) : (setOptic sp p x s).pwr = s.pwr := rfl
@[simp] theorem setOptic_fwd (sp p : Nat) (x : Optic) (s : State) : (setOptic sp p x s).fwd = s.fwd := rfl
@[simp] theorem setOptic_pon (sp p : Nat) (x : Optic) (s : State) : (setOptic sp p x s).pon = s.pon := rfl
@[simp] theorem setOptic_time (sp p : Nat) (x : Optic) (s : State) : (setOptic sp p x s).time = s.time := rfl
@[simp] theorem setOptic_lane (sp p : Nat) (x : Optic) (s : State) : (setOptic sp p x s).lane = s.lane := rfl
@[simp] theorem setOptic_ciph (sp p : Nat) (x : Optic) (s : State) : (setOptic sp p x s).ciph = s.ciph := rfl
@[simp] theorem setOptic_tdm (sp p : Nat) (x : Optic) (s : State) : (setOptic sp p x s).tdm = s.tdm := rfl
@[simp] theorem setOptic_red (sp p : Nat) (x : Optic) (s : State) : (setOptic sp p x s).red = s.red := rfl
@[simp] theorem setOptic_out (sp p : Nat) (x : Optic) (s : State) : (setOptic sp p x s).out = s.out := rfl
@[simp] theorem setOptic_free (sp p : Nat) (x : Optic) (s : State) : (setOptic sp p x s).free = s.free := rfl
@[simp] theorem setOptic_pending (sp p : Nat) (x : Optic) (s : State) : (setOptic sp p x s).pending = s.pending := rfl
@[simp] theorem loopBus_setOptic (sp p : Nat) (x : Optic) (s : State) (k' : Nat) : loopBus (setOptic sp p x s) k' = loopBus s k' := rfl
@[simp] theorem opticOf_setOptic (sp p : Nat) (x : Optic) (s : State) : opticOf (setOptic sp p x s) sp p = x := by simp [opticOf, setOptic]
@[simp] theorem rssiOf_setOptic (sp p : Nat) (x : Optic) (s : State) (sp' o' : Nat) : rssiOf (setOptic sp p x s) sp' o' = rssiOf s sp' o' := rfl

/-! `setRssi` -/

@[simp] theorem setRssi_tb (sp o : Nat) (x : Rssi) (s : State) : (setRssi sp o x s).tb = s.tb := rfl
@[simp] theorem setRssi_ctl (sp o : Nat) (x : Rssi) (s : State) : (setRssi sp o x s).ctl = s.ctl := rfl
@[simp] theorem setRssi_boot (sp o : Nat) (x : Rssi) (s : State) : (setRssi sp o x s).boot = s.boot := rfl
@[simp] theorem setRssi_pwr (sp o : Nat) (x : Rssi) (s : State) : (setRssi sp o x s).pwr = s.pwr := rfl
@[simp] theorem setRssi_fwd (sp o : Nat) (x : Rssi) (s : State) : (setRssi sp o x s).fwd = s.fwd := rfl
@[simp] theorem setRssi_pon (sp o : Nat) (x : Rssi) (s : State) : (setRssi sp o x s).pon = s.pon := rfl
@[simp] theorem setRssi_time (sp o : Nat) (x : Rssi) (s : State) : (setRssi sp o x s).time = s.time := rfl
@[simp] theorem setRssi_lane (sp o : Nat) (x : Rssi) (s : State) : (setRssi sp o x s).lane = s.lane := rfl
@[simp] theorem setRssi_ciph (sp o : Nat) (x : Rssi) (s : State) : (setRssi sp o x s).ciph = s.ciph := rfl
@[simp] theorem setRssi_tdm (sp o : Nat) (x : Rssi) (s : State) : (setRssi sp o x s).tdm = s.tdm := rfl
@[simp] theorem setRssi_red (sp o : Nat) (x : Rssi) (s : State) : (setRssi sp o x s).red = s.red := rfl
@[simp] theorem setRssi_out (sp o : Nat) (x : Rssi) (s : State) : (setRssi sp o x s).out = s.out := rfl
@[simp] theorem setRssi_free (sp o : Nat) (x : Rssi) (s : State) : (setRssi sp o x s).free = s.free := rfl
@[simp] theorem setRssi_pending (sp o : Nat) (x : Rssi) (s : State) : (setRssi sp o x s).pending = s.pending := rfl
@[simp] theorem loopBus_setRssi (sp o : Nat) (x : Rssi) (s : State) (k' : Nat) : loopBus (setRssi sp o x s) k' = loopBus s k' := rfl
@[simp] theorem opticOf_setRssi (sp o : Nat) (x : Rssi) (s : State) (sp' p' : Nat) : opticOf (setRssi sp o x s) sp' p' = opticOf s sp' p' := rfl
@[simp] theorem rssiOf_setRssi (sp o : Nat) (x : Rssi) (s : State) : rssiOf (setRssi sp o x s) sp o = x := by simp [rssiOf, setRssi]

/-! `setLane` -/

@[simp] theorem setLane_tb (n : Nat) (x : Lane) (s : State) : (setLane n x s).tb = s.tb := rfl
@[simp] theorem setLane_ctl (n : Nat) (x : Lane) (s : State) : (setLane n x s).ctl = s.ctl := rfl
@[simp] theorem setLane_boot (n : Nat) (x : Lane) (s : State) : (setLane n x s).boot = s.boot := rfl
@[simp] theorem setLane_pwr (n : Nat) (x : Lane) (s : State) : (setLane n x s).pwr = s.pwr := rfl
@[simp] theorem setLane_fwd (n : Nat) (x : Lane) (s : State) : (setLane n x s).fwd = s.fwd := rfl
@[simp] theorem setLane_pon (n : Nat) (x : Lane) (s : State) : (setLane n x s).pon = s.pon := rfl
@[simp] theorem setLane_time (n : Nat) (x : Lane) (s : State) : (setLane n x s).time = s.time := rfl
@[simp] theorem setLane_opt (n : Nat) (x : Lane) (s : State) : (setLane n x s).opt = s.opt := rfl
@[simp] theorem setLane_ciph (n : Nat) (x : Lane) (s : State) : (setLane n x s).ciph = s.ciph := rfl
@[simp] theorem setLane_tdm (n : Nat) (x : Lane) (s : State) : (setLane n x s).tdm = s.tdm := rfl
@[simp] theorem setLane_red (n : Nat) (x : Lane) (s : State) : (setLane n x s).red = s.red := rfl
@[simp] theorem setLane_out (n : Nat) (x : Lane) (s : State) : (setLane n x s).out = s.out := rfl
@[simp] theorem setLane_free (n : Nat) (x : Lane) (s : State) : (setLane n x s).free = s.free := rfl
@[simp] theorem setLane_pending (n : Nat) (x : Lane) (s : State) : (setLane n x s).pending = s.pending := rfl
@[simp] theorem laneOf_setLane (n : Nat) (x : Lane) (s : State) : laneOf (setLane n x s) n = x := by simp [laneOf, setLane]
theorem laneOf_setLane_other (n : Nat) (x : Lane) (s : State) (n' : Nat) (h : n' ≠ n) : laneOf (setLane n x s) n' = laneOf s n' := by
  simp [laneOf, setLane, kgetD_kset_other _ _ _ _ _ h]
@[simp] theorem portOf_setLane (n : Nat) (x : Lane) (s : State) (n' : Nat) : portOf (setLane n x s) n' = portOf s n' := rfl

/-! `setPort` -/

@[simp] theorem setPort_tb (n : Nat) (x : Port) (s : State) : (setPort n x s).tb = s.tb := rfl
@[simp] theorem setPort_ctl (n : Nat) (x : Port) (s : State) : (setPort n x s).ctl = s.ctl := rfl
@[simp] theorem setPort_boot (n : Nat) (x : Port) (s : State) : (setPort n x s).boot = s.boot := rfl
@[simp] theorem setPort_pwr (n : Nat) (x : Port) (s : State) : (setPort n x s).pwr = s.pwr := rfl
@[simp] theorem setPort_fwd (n : Nat) (x : Port) (s : State) : (setPort n x s).fwd = s.fwd := rfl
@[simp] theorem setPort_pon (n : Nat) (x : Port) (s : State) : (setPort n x s).pon = s.pon := rfl
@[simp] theorem setPort_time (n : Nat) (x : Port) (s : State) : (setPort n x s).time = s.time := rfl
@[simp] theorem setPort_opt (n : Nat) (x : Port) (s : State) : (setPort n x s).opt = s.opt := rfl
@[simp] theorem setPort_ciph (n : Nat) (x : Port) (s : State) : (setPort n x s).ciph = s.ciph := rfl
@[simp] theorem setPort_tdm (n : Nat) (x : Port) (s : State) : (setPort n x s).tdm = s.tdm := rfl
@[simp] theorem setPort_red (n : Nat) (x : Port) (s : State) : (setPort n x s).red = s.red := rfl
@[simp] theorem setPort_out (n : Nat) (x : Port) (s : State) : (setPort n x s).out = s.out := rfl
@[simp] theorem setPort_free (n : Nat) (x : Port) (s : State) : (setPort n x s).free = s.free := rfl
@[simp] theorem setPort_pending (n : Nat) (x : Port) (s : State) : (setPort n x s).pending = s.pending := rfl
@[simp] theorem laneOf_setPort (n : Nat) (x : Port) (s : State) (n' : Nat) : laneOf (setPort n x s) n' = laneOf s n' := rfl
@[simp] theorem portOf_setPort (n : Nat) (x : Port) (s : State) : portOf (setPort n x s) n = x := by simp [portOf, setPort]
theorem portOf_setPort_other (n : Nat) (x : Port) (s : State) (n' : Nat) (h : n' ≠ n) : portOf (setPort n x s) n' = portOf s n' := by
  simp [portOf, setPort, kgetD_kset_other _ _ _ _ _ h]

/-! `setOnuKeys` -/

@[simp] theorem setOnuKeys_tb (sp o : Nat) (x : OnuKeys) (s : State) : (setOnuKeys sp o x s).tb = s.tb := rfl
@[simp] theorem setOnuKeys_ctl (sp o : Nat) (x : OnuKeys) (s : State) : (setOnuKeys sp o x s).ctl = s.ctl := rfl
@[simp] theorem setOnuKeys_boot (sp o : Nat) (x : OnuKeys) (s : State) : (setOnuKeys sp o x s).boot = s.boot := rfl
@[simp] theorem setOnuKeys_pwr (sp o : Nat) (x : OnuKeys) (s : State) : (setOnuKeys sp o x s).pwr = s.pwr := rfl
@[simp] theorem setOnuKeys_fwd (sp o : Nat) (x : OnuKeys) (s : State) : (setOnuKeys sp o x s).fwd = s.fwd := rfl
@[simp] theorem setOnuKeys_pon (sp o : Nat) (x : OnuKeys) (s : State) : (setOnuKeys sp o x s).pon = s.pon := rfl
@[simp] theorem setOnuKeys_time (sp o : Nat) (x : OnuKeys) (s : State) : (setOnuKeys sp o x s).time = s.time := rfl
@[simp] theorem setOnuKeys_opt (sp o : Nat) (x : OnuKeys) (s : State) : (setOnuKeys sp o x s).opt = s.opt := rfl
@[simp] theorem setOnuKeys_lane (sp o : Nat) (x : OnuKeys) (s : State) : (setOnuKeys sp o x s).lane = s.lane := rfl
@[simp] theorem setOnuKeys_tdm (sp o : Nat) (x : OnuKeys) (s : State) : (setOnuKeys sp o x s).tdm = s.tdm := rfl
@[simp] theorem setOnuKeys_red (sp o : Nat) (x : OnuKeys) (s : State) : (setOnuKeys sp o x s).red = s.red := rfl
@[simp] theorem setOnuKeys_out (sp o : Nat) (x : OnuKeys) (s : State) : (setOnuKeys sp o x s).out = s.out := rfl
@[simp] theorem setOnuKeys_free (sp o : Nat) (x : OnuKeys) (s : State) : (setOnuKeys sp o x s).free = s.free := rfl
@[simp] theorem setOnuKeys_pending (sp o : Nat) (x : OnuKeys) (s : State) : (setOnuKeys sp o x s).pending = s.pending := rfl
@[simp] theorem onuKeys_setOnuKeys (sp o : Nat) (x : OnuKeys) (s : State) : onuKeys (setOnuKeys sp o x s) sp o = x := by simp [onuKeys, setOnuKeys]
@[simp] theorem pierKeys_setOnuKeys (sp o : Nat) (x : OnuKeys) (s : State) (sp' p' : Nat) : pierKeys (setOnuKeys sp o x s) sp' p' = pierKeys s sp' p' := rfl
@[simp] theorem secyOf_setOnuKeys (sp o : Nat) (x : OnuKeys) (s : State) (n' : Nat) : secyOf (setOnuKeys sp o x s) n' = secyOf s n' := rfl

/-! `setPierKeys` -/

@[simp] theorem setPierKeys_tb (sp p : Nat) (x : PierKeys) (s : State) : (setPierKeys sp p x s).tb = s.tb := rfl
@[simp] theorem setPierKeys_ctl (sp p : Nat) (x : PierKeys) (s : State) : (setPierKeys sp p x s).ctl = s.ctl := rfl
@[simp] theorem setPierKeys_boot (sp p : Nat) (x : PierKeys) (s : State) : (setPierKeys sp p x s).boot = s.boot := rfl
@[simp] theorem setPierKeys_pwr (sp p : Nat) (x : PierKeys) (s : State) : (setPierKeys sp p x s).pwr = s.pwr := rfl
@[simp] theorem setPierKeys_fwd (sp p : Nat) (x : PierKeys) (s : State) : (setPierKeys sp p x s).fwd = s.fwd := rfl
@[simp] theorem setPierKeys_pon (sp p : Nat) (x : PierKeys) (s : State) : (setPierKeys sp p x s).pon = s.pon := rfl
@[simp] theorem setPierKeys_time (sp p : Nat) (x : PierKeys) (s : State) : (setPierKeys sp p x s).time = s.time := rfl
@[simp] theorem setPierKeys_opt (sp p : Nat) (x : PierKeys) (s : State) : (setPierKeys sp p x s).opt = s.opt := rfl
@[simp] theorem setPierKeys_lane (sp p : Nat) (x : PierKeys) (s : State) : (setPierKeys sp p x s).lane = s.lane := rfl
@[simp] theorem setPierKeys_tdm (sp p : Nat) (x : PierKeys) (s : State) : (setPierKeys sp p x s).tdm = s.tdm := rfl
@[simp] theorem setPierKeys_red (sp p : Nat) (x : PierKeys) (s : State) : (setPierKeys sp p x s).red = s.red := rfl
@[simp] theorem setPierKeys_out (sp p : Nat) (x : PierKeys) (s : State) : (setPierKeys sp p x s).out = s.out := rfl
@[simp] theorem setPierKeys_free (sp p : Nat) (x : PierKeys) (s : State) : (setPierKeys sp p x s).free = s.free := rfl
@[simp] theorem setPierKeys_pending (sp p : Nat) (x : PierKeys) (s : State) : (setPierKeys sp p x s).pending = s.pending := rfl
@[simp] theorem onuKeys_setPierKeys (sp p : Nat) (x : PierKeys) (s : State) (sp' o' : Nat) : onuKeys (setPierKeys sp p x s) sp' o' = onuKeys s sp' o' := rfl
@[simp] theorem pierKeys_setPierKeys (sp p : Nat) (x : PierKeys) (s : State) : pierKeys (setPierKeys sp p x s) sp p = x := by simp [pierKeys, setPierKeys]
@[simp] theorem secyOf_setPierKeys (sp p : Nat) (x : PierKeys) (s : State) (n' : Nat) : secyOf (setPierKeys sp p x s) n' = secyOf s n' := rfl

/-! `setSecy` -/

@[simp] theorem setSecy_tb (n : Nat) (x : SecY) (s : State) : (setSecy n x s).tb = s.tb := rfl
@[simp] theorem setSecy_ctl (n : Nat) (x : SecY) (s : State) : (setSecy n x s).ctl = s.ctl := rfl
@[simp] theorem setSecy_boot (n : Nat) (x : SecY) (s : State) : (setSecy n x s).boot = s.boot := rfl
@[simp] theorem setSecy_pwr (n : Nat) (x : SecY) (s : State) : (setSecy n x s).pwr = s.pwr := rfl
@[simp] theorem setSecy_fwd (n : Nat) (x : SecY) (s : State) : (setSecy n x s).fwd = s.fwd := rfl
@[simp] theorem setSecy_pon (n : Nat) (x : SecY) (s : State) : (setSecy n x s).pon = s.pon := rfl
@[simp] theorem setSecy_time (n : Nat) (x : SecY) (s : State) : (setSecy n x s).time = s.time := rfl
@[simp] theorem setSecy_opt (n : Nat) (x : SecY) (s : State) : (setSecy n x s).opt = s.opt := rfl
@[simp] theorem setSecy_lane (n : Nat) (x : SecY) (s : State) : (setSecy n x s).lane = s.lane := rfl
@[simp] theorem setSecy_tdm (n : Nat) (x : SecY) (s : State) : (setSecy n x s).tdm = s.tdm := rfl
@[simp] theorem setSecy_red (n : Nat) (x : SecY) (s : State) : (setSecy n x s).red = s.red := rfl
@[simp] theorem setSecy_out (n : Nat) (x : SecY) (s : State) : (setSecy n x s).out = s.out := rfl
@[simp] theorem setSecy_free (n : Nat) (x : SecY) (s : State) : (setSecy n x s).free = s.free := rfl
@[simp] theorem setSecy_pending (n : Nat) (x : SecY) (s : State) : (setSecy n x s).pending = s.pending := rfl
@[simp] theorem onuKeys_setSecy (n : Nat) (x : SecY) (s : State) (sp' o' : Nat) : onuKeys (setSecy n x s) sp' o' = onuKeys s sp' o' := rfl
@[simp] theorem pierKeys_setSecy (n : Nat) (x : SecY) (s : State) (sp' p' : Nat) : pierKeys (setSecy n x s) sp' p' = pierKeys s sp' p' := rfl
@[simp] theorem secyOf_setSecy (n : Nat) (x : SecY) (s : State) : secyOf (setSecy n x s) n = x := by simp [secyOf, setSecy]
theorem secyOf_setSecy_other (n : Nat) (x : SecY) (s : State) (n' : Nat) (h : n' ≠ n) : secyOf (setSecy n x s) n' = secyOf s n' := by
  simp [secyOf, setSecy, kgetD_kset_other _ _ _ _ _ h]

/-! `setSdh` -/

@[simp] theorem setSdh_tb (l : Nat) (x : Sdh) (s : State) : (setSdh l x s).tb = s.tb := rfl
@[simp] theorem setSdh_ctl (l : Nat) (x : Sdh) (s : State) : (setSdh l x s).ctl = s.ctl := rfl
@[simp] theorem setSdh_boot (l : Nat) (x : Sdh) (s : State) : (setSdh l x s).boot = s.boot := rfl
@[simp] theorem setSdh_pwr (l : Nat) (x : Sdh) (s : State) : (setSdh l x s).pwr = s.pwr := rfl
@[simp] theorem setSdh_fwd (l : Nat) (x : Sdh) (s : State) : (setSdh l x s).fwd = s.fwd := rfl
@[simp] theorem setSdh_pon (l : Nat) (x : Sdh) (s : State) : (setSdh l x s).pon = s.pon := rfl
@[simp] theorem setSdh_time (l : Nat) (x : Sdh) (s : State) : (setSdh l x s).time = s.time := rfl
@[simp] theorem setSdh_opt (l : Nat) (x : Sdh) (s : State) : (setSdh l x s).opt = s.opt := rfl
@[simp] theorem setSdh_lane (l : Nat) (x : Sdh) (s : State) : (setSdh l x s).lane = s.lane := rfl
@[simp] theorem setSdh_ciph (l : Nat) (x : Sdh) (s : State) : (setSdh l x s).ciph = s.ciph := rfl
@[simp] theorem setSdh_red (l : Nat) (x : Sdh) (s : State) : (setSdh l x s).red = s.red := rfl
@[simp] theorem setSdh_out (l : Nat) (x : Sdh) (s : State) : (setSdh l x s).out = s.out := rfl
@[simp] theorem setSdh_free (l : Nat) (x : Sdh) (s : State) : (setSdh l x s).free = s.free := rfl
@[simp] theorem setSdh_pending (l : Nat) (x : Sdh) (s : State) : (setSdh l x s).pending = s.pending := rfl
@[simp] theorem sdhOf_setSdh (l : Nat) (x : Sdh) (s : State) : sdhOf (setSdh l x s) l = x := by simp [sdhOf, setSdh]
theorem sdhOf_setSdh_other (l : Nat) (x : Sdh) (s : State) (l' : Nat) (h : l' ≠ l) : sdhOf (setSdh l x s) l' = sdhOf s l' := by
  simp [sdhOf, setSdh, kgetD_kset_other _ _ _ _ _ h]
@[simp] theorem circuitOf_setSdh (l : Nat) (x : Sdh) (s : State) (c' : Nat) : circuitOf (setSdh l x s) c' = circuitOf s c' := rfl

/-! `setMsp` -/

@[simp] theorem setMsp_tb (x : Msp) (s : State) : (setMsp x s).tb = s.tb := rfl
@[simp] theorem setMsp_ctl (x : Msp) (s : State) : (setMsp x s).ctl = s.ctl := rfl
@[simp] theorem setMsp_boot (x : Msp) (s : State) : (setMsp x s).boot = s.boot := rfl
@[simp] theorem setMsp_pwr (x : Msp) (s : State) : (setMsp x s).pwr = s.pwr := rfl
@[simp] theorem setMsp_fwd (x : Msp) (s : State) : (setMsp x s).fwd = s.fwd := rfl
@[simp] theorem setMsp_pon (x : Msp) (s : State) : (setMsp x s).pon = s.pon := rfl
@[simp] theorem setMsp_time (x : Msp) (s : State) : (setMsp x s).time = s.time := rfl
@[simp] theorem setMsp_opt (x : Msp) (s : State) : (setMsp x s).opt = s.opt := rfl
@[simp] theorem setMsp_lane (x : Msp) (s : State) : (setMsp x s).lane = s.lane := rfl
@[simp] theorem setMsp_ciph (x : Msp) (s : State) : (setMsp x s).ciph = s.ciph := rfl
@[simp] theorem setMsp_red (x : Msp) (s : State) : (setMsp x s).red = s.red := rfl
@[simp] theorem setMsp_out (x : Msp) (s : State) : (setMsp x s).out = s.out := rfl
@[simp] theorem setMsp_free (x : Msp) (s : State) : (setMsp x s).free = s.free := rfl
@[simp] theorem setMsp_pending (x : Msp) (s : State) : (setMsp x s).pending = s.pending := rfl

/-! `setCircuit` -/

@[simp] theorem setCircuit_tb (c : Nat) (x : Circuit) (s : State) : (setCircuit c x s).tb = s.tb := rfl
@[simp] theorem setCircuit_ctl (c : Nat) (x : Circuit) (s : State) : (setCircuit c x s).ctl = s.ctl := rfl
@[simp] theorem setCircuit_boot (c : Nat) (x : Circuit) (s : State) : (setCircuit c x s).boot = s.boot := rfl
@[simp] theorem setCircuit_pwr (c : Nat) (x : Circuit) (s : State) : (setCircuit c x s).pwr = s.pwr := rfl
@[simp] theorem setCircuit_fwd (c : Nat) (x : Circuit) (s : State) : (setCircuit c x s).fwd = s.fwd := rfl
@[simp] theorem setCircuit_pon (c : Nat) (x : Circuit) (s : State) : (setCircuit c x s).pon = s.pon := rfl
@[simp] theorem setCircuit_time (c : Nat) (x : Circuit) (s : State) : (setCircuit c x s).time = s.time := rfl
@[simp] theorem setCircuit_opt (c : Nat) (x : Circuit) (s : State) : (setCircuit c x s).opt = s.opt := rfl
@[simp] theorem setCircuit_lane (c : Nat) (x : Circuit) (s : State) : (setCircuit c x s).lane = s.lane := rfl
@[simp] theorem setCircuit_ciph (c : Nat) (x : Circuit) (s : State) : (setCircuit c x s).ciph = s.ciph := rfl
@[simp] theorem setCircuit_red (c : Nat) (x : Circuit) (s : State) : (setCircuit c x s).red = s.red := rfl
@[simp] theorem setCircuit_out (c : Nat) (x : Circuit) (s : State) : (setCircuit c x s).out = s.out := rfl
@[simp] theorem setCircuit_free (c : Nat) (x : Circuit) (s : State) : (setCircuit c x s).free = s.free := rfl
@[simp] theorem setCircuit_pending (c : Nat) (x : Circuit) (s : State) : (setCircuit c x s).pending = s.pending := rfl
@[simp] theorem sdhOf_setCircuit (c : Nat) (x : Circuit) (s : State) (l' : Nat) : sdhOf (setCircuit c x s) l' = sdhOf s l' := rfl
@[simp] theorem circuitOf_setCircuit (c : Nat) (x : Circuit) (s : State) : circuitOf (setCircuit c x s) c = x := by simp [circuitOf, setCircuit]
theorem circuitOf_setCircuit_other (c : Nat) (x : Circuit) (s : State) (c' : Nat) (h : c' ≠ c) : circuitOf (setCircuit c x s) c' = circuitOf s c' := by
  simp [circuitOf, setCircuit, kgetD_kset_other _ _ _ _ _ h]

/-! `setHawser` -/

@[simp] theorem setHawser_tb (x : Hawser) (s : State) : (setHawser x s).tb = s.tb := rfl
@[simp] theorem setHawser_ctl (x : Hawser) (s : State) : (setHawser x s).ctl = s.ctl := rfl
@[simp] theorem setHawser_boot (x : Hawser) (s : State) : (setHawser x s).boot = s.boot := rfl
@[simp] theorem setHawser_pwr (x : Hawser) (s : State) : (setHawser x s).pwr = s.pwr := rfl
@[simp] theorem setHawser_fwd (x : Hawser) (s : State) : (setHawser x s).fwd = s.fwd := rfl
@[simp] theorem setHawser_pon (x : Hawser) (s : State) : (setHawser x s).pon = s.pon := rfl
@[simp] theorem setHawser_time (x : Hawser) (s : State) : (setHawser x s).time = s.time := rfl
@[simp] theorem setHawser_opt (x : Hawser) (s : State) : (setHawser x s).opt = s.opt := rfl
@[simp] theorem setHawser_lane (x : Hawser) (s : State) : (setHawser x s).lane = s.lane := rfl
@[simp] theorem setHawser_ciph (x : Hawser) (s : State) : (setHawser x s).ciph = s.ciph := rfl
@[simp] theorem setHawser_tdm (x : Hawser) (s : State) : (setHawser x s).tdm = s.tdm := rfl
@[simp] theorem setHawser_out (x : Hawser) (s : State) : (setHawser x s).out = s.out := rfl
@[simp] theorem setHawser_free (x : Hawser) (s : State) : (setHawser x s).free = s.free := rfl
@[simp] theorem setHawser_pending (x : Hawser) (s : State) : (setHawser x s).pending = s.pending := rfl

/-! `setPair` -/

@[simp] theorem setPair_tb (x : Pair) (s : State) : (setPair x s).tb = s.tb := rfl
@[simp] theorem setPair_ctl (x : Pair) (s : State) : (setPair x s).ctl = s.ctl := rfl
@[simp] theorem setPair_boot (x : Pair) (s : State) : (setPair x s).boot = s.boot := rfl
@[simp] theorem setPair_pwr (x : Pair) (s : State) : (setPair x s).pwr = s.pwr := rfl
@[simp] theorem setPair_fwd (x : Pair) (s : State) : (setPair x s).fwd = s.fwd := rfl
@[simp] theorem setPair_pon (x : Pair) (s : State) : (setPair x s).pon = s.pon := rfl
@[simp] theorem setPair_time (x : Pair) (s : State) : (setPair x s).time = s.time := rfl
@[simp] theorem setPair_opt (x : Pair) (s : State) : (setPair x s).opt = s.opt := rfl
@[simp] theorem setPair_lane (x : Pair) (s : State) : (setPair x s).lane = s.lane := rfl
@[simp] theorem setPair_ciph (x : Pair) (s : State) : (setPair x s).ciph = s.ciph := rfl
@[simp] theorem setPair_tdm (x : Pair) (s : State) : (setPair x s).tdm = s.tdm := rfl
@[simp] theorem setPair_out (x : Pair) (s : State) : (setPair x s).out = s.out := rfl
@[simp] theorem setPair_free (x : Pair) (s : State) : (setPair x s).free = s.free := rfl
@[simp] theorem setPair_pending (x : Pair) (s : State) : (setPair x s).pending = s.pending := rfl

/-! `setLan` -/

@[simp] theorem setLan_tb (x : Lanyard) (s : State) : (setLan x s).tb = s.tb := rfl
@[simp] theorem setLan_ctl (x : Lanyard) (s : State) : (setLan x s).ctl = s.ctl := rfl
@[simp] theorem setLan_boot (x : Lanyard) (s : State) : (setLan x s).boot = s.boot := rfl
@[simp] theorem setLan_pwr (x : Lanyard) (s : State) : (setLan x s).pwr = s.pwr := rfl
@[simp] theorem setLan_fwd (x : Lanyard) (s : State) : (setLan x s).fwd = s.fwd := rfl
@[simp] theorem setLan_pon (x : Lanyard) (s : State) : (setLan x s).pon = s.pon := rfl
@[simp] theorem setLan_time (x : Lanyard) (s : State) : (setLan x s).time = s.time := rfl
@[simp] theorem setLan_opt (x : Lanyard) (s : State) : (setLan x s).opt = s.opt := rfl
@[simp] theorem setLan_lane (x : Lanyard) (s : State) : (setLan x s).lane = s.lane := rfl
@[simp] theorem setLan_ciph (x : Lanyard) (s : State) : (setLan x s).ciph = s.ciph := rfl
@[simp] theorem setLan_tdm (x : Lanyard) (s : State) : (setLan x s).tdm = s.tdm := rfl
@[simp] theorem setLan_out (x : Lanyard) (s : State) : (setLan x s).out = s.out := rfl
@[simp] theorem setLan_free (x : Lanyard) (s : State) : (setLan x s).free = s.free := rfl
@[simp] theorem setLan_pending (x : Lanyard) (s : State) : (setLan x s).pending = s.pending := rfl

/-! `setTime` -/

@[simp] theorem setTime_tb (x : TimeBase) (s : State) : (setTime x s).tb = s.tb := rfl
@[simp] theorem setTime_ctl (x : TimeBase) (s : State) : (setTime x s).ctl = s.ctl := rfl
@[simp] theorem setTime_boot (x : TimeBase) (s : State) : (setTime x s).boot = s.boot := rfl
@[simp] theorem setTime_pwr (x : TimeBase) (s : State) : (setTime x s).pwr = s.pwr := rfl
@[simp] theorem setTime_fwd (x : TimeBase) (s : State) : (setTime x s).fwd = s.fwd := rfl
@[simp] theorem setTime_pon (x : TimeBase) (s : State) : (setTime x s).pon = s.pon := rfl
@[simp] theorem setTime_opt (x : TimeBase) (s : State) : (setTime x s).opt = s.opt := rfl
@[simp] theorem setTime_lane (x : TimeBase) (s : State) : (setTime x s).lane = s.lane := rfl
@[simp] theorem setTime_ciph (x : TimeBase) (s : State) : (setTime x s).ciph = s.ciph := rfl
@[simp] theorem setTime_tdm (x : TimeBase) (s : State) : (setTime x s).tdm = s.tdm := rfl
@[simp] theorem setTime_red (x : TimeBase) (s : State) : (setTime x s).red = s.red := rfl
@[simp] theorem setTime_out (x : TimeBase) (s : State) : (setTime x s).out = s.out := rfl
@[simp] theorem setTime_free (x : TimeBase) (s : State) : (setTime x s).free = s.free := rfl
@[simp] theorem setTime_pending (x : TimeBase) (s : State) : (setTime x s).pending = s.pending := rfl

/-! `setPairKey` -/

@[simp] theorem setPairKey_tb (x : PairKey) (s : State) : (setPairKey x s).tb = s.tb := rfl
@[simp] theorem setPairKey_ctl (x : PairKey) (s : State) : (setPairKey x s).ctl = s.ctl := rfl
@[simp] theorem setPairKey_boot (x : PairKey) (s : State) : (setPairKey x s).boot = s.boot := rfl
@[simp] theorem setPairKey_pwr (x : PairKey) (s : State) : (setPairKey x s).pwr = s.pwr := rfl
@[simp] theorem setPairKey_fwd (x : PairKey) (s : State) : (setPairKey x s).fwd = s.fwd := rfl
@[simp] theorem setPairKey_pon (x : PairKey) (s : State) : (setPairKey x s).pon = s.pon := rfl
@[simp] theorem setPairKey_time (x : PairKey) (s : State) : (setPairKey x s).time = s.time := rfl
@[simp] theorem setPairKey_opt (x : PairKey) (s : State) : (setPairKey x s).opt = s.opt := rfl
@[simp] theorem setPairKey_lane (x : PairKey) (s : State) : (setPairKey x s).lane = s.lane := rfl
@[simp] theorem setPairKey_tdm (x : PairKey) (s : State) : (setPairKey x s).tdm = s.tdm := rfl
@[simp] theorem setPairKey_red (x : PairKey) (s : State) : (setPairKey x s).red = s.red := rfl
@[simp] theorem setPairKey_out (x : PairKey) (s : State) : (setPairKey x s).out = s.out := rfl
@[simp] theorem setPairKey_free (x : PairKey) (s : State) : (setPairKey x s).free = s.free := rfl
@[simp] theorem setPairKey_pending (x : PairKey) (s : State) : (setPairKey x s).pending = s.pending := rfl

/-! `advance` -/

@[simp] theorem advance_ctl (t : Nat) (s : State) : (advance t s).ctl = s.ctl := rfl
@[simp] theorem advance_boot (t : Nat) (s : State) : (advance t s).boot = s.boot := rfl
@[simp] theorem advance_pwr (t : Nat) (s : State) : (advance t s).pwr = s.pwr := rfl
@[simp] theorem advance_fwd (t : Nat) (s : State) : (advance t s).fwd = s.fwd := rfl
@[simp] theorem advance_pon (t : Nat) (s : State) : (advance t s).pon = s.pon := rfl
@[simp] theorem advance_time_y (t : Nat) (s : State) : (advance t s).time.y = s.time.y := rfl
@[simp] theorem advance_time_keystone (t : Nat) (s : State) : (advance t s).time.keystone = s.time.keystone := rfl
@[simp] theorem advance_time_pins (t : Nat) (s : State) : (advance t s).time.pins = s.time.pins := rfl
@[simp] theorem advance_opt (t : Nat) (s : State) : (advance t s).opt = s.opt := rfl
@[simp] theorem advance_lane (t : Nat) (s : State) : (advance t s).lane = s.lane := rfl
@[simp] theorem advance_ciph (t : Nat) (s : State) : (advance t s).ciph = s.ciph := rfl
@[simp] theorem advance_tdm (t : Nat) (s : State) : (advance t s).tdm = s.tdm := rfl
@[simp] theorem advance_red (t : Nat) (s : State) : (advance t s).red = s.red := rfl
@[simp] theorem advance_out (t : Nat) (s : State) : (advance t s).out = s.out := rfl
@[simp] theorem advance_free (t : Nat) (s : State) : (advance t s).free = s.free := rfl
@[simp] theorem advance_pending (t : Nat) (s : State) : (advance t s).pending = s.pending := rfl

/-! `setTxns` -/

@[simp] theorem setTxns_tb (ts : List Txn) (s : State) : (setTxns ts s).tb = s.tb := rfl
@[simp] theorem setTxns_boot (ts : List Txn) (s : State) : (setTxns ts s).boot = s.boot := rfl
@[simp] theorem setTxns_pwr (ts : List Txn) (s : State) : (setTxns ts s).pwr = s.pwr := rfl
@[simp] theorem setTxns_fwd (ts : List Txn) (s : State) : (setTxns ts s).fwd = s.fwd := rfl
@[simp] theorem setTxns_pon (ts : List Txn) (s : State) : (setTxns ts s).pon = s.pon := rfl
@[simp] theorem setTxns_time (ts : List Txn) (s : State) : (setTxns ts s).time = s.time := rfl
@[simp] theorem setTxns_opt (ts : List Txn) (s : State) : (setTxns ts s).opt = s.opt := rfl
@[simp] theorem setTxns_lane (ts : List Txn) (s : State) : (setTxns ts s).lane = s.lane := rfl
@[simp] theorem setTxns_ciph (ts : List Txn) (s : State) : (setTxns ts s).ciph = s.ciph := rfl
@[simp] theorem setTxns_tdm (ts : List Txn) (s : State) : (setTxns ts s).tdm = s.tdm := rfl
@[simp] theorem setTxns_red (ts : List Txn) (s : State) : (setTxns ts s).red = s.red := rfl
@[simp] theorem setTxns_out (ts : List Txn) (s : State) : (setTxns ts s).out = s.out := rfl
@[simp] theorem setTxns_free (ts : List Txn) (s : State) : (setTxns ts s).free = s.free := rfl
@[simp] theorem setTxns_pending (ts : List Txn) (s : State) : (setTxns ts s).pending = s.pending := rfl

/-! `setPipe` -/

@[simp] theorem setPipe_tb (p : Nat) (x : Pipe) (s : State) : (setPipe p x s).tb = s.tb := rfl
@[simp] theorem setPipe_ctl (p : Nat) (x : Pipe) (s : State) : (setPipe p x s).ctl = s.ctl := rfl
@[simp] theorem setPipe_boot (p : Nat) (x : Pipe) (s : State) : (setPipe p x s).boot = s.boot := rfl
@[simp] theorem setPipe_pwr (p : Nat) (x : Pipe) (s : State) : (setPipe p x s).pwr = s.pwr := rfl
@[simp] theorem setPipe_pon (p : Nat) (x : Pipe) (s : State) : (setPipe p x s).pon = s.pon := rfl
@[simp] theorem setPipe_time (p : Nat) (x : Pipe) (s : State) : (setPipe p x s).time = s.time := rfl
@[simp] theorem setPipe_opt (p : Nat) (x : Pipe) (s : State) : (setPipe p x s).opt = s.opt := rfl
@[simp] theorem setPipe_lane (p : Nat) (x : Pipe) (s : State) : (setPipe p x s).lane = s.lane := rfl
@[simp] theorem setPipe_ciph (p : Nat) (x : Pipe) (s : State) : (setPipe p x s).ciph = s.ciph := rfl
@[simp] theorem setPipe_tdm (p : Nat) (x : Pipe) (s : State) : (setPipe p x s).tdm = s.tdm := rfl
@[simp] theorem setPipe_red (p : Nat) (x : Pipe) (s : State) : (setPipe p x s).red = s.red := rfl
@[simp] theorem setPipe_out (p : Nat) (x : Pipe) (s : State) : (setPipe p x s).out = s.out := rfl
@[simp] theorem setPipe_free (p : Nat) (x : Pipe) (s : State) : (setPipe p x s).free = s.free := rfl
@[simp] theorem setPipe_pending (p : Nat) (x : Pipe) (s : State) : (setPipe p x s).pending = s.pending := rfl
@[simp] theorem pipeOf_setPipe (p : Nat) (x : Pipe) (s : State) : pipeOf (setPipe p x s) p = x := by simp [pipeOf, setPipe]
theorem pipeOf_setPipe_other (p : Nat) (x : Pipe) (s : State) (p' : Nat) (h : p' ≠ p) : pipeOf (setPipe p x s) p' = pipeOf s p' := by
  simp [pipeOf, setPipe, kgetD_kset_other _ _ _ _ _ h]
@[simp] theorem lowMark_setPipe (p : Nat) (x : Pipe) (s : State) (h' : Nat) : lowMark (setPipe p x s) h' = lowMark s h' := rfl
@[simp] theorem profileOf_setPipe (p : Nat) (x : Pipe) (s : State) (q' : Nat) (x' : Queue) : profileOf (setPipe p x s) q' x' = profileOf s q' x' := rfl
@[simp] theorem schedOf_setPipe (p : Nat) (x : Pipe) (s : State) (sp' p' : Nat) : schedOf (setPipe p x s) sp' p' = schedOf s sp' p' := rfl
@[simp] theorem upBudget_setPipe (p : Nat) (x : Pipe) (s : State) (slice' port' : Nat) : upBudget (setPipe p x s) slice' port' = upBudget s slice' port' := rfl
@[simp] theorem mergerOf_setPipe (p : Nat) (x : Pipe) (s : State) (port' : Nat) : mergerOf (setPipe p x s) port' = mergerOf s port' := rfl
@[simp] theorem policerOf_setPipe (p : Nat) (x : Pipe) (s : State) (port' : Nat) : policerOf (setPipe p x s) port' = policerOf s port' := rfl

/-! `setCleat` -/

@[simp] theorem setCleat_tb (n : Nat) (c : Cleat) (s : State) : (setCleat n c s).tb = s.tb := rfl
@[simp] theorem setCleat_boot (n : Nat) (c : Cleat) (s : State) : (setCleat n c s).boot = s.boot := rfl
@[simp] theorem setCleat_pwr (n : Nat) (c : Cleat) (s : State) : (setCleat n c s).pwr = s.pwr := rfl
@[simp] theorem setCleat_fwd (n : Nat) (c : Cleat) (s : State) : (setCleat n c s).fwd = s.fwd := rfl
@[simp] theorem setCleat_pon (n : Nat) (c : Cleat) (s : State) : (setCleat n c s).pon = s.pon := rfl
@[simp] theorem setCleat_time (n : Nat) (c : Cleat) (s : State) : (setCleat n c s).time = s.time := rfl
@[simp] theorem setCleat_opt (n : Nat) (c : Cleat) (s : State) : (setCleat n c s).opt = s.opt := rfl
@[simp] theorem setCleat_lane (n : Nat) (c : Cleat) (s : State) : (setCleat n c s).lane = s.lane := rfl
@[simp] theorem setCleat_ciph (n : Nat) (c : Cleat) (s : State) : (setCleat n c s).ciph = s.ciph := rfl
@[simp] theorem setCleat_tdm (n : Nat) (c : Cleat) (s : State) : (setCleat n c s).tdm = s.tdm := rfl
@[simp] theorem setCleat_red (n : Nat) (c : Cleat) (s : State) : (setCleat n c s).red = s.red := rfl
@[simp] theorem setCleat_out (n : Nat) (c : Cleat) (s : State) : (setCleat n c s).out = s.out := rfl
@[simp] theorem setCleat_free (n : Nat) (c : Cleat) (s : State) : (setCleat n c s).free = s.free := rfl
@[simp] theorem setCleat_pending (n : Nat) (c : Cleat) (s : State) : (setCleat n c s).pending = s.pending := rfl
@[simp] theorem chanOf_setCleat (n : Nat) (c : Cleat) (s : State) (ch' : Nat) : chanOf (setCleat n c s) ch' = chanOf s ch' := rfl
@[simp] theorem funcOf_setCleat (n : Nat) (c : Cleat) (s : State) (fn' : Nat) : funcOf (setCleat n c s) fn' = funcOf s fn' := rfl
@[simp] theorem cleatOf_setCleat (n : Nat) (c : Cleat) (s : State) : cleatOf (setCleat n c s) n = c := by simp [cleatOf, setCleat]
theorem cleatOf_setCleat_other (n : Nat) (c : Cleat) (s : State) (n' : Nat) (h : n' ≠ n) : cleatOf (setCleat n c s) n' = cleatOf s n' := by
  simp [cleatOf, setCleat, kgetD_kset_other _ _ _ _ _ h]

/-! `setPwr` -/

@[simp] theorem setPwr_tb (x : Power) (s : State) : (setPwr x s).tb = s.tb := rfl
@[simp] theorem setPwr_ctl (x : Power) (s : State) : (setPwr x s).ctl = s.ctl := rfl
@[simp] theorem setPwr_boot (x : Power) (s : State) : (setPwr x s).boot = s.boot := rfl
@[simp] theorem setPwr_fwd (x : Power) (s : State) : (setPwr x s).fwd = s.fwd := rfl
@[simp] theorem setPwr_pon (x : Power) (s : State) : (setPwr x s).pon = s.pon := rfl
@[simp] theorem setPwr_time (x : Power) (s : State) : (setPwr x s).time = s.time := rfl
@[simp] theorem setPwr_opt (x : Power) (s : State) : (setPwr x s).opt = s.opt := rfl
@[simp] theorem setPwr_lane (x : Power) (s : State) : (setPwr x s).lane = s.lane := rfl
@[simp] theorem setPwr_ciph (x : Power) (s : State) : (setPwr x s).ciph = s.ciph := rfl
@[simp] theorem setPwr_tdm (x : Power) (s : State) : (setPwr x s).tdm = s.tdm := rfl
@[simp] theorem setPwr_red (x : Power) (s : State) : (setPwr x s).red = s.red := rfl
@[simp] theorem setPwr_out (x : Power) (s : State) : (setPwr x s).out = s.out := rfl
@[simp] theorem setPwr_free (x : Power) (s : State) : (setPwr x s).free = s.free := rfl
@[simp] theorem setPwr_pending (x : Power) (s : State) : (setPwr x s).pending = s.pending := rfl

/-! `setQueue` -/

@[simp] theorem setQueue_tb (q : Nat) (x : Queue) (s : State) : (setQueue q x s).tb = s.tb := rfl
@[simp] theorem setQueue_ctl (q : Nat) (x : Queue) (s : State) : (setQueue q x s).ctl = s.ctl := rfl
@[simp] theorem setQueue_boot (q : Nat) (x : Queue) (s : State) : (setQueue q x s).boot = s.boot := rfl
@[simp] theorem setQueue_pwr (q : Nat) (x : Queue) (s : State) : (setQueue q x s).pwr = s.pwr := rfl
@[simp] theorem setQueue_pon (q : Nat) (x : Queue) (s : State) : (setQueue q x s).pon = s.pon := rfl
@[simp] theorem setQueue_time (q : Nat) (x : Queue) (s : State) : (setQueue q x s).time = s.time := rfl
@[simp] theorem setQueue_opt (q : Nat) (x : Queue) (s : State) : (setQueue q x s).opt = s.opt := rfl
@[simp] theorem setQueue_lane (q : Nat) (x : Queue) (s : State) : (setQueue q x s).lane = s.lane := rfl
@[simp] theorem setQueue_ciph (q : Nat) (x : Queue) (s : State) : (setQueue q x s).ciph = s.ciph := rfl
@[simp] theorem setQueue_tdm (q : Nat) (x : Queue) (s : State) : (setQueue q x s).tdm = s.tdm := rfl
@[simp] theorem setQueue_red (q : Nat) (x : Queue) (s : State) : (setQueue q x s).red = s.red := rfl
@[simp] theorem setQueue_out (q : Nat) (x : Queue) (s : State) : (setQueue q x s).out = s.out := rfl
@[simp] theorem setQueue_free (q : Nat) (x : Queue) (s : State) : (setQueue q x s).free = s.free := rfl
@[simp] theorem setQueue_pending (q : Nat) (x : Queue) (s : State) : (setQueue q x s).pending = s.pending := rfl
@[simp] theorem pipeOf_setQueue (q : Nat) (x : Queue) (s : State) (p' : Nat) : pipeOf (setQueue q x s) p' = pipeOf s p' := rfl
@[simp] theorem lowMark_setQueue (q : Nat) (x : Queue) (s : State) (h' : Nat) : lowMark (setQueue q x s) h' = lowMark s h' := rfl
@[simp] theorem profileOf_setQueue (q : Nat) (x : Queue) (s : State) (q' : Nat) (x' : Queue) : profileOf (setQueue q x s) q' x' = profileOf s q' x' := rfl
@[simp] theorem schedOf_setQueue (q : Nat) (x : Queue) (s : State) (sp' p' : Nat) : schedOf (setQueue q x s) sp' p' = schedOf s sp' p' := rfl
@[simp] theorem upBudget_setQueue (q : Nat) (x : Queue) (s : State) (slice' port' : Nat) : upBudget (setQueue q x s) slice' port' = upBudget s slice' port' := rfl
@[simp] theorem mergerOf_setQueue (q : Nat) (x : Queue) (s : State) (port' : Nat) : mergerOf (setQueue q x s) port' = mergerOf s port' := rfl
@[simp] theorem policerOf_setQueue (q : Nat) (x : Queue) (s : State) (port' : Nat) : policerOf (setQueue q x s) port' = policerOf s port' := rfl

/-! `setSched` -/

@[simp] theorem setSched_tb (sp p : Nat) (x : PierSched) (s : State) : (setSched sp p x s).tb = s.tb := rfl
@[simp] theorem setSched_ctl (sp p : Nat) (x : PierSched) (s : State) : (setSched sp p x s).ctl = s.ctl := rfl
@[simp] theorem setSched_boot (sp p : Nat) (x : PierSched) (s : State) : (setSched sp p x s).boot = s.boot := rfl
@[simp] theorem setSched_pwr (sp p : Nat) (x : PierSched) (s : State) : (setSched sp p x s).pwr = s.pwr := rfl
@[simp] theorem setSched_pon (sp p : Nat) (x : PierSched) (s : State) : (setSched sp p x s).pon = s.pon := rfl
@[simp] theorem setSched_time (sp p : Nat) (x : PierSched) (s : State) : (setSched sp p x s).time = s.time := rfl
@[simp] theorem setSched_opt (sp p : Nat) (x : PierSched) (s : State) : (setSched sp p x s).opt = s.opt := rfl
@[simp] theorem setSched_lane (sp p : Nat) (x : PierSched) (s : State) : (setSched sp p x s).lane = s.lane := rfl
@[simp] theorem setSched_ciph (sp p : Nat) (x : PierSched) (s : State) : (setSched sp p x s).ciph = s.ciph := rfl
@[simp] theorem setSched_tdm (sp p : Nat) (x : PierSched) (s : State) : (setSched sp p x s).tdm = s.tdm := rfl
@[simp] theorem setSched_red (sp p : Nat) (x : PierSched) (s : State) : (setSched sp p x s).red = s.red := rfl
@[simp] theorem setSched_out (sp p : Nat) (x : PierSched) (s : State) : (setSched sp p x s).out = s.out := rfl
@[simp] theorem setSched_free (sp p : Nat) (x : PierSched) (s : State) : (setSched sp p x s).free = s.free := rfl
@[simp] theorem setSched_pending (sp p : Nat) (x : PierSched) (s : State) : (setSched sp p x s).pending = s.pending := rfl
@[simp] theorem pipeOf_setSched (sp p : Nat) (x : PierSched) (s : State) (p' : Nat) : pipeOf (setSched sp p x s) p' = pipeOf s p' := rfl
@[simp] theorem lowMark_setSched (sp p : Nat) (x : PierSched) (s : State) (h' : Nat) : lowMark (setSched sp p x s) h' = lowMark s h' := rfl
@[simp] theorem profileOf_setSched (sp p : Nat) (x : PierSched) (s : State) (q' : Nat) (x' : Queue) : profileOf (setSched sp p x s) q' x' = profileOf s q' x' := rfl
@[simp] theorem schedOf_setSched (sp p : Nat) (x : PierSched) (s : State) : schedOf (setSched sp p x s) sp p = x := by simp [schedOf, setSched]
@[simp] theorem upBudget_setSched (sp p : Nat) (x : PierSched) (s : State) (slice' port' : Nat) : upBudget (setSched sp p x s) slice' port' = upBudget s slice' port' := rfl
@[simp] theorem mergerOf_setSched (sp p : Nat) (x : PierSched) (s : State) (port' : Nat) : mergerOf (setSched sp p x s) port' = mergerOf s port' := rfl
@[simp] theorem policerOf_setSched (sp p : Nat) (x : PierSched) (s : State) (port' : Nat) : policerOf (setSched sp p x s) port' = policerOf s port' := rfl

/-! `setL1` -/

@[simp] theorem setL1_tb (g n : Nat) (x : L1) (s : State) : (setL1 g n x s).tb = s.tb := rfl
@[simp] theorem setL1_ctl (g n : Nat) (x : L1) (s : State) : (setL1 g n x s).ctl = s.ctl := rfl
@[simp] theorem setL1_boot (g n : Nat) (x : L1) (s : State) : (setL1 g n x s).boot = s.boot := rfl
@[simp] theorem setL1_pwr (g n : Nat) (x : L1) (s : State) : (setL1 g n x s).pwr = s.pwr := rfl
@[simp] theorem setL1_pon (g n : Nat) (x : L1) (s : State) : (setL1 g n x s).pon = s.pon := rfl
@[simp] theorem setL1_time (g n : Nat) (x : L1) (s : State) : (setL1 g n x s).time = s.time := rfl
@[simp] theorem setL1_opt (g n : Nat) (x : L1) (s : State) : (setL1 g n x s).opt = s.opt := rfl
@[simp] theorem setL1_lane (g n : Nat) (x : L1) (s : State) : (setL1 g n x s).lane = s.lane := rfl
@[simp] theorem setL1_ciph (g n : Nat) (x : L1) (s : State) : (setL1 g n x s).ciph = s.ciph := rfl
@[simp] theorem setL1_tdm (g n : Nat) (x : L1) (s : State) : (setL1 g n x s).tdm = s.tdm := rfl
@[simp] theorem setL1_red (g n : Nat) (x : L1) (s : State) : (setL1 g n x s).red = s.red := rfl
@[simp] theorem setL1_out (g n : Nat) (x : L1) (s : State) : (setL1 g n x s).out = s.out := rfl
@[simp] theorem setL1_free (g n : Nat) (x : L1) (s : State) : (setL1 g n x s).free = s.free := rfl
@[simp] theorem setL1_pending (g n : Nat) (x : L1) (s : State) : (setL1 g n x s).pending = s.pending := rfl
@[simp] theorem pipeOf_setL1 (g n : Nat) (x : L1) (s : State) (p' : Nat) : pipeOf (setL1 g n x s) p' = pipeOf s p' := rfl
@[simp] theorem lowMark_setL1 (g n : Nat) (x : L1) (s : State) (h' : Nat) : lowMark (setL1 g n x s) h' = lowMark s h' := rfl
@[simp] theorem profileOf_setL1 (g n : Nat) (x : L1) (s : State) (q' : Nat) (x' : Queue) : profileOf (setL1 g n x s) q' x' = profileOf s q' x' := rfl
@[simp] theorem schedOf_setL1 (g n : Nat) (x : L1) (s : State) (sp' p' : Nat) : schedOf (setL1 g n x s) sp' p' = schedOf s sp' p' := rfl
@[simp] theorem upBudget_setL1 (g n : Nat) (x : L1) (s : State) (slice' port' : Nat) : upBudget (setL1 g n x s) slice' port' = upBudget s slice' port' := rfl
@[simp] theorem mergerOf_setL1 (g n : Nat) (x : L1) (s : State) (port' : Nat) : mergerOf (setL1 g n x s) port' = mergerOf s port' := rfl
@[simp] theorem policerOf_setL1 (g n : Nat) (x : L1) (s : State) (port' : Nat) : policerOf (setL1 g n x s) port' = policerOf s port' := rfl

/-! `setL2` -/

@[simp] theorem setL2_tb (g n : Nat) (x : L2) (s : State) : (setL2 g n x s).tb = s.tb := rfl
@[simp] theorem setL2_ctl (g n : Nat) (x : L2) (s : State) : (setL2 g n x s).ctl = s.ctl := rfl
@[simp] theorem setL2_boot (g n : Nat) (x : L2) (s : State) : (setL2 g n x s).boot = s.boot := rfl
@[simp] theorem setL2_pwr (g n : Nat) (x : L2) (s : State) : (setL2 g n x s).pwr = s.pwr := rfl
@[simp] theorem setL2_pon (g n : Nat) (x : L2) (s : State) : (setL2 g n x s).pon = s.pon := rfl
@[simp] theorem setL2_time (g n : Nat) (x : L2) (s : State) : (setL2 g n x s).time = s.time := rfl
@[simp] theorem setL2_opt (g n : Nat) (x : L2) (s : State) : (setL2 g n x s).opt = s.opt := rfl
@[simp] theorem setL2_lane (g n : Nat) (x : L2) (s : State) : (setL2 g n x s).lane = s.lane := rfl
@[simp] theorem setL2_ciph (g n : Nat) (x : L2) (s : State) : (setL2 g n x s).ciph = s.ciph := rfl
@[simp] theorem setL2_tdm (g n : Nat) (x : L2) (s : State) : (setL2 g n x s).tdm = s.tdm := rfl
@[simp] theorem setL2_red (g n : Nat) (x : L2) (s : State) : (setL2 g n x s).red = s.red := rfl
@[simp] theorem setL2_out (g n : Nat) (x : L2) (s : State) : (setL2 g n x s).out = s.out := rfl
@[simp] theorem setL2_free (g n : Nat) (x : L2) (s : State) : (setL2 g n x s).free = s.free := rfl
@[simp] theorem setL2_pending (g n : Nat) (x : L2) (s : State) : (setL2 g n x s).pending = s.pending := rfl
@[simp] theorem pipeOf_setL2 (g n : Nat) (x : L2) (s : State) (p' : Nat) : pipeOf (setL2 g n x s) p' = pipeOf s p' := rfl
@[simp] theorem lowMark_setL2 (g n : Nat) (x : L2) (s : State) (h' : Nat) : lowMark (setL2 g n x s) h' = lowMark s h' := rfl
@[simp] theorem profileOf_setL2 (g n : Nat) (x : L2) (s : State) (q' : Nat) (x' : Queue) : profileOf (setL2 g n x s) q' x' = profileOf s q' x' := rfl
@[simp] theorem schedOf_setL2 (g n : Nat) (x : L2) (s : State) (sp' p' : Nat) : schedOf (setL2 g n x s) sp' p' = schedOf s sp' p' := rfl
@[simp] theorem upBudget_setL2 (g n : Nat) (x : L2) (s : State) (slice' port' : Nat) : upBudget (setL2 g n x s) slice' port' = upBudget s slice' port' := rfl
@[simp] theorem mergerOf_setL2 (g n : Nat) (x : L2) (s : State) (port' : Nat) : mergerOf (setL2 g n x s) port' = mergerOf s port' := rfl
@[simp] theorem policerOf_setL2 (g n : Nat) (x : L2) (s : State) (port' : Nat) : policerOf (setL2 g n x s) port' = policerOf s port' := rfl

/-! `setUpBudget` -/

@[simp] theorem setUpBudget_tb (slice port : Nat) (x : Budget) (s : State) : (setUpBudget slice port x s).tb = s.tb := rfl
@[simp] theorem setUpBudget_ctl (slice port : Nat) (x : Budget) (s : State) : (setUpBudget slice port x s).ctl = s.ctl := rfl
@[simp] theorem setUpBudget_boot (slice port : Nat) (x : Budget) (s : State) : (setUpBudget slice port x s).boot = s.boot := rfl
@[simp] theorem setUpBudget_pwr (slice port : Nat) (x : Budget) (s : State) : (setUpBudget slice port x s).pwr = s.pwr := rfl
@[simp] theorem setUpBudget_pon (slice port : Nat) (x : Budget) (s : State) : (setUpBudget slice port x s).pon = s.pon := rfl
@[simp] theorem setUpBudget_time (slice port : Nat) (x : Budget) (s : State) : (setUpBudget slice port x s).time = s.time := rfl
@[simp] theorem setUpBudget_opt (slice port : Nat) (x : Budget) (s : State) : (setUpBudget slice port x s).opt = s.opt := rfl
@[simp] theorem setUpBudget_lane (slice port : Nat) (x : Budget) (s : State) : (setUpBudget slice port x s).lane = s.lane := rfl
@[simp] theorem setUpBudget_ciph (slice port : Nat) (x : Budget) (s : State) : (setUpBudget slice port x s).ciph = s.ciph := rfl
@[simp] theorem setUpBudget_tdm (slice port : Nat) (x : Budget) (s : State) : (setUpBudget slice port x s).tdm = s.tdm := rfl
@[simp] theorem setUpBudget_red (slice port : Nat) (x : Budget) (s : State) : (setUpBudget slice port x s).red = s.red := rfl
@[simp] theorem setUpBudget_out (slice port : Nat) (x : Budget) (s : State) : (setUpBudget slice port x s).out = s.out := rfl
@[simp] theorem setUpBudget_free (slice port : Nat) (x : Budget) (s : State) : (setUpBudget slice port x s).free = s.free := rfl
@[simp] theorem setUpBudget_pending (slice port : Nat) (x : Budget) (s : State) : (setUpBudget slice port x s).pending = s.pending := rfl
@[simp] theorem pipeOf_setUpBudget (slice port : Nat) (x : Budget) (s : State) (p' : Nat) : pipeOf (setUpBudget slice port x s) p' = pipeOf s p' := rfl
@[simp] theorem lowMark_setUpBudget (slice port : Nat) (x : Budget) (s : State) (h' : Nat) : lowMark (setUpBudget slice port x s) h' = lowMark s h' := rfl
@[simp] theorem profileOf_setUpBudget (slice port : Nat) (x : Budget) (s : State) (q' : Nat) (x' : Queue) : profileOf (setUpBudget slice port x s) q' x' = profileOf s q' x' := rfl
@[simp] theorem schedOf_setUpBudget (slice port : Nat) (x : Budget) (s : State) (sp' p' : Nat) : schedOf (setUpBudget slice port x s) sp' p' = schedOf s sp' p' := rfl
@[simp] theorem upBudget_setUpBudget (slice port : Nat) (x : Budget) (s : State) : upBudget (setUpBudget slice port x s) slice port = x := by simp [upBudget, setUpBudget]
@[simp] theorem mergerOf_setUpBudget (slice port : Nat) (x : Budget) (s : State) (port' : Nat) : mergerOf (setUpBudget slice port x s) port' = mergerOf s port' := rfl
@[simp] theorem policerOf_setUpBudget (slice port : Nat) (x : Budget) (s : State) (port' : Nat) : policerOf (setUpBudget slice port x s) port' = policerOf s port' := rfl

/-! `setRootPtrs` -/

@[simp] theorem setRootPtrs_tb (g root : Nat) (m : KMap Nat) (s : State) : (setRootPtrs g root m s).tb = s.tb := rfl
@[simp] theorem setRootPtrs_ctl (g root : Nat) (m : KMap Nat) (s : State) : (setRootPtrs g root m s).ctl = s.ctl := rfl
@[simp] theorem setRootPtrs_boot (g root : Nat) (m : KMap Nat) (s : State) : (setRootPtrs g root m s).boot = s.boot := rfl
@[simp] theorem setRootPtrs_pwr (g root : Nat) (m : KMap Nat) (s : State) : (setRootPtrs g root m s).pwr = s.pwr := rfl
@[simp] theorem setRootPtrs_pon (g root : Nat) (m : KMap Nat) (s : State) : (setRootPtrs g root m s).pon = s.pon := rfl
@[simp] theorem setRootPtrs_time (g root : Nat) (m : KMap Nat) (s : State) : (setRootPtrs g root m s).time = s.time := rfl
@[simp] theorem setRootPtrs_opt (g root : Nat) (m : KMap Nat) (s : State) : (setRootPtrs g root m s).opt = s.opt := rfl
@[simp] theorem setRootPtrs_lane (g root : Nat) (m : KMap Nat) (s : State) : (setRootPtrs g root m s).lane = s.lane := rfl
@[simp] theorem setRootPtrs_ciph (g root : Nat) (m : KMap Nat) (s : State) : (setRootPtrs g root m s).ciph = s.ciph := rfl
@[simp] theorem setRootPtrs_tdm (g root : Nat) (m : KMap Nat) (s : State) : (setRootPtrs g root m s).tdm = s.tdm := rfl
@[simp] theorem setRootPtrs_red (g root : Nat) (m : KMap Nat) (s : State) : (setRootPtrs g root m s).red = s.red := rfl
@[simp] theorem setRootPtrs_out (g root : Nat) (m : KMap Nat) (s : State) : (setRootPtrs g root m s).out = s.out := rfl
@[simp] theorem setRootPtrs_free (g root : Nat) (m : KMap Nat) (s : State) : (setRootPtrs g root m s).free = s.free := rfl
@[simp] theorem setRootPtrs_pending (g root : Nat) (m : KMap Nat) (s : State) : (setRootPtrs g root m s).pending = s.pending := rfl
@[simp] theorem pipeOf_setRootPtrs (g root : Nat) (m : KMap Nat) (s : State) (p' : Nat) : pipeOf (setRootPtrs g root m s) p' = pipeOf s p' := rfl
@[simp] theorem lowMark_setRootPtrs (g root : Nat) (m : KMap Nat) (s : State) (h' : Nat) : lowMark (setRootPtrs g root m s) h' = lowMark s h' := rfl
@[simp] theorem profileOf_setRootPtrs (g root : Nat) (m : KMap Nat) (s : State) (q' : Nat) (x' : Queue) : profileOf (setRootPtrs g root m s) q' x' = profileOf s q' x' := rfl
@[simp] theorem schedOf_setRootPtrs (g root : Nat) (m : KMap Nat) (s : State) (sp' p' : Nat) : schedOf (setRootPtrs g root m s) sp' p' = schedOf s sp' p' := rfl
@[simp] theorem upBudget_setRootPtrs (g root : Nat) (m : KMap Nat) (s : State) (slice' port' : Nat) : upBudget (setRootPtrs g root m s) slice' port' = upBudget s slice' port' := rfl
@[simp] theorem mergerOf_setRootPtrs (g root : Nat) (m : KMap Nat) (s : State) (port' : Nat) : mergerOf (setRootPtrs g root m s) port' = mergerOf s port' := rfl
@[simp] theorem policerOf_setRootPtrs (g root : Nat) (m : KMap Nat) (s : State) (port' : Nat) : policerOf (setRootPtrs g root m s) port' = policerOf s port' := rfl

/-! `setMerger` -/

@[simp] theorem setMerger_tb (port : Nat) (m : Merger) (s : State) : (setMerger port m s).tb = s.tb := rfl
@[simp] theorem setMerger_ctl (port : Nat) (m : Merger) (s : State) : (setMerger port m s).ctl = s.ctl := rfl
@[simp] theorem setMerger_boot (port : Nat) (m : Merger) (s : State) : (setMerger port m s).boot = s.boot := rfl
@[simp] theorem setMerger_pwr (port : Nat) (m : Merger) (s : State) : (setMerger port m s).pwr = s.pwr := rfl
@[simp] theorem setMerger_pon (port : Nat) (m : Merger) (s : State) : (setMerger port m s).pon = s.pon := rfl
@[simp] theorem setMerger_time (port : Nat) (m : Merger) (s : State) : (setMerger port m s).time = s.time := rfl
@[simp] theorem setMerger_opt (port : Nat) (m : Merger) (s : State) : (setMerger port m s).opt = s.opt := rfl
@[simp] theorem setMerger_lane (port : Nat) (m : Merger) (s : State) : (setMerger port m s).lane = s.lane := rfl
@[simp] theorem setMerger_ciph (port : Nat) (m : Merger) (s : State) : (setMerger port m s).ciph = s.ciph := rfl
@[simp] theorem setMerger_tdm (port : Nat) (m : Merger) (s : State) : (setMerger port m s).tdm = s.tdm := rfl
@[simp] theorem setMerger_red (port : Nat) (m : Merger) (s : State) : (setMerger port m s).red = s.red := rfl
@[simp] theorem setMerger_out (port : Nat) (m : Merger) (s : State) : (setMerger port m s).out = s.out := rfl
@[simp] theorem setMerger_free (port : Nat) (m : Merger) (s : State) : (setMerger port m s).free = s.free := rfl
@[simp] theorem setMerger_pending (port : Nat) (m : Merger) (s : State) : (setMerger port m s).pending = s.pending := rfl
@[simp] theorem pipeOf_setMerger (port : Nat) (m : Merger) (s : State) (p' : Nat) : pipeOf (setMerger port m s) p' = pipeOf s p' := rfl
@[simp] theorem lowMark_setMerger (port : Nat) (m : Merger) (s : State) (h' : Nat) : lowMark (setMerger port m s) h' = lowMark s h' := rfl
@[simp] theorem profileOf_setMerger (port : Nat) (m : Merger) (s : State) (q' : Nat) (x' : Queue) : profileOf (setMerger port m s) q' x' = profileOf s q' x' := rfl
@[simp] theorem schedOf_setMerger (port : Nat) (m : Merger) (s : State) (sp' p' : Nat) : schedOf (setMerger port m s) sp' p' = schedOf s sp' p' := rfl
@[simp] theorem upBudget_setMerger (port : Nat) (m : Merger) (s : State) (slice' port' : Nat) : upBudget (setMerger port m s) slice' port' = upBudget s slice' port' := rfl
@[simp] theorem mergerOf_setMerger (port : Nat) (m : Merger) (s : State) : mergerOf (setMerger port m s) port = m := by simp [mergerOf, setMerger]
theorem mergerOf_setMerger_other (port : Nat) (m : Merger) (s : State) (port' : Nat) (h : port' ≠ port) : mergerOf (setMerger port m s) port' = mergerOf s port' := by
  simp [mergerOf, setMerger, kgetD_kset_other _ _ _ _ _ h]
@[simp] theorem policerOf_setMerger (port : Nat) (m : Merger) (s : State) (port' : Nat) : policerOf (setMerger port m s) port' = policerOf s port' := rfl

/-! `setPolicer` -/

@[simp] theorem setPolicer_tb (port : Nat) (x : Policer) (s : State) : (setPolicer port x s).tb = s.tb := rfl
@[simp] theorem setPolicer_ctl (port : Nat) (x : Policer) (s : State) : (setPolicer port x s).ctl = s.ctl := rfl
@[simp] theorem setPolicer_boot (port : Nat) (x : Policer) (s : State) : (setPolicer port x s).boot = s.boot := rfl
@[simp] theorem setPolicer_pwr (port : Nat) (x : Policer) (s : State) : (setPolicer port x s).pwr = s.pwr := rfl
@[simp] theorem setPolicer_pon (port : Nat) (x : Policer) (s : State) : (setPolicer port x s).pon = s.pon := rfl
@[simp] theorem setPolicer_time (port : Nat) (x : Policer) (s : State) : (setPolicer port x s).time = s.time := rfl
@[simp] theorem setPolicer_opt (port : Nat) (x : Policer) (s : State) : (setPolicer port x s).opt = s.opt := rfl
@[simp] theorem setPolicer_lane (port : Nat) (x : Policer) (s : State) : (setPolicer port x s).lane = s.lane := rfl
@[simp] theorem setPolicer_ciph (port : Nat) (x : Policer) (s : State) : (setPolicer port x s).ciph = s.ciph := rfl
@[simp] theorem setPolicer_tdm (port : Nat) (x : Policer) (s : State) : (setPolicer port x s).tdm = s.tdm := rfl
@[simp] theorem setPolicer_red (port : Nat) (x : Policer) (s : State) : (setPolicer port x s).red = s.red := rfl
@[simp] theorem setPolicer_out (port : Nat) (x : Policer) (s : State) : (setPolicer port x s).out = s.out := rfl
@[simp] theorem setPolicer_free (port : Nat) (x : Policer) (s : State) : (setPolicer port x s).free = s.free := rfl
@[simp] theorem setPolicer_pending (port : Nat) (x : Policer) (s : State) : (setPolicer port x s).pending = s.pending := rfl
@[simp] theorem pipeOf_setPolicer (port : Nat) (x : Policer) (s : State) (p' : Nat) : pipeOf (setPolicer port x s) p' = pipeOf s p' := rfl
@[simp] theorem lowMark_setPolicer (port : Nat) (x : Policer) (s : State) (h' : Nat) : lowMark (setPolicer port x s) h' = lowMark s h' := rfl
@[simp] theorem profileOf_setPolicer (port : Nat) (x : Policer) (s : State) (q' : Nat) (x' : Queue) : profileOf (setPolicer port x s) q' x' = profileOf s q' x' := rfl
@[simp] theorem schedOf_setPolicer (port : Nat) (x : Policer) (s : State) (sp' p' : Nat) : schedOf (setPolicer port x s) sp' p' = schedOf s sp' p' := rfl
@[simp] theorem upBudget_setPolicer (port : Nat) (x : Policer) (s : State) (slice' port' : Nat) : upBudget (setPolicer port x s) slice' port' = upBudget s slice' port' := rfl
@[simp] theorem mergerOf_setPolicer (port : Nat) (x : Policer) (s : State) (port' : Nat) : mergerOf (setPolicer port x s) port' = mergerOf s port' := rfl
@[simp] theorem policerOf_setPolicer (port : Nat) (x : Policer) (s : State) : policerOf (setPolicer port x s) port = x := by simp [policerOf, setPolicer]
theorem policerOf_setPolicer_other (port : Nat) (x : Policer) (s : State) (port' : Nat) (h : port' ≠ port) : policerOf (setPolicer port x s) port' = policerOf s port' := by
  simp [policerOf, setPolicer, kgetD_kset_other _ _ _ _ _ h]

/-! `setBoot` -/

@[simp] theorem setBoot_tb (x : Boot) (s : State) : (setBoot x s).tb = s.tb := rfl
@[simp] theorem setBoot_ctl (x : Boot) (s : State) : (setBoot x s).ctl = s.ctl := rfl
@[simp] theorem setBoot_pwr (x : Boot) (s : State) : (setBoot x s).pwr = s.pwr := rfl
@[simp] theorem setBoot_fwd (x : Boot) (s : State) : (setBoot x s).fwd = s.fwd := rfl
@[simp] theorem setBoot_pon (x : Boot) (s : State) : (setBoot x s).pon = s.pon := rfl
@[simp] theorem setBoot_time (x : Boot) (s : State) : (setBoot x s).time = s.time := rfl
@[simp] theorem setBoot_opt (x : Boot) (s : State) : (setBoot x s).opt = s.opt := rfl
@[simp] theorem setBoot_lane (x : Boot) (s : State) : (setBoot x s).lane = s.lane := rfl
@[simp] theorem setBoot_ciph (x : Boot) (s : State) : (setBoot x s).ciph = s.ciph := rfl
@[simp] theorem setBoot_tdm (x : Boot) (s : State) : (setBoot x s).tdm = s.tdm := rfl
@[simp] theorem setBoot_red (x : Boot) (s : State) : (setBoot x s).red = s.red := rfl
@[simp] theorem setBoot_out (x : Boot) (s : State) : (setBoot x s).out = s.out := rfl
@[simp] theorem setBoot_free (x : Boot) (s : State) : (setBoot x s).free = s.free := rfl
@[simp] theorem setBoot_pending (x : Boot) (s : State) : (setBoot x s).pending = s.pending := rfl

end Sys2Proof.Machine
end

