-- ==== Sys2Proof/Laws/Calls.lean ====
section
/-! SUPPORT. What the operations every call goes through can do: the checks in front, a served call, a call that reads or acts, and
the parts of the State that reading a call and answering it leave. -/

namespace Sys2Proof.Machine

/-- A served call passes the checks. -/
theorem front_ok {sp : CallSpec} {c : Call} {s : State} (h : Served sp c s) : front sp c s = .ok := by
  obtain ⟨h1, h2, h3, h4, h5, h6, h7, h8⟩ := h
  have h4' : ¬ ((chanOf s c.chan).session = none ∧ ¬ sp.code = 1 ∧ ¬ sp.code = 3) := by
    rintro ⟨a, b, d⟩; rcases h4 with h | h | h <;> simp_all
  unfold front
  simp only [versionOf] at h5
  rw [if_neg (by simpa [h1, h3] using h2), if_neg (by simpa [and_assoc] using h4'), if_neg (by omega),
    if_neg (by simpa using h6), if_neg (by simpa using h7), if_neg (by simpa using h8)]

/-- A served call runs its body on the state in which it is read. -/
theorem serve_served {sp : CallSpec} {c : Call} {s : State} (h : Served sp c s) (b : State → State) :
    serve sp c s b = .next (b (readCall sp.code c s)) := by simp [serve, front_ok h]

/-- A served call that reads answers what its body gives. -/
theorem serveRead_done {sp : CallSpec} {c : Call} {s : State} (h : Served sp c s) (b : State → Res (List Word)) {ws : List Word}
    (hb : b (readCall sp.code c s) = .ok ws) : serveRead sp c s b = .next (respond sp.code c .done ws (readCall sp.code c s)) := by
  simp [serveRead, serve_served h, hb]

/-- A served call that reads answers the status its body refuses with. -/
theorem serveRead_refused {sp : CallSpec} {c : Call} {s : State} (h : Served sp c s) (b : State → Res (List Word)) {e : Status}
    (hb : b (readCall sp.code c s) = .error e) : serveRead sp c s b = .next (respond sp.code c e [] (readCall sp.code c s)) := by
  simp [serveRead, serve_served h, hb]

/-- A served call that acts leaves what its body gives and answers. -/
theorem serveAct_done {sp : CallSpec} {c : Call} {s : State} (h : Served sp c s) (b : State → Res (State × List Word)) {ws : List Word} {t : State}
    (hb : b (readCall sp.code c s) = .ok (t, ws)) : serveAct sp c s b = .next (respond sp.code c .done ws t) := by
  simp [serveAct, serve_served h, hb]

/-- A served call that is refused acts on nothing. -/
theorem serveAct_refused {sp : CallSpec} {c : Call} {s : State} (h : Served sp c s) (b : State → Res (State × List Word)) {e : Status}
    (hb : b (readCall sp.code c s) = .error e) : serveAct sp c s b = .next (respond sp.code c e [] (readCall sp.code c s)) := by
  simp [serveAct, serve_served h, hb]

/-- The whole of what a call can do: nothing, undefined use, a refusal, or its body. -/
theorem serve_cases (sp : CallSpec) (c : Call) (s : State) (b : State → State) :
    serve sp c s b = .next s ∨ (∃ r, serve sp c s b = .fault (.undefinedUse r)) ∨
      (∃ e, serve sp c s b = .next (respond sp.code c e [] (readCall sp.code c s))) ∨ serve sp c s b = .next (b (readCall sp.code c s)) := by
  unfold serve
  split
  · exact .inl rfl
  · exact .inr (.inl ⟨_, rfl⟩)
  · exact .inr (.inr (.inl ⟨_, rfl⟩))
  · exact .inr (.inr (.inr rfl))

/-- The tests of a body. -/
@[simp] theorem need_true (st : Status) : need true st = .ok () := rfl
@[simp] theorem need_false (st : Status) : need false st = .error st := rfl
@[simp] theorem res_bind_ok {α β : Type} (a : α) (f : α → Res β) : (Except.ok a >>= f : Res β) = f a := rfl
@[simp] theorem res_bind_error {α β : Type} (e : Status) (f : α → Res β) : (Except.error e >>= f : Res β) = .error e := rfl

end Sys2Proof.Machine
end

