-- ==== Sys2Proof/Laws/Flash.lean ====
section
/-! SUPPORT. The laws of the flash: every operation on it keeps the canonical form, a byte reads as last written, and no other byte
changes (R111, R114). -/

namespace Sys2Proof.Machine

theorem mem_kset {α : Type} (m : KMap α) (k : Nat) (a : α) (e : Nat × α) (h : e ∈ kset m k a) : e = (k, a) ∨ e ∈ m := by
  induction m with
  | nil => simp [kset] at h; exact .inl h
  | cons x t ih =>
    obtain ⟨j, b⟩ := x
    simp only [kset] at h
    split at h
    · simpa using h
    · split at h
      · rename_i h2; subst h2; simp only [List.mem_cons] at *; tauto
      · simp only [List.mem_cons] at *
        rcases h with h | h
        · exact .inr (.inl h)
        · rcases ih h with h | h
          · exact .inl h
          · exact .inr (.inr h)

theorem mem_kerase {α : Type} (m : KMap α) (k : Nat) (e : Nat × α) (h : e ∈ kerase m k) : e ∈ m := by
  induction m with
  | nil => exact h
  | cons x t ih =>
    obtain ⟨j, b⟩ := x
    simp only [kerase] at h
    split at h
    · exact List.mem_cons_of_mem _ h
    · simp only [List.mem_cons] at *
      rcases h with h | h
      · exact .inl h
      · exact .inr (ih h)

/-- A byte written keeps the canonical form. -/
theorem flashPut_wf (m : KMap Byte) (a : Nat) (b : Byte) (h : Memory.wf m = true) (ha : a < 2 * slotSize) : Memory.wf (flashPut m a b) = true := by
  simp only [Memory.wf, Bool.and_eq_true, List.all_eq_true] at *
  unfold flashPut
  split
  · exact ⟨kwf_kerase m a h.1, fun e he => h.2 e (mem_kerase m a e he)⟩
  · refine ⟨kwf_kset m a b h.1, fun e he => ?_⟩
    rcases mem_kset m a b e he with rfl | he
    · rename_i hb; exact ⟨decide_eq_true hb, decide_eq_true ha⟩
    · exact h.2 e he

/-- Bytes written within the slots keep the canonical form. -/
theorem flashWrite_wf (m : KMap Byte) (a : Nat) (bs : List Byte) (h : Memory.wf m = true) (ha : a + bs.length ≤ 2 * slotSize) :
    Memory.wf (flashWrite m a bs) = true := by
  induction bs generalizing m a with
  | nil => exact h
  | cons b t ih =>
    simp only [List.length_cons] at ha
    exact ih (flashPut m a b) (a + 1) (flashPut_wf m a b h (by omega)) (by omega)

/-- A byte written reads as written. -/
theorem flashPut_same (m : KMap Byte) (a : Nat) (b : Byte) (h : Memory.wf m = true) : kgetD (flashPut m a b) a 0xFF = b := by
  simp only [Memory.wf, Bool.and_eq_true] at h
  unfold flashPut
  split
  · rename_i hb; subst hb; simp [kgetD, kget_kerase_same m a h.1]
  · simp

/-- A byte written changes no other byte. -/
theorem flashPut_other (m : KMap Byte) (a i : Nat) (b : Byte) (h : i ≠ a) : kgetD (flashPut m a b) i 0xFF = kgetD m i 0xFF := by
  unfold flashPut
  split
  · simp [kgetD, kget_kerase_other m a i h]
  · exact kgetD_kset_other m a i b 0xFF h

/-- Bytes written change nothing below or above them. -/
theorem flashWrite_other (m : KMap Byte) (a i : Nat) (bs : List Byte) (h : i < a ∨ a + bs.length ≤ i) :
    kgetD (flashWrite m a bs) i 0xFF = kgetD m i 0xFF := by
  induction bs generalizing m a with
  | nil => rfl
  | cons b t ih =>
    simp only [List.length_cons] at h
    show kgetD (flashWrite (flashPut m a b) (a + 1) t) i 0xFF = _
    rw [ih (flashPut m a b) (a + 1) (by omega), flashPut_other m a i b (by omega)]

end Sys2Proof.Machine
end

