-- ==== Sys2Proof/Laws/Keep.lean ====
section
/-! SUPPORT. What almost no command changes: the security version fuse, the owner key fuses, the flash and the queue of waiting
commands; and the shapes in which the lemmas of the Keep files say that an operation leaves them alone. -/

namespace Sys2Proof.Machine

/-- The fuses, the flash and the waiting commands of a state. -/
abbrev Kept := Nat × List Byte × Nat × KMap Byte × List Instr

/-- The fuses, the flash and the waiting commands. -/
def kept (s : State) : Kept := (s.boot.svnMin, s.boot.ownerHash, s.boot.ownerState, s.boot.flash, s.pending)

/-- An update that leaves `boot` and `pending` alone leaves what is kept. -/
@[simp] theorem kept_with (s : State) (tb : Nat) (ctl : Control) (pwr : Power) (fwd : Fwd) (pon : Pon) (time : TimeBase) (opt : Optics)
    (lane : Lanes) (ciph : Cipher) (tdm : Tdm) (red : Redund) (out : List Output) (free : Nat) :
    kept ⟨tb, ctl, s.boot, pwr, fwd, pon, time, opt, lane, ciph, tdm, red, out, free, s.pending⟩ = kept s := rfl

/-- An update of `boot` that leaves its fuses and its flash alone leaves what is kept. -/
@[simp] theorem kept_boot (s : State) (tb : Nat) (ctl : Control) (pwr : Power) (fwd : Fwd) (pon : Pon) (time : TimeBase) (opt : Optics)
    (lane : Lanes) (ciph : Cipher) (tdm : Tdm) (red : Redund) (out : List Output) (free : Nat) (a : Bool) (b c d e f g h : Nat)
    (i : Option Nat) (j : Nat) (l : KMap (List Byte)) (m : Nat) (n o : Option Nat) (q r : Bool) (u : Nat) (v : Bool) :
    kept ⟨tb, ctl, ⟨a, b, c, d, e, f, g, h, i, s.boot.svnMin, j, l, m, s.boot.ownerHash, s.boot.ownerState, s.boot.flash, n, o, q, r, u, v⟩, pwr,
      fwd, pon, time, opt, lane, ciph, tdm, red, out, free, s.pending⟩ = kept s := rfl

/-- A result that, if it is a state, keeps `k`. -/
def ResKept (k : Kept) (r : Res State) : Prop := match r with | .ok t => kept t = k | .error _ => True

/-- A result that, if it carries a state, keeps `k`. -/
def PairKept {α : Type} (k : Kept) (r : Res (State × α)) : Prop := match r with | .ok x => kept x.1 = k | .error _ => True

@[simp] theorem resKept_ok (k : Kept) (t : State) : ResKept k (.ok t) ↔ kept t = k := Iff.rfl
@[simp] theorem resKept_pure (k : Kept) (t : State) : ResKept k (pure t) ↔ kept t = k := Iff.rfl
@[simp] theorem resKept_error (k : Kept) (e : Status) : ResKept k (.error e) := trivial
@[simp] theorem resKept_throw (k : Kept) (e : Status) : ResKept k (throw e) := trivial
@[simp] theorem pairKept_ok {α : Type} (k : Kept) (x : State × α) : PairKept k (.ok x) ↔ kept x.1 = k := Iff.rfl
@[simp] theorem pairKept_pure {α : Type} (k : Kept) (x : State × α) : PairKept k (pure x) ↔ kept x.1 = k := Iff.rfl
@[simp] theorem pairKept_error {α : Type} (k : Kept) (e : Status) : PairKept (α := α) k (.error e) := trivial
@[simp] theorem pairKept_throw {α : Type} (k : Kept) (e : Status) : PairKept (α := α) k (throw e) := trivial

/-- A result after a test that may refuse. -/
theorem resKept_bind {β : Type} (k : Kept) (x : Res β) (g : β → Res State) (h : ∀ b, x = .ok b → ResKept k (g b)) : ResKept k (x >>= g) := by
  cases x with
  | error e => trivial
  | ok b => exact h b rfl

theorem pairKept_bind {α β : Type} (k : Kept) (x : Res β) (g : β → Res (State × α)) (h : ∀ b, x = .ok b → PairKept k (g b)) :
    PairKept k (x >>= g) := by
  cases x with
  | error e => trivial
  | ok b => exact h b rfl

/-- A result after another one that keeps `k`. -/
theorem resKept_bind_state (k : Kept) (x : Res State) (g : State → Res State) (hx : ResKept k x) (h : ∀ t, kept t = k → ResKept k (g t)) :
    ResKept k (x >>= g) := by
  cases x with
  | error e => trivial
  | ok b => exact h b hx

@[simp] theorem resKept_ite (k : Kept) (c : Prop) [Decidable c] (x y : Res State) (hx : ResKept k x) (hy : ResKept k y) : ResKept k (if c then x else y) := by
  split <;> assumption

@[simp] theorem kept_ite (c : Prop) [Decidable c] (x y : State) (k : Kept) (hx : kept x = k) (hy : kept y = k) : kept (if c then x else y) = k := by
  split <;> assumption

/-- A step for each number of a list keeps what each step keeps. -/
@[simp] theorem forEach_kept {α : Type} (l : List α) (f : α → State → State) (s : State) (h : ∀ a s, kept (f a s) = kept s) :
    kept (forEach l f s) = kept s := by
  induction l generalizing s with
  | nil => rfl
  | cons a t ih => rw [forEach, ih, h]

/-- The state of a pair keeps what the pair's first part keeps. -/
theorem kept_fst {α : Type} {x : State × α} {s : State} {a : α} {k : Kept} (h : x = (s, a)) (hx : kept x.1 = k) : kept s = k := by
  rw [h] at hx; exact hx

/-- A step after a result that keeps `k`. -/
theorem resKept_step {k : Kept} {r : Res State} {g : State → Res State} : ResKept k r → (∀ t, kept t = k → ResKept k (g t)) →
    ResKept k (match r with | .ok s => g s | .error e => .error e) := by
  intro hr hg
  cases r with
  | error e => trivial
  | ok t => exact hg t hr

end Sys2Proof.Machine
end

