-- ==== Sys2Proof/Laws/KeepOps.lean ====
section
/-! SUPPORT. The operations of Flags, Access and Ops leave the fuses, the flash and the waiting commands alone. -/

namespace Sys2Proof.Machine

@[simp] theorem emit_kept (o : Output) (s : State) : kept (emit o s) = kept s := rfl

@[simp] theorem setChan_kept (ch : Nat) (c : Channel) (s : State) : kept (setChan ch c s) = kept s := rfl

@[simp] theorem setFunc_kept (fn : Nat) (f : Func) (s : State) : kept (setFunc fn f s) = kept s := rfl

@[simp] theorem drawn_kept (s : State) : kept (drawn s) = kept s := rfl

@[simp] theorem msix_kept (fn vec : Nat) (s : State) : kept (msix fn vec s) = kept s := by
  unfold msix; dsimp only; (repeat' split) <;> simp

@[simp] theorem cnt_kept (id n : Nat) (s : State) : kept (cnt id n s) = kept s := rfl

@[simp] theorem gaugeMax_kept (id n : Nat) (s : State) : kept (gaugeMax id n s) = kept s := rfl

@[simp] theorem gaugeMin_kept (id n : Nat) (s : State) : kept (gaugeMin id n s) = kept s := rfl

@[simp] theorem pushOut_kept (ch : Nat) (event : Bool) (w : Word) (s : State) : kept (pushOut ch event w s) = kept s := by
  unfold pushOut; dsimp only; (repeat' split) <;> simp

@[simp] theorem pushMsg_kept (ch : Nat) (event : Bool) (ws : List Word) (s : State) : kept (pushMsg ch event ws s) = kept s := by
  induction ws generalizing ch event s with
  | nil => simp [pushMsg]
  | cons _ _ ih => simp [pushMsg, ih]

@[simp] theorem sendMsg_kept (ch : Nat) (event : Bool) (ws : List Word) (s : State) : kept (sendMsg ch event ws s) = kept s := by
  simp [sendMsg]

@[simp] theorem setChanEvt_kept (ch src : Nat) (e : ChanEvt) (s : State) : kept (setChanEvt ch src e s) = kept s := rfl

@[simp] theorem sendEvt_kept (ch src : Nat) (s : State) : kept (sendEvt ch src s) = kept s := by
  simp [sendEvt]

@[simp] theorem setPend_kept (fn src : Nat) (s : State) : kept (setPend fn src s) = kept s := by
  simp [setPend]

@[simp] theorem noteEvt_kept (src : Nat) (own : List Nat) (detail : List Word) (ch : Nat) (s : State) : kept (noteEvt src own detail ch s) = kept s := by
  unfold noteEvt; dsimp only; (repeat' split) <;> simp

@[simp] theorem raise_kept (src : Nat) (own : List Nat) (detail : List Word) (s : State) : kept (raise src own detail s) = kept s := by
  simp [raise]

@[simp] theorem heldMore_kept (src : Nat) (own : List Nat) (k ch : Nat) (s : State) : kept (heldMore src own k ch s) = kept s := by
  unfold heldMore; split <;> rfl

@[simp] theorem raiseN_kept (k src : Nat) (own : List Nat) (detail : List Word) (s : State) : kept (raiseN k src own detail s) = kept s := by
  unfold raiseN; rw [raise_kept]; split
  · rfl
  · exact forEach_kept _ _ _ fun _ _ => heldMore_kept _ _ _ _ _

@[simp] theorem setDom_kept (d : Nat) (x : Domain) (s : State) : kept (setDom d x s) = kept s := rfl

@[simp] theorem setSpan_kept (sp : Nat) (x : Span) (s : State) : kept (setSpan sp x s) = kept s := rfl

@[simp] theorem setPier_kept (sp p : Nat) (x : Pier) (s : State) : kept (setPier sp p x s) = kept s := rfl

@[simp] theorem setOnu_kept (sp o : Nat) (x : Onu) (s : State) : kept (setOnu sp o x s) = kept s := rfl

@[simp] theorem setAlloc_kept (sp a : Nat) (x : Alloc) (s : State) : kept (setAlloc sp a x s) = kept s := rfl

@[simp] theorem modSpan_kept (sp : Nat) (f : Span → Span) (s : State) : kept (modSpan sp f s) = kept s := rfl

@[simp] theorem modPier_kept (sp p : Nat) (f : Pier → Pier) (s : State) : kept (modPier sp p f s) = kept s := rfl

@[simp] theorem modOnu_kept (sp o : Nat) (f : Onu → Onu) (s : State) : kept (modOnu sp o f s) = kept s := rfl

@[simp] theorem setBus_kept (k : Nat) (x : Bus) (s : State) : kept (setBus k x s) = kept s := rfl

@[simp] theorem modBus_kept (k : Nat) (f : Bus → Bus) (s : State) : kept (modBus k f s) = kept s := rfl

@[simp] theorem setLoop_kept (k n : Nat) (x : Loop) (s : State) : kept (setLoop k n x s) = kept s := rfl

@[simp] theorem modLoop_kept (k n : Nat) (f : Loop → Loop) (s : State) : kept (modLoop k n f s) = kept s := rfl

@[simp] theorem setOptic_kept (sp p : Nat) (x : Optic) (s : State) : kept (setOptic sp p x s) = kept s := rfl

@[simp] theorem modOptic_kept (sp p : Nat) (f : Optic → Optic) (s : State) : kept (modOptic sp p f s) = kept s := rfl

@[simp] theorem setRssi_kept (sp o : Nat) (x : Rssi) (s : State) : kept (setRssi sp o x s) = kept s := rfl

@[simp] theorem setLane_kept (n : Nat) (x : Lane) (s : State) : kept (setLane n x s) = kept s := rfl

@[simp] theorem modLane_kept (n : Nat) (f : Lane → Lane) (s : State) : kept (modLane n f s) = kept s := rfl

@[simp] theorem setPort_kept (n : Nat) (x : Port) (s : State) : kept (setPort n x s) = kept s := rfl

@[simp] theorem setOnuKeys_kept (sp o : Nat) (x : OnuKeys) (s : State) : kept (setOnuKeys sp o x s) = kept s := rfl

@[simp] theorem modOnuKeys_kept (sp o : Nat) (f : OnuKeys → OnuKeys) (s : State) : kept (modOnuKeys sp o f s) = kept s := rfl

@[simp] theorem setPierKeys_kept (sp p : Nat) (x : PierKeys) (s : State) : kept (setPierKeys sp p x s) = kept s := rfl

@[simp] theorem setSecy_kept (n : Nat) (x : SecY) (s : State) : kept (setSecy n x s) = kept s := rfl

@[simp] theorem setSdh_kept (l : Nat) (x : Sdh) (s : State) : kept (setSdh l x s) = kept s := rfl

@[simp] theorem setMsp_kept (x : Msp) (s : State) : kept (setMsp x s) = kept s := rfl

@[simp] theorem setCircuit_kept (c : Nat) (x : Circuit) (s : State) : kept (setCircuit c x s) = kept s := rfl

@[simp] theorem setHawser_kept (x : Hawser) (s : State) : kept (setHawser x s) = kept s := rfl

@[simp] theorem setPair_kept (x : Pair) (s : State) : kept (setPair x s) = kept s := rfl

@[simp] theorem setLan_kept (x : Lanyard) (s : State) : kept (setLan x s) = kept s := rfl

@[simp] theorem setTime_kept (x : TimeBase) (s : State) : kept (setTime x s) = kept s := rfl

@[simp] theorem setPairKey_kept (x : PairKey) (s : State) : kept (setPairKey x s) = kept s := rfl

@[simp] theorem spanEvt_kept (sp k : Nat) (onu : Option Nat) (pier w1 : Nat) (s : State) : kept (spanEvt sp k onu pier w1 s) = kept s := by
  simp [spanEvt]

@[simp] theorem setDefect_kept (sp o d : Nat) (v told : Bool) (s : State) : kept (setDefect sp o d v told s) = kept s := by
  unfold setDefect; dsimp only; (repeat' split) <;> simp

@[simp] theorem queuePloam_kept (sp p : Nat) (m : PMsg) (s : State) : kept (queuePloam sp p m s) = kept s := rfl

@[simp] theorem advance_kept (t : Nat) (s : State) : kept (advance t s) = kept s := rfl

@[simp] theorem setChanRoom_kept (ch : Nat) (old new : Channel) (s : State) : kept (setChanRoom ch old new s) = kept s := by
  unfold setChanRoom; split <;> simp

@[simp] theorem pushIn_kept (ch : Nat) (w : Word) (s : State) : kept (pushIn ch w s) = kept s := by
  simp [pushIn]

@[simp] theorem dropHead_kept (ch : Nat) (s : State) : kept (dropHead ch s) = kept s := by
  simp [dropHead]

@[simp] theorem readCall_kept (code : Nat) (c : Call) (s : State) : kept (readCall code c s) = kept s := by
  simp [readCall]

@[simp] theorem reply_kept (chan seq code : Nat) (st : Status) (ws : List Word) (s : State) : kept (reply chan seq code st ws s) = kept s := by
  simp [reply]

@[simp] theorem respond_kept (code : Nat) (c : Call) (st : Status) (ws : List Word) (s : State) : kept (respond code c st ws s) = kept s := by
  simp [respond]

@[simp] theorem defer__kept (r : Ref) (s : State) : kept (defer_ r s) = kept s := rfl

@[simp] theorem answer_kept (r : Ref) (st : Status) (ws : List Word) (s : State) : kept (answer r st ws s) = kept s := by
  simp [answer]

@[simp] theorem answerOpt_kept (r : Option Ref) (st : Status) (ws : List Word) (s : State) : kept (answerOpt r st ws s) = kept s := by
  unfold answerOpt; split <;> simp

@[simp] theorem setTxns_kept (ts : List Txn) (s : State) : kept (setTxns ts s) = kept s := rfl

@[simp] theorem modTxn_kept (ch handle : Nat) (f : Txn → Txn) (s : State) : kept (modTxn ch handle f s) = kept s := rfl

@[simp] theorem dropTxn_kept (ch handle : Nat) (s : State) : kept (dropTxn ch handle s) = kept s := rfl

@[simp] theorem releaseObj_kept (o : Obj) (s : State) : kept (releaseObj o s) = kept s := rfl

@[simp] theorem addLater_kept (o : Obj) (s : State) : kept (addLater o s) = kept s := rfl

theorem runItems_kept (ap : Item → State → Res State) (n : Nat) (items : List Item) (j : Judged)
    (hap : ∀ i s k, kept s = k → ResKept k (ap i s)) : kept (runItems ap n items j).st = kept j.st := by
  induction items generalizing n j with
  | nil => rfl
  | cons i t ih =>
    have h := hap i j.st _ rfl
    unfold runItems
    split
    · next s' e => rw [ih]; rw [e] at h; exact h
    · rw [ih]

theorem runTxns_kept (ap : Item → State → Res State) (ts : List Txn) (s : State)
    (hap : ∀ i s k, kept s = k → ResKept k (ap i s)) : kept (runTxns ap ts s) = kept s := by
  induction ts generalizing s with
  | nil => rfl
  | cons t r ih => rw [runTxns, ih, runItems_kept ap _ _ _ hap]

end Sys2Proof.Machine
end

