-- ==== Sys2Proof/Laws/KeepLookup.lean ====
section
/-! SUPPORT. The operations of the lookup tables leave the fuses, the flash and the waiting commands alone. -/

namespace Sys2Proof.Machine

@[simp] theorem setPipe_kept (p : Nat) (x : Pipe) (s : State) : kept (setPipe p x s) = kept s := rfl

@[simp] theorem tableLevels_kept (p : Nat) (s : State) : kept (tableLevels p s) = kept s := by
  unfold tableLevels; dsimp only; (repeat' split) <;> simp

@[simp] theorem xpSend_kept (p key : Nat) (s : State) : kept (xpSend p key s) = kept s := by
  refine forEach_kept _ _ _ (fun a s => ?_)
  dsimp only
  (repeat' split) <;> simp

@[simp] theorem limitReached_kept (p span port owner : Nat) (limit : Nat) (s : State) : kept (limitReached p span port owner limit s) = kept s := by
  simp [limitReached]

@[simp] theorem learn_kept (p span port owner : Nat) (r : PortRec) (mac : Nat) (s : State) : kept (learn p span port owner r mac s).1 = kept s := by
  unfold learn; dsimp only; (repeat' split) <;> simp

@[simp] theorem ageAt_kept (p cls : Nat) (w : Where) (s : State) : kept (ageAt p cls w s) = kept s := by
  unfold ageAt; dsimp only; (repeat' split) <;> simp

@[simp] theorem relocate_kept (p b : Nat) (s : State) : kept (relocate p b s) = kept s := by
  unfold relocate; dsimp only; (repeat' split) <;> simp

end Sys2Proof.Machine
end

