-- ==== Sys2Proof/Laws/KeepGates.lean ====
section
/-! SUPPORT. The operations of the gate lists leave the fuses, the flash and the waiting commands alone. -/

namespace Sys2Proof.Machine

@[simp] theorem setSched_kept (sp p : Nat) (x : PierSched) (s : State) : kept (setSched sp p x s) = kept s := rfl

end Sys2Proof.Machine
end

