-- ==== Sys2Proof/Laws/KeepQueues.lean ====
section
/-! SUPPORT. The operations of the Hanks and queues leave the fuses, the flash and the waiting commands alone. -/

namespace Sys2Proof.Machine

/-- Where a spill places a packet keeps `k`, whichever way it ends. -/
def spillKept (k : Kept) (r : (State × Place) ⊕ (State × Nat)) : Prop := match r with | .inl x => kept x.1 = k | .inr x => kept x.1 = k

theorem allocBuf_kept (h : Nat) (s : State) (b : Nat) (t : State) (e : allocBuf h s = some (b, t)) : kept t = kept s := by
  revert e
  unfold allocBuf
  dsimp only
  (repeat' split) <;> simp <;> (intro _ e; subst e; simp)

@[simp] theorem freeBuf_kept (h b : Nat) (s : State) : kept (freeBuf h b s) = kept s := by
  unfold freeBuf; dsimp only; (repeat' split) <;> simp

@[simp] theorem freeCells_kept (cs : List Nat) (s : State) : kept (freeCells cs s) = kept s := by
  simp [freeCells]

@[simp] theorem takeCells_kept (fetch : Bool) (n : Nat) (got : List Nat) (s : State) : kept (takeCells fetch n got s).2.2 = kept s := by
  induction n generalizing got s with
  | zero => rfl
  | succ n ih =>
    unfold takeCells
    extract_lets p
    (repeat' split) <;> first | rfl | (next hb => rw [ih, allocBuf_kept _ _ _ _ hb])

/-- The cells taken and the state, however the taking ended. -/
theorem takeCells_kept_of (fetch : Bool) (n : Nat) (got : List Nat) (s : State) (b : Bool) (l : List Nat) (t : State)
    (e : takeCells fetch n got s = (b, l, t)) : kept t = kept s := by
  rw [← takeCells_kept fetch n got s, e]

@[simp] theorem setQueue_kept (q : Nat) (x : Queue) (s : State) : kept (setQueue q x s) = kept s := rfl

@[simp] theorem notePeak_kept (slice h : Nat) (s : State) : kept (notePeak slice h s) = kept s := rfl

@[simp] theorem countDrop_kept (q cause len : Nat) (looked : Bool) (s : State) : kept (countDrop q cause len looked s) = kept s := by
  unfold countDrop; (repeat' split) <;> simp

@[simp] theorem settleBuf_kept (q h b : Nat) (s : State) : kept (settleBuf q h b s) = kept s := by
  unfold settleBuf; split <;> simp

@[simp] theorem closeTrain_kept (q : Nat) (s : State) : kept (closeTrain q s) = kept s := by
  unfold closeTrain; (repeat' split) <;> simp

@[simp] theorem setMerger_kept (port : Nat) (m : Merger) (s : State) : kept (setMerger port m s) = kept s := rfl

@[simp] theorem clearMerger_kept (g : Nat) (k : L1Kind) (s : State) : kept (clearMerger g k s) = kept s := by
  unfold clearMerger; (repeat' split) <;> rfl

@[simp] theorem clearEmpty_kept (q : Nat) (s : State) : kept (clearEmpty q s) = kept s := by
  unfold clearEmpty; dsimp only; (repeat' split) <;> simp

@[simp] theorem putUnit_kept (owner a : Nat) (bs : List Byte) (s : State) : kept (putUnit owner a bs s) = kept s := rfl

@[simp] theorem putUnits_kept (owner a n : Nat) (bs : List Byte) (s : State) : kept (putUnits owner a n bs s) = kept s := by
  induction n generalizing a bs s with
  | zero => rfl
  | succ _ ih => simp [putUnits, ih]

@[simp] theorem putRecord_kept (q owner next a : Nat) (p : Packet) (s : State) : kept (putRecord q owner next a p s) = kept s := by
  simp [putRecord]

@[simp] theorem askFetches_kept (q : Nat) (s : State) : kept (askFetches q s) = kept s := by
  unfold askFetches; split <;> rfl

@[simp] theorem unqueue_kept (q i : Nat) (s : State) : kept (unqueue q i s) = kept s := by
  unfold unqueue; dsimp only; (repeat' split) <;> simp

@[simp] theorem dropQueued_kept (q i cause : Nat) (s : State) : kept (dropQueued q i cause s) = kept s := by
  unfold dropQueued; split
  · simp
  · split <;> simp

@[simp] theorem headReached_kept (q fuel : Nat) (s : State) : kept (headReached q fuel s) = kept s := by
  induction fuel generalizing q s with
  | zero => simp [headReached]
  | succ _ ih => simp [headReached]; (repeat' split) <;> simp [ih]

@[simp] theorem newHead_kept (q : Nat) (s : State) : kept (newHead q s) = kept s := by
  unfold newHead; split <;> simp

@[simp] theorem stage_kept (q : Nat) (bytes : List Byte) (yellow marked : Bool) (src : Option Nat) (injected : Bool) (s : State) :
    kept (stage q bytes yellow marked src injected s) = kept s := by
  unfold stage
  split
  · simp
  · split
    · next e => simp [takeCells_kept_of _ _ _ _ _ _ _ e]
    · next e => simp [takeCells_kept_of _ _ _ _ _ _ _ e]

theorem opened_kept (q : Nat) (x : Queue) (r : Nat) (s : State) : spillKept (kept s) (placeSpill.opened q x r s) := by
  unfold placeSpill.opened
  dsimp only
  split
  · rfl
  · split
    · rfl
    · next e => split <;> simp [spillKept, allocBuf_kept _ _ _ _ e]

theorem placeSpill_kept (q len : Nat) (s : State) : spillKept (kept s) (placeSpill q len s) := by
  unfold placeSpill
  split
  · rfl
  · dsimp only
    split
    · split
      · simp [spillKept]
      · have h := opened_kept q
        rw [← closeTrain_kept q s]
        exact h _ _ _
    · exact opened_kept _ _ _ _

@[simp] theorem enqueue_kept (q : Nat) (p : Packet) (s : State) : kept (enqueue q p s) = kept s := by
  unfold enqueue; (repeat' split) <;> simp

@[simp] theorem admitShallow_kept (q : Nat) (p : Packet) (s : State) : kept (admitShallow q p s) = kept s := by
  simp [admitShallow]

@[simp] theorem admitSpill_kept (q : Nat) (p : Packet) (s : State) : kept (admitSpill q p s) = kept s := by
  have h := placeSpill_kept q p.bytes.length s
  unfold admitSpill
  dsimp only
  split
  · next e => rw [e] at h; simpa [spillKept] using h
  · next e => rw [e] at h; split <;> simpa [spillKept] using h

@[simp] theorem admitFrame_kept (f : Staged) (s : State) : kept (admitFrame f s) = kept s := by
  have hr (cause : Nat) (looked : Bool) : kept (countDrop f.queue cause f.bytes.length looked (freeCells f.cells s)) = kept s := by simp
  unfold admitFrame
  extract_lets q len refuse
  split
  · exact hr _ _
  · split
    · exact hr _ _
    · split
      · exact hr _ _
      · extract_lets pr pier p
        clear_value pr p pier
        (repeat' split) <;> first | exact hr _ _ | simp

@[simp] theorem touchDesc_kept (q : Nat) (s : State) : kept (touchDesc q s) = kept s := by
  unfold touchDesc; dsimp only; split <;> rfl

@[simp] theorem writeBack_kept (q : Nat) (s : State) : kept (writeBack q s) = kept s := by
  simp [writeBack]

theorem cacheDesc_kept (q : Nat) (s t : State) (e : cacheDesc q s = some t) : kept t = kept s := by
  unfold cacheDesc at e
  dsimp only at e
  split at e
  · simp only [Option.some.injEq] at e; subst e; rfl
  · simp only [Option.map_eq_some_iff] at e
    obtain ⟨v, _, e⟩ := e
    subst e
    exact writeBack_kept v s

@[simp] theorem missDesc_kept (q : Nat) (s : State) : kept (missDesc q s) = kept s := by
  unfold missDesc; split <;> simp

@[simp] theorem queueAdmission_kept (i : Nat) (s : State) : kept (queueAdmission i s) = kept s := by
  unfold queueAdmission; (repeat' split) <;> simp

@[simp] theorem descArrived_kept (q : Nat) (s : State) : kept (descArrived q s) = kept s := by
  unfold descArrived
  split
  · split
    · rfl
    · next e => rw [← cacheDesc_kept _ _ _ e]; simp
  · rfl

@[simp] theorem relink_kept (q i next : Nat) (x : Queue) (s : State) : kept (relink q i next x s) = kept s := by
  unfold relink; (repeat' split) <;> simp

@[simp] theorem spillWritten_kept (q : Nat) (s : State) : kept (spillWritten q s) = kept s := by
  unfold spillWritten; (repeat' split) <;> simp

@[simp] theorem dropDeepRun_kept (q i fuel : Nat) (s : State) : kept (dropDeepRun q i fuel s) = kept s := by
  induction fuel generalizing q i s with
  | zero => simp [dropDeepRun]
  | succ _ ih => simp [dropDeepRun]; (repeat' split) <;> simp [ih]

@[simp] theorem fetchRecord_kept (q i : Nat) (x : Queue) (p : Packet) (bad headerLost : Bool) (s : State) :
    kept (fetchRecord q i x p bad headerLost s) = kept s := by
  unfold fetchRecord
  dsimp only
  (repeat' split) <;> first | rfl | (simp; done) | (next e => rw [← takeCells_kept_of _ _ _ _ _ _ _ e]; simp)

@[simp] theorem deepFetched_kept (q : Nat) (bad headerLost : Bool) (s : State) : kept (deepFetched q bad headerLost s) = kept s := by
  unfold deepFetched; (repeat' split) <;> simp

@[simp] theorem drainStep_kept (q : Nat) (s : State) : kept (drainStep q s) = kept s := by
  unfold drainStep; split <;> simp

@[simp] theorem sendComplete_kept (i : Nat) (s : State) : kept (sendComplete i s) = kept s := by
  unfold sendComplete; split <;> simp

theorem takeHead_kept (q : Nat) (s : State) (p : Packet) (t : State) (e : takeHead q s = some (p, t)) : kept t = kept s := by
  revert e
  unfold takeHead
  dsimp only
  (repeat' split) <;> simp <;> (intro _ e; subst e; simp)

@[simp] theorem dropAll_kept (cause fuel q : Nat) (s : State) : kept (dropAll cause fuel q s) = kept s := by
  induction fuel generalizing cause q s with
  | zero => simp [dropAll]
  | succ _ ih => simp [dropAll, ih]

@[simp] theorem schedLost_kept (g : Nat) (s : State) : kept (schedLost g s) = kept s := rfl

@[simp] theorem drainGroup_kept (g : Nat) (s : State) : kept (drainGroup g s) = kept s := by
  simp [drainGroup]

@[simp] theorem lowRejudge_kept (s : State) : kept (lowRejudge s) = kept s := rfl

@[simp] theorem minFree_kept (s : State) : kept (minFree s) = kept s := forEach_kept _ _ _ fun _ _ => rfl

@[simp] theorem lowCrossed_kept (l : List Nat) (s : State) : kept (lowCrossed l s) = kept s := by simp [lowCrossed]

@[simp] theorem hankPartition_kept (ws : List Word) (s : State) : kept (hankPartition ws s).1 = kept s := by
  unfold hankPartition; dsimp only; (repeat' split) <;> simp

end Sys2Proof.Machine
end

