-- ==== Sys2Proof/Laws/KeepMirror.lean ====
section
/-! SUPPORT. The operations of the mirror records leave the fuses, the flash and the waiting commands alone. -/

namespace Sys2Proof.Machine

@[simp] theorem codewordOut_kept (fs : List Flit) (s : State) : kept (codewordOut fs s) = kept s := by
  unfold codewordOut; dsimp only; split <;> rfl

@[simp] theorem hawserLines_kept (s : State) : kept (hawserLines s) = kept s :=
  forEach_kept _ _ _ fun _ _ => by dsimp only; split <;> rfl

@[simp] theorem idleOut_kept (s : State) : kept (idleOut s) = kept s := rfl

@[simp] theorem flitsOut_kept (fs : List Flit) (s : State) : kept (flitsOut fs s) = kept s := by
  unfold flitsOut; split
  · rw [forEach_kept _ _ _ (by simp), idleOut_kept]
  · rfl

@[simp] theorem recordOut_kept (rtype span : Nat) (data : List Nat) (s : State) : kept (recordOut rtype span data s) = kept s := by
  unfold recordOut; dsimp only; split
  · rfl
  · rw [cnt_kept, flitsOut_kept]; rfl

@[simp] theorem mirrorSpan_kept (rtype sp : Nat) (data : List Nat) (s : State) : kept (mirrorSpan rtype sp data s) = kept s := by
  simp [mirrorSpan]

@[simp] theorem mirrorOnu_kept (sp o : Nat) (s : State) : kept (mirrorOnu sp o s) = kept s := by
  simp [mirrorOnu]

@[simp] theorem mirrorKey_kept (sp : Nat) (onu : Option Nat) (pier ix : Nat) (k : Slot) (s : State) : kept (mirrorKey sp onu pier ix k s) = kept s := by
  simp [mirrorKey]

@[simp] theorem mirrorMsk_kept (sp o : Nat) (s : State) : kept (mirrorMsk sp o s) = kept s := by
  unfold mirrorMsk; dsimp only; split <;> simp

@[simp] theorem mirrorSpanRec_kept (sp : Nat) (s : State) : kept (mirrorSpanRec sp s) = kept s := by
  simp [mirrorSpanRec]

end Sys2Proof.Machine
end

