-- ==== Sys2Proof/Laws/KeepRings.lean ====
section
/-! SUPPORT. The operations of the DMA rings leave the fuses, the flash and the waiting commands alone. -/

namespace Sys2Proof.Machine

@[simp] theorem setRing_kept (fn r : Nat) (x : Ring) (s : State) : kept (setRing fn r x s) = kept s := rfl

@[simp] theorem ringEnable_kept (fn r : Nat) (w : Word) (s : State) : kept (ringEnable fn r w s) = kept s := rfl

@[simp] theorem ringDisable_kept (fn r : Nat) (w : Word) (s : State) : kept (ringDisable fn r w s) = kept s := rfl

@[simp] theorem ringStopped_kept (fn r : Nat) (s : State) : kept (ringStopped fn r s) = kept s := by
  simp [ringStopped]

@[simp] theorem completed_kept (fn r : Nat) (s : State) : kept (completed fn r s) = kept s := by
  unfold completed; dsimp only; (repeat' split) <;> simp

@[simp] theorem ringTimeout_kept (fn r : Nat) (s : State) : kept (ringTimeout fn r s) = kept s := by
  simp [ringTimeout]

@[simp] theorem ringFault_kept (fn r : Nat) (s : State) : kept (ringFault fn r s) = kept s := rfl

@[simp] theorem deliver_kept (fn r : Nat) (w3 : Word) (arrived : Nat) (bytes : List Byte) (s : State) : kept (deliver fn r w3 arrived bytes s) = kept s := by
  unfold deliver; dsimp only; (repeat' split) <;> simp

@[simp] theorem completeTx_kept (fn r result : Nat) (desc : List Word) (s : State) : kept (completeTx fn r result desc s) = kept s := by
  simp [completeTx]

@[simp] theorem omciTx_kept (fn : Nat) (desc : List Word) (buf : List Byte) (s : State) : kept (omciTx fn desc buf s) = kept s := by
  unfold omciTx; dsimp only; (repeat' split) <;> simp

@[simp] theorem puntTx_kept (fn : Nat) (desc : List Word) (buf : List Byte) (s : State) : kept (puntTx fn desc buf s) = kept s := by
  unfold puntTx; split <;> simp

end Sys2Proof.Machine
end

