-- ==== Sys2Proof/Laws/KeepCipher.lean ====
section
/-! SUPPORT. The operations of the encryption engines and keys leave the fuses, the flash and the waiting commands alone. -/

namespace Sys2Proof.Machine

@[simp] theorem keyEvent_kept (sp o cause ix : Nat) (s : State) : kept (keyEvent sp o cause ix s) = kept s := by
  simp [keyEvent]

@[simp] theorem askKey_kept (sp o : Nat) (s : State) : kept (askKey sp o s) = kept s := by
  unfold askKey; dsimp only; (repeat' split) <;> simp

@[simp] theorem fixSwitch_kept (sp o : Nat) (s : State) : kept (fixSwitch sp o s) = kept s := by
  unfold fixSwitch; dsimp only; (repeat' split) <;> simp

@[simp] theorem loadKey_kept (sp o key : Nat) (s : State) : kept (loadKey sp o key s) = kept s := by
  simp [loadKey]

@[simp] theorem clearKeys_kept (sp o : Nat) (s : State) : kept (clearKeys sp o s) = kept s := rfl

@[simp] theorem exchangeTimeout_kept (sp o : Nat) (s : State) : kept (exchangeTimeout sp o s) = kept s := by
  simp [exchangeTimeout]

@[simp] theorem switchOnu_kept (sp o : Nat) (s : State) : kept (switchOnu sp o s) = kept s := by
  simp [switchOnu]

@[simp] theorem switchBcast_kept (sp p ix : Nat) (s : State) : kept (switchBcast sp p ix s) = kept s := by
  unfold switchBcast; dsimp only; (repeat' split) <;> simp

@[simp] theorem keySwitchFrame_kept (sp p : Nat) (s : State) : kept (keySwitchFrame sp p s) = kept s := by
  unfold keySwitchFrame
  rw [forEach_kept _ _ _ (by simp), forEach_kept _ _ _ (by simp)]

@[simp] theorem keyMargin_kept (sp o : Nat) (s : State) : kept (keyMargin sp o s) = kept s := by
  simp [keyMargin]

@[simp] theorem keyExpired_kept (sp o : Nat) (s : State) : kept (keyExpired sp o s) = kept s := by
  simp [keyExpired]

@[simp] theorem keyRetired_kept (sp o : Nat) (s : State) : kept (keyRetired sp o s) = kept s := by
  unfold keyRetired; dsimp only; (repeat' split) <;> simp

@[simp] theorem bcastAging_kept (sp p : Nat) (s : State) : kept (bcastAging sp p s) = kept s := by
  unfold bcastAging; dsimp only; (repeat' split) <;> simp

@[simp] theorem countHolds_kept (sp p : Nat) (s : State) : kept (countHolds sp p s) = kept s := by
  unfold countHolds
  rw [forEach_kept _ _ _ (by intros; simp)]
  split <;> simp

@[simp] theorem drbg_kept (s : State) : kept (drbg s).2 = kept s := rfl

@[simp] theorem drawXts_kept (k : Nat) (s : State) : kept (drawXts k s) = kept s := by
  simp [drawXts]

@[simp] theorem drawWrap_kept (s : State) : kept (drawWrap s) = kept s := by
  unfold drawWrap; split <;> rfl

@[simp] theorem keysReturn_kept (d : Nat) (s : State) : kept (keysReturn d s) = kept s := by
  unfold keysReturn; (repeat' split) <;> rfl

@[simp] theorem dropXts_kept (k : Nat) (s : State) : kept (dropXts k s) = kept s := rfl

@[simp] theorem entropyFail_kept (test : Word) (s : State) : kept (entropyFail test s) = kept s := by
  simp [entropyFail]

@[simp] theorem fixBcast_kept (sp p ix : Nat) (s : State) : kept (fixBcast sp p ix s) = kept s := by
  unfold fixBcast; dsimp only; split <;> rfl

@[simp] theorem bcastAckTimeout_kept (sp p : Nat) (s : State) : kept (bcastAckTimeout sp p s) = kept s := by
  unfold bcastAckTimeout
  exact forEach_kept _ _ _ (fun ix s => by dsimp only; split <;> simp)

@[simp] theorem entropyRecovered_kept (s : State) : kept (entropyRecovered s) = kept s := by
  simp [entropyRecovered]

@[simp] theorem reseed_kept (s : State) : kept (reseed s) = kept s := by
  simp [reseed]

@[simp] theorem pairKeyFail_kept (code : Nat) (s : State) : kept (pairKeyFail code s) = kept s := by
  simp [pairKeyFail]

@[simp] theorem pairKeyStart_kept (s : State) : kept (pairKeyStart s) = kept s := by
  unfold pairKeyStart; dsimp only; split <;> simp

@[simp] theorem pairKeyJudge_kept (s : State) : kept (pairKeyJudge s) = kept s := by
  unfold pairKeyJudge; dsimp only; (repeat' split) <;> simp

@[simp] theorem pairKeyJoin_kept (stage : Nat) (s : State) : kept (pairKeyJoin stage s) = kept s := by
  unfold pairKeyJoin; split <;> simp

@[simp] theorem pairKeyFlit_kept (stage : Nat) (bytes : List Byte) (last : Bool) (s : State) : kept (pairKeyFlit stage bytes last s) = kept s := by
  unfold pairKeyFlit; dsimp only; (repeat' split) <;> simp

@[simp] theorem keyFrame_kept (sp p : Nat) (s : State) : kept (keyFrame sp p s) = kept s := by
  unfold keyFrame; dsimp only; split <;> simp

@[simp] theorem protect_kept (port an : Nat) (a : Sa) (y : SecY) (f : List Byte) (s : State) : kept (protect port an a y f s).1 = kept s := by
  unfold protect; dsimp only; (repeat' split) <;> simp

@[simp] theorem macTx_kept (port : Nat) (f : List Byte) (s : State) : kept (macTx port f s).1 = kept s := by
  unfold macTx; dsimp only; (repeat' split) <;> simp

@[simp] theorem macRx_kept (port : Nat) (f : List Byte) (s : State) : kept (macRx port f s).1 = kept s := by
  unfold macRx; dsimp only; (repeat' split) <;> simp

@[simp] theorem ponKeyRoll_kept (ch : Nat) (ws : List Word) (s : State) (k : Kept) (h : kept s = k) : PairKept k (ponKeyRoll ch ws s) := by
  subst h
  unfold ponKeyRoll
  (repeat' first | exact pairKept_error _ _ | refine pairKept_bind _ _ _ (fun _ _ => ?_) | split) <;> simp

end Sys2Proof.Machine
end

