-- ==== Sys2Proof/Laws/KeepFrames.lean ====
section
/-! SUPPORT. The operations of the downstream and upstream frames leave the fuses, the flash and the waiting commands alone. -/

namespace Sys2Proof.Machine

@[simp] theorem storeStamp_kept (port key stamp : Nat) (s : State) : kept (storeStamp port key stamp s) = kept s := by
  unfold storeStamp; dsimp only; (repeat' split) <;> simp

@[simp] theorem ptpSend_kept (port : Nat) (f : List Byte) (injected clear : Bool) (s : State) : kept (ptpSend port f injected clear s).1 = kept s := by
  unfold ptpSend; dsimp only; (repeat' split) <;> simp

end Sys2Proof.Machine
end

