-- ==== Sys2Proof/Laws/KeepTdm.lean ====
section
/-! SUPPORT. The operations of the TDM block leave the fuses, the flash and the waiting commands alone. -/

namespace Sys2Proof.Machine

@[simp] theorem timEvent_kept (kind ix : Nat) (old new : Bool) (s : State) : kept (timEvent kind ix old new s) = kept s := by
  simp [timEvent]

@[simp] theorem auFrame_kept (l a : Nat) (i : AuIn) (s : State) : kept (auFrame l a i s) = kept s := by
  unfold auFrame; dsimp only; (repeat' split) <;> simp

@[simp] theorem laneTaken_kept (p : Nat) (s : State) : kept (laneTaken p s) = kept s := by
  unfold laneTaken; dsimp only; split <;> rfl

@[simp] theorem swapDone_kept (s : State) : kept (swapDone s) = kept s := by
  unfold swapDone; split <;> simp

@[simp] theorem demapperTakes_kept (l p : Nat) (s : State) : kept (demapperTakes l p s) = kept s := by
  have h (s : State) : kept (swapDone { s with tdm := { s.tdm with tsiOld := kerase s.tdm.tsiOld p } }) = kept s := by rw [swapDone_kept]; rfl
  unfold demapperTakes; dsimp only; (repeat' split) <;> simp [h]

@[simp] theorem tuRead_kept (l : Nat) (i : TuIn) (s : State) : kept (tuRead l i s) = kept s := by
  unfold tuRead; dsimp only; (repeat' split) <;> simp

@[simp] theorem tuFrame_kept (l : Nat) (i : TuIn) (s : State) : kept (tuFrame l i s) = kept s := by
  simp [tuFrame]

@[simp] theorem mspRequests_kept (l : Nat) (s : State) : kept (mspRequests l s) = kept s := rfl

@[simp] theorem laneChange_kept (l : Nat) (before : Nat) (s : State) : kept (laneChange l before s) = kept s := by
  simp [laneChange]

@[simp] theorem lanesJoin_kept (before : List Nat) (s : State) : kept (lanesJoin before s) = kept s :=
  forEach_kept _ _ _ fun _ _ => laneChange_kept _ _ _

@[simp] theorem selectedTell_kept (old new : Nat) (s : State) : kept (selectedTell old new s) = kept s :=
  forEach_kept _ _ _ fun _ _ => raise_kept _ _ _ _

@[simp] theorem selectLane_kept (l : Nat) (s : State) : kept (selectLane l s) = kept s := by
  unfold selectLane; dsimp only; split
  · rfl
  · rw [selectedTell_kept, raise_kept, cnt_kept]; rfl

@[simp] theorem mspEvaluate_kept (s : State) : kept (mspEvaluate s) = kept s := by
  unfold mspEvaluate
  extract_lets
  (repeat' split) <;> rfl

@[simp] theorem mspCommand_kept (cmd : Nat) (s : State) : kept (mspCommand cmd s) = kept s := by
  simp [mspCommand]

@[simp] theorem kBytes_kept (l k1 k2 : Nat) (s : State) : kept (kBytes l k1 k2 s) = kept s := by
  unfold kBytes; dsimp only; (repeat' split) <;> simp

@[simp] theorem mspSwitch_kept (l : Nat) (s : State) : kept (mspSwitch l s) = kept s := by
  unfold mspSwitch; dsimp only; (repeat' split) <;> simp

@[simp] theorem ausFrame_kept (l a : Nat) (is_ : List AuIn) (s : State) : kept (ausFrame l a is_ s) = kept s := by
  induction is_ generalizing l a s with
  | nil => simp [ausFrame]
  | cons _ _ ih => simp [ausFrame]; (repeat' split) <;> simp [ih]

@[simp] theorem stmFrame_kept (l : Nat) (f : StmFrame) (s : State) : kept (stmFrame l f s) = kept s := by
  unfold stmFrame; dsimp only; (repeat' split) <;> simp

@[simp] theorem lofTimer_kept (l : Nat) (s : State) : kept (lofTimer l s) = kept s := by
  simp [lofTimer]

@[simp] theorem b2Window_kept (l : Nat) (sd : Bool) (s : State) : kept (b2Window l sd s) = kept s := by
  simp [b2Window]

@[simp] theorem v5Window_kept (l p : Nat) (sd : Bool) (s : State) : kept (v5Window l p sd s) = kept s := by
  simp [v5Window]

@[simp] theorem mspHoldOffEnd_kept (l : Nat) (s : State) : kept (mspHoldOffEnd l s) = kept s := by
  simp [mspHoldOffEnd]

@[simp] theorem mspWtrEnd_kept (s : State) : kept (mspWtrEnd s) = kept s := by
  simp [mspWtrEnd]

@[simp] theorem mspMismatch_kept (s : State) : kept (mspMismatch s) = kept s := by
  simp [mspMismatch]

@[simp] theorem tsiSwap_kept (s : State) : kept (tsiSwap s) = kept s := by
  unfold tsiSwap
  split
  · rfl
  · extract_lets
    split
    · rfl
    · rw [swapDone_kept]
      exact forEach_kept _ _ _ (by intros; rfl)

theorem cePacketOut_kept (n : Nat) (e1 : List Byte) (aligned : Bool) (first : Nat) (s t : State) (b : List Byte)
    (e : cePacketOut n e1 aligned first s = some (t, b)) : kept t = kept s := by
  revert e
  unfold cePacketOut
  extract_lets c ns d
  split
  · extract_lets ais body pkt t
    intro e
    simp only [Option.some.injEq, Prod.mk.injEq] at e
    rw [← e.1, emit_kept, cnt_kept]
    show kept ns = _
    unfold ns
    split <;> rfl
  · simp

@[simp] theorem lopsEvent_kept (n : Nat) (old new : Bool) (s : State) : kept (lopsEvent n old new s) = kept s := by
  simp [lopsEvent]

@[simp] theorem ceArrive_kept (n seq : Nat) (p : JbPkt) (s : State) : kept (ceArrive n seq p s) = kept s := by
  simp [ceArrive]

@[simp] theorem cePacketIn_kept (bs : List Byte) (s : State) : kept (cePacketIn bs s) = kept s := by
  unfold cePacketIn; (repeat' split) <;> simp

@[simp] theorem playOut_kept (n : Nat) (bs : List Byte) (s : State) : kept (playOut n bs s) = kept s := rfl

@[simp] theorem playMissing_kept (n : Nat) (c : Circuit) (s : State) : kept (playMissing n c s) = kept s := by
  simp [playMissing]

@[simp] theorem justifications_kept (s : State) : kept (justifications s) = kept s :=
  forEach_kept _ _ _ fun _ _ => by dsimp only; (repeat' split) <;> rfl

@[simp] theorem stmFrames_kept (s : State) : kept (stmFrames s) = kept s := by
  unfold stmFrames; dsimp only
  rw [forEach_kept _ (reported _) _ (fun _ _ => rfl), forEach_kept _ (fun _ _ => emit _ _) _ (fun _ _ => rfl)]
  split <;> simp

@[simp] theorem cePlayout_kept (n : Nat) (s : State) : kept (cePlayout n s) = kept s := by
  unfold cePlayout; dsimp only; (repeat' split) <;> simp

@[simp] theorem sdhTraceRead_kept (ch : Nat) (ws : List Word) (s : State) (k : Kept) (h : kept s = k) : PairKept k (sdhTraceRead ch ws s) := by
  subst h
  unfold sdhTraceRead
  dsimp only
  (repeat' first | exact pairKept_error _ _ | refine pairKept_bind _ _ _ (fun _ _ => ?_) | split) <;> simp_all

@[simp] theorem mspCommandCall_kept (ws : List Word) (s : State) (k : Kept) (h : kept s = k) : PairKept k (mspCommandCall ws s) := by
  subst h
  unfold mspCommandCall
  (repeat' first | exact pairKept_error _ _ | refine pairKept_bind _ _ _ (fun _ _ => ?_) | split) <;> simp

end Sys2Proof.Machine
end

