-- ==== Sys2Proof/Laws/KeepSched.lean ====
section
/-! SUPPORT. The operations of the schedulers and shapers leave the fuses, the flash and the waiting commands alone. -/

namespace Sys2Proof.Machine

@[simp] theorem setL1_kept (g n : Nat) (x : L1) (s : State) : kept (setL1 g n x s) = kept s := rfl

@[simp] theorem setL2_kept (g n : Nat) (x : L2) (s : State) : kept (setL2 g n x s) = kept s := rfl

@[simp] theorem setUpBudget_kept (slice port : Nat) (x : Budget) (s : State) : kept (setUpBudget slice port x s) = kept s := rfl

@[simp] theorem giveL1_kept (g : Nat) (p : Picked) (s : State) : kept (giveL1 g p s) = kept s := by
  unfold giveL1
  refine forEach_kept _ _ _ (fun a s => ?_)
  try dsimp only
  (repeat' split) <;> simp

@[simp] theorem giveL2_kept (g : Nat) (p : Picked) (s : State) : kept (giveL2 g p s) = kept s := by
  unfold giveL2
  refine forEach_kept _ _ _ (fun a s => ?_)
  try dsimp only
  (repeat' split) <;> simp

@[simp] theorem giveQ_kept (g : Nat) (p : Picked) (s : State) : kept (giveQ g p s) = kept s := by
  unfold giveQ
  refine forEach_kept _ _ _ (fun a s => ?_)
  try dsimp only
  (repeat' split) <;> simp

@[simp] theorem setRootPtrs_kept (g root : Nat) (m : KMap Nat) (s : State) : kept (setRootPtrs g root m s) = kept s := rfl

@[simp] theorem choose_kept (rdy : Nat → Queue → Bool) (g root : Nat) (s : State) : kept (choose rdy g root s).1 = kept s := by
  unfold choose; dsimp only; (repeat' split) <;> simp

@[simp] theorem notePark_kept (g now : Nat) (old new : Shaper) (s : State) : kept (notePark g now old new s) = kept s := by
  unfold notePark; dsimp only; split <;> simp

@[simp] theorem noteWait_kept (slice port : Nat) (old new : Shaper) (s : State) : kept (noteWait slice port old new s) = kept s := by
  unfold noteWait; split <;> simp

@[simp] theorem parkBudget_kept (slice port : Nat) (b : Budget) (old : Shaper) (busy : Bool) (s : State) :
    kept (parkBudget slice port b old busy s) = kept s := by
  simp [parkBudget]

@[simp] theorem retuneBudget_kept (slice port : Nat) (b : Budget) (s : State) : kept (retuneBudget slice port b s) = kept s := by
  simp [retuneBudget]

@[simp] theorem chargeBudget_kept (slice port len : Nat) (s : State) : kept (chargeBudget slice port len s) = kept s := by
  simp [chargeBudget]

@[simp] theorem chargePath_kept (q len : Nat) (path : Option Path) (s : State) : kept (chargePath q len path s) = kept s := by
  unfold chargePath; dsimp only; (repeat' split) <;> simp

@[simp] theorem offers_kept (port : Nat) (gs : List Nat) (s : State) : kept (offers port gs s).1 = kept s := by
  induction gs generalizing port s with
  | nil => simp [offers]
  | cons _ _ ih => simp [offers, ih]

@[simp] theorem sendOnPort_kept (port : Nat) (f : List Byte) (injected : Bool) (s : State) : kept (sendOnPort port f injected s) = kept s := by
  have h (f : List Byte) (s t : State) (g : Option (List Byte)) (e : macTx port f s = (t, g)) : kept t = kept s := by
    rw [← macTx_kept port f s, e]
  unfold sendOnPort
  dsimp only
  split
  · exact macTx_kept port f s
  · split
    · next e => split <;> simp [h _ _ _ _ e]
    · next e => simp [h _ _ _ _ e]

@[simp] theorem uplinkSelect_kept (port : Nat) (s : State) : kept (uplinkSelect port s) = kept s := by
  unfold uplinkSelect
  split
  · rfl
  · split
    next t l ho =>
    have h1 : kept t = kept s := by rw [← offers_kept port [0, 1, 2, 3] s, ho]
    split
    · exact h1
    · extract_lets q
      split
      · simp [h1]
      · split
        · exact h1
        · next e =>
          extract_lets len d empty m u
          have h2 : kept u = kept s := by rw [chargePath_kept, setMerger_kept, takeHead_kept _ _ _ _ e, h1]
          split <;> simp only [cePacketIn_kept, sendOnPort_kept, h2]

@[simp] theorem sendPiece_kept (sp p frame d : Nat) (r : PortRec) (bs : List Byte) (s : State) : kept (sendPiece sp p frame d r bs s) = kept s := by
  unfold sendPiece; dsimp only; split <;> simp

@[simp] theorem putPiece_kept (sp p d : Nat) (r : PortRec) (bs : List Byte) (s : State) : kept (putPiece sp p d r bs s) = kept s := by
  unfold putPiece; dsimp only; (repeat' split) <;> simp

@[simp] theorem putOnLine_kept (sp p : Nat) (w : Spot) (x : Queue) (pkt : Packet) (s : State) : kept (putOnLine sp p w x pkt s) = kept s := by
  unfold putOnLine; dsimp only; (repeat' split) <;> simp

@[simp] theorem sendRest_kept (sp p : Nat) (s : State) : kept (sendRest sp p s) = kept s := by
  unfold sendRest
  dsimp only
  rw [forEach_kept]
  · simp
  · intro a t; split <;> simp

@[simp] theorem newPayload_kept (sp p structs ploams : Nat) (s : State) : kept (newPayload sp p structs ploams s) = kept s := by
  simp [newPayload]

@[simp] theorem timedStep_kept (sp p : Nat) (w : Spot) (e : Nat × Queue × Nat × Bool) (s : State) : kept (timedStep sp p w e s) = kept s := by
  unfold timedStep
  dsimp only
  (repeat' split) <;> first | rfl | (simp; done) | (simp only [putOnLine_kept, clearEmpty_kept, chargePath_kept, cnt_kept]; exact takeHead_kept _ _ _ _ ‹_›)

@[simp] theorem pierSelect_kept (sp p : Nat) (s : State) : kept (pierSelect sp p s) = kept s := by
  unfold pierSelect
  extract_lets v g mine
  split
  · rfl
  · split
    · rfl
    · extract_lets heads seen s1 s2 rdy
      split
      · simp
      · have h1 : kept s1 = kept s := by unfold s1; split <;> simp
        have h2 : kept s2 = kept s := by unfold s2; split <;> simp [h1]
        have hc := choose_kept rdy g (3 * (sp % 8) + p) s2
        split
        · next t e => rw [e] at hc; rw [← h2]; exact hc
        · next t h e =>
          rw [e] at hc
          split
          · rw [missDesc_kept, ← h2]; exact hc
          · split
            · next e2 => rw [putOnLine_kept, chargePath_kept, takeHead_kept _ _ _ _ e2, ← h2]; exact hc
            · rw [← h2]; exact hc

@[simp] theorem listInForce_kept (sp p : Nat) (l : Option GateList) (t : Rat) (s : State) : kept (listInForce sp p l t s) = kept s := by
  unfold listInForce; dsimp only; split <;> simp

@[simp] theorem gateCycleEnd_kept (sp p : Nat) (s : State) : kept (gateCycleEnd sp p s) = kept s := by
  unfold gateCycleEnd; dsimp only; split <;> simp

@[simp] theorem shapersStep_kept (old new : Nat) (s : State) : kept (shapersStep old new s) = kept s := rfl

@[simp] theorem modShaper_kept (n : NodeRef) (f : Nat → Shaper → Shaper) (s : State) : kept (modShaper n f s) = kept s := by
  unfold modShaper; (repeat' split) <;> simp

@[simp] theorem putShaper_kept (n : NodeRef) (now : Nat) (old new : Shaper) (s : State) : kept (putShaper n now old new s) = kept s := by
  unfold putShaper; dsimp only; split <;> simp

@[simp] theorem shaperRefill_kept (n : NodeRef) (s : State) : kept (shaperRefill n s) = kept s := by
  unfold shaperRefill; split <;> simp

@[simp] theorem wheelRelease_kept (n : NodeRef) (committed : Bool) (s : State) : kept (wheelRelease n committed s) = kept s := by
  unfold wheelRelease
  split
  · rfl
  · split
    · dsimp only; (repeat' split) <;> simp
    · rfl

@[simp] theorem wheelMigrate_kept (g : Nat) (s : State) : kept (wheelMigrate g s) = kept s := by
  unfold wheelMigrate; split <;> simp

@[simp] theorem repark_kept (q : Nat) (s : State) : kept (repark q s) = kept s := by
  unfold repark
  extract_lets g now f s0
  have hf (n : NodeRef) (t : State) : kept (f n t) = kept t := by unfold f; split <;> simp
  clear_value f
  split
  · rfl
  · extract_lets s2
    have h1 : kept s0 = kept s := by unfold s0; split <;> simp only [hf]
    have h2 : kept s2 = kept s := by unfold s2; split <;> simp only [hf, h1]
    split
    · extract_lets s3
      have h3 : kept s3 = kept s := by unfold s3; split <;> simp only [hf, h2]
      (repeat' split) <;> first | exact h3 | rw [hf, h3]
    · exact h2

@[simp] theorem setPolicer_kept (port : Nat) (x : Policer) (s : State) : kept (setPolicer port x s) = kept s := rfl

@[simp] theorem policerRefill_kept (port : Nat) (s : State) : kept (policerRefill port s) = kept s := by
  unfold policerRefill; dsimp only; (repeat' split) <;> simp

@[simp] theorem police_kept (port len : Nat) (s : State) : kept (police port len s).1 = kept s := by
  unfold police; dsimp only; (repeat' split) <;> simp

@[simp] theorem setChild_kept (n : NodeRef) (c : Child) (s : State) : kept (setChild n c s) = kept s := by
  unfold setChild; (repeat' split) <;> simp

@[simp] theorem gateListRead_kept (ch : Nat) (ws : List Word) (s : State) (k : Kept) (h : kept s = k) : PairKept k (gateListRead ch ws s) := by
  subst h
  unfold gateListRead
  refine pairKept_bind _ _ _ (fun _ _ => ?_)
  split
  extract_lets c es addr bytes t
  show kept t = kept s
  unfold t
  split <;> rfl

@[simp] theorem schedNodeRead_kept (ch : Nat) (ws : List Word) (s : State) (k : Kept) (h : kept s = k) : PairKept k (schedNodeRead ch ws s) := by
  subst h
  unfold schedNodeRead
  (repeat' first | exact pairKept_error _ _ | refine pairKept_bind _ _ _ (fun _ _ => ?_) | split) <;> simp

@[simp] theorem lanyardRates_kept (s : State) : kept (lanyardRates s) = kept s := by
  unfold lanyardRates; split
  · rfl
  · exact forEach_kept _ _ _ fun _ _ => by split <;> simp

end Sys2Proof.Machine
end

