-- ==== Sys2Proof/Laws/KeepForward.lean ====
section
/-! SUPPORT. The operations of the pipelines leave the fuses, the flash and the waiting commands alone. -/

namespace Sys2Proof.Machine

@[simp] theorem setLimiter_kept (p slice reason : Nat) (l : Limiter) (s : State) : kept (setLimiter p slice reason l s) = kept s := rfl

@[simp] theorem limiterRefill_kept (p slice reason : Nat) (s : State) : kept (limiterRefill p slice reason s) = kept s := rfl

@[simp] theorem punt_kept (p slice reason : Nat) (src : Source) (f : List Byte) (s : State) : kept (punt p slice reason src f s) = kept s := by
  unfold punt; dsimp only; (repeat' split) <;> first | rfl | simp

@[simp] theorem trapStage_kept (p slice mask : Nat) (src : Source) (f : List Byte) (s : State) : kept (trapStage p slice mask src f s).1 = kept s := by
  unfold trapStage; split
  · simp
  · split <;> simp

@[simp] theorem ttlStage_kept (p slice : Nat) (src : Source) (f : List Byte) (s : State) : kept (ttlStage p slice src f s).1 = kept s := by
  unfold ttlStage; (repeat' split) <;> simp

@[simp] theorem enter_kept (q : Nat) (up yellow : Bool) (marked : Bool) (span : Option Nat) (f : List Byte) (s : State) (k : Kept) (h : kept s = k) : ResKept k (enter q up yellow marked span f s) := by
  subst h
  unfold enter
  (repeat' first | exact resKept_error _ _ | refine resKept_bind _ _ _ (fun _ _ => ?_) | split) <;> simp

@[simp] theorem replicate_kept (p list : Nat) (marked : Bool) (f : List Byte) (s : State) : kept (replicate p list marked f s) = kept s := by
  unfold replicate; split
  · simp
  · exact forEach_kept _ _ _ (by simp)

@[simp] theorem downResult_kept (p slice tc punted : Nat) (src : Source) (r : BitVec 64) (orig f : List Byte) (s : State) (k : Kept) (h : kept s = k) : ResKept k (downResult p slice tc punted src r orig f s) := by
  subst h
  unfold downResult
  (repeat' first | exact resKept_error _ _ | refine resKept_bind _ _ _ (fun _ _ => ?_) | split) <;> simp

@[simp] theorem downstream_kept (p port vid : Nat) (many marked : Bool) (ptp : Option (List Byte)) (f : List Byte) (s : State) (k : Kept) (h : kept s = k) :
    ResKept k (downstream p port vid many marked ptp f s) := by
  subst h
  unfold downstream
  split
  · rfl
  · extract_lets s x v src slice tc g mac bd hit inner g2
    clear_value hit
    have hs : kept s = kept _ := cnt_kept _ _ _
    split
    · simpa using hs
    · split
      · simpa using hs
      · split
        · next e => exact kept_fst e (by simpa using hs)
        · next t e =>
          have ht := kept_fst e (by simpa using hs)
          extract_lets c
          split
          · split
            · exact downResult_kept _ _ _ _ _ _ _ _ _ _ ht
            · split
              · simpa using ht
              · simp only [resKept_ok]
                split <;> simpa [c] using ht
          · exact downResult_kept _ _ _ _ _ _ _ _ _ _ ht
          · split
            · next e => exact kept_fst e (by simpa using ht)
            · next e =>
              have hu := kept_fst e (by simpa using ht)
              split
              · simpa using hu
              · exact downResult_kept _ _ _ _ _ _ _ _ _ _ hu

@[simp] theorem toPipes_kept (ps : List Nat) (port vid : Nat) (many marked : Bool) (ptp : Option (List Byte)) (f : List Byte) (s : State) (k : Kept) (h : kept s = k) :
    ResKept k (toPipes ps port vid many marked ptp f s) := by
  induction ps generalizing s with
  | nil => exact h
  | cons p t ih => exact resKept_step (downstream_kept p port vid many marked ptp f s k h) ih

@[simp] theorem distribute_kept (port : Nat) (marked : Bool) (ptp : Option (List Byte)) (f : List Byte) (s : State) (k : Kept) (h : kept s = k) : ResKept k (distribute port marked ptp f s) := by
  subst h
  unfold distribute
  (repeat' first | exact resKept_error _ _ | refine resKept_bind _ _ _ (fun _ _ => ?_) | split) <;> simp

@[simp] theorem laneSlip_kept (n : Nat) (s : State) : kept (laneSlip n s) = kept s := by
  simp [laneSlip]

@[simp] theorem uplinkRx_kept (port : Nat) (f : List Byte) (fcsOk : Bool) (slips : List (Fin 8)) (s : State) (k : Kept) (h : kept s = k) :
    ResKept k (uplinkRx port f fcsOk slips s) := by
  subst h
  unfold uplinkRx
  split
  · rfl
  · extract_lets slipped slip t at_
    have ht : kept t = kept s := forEach_kept _ _ _ laneSlip_kept
    split
    · simpa using ht
    · exact ht
    · exact ht
    · split
      · exact ht
      · split
        · next e => exact kept_fst e (by rw [macRx_kept]; split <;> simpa using ht)
        · next e =>
          have hu := kept_fst (k := kept s) e (by rw [macRx_kept]; split <;> simpa using ht)
          split
          · exact hu
          · exact distribute_kept _ _ _ _ _ _ hu

@[simp] theorem upQueue_kept (span q tc : Nat) (r : PortRec) (yellow : Bool) (f : List Byte) (s : State) (k : Kept) (h : kept s = k) : ResKept k (upQueue span q tc r yellow f s) := by
  subst h
  unfold upQueue
  (repeat' first | exact resKept_error _ _ | refine resKept_bind _ _ _ (fun _ _ => ?_) | split) <;> simp

@[simp] theorem upForward_kept (p port slice tc : Nat) (yellow : Bool) (r : PortRec) (src : Source) (u : UpFrame) (s : State) (k : Kept) (h : kept s = k) :
    ResKept k (upForward p port slice tc yellow r src u s) := by
  subst h
  unfold upForward
  split
  · split
    · next e => exact kept_fst e (by simp)
    · next e => simpa using kept_fst e (learn_kept _ _ _ _ _ _ _)
    · next e => exact upQueue_kept _ _ _ _ _ _ _ _ (kept_fst e (by simp))
  · split
    · simp
    · extract_lets g
      split
      · exact upQueue_kept _ _ _ _ _ _ _ _ rfl
      · simp

@[simp] theorem policeStage_kept (span port len : Nat) (r : PortRec) (s : State) : kept (policeStage span port len r s).1 = kept s := by
  have hp := police_kept (8192 * span + port) len s
  unfold policeStage
  split
  · rfl
  · split <;> (next e => rw [e] at hp; simpa using hp)

@[simp] theorem upstreamFrame_kept (p : Nat) (u : UpFrame) (s : State) (k : Kept) (h : kept s = k) : ResKept k (upstreamFrame p u s) := by
  subst h
  unfold upstreamFrame
  split
  · rfl
  · extract_lets a slice src
    have ha : kept a = kept s := cnt_kept _ _ _
    split
    · simpa using ha
    · split
      · simpa using ha
      · split
        · next e => exact kept_fst e (by simpa using ha)
        · next b e =>
          have hb := kept_fst e (by simpa using ha)
          split
          · next e => exact kept_fst e (by split <;> simpa using hb)
          · next c e =>
            have hc := kept_fst (k := kept s) e (by split <;> simpa using hb)
            split
            · simpa using hc
            · extract_lets tc
              split
              · next e => exact kept_fst e (by simpa using hc)
              · next e => exact upForward_kept _ _ _ _ _ _ _ _ _ _ (kept_fst e (by simpa using hc))

@[simp] theorem upstreamStep_kept (p : Nat) (s : State) (k : Kept) (h : kept s = k) : ResKept k (upstreamStep p s) := by
  unfold upstreamStep; (repeat' split) <;> simp_all

@[simp] theorem xpFlush_kept (p : Nat) (s : State) : kept (xpFlush p s) = kept s := by
  unfold xpFlush; dsimp only; (repeat' split) <;> simp

@[simp] theorem sweepStart_kept (p cls : Nat) (s : State) : kept (sweepStart p cls s) = kept s := by
  simp [sweepStart]

@[simp] theorem sweepVisit_kept (p cls : Nat) (s : State) : kept (sweepVisit p cls s) = kept s := by
  unfold sweepVisit; dsimp only; (repeat' split) <;> simp

@[simp] theorem pipePowerOff_kept (p : Nat) (s : State) : kept (pipePowerOff p s) = kept s := rfl

@[simp] theorem pipePowerOn_kept (p : Nat) (s : State) : kept (pipePowerOn p s) = kept s := rfl

@[simp] theorem pipeSecond_kept (s : State) : kept (pipeSecond s) = kept s := rfl

@[simp] theorem modPipes_kept (w : Word) (f : Pipe → Pipe) (s : State) : kept (modPipes w f s) = kept s := by
  unfold modPipes
  refine forEach_kept _ _ _ (fun a s => ?_)
  try dsimp only
  (repeat' split) <;> simp

@[simp] theorem putStatic_kept (ps : List Nat) (key : Nat) (r : BitVec 64) (s : State) (k : Kept) (h : kept s = k) : ResKept k (putStatic ps key r s) := by
  induction ps generalizing s with
  | nil => exact h
  | cons p t ih =>
    unfold putStatic
    extract_lets x
    split
    · trivial
    · extract_lets a b c
      refine ih _ ?_
      rw [tableLevels_kept, ← h]
      show kept (if _ then cnt _ 1 b else b) = kept s
      split <;> rfl

@[simp] theorem dropEntry_kept (key p : Nat) (s : State) : kept (dropEntry key p s) = kept s := by
  simp [dropEntry]

@[simp] theorem flushPipes_kept (ps : List Nat) (w v : Word) (n : Nat) (s : State) : kept (flushPipes ps w v n s).1 = kept s := by
  induction ps generalizing w v n s with
  | nil => simp [flushPipes]
  | cons _ _ ih => simp [flushPipes, ih]

@[simp] theorem fdbFlush_kept (ch : Nat) (ws : List Word) (s : State) (k : Kept) (h : kept s = k) : PairKept k (fdbFlush ch ws s) := by
  subst h
  unfold fdbFlush
  dsimp only
  (repeat' first | exact pairKept_error _ _ | refine pairKept_bind _ _ _ (fun _ _ => ?_) | split) <;> simp_all

@[simp] theorem putRoute_kept (ps : List Nat) (q : Prefix) (s : State) (k : Kept) (h : kept s = k) : ResKept k (putRoute ps q s) := by
  induction ps generalizing s with
  | nil => exact h
  | cons p t ih =>
    unfold putRoute
    extract_lets x y
    split
    · trivial
    · exact ih _ h

end Sys2Proof.Machine
end

