-- ==== Sys2Proof/Laws/KeepLanes.lean ====
section
/-! SUPPORT. The operations of the lanes and ports leave the fuses, the flash and the waiting commands alone. -/

namespace Sys2Proof.Machine

@[simp] theorem laneEvt_kept (n before : Nat) (s : State) : kept (laneEvt n before s) = kept s := by
  simp [laneEvt]

@[simp] theorem setTimeSt_kept (x : TimeSt) (s : State) : kept (setTimeSt x s) = kept s := by
  simp [setTimeSt]

@[simp] theorem sourceLost_kept (phase : Bool) (s : State) : kept (sourceLost phase s) = kept s := by
  simp [sourceLost]

@[simp] theorem freqWatch_kept (s : State) : kept (freqWatch s) = kept s := by
  simp [freqWatch]

@[simp] theorem hawserLink_kept (n : Nat) (before : Bool) (s : State) : kept (hawserLink n before s) = kept s := by
  unfold hawserLink; split <;> simp

@[simp] theorem judgeLink_kept (port : Nat) (s : State) : kept (judgeLink port s) = kept s := by
  unfold judgeLink
  extract_lets x up ls t
  (repeat' split) <;> first | rfl | exact forEach_kept _ _ t (by intros; rfl)

@[simp] theorem onLane_kept (n : Nat) (f : State → State) (s : State) (hf : ∀ x, kept (f x) = kept x) : kept (onLane n f s) = kept s := by
  unfold onLane
  extract_lets ls before link defects t u v
  have hu : kept u = kept s := by
    unfold u
    rw [freqWatch_kept]
    split
    · rw [judgeLink_kept]; exact hf s
    · rw [hawserLink_kept]; exact hf s
  have hv : kept v = kept s := by rw [← hu]; exact forEach_kept _ _ _ (by simp)
  split
  · simpa using hv
  · exact hv

@[simp] theorem dropPcs_kept (n : Nat) (s : State) : kept (dropPcs n s) = kept s := by
  unfold dropPcs; split <;> simp

@[simp] theorem laneStart_kept (n : Nat) (ref : List Ref) (s : State) : kept (laneStart n ref s) = kept s := rfl

@[simp] theorem adapted_kept (n : Nat) (s : State) : kept (adapted n s) = kept s := by
  unfold adapted; dsimp only; split <;> rfl

@[simp] theorem train_kept (n : Nat) (s : State) : kept (train n s) = kept s := by
  unfold train; split <;> rfl

@[simp] theorem pierHeld_kept (n : Nat) (s : State) : kept (pierHeld n s) = kept s := by
  unfold pierHeld; split <;> simp

@[simp] theorem laneOn_kept (n : Nat) (s : State) : kept (laneOn n s) = kept s := by
  unfold laneOn
  extract_lets x t
  split
  · rfl
  · rw [forEach_kept _ _ _ (by simp)]
    exact onLane_kept n _ s (by simp)

@[simp] theorem laneStop_kept (n : Nat) (s : State) : kept (laneStop n s) = kept s := by
  simp [laneStop]

@[simp] theorem laneOff_kept (n : Nat) (s : State) : kept (laneOff n s) = kept s := by
  simp [laneOff]

@[simp] theorem laneEnableOn_kept (code : Nat) (c : Call) (s : State) : kept (laneEnableOn code c s) = kept s := by
  unfold laneEnableOn; dsimp only; (repeat' split) <;> simp

@[simp] theorem laneEnableOff_kept (code : Nat) (c : Call) (s : State) : kept (laneEnableOff code c s) = kept s := by
  unfold laneEnableOff; dsimp only; (repeat' split) <;> simp

@[simp] theorem quadDrain_kept (d : Nat) (s : State) : kept (quadDrain d s) = kept s := by
  unfold quadDrain
  refine forEach_kept _ _ _ (fun a s => ?_)
  try dsimp only
  (repeat' split) <;> simp

@[simp] theorem quadOff_kept (d : Nat) (s : State) : kept (quadOff d s) = kept s := by
  simp [quadOff]

@[simp] theorem quadRampEnd_kept (d : Nat) (s : State) : kept (quadRampEnd d s) = kept s := by
  simp [quadRampEnd]

@[simp] theorem losDeclare_kept (n : Nat) (s : State) : kept (losDeclare n s) = kept s := by
  unfold losDeclare
  split
  · rfl
  · rw [cnt_kept, onLane_kept _ _ _ (by intros; rfl)]

@[simp] theorem losClear_kept (n : Nat) (s : State) : kept (losClear n s) = kept s := by
  unfold losClear
  split
  · rw [onLane_kept _ _ _ (by intros; rfl)]
  · rfl

@[simp] theorem rxLolDeclare_kept (n : Nat) (s : State) : kept (rxLolDeclare n s) = kept s := by
  unfold rxLolDeclare
  split
  · rfl
  · rw [cnt_kept, onLane_kept _ _ _ (by intros; rfl)]

@[simp] theorem rxLolClear_kept (n : Nat) (s : State) : kept (rxLolClear n s) = kept s := by
  unfold rxLolClear
  split
  · rw [onLane_kept _ _ _ (by intros; rfl)]
  · rfl

@[simp] theorem trainComplete_kept (n : Nat) (pre post : Int) (s : State) : kept (trainComplete n pre post s) = kept s := by
  unfold trainComplete
  split
  · rfl
  · dsimp only; rw [onLane_kept _ _ _ (by simp)]; rfl

@[simp] theorem trainTimeout_kept (n : Nat) (s : State) : kept (trainTimeout n s) = kept s := by
  unfold trainTimeout; split <;> simp

@[simp] theorem trainRetry_kept (n : Nat) (s : State) : kept (trainRetry n s) = kept s := by
  unfold trainRetry; dsimp only; split <;> simp

@[simp] theorem pcsChange_kept (port : Nat) (block align fault : Bool) (s : State) : kept (pcsChange port block align fault s) = kept s :=
  onLane_kept _ _ _ (by intros; rfl)

@[simp] theorem portModeSet_kept (ws : List Word) (s : State) (k : Kept) (h : kept s = k) : PairKept k (portModeSet ws s) := by
  subst h
  unfold portModeSet
  (repeat' first | exact pairKept_error _ _ | refine pairKept_bind _ _ _ (fun _ _ => ?_) | split) <;> simp

@[simp] theorem laneTxEqSet_kept (ws : List Word) (s : State) (k : Kept) (h : kept s = k) : PairKept k (laneTxEqSet ws s) := by
  subst h
  unfold laneTxEqSet
  refine pairKept_bind _ _ _ (fun _ _ => ?_)
  exact onLane_kept _ _ _ (by intros; rfl)

@[simp] theorem laneRxEqSet_kept (ws : List Word) (s : State) (k : Kept) (h : kept s = k) : PairKept k (laneRxEqSet ws s) := by
  subst h
  unfold laneRxEqSet
  (repeat' first | exact pairKept_error _ _ | refine pairKept_bind _ _ _ (fun _ _ => ?_) | split) <;> simp

@[simp] theorem laneDetectConfig_kept (ws : List Word) (s : State) (k : Kept) (h : kept s = k) : PairKept k (laneDetectConfig ws s) := by
  subst h
  unfold laneDetectConfig
  (repeat' first | exact pairKept_error _ _ | refine pairKept_bind _ _ _ (fun _ _ => ?_) | split) <;> simp

@[simp] theorem laneLoopbackSet_kept (ws : List Word) (s : State) (k : Kept) (h : kept s = k) : PairKept k (laneLoopbackSet ws s) := by
  subst h
  unfold laneLoopbackSet
  (repeat' first | exact pairKept_error _ _ | refine pairKept_bind _ _ _ (fun _ _ => ?_) | split) <;> simp

@[simp] theorem prbsPoll_kept (n : Nat) (s : State) : kept (prbsPoll n s) = kept s := by
  unfold prbsPoll; dsimp only; (repeat' split) <;> simp

@[simp] theorem lanePrbs_kept (ws : List Word) (s : State) (k : Kept) (h : kept s = k) : PairKept k (lanePrbs ws s) := by
  subst h
  unfold lanePrbs
  extract_lets w n pat chk t
  refine pairKept_bind _ _ _ (fun _ _ => ?_)
  show kept (onLane n _ (prbsPoll n s)) = kept s
  rw [onLane_kept _ _ _ (by intros; rfl), prbsPoll_kept]

@[simp] theorem elastic_kept (n more idles fewer gaps : Nat) (s : State) : kept (elastic n more idles fewer gaps s) = kept s := by
  unfold elastic; dsimp only; split <;> simp

@[simp] theorem bufferMoved_kept (n : Nat) (s : State) : kept (bufferMoved n s) = kept s := by
  unfold bufferMoved; dsimp only; split <;> simp

@[simp] theorem laneCounted_kept (n : Nat) (s : State) : kept (laneCounted n s) = kept s := by
  have h : kept (bufferMoved n (prbsPoll n s)) = kept s := by simp
  unfold laneCounted
  split
  · rfl
  · extract_lets t k cw
    split
    · exact h
    · rw [cnt_kept, cnt_kept, cnt_kept]; exact h

@[simp] theorem pcieCounted_kept (s : State) : kept (pcieCounted s) = kept s := by
  simp [pcieCounted]

@[simp] theorem laneDegraded_kept (n : Nat) (s : State) : kept (laneDegraded n s) = kept s := by
  unfold laneDegraded
  (repeat' split) <;> simp

@[simp] theorem laneStatus_kept (ws : List Word) (s : State) (k : Kept) (h : kept s = k) : PairKept k (laneStatus ws s) := by
  subst h
  unfold laneStatus
  refine pairKept_bind _ _ _ (fun _ _ => ?_)
  dsimp only
  (repeat' split) <;> simp

@[simp] theorem hawserLaneStatus_kept (s : State) : kept (hawserLaneStatus s).1 = kept s := rfl

@[simp] theorem pcieLink_kept (speed width : Nat) (s : State) : kept (pcieLink speed width s) = kept s := by
  unfold pcieLink; split
  · rfl
  · rw [raise_kept]; rfl

@[simp] theorem pcieError_kept (status : Word) (s : State) : kept (pcieError status s) = kept s := by
  rw [pcieError, raise_kept]; rfl

end Sys2Proof.Machine
end

