-- ==== Sys2Proof/Laws/KeepTime.lean ====
section
/-! SUPPORT. The operations of the timebase and Keystone leave the fuses, the flash and the waiting commands alone. -/

namespace Sys2Proof.Machine

@[simp] theorem tick_kept (s : State) : kept (tick s) = kept s := rfl

@[simp] theorem servoWrites_kept (s : State) : kept (servoWrites s) = kept s := rfl

@[simp] theorem removeError_kept (err : Int) (s : State) : kept (removeError err s) = kept s := by
  unfold removeError; split <;> rfl

@[simp] theorem phaseSample_kept (err : Int) (s : State) : kept (phaseSample err s) = kept s := by
  unfold phaseSample; dsimp only; (repeat' split) <;> simp

@[simp] theorem freqSettled_kept (s : State) : kept (freqSettled s) = kept s := by
  simp [freqSettled]

@[simp] theorem sourceReturn_kept (phase : Bool) (s : State) : kept (sourceReturn phase s) = kept s := by
  simp [sourceReturn]

@[simp] theorem ppsEdge_kept (at_ : Nat) (s : State) : kept (ppsEdge at_ s) = kept s := by
  simp [ppsEdge]

@[simp] theorem countSkips_kept (es : List (Nat × KEntry)) (a b : Nat) (s : State) : kept (countSkips es a b s) = kept s := by
  induction es generalizing a b s with
  | nil => simp [countSkips]
  | cons _ _ ih => simp [countSkips, ih]

@[simp] theorem stepNow_kept (n : Nat) (size : Int) (s : State) : kept (stepNow n size s) = kept s := by
  simp [stepNow]

@[simp] theorem stepsDue_kept (n : Nat) (s : State) : kept (stepsDue n s) = kept s := by
  simp [stepsDue]

@[simp] theorem slewComplete_kept (s : State) : kept (slewComplete s) = kept s := by
  unfold slewComplete; dsimp only; (repeat' split) <;> rfl

@[simp] theorem freqLostNow_kept (s : State) : kept (freqLostNow s) = kept s := by
  simp [freqLostNow]

@[simp] theorem phaseLostNow_kept (s : State) : kept (phaseLostNow s) = kept s := by
  simp [phaseLostNow]

@[simp] theorem setKey_kept (n : Nat) (e : KEntry) (s : State) : kept (setKey n e s) = kept s := rfl

@[simp] theorem passBy_kept (n : Nat) (e : KEntry) (g : Nat) (s : State) : kept (passBy n e g s) = kept s := rfl

@[simp] theorem slipped_kept (n g : Nat) (s : State) : kept (slipped n g s) = kept s := by
  unfold slipped; dsimp only; split <;> simp

@[simp] theorem launchSlips_kept (e : Nat × KEntry) (k : Nat) (s : State) : kept (launchSlips e k s) = kept s :=
  forEach_kept _ _ _ fun _ _ => slipped_kept _ _ _

@[simp] theorem fire_kept (n : Nat) (e : KEntry) (g : Nat) (act : Nat → State → State) (s : State) (hact : ∀ x0 x1, kept (act x0 x1) = kept x1) :
    kept (fire n e g act s) = kept s := by
  unfold fire; dsimp only; rw [hact, setKey_kept]; split <;> simp

@[simp] theorem pinPulse_kept (e : KEntry) (t : Nat) (s : State) : kept (pinPulse e t s) = kept s := by
  unfold pinPulse; dsimp only; (repeat' split) <;> rfl

@[simp] theorem keyPin_kept (n : Nat) (s : State) : kept (keyPin n s) = kept s := by
  unfold keyPin; split
  · exact fire_kept _ _ _ _ _ (by simp)
  · rfl

@[simp] theorem keyDropped_kept (n k : Nat) (e : KEntry) (g : Nat) (s : State) : kept (keyDropped n k e g s) = kept s := by
  simp [keyDropped]

theorem inTurn_kept (n kind : Nat) (turn : Nat → State → State) (s : State) (h : ∀ m t, kept (turn m t) = kept t) :
    kept (inTurn n kind turn s) = kept s := by
  unfold inTurn; split
  · exact forEach_kept _ _ _ h
  · rfl

@[simp] theorem passLaunches_kept (t : Nat) (s : State) : kept (passLaunches t s) = kept s := by
  unfold passLaunches
  refine forEach_kept _ _ _ (fun e s => ?_)
  dsimp only; (repeat' split) <;> simp

@[simp] theorem pinEdge_kept (pin at_ : Nat) (rising : Bool) (s : State) : kept (pinEdge pin at_ rising s) = kept s := by
  simp [pinEdge]

@[simp] theorem ppsOut_kept (s : State) : kept (ppsOut s) = kept s := by
  unfold ppsOut; dsimp only; (repeat' split) <;> rfl

@[simp] theorem snapTake_kept (fn : Nat) (s : State) : kept (snapTake fn s) = kept s := rfl

@[simp] theorem timeFreqAdjust_kept (ws : List Word) (s : State) (k : Kept) (h : kept s = k) : PairKept k (timeFreqAdjust ws s) := by
  subst h
  unfold timeFreqAdjust
  (repeat' first | exact pairKept_error _ _ | refine pairKept_bind _ _ _ (fun _ _ => ?_) | split) <;> simp

@[simp] theorem timePhaseSlew_kept (ws : List Word) (s : State) (k : Kept) (h : kept s = k) : PairKept k (timePhaseSlew ws s) := by
  subst h
  unfold timePhaseSlew
  (repeat' first | exact pairKept_error _ _ | refine pairKept_bind _ _ _ (fun _ _ => ?_) | split) <;> simp

@[simp] theorem timePhaseStep_kept (ws : List Word) (s : State) (k : Kept) (h : kept s = k) : PairKept k (timePhaseStep ws s) := by
  subst h
  unfold timePhaseStep
  (repeat' first | exact pairKept_error _ _ | refine pairKept_bind _ _ _ (fun _ _ => ?_) | split) <;> simp

@[simp] theorem timePhaseSample_kept (ws : List Word) (s : State) : kept (timePhaseSample ws s) = kept s := by
  simp [timePhaseSample]

@[simp] theorem timeEvtRead_kept (ws : List Word) (s : State) : kept (timeEvtRead ws s).1 = kept s := rfl

@[simp] theorem ptpTxtsRead_kept (ws : List Word) (s : State) (k : Kept) (h : kept s = k) : PairKept k (ptpTxtsRead ws s) := by
  subst h
  unfold ptpTxtsRead
  dsimp only
  (repeat' first | exact pairKept_error _ _ | refine pairKept_bind _ _ _ (fun _ _ => ?_) | split) <;> simp_all

end Sys2Proof.Machine
end

