-- ==== Sys2Proof/Laws/KeepOptics.lean ====
section
/-! SUPPORT. The operations of the optics leave the fuses, the flash and the waiting commands alone. -/

namespace Sys2Proof.Machine

@[simp] theorem modPierLoop_kept (kind sp p : Nat) (f : Loop → Loop) (s : State) : kept (modPierLoop kind sp p f s) = kept s := rfl

@[simp] theorem startFrame_kept (k : Nat) (s : State) : kept (startFrame k s) = kept s := by
  unfold startFrame; dsimp only; (repeat' split) <;> simp

@[simp] theorem askFrame_kept (k : Nat) (f : LFrame) (s : State) : kept (askFrame k f s) = kept s := by
  simp [askFrame]

@[simp] theorem writeOut_kept (k rank n : Nat) (cycle : Bool) (u : Int) (s : State) : kept (writeOut k rank n cycle u s) = kept s := by
  simp [writeOut]

@[simp] theorem freeLoop_kept (k n : Nat) (s : State) : kept (freeLoop k n s) = kept s := by
  unfold freeLoop; split <;> simp

@[simp] theorem startLoop_kept (kind sp p : Nat) (s : State) : kept (startLoop kind sp p s) = kept s := by
  rw [startLoop, modPierLoop_kept, freeLoop_kept]

@[simp] theorem loseStrobes_kept (k dev : Nat) (s : State) : kept (loseStrobes k dev s) = kept s := by
  simp [loseStrobes]

@[simp] theorem strobe_kept (k dev : Nat) (s : State) : kept (strobe k dev s) = kept s := by
  simp [strobe]

@[simp] theorem convFire_kept (k conv : Nat) (onu : Option (Nat × Nat)) (t : Nat) (s : State) : kept (convFire k conv onu t s) = kept s := by
  simp [convFire]

@[simp] theorem convTurn_kept (n : Nat) (s : State) : kept (convTurn n s) = kept s := by
  unfold convTurn; dsimp only; (repeat' split) <;> first | rfl | simp

@[simp] theorem keyConv_kept (n : Nat) (s : State) : kept (keyConv n s) = kept s := inTurn_kept _ _ _ _ convTurn_kept

@[simp] theorem rssiConvEnd_kept (k dev : Nat) (s : State) : kept (rssiConvEnd k dev s) = kept s := by
  simp [rssiConvEnd]

@[simp] theorem rssiStore_kept (o : Nat) (ok : Bool) (v t : Nat) (s : State) : kept (rssiStore o ok v t s) = kept s := rfl

@[simp] theorem rssiOutcome_kept (sp o burst : Nat) (ok : Bool) (s : State) : kept (rssiOutcome sp o burst ok s) = kept s :=
  forEach_kept _ _ _ fun _ _ => rfl

@[simp] theorem rssiRead_kept (k conv onu time burst value : Nat) (s : State) : kept (rssiRead k conv onu time burst value s) = kept s := by
  unfold rssiRead; dsimp only; split
  · rfl
  · split <;> simp

@[simp] theorem stopLoop_kept (kind sp p : Nat) (s : State) : kept (stopLoop kind sp p s) = kept s := by
  rw [stopLoop, modBus_kept, modPierLoop_kept, freeLoop_kept]

@[simp] theorem shutLoop_kept (rank kind sp p : Nat) (s : State) : kept (shutLoop rank kind sp p s) = kept s := by
  unfold shutLoop; dsimp only; split <;> simp

@[simp] theorem tfClear_kept (sp p : Nat) (s : State) : kept (tfClear sp p s) = kept s := by
  simp [tfClear]

@[simp] theorem judgeSettled_kept (sp p : Nat) (s : State) : kept (judgeSettled sp p s) = kept s := by
  simp [judgeSettled]

@[simp] theorem lightOn_kept (sp p : Nat) (s : State) : kept (lightOn sp p s) = kept s := rfl

@[simp] theorem opticAdvance_kept (sp p : Nat) (s : State) : kept (opticAdvance sp p s) = kept s := by
  unfold opticAdvance; dsimp only; (repeat' split) <;> simp

@[simp] theorem opticWarm_kept (sp p stby : Nat) (s : State) : kept (opticWarm sp p stby s) = kept s := by
  simp [opticWarm]

@[simp] theorem opticStopped_kept (sp p : Nat) (s : State) : kept (opticStopped sp p s) = kept s := by
  unfold opticStopped; dsimp only; (repeat' split) <;> simp

@[simp] theorem opticStopping_kept (sp p : Nat) (s : State) : kept (opticStopping sp p s) = kept s := by
  unfold opticStopping; dsimp only; split <;> simp

@[simp] theorem opticDark_kept (sp p : Nat) (s : State) : kept (opticDark sp p s) = kept s := by
  simp [opticDark]

@[simp] theorem busPowerOff_kept (k : Nat) (s : State) : kept (busPowerOff k s) = kept s := by
  simp [busPowerOff]

@[simp] theorem opticMute_kept (sp p : Nat) (s : State) : kept (opticMute sp p s) = kept s := by
  unfold opticMute; dsimp only; (repeat' split) <;> simp

@[simp] theorem opticHold_kept (sp p : Nat) (s : State) : kept (opticHold sp p s) = kept s := rfl

@[simp] theorem opticRelight_kept (sp p : Nat) (s : State) : kept (opticRelight sp p s) = kept s := by
  simp [opticRelight]

@[simp] theorem opticResume_kept (sp p : Nat) (s : State) : kept (opticResume sp p s) = kept s := rfl

@[simp] theorem threePiers_kept (f : Nat → State → State) (s : State) (hf : ∀ x0 x1, kept (f x0 x1) = kept x1) : kept (threePiers f s) = kept s := by
  unfold threePiers; (repeat' split) <;> simp_all

@[simp] theorem opticsStart_kept (ws : List Word) (s : State) : kept (opticsStart ws s).1 = kept s := by
  unfold opticsStart; dsimp only; (repeat' split) <;> simp

@[simp] theorem opticsStop_kept (code : Nat) (c : Call) (s : State) : kept (opticsStop code c s) = kept s := by
  unfold opticsStop; dsimp only; (repeat' split) <;> simp

@[simp] theorem opticsFaultClear_kept (ws : List Word) (s : State) (k : Kept) (h : kept s = k) : PairKept k (opticsFaultClear ws s) := by
  subst h
  unfold opticsFaultClear
  (repeat' first | exact pairKept_error _ _ | refine pairKept_bind _ _ _ (fun _ _ => ?_) | split) <;> simp

end Sys2Proof.Machine
end

