-- ==== Sys2Proof/Laws/KeepSwitch.lean ====
section
/-! SUPPORT. The operations of the switch-over leave the fuses, the flash and the waiting commands alone. -/

namespace Sys2Proof.Machine

@[simp] theorem dropSpan_kept (sp : Nat) (close : Bool) (s : State) : kept (dropSpan sp close s) = kept s := by
  unfold dropSpan; rw [forEach_kept _ _ _ (by intros; try dsimp only; (repeat' split) <;> simp)]; (repeat' split) <;> simp

@[simp] theorem judgeReady_kept (sp p : Nat) (s : State) : kept (judgeReady sp p s) = kept s := by
  simp [judgeReady]

@[simp] theorem muteSpan_kept (sp : Nat) (s : State) : kept (muteSpan sp s) = kept s := by
  simp [muteSpan]

@[simp] theorem absorb_kept (sp : Nat) (s : State) : kept (absorb sp s) = kept s := rfl

@[simp] theorem controlOut_kept (flags row : Nat) (spans : List Nat) (s : State) : kept (controlOut flags row spans s) = kept s := by
  simp [controlOut]

@[simp] theorem addRun_kept (sp row : Nat) (taking : Bool) (t1 : Option Nat) (s : State) : kept (addRun sp row taking t1 s) = kept s := rfl

@[simp] theorem startedEvt_kept (row : Nat) (spans : List Nat) (s : State) : kept (startedEvt row spans s) = kept s := by
  simp [startedEvt]

@[simp] theorem refusedEvt_kept (why : Nat) (spans : List Nat) (s : State) : kept (refusedEvt why spans s) = kept s := by
  simp [refusedEvt]

@[simp] theorem release_kept (row : Nat) (force tell : Bool) (spans : List Nat) (s : State) : kept (release row force tell spans s) = kept s := by
  unfold release
  extract_lets mine t go u v
  have ht : kept t = kept s := forEach_kept _ _ _ (by simp)
  have hv : kept v = kept s := by rw [← ht, ← startedEvt_kept row go t]; exact forEach_kept _ _ _ (by simp)
  (repeat' split) <;> simpa

@[simp] theorem releaseSynced_kept (row : Nat) (spans : List Nat) (s : State) : kept (releaseSynced row spans s) = kept s := by
  simp [releaseSynced]

@[simp] theorem protection_kept (sp p d : Nat) (declared : Bool) (s : State) : kept (protection sp p d declared s) = kept s := by
  unfold protection; dsimp only; (repeat' split) <;> simp

@[simp] theorem pierDefect_kept (sp p d : Nat) (on : Bool) (s : State) : kept (pierDefect sp p d on s) = kept s := by
  unfold pierDefect; split <;> simp

@[simp] theorem lanyardOn_kept (ports : List Nat) (dest type : Nat) (data : List Nat) (s : State) : kept (lanyardOn ports dest type data s) = kept s := by
  unfold lanyardOn
  dsimp only
  rw [forEach_kept]
  · rfl
  · intro port u
    split
    · rfl
    · split
      · next e => simpa using kept_fst e (macTx_kept _ _ _)
      · next e => exact kept_fst e (macTx_kept _ _ _)

@[simp] theorem lanyardTo_kept (peer type : Nat) (data : List Nat) (s : State) : kept (lanyardTo peer type data s) = kept s := by
  unfold lanyardTo; split <;> simp

end Sys2Proof.Machine
end

