-- ==== Sys2Proof/Laws/KeepLoops.lean ====
section
/-! SUPPORT. The operations of the loop buses leave the fuses, the flash and the waiting commands alone. -/

namespace Sys2Proof.Machine

@[simp] theorem loopFire_kept (k n t : Nat) (s : State) : kept (loopFire k n t s) = kept s := by
  unfold loopFire
  dsimp only
  (repeat' split) <;> first | rfl | simp

@[simp] theorem loopTurn_kept (n : Nat) (s : State) : kept (loopTurn n s) = kept s := by
  unfold loopTurn; dsimp only; (repeat' split) <;> first | rfl | simp

@[simp] theorem keyLoop_kept (n : Nat) (s : State) : kept (keyLoop n s) = kept s := inTurn_kept _ _ _ _ loopTurn_kept

@[simp] theorem loopConvEnd_kept (k n : Nat) (s : State) : kept (loopConvEnd k n s) = kept s := by
  simp [loopConvEnd]

@[simp] theorem transmitterFault_kept (sp p : Nat) (s : State) : kept (transmitterFault sp p s) = kept s := by
  unfold transmitterFault
  extract_lets x t u v w
  have hv : kept v = kept s := by simp [v, u, t]
  have hw : kept w = kept s := by unfold w; split <;> simp [hv]
  rw [← hw]; exact forEach_kept _ _ _ (by simp)

@[simp] theorem loopFault_kept (k n cause : Nat) (s : State) : kept (loopFault k n cause s) = kept s := by
  simp [loopFault]

@[simp] theorem busAlert_kept (k : Nat) (s : State) : kept (busAlert k s) = kept s := by
  simp [busAlert]

@[simp] theorem cycleDone_kept (k n : Nat) (s : State) : kept (cycleDone k n s) = kept s := rfl

@[simp] theorem writeDone_kept (k n : Nat) (s : State) : kept (writeDone k n s) = kept s := by
  unfold writeDone; dsimp only; split <;> simp

@[simp] theorem cycleWrite_kept (k n : Nat) (u : Int) (s : State) : kept (cycleWrite k n u s) = kept s := by
  unfold cycleWrite; dsimp only; (repeat' split) <;> simp

@[simp] theorem loopCompute_kept (k n : Nat) (s : State) : kept (loopCompute k n s) = kept s := by
  unfold loopCompute
  extract_lets sp p kind o l0 x t sp0 e v l u wait l1 l2 r l3 a b c
  split
  · simp
  · have ha : kept b = kept s := by unfold b; split <;> rfl
    have hc : kept c = kept s := by unfold c; split <;> simpa
    split
    · simpa
    · rw [opticAdvance_kept]; split <;> simpa

@[simp] theorem loopRead__kept (k n : Nat) (aux : Bool) (v : Nat) (s : State) : kept (loopRead_ k n aux v s) = kept s := by
  unfold loopRead_; dsimp only; (repeat' split) <;> first | rfl | simp

@[simp] theorem computeCycles_kept (k fuel : Nat) (s : State) : kept (computeCycles k fuel s) = kept s := by
  induction fuel generalizing s with
  | zero => rfl
  | succ n ih =>
    unfold computeCycles; split
    · next e _ =>
      obtain rfl := Nat.succ.inj e
      dsimp only; (repeat' split) <;> first | rfl | simp [ih]
    · rfl

@[simp] theorem readDone_kept (k : Nat) (f : LFrame) (value : Nat) (s : State) : kept (readDone k f value s) = kept s := by
  unfold readDone; split <;> simp

@[simp] theorem frameWritten_kept (k : Nat) (f : LFrame) (s : State) : kept (frameWritten k f s) = kept s := by
  unfold frameWritten; dsimp only; (repeat' split) <;> simp

@[simp] theorem frameLate_kept (k : Nat) (f : LFrame) (value : Nat) (s : State) : kept (frameLate k f value s) = kept s := by
  unfold frameLate; dsimp only; (repeat' split) <;> simp

@[simp] theorem frameDone_kept (k : Nat) (ans : Option (BitVec 16)) (s : State) : kept (frameDone k ans s) = kept s := by
  unfold frameDone
  extract_lets b value s0
  have h0 : kept s0 = kept s := by unfold s0; split <;> rfl
  split
  · rfl
  · extract_lets t u v
    have ht : kept t = kept s := by simp [t, h0]
    have hu : kept u = kept s := by
      unfold u
      (repeat' split) <;> first | exact ht | simp [ht]
    have hv : kept v = kept s := by unfold v; split <;> simp [hu]
    simp [hv]

end Sys2Proof.Machine
end

