-- ==== Sys2Proof/Laws/KeepSpans.lean ====
section
/-! SUPPORT. The operations of the Spans and ONUs leave the fuses, the flash and the waiting commands alone. -/

namespace Sys2Proof.Machine

@[simp] theorem queueOnce_kept (sp p : Nat) (ms : List PMsg) (s : State) : kept (queueOnce sp p ms s) = kept s := rfl

@[simp] theorem tell_kept (sp o : Nat) (kind : Ploam) (args : List Nat) (s : State) : kept (tell sp o kind args s) = kept s := rfl

@[simp] theorem sendPloam_kept (sp p : Nat) (m : PMsg) (s : State) : kept (sendPloam sp p m s) = kept s := by
  unfold sendPloam; dsimp only; (repeat' split) <;> rfl

@[simp] theorem ploamSent_kept (sp p n : Nat) (m : PMsg) (s : State) : kept (ploamSent sp p n m s) = kept s := by
  unfold ploamSent
  extract_lets t
  have ht : kept t = kept s := by simp [t]
  split
  · split
    · rw [← ht]; exact forEach_kept _ _ _ (by intros; rfl)
    · exact ht
  · next o _ =>
    extract_lets u
    have hu : kept u = kept s := by unfold u; split <;> simpa using ht
    clear_value u
    (repeat' split) <;> simpa using hu

@[simp] theorem setOnuSt_kept (sp o : Nat) (st : OnuSt) (cause : Nat) (s : State) : kept (setOnuSt sp o st cause s) = kept s := by
  simp [setOnuSt]

@[simp] theorem untellAllocs_kept (sp o : Nat) (s : State) : kept (untellAllocs sp o s) = kept s := rfl

@[simp] theorem judgeSplice_kept (sp o : Nat) (s : State) : kept (judgeSplice sp o s) = kept s := by
  simp [judgeSplice]

@[simp] theorem leaveTo_kept (sp o : Nat) (st : OnuSt) (cause : Nat) (splice : Bool) (s : State) : kept (leaveTo sp o st cause splice s) = kept s := by
  simp [leaveTo]

@[simp] theorem serialMsg_kept (sp o : Nat) (disable : Bool) (s : State) : kept (serialMsg sp o disable s) = kept s := rfl

@[simp] theorem dropOnu_kept (sp o : Nat) (s : State) : kept (dropOnu sp o s) = kept s := by
  simp [dropOnu]

@[simp] theorem unlist_kept (sp o : Nat) (s : State) : kept (unlist sp o s) = kept s := rfl

@[simp] theorem deactivate_kept (sp o : Nat) (disable : Bool) (s : State) : kept (deactivate sp o disable s) = kept s := by
  unfold deactivate; dsimp only; (repeat' split) <;> simp

@[simp] theorem dropOnuQueues_kept (sp o : Nat) (s : State) : kept (dropOnuQueues sp o s) = kept s := by
  simp [dropOnuQueues]

@[simp] theorem deactivated_kept (sp o : Nat) (s : State) : kept (deactivated sp o s) = kept s := by
  simp [deactivated]

@[simp] theorem enterDisc_kept (sp : Nat) (e : DiscEntry) (s : State) : kept (enterDisc sp e s) = kept s := by
  unfold enterDisc; dsimp only; (repeat' split) <;> simp

@[simp] theorem holdOnu_kept (sp o p rate : Nat) (serial : BitVec 64) (cause : Nat) (s : State) : kept (holdOnu sp o p rate serial cause s) = kept s := by
  simp [holdOnu]

@[simp] theorem expectChanged_kept (sp o : Nat) (s : State) : kept (expectChanged sp o s) = kept s := by
  unfold expectChanged; split <;> simp

@[simp] theorem activateOnu_kept (sp o p rate : Nat) (serial : BitVec 64) (s : State) : kept (activateOnu sp o p rate serial s) = kept s := by
  unfold activateOnu; split <;> simp

@[simp] theorem putExpected_kept (sp o : Nat) (e : Option Expected) (s : State) : kept (putExpected sp o e s) = kept s := rfl

@[simp] theorem registryFound_kept (sp : Nat) (serial : BitVec 64) (e : RegEntry) (s : State) : kept (registryFound sp serial e s) = kept s := by
  unfold registryFound; dsimp only; (repeat' split) <;> simp

@[simp] theorem askRegistry_kept (sp p : Nat) (serial : BitVec 64) (s : State) : kept (askRegistry sp p serial s) = kept s := by
  unfold askRegistry; dsimp only; (repeat' split) <;> simp

@[simp] theorem snMeasured_kept (sp p rate k64 : Nat) (serial : BitVec 64) (s : State) : kept (snMeasured sp p rate k64 serial s) = kept s := by
  unfold snMeasured; (repeat' split) <;> first | rfl | simp

@[simp] theorem snReceived_kept (sp p rate k64 : Nat) (serial : BitVec 64) (s : State) : kept (snReceived sp p rate k64 serial s) = kept s := by
  unfold snReceived; dsimp only; (repeat' split) <;> simp

@[simp] theorem discExpiry_kept (sp n : Nat) (s : State) : kept (discExpiry sp n s) = kept s := by
  unfold discExpiry; dsimp only; (repeat' split) <;> simp

@[simp] theorem regAnswerTimeout_kept (sp : Nat) (serial : BitVec 64) (s : State) : kept (regAnswerTimeout sp serial s) = kept s := by
  simp [regAnswerTimeout]

@[simp] theorem ranged_kept (sp o k64 : Nat) (s : State) : kept (ranged sp o k64 s) = kept s := by
  unfold ranged; dsimp only; (repeat' split) <;> simp

@[simp] theorem rangeMissed_kept (sp o : Nat) (s : State) : kept (rangeMissed sp o s) = kept s := by
  unfold rangeMissed; dsimp only; (repeat' split) <;> simp

@[simp] theorem replied_kept (sp o : Nat) (s : State) : kept (replied sp o s) = kept s := by
  simp [replied]

@[simp] theorem registration_kept (sp o : Nat) (reg : List Byte) (s : State) : kept (registration sp o reg s) = kept s := by
  simp [registration]

@[simp] theorem regTimeout_kept (sp o : Nat) (s : State) : kept (regTimeout sp o s) = kept s := by
  unfold regTimeout; dsimp only; (repeat' split) <;> simp

@[simp] theorem becomeActive_kept (sp o : Nat) (s : State) : kept (becomeActive sp o s) = kept s := by
  unfold becomeActive
  extract_lets t u
  rw [askKey_kept, ← show kept t = kept s by simp [t]]
  exact forEach_kept _ _ _ (by simp)

@[simp] theorem driftDefect_kept (sp o why : Nat) (s : State) : kept (driftDefect sp o why s) = kept s := by
  simp [driftDefect]

@[simp] theorem sendCorr_kept (sp o : Nat) (c : Corr) (s : State) : kept (sendCorr sp o c s) = kept s := rfl

@[simp] theorem maybeCorrect_kept (sp o : Nat) (s : State) : kept (maybeCorrect sp o s) = kept s := by
  unfold maybeCorrect; dsimp only; (repeat' split) <;> first | rfl | simp

@[simp] theorem confirmCorr_kept (sp o : Nat) (n : Int) (s : State) : kept (confirmCorr sp o n s) = kept s := by
  simp [confirmCorr]

@[simp] theorem track_kept (sp o : Nat) (tMeas tExp : Rat) (s : State) : kept (track sp o tMeas tExp s) = kept s := by
  unfold track; dsimp only; (repeat' split) <;> simp

@[simp] theorem corrOver_kept (sp o : Nat) (c : Corr) (s : State) : kept (corrOver sp o c s) = kept s := by
  unfold corrOver; split <;> simp

@[simp] theorem corrJudge_kept (sp o : Nat) (s : State) : kept (corrJudge sp o s) = kept s := by
  unfold corrJudge; (repeat' split) <;> simp

@[simp] theorem corrTimeout_kept (sp o : Nat) (s : State) : kept (corrTimeout sp o s) = kept s := by
  unfold corrTimeout; dsimp only; (repeat' split) <;> first | rfl | simp

@[simp] theorem measureStandby_kept (sp o : Nat) (tMeas tExpA : Rat) (s : State) : kept (measureStandby sp o tMeas tExpA s) = kept s := by
  simp [measureStandby]

@[simp] theorem arrival_kept (sp o k64 : Nat) (s : State) : kept (arrival sp o k64 s) = kept s := by
  unfold arrival; dsimp only; (repeat' split) <;> simp

@[simp] theorem rogueDisable_kept (sp : Nat) (os : List Nat) (s : State) : kept (rogueDisable sp os s) = kept s := by
  simp [rogueDisable]

@[simp] theorem rogueEnable_kept (sp : Nat) (os : List Nat) (s : State) : kept (rogueEnable sp os s) = kept s := by
  simp [rogueEnable]

@[simp] theorem rogueStep_kept (sp p : Nat) (r : RogueSearch) (s : State) : kept (rogueStep sp p r s) = kept s := by
  simp [rogueStep]

@[simp] theorem rogueStart_kept (sp p : Nat) (s : State) : kept (rogueStart sp p s) = kept s := by
  unfold rogueStart; split <;> simp

@[simp] theorem rogueWaitEnd_kept (sp p : Nat) (s : State) : kept (rogueWaitEnd sp p s) = kept s := by
  unfold rogueWaitEnd; dsimp only; (repeat' split) <;> first | rfl | simp

end Sys2Proof.Machine
end

