-- ==== Sys2Proof/Laws/KeepBurst.lean ====
section
/-! SUPPORT. The operations of the burst receivers leave the fuses, the flash and the waiting commands alone. -/

namespace Sys2Proof.Machine

@[simp] theorem mapSent_kept (sp p : Nat) (m : PMap) (s : State) : kept (mapSent sp p m s) = kept s := by
  unfold mapSent
  extract_lets t u
  rw [← show kept t = kept s from cnt_kept _ _ _]
  refine forEach_kept _ _ _ (fun g s => ?_)
  extract_lets v w x
  have hv : kept v = kept s := by unfold v; split <;> rfl
  split
  · exact hv
  · rw [← hv]
    refine forEach_kept _ _ _ (fun a s => ?_)
    extract_lets y z
    have hz : kept z = kept s := by unfold z; split <;> rfl
    split
    · rw [setAlloc_kept, hz]
    · exact hz

@[simp] theorem sendFrame_kept (sp p n : Nat) (s : State) : kept (sendFrame sp p n s) = kept s := by
  unfold sendFrame
  extract_lets v x m s1 s2 s3 all c room now s6 s7 s8
  have h1 : kept s1 = kept s := by unfold s1; split <;> simp
  have h2 : kept s2 = kept s := by rw [← h1]; exact forEach_kept _ _ _ (by simp)
  have h3 : kept s3 = kept s := by
    rw [← h2]
    refine forEach_kept _ _ _ (fun a s => ?_)
    (repeat' split) <;> rfl
  have h6 : kept s6 = kept s := by rw [← h3]; rfl
  have h7 : kept s7 = kept s := by rw [← h6, ← mapSent_kept sp p m s6]; exact forEach_kept _ _ _ (by simp)
  rw [newPayload_kept, ← h7]
  rfl

@[simp] theorem pierFrame_kept (sp p n : Nat) (s : State) : kept (pierFrame sp p n s) = kept s := by
  unfold pierFrame; dsimp only; (repeat' split) <;> simp

@[simp] theorem judgeLos_kept (sp p : Nat) (s : State) : kept (judgeLos sp p s) = kept s := by
  unfold judgeLos; dsimp only; (repeat' split) <;> simp

@[simp] theorem judgeRogue_kept (sp p : Nat) (seen : Bool) (s : State) : kept (judgeRogue sp p seen s) = kept s := by
  unfold judgeRogue; dsimp only; (repeat' split) <;> simp

@[simp] theorem txLockLoss_kept (n : Nat) (s : State) : kept (txLockLoss n s) = kept s := by
  unfold txLockLoss
  split
  · rfl
  · split
    · rw [cnt_kept, onLane_kept _ _ _ (by intros; rfl)]
    · simp

@[simp] theorem txLockHeld_kept (n : Nat) (s : State) : kept (txLockHeld n s) = kept s := by
  unfold txLockHeld
  split
  · rfl
  · split
    · exact onLane_kept _ _ _ (by intros; rfl)
    · extract_lets sp p t
      split
      · simp [t]
      · rfl

@[simp] theorem noteBurst_kept (sp p : Nat) (d : Due) (s : State) : kept (noteBurst sp p d s) = kept s := by
  unfold noteBurst; split <;> rfl

@[simp] theorem strobes_kept (sp p : Nat) (d : Due) (s : State) : kept (strobes sp p d s) = kept s := by
  simp [strobes]

@[simp] theorem searchStart_kept (sp p : Nat) (s : State) : kept (searchStart sp p s) = kept s := by
  unfold searchStart; dsimp only; (repeat' split) <;> simp

@[simp] theorem lobDefect_kept (sp o : Nat) (v : Bool) (s : State) : kept (lobDefect sp o v s) = kept s := by
  simp [lobDefect]

@[simp] theorem spliceFail_kept (sp o : Nat) (s : State) : kept (spliceFail sp o s) = kept s := by
  simp [spliceFail]

@[simp] theorem burstMissed_kept (sp p o : Nat) (r : Rx) (s : State) : kept (burstMissed sp p o r s) = kept s := by
  unfold burstMissed; dsimp only; (repeat' split) <;> simp

@[simp] theorem burstAccepted_kept (sp p o : Nat) (b : BurstHead) (r : Rx) (ref : Rat) (s : State) : kept (burstAccepted sp p o b r ref s) = kept s := by
  unfold burstAccepted
  extract_lets s1 s2 s3 s4 s5
  have h2 : kept s2 = kept s := by simp [s2, s1]
  have h3 : kept s3 = kept s := by unfold s3; split <;> simpa using h2
  have h4 : kept s4 = kept s := by unfold s4; split <;> simpa using h3
  have h5 : kept s5 = kept s := by
    rw [← h4]
    refine forEach_kept _ _ _ (fun a s => ?_)
    split <;> rfl
  split
  · simpa using h5
  · exact h5

@[simp] theorem delimiterMatch_kept (sp p : Nat) (b : BurstHead) (s : State) : kept (delimiterMatch sp p b s) = kept s := by
  unfold delimiterMatch; dsimp only; (repeat' split) <;> simp

@[simp] theorem searchEnd_kept (sp p : Nat) (s : State) : kept (searchEnd sp p s) = kept s := by
  unfold searchEnd; (repeat' split) <;> simp

@[simp] theorem spliceLoad_kept (sp o : Nat) (s : State) : kept (spliceLoad sp o s) = kept s := rfl

@[simp] theorem spliceWrite_kept (sp o : Nat) (d : Due) (a : Adapted) (s : State) : kept (spliceWrite sp o d a s) = kept s := by
  unfold spliceWrite; dsimp only; (repeat' split) <;> simp

@[simp] theorem burstLast_kept (sp p : Nat) (a : Adapted) (s : State) : kept (burstLast sp p a s) = kept s := by
  unfold burstLast
  split
  · rfl
  · split
    · rfl
    · extract_lets t u
      have hu : kept u = kept s := by
        rw [← show kept t = kept s from rfl]
        refine forEach_kept _ _ _ (fun a s => ?_)
        split <;> rfl
      (repeat' split) <;> simpa using hu

@[simp] theorem spliceClearAt_kept (sp o : Nat) (s : State) : kept (spliceClearAt sp o s) = kept s := by
  simp [spliceClearAt]

@[simp] theorem berAdd_kept (sp o n e : Nat) (s : State) : kept (berAdd sp o n e s) = kept s := rfl

@[simp] theorem codewordDecoded_kept (sp p bits : Nat) (corrected : Option Nat) (bip : Nat) (s : State) : kept (codewordDecoded sp p bits corrected bip s) = kept s := by
  unfold codewordDecoded; (repeat' split) <;> simp

@[simp] theorem judgeBer_kept (sp o d exp : Nat) (w : BerWin) (s : State) : kept (judgeBer sp o d exp w s) = kept s := by
  simp [judgeBer]

@[simp] theorem sdEnd_kept (sp o : Nat) (s : State) : kept (sdEnd sp o s) = kept s := by
  simp [sdEnd]

@[simp] theorem sfEnd_kept (sp o : Nat) (s : State) : kept (sfEnd sp o s) = kept s := by
  simp [sfEnd]

@[simp] theorem reportIn_kept (sp p a value frame : Nat) (s : State) : kept (reportIn sp p a value frame s) = kept s := by
  unfold reportIn; dsimp only; (repeat' split) <;> simp

@[simp] theorem dbru_kept (sp p a value : Nat) (ok : Bool) (s : State) : kept (dbru sp p a value ok s) = kept s := by
  unfold dbru; split
  · simp
  · split <;> simp

@[simp] theorem ploamUp_kept (sp p : Nat) (bs : List Byte) (s : State) : kept (ploamUp sp p bs s) = kept s := by
  unfold ploamUp; dsimp only; (repeat' split) <;> simp

@[simp] theorem omciDropped_kept (slice : Nat) (s : State) : kept (omciDropped slice s) = kept s := rfl

@[simp] theorem framePassed_kept (sp o len : Nat) (s : State) : kept (framePassed sp o len s) = kept s := rfl

@[simp] theorem upFrame_kept (sp p o : Nat) (f : GemUp) (s : State) : kept (upFrame sp p o f s) = kept s := by
  unfold upFrame
  split
  · rfl
  · extract_lets note t
    have hn (n : Nat) (s : State) : kept (note n s) = kept s := by unfold note; (repeat' split) <;> rfl
    clear_value note
    (repeat' split) <;> first | rfl | exact hn _ _ | simp [t, hn]

@[simp] theorem lobDeact_kept (sp o : Nat) (s : State) : kept (lobDeact sp o s) = kept s := by
  simp [lobDeact]

@[simp] theorem ploamTimeout_kept (sp o : Nat) (s : State) : kept (ploamTimeout sp o s) = kept s := by
  unfold ploamTimeout; dsimp only; (repeat' split) <;> simp

@[simp] theorem startOpening_kept (sp : Nat) (ref : Option Ref) (s : State) : kept (startOpening sp ref s) = kept s := rfl

@[simp] theorem spanOpen_kept (code : Nat) (c : Call) (s : State) : kept (spanOpen code c s) = kept s := by
  unfold spanOpen; dsimp only; (repeat' split) <;> simp

@[simp] theorem startClosing_kept (sp : Nat) (s : State) : kept (startClosing sp s) = kept s := by
  unfold startClosing; dsimp only; split <;> simp

@[simp] theorem spanClose_kept (code : Nat) (c : Call) (s : State) : kept (spanClose code c s) = kept s := by
  unfold spanClose; dsimp only; (repeat' split) <;> simp

@[simp] theorem lateFrame_kept (sp : Nat) (s : State) : kept (lateFrame sp s) = kept s := by
  unfold lateFrame; split <;> simp

@[simp] theorem openTx_kept (sp : Nat) (s : State) : kept (openTx sp s) = kept s := by
  unfold openTx
  extract_lets v t u
  split
  · rfl
  · rw [lateFrame_kept, mirrorSpanRec_kept, ← show kept t = kept s from rfl]
    exact forEach_kept _ _ _ (by intros; rfl)

@[simp] theorem openGrant_kept (sp : Nat) (s : State) : kept (openGrant sp s) = kept s := by
  simp [openGrant]

@[simp] theorem closeStop_kept (sp : Nat) (s : State) : kept (closeStop sp s) = kept s := by
  simp [closeStop]

@[simp] theorem closeDeactivate_kept (sp : Nat) (s : State) : kept (closeDeactivate sp s) = kept s := by
  unfold closeDeactivate
  dsimp only
  split
  · rfl
  · rw [threePiers_kept _ _ (by intros; rfl)]; rfl

@[simp] theorem closeDue_kept (sp n : Nat) (s : State) : kept (closeDue sp n s) = kept s := by
  unfold closeDue; split <;> simp

@[simp] theorem splicesStale_kept (sp : Nat) (s : State) : kept (splicesStale sp s) = kept s := by
  unfold splicesStale
  exact forEach_kept _ _ _ (by simp)

@[simp] theorem onusClosed_kept (sp : Nat) (told : List Nat) (s : State) : kept (onusClosed sp told s) = kept s := by
  simp [onusClosed]

@[simp] theorem spanClosed_kept (sp : Nat) (s : State) : kept (spanClosed sp s) = kept s := by
  unfold spanClosed
  extract_lets v old told tr s1 s2 s3 s4 s5
  rw [forEach_kept _ _ _ (by simp)]
  have h2 : kept s2 = kept s := by rw [← show kept s1 = kept s from rfl]; exact forEach_kept _ _ _ (by intros; rfl)
  simp [s5, s4, s3, h2]

@[simp] theorem closeEnd_kept (sp : Nat) (s : State) : kept (closeEnd sp s) = kept s := by
  unfold closeEnd; dsimp only; (repeat' split) <;> simp

end Sys2Proof.Machine
end

