-- ==== Sys2Proof/Laws/KeepTruss.lean ====
section
/-! SUPPORT. The operations of the Trusses leave the fuses, the flash and the waiting commands alone. -/

namespace Sys2Proof.Machine

@[simp] theorem setTruss_kept (sp : Nat) (t : Truss) (s : State) : kept (setTruss sp t s) = kept s := rfl

@[simp] theorem modTruss_kept (sp : Nat) (f : Truss → Truss) (s : State) : kept (modTruss sp f s) = kept s := rfl

@[simp] theorem stageEntry_kept (sp a o p slice prof size : Nat) (dbru idle : Bool) (s : State) : kept (stageEntry sp a o p slice prof size dbru idle s).st = kept s := by
  unfold stageEntry; dsimp only; (repeat' split) <;> simp

@[simp] theorem recordPut_kept (sp a word : Nat) (v : Word) (s : State) : kept (recordPut sp a word v s) = kept s := by
  unfold recordPut; split <;> rfl

@[simp] theorem commitWrite_kept (sp : Nat) (w : TWrite) (s : State) : kept (commitWrite sp w s) = kept s := by
  unfold commitWrite; (repeat' split) <;> simp

@[simp] theorem commitAll_kept (sp resume : Nat) (s : State) : kept (commitAll sp resume s) = kept s := by
  simp [commitAll]

@[simp] theorem discard_kept (sp : Nat) (s : State) : kept (discard sp s) = kept s := rfl

@[simp] theorem restart_kept (sp : Nat) (s : State) : kept (restart sp s) = kept s := rfl

@[simp] theorem stageWrite_kept (sp : Nat) (w : TWrite) (s : State) : kept (stageWrite sp w s).st = kept s := by
  unfold stageWrite; split <;> simp

@[simp] theorem selectAlloc_kept (sp a : Nat) (s : State) : kept (selectAlloc sp a s).st = kept s := rfl

@[simp] theorem srfRead_kept (sp : Nat) (pop : Bool) (s : State) : kept (srfRead sp pop s).st = kept s := by
  unfold srfRead; dsimp only; (repeat' split) <;> simp

@[simp] theorem budgetRead_kept (sp : Nat) (s : State) : kept (budgetRead sp s).st = kept s := by
  unfold budgetRead; dsimp only; (repeat' split) <;> simp

@[simp] theorem tmRead_kept (sp a : Nat) (s : State) : kept (tmRead sp a s).st = kept s := by
  unfold tmRead; split <;> simp

@[simp] theorem mapStage_kept (sp a size param : Nat) (own : Option Nat) (s : State) : kept (mapStage sp a size param own s).st = kept s := by
  unfold mapStage; dsimp only; (repeat' split) <;> simp

@[simp] theorem mapQuery_kept (sp a : Nat) (s : State) : kept (mapQuery sp a s).st = kept s := by
  unfold mapQuery; split <;> simp

@[simp] theorem mapReserve_kept (sp p a b : Nat) (s : State) : kept (mapReserve sp p a b s).st = kept s := by
  unfold mapReserve; split <;> simp

@[simp] theorem mapWindow_kept (sp p : Nat) (ranging : Bool) (o start : Nat) (s : State) : kept (mapWindow sp p ranging o start s).st = kept s := by
  unfold mapWindow; split <;> simp

@[simp] theorem portOp_kept (sp port op pa pd param : Nat) (own : Option Nat) (s : State) : kept (portOp sp port op pa pd param own s).st = kept s := by
  unfold portOp; dsimp only; (repeat' split) <;> simp

@[simp] theorem modFig_kept (sp : Nat) (f : TFigures → TFigures) (s : State) : kept (modFig sp f s) = kept s := rfl

@[simp] theorem beginCall_kept (sp a slice entry limit ret back : Nat) (pass2 vendor : Bool) (s : State) :
    kept (beginCall sp a slice entry limit ret back pass2 vendor s) = kept s := by
  simp [beginCall]

@[simp] theorem closeCall_kept (sp : Nat) (c : OpenCall) (ended : Bool) (s : State) : kept (closeCall sp c ended s) = kept s := rfl

end Sys2Proof.Machine
end

