-- ==== Sys2Proof/Laws/KeepRoutine.lean ====
section
/-! SUPPORT. The operations of the vendor frame routine leave the fuses, the flash and the waiting commands alone. -/

namespace Sys2Proof.Machine

@[simp] theorem startRoutine_kept (sp n : Nat) (s : State) : kept (startRoutine sp n s) = kept s := rfl

@[simp] theorem setWindows_kept (sp : Nat) (l : List Window) (s : State) : kept (setWindows sp l s) = kept s := rfl

@[simp] theorem decideDiscovery_kept (sp m : Nat) (s : State) : kept (decideDiscovery sp m s) = kept s := by
  unfold decideDiscovery; dsimp only; (repeat' split) <;> simp

@[simp] theorem decideRanging_kept (sp m p : Nat) (s : State) : kept (decideRanging sp m p s) = kept s := by
  unfold decideRanging; dsimp only; (repeat' split) <;> simp

@[simp] theorem deferWindows_kept (sp m : Nat) (s : State) : kept (deferWindows sp m s) = kept s := rfl

@[simp] theorem stageWindows_kept (sp m p : Nat) (s : State) : kept (stageWindows sp m p s) = kept s := by
  unfold stageWindows
  extract_lets t
  have ht : kept t = kept s := by
    refine forEach_kept _ _ _ (fun w s => ?_)
    (repeat' split) <;> simp
  rw [← ht]
  refine forEach_kept _ _ _ (fun w s => ?_)
  extract_lets u
  split <;> simp [u]

@[simp] theorem spend_kept (sp most : Nat) (s : State) : kept (spend sp most s) = kept s := rfl

@[simp] theorem setCursor_kept (sp : Nat) (c : Cursor) (s : State) : kept (setCursor sp c s) = kept s := rfl

@[simp] theorem prologue_kept (sp : Nat) (s : State) : kept (prologue sp s) = kept s := by
  simp [prologue]

@[simp] theorem stagePacked_kept (sp a o p slice prof size : Nat) (dbru idle : Bool) (s : State) : kept (stagePacked sp a o p slice prof size dbru idle s).st = kept s := by
  unfold stagePacked; dsimp only; (repeat' split) <;> simp

@[simp] theorem vendorStage_kept (sp a size : Nat) (idle : Bool) (s : State) : kept (vendorStage sp a size idle s).st = kept s := by
  unfold vendorStage; split
  · simp
  · split <;> simp

@[simp] theorem pollIfDue_kept (sp a : Nat) (s : State) : kept (pollIfDue sp a s) = kept s := by
  unfold pollIfDue; split <;> simp

@[simp] theorem stageGuar_kept (sp a size : Nat) (s : State) : kept (stageGuar sp a size s) = kept s := by
  unfold stageGuar; split <;> simp

@[simp] theorem bring_kept (sp a na be : Nat) (call : Bool) (s : State) : kept (bring sp a na be call s) = kept s := by
  unfold bring; split <;> simp

@[simp] theorem vendorAlloc_kept (sp a : Nat) (s : State) : kept (vendorAlloc sp a s) = kept s := by
  unfold vendorAlloc; split <;> simp

@[simp] theorem vendorCall_kept (sp a entry limit : Nat) (offer : Option Nat) (s : State) : kept (vendorCall sp a entry limit offer s) = kept s := by
  unfold vendorCall; split <;> simp

@[simp] theorem visitAlloc_kept (sp a : Nat) (s : State) : kept (visitAlloc sp a s) = kept s := by
  unfold visitAlloc; dsimp only; (repeat' split) <;> simp

@[simp] theorem pollOnu_kept (sp o : Nat) (s : State) : kept (pollOnu sp o s) = kept s := by
  unfold pollOnu; dsimp only; (repeat' split) <;> simp

@[simp] theorem setShare_kept (sp : Nat) (h : Share) (s : State) : kept (setShare sp h s) = kept s := rfl

@[simp] theorem openSweep_kept (sp p sweep : Nat) (rest : List Nat) (c : Nat) (s : State) : kept (openSweep sp p sweep rest c s) = kept s := by
  unfold openSweep
  extract_lets here t todo wrem
  rw [setCursor_kept]
  unfold t
  split
  · refine forEach_kept _ _ _ (fun a s => ?_)
    split <;> simp
  · rfl

@[simp] theorem nextPier_kept (sp : Nat) (ps : List Nat) (s : State) : kept (nextPier sp ps s) = kept s := by
  unfold nextPier; split <;> simp

@[simp] theorem afterSweep_kept (sp p sweep : Nat) (rest : List Nat) (c : Nat) (s : State) : kept (afterSweep sp p sweep rest c s) = kept s := by
  simp [afterSweep]

@[simp] theorem sweepTurn_kept (sp p sweep a : Nat) (rest todo : List Nat) (c wrem : Nat) (s : State) : kept (sweepTurn sp p sweep a rest todo c wrem s) = kept s := by
  unfold sweepTurn; dsimp only; (repeat' split) <;> simp

@[simp] theorem advanceRotation_kept (sp p : Nat) (s : State) : kept (advanceRotation sp p s) = kept s := by
  unfold advanceRotation; split <;> simp

@[simp] theorem epilogue_kept (sp : Nat) (s : State) : kept (epilogue sp s) = kept s := by
  unfold epilogue
  extract_lets t u
  split
  · rfl
  · have ht : kept t = kept s := by rw [← spend_kept sp 2000 s]; exact forEach_kept _ _ _ (by simp)
    have hu : kept u = kept s := by
      rw [← ht]
      refine forEach_kept _ _ _ (fun a s => ?_)
      split <;> simp
    simpa using hu

@[simp] theorem afterCall_kept (sp : Nat) (c : OpenCall) (s0 : Word) (s : State) : kept (afterCall sp c s0 s) = kept s := by
  simp [afterCall]

@[simp] theorem afterAbandon_kept (sp : Nat) (c : OpenCall) (s : State) : kept (afterAbandon sp c s) = kept s := by
  unfold afterAbandon; split <;> simp

@[simp] theorem endCall_kept (sp : Nat) (c : OpenCall) (fault : Bool) (s : State) : kept (endCall sp c fault s) = kept s := by
  unfold endCall; (repeat' split) <;> simp

@[simp] theorem breakWindows_kept (sp m : Nat) (s : State) : kept (breakWindows sp m s) = kept s := by
  unfold breakWindows; dsimp only; split <;> simp

@[simp] theorem vendorFault_kept (sp : Nat) (s : State) : kept (vendorFault sp s) = kept s := by
  unfold vendorFault; dsimp only; (repeat' split) <;> simp

@[simp] theorem microFault_kept (sp : Nat) (s : State) : kept (microFault sp s) = kept s := by
  unfold microFault; split <;> simp

@[simp] theorem commitIf_kept (n sp resume : Nat) (s : State) : kept (commitIf n sp resume s) = kept s := by
  simp [commitIf]

@[simp] theorem initDone_kept (sp : Nat) (s : State) : kept (initDone sp s) = kept s := rfl

@[simp] theorem sequence_kept (sp n : Nat) (old s : State) (h : kept old = kept s) : kept (sequence sp n old s) = kept s := by
  unfold sequence
  extract_lets t call to_ ret resume outside full go u cond
  have hg (a : Nat) (st : List Nat) (s : State) : kept (go a st s) = kept s := by simp [go]
  clear_value go full outside resume ret to_ call t
  (repeat' split) <;> simp +zetaDelta [hg, h]

/-- A micro-word that goes on keeps `k`. -/

def microKept (k : Kept) (r : State ⊕ String) : Prop := match r with | .inl t => kept t = k | .inr _ => True

theorem microRun_kept (sp : Nat) (s : State) (n : Nat) (t : Truss) (call : Option OpenCall) (cost : Nat) :
    microKept (kept s) (microWord.run sp s n t call cost) := by
  unfold microWord.run
  extract_lets imm src own res o near dst keep s1 s2 s3
  have h1 : kept s1 = kept s := by simp [s1, o]
  have h3 : kept s3 = kept s := by
    rw [← h1]
    unfold s3
    rw [cnt_kept]
    split <;> rfl
  split
  · trivial
  · show kept (sequence sp n s s3) = kept s
    rw [sequence_kept _ _ _ _ h3.symm, h3]

theorem microWord_kept (sp : Nat) (w : BitVec 192) (s : State) : microKept (kept s) (microWord sp w s) := by
  unfold microWord
  extract_lets n t call cost
  clear_value call
  split
  · trivial
  · split
    · split
      · simp [microKept]
      · exact microRun_kept _ _ _ _ _ _
    · exact microRun_kept _ _ _ _ _ _

@[simp] theorem vendorStep_kept (sp : Nat) (s : State) : kept (vendorStep sp s) = kept s := by
  unfold vendorStep; dsimp only; (repeat' split) <;> simp

theorem microStep_kept (sp : Nat) (words : Bool) (s : State) : microKept (kept s) (microStep sp words s) := by
  unfold microStep
  extract_lets t
  (repeat' split) <;> first | exact microWord_kept _ _ _ | simp [microKept]

@[simp] theorem callLimit_kept (sp : Nat) (s : State) : kept (callLimit sp s) = kept s := by
  unfold callLimit; dsimp only; (repeat' split) <;> simp

@[simp] theorem finishEntry_kept (sp : Nat) (s : State) : kept (finishEntry sp s) = kept s := by
  unfold finishEntry; dsimp only; (repeat' split) <;> simp

@[simp] theorem initEntry_kept (sp : Nat) (s : State) : kept (initEntry sp s) = kept s := by
  unfold initEntry; dsimp only; (repeat' split) <;> simp

@[simp] theorem noteGrants_kept (sp p m : Nat) (gs : List Grant) (s : State) : kept (noteGrants sp p m gs s) = kept s := by
  unfold noteGrants
  refine forEach_kept _ _ _ (fun a s => ?_)
  try dsimp only
  (repeat' split) <;> simp

@[simp] theorem sealPier_kept (sp m p : Nat) (s : State) : kept (sealPier sp m p s) = kept s := by
  unfold sealPier
  split
  · simp
  · split
    extract_lets t
    rw [noteGrants_kept, modPier_kept]
    exact forEach_kept _ _ _ (fun b s => forEach_kept _ _ _ (by simp))

@[simp] theorem mirrorAlloc_kept (sp a : Nat) (s : State) : kept (mirrorAlloc sp a s) = kept s := by
  unfold mirrorAlloc; split <;> simp

@[simp] theorem mirrorFrame_kept (sp m : Nat) (s : State) : kept (mirrorFrame sp m s) = kept s := by
  simp [mirrorFrame]

@[simp] theorem anchorMap_kept (sp p m : Nat) (gs : List Grant) (s : State) : kept (anchorMap sp p m gs s) = kept s := rfl

@[simp] theorem mapCutoff_kept (sp : Nat) (s : State) : kept (mapCutoff sp s) = kept s := by
  unfold mapCutoff
  extract_lets t lost some_ s1 s2 s3 s4 s5 s6 s7
  split
  · rfl
  · have h1 : kept s1 = kept s := forEach_kept _ _ _ (by simp)
    have h2 : kept s2 = kept s := by unfold s2; split <;> simpa using h1
    have h3 : kept s3 = kept s := by rw [← h2]; exact forEach_kept _ _ _ (by simp)
    have h4 : kept s4 = kept s := by simpa [s4] using h3
    have h5 : kept s5 = kept s := by rw [← h4]; exact forEach_kept _ _ _ (by simp)
    have h6 : kept s6 = kept s := by rw [← h5]; exact forEach_kept _ _ _ (by simp)
    simpa [s7] using h6

end Sys2Proof.Machine
end

