-- ==== Sys2Proof/Laws/KeepTrussCalls.lean ====
section
/-! SUPPORT. The operations of the allocations and open bank leave the fuses, the flash and the waiting commands alone. -/

namespace Sys2Proof.Machine

@[simp] theorem deallocMsg_kept (sp a : Nat) (x : Alloc) (s : State) : kept (deallocMsg sp a x s) = kept s := by
  simp [deallocMsg]

@[simp] theorem extendMeas_kept (n : Nat) (digest : List Byte) (s : State) : kept (extendMeas n digest s) = kept s := rfl

@[simp] theorem loadPages_kept (sp : Nat) (s : State) : kept (loadPages sp s) = kept s := rfl

@[simp] theorem writePages_kept (s : State) : kept (writePages s) = kept s :=
  forEach_kept _ _ _ (fun _ _ => rfl)

@[simp] theorem openLoad_kept (ch : Nat) (ws : List Word) (s : State) : kept (openLoad ch ws s).1 = kept s := by
  unfold openLoad
  extract_lets len bs t key fail pg u v
  have ht : kept t = kept s := rfl
  have hf (n : Nat) (st : Status) : kept (fail n st).1 = kept s := by simp [fail, ht]
  split
  · rfl
  · split
    · exact raise_kept _ _ _ _
    · split
      · exact raise_kept _ _ _ _
      · split
        · exact hf _ _
        · split
          · exact hf _ _
          · split
            · exact hf _ _
            · show kept (raise _ _ _ _) = kept s
              rw [raise_kept, writePages_kept]
              exact ht

end Sys2Proof.Machine
end

