-- ==== Sys2Proof/Laws/KeepSessions.lean ====
section
/-! SUPPORT. The operations of the sessions leave the fuses, the flash and the waiting commands alone. -/

namespace Sys2Proof.Machine

@[simp] theorem closeSession_kept (ch : Nat) (s : State) : kept (closeSession ch s) = kept s := rfl

end Sys2Proof.Machine
end

