-- ==== Sys2Proof/Laws/KeepPair.lean ====
section
/-! SUPPORT. The operations of the protection pair leave the fuses, the flash and the waiting commands alone. -/

namespace Sys2Proof.Machine

@[simp] theorem setPairSt_kept (st : PairSt) (s : State) : kept (setPairSt st s) = kept s := by
  simp [setPairSt]

@[simp] theorem judgeSync_kept (sp : Nat) (s : State) : kept (judgeSync sp s) = kept s := by
  simp [judgeSync]

@[simp] theorem judgeSyncs_kept (s : State) : kept (judgeSyncs s) = kept s := by
  simp [judgeSyncs]

@[simp] theorem judgePaired_kept (s : State) : kept (judgePaired s) = kept s := by
  simp [judgePaired]

@[simp] theorem flushMate_kept (fuel : Nat) (s : State) : kept (flushMate fuel s) = kept s := by
  induction fuel generalizing s with
  | zero => simp [flushMate]
  | succ n ih =>
    cases h : s.red.pair.toMate with
    | nil => unfold flushMate; rw [h]
    | cons ws t =>
      unfold flushMate
      rw [h]
      dsimp only
      split
      · rw [ih]; simp
      · rfl

@[simp] theorem mateCall_kept (code : Nat) (ws : List Word) (s : State) : kept (mateCall code ws s) = kept s := by
  simp [mateCall]

@[simp] theorem snapshotKeys_kept (sp : Nat) (s : State) : kept (snapshotKeys sp s) = kept s := by
  unfold snapshotKeys
  dsimp only
  rw [forEach_kept _ _ _ (fun p s => ?_), forEach_kept _ _ _ (fun o s => ?_)]
  all_goals (repeat' split) <;> simp

@[simp] theorem snapshotSpan_kept (sp : Nat) (s : State) : kept (snapshotSpan sp s) = kept s := by
  simp [snapshotSpan]

@[simp] theorem resendKeys_kept (sp : Nat) (s : State) : kept (resendKeys sp s) = kept s := by
  unfold resendKeys; dsimp only; split <;> simp

@[simp] theorem snapshot_kept (spans : List Nat) (s : State) : kept (snapshot spans s) = kept s := by
  simp [snapshot]

@[simp] theorem keyDone_kept (was : Bool) (s : State) : kept (keyDone was s) = kept s := by
  unfold keyDone; dsimp only; split
  · simp
  · rw [judgeSyncs_kept]; split <;> simp

@[simp] theorem takeRole_kept (sp : Nat) (active : Bool) (s : State) : kept (takeRole sp active s) = kept s := by
  unfold takeRole; split
  · dsimp only
    rw [threePiers_kept _ _ (by simp), threePiers_kept _ _ (by simp)]; rfl
  · rw [threePiers_kept _ _ (by simp), muteSpan_kept]

theorem foldl_kept {α β : Type} (f : State × β → α → State × β) (l : List α) (x : State × β) (h : ∀ x a, kept (f x a).1 = kept x.1) :
    kept (l.foldl f x).1 = kept x.1 := by
  induction l generalizing x with
  | nil => rfl
  | cons a t ih => rw [List.foldl_cons, ih, h]

@[simp] theorem resolveRoles_kept (tag : Nat) (prefer openActive : Word) (s : State) : kept (resolveRoles tag prefer openActive s) = kept s := by
  unfold resolveRoles
  extract_lets step r
  have hr : kept r.1 = kept s := by
    refine foldl_kept step _ (s, []) (fun x sp => ?_)
    simp only [step]
    split <;> simp
  split
  · exact hr
  · simpa using hr

@[simp] theorem helloFrom_kept (ws : List Word) (s : State) : kept (helloFrom ws s) = kept s := by
  unfold helloFrom; split
  · simp
  · split <;> simp

@[simp] theorem adjustOnu_kept (sp o : Nat) (d : Rat) (s : State) : kept (adjustOnu sp o d s) = kept s := rfl

@[simp] theorem tellEqd_kept (sp o : Nat) (s : State) : kept (tellEqd sp o s) = kept s := rfl

@[simp] theorem cannotAdjust_kept (sp o : Nat) (s : State) : kept (cannotAdjust sp o s) = kept s := by
  simp [cannotAdjust]

@[simp] theorem adjustPier_kept (sp p : Nat) (synced : Bool) (s : State) : kept (adjustPier sp p synced s) = kept s := by
  unfold adjustPier
  extract_lets x os m out
  split
  · extract_lets t
    have ht : kept t = kept s := by unfold t; split <;> simp
    rw [← ht]
    refine forEach_kept _ _ _ (fun o s => ?_)
    extract_lets d u
    (repeat' split) <;> simp [u]
  · refine forEach_kept _ _ _ (fun o s => ?_)
    extract_lets u
    split <;> simp

@[simp] theorem fixKeys_kept (sp : Nat) (s : State) : kept (fixKeys sp s) = kept s := by
  unfold fixKeys
  dsimp only
  rw [forEach_kept _ _ _ (by simp), forEach_kept _ _ _ (by simp)]

@[simp] theorem beginTake_kept (sp row : Nat) (s : State) : kept (beginTake sp row s) = kept s := by
  unfold beginTake
  dsimp only
  rw [judgeSync_kept, forEach_kept _ _ _ (by simp), fixKeys_kept, modSpan_kept, forEach_kept _ _ _ (by simp),
    threePiers_kept _ _ (by simp), addRun_kept]

@[simp] theorem startTake_kept (row : Nat) (spans : List Nat) (s : State) : kept (startTake row spans s) = kept s := by
  unfold startTake
  extract_lets t go
  rw [forEach_kept _ _ _ (by simp), startedEvt_kept]
  exact forEach_kept _ _ _ (by simp)

@[simp] theorem takeOver_kept (row : Nat) (force : Bool) (spans : List Nat) (s : State) : kept (takeOver row force spans s) = kept s := by
  simp [takeOver]

@[simp] theorem relight_kept (sp : Nat) (s : State) : kept (relight sp s) = kept s := by
  simp [relight]

@[simp] theorem callSwitch_kept (force : Bool) (spans : List Nat) (s : State) : kept (callSwitch force spans s) = kept s := by
  simp [callSwitch]

@[simp] theorem pairSwitch_kept (code : Nat) (c : Call) (s : State) : kept (pairSwitch code c s) = kept s := by
  unfold pairSwitch; dsimp only; (repeat' split) <;> simp

@[simp] theorem refuseRun_kept (sp : Nat) (s : State) : kept (refuseRun sp s) = kept s := by
  unfold refuseRun
  dsimp only
  rw [forEach_kept]
  · rw [setPair_kept, threePiers_kept _ _ (by simp), setPair_kept]
  · intro c s; (repeat' split) <;> simp

@[simp] theorem refuseRuns_kept (n : Nat) (s : State) : kept (refuseRuns n s) = kept s :=
  forEach_kept _ _ _ (fun sp s => refuseRun_kept sp s)

@[simp] theorem enterHello_kept (s : State) : kept (enterHello s) = kept s := by
  simp [enterHello]

@[simp] theorem refreshPair_kept (s : State) : kept (refreshPair s) = kept s := by
  unfold refreshPair; (repeat' split) <;> simp

@[simp] theorem settleCalls_kept (sp : Nat) (s : State) : kept (settleCalls sp s) = kept s := by
  simp [settleCalls]

@[simp] theorem endRun_kept (sp : Nat) (s : State) : kept (endRun sp s) = kept s := by
  unfold endRun
  rw [settleCalls_kept, threePiers_kept _ _ (by simp)]
  simp

@[simp] theorem firstFrame_kept (sp : Nat) (s : State) : kept (firstFrame sp s) = kept s := by
  unfold firstFrame
  split
  · rfl
  · extract_lets t1 a b c
    have hb : kept b = kept s := by rw [← show kept a = kept s by simp [a]]; exact forEach_kept _ _ _ (by simp)
    split <;> simp [c, hb]

@[simp] theorem mateLost_kept (why : Nat) (s : State) : kept (mateLost why s) = kept s := by
  unfold mateLost
  dsimp only
  split
  · rfl
  · rw [judgeSyncs_kept, forEach_kept _ _ _ (fun sp s => threePiers_kept _ _ (by simp)), setPair_kept]
    split <;> rw [refusedEvt_kept, raise_kept, setPairSt_kept, forEach_kept _ _ _ (by simp)]

@[simp] theorem confirmEnd_kept (lit : Word) (s : State) : kept (confirmEnd lit s) = kept s := by
  simp [confirmEnd]

@[simp] theorem hawserDown_kept (s : State) : kept (hawserDown s) = kept s := by
  simp [hawserDown]

@[simp] theorem hawserUp_kept (s : State) : kept (hawserUp s) = kept s := by
  unfold hawserUp; dsimp only; (repeat' split) <;> simp

@[simp] theorem hawserSetNow_kept (s : State) : kept (hawserSetNow s) = kept s := by
  simp [hawserSetNow, apply_ite kept]

@[simp] theorem hawserSilent_kept (s : State) : kept (hawserSilent s) = kept s := by
  simp [hawserSilent]

@[simp] theorem codewordCounted_kept (i : Nat) (good : Bool) (s : State) : kept (codewordCounted i good s) = kept s := by
  unfold codewordCounted; dsimp only; split <;> simp

@[simp] theorem hawserLinkUp_kept (s : State) : kept (hawserLinkUp s) = kept s := by
  simp [hawserLinkUp]

@[simp] theorem hawserLock_kept (i : Nat) (on : Bool) (s : State) : kept (hawserLock i on s) = kept s := by
  simp [hawserLock]

@[simp] theorem mailboxLost_kept (ch : Nat) (s : State) : kept (mailboxLost ch s) = kept s := by
  simp [mailboxLost]

@[simp] theorem mailboxOutLost_kept (ch : Nat) (s : State) : kept (mailboxOutLost ch s) = kept s := by
  simp [mailboxOutLost]

@[simp] theorem lostFlits_kept (s : State) : kept (lostFlits s) = kept s := by
  unfold lostFlits
  extract_lets a b
  have hb : kept b = kept s := by unfold b; split <;> simp [a]
  split <;> simp [hb]

@[simp] theorem deliverFlits_kept (fuel : Nat) (s : State) : kept (deliverFlits fuel s) = kept s := by
  induction fuel generalizing s with
  | zero => simp [deliverFlits]
  | succ _ ih => simp [deliverFlits]; (repeat' split) <;> simp [ih]

@[simp] theorem hawserLanes_kept (s : State) : kept (hawserLanes s) = kept s := by
  unfold hawserLanes
  rw [hawserSetNow_kept]
  exact forEach_kept _ _ _ (fun i s => by split <;> simp)

@[simp] theorem hawserCodeword_kept (i : Nat) (good : Bool) (seq : Nat) (lanes : Nat) (flits : Nat) (s : State) : kept (hawserCodeword i good seq lanes flits s) = kept s := by
  unfold hawserCodeword
  simp only [apply_ite kept, hawserLock_kept, setHawser_kept, deliverFlits_kept, hawserSetNow_kept, codewordCounted_kept, cnt_kept, ite_self]

theorem fromMate_kept (f : State → State) (s : State) (h : ∀ s, kept (f s) = kept s) : kept (fromMate f s) = kept s := by
  unfold fromMate; dsimp only; (repeat' split) <;> first | rfl | exact h s

@[simp] theorem freeFlit_kept (s : State) : kept (freeFlit s) = kept s := by
  unfold freeFlit; split <;> simp

@[simp] theorem pushAll_kept (ch : Nat) (ws : List Word) (s : State) : kept (pushAll ch ws s) = kept s := by
  induction ws generalizing ch s with
  | nil => simp [pushAll]
  | cons _ _ ih => simp [pushAll, ih]

@[simp] theorem mailboxFlit_kept (reply : Bool) (words : List Word) (free : Nat) (s : State) : kept (mailboxFlit reply words free s) = kept s := by
  unfold mailboxFlit; split
  · simp
  · split <;> simp

@[simp] theorem timebaseFlit_kept (s : State) : kept (timebaseFlit s) = kept s := by
  simp [timebaseFlit]

@[simp] theorem timebaseRx_kept (send echoSend echoRecv recv : Nat) (s : State) : kept (timebaseRx send echoSend echoRecv recv s) = kept s := by
  unfold timebaseRx; split <;> simp

@[simp] theorem mirrorIn_kept (rseq : Nat) (s : State) : kept (mirrorIn rseq s) = kept s := by
  unfold mirrorIn; dsimp only; (repeat' split) <;> simp

@[simp] theorem mirrorMap_kept (sp : Nat) (m : MirMap) (s : State) : kept (mirrorMap sp m s) = kept s := by
  unfold mirrorMap
  split
  · rfl
  · refine forEach_kept _ _ _ (fun e s => ?_)
    extract_lets dues late t
    split <;> simp [t]

@[simp] theorem mirrorOnuIn_kept (sp : Nat) (m : MirOnu) (s : State) : kept (mirrorOnuIn sp m s) = kept s := by
  unfold mirrorOnuIn; split <;> simp

@[simp] theorem mirrorAllocIn_kept (sp : Nat) (m : MirAlloc) (s : State) : kept (mirrorAllocIn sp m s) = kept s := by
  unfold mirrorAllocIn; split
  · simp
  · split <;> simp

@[simp] theorem mirrorKeyIn_kept (sp : Nat) (m : MirKey) (s : State) : kept (mirrorKeyIn sp m s) = kept s := by
  unfold mirrorKeyIn; (repeat' split) <;> simp

@[simp] theorem mirrorSpanIn_kept (sp : Nat) (m : MirSpan) (s : State) : kept (mirrorSpanIn sp m s) = kept s := by
  unfold mirrorSpanIn
  extract_lets t
  split
  · rfl
  · rw [← show kept t = kept s by simp [t]]
    refine forEach_kept _ _ _ (fun p s => ?_)
    split <;> simp

@[simp] theorem heartbeatIn_kept (roles : Word) (s : State) : kept (heartbeatIn roles s) = kept s := by
  simp [heartbeatIn]

@[simp] theorem switchIn_kept (row : Nat) (force : Bool) (spans : List Nat) (s : State) : kept (switchIn row force spans s) = kept s := by
  simp [switchIn]

@[simp] theorem snapshotEnd_kept (spans : Word) (s : State) : kept (snapshotEnd spans s) = kept s := by
  unfold snapshotEnd
  dsimp only
  rw [judgePaired_kept, apply_ite kept, mateCall_kept, ite_self, setPair_kept]
  refine forEach_kept _ _ _ (fun sp s => forEach_kept _ _ _ (fun p s => ?_))
  rw [judgeReady_kept, modPier_kept, drawn_kept, drawn_kept]

@[simp] theorem snapshotTaken_kept (spans : Word) (s : State) : kept (snapshotTaken spans s) = kept s := by
  simp [snapshotTaken]

@[simp] theorem ackIn_kept (rseq : Nat) (s : State) : kept (ackIn rseq s) = kept s := by
  unfold ackIn
  dsimp only
  rw [judgeSyncs_kept, forEach_kept _ _ _ (fun e s => forEach_kept _ _ _ (by simp)), forEach_kept _ _ _ (fun e s => fixSwitch_kept _ _ s), setPair_kept]

@[simp] theorem ackOut_kept (s : State) : kept (ackOut s) = kept s := by
  unfold ackOut; split
  · dsimp only; rw [flitsOut_kept, setPair_kept]
  · rfl

@[simp] theorem heartbeatOut_kept (n : Nat) (s : State) : kept (heartbeatOut n s) = kept s := by
  simp [heartbeatOut]

@[simp] theorem mateHello_kept (ws : List Word) (s : State) : kept (mateHello ws s).1 = kept s := by
  simp [mateHello]

@[simp] theorem mateBulk_kept (ws : List Word) (s : State) (k : Kept) (h : kept s = k) : PairKept k (mateBulk ws s) := by
  subst h
  unfold mateBulk
  (repeat' first | exact pairKept_error _ _ | refine pairKept_bind _ _ _ (fun _ _ => ?_) | split) <;> simp

end Sys2Proof.Machine
end

