-- ==== Sys2Proof/Laws/KeepShelf.lean ====
section
/-! SUPPORT. The operations of the Lanyard shelf leave the fuses, the flash and the waiting commands alone. -/

namespace Sys2Proof.Machine

@[simp] theorem modPeer_kept (w : Nat) (f : Peer → Peer) (s : State) : kept (modPeer w f s) = kept s := by
  unfold modPeer; split <;> simp

@[simp] theorem lanIn_kept (h : LanHead) (type : Nat) (s : State) : kept (lanIn h type s) = kept s := by
  unfold lanIn; dsimp only; (repeat' split) <;> simp

@[simp] theorem lanFrame_kept (port : Nat) (h : LanHead) (type : Nat) (f : State → State) (s : State) (hf : ∀ x0, kept (f x0) = kept x0) : kept (lanFrame port h type f s) = kept s := by
  unfold lanFrame
  split
  · rfl
  · extract_lets mine t
    have ht : kept t = kept s := by unfold t; split <;> simp
    split
    · rw [hf, ht]
    · exact ht

@[simp] theorem replyOut_kept (s : State) : kept (replyOut s) = kept s := by
  simp [replyOut]

@[simp] theorem helloTimer_kept (s : State) : kept (helloTimer s) = kept s := by
  unfold helloTimer
  extract_lets free t
  split
  · rfl
  · have ht : kept t = kept s := lanyardOn_kept _ _ _ _ _
    split
    · simpa using ht
    · exact ht

@[simp] theorem helloIn_kept (port : Nat) (h : LanHead) (manager : Bool) (free : Nat) (s : State) : kept (helloIn port h manager free s) = kept s := by
  unfold helloIn; split
  · simp
  · split <;> simp

@[simp] theorem lanCall_kept (h : LanHead) (words : List Word) (s : State) : kept (lanCall h words s) = kept s := by
  simp [lanCall]

@[simp] theorem lanReply_kept (h : LanHead) (free : Nat) (words : List Word) (s : State) : kept (lanReply h free words s) = kept s := by
  simp [lanReply]

@[simp] theorem regQuery_kept (h : LanHead) (serial : BitVec 64) (s : State) : kept (regQuery h serial s) = kept s := by
  unfold regQuery; dsimp only; (repeat' split) <;> simp

@[simp] theorem regAnswer_kept (serial : BitVec 64) (e : Option RegEntry) (s : State) : kept (regAnswer serial e s) = kept s := by
  unfold regAnswer
  extract_lets l spans t c
  split
  · rfl
  · split
    · simp [t]
    · extract_lets c u
      rw [forEach_kept _ _ _ (by simp)]
      unfold u
      rw [cnt_kept, setLan_kept]
      rfl

@[simp] theorem usageOut_kept (s : State) : kept (usageOut s) = kept s := by
  simp [usageOut]

@[simp] theorem budgetIn_kept (slice port rate : Nat) (s : State) : kept (budgetIn slice port rate s) = kept s := rfl

@[simp] theorem usageIn_kept (worker : Nat) (lines : List UsageLine) (s : State) : kept (usageIn worker lines s) = kept s := by
  simp [usageIn]

@[simp] theorem lanApportion_kept (s : State) : kept (lanApportion s) = kept s := by
  unfold lanApportion
  extract_lets lines t
  split
  · rfl
  · rw [forEach_kept _ _ _ (fun w s => forEach_kept _ _ _ (by simp))]
    exact forEach_kept _ _ _ (by simp)

@[simp] theorem lanTimeout_kept (peer : Nat) (s : State) : kept (lanTimeout peer s) = kept s := by
  unfold lanTimeout; split
  · simp
  · split <;> simp

end Sys2Proof.Machine
end

