-- ==== Sys2Proof/Laws/KeepPower.lean ====
section
/-! SUPPORT. The operations of the power domains leave the fuses, the flash and the waiting commands alone. -/

namespace Sys2Proof.Machine

@[simp] theorem modDom_kept (d : Nat) (f : Domain → Domain) (s : State) : kept (modDom d f s) = kept s := rfl

@[simp] theorem setPwr_kept (x : Power) (s : State) : kept (setPwr x s) = kept s := rfl

@[simp] theorem dropCounts_kept (d : Nat) (s : State) : kept (dropCounts d s) = kept s := rfl

@[simp] theorem loadVendor_kept (sp : Nat) (s : State) : kept (loadVendor sp s) = kept s := rfl

@[simp] theorem spanPowerOff_kept (sp : Nat) (s : State) : kept (spanPowerOff sp s) = kept s := by
  unfold spanPowerOff
  extract_lets a b c d
  rw [forEach_kept _ _ _ (by simp)]
  show kept b = kept s
  rw [← show kept a = kept s by simp [a]]
  exact forEach_kept _ _ _ (by simp)

@[simp] theorem tdmPowerOff_kept (s : State) : kept (tdmPowerOff s) = kept s := by
  unfold tdmPowerOff
  dsimp only
  split
  · rw [swapDone_kept]; rfl
  · rfl

@[simp] theorem macPowerOff_kept (e : Nat) (s : State) : kept (macPowerOff e s) = kept s := by
  rfl

@[simp] theorem tdLink_kept (d before : Nat) (s : State) : kept (tdLink d before s) = kept s := by
  unfold tdLink; split <;> simp

@[simp] theorem domLoses_kept (d : Nat) (s : State) : kept (domLoses d s) = kept s := by
  unfold domLoses; (repeat' split) <;> simp

@[simp] theorem domReturns_kept (d : Nat) (s : State) : kept (domReturns d s) = kept s := by
  unfold domReturns; (repeat' split) <;> simp

@[simp] theorem startDrain_kept (d : Nat) (s : State) : kept (startDrain d s) = kept s := by
  unfold startDrain; dsimp only; split <;> simp

@[simp] theorem answerAll_kept (rs : List Ref) (st : Status) (s : State) : kept (answerAll rs st s) = kept s := by
  simp [answerAll]

@[simp] theorem enqueueOn_kept (o : SwitchOn) (s : State) : kept (enqueueOn o s) = kept s := rfl

@[simp] theorem endOn_kept (o : SwitchOn) (st : Status) (s : State) : kept (endOn o st s) = kept s := by
  simp [endOn]

@[simp] theorem cancelOn_kept (d : Nat) (s : State) : kept (cancelOn d s) = kept s := by
  unfold cancelOn; dsimp only; rw [forEach_kept _ _ _ (by simp), setPwr_kept]

@[simp] theorem reachOff_kept (d : Nat) (s : State) : kept (reachOff d s) = kept s := by
  simp [reachOff]

@[simp] theorem powerOnCall_kept (code : Nat) (c : Call) (d : Nat) (s : State) : kept (powerOnCall code c d s) = kept s := by
  unfold powerOnCall; dsimp only; (repeat' split) <;> simp

@[simp] theorem powerOffCall_kept (code : Nat) (c : Call) (d : Nat) (s : State) : kept (powerOffCall code c d s) = kept s := by
  unfold powerOffCall; (repeat' split) <;> simp

@[simp] theorem powerSet_kept (code : Nat) (c : Call) (s : State) : kept (powerSet code c s) = kept s := by
  simp [powerSet]

@[simp] theorem setVdd_kept (mv : Nat) (s : State) : kept (setVdd mv s) = kept s := by
  unfold setVdd; dsimp only; (repeat' split) <;> simp

@[simp] theorem switchOnTurn_kept (s : State) : kept (switchOnTurn s) = kept s := by
  unfold switchOnTurn; dsimp only; (repeat' split) <;> first | rfl | simp

@[simp] theorem rampStart_kept (s : State) : kept (rampStart s) = kept s := by
  unfold rampStart; dsimp only; (repeat' split) <;> first | rfl | simp

@[simp] theorem rampEnd_kept (s : State) : kept (rampEnd s) = kept s := by
  unfold rampEnd; split <;> simp

@[simp] theorem shedAdvance_kept (s : State) : kept (shedAdvance s) = kept s := by
  unfold shedAdvance; (repeat' split) <;> simp

@[simp] theorem shedFrom_kept (l : List Nat) (s : State) : kept (shedFrom l s) = kept s := by
  induction l generalizing s with
  | nil => simp [shedFrom]
  | cons _ _ ih => simp [shedFrom, ih]

@[simp] theorem shedNextDom_kept (s : State) : kept (shedNextDom s) = kept s := by
  simp [shedNextDom]

@[simp] theorem shedStop_kept (s : State) : kept (shedStop s) = kept s := rfl

@[simp] theorem paceShedTimeout_kept (s : State) : kept (paceShedTimeout s) = kept s := by
  simp [paceShedTimeout]

@[simp] theorem drainEnd_kept (d : Nat) (s : State) : kept (drainEnd d s) = kept s := by
  unfold drainEnd; split <;> simp

@[simp] theorem raiseStep_kept (s : State) : kept (raiseStep s) = kept s := by
  simp [raiseStep]

@[simp] theorem avsTick_kept (s : State) : kept (avsTick s) = kept s := by
  unfold avsTick; dsimp only; (repeat' split) <;> simp

@[simp] theorem paceAlarm_kept (d : Nat) (s : State) : kept (paceAlarm d s) = kept s := by
  simp [paceAlarm]

@[simp] theorem paceOne_kept (d steps end_ : Nat) (s : State) : kept (paceOne d steps end_ s) = kept s := by
  unfold paceOne; dsimp only; (repeat' split) <;> simp

@[simp] theorem paceWindow_kept (l : List (Nat × Nat)) (s : State) : kept (paceWindow l s) = kept s := by
  unfold paceWindow
  extract_lets end_ _ t u x
  have hu : kept u = kept s := by unfold u; rw [forEach_kept _ _ _ (by simp)]; rfl
  split
  · exact hu
  · dsimp only; (repeat' split) <;> simp [hu]

@[simp] theorem gaugeTj_kept (tj : Int) (s : State) : kept (gaugeTj tj s) = kept s := rfl

@[simp] theorem noteTj_kept (tj : Int) (s : State) : kept (noteTj tj s) = kept s := by
  unfold noteTj; dsimp only; (repeat' split) <;> simp

@[simp] theorem thermalWarn_kept (tj : Int) (s : State) : kept (thermalWarn tj s) = kept s := by
  simp [thermalWarn]

@[simp] theorem thermalHot_kept (tj : Int) (s : State) : kept (thermalHot tj s) = kept s := by
  simp [thermalHot]

@[simp] theorem tripDom_kept (d : Nat) (s : State) : kept (tripDom d s) = kept s := by
  simp [tripDom]

@[simp] theorem thermalTrip_kept (tj : Int) (s : State) : kept (thermalTrip tj s) = kept s := by
  unfold thermalTrip; dsimp only; (repeat' split) <;> simp

@[simp] theorem thermalClear_kept (tj : Int) (s : State) : kept (thermalClear tj s) = kept s := by
  simp [thermalClear]

@[simp] theorem pmbAlert_kept (status : Nat) (s : State) : kept (pmbAlert status s) = kept s := by
  simp [pmbAlert]

@[simp] theorem thermalRead_kept (s : State) : kept (thermalRead s).1 = kept s := rfl

end Sys2Proof.Machine
end

