-- ==== Sys2Proof/Laws/KeepBoot.lean ====
section
/-! SUPPORT. The operations of the boot that do not write them leave the fuses, the flash and the waiting commands alone. -/

namespace Sys2Proof.Machine

@[simp] theorem setBoot_kept (x : Boot) (s : State) : kept (setBoot x s) = (x.svnMin, x.ownerHash, x.ownerState, x.flash, s.pending) := rfl

@[simp] theorem bootStart_kept (role boot smb : Nat) (s : State) : kept (bootStart role boot smb s) = kept s := rfl

@[simp] theorem resetRelease_kept (role boot smb : Nat) (s : State) : kept (resetRelease role boot smb s) = kept s := by
  unfold resetRelease; split <;> simp

@[simp] theorem setResult_svnMin (slot v : Nat) (b : Boot) : (setResult slot v b).svnMin = b.svnMin := by unfold setResult; split <;> rfl

@[simp] theorem setResult_ownerHash (slot v : Nat) (b : Boot) : (setResult slot v b).ownerHash = b.ownerHash := by unfold setResult; split <;> rfl

@[simp] theorem setResult_ownerState (slot v : Nat) (b : Boot) : (setResult slot v b).ownerState = b.ownerState := by unfold setResult; split <;> rfl

@[simp] theorem setResult_flash (slot v : Nat) (b : Boot) : (setResult slot v b).flash = b.flash := by unfold setResult; split <;> rfl

@[simp] theorem slotFailed_kept (slot cause : Nat) (s : State) : kept (slotFailed slot cause s) = kept s := by
  unfold slotFailed
  extract_lets b other
  split <;> simp [b] <;> rfl

@[simp] theorem romDone_kept (readError : Bool) (s : State) : kept (romDone readError s) = kept s := by
  unfold romDone
  split
  · extract_lets e t
    split
    · simp
    · rfl
  · rfl

@[simp] theorem loaderDone_kept (readError : Bool) (s : State) : kept (loaderDone readError s) = kept s := by
  unfold loaderDone
  split
  · split
    · simp
    · split
      · simp
      · simp; rfl
  · rfl

@[simp] theorem saendReady_kept (s : State) : kept (saendReady s) = kept s := by
  unfold saendReady
  split
  · rfl
  · extract_lets t x a b other c
    have ht : kept t = kept s := forEach_kept _ _ _ (by simp)
    clear_value t
    have ha : kept a = kept s := ht
    have hb : kept b = kept s := by unfold b; split <;> simpa using ha
    have hc : kept c = kept s := by unfold c; split <;> simpa using hb
    split
    · simpa using hc
    · rw [drawWrap_kept]; exact hc

@[simp] theorem resetAll_kept (s : State) : kept (resetAll s) = kept s := rfl

@[simp] theorem deviceReset_kept (role boot smb : Nat) (s : State) : kept (deviceReset role boot smb s) = kept s := by
  unfold deviceReset; split <;> simp

@[simp] theorem releaseCleats_kept (ch : Nat) (s : State) : kept (releaseCleats ch s) = kept s := rfl

@[simp] theorem functionReset_kept (fn : Nat) (s : State) : kept (functionReset fn s) = kept s := by
  simp [functionReset]

@[simp] theorem perst_kept (s : State) : kept (perst s) = kept s := by
  unfold perst
  dsimp only
  rw [kept_with]
  exact forEach_kept _ _ _ (fun fn s => by rw [setChan_kept, setFunc_kept, functionReset_kept])

@[simp] theorem vfEnable_kept (n : Nat) (s : State) : kept (vfEnable n s) = kept s := by
  unfold vfEnable
  refine forEach_kept _ _ _ (fun a s => ?_)
  try dsimp only
  (repeat' split) <;> simp

@[simp] theorem vfDisable_kept (fn : Nat) (s : State) : kept (vfDisable fn s) = kept s := by
  simp [vfDisable]

@[simp] theorem restartBegin_kept (s : State) : kept (restartBegin s) = kept s := by
  unfold restartBegin
  split
  · rfl
  · dsimp only
    rw [kept_with, setTxns_kept, forEach_kept _ _ _ (by simp)]
    rfl

@[simp] theorem deliverHeld_kept (ch : Nat) (s : State) : kept (deliverHeld ch s) = kept s := by
  simp [deliverHeld]

@[simp] theorem restartEnd_kept (s : State) : kept (restartEnd s) = kept s := by
  unfold restartEnd
  split
  · rfl
  · extract_lets _ a b c spans d e
    have hb : kept b = kept s := by unfold b; rw [raise_kept]; rfl
    have hc : kept c = kept s := by rw [← hb]; exact forEach_kept _ _ _ (by simp)
    have hd : kept d = kept s := by rw [← hc]; exact forEach_kept _ _ _ (fun sp s => forEach_kept _ _ _ (by simp))
    have he : kept e = kept s := by
      rw [← hd]
      exact forEach_kept _ _ _ (fun sp s => forEach_kept _ _ _ (fun a s => by split <;> simp))
    rw [← he]
    exact forEach_kept _ _ _ (fun sp s => forEach_kept _ _ _ (by simp))

@[simp] theorem handOut_kept (ch addr : Nat) (bs : List Byte) (s : State) : kept (handOut ch addr bs s) = kept s := by
  unfold handOut; split <;> simp

@[simp] theorem devAttest_kept (ch : Nat) (ws : List Word) (s : State) (k : Kept) (h : kept s = k) : PairKept k (devAttest ch ws s) := by
  subst h
  unfold devAttest
  (repeat' first | exact pairKept_error _ _ | refine pairKept_bind _ _ _ (fun _ _ => ?_) | split) <;> simp

@[simp] theorem devCertRead_kept (ch : Nat) (ws : List Word) (s : State) (k : Kept) (h : kept s = k) : PairKept k (devCertRead ch ws s) := by
  subst h
  unfold devCertRead
  (repeat' first | exact pairKept_error _ _ | refine pairKept_bind _ _ _ (fun _ _ => ?_) | split) <;> simp

@[simp] theorem devSlotSet_kept (ws : List Word) (s : State) (k : Kept) (h : kept s = k) : PairKept k (devSlotSet ws s) := by
  subst h
  unfold devSlotSet
  extract_lets slot
  refine pairKept_bind _ _ _ (fun _ _ => ?_)
  show kept (setBoot (if _ then _ else _) s) = kept s
  split <;> rfl

@[simp] theorem devReset_kept (ws : List Word) (s : State) (k : Kept) (h : kept s = k) : PairKept k (devReset ws s) := by
  subst h
  unfold devReset
  extract_lets mine t
  refine pairKept_bind _ _ _ (fun _ _ => ?_)
  have ht : kept t = kept s := by unfold t; split <;> simp
  rw [← ht]
  rfl

end Sys2Proof.Machine
end

