-- ==== Sys2Proof/Laws/KeepMailbox.lean ====
section
/-! SUPPORT. The operations of the mailboxes, Cleats and event registers leave the fuses, the flash and the waiting commands alone. -/

namespace Sys2Proof.Machine

@[simp] theorem inAbort_kept (ch : Nat) (s : State) : kept (inAbort ch s) = kept s := by
  simp [inAbort]

@[simp] theorem outRead_kept (ch : Nat) (s : State) : kept (outRead ch s) = kept s := by
  unfold outRead; dsimp only; simp only [emit_kept]; split <;> simp

@[simp] theorem irqCtrl_kept (fn : Nat) (w : Word) (s : State) : kept (irqCtrl fn w s) = kept s := by
  unfold irqCtrl; dsimp only; (repeat' split) <;> simp

@[simp] theorem discardMarked_kept (ch : Nat) (s : State) : kept (discardMarked ch s) = kept s := by
  simp [discardMarked]

@[simp] theorem moveBacklog_kept (ch : Nat) (s : State) : kept (moveBacklog ch s) = kept s := by
  unfold moveBacklog; dsimp only; (repeat' split) <;> simp

@[simp] theorem rateWindowEnd_kept (ch src : Nat) (s : State) : kept (rateWindowEnd ch src s) = kept s := by
  simp [rateWindowEnd]

@[simp] theorem setCleat_kept (n : Nat) (c : Cleat) (s : State) : kept (setCleat n c s) = kept s := rfl

@[simp] theorem cleatRead_kept (ch n : Nat) (s : State) : kept (cleatRead ch n s) = kept s := by
  unfold cleatRead; dsimp only; simp only [emit_kept]; split <;> simp

@[simp] theorem cleatWrite_kept (ch n : Nat) (w : Word) (s : State) : kept (cleatWrite ch n w s) = kept s := by
  simp [cleatWrite]

@[simp] theorem setEvtRegs_kept (fn g : Nat) (e : EvtRegs) (s : State) : kept (setEvtRegs fn g e s) = kept s := rfl

@[simp] theorem pendRead_kept (fn g : Nat) (s : State) : kept (pendRead fn g s) = kept s := rfl

@[simp] theorem pendClear_kept (fn g : Nat) (w : Word) (s : State) : kept (pendClear fn g w s) = kept s := by
  simp [pendClear]

@[simp] theorem maskWrite_kept (fn g : Nat) (w : Word) (s : State) : kept (maskWrite fn g w s) = kept s := by
  simp [maskWrite]

@[simp] theorem unmask_kept (fn v : Nat) (s : State) : kept (unmask fn v s) = kept s := by
  unfold unmask; dsimp only; (repeat' split) <;> simp

@[simp] theorem sessionOpen_kept (c : Call) (s : State) : kept (sessionOpen c s) = kept s := by
  unfold sessionOpen; dsimp only; (repeat' split) <;> simp

@[simp] theorem sessionClose_kept (c : Call) (s : State) : kept (sessionClose c s) = kept s := by
  simp [sessionClose]

end Sys2Proof.Machine
end

