-- ==== Sys2Proof/Laws/KeepCounters.lean ====
section
/-! SUPPORT. The operations of the event sources and counters leave the fuses, the flash and the waiting commands alone. -/

namespace Sys2Proof.Machine

@[simp] theorem evtDetail_kept (ch : Nat) (ws : List Word) (s : State) (k : Kept) (h : kept s = k) : PairKept k (evtDetail ch ws s) := by
  subst h
  unfold evtDetail
  (repeat' first | exact pairKept_error _ _ | refine pairKept_bind _ _ _ (fun _ _ => ?_) | split) <;> simp

@[simp] theorem gaugesNow_kept (s : State) : kept (gaugesNow s) = kept s := by
  unfold gaugesNow
  extract_lets a b
  have ha : kept a = kept s := forEach_kept _ _ _ (fun d s => by split <;> simp)
  have hb : kept b = kept s := by rw [← ha]; exact forEach_kept _ _ _ (by simp)
  simpa using hb

@[simp] theorem latch_kept (second : Nat) (s : State) : kept (latch second s) = kept s := by
  simp [latch]

@[simp] theorem cntSnapshotCopy_kept (ch : Nat) (ws : List Word) (s : State) (k : Kept) (h : kept s = k) : PairKept k (cntSnapshotCopy ch ws s) := by
  subst h
  unfold cntSnapshotCopy
  (repeat' first | exact pairKept_error _ _ | refine pairKept_bind _ _ _ (fun _ _ => ?_) | split) <;> simp

end Sys2Proof.Machine
end

