-- ==== Sys2Proof/Laws/KeepRegisters.lean ====
section
/-! SUPPORT. The operations of the registers by offset leave the fuses, the flash and the waiting commands alone. -/

namespace Sys2Proof.Machine

@[simp] theorem ringWrite_kept (fn off : Nat) (w : Word) (s : State) : kept (ringWrite fn off w s) = kept s := by
  unfold ringWrite; (repeat' split) <;> simp

@[simp] theorem inStatusWrite_kept (ch : Nat) (w : Word) (s : State) : kept (inStatusWrite ch w s) = kept s := by
  simp [inStatusWrite]

@[simp] theorem outStatusWrite_kept (ch : Nat) (w : Word) (s : State) : kept (outStatusWrite ch w s) = kept s := by
  simp [outStatusWrite]

@[simp] theorem regWrite_kept (ch off : Nat) (w : Word) (s : State) : kept (regWrite ch off w s) = kept s := by
  unfold regWrite; (repeat' split) <;> simp

@[simp] theorem readReg_kept (ch off : Nat) (s : State) : kept (readReg ch off s) = kept s := by
  unfold readReg; (repeat' split) <;> simp

@[simp] theorem readBy_kept (ch off code : Nat) (s : State) : kept (readBy ch off code s) = kept s := by
  unfold readBy smbBlockRead; (repeat' split) <;> simp

@[simp] theorem writeBy_kept (ch operand : Nat) (w : Word) (s : State) : kept (writeBy ch operand w s) = kept s := by
  unfold writeBy smbBlockWrite; (repeat' split) <;> simp

/-! ### A register read by its offset is the command of its row -/

/-- While the boot ROM runs a register that it does not show reads 0. -/
theorem readReg_booting (ch off : Nat) (s : State) (h : booting s = true) (hb : bootShown off = false) :
    readReg ch off s = emit (.readData ch 0) s := by
  simp [readReg, h, hb]

theorem readReg_out (ch : Nat) (s : State) (h : booting s = false) : readReg ch 0x110 s = outRead ch s := by
  simp [readReg, h]

theorem readReg_cleat (ch : Nat) (n : Fin 64) (s : State) (h : booting s = false) : readReg ch (0x1000 + 4 * n) s = cleatRead ch n s := by
  have e : (0x1000 + 4 * n.val - 0x1000) / 4 = n.val := by omega
  unfold readReg; rw [e, h, if_neg (by simp), if_neg (by omega), if_pos (by simp; omega)]

/-- A Block Read of a register's command code at the device's own address is the read of its offset. -/
theorem readBy_eq (ch off code : Nat) (s : State) (h : ch = 18 → smbOffset code = some off) : readBy ch off code s = readReg ch off s := by
  unfold readBy smbBlockRead
  split
  · next e => subst e; simp [h rfl]
  · rfl

theorem smbOffset_out : smbOffset 0x14 = some 0x110 := rfl

theorem smbOffset_cleat (n : Fin 64) : smbOffset (0x40 + n.val) = some (0x1000 + 4 * n.val) := by
  unfold smbOffset; rw [if_neg (by omega), if_pos (by simp; omega), Nat.add_sub_cancel_left]

/-- A Block Read answers the four bytes of the word that the register read puts out. -/
theorem readReg_out_word (ch off : Nat) (s : State) : ∃ t, readReg ch off s = emit (.readData ch (readWord s ch off)) t := by
  unfold readReg readWord outRead cleatRead; (repeat' split) <;> exact ⟨_, rfl⟩

/-- The four bytes of a Block Write are its word. -/
theorem leNat_toLe4 (w : Word) : wd (leNat (toLe 4 w.toNat)) = w := by
  have h := w.isLt
  apply BitVec.eq_of_toNat_eq
  simp [toLe, leNat, wd]
  omega

/-- A Block Write at the device's own address is the register write of its command code. -/
theorem smbBlockWrite_eq (code : Nat) (w : Word) (s : State) :
    smbBlockWrite (smbAddress s) code (toLe 4 w.toNat) s = match smbOffset code with | some off => regWrite 18 off w s | none => s := by
  have hl : (toLe 4 w.toNat).length = 4 := rfl
  simp [smbBlockWrite, hl, leNat_toLe4] <;> rfl

end Sys2Proof.Machine
end

