-- ==== Sys2Proof/Laws/KeepCalls.lean ====
section
/-! SUPPORT. What the items and bodies of the calls do leaves the fuses, the flash and the waiting commands alone. -/

namespace Sys2Proof.Machine

@[simp] theorem ponCipherConfig_apply_kept (i : Item) (s : State) (k : Kept) (h : kept s = k) : ResKept k (ponCipherConfig.apply i s) := by
  subst h
  unfold ponCipherConfig
  dsimp only
  (repeat' first | exact resKept_error _ _ | refine resKept_bind _ _ _ (fun _ _ => ?_) | split) <;> first | rfl | simp

@[simp] theorem ponMskSet_apply_kept (i : Item) (s : State) (k : Kept) (h : kept s = k) : ResKept k (ponMskSet.apply i s) := by
  subst h
  unfold ponMskSet
  dsimp only
  (repeat' first | exact resKept_error _ _ | refine resKept_bind _ _ _ (fun _ _ => ?_) | split) <;> first | rfl | simp

@[simp] theorem ponBcastKeySet_apply_kept (i : Item) (s : State) (k : Kept) (h : kept s = k) : ResKept k (ponBcastKeySet.apply i s) := by
  subst h
  unfold ponBcastKeySet
  dsimp only
  (repeat' first | exact resKept_error _ _ | refine resKept_bind _ _ _ (fun _ _ => ?_) | split) <;> first | rfl | simp

@[simp] theorem macsecPortConfig_apply_kept (i : Item) (s : State) (k : Kept) (h : kept s = k) : ResKept k (macsecPortConfig.apply i s) := by
  subst h
  unfold macsecPortConfig
  dsimp only
  (repeat' first | exact resKept_error _ _ | refine resKept_bind _ _ _ (fun _ _ => ?_) | split) <;> first | rfl | simp

@[simp] theorem macsecSaSet_apply_kept (i : Item) (s : State) (k : Kept) (h : kept s = k) : ResKept k (macsecSaSet.apply i s) := by
  subst h
  unfold macsecSaSet
  dsimp only
  (repeat' first | exact resKept_error _ _ | refine resKept_bind _ _ _ (fun _ _ => ?_) | split) <;> first | rfl | simp

@[simp] theorem macsecRxScSet_apply_kept (i : Item) (s : State) (k : Kept) (h : kept s = k) : ResKept k (macsecRxScSet.apply i s) := by
  subst h
  unfold macsecRxScSet
  dsimp only
  (repeat' first | exact resKept_error _ _ | refine resKept_bind _ _ _ (fun _ _ => ?_) | split) <;> first | rfl | simp

@[simp] theorem macsecSaPn_apply_kept (i : Item) (s : State) (k : Kept) (h : kept s = k) : ResKept k (macsecSaPn.apply i s) := by
  subst h
  unfold macsecSaPn
  dsimp only
  (repeat' first | exact resKept_error _ _ | refine resKept_bind _ _ _ (fun _ _ => ?_) | split) <;> first | rfl | simp

@[simp] theorem macsecTxNext_apply_kept (i : Item) (s : State) (k : Kept) (h : kept s = k) : ResKept k (macsecTxNext.apply i s) := by
  subst h
  unfold macsecTxNext
  dsimp only
  (repeat' first | exact resKept_error _ _ | refine resKept_bind _ _ _ (fun _ _ => ?_) | split) <;> first | rfl | simp

@[simp] theorem pairKeyConfig_apply_kept (i : Item) (s : State) (k : Kept) (h : kept s = k) : ResKept k (pairKeyConfig.apply i s) := by
  subst h
  unfold pairKeyConfig
  dsimp only
  (repeat' first | exact resKept_error _ _ | refine resKept_bind _ _ _ (fun _ _ => ?_) | split) <;> first | rfl | simp

@[simp] theorem evtRouteSet_apply_kept (i : Item) (s : State) (k : Kept) (h : kept s = k) : ResKept k (evtRouteSet.apply i s) := by
  subst h
  unfold evtRouteSet
  dsimp only
  (repeat' first | exact resKept_error _ _ | refine resKept_bind _ _ _ (fun _ _ => ?_) | split) <;> first | rfl | simp

@[simp] theorem distSet_apply_kept (i : Item) (s : State) (k : Kept) (h : kept s = k) : ResKept k (distSet.apply i s) := by
  subst h
  unfold distSet
  dsimp only
  (repeat' first | exact resKept_error _ _ | refine resKept_bind _ _ _ (fun _ _ => ?_) | split) <;> first | rfl | simp

@[simp] theorem distPvidSet_apply_kept (i : Item) (s : State) (k : Kept) (h : kept s = k) : ResKept k (distPvidSet.apply i s) := by
  subst h
  unfold distPvidSet
  dsimp only
  (repeat' first | exact resKept_error _ _ | refine resKept_bind _ _ _ (fun _ _ => ?_) | split) <;> first | rfl | simp

@[simp] theorem vlanSet_apply_kept (i : Item) (s : State) (k : Kept) (h : kept s = k) : ResKept k (vlanSet.apply i s) := by
  subst h
  unfold vlanSet
  dsimp only
  (repeat' first | exact resKept_error _ _ | refine resKept_bind _ _ _ (fun _ _ => ?_) | split) <;> first | rfl | simp

@[simp] theorem bdSet_apply_kept (i : Item) (s : State) (k : Kept) (h : kept s = k) : ResKept k (bdSet.apply i s) := by
  subst h
  unfold bdSet
  dsimp only
  (repeat' first | exact resKept_error _ _ | refine resKept_bind _ _ _ (fun _ _ => ?_) | split) <;> first | rfl | simp

@[simp] theorem replSet_apply_kept (i : Item) (s : State) (k : Kept) (h : kept s = k) : ResKept k (replSet.apply i s) := by
  subst h
  unfold replSet
  dsimp only
  (repeat' first | exact resKept_error _ _ | refine resKept_bind _ _ _ (fun _ _ => ?_) | split) <;> first | rfl | simp

@[simp] theorem portSet_apply_kept (i : Item) (s : State) (k : Kept) (h : kept s = k) : ResKept k (portSet.apply i s) := by
  subst h
  unfold portSet
  dsimp only
  (repeat' first | exact resKept_error _ _ | refine resKept_bind _ _ _ (fun _ _ => ?_) | split) <;> first | rfl | simp

@[simp] theorem portDelete_apply_kept (i : Item) (s : State) (k : Kept) (h : kept s = k) : ResKept k (portDelete.apply i s) := by
  subst h
  unfold portDelete
  dsimp only
  (repeat' first | exact resKept_error _ _ | refine resKept_bind _ _ _ (fun _ _ => ?_) | split) <;> first | rfl | simp

@[simp] theorem fdbStaticSet_apply_kept (i : Item) (s : State) (k : Kept) (h : kept s = k) : ResKept k (fdbStaticSet.apply i s) := by
  subst h
  unfold fdbStaticSet
  dsimp only
  (repeat' first | exact resKept_error _ _ | refine resKept_bind _ _ _ (fun _ _ => ?_) | split) <;> first | rfl | simp

@[simp] theorem fdbDelete_apply_kept (i : Item) (s : State) (k : Kept) (h : kept s = k) : ResKept k (fdbDelete.apply i s) := by
  subst h
  unfold fdbDelete
  dsimp only
  (repeat' first | exact resKept_error _ _ | refine resKept_bind _ _ _ (fun _ _ => ?_) | split) <;> first | rfl | simp

@[simp] theorem directSet_apply_kept (i : Item) (s : State) (k : Kept) (h : kept s = k) : ResKept k (directSet.apply i s) := by
  subst h
  unfold directSet
  dsimp only
  (repeat' first | exact resKept_error _ _ | refine resKept_bind _ _ _ (fun _ _ => ?_) | split) <;> first | rfl | simp

@[simp] theorem routeSet_apply_kept (i : Item) (s : State) (k : Kept) (h : kept s = k) : ResKept k (routeSet.apply i s) := by
  subst h
  unfold routeSet
  dsimp only
  (repeat' first | exact resKept_error _ _ | refine resKept_bind _ _ _ (fun _ _ => ?_) | split) <;> first | rfl | simp

@[simp] theorem routeDelete_apply_kept (i : Item) (s : State) (k : Kept) (h : kept s = k) : ResKept k (routeDelete.apply i s) := by
  subst h
  unfold routeDelete
  dsimp only
  (repeat' first | exact resKept_error _ _ | refine resKept_bind _ _ _ (fun _ _ => ?_) | split) <;> first | rfl | simp

@[simp] theorem fwdTableConfig_apply_kept (i : Item) (s : State) (k : Kept) (h : kept s = k) : ResKept k (fwdTableConfig.apply i s) := by
  subst h
  unfold fwdTableConfig
  dsimp only
  (repeat' first | exact resKept_error _ _ | refine resKept_bind _ _ _ (fun _ _ => ?_) | split) <;> first | rfl | simp

@[simp] theorem fwdDscpSet_apply_kept (i : Item) (s : State) (k : Kept) (h : kept s = k) : ResKept k (fwdDscpSet.apply i s) := by
  subst h
  unfold fwdDscpSet
  dsimp only
  (repeat' first | exact resKept_error _ _ | refine resKept_bind _ _ _ (fun _ _ => ?_) | split) <;> first | rfl | simp

@[simp] theorem trapConfig_apply_kept (i : Item) (s : State) (k : Kept) (h : kept s = k) : ResKept k (trapConfig.apply i s) := by
  subst h
  unfold trapConfig
  dsimp only
  refine resKept_bind _ _ _ (fun _ _ => ?_)
  exact forEach_kept _ _ _ (fun p s => by rw [setPipe_kept, limiterRefill_kept])

@[simp] theorem loopbConfig_apply_kept (i : Item) (s : State) (k : Kept) (h : kept s = k) : ResKept k (loopbConfig.apply i s) := by
  subst h
  unfold loopbConfig
  dsimp only
  (repeat' first | exact resKept_error _ _ | refine resKept_bind _ _ _ (fun _ _ => ?_) | split) <;> first | rfl | simp

@[simp] theorem loopSet_apply_kept (i : Item) (s : State) (k : Kept) (h : kept s = k) : ResKept k (loopSet.apply i s) := by
  subst h
  unfold loopSet
  dsimp only
  (repeat' first | exact resKept_error _ _ | refine resKept_bind _ _ _ (fun _ _ => ?_) | split) <;> first | rfl | simp

@[simp] theorem pairConfig_apply_kept (i : Item) (s : State) (k : Kept) (h : kept s = k) : ResKept k (pairConfig.apply i s) := by
  subst h
  unfold pairConfig
  refine resKept_bind _ _ _ (fun _ _ => ?_)
  rw [resKept_ok, refreshPair_kept, setPair_kept]
  refine forEach_kept _ _ _ (fun sp s => ?_)
  split
  · rfl
  · exact modSpan_kept _ _ _

@[simp] theorem pairHawserCal_apply_kept (i : Item) (s : State) (k : Kept) (h : kept s = k) : ResKept k (pairHawserCal.apply i s) := by
  subst h
  unfold pairHawserCal
  dsimp only
  (repeat' first | exact resKept_error _ _ | refine resKept_bind _ _ _ (fun _ _ => ?_) | split) <;> first | rfl | simp

@[simp] theorem avsConfig_apply_kept (i : Item) (s : State) (k : Kept) (h : kept s = k) : ResKept k (avsConfig.apply i s) := by
  subst h
  unfold avsConfig
  dsimp only
  (repeat' first | exact resKept_error _ _ | refine resKept_bind _ _ _ (fun _ _ => ?_) | split) <;> first | rfl | simp

@[simp] theorem thermalConfig_apply_kept (i : Item) (s : State) (k : Kept) (h : kept s = k) : ResKept k (thermalConfig.apply i s) := by
  subst h
  unfold thermalConfig
  dsimp only
  (repeat' first | exact resKept_error _ _ | refine resKept_bind _ _ _ (fun _ _ => ?_) | split) <;> first | rfl | simp

@[simp] theorem sliceHankSet_apply_kept (i : Item) (s : State) (k : Kept) (h : kept s = k) : ResKept k (sliceHankSet.apply i s) := by
  subst h
  unfold sliceHankSet
  dsimp only
  (repeat' first | exact resKept_error _ _ | refine resKept_bind _ _ _ (fun _ _ => ?_) | split) <;> first | rfl | simp

@[simp] theorem sliceQueuesSet_apply_kept (i : Item) (s : State) (k : Kept) (h : kept s = k) : ResKept k (sliceQueuesSet.apply i s) := by
  subst h
  unfold sliceQueuesSet
  dsimp only
  (repeat' first | exact resKept_error _ _ | refine resKept_bind _ _ _ (fun _ _ => ?_) | split) <;> first | rfl | simp

@[simp] theorem qprofileSet_apply_kept (i : Item) (s : State) (k : Kept) (h : kept s = k) : ResKept k (qprofileSet.apply i s) := by
  subst h
  unfold qprofileSet
  dsimp only
  (repeat' first | exact resKept_error _ _ | refine resKept_bind _ _ _ (fun _ _ => ?_) | split) <;> first | rfl | simp

@[simp] theorem qnodeSet_apply_kept (i : Item) (s : State) (k : Kept) (h : kept s = k) : ResKept k (qnodeSet.apply i s) := by
  subst h
  unfold qnodeSet
  dsimp only
  (repeat' first | exact resKept_error _ _ | refine resKept_bind _ _ _ (fun _ _ => ?_) | split) <;> first | rfl | simp

@[simp] theorem qnodeDelete_apply_kept (i : Item) (s : State) (k : Kept) (h : kept s = k) : ResKept k (qnodeDelete.apply i s) := by
  subst h
  unfold qnodeDelete
  dsimp only
  (repeat' first | exact resKept_error _ _ | refine resKept_bind _ _ _ (fun _ _ => ?_) | split) <;> first | rfl | simp

@[simp] theorem queueSet_apply_kept (i : Item) (s : State) (k : Kept) (h : kept s = k) : ResKept k (queueSet.apply i s) := by
  subst h
  unfold queueSet
  dsimp only
  (repeat' first | exact resKept_error _ _ | refine resKept_bind _ _ _ (fun _ _ => ?_) | split) <;> first | rfl | simp

@[simp] theorem queueDelete_apply_kept (i : Item) (s : State) (k : Kept) (h : kept s = k) : ResKept k (queueDelete.apply i s) := by
  subst h
  unfold queueDelete
  dsimp only
  (repeat' first | exact resKept_error _ _ | refine resKept_bind _ _ _ (fun _ _ => ?_) | split) <;> first | rfl | simp

@[simp] theorem viaductConfig_apply_kept (i : Item) (s : State) (k : Kept) (h : kept s = k) : ResKept k (viaductConfig.apply i s) := by
  subst h
  unfold viaductConfig
  dsimp only
  (repeat' first | exact resKept_error _ _ | refine resKept_bind _ _ _ (fun _ _ => ?_) | split) <;> first | rfl | simp

@[simp] theorem schedNodeSet_apply_kept (i : Item) (s : State) (k : Kept) (h : kept s = k) : ResKept k (schedNodeSet.apply i s) := by
  subst h
  unfold schedNodeSet
  dsimp only
  (repeat' first | exact resKept_error _ _ | refine resKept_bind _ _ _ (fun _ _ => ?_) | split) <;> first | rfl | simp

@[simp] theorem policerSet_apply_kept (i : Item) (s : State) (k : Kept) (h : kept s = k) : ResKept k (policerSet.apply i s) := by
  subst h
  unfold policerSet
  dsimp only
  (repeat' first | exact resKept_error _ _ | refine resKept_bind _ _ _ (fun _ _ => ?_) | split) <;> first | rfl | simp

@[simp] theorem gateListSet_apply_kept (i : Item) (s : State) (k : Kept) (h : kept s = k) : ResKept k (gateListSet.apply i s) := by
  subst h
  unfold gateListSet
  dsimp only
  (repeat' first | exact resKept_error _ _ | refine resKept_bind _ _ _ (fun _ _ => ?_) | split) <;> first | rfl | simp

@[simp] theorem pierSchedConfig_apply_kept (i : Item) (s : State) (k : Kept) (h : kept s = k) : ResKept k (pierSchedConfig.apply i s) := by
  subst h
  unfold pierSchedConfig
  dsimp only
  (repeat' first | exact resKept_error _ _ | refine resKept_bind _ _ _ (fun _ _ => ?_) | split) <;> first | rfl | simp

@[simp] theorem uplinkSchedConfig_apply_kept (i : Item) (s : State) (k : Kept) (h : kept s = k) : ResKept k (uplinkSchedConfig.apply i s) := by
  subst h
  unfold uplinkSchedConfig
  dsimp only
  (repeat' first | exact resKept_error _ _ | refine resKept_bind _ _ _ (fun _ _ => ?_) | split) <;> first | rfl | simp

@[simp] theorem uplinkBudgetSet_apply_kept (i : Item) (s : State) (k : Kept) (h : kept s = k) : ResKept k (uplinkBudgetSet.apply i s) := by
  subst h
  unfold uplinkBudgetSet
  dsimp only
  (repeat' first | exact resKept_error _ _ | refine resKept_bind _ _ _ (fun _ _ => ?_) | split) <;> first | rfl | simp

@[simp] theorem lanyardConfig_apply_kept (i : Item) (s : State) (k : Kept) (h : kept s = k) : ResKept k (lanyardConfig.apply i s) := by
  subst h
  unfold lanyardConfig
  dsimp only
  (repeat' first | exact resKept_error _ _ | refine resKept_bind _ _ _ (fun _ _ => ?_) | split) <;> first | rfl | simp

@[simp] theorem lanyardRegSet_apply_kept (i : Item) (s : State) (k : Kept) (h : kept s = k) : ResKept k (lanyardRegSet.apply i s) := by
  subst h
  unfold lanyardRegSet
  refine resKept_bind _ _ _ (fun _ _ => ?_)
  rw [resKept_ok]
  split
  · rw [raise_kept]; rfl
  · rfl

@[simp] theorem lanyardRegDelete_apply_kept (i : Item) (s : State) (k : Kept) (h : kept s = k) : ResKept k (lanyardRegDelete.apply i s) := by
  subst h
  unfold lanyardRegDelete
  dsimp only
  (repeat' first | exact resKept_error _ _ | refine resKept_bind _ _ _ (fun _ _ => ?_) | split) <;> first | rfl | simp

@[simp] theorem shelfBudgetSet_apply_kept (i : Item) (s : State) (k : Kept) (h : kept s = k) : ResKept k (shelfBudgetSet.apply i s) := by
  subst h
  unfold shelfBudgetSet
  dsimp only
  (repeat' first | exact resKept_error _ _ | refine resKept_bind _ _ _ (fun _ _ => ?_) | split) <;> first | rfl | simp

@[simp] theorem sliceCreate_apply_kept (i : Item) (s : State) (k : Kept) (h : kept s = k) : ResKept k (sliceCreate.apply i s) := by
  subst h
  unfold sliceCreate
  refine resKept_bind _ _ _ (fun _ _ => resKept_bind _ _ _ (fun _ _ => ?_))
  exact drawXts_kept _ _

@[simp] theorem sliceDelete_apply_kept (i : Item) (s : State) (k : Kept) (h : kept s = k) : ResKept k (sliceDelete.apply i s) := by
  subst h
  unfold sliceDelete
  dsimp only
  (repeat' first | exact resKept_error _ _ | refine resKept_bind _ _ _ (fun _ _ => ?_) | split) <;> first | rfl | simp

@[simp] theorem sliceBind_apply_kept (i : Item) (s : State) (k : Kept) (h : kept s = k) : ResKept k (sliceBind.apply i s) := by
  subst h
  unfold sliceBind
  dsimp only
  (repeat' first | exact resKept_error _ _ | refine resKept_bind _ _ _ (fun _ _ => ?_) | split) <;> first | rfl | simp

@[simp] theorem cleatAssign_apply_kept (i : Item) (s : State) (k : Kept) (h : kept s = k) : ResKept k (cleatAssign.apply i s) := by
  subst h
  unfold cleatAssign
  dsimp only
  (repeat' first | exact resKept_error _ _ | refine resKept_bind _ _ _ (fun _ _ => ?_) | split) <;> first | rfl | simp

@[simp] theorem pierConfig_apply_kept (i : Item) (s : State) (k : Kept) (h : kept s = k) : ResKept k (pierConfig.apply i s) := by
  subst h
  unfold pierConfig
  dsimp only
  (repeat' first | exact resKept_error _ _ | refine resKept_bind _ _ _ (fun _ _ => ?_) | split) <;> first | rfl | simp

@[simp] theorem pierProfileSet_apply_kept (i : Item) (s : State) (k : Kept) (h : kept s = k) : ResKept k (pierProfileSet.apply i s) := by
  subst h
  unfold pierProfileSet
  dsimp only
  (repeat' first | exact resKept_error _ _ | refine resKept_bind _ _ _ (fun _ _ => ?_) | split) <;> first | rfl | simp

@[simp] theorem pierDefectConfig_apply_kept (i : Item) (s : State) (k : Kept) (h : kept s = k) : ResKept k (pierDefectConfig.apply i s) := by
  subst h
  unfold pierDefectConfig
  dsimp only
  (repeat' first | exact resKept_error _ _ | refine resKept_bind _ _ _ (fun _ _ => ?_) | split) <;> first | rfl | simp

@[simp] theorem spliceConfig_apply_kept (i : Item) (s : State) (k : Kept) (h : kept s = k) : ResKept k (spliceConfig.apply i s) := by
  subst h
  unfold spliceConfig
  dsimp only
  (repeat' first | exact resKept_error _ _ | refine resKept_bind _ _ _ (fun _ _ => ?_) | split) <;> first | rfl | simp

@[simp] theorem spliceClear_apply_kept (i : Item) (s : State) (k : Kept) (h : kept s = k) : ResKept k (spliceClear.apply i s) := by
  subst h
  unfold spliceClear
  dsimp only
  (repeat' first | exact resKept_error _ _ | refine resKept_bind _ _ _ (fun _ _ => ?_) | split) <;> first | rfl | simp

@[simp] theorem onuExpectSet_apply_kept (i : Item) (s : State) (k : Kept) (h : kept s = k) : ResKept k (onuExpectSet.apply i s) := by
  subst h
  unfold onuExpectSet
  dsimp only
  (repeat' first | exact resKept_error _ _ | refine resKept_bind _ _ _ (fun _ _ => ?_) | split) <;> first | rfl | simp

@[simp] theorem onuExpectDelete_apply_kept (i : Item) (s : State) (k : Kept) (h : kept s = k) : ResKept k (onuExpectDelete.apply i s) := by
  subst h
  unfold onuExpectDelete
  dsimp only
  (repeat' first | exact resKept_error _ _ | refine resKept_bind _ _ _ (fun _ _ => ?_) | split) <;> first | rfl | simp

@[simp] theorem onuAuthorise_apply_kept (i : Item) (s : State) (k : Kept) (h : kept s = k) : ResKept k (onuAuthorise.apply i s) := by
  subst h
  unfold onuAuthorise
  dsimp only
  (repeat' first | exact resKept_error _ _ | refine resKept_bind _ _ _ (fun _ _ => ?_) | split) <;> first | rfl | simp

@[simp] theorem onuDeactivate_apply_kept (i : Item) (s : State) (k : Kept) (h : kept s = k) : ResKept k (onuDeactivate.apply i s) := by
  subst h
  unfold onuDeactivate
  dsimp only
  (repeat' first | exact resKept_error _ _ | refine resKept_bind _ _ _ (fun _ _ => ?_) | split) <;> first | rfl | simp

@[simp] theorem discoveryConfig_apply_kept (i : Item) (s : State) (k : Kept) (h : kept s = k) : ResKept k (discoveryConfig.apply i s) := by
  subst h
  unfold discoveryConfig
  dsimp only
  (repeat' first | exact resKept_error _ _ | refine resKept_bind _ _ _ (fun _ _ => ?_) | split) <;> first | rfl | simp

@[simp] theorem rangeCalSet_apply_kept (i : Item) (s : State) (k : Kept) (h : kept s = k) : ResKept k (rangeCalSet.apply i s) := by
  subst h
  unfold rangeCalSet
  dsimp only
  (repeat' first | exact resKept_error _ _ | refine resKept_bind _ _ _ (fun _ _ => ?_) | split) <;> first | rfl | simp

@[simp] theorem reachConfig_apply_kept (i : Item) (s : State) (k : Kept) (h : kept s = k) : ResKept k (reachConfig.apply i s) := by
  subst h
  unfold reachConfig
  dsimp only
  (repeat' first | exact resKept_error _ _ | refine resKept_bind _ _ _ (fun _ _ => ?_) | split) <;> first | rfl | simp

@[simp] theorem driftConfig_apply_kept (i : Item) (s : State) (k : Kept) (h : kept s = k) : ResKept k (driftConfig.apply i s) := by
  subst h
  unfold driftConfig
  dsimp only
  (repeat' first | exact resKept_error _ _ | refine resKept_bind _ _ _ (fun _ _ => ?_) | split) <;> first | rfl | simp

@[simp] theorem stbyDeltaConfig_apply_kept (i : Item) (s : State) (k : Kept) (h : kept s = k) : ResKept k (stbyDeltaConfig.apply i s) := by
  subst h
  unfold stbyDeltaConfig
  dsimp only
  (repeat' first | exact resKept_error _ _ | refine resKept_bind _ _ _ (fun _ _ => ?_) | split) <;> first | rfl | simp

@[simp] theorem sdhConfig_apply_kept (i : Item) (s : State) (k : Kept) (h : kept s = k) : ResKept k (sdhConfig.apply i s) := by
  subst h
  unfold sdhConfig
  dsimp only
  split
  · rfl
  · refine forEach_kept _ _ _ (fun l s => ?_)
    split <;> rfl

@[simp] theorem sdhTraceSet_apply_kept (i : Item) (s : State) (k : Kept) (h : kept s = k) : ResKept k (sdhTraceSet.apply i s) := by
  subst h
  unfold sdhTraceSet
  dsimp only
  split
  · rw [resKept_ok, laneChange_kept, timEvent_kept, setSdh_kept]
  · rw [resKept_ok]
    refine forEach_kept _ _ _ (fun l s => ?_)
    split
    · rw [timEvent_kept, setSdh_kept]
    · rw [raise_kept, timEvent_kept, setSdh_kept]
  · rw [resKept_ok]
    refine forEach_kept _ _ _ (fun l s => ?_)
    split
    · rw [timEvent_kept, setSdh_kept]
    · rw [raise_kept, timEvent_kept, setSdh_kept]

@[simp] theorem mspConfig_apply_kept (i : Item) (s : State) (k : Kept) (h : kept s = k) : ResKept k (mspConfig.apply i s) := by
  subst h
  unfold mspConfig
  dsimp only
  (repeat' first | exact resKept_error _ _ | refine resKept_bind _ _ _ (fun _ _ => ?_) | split) <;> first | rfl | simp

@[simp] theorem tsiPageSet_apply_kept (i : Item) (s : State) (k : Kept) (h : kept s = k) : ResKept k (tsiPageSet.apply i s) := by
  subst h
  unfold tsiPageSet
  dsimp only
  (repeat' first | exact resKept_error _ _ | refine resKept_bind _ _ _ (fun _ _ => ?_) | split) <;> first | rfl | simp

@[simp] theorem ceCircuitSet_apply_kept (i : Item) (s : State) (k : Kept) (h : kept s = k) : ResKept k (ceCircuitSet.apply i s) := by
  subst h
  unfold ceCircuitSet
  dsimp only
  (repeat' first | exact resKept_error _ _ | refine resKept_bind _ _ _ (fun _ _ => ?_) | split) <;> first | rfl | simp

@[simp] theorem timeConfig_apply_kept (i : Item) (s : State) (k : Kept) (h : kept s = k) : ResKept k (timeConfig.apply i s) := by
  subst h
  unfold timeConfig
  dsimp only
  (repeat' first | exact resKept_error _ _ | refine resKept_bind _ _ _ (fun _ _ => ?_) | split) <;> first | rfl | simp

@[simp] theorem keystoneSet_apply_kept (i : Item) (s : State) (k : Kept) (h : kept s = k) : ResKept k (keystoneSet.apply i s) := by
  subst h
  unfold keystoneSet
  dsimp only
  (repeat' first | exact resKept_error _ _ | refine resKept_bind _ _ _ (fun _ _ => ?_) | split) <;> first | rfl | simp

@[simp] theorem asymConfig_apply_kept (i : Item) (s : State) (k : Kept) (h : kept s = k) : ResKept k (asymConfig.apply i s) := by
  subst h
  unfold asymConfig
  dsimp only
  (repeat' first | exact resKept_error _ _ | refine resKept_bind _ _ _ (fun _ _ => ?_) | split) <;> first | rfl | simp

@[simp] theorem timeEvtConfig_apply_kept (i : Item) (s : State) (k : Kept) (h : kept s = k) : ResKept k (timeEvtConfig.apply i s) := by
  subst h
  unfold timeEvtConfig
  dsimp only
  (repeat' first | exact resKept_error _ _ | refine resKept_bind _ _ _ (fun _ _ => ?_) | split) <;> first | rfl | simp

@[simp] theorem ptpPortConfig_apply_kept (i : Item) (s : State) (k : Kept) (h : kept s = k) : ResKept k (ptpPortConfig.apply i s) := by
  subst h
  unfold ptpPortConfig
  dsimp only
  (repeat' first | exact resKept_error _ _ | refine resKept_bind _ _ _ (fun _ _ => ?_) | split) <;> first | rfl | simp

@[simp] theorem allocSet_apply_kept (i : Item) (s : State) (k : Kept) (h : kept s = k) : ResKept k (allocSet.apply i s) := by
  subst h
  unfold allocSet
  dsimp only
  (repeat' first | exact resKept_error _ _ | refine resKept_bind _ _ _ (fun _ _ => ?_) | split) <;> first | rfl | simp

@[simp] theorem allocDelete_apply_kept (i : Item) (s : State) (k : Kept) (h : kept s = k) : ResKept k (allocDelete.apply i s) := by
  subst h
  unfold allocDelete
  dsimp only
  (repeat' first | exact resKept_error _ _ | refine resKept_bind _ _ _ (fun _ _ => ?_) | split) <;> first | rfl | simp

@[simp] theorem sliceBudgetSet_apply_kept (i : Item) (s : State) (k : Kept) (h : kept s = k) : ResKept k (sliceBudgetSet.apply i s) := by
  subst h
  unfold sliceBudgetSet
  dsimp only
  (repeat' first | exact resKept_error _ _ | refine resKept_bind _ _ _ (fun _ _ => ?_) | split) <;> first | rfl | simp

@[simp] theorem trussConfig_apply_kept (i : Item) (s : State) (k : Kept) (h : kept s = k) : ResKept k (trussConfig.apply i s) := by
  subst h
  unfold trussConfig
  dsimp only
  (repeat' first | exact resKept_error _ _ | refine resKept_bind _ _ _ (fun _ _ => ?_) | split) <;> first | rfl | simp

@[simp] theorem openActivate_apply_kept (i : Item) (s : State) (k : Kept) (h : kept s = k) : ResKept k (openActivate.apply i s) := by
  subst h
  unfold openActivate
  dsimp only
  (repeat' first | exact resKept_error _ _ | refine resKept_bind _ _ _ (fun _ _ => ?_) | split) <;> first | rfl | simp

@[simp] theorem openBind_apply_kept (i : Item) (s : State) (k : Kept) (h : kept s = k) : ResKept k (openBind.apply i s) := by
  subst h
  unfold openBind
  dsimp only
  (repeat' first | exact resKept_error _ _ | refine resKept_bind _ _ _ (fun _ _ => ?_) | split) <;> first | rfl | simp

@[simp] theorem trussMcConfig_apply_kept (i : Item) (s : State) (k : Kept) (h : kept s = k) : ResKept k (trussMcConfig.apply i s) := by
  subst h
  exact forEach_kept _ _ _ (fun sp s => modSpan_kept _ _ _)

end Sys2Proof.Machine
end

