-- ==== Sys2Proof/Laws/KeepTxn.lean ====
section
/-! SUPPORT. The operations of the transactions leave the fuses, the flash and the waiting commands alone. -/

namespace Sys2Proof.Machine

theorem txnCallsA_kept (t : TxnCall) (ht : t ∈ txnCallsA) (i : Item) (s : State) (k : Kept) (h : kept s = k) : ResKept k (t.apply i s) := by
  simp only [txnCallsA, List.mem_cons, List.not_mem_nil, or_false] at ht
  (repeat' rcases ht with rfl | ht) <;> (try subst ht) <;> simp [h]

theorem txnCallsB_kept (t : TxnCall) (ht : t ∈ txnCallsB) (i : Item) (s : State) (k : Kept) (h : kept s = k) : ResKept k (t.apply i s) := by
  simp only [txnCallsB, List.mem_cons, List.not_mem_nil, or_false] at ht
  (repeat' rcases ht with rfl | ht) <;> (try subst ht) <;> simp [h]

@[simp] theorem applyItem_kept (i : Item) (s : State) (k : Kept) (h : kept s = k) : ResKept k (applyItem i s) := by
  unfold applyItem
  split
  · next t e =>
    rcases List.mem_append.1 (List.mem_of_find?_eq_some e) with ht | ht
    · exact txnCallsA_kept t ht i s k h
    · exact txnCallsB_kept t ht i s k h
  · trivial

@[simp] theorem noteConfig_kept (items : List Item) (s : State) : kept (noteConfig items s) = kept s := rfl

@[simp] theorem mirrorCommit_kept (items : List Item) (target : Nat) (s : State) : kept (mirrorCommit items target s) = kept s := by
  unfold mirrorCommit; dsimp only; (repeat' split) <;> simp

@[simp] theorem accept_kept (t : Txn) (target : Nat) (r : Ref) (s : State) : kept (accept t target r s) = kept s := by
  simp [accept]

@[simp] theorem stageCall_kept (t : TxnCall) (c : Call) (s : State) : kept (stageCall t c s) = kept s := by
  unfold stageCall; dsimp only; (repeat' split) <;> simp

@[simp] theorem txnBegin_kept (ch : Nat) (s : State) (k : Kept) (h : kept s = k) : PairKept k (txnBegin ch s) := by
  subst h
  unfold txnBegin
  (repeat' first | exact pairKept_error _ _ | refine pairKept_bind _ _ _ (fun _ _ => ?_) | split) <;> simp

@[simp] theorem txnCommit_kept (c : Call) (s : State) : kept (txnCommit c s) = kept s := by
  unfold txnCommit; dsimp only; (repeat' split) <;> simp

@[simp] theorem txnRollback_kept (ch : Nat) (ws : List Word) (s : State) (k : Kept) (h : kept s = k) : PairKept k (txnRollback ch ws s) := by
  subst h
  unfold txnRollback
  (repeat' first | exact pairKept_error _ _ | refine pairKept_bind _ _ _ (fun _ _ => ?_) | split) <;> simp

@[simp] theorem txnIdle_kept (handle : Nat) (s : State) : kept (txnIdle handle s) = kept s := by
  unfold txnIdle; dsimp only; (repeat' split) <;> simp

@[simp] theorem commitIn_kept (m : MirCommit) (s : State) : kept (commitIn m s) = kept s := by
  simp [commitIn]

@[simp] theorem takeEffect_kept (t : Txn) (target : Nat) (s : State) : kept (takeEffect t target s) = kept s := by
  unfold takeEffect
  extract_lets a left b
  have ha : kept a = kept s := runItems_kept _ _ _ _ (fun i s k h => applyItem_kept i s k h)
  have hb : kept b = kept s := by unfold b; split <;> simpa using ha
  split
  · simpa using hb
  · exact hb

@[simp] theorem applyTxns_kept (now : Nat) (s : State) : kept (applyTxns now s) = kept s := by
  simp [applyTxns]

@[simp] theorem allPiers_kept (f : Nat → Nat → State → State) (s : State) (hf : ∀ x0 x1 x2, kept (f x0 x1 x2) = kept x2) : kept (allPiers f s) = kept s := by
  unfold allPiers; (repeat' split) <;> simp_all

@[simp] theorem spanFrames_kept (n : Nat) (s : State) : kept (spanFrames n s) = kept s := by
  unfold spanFrames
  dsimp only
  rw [allPiers_kept _ _ (by simp), forEach_kept _ _ _ (fun sp s => by split <;> simp), allPiers_kept _ _ (by simp)]
  rw [forEach_kept _ _ _ (fun sp s => closeDue_kept sp n s)]
  exact forEach_kept _ _ _ (fun sp s => forEach_kept _ _ _ (by simp))

@[simp] theorem applyPoint_kept (lines : List LineWatch) (s : State) : kept (applyPoint lines s) = kept s := by
  unfold applyPoint
  dsimp only
  rw [shedAdvance_kept, refuseRuns_kept, judgeSyncs_kept, heartbeatOut_kept, lanyardRates_kept, spanFrames_kept, stmFrames_kept, tsiSwap_kept, stepsDue_kept,
    applyTxns_kept, passLaunches_kept, kept_with,
    allPiers_kept _ _ (fun sp p s => by rw [judgeRogue_kept, judgeLos_kept]), advance_kept]

@[simp] theorem secondBoundary_kept (s : State) : kept (secondBoundary s) = kept s := by
  simp [secondBoundary]

end Sys2Proof.Machine
end

