-- ==== Sys2Proof/Laws/KeepOut.lean ====
section
/-! SUPPORT. The shared shapes of a meaning, a call that is served, read or staged and a register write, leave the fuses, the flash
and the waiting commands alone where their bodies do. -/

namespace Sys2Proof.Machine

/-- An outcome that, if it is a next state, keeps `k`. -/
def OutKept (k : Kept) (o : Out) : Prop := match o with | .next t => kept t = k | _ => True

@[simp] theorem outKept_next (k : Kept) (t : State) : OutKept k (.next t) ↔ kept t = k := Iff.rfl
@[simp] theorem outKept_fault (k : Kept) (f : Fault) : OutKept k (.fault f) := trivial
@[simp] theorem outKept_refused (k : Kept) (r : Refusal) : OutKept k (.refused r) := trivial

/-- What the next state of a kept outcome holds. -/
theorem OutKept.next {k : Kept} {o : Out} {t : State} (h : OutKept k o) (e : o = .next t) : kept t = k := by
  rw [e] at h; exact h

theorem serve_kept (sp : CallSpec) (c : Call) (s : State) (body : State → State) (hb : ∀ u, kept (body u) = kept u) :
    OutKept (kept s) (serve sp c s body) := by
  unfold serve
  split <;> simp [hb]

@[simp] theorem serveRead_kept (sp : CallSpec) (c : Call) (s : State) (body : State → Res (List Word)) :
    OutKept (kept s) (serveRead sp c s body) := by
  refine serve_kept sp c s _ (fun u => ?_)
  split <;> simp

theorem serveAct_kept (sp : CallSpec) (c : Call) (s : State) (body : State → Res (State × List Word)) (hb : ∀ u, PairKept (kept u) (body u)) :
    OutKept (kept s) (serveAct sp c s body) := by
  refine serve_kept sp c s _ (fun u => ?_)
  have h := hb u
  split
  · next e => rw [e] at h; simpa using h
  · simp

@[simp] theorem txnServe_kept (t : TxnCall) (c : Call) (s : State) : OutKept (kept s) (txnServe t c s) :=
  serve_kept _ _ _ _ (fun u => stageCall_kept t c u)

theorem writeReg_kept (fn reserved : Nat) (w : Word) (s t : State) (h : kept t = kept s) : OutKept (kept s) (writeReg fn reserved w s t) := by
  unfold writeReg
  (repeat' split) <;> simp [h]

theorem orUndefined_kept (r : Res State) (k : Kept) (h : ResKept k r) : OutKept k (orUndefined r) := by
  unfold orUndefined
  split <;> simp_all

end Sys2Proof.Machine
end

