-- ==== Sys2Proof/Laws/Others.lean ====
section
/-! SUPPORT. What the mailbox, event and counter operations leave: everything but the control complex and what leaves the device. -/

namespace Sys2Proof.Machine

/-- A state without its control complex and its record of what left the device. -/
def others (s : State) : State := { s with ctl := {}, out := [] }

theorem others_of_eq {s t : State} (h : others t = others s) : { t with ctl := s.ctl, out := s.out } = s := by
  have h' := congrArg (fun u : State => { u with ctl := s.ctl, out := s.out }) h
  exact h'

theorem others_parts {s t : State} (h : others t = others s) : t.tb = s.tb ∧ t.boot = s.boot ∧ t.pwr = s.pwr ∧ t.fwd = s.fwd ∧ t.pon = s.pon ∧
    t.time = s.time ∧ t.opt = s.opt ∧ t.lane = s.lane ∧ t.ciph = s.ciph ∧ t.tdm = s.tdm ∧ t.red = s.red ∧ t.free = s.free ∧ t.pending = s.pending := by
  simp only [others, State.mk.injEq] at h
  tauto

@[simp] theorem others_setChan (ch : Nat) (c : Channel) (s : State) : others (setChan ch c s) = others s := rfl
@[simp] theorem others_setFunc (fn : Nat) (f : Func) (s : State) : others (setFunc fn f s) = others s := rfl
@[simp] theorem others_emit (o : Output) (s : State) : others (emit o s) = others s := rfl
@[simp] theorem others_cnt (id n : Nat) (s : State) : others (cnt id n s) = others s := rfl
@[simp] theorem others_gaugeMax (id n : Nat) (s : State) : others (gaugeMax id n s) = others s := rfl
@[simp] theorem others_gaugeMin (id n : Nat) (s : State) : others (gaugeMin id n s) = others s := rfl
@[simp] theorem others_setTxns (l : List Txn) (s : State) : others (setTxns l s) = others s := rfl
@[simp] theorem others_setCleat (n : Nat) (c : Cleat) (s : State) : others (setCleat n c s) = others s := rfl
@[simp] theorem others_setChanEvt (ch n : Nat) (e : ChanEvt) (s : State) : others (setChanEvt ch n e s) = others s := rfl
@[simp] theorem others_setEvtRegs (fn g : Nat) (e : EvtRegs) (s : State) : others (setEvtRegs fn g e s) = others s := rfl

@[simp] theorem others_msix (fn vec : Nat) (s : State) : others (msix fn vec s) = others s := by unfold msix; simp only; split <;> simp

@[simp] theorem others_setChanRoom (ch : Nat) (a b : Channel) (s : State) : others (setChanRoom ch a b s) = others s := by
  unfold setChanRoom; simp only; split <;> simp

@[simp] theorem others_dropHead (ch : Nat) (s : State) : others (dropHead ch s) = others s := by unfold dropHead; simp

@[simp] theorem others_readCall (code : Nat) (c : Call) (s : State) : others (readCall code c s) = others s := by
  unfold readCall; split <;> simp

@[simp] theorem others_pushOut (ch : Nat) (ev : Bool) (w : Word) (s : State) : others (pushOut ch ev w s) = others s := by
  unfold pushOut; simp only; split <;> simp [apply_ite others]

@[simp] theorem others_pushMsg (ch : Nat) (ev : Bool) (ws : List Word) (s : State) : others (pushMsg ch ev ws s) = others s := by
  induction ws generalizing s with
  | nil => rfl
  | cons w t ih => simp [pushMsg, ih]

@[simp] theorem others_sendMsg (ch : Nat) (ev : Bool) (ws : List Word) (s : State) : others (sendMsg ch ev ws s) = others s := by
  unfold sendMsg; simp only; (repeat' split) <;> simp

@[simp] theorem others_reply (ch q code : Nat) (st : Status) (ws : List Word) (s : State) : others (reply ch q code st ws s) = others s := by
  unfold reply; simp

@[simp] theorem others_respond (code : Nat) (c : Call) (st : Status) (ws : List Word) (s : State) : others (respond code c st ws s) = others s := by
  unfold respond; simp

@[simp] theorem others_defer (r : Ref) (s : State) : others (defer_ r s) = others s := by unfold defer_; simp

@[simp] theorem others_answer (r : Ref) (st : Status) (ws : List Word) (s : State) : others (answer r st ws s) = others s := by
  unfold answer; simp only; split <;> simp

@[simp] theorem others_answerOpt (r : Option Ref) (st : Status) (ws : List Word) (s : State) : others (answerOpt r st ws s) = others s := by
  unfold answerOpt; split <;> simp

@[simp] theorem others_sendEvt (ch src : Nat) (s : State) : others (sendEvt ch src s) = others s := by
  unfold sendEvt; simp only; split <;> simp

@[simp] theorem others_setPend (fn src : Nat) (s : State) : others (setPend fn src s) = others s := by
  unfold setPend; simp only; (repeat' split) <;> simp

@[simp] theorem others_noteEvt (src : Nat) (own : List Nat) (d : List Word) (ch : Nat) (s : State) : others (noteEvt src own d ch s) = others s := by
  unfold noteEvt; simp only; (repeat' split) <;> simp

@[simp] theorem others_forEach {α : Type} (l : List α) (f : α → State → State) (s : State) (h : ∀ a s, others (f a s) = others s) :
    others (forEach l f s) = others s := by
  induction l generalizing s with
  | nil => rfl
  | cons a t ih => rw [forEach, ih, h]

@[simp] theorem others_raise (src : Nat) (own : List Nat) (d : List Word) (s : State) : others (raise src own d s) = others s := by
  unfold raise
  simp only
  rw [others_forEach _ _ _ (fun a s => by simp), others_forEach _ _ _ (fun a s => by split <;> simp)]

end Sys2Proof.Machine
end

