-- ==== Sys2Proof/WellFormed.lean ====
section
/-! DEFINITION. Well-formed commands: a call message carries at most 15 payload words (R55). The numbers in the other operands are
bounded by their types. -/

namespace Sys2Proof

/-- A call that the mailbox can carry: at most 15 payload words (R55). -/
def Call.wf (c : Call) : Bool := c.words.length ≤ 15

end Sys2Proof
end

