-- ==== Sys2Proof/Tests/Slice0.lean ====
section
/-! SUPPORT. Tests of the author's own: malformed terms are refused, a few single steps, and for each statement of the obligations a
witness that the hypotheses of its clauses can be met together, at boundary values. The expected results are read from the spec. -/

namespace Sys2Proof.Tests

-- Each `decide +kernel` waits for the kernel's check of everything before it; one at a time, so that they do not wait in a thread each.
set_option Elab.async false

open Sys2Proof Sys2Proof.Machine

/-- Saend runs and channel 0, of slice 0, has a session of version 3.2. -/
def up : Machine.State := { State.reset with boot := { ready := true, stage := 3 }, ctl := { chans := [(0, { session := some 0x0302 })] } }

/-- A call on channel 0. -/
def call (ws : List Word) : Call := ⟨0, 1, ws, []⟩

/-- `up` with another record of channel 0. -/
def upC (f : Channel → Channel) : Machine.State := setChan 0 (f (chanOf up 0)) up

/-- `up` with its control complex rewritten. -/
def upCtl (f : Control → Control) : Machine.State := { up with ctl := f up.ctl }

def upBoot (f : Boot → Boot) : Machine.State := { up with boot := f up.boot }
def upPon (f : Pon → Pon) : Machine.State := { up with pon := f up.pon }
def upFwd (f : Fwd → Fwd) : Machine.State := { up with fwd := f up.fwd }
def upTime (f : TimeBase → TimeBase) : Machine.State := { up with time := f up.time }
def upCiph (f : Cipher → Cipher) : Machine.State := { up with ciph := f up.ciph }
def upTdm (f : Tdm → Tdm) : Machine.State := { up with tdm := f up.tdm }
def upRed (f : Redund → Redund) : Machine.State := { up with red := f up.red }

/-- An allocation of ONU 0 on the G-pier, under Alloc-ID 1024. -/
def alloc0 : Alloc := { onu := 0, pier := 0, line := 1024, mode := 0, policy := false, weight := 1, poll := 0, si := 0, siPhase := 0, rf := 0, ra := 0, rna := 0, rm := 0, place := 1, longProf := 0, shortProf := 0 }

/-- A waiting call of channel 0. -/
def ref0 : Ref := ⟨0, 1, 0x0130, 0⟩

/-- A transaction of channel 0. -/
def txn0 : Txn := ⟨1, 0, false, [], .opened, [], none⟩

/-- `up` with channel 1, of slice 1, which owns nothing of Span 0. -/
def foreign : Machine.State := setChan 1 { session := some 0x0302 } (upCtl fun x => { x with binds := [(1, 1)], slices := [0, 1] })

/-- A call on channel 1. -/
def call1 (ws : List Word) : Call := ⟨1, 1, ws, []⟩

/-- Whether a call passes the front-end checks, as the statements' hypothesis `Served` asks. -/
def ready (sp : CallSpec) (ws : List Word) (s : Machine.State) : Bool := decide (Served sp (call ws) s)

/-! ### Malformed terms -/

/-- R55: LENGTH has four bits; 16 payload words are no message, 15 are. -/
theorem test_call_of_16_words_refused : (call (List.replicate 16 0)).wf = false ∧ (call (List.replicate 15 0)).wf = true := by decide

/-! ### Witnesses: commands, calls and mailboxes -/

theorem witness_TheFrontCommandIsExecuted : State.reset.pending = [] ∧ ({ up with pending := [.slewComplete] } : Machine.State).pending ≠ [] := by decide +kernel

theorem witness_CallsAreCheckedFirst : let c := call [0];
    callRow (.pwrDomainGet c) = some (pwrDomainGetSpec, c) ∧ State.reset.boot.ready = false ∧
    64 ≤ (chanOf (upC fun x => { x with waiting := List.replicate 64 ref0 }) 0).waiting.length ∧
    (up.boot.ready = true ∧ (chanOf up 0).waiting.length < 64) ∧
    nextCall 0x0131 c (chanOf up 0) = true ∧ nextCall 0x0131 c (chanOf (upC fun x => { x with inq := [⟨headerOf 0x0131 c, true, false⟩, ⟨0, false, false⟩] }) 0) = true ∧
    nextCall 0x0131 c (chanOf (upC fun x => { x with inq := [⟨headerOf 0x0003 c, true, false⟩, ⟨0, false, false⟩] }) 0) = false ∧ nextCall 0x0FFF c (chanOf up 0) = true ∧
    (chanOf (upC fun x => { x with session := none }) 0).session = none ∧ pwrDomainGetSpec.code ≠ 0x0001 ∧ pwrDomainGetSpec.code ≠ 0x0003 ∧
    versionOf (upC fun x => { x with session := some 0x0200 }) 0 < openLoadSpec.intro ∧ callRow (.openLoad c) = some (openLoadSpec, c) ∧
    mayCall up sessionPingSpec 18 = true ∧ mayCall up pwrDomainSetSpec 1 = false ∧ pwrDomainGetSpec.lens.contains 2 = false ∧
    pwrDomainGetSpec.lens.contains c.words.length = true ∧ reservedSet pwrDomainGetSpec.used [0xFFFFFFFF] = true ∧
    introduced 0x0FFF (versionOf up 0) = false ∧ (chanOf up 0).session.isSome = true ∧ c.words.length ≤ 15 := by decide +kernel

theorem witness_CallsAreReadAndAnswered : let c := call [0x20]; let s := upC fun x => { x with inq := [⟨headerOf 0x0131 c, true, false⟩, ⟨0x20, false, false⟩], outMsgEn := false };
    let x := chanOf s 0;
    (headComplete x && (headMsg x.inq).map (·.w) = headerOf 0x0131 c :: c.words && (headMsg x.inq).all (!·.marked)) = true ∧
    headComplete (chanOf up 0) = false ∧ x.backlog = [] ∧ x.outMsgEn = false ∧ x.outq.length + 3 ≤ 64 ∧
    (let y := chanOf (upC fun x => { x with backlog := List.replicate 31 ⟨[0], false⟩ }) 0; y.backlog ≠ [] ∧ y.backlog.length < 32) := by decide +kernel

theorem witness_MailboxQueuesHoldTheirWords : let w : InWord := ⟨0, true, false⟩; let o : OutWord := ⟨0, true, true, false⟩;
    reaches up 0 = true ∧ (chanOf (upC fun x => { x with inq := List.replicate 63 w }) 0).inq.length < 64 ∧ (chanOf up 0).inExpect = 0 ∧
    (chanOf (upC fun x => { x with inExpect := 15 }) 0).inExpect ≠ 0 ∧
    (let q := (chanOf (upC fun x => { x with inq := List.replicate 64 w }) 0).inq; 64 ≤ q.length ∧ q = List.replicate 63 w ++ [w]) ∧
    (let c := chanOf (upC fun x => { x with inq := [w, ⟨1, false, false⟩], inExpect := 1 }) 0;
      c.inExpect ≠ 0 ∧ c.inq = [] ++ w :: [⟨1, false, false⟩] ∧ w.hd = true) ∧
    (chanOf (upC fun x => { x with outq := [o] }) 0).outq = o :: [] ∧ (chanOf up 0).outq = [] ∧
    (let q := (chanOf (upC fun x => { x with outq := List.replicate 64 o }) 0).outq; 64 ≤ q.length ∧ q = List.replicate 63 o ++ [o]) ∧
    (let c := chanOf (upC fun x => { x with inq := [{ w with marked := true }] }) 0; up.boot.ready = true ∧ c.waiting.length < 64 ∧ headComplete c = true ∧
      (headMsg c.inq).any (·.marked) = true) ∧
    (let c := chanOf (upC fun x => { x with backlog := [⟨[0, 0, 0, 0], true⟩], outq := List.replicate 60 o }) 0;
      c.backlog = ⟨[0, 0, 0, 0], true⟩ :: [] ∧ c.outq.length + 4 ≤ 64) ∧
    (let s := upC fun x => { x with evts := [(928, { held := 1, due := true, window := true })], routes := [(29, { msgMask := 1, vector := 31 })] };
      (chanEvt s 0 928).window = true ∧ (chanEvt s 0 928).due = true ∧ msgRouted (setChanEvt 0 928 { chanEvt s 0 928 with window := false } s) 0 928 = true) ∧
    (let e := chanEvt (upC fun x => { x with evts := [(928, { window := true })] }) 0 928; e.window = true ∧ e.due = false) ∧
    reaches up 1 = false ∧ reaches up 16 = true ∧ (chanEvt up 0 928).window = false ∧ (chanOf (upC fun x => { x with inColl := true }) 0).inColl = true := by decide +kernel

theorem witness_FunctionRegisterWrites : let run (f : Ring → Ring) : Machine.State := setRing 0 1 (f {}) up;
    hostSees up 0 = true ∧ (0x007F0003 : Word) &&& 0xFF80FFFC = 0 ∧ (4 : Word) &&& 0xFF80FFFC ≠ 0 ∧ (0x00FF0101 : Word) &&& 0xFF00FEFC = 0 ∧
    (ringOf up 0 1).active = false ∧ (ringOf (run fun x => { x with active := true }) 0 1).active = true ∧ (ringOf (run fun x => { x with active := true }) 0 1).enable = false ∧
    (0xFFFF : Word) &&& 0xFFFF0000 = 0 ∧ (7 : Word) &&& 0xFFF8 = 0 ∧ (0xFFFFFFC0 : Word) &&& 0x3F = 0 ∧ ((0 : Chan).val = (0 : Fn).val) ∧
    (0x40 : Word) ≠ (ringOf (run fun x => { x with active := true }) 0 1).baseLo ∧ hostSees up 1 = false ∧ hostSees up 0 = true ∧
    (let x := ringOf (run fun x => { x with active := true, enable := true }) 0 1; x.active = true ∧ x.enable = true) ∧ (0x01000000 : Word) &&& 0xFF00FEFC ≠ 0 ∧ (0x10000 : Word) &&& 0xFFFF0000 ≠ 0 ∧
    (8 : Word) &&& 0xFFF8 ≠ 0 ∧ (0x1F : Word) &&& 0xFFFFFFE0 = 0 ∧ (0x20 : Word) &&& 0xFFFFFFE0 ≠ 0 ∧ (1 : Word) &&& 0x3F ≠ 0 ∧ (1 : Word) ≠ (ringOf (run fun x => { x with active := true }) 0 1).baseHi ∧
    fld (0x1F : Word) 4 0 ≠ (ringOf (run fun x => { x with active := true }) 0 1).log2 ∧ ((0 : Fin 4) = 0 ∨ (0 : Fin 4) = 3) ∧ ((2 : Fin 4) = 1 ∨ (2 : Fin 4) = 2) ∧
    (let c := chanOf up 0; c.inSpaceEn = false ∧ bit (2 : Word) 1 = true ∧ fld (2 : Word) 22 16 ≤ inFree c) := by decide +kernel

theorem witness_RingsRunAndStop : let run (r : Nat) (f : Ring → Ring) (s : Machine.State) : Machine.State := setRing 0 r (f {}) s;
    (let x := ringOf (run 1 (fun x => { x with active := true }) up) 0 1; x.active = true ∧ x.enable = false ∧ x.restart = false) ∧
    (let x := ringOf (run 1 (fun x => { x with active := true, restart := true }) up) 0 1; x.active = true ∧ x.enable = false ∧ x.restart = true) ∧
    (let x := ringOf (run 1 (fun x => { x with irqEn := true, uncounted := 1 }) up) 0 1; x.irqEn = true ∧ x.uncounted ≠ 0) ∧
    (let s := run 0 (fun x => { x with active := true, enable := true, prod := 1 }) (upPon fun p => { p with onus := [(0, { st := .active })] });
      let desc : List Word := [0, 0, 1980, 0];
      (ringOf s 0 0).active = true ∧ (ringOf s 0 0).enable = true ∧ (ringOf s 0 0).cons ≠ (ringOf s 0 0).prod ∧ sliceOf s 0 = some (onuOwner s (fld (pw desc 3) 4 0) (fld (pw desc 3) 24 16)) ∧
      (14 ≤ fld (pw desc 2) 15 0 ∧ fld (pw desc 2) 15 0 ≤ 1980) ∧ (onuOf s (fld (pw desc 3) 4 0) (fld (pw desc 3) 24 16)).st = .active ∧ fld (pw [0, 0, 48, 0] 2) 15 0 = 48) ∧
    (let s := run 3 (fun x => { x with active := true, enable := true, prod := 1 }) up; let desc : List Word := [0, 0, 10240, 0, 5];
      (ringOf s 0 3).active = true ∧ (ringOf s 0 3).enable = true ∧ (ringOf s 0 3).cons ≠ (ringOf s 0 3).prod ∧ sliceOf s 0 = some (queueOwner s (fld (pw desc 4) 19 0)) ∧
      14 ≤ fld (pw desc 2) 15 0 ∧ fld (pw desc 2) 15 0 ≤ 10240) ∧
    (let x := ringOf (run 1 (fun x => { x with restart := true }) up) 0 1; x.restart = true ∧ (ringOf up 0 1).restart = false ∧ (ringOf up 0 1).active = false ∧ (ringOf up 0 1).irqEn = false) ∧
    ((ringOf up 0 0).hasWork = false ∧ (ringOf up 0 3).hasWork = false) ∧
    (let s := run 0 (fun x => { x with active := true, enable := true, prod := 1 }) up; let f (n : Word) : List Word := [0, 0, n, 0];
      (ringOf s 0 0).hasWork = true ∧ sliceOf s 0 = some (onuOwner s (fld (pw (f 13) 3) 4 0) (fld (pw (f 13) 3) 24 16)) ∧ fld (pw (f 13) 2) 15 0 < 14 ∧ fld (pw (f 13) 2) 15 0 ≠ 48 ∧ 1980 < fld (pw (f 1981) 2) 15 0 ∧
      14 ≤ fld (pw (f 14) 2) 15 0 ∧ (onuOf s 0 0).st ≠ .active ∧
      (let t := { s with ctl := { s.ctl with onuRanges := [(32, (0, 1))] } }; (ringOf t 0 0).hasWork = true ∧ sliceOf t 0 ≠ some (onuOwner t 0 0))) ∧
    (let s := run 3 (fun x => { x with active := true, enable := true, prod := 1 }) up; let f (n : Word) : List Word := [0, 0, n, 0, 0];
      (ringOf s 0 3).hasWork = true ∧ sliceOf s 0 = some (queueOwner s (fld (pw (f 13) 4) 19 0)) ∧ fld (pw (f 13) 2) 15 0 < 14 ∧ 10240 < fld (pw (f 10241) 2) 15 0 ∧
      (let t := { s with fwd := { s.fwd with ranges := [(1, (0, 1))] } }; (ringOf t 0 3).hasWork = true ∧ sliceOf t 0 ≠ some (queueOwner t 0))) := by decide +kernel

theorem witness_CleatsTakenAndReleased : reaches up 0 = true ∧ mayUse (cleatOf up 0) 0 = true ∧ (cleatOf up 0).holder = 0xFF ∧
    (cleatOf (setCleat 63 { holder := 2 } up) 63).holder ≠ 0xFF ∧ mayUse (cleatOf (setCleat 63 { mask := 0, holder := 2 } up) 63) 0 = false ∧
    reaches up 18 = true ∧ mayUse (cleatOf up 5) 18 = true ∧ (1 : Word) ≠ 0 ∧
    reaches up 1 = false ∧ mayUse (cleatOf (setCleat 63 { mask := 0, holder := 2 } up) 63) 0 = false := by decide +kernel

theorem witness_EventsReachTheirChannels : let s := upC fun x => { x with evts := [(928, { window := true })], routes := [(29, { msgMask := 1, vecMask := 1, vector := 31 })] };
    seesEvt s 928 [] 0 = true ∧ (chanEvt s 0 928).window = true ∧ msgRouted s 0 928 = true ∧ seesEvt s 928 [] 1 = false ∧
    bit (routeOf s 0 29).vecMask 0 = true ∧ bit (routeOf s 0 28).vecMask 0 = false ∧ hostSees s 0 = true ∧ (evtRegs s 0 29).fresh = 0 ∧
    (let t := setEvtRegs 0 29 { pend := 1, fresh := 1 } s; (1 : Word) &&& (evtRegs t 0 29).pend &&& (evtRegs t 0 29).fresh &&& ~~~(evtRegs t 0 29).mask ≠ 0) ∧
    (chanEvt up 0 928).window = false ∧ msgRouted up 0 928 = false ∧ State.reset.boot.ready = false ∧ hostSees s 1 = false ∧
    (let e := evtRegs s 0 29; e.mask &&& ~~~(0 : Word) &&& e.pend = 0) ∧
    (let e := evtRegs (setEvtRegs 0 29 { pend := 1, mask := 1 } s) 0 29; e.mask &&& ~~~(0 : Word) &&& e.pend ≠ 0) := by decide +kernel

theorem witness_SessionsOpenCloseAndPing : negotiate 0x0200 0x0302 = some 0x0302 ∧ Served sessionOpenSpec (call [0x03020200]) up ∧
    negotiate (fld (0x03020200 : Word) 15 0) (fld (0x03020200 : Word) 31 16) = some 0x0302 ∧ Served sessionOpenSpec (call [0x04000303]) up ∧
    negotiate (fld (0x04000303 : Word) 15 0) (fld (0x04000303 : Word) 31 16) = none ∧ Served sessionCloseSpec (call []) up ∧ Served sessionPingSpec (call [7]) up ∧
    (chanOf up 0).session.isSome = true ∧ (let s := upC fun x => { x with session := none }; Served sessionOpenSpec (call [0x03020200]) s ∧ (chanOf (readCall 0x0001 (call [0x03020200]) s) 0).session.isSome = false) := by decide +kernel

theorem witness_TransactionsOpenAndClose : let s := upCtl fun x => { x with txns := [txn0] };
    (Served txnBeginSpec (call []) (upCtl fun x => { x with txns := List.replicate 3 txn0 }) ∧
      ((openTxns (upCtl fun x => { x with txns := List.replicate 3 txn0 })).filter fun t => t.chan = 0).length < 4 ∧ (openTxns (upCtl fun x => { x with txns := List.replicate 3 txn0 })).length < 64) ∧
    (Served txnQuerySpec (call [1]) s ∧ findTxn s 0 1 = some txn0) ∧ (Served txnRollbackSpec (call [1]) s ∧ txn0.phase = .opened) ∧
    (Served txnCommitSpec (call [1, 8000]) s ∧ fld (8000 : Word) 12 0 ≤ 8000 ∧ 0x0300 ≤ versionOf s 0 ∧ findTxn s 0 1 = some txn0) ∧ judgeItems txn0.items (applyPointFor s.tb 8000) s = none ∧
    (let i : Item := ⟨0x0020, 0, some 0, 0x0302, [1, 0], [], [], false⟩;
      judgeItems [i] (applyPointFor s.tb 0) s = some (0, .badState) ∧ 0x0300 < versionOf s 0) ∧ findTxn s (1 / 65536 % 256) 1 = some txn0 := by decide +kernel

theorem witness_transactions_refused : let s := upCtl fun x => { x with txns := [txn0] };
    (txn0.phase = .opened ∧ (call [1, 8000]).words.length ≠ 1 ∧ (call [1]).words.length = 1 ∧ Served txnCommitSpec (call [1, 8000]) up ∧ findTxn up 0 1 = none ∧ findTxn s (0 % 256) 1 = some txn0) ∧
    (let i : Item := ⟨0x0020, 0, some 0, 0x0300, [1, 0], [], [], false⟩; let t := upC fun x => { x with session := some 0x0300 };
      Served txnCommitSpec (call [1]) t ∧ judgeItems [i] (applyPointFor t.tb 0) t = some (0, .badState) ∧ versionOf t 0 ≤ 0x0300) := by decide +kernel

theorem witness_transactional_row : txnRow (.cleatAssign (call [1, 5, 0])) = some (cleatAssign, call [1, 5, 0]) := rfl

/-- `up` with that transaction. -/
def upT : Machine.State := upCtl fun x => { x with txns := [txn0] }

/-- The item of a `CLEAT_ASSIGN`, with its object. -/
def it5 (h : Word) : Item := { itemOf cleatAssign.spec (call [h, 5, 0]) [] up with objs := [⟨.cleat, 5⟩] }

theorem witness_TransactionalCallsStageOrAccept : Served cleatAssign.spec (call [1, 5, 0]) upT ∧ findTxn upT 0 1 = some txn0 ∧ txn0.phase = .opened ∧
    (cleatAssign.objs upT (itemOf cleatAssign.spec (call [1, 5, 0]) [] upT)).toOption = some [⟨.cleat, 5⟩] ∧ heldElsewhere upT 0 1 [⟨.cleat, 5⟩] = false ∧ itemCount txn0.items + 1 ≤ 16384 ∧
    heldElsewhere (upCtl fun x => { x with txns := [txn0, { txn0 with handle := 2, holds := [⟨.cleat, 5⟩] }] }) 0 1 [⟨.cleat, 5⟩] = true ∧
    Served cleatAssign.spec (call [0, 5, 0]) up ∧ isHeld up ⟨.cleat, 5⟩ = false ∧ isHeld (upCtl fun x => { x with txns := [{ txn0 with holds := [⟨.cleat, 5⟩] }] }) ⟨.cleat, 5⟩ = true ∧
    judgeItems [it5 0] (applyPointFor up.tb 0) up = none ∧ findTxn up 0 1 = none ∧
    (let s := upCtl fun x => { x with txns := [{ txn0 with phase := .accepted 9 }] }; Served cleatAssign.spec (call [1, 5, 0]) s ∧ ((findTxn s 0 1).all fun t => t.phase ≠ .opened) = true) ∧
    (let c := call [0, 5, 0]; (∀ o ∈ [(⟨.cleat, 5⟩ : Obj)], isHeld up o = false) ∧ (pw c.words 0).toNat = 0) ∧
    (Served thermalConfig.spec (call [1, 0]) upT ∧ (thermalConfig.objs upT (itemOf thermalConfig.spec (call [1, 0]) [] upT)).toOption = none) := by decide +kernel

/-- R83: 16,385 objects are more than the 16,384 of a transaction. -/
theorem witness_transaction_full : 16384 < itemCount [{ it5 1 with objs := List.replicate 16384 ⟨.cleat, 5⟩ }] + 1 := by
  have h : (List.replicate 16384 (⟨.cleat, 5⟩ : Obj)).length = 16384 := List.length_replicate
  simp only [itemCount, List.map_cons, List.map_nil, List.sum_cons, List.sum_nil, h]; decide

theorem witness_transactional_refused : (judgeItems [{ itemOf sliceCreate.spec (call [0, 0]) [] up with objs := [⟨.slice, 0⟩] }] (applyPointFor up.tb 0) up = some (0, .badState)) ∧
    (thermalConfig.objs up (itemOf thermalConfig.spec (call [0, 0]) [] up)).toOption = none := by decide +kernel

/-- An item of `CLEAT_ASSIGN` and one of `SLICE_BIND` that unbinds an identity bound to nothing. -/
def assign : Item := ⟨0x0030, 0, some 0, 0x0302, [0, 5, 0], [], [], false⟩
def unbind : Item := ⟨0x0022, 0, some 0, 0x0302, [0, 0x80000100], [], [], false⟩

theorem witness_AcceptedTransactionsApply : (∀ t ∈ up.ctl.txns, ∀ a, t.phase = .accepted a → 0 < a) ∧
    ((upCtl fun x => { x with txns := [{ txn0 with phase := .accepted 5 }] }).ctl.txns = [{ txn0 with phase := .accepted 5 }] ∧ 5 ≤ 5) ∧
    ((upCtl fun x => { x with txns := [{ txn0 with phase := .accepted 5 }, { txn0 with phase := .accepted 4 }] }).ctl.txns.length = 2 ∧ 4 < 5 ∧ 5 ≤ 5) :=
  ⟨fun t h => absurd h (by simp [up]), by decide +kernel⟩

theorem witness_items_run_in_order : ∃ x y, applyItem assign up = .ok x ∧ applyItem assign x = .ok y ∧ y.ctl.later = [] := ⟨_, _, rfl, rfl, rfl⟩

theorem witness_refused_item : ∃ e y, applyItem unbind up = .error e ∧ applyItem assign up = .ok y ∧ y.ctl.later = [] ∧ ({ ref0 with code := 0x0011 } : Ref).code = 0x0011 ∧ ref0.code ≠ 0x0011 :=
  ⟨_, _, rfl, rfl, rfl, rfl, by decide⟩

/-- An item of the words given. -/
def item (ws : List Word) : Item := ⟨0, 0, some 0, 0x0302, ws, [], [], false⟩

theorem witness_ControlItemsTakeEffect : up.ctl.slices.contains (fld (1 : Word) 3 0) = false ∧ up.ctl.slices.contains (fld (0 : Word) 3 0) = true ∧
    sliceInUse (upFwd fun f => { f with queues := [(0, { parent := 0, profile := 0, port := 0, sh := {} })] }) 0 = true ∧ (bit (0x0F00 : Word) 31 = false ∧ boundTo (upCtl fun x => { x with slices := [0, 1] }) 1 = []) ∧
    (spanOf up 0).st = .closed ∧ (spanOf (upPon fun p => { p with spans := [(0, { st := .opened })] }) 0).st ≠ .closed ∧ (pierOf up 0 0).enable ≠ bit (0x80000000 : Word) 31 ∧
    (onuOf up 0 0).expect = none ∧ (onuOf up 0 0).st = .inactive ∧ (let s := upPon fun p => { p with onus := [(0, { st := .active })] }; (onuOf s 0 0).st ≠ .inactive ∧ (onuOf s 0 0).st ≠ .disabled) ∧
    fld (1 : Word) 1 0 ≠ 2 ∧ allocOf up 0 0 = none ∧ (allocOf (upPon fun p => { p with allocs := [(0, alloc0)] }) 0 0).isSome = true ∧
    (bit (0 : Word) 0 = false ∧ up.pon.inactive = none) ∧ (bit (0 : Word) 1 = false ∧ (upPon fun p => { p with inactive := some ⟨[], [], []⟩ }).pon.inactive = some ⟨[], [], []⟩) ∧ bit (0 : Word) 31 = false := by decide +kernel

theorem witness_control_items_on_open_spans : let s := upPon fun p => { p with spans := [(0, { st := .opened })] };
    (let w : Word := 0x0F01; let t := upCtl fun x => { x with slices := [0, 1] }; bit w 31 = false ∧ t.ctl.slices.contains (fld w 3 0) = true ∧ boundTo t (fld w 3 0) = []) ∧
    (let w : Word := 0; let v : Word := 0x80000000; (spanOf s (pierName w).1).st ≠ .closed ∧ (pierOf s (pierName w).1 (pierName w).2).enable ≠ bit v 31) ∧
    ((spanOf up 0).standby = false ∧ (onuOf up 0 0).st = .inactive ∧ (onuOf (upPon fun p => { p with onus := [(0, { st := .disabled })] }) 0 0).st = .disabled) ∧
    ((spanOf s 0).st ≠ .closed ∧ ¬((pierOf s 0 0).tTx = fld (0x10000 : Word) 31 16 ∧ (pierOf s 0 0).tRx = 0) ∧ fld (0x10000 : Word) 31 16 ≠ (spanOf s 0).reachMax) ∧
    (let w : Word := 0x1001F; up.ctl.slices.contains (fld w 19 16) = false ∧ up.ctl.slices.contains (fld (0x1F : Word) 19 16) = true) ∧
    (let t := { upPon fun p => { p with inactive := some ⟨[], [], []⟩ } with pwr := { doms := [(31, { st := .on })] } }; t.pon.inactive = some ⟨[], [], []⟩ ∧ domLive t 31 = true ∧ bit (1 : Word) 0 = true) ∧
    (bit (0x1E : Word) 31 = false ∧ up.ctl.slices.contains (fld (0x1E : Word) 19 16) = true) := by decide +kernel

theorem witness_ForwardingItemsTakeEffect : 0x0300 ≤ (item []).version ∧ pierOfOnu up 0 0 = none ∧
    (let s := upPon fun p => { p with onus := [(0, { expect := some ⟨2, 1, true, false, []⟩ })] }; pierOfOnu s 0 0 = some 2 ∧ (portRecOf [0, 0, 0, 0, 0, 0, 0, 0] 2).portId ≤ 4095 ∧ s.fwd.ports = []) ∧
    kget up.fwd.ports (portKey 0) = none ∧ fld (4095 : Word) 17 0 < 4096 * (pipeOf (upFwd fun f => { f with pipes := [(0, { directBlocks := 1 })] }) 0).directBlocks ∧
    4096 * (pipeOf up 0).directBlocks ≤ fld (0 : Word) 17 0 ∧ kget up.fwd.ranges 0 = none ∧
    (let q : Queue := { parent := 0, profile := 0, port := 0, sh := {}, draining := true }; queueAt (upFwd fun f => { f with queues := [(0, q)] }) 0 = some q ∧ q.draining = true) ∧
    (let q : Queue := { parent := 0, profile := 0, port := 0, sh := {}, pkts := [⟨[], false, .shallow, [0], none, false, false, none⟩] }; queueAt (upFwd fun f => { f with queues := [(0, q)] }) 0 = some q ∧ q.draining = false ∧ q.pkts ≠ []) ∧
    queueAt up 0 = none ∧ (item []).slice = some 0 ∧ 0x0201 ≤ (item []).version ∧
    (let s := upFwd fun f => { f with queues := [(0, { parent := 0, profile := 0, port := 0, sh := {} })] }; schedName (0x03000000 : Word) = some (.queue 0) ∧ (childOf s (.queue 0)).isSome = true ∧ (shaperOf s (.queue 0)).isSome = true) ∧
    (kget (upFwd fun f => { f with ports := [(0, portRecOf [0, 0, 0, 0, 0, 0, 0, 0] 0)] }).fwd.ports (portKey 0)).isSome = true ∧ (schedOf up 0 0).list = none ∧ fld (1 : Word) 8 0 ≠ 0 := by decide +kernel

theorem witness_forwarding_items_refused_or_waiting : up.ctl.slices.contains (fld (0x10000 : Word) 19 16) = false ∧ up.ctl.slices.contains (fld (0 : Word) 19 16) = true ∧
    (let s := upPon fun p => { p with onus := [(0, { expect := some ⟨1, 1, true, false, []⟩ })] }; let t := { s with fwd := { s.fwd with ports := [(5, portRecOf [0, 0, 0, 0, 0, 0, 0, 0] 2)] } };
      pierOfOnu t (fld (0 : Word) 4 0) (fld (0 : Word) 24 16) = some 1 ∧ ((1 : Nat) ≠ 2) ∧ ∀ e ∈ t.fwd.ports, e.1 / 8192 = fld (0 : Word) 4 0 → e.1 = portKey 0 ∨ e.2.pier ≠ 1 ∨ e.2.portId ≠ 0) ∧
    (let g : GateList := ⟨[(1, 125000), (0, 125000)], 250000, 0⟩; let s := upFwd fun f => { f with piers := [(95, { list := some g })] }; let w : Word := 0x1F02;
      (schedOf s (pierName w).1 (pierName w).2).list = some g ∧ fld (2 : Word) 8 0 ≠ 0) := by decide +kernel

theorem witness_TimeCipherAndPairItemsTakeEffect : (bit (0 : Word) 31 = true → fld (0 : Word) 30 28 ≠ 3) ∧ (fld (0x116 : Word) 4 0 = 22 ∧ fld (0x116 : Word) 9 8 ≠ 0) ∧ (fld (0x117 : Word) 4 0 ≠ 22) ∧ fld (0x16 : Word) 9 8 = 0 ∧
    (let s := upPon fun p => { p with onus := [(0, { expect := some ⟨2, 1, true, false, []⟩ }), (1, { expect := some ⟨0, 2, true, false, []⟩ })] };
      pierOfOnu s 0 0 = some 2 ∧ pierOfOnu s 0 1 ≠ some 2 ∧ (onuOf s 0 1).st ≠ .active) ∧
    ((pierKeys (upCiph fun c => { c with piers := [(0, { s1 := { st := .active } })] }) 0 0).slot 1).st = .active ∧ bit (0 : Word) 31 = false ∧ bit (0 : Word) 8 = false ∧
    (bit (0x80000000 : Word) 31 = true ∧ (secyOf (upCiph fun c => { c with secys := [(0, { txAn := some 0 })] }) 0).txAn = some 0) ∧ findSa (secyOf up 0) false 0 0 = none ∧
    (let a : Sa := { sak := 0, salt := 0, ssci := 0 }; kget (secyOf (upCiph fun c => { c with secys := [(0, { tx := [(0, a)] })] }) 0).tx 0 = some a ∧ a.exhausted = false ∧
      kget (secyOf (upCiph fun c => { c with secys := [(0, { tx := [(0, { a with pn := 2 ^ 64 })] })] }) 0).tx 0 = some { a with pn := 2 ^ 64 } ∧ { a with pn := 2 ^ 64 }.exhausted = true) ∧
    busOff up 0 = true ∧ (opticOf up (spanOfLoop 0 0) (pierOfLoop 0)).st = .off ∧ (loopOf up 0 0).running = false ∧ (loopOf (setLoop 0 0 { running := true } up) 0 0).running = true ∧
    fld (0 : Word) 29 28 = 0 ∧ fld (0x01000000 : Word) 25 24 ≠ 0 ∧ ((wordsOfBytes (List.replicate 4 0)).take 1).all (fun e => fld e 9 0 ≤ 1007) = true ∧ (∀ sp : Fin 32, (spanOf up sp).st = .closed) ∧
    (let s := upPon fun p => { p with spans := [(31, { st := .opened })] }; (spanOf s 31).st ≠ .closed ∧ (spanOf s 31).paired ≠ bit (0x80000000 : Word) 31) ∧
    (kget (upRed fun r => { r with lan := { r.lan with registry := [(0, ⟨0, 0, 0, false, []⟩)] } }).red.lan.registry 0).isSome = true ∧ kget up.red.lan.registry 0 = none := by decide +kernel

theorem witness_registry_full : let r : KMap RegEntry := (List.range 262144).map fun n => (n + 1, ⟨0, 0, 0, false, []⟩);
    262144 ≤ r.length := by
  intro r; simp only [r, List.length_map, List.length_range]; decide

set_option maxRecDepth 20000 in
theorem witness_ApplyPointsAndSeconds : saClash (txSas up) = false ∧
    (let a : Sa := { sak := 1, salt := 0, ssci := 0 }; let s := upCiph fun c => { c with secys := [(0, { tx := [(0, a), (1, a)] })] };
      saClash (txSas s) = true ∧ undefinedWrite s (applyPoint [] s) = false) ∧
    (let i : Item := { item [0, 0, 2, 5, 5] with code := 0x0712 }; let s := upCtl fun x => { x with txns := [{ txn0 with phase := .accepted 1, items := [i] }] }; undefinedWrite s (applyPoint [] s) = true) ∧
    (let a : Sa := { sak := 0, salt := 0, ssci := 0 }; let i : Item := { item (0 :: 1 :: List.replicate 12 0) with code := 0x0A11 };
      let s := { upCtl fun x => { x with txns := [{ txn0 with phase := .accepted 1, items := [i] }] } with ciph := { secys := [(0, { tx := [(0, a)] })] } };
      undefinedWrite s (applyPoint [] s) = false ∧ saClash (txSas s) = false ∧ saClash (txSas (applyPoint [] s)) = true) ∧
    (let s := upTime fun t => { t with cfg := { t.cfg with freqSrc := 1, freqLane := 0, qlMin := 4 } };
      let t := setPort 0 { mode := 1 } s; t.boot.ready = true ∧ t.time.cfg.freqSrc = 1 ∧ t.time.cfg.freqLane ∈ lanesOf t 0 ∧ 3 < t.time.cfg.qlMin ∧ t.time.cfg.qlMin ≤ 4) ∧ up.time.cfg.freqSrc ≠ 1 := by decide +kernel

theorem witness_EventAndCounterReads : Served evtRouteGetSpec (call [31]) up ∧ (Served evtDetailSpec (call [928]) up ∧ realSource 928 = true ∧ maySee up 0 928 = true) ∧
    (Served cntReadSpec (call [0x8E0000]) up ∧ cntSeen up 0 0x8E0000 = true) ∧
    (Served cntSnapshotCopySpec (call [64, 0, 0xFFFFFF]) up ∧ wide [64, 0, 0xFFFFFF] 0 2 % 64 = 0 ∧
      (snapshotBytes (up.ctl.cntSnap.filter fun r => cntSeen up 0 r.1) up.ctl.snapSecond).length ≤ fld (0xFFFFFF : Word) 23 0) := by decide +kernel


/-! ### Witnesses: boot, power, Spans -/

def upPwr (f : Power → Power) : Machine.State := { up with pwr := f up.pwr }
def upOpt (f : Optics → Optics) : Machine.State := { up with opt := f up.opt }
def upLane (f : Lanes → Lanes) : Machine.State := { up with lane := f up.lane }

/-- A reset state with its boot control rewritten. -/
def booting (f : Boot → Boot) : Machine.State := { State.reset with boot := f {} }

theorem witness_BootTriesSlotsInOrder : State.reset.boot.released = false ∧
    (let s := booting fun b => { b with trying := some 1 }; s.boot.stage = 0 ∧ s.boot.trying = some 1) ∧
    (let s := booting fun b => { b with stage := 1, trying := some 0 }; s.boot.stage = 1 ∧ s.boot.trying = some 0) ∧
    (booting fun b => { b with released := true }).boot.released = true ∧ State.reset.boot.trying = none ∧ up.boot.stage ≠ 0 ∧ up.boot.stage ≠ 1 := by decide +kernel

theorem witness_FunctionResetsAndVfs : up.ctl.numVfs ≤ (15 : Fin 16).val ∧ up.ctl.numVfs ≤ (0 : Fin 16).val ∧
    (let s := upCtl fun x => { x with numVfs := 15 }; (15 : Fn) ≠ 0 ∧ (15 : Fn).val ≤ s.ctl.numVfs) ∧
    (1 : Fn) ≠ 0 ∧ up.ctl.numVfs < (1 : Fn).val := by decide +kernel

theorem witness_SaendStartsAndRestarts :
    (let s := booting fun b => { b with stage := 2, resultA := 1 }; s.boot.ready = false ∧ s.boot.restarting = false ∧ s.boot.stage ≠ 0xF ∧ s.boot.strapRole ≠ 3 ∧
      s.boot.resultA ≤ 1 ∧ s.boot.resultB ≤ 1) ∧
    (let s := { booting fun b => { b with stage := 2, strapRole := 3, resultB := 1 } with ciph := { xts := [(0, 1)] } }; s.boot.ready = false ∧ s.boot.restarting = false ∧
      s.boot.stage ≠ 0xF ∧ s.boot.strapRole = 3 ∧ s.boot.resultA ≤ 1 ∧ s.boot.resultB ≤ 1 ∧ kget s.ciph.xts 0 ≠ none) ∧
    up.boot.ready = true ∧ (booting fun b => { b with restarting := true }).boot.restarting = true ∧ (upBoot fun b => { b with resetAsked := true }).boot.resetAsked = true := by
  decide +kernel

theorem witness_saend_has_nothing_to_start : up.boot.ready = true ∧ up.boot.restarting = false ∧ State.reset.boot.stage ≠ 2 ∧ State.reset.boot.ready = false ∧ State.reset.boot.resetAsked = false ∧
    (let s := { booting fun b => { b with stage := 2, resultA := 1, resultB := 5 } with ciph := { xts := [(0, 1)] } }; s.boot.ready = false ∧ s.boot.restarting = false ∧ s.boot.stage = 2 ∧ s.boot.strapRole ≠ 3 ∧
      (let other := if s.boot.slot = 0 then s.boot.resultB else s.boot.resultA; 2 ≤ other) ∧ kget s.ciph.xts 0 ≠ none) := by decide +kernel

theorem witness_DeviceCallsAnswer : ready devInfoSpec [] up ∧ ready devAttestSpec (List.replicate 10 0) up ∧ (0 : Chan).val < 16 ∧
    (ready devCertReadSpec [0, 0, 0] up ∧ wide [0, 0, 0] 0 2 = 0) ∧
    (let s := upC fun x => { x with report := some [7] }; ready devReportReadSpec [0x3FFF] s ∧ (chanOf s 0).report = some [7]) ∧
    ready devSlotSetSpec [3] up ∧ (ready devResetSpec [0x52535444] up ∧ activeSpans up = []) := by decide +kernel

theorem witness_flash_write :
    (let w : List Word := [0, 0, 4096, 0x1FFF000, 1]; ready devFlashWriteSpec w up ∧ fld (pw w 2) 24 0 % 4096 = 0 ∧ fld (pw w 3) 24 0 % 4096 = 0 ∧
      fld (pw w 3) 24 0 + fld (pw w 2) 24 0 ≤ slotSize ∧ fld (pw w 4) 0 0 ≠ up.boot.slot ∧ Memory.wf up.boot.flash = true) := by decide +kernel

theorem witness_device_fuses : (let s := upBoot fun b => { b with svnMin := 63, svnRunning := 65 }; ready devSvnAdvanceSpec [] s ∧ s.boot.svnMin < 64 ∧ s.boot.svnMin < min 64 s.boot.svnRunning) ∧
    min 64 up.boot.svnRunning ≤ up.boot.svnMin ∧
    (let w : List Word := [1, 2, 3, 4, 5, 6, 7, 8, 0x4B455946]; ready ownerKeyFuseSpec w up ∧ pw w 8 = 0x4B455946 ∧ up.boot.ownerState = 0 ∧
      (upBoot fun b => { b with ownerState := 2 }).boot.ownerState ≠ 0) ∧ pw [1, 2, 3, 4, 5, 6, 7, 8, 0] 8 ≠ 0x4B455946 := by decide +kernel

theorem witness_device_calls_in_a_pair : (0 : Chan).val < 16 ∧ pw (call [0x52535444]).words 0 = 0x52535444 ∧ (∀ sp ∈ activeSpans up, up.red.pair.sync.contains sp = false) ∧
    (let s := { upPon fun p => { p with spans := [(31, { paired := true })] } with red := { pair := { sync := [31] } } }; ready devResetSpec [0x52535444] s ∧ (activeSpans s).filter s.red.pair.sync.contains ≠ []) ∧
    (ready devAttestSpec [0, 0, 0, 0, 0, 0, 0, 0, 0, 0] (setChan 17 { session := some 0x0302 } up) → wide [0, 0] 0 2 = 0) ∧ ready devSvnAdvanceSpec [] up ∧ up.boot.svnMin < 64 := by decide +kernel

/-- A state in which one domain stands as given. -/
def dom (d : Nat) (x : Domain) : Machine.State := upPwr fun p => { p with doms := [(d, x)] }

theorem witness_DomainsTakeTheirTurn : ready pwrDomainSetSpec [0x147] up ∧ fld (0x147 : Word) 6 0 ≤ 71 ∧ bit (0x147 : Word) 8 = true ∧ up.pwr.tripped = false ∧
    (domOf (dom 71 { st := .on }) 71).st = .on ∧ (domOf (dom 71 { st := .ramp }) 71).st = .ramp ∧ (domOf (dom 71 { st := .drain }) 71).st = .drain ∧
    ((domOf up 71).st = .off ∧ needsOf 71 = []) ∧ ((domOf up 0).st = .off ∧ domPl 0 ∈ needsOf 0 ∧ willBeOn up (domPl 0) = false) ∧ (upPwr fun p => { p with tripped := true }).pwr.tripped = true ∧
    (bit (0x47 : Word) 8 = false ∧ neededBy (dom 71 { st := .on }) 71 = false) ∧ (neededBy (dom 0 { st := .on }) 0 = false ∧ (spanOf (dom 0 { st := .on }) 0).st = .closed) ∧
    (let s := upPwr fun p => { p with doms := [(0, { st := .on }), (32, { st := .on })] }; neededBy s 32 = true ∧ (domOf s 32).st = .on) ∧
    (let s := upPwr fun p => { p with queue := [⟨71, none, false⟩] }; s.pwr.queue = ⟨71, none, false⟩ :: [] ∧ s.pwr.preRamp = none ∧ anyRamp s = false ∧ domOn s 71 = false ∧ needsMet s 71 = true) ∧
    (let s := upPwr fun p => { p with queue := [⟨0, none, false⟩] }; s.pwr.queue = ⟨0, none, false⟩ :: [] ∧ anyRamp s = false ∧ domOn s 0 = false ∧ needsMet s 0 = false) ∧
    (upPwr fun p => { p with preRamp := some ⟨71, none, false⟩ }).pwr.preRamp = some ⟨71, none, false⟩ ∧
    (let x : Domain := { st := .ramp }; rampingDom (dom 47 x) = some 47 ∧ x.onFromPending = false ∧ x.offAfterRamp = false ∧
      rampingDom (dom 47 { x with onFromPending := true }) = some 47 ∧ rampingDom (dom 47 { x with offAfterRamp := true }) = some 47) ∧
    (let s := dom 71 { st := .drain }; let x := domOf s 71; x.st = .drain ∧ s.pwr.shedding = none ∧
      (answerAll x.offRefs .done (domLoses 71 (setDom 71 { x with st := .off, pendingOn := false, offRefs := [], pace := 0, paceValid := false } s))).pwr.shedding = none) ∧
    (ready pwrDomainGetSpec [71] up ∧ fld (71 : Word) 6 0 ≤ 71) := by decide +kernel

theorem witness_domains_join_and_end : ready pwrDomainSetSpec [0x148] up ∧ 71 < fld (0x148 : Word) 6 0 ∧ ready pwrDomainGetSpec [72] up ∧ 71 < fld (72 : Word) 6 0 ∧
    (let s := upPwr fun p => { p with queue := [⟨71, none, false⟩] }; (domOf s 71).st = .off ∧ ∃ o ∈ comingOn s, o.dom = 71) ∧ (∀ o ∈ comingOn up, o.dom ≠ 71) ∧ (∀ n ∈ needsOf 71, willBeOn up n = true) ∧
    (∃ n ∈ needsOf 0, willBeOn up n = false) ∧ (let s := dom 71 { st := .ramp }; (domOf s 71).st = .ramp ∧ neededBy s 71 = false) ∧
    (let s := { dom 31 { st := .on } with pon := { spans := [(31, { st := .opened })] } }; (domOf s 31).st = .on ∧ (31 < 32) ∧ (spanOf s 31).st ≠ .closed) ∧
    (let s (st : DomState) := upPwr fun p => { p with doms := [(71, { st := st })], queue := [⟨71, none, false⟩] };
      (s .on).pwr.queue = [⟨71, none, false⟩] ∧ (s .on).pwr.preRamp = none ∧ anyRamp (s .on) = false ∧ (domOf (s .on) 71).st = .on ∧ anyRamp (s .drain) = false ∧ (domOf (s .drain) 71).st ≠ .on ∧ (domOf (s .drain) 71).st ≠ .off ∧
      anyRamp (s .ramp) = true) ∧ up.pwr.queue = [] ∧ up.pwr.preRamp = none ∧ rampingDom up = none ∧
    (let s := upPwr fun p => { p with preRamp := some ⟨71, none, false⟩ }; s.pwr.preRamp.isSome = true ∧ (domOf s 71).st = .off ∧ needsMet s 71 = true) ∧
    (let s := upPwr fun p => { p with preRamp := some ⟨0, none, false⟩ }; s.pwr.preRamp = some ⟨0, none, false⟩ ∧ needsMet s 0 = false) ∧
    (let x : Domain := { st := .ramp, onFromPending := true, offAfterRamp := true }; rampingDom (dom 47 x) = some 47 ∧ x.onFromPending = true ∧ x.offAfterRamp = true) ∧ (domOf up 71).st ≠ .drain := by decide +kernel

theorem witness_shed_domain_drains : (let s := upPwr fun p => { p with doms := [(71, { st := .drain })], shedding := some 71 }; let x := domOf s 71;
      let t := answerAll x.offRefs .done (domLoses 71 (setDom 71 { x with st := .off, pendingOn := false, offRefs := [], pace := 0, paceValid := false } s));
      let v := setPwr { t.pwr with shedding := none } t; x.st = .drain ∧ t.pwr.shedding = some 71 ∧ (v.pwr.paceShed && paceShort v) = false) ∧
    (let s := upPwr fun p => { p with doms := [(40, { st := .on, pace := 1818, paceValid := true }), (71, { st := .drain })], shedding := some 71, paceShed := true, vdd := 800 }; let x := domOf s 71;
      let t := answerAll x.offRefs .done (domLoses 71 (setDom 71 { x with st := .off, pendingOn := false, offRefs := [], pace := 0, paceValid := false } s));
      let v := setPwr { t.pwr with shedding := none } t; t.pwr.shedding = some 71 ∧ (v.pwr.paceShed && paceShort v) = true) := by decide +kernel

theorem witness_VoltageAndTemperatureAct : (let s (v : Nat) := dom 40 { st := .on, pace := v, paceValid := true };
      lowestPace (s 1964) = some (40, 1964) ∧ 1964 < (s 0).pwr.raise ∧ lowestPace (s 2184) = some (40, 2184) ∧ (s 0).pwr.raise ≤ 2184 ∧ (s 0).pwr.lower < 2184 ∧ (s 0).pwr.lowerRuns < 19 ∧
      lowestPace (s 2183) = some (40, 2183) ∧ (s 0).pwr.raise ≤ 2183 ∧ 2183 ≤ (s 0).pwr.lower ∧ domLive (s 0) 40 = true ∧ hasPace 40 = true ∧ lowestPace up = none ∧ domLive up 40 = false ∧ hasPace 71 = false) ∧
    (let s := dom 41 { st := .on }; (domOf s 41).st = .on ∧ (domOf s 41).onSince + paceTb ≤ paceTb ∧ hasPace 41 = true ∧ 18190 / 10 = 1819 ∧ 18189 / 10 < 1819 ∧ s.pwr.vdd ≠ 800 ∧
      paceTb < (domOf (dom 41 { st := .on, onSince := 1 }) 41).onSince + paceTb ∧ (domOf up 41).st ≠ .on) ∧
    (let s := upPwr fun p => { p with lowerRuns := 19, doms := [(40, { st := .on, pace := 2184, paceValid := true })] }; lowestPace s = some (40, 2184) ∧ 19 ≤ s.pwr.lowerRuns) ∧
    (let s := upPwr fun p => { p with vdd := 800, paceLowValid := true, paceLowDom := 40, paceLow := 1818, doms := [(40, { st := .on, pace := 1818, paceValid := true })] }; paceShort s = true ∧ s.pwr.shedding = none ∧
      (let t := setPwr { s.pwr with shedding := some 40 } s; paceShort t = true ∧ t.pwr.shedding ≠ none)) ∧ paceShort up = false ∧
    (let t := dom 71 { st := .on }; domOn t 71 = true ∧ neededBy t 71 = false ∧ 32 ≤ 71) ∧ domOn up 71 = false ∧
    (let t (v : Span) := { dom 0 { st := .on } with pon := { spans := [(0, v)] } }; let o : Span := { st := .opened, paired := true };
      domOn (t {}) 0 = true ∧ neededBy (t {}) 0 = false ∧ (spanOf (t { st := .opening }) 0).st ≠ .closed ∧ (spanOf (t { st := .opening }) 0).st ≠ .opened ∧ (spanOf (t o) 0).st = .opened ∧
      activeHere (raise 931 [] [0] (setPwr { (t o).pwr with shedNext := 1, shedding := some 0 } (t o))) 0 = true ∧ activeHere (t { st := .opened }) 0 = false) ∧
    (460 ≤ (460 : Int) ∧ (4 * up.pwr.warn : Nat) ≤ (460 : Int) ∧ (419 : Int) < (4 * up.pwr.warn : Nat)) ∧
    (500 ≤ (500 : Int) ∧ up.pwr.tripped = false ∧ (499 : Int) < 500) ∧ (let s := upPwr fun p => { p with tripped := true, paceShed := true }; s.pwr.tripped = true ∧ (399 : Int) < 400 ∧ s.pwr.paceShed = true) ∧
    ready thermalReadSpec [] up := by decide +kernel

theorem witness_pace_window_ends : (let s := dom 40 { st := .on, pace := 1818, paceValid := true }; let e := paceEnd s; let t := setPwr { s.pwr with lastPace := e } (advance e s); lowestPace t = some (40, 1818) ∧ t.pwr.tj < 460) ∧
    (let s := upPwr fun p => { p with tj := 460, doms := [(40, { st := .on, pace := 1819, paceValid := true })] }; let e := paceEnd s; let t := setPwr { s.pwr with lastPace := e } (advance e s);
      lowestPace t = some (40, 1819) ∧ 460 ≤ t.pwr.tj) ∧ (let e := paceEnd up; lowestPace (setPwr { up.pwr with lastPace := e } (advance e up)) = none) := by decide +kernel

/-! ### Witnesses: receivers, ONUs, Spans and Trusses -/

/-- A state with one record of a Span, Pier, ONU or its keys at index 0. -/
def sp0 (v : Span) : Machine.State := upPon fun p => { p with spans := [(0, v)] }
def pier0 (n : Nat) (x : Pier) : Machine.State := upPon fun p => { p with spans := [(0, { st := .opened })], piers := [(n, x)] }
def onu0 (x : Onu) : Machine.State := upPon fun p => { p with spans := [(0, { st := .opened })], onus := [(0, x)] }
def keys0 (k : OnuKeys) (x : Onu) : Machine.State := { onu0 x with ciph := { onus := [(0, k)] } }

def grant0 : Grant := ⟨0, some 0, 0, 0, false, [], 0, 0, 0⟩
def prof0 : BProf := ⟨0, true, false, true, 0, 0, 32, 0, 0⟩
def due0 : Due := ⟨grant0, 0, some prof0⟩
def rx0 : Rx := { due := due0, w0 := 0, wEnd := 1000 }

theorem witness_BurstsAreSearchedAndAccepted :
    (let d : Due := ⟨{ grant0 with kind := 2, onu := none }, 0, none⟩; let s := pier0 0 { rxOn := true, due := [d] };
      (pierOf s 0 0).rxOn = true ∧ firstDue s 0 0 (pierOf s 0 0).due = some (d, []) ∧ d.grant.onu = none) ∧
    (let s := upPon fun p => { p with piers := [(0, { profs := [(0, prof0)], rx := some rx0 })], onus := [(0, { onuId := some 3 })] }; let b : BurstHead := ⟨12, 3, true, false, false⟩;
      (pierOf s 0 0).rx = some rx0 ∧ rx0.due.prof = some prof0 ∧ rx0.due.grant.onu = some 0 ∧ rx0.accepted = false ∧ rx0.ended = false ∧
      rx0.w0 + ((b.pos : Nat) : Rat) * bitPs 0 prof0.rate < rx0.wEnd ∧ b.headerOk = true ∧ (onuOf s 0 0).onuId = some b.onuId ∧ (pierOf s 0 0).los = false ∧
      (onuOf s 0 0).onuId.getD (allOnus 0) ≠ 4) ∧
    (let r := { rx0 with accepted := true }; (pierOf (pier0 0 { rx := some r }) 0 0).rx = some r ∧ r.ended = false ∧ r.due.grant.allocs = [] ∧ r.due.grant.kind = 0) := by decide +kernel

theorem witness_bursts_missed_and_ended : (pierOf up 0 0).rxOn = false ∧ firstDue up 0 0 [] = none ∧ (pierOf up 0 0).rx = none ∧
    (let s := pier0 0 { rxOn := true, due := [due0] }; firstDue s 0 0 (pierOf s 0 0).due = some (due0, []) ∧ due0.grant.onu = some 0 ∧ due0.grant.kind = 0) ∧
    (let s (r : Rx) := upPon fun p => { p with piers := [(0, { profs := [(0, prof0)], rx := some r })], onus := [(0, { onuId := some 3 })] }; let none_ := { rx0 with due := { due0 with grant := { grant0 with onu := none, kind := 2 } } };
      (pierOf (s { rx0 with deaf := true }) 0 0).rx = some { rx0 with deaf := true } ∧ (pierOf (s { rx0 with ended := true }) 0 0).rx = some { rx0 with ended := true } ∧ rx0.deaf = false ∧
      ((pierOf (s none_) 0 0).rx = some none_ ∧ none_.due.grant.onu = none ∧ none_.accepted = false ∧ none_.ended = false ∧ allOnus 0 = 1023) ∧
      rx0.wEnd ≤ rx0.w0 + ((1000000 : Nat) : Rat) * bitPs 0 prof0.rate ∧ (⟨12, 3, false, false, false⟩ : BurstHead).headerOk = false ∧ (⟨12, 4, true, false, false⟩ : BurstHead).onuId ≠ 3 ∧
      ({ none_ with accepted := true } : Rx).accepted = true ∧ ({ rx0 with accepted := true } : Rx).due.grant.onu = some 0 ∧ ({ rx0 with accepted := true } : Rx).due.grant.kind = 0) ∧
    (onuOf (onu0 { splice := { valid := true } }) 0 0).splice.valid = true := by decide +kernel

theorem witness_BurstContentsAreTaken : (let r := { rx0 with accepted := true }; let s := pier0 2 { rx := some r }; rxOnu s 0 2 = some ((0 : OnuIx).val, due0)) ∧
    (let r := { rx0 with accepted := true }; let s := pier0 1 { rx := some r, profs := [(0, prof0)] }; rxOnu s 0 1 = some ((0 : OnuIx).val, due0) ∧ due0.prof = some prof0 ∧ prof0.fec = true ∧
      s.boot.ready = true ∧ (spanOf s 0).standby = false) ∧
    (let s := upPon fun p => { p with piers := [(0, { rx := some { rx0 with accepted := true } })], onus := [(0, { st := .active, onuId := some 7 })] }; let f : GemUp := ⟨0, 9, true, false, false, 0, 0, [1]⟩;
      f.overlapBad = false ∧ f.headerOk = true ∧ f.idle = false ∧ allocOf s 0 f.alloc = none ∧ openUp s 0 0 0 f.keyIx (counterBlock 0 due0.frame f.pos) f.payload = some [1] ∧
      (onuOf s 0 0).st = .active ∧ (onuOf s 0 0).onuId ≠ some f.portId) := by decide +kernel

theorem witness_reports_and_messages_are_taken : rxOnu up 0 0 = none ∧
    (let d : Due := { due0 with prof := some { prof0 with fec := false } }; let s := { pier0 1 { rx := some { rx0 with due := d, accepted := true } } with boot := { ready := true } };
      rxOnu s 0 1 = some ((0 : OnuIx).val, d) ∧ ∀ f, d.prof = some f → f.fec = false) ∧
    (let s := pier0 2 { rx := some { rx0 with accepted := true } }; let m (t : Byte) : List Byte := let b := [7, t] ++ List.replicate 10 0; b ++ [crc8 b]; rxOnu s 0 2 = some ((0 : OnuIx).val, due0) ∧
      ploamOk s 0 2 0 (m 2) = true ∧ isReply (ploamType 2 (m 2)) = true ∧ ploamOk s 0 2 0 (m 4) = true ∧ isReply (ploamType 2 (m 4)) = false ∧ s.boot.ready = true ∧ (spanOf s 0).standby = false ∧
      ploamOk s 0 2 0 (m 3) = true ∧ isDyingGasp 2 (ploamType 2 (m 3)) = true ∧ ploamOk s 0 2 0 [] = false ∧ (511 : OnuIx) ≠ 0) ∧
    (let s := upPon fun p => { p with piers := [(1, { rx := some { rx0 with accepted := true } })], onus := [(0, { st := .active, onuId := some 7, pier := 1 })], allocs := [(5, { alloc0 with pier := 1 })] };
      let f : GemUp := ⟨5, 7, true, false, false, 3, 0, [1]⟩; rxOnu s 0 1 = some ((0 : OnuIx).val, due0) ∧ (allocOf s 0 f.alloc).isSome = true ∧ f.overlapBad = false ∧ f.headerOk = true ∧ f.idle = false ∧ openUp s 0 0 1 f.keyIx (counterBlock 1 due0.frame f.pos) f.payload = none ∧
      openUp s 0 0 1 0 (counterBlock 1 due0.frame f.pos) f.payload = some [1] ∧ (onuOf s 0 0).onuId = some f.portId ∧ (spanOf s 0).standby = false ∧ puntFn s (onuOwner s 0 0) = some 0 ∧
      (let t := upCtl fun x => { x with onuRanges := [(32, (0, 1))], slices := [0, 1] }; puntFn t (onuOwner t 0 0) = none) ∧ ({ f with overlapBad := true } : GemUp).overlapBad = true ∧
      ({ f with headerOk := false } : GemUp).headerOk = false ∧ ({ f with idle := true } : GemUp).idle = true) := by decide +kernel

/-- Whether an ONU of the G-pier uses FEC is open: one of the two clauses applies whatever it is. -/
theorem witness_g_pier_fec : (let s := pier0 2 { rx := some { rx0 with accepted := true } }; rxOnu s 0 2 = some ((0 : OnuIx).val, due0)) ∧ (Config.onuFec 0 0 = false ∨ Config.onuFec 0 0 = true) :=
  ⟨by decide +kernel, by cases Config.onuFec 0 0 <;> simp⟩

theorem witness_DefectsAndPierTimersAct : (let s := up; let x := onuOf s 0 0; x.sd.n < 10 * 10 ^ (pierOf s 0 0).sdExp ∧ x.sd.windows + 1 < 60 ∧ x.sf.n < 10 * 10 ^ (pierOf s 0 0).sfExp ∧ x.sf.windows + 1 < 6000) ∧
    (let x := onuOf (onu0 { sd := { n := 100000 }, sf := { n := 10000 } }) 0 0; 10 * 10 ^ (pierOf up 0 0).sdExp ≤ x.sd.n ∧ 10 * 10 ^ (pierOf up 0 0).sfExp ≤ x.sf.n) ∧
    (let s := onu0 { spliceOk := true, splice := { valid := true } }; let t := { s with tb := 50 * 1000 * us }; (onuOf t 0 0).spliceOk = true ∧ spliceOkNow t 0 0 = false) ∧
    (let s := onu0 { st := .active, defects := 1 }; (onuOf s 0 0).defects.getLsbD 0 = true ∧ (pierOf s 0 0).lobDeact ≠ 0 ∧ activates s 0 = true) ∧
    (onuOf (onu0 { defects := 32 }) 0 0).defects.getLsbD 5 = true ∧
    (let s := onu0 { st := .active, ploamWait := true, ploamMiss := 1 }; (onuOf s 0 0).ploamWait = true ∧ activates s 0 = true ∧ (onuOf s 0 0).ploamMiss < 2 ∧ 2 ≤ (onuOf (onu0 { ploamMiss := 2 }) 0 0).ploamMiss) ∧
    (let c : Corr := ⟨1, 3, true, false⟩; (onuOf (onu0 { corr := some c }) 0 0).corr = some c ∧ c.carried = true ∧ 3 ≤ c.sends ∧ ({ c with sends := 2 } : Corr).sends < 3) ∧
    (let s := upLane fun l => { l with lanes := [(32, { st := .on })] }; laneAwake s 32 = true ∧ (laneOf s 32).txLol = false) ∧
    (let s := { pier0 0 { txLol := true } with lane := { lanes := [(32, { txLol := true })] } }; (laneOf s 32).txLol = true ∧ (pierOf s 0 0).txLol = true) ∧
    (laneOf (upLane fun l => { l with lanes := [(31, { txLol := true })] }) 31).txLol = true := by decide +kernel

theorem witness_defect_timers_find_nothing : (let x := onuOf (onu0 { sd := { windows := 59 }, sf := { windows := 5999 } }) 0 0; x.sd.n < 10 * 10 ^ (pierOf up 0 0).sdExp ∧ 60 ≤ x.sd.windows + 1 ∧ x.sf.n < 10 * 10 ^ (pierOf up 0 0).sfExp ∧ 6000 ≤ x.sf.windows + 1) ∧
    spliceOkNow up 0 0 = (onuOf up 0 0).spliceOk ∧ (let s := onu0 { splice := { valid := true }, spliceAt := 1 }; (onuOf s 0 0).spliceOk = false ∧ spliceOkNow s 0 0 = true) ∧
    (onuOf up 0 0).st ≠ .active ∧ (onuOf up 0 0).defects.getLsbD 0 = false ∧ (onuOf up 0 0).defects.getLsbD 5 = false ∧ activates up 0 = false ∧
    (let s := onu0 { st := .active, ploamWait := true, ploamMiss := 2 }; (onuOf s 0 0).st = .active ∧ (onuOf s 0 0).ploamWait = true ∧ activates s 0 = true ∧ 2 ≤ (onuOf s 0 0).ploamMiss) ∧
    (let c : Corr := ⟨1, 1, true, false⟩; let m : Meas := ⟨0, 0⟩; let x := onuOf (onu0 { corr := some c, meas := some m }) 0 0; x.corr = some c ∧ c.carried = true ∧ x.meas = some m) ∧ (onuOf up 0 0).corr = none ∧
    laneAwake up 31 = false ∧ (28 ≤ (31 : LaneIx).val ∧ (31 : LaneIx).val < 32) ∧ (let s := upLane fun l => { l with lanes := [(27, { st := .on })] }; laneAwake s 27 = true ∧ (laneOf s 27).txLol = false) ∧ (laneOf up 0).txLol = false ∧
    (let s : Machine.State := { up with lane := { lanes := [(32, { txLol := true })] } }; (laneOf s 32).txLol = true ∧ (pierOf s 0 0).txLol = false) ∧ kget (spanOf up 0).disc 63 = none ∧
    (let d : DiscEntry := ⟨1, 0, 0, 6, some 0⟩; let s := upPon fun p => { p with spans := [(0, { disc := [(0, d)], standby := true, paired := true })] }; kget (spanOf s 0).disc 0 = some d ∧ d.onu = some 0 ∧ (onuOf s 0 0).st ≠ .held ∧ (spanOf s 0).standby = true) ∧
    (pierOf up 0 0).search = none := by decide +kernel

theorem witness_pier_timers : (let d : DiscEntry := ⟨1, 0, 0, 1, none⟩; kget (spanOf (sp0 { disc := [(63, d)] }) 0).disc 63 = some d ∧ d.onu = none) ∧
    (let d : DiscEntry := ⟨1, 0, 0, 6, some 0⟩; let s := upPon fun p => { p with spans := [(0, { disc := [(0, d)] })], onus := [(0, { st := .held })] };
      kget (spanOf s 0).disc 0 = some d ∧ d.onu = some 0 ∧ (onuOf s 0 0).st = .held) ∧
    (let r : RogueSearch := ⟨[0], [0], [0]⟩; let s := upPon fun p => { p with piers := [(0, { search := some r })], onus := [(0, { st := .disabled })] };
      (pierOf s 0 0).search = some r ∧ r.half = [0] ∧ (onuOf s 0 0).st = .disabled ∧ r.suspects = r.half) := by decide +kernel

theorem witness_rogue_search_goes_on : (let r : RogueSearch := ⟨[0, 1], [0], [0]⟩; let s (b st : Bool) := upPon fun p => { p with spans := [(0, { standby := st })], piers := [(0, { search := some r, rogue := b })] };
      (pierOf (s true true) 0 0).search = some r ∧ (spanOf (s true true) 0).standby = true ∧ (spanOf (s true false) 0).standby = false ∧ (pierOf (s true false) 0 0).rogue = true ∧
      (r.suspects.filter fun o => !r.half.contains o) = [1] ∧ r.half = [0]) ∧
    (let r : RogueSearch := ⟨[0, 1, 2], [0], [0]⟩; (r.suspects.filter fun o => !r.half.contains o) = 1 :: 2 :: []) ∧ (let r : RogueSearch := ⟨[0], [0], [0]⟩; (r.suspects.filter fun o => !r.half.contains o) = []) := by decide +kernel

theorem witness_OnusActivateAndLeave : (let e : Expected := ⟨0, 7, true, false, []⟩; let s := { onu0 { expect := some e } with pon := { spans := [(0, { st := .opened })], piers := [(0, { hRates := 4 })], onus := [(0, { expect := some e })] } };
      activates s 0 = true ∧ rateAdmitted s 0 0 2 = true ∧ ((onusOf s 0).find? fun i => let y := onuOf s 0 i; y.serial = 7 && y.st ≠ .inactive && y.st ≠ .held) = none ∧
      ((onusOf s 0).find? fun i => match (onuOf s 0 i).expect with | some e => e.serial = 7 && e.pier = (0 : PierIx).val | none => false) = some (0 : OnuIx).val ∧
      (onuOf s 0 0).expect = some e ∧ e.auto = true ∧ ({ e with auto := false } : Expected).auto = false ∧ (onuOf s 0 0).accepted = false) ∧
    (let m : Meas := ⟨0, 0⟩; let s := onu0 { st := .ranging, meas := some m }; (onuOf s 0 0).st = .ranging ∧ (onuOf s 0 0).meas = some m ∧ activates s 0 = true ∧
      m.w0 + ((0 : Nat) : Rat) / 64 * bitPs 0 0 - m.ref ≤ ((1000 * (pierOf s 0 0).teqd : Nat) : Rat) ∧ (onuOf s 0 0).defects.getLsbD 7 = false ∧
      ((1000 * (pierOf s 0 0).teqd : Nat) : Rat) < m.w0 + ((1 : Nat) : Rat) / 64 * bitPs 0 0 - m.ref) ∧
    (let e : Expected := ⟨0, 7, true, true, List.replicate 36 1⟩; let s := onu0 { st := .registering, expect := some e }; (onuOf s 0 0).st = .registering ∧ (onuOf s 0 0).matched = false ∧ activates s 0 = true ∧
      (onuOf s 0 0).expect = some e ∧ regMatches 0 e (List.replicate 36 1) = true ∧ regMatches 0 e [] = false ∧ (onuOf s 0 0).regTries < 3 ∧ 3 ≤ (onuOf (onu0 { regTries := 3 }) 0 0).regTries) ∧
    (let s := onu0 { st := .deactivating }; (onuOf s 0 0).st = .deactivating ∧ leaving s 0 0 = false ∧ (spanOf s 0).st = .opened ∧ (spanOf s 0).standby = false ∧ (spanOf s 0).discPeriod ≠ 0) ∧
    (upRed fun r => { r with lan := { r.lan with asked := [(7, 0)] } }).red.lan.asked.contains ((7 : BitVec 64).toNat, 0) = true ∧
    (let m : Meas := ⟨0, 0⟩; let x := onuOf (onu0 { st := .active, meas := some m }) 0 0; x.meas = some m ∧ x.st = .active ∧ (spanOf (sp0 { standby := true }) 0).standby = true) := by decide +kernel

theorem witness_serial_numbers_are_judged : (let s (v : Span) (os : KMap Onu) := upPon fun p => { p with spans := [(0, { v with st := .opened })], piers := [(0, { hRates := 4, rxOn := true })], onus := os };
      (pierOf (s {} []) 0 0).rxOn = true ∧ rateAdmitted (s {} []) 0 0 2 = true ∧ rateAdmitted (s {} []) 0 0 1 = false ∧ (pierOf up 0 0).rxOn = false ∧ activates (s {} []) 0 = true ∧ activates (s { standby := true } []) 0 = false ∧
      (let t := cnt (cSpan 1 0) 1 (s {} [(0, { serial := 7, st := .active })]); ((onusOf t 0).find? fun i => let y := onuOf t 0 i; y.serial = 7 && y.st ≠ .inactive && y.st ≠ .held) = some 0) ∧
      (let t := cnt (cSpan 1 0) 1 (s {} [(0, { expect := some ⟨2, 7, true, false, []⟩ })]); ((onusOf t 0).any fun i => match (onuOf t 0 i).expect with | some e => e.serial = 7 | none => false) = true ∧
        ((onusOf t 0).find? fun i => match (onuOf t 0 i).expect with | some e => e.serial = 7 && e.pier = 0 | none => false) = none ∧ discRoom t 0 7 0 = true) ∧
      (let t := cnt (cSpan 1 0) 1 (s { policy := 2 } []); (spanOf t 0).policy = 2 ∧ discRoom t 0 7 0 = true ∧ ((spanOf t 0).disc.find? fun y => y.2.serial = 7 && y.2.pier = 0) = none) ∧
      (let t := cnt (cSpan 1 0) 1 (s { policy := 2, disc := [(0, ⟨7, 0, 0, 5, none⟩)] } []); ((spanOf t 0).disc.find? fun y => y.2.serial = 7 && y.2.pier = 0).map (·.2.cause) = some 5) ∧
      (spanOf (cnt (cSpan 1 0) 1 (s { policy := 0 } [])) 0).policy = 0 ∧ (spanOf (cnt (cSpan 1 0) 1 (s { policy := 1 } [])) 0).policy = 1 ∧
      discRoom (s { disc := (List.range 64).map fun n => (n, ⟨100 + BitVec.ofNat 64 n, 0, 0, 1, none⟩) } []) 0 7 0 = false) ∧
    (onuOf up 0 0).st ≠ .ranging ∧ (onuOf up 0 0).st ≠ .registering ∧ (onuOf up 0 0).st ≠ .deactivating ∧ (onuOf up 0 0).meas = none ∧ (spanOf up 0).st ≠ .opened ∧
    (let s := onu0 { st := .deactivating, disableAfter := true }; (onuOf s 0 0).disableAfter = true ∧ leaving s 0 0 = false) ∧ up.red.lan.asked.contains ((7 : BitVec 64).toNat, 0) = false ∧
    (let m : Meas := ⟨0, 0⟩; let s := onu0 { st := .registering, meas := some m }; (onuOf s 0 0).meas = some m ∧ (onuOf s 0 0).st = .registering ∧ (spanOf s 0).standby = false) := by decide +kernel

theorem witness_OnuKeysRoll : (let s := keys0 { exchange := true } { st := .active, onuId := some 1 }; (spanOf s 0).standby = false ∧ (onuOf s 0 0).defects.getLsbD 4 = false ∧ (onuKeys s 0 0).exchange = true ∧
      (onuOf s 0 0).st = .active ∧ (onuOf s 0 0).pier ≠ 2) ∧
    (let s := keys0 { exchange := true } { st := .active, pier := 2 }; (onuOf s 0 0).pier = 2 ∧
      16 ≤ ((kset (onuKeys (replied 0 0 s) 0 0).frags 0 (List.replicate 16 1)).flatMap (·.2)).length) ∧
    (let s := { keys0 { s1 := { st := .active, at_ := some 0 } } {} with ciph := { onus := [(0, { s1 := { st := .active, at_ := some 0 } })], piers := [(0, { autoRoll := false })] } }; let k := onuKeys s 0 0; let c := pierKeys s 0 0; let t := { s with tb := (c.life - c.margin) * frameTb };
      1 = ixIn k.s1 k.s2 .active ∧ c.margin ≠ 0 ∧ (k.slot 1).aged (c.life - c.margin) (frameNo t) = true ∧ (k.slot 1).told = false ∧ c.autoRoll = false ∧
      (let u := { s with tb := c.life * frameTb }; (k.slot 1).aged c.life (frameNo u) = true ∧ (k.slot (3 - 1)).due (frameNo u) = false)) ∧
    (let s := { keys0 { s2 := { st := .retiring, at_ := some 0 } } {} with tb := 8000 * frameTb }; let k := onuKeys s 0 0; 2 = ixIn k.s1 k.s2 .retiring ∧ (k.slot 2).at_ = some 0 ∧ 0 + (pierKeys s 0 0).retire ≤ frameNo s) ∧
    (onuKeys (keys0 { s1 := { st := .next, ack := some 0 } } {}) 0 0).waits ≠ none := by decide +kernel


theorem witness_onu_keys_have_nothing_to_do : (spanOf (sp0 { standby := true }) 0).standby = true ∧
    (let s := keys0 {} { st := .active }; let t := replied 0 0 s; (onuKeys t 0 0).exchange = false ∧ (onuKeys s 0 0).exchange = false) ∧
    (let s := keys0 { exchange := true } { st := .active, pier := 2 }; let t := replied 0 0 s; (onuKeys t 0 0).exchange = true ∧ (onuOf t 0 0).st = .active ∧ (onuOf t 0 0).pier = 2 ∧
      ((onuKeys (modOnuKeys 0 0 (fun k => { k with frags := kset k.frags 0 [1] }) t) 0 0).frags.flatMap (·.2)).length < 16 ∧ claimIx (onuKeys t 0 0) ≠ 0) ∧
    (let k := onuKeys up 0 0; ixIn k.s1 k.s2 .active = 0 ∧ ixIn k.s1 k.s2 .retiring = 0 ∧ k.waits = none) ∧
    (let s := keys0 { s1 := { st := .active, at_ := some 0 } } { st := .active }; let k := onuKeys s 0 0; let c := pierKeys s 0 0; let t := { s with tb := (c.life - c.margin) * frameTb };
      c.autoRoll = true ∧ k.exchange = false ∧ (onuOf (keyEvent 0 0 0 1 (setOnuKeys 0 0 (k.put 1 { k.slot 1 with told := true }) t)) 0 0).st = .active ∧ (k.slot 1).aged (c.life - c.margin) (frameNo t) = true ∧
      (k.slot 1).aged (c.life - c.margin) (frameNo s) = false) ∧
    (let s := keys0 { s2 := { st := .retiring, at_ := some 1 } } {}; let k := onuKeys s 0 0; (k.slot 2).at_ = some 1 ∧ frameNo s < 1 + (pierKeys s 0 0).retire) ∧
    (let k : OnuKeys := { s1 := { st := .active, at_ := some 0 }, s2 := { st := .next, at_ := some 0 } }; (k.slot (3 - 1)).due 0 = true) := by decide +kernel

theorem witness_SpansOpenAndClose : (let s := { up with pwr := { doms := [(0, { st := .on })] }, pon := { piers := [(0, { enable := true })] }, lane := { lanes := [(32, { st := .on })] }, opt := { piers := [(0, { st := .lit })] } };
      ready spanOpenSpec [0] s = true ∧ fld (0 : Word) 4 0 = (0 : SpanIx).val ∧ (spanOf s 0).st = .closed ∧ mayOpen s 0 = true ∧ mayOpen up 0 = false ∧
      (let v : Span := { st := .closing, phase := 3, openPending := true }; let u := { s with pon := { s.pon with spans := [(0, v)] } }; spanOf u 0 = v ∧ mayOpen (spanClosed 0 u) 0 = true)) ∧
    ready spanOpenSpec [31] up = true ∧ fld (31 : Word) 4 0 = (31 : SpanIx).val ∧ (spanOf (sp0 { st := .closing }) 0).st = .closing ∧
    (ready spanCloseSpec [0] up = true ∧ (spanOf up 0).st = .closed ∧ ready spanCloseSpec [0] (sp0 { st := .opened }) = true ∧ (spanOf (sp0 { st := .opened }) 0).st = .opened) ∧
    (let v := spanOf (sp0 { st := .opening }) 0; v.st = .opening ∧ v.phase = 0) ∧ (let v := spanOf (sp0 { st := .opening, phase := 1 }) 0; v.st = .opening ∧ v.phase = 1) ∧
    (let v := spanOf (sp0 { st := .closing, phase := 1 }) 0; v.st = .closing ∧ v.phase < 2) ∧ (spanOf (sp0 { st := .closing, phase := 2 }) 0).phase = 2 ∧
    (let v := spanOf (sp0 { st := .closing, phase := 3 }) 0; v.phase = 3 ∧ v.openPending = false) := by decide +kernel

theorem witness_span_phases_are_kept : ready spanOpenSpec [31] (upPon fun p => { p with spans := [(31, { st := .opening })] }) = true ∧ (spanOf (sp0 { st := .opening }) 0).st = .opening ∧ ready spanCloseSpec [0] (sp0 { st := .closing }) = true ∧ (spanOf up 0).st ≠ .opening ∧ (spanOf up 0).st ≠ .closing ∧
    (let v := spanOf (sp0 { st := .closing, openRef := some ref0 }) 0; v.st = .closing ∧ v.openRef ≠ none ∧ v.phase = 0) ∧ (spanOf (sp0 { st := .opening, phase := 1 }) 0).phase ≠ 0 ∧
    (let v := spanOf (sp0 { st := .opening }) 0; v.phase ≠ 1 ∧ v.granting = false) ∧ 2 ≤ (spanOf (sp0 { st := .closing, phase := 2 }) 0).phase ∧ (spanOf (sp0 { st := .closing, phase := 1 }) 0).phase ≠ 2 ∧
    (let s := sp0 { st := .closing, phase := 3, openPending := true }; (spanOf s 0).openPending = true ∧ mayOpen (spanClosed 0 s) 0 = false) := by decide +kernel

/-- A state whose Span 0 is open, with its Truss as given. -/
def truss0 (t : Truss) : Machine.State := sp0 { st := .opened, truss := t }
def call0 : OpenCall := ⟨0, 0, 0, false, 0, 1, 0, true, 0⟩

theorem witness_TrussesRunTheirRoutine :
    (let s := upPon fun p => { p with spans := [(0, { truss := { running := true } })], piers := [(2, { staging := { entries := [⟨0, 0, 0, false, 0, 0, 0⟩] } })] }; (trussOf s 0).running = true ∧ emptyEntry s 0 = true) ∧
    (let s := truss0 { running := true }; (trussOf s 0).running = true ∧ emptyEntry s 0 = false ∧ (trussOf s 0).writes = [] ∧ (trussOf s 0).call = none) ∧
    (let s := truss0 { running := true, cursor := .prologue }; let t := trussOf s 0; t.running = true ∧ t.cursor ≠ .done ∧ t.entry = 0 ∧ t.finished = false ∧ (spanOf s 0).finishLead ≠ 0 ∧ t.call = none ∧ t.cursor = .prologue ∧
      reservedWord (BitVec.allOnes 192).toNat = true) ∧
    (let s := truss0 {}; (spanOf s 0).st ≠ .closed ∧ (spanOf s 0).standby = false ∧ (trussOf s 0).running = false) ∧
    (let s := truss0 { running := true, cursor := .pass1 [], call := some call0 }; let t := trussOf s 0; t.entry = 0 ∧ t.call = some call0 ∧ t.running = true ∧ t.cursor ≠ .done ∧
      inCall t = some call0 ∧ call0.limit < call0.steps + wordCost (storeWord t t.addr).toNat ∧ reservedWord (storeWord t t.addr).toNat = false) ∧
    (trussOf (truss0 { cursor := .pass1 [3] }) 0).cursor = .pass1 (3 :: []) ∧ (trussOf (truss0 { cursor := .epilogue }) 0).cursor = .epilogue := by decide +kernel

theorem witness_truss_words_run : (trussOf up 0).running = false ∧ (trussOf up 0).entry = 0 ∧ (spanOf up 0).st = .closed ∧ inCall (trussOf up 0) = none ∧
    (trussOf (truss0 { running := true, cursor := .prologue, finished := true }) 0).finished = true ∧ (trussOf (truss0 { entry := 8, running := true }) 0).entry = 8 ∧ (trussOf (truss0 { entry := 16 }) 0).entry = 16 ∧
    (let t := trussOf (truss0 { running := true, cursor := .prologue }) 0; t.running = true ∧ t.cursor ≠ .done ∧ t.entry = 0 ∧ t.call = none ∧ inCall t = none) ∧
    (let t := trussOf (truss0 { running := true, cursor := .prologue, store := [BitVec.allOnes 192] }) 0; t.running = true ∧ t.cursor ≠ .done ∧ inCall t = none ∧ reservedWord (storeWord t t.addr).toNat = true) ∧
    (let t := trussOf (truss0 { entry := 8, addr := 8, running := true }) 0; let n := (storeWord t t.addr).toNat; t.entry ≠ 0 ∧ inCall t = none ∧ reservedWord n = false ∧ nfld n 101 98 = 0 ∧ nfld n 178 176 = 0 ∧ nfld n 142 142 = 0) ∧
    (let t := trussOf (truss0 { running := true, cursor := .pass1 [], call := some call0, page := some ⟨[BitVec.allOnes 192], [0], []⟩, addr := 0x1800 }) 0; inCall t = some call0 ∧ inCall t ≠ none ∧ reservedWord (storeWord t t.addr).toNat = true) := by decide +kernel

theorem witness_SpanReadsAnswer : ready spanStatusSpec [31] up = true ∧ (ready onuDefectReadSpec [0x1FF001F] up = true ∧ (needOnu up 0 0x1FF001F).toOption = some ()) ∧
    (ready spliceReadSpec [0x1FF1F00] up = true ∧ fld (0x1FF1F00 : Word) 1 0 = 0) ∧
    (let s := onu0 { st := .active }; ready onuStateReadSpec [0] s = true ∧ (needOnu s 0 0).toOption = some () ∧ (onuOf s (fld (0 : Word) 4 0) (fld (0 : Word) 24 16)).st ≠ .inactive ∧
      ready onuRangeReadSpec [0] s = true ∧ (onuOf s (fld (0 : Word) 4 0) (fld (0 : Word) 24 16)).st = .active) ∧
    ready discListReadSpec [0x3F1F] up = true ∧ ready reachReadSpec [31] up = true ∧
    (let s := sp0 { paired := true, standby := true }; ready stbyDeltaReadSpec [2] s = true ∧ fld (2 : Word) 1 0 ≤ 2 ∧ (spanOf s (fld (2 : Word) 12 8)).paired = true ∧
      (spanOf s (fld (2 : Word) 12 8)).standby = true ∧ deltaC s (fld (2 : Word) 12 8) (fld (2 : Word) 1 0) = none) := by decide +kernel

theorem witness_span_reads_refused : Served onuDefectReadSpec (call1 [0]) foreign ∧ (needOnu foreign 1 0).toOption = none ∧ Served onuStateReadSpec (call1 [0]) foreign ∧ Served onuRangeReadSpec (call1 [0]) foreign ∧
    ready spliceReadSpec [2] up = true ∧ fld (2 : Word) 1 0 ≠ 0 ∧ (let s := onu0 {}; ready onuRangeReadSpec [0] s = true ∧ (needOnu s 0 0).toOption = some () ∧ (onuOf s 0 0).st ≠ .registering ∧ (onuOf s 0 0).st ≠ .active ∧ (onuOf s 0 0).st ≠ .deactivating) ∧
    (ready stbyDeltaReadSpec [3] up = true ∧ 2 < fld (3 : Word) 1 0 ∧ ready stbyDeltaReadSpec [2] up = true ∧ (spanOf up 0).paired = false ∧ (spanOf (sp0 { paired := true }) 0).standby = false) := by decide +kernel

theorem witness_AllocationAndOpenBankCalls :
    (let a : Alloc := alloc0;
      let s := upPon fun p => { p with allocs := [(2047, a)] }; ready allocReadSpec [0x7FF0000] s = true ∧ (needAlloc s 0 0x7FF0000).toOption = some () ∧
      allocOf s (fld (0x7FF0000 : Word) 4 0) (fld (0x7FF0000 : Word) 26 16) = some a) ∧
    (ready sliceBudgetReadSpec [0x1F] up = true ∧ (readsSlice up 0 (fld (0x1F : Word) 19 16)).toOption = some ()) ∧ ready trussStatusSpec [31] up = true ∧ ready openStatusSpec [] up = true ∧
    ready openStatsSpec [0x1F] up = true ∧ (readsSlice up 0 15).toOption = none ∧
    (let s := upBoot fun b => { b with ownerState := 1 }; ready openLoadSpec [0, 0, 344] s = true ∧ s.ctl.txns = [] ∧ 344 ≤ fld (pw [0, 0, 344] 2) 15 0 ∧ fld (pw [0, 0, 49472] 2) 15 0 ≤ 49472 ∧ s.boot.ownerState = 1 ∧
      up.boot.ownerState ≠ 1) := by decide +kernel

theorem witness_allocation_calls_refused : Served allocReadSpec (call1 [0]) foreign ∧ (needAlloc foreign 1 0).toOption = none ∧ ready allocReadSpec [0] up = true ∧ (needAlloc up 0 0).toOption = some () ∧ allocOf up 0 0 = none ∧
    Served sliceBudgetReadSpec (call1 [0]) foreign ∧ (readsSlice foreign 1 0).toOption = none ∧ Served openStatsSpec (call1 [0]) foreign ∧
    (let s := upPon fun p => { p with active := some ⟨[0], [0], []⟩, openOff := false }; (if s.pon.openOff then none else s.pon.active) = some ⟨[0], [0], []⟩) ∧ (if up.pon.openOff then none else up.pon.active) = none ∧
    (let s := upCtl fun x => { x with txns := [{ txn0 with phase := .accepted 9, items := [{ item [] with code := 0x0602 }] }] }; ready openLoadSpec [0, 0, 344] s = true ∧
      (s.ctl.txns.any fun t => (acceptedAt t).isSome && t.items.any fun i => i.code = 0x0602) = true) ∧ (let s := upBoot fun b => { b with ownerState := 1 }; ready openLoadSpec [0, 0, 343] s = true ∧ fld (343 : Word) 15 0 < 344 ∧ ready openLoadSpec [0, 0, 49473] s = true ∧ 49472 < fld (49473 : Word) 15 0 ∧ s.boot.ownerState = 1) := by decide +kernel

theorem witness_TimebaseServoAndHostControl : (let t (f : TimeBase → TimeBase) := (upTime f).time;
      (t fun t => { t with cfg := { t.cfg with host := true } }).cfg.host = true ∧ (t fun t => { t with st := .holdover }).st = .holdover ∧ up.time.st = .freerun ∧
      (let x := t fun t => { t with st := .freqLocked, goodRun := 15 }; x.cfg.host = false ∧ x.st ≠ .freerun ∧ x.st ≠ .holdover ∧ x.st = .freqLocked ∧ (10000 : Int).natAbs ≤ 1000 * x.cfg.phaseLock ∧ 16 ≤ x.goodRun + 1) ∧
      (t fun t => { t with st := .locked }).st = .locked ∧ (t fun t => { t with st := .acquiring }).st = .acquiring ∧ (t fun t => { t with st := .host }).st = .host ∧
      (t fun t => { t with cfg := { t.cfg with phaseSrc := 2 } }).cfg.phaseSrc = 2 ∧ up.time.cfg.phaseSrc ≠ 2 ∧ up.time.st ≠ .acquiring) ∧
    (let s := upTime fun t => { t with cfg := { t.cfg with freqSrc := 1 }, qlLow := true }; freqGone s = true ∧ s.time.cfg.host = false ∧ s.time.cfg.freqSrc ≠ 0 ∧ s.time.freqLost = false) ∧ (up.time.cfg.freqSrc ≠ 2 ∧ freqGone up = false) ∧
    (let s := { upTime fun t => { t with cfg := { t.cfg with phaseSrc := 1 } } with tb := 5000 * msTb }; phaseGone s = true ∧ s.time.cfg.host = false ∧ s.time.cfg.phaseSrc ≠ 0 ∧ s.time.phaseLost = false) ∧ phaseGone up = false ∧
    (let s := upTime fun t => { t with freqLost := true, phaseLost := true }; s.time.cfg.host = false ∧ s.time.freqLost = true ∧ freqGone s = false ∧ s.time.phaseLost = true ∧ phaseGone s = false) ∧ up.time.freqLost = false ∧ up.time.phaseLost = false ∧
    (let t := (upTime fun t => { t with slew := some 5 }).time; t.slew = some 5 ∧ slewRate t ≠ 0) ∧ up.time.slew = none := by decide +kernel

theorem witness_host_control_calls : (let s := upTime fun t => { t with cfg := { t.cfg with host := true } }; ready timeFreqAdjustSpec [15000000] s = true ∧ -15000000 ≤ (15000000 : Word).toInt ∧ (15000000 : Word).toInt ≤ 15000000 ∧ s.time.cfg.host = true ∧
      ready timeFreqAdjustSpec [15000001] s = true ∧ 15000000 < (15000001 : Word).toInt ∧ (-15000001 : Word).toInt < -15000000 ∧ ready timePhaseSlewSpec [0x80000000] s = true) ∧ ready timeFreqAdjustSpec [0] up = true ∧ up.time.cfg.host = false ∧ up.time.cfg.phaseSrc = 0 ∧
    (let s := upTime fun t => { t with cfg := { t.cfg with phaseSrc := 1 } }; ready timePhaseSlewSpec [1] s = true ∧ ¬(s.time.cfg.host = true ∨ s.time.cfg.phaseSrc = 0)) ∧ (ready timePhaseStepSpec [0, 0, 0] up = true ∧ allClosed up = true) ∧
    (let s := upPon fun p => { p with spans := [(31, { st := .opened })] }; ready timePhaseStepSpec [0, 0, 0] s = true ∧ allClosed s = false) ∧ ready timePhaseSampleSpec [0, 1, 0] up = true ∧ up.time.cfg.phaseSrc ≠ 1 ∧
    (let s := { upTime fun t => { t with cfg := { t.cfg with phaseSrc := 1 } } with tb := 2 ^ 40 }; ready timePhaseSampleSpec [0, 1, 0] s = true ∧ s.time.cfg.phaseSrc = 1 ∧ wide [0, 1, 0] 1 2 ≤ nowNs s ∧ nowNs s < wide [0, 2, 0] 1 2 ∧
      ready timePhaseSampleSpec [0, 2, 0] s = true) := by decide +kernel

/-- A state with one Keystone entry, number 0, and one loop bus, number 0. -/
def key0 (e : KEntry) : Machine.State := upTime fun t => { t with keystone := [(0, e)] }

theorem witness_KeystoneFiresAndTimePinsStamp : (let e : KEntry := { words := [0x80000000, 0, 0, 0, 0] }; let s := key0 e; keyEntry s 0 = some e ∧ keyValid e = true ∧ keyKind e = 0 ∧ e.start ≤ nowNs s ∧
      dueFiring s 0 0 = some (e, 0) ∧ dueFiring s 0 1 = none ∧ slipOf s 0 0 = 0 ∧ e.stopped = false ∧ ready keystoneReadSpec [0] s = true) ∧
    (let x := kgetD (upTime fun t => { t with pins := [(3, { mode := 1, stamps := List.replicate 15 (0, true, 0) })] }).time.pins (3 : Fin 4) {}; x.mode = 1 ∧ x.edge % 2 = 1 ∧ x.stamps.length < 16) ∧
    16 ≤ (kgetD (upTime fun t => { t with pins := [(0, { mode := 1, stamps := List.replicate 16 (0, true, 0) })] }).time.pins 0 {}).stamps.length ∧
    (upTime fun t => { t with st := .locked }).time.st = .locked ∧ (up.time.st ≠ .locked ∧ up.time.st ≠ .holdover ∧ up.time.cfg.ppsForce = false) ∧ ready timeStatusSpec [] up = true ∧
    (ready keystoneReadSpec [2047] up = true ∧ keyEntry up (fld (2047 : Word) 10 0) = none) ∧
    (let s := onu0 { st := .active }; let v : List Word := [0, 64000]; ready todCalcSpec v s = true ∧ (needOwner s 0 (onuOwner s 0 0)).toOption = some () ∧ 16 ≤ fld (pw v 1) 15 0 ∧ fld (pw v 1) 15 0 ≤ 64000 ∧
      -1000 ≤ sgn 16 (fld (pw v 1) 31 16) ∧ sgn 16 (fld (pw v 1) 31 16) ≤ 1000 ∧ bit (pw v 0) 31 = false ∧ (onuOf s 0 0).st = .active ∧ (onuOf s 0 0).pier = fld (pw v 0) 1 0) ∧
    ready timeEvtReadSpec [3] up = true ∧
    (let s := upTime fun t => { t with ptpStamps := [(23, [(5, 7)])] }; let w : List Word := [23, 5]; ready ptpTxtsReadSpec w s = true ∧ fld (pw w 0) 4 0 ≤ 23 ∧
      (kgetD s.time.ptpStamps (fld (pw w 0) 4 0) []).find? (fun e => e.1 = fld (pw w 0) 11 8 * 2 ^ 24 + fld (pw w 0) 23 16 * 2 ^ 16 + fld (pw w 1) 15 0) = some (5, 7)) := by decide +kernel

theorem witness_keystone_entries_wait : keyEntry up 0 = none ∧ dueFiring up 0 0 = none ∧ (let e : KEntry := { words := [0, 0, 0, 0, 0] }; keyEntry (key0 e) 0 = some e ∧ keyValid e = false) ∧
    (let e : KEntry := { words := [0x80000000, 0, 0, 0, 0] }; keyEntry (key0 e) 0 = some e ∧ keyValid e = true ∧ keyKind e = 0 ∧ keyKind e ≠ 1 ∧ bit (pw e.words 0) 27 = false ∧ gridAfter e e.done ≤ nowPs (key0 e)) ∧
    ((kgetD up.time.pins 3 {}).mode ≠ 2 ∧ (kgetD up.time.pins 3 {}).mode ≠ 1 ∧ (kgetD (upTime fun t => { t with pins := [(3, { mode := 2, pulse := some (0, 5) })] }).time.pins 3 {}).mode = 2) ∧
    (let x := kgetD (upTime fun t => { t with pins := [(3, { mode := 1, edge := 2 })] }).time.pins 3 {}; x.mode = 1 ∧ ¬ x.edge % 2 = 1 ∧ x.edge / 2 % 2 = 1) ∧
    (let s := { upTime fun t => { t with st := .locked } with tb := 2 ^ 40 * 1000000000 }; let sec := (nowPs s + s.time.cfg.ppsOutAdv) / secPs; s.time.ppsDone < sec ∧ s.time.st = .locked) ∧
    ((nowPs up + up.time.cfg.ppsOutAdv) / secPs ≤ up.time.ppsDone ∧ up.time.st ≠ .locked ∧ up.time.st ≠ .holdover ∧ up.time.cfg.ppsForce = false) ∧
    (let e : KEntry := { words := [0x80000000, 0, 0, 0, 0] }; ready keystoneReadSpec [0] (key0 e) = true ∧ keyEntry (key0 e) (fld (0 : Word) 10 0) = some e) ∧
    (Served todCalcSpec (call1 [0, 16]) foreign ∧ (needOwner foreign 1 (onuOwner foreign 0 0)).toOption = none ∧ ready todCalcSpec [0, 15] up = true ∧ fld (15 : Word) 15 0 < 16 ∧ fld (64001 : Word) 15 0 > 64000 ∧ sgn 16 (fld (0x03E90010 : Word) 31 16) > 1000) ∧
    (ready todCalcSpec [0, 16] up = true ∧ (onuOf up 0 0).st ≠ .active ∧ bit (0 : Word) 31 = false ∧ ready todCalcSpec [0x80000000, 16] up = true ∧ bit (0x80000000 : Word) 31 = true) ∧
    (ready ptpTxtsReadSpec [24, 0] up = true ∧ 23 < fld (24 : Word) 4 0 ∧ ready ptpTxtsReadSpec [23, 0] up = true ∧ (kgetD up.time.ptpStamps 23 []) = []) := by decide +kernel

/-- A state with loop bus 0 as given. -/
def bus0 (b : Bus) : Machine.State := upOpt fun o => { o with buses := [(0, b)] }

theorem witness_LoopBusesCycle :
    (let e : KEntry := { words := [0x90000000, 0, 0, 0, 0] }; let f : KEntry := { words := [0xA0000000, 0, 0, 0, 0] }; let s := { key0 e with pwr := { doms := [(64, { st := .on })] } };
      keyEntry s 0 = some e ∧ keyValid e = true ∧ e.start ≤ nowNs s ∧ dueFiring s 0 1 = some (e, 0) ∧ domOn s (domLb (fld (pw e.words 1) 2 0)) = true ∧ keyKind e = 1 ∧ bit (pw e.words 0) 27 = false ∧
      keyEntry (key0 f) 0 = some f ∧ keyValid f = true ∧ keyKind f = 2 ∧ domOn (key0 f) (domLb (fld (pw f.words 1) 2 0)) = false) ∧
    (let l := loopOf (bus0 { loops := [(35, { busy := true, awaited := 1 })] }) 0 35; l.busy = true ∧ l.awaited ≠ 0) ∧
    (let f : LFrame := ⟨1, false, 3, 0, 0, none, false, false, some (0, 0, 0), none⟩; let s := bus0 { frame := some f }; (loopBus s 0).frame = some f ∧ f.write = false ∧ (loopBus s 0).readLat.testBit (deviceOf f.conv) = false ∧ f.rssi = some (0, 0, 0)) ∧
    (let f : LFrame := ⟨2, true, 3, 0, 0, none, false, false, none, none⟩; (loopBus (bus0 { frame := some f }) 0).frame = some f ∧ f.write = true ∧ f.loop = none) ∧
    (let f : LFrame := ⟨2, false, 3, 0, 0, some 0, false, true, none, none⟩; (loopBus (bus0 { frame := some f }) 0).frame = some f ∧ f.again = true ∧ f.rssi = none ∧ f.loop = some 0) ∧
    (let l : Loop := { cfg := { outMax := 100, slew := 10, ki := 65536 }, u := 50, i := 50 * 65536 }; let c := l.cfg; let e : Int := 10; let i2 := l.i + c.ki * e; let u0 := c.outBias + roundAway (((c.kp * e + i2 : Int) : Rat) / 65536);
      c.outMin ≤ l.u ∧ l.u ≤ c.outMax ∧ c.outMin ≤ c.outMax ∧ (c.outMin - c.outBias) * 65536 ≤ i2 ∧ i2 ≤ (c.outMax - c.outBias) * 65536 ∧ c.outMin ≤ u0 ∧ u0 ≤ c.outMax ∧ (u0 - l.u).natAbs ≤ c.slew) := by decide +kernel

theorem witness_buses_stand_still : dueFiring up 0 1 = none ∧ dueFiring up 0 2 = none ∧
    (let e : KEntry := { words := [0x90000000, 0, 0, 0, 0] }; let f : KEntry := { words := [0xA0000000, 0, 0, 0, 0] }; dueFiring (key0 e) 0 1 = some (e, 0) ∧ domOn (key0 e) (domLb (fld (pw e.words 1) 2 0)) = false ∧ dueFiring (key0 f) 0 2 = some (f, 0) ∧
      (let s := { key0 f with pwr := { doms := [(64, { st := .on })] } }; dueFiring s 0 2 = some (f, 0) ∧ domOn s (domLb (fld (pw f.words 1) 2 0)) = true)) ∧
    (let e : KEntry := { words := [0x98000000, 0, 0, 0, 0] }; let s := { upTime fun t => { t with keystone := [(0, e)], anchored := [⟨0, keyOnu e, 0, 0⟩] } with pwr := { doms := [(64, { st := .on })] } };
      dueFiring s 0 1 = some (e, 0) ∧ domOn s (domLb (fld (pw e.words 1) 2 0)) = true ∧ bit (pw e.words 0) 27 = true ∧ (onuOf s (keyOnu e / 512) (keyOnu e % 512)).st ≠ .active) ∧
    (loopOf up 0 35).busy = false ∧ (loopBus up 7).frame = none ∧ (let f : LFrame := ⟨2, true, 3, 0, 0, some 1, false, false, none, none⟩; (loopBus (bus0 { frame := some f }) 0).frame = some f ∧ f.write = true ∧ f.loop = some 1) ∧
    (let f : LFrame := ⟨2, false, 3, 0, 0, none, false, false, none, none⟩; let s := bus0 { frame := some f, readLat := 15 }; (loopBus s 0).frame = some f ∧ f.write = false ∧ (loopBus s 0).readLat.testBit (deviceOf f.conv) = true ∧ f.again = false) ∧
    (let f : LFrame := ⟨1, false, 3, 0, 0, none, false, true, none, none⟩; f.write = false ∧ f.again = true ∧ f.rssi = none ∧ f.loop = none) ∧ (let f : LFrame := ⟨1, false, 3, 0, 0, none, false, true, some (0, 5, 0), none⟩; f.again = true ∧ f.rssi = some (0, 5, 0)) := by decide +kernel

theorem witness_OpticsStartStopAndRead : (let s (t : OptSt) := upOpt fun o => { o with piers := [(0, { st := t })] }; (s .stopping).opt.piers = [(0, { st := .stopping })] ∧
      ready opticsStartSpec [0, 0xFFFF] up = true ∧ fld (0 : Word) 1 0 ≤ 2 ∧ (opticOf up 0 0).st = .off ∧ (opticOf (s .stopping) 0 0).st = .stopping ∧ (opticOf (s .stopping) 0 0).startPending = none ∧ (opticOf (s .lit) 0 0).st = .lit ∧
      ready opticsStopSpec [0] up = true ∧ (spanOf up 0).st ≠ .opened ∧ (spanOf up 0).st ≠ .opening ∧ (opticOf (s .fault) 0 0).st = .fault) ∧
    ready opticsFaultClearSpec [0] up = true ∧ (ready opticsStatusSpec [0x1F02] up = true ∧ fld (0x1F02 : Word) 1 0 ≤ 2) ∧ (ready loopReadSpec [0x70023] up = true ∧ fld (0x70023 : Word) 5 0 ≤ 35) ∧
    (ready rssiReadSpec [0x1FF001F] up = true ∧ (needOnu up 0 0x1FF001F).toOption = some ()) ∧ ready convReadSpec [0x7003F] up = true := by decide +kernel


theorem witness_optics_calls_refused : (let s (t : OptSt) := upOpt fun o => { o with piers := [(0, { st := t })] }; ready opticsStartSpec [3, 0] up = true ∧ 2 < fld (3 : Word) 1 0 ∧ ready opticsStopSpec [3] up = true ∧ ready opticsFaultClearSpec [3] up = true ∧ ready opticsStatusSpec [3] up = true ∧
      (opticOf (s .lit) 0 0).st ≠ .off ∧ (opticOf (s .lit) 0 0).st ≠ .stopping ∧ (opticOf (s .lit) 0 0).st = .lit ∧ (opticOf (s .standby) 0 0).st = .standby ∧ (opticOf (s .warming) 0 0).st = .warming ∧ (opticOf up 0 0).st ≠ .fault ∧
      (opticOf (s .fault) 0 0).st = .fault ∧ (spanOf (sp0 { st := .opening }) 0).st = .opening ∧ ready opticsStopSpec [0] (sp0 { st := .opened }) = true) ∧
    (ready loopReadSpec [36] up = true ∧ 35 < fld (36 : Word) 5 0) ∧ (Served rssiReadSpec (call1 [0]) foreign ∧ (needOnu foreign 1 0).toOption = none) := by decide +kernel

/-! ### Witnesses: lanes, forwarding, queues and scheduling -/

/-- A state with lane 0 or one other lane as given, and with domain 48 ON. -/
def lane0 (n : Nat) (x : Lane) : Machine.State := { up with lane := { lanes := [(n, x)] }, pwr := { doms := [(48, { st := .on })] } }

theorem witness_LanesStartStopAndDetect : (laneOf (lane0 0 { st := .starting }) 0).st = .starting ∧ (let x := laneOf (lane0 0 { st := .stopping }) 0; x.st = .stopping ∧ x.onPending = false) ∧
    (let s := lane0 0 {}; ready laneEnableSpec [0x100] s = true ∧ fld (0x100 : Word) 6 0 < 24 ∧ bit (0x100 : Word) 8 = true ∧ domOn s (domOfLane 0) = true ∧ (laneOf s 0).st = .off ∧ domOn up (domOfLane 0) = false ∧
      ready laneEnableSpec [0] s = true ∧ bit (0 : Word) 8 = false) ∧ (let x := laneOf (lane0 0 { st := .on }) 0; x.st = .on ∧ x.onRefs = []) ∧
    (laneAwake (lane0 23 { st := .on }) 23 = true ∧ (laneOf (lane0 23 { st := .on }) 23).los = false ∧ (laneOf (lane0 23 { st := .on }) 23).rxLol = false) ∧
    ((laneOf (lane0 0 { los := true, rxLol := true, training := true }) 0).los = true ∧ (laneOf (lane0 0 { rxLol := true }) 0).rxLol = true ∧ (laneOf (lane0 0 { training := true }) 0).training = true) ∧
    (let s := upLane fun l => { l with lanes := [(16, { st := .on, train := true })], ports := [(16, { mode := 8 })] }; (laneOf s 16).st = .on ∧ trains s 16 = true ∧ (laneOf s 16).trained = none) := by decide +kernel

theorem witness_lane_calls_by_state : (let s (st : LaneSt) := lane0 0 { st := st }; (laneOf (s .on) 0).st ≠ .starting ∧ (laneOf (s .on) 0).st ≠ .stopping ∧ ready laneEnableSpec [0x100] (s .on) = true ∧ ready laneEnableSpec [0x100] (s .starting) = true ∧ ready laneEnableSpec [0] (s .stopping) = true ∧
      domOn (s .on) (domOfLane 0) = true ∧ (laneOf (s .starting) 0).st = .starting ∧ (laneOf (s .stopping) 0).st = .stopping ∧
      (let t := s .stopping; (laneOf (modLane 0 (fun x => { x with onPending := true }) t) 0).onPending = true ∧ domOn (setLane 0 { (laneOf t 0) with st := .off, offRefs := [], onPending := false } t) (domOfLane 0) = true)) ∧
    ready laneEnableSpec [28] up = true ∧ ¬ (fld (28 : Word) 6 0 ≤ 27 ∨ 32 ≤ fld (28 : Word) 6 0) ∧ 32 ≤ fld (32 : Word) 6 0 ∧
    (let s := { sp0 { st := .opened } with lane := { lanes := [(32, { st := .on })] } }; ready laneEnableSpec [32] s = true ∧ (laneOf s 32).st = .on ∧ (spanOf s (spanOfLane 32)).st ≠ .closed) ∧
    laneAwake up 0 = false ∧ (laneOf up 0).los = false ∧ (laneOf up 0).rxLol = false ∧ (laneOf up 0).training = false ∧ (27 : LaneIx).val < 28 ∧
    (let x := laneOf (lane0 16 { st := .on, must := true }) 16; x.st = .on ∧ x.must = true ∧ x.trained = none) ∧ (laneOf up 16).st ≠ .on ∧ (laneOf up 16).must = false ∧ (laneOf (lane0 16 { trained := some (0, 0) }) 16).trained ≠ none := by decide +kernel

theorem witness_LaneCallsSetAndRead : (let w : Word := 0x100109; ready portModeSetSpec [w] up = true ∧ fld w 20 16 ≤ 23 ∧ modeAllowed (fld w 3 0) (fld w 20 16) = true ∧ fecAllowed (fld w 3 0) (fld w 9 8) = true ∧
      lanesOf up (fld w 20 16) = [] ∧ portLanes (fld w 3 0) = 1 ∧ (laneOf up (fld w 20 16)).st = .off ∧ portOfLane up (fld w 20 16) = none) ∧
    (let v : Word := 0x201010; ready laneTxEqSetSpec [27, v] up = true ∧ fld (27 : Word) 6 0 ≤ 27 ∧ fld v 4 0 ≤ 16 ∧ fld v 12 8 ≤ 24 ∧ fld v 21 16 ≤ 32 ∧ fld v 4 0 + fld v 12 8 ≤ 32) ∧
    (ready laneRxEqSetSpec [0x11B, 0, 0, 0] up = true ∧ fld (0x11B : Word) 6 0 ≤ 27 ∧ fld (0x11B : Word) 9 8 < 2 ∧ ready laneRxEqSetSpec [0x21B, 0x281F, 0, 0] up = true ∧ fld (0x21B : Word) 9 8 = 2 ∧ fld (0x281F : Word) 13 8 ≤ 40) ∧
    (let v : Word := 0x864012C; ready laneDetectConfigSpec [0, v] up = true ∧ 2 ≤ fld v 27 24 ∧ fld v 27 24 ≤ 8 ∧ 1 ≤ fld v 22 16 ∧ fld v 22 16 ≤ 100 ∧ 40 ≤ fld v 8 0 ∧ fld v 8 0 ≤ 300 ∧ fld v 8 0 % 10 = 0) ∧
    (let s := lane0 21 { st := .on }; ready laneLoopbackSetSpec [0x315] s = true ∧ fld (0x315 : Word) 6 0 ≤ 27 ∧ loopbackAllowed s (fld (0x315 : Word) 6 0) (fld (0x315 : Word) 9 8) = true ∧ (laneOf s (fld (0x315 : Word) 6 0)).st = .on) ∧
    (ready lanePrbsSpec [0x131B] up = true ∧ fld (0x131B : Word) 6 0 ≤ 27 ∧ fld (0x131B : Word) 13 12 ≤ 1 ∧ (laneOf (prbsPoll (fld (0x131B : Word) 6 0) up) (fld (0x131B : Word) 6 0)).check = (laneOf up (fld (0x131B : Word) 6 0)).check) ∧
    (ready laneStatusSpec [27] up = true ∧ fld (27 : Word) 6 0 ≤ 27) ∧ ready hawserLaneStatusSpec [] up = true ∧ ready pcieStatusSpec [] up = true := by decide +kernel

theorem witness_lane_calls_refused : (ready portModeSetSpec [0x180000] up = true ∧ 23 < fld (0x180000 : Word) 20 16) ∧ (let s := lane0 0 { st := .on }; ready portModeSetSpec [4] s = true ∧ modeAllowed 4 0 = true ∧ fecAllowed 4 0 = true ∧ ¬ ∀ i < portLanes 4, (laneOf s (0 + i)).st = .off) ∧
    (ready laneTxEqSetSpec [28, 0] up = true ∧ laneNamed 28 true = false ∧ laneNamed 27 true = true) ∧ (ready laneRxEqSetSpec [28, 0, 0, 0] up = true ∧ fld (0x31B : Word) 9 8 = 3 ∧ 40 < fld (0x2900 : Word) 13 8) ∧
    (ready laneDetectConfigSpec [28, 0] up = true ∧ ¬ fld (28 : Word) 6 0 ≤ 27) ∧ (ready laneLoopbackSetSpec [28] up = true ∧ ready laneLoopbackSetSpec [0x300] up = true ∧ loopbackAllowed up 0 3 = true ∧ (laneOf up 0).st ≠ .on) ∧
    (ready lanePrbsSpec [0x201B] up = true ∧ fld (0x201B : Word) 13 12 = 2 ∧ pam4 up 27 = true ∧ ready lanePrbsSpec [0x2000] up = true ∧ pam4 up 0 = false) ∧ (ready laneStatusSpec [28] up = true ∧ 27 < fld (28 : Word) 6 0) := by decide +kernel

/-- A port 0 that is up in mode 4 with one lane. -/
def port0 : Machine.State := upLane fun l => { l with ports := [(0, { mode := 4, link := true })] }
def frame0 : List Byte := List.replicate 60 0
def portRec0 (mode : Nat) : PortRec := ⟨0, 0, 9, false, mode, 0, 0, false, false, false, 0, 0, 0, 3, 0, 0, 0, 0, 0⟩

theorem witness_PortsAndSpansFeedThePipelines : (portOf up 0).link = false ∧ ((portOf port0 0).link = true ∧ ∀ l ∈ lanesOf port0 0, (laneOf port0 l).loopback = 0) ∧
    (let s := { port0 with lane := { port0.lane with lanes := [(0, { loopback := 1 })] } }; (portOf s 0).link = true ∧ 0 ∈ lanesOf s 0 ∧ (laneOf s 0).loopback ≠ 0) ∧
    ((macRx 0 frame0 port0).2 = .pass frame0 false ∧ forSaend (macRx 0 frame0 port0).1 0 frame0 = false ∧ (parse frame0).outer = none ∧ kgetD (macRx 0 frame0 port0).1.fwd.pvid 0 1 = 1 ∧ kgetD (macRx 0 frame0 port0).1.fwd.dist 1 0 = 0) ∧
    (let esmc : List Byte := List.replicate 12 0 ++ [0x88, 0x09, 0x0A] ++ List.replicate 45 0; (macRx 0 esmc port0).2 = .pass esmc false ∧ forSaend (macRx 0 esmc port0).1 0 esmc = true) ∧
    takeUp 0 up.fwd.up = none ∧
    (let u : UpFrame := ⟨7, 9, 0, frame0, 0⟩; let s := upFwd fun f => { f with up := [⟨8, 9, 0, frame0, 0⟩, u] }; takeUp 0 s.fwd.up = some (u, [⟨8, 9, 0, frame0, 0⟩]) ∧ domOn s (domPl 0) = false ∧ upRecord s u = none ∧
      (let t := { s with pwr := { doms := [(32, { st := .on })] }, fwd := { s.fwd with ports := [(8192 * 7 + 5, portRec0 0)] } }; domOn t (domPl 0) = true ∧ upRecord t u = some (5, portRec0 0) ∧ (portRec0 0).mode = 0) ∧
      (let t := { s with fwd := { s.fwd with ports := [(8192 * 7 + 5, portRec0 1)] } }; upRecord t u = some (5, portRec0 1) ∧ (portRec0 1).mode = 1 ∧ trapReason frame0 (portRec0 1).trapMask = none ∧ (portRec0 1).police = false ∧
        (portRec0 1).learn = false ∧ (portRec0 1).pushVid = 0 ∧ queueUp t 3 ≠ some false)) := by decide +kernel

theorem witness_ports_loop_and_drop : (let s (m : Nat) := { port0 with lane := { port0.lane with lanes := [(0, { loopback := m })] } }; portLoop (s 3) 0 = 3 ∧ portLoop (s 1) 0 = 1 ∧ portLoop (s 2) 0 = 2 ∧ portLoop (s 0) 0 = 0 ∧ (portOf (s 3) 0).link = true) ∧
    (let s := { port0 with ciph := { secys := [(0, { enable := true })] } }; (macRx 0 frame0 s).2 = .drop) ∧
    (let s := { port0 with fwd := { dist := [(1, 8)] } }; (parse frame0).outer = none ∧ kgetD s.fwd.pvid 0 1 = 1 ∧ (1 : Nat) ≠ 4095 ∧ kgetD s.fwd.dist 1 0 ≠ 0 ∧ (match toPipes [3] 0 1 false false none frame0 s with | .ok _ => true | .error _ => false) = true) := by decide +kernel

/-- A queue 0 under L2 node 0 and L1 node 0 of ONU 0 of Span 0. -/
def queue0 (ps : List Packet) : Queue := { parent := 0, profile := 0, port := 0, sh := {}, pkts := ps }
def tree (q : Queue) : Machine.State := upFwd fun f => { f with l1 := [(0, { kind := .onu 0 0 0, sh := {} })], l2 := [(0, { parent := 0, sh := {} })], queues := [(0, q)], cached := [(0, [0])] }

theorem witness_upstream_frames_end : (let u : UpFrame := ⟨7, 9, 0, frame0, 0⟩; let s (r : PortRec) := cnt (cPipe 1 0) 1 { upFwd fun f => { f with ports := [(8192 * 7 + 5, r)] } with pwr := { doms := [(32, { st := .on })] } };
      upRecord (s (portRec0 1)) u = some (5, portRec0 1) ∧ (portRec0 1).mode ≠ 0 ∧ (trapStage 0 0 (portRec0 1).trapMask ⟨0, false, 0⟩ frame0 (s (portRec0 1))).2 = true ∧ upPunt (s (portRec0 1)) 0 (portRec0 1) frame0 = none ∧
      (policeStage 7 5 60 (portRec0 1) (s (portRec0 1))).2 = some false ∧
      (match upForward 0 5 0 0 false (portRec0 1) ⟨0, false, 0⟩ u (s (portRec0 1)) with | .ok _ => true | .error _ => false) = true) ∧
    (let stp : List Byte := [0x01, 0x80, 0xC2, 0, 0, 0] ++ List.replicate 54 0; (trapStage 0 0 0xFFFF ⟨0, false, 0⟩ stp up).2 = false) ∧
    (let t := tree (queue0 []); queueUp t 0 = some false ∧ (match upForward 0 5 0 0 false { portRec0 1 with uplinkQueue := 0 } ⟨0, false, 0⟩ ⟨7, 9, 0, frame0, 0⟩ t with | .ok _ => true | .error _ => false) = false) := by decide +kernel

theorem witness_queue_serves_a_span : (let t := tree (queue0 []); queueUp t 0 = some false) := by decide +kernel

theorem witness_EntriesAgeAndFlush : (let s := { up with pwr := { doms := [(32, { st := .on })] } }; domOn s (domPl 0) = true ∧ (pipeOf s 0).ageTime.getD 0 0 ≠ 0 ∧ (pipeOf s 0).ageTime.getD 3 0 = 0 ∧ kget (pipeOf s 0).sweeps 0 = none) ∧
    (let sw (n : Nat) := upFwd fun f => { f with pipes := [(3, { sweeps := [(3, n)] })] }; kget (pipeOf (sw 65535) 3).sweeps 3 = some 65535 ∧ kget (pipeOf (sw 65536) 3).sweeps 3 = some 65536 ∧ kget (pipeOf (sw 69631) 3).sweeps 3 = some 69631) ∧
    (let e (r : BitVec 64) : FdbEntry := ⟨5, r⟩; let x (r : BitVec 64) := pipeOf (upFwd fun f => { f with pipes := [(0, { em := [(3, e r)], xpWait := [5] })] }) 0;
      entryAt (x (asStatic 0)) (.bucket 0 3) = some (e (asStatic 0)) ∧ resStatic (asStatic 0) = true ∧ entryAt (x (learnedRes 0 0 0 0 2)) (.bucket 0 3) = some (e (learnedRes 0 0 0 0 2)) ∧ resStatic (learnedRes 0 0 0 0 2) = false ∧
      resAgingClass (learnedRes 0 0 0 0 2) = (2 : Fin 4).val ∧ 0 < resAge (learnedRes 0 0 0 0 2) ∧ resAge (withAge (learnedRes 0 0 0 0 2) 0) = 0 ∧ (x 0).xpWait = 5 :: []) ∧ (pipeOf up 0).xpWait = [] ∧
    findKey (pipeOf up 0) 5 = none ∧ (let x := pipeOf (upFwd fun f => { f with pipes := [(0, { ov := [(7, ⟨5, learnedRes 0 0 0 0 2⟩)] })] }) 0; findKey x 5 = some (.overflow 7) ∧ entryAt x (.overflow 7) = some ⟨5, learnedRes 0 0 0 0 2⟩) := by decide +kernel

theorem witness_sweeps_not_due : (let s := { up with pwr := { doms := [(32, { st := .on })] } }; nowNs s / 1000000000 % ((pipeOf s 0).ageTime.getD 0 0 / 4) = 0 ∧ kget (pipeOf s 0).swept 0 ≠ some (nowNs s / 1000000000)) ∧ domOn up (domPl 0) = false ∧
    kget (pipeOf up 3).sweeps 3 = none ∧ entryAt (pipeOf up 0) (.bucket 0 3) = none ∧ resAgingClass (learnedRes 0 0 0 0 2) ≠ (1 : Fin 4).val := by decide +kernel

theorem witness_ForwardingTablesAreRead : ready distReadSpec [4095] up = true ∧
    (let key := wide [0, 1, 0, 0, 0x10000000] 1 4; ready fdbReadSpec [0, 1, 0, 0, 0x10000000] up = true ∧ (keyOk up 0 key).toOption = some () ∧ findKey (pipeOf up 0) key = none ∧
      (let b := (candidates (pipeOf up 0) key).1; let x := pipeOf (upFwd fun f => { f with pipes := [(0, { em := [(4 * b + 2, ⟨key, 0⟩)] })] }) 0; findKey x key = some (.bucket b 2) ∧ entryAt x (.bucket b 2) = some ⟨key, 0⟩) ∧
      (let x := pipeOf (upFwd fun f => { f with pipes := [(0, { ov := [(4095, ⟨key, 0⟩)] })] }) 0; findKey x key = some (.overflow 4095) ∧ entryAt x (.overflow 4095) = some ⟨key, 0⟩)) ∧
    (let w : Word := 0x10000000; ready fdbFlushSpec [w, 0] up = true ∧ fld w 31 28 = 1 ∧ bit w 26 = false ∧ (needOwner up 0 0).toOption = some ()) ∧
    (let w : Word := 0x14000000; let s := upFwd fun f => { f with ports := [(portKey 0, portRec0 0)] }; bit w 27 = false ∧ bit w 26 = true ∧ ready fdbFlushSpec [w, 0] s = true ∧ kget s.fwd.ports (portKey 0) = some (portRec0 0) ∧
      (needOwner s 0 (onuOwner s 0 (portRec0 0).onu)).toOption = some ()) ∧
    (let w : List Word := [0x04200000, 1, 0, 0, 0]; let r := routeFrom (versionOf up 0) (pw w 0) (wide w 1 4) 0; ready routeReadSpec w up = true ∧ (needOwner up 0 (vrfOwner up r.pre.vrf)).toOption = some () ∧ r.ok = true ∧ r.host = true) ∧
    (let w : List Word := [0x08800000, 1, 0, 0, 0]; let r := routeFrom (versionOf up 0) (pw w 0) (wide w 1 4) 0; ready routeReadSpec w up = true ∧ r.ok = true ∧ r.host = false) ∧ ready fwdStatusSpec [0x30000000] up = true := by decide +kernel


theorem witness_forwarding_reads_refused : (match keyOk up 0 (2 ^ 127) with | .ok _ => true | .error _ => false) = false ∧ ready fdbReadSpec [0, 0, 0, 0, 0x80000000] up = true ∧
    (Served fdbFlushSpec (call1 [0, 0]) foreign ∧ bit (0 : Word) 26 = false ∧ (needOwner foreign 1 0).toOption = none) ∧ (Served routeReadSpec (call1 [0, 0, 0, 0, 0]) foreign ∧ (needOwner foreign 1 (vrfOwner foreign 0)).toOption = none) ∧
    (let w : List Word := [0x08800001, 1, 0, 0, 0]; let r := routeFrom (versionOf up 0) (pw w 0) (wide w 1 4) 0; (needOwner up 0 (vrfOwner up r.pre.vrf)).toOption = some ()) := by decide +kernel

def frame14 : List Byte := List.replicate 14 0
def staged0 (f : Staged) (s : Machine.State) : Machine.State := { s with fwd := { s.fwd with staged := [f] } }
def st0 : Staged := ⟨0, frame14, false, false, [0], none, false, false⟩

/-- The tree with its ONU active on an open Span and a quota of one cell of Hank 0. -/
def served0 (q : Queue) : Machine.State := let s := tree q; { s with pon := { spans := [(0, { st := .opened })], onus := [(0, { st := .active })] }, fwd := { s.fwd with quotas := [(0, 1)] } }

theorem witness_AdmissionFollowsItsSteps :
    (let s := staged0 st0 (served0 (queue0 [])); let u := touchDesc 0 { s with fwd := { s.fwd with staged := lremove s.fwd.staged 0 } }; let x := queue0 []; let pr := profileOf u 0 x;
      s.fwd.staged[0]? = some st0 ∧ st0.waiting = false ∧ queueAt s 0 = some x ∧ hasDesc s 0 = true ∧ st0.marked = false ∧ 14 ≤ st0.bytes.length ∧ st0.bytes.length ≤ 16000 ∧ x.draining = false ∧
      queueOpen u 0 x none = true ∧ x.depth < 1024 * pr.maxDepth ∧ st0.yellow = false ∧ x.depth < 1024 * pr.spillThresh ∧ hankUse u (queueOwner u 0) 0 < quotaOf u (queueOwner u 0) 0 ∧ x.depth < 1024 * pr.yellowDepth) ∧
    (let s := { (staged0 st0 (tree (queue0 []))) with fwd := { (staged0 st0 (tree (queue0 []))).fwd with cached := [] } }; (queueAt s 0).isSome = true ∧ hasDesc s 0 = false) ∧
    (let s := staged0 st0 up; queueAt s 0 = none) ∧
    (let s := staged0 st0 (tree (queue0 [])); queueOpen (touchDesc 0 { s with fwd := { s.fwd with staged := lremove s.fwd.staged 0 } }) 0 (queue0 []) none = false ∧
      quotaOf s (queueOwner s 0) 0 ≤ hankUse s (queueOwner s 0) 0) ∧
    (let s := served0 (queue0 []); let pr : Profile := { maxDepth := 0, yellowDepth := 0, spillThresh := 0 }; let t := { s with fwd := { s.fwd with profiles := [(0, pr)], wrBacklog := 0 } }; profileOf t 0 (queue0 []) = pr ∧ 1024 * pr.maxDepth ≤ (queue0 []).depth ∧
      1024 * pr.yellowDepth ≤ (queue0 []).depth ∧ pr.spillThresh ≠ 0xFFFFFF ∧ 1024 * pr.spillThresh ≤ (queue0 []).depth ∧ backlogFull t = true ∧ pr.defer_ = true ∧ backlogFull s = false) ∧
    ({ st0 with bytes := [] } : Staged).bytes.length < 14 ∧ (List.replicate 16001 (0 : Byte)).length > 16000 ∧ ({ queue0 [] with draining := true } : Queue).draining = true := by decide +kernel

theorem witness_admission_waits : up.fwd.staged[0]? = none ∧ ({ st0 with waiting := true } : Staged).waiting = true ∧ ({ st0 with marked := true } : Staged).marked = true ∧ ({ st0 with yellow := true } : Staged).yellow = true ∧ ({ defer_ := false } : Profile).defer_ = false := by decide +kernel

def pkt0 (p : Place) (cs : List Nat) : Packet := { bytes := frame14, yellow := false, place := p, cells := cs }

theorem witness_PacketsMoveThroughTheStores : (let s := upFwd fun f => { f with h1Units := 0 }; hankFree s 1 = 0) ∧ (allocBuf 0 up).isSome = true ∧
    (let s := upFwd fun f => { f with prefetch := 196608 }; hankFree s 0 + fetchCells s ≤ s.fwd.prefetch) ∧ (let s := upFwd fun f => { f with prefetch := 0 }; s.fwd.prefetch ≤ fetchCells s) ∧
    (let p := pkt0 (.copying 1 0 0 512) [0]; let x := queue0 [p]; let s := tree x; queueAt s 0 = some x ∧ (x.pkts.findIdx? fun p => match p.place with | .copying _ _ _ _ => true | _ => false) = some 0 ∧ x.pkts[0]? = some p ∧ p.place = .copying 1 0 0 512) ∧
    (let p := pkt0 (.deep 1 0 0 512) []; let x := queue0 [p]; let s := tree x; queueAt s 0 = some x ∧ recordIx s x.pkts (bufAddr s 1 0 0) = some 0 ∧ x.pkts[0]? = some p ∧ p.place = .deep 1 0 0 512 ∧ (takeCells true (cellsFor p.bytes.length) [] s).1 = true ∧
      (takeCells true (cellsFor p.bytes.length) [] { s with fwd := { s.fwd with prefetch := 0 } }).1 = false) ∧
    (let p := pkt0 (.deep 1 0 0 512) []; let x := queue0 [pkt0 .shallow [0], p]; recordIx up x.pkts (bufAddr up 1 0 0) = some 1 ∧ x.pkts[1]? = some p) ∧
    (upFwd fun f => { f with descWait := [5] }).fwd.descWait.contains (5 : QueueIx).val = true ∧
    (let x := { queue0 [pkt0 .shallow [0], pkt0 .shallow [1]] with draining := true }; queueAt (tree x) 0 = some x ∧ x.draining = true ∧ 1 < x.pkts.length ∧ (queue0 [pkt0 .shallow [0]]).pkts.length ≤ 1 ∧ (queue0 []).draining = false) ∧
    (upFwd fun f => { f with sending := [⟨0, [0], false⟩] }).fwd.sending[0]? = some ⟨0, [0], false⟩ := by decide +kernel

theorem witness_nothing_moves : queueAt up 0 = none ∧ up.fwd.sending[0]? = none ∧ up.fwd.fetchq.head? = none ∧ up.fwd.descWait.contains (5 : QueueIx).val = false ∧ (cacheDesc 5 (upFwd fun f => { f with descWait := [5] })).isSome = true ∧
    ((queue0 [pkt0 .shallow [0]]).pkts.findIdx? fun p => match p.place with | .copying _ _ _ _ => true | _ => false) = none ∧
    (let p := pkt0 (.deep 1 0 0 512) []; let x := queue0 [p]; let s := { tree x with fwd := { (tree x).fwd with fetchq := [(0, bufAddr up 1 0 0)] } }; queueAt s 0 = some x ∧ s.fwd.fetchq.head? = some ((0 : QueueIx).val, bufAddr s 1 0 0) ∧
      recordIx s x.pkts (bufAddr s 1 0 0) = some 0 ∧ recordIx s [] (bufAddr s 1 0 0) = none ∧ s.fwd.fetchq.head?.all (fun a => decide (a.1 ≠ (5 : QueueIx).val)) = true ∧ s.fwd.fetchq.head?.isSome = true) ∧
    (pkt0 (.fetched 1 0 0 512) []).place = .fetched 1 0 0 512 ∧ (let x := { queue0 [] with train := some ⟨1, 0, 512⟩ }; queueAt (tree x) 0 = some x ∧ x.train = some ⟨1, 0, 512⟩ ∧ 512 + recordSize 100 ≤ bufSize 1) ∧
    (quotaOf up 0 1 ≤ hankUse up 0 1 ∧ hankUse (upFwd fun f => { f with quotas := [(1, 1)] }) 0 1 < quotaOf (upFwd fun f => { f with quotas := [(1, 1)] }) 0 1 ∧ (allocBuf 1 up).isSome = true) ∧ (upFwd fun f => { f with h1Units := 0 }).fwd.h1Units = 0 ∧
    (allocBuf 0 up).isSome = true ∧ fetchCells up + 0 < up.fwd.prefetch ∧ up.fwd.prefetch < hankFree up 0 + fetchCells up := by decide +kernel

theorem witness_record_header_checked : headerPasses [] = false := by decide +kernel

theorem witness_QueueAndSchedulerCallsAnswer : (let w : Word := 0x1001A; ready hankPartitionSpec [w] up = true ∧ 1 ≤ fld w 4 0 ∧ 1 ≤ fld w 20 16 ∧ fld w 4 0 ≤ 26 ∧ fld w 20 16 ≤ 26 ∧ fld w 4 0 + fld w 20 16 ≤ 27 ∧
      (domOf up 40).st = .off ∧ (domOf up 41).st = .off ∧ (domOf up 42).st = .off ∧ (domOf up 43).st = .off ∧ (domOf (dom 43 { st := .on }) 43).st ≠ .off) ∧ (ready hankPartitionSpec [0] up = true ∧ fld (0 : Word) 4 0 = 0) ∧
    ready hankStatusSpec [3] up = true ∧ (ready sliceHankReadSpec [3] up = true ∧ (readsSlice up 0 (fld (3 : Word) 19 16)).toOption = some ()) ∧
    (ready queueReadSpec [0] up = true ∧ (needOwner up 0 (queueOwner up 0)).toOption = some () ∧ queueAt up 0 = none ∧ queueAt (tree (queue0 [])) 0 = some (queue0 [])) ∧ ready viaductStatusSpec [] up = true ∧
    (let s := tree (queue0 []); ready schedNodeReadSpec [0x03000000] s = true ∧ schedName (0x03000000 : Word) = some (.queue 0) ∧ (childOf s (.queue 0)).isSome = true ∧ (shaperOf s (.queue 0)).isSome = true ∧
      (needOwnerOpt s 0 (schedOwner s (.queue 0))).toOption = some ()) ∧
    (let s := upFwd fun f => { f with ports := [(portKey 0, portRec0 0)] }; ready policerReadSpec [0] s = true ∧ (kget s.fwd.ports (portKey 0)).isSome = true ∧ (needOwnerOpt s 0 (portOwner s (portKey 0))).toOption = some ()) ∧
    (ready gateListReadSpec [0x1F02, 0, 0] up = true ∧ fld (0x1F02 : Word) 1 0 ≤ 2 ∧ wide [0x1F02, 0, 0] 1 2 = 0) ∧
    (ready uplinkBudgetReadSpec [0x17] up = true ∧ fld (0x17 : Word) 4 0 ≤ 23 ∧ (readsSlice up 0 0).toOption = some () ∧ (upBudget up 0 23).lanyard = none) := by decide +kernel

theorem witness_items_of_slices : up.ctl.slices.contains (fld (0 : Word) 19 16) = true ∧ up.ctl.slices.contains (fld (0xF0000 : Word) 19 16) = false ∧
    up.ctl.slices.contains (fld (15 : Word) 3 0) = false ∧ up.ciph.healthy = true := by decide +kernel

theorem witness_queue_calls_refused : (27 < fld (0x1C : Word) 4 0 + 1 ∧ fld (0 : Word) 20 16 = 0) ∧ (Served sliceHankReadSpec (call1 [0]) foreign ∧ (readsSlice foreign 1 0).toOption = none) ∧ (Served queueReadSpec (call1 [0]) foreign ∧ (needOwner foreign 1 (queueOwner foreign 0)).toOption = none) ∧
    (ready schedNodeReadSpec [0x03000000] up = true ∧ (schedName (0x03000000 : Word)).isSome = true ∧ childOf up (.queue 0) = none ∧ (needOwnerOpt up 0 (schedOwner up (.queue 0))).toOption = some ()) ∧ Served schedNodeReadSpec (call1 [0x03000000]) foreign := by decide +kernel

theorem witness_policer_reads_refused :
    (ready policerReadSpec [0] up = true ∧ kget up.fwd.ports (portKey 0) = none ∧ (needOwnerOpt up 0 (portOwner up (portKey 0))).toOption = some ()) ∧ Served policerReadSpec (call1 [0]) foreign ∧
    (ready gateListReadSpec [3, 0, 0] up = true ∧ fld (3 : Word) 1 0 = 3 ∧ wide [3, 1, 0] 1 2 ≠ 0) ∧ (ready uplinkBudgetReadSpec [24] up = true ∧ 24 ≤ fld (24 : Word) 4 0 ∧ Served uplinkBudgetReadSpec (call1 [0]) foreign) ∧
    (upBudget (upFwd fun f => { f with budgets := [(0, { lanyard := some 5 })] }) 0 0).lanyard = some 5 := by decide +kernel

theorem witness_ShapersRefillAndRelease : (let s := tree (queue0 []); l1At s 0 0 = some { kind := .onu 0 0 0, sh := {} } ∧ (l1At (advance ((s.tb / (200 * 2 ^ 40) + 1) * (200 * 2 ^ 40)) s) 0 0).isSome = true ∧ queueAt s 0 = some (queue0 []) ∧
      (queueAt (advance ((s.tb / (1000 * 2 ^ 40) + 1) * (1000 * 2 ^ 40)) s) 0).isSome = true) ∧ (refills 200 ({} : Shaper).at_ (200 * 2 ^ 40) = 0 + 1 ∧ ({} : Shaper).next = none) ∧
    kget (advance ((up.tb / (1000 * 2 ^ 40) + 1) * (1000 * 2 ^ 40)) up).fwd.policers 0 = none ∧
    (let s := upFwd fun f => { f with policers := [(0, {})] }; (kget (advance ((s.tb / (1000 * 2 ^ 40) + 1) * (1000 * 2 ^ 40)) s).fwd.policers 0).isSome = true) ∧
    (let w : Wheel := ⟨5000, true, 0⟩; let x := { queue0 [] with sh := { waitP := some w } }; let s := tree x; shaperOf s (.queue 0) = some (1000, x.sh, false) ∧ x.sh.waitP = some w ∧ w.fine = true ∧ ({ w with fine := false } : Wheel).fine = false ∧
      coarseSlots s 0 = [] ∧ (let t := tree { queue0 [] with sh := { waitP := some { w with fine := false, slot := 4096 } } }; coarseSlots t 0 ≠ [] ∧ 4096 ∈ coarseSlots t 0 ∧ ∀ k ∈ coarseSlots t 0, 4096 ≤ k)) ∧
    (schedOf up 0 0).waiting = none ∧
    (let c : PierSched := { waiting := some none }; let s := upFwd fun f => { f with piers := [(0, c)] }; schedOf s 0 0 = c ∧ c.waiting = some none ∧ c.line = []) ∧
    (let l : GateList := ⟨[(1, 125000), (0, 125000)], 250000, 0⟩; let c : PierSched := { waiting := some (some l), line := [⟨0, 0, 130000000, 0, 0, 14⟩] }; let s := { upFwd fun f => { f with piers := [(0, c)] } with tb := 100 * us }; c.waiting = some (some l) ∧ 0 < psOf s.tb ∧ psOf s.tb < 130000000 ∧
      (c.line.filter fun e => e.start < psOf s.tb && psOf s.tb < e.stop && closesWithin l e.gate (psOf s.tb) e.stop) = c.line) := by decide +kernel

theorem witness_wheels_stand_still : l1At up 0 8191 = none ∧ l2At up 3 65535 = none ∧ queueAt up 0 = none ∧ (l2At (tree (queue0 [])) 0 0).isSome = true ∧ shaperOf up (.queue 0) = none ∧ refills 200 ({} : Shaper).at_ 0 = 0 ∧ (-1 : Int) < 0 ∧
    ((819199 - 0 < 819200 ∧ 819200 ≤ 819200 - 0 ∧ 3355443199 - 0 < 3355443200 ∧ 3355443200 ≤ 3355443200 - 0) : Prop) ∧ (let l : GateList := ⟨[(1, 250000)], 250000, 250000⟩; 0 < l.cycle ∧ l.base ≤ l.cycle) ∧
    (let x := queue0 []; shaperOf (tree x) (.queue 0) = some (1000, x.sh, false) ∧ x.sh.waitC = none) := by decide +kernel

/-- The served tree with its Pier on the line, at the start of the frame, and a head in queue 0. -/
def sending0 (p : Packet) : Machine.State :=
  let s := served0 (queue0 [p]);
  { s with pon := { s.pon with piers := [(0, { enable := true, txOn := true })] }, fwd := { s.fwd with piers := [(0, { frame := 0 })], ports := [(0, portRec0 1)] } }

/-- A packet that port record 0 admitted. -/
def pktP : Packet := { pkt0 .shallow [0] with port := some (portRec0 1) }

theorem witness_SchedulersSelectWhatMaySend : (spanOf up 0).st ≠ .opened ∧
    (let s := sending0 (pkt0 .shallow [0]); (spanOf s 0).st = .opened ∧ (spanOf s 0).standby = false ∧ (pierOf s 0 0).enable = true ∧ (pierOf s 0 0).txOn = true ∧ (spotOf s 0 0).isSome = true ∧ timedHeads s 0 0 = []) ∧
    (portOf up 0).link = false ∧ ((portOf port0 0).link = true ∧ (merge (mergerOf (offers 0 [0, 1, 2, 3] port0).1 0) (offers 0 [0, 1, 2, 3] port0).2 (offers 0 [0, 1, 2, 3] port0).1).isNone = true) := by decide +kernel


theorem witness_schedulers_find_nothing : (spotOf (upFwd fun f => { f with piers := [(0, { frame := 1 })] }) 0 0).isNone = true ∧ (spanOf (sp0 { standby := true }) 0).standby = true ∧ (pierOf up 0 0).enable = false ∧ (pierOf up 0 0).txOn = false ∧
    portTakes up 0 = false ∧ portTakes port0 0 = true ∧ (portOf port0 0).mode ≠ 10 ∧ (let s := { upLane fun l => { l with ports := [(22, { mode := 10 })] } with pwr := { doms := [(55, { st := .on })] } }; (portOf s 22).mode = 10 ∧ portTakes s 22 = true) ∧
    (pktP.port = some (portRec0 1)) ∧ hasDesc (upFwd fun f => { f with cached := [] }) 0 = false := by decide +kernel

theorem witness_timed_frame_is_due : let x := queue0 [{ pktP with launch := some 0 }]; let s := sending0 { pktP with launch := some 0 };
    timedHeads s 0 0 = [(0, x, 0, false)] ∧ ((spotOf s 0 0).map fun w => ((timedSpot s 0 0 w (0, x, 0, false)).isSome,
      (firstTimed s 0 0 ((timedHeads s 0 0).filter fun e => (timedSpot s 0 0 w e).isSome)).map (·.1))) = some (true, some 0) := by decide +kernel

theorem witness_timed_frame_may_not_fit : let s := sending0 { pktP with launch := some 0 }; let x := queue0 [{ pktP with launch := some 0 }]; x.pkts = { pktP with launch := some 0 } :: [] ∧ hasDesc s 0 = true ∧ (takeHead 0 s).isSome = true ∧
    ((spotOf s 0 0).map fun w => gateAllows (schedOf s 0 0) x.ch.gate w.t (endAt s 0 0 w 14)) = some true ∧
    (let c : PierSched := { list := some ⟨[(0, 250000)], 250000, 0⟩ }; ((spotOf s 0 0).map fun w => gateAllows c x.ch.gate w.t (endAt s 0 0 w 14)) = some false) ∧
    (let t := { s with fwd := { s.fwd with piers := [(0, { (schedOf s 0 0) with line := [⟨0, 0, 1000000000, 0, 0, 14⟩] })] } };
      ((takeHead 0 t).map fun r => (schedOf r.2 0 0).line.any fun g => decide (launchFirst r.2 0 0 0 < g.stop)) = some true) ∧ (schedOf s 0 0).line = [] ∧
    ((spotOf s 0 0).map fun w => decide (w.frame = (schedOf s 0 0).frame ∧ w.d + pieceBytes 0 14 ≤ dataBytes 0 (pierOf s 0 0).fecDs)) = some true ∧ dataBytes 0 true < 0 + pieceBytes 0 700000 ∧ sendKey s 0 (portRec0 1) = .clear := by decide +kernel

theorem witness_eligible_queue_is_chosen : let s := sending0 pktP;
    ((spotOf s 0 0).map fun w => downFits s 0 0 w (queue0 [pktP])) = some (true, true, true) ∧
    ((spotOf s 0 0).map fun w => let r := choose (fun _ x => (downFits s 0 0 w x).1 && (downFits s 0 0 w x).2.1 && (downFits s 0 0 w x).2.2) 0 0 s;
      (r.2.map (·.q), hasDesc r.1 0, (queueAt r.1 0).isSome, (takeHead 0 r.1).isSome)) = some (some 0, true, true, true) := by decide +kernel

theorem witness_uplink_queue_is_merged : let s := { port0 with fwd := { (tree (queue0 [pkt0 .shallow [0]])).fwd with l1 := [(0, { kind := .uplink 0 0, sh := {} })] } };
    let o := offers 0 [0, 1, 2, 3] s;
    ((merge (mergerOf o.1 0) o.2 o.1).map fun r => (r.1.q, hasDesc o.1 r.1.q, (takeHead r.1.q o.1).isSome)) = some (0, true, true) := by decide +kernel

/-! ### Witnesses: SDH, circuits, keys and redundancy -/

/-- A state whose TDM block runs on both lanes, as given. -/
def tdmUp (f : Tdm → Tdm) : Machine.State := { upTdm f with pwr := { doms := [(55, { st := .on })] }, lane := { lanes := [(22, { st := .on }), (23, { st := .on })], ports := [(22, { mode := 10 }), (23, { mode := 10 })] } }

theorem witness_SdhFramesAndPointers : sdhRuns up 0 = false ∧ (let s := tdmUp fun t => { t with lanes := [(0, { oof := false })] }; sdhRuns s 0 = true ∧ (laneOf s 22).gen = false ∧ ((sdhOf s 0).align [0]).oof = false ∧ s.tdm.msp.selected = (0 : Fin 2).val) ∧
    (let s := tdmUp id; ((sdhOf s 0).align []).oof = true ∧ (sdhOf s 0).oof = true) ∧ (let s := { tdmUp id with lane := { lanes := [(22, { st := .on, gen := true })], ports := [(22, { mode := 10 })] } }; sdhRuns s 0 = true ∧ (laneOf s 22).loopback = 0 ∧ (laneOf s 22).gen = true) ∧ (let s := tdmUp fun t => { t with msp := { arch := 1 } }; sdhRuns s 1 = true ∧ s.tdm.msp.selected ≠ (1 : Fin 2).val) ∧
    (let s := tdmUp fun t => { t with lanes := [(0, { tus := [(1007, { sdErr := 10, sdBits := 1000 })] })] }; let y := tuOf s 0 1007; let z := { y with deg := windowEnd y.deg y.sdErr y.sdBits 2, sdErr := 0, sdBits := 0 };
      tuDefects (setSdh 0 { sdhOf s 0 with tus := kset (sdhOf s 0).tus 1007 z } s) 0 1007 ≠ tuDefects s 0 1007) ∧
    (0 < 1000 ∧ 1000 ≤ 1 * 10 ^ 3 ∧ 1 * 10 ^ (2 + 1) < 1001 ∧ 1 * 10 ^ 2 < 1000 ∧ 1000 ≤ 1 * 10 ^ (2 + 1)) ∧
    (let p : PtrInt := {}; 0x6000 % 65536 ≠ 0xFFFF ∧ p.st = 0 ∧ within1 4 (nfld 0x6000 15 12) 6 = true ∧ within1 4 (nfld 0x6000 15 12) 9 = false ∧ nfld 0x6000 9 0 = p.offset ∧ nfld 0x6000 9 0 ≤ 782 ∧ p.badRun = 0) ∧
    (within1 4 (nfld 0x930E 15 12) 9 = true ∧ nfld 0x930E 9 0 = 782 ∧ ({} : PtrInt).ndfRun < 7) ∧
    (let p : PtrInt := {}; nfld 0x62AA 9 0 ≠ p.offset ∧ 3 ≤ p.since + 1 ∧ within1 4 (nfld 0x62AA 15 12) 6 = true ∧ within1 4 (nfld 0x62AA 15 12) 9 = false ∧ 3 ≤ ones 5 (iBits (nfld 0x62AA 9 0) ^^^ iBits p.offset) ∧
      ones 5 (dBits (nfld 0x62AA 9 0) ^^^ dBits p.offset) ≤ 2 ∧ 3 ≤ ones 5 (dBits (nfld 0x6155 9 0) ^^^ dBits p.offset) ∧ ones 5 (iBits (nfld 0x6155 9 0) ^^^ iBits p.offset) ≤ 2) ∧
    (0xFFFF % 65536 = 0xFFFF ∧ 2 ≤ ({ onesRun := 2 } : PtrInt).onesRun) ∧ (within1 4 (nfld 0x0000 15 12) 6 = false ∧ within1 4 (nfld 0x0000 15 12) 9 = false ∧ 7 ≤ ({ badRun := 7 } : PtrInt).badRun) := by decide +kernel

theorem witness_sdh_frames_are_aligned :
    (({} : Sdh).oof = true ∧ ({} : Sdh).cand = none) ∧ (let x : Sdh := { cand := some 311039 }; x.oof = true ∧ x.cand = some 311039 ∧ 311039 ∈ [5, 311039] ∧ 311039 ∉ [5]) ∧
    (let x : Sdh := { oof := false, badRun := 3, pos := 7 }; x.oof = false ∧ x.pos ∈ [5, 7] ∧ x.pos ∉ [5] ∧ x.badRun = 3) ∧ (let x : Sdh := { oof := false, badRun := 2, pos := 7 }; x.oof = false ∧ x.pos ∉ [5] ∧ x.badRun < 3) := by decide +kernel

theorem witness_sdh_windows_and_pointers_of_the_wire : (let s := { (tdmUp id) with lane := { (tdmUp id).lane with lanes := (tdmUp id).lane.lanes.map (fun e => (e.1, { e.2 with loopback := 1 })) ++ [(22, { loopback := 1 })] } }; (laneOf s (22 + (0 : Fin 2).val)).loopback ≠ 0) ∧
    (sdhRuns (tdmUp id) 0 = true ∧ (laneOf (tdmUp id) (22 + (0 : Fin 2).val)).loopback = 0) ∧
    (let s := { (tdmUp id) with tb := 2 ^ 80 }; sdhRuns s 0 = true ∧ nowNs s / b2Ns s.tdm.cfg.msSd ≠ (sdhOf s 0).sdWin ∧ nowNs s / b2Ns s.tdm.cfg.msSf ≠ (sdhOf s 0).sfWin ∧
      nowNs s / v5Ns s.tdm.cfg.lpSd ≠ (tuOf s 0 1007).sdWin ∧ nowNs s / v5Ns s.tdm.cfg.lpSf ≠ (tuOf s 0 1007).sfWin ∧ s.tdm.msp.selected = (0 : Fin 2).val) ∧
    (let s := { up with tb := 0 }; nowNs s / b2Ns s.tdm.cfg.msSd = (sdhOf s 0).sdWin ∧ nowNs s / v5Ns s.tdm.cfg.lpSf = (tuOf s 0 0).sfWin) ∧
    (let p : PtrInt := { st := 2, okRun := 2 }; p.st ≠ 0 ∧ 2 ≤ p.okRun ∧ 0x630E % 65536 ≠ 0xFFFF ∧ within1 4 (nfld 0x630E 15 12) 6 = true ∧ within1 4 (nfld 0x630E 15 12) 9 = false ∧ nfld 0x630E 9 0 ≤ 782) ∧
    (let p : PtrInt := { cand := 5, candRun := 2 }; p.st = 0 ∧ nfld 0x6005 9 0 = 5 ∧ within1 4 (nfld 0x6005 15 12) 6 = true ∧ within1 4 (nfld 0x6005 15 12) 9 = false ∧ nfld 0x6005 9 0 ≠ p.offset ∧ p.cand = nfld 0x6005 9 0 ∧ 2 ≤ p.candRun ∧
      ones 5 (iBits (nfld 0x6005 9 0) ^^^ iBits p.offset) ≤ 2 ∧ ones 5 (dBits (nfld 0x6005 9 0) ^^^ dBits p.offset) ≤ 2) ∧
    7 ≤ ({ ndfRun := 7 } : PtrInt).ndfRun := by decide +kernel

theorem witness_MspEvaluatesItsRequests : up.tdm.msp.arch = 0 ∧ (let m : Msp := { arch := 1, lockout := true }; m.arch = 1 ∧ m.lockout = true) ∧
    (let s := upTdm fun t => { t with msp := { arch := 1 }, lanes := [(0, { sfReq := true })] }; s.tdm.msp.arch = 1 ∧ s.tdm.msp.lockout = false ∧ (sdhOf s 1).sfReq = false ∧ s.tdm.msp.forced = false ∧ (sdhOf s 0).sfReq = true) ∧
    (let s := upTdm fun t => { t with msp := { arch := 1, revert := true, request := 6 } }; s.tdm.msp.revert = true ∧ 3 ≤ s.tdm.msp.request ∧ s.tdm.msp.request ≤ 6 ∧ localRequest s = 9) ∧ up.tdm.msp.wtrOn = false ∧
    (upTdm fun t => { t with msp := { wtrOn := true } }).tdm.msp.wtrOn = true ∧ (let m := (upTdm fun t => { t with msp := { arch := 2 } }).tdm.msp; m.arch = 2 ∧ m.fail = false) ∧
    ready mspCommandSpec [3] (upTdm fun t => { t with msp := { arch := 1 } }) = true ∧ ready mspCommandSpec [0] up = true ∧
    (let s := { (tdmUp fun t => { t with lanes := [(0, { failAt := some 0, degAt := some 0, exc := true, deg := true })] }) with tb := 2 ^ 80 }; msFail s 0 = true ∧ msDegrade s 0 = true ∧ (sdhOf s 0).failAt = some 0 ∧ 0 + 100000000 * s.tdm.msp.holdOff ≤ nowNs s) ∧
    (let m (x : Msp) (a b : Sdh) := upTdm fun t => { t with msp := { x with arch := 1 }, lanes := [(0, a), (1, b)] };
      localRequest (m { lockout := true } {} {}) = 1 ∧ localRequest (m {} {} { sfReq := true }) = 2 ∧ localRequest (m { forced := true } {} {}) = 3 ∧ localRequest (m {} { sfReq := true } {}) = 4 ∧
      localRequest (m {} { sdReq := true } {}) = 5 ∧ localRequest (m { manual := true } {} {}) = 6 ∧ localRequest (m { manual := true } {} { sdReq := true }) = 9 ∧ localRequest (m {} {} {}) = 9) ∧
    (let s := tdmUp fun t => { t with msp := { arch := 2, selected := 1, request := 3, revert := true }, lanes := [(1, { k1 := 0x20 })] }; tdmOn s = true ∧ s.tdm.msp.fail = false ∧ s.tdm.msp.selected = 1 ∧ 3 ≤ s.tdm.msp.request ∧ s.tdm.msp.request ≤ 6 ∧ s.tdm.msp.revert = true ∧
      ¬ nfld (sdhOf s 1).k2 7 4 = (if 3 ≤ s.tdm.msp.request ∧ s.tdm.msp.request ≤ 8 then 1 else 0)) ∧
    (let s := tdmUp fun t => { t with msp := { arch := 2, revert := false, selected := 1, request := 6 }, lanes := [(1, { k1 := 0x00 })] }; tdmOn s = true ∧ s.tdm.msp.revert = false ∧ s.tdm.msp.selected = 1 ∧ 7 ≤ min (localRequest s) (farPriority (sdhOf s 1).k1)) ∧
    (let s := { (tdmUp fun t => { t with msp := { wtrOn := true, wtrEnd := 5 } }) with tb := 2 ^ 80 }; tdmOn s = true ∧ s.tdm.msp.wtrOn = true ∧ s.tdm.msp.wtrEnd ≤ nowNs s) ∧ ready mspCommandSpec [1] up = true ∧ up.tdm.msp.arch = 0 ∧ tdmOn up = false ∧
    (let s := tdmUp fun t => { t with msp := { arch := 1, manual := true, request := 6, lockout := true } }; tdmOn s = true ∧ localRequest s ≤ 6) := by decide +kernel

/-- A circuit's packet as bytes: an IPv4 UDP packet to port 5 with a control word of L 0 and sequence number 9, then 32 bytes. -/
def cePkt : List Byte :=
  List.replicate 12 0 ++ [0x08, 0x00] ++ ([0x45, 0, 0, 64, 0, 0, 0, 0, 64, 17, 0, 0] ++ List.replicate 8 0) ++ [0, 1, 0, 5, 0, 44, 0, 0] ++ [0, 0, 0, 9] ++ List.replicate 32 0x55

theorem witness_CircuitsArePackedAndPlayed : up.tdm.tsiNext = none ∧ (upTdm fun t => { t with tsiNext := some [] }).tdm.tsiNext = some [] ∧ tdmOn up = false ∧
    (let s := tdmUp fun t => { t with circuits := [(7, { mode := 1, udpRx := 5 })], tsi := [(3, 0x80000007)] }; tdmOn s = true ∧ (circuitOf s 7).mode ≠ 0 ∧ rxPosition s 7 = some 3 ∧
      ((cePacketOut 7 (List.replicate 32 1) true 0 s).map fun r => (kgetD r.1.fwd.dist (kgetD r.1.fwd.pvid 22 1) 0, (parse r.2).outer)) = some (0, none) ∧ domOn s domTd = true ∧ (circuitOf s 7).st ≠ 2 ∧
      ceParse cePkt = some ⟨5, [0, 0, 0, 9] ++ List.replicate 32 0x55⟩ ∧ (s.tdm.circuits.find? fun e => e.2.mode ≠ 0 && e.2.udpRx = 5) = some (7, circuitOf s 7) ∧ (circuitOf s 7).rtp = false ∧
      (([0, 0, 0, 9] ++ List.replicate 32 0x55 : List Byte).drop 4).length = circuitLen (circuitOf s 7)) ∧ domOn up domTd = false ∧ ceParse [] = none ∧
    (let c : Circuit := { mode := 1, st := 2, jb := [(9, ⟨[], false⟩)], nextSeq := 9 }; c.st = 2 ∧ kget c.jb c.nextSeq = some ⟨[], false⟩ ∧ c.mode = 1 ∧ c.jb ≠ [] ∧ kget c.jb 10 = none ∧ ({} : Circuit).jb = []) := by decide +kernel

theorem witness_circuit_slots_and_pages : (let s := { (upTdm fun t => { t with tsiNext := some [(5, 0xC0000007)], tsiAt := 9 }) with tb := 9 * (4 * frameTb) }; s.tdm.tsiAt * (4 * frameTb) ≤ s.tb ∧ tsiNamed [(5, 0xC0000007)] 30 = [7]) ∧
    (let s := { (upTdm fun t => { t with tsiNext := some [], tsiAt := 9 }) with tb := 9 * (4 * frameTb) - 1 }; s.tb < s.tdm.tsiAt * (4 * frameTb)) ∧
    (let c : Circuit := { mode := 1, rtp := true }; c.rtp = true ∧ c.mode ≠ 0) ∧
    (let s := upFwd fun f => { f with dist := [(1, 1)] }; kgetD s.fwd.dist (kgetD s.fwd.pvid 22 1) 0 ≠ 0 ∧ kgetD s.fwd.pvid 22 1 ≠ 4095 ∧ (match toPipes [0] 22 1 false false none frame0 s with | .ok _ => true | .error _ => false) = true) ∧
    (let s (c : Circuit) := upTdm fun t => { t with circuits := [(7, c)] }; 32768 ≤ ahead (circuitOf (s { anyRx := true, played := true, nextSeq := 10 }) 7) 9 ∧ ahead (circuitOf (s { anyRx := true, played := true, nextSeq := 9 }) 7) 9 < 32768 ∧
      (let c : Circuit := { mode := 1, jbTarget := 0, anyRx := true, nextSeq := 9 }; 2000 * c.jbTarget < (if (kget c.jb 9).isSome = true then fillUs c else fillUs c + packetUs c)) ∧
      (let c : Circuit := { mode := 1, jbTarget := 4 }; ¬ 2000 * c.jbTarget < (if (kget c.jb 9).isSome = true then fillUs c else fillUs c + packetUs c))) ∧
    (let s (c : Circuit) := tdmUp fun t => { t with tsi := [(5, 0x40000007)], circuits := [(7, c)] }; tdmOn (s {}) = true ∧ (txPosition (s {}) (7 : Fin 1008)).isSome = true ∧ (txPosition (tdmUp id) (7 : Fin 1008)).isSome = false ∧
      (let c := circuitOf (s { mode := 2, st := 1, played := true }) 7; c.mode ≠ 0 ∧ c.st ≠ 2 ∧ c.played = true ∧ c.came = false) ∧ (let c := circuitOf (s { mode := 2, st := 1, played := true, came := true }) 7; c.st ≠ 2 ∧ c.came = true) ∧
      (let c := circuitOf (s { mode := 2, st := 2, jb := [(9, ⟨[], true⟩)], nextSeq := 8 }) 7; c.st = 2 ∧ c.jb ≠ [] ∧ kget c.jb c.nextSeq = none)) ∧
    (let s := { (tdmUp fun t => { t with tsiNext := some [(5, 0x80000007)], tsiAt := 9 }) with tb := 9 * (4 * frameTb) }; tdmOn s = true ∧ s.tdm.tsiAt * (4 * frameTb) ≤ s.tb ∧ rxChanged s.tdm.tsi [(5, 0x80000007)] ≠ [] ∧ rxChanged s.tdm.tsi [] = []) := by decide +kernel

theorem witness_TdmCallsAnswer : ready sdhStatusSpec [0x10000] up = true ∧ (let w : Word := 0x1000000F; ready sdhStatusSpec [w] up = true ∧ fld w 29 28 = 1 ∧ fld w 9 0 ≤ 15) ∧
    (let w : Word := 0x200003EF; ready sdhStatusSpec [w] up = true ∧ fld w 29 28 = 2 ∧ fld w 9 0 ≤ 1007) ∧ (ready sdhStatusSpec [0x30000000] up = true ∧ fld (0x30000000 : Word) 29 28 = 3) ∧
    (ready sdhTraceReadSpec [0x200003EF, 0, 0] up = true ∧ traceOk 0x200003EF = true ∧ ready sdhTraceReadSpec [0x200003F0, 0, 0] up = true ∧ traceOk 0x200003F0 = false) ∧ ready mspStatusSpec [] up = true ∧
    (ready tsiReadSpec [1007] up = true ∧ fld (1007 : Word) 9 0 ≤ 1007 ∧ ready tsiReadSpec [1008] up = true ∧ 1008 ≤ fld (1008 : Word) 9 0) ∧
    (ready ceCircuitReadSpec [1007] up = true ∧ (circuitOf up 1007).mode = 0 ∧ (let c : Circuit := { mode := 1, clock := 2 }; c.mode ≠ 0 ∧ c.clock = 2) ∧ (let c : Circuit := { mode := 2 }; c.mode ≠ 0 ∧ c.clock ≠ 2)) ∧
    (ready sdhStatusSpec [0x10000010] up = true ∧ fld (0x10000010 : Word) 29 28 = 1 ∧ 15 < fld (0x10000010 : Word) 9 0) ∧ (ready sdhStatusSpec [0x200003F0] up = true ∧ fld (0x200003F0 : Word) 29 28 = 2 ∧ 1007 < fld (0x200003F0 : Word) 9 0) ∧
    (ready ceCircuitReadSpec [1008] up = true ∧ 1008 ≤ fld (1008 : Word) 9 0) ∧ ready sdhStatusSpec [0] up = true ∧ fld (0 : Word) 29 28 = 0 := by decide +kernel

theorem witness_EntropyKeysAndTheirCalls : up.ciph.healthy = true ∧ (upCiph fun c => { c with healthy := false }).ciph.healthy = false ∧ up.red.hawser.up = false ∧
    (let s := { upRed fun r => { r with hawser := { r.hawser with up := true } } with ciph := { healthy := false, pair := { st := .established } } }; s.red.hawser.up = true ∧ s.ciph.pair.st = .established ∧ s.ciph.healthy = false) ∧
    (up.ciph.pair.st ≠ .establishing ∧ ({ st := .establishing } : PairKey).st = .establishing ∧ (2 : Fin 4) ≠ 0 ∧ (2 : Fin 4) ≠ 3) ∧
    (let s := onu0 { st := .active }; ready ponKeyRollSpec [0] s = true ∧ (needOnu s 0 0).toOption = some () ∧ (onuOf s 0 0).st = .active ∧ (onuKeys s 0 0).exchange = false) ∧ (onuOf up 0 0).st ≠ .active ∧
    (ready ponKeyStatusSpec [0x1FF001F] up = true ∧ (needOnu up 0 0x1FF001F).toOption = some ()) ∧
    (let w : Word := 0x0F0133; ready macsecSaReadSpec [w] up = true ∧ saOk w = true ∧ findSa (secyOf up (fld w 20 16)) (bit w 8) (fld w 5 4) (fld w 1 0) = none ∧ ready macsecSaReadSpec [0x100000] up = true ∧ saOk 0x100000 = false) ∧
    (let a : Sa := { sak := 0, salt := 0, ssci := 0 }; findSa (secyOf (upCiph fun c => { c with secys := [(15, { tx := [(3, a)] })] }) 15) false 0 3 = some a) ∧
    (ready xtsStatusSpec [0xF0000] up = true ∧ (needOwner up 0 15).toOption = some ()) ∧ ready pairKeyStatusSpec [] up = true ∧ ready entropyStatusSpec [] up = true := by decide +kernel


theorem witness_pair_key_stages_and_foreign_callers : (let s (h : Bool) := { (upRed fun r => { r with hawser := { r.hawser with up := true } }) with tb := 2 ^ 120, ciph := { healthy := h, pair := { st := .established } } };
      (s true).red.hawser.up = true ∧ (s true).ciph.pair.st = .established ∧ (s true).ciph.pair.since + 3600000000 * us * (if hashChecked (s true) = true then (s true).ciph.pair.rekey else 24) ≤ (s true).tb ∧ (s true).ciph.healthy = true ∧ (s false).ciph.healthy = false) ∧
    ((0 : Fin 4) = 0 ∧ (3 : Fin 4) ≠ 0) ∧ (let t := upRed fun r => { r with pair := { r.pair with st := .paired } }; (1 : Fin 4) = 1 ∧ t.ciph.pair.st ≠ .establishing ∧ t.red.pair.st = .paired ∧ t.red.hawser.inUse = []) ∧
    (let t := { (upRed fun r => { r with hawser := { r.hawser with inUse := [0] } }) with lane := { lanes := [(24, { st := .on, loopback := 1 })] } }; t.red.hawser.inUse ≠ [] ∧ ∀ i ∈ t.red.hawser.inUse, (laneOf t (24 + i)).loopback ≠ 0) ∧ (Served ponKeyRollSpec (call1 [0]) foreign ∧ (needOnu foreign 1 0).toOption = none) ∧ Served ponKeyStatusSpec (call1 [0]) foreign ∧
    (Served xtsStatusSpec (call1 [0]) foreign ∧ (needOwner foreign 1 0).toOption = none) ∧
    (let s := { onu0 { st := .active } with ciph := { onus := [(0, { exchange := true })] } }; (onuOf s 0 0).st = .active ∧ (onuKeys s 0 0).exchange = true) := by decide +kernel

/-- What the chain's key is belongs to the certificates (notes/assumptions/5): either it has one, and then the hash is compared or not, or none. -/
theorem witness_pair_key_is_judged (chain : List Byte) : (Config.chainKey chain = none ∨ ∃ pub, Config.chainKey chain = some pub) ∧ hashChecked up = true ∧
    hashChecked (upC fun x => { x with session := some 0x0204 }) = false := by
  refine ⟨?_, by decide +kernel⟩
  cases Config.chainKey chain with
  | none => exact .inl rfl
  | some pub => exact .inr ⟨pub, rfl⟩

theorem witness_HawserCarriesItsFlits : let s := upRed fun r => { r with hawser := { r.hawser with locked := [3], badRun := [(3, 3)] } };
    4 ≤ kgetD s.red.hawser.badRun (3 : Fin 4) 0 + 1 ∧ s.red.hawser.locked.contains (3 : Fin 4).val = true ∧ kgetD up.red.hawser.badRun (0 : Fin 4) 0 + 1 < 4 ∧
    (let t := upRed fun r => { r with hawser := { r.hawser with goodRun := [(0, 6)] } }; t.red.hawser.locked.contains (0 : Fin 4).val = false ∧ kgetD t.red.hawser.goodRun (0 : Fin 4) 0 < 7) ∧ up.red.hawser.up = false ∧
    (upRed fun r => { r with hawser := { r.hawser with up := true } }).red.hawser.up = true ∧ hawserSet up = [] ∧
    (let t := { upRed fun r => { r with hawser := { r.hawser with remote := [0] } } with lane := { lanes := [(24, { st := .on })] } }; t.red.hawser.up = false ∧ t.red.hawser.quiet = false ∧ hawserSet t ≠ [] ∧ pairOn t = false ∧
      pairOn { t with red := { t.red with pair := { t.red.pair with enable := true } }, pon := { spans := [(0, { paired := true })] } } = true) ∧ fld (pw [0] 0) 31 16 ≠ 0x0E10 ∧
    (let l (b : Nat) := { up with lane := { lanes := [(27, { st := .on, loopback := b })] } }; (laneOf (l 0) (24 + (3 : Fin 4).val)).st = .on ∧ (laneOf (l 0) 27).los = false ∧ (laneOf (l 0) 27).rxLol = false ∧ (laneOf (l 0) 27).loopback = 0 ∧ (laneOf (l 1) 27).loopback ≠ 0) ∧
    ¬ (laneOf up 24).st = .on ∧ (let t := upRed fun r => { r with hawser := { r.hawser with goodRun := [(0, 7)] } }; min 8 (kgetD t.red.hawser.goodRun (0 : Fin 4) 0 + 1) = 8) ∧
    (512 ≤ seqAhead (511 : Fin 1024) 1023 ∧ seqAhead (510 : Fin 1024) 1023 < 512) ∧
    (let h := (upRed fun r => { r with hawser := { r.hawser with nextSeq := some 1023, arrived := [(1023, 2, 7)] } }).red.hawser; h.nextSeq = some 1023 ∧ (h.arrived.find? fun a => a.1 = 1023) = some (1023, 2, 7)) ∧
    (let h := (upRed fun r => { r with hawser := { r.hawser with nextSeq := some 1023, arrived := [(0, 2, 7)], inUse := [2] } }).red.hawser; (h.arrived.find? fun a => a.1 = 1023) = none ∧ h.arrived ≠ [] ∧ (h.inUse.all fun i => h.arrived.any fun a => decide (a.2.1 = i ∧ seqAhead a.1 1023 < 512)) = true) ∧
    (let h := (upRed fun r => { r with hawser := { r.hawser with nextSeq := some 5 } }).red.hawser; h.nextSeq = some 5 ∧ h.arrived = []) ∧
    (let w : List Word := [0x0E100000, 0, 0, 0, 0, 0, 0, 0, 0]; fld (pw w 0) 31 16 = 0x0E10 ∧ pw w 1 = 0 ∧ w.length = 9) := by decide +kernel

/-- A device on which Span 0 is standby, or active, in a pair in the state given. -/
def mate (standby : Bool) (p : Pair) : Machine.State := { sp0 { paired := true, standby := standby } with red := { pair := p } }

theorem witness_MirrorRecordsAreTaken : let a : Alloc := alloc0;
    up.red.pair.rxTop = 0 ∧ listens up 0 = false ∧ listens (mate true {}) 0 = true ∧ (⟨0, []⟩ : MirMap).maps = [] ∧ allocOf (mate true {}) 0 0 = none ∧
    (allocOf { mate true {} with pon := { (mate true {}).pon with allocs := [(0, a)] } } 0 0 = some a ∧ (⟨0, [0, 0, 0, 0]⟩ : MirAlloc).words.length ≠ 8) ∧
    (let e : Expected := ⟨0, 7, true, false, []⟩; let m : MirOnu := ⟨0, .ranging, 0, some 1, 0, 5, 0, 0, some e⟩; m.expect = some e ∧ m.st = .ranging) ∧ (⟨none, 0, 1, 2, 0, []⟩ : MirKey).onu = none ∧
    (⟨[], (0, 100), true, none⟩ : MirSpan).teqd = [] ∧ up.red.pair.runs = [] ∧ (standbySpans (mate true {})).filter (bit 0) = [] ∧ (⟨1, 0⟩ : MirHead).rseq ≠ 0 ∧ standbySpans up = [] ∧
    ((standbySpans (mate true {})).filter (bit 1) ≠ []) ∧ (⟨0, 0⟩ : MirHead).rseq = up.red.pair.rxTop ∧ up.red.hawser.inUse = [] ∧ ((⟨0, [(0, { grants := [], reserved := 0 })]⟩ : MirMap).maps ≠ []) ∧ (⟨0, [0, 0, 0, 0, 0, 0, 0, 0]⟩ : MirAlloc).words.length = 8 ∧
    kwUnwrap 2 up.ciph.pair.key [] = none ∧ (let r : SwitchRun := ⟨0, 5, false, none⟩; (mate true { runs := [r] }).red.pair.runs.filter (fun r => !r.taking && bit (1 : Word) r.span) = [r]) := by decide +kernel

theorem witness_PairAcknowledgesAndSwitches : up.ciph.onus = [] ∧ (let s := { mate true {} with red := { hawser := { up := true } } }; s.red.hawser.up = true ∧ standbySpans s ≠ []) ∧ up.red.hawser.up = false ∧
    (let s := mate true { st := .paired }; standbySpans s ≠ [] ∧ s.red.pair.st = .paired ∧ s.red.pair.auto = true ∧ (mate true { st := .bulk, auto := false }).red.pair.auto = false) ∧ standbySpans up = [] ∧
    (let s := mate true { st := .mateLost }; s.red.pair.st = .mateLost ∧ (standbySpans s).filter (bit 0) = [] ∧ (standbySpans s).filter (bit 1) ≠ []) ∧ up.red.pair.st ≠ .mateLost ∧
    (let r : SwitchRun := ⟨0, 5, true, some 100⟩; let s := mate true { runs := [r] }; (s.red.pair.runs.any fun r => r.span = (0 : SpanIx).val && r.taking) = true ∧
      (s.red.pair.runs.find? fun r => r.span = (0 : SpanIx).val && r.taking) = some r ∧ r.t1 = some 100 ∧ s.ctl.lastApply ≠ 100) ∧ (up.red.pair.runs.any fun r => r.span = (0 : SpanIx).val && r.taking) = false := by decide +kernel

theorem witness_pair_calls : (let s := mate true {}; ready pairSwitchSpec [0x40000000, 1] s = true ∧ bit (0x40000000 : Word) 31 = false ∧ spansIn 1 = [0] ∧ (spanOf s 0).paired = true ∧ s.red.pair.calls.any (·.again) = false ∧ switching s 0 = false ∧
      (spansIn 1).filter (switchable s true) ≠ [] ∧ (spansIn 1).filter (switchable s false) = []) ∧ (ready pairSwitchSpec [0, 1] up = true ∧ (spanOf up 0).paired = false) ∧
    (mate true { calls := [⟨ref0, [], [], true, true⟩] }).red.pair.calls.any (·.again) = true ∧ ready pairStatusSpec [] up = true ∧
    (let s := setChan 16 { session := some 0x0302 } up; Served mateHelloSpec ⟨16, 1, [0x04020000, 0, 0, 0, 0, 0], []⟩ s ∧ Served mateBulkSpec ⟨16, 1, [1, 0], []⟩ s ∧ fld (0 : Word) 1 0 = 0 ∧ fld (1 : Word) 1 0 = 1 ∧
      fld (2 : Word) 1 0 = 2 ∧ s.red.pair.st ≠ .bulk ∧ s.red.pair.st ≠ .paired) ∧ (mate true { st := .bulk }).red.pair.st = .bulk := by decide +kernel

theorem witness_pair_switches : (let s := { up with red := { pair := { st := .mateLost, confirming := [0] } } }; s.red.pair.st = .mateLost) ∧
    (mate true { calls := [⟨ref0, [], [], true, false⟩] }).red.pair.calls.any (·.again) = false ∧ (let s := mate true { runs := [⟨0, 5, true, none⟩] }; switching s 0 = true) ∧
    (let s := mate true {}; ready pairSwitchSpec [0x80000000, 0] s = true ∧ bit (0x80000000 : Word) 31 = true ∧ pairedSpans s = [0]) ∧
    (let s := setChan 16 { session := some 0x0302 } (mate true { st := .paired }); Served mateBulkSpec ⟨16, 1, [3, 0], []⟩ s ∧ fld (3 : Word) 1 0 = 3 ∧ s.red.pair.st = .paired) ∧
    (let r : SwitchRun := ⟨0, 5, true, some 100⟩; let s := mate true { runs := [r] }; { s with ctl := { s.ctl with lastApply := 100 } }.ctl.lastApply = 100) := by decide +kernel

/-- A manager or worker with the shelf configured on port 0. -/
def shelf (role : Nat) (l : Lanyard) : Machine.State := { upBoot fun b => { b with strapRole := role } with red := { lan := { l with configured := true, ports := 1 } } }
def lanHead (src : Nat) : LanHead := ⟨src, 0xFF, 0, 7, 0⟩

theorem witness_LanyardFramesAndCalls : lanForMe up 0 (lanHead 0) = false ∧ (let s := shelf 1 {}; lanForMe s 0 (lanHead 0) = true ∧ lanRole s = 1 ∧ (lanHead 0).src = 0 ∧ twoWorkers (shelf 2 {}) 0 (lanHead 5) false = false) ∧
    (let s := shelf 2 { peers := [(5, ⟨8, 0, 0, [], true, []⟩)] }; twoWorkers s 0 (lanHead 5) false = true) ∧ (let s := shelf 2 {}; lanForMe s 0 (lanHead 5) = true ∧ lanRole s = 2 ∧ kget s.red.lan.registry (7 : BitVec 64).toNat = none ∧ s.red.lan.shelfRate = []) ∧
    (let e : RegEntry := ⟨0, 0, 0, true, []⟩; kget (shelf 2 { registry := [(7, e)] }).red.lan.registry (7 : BitVec 64).toNat = some e) ∧ up.red.lan.configured = false ∧
    (kget up.red.lan.peers 3 = none ∧ (let p : Peer := ⟨7, 0, 0, [], true, []⟩; kget (shelf 2 { peers := [(3, p)] }).red.lan.peers 3 = some p ∧ p.present = true ∧ lanRole (shelf 1 {}) ≠ 2)) ∧
    ((([] : List UsageLine).map wantOf).sum = 0 ∧ (([⟨0, 0, 1000, 0⟩] : List UsageLine).map wantOf).sum ≠ 0) ∧
    (ready lanyardStatusSpec [] (shelf 2 {}) = true ∧ ready lanyardStatusSpec [] up = true ∧ ready lanyardRegReadSpec [7, 0] (shelf 2 {}) = true ∧ lanRole up ≠ 2) ∧
    (let s := { shelf 1 {} with pwr := { doms := [(29, { st := .on })] } }; lanRole s = 1) ∧ (let s := shelf 1 {}; lanHeard s 0 (lanHead 0) = true ∧ lanHeard up 0 (lanHead 0) = false ∧ lanFollowed (shelf 1 { peers := [(0, ⟨8, 0, 0, [], true, []⟩)] }) (lanHead 0) = false ∧ (lanHead 5).src ≠ 0) ∧
    (let s := shelf 1 { peers := [(0, ⟨7, 0, 0, [], true, []⟩)] }; lanFollowed s (lanHead 0) = true ∧ lanForMe s 0 (lanHead 0) = true ∧ managerHere s = true ∧ lanRole s = 1) ∧
    (let s := shelf 2 { peers := [(5, ⟨7, 0, 0, [], true, []⟩)] }; lanFollowed s (lanHead 5) = true ∧ lanForMe s 0 (lanHead 5) = true ∧ lanRole s = 2) ∧
    (let s := shelf 1 {}; managerHere s = false ∧ (chanOf s 17).outq = [] ∧ s.red.lan.configured = true) ∧ (shelf 1 { everPresent := true }).red.lan.everPresent = true ∧
    (let p : Peer := ⟨7, 0, 0, [], true, []⟩; kget (shelf 1 { peers := [(0, p)] }).red.lan.peers 0 = some p ∧ p.present = true) ∧ (let p : Peer := ⟨8, 0, 0, [], true, []⟩; (p.present && p.tag ≠ (lanHead 0).tag && decide (p.tag.toNat < (lanHead 0).tag.toNat)) = false) ∧
    (let p : Peer := ⟨6, 0, 0, [], true, []⟩; (p.present && p.tag ≠ (lanHead 0).tag && decide (p.tag.toNat < (lanHead 0).tag.toNat)) = true) ∧ (let p : Peer := ⟨7, 0, 0, [], false, []⟩; p.present = false) := by decide +kernel

theorem beNatAcc_lt (bs : List Byte) : ∀ acc, beNatAcc acc bs < (acc + 1) * 256 ^ bs.length := by
  induction bs with
  | nil => intro acc; simp [beNatAcc]
  | cons b t ih =>
    intro acc
    calc beNatAcc acc (b :: t) < (256 * acc + b.toNat + 1) * 256 ^ t.length := ih _
      _ ≤ ((acc + 1) * 256) * 256 ^ t.length := Nat.mul_le_mul_right _ (by have := b.isLt; omega)
      _ = (acc + 1) * 256 ^ (b :: t).length := by rw [List.length_cons, Nat.pow_succ']; ring

/-- A manager's HELLO with this device's own DEVICE_TAG, and with another (R527). -/
theorem witness_device_tag : (∃ t : BitVec 64, t.toNat = deviceTag) ∧ (0 : BitVec 64) ≠ 1 ∧ (∃ t : BitVec 64, t.toNat ≠ deviceTag) := by
  refine ⟨⟨BitVec.ofNat 64 deviceTag, ?_⟩, by decide, ?_⟩
  · have h := beNatAcc_lt ((sha384 (Config.leafOf Config.certChain)).take 8) 0
    have k : 256 ^ ((sha384 (Config.leafOf Config.certChain)).take 8).length ≤ 256 ^ 8 := Nat.pow_le_pow_right (by decide) (by simp)
    rw [BitVec.toNat_ofNat]
    exact Nat.mod_eq_of_lt (by unfold deviceTag beNat; omega)
  by_cases h : (0 : BitVec 64).toNat = deviceTag
  · exact ⟨1, fun k => absurd (h.trans k.symm) (by decide)⟩
  · exact ⟨0, h⟩

theorem witness_FlashKeepsItsForm : Memory.wf State.reset.boot.flash = true ∧ Memory.wf (upBoot fun b => { b with flash := [(0, 0), (2 ^ 26 - 1, 0xFE)] }).boot.flash = true ∧ up.pending = [] := by decide +kernel

theorem witness_OnlyTheirCallsReachFlashAndFuses : ∃ t, exec (.slewComplete) up = .next t := ⟨_, rfl⟩

theorem witness_FusesNeverGoBack : ∃ t, Machine.step (upBoot fun b => { b with ownerState := 1, svnMin := 64 }) = .next t ∧ (upBoot fun b => { b with ownerState := 1 }).boot.ownerState ≠ 0 := ⟨_, rfl, by decide⟩

theorem witness_AStepTakesOneCommand : ∃ t, Machine.step { up with pending := [.slewComplete, .jtagTestReset] } = .next t := ⟨_, rfl⟩


/-! ### Witnesses: channels and control items; forwarding items, Trusses, loops, lanes, circuits and the pair -/

theorem witness_answers_find_room_or_wait : (let x := chanOf up 0; x.backlog = [] ∧ x.outExpect = 0 ∧ (0x0131 : Nat) < 65536 ∧ x.outq.length + 3 ≤ 64 ∧ x.outMsgEn = true) ∧
    (let x := chanOf (upC fun x => { x with outq := List.replicate 62 ⟨0, false, true, false⟩ }) 0; x.backlog = [] ∧ 64 < x.outq.length + 3) ∧
    (let o : OutWord := ⟨0, false, true, false⟩; let x := chanOf (upC fun x => { x with outq := List.replicate 64 o, backlog := List.replicate 32 ⟨[0], false⟩ }) 0;
      32 ≤ x.backlog.length ∧ 64 ≤ x.outq.length ∧ x.outq = List.replicate 63 o ++ [o]) := by decide +kernel

/-- R552: before SAEND_READY. -/
theorem witness_reads_before_ready : let o : OutWord := ⟨7, true, true, false⟩; let s := setChan 0 { chanOf State.reset 0 with outq := [o] } State.reset;
    Machine.booting s = true ∧ reaches s 0 = true ∧ (chanOf s 0).outq = o :: [] ∧ hostSees s 0 = true ∧ Machine.booting up = false ∧ (chanOf up 0).outq = [] := by decide +kernel

/-- R51, R52, R92: offsets without a register that can be written, at the edges of each range. -/
theorem witness_unused_offsets : let free (n : BitVec 16) : Bool := decide (n.toNat % 4 ≠ 0 ∨ [0x104, 0x10C, 0x110, 0x114].contains n.toNat = true ∨ (0x8000 ≤ n.toNat ∧ n.toNat < 0x8100 ∧ 0x1C ≤ n.toNat % 0x40) ∨ n.toNat < 0x100 ∨
        (0x11C < n.toNat ∧ n.toNat < 0x1000) ∨ (0x1100 ≤ n.toNat ∧ n.toNat < 0x2100) ∨ (0x2180 ≤ n.toNat ∧ n.toNat < 0x2200) ∨ (0x2280 ≤ n.toNat ∧ n.toNat < 0x4000) ∨ (0x4000 < n.toNat ∧ n.toNat < 0x8000) ∨ 0x8100 ≤ n.toNat);
    ([0x0101, 0x0104, 0x0114, 0x801C, 0x80FC, 0, 0xFC, 0x120, 0xFFC, 0x1100, 0x20FC, 0x2180, 0x21FC, 0x2280, 0x3FFC, 0x4004, 0x7FFC, 0x8100, 0xFFFC].all free) = true ∧
      ([0x100, 0x11C, 0x1000, 0x10FC, 0x2100, 0x217C, 0x2200, 0x227C, 0x4000, 0x8000, 0x80D8].all fun n => !free n) = true ∧ (0 : Word) &&& reservedBits 0x104 = 0 ∧ ((0 : Chan).val = (0 : Fn).val) := by decide +kernel

theorem witness_pending_bits_set_since_the_read : (let e := evtRegs (setEvtRegs 0 29 { pend := 3, fresh := 1 } up) 0 29; (2 : Word) &&& e.pend &&& e.fresh &&& ~~~e.mask = 0 ∧ e.fresh ≠ 0) ∧
    (let e := evtRegs (setEvtRegs 0 29 { pend := 1, fresh := 1, mask := 1 } up) 0 29; (1 : Word) &&& e.pend &&& e.fresh &&& ~~~e.mask = 0 ∧ e.fresh ≠ 0) := by decide +kernel

theorem witness_sessions_open_over_others : Served sessionOpenSpec (call [0x03020200]) up ∧ (chanOf (readCall 0x0001 (call [0x03020200]) up) 0).session.isSome = true ∧
    negotiate (fld (0x03020200 : Word) 15 0) (fld (0x03020200 : Word) 31 16) = some 0x0302 ∧
    (let s := upC fun x => { x with session := none }; Served sessionOpenSpec (call [0x04000303]) s ∧ (chanOf (readCall 0x0001 (call [0x04000303]) s) 0).session = none ∧
      negotiate (fld (0x04000303 : Word) 15 0) (fld (0x04000303 : Word) 31 16) = none) := by decide +kernel

theorem witness_slices_and_bindings_end : (let s := upCtl fun x => { x with slices := [0, 1] }; s.ctl.slices.contains (fld (1 : Word) 3 0) = true ∧ sliceInUse s 1 = false ∧ boundTo s 1 = []) ∧
    (up.ctl.slices.contains (fld (1 : Word) 3 0) = false ∧ boundTo foreign 1 ≠ []) ∧
    (let w : Word := 0x80000100; bit w 31 = true ∧ kget up.ctl.binds (fld w 15 8) = none ∧ (kget foreign.ctl.binds (fld w 15 8)).isSome = true) ∧
    (bit (1 : Word) 31 = false ∧ up.ctl.slices.contains (fld (1 : Word) 3 0) = false) ∧
    (let w : Word := 0x80000000; bit w 31 = true ∧ up.ctl.slices.contains (fld w 19 16) = true ∧ kget up.pon.binds (fld w 19 16) = none ∧ (kget (upPon fun p => { p with binds := [(0, 0)] }).pon.binds (fld w 19 16)).isSome = true) := by decide +kernel

theorem witness_expected_onus_change : let e : Expected := ⟨1, 7, true, false, []⟩; let i := item [0, 1, 1, 7, 0]; let s (x : Onu) := upPon fun p => { p with onus := [(0, x)] };
    spliceName (0 : Word) = (0, 0) ∧ (expectOf i.words).pier = 1 ∧ pierClash up 0 0 1 = false ∧ pierClash (upPon fun p => { p with allocs := [(0, alloc0)] }) 0 0 1 = true ∧
    (onuOf (s { expect := some e }) 0 0).expect = some e ∧ e.serial = (expectOf i.words).serial ∧ e.pier = (expectOf i.words).pier ∧ e.reg = (expectOf i.words).reg ∧
    ((onuOf (s { expect := some { e with serial := 8 } }) 0 0).expect = some { e with serial := 8 } ∧ { e with serial := 8 }.serial ≠ (expectOf i.words).serial) ∧ (onuOf up 0 0).expect = none ∧
    ((onuOf (s { expect := some e }) 0 0).expect.isSome = true) := by decide +kernel

theorem witness_discovered_onus_are_authorised : let d : DiscEntry := ⟨7, 0, 0, 1, none⟩; let s (c : DiscEntry) (x : Onu) := upPon fun p => { p with spans := [(0, { disc := [(0, c)] })], onus := [(0, x)] };
    let held : Onu := { st := .held };
    (spanOf (sp0 { standby := true }) 0).standby = true ∧ (spanOf (s d {}) 0).standby = false ∧ ((onuOf (s d { st := .disabled }) 0 0).st = .disabled ∧ bit (0 : Word) 31 = false ∧ bit (0x80000000 : Word) 31 = true) ∧
    (onuName (0x80000000 : Word) = (0, 0) ∧ (onuOf up 0 0).st ≠ .disabled ∧ kget (spanOf up 0).disc (fld (0 : Word) 5 0) = none) ∧ kget (spanOf (s d {}) 0).disc (fld (0 : Word) 5 0) = some d ∧
    (let c := { d with cause := 2 }; kget (spanOf (s c {}) 0).disc 0 = some c ∧ c.cause ≠ 1 ∧ ({ item [] with slice := some 1 } : Item).slice ≠ some 0) ∧ d.cause = 1 ∧ (item []).slice = some 0 ∧
    ((onuOf (s d held) 0 0).st ≠ .inactive ∧ ¬((onuOf (s d held) 0 0).st = .held ∧ d.onu = some 0)) ∧ (onuOf (s d {}) 0 0).st = .inactive ∧
    (let c := { d with cause := 6, onu := some 0 }; (onuOf (s c held) 0 0).st = .held ∧ c.onu = some 0) ∧
    (let t := { s { d with pier := 1 } {} with pon := { (s { d with pier := 1 } {}).pon with allocs := [(0, alloc0)] } }; pierClash t 0 0 1 = true ∧ pierClash (s d {}) 0 0 d.pier = false) := by decide +kernel

theorem witness_allocations_are_set : let s := upPon fun p => { p with onus := [(0, { expect := some ⟨1, 7, true, false, []⟩ })] }; let i := item [0, 0, 1024, 0, 0, 0, 0, 0, 0]; let x := allocFrom i.version i.words 1;
    pierOfOnu up 0 0 = none ∧ pierOfOnu s 0 0 = some 1 ∧ lineOk 1 x.line = true ∧ lineOk 1 1023 = false ∧ lineOk 1 16383 = true ∧ (1 ≠ 0 ∨ i.version < 0x0300) ∧
    (let t := { s with pon := { s.pon with allocs := [(1, { alloc0 with pier := 1 })] } }; ∃ e ∈ t.pon.allocs, e.1 / 2048 = 0 ∧ e.1 % 2048 ≠ 0 ∧ e.2.pier = 1 ∧ e.2.line = x.line) ∧
    (∀ e ∈ s.pon.allocs, e.1 / 2048 = 0 → e.1 % 2048 ≠ 0 → e.2.pier = 1 → e.2.line ≠ x.line) ∧ (onuOf s 0 0).st ≠ .active ∧ allocOf s 0 0 = none ∧
    (let y := { alloc0 with pier := 1 }; let t := { s with pon := { s.pon with allocs := [(0, y)] } }; allocOf t 0 0 = some y ∧ y.onu = x.onu ∧ y.line = x.line ∧ y.pier = x.pier) ∧
    (let t := upPon fun p => { p with onus := [(0, { expect := some ⟨0, 7, true, false, []⟩ })], piers := [(0, { profs := [(0, { prof0 with splice := true, valid := true })] })] }; pierOfOnu t 0 0 = some 0 ∧ (validProf t 0 0 0).all (·.splice) = true) := by decide +kernel

theorem witness_ports_and_table_keys_end : (let s := upFwd fun f => { f with ports := [(portKey 0, portRec0 1)] }; (kget s.fwd.ports (portKey 0)).isSome = true) ∧
    (let w : Word := 0x10000000; pipesOf w = [0] ∧ (∀ p ∈ pipesOf w, (insertEntry (pipeOf up p) ⟨5, asStatic 0⟩ true).isSome = true)) ∧
    (let w : List Word := [0x04200000, 1, 0, 0, 0]; let r := routeFrom 0x0302 0x14000000 (wide w 1 4) 0; r.host = true ∧ pipesOf 0x14000000 = [0] ∧ (∃ p ∈ pipesOf 0x14000000, kget (pipeOf up p).staticCfg (hostKey r.pre.vrf r.pre.addr) = none) ∧
      (let s := setPipe 0 { pipeOf up 0 with staticCfg := [(hostKey r.pre.vrf r.pre.addr, 0)] } up; ∀ p ∈ pipesOf 0x14000000, (kget (pipeOf s p).staticCfg (hostKey r.pre.vrf r.pre.addr)).isSome = true)) := by decide +kernel

/-- With a Direct table of all 4 blocks, whatever its hash has no bucket left: a new static key has no space. -/
theorem witness_tables_are_full : let x : Pipe := { directBlocks := 64 }; let s := setPipe 0 x up; hashBuckets (pipeOf s 0) = 0 ∧ ∃ p ∈ pipesOf 0x10000000, insertEntry (pipeOf s p) ⟨5, asStatic 0⟩ true = none := by decide +kernel

theorem witness_routes_change : let w : Word := 0x10180001; let r := routeFrom 0x0302 w 0 7; let q : Prefix := { r.pre with res := asStatic r.pre.res }; let s := setPipe 0 (lpmInsert (pipeOf up 0) q) up;
    r.host = false ∧ pipesOf w = [0] ∧ (∀ p ∈ pipesOf w, lpmUsed (lpmInsert (pipeOf up p) q) ≤ 16384) ∧ (∃ p ∈ pipesOf w, lpmFind (pipeOf up p) q.v6 q.vrf q.addr q.len = none) ∧
    (∀ p ∈ pipesOf w, (lpmFind (pipeOf s p) q.v6 q.vrf q.addr q.len).isSome = true) := by decide +kernel

theorem witness_hash_configuration : (let w : Word := 0x00000001; let x := pipeOf up (fld w 29 28); decide (fld w 6 0 ≠ x.directBlocks ∨ (0 : Word).toNat ≠ x.seed0 ∨ (0 : Word).toNat ≠ x.seed1) = true ∧
      (∀ n < 8, (spanOf up (8 * 0 + n)).st = .closed) ∧ x.staticCfg = [] ∧ (let s := upPon fun p => { p with spans := [(7, { st := .opened })] }; ¬ (∀ n < 8, (spanOf s (8 * 0 + n)).st = .closed))) ∧
    (let x := pipeOf up 0; decide ((0 : Nat) ≠ x.directBlocks ∨ (0 : Nat) ≠ x.seed0 ∨ (524038806 : Nat) ≠ x.seed1) = false) := by decide +kernel

theorem witness_scheduler_nodes_change : let t := tree (queue0 []); let i := item [];
    (let w : Word := 0x01000000; bit w 24 = true ∧ l1At up 0 0 = none ∧ l1At t 0 0 = some { kind := .onu 0 0 0, sh := {} } ∧ i.slice = some 0 ∧
      (({ i with slice := some 1 } : Item).slice ≠ some 0 ∧ ({ i with slice := some 1 } : Item).slice ≠ some (l1Owner t (.onu 0 0 0))) ∧
      (t.fwd.l2.filter fun e => e.1 / 65536 = 0 && e.1 % 65536 ≠ 0 && e.2.parent = 0).length < 256) ∧
    (let s := upPon fun p => { p with onus := [(0, { expect := some ⟨1, 7, true, false, []⟩ })] }; bit (0 : Word) 24 = false ∧ bit (0 : Word) 31 = false ∧ pierOfOnu up 0 0 = none ∧ (pierOfOnu s 0 0).isSome = true ∧ pierOfOnu s 0 0 = some 1 ∧
      (∀ e ∈ l1OfOnu s 0 0, e.1 = 8192 * 0 + 0) ∧ (∃ e ∈ l1OfOnu t 0 0, e.1 ≠ 8192 * 0 + 1) ∧ (t.fwd.l1.filter fun e => e.1 / 8192 = 0 && e.1 % 8192 ≠ 0 && rootOf e.2.kind = 0).length < 4096) ∧
    (let v : Word := 0x80000001; bit v 31 = true ∧ up.ctl.slices.contains (fld v 3 0) = false ∧ up.ctl.slices.contains (fld (0x80000000 : Word) 3 0) = true ∧ L1Kind.uplink 0 0 = .uplink (fld (0x80000000 : Word) 12 8) (fld (0x80000000 : Word) 3 0)) ∧
    (l2At up 0 0 = none ∧ (∃ e ∈ t.fwd.queues, groupOf e.1 = 0 ∧ e.2.parent = 0) ∧ (let s := { t with fwd := { t.fwd with queues := [] } }; (l2At s 0 0).isSome = true ∧ ∀ e ∈ s.fwd.queues, groupOf e.1 = 0 → e.2.parent ≠ 0)) ∧
    ((∃ e ∈ t.fwd.l2, e.1 / 65536 = 0 ∧ e.2.parent = 0) ∧ (let s := { t with fwd := { t.fwd with l2 := [] } }; (l1At s 0 0).isSome = true ∧ ∀ e ∈ s.fwd.l2, e.1 / 65536 = 0 → e.2.parent ≠ 0)) := by decide +kernel

theorem witness_nodes_are_full : let l2s : KMap L2 := (List.range 256).map fun n => (n + 1, { parent := 0, sh := {} }); let s := upFwd fun f => { f with l2 := l2s };
    256 ≤ (s.fwd.l2.filter fun e => e.1 / 65536 = 0 && e.1 % 65536 ≠ 0 && e.2.parent = 0).length := by decide +kernel

theorem witness_queues_are_set : let t := tree (queue0 []); let s := { t with fwd := { t.fwd with ports := [(0, { portRec0 1 with onu := 0 })] } }; let up_ (s : Machine.State) := (l2At s (groupOf 0) 0).bind fun x => l1At s (groupOf 0) x.parent;
    up_ up = none ∧ up_ s = some { kind := .onu 0 0 0, sh := {} } ∧ l1Owner s (.onu 0 0 0) = queueOwner s 0 ∧ (item []).slice = some 0 ∧
    (let u := { s with fwd := { s.fwd with ranges := [(1, (0, 1))] } }; l1Owner u (.onu 0 0 0) ≠ queueOwner u 0) ∧
    (let x := { queue0 [] with draining := true }; queueAt (tree x) 0 = some x ∧ x.draining = true) ∧ queueAt up 0 = none ∧
    (s.fwd.queues.filter fun e => groupOf e.1 = groupOf 0 && e.1 ≠ 0 && e.2.parent = 0).length < 64 ∧ (kget s.fwd.ports (8192 * 0 + 0)).map (·.onu) = some 0 ∧ (kget t.fwd.ports (8192 * 0 + 0)).map (·.onu) ≠ some 0 ∧
    (let u := upFwd fun f => { f with queues := (List.range 64).map fun n => (n + 1, queue0 []) }; 64 ≤ (u.fwd.queues.filter fun e => groupOf e.1 = groupOf 0 && e.1 ≠ 0 && e.2.parent = 0).length) := by decide +kernel

theorem witness_l1_nodes_are_full : let l1s : KMap L1 := (List.range 4096).map fun n => (n + 1, { kind := .uplink 0 0, sh := {} });
    4096 ≤ (l1s.filter fun e => e.1 / 8192 = 0 && e.1 % 8192 ≠ 0 && rootOf e.2.kind = rootOf (.uplink 0 0)).length := by decide +kernel

theorem witness_keys_are_installed : (let s := upPon fun p => { p with onus := [(0, { expect := some ⟨1, 7, true, false, []⟩, st := .active })] }; pierOfOnu s 0 0 ≠ some 2 ∧ (onuOf s 0 0).st = .active) ∧
    (fld (0x10000 : Word) 17 16 = 1 ∧ fld (0x20000 : Word) 17 16 = 2 ∧ ((pierKeys up 0 0).slot 1).st ≠ .active ∧ mirrorsKeys up 0 = false) ∧
    (let c : RxSc := { sci := 5 }; let a : Sa := { sak := 0, salt := 0, ssci := 0 }; let s (y : SecY) := upCiph fun x => { x with secys := [(0, y)] };
      bit (0x100 : Word) 31 = false ∧ bit (0x100 : Word) 8 = true ∧ kget (secyOf up 0).rx (fld (0x100 : Word) 5 4) = none ∧ kget (secyOf (s { rx := [(0, c)] }) 0).rx 0 = some c ∧ findSa (secyOf up 0) true 0 0 = none ∧
      (bit (0x80000000 : Word) 31 = true ∧ bit (0x80000000 : Word) 8 = false ∧ (secyOf (s { tx := [(0, a)] }) 0).txAn ≠ some 0 ∧ (kget (secyOf (s { tx := [(0, a)] }) 0).tx 0).isSome = true) ∧
      (let d := { c with sas := [(0, a)] }; bit (0x80000100 : Word) 8 = true ∧ kget (secyOf (s { rx := [(0, d)] }) 0).rx 0 = some d ∧ (kget d.sas 0).isSome = true ∧ findSa (secyOf (s { rx := [(0, d)] }) 0) true 0 0 = some a) ∧
      (a.used = false ∧ findSa (secyOf (s { tx := [(0, a)] }) 0) false 0 0 = some a ∧ findSa (secyOf (s { tx := [(0, { a with used := true })] }) 0) false 0 0 = some { a with used := true })) ∧
    (fld (0x10000000 : Word) 29 28 = 1 ∧ 2 ≤ fld (0x20000000 : Word) 29 28 ∧ fld (0 : Word) 25 24 = 0) ∧
    (let i := item [0x10000, 0, 0, 0, 0, 0]; (circuitOf up 0).mode = 0 ∧ fld (pw i.words 0) 17 16 = 1) ∧ (upRed fun r => { r with lan := { r.lan with registry := [(7, ⟨0, 0, 0, false, []⟩)] } }).red.lan.registry = [(7, ⟨0, 0, 0, false, []⟩)] := by decide +kernel

theorem witness_strobes_join : let d : Due := due0; let s := pier0 0 { margin := 12 }; let r := burstRange s 0 0 d; let at_ (q : Rat) : Nat := (q - ((pierOf s 0 0).tRx : Nat)).floor.toNat; let rise := at_ (r.1 - marginPs (pierOf s 0 0));
    (d.grant.kind = 0 ∧ d.prof = some prof0 ∧ d.grant.onu = some 0 ∧ (spanOf s 0).standby = false ∧ ({ grant0 with kind := 2 } : Grant).kind ≠ 0) ∧
    (let t := { s with tb := 0 }; let e : Due := { d with frame := 3 }; let r := burstRange t 0 0 e; let rise := at_ (r.1 - marginPs (pierOf t 0 0)); (pierOf t 0 0).benFall + 25600 ≤ rise) ∧ rise < (pierOf (pier0 0 { margin := 12, benFall := rise }) 0 0).benFall + 25600 := by decide +kernel

theorem witness_serial_numbers_are_measured : (pierOf (pier0 0 { snFrom := some 5 }) 0 0).snFrom = some 5 ∧ (pierOf up 0 0).snFrom = none := by decide +kernel

theorem witness_opening_is_cut_short : (let v := spanOf (sp0 { st := .closing, cutOpening := true }) 0; v.st = .closing ∧ v.cutOpening = true ∧ v.phase = 0) ∧ (let v := spanOf (sp0 { st := .closing }) 0; v.st ≠ .opening ∧ v.cutOpening = false) := by decide +kernel

/-- A Truss that runs a word of its own store at 0, and one inside an open call whose page holds the word at 0x1800. -/
def inStore (w : BitVec 192) : Truss := { running := true, cursor := .prologue, store := [w] }
def inPage (w : BitVec 192) : Truss := { running := true, cursor := .pass1 [], call := some { call0 with limit := 100 }, page := some ⟨[w], [0], []⟩, addr := 0x1800 }

/-- A word of port 1, operation 2, whose parameter is 16, and one whose SEQ code is as given. -/
def portWord : BitVec 192 := BitVec.ofNat 192 (1 * 2 ^ 98 + 2 * 2 ^ 94 + 16 * 2 ^ 64)
def seqWord (n : Nat) : BitVec 192 := BitVec.ofNat 192 (n * 2 ^ 176)

theorem witness_truss_words_of_every_kind :
    (let s := truss0 (inStore 0); let t := trussOf s 0; t.running = true ∧ t.cursor ≠ .done ∧ inCall t = none ∧ reservedWord (storeWord t t.addr).toNat = false ∧ (portOp 0 0 0 0 0 0 none s).undef = none) ∧
    (let s := truss0 (inPage 0); let t := trussOf s 0; inCall t = some { call0 with limit := 100 } ∧ reservedWord (storeWord t t.addr).toNat = false ∧ ({ call0 with limit := 100 } : OpenCall).steps + wordCost 0 ≤ 100) ∧
    (let s := truss0 (inStore portWord); let n := (storeWord (trussOf s 0) 0).toNat; reservedWord n = false ∧ nfld n 101 98 = 1 ∧ nfld n 97 94 = 2 ∧ nfld n 71 64 = 16 ∧ (portOp 0 1 2 0 0 16 none s).undef = some "R282") ∧
    (∀ k ≤ 4, nfld (seqWord k).toNat 178 176 = k ∧ reservedWord (seqWord k).toNat = false ∧ formed (seqWord k).toNat 0 = 0) ∧ nfld (2 ^ 142) 142 142 = 1 ∧ formed (0x1800 * 2 ^ 179) 0 = 0x1800 := by decide +kernel

theorem witness_sequences_go_on_or_fault : let own := trussOf (truss0 (inStore 0)) 0; let open_ := trussOf (truss0 (inPage 0)) 0; let c : OpenCall := { call0 with limit := 100 };
    (inCall own = none ∧ inCall open_ = some c ∧ (0 : Nat) < 0x1800 ∧ ¬ (0x1800 : Nat) < 0x1800) ∧
    (8 ≤ ({ open_.regs with stack := List.replicate 8 0 } : TRegs).stack.length ∧ 4 ≤ (List.replicate 5 0 : List Nat).length - c.depth ∧ ¬ 8 ≤ own.regs.stack.length) ∧
    (own.regs.stack = [] ∧ own.entry ≠ 8) ∧ (let t := { own with regs := { own.regs with stack := [0x1801] } }; t.regs.stack = 0x1801 :: [] ∧ inCall t = none) ∧
    (let t (a : Nat) := { open_ with regs := { open_.regs with stack := [a, 0] } }; (t 5).regs.stack = 5 :: [0] ∧ inCall (t 5) = some c ∧ ([0] : List Nat).length + 1 ≠ c.depth ∧ (5 : Nat) < 0x1800 ∧ 0x1800 ≤ (0x1801 : Nat)) ∧
    (let d := { c with vendor := false }; let t := { open_ with regs := { open_.regs with stack := [5] }, call := some d }; t.regs.stack = 5 :: [] ∧ inCall t = some d ∧ ([] : List Nat).length + 1 = d.depth ∧ d.vendor = false) ∧
    (let t := trussOf (truss0 { inStore 0 with entry := 16 }) 0; t.entry = 16 ∧ inCall t = none ∧ own.entry ≠ 16) ∧ own.regs.cur = none := by decide +kernel

/-- A Truss of the example's Span with its allocation selected, whose slice has an entry of the open bank: SEQ 3 opens a call. -/
theorem witness_open_call_begins : let s : Machine.State := { up with pon := { spans := [(0, { st := .opened, truss := { inStore 0 with regs := { cur := some 0 } } })], allocs := [(0, alloc0)], active := some ⟨[0], [0], []⟩, openOff := false, binds := [(0, (0, 120))] } };
    (trussOf s 0).regs.cur = some 0 ∧ (allocAt s 0 0).isSome = true ∧ openEntry s (allocOwner s 0 0) = some (0x1800, 120) ∧ allocOf s 0 0 = some alloc0 ∧ allocAt s 0 0 ≠ none ∧ allocOwner s 0 0 = 0 ∧ allocOwner s 0 0 ≠ 1 ∧
      allocAt s 0 1 = none ∧ 3 / 4 % 4 ≠ 3 ∧ 12 / 4 % 4 = 3 := by decide +kernel

theorem witness_stage_room : (128 ≤ ({ writes := List.replicate 128 .pop } : Truss).writes.length ∧ ({} : Truss).writes.length < 128) ∧ ((15 : Nat) ≤ 15 ∧ 15 < (16 : Nat) ∧ (12 : Nat) ≤ 12 ∧ (11 : Nat) < 12 ∧ (8 : Nat) ≤ 11) ∧ (1 : Word).toNat ≠ 0 ∧ (0 : Word).toNat = 0 := by decide +kernel

theorem witness_firings_slip_in_turn : (let e : KEntry := { words := [0x80000000, 0, 0, 1000, 0] }; let s := key0 e; firstSlip s 0 0 = true ∧ dueFiring s 0 0 = some (e, 0)) ∧
    (let e : KEntry := { words := [0x90000000, 0, 0, 1000, 0] }; let s := upTime fun t => { t with keystone := (List.range 10).map fun n => (n, e) }; (List.range 10).map (fun n => slipOf s n 0) = [0, 0, 0, 0, 0, 0, 0, 0, 1, 1] ∧ firstSlip s 8 0 = true ∧ firstSlip s 9 0 = false) := by decide +kernel

theorem witness_devices_answer_late : (let f : LFrame := ⟨2, true, 3, 0, 0, none, false, false, none, some 5⟩; let s := bus0 { frame := some f, readLat := 15 }; (loopBus s 0).frame = some f ∧ f.write = true ∧ (loopBus s 0).readLat.testBit (deviceOf f.conv) = true ∧ f.out = some 5 ∧ f.loop = none) ∧
    (let f : LFrame := ⟨2, false, 3, 0, 0, some 0, false, true, none, none⟩; let s := bus0 { frame := some f, readLat := 15, pend := [(deviceOf 3, f)] }; (loopBus s 0).frame = some f ∧ f.again = true ∧ kget (loopBus s 0).pend (deviceOf f.conv) = some f) ∧
    (let f : LFrame := ⟨2, true, 3, 0, 0, some 0, false, false, none, none⟩; f.out = none ∧ f.loop = some 0 ∧ (loopOf (bus0 { loops := [(0, { busy := true })] }) 0 0).busy = true ∧ (loopOf up 0 0).busy = false) := by decide +kernel

theorem witness_lanes_slip : (let s := upLane fun l => { l with ports := [(16, { mode := 8, link := true })] }; ((lanesOf s 16).filter fun l => ([1] : List (Fin 8)).any fun i => l = 16 + i.val) ≠ [] ∨ portLanes (portOf s 16).mode = 1) ∧
    (((lanesOf port0 0).filter fun l => ([0] : List (Fin 8)).any fun i => l = 0 + i.val) = [0] ∧ (portOf port0 0).link = true ∧ portLoop (laneSlip 0 port0) 0 = 0) ∧
    (let s := { port0 with lane := { port0.lane with lanes := [(0, { loopback := 3 })] } }; loopedLane s 0 = 0 ∧ portLoop s 0 = 3) := by decide +kernel

theorem witness_partition_may_fall_short : (let s := upFwd fun f => { f with lowWater := [(0, 10000000)] }; ((lowTold (lowRejudge s)).filter fun h => !(lowTold s).contains h) = [0]) ∧ ((lowTold (lowRejudge up)).filter fun h => !(lowTold up).contains h) = [] := by decide +kernel

theorem witness_shapers_park : (let x : Shaper := { set := { pir := 1000000, pbs := 4000 }, peak := -1 }; let v := x.wanted; v.pir ≠ unshaped ∧ x.peak < 0 ∧ x.waitP = none ∧ ({ x with comm := -1 } : Shaper).comm < 0) ∧ (({} : Shaper).wanted.pir = unshaped ∧ (0 : Int) ≤ ({} : Shaper).comm) ∧
    shaperOf up (.budget 0 0) = some (200, (upBudget up 0 0).sh, false) ∧ (shaperOf (tree (queue0 [])) (.l1 0 0)).isSome = true ∧ (shaperOf (tree (queue0 [])) (.l2 0 0)).isSome = true ∧ shaperOf up (.l1 3 8191) = none ∧
    (let c : PierSched := { waiting := some none, line := [⟨0, 0, 130000000, 0, 0, 14⟩] }; overruns none c.swapPs c.line = 0) := by decide +kernel

theorem witness_late_frames_are_sent : (let e : KEntry := { words := [0xB4000000, 0, 0, 0, 0] }; let s := upTime fun t => { t with keystone := [(0, e)] }; sendLate s 0 = true ∧ sendLate up 0 = false) := by decide +kernel

theorem witness_selector_follows : (let s (a : Nat) (f : Bool) := tdmUp fun t => { t with msp := { arch := a, want := some 1, fail := f }, lanes := [(1, { k2 := 0x10 })] }; (s 1 false).tdm.msp.want = some 1 ∧ (s 1 false).tdm.msp.arch = 1 ∧
      ((s 2 false).tdm.msp.arch = 2 ∧ (s 2 false).tdm.msp.fail = false ∧ nfld (sdhOf (s 2 false) 1).k2 7 4 = 1) ∧ (s 2 true).tdm.msp.fail = true ∧ (s 2 true).tdm.msp.selected ≠ 1) ∧ up.tdm.msp.want = none ∧ up.tdm.msp.selected = 0 := by decide +kernel

theorem witness_circuits_align_and_justify : ({} : Circuit).mode ≠ 2 ∧ ({ mode := 2 } : Circuit).mode = 2 ∧ isFas 0x9B = true ∧ isFas 0 = false ∧ (let c : Circuit := { slack := 999999999, freq := 1 }; 1000000000 ≤ c.slack + 1024 * c.freq) ∧
    (let c : Circuit := { slack := -999999999, freq := -1 }; c.slack + 1024 * c.freq ≤ -1000000000) ∧ (let c : Circuit := {}; -1000000000 < c.slack + 1024 * c.freq ∧ c.slack + 1024 * c.freq < 1000000000) := by decide +kernel

theorem witness_keys_done : (let s (p : PairSt) (k : PairKeySt) := { (upRed fun r => { r with pair := { r.pair with st := p } }) with ciph := { pair := { st := k } } }; (s .keying .established).red.pair.st = .keying ∧ (s .keying .established).ciph.pair.st = .established ∧
      (s .paired .established).red.pair.st ≠ .keying ∧ (s .paired .failed).ciph.pair.st ≠ .established) := by decide +kernel

theorem witness_hawser_lines_carry : (let s (x : Lane) (h : Bool) := { (upRed fun r => { r with hawser := { r.hawser with up := h, inUse := [0] } }) with lane := { lanes := [(24, x)] } }; hawserContent (s { st := .on, gen := true } true) 0 = 1 ∧ hawserContent (s { st := .on } true) 0 = 3 ∧
      hawserContent (s { st := .on } false) 0 = 2 ∧ hawserContent (s { st := .on, txLol := true } true) 0 = 0 ∧ hawserContent up 0 = 0 ∧ (laneOf (s { st := .on, gen := true } true) 24).gen = true) := by decide +kernel

theorem witness_commits_arrive : (let s := mate true {}; (∃ sp < 32, (spanOf s sp).paired = true) ∧ s.tb + 20 * us ≤ 100 * frameTb ∧ 0 * frameTb < s.tb + 20 * us) ∧ ¬ (∃ sp < 32, (spanOf up sp).paired = true) ∧
    (⟨[], (0, 100), true, some (5, 6)⟩ : MirSpan).model = some (5, 6) ∧ pw [5, 0, 0x80000007, 0] 1 = 0 ∧ bit (pw [5, 0, 0x80000007, 0] 2) 31 = true := by decide +kernel

theorem witness_mate_is_confirmed_lost : (let s := mate true { runs := [⟨0, 5, true, none⟩] }; (standbySpans s).filter (switching s) = [0] ∧ standbySpans s ≠ []) ∧
    (let s := mate true { st := .mateLost, confirming := [0] }; s.red.pair.st = .mateLost ∧ s.red.pair.confirming = [0] ∧ switching s 0 = true) ∧ (mate true { st := .bulk }).red.pair.st = .bulk := by decide +kernel

/-! ### The spec's worked examples -/

/-- The X-pier of Span 14 in the examples of R192 and R226. -/
def pier14 : Pier :=
  { nDown := 1468200, margin := 12, enable := true, tTx := 1842, tRx := 2317, teqd := 234000, txOn := true, rxOn := true,
    profs := [(0, ⟨0, false, false, true, 0, 3, 32, 0, 0⟩)] }

/-- R194: the ONU that answers 216.960 µs after its window's start gets EqD 73,643 with O of −26 ps, at 17,301 m. -/
theorem test_ranging_example :
    let s := upPon fun p => { p with
      spans := [(0, { st := .opened, diff := 10000, reachMargin := 200, reachMax := 20000 })], piers := [(1, pier14)]
      onus := [(0, { st := .ranging, pier := 1, rate := 0, meas := some ⟨216960000, 12560000⟩ })] }
    let x := onuOf (ranged 0 0 (44 * 64 + 53) s) 0 0
    x.eqd = 73643 ∧ roundAway x.offset = -26 ∧ x.distance = 17301 := by decide +kernel

/-- R226: A is 31.670 ns and the fraction 33,554. -/
theorem test_tod_calc_example :
    let s : Machine.State := { up with
      tb := (14387296050001 - 8000) * frameTb, pon := { piers := [(1, pier14)], onus := [(0, { st := .active, pier := 1, eqd := 73642, offset := 31 / 10 })] }
      time := { asym := [(1, { dispDn := 1950, dispUp := -400, dlDn := 800, dlUp := -6000 })] } }
    ((todCalc 0 [1, 8000] s).toOption.map fun l => l.drop 2) = some [wd (1798412006250125033 % 2 ^ 32), wd (1798412006250125033 / 2 ^ 32), 33554, 31670] := by
  decide +kernel

/-- R264: the discovery window of map 100 reserves [5,905, 38,880) in map 99, [0, 14,287) in map 100, and nothing beside them. -/
theorem test_quiet_window_example :
    let s : Machine.State := upPon fun p => { p with spans := [(5, { st := .opened, truss := { reach := (9600, 20000) } })], piers := [(16, pier14)] }
    let w := windowAt s 5 1 2 none 0 0 100
    ([98, 99, 100, 101].map fun m => w.reserves 234000000 m) = [none, some (5905, 38880), some (0, 14287), none] := by decide +kernel

/-- An allocation of the full X-pier frame's example. -/
def alloc5 (o mode rf ra rna rm w d : Nat) : Alloc :=
  { onu := o, pier := 1, line := 2000, mode := mode, policy := false, weight := w, poll := 2, si := 1, siPhase := 0, rf := rf, ra := ra, rna := rna,
    rm := rm, place := 1, longProf := 0, shortProf := 0, told := true, report := if mode = 1 then some (d, 10) else none, pollAge := if o = 41 then 2 else 0 }

/-- The Truss after a number of the vendor routine's commit intervals. -/
def afterIntervals : Nat → Machine.State → Machine.State
  | 0, s => s
  | n + 1, s => if (trussOf s 5).cursor = .done then s else afterIntervals n (vendorStep 5 s)

/-- The state of the example of the full X-pier frame (after R268), before its frame routine runs. -/
def frameExample : Machine.State :=
  let on : Onu := { st := .active, pier := 1 }
  { up with
    ctl := { up.ctl with allocRanges := [(37, (0, 2)), (69, (8, 2))] }
    pon := { spans := [(5, { st := .opened, discDue := false })], piers := [(16, { pier14 with rotation := some 8 })]
             onus := [(2563, on), (2600, on), (2601, on)]
             allocs := [(10240, alloc5 3 1 0 20000 20000 120000 2 90000), (10241, alloc5 3 0 2000 0 0 2000 1 0),
                        (10248, alloc5 40 1 0 10000 0 70000 1 95000), (10249, alloc5 41 1 0 0 0 30000 1 0)]
             budgets := [(112, 24000), (208, 20000)] } }

/-- The full X-pier frame after R268: what each allocation is granted, and where each burst lies. -/
theorem test_full_frame_example :
    (((pierOf (mapCutoff 5 (afterIntervals 60 (startRoutine 5 8 frameExample))) 5 1).next.map fun m => m.grants.map fun g => (g.start, g.n, g.allocs)) ==
      some [(9, 23012, [(0, 90000, true), (1, 2000, false)]), (23021, 15856, [(8, 63376, true)]), (38877, 12, [(9, 0, true)])]) = true := by decide +kernel

/-- The Truss after a number of micro-words. -/
def afterWords : Nat → Machine.State → Machine.State
  | 0, s => s
  | n + 1, s => match microStep 5 false s with | .inl t => afterWords n t | .inr _ => s

/-- The open page of the complete routine. -/
def openPage : OpenPage :=
  ⟨[0xc008000000000000188002844000000c0000000000000000, 0xc01000000000000028414304400000040000000000000000,
               0xc01800000000000080d08300000000000000000000000000, 0xc02000000000000080818380000000000000000000000000,
               0xc028000000000000f0f28400000000000000000000000000, 0xc03000000000000000000018000800010000000000000000,
               0xc038000000000000d8528480000000000000000000000000, 0xc04000000000000040c24300000000000000000000000000,
               0x2000000004000196000048006000c0000000000000000], [0], []⟩

/-- The state of the example of the complete open-bank routine (after R302), before its frame routine runs. -/
def openExample : Machine.State :=
  { up with
    ctl := { up.ctl with allocRanges := [(37, (0, 2))] }
    pon := { spans := [(5, { st := .opened, discDue := false, truss := { page := some openPage } })], piers := [(16, { pier14 with rotation := some 0 })], onus := [(2563, { st := .active, pier := 1 })]
             allocs := [(10240, { alloc5 3 1 0 12000 0 40000 1 51500 with policy := true, st := [30000, 0, 0, 0] })], budgets := [(112, 6512)]
             openOff := false, binds := [(1, (0, 120))]
             active := some openPage } }

/-- The complete routine stages 6,500 units, leaves 14,000 tokens in ST0 and costs 23 steps. -/
theorem test_open_routine_example :
    let s := afterWords 11 (startRoutine 5 8 openExample)
    ((allocOf s 5 0).map fun a => pw a.st 0) = some 14000 ∧ ((entriesOf s 5 1).map fun e => (e.size, e.units)) = [(6500, 6512)] ∧
      (trussOf s 5).now.maxSteps = [(1, 23)] := by decide +kernel

/-- A FINISH that wins before word 0x1806 discards the stage; the call then costs 41 steps with the same result. -/
theorem test_open_routine_finish :
    let s := afterWords 10 (finishEntry 5 (afterWords 8 (startRoutine 5 8 openExample)))
    ((allocOf s 5 0).map fun a => pw a.st 0) = some 14000 ∧ (trussOf s 5).now.maxSteps = [(1, 41)] := by decide +kernel

/-- R331: the insertion of a /17 moves one entry of each later group; 10 slots are used then. -/
theorem test_lpm_insert_example :
    let f (v6 : Bool) (a l : Nat) (r : BitVec 64) : Machine.Prefix := ⟨v6, 7, a, l, r⟩
    let x := lpmInsert (lpmInsert (lpmInsert (lpmInsert (lpmInsert {} (f false 0 0 4)) (f false 0x0A070000 16 3)) (f false 0x0A070100 24 2))
      (f true (0x20010DB80007 * 2 ^ 80) 48 1)) (f false 0x0A078000 17 5)
    ((lpmSlotsFrom 0 (lpmCells x)).map fun e => (e.1, e.2.res)) = [(0, 1), (2, 2), (4, 5), (6, 3), (8, 4)] ∧ lpmUsed x = 10 := by decide +kernel

/-- R331: the hole that a deletion leaves is filled by the last entry of the group. -/
theorem test_lpm_delete_moves_the_last :
    let f (a : Nat) (r : BitVec 64) : Machine.Prefix := ⟨false, 7, a * 2 ^ 8, 24, r⟩
    let x := lpmDelete (lpmInsert (lpmInsert (lpmInsert {} (f 1 1)) (f 2 2)) (f 3 3)) false 7 (1 * 2 ^ 8) 24
    ((lpmSlotsFrom 0 (lpmCells x)).map fun e => (e.1, e.2.res)) = [(0, 3), (1, 2)] ∧ lpmUsed x = 2 := by decide +kernel

/-- R376: after three charges of 1,508 bytes the credit is −199 bytes and the entry becomes eligible 1.6 µs later. -/
theorem test_shaper_example :
    let ns (t : Nat) : Nat := t * 2 ^ 40
    let x : Shaper := { set := { pir := 1000000, pbs := 4000 }, peak := 4000 * 65536, at_ := ns 99900 }
    let c (t : Nat) (x : Shaper) : Shaper := (caught 200 x (ns t)).charge 1508 false
    let y := c 102600 (c 101300 (c 100000 x))
    y.peak = -199 * 65536 ∧ eligAt 200 102600 (incOf 1000000 200) y.peak = some 104200 := by decide +kernel

/-- R376: settings that wait are taken up by the refill at their apply point. -/
theorem test_shaper_new_settings :
    let x : Shaper := { set := { pir := 1000000, pbs := 4000 }, peak := 2576 * 65536, at_ := 124800 * 2 ^ 40, next := some { pir := 500000, pbs := 2000 } }
    (caught 200 x (125000 * 2 ^ 40)).peak = 2000 * 65536 := by decide +kernel

/-- R352: the third record of the example joins the open train at offset 1,536. -/
theorem test_spill_record_sizes : recordSize 1500 = 1536 ∧ recordSize 9000 = 9216 ∧ recordSize 2000 = 2048 ∧ trainHank (recordSize 1500) 2 = 2 := by decide +kernel

end Sys2Proof.Tests
end

/-! PROOFS. The checks in front of every call (R6, R47, R60, R62, R77, R79, R90, R99): each call row runs behind them, how they end in
each case, and what a refused call answers. -/

namespace Sys2Proof.Machine

/-! ### Every call row runs behind the checks -/

/-- What a call leaves behind the checks: their end where they do not pass, `served` where they do. -/
def behindChecks (sp : CallSpec) (c : Call) (s : State) (served : Out) : Out :=
  match front sp c s with
  | .idle => .next s
  | .undefined_ r => .fault (.undefinedUse r)
  | .refuse st => .next (respond sp.code c st [] (readCall sp.code c s))
  | .ok => served

/-- `serve` puts its body behind the checks. -/
theorem serve_eq_behindChecks (sp : CallSpec) (c : Call) (s : State) (body : State → State) :
    serve sp c s body = behindChecks sp c s (.next (body (readCall sp.code c s))) := rfl

/-- A transactional row is staged behind the checks. -/
theorem exec_of_txnRow {i : Instr} {t : TxnCall} {c : Call} (h : txnRow i = some (t, c)) (s : State) : exec i s = txnServe t c s := by
  unfold txnRow at h
  split at h <;> cases h <;> rfl

/-- A row whose call acts or answers as it is read does so behind the checks. -/
theorem exec_of_plainRow {i : Instr} {sp : CallSpec} {c : Call} (h : plainRow i = some (sp, c)) (s : State) :
    ∃ served, exec i s = behindChecks sp c s served := by
  unfold plainRow at h
  split at h <;> cases h <;> exact ⟨_, rfl⟩

/-- Every call row runs behind the checks. -/
theorem exec_of_callRow {i : Instr} {sp : CallSpec} {c : Call} (h : callRow i = some (sp, c)) (s : State) :
    ∃ served, exec i s = behindChecks sp c s served := by
  unfold callRow at h
  split at h
  case h_1 t c' ht =>
    cases h
    exact ⟨_, (exec_of_txnRow ht s).trans (serve_eq_behindChecks t.spec c s (stageCall t c))⟩
  case h_2 => exact exec_of_plainRow h s

/-! ### What each end of the checks leaves -/

section
variable {sp : CallSpec} {c : Call} {s : State} (served : Out)

/-- A call that is not read yet changes nothing. -/
theorem behindChecks_idle (h : front sp c s = .idle) : behindChecks sp c s served = .next s := by simp [behindChecks, h]

/-- A refused call leaves its queue and is answered. -/
theorem behindChecks_refused {st : Status} (h : front sp c s = .refuse st) :
    behindChecks sp c s served = .next (respond sp.code c st [] (readCall sp.code c s)) := by simp [behindChecks, h]

/-- Undefined use stops the model. -/
theorem behindChecks_undefined {r : String} (h : front sp c s = .undefined_ r) :
    behindChecks sp c s served = .fault (.undefinedUse r) := by simp [behindChecks, h]

end

/-! ### How the checks end -/

section
variable {sp : CallSpec} {c : Call} {s : State}

/-- Saend does not run, 64 calls wait, or another message is before this one (R60, R62). -/
theorem front_idle (h : s.boot.ready = false ∨ 64 ≤ (chanOf s c.chan).waiting.length ∨ nextCall sp.code c (chanOf s c.chan) = false) :
    front sp c s = .idle := by
  unfold front
  rw [if_pos]
  simpa [or_assoc] using h

variable (hready : s.boot.ready = true) (hroom : (chanOf s c.chan).waiting.length < 64)
  (hnext : nextCall sp.code c (chanOf s c.chan) = true)
include hready hroom hnext

/-- No session is open, and the call needs one (R77). -/
theorem front_badState (hnone : (chanOf s c.chan).session = none) (hopen : sp.code ≠ 0x0001) (hping : sp.code ≠ 0x0003) :
    front sp c s = .refuse .badState := by
  simp [front, hready, hroom, hnext, hnone, hopen, hping]

variable (hsession : (chanOf s c.chan).session.isSome = true ∨ sp.code = 0x0001 ∨ sp.code = 0x0003)
include hsession

/-- Where a session is open or not needed, the checks on the version, the identity, the length and the reserved bits remain. -/
theorem front_of_session : front sp c s =
    if versionOf s c.chan < sp.intro then .refuse .badCall
    else if !mayCall s sp c.chan then .refuse .notOwner
    else if !sp.lens.contains c.words.length then .refuse .badArg
    else if reservedSet sp.used c.words then .undefined_ "R6" else .ok := by
  have hread : ¬ (!s.boot.ready || decide (64 ≤ (chanOf s c.chan).waiting.length) || !nextCall sp.code c (chanOf s c.chan)) = true := by
    simpa [hready, hnext] using hroom
  have hsess : ¬ ((chanOf s c.chan).session.isNone && decide (sp.code ≠ 0x0001) && decide (sp.code ≠ 0x0003)) = true := by
    rcases hsession with h | h | h
    · simp [Option.isNone_eq_false_iff.mpr h]
    · simp [h]
    · simp [h]
  exact (if_neg hread).trans (if_neg hsess)

end

/-! ### A code that the session may not use -/

/-- A layout whose every word is a field has no reserved bit. -/
theorem reservedSet_all_used (ws : List Word) (n : Nat) (h : ws.length ≤ n) : reservedSet (List.replicate n 0xFFFFFFFF) ws = false := by
  induction ws generalizing n with
  | nil => simp [reservedSet]
  | cons w ws ih =>
    cases n with
    | zero => simp at h
    | succ m =>
      have hmask : ~~~ wd 0xFFFFFFFF = 0 := rfl
      simp [List.replicate_succ, reservedSet, hmask, ih m (by simpa using h)]

/-- The row that a message with an unknown code is read under: anyone's, any payload. -/
def badCallSpec (code : Nat) : CallSpec :=
  { code := code, who := .any, intro := 0, lens := List.range 16, used := List.replicate 15 0xFFFFFFFF }

/-- A message whose code the session may not use passes the checks in front. -/
theorem served_badCallSpec {code : Nat} {c : Call} {s : State} (hready : s.boot.ready = true) (hroom : (chanOf s c.chan).waiting.length < 64)
    (hsession : (chanOf s c.chan).session.isSome = true) (hlen : c.words.length ≤ 15) (hnext : nextCall code c (chanOf s c.chan) = true) :
    Served (badCallSpec code) c s :=
  ⟨hready, hroom, hnext, .inl hsession, Nat.zero_le _, by simp [mayCall, badCallSpec], by simp [badCallSpec]; omega,
    reservedSet_all_used c.words 15 hlen⟩

/-- What BAD_CALL_RECEIVED does with a code that the session may not use. -/
theorem exec_badCallReceived {code : BitVec 16} {c : Call} {s : State} (h : introduced code.toNat (versionOf s c.chan) = false) :
    exec (.badCallReceived code c) s = serve (badCallSpec code.toNat) c s fun s => respond code.toNat c .badCall [] s := by
  show execBadCallReceived code c s = _
  simp [execBadCallReceived, h, badCallSpec]

/-- Settles O3: every call row runs behind `front`, and each case of the statement is one of the ways in which `front` ends. -/
theorem callsAreCheckedFirst : Obligations.CallsAreCheckedFirst := by
  unfold Obligations.CallsAreCheckedFirst
  refine ⟨fun i sp c s hrow => ?_, fun code c s hcode hready hroom hsession hlen hnext => ?_⟩
  · obtain ⟨served, hexec⟩ := exec_of_callRow hrow s
    simp only [hexec]
    refine ⟨fun h => behindChecks_idle _ (front_idle h), fun hready hroom hnext => ⟨fun hnone hopen hping =>
      behindChecks_refused _ (front_badState hready hroom hnext hnone hopen hping), fun hsession => ?_⟩⟩
    have hfront := front_of_session hready hroom hnext hsession
    refine ⟨fun hold => behindChecks_refused _ (by simp [hfront, hold]), fun hintro => ?_⟩
    rw [if_neg (Nat.not_lt.mpr hintro)] at hfront
    refine ⟨fun hwho => behindChecks_refused _ (by simp [hfront, hwho]), fun hwho => ?_⟩
    refine ⟨fun hlen => behindChecks_refused _ ?_, fun hlen hres => behindChecks_undefined _ ?_⟩
    · simp only [hfront, hwho, hlen, Bool.not_true, Bool.not_false, Bool.false_eq_true, if_true, if_false]
    · simp only [hfront, hwho, hlen, hres, Bool.not_true, Bool.false_eq_true, if_true, if_false]
  · exact (exec_badCallReceived hcode).trans (serve_served (served_badCallSpec hready hroom hsession hlen hnext) _)

end Sys2Proof.Machine

/-! PROOFS. The state right after reset (R27, R45, R72, R76, R114, R121, R306, R309, R367, R415, R452, R536): every table is empty, so
each object reads as its default. -/

namespace Sys2Proof.Machine

/-! ### Right after reset every table is empty and reads its default -/

/-- No VF and no SMB channel is bound to a slice at reset; channel 0 is slice 0's (R45). -/
theorem sliceOf_reset (ch : Nat) : sliceOf State.reset ch = if ch = 0 then some 0 else none := by
  unfold sliceOf
  split
  · rfl
  · split <;> rfl

/-- At reset a Cleat lets every function and the SMB channel claim it (R72). -/
theorem mayUse_cleat_reset {ch : Nat} (n : Nat) (h : ch < 16 ∨ ch = 18) : mayUse (cleatOf State.reset n) ch = true := by
  show (if ch = 18 then true else ch < 16 && (0xFFFF : Nat).testBit ch) = true
  split
  · rfl
  · have hlt : ch < 16 := by omega
    interval_cases ch <;> rfl

/-- Every pier is disabled with FEC on downstream at reset, whatever its kind. -/
theorem pierOf_reset (sp p : Nat) : (pierOf State.reset sp p).enable = false ∧ (pierOf State.reset sp p).fecDs = true := by
  show (pierReset p).enable = false ∧ (pierReset p).fecDs = true
  unfold pierReset
  split
  · exact ⟨rfl, rfl⟩
  · split <;> exact ⟨rfl, rfl⟩

/-- Settles O2: every table of the reset state is empty, so each object reads as its default. -/
theorem resetHoldsTheValuesGiven : Obligations.ResetHoldsTheValuesGiven := by
  unfold Obligations.ResetHoldsTheValuesGiven
  exact ⟨sliceOf_reset 0, fun ch hlow _ => (sliceOf_reset ch).trans (if_neg (by omega)), rfl, rfl, fun _ => rfl,
    fun n _ hch => mayUse_cleat_reset n hch, fun _ => rfl, fun _ => rfl, fun _ => rfl, fun _ _ => rfl, fun _ => rfl, fun _ => rfl,
    pierOf_reset, fun _ _ => rfl, rfl, rfl, rfl, rfl, fun _ _ => rfl, fun _ _ => ⟨rfl, rfl, rfl⟩, fun _ => ⟨rfl, rfl, rfl⟩, rfl, rfl⟩

end Sys2Proof.Machine

/-! PROOFS. The calls that read the forwarding tables, and the flush (R18, R318, R330, R340 to R342): what the body of each gives. -/

namespace Sys2Proof.Machine

/-! ### What the bodies of the reading calls give -/

section
variable {ch : Nat} {ws : List Word} {s : State}

/-- A key that the caller may not name, or that has no layout, refuses the read. -/
theorem fdbRead_refused {e : Status} (h : keyOk s ch (wide ws 1 4) = .error e) : fdbRead ch ws s = .error e := by
  simp [fdbRead, h]

/-- A read of an absent key. -/
theorem fdbRead_absent (h : keyOk s ch (wide ws 1 4) = .ok ()) (hkey : findKey (pipeOf s (fld (pw ws 0) 29 28)) (wide ws 1 4) = none) :
    fdbRead ch ws s = .ok [0, 0, 0] := by
  simp only [fdbRead, h, hkey, res_bind_ok]
  rfl

/-- The bits of FDB_READ's first response word that say where an entry stands. -/
def placeWord : Where → Word
  | .bucket b i => put i 28 ||| wd b
  | .overflow i => putb true 30 ||| wd i

/-- A read of a key that is listed gives its place and its result. -/
theorem fdbRead_found {p : Where} {e : FdbEntry} (h : keyOk s ch (wide ws 1 4) = .ok ())
    (hkey : findKey (pipeOf s (fld (pw ws 0) 29 28)) (wide ws 1 4) = some p)
    (hentry : entryAt (pipeOf s (fld (pw ws 0) 29 28)) p = some e) :
    fdbRead ch ws s = .ok ((putb true 31 ||| placeWord p) :: toWords 2 e.res.toNat) := by
  simp only [fdbRead, h, hkey, hentry, res_bind_ok]
  cases p <;> rfl

/-- Who may flush: slice 0 where the flush is not confined to a port, otherwise the owner of the port's ONU (R341, R342). -/
def mayFlush (ch : Nat) (w v : Word) (s : State) : Res Unit :=
  if bit w 27 = true ∨ bit w 26 = false then needOwner s ch 0
  else needOwnerOpt s ch ((kget s.fwd.ports (portKey v)).map fun o => onuOwner s (fld v 4 0) o.onu)

/-- A flush asks who may flush and then flushes the pipelines named. -/
theorem fdbFlush_eq : fdbFlush ch ws s = mayFlush ch (pw ws 0) (pw ws 1) s >>= fun _ =>
    let r := flushPipes (pipesOf (pw ws 0)) (pw ws 0) (pw ws 1) 0 s; .ok (r.1, [wd r.2]) := by
  simp only [fdbFlush, mayFlush, Bool.or_eq_true, Bool.not_eq_true']
  split <;> rfl

theorem fdbFlush_refused {e : Status} (h : mayFlush ch (pw ws 0) (pw ws 1) s = .error e) : fdbFlush ch ws s = .error e := by
  simp only [fdbFlush_eq, h, res_bind_error]

theorem fdbFlush_done (h : mayFlush ch (pw ws 0) (pw ws 1) s = .ok ()) : fdbFlush ch ws s =
    .ok ((flushPipes (pipesOf (pw ws 0)) (pw ws 0) (pw ws 1) 0 s).1, [wd (flushPipes (pipesOf (pw ws 0)) (pw ws 0) (pw ws 1) 0 s).2]) := by
  simp only [fdbFlush_eq, h, res_bind_ok]

/-- A flush that is not confined to a port is slice 0's. -/
theorem mayFlush_all {w v : Word} (h : bit w 27 = true ∨ bit w 26 = false) : mayFlush ch w v s = needOwner s ch 0 := if_pos h

/-- A flush of a port alone is its owner's. -/
theorem mayFlush_port {w v : Word} {r : PortRec} (hvid : bit w 27 = false) (hport : bit w 26 = true) (hr : kget s.fwd.ports (portKey v) = some r) :
    mayFlush ch w v s = needOwner s ch (onuOwner s (fld v 4 0) r.onu) := by
  simp only [mayFlush, hvid, hport, hr]
  rfl

/-- The bits of a field are the word's. -/
theorem testBit_fld (w : Word) (hi lo i : Nat) (h : lo + i ≤ hi) : (fld w hi lo).testBit i = bit w (lo + i) := by
  have hi' : i < hi + 1 - lo := by omega
  simp [fld, bit, Nat.testBit_mod_two_pow, Nat.testBit_div_two_pow, hi', Nat.add_comm]

/-- A mask with pipeline 0's bit alone names pipeline 0 alone. -/
theorem pipesOf_first {w : Word} (h : fld w 31 28 = 1) : pipesOf w = [0] := by
  have hbit (p : Nat) (hp : p < 4) : bit w (28 + p) = (1 : Nat).testBit p := by rw [← h, testBit_fld w 31 28 p (by omega)]
  have hfilter : pipesOf w = (List.range 4).filter fun p => (1 : Nat).testBit p :=
    List.filter_congr fun p hp => hbit p (List.mem_range.mp hp)
  exact hfilter.trans (by decide)

/-- A flush of pipeline 0 alone removes what its filters select there. -/
theorem fdbFlush_first (hmask : fld (pw ws 0) 31 28 = 1) (h : mayFlush ch (pw ws 0) (pw ws 1) s = .ok ()) : fdbFlush ch ws s =
    .ok (tableLevels 0 (setPipe 0 (removeLearned (pipeOf s 0) (flushes (pw ws 0) (pw ws 1))) s), [wd (countLearned (pipeOf s 0) (flushes (pw ws 0) (pw ws 1)))]) := by
  simp only [fdbFlush_done h, pipesOf_first hmask, flushPipes, Nat.zero_add]

/-- An owner test has one refusal. -/
theorem needOwner_not_ok {owner : Nat} (h : ¬ needOwner s ch owner = .ok ()) : needOwner s ch owner = .error .notOwner := by
  unfold needOwner needOwnerAs at h ⊢
  split at h
  · exact absurd rfl h
  · rename_i hnot; rw [if_neg hnot]

/-- What ROUTE_READ answers of a host route. -/
def hostAnswer : Option (BitVec 64) → List Word
  | some v => putb true 31 :: toWords 2 v.toNat
  | none => [0, 0, 0]

/-- What ROUTE_READ answers of any other route: its slot and its result. -/
def lpmAnswer : Option (Nat × Prefix) → List Word
  | some (n, q) => (putb true 31 ||| wd n) :: toWords 2 q.res.toNat
  | none => [0, 0, 0]

/-- ROUTE_READ of a VRF that is not the caller's. -/
theorem routeRead_notOwner (h : ¬ needOwner s ch (vrfOwner s (routeFrom (versionOf s ch) (pw ws 0) (wide ws 1 4) 0).pre.vrf) = .ok ()) :
    routeRead ch ws s = .error .notOwner := by
  simp only [routeRead, needOwner_not_ok h, res_bind_error]

variable (hmine : needOwner s ch (vrfOwner s (routeFrom (versionOf s ch) (pw ws 0) (wide ws 1 4) 0).pre.vrf) = .ok ())
include hmine

/-- ROUTE_READ of a route out of range. -/
theorem routeRead_badArg (hok : (routeFrom (versionOf s ch) (pw ws 0) (wide ws 1 4) 0).ok = false) : routeRead ch ws s = .error .badArg := by
  simp only [routeRead, hmine, hok, res_bind_ok, need_false, res_bind_error]

/-- ROUTE_READ of a host route looks its key up. -/
theorem routeRead_host (hok : (routeFrom (versionOf s ch) (pw ws 0) (wide ws 1 4) 0).ok = true)
    (hhost : (routeFrom (versionOf s ch) (pw ws 0) (wide ws 1 4) 0).host = true) :
    let r := routeFrom (versionOf s ch) (pw ws 0) (wide ws 1 4) 0
    routeRead ch ws s = .ok (hostAnswer (lookupKey (pipeOf s (fld (pw ws 0) 29 28)) (hostKey r.pre.vrf r.pre.addr))) := by
  simp only [routeRead, hmine, hok, hhost, res_bind_ok, need_true, if_true]
  split
  · rename_i v hfound; rw [hfound]; rfl
  · rename_i hnone; rw [hnone]; rfl

/-- ROUTE_READ of any other route searches the slots of the LPM. -/
theorem routeRead_lpm (hok : (routeFrom (versionOf s ch) (pw ws 0) (wide ws 1 4) 0).ok = true)
    (hhost : (routeFrom (versionOf s ch) (pw ws 0) (wide ws 1 4) 0).host = false) :
    let r := routeFrom (versionOf s ch) (pw ws 0) (wide ws 1 4) 0
    routeRead ch ws s = .ok (lpmAnswer (lpmFind (pipeOf s (fld (pw ws 0) 29 28)) r.pre.v6 r.pre.vrf r.pre.addr r.pre.len)) := by
  simp only [routeRead, hmine, hok, hhost, res_bind_ok, need_true, Bool.false_eq_true, if_false]
  split
  · rename_i n q hfound; rw [hfound]; rfl
  · rename_i hnone; rw [hnone]; rfl

end

/-- Settles O42: each call reads behind the checks, so that what its body gives is what it answers. -/
theorem forwardingTablesAreRead : Obligations.ForwardingTablesAreRead := by
  unfold Obligations.ForwardingTablesAreRead
  intro c s w
  refine ⟨fun h => ?distRead, fun h => ?fdbRead, fun h => ?fdbFlush, fun h => ?flushFirst, fun h => ?routeRead, fun h => ?fwdStatus⟩
  case distRead => exact serveRead_done h (fun s => .ok [put (kgetD s.fwd.dist (fld w 11 0) 0) 24]) rfl
  case fwdStatus => exact serveRead_done h (fun s => .ok (fwdStatus c.words s)) rfl
  case fdbRead =>
    refine ⟨fun e hkey => serveRead_refused h _ (fdbRead_refused hkey), fun hkey => ⟨fun hnone => ?_, fun b i e hfind hentry => ?_, fun i e hfind hentry => ?_⟩⟩
    · exact serveRead_done h _ (fdbRead_absent hkey hnone)
    · exact serveRead_done h _ (fdbRead_found hkey hfind hentry)
    · exact serveRead_done h _ (fdbRead_found hkey hfind hentry)
  case fdbFlush =>
    exact ⟨fun e hmay => serveAct_refused h _ (fdbFlush_refused hmay), fun hmay => serveAct_done h _ (fdbFlush_done hmay)⟩
  case flushFirst =>
    intro u v hmask
    refine ⟨fun hall hown => ?_, fun hvid hport r hr hown => ?_⟩
    · exact serveAct_done h _ (fdbFlush_first hmask ((mayFlush_all hall).trans hown))
    · exact serveAct_done h _ (fdbFlush_first hmask ((mayFlush_port hvid hport hr).trans hown))
  case routeRead =>
    refine ⟨fun hnot => ?_, fun hmine hok => ?_, fun hmine hok hhost => ?_, fun hmine hok hhost => ?_⟩
    · exact serveRead_refused h _ (routeRead_notOwner hnot)
    · exact serveRead_refused h _ (routeRead_badArg hmine hok)
    · exact serveRead_done h _ (routeRead_host hmine hok hhost)
    · exact serveRead_done h _ (routeRead_lpm hmine hok hhost)

end Sys2Proof.Machine

/-! PROOFS. The apply point's transactions (R39, R40, R81, R85, R560): each row's code names its own call, an item list runs as a fold,
and the accepted transactions stand in the order of their apply points, those of one point as they were accepted. -/

namespace Sys2Proof.Machine

/-! ### An item runs its own call -/

/-- The code of a transactional row names the call of that row. -/
theorem txnCall_of_txnRow {i : Instr} {t : TxnCall} {c : Call} (h : txnRow i = some (t, c)) : txnCall t.spec.code = some t := by
  unfold txnRow at h
  split at h <;> cases h <;> rfl

/-- What an item leaves: its effect, or nothing where it is refused (notes/assumptions/124). -/
def itemLeaves (ap : Item → State → Res State) (s : State) (i : Item) : State :=
  match ap i s with
  | .ok u => u
  | .error _ => s

/-- Items run one after another, each on what the one before left. -/
theorem runItems_st (ap : Item → State → Res State) (n : Nat) (items : List Item) (j : Judged) :
    (runItems ap n items j).st = items.foldl (itemLeaves ap) j.st := by
  induction items generalizing n j with
  | nil => rfl
  | cons i items ih =>
    unfold runItems
    cases h : ap i j.st with
    | ok u => simp [ih, itemLeaves, h]
    | error e => simp [ih, itemLeaves, h]

/-! ### The order of the accepted transactions -/

/-- When a transaction is due; 0 for one that is not accepted. -/
def dueAt (t : Txn) : Nat := (acceptedAt t).getD 0

theorem insertByTime_perm (t : Txn) (l : List Txn) : (insertByTime t l).Perm (t :: l) := by
  induction l with
  | nil => exact .refl _
  | cons u l ih =>
    unfold insertByTime
    split
    · exact .refl _
    · exact (ih.cons u).trans (.swap t u l)

/-- An insertion keeps the order of the apply points. -/
theorem insertByTime_pairwise (t : Txn) (l : List Txn) (h : l.Pairwise fun x y => dueAt x ≤ dueAt y) :
    (insertByTime t l).Pairwise fun x y => dueAt x ≤ dueAt y := by
  induction l with
  | nil => exact List.pairwise_singleton _ t
  | cons u l ih =>
    obtain ⟨hu, hl⟩ := List.pairwise_cons.mp h
    unfold insertByTime
    split
    case isTrue hlt =>
      refine List.pairwise_cons.mpr ⟨fun x hx => ?_, h⟩
      rcases List.mem_cons.mp hx with rfl | hx
      · exact Nat.le_of_lt hlt
      · exact Nat.le_trans (Nat.le_of_lt hlt) (hu x hx)
    case isFalse hge =>
      refine List.pairwise_cons.mpr ⟨fun x hx => ?_, ih hl⟩
      rcases List.mem_cons.mp ((insertByTime_perm t l).mem_iff.mp hx) with rfl | hx
      · exact Nat.not_lt.mp hge
      · exact hu x hx

/-- Among the transactions of one apply point the inserted one is last. -/
theorem filter_insertByTime (t : Txn) (l : List Txn) (a : Nat) (h : l.Pairwise fun x y => dueAt x ≤ dueAt y) :
    (insertByTime t l).filter (fun x => acceptedAt x = some a) = (l ++ [t]).filter fun x => acceptedAt x = some a := by
  induction l with
  | nil => rfl
  | cons u l ih =>
    obtain ⟨hu, hl⟩ := List.pairwise_cons.mp h
    unfold insertByTime
    split
    case isFalse => simp [List.filter_cons, ih hl]
    case isTrue hlt =>
      by_cases ht : acceptedAt t = some a
      · have hta : dueAt t = a := by simp [dueAt, ht]
        have hlater (x : Txn) (hx : x ∈ u :: l) : ¬ acceptedAt x = some a := by
          intro hxa
          have hxa' : dueAt x = a := by simp [dueAt, hxa]
          have hux : dueAt u ≤ dueAt x := by
            rcases List.mem_cons.mp hx with rfl | hx
            · exact Nat.le_refl _
            · exact hu x hx
          have hlt' : dueAt t < dueAt u := hlt
          omega
        have hnone : (u :: l).filter (fun x => acceptedAt x = some a) = [] := by
          simpa [List.filter_eq_nil_iff] using hlater
        rw [List.filter_append, hnone, List.filter_cons, hnone]
        simp [ht]
      · simp [List.filter_cons, ht]

section
variable (ts l : List Txn)

/-- The list that the insertions of some transactions build. -/
def insertAll (ts l : List Txn) : List Txn := ts.foldl (fun l t => insertByTime t l) l

theorem insertAll_perm : (insertAll ts l).Perm (l ++ ts) := by
  induction ts generalizing l with
  | nil => simp [insertAll]
  | cons t ts ih =>
    calc insertAll (t :: ts) l
      _ = insertAll ts (insertByTime t l) := rfl
      _ |>.Perm (insertByTime t l ++ ts) := ih _
      _ |>.Perm ((t :: l) ++ ts) := (insertByTime_perm t l).append_right ts
      _ |>.Perm (l ++ t :: ts) := List.perm_middle.symm

variable {l} (h : l.Pairwise fun x y => dueAt x ≤ dueAt y)
include h

theorem insertAll_pairwise : (insertAll ts l).Pairwise fun x y => dueAt x ≤ dueAt y := by
  induction ts generalizing l with
  | nil => exact h
  | cons t ts ih => exact ih (insertByTime_pairwise t l h)

theorem filter_insertAll (a : Nat) :
    (insertAll ts l).filter (fun x => acceptedAt x = some a) = (l ++ ts).filter fun x => acceptedAt x = some a := by
  induction ts generalizing l with
  | nil => simp [insertAll]
  | cons t ts ih =>
    calc (insertAll (t :: ts) l).filter (fun x => acceptedAt x = some a)
      _ = (insertByTime t l ++ ts).filter (fun x => acceptedAt x = some a) := ih (insertByTime_pairwise t l h)
      _ = (l ++ t :: ts).filter (fun x => acceptedAt x = some a) := by
        rw [List.filter_append, filter_insertByTime t l a h, ← List.filter_append, List.append_assoc, List.singleton_append]

end

/-- The order lists each accepted transaction once. -/
theorem acceptedTxns_perm (s : State) : (acceptedTxns s).Perm (s.ctl.txns.filter fun t => (acceptedAt t).isSome) := insertAll_perm _ []

/-- The accepted transactions of one apply point keep the order of their acceptance. -/
theorem filter_acceptedTxns (s : State) (a : Nat) :
    (acceptedTxns s).filter (fun t => acceptedAt t = some a) = s.ctl.txns.filter fun t => acceptedAt t = some a := by
  refine (filter_insertAll _ .nil a).trans ?_
  rw [List.nil_append, List.filter_filter]
  refine List.filter_congr fun t _ => ?_
  by_cases h : acceptedAt t = some a <;> simp [h]

/-! ### What an apply point does to the list -/

/-- Whether an apply point leaves a transaction in the list: it is not accepted, or for a later one. -/
def staysPast (now : Nat) (t : Txn) : Bool :=
  match acceptedAt t with
  | some a => decide (now < a)
  | none => true

theorem forEach_eq_foldl {α : Type} (l : List α) (f : α → State → State) (s : State) : forEach l f s = l.foldl (fun s a => f a s) s := by
  induction l generalizing s with
  | nil => rfl
  | cons a l ih => exact ih (f a s)

/-- The due transactions leave the list and take effect in order. -/
theorem applyTxns_eq_foldl (now : Nat) (s : State) : applyTxns now s = ((acceptedTxns s).filter fun t => decide (dueAt t ≤ now)).foldl
    (fun s t => takeEffect t (dueAt t) s) (setTxns (s.ctl.txns.filter (staysPast now)) s) := by
  have hstay : (fun t : Txn => match t.phase with | .accepted a => decide (now < a) | _ => true) = staysPast now := by
    funext t; unfold staysPast acceptedAt; cases t.phase <;> rfl
  unfold applyTxns
  rw [← hstay]
  exact forEach_eq_foldl _ _ _

/-- What an accepted transaction's phase says. -/
theorem acceptedAt_eq_some {t : Txn} {a : Nat} (h : acceptedAt t = some a) : t.phase = .accepted a := by
  unfold acceptedAt at h
  split at h
  · rename_i b hphase; cases h; exact hphase
  · cases h

/-- An apply point that no accepted transaction has reached changes nothing. -/
theorem applyTxns_of_none_due {s : State} {now : Nat} (h : ∀ t ∈ s.ctl.txns, ∀ a, t.phase = .accepted a → now < a) : applyTxns now s = s := by
  have hstay : s.ctl.txns.filter (staysPast now) = s.ctl.txns := by
    refine List.filter_eq_self.mpr fun t ht => ?_
    unfold staysPast
    split
    · rename_i a ha; simpa using h t ht a (acceptedAt_eq_some ha)
    · rfl
  have hdue : ((acceptedTxns s).filter fun t => decide (dueAt t ≤ now)) = [] := by
    refine List.filter_eq_nil_iff.mpr fun t ht => ?_
    obtain ⟨hmem, hsome⟩ := List.mem_filter.mp ((acceptedTxns_perm s).mem_iff.mp ht)
    obtain ⟨a, ha⟩ := Option.isSome_iff_exists.mp hsome
    simpa [dueAt, ha] using h t hmem a (acceptedAt_eq_some ha)
  rw [applyTxns_eq_foldl, hstay, hdue]
  rfl

/-! ### What a transaction that takes effect leaves -/

/-- A transaction whose items have run: it stays, applied, for the objects that wait for a later boundary (R40). -/
def holdLater (t : Txn) (y : State) : State :=
  if t.holds.filter y.ctl.later.contains = [] then y
  else setTxns (y.ctl.txns ++ [{ t with phase := .applied, holds := t.holds.filter y.ctl.later.contains, ref := none }]) y

theorem takeEffect_eq (t : Txn) (a : Nat) (s : State) : takeEffect t a s =
    match t.ref with
    | none => holdLater t (t.items.foldl (itemLeaves applyItem) s)
    | some r => answer r .done (if r.code = 0x0011 then toWords 2 (a / 2 ^ 40) else []) (holdLater t (t.items.foldl (itemLeaves applyItem) s)) := by
  unfold takeEffect
  simp only [runItems_st]
  cases t.ref <;> rfl

/-- Settles O13: a row's code names its call, the due transactions leave the list and are folded over the state in their order, and a
transaction's items are folded over it in theirs. -/
theorem acceptedTransactionsApply : Obligations.AcceptedTransactionsApply := by
  unfold Obligations.AcceptedTransactionsApply
  refine ⟨fun i t c objs u s h => ?item, fun s now h => applyTxns_of_none_due h, fun s now => ⟨applyTxns_eq_foldl now s,
    acceptedTxns_perm s, insertAll_pairwise _ .nil, filter_acceptedTxns s⟩, fun s t a => takeEffect_eq t a s⟩
  case item =>
    show (match txnCall t.spec.code with | some t => t.apply _ s | none => .error .badCall) = _
    rw [txnCall_of_txnRow h]

end Sys2Proof.Machine

/-! PROOFS. The apply point, the second boundary and an ESMC frame (R38, R39, R161, R219, R307, R337, R405, R462, R540): how an apply
point ends, and when the frequency source of the clock is lost by its quality level. -/

namespace Sys2Proof.Machine

/-! ### How an apply point ends -/

section
variable {lines : List LineWatch} {s : State}

/-- A write that R337 leaves undefined stops the model, whatever the SAs. -/
theorem execApplyPoint_undefinedWrite (h : undefinedWrite s (applyPoint lines s) = true) :
    execApplyPoint lines s = .fault (.undefinedUse "R337") := by
  simp [execApplyPoint, h]

variable (hwrite : undefinedWrite s (applyPoint lines s) = false)
include hwrite

/-- SAs that come to use a PN twice at this apply point stop the model (R405). -/
theorem execApplyPoint_saClash (hbefore : saClash (txSas s) = false) (hafter : saClash (txSas (applyPoint lines s)) = true) :
    execApplyPoint lines s = .fault (.undefinedUse "R405") := by
  simp [execApplyPoint, hwrite, hbefore, hafter]

/-- Where they clash before, or do not clash after, the apply point goes on. -/
theorem execApplyPoint_next (h : saClash (txSas s) = true ∨ saClash (txSas (applyPoint lines s)) = false) :
    execApplyPoint lines s = .next (applyPoint lines s) := by
  rcases h with h | h <;> simp [execApplyPoint, hwrite, h]

end

/-! ### The quality level of the frequency source -/

section
variable {p : PortIx} {ql : Nat} {s : State}

/-- What an ESMC frame on the port of the selected lane does: the clock watches its source under the level told. -/
theorem execEsmcFrameToSaend_selected (hready : s.boot.ready = true) (hsrc : s.time.cfg.freqSrc = 1) (hlane : s.time.cfg.freqLane ∈ lanesOf s p) :
    execEsmcFrameToSaend p ql s = .next (freqWatch { s with time := { s.time with qlLow := decide (ql < s.time.cfg.qlMin) } }) := by
  have hlane' : (lanesOf s p).contains s.time.cfg.freqLane = true := List.contains_iff_mem.mpr hlane
  simp only [execEsmcFrameToSaend, hready, hsrc, hlane', decide_true, Bool.and_true, if_true]
  rfl

/-- On another port, from another source or before Saend runs it does nothing. -/
theorem execEsmcFrameToSaend_other (h : ¬ (s.boot.ready = true ∧ s.time.cfg.freqSrc = 1 ∧ s.time.cfg.freqLane ∈ lanesOf s p)) :
    execEsmcFrameToSaend p ql s = .next s := by
  have hcond : ¬ (s.boot.ready && decide (s.time.cfg.freqSrc = 1) && (lanesOf s p).contains s.time.cfg.freqLane) = true := by
    simpa [and_assoc] using h
  exact congrArg Host.Outcome.next (if_neg hcond)

/-- A level too low loses a lane as the frequency source, whatever the lane's state. -/
theorem freqWatch_of_qlLow (hsrc : s.time.cfg.freqSrc = 1) (hlow : s.time.qlLow = true) : freqWatch s = sourceLost false s := by
  have hgone : freqGone s = true := by simp [freqGone, hsrc, hlow]
  exact if_pos hgone

end

/-- Settles O17: `applyPoint` and `secondBoundary` are the sequences stated, and the quality level decides what an ESMC frame does. -/
theorem applyPointsAndSeconds : Obligations.ApplyPointsAndSeconds := by
  unfold Obligations.ApplyPointsAndSeconds
  refine fun s => ⟨fun lines => ⟨fun hwrite h => execApplyPoint_next hwrite h, fun hwrite => execApplyPoint_undefinedWrite hwrite,
    fun hwrite hbefore hafter => execApplyPoint_saClash hwrite hbefore hafter⟩, ?second, fun p ql => ⟨fun ⟨hready, hsrc, hlane⟩ hlow => ?low,
    fun ⟨hready, hsrc, hlane⟩ hhigh => ?high, fun h => execEsmcFrameToSaend_other h⟩⟩
  case second =>
    show Host.Outcome.next (secondBoundary s) = _
    simp only [secondBoundary, latch]
  case low =>
    refine (execEsmcFrameToSaend_selected hready hsrc hlane).trans ?_
    rw [decide_eq_true hlow]
    exact congrArg Host.Outcome.next (freqWatch_of_qlLow hsrc rfl)
  case high =>
    refine (execEsmcFrameToSaend_selected hready hsrc hlane).trans ?_
    rw [decide_eq_false (Nat.not_lt.mpr hhigh)]

end Sys2Proof.Machine

/-! PROOFS. Voltage, pace, shedding and temperature (R34, R128 to R131, R133, R535): one lemma per case of each command. -/

namespace Sys2Proof.Machine

/-! ### What setting the power state and raising an event leave -/

@[simp] theorem setPwr_pwr (x : Power) (s : State) : (setPwr x s).pwr = x := rfl

theorem raise_pwr (src : Nat) (own : List Nat) (ws : List Word) (s : State) : (raise src own ws s).pwr = s.pwr := by
  obtain ⟨_, _, hpwr, _⟩ := others_parts (others_raise src own ws s)
  exact hpwr

theorem raise_pon (src : Nat) (own : List Nat) (ws : List Word) (s : State) : (raise src own ws s).pon = s.pon := by
  obtain ⟨_, _, _, _, hpon, _⟩ := others_parts (others_raise src own ws s)
  exact hpon

/-- Which domains are ON is the power state's. -/
theorem domOn_congr {s t : State} (h : t.pwr.doms = s.pwr.doms) : domOn t = domOn s := by
  funext d
  unfold domOn domOf
  rw [h]

/-- Which domains are needed is the power state's. -/
theorem neededBy_congr {s t : State} (hdoms : t.pwr.doms = s.pwr.doms) (hon : comingOn t = comingOn s) : neededBy t = neededBy s := by
  have hlive : domLive t = domLive s := by
    funext d
    unfold domLive domOf
    rw [hdoms]
  funext d
  unfold neededBy
  rw [hlive, hon]

/-! ### The control law (R128, R129) -/

section
variable {s : State} {d v : Nat}

theorem avsTick_none (h : lowestPace s = none) : avsTick s = setPwr { s.pwr with lowerRuns := 0 } s := by simp [avsTick, h]

variable (h : lowestPace s = some (d, v))
include h

/-- A pace below RAISE raises the voltage. -/
theorem avsTick_raise (hlow : v < s.pwr.raise) : avsTick s = setVdd (min (s.pwr.vdd + 10) 800) (setPwr { s.pwr with lowerRuns := 0 } s) := by
  simp [avsTick, h, hlow, raiseStep]

/-- A pace between RAISE and LOWER restarts the count. -/
theorem avsTick_hold (hlow : s.pwr.raise ≤ v) (hhigh : v ≤ s.pwr.lower) : avsTick s = setPwr { s.pwr with lowerRuns := 0 } s := by
  simp [avsTick, h, Nat.not_lt.mpr hlow, Nat.not_lt.mpr hhigh]

variable (hlow : s.pwr.raise ≤ v) (hhigh : s.pwr.lower < v)
include hlow hhigh

/-- A pace above LOWER counts its ticks. -/
theorem avsTick_count (hruns : s.pwr.lowerRuns < 19) : avsTick s = setPwr { s.pwr with lowerRuns := s.pwr.lowerRuns + 1 } s := by
  have hmin : min 20 (s.pwr.lowerRuns + 1) = s.pwr.lowerRuns + 1 := by omega
  have hshort : ¬ 20 ≤ s.pwr.lowerRuns + 1 := by omega
  simp [avsTick, h, Nat.not_lt.mpr hlow, hhigh, hmin, hshort]

/-- The twentieth of them lowers the voltage. -/
theorem avsTick_lower (hruns : 19 ≤ s.pwr.lowerRuns) : avsTick s = setVdd (max (s.pwr.vdd - 5) 650) (setPwr { s.pwr with lowerRuns := 20 } s) := by
  have hmin : min 20 (s.pwr.lowerRuns + 1) = 20 := by omega
  simp [avsTick, h, Nat.not_lt.mpr hlow, hhigh, hmin]

end

/-- An alarm raises the voltage where the domain has power and a monitor. -/
theorem live_paceAlarm {s : State} {d : Nat} (hlive : domLive s d = true) (hpace : hasPace d = true) :
    paceAlarm d s = raise 929 [] [wd d] (setVdd (min (s.pwr.vdd + 10) 800) s) := by simp [paceAlarm, hlive, hpace, raiseStep]

theorem idle_paceAlarm {s : State} {d : Nat} (h : domLive s d = false ∨ hasPace d = false) : paceAlarm d s = s := by
  rcases h with h | h <;> simp [paceAlarm, h]

/-! ### Pace windows (R34, R117) -/

/-- A window ends at a multiple of 10 µs. -/
theorem paceEnd_mod (s : State) : paceEnd s % paceTb = 0 := by
  unfold paceEnd
  dsimp only
  split <;> simp

/-- A window's end is not past. -/
theorem le_paceEnd (s : State) : s.tb ≤ paceEnd s := by
  have hpos : 0 < paceTb := by decide
  have hceil : s.tb ≤ ceilDiv s.tb paceTb * paceTb := by
    unfold ceilDiv
    have := Nat.lt_div_mul_add (a := s.tb + paceTb - 1) hpos
    omega
  unfold paceEnd
  dsimp only
  split <;> omega

section
variable {d n e : Nat} {s : State}

/-- A domain that was not ON for the whole window, or has no monitor, records no pace. -/
theorem paceOne_skip (h : (domOf s d).st ≠ .on ∨ e < (domOf s d).onSince + paceTb ∨ hasPace d = false) : paceOne d n e s = s := by
  have hskip : (!onForWindow s d e || !hasPace d) = true := by
    rcases h with h | h | h
    · simp [onForWindow, domOn, h]
    · simp [onForWindow, Nat.not_le.mpr h]
    · simp [h]
  exact if_pos hskip

/-- The state in which a domain's window left its pace. -/
def paceNoted (d v : Nat) (s : State) : State := gaugeMin (cDom 0 d) v (modDom d (fun x => { x with pace := v, paceValid := true }) s)

/-- The state in which a pace below the floor is counted too. -/
def paceCounted (d v : Nat) (s : State) : State := if v < 1819 then cnt (cDom 1 d) 1 (paceNoted d v s) else paceNoted d v s

theorem paceCounted_vdd (d v : Nat) (s : State) : (paceCounted d v s).pwr.vdd = s.pwr.vdd := by
  unfold paceCounted
  split <;> rfl

/-- A domain that was ON for the whole window records its pace; one below the floor is counted, and told where no voltage is left. -/
theorem paceOne_on (hon : (domOf s d).st = .on) (hsince : (domOf s d).onSince + paceTb ≤ e) (hpace : hasPace d = true) :
    paceOne d n e s =
      if n / 10 < 1819 && s.pwr.vdd = 800 then raise 928 [] [wd d] (paceCounted d (n / 10) s) else paceCounted d (n / 10) s := by
  have hwindow : ¬ (!onForWindow s d e || !hasPace d) = true := by simp [onForWindow, domOn, hon, hsince, hpace]
  rw [← paceCounted_vdd d (n / 10) s]
  exact if_neg hwindow

end

/-- Commands of the table name domains by their index. -/
theorem forEach_map {α β : Type} (g : α → β) (l : List α) (f : β → State → State) (s : State) :
    forEach (l.map g) f s = forEach l (fun a => f (g a)) s := by
  induction l generalizing s with
  | nil => rfl
  | cons a l ih => exact ih (f (g a) s)

/-- What the windows of some domains leave as the window in progress ends. -/
def windowsEnded (l : List (DomIx × Nat)) (s : State) : State :=
  forEach l (fun x u => paceOne x.1 x.2 (paceEnd s) u) (setPwr { s.pwr with lastPace := paceEnd s } (advance (paceEnd s) s))

/-- The lowest pace is what PACE_LOW shows. -/
def lowNoted (d v : Nat) (u : State) : State := setPwr { u.pwr with paceLowValid := true, paceLowDom := d, paceLow := v } u

/-- The windows end, and then the lowest pace decides whether shedding goes on (R130). -/
theorem execPaceWindowEnd_eq (l : List (DomIx × Nat)) (s : State) : execPaceWindowEnd l s = .next (
    match lowestPace (windowsEnded l s) with
    | none => windowsEnded l s
    | some (d, v) =>
      let w := lowNoted d v (windowsEnded l s)
      if 1819 ≤ v && (windowsEnded l s).pwr.tj < 460 then shedStop w else if 1819 ≤ v then setPwr { w.pwr with paceShed := false } w else w) := by
  unfold execPaceWindowEnd paceWindow
  dsimp only
  rw [forEach_map]
  rfl

section
variable {l : List (DomIx × Nat)} {s : State}

theorem execPaceWindowEnd_none (h : lowestPace (windowsEnded l s) = none) : execPaceWindowEnd l s = .next (windowsEnded l s) := by
  simp [execPaceWindowEnd_eq, h]

variable {d v : Nat} (h : lowestPace (windowsEnded l s) = some (d, v))
include h

theorem execPaceWindowEnd_low (hlow : v < 1819) : execPaceWindowEnd l s = .next (lowNoted d v (windowsEnded l s)) := by
  simp [execPaceWindowEnd_eq, h, Nat.not_le.mpr hlow]

theorem execPaceWindowEnd_cool (hhigh : 1819 ≤ v) (hcool : (windowsEnded l s).pwr.tj < 460) :
    execPaceWindowEnd l s = .next (shedStop (lowNoted d v (windowsEnded l s))) := by
  simp [execPaceWindowEnd_eq, h, hhigh, hcool]

theorem execPaceWindowEnd_hot (hhigh : 1819 ≤ v) (hhot : 460 ≤ (windowsEnded l s).pwr.tj) :
    execPaceWindowEnd l s = .next (setPwr { (lowNoted d v (windowsEnded l s)).pwr with paceShed := false } (lowNoted d v (windowsEnded l s))) := by
  simp [execPaceWindowEnd_eq, h, hhigh, Int.not_lt.mpr hhot]

end

/-! ### Load shedding (R130, R131) -/

theorem shedNextDom_idle {s : State} (h : s.pwr.shedding = none) : shedNextDom s = shedFrom (s.pwr.shedList.drop s.pwr.shedNext) s := by
  simp [shedNextDom, h]

theorem shedNextDom_busy {s : State} (h : s.pwr.shedding ≠ none) : shedNextDom s = s := by
  simp [shedNextDom, Option.isSome_iff_ne_none.mpr h]

section
variable {d : Nat} (l : List Nat) {t : State}

/-- A domain of the list is shed: it is noted, and event 931 told. -/
def shedTold (d : Nat) (t : State) : State :=
  raise 931 [] [wd d] (setPwr { t.pwr with shedNext := t.pwr.shedNext + 1, shedding := some d } t)

theorem shedTold_pwr : (shedTold d t).pwr = { t.pwr with shedNext := t.pwr.shedNext + 1, shedding := some d } := raise_pwr _ _ _ _

theorem spanOf_shedTold (sp : Nat) : spanOf (shedTold d t) sp = spanOf t sp := by
  unfold spanOf shedTold
  rw [raise_pon]
  rfl

/-- The list passes over a domain that is not ON or is needed. -/
theorem shedFrom_skip (h : domOn t d = false ∨ neededBy t d = true) :
    shedFrom (d :: l) t = shedFrom l (setPwr { t.pwr with shedNext := t.pwr.shedNext + 1 } t) := by
  have hskip : (!domOn t d || neededBy t d) = true := by rcases h with h | h <;> simp [h]
  exact if_pos hskip

variable (hon : domOn t d = true) (hfree : neededBy t d = false)
include hon hfree

/-- A domain that is ON and not needed is shed, its open Span first switched over where this device serves it. -/
theorem shedFrom_shed : shedFrom (d :: l) t = shedAdvance (
    if d < 32 && (spanOf t d).st = .opened && activeHere (shedTold d t) d then releaseSynced 4 [d] (shedTold d t) else shedTold d t) := by
  have hshed : ¬ (!domOn t d || neededBy t d) = true := by simp [hon, hfree]
  rw [← spanOf_shedTold (d := d) (t := t) d]
  exact if_neg hshed

/-- A domain whose Span is closed drains at once. -/
theorem shedAdvance_shedTold (hspan : d < 32 → (spanOf t d).st = .closed) : shedAdvance (shedTold d t) = startDrain d (shedTold d t) := by
  have hshed : (shedTold d t).pwr.shedding = some d := by rw [shedTold_pwr]
  have hdoms : (shedTold d t).pwr.doms = t.pwr.doms := by rw [shedTold_pwr]
  have hst : (domOf (shedTold d t) d).st = .on := by
    have h := domOn_congr hdoms
    simpa [domOn] using (congrFun h d).trans hon
  have hneed : neededBy (shedTold d t) d = false := by
    rw [neededBy_congr hdoms (by simp [comingOn, shedTold_pwr]), hfree]
  have hclosed : ¬ (d < 32 && decide ((spanOf (shedTold d t) d).st ≠ .closed)) = true := by
    simpa [spanOf_shedTold] using hspan
  unfold shedAdvance
  simp only [hshed, hst, hneed, if_neg hclosed]
  rfl

theorem shedFrom_closed (hspan : d < 32 → (spanOf t d).st = .closed) : shedFrom (d :: l) t = startDrain d (shedTold d t) := by
  have hnot : ¬ (d < 32 && decide ((spanOf t d).st = .opened) && activeHere (shedTold d t) d) = true := by
    intro h
    simp only [Bool.and_eq_true, decide_eq_true_eq] at h
    obtain ⟨⟨hd, hopen⟩, _⟩ := h
    rw [hspan hd] at hopen
    cases hopen
  rw [shedFrom_shed l hon hfree, if_neg hnot, shedAdvance_shedTold hon hfree hspan]

theorem shedFrom_closing (h : (spanOf t d).st ≠ .opened ∨ activeHere (shedTold d t) d = false) :
    shedFrom (d :: l) t = shedAdvance (shedTold d t) := by
  have hnot : ¬ (d < 32 && decide ((spanOf t d).st = .opened) && activeHere (shedTold d t) d) = true := by
    rcases h with h | h <;> simp [h]
  rw [shedFrom_shed l hon hfree, if_neg hnot]

theorem shedFrom_opened (hd : d < 32) (hopen : (spanOf t d).st = .opened) (hactive : activeHere (shedTold d t) d = true) :
    shedFrom (d :: l) t = shedAdvance (releaseSynced 4 [d] (shedTold d t)) := by
  rw [shedFrom_shed l hon hfree, if_pos (by simp [hd, hopen, hactive])]

end

/-! ### Temperature (R131) -/

section
variable {tj : Int} {s : State}

theorem noteTj_pwr_warn : (noteTj tj s).pwr.warn = s.pwr.warn := by
  unfold noteTj
  dsimp only
  split <;> rfl

theorem noteTj_pwr_tripped : (noteTj tj s).pwr.tripped = s.pwr.tripped := by
  unfold noteTj
  dsimp only
  split <;> rfl

/-- Taking note of Tj below 115 °C ends a shedding by temperature alone. -/
theorem noteTj_eq : noteTj tj s = let u := gaugeTj tj (setPwr { s.pwr with tj := tj } s)
    if tj < 460 ∧ s.pwr.paceShed = false then setPwr { u.pwr with paceShed := false, shedNext := 0 } u else u := by
  have hcond : (decide (tj < 460) && !(gaugeTj tj (setPwr { s.pwr with tj := tj } s)).pwr.paceShed) = true ↔ tj < 460 ∧ s.pwr.paceShed = false := by
    show (decide (tj < 460) && !s.pwr.paceShed) = true ↔ _
    simp
  unfold noteTj
  simp only [hcond]
  rfl

/-- From 115 °C on, taking note changes nothing else. -/
theorem noteTj_hot (h : 460 ≤ tj) : noteTj tj s = gaugeTj tj (setPwr { s.pwr with tj := tj } s) := by
  rw [noteTj_eq]
  exact if_neg fun hcool => absurd hcool.1 (Int.not_lt.mpr h)

theorem thermalWarn_told (h : (4 * s.pwr.warn : Nat) ≤ tj) : thermalWarn tj s = raise 932 [] [wd (unsgn 16 tj)] (noteTj tj s) := by
  rw [← noteTj_pwr_warn (tj := tj)] at h
  exact if_pos h

theorem thermalWarn_quiet (h : tj < (4 * s.pwr.warn : Nat)) : thermalWarn tj s = noteTj tj s := by
  rw [← noteTj_pwr_warn (tj := tj)] at h
  exact if_neg (Int.not_le.mpr h)

theorem thermalHot_shed (hhot : 460 ≤ tj) (h : (noteTj tj s).pwr.shedding = none) :
    thermalHot tj s = shedFrom ((noteTj tj s).pwr.shedList.drop (noteTj tj s).pwr.shedNext) (noteTj tj s) :=
  (if_pos hhot).trans (shedNextDom_idle h)

theorem thermalHot_quiet (h : tj < 460 ∨ (noteTj tj s).pwr.shedding ≠ none) : thermalHot tj s = noteTj tj s := by
  unfold thermalHot
  dsimp only
  rcases h with h | h
  · exact if_neg (Int.not_le.mpr h)
  · rw [shedNextDom_busy h, ite_self]

/-- Below 125 °C, or where the trip stands, nothing trips. -/
theorem thermalTrip_quiet (h : tj < 500 ∨ s.pwr.tripped = true) : thermalTrip tj s = noteTj tj s := by
  have hcond : (decide (tj < 500) || (noteTj tj s).pwr.tripped) = true := by simpa [noteTj_pwr_tripped] using h
  exact if_pos hcond

theorem thermalClear_told (htrip : s.pwr.tripped = true) (h : tj < 400) :
    thermalClear tj s = raise 934 [] [wd (unsgn 16 tj)] (setPwr { (noteTj tj s).pwr with tripped := false } (noteTj tj s)) := by
  have hcond : ((noteTj tj s).pwr.tripped && decide (tj < 400)) = true := by simp [noteTj_pwr_tripped, htrip, h]
  exact if_pos hcond

theorem thermalClear_quiet (h : s.pwr.tripped = false ∨ 400 ≤ tj) : thermalClear tj s = noteTj tj s := by
  have hcond : ¬ ((noteTj tj s).pwr.tripped && decide (tj < 400)) = true := by
    rcases h with h | h
    · simp [noteTj_pwr_tripped, h]
    · simp [Int.not_lt.mpr h]
  exact if_neg hcond

end

/-- A trip takes every domain's power (R131, R515). -/
theorem thermalTrip_trips {tj : Int} {s : State} (hhot : 500 ≤ tj) (htrip : s.pwr.tripped = false) :
    thermalTrip tj s = raise 933 [] [wd (unsgn 16 tj)] (forEach (List.range 72) tripDom (
      let u := gaugeTj tj (setPwr { s.pwr with tj := tj } s)
      let u := releaseSynced 4 ((List.range 32).filter (activeHere (setPwr { u.pwr with tripped := true } u))) (setPwr { u.pwr with tripped := true } u)
      let u := forEach (List.range 32) (fun sp u => threePiers (fun p u => opticDark sp p u) u) u
      let u := forEach ((List.range 32).filter fun sp => (spanOf u sp).st ≠ .closed)
        (fun sp u => modSpan sp (fun v => { v with openPending := false }) (spanClosed sp u)) u
      forEach (comingOn u) (fun o u => answerOpt o.ref .badState [] u)
        (setPwr { u.pwr with queue := [], preRamp := none, shedding := none, paceShed := false, shedNext := 0 } u))) := by
  have hcond : ¬ (decide (tj < 500) || (noteTj tj s).pwr.tripped) = true := by simpa [noteTj_pwr_tripped, htrip] using hhot
  unfold thermalTrip
  dsimp only
  rw [if_neg hcond, noteTj_hot (by omega)]

/-- Settles O24: each command's cases, by its own lemmas. -/
theorem voltageAndTemperatureAct : Obligations.VoltageAndTemperatureAct := by
  unfold Obligations.VoltageAndTemperatureAct
  refine ⟨fun s => ⟨?raise, ?fall, ?hold, ?noPace, ?alarm, ?noAlarm, ?window, ?one, ?shed, ?shedBusy, ?noShed, ?list⟩, fun s tj => ?thermal⟩
  case raise => exact fun d v h hlow => congrArg Host.Outcome.next (avsTick_raise h hlow)
  case fall =>
    exact fun d v h hlow hhigh => ⟨fun hruns => congrArg Host.Outcome.next (avsTick_count h hlow hhigh hruns),
      fun hruns => congrArg Host.Outcome.next (avsTick_lower h hlow hhigh hruns)⟩
  case hold => exact fun d v h hlow hhigh => congrArg Host.Outcome.next (avsTick_hold h hlow hhigh)
  case noPace => exact fun h => congrArg Host.Outcome.next (avsTick_none h)
  case alarm => exact fun d hlive hpace => congrArg Host.Outcome.next (live_paceAlarm hlive hpace)
  case noAlarm => exact fun d h => congrArg Host.Outcome.next (idle_paceAlarm h)
  case window =>
    exact fun l => ⟨paceEnd_mod s, le_paceEnd s, execPaceWindowEnd_none, fun d v h => ⟨execPaceWindowEnd_low h,
      execPaceWindowEnd_cool h, execPaceWindowEnd_hot h⟩⟩
  case one =>
    refine fun d n e => ⟨paceOne_skip, fun hon hsince hpace => ⟨fun hv => ?_, fun hv hvdd => ?_, fun hv hvdd => ?_⟩⟩
    all_goals refine (paceOne_on hon hsince hpace).trans ?_
    · simp [Nat.not_lt.mpr hv, paceCounted, paceNoted]
    · simp [hv, hvdd, paceCounted, paceNoted]
    · simp [hv, hvdd, paceCounted, paceNoted]
  case shed =>
    exact fun hshort hidle => congrArg Host.Outcome.next ((if_pos hshort).trans (shedNextDom_idle hidle))
  case shedBusy =>
    exact fun hshort hbusy => congrArg Host.Outcome.next ((if_pos hshort).trans (shedNextDom_busy hbusy))
  case noShed =>
    exact fun hshort => congrArg Host.Outcome.next (if_neg (by simp [hshort]))
  case list =>
    exact fun d l t => ⟨shedFrom_skip l, shedFrom_closed l, fun hon hfree _ _ => shedFrom_closing l hon hfree,
      fun hon hfree => shedFrom_opened l hon hfree⟩
  case thermal =>
    intro noted noted'
    have hnoted : noteTj tj s = noted' := noteTj_eq
    rw [← hnoted]
    refine ⟨fun h => congrArg Host.Outcome.next (thermalWarn_told h), fun h => congrArg Host.Outcome.next (thermalWarn_quiet h),
      fun hhot h => congrArg Host.Outcome.next (thermalHot_shed hhot h), fun h => congrArg Host.Outcome.next (thermalHot_quiet h),
      fun h => congrArg Host.Outcome.next (thermalTrip_quiet h), fun hhot htrip => congrArg Host.Outcome.next (thermalTrip_trips hhot htrip),
      fun htrip h => congrArg Host.Outcome.next (thermalClear_told htrip h), fun h => congrArg Host.Outcome.next (thermalClear_quiet h),
      fun _ => rfl, fun c h => ?_⟩
    intro u
    exact serveAct_done h (fun s => .ok (thermalRead s)) rfl

end Sys2Proof.Machine

/-! PROOFS. Frames of ports and Spans on their way into the pipelines (R18, R20, R306 to R311, R333 to R337, R463, R465): one lemma per
end of a frame, in the order of the stages. -/

namespace Sys2Proof.Machine

/-! ### Frames of Ethernet ports -/

/-- The lanes of a port whose elastic buffer slips under a frame. -/
def slippedLanes (n : Nat) (slips : List (Fin 8)) (s : State) : List Nat := (lanesOf s n).filter fun l => slips.any fun i => l = n + i

/-- The state in which those lanes have afterSlips (R463). -/
def afterSlips (n : Nat) (slips : List (Fin 8)) (s : State) : State := forEach (slippedLanes n slips s) laneSlip s

/-- The state in which a port's SecY takes a frame: a port in a PTP mode draws its time stamp. -/
def stamped (n : Nat) (t : State) : State := if ptpMode t n ≠ 0 then drawn t else t

/-- The PTP trailer of a frame that Saend's clock takes. -/
def ptpOf (t : State) (n : Nat) (g : List Byte) (w : State) : Option (List Byte) :=
  if ptpMode w n ≠ 0 && (ptpHead g).isSome then some (ptpTrailer (symbolPs t) n) else none

theorem ptpOf_eq (t : State) (n : Nat) (g : List Byte) (w : State) :
    ptpOf t n g w = if ptpMode w n ≠ 0 ∧ (ptpHead g).isSome then some (ptpTrailer (symbolPs t) n) else none := by
  simp [ptpOf]

/-- The VLAN a frame is distributed by: its own, or its port's where it carries none or VID 0 (R306). -/
def distVid (n : Nat) (g : List Byte) (w : State) : Nat :=
  let own := match (parse g).outer with | some x => x.1 | none => 0
  if own = 0 then kgetD w.fwd.pvid n 1 else own

section
variable {n : Nat} {f : List Byte} {ok : Bool} {slips : List (Fin 8)} {s : State}

/-- A port without a link hears nothing. -/
theorem uplinkRx_unlinked (h : (portOf s n).link = false) : uplinkRx n f ok slips s = .ok s := by simp [uplinkRx, h]

variable (hlink : (portOf s n).link = true)
include hlink

/-- A far-end loopback sends the frame back and counts it (R465, R466). -/
theorem uplinkRx_farEnd (h : portLoop (afterSlips n slips s) n = 3) : uplinkRx n f ok slips s =
    .ok (cnt (cLane 11 (loopedLane (afterSlips n slips s) n)) 1 (emit (.ethTx n f) (afterSlips n slips s))) := by
  unfold afterSlips slippedLanes at h ⊢
  simp only [uplinkRx, hlink, h, Bool.not_true, Bool.false_eq_true, if_false]

/-- In a near-end loopback the port does not hear the far end (R465, R466). -/
theorem uplinkRx_nearEnd (h : portLoop (afterSlips n slips s) n = 1 ∨ portLoop (afterSlips n slips s) n = 2) :
    uplinkRx n f ok slips s = .ok (afterSlips n slips s) := by
  unfold afterSlips slippedLanes at h ⊢
  rcases h with h | h <;> simp only [uplinkRx, hlink, h, Bool.not_true, Bool.false_eq_true, if_false]

variable (hloop : portLoop (afterSlips n slips s) n = 0 ∨ 3 < portLoop (afterSlips n slips s) n)
include hloop

/-- Without a loopback the frame is dropped at its FCS, at its SecY, by Saend, or reaches the distributor. -/
theorem uplinkRx_received : uplinkRx n f ok slips s =
    if !ok then .ok (afterSlips n slips s)
    else match macRx n f (stamped n (afterSlips n slips s)) with
      | (w, .drop) => .ok w
      | (w, .pass g bad) => if forSaend w n g then .ok w
        else distribute n (bad || decide (slippedLanes n slips s ≠ [])) (ptpOf (afterSlips n slips s) n g w) g w := by
  have hlinked : ¬ (!(portOf s n).link) = true := by simp [hlink]
  unfold afterSlips slippedLanes at hloop ⊢
  unfold uplinkRx
  rw [if_neg hlinked]
  dsimp only
  split
  case h_1 h => omega
  case h_2 h => omega
  case h_3 h => omega
  case h_4 => rfl

/-- A frame with a wrong FCS is discarded. -/
theorem uplinkRx_badFcs (hok : ok = false) : uplinkRx n f ok slips s = .ok (afterSlips n slips s) := by
  rw [uplinkRx_received hlink hloop, hok]
  rfl

variable (hok : ok = true)
include hok

/-- The port's SecY drops it (R404). -/
theorem uplinkRx_macDrop {w : State} (hmac : macRx n f (stamped n (afterSlips n slips s)) = (w, .drop)) : uplinkRx n f ok slips s = .ok w := by
  simp only [uplinkRx_received hlink hloop, hok, hmac, Bool.not_true, Bool.false_eq_true, if_false]

variable {w : State} {g : List Byte} {bad : Bool} (hmac : macRx n f (stamped n (afterSlips n slips s)) = (w, .pass g bad))
include hmac

/-- Saend takes its own frames, marked or not (R307). -/
theorem uplinkRx_forSaend (h : forSaend w n g = true) : uplinkRx n f ok slips s = .ok w := by
  simp only [uplinkRx_received hlink hloop, hok, hmac, h, Bool.not_true, Bool.false_eq_true, if_false, if_true]

/-- All others go to the distributor. -/
theorem uplinkRx_distribute (h : forSaend w n g = false) : uplinkRx n f ok slips s =
    distribute n (bad || decide (slippedLanes n slips s ≠ [])) (ptpOf (afterSlips n slips s) n g w) g w := by
  simp only [uplinkRx_received hlink hloop, hok, hmac, h, Bool.not_true, Bool.false_eq_true, if_false]

end

/-! ### The distributor (R18, R306) -/

section
variable {n : Nat} {marked : Bool} {ptp : Option (List Byte)} {g : List Byte} {w : State}

/-- The mask of the VID that a frame is distributed by; VID 4,095 selects nothing. -/
def distMask (n : Nat) (g : List Byte) (w : State) : Nat := if distVid n g w = 4095 then 0 else kgetD w.fwd.dist (distVid n g w) 0

theorem distribute_eq : distribute n marked ptp g w =
    if distMask n g w = 0 then .ok (raise 544 [] [] (cnt (cDev 0) 1 w))
    else
      let ps := (List.range 4).filter fun p => (distMask n g w).testBit p
      toPipes ps n (distVid n g w) (1 < ps.length) marked ptp g w := rfl

/-- A VID without a pipeline drops the frame, counted and told. -/
theorem distribute_none (h : distVid n g w = 4095 ∨ kgetD w.fwd.dist (distVid n g w) 0 = 0) :
    distribute n marked ptp g w = .ok (raise 544 [] [] (cnt (cDev 0) 1 w)) := by
  refine distribute_eq.trans (if_pos ?_)
  unfold distMask
  rcases h with h | h
  · exact if_pos h
  · rw [h, ite_self]

/-- A VID's mask selects the pipelines that the frame enters. -/
theorem distribute_some (hvid : distVid n g w ≠ 4095) (h : kgetD w.fwd.dist (distVid n g w) 0 ≠ 0) : distribute n marked ptp g w =
    let ps := (List.range 4).filter fun p => (kgetD w.fwd.dist (distVid n g w) 0).testBit p
    toPipes ps n (distVid n g w) (1 < ps.length) marked ptp g w := by
  have hmask : distMask n g w = kgetD w.fwd.dist (distVid n g w) 0 := if_neg hvid
  rw [distribute_eq, hmask]
  exact if_neg h

end

/-! ### Frames of Spans (R308) -/

/-- The state in which a frame has left the list of those that wait. -/
def upRest (rest : List UpFrame) (s : State) : State := { s with fwd := { s.fwd with up := rest } }

/-- The pipeline takes the oldest frame of its Spans. -/
theorem upstreamStep_some {p : Nat} {s : State} {u : UpFrame} {rest : List UpFrame} (h : takeUp p s.fwd.up = some (u, rest)) :
    upstreamStep p s = upstreamFrame p u (upRest rest s) := by
  simp [upstreamStep, h, upRest]

/-- The source that an upstream frame's punts name. -/
def upSource (u : UpFrame) : Source := ⟨wd (u.onu * 2 ^ 16 + u.span), false, u.time⟩

/-- The state in which a pipeline has counted a frame it takes. -/
def upTaken (p : Nat) (s : State) : State := cnt (cPipe 1 p) 1 s

/-- The hop limit, which a routed frame alone has (R311). -/
def upHop (p slice : Nat) (u : UpFrame) (r : PortRec) (w : State) : State × Bool :=
  if r.mode = 3 then ttlStage p slice (upSource u) u.bytes w else (w, true)

section
variable {p : Nat} {u : UpFrame} {s : State}

/-- A pipeline without power loses the frame. -/
theorem upstreamFrame_off (h : domOn s (domPl p) = false) : upstreamFrame p u s = .ok s := by simp [upstreamFrame, h]

variable (hon : domOn s (domPl p) = true)
include hon

/-- No port record names the frame. -/
theorem upstreamFrame_noRecord (h : upRecord (upTaken p s) u = none) : upstreamFrame p u s = .ok (cnt (cPipe 2 p) 1 (upTaken p s)) := by
  unfold upTaken at h ⊢
  simp [upstreamFrame, hon, h]

variable {i : Nat} {r : PortRec} (hrec : upRecord (upTaken p s) u = some (i, r))
include hrec

/-- MODE 0 drops before the traps (notes/assumptions/96). -/
theorem upstreamFrame_mode0 (h : r.mode = 0) : upstreamFrame p u s = .ok (cnt (cPipe 2 p) 1 (upTaken p s)) := by
  unfold upTaken at hrec ⊢
  simp [upstreamFrame, hon, hrec, h]

variable (hmode : r.mode ≠ 0)
include hmode

/-- A frame in another MODE passes the stages in order. -/
theorem upstreamFrame_stages : upstreamFrame p u s =
    let slice := onuOwner (upTaken p s) u.span u.onu
    match trapStage p slice r.trapMask (upSource u) u.bytes (upTaken p s) with
    | (w, false) => .ok w
    | (w, true) =>
      match upHop p slice u r w with
      | (x, false) => .ok x
      | (x, true) =>
        match upPunt x p r u.bytes with
        | some reason => .ok (punt p slice reason (upSource u) u.bytes x)
        | none =>
          match policeStage u.span i u.bytes.length r x with
          | (y, none) => .ok y
          | (y, some yellow) => upForward p i slice (tcOf (pipeOf x p) r.tcSrc r.tc u.bytes) yellow r (upSource u) u y := by
  have hon' : ¬ (!domOn s (domPl p)) = true := by simp [hon]
  unfold upTaken at hrec
  unfold upstreamFrame
  rw [if_neg hon']
  dsimp only
  rw [hrec]
  exact if_neg hmode

/-- A trap takes the frame (R334). -/
theorem upstreamFrame_trapped {w : State}
    (h : trapStage p (onuOwner (upTaken p s) u.span u.onu) r.trapMask (upSource u) u.bytes (upTaken p s) = (w, false)) :
    upstreamFrame p u s = .ok w := by
  simp only [upstreamFrame_stages hon hrec hmode, h]

variable {w : State} (htrap : trapStage p (onuOwner (upTaken p s) u.span u.onu) r.trapMask (upSource u) u.bytes (upTaken p s) = (w, true))
include htrap

/-- The hop limit is reached (R311). -/
theorem upstreamFrame_hopLimit {x : State} (h : upHop p (onuOwner (upTaken p s) u.span u.onu) u r w = (x, false)) :
    upstreamFrame p u s = .ok x := by
  simp only [upstreamFrame_stages hon hrec hmode, htrap, h]

variable {x : State} (hhop : upHop p (onuOwner (upTaken p s) u.span u.onu) u r w = (x, true))
include hhop

/-- The route's result punts the frame, which is not policed then (R334). -/
theorem upstreamFrame_punted {reason : Nat} (h : upPunt x p r u.bytes = some reason) :
    upstreamFrame p u s = .ok (punt p (onuOwner (upTaken p s) u.span u.onu) reason (upSource u) u.bytes x) := by
  simp only [upstreamFrame_stages hon hrec hmode, htrap, hhop, h]

variable (hpunt : upPunt x p r u.bytes = none)
include hpunt

/-- The policer drops a red frame (R335). -/
theorem upstreamFrame_red {y : State} (h : policeStage u.span i u.bytes.length r x = (y, none)) : upstreamFrame p u s = .ok y := by
  simp only [upstreamFrame_stages hon hrec hmode, htrap, hhop, hpunt, h]

/-- A frame that it admits is looked up and queued. -/
theorem upstreamFrame_admitted {y : State} {yellow : Bool} (h : policeStage u.span i u.bytes.length r x = (y, some yellow)) :
    upstreamFrame p u s =
      upForward p i (onuOwner (upTaken p s) u.span u.onu) (tcOf (pipeOf x p) r.tcSrc r.tc u.bytes) yellow r (upSource u) u y := by
  simp only [upstreamFrame_stages hon hrec hmode, htrap, hhop, hpunt, h]

end

/-! ### A bridged frame that nothing else touches (R308) -/

/-- Without a reason no trap is asked. -/
theorem trapStage_of_no_reason {f : List Byte} {mask : Nat} (h : trapReason f mask = none) (p slice : Nat) (src : Source) (s : State) :
    trapStage p slice mask src f s = (s, true) := by
  simp [trapStage, h]

/-- A port record that does not learn forwards as it is. -/
theorem learn_of_not_learning {r : PortRec} (h : r.learn = false) (p span port owner mac : Nat) (s : State) :
    learn p span port owner r mac s = (s, .forward) := by
  simp [learn, h]

/-- A bridged frame goes to its port record's queue. -/
theorem upForward_bridged {r : PortRec} (hmode : r.mode = 1) (hlearn : r.learn = false) (p port slice tc : Nat) (yellow : Bool) (src : Source)
    (u : UpFrame) (s : State) :
    upForward p port slice tc yellow r src u s = upQueue u.span (r.uplinkQueue + tc / 2 ^ (3 - r.usClasses)) tc r yellow u.bytes s := by
  simp [upForward, hmode, learn_of_not_learning hlearn]

/-- A queue that serves a Span takes no upstream frame (R337). -/
theorem upQueue_refused {s : State} {q : Nat} (h : queueUp s q = some false) (span tc : Nat) (r : PortRec) (yellow : Bool) (f : List Byte) :
    upQueue span q tc r yellow f s = .error .badState := if_pos h

/-- Any other takes it as it is where the record pushes no tag. -/
theorem upQueue_untagged {s : State} {q : Nat} {r : PortRec} (h : queueUp s q ≠ some false) (hpush : r.pushVid = 0) (span tc : Nat)
    (yellow : Bool) (f : List Byte) : upQueue span q tc r yellow f s = .ok (stage q f yellow false (some span) false s) := by
  unfold upQueue
  rw [if_pos hpush]
  exact if_neg h

/-- A bridged frame without a trap, a policer or learning is queued as it is taken. -/
theorem upstreamFrame_bridged {p : Nat} {u : UpFrame} {s : State} {i : Nat} {r : PortRec} (hon : domOn s (domPl p) = true)
    (hrec : upRecord (upTaken p s) u = some (i, r)) (hmode : r.mode = 1) (htrap : trapReason u.bytes r.trapMask = none)
    (hpolice : r.police = false) (hlearn : r.learn = false) :
    let tc := tcOf (pipeOf (upTaken p s) p) r.tcSrc r.tc u.bytes
    upstreamFrame p u s = upQueue u.span (r.uplinkQueue + tc / 2 ^ (3 - r.usClasses)) tc r false u.bytes (upTaken p s) := by
  have hmode0 : r.mode ≠ 0 := by omega
  have hmode3 : ¬ r.mode = 3 := by omega
  have hhop : upHop p (onuOwner (upTaken p s) u.span u.onu) u r (upTaken p s) = (upTaken p s, true) := if_neg hmode3
  have hpunt : upPunt (upTaken p s) p r u.bytes = none := if_neg hmode3
  have hpoliced : policeStage u.span i u.bytes.length r (upTaken p s) = (upTaken p s, some false) := if_pos (by simp [hpolice])
  intro tc
  rw [upstreamFrame_admitted hon hrec hmode0 (trapStage_of_no_reason htrap _ _ _ _) hhop hpunt hpoliced]
  exact upForward_bridged hmode hlearn _ _ _ _ _ _ _ _

/-! ### What the two commands answer -/

theorem exec_uplinkFrameRx_ok {n : PortIx} {f : List Byte} {ok : Bool} {slips : List (Fin 8)} {s t : State} (h : uplinkRx n f ok slips s = .ok t) :
    exec (.uplinkFrameRx n f ok slips) s = .next t := congrArg orUndefined h

theorem exec_uplinkFrameRx_error {n : PortIx} {f : List Byte} {ok : Bool} {slips : List (Fin 8)} {s : State} {e : Status}
    (h : uplinkRx n f ok slips s = .error e) : exec (.uplinkFrameRx n f ok slips) s = .fault (.undefinedUse "R337") := congrArg orUndefined h

theorem exec_upstreamPipeline_ok {p : Fin 4} {s t : State} (h : upstreamStep p s = .ok t) : exec (.upstreamPipeline p) s = .next t :=
  congrArg orUndefined h

theorem exec_upstreamPipeline_error {p : Fin 4} {s : State} {e : Status} (h : upstreamStep p s = .error e) :
    exec (.upstreamPipeline p) s = .fault (.undefinedUse "R337") := congrArg orUndefined h

/-- Settles O40: a frame ends at the first stage that takes it, each stage by its own lemma. -/
theorem portsAndSpansFeedThePipelines : Obligations.PortsAndSpansFeedThePipelines := by
  unfold Obligations.PortsAndSpansFeedThePipelines
  refine ⟨fun _ _ => rfl, fun s n f ok slips => ?port, fun s p => ⟨fun h => ?empty, fun u rest htake => ?span⟩⟩
  case port =>
    refine ⟨fun h => ?_, fun hlink h => ?_, fun hlink h => ?_, fun hlink hloop hok => ?_, fun hlink hloop hok =>
      ⟨fun w hmac => ?_, fun w g bad hmac => ⟨fun h => ?_, fun h => ?_⟩⟩⟩
    · exact exec_uplinkFrameRx_ok (uplinkRx_unlinked h)
    · exact exec_uplinkFrameRx_ok (uplinkRx_farEnd hlink h)
    · exact exec_uplinkFrameRx_ok (uplinkRx_nearEnd hlink h)
    · exact exec_uplinkFrameRx_ok (uplinkRx_badFcs hlink hloop hok)
    · exact exec_uplinkFrameRx_ok (uplinkRx_macDrop hlink hloop hok hmac)
    · exact exec_uplinkFrameRx_ok (uplinkRx_forSaend hlink hloop hok hmac h)
    · have hdist := uplinkRx_distribute hlink hloop hok hmac h
      rw [ptpOf_eq] at hdist
      refine ⟨fun hnone => ?_, fun hvid hsome => ⟨fun z hz => ?_, fun e he => ?_⟩⟩
      · exact exec_uplinkFrameRx_ok (hdist.trans (distribute_none hnone))
      · exact exec_uplinkFrameRx_ok (hdist.trans ((distribute_some hvid hsome).trans hz))
      · exact exec_uplinkFrameRx_error (hdist.trans ((distribute_some hvid hsome).trans he))
  case empty => exact exec_upstreamPipeline_ok (by simp [upstreamStep, h])
  case span =>
    have hstep := upstreamStep_some htake
    refine ⟨fun hoff => exec_upstreamPipeline_ok (hstep.trans (upstreamFrame_off hoff)), fun hon => ?_⟩
    have hon : domOn (upRest rest s) (domPl p) = true := hon
    refine ⟨fun hrec => ?_, fun i r hrec => ⟨fun hmode => ?_, fun hmode htrap => ?_, fun hmode htrap hhop => ?_,
      fun reason hmode htrap hhop hpunt => ?_, fun hmode htrap hhop hpunt hpolice => ?_, fun yellow hmode htrap hhop hpunt hpolice => ?_,
      fun hmode htrap hpolice hlearn => ?_⟩⟩
    · exact exec_upstreamPipeline_ok (hstep.trans (upstreamFrame_noRecord hon hrec))
    · exact exec_upstreamPipeline_ok (hstep.trans (upstreamFrame_mode0 hon hrec hmode))
    · exact exec_upstreamPipeline_ok (hstep.trans (upstreamFrame_trapped hon hrec hmode (Prod.ext rfl htrap)))
    · exact exec_upstreamPipeline_ok (hstep.trans (upstreamFrame_hopLimit hon hrec hmode (Prod.ext rfl htrap) (Prod.ext rfl hhop)))
    · exact exec_upstreamPipeline_ok (hstep.trans (upstreamFrame_punted hon hrec hmode (Prod.ext rfl htrap) (Prod.ext rfl hhop) hpunt))
    · exact exec_upstreamPipeline_ok (hstep.trans (upstreamFrame_red hon hrec hmode (Prod.ext rfl htrap) (Prod.ext rfl hhop) hpunt (Prod.ext rfl hpolice)))
    · have hforward := hstep.trans (upstreamFrame_admitted hon hrec hmode (Prod.ext rfl htrap) (Prod.ext rfl hhop) hpunt (Prod.ext rfl hpolice))
      exact ⟨fun q hq => exec_upstreamPipeline_ok (hforward.trans hq), fun e he => exec_upstreamPipeline_error (hforward.trans he)⟩
    · have hqueue := hstep.trans (upstreamFrame_bridged hon hrec hmode htrap hpolice hlearn)
      exact ⟨fun hpush hup => exec_upstreamPipeline_ok (hqueue.trans (upQueue_untagged hup hpush _ _ _ _)),
        fun hdown => exec_upstreamPipeline_error (hqueue.trans (upQueue_refused hdown _ _ _ _ _))⟩

end Sys2Proof.Machine

/-! PROOFS. Every command leaves the fuses, the flash and the waiting commands alone, but for the three that write a fuse or the flash
(R60, R111, R114, R116; notes/assumptions/10): the commands by the shape of their meaning. -/

namespace Sys2Proof.Machine

/-! ### The operations of the commands that the Keep files leave out -/

@[simp] theorem andSet_kept (n : Nat) (s : State) : kept (andSet n s) = kept s := by simp [andSet]

@[simp] theorem laneEnable_kept (c : Call) (s : State) : kept (laneEnable c s) = kept s := by simp [laneEnable, apply_ite kept]

theorem lanePrbs_andSet_kept (n : Nat) (ws : List Word) (s : State) :
    PairKept (kept s) ((lanePrbs ws s).map fun r => (andSet n r.1, r.2)) := by
  have h := lanePrbs_kept ws s _ rfl
  cases hr : lanePrbs ws s with
  | error e => trivial
  | ok r =>
    rw [hr] at h
    exact (andSet_kept _ _).trans h

@[simp] theorem takeFrag_kept (sp o frag : Nat) (last : Bool) (bytes : List Byte) (s : State) : kept (takeFrag sp o frag last bytes s) = kept s := rfl

/-- Key steps of a Span leave what they leave where the device is its standby too. -/
theorem keysHere_kept (sp : Nat) (f : State → State) (s : State) (h : kept (f s) = kept s) : OutKept (kept s) (keysHere sp f s) :=
  kept_ite _ _ _ _ rfl h

/-! ### The commands with a shape of their own -/

theorem execRegisterWrite_kept (ch : Chan) (off : BitVec 16) (w : Word) (s : State) : OutKept (kept s) (execRegisterWrite ch off w s) := by
  unfold execRegisterWrite
  (repeat' split) <;> simp

theorem execBadCallReceived_kept (code : BitVec 16) (c : Call) (s : State) : OutKept (kept s) (execBadCallReceived code c s) := by
  unfold execBadCallReceived
  dsimp only
  split
  · simp
  · exact serve_kept _ _ _ _ fun u => respond_kept _ _ _ _ u

theorem execApplyPoint_kept (lines : List LineWatch) (s : State) : OutKept (kept s) (execApplyPoint lines s) := by
  unfold execApplyPoint
  dsimp only
  (repeat' split) <;> simp

theorem execMapCutoff_kept (sp : SpanIx) (s : State) : OutKept (kept s) (execMapCutoff sp s) := by
  unfold execMapCutoff
  split <;> simp

theorem execLanyardHelloRx_kept (port : PortIx) (h : LanHead) (manager : Bool) (free : Nat) (s : State) :
    OutKept (kept s) (execLanyardHelloRx port h manager free s) := by
  unfold execLanyardHelloRx
  split <;> simp

theorem execTrussMicroword_kept (sp : SpanIx) (words : Bool) (s : State) : OutKept (kept s) (execTrussMicroword sp words s) := by
  have h := microStep_kept sp words s
  unfold execTrussMicroword
  split
  · next t e => rw [e] at h; exact h
  · trivial

theorem execKeyReportReceived_kept (sp : SpanIx) (onu : OnuIx) (frag : KeyFrag) (s : State) :
    OutKept (kept s) (execKeyReportReceived sp onu frag s) := by
  refine keysHere_kept _ _ _ ?_
  dsimp only
  (repeat' split) <;> simp

theorem execEncryptionKeyReceived_kept (sp : SpanIx) (onu : OnuIx) (keyIx frag : Nat) (bytes : List Byte) (s : State) :
    OutKept (kept s) (execEncryptionKeyReceived sp onu keyIx frag bytes s) := by
  refine keysHere_kept _ _ _ ?_
  dsimp only
  (repeat' split) <;> simp

theorem execCePayloadDemapped_kept (n : Fin 1008) (e1 : E1Run) (found : Bool) (s : State) :
    OutKept (kept s) (execCePayloadDemapped n e1 found s) := by
  unfold execCePayloadDemapped
  split
  · next t pkt e => exact orUndefined_kept _ _ (distribute_kept _ _ _ _ _ _ (cePacketOut_kept _ _ _ _ _ _ _ e))
  · rfl

/-! ### Every command -/

/-- A command other than `DEV_FLASH_WRITE`, `DEV_SVN_ADVANCE` and `OWNER_KEY_FUSE` leaves the fuses, the flash and the waiting commands. -/
theorem exec_kept (i : Instr) (s : State) (hflash : ∀ c, i ≠ .devFlashWrite c) (hsvn : ∀ c, i ≠ .devSvnAdvance c)
    (hkey : ∀ c, i ≠ .ownerKeyFuse c) : OutKept (kept s) (exec i s) := by
  cases i with
  | devFlashWrite c => exact absurd rfl (hflash c)
  | devSvnAdvance c => exact absurd rfl (hsvn c)
  | ownerKeyFuse c => exact absurd rfl (hkey c)
  | registerWrite _ _ _ => exact execRegisterWrite_kept _ _ _ _
  | badCallReceived _ _ => exact execBadCallReceived_kept _ _ _
  | applyPoint _ => exact execApplyPoint_kept _ _
  | trussMicroword _ _ => exact execTrussMicroword_kept _ _ _
  | keyReportReceived _ _ _ => exact execKeyReportReceived_kept _ _ _ _
  | encryptionKeyReceived _ _ _ _ _ => exact execEncryptionKeyReceived_kept _ _ _ _ _ _
  | cePayloadDemapped _ _ _ => exact execCePayloadDemapped_kept _ _ _ _
  | lanePrbs _ => exact serveAct_kept _ _ _ _ fun _ => lanePrbs_andSet_kept _ _ _
  | uplinkFrameRx _ _ _ _ => exact orUndefined_kept _ _ (uplinkRx_kept _ _ _ _ _ _ rfl)
  | upstreamPipeline _ => exact orUndefined_kept _ _ (upstreamStep_kept _ _ _ rfl)
  | mapCutoff _ => exact execMapCutoff_kept _ _
  | lanyardHelloRx _ _ _ _ => exact execLanyardHelloRx_kept _ _ _ _ _
  | mbxIrqCtrlWrite _ _ | ringEnable _ _ _ | ringDisable _ _ _ | ringProdWrite _ _ _ | ringStatusClear _ _ _ =>
    exact writeReg_kept _ _ _ _ _ (by simp)
  | keyExchangeTimeout _ _ | keySwitchFrame _ _ | keyMarginReached _ _ | keyExpired _ _ => exact keysHere_kept _ _ _ (by simp)
  | pairKeyFlitRx _ _ _ | hawserMailboxFlitRx _ _ _ | hawserTimebaseFlitRx _ _ _ _ | mirrorMapRx _ _ | mirrorOnuRx _ _
  | mirrorAllocRx _ _ | mirrorKeyRx _ _ | mirrorCommitRx _ _ | mirrorSpanRx _ _ | mirrorHeartbeatRx _ _ _ _ | mirrorSwitchRx _ _ _ _
  | mirrorEndOfSnapshotRx _ _ | mirrorAckRx _ =>
    exact (outKept_next _ _).2 (fromMate_kept _ _ fun _ => by simp)
  | sessionPing _ | txnQuery _ | evtRouteGet _ | cntRead _ | devInfo _ | devReportRead _ | pwrDomainGet _ | spanStatus _
  | onuDefectRead _ | spliceRead _ | onuStateRead _ | discListRead _ | reachRead _ | onuRangeRead _ | stbyDeltaRead _ | timeStatus _
  | keystoneRead _ | todCalc _ | allocRead _ | sliceBudgetRead _ | trussStatus _ | openStatus _ | openStats _ | hankStatus _
  | sliceHankRead _ | queueRead _ | viaductStatus _ | policerRead _ | uplinkBudgetRead _ | distRead _ | fdbRead _ | routeRead _
  | fwdStatus _ | ponKeyStatus _ | macsecSaRead _ | xtsStatus _ | pairKeyStatus _ | entropyStatus _ | loopRead _ | opticsStatus _
  | rssiRead _ | convRead _ | pcieStatus _ | sdhStatus _ | mspStatus _ | tsiRead _ | ceCircuitRead _ | pairStatus _ | lanyardStatus _
  | lanyardRegRead _ =>
    simp only [exec]
    exact serveRead_kept _ _ _ _
  | txnBegin _ | txnRollback _ | evtDetail _ | cntSnapshotCopy _ | devAttest _ | devCertRead _ | devSlotSet _ | devReset _
  | thermalRead _ | timeFreqAdjust _ | timePhaseSlew _ | timePhaseStep _ | timePhaseSample _ | timeEvtRead _ | ptpTxtsRead _
  | schedNodeRead _ | gateListRead _ | fdbFlush _ | ponKeyRoll _ | opticsFaultClear _ | portModeSet _ | laneTxEqSet _ | laneRxEqSet _
  | laneDetectConfig _ | laneLoopbackSet _ | laneStatus _ | hawserLaneStatus _ | sdhTraceRead _ | mspCommandClear _ | mspCommandLockout _
  | mspCommandForced _ | mspCommandManual _ | mateHello _ | mateBulkSend _ | mateBulkReceived _ =>
    simp only [exec]
    exact serveAct_kept _ _ _ _ fun _ => by simp
  | sessionOpen _ | sessionClose _ | txnCommit _ | pwrDomainSetOn _ | pwrDomainSetOff _ | spanOpen _ | spanClose _ | openLoad _
  | hankPartitionSet _ | opticsStart _ | opticsStop _ | laneEnableOn _ | laneEnableOff _ | pairSwitch _ =>
    simp only [exec]
    exact serve_kept _ _ _ _ fun _ => by simp
  | evtPendRead _ _ | queueAdmission _ =>
    refine (outKept_next _ _).2 ?_
    (repeat' split) <;> simp
  | lanyardBudgetRx _ _ _ =>
    refine (outKept_next _ _).2 (lanFrame_kept _ _ _ _ _ fun _ => ?_)
    split
    · exact forEach_kept _ _ _ fun _ _ => budgetIn_kept _ _ _ _
    · rfl
  | mbxInDataWrite _ _ | mbxInAbort _ | mbxInCollisionClear _ | mbxOutDataRead _ | mbxOutCollisionClear _ | cleatRead _ _
  | cleatWrite _ _ _ | tbSnapTake _ | evtPendClear _ _ _ | evtMaskWrite _ _ _ | ringStopComplete _ _ | omciTxDescriptor _ _ _
  | puntTxDescriptor _ _ _ | ringIrqTimeout _ _ | ringPcieFault _ _ | markedMessageDiscard _ | outboundBacklogMove _
  | eventRateWindowEnd _ _ | txnIdleTimeout _ | powerOnReset | resetRelease _ _ _ | bootRomCheckDone _ | bootloaderCheckDone _
  | saendReady | deviceReset _ _ _ | pciePerst | functionLevelReset _ | vfDisable _ | jtagTestReset | saendWatchdogExpiry
  | saendRestartComplete | powerSwitchOnTurn | avsPreRampWaitEnd | rampEnd | drainEnd _ | avsControlTick | paceWindowEnd _ | paceAlarm _
  | paceShedTimeout | thermalWarn _ | thermalHotTimeout _ | thermalTrip _ | thermalClear _ | pmbAlert _ | finishEntry _
  | trussInitEntry _ | callLimitReached _ | spanOpenTxStart _ | spanCloseStopGrants _ | spanCloseDeactivate _ | spanCloseTxStop _
  | spliceLoad _ _ | delimiterMatch _ _ _ | searchWindowEnd _ _ | burstLastBit _ _ _ | fecCodewordDecoded _ _ _ _ _
  | dbruExtracted _ _ _ _ _ | ploamuExtracted _ _ _ _ | upstreamXgemFrame _ _ _ _ | arrivalMeasured _ _ _ | eqdConfirmTimeout _ _
  | spliceAgeExpiry _ _ | sdWindowEnd _ _ | sfWindowEnd _ _ | lobDeactTimeout _ _ | dgiClearTimeout _ _ | ploamReplyTimeout _ _
  | pierTxLockLoss _ | txLockHeld _ | snReceived _ _ _ _ | rangingBurstAccepted _ _ _ | registrationReceived _ _ _
  | regRequestTimeout _ _ | deactivatingEnd _ _ | discEntryExpiry _ _ | regAnswerTimeout _ _ | rogueHalvingWaitEnd _ _ _ | secondBoundary
  | slewComplete | ppsInEdge _ | freqSourceLost | phaseSourceLost | referenceSourceReturn _ | timeEvtInputEdge _ _ _ | timePpsOutPulse
  | keystonePinFire _ | keystoneConvFire _ | keystoneLoopFire _ | xpFlushReceived _ | agingSweepStart _ _ | agingBucketVisit _ _
  | puntLimiterRefill _ _ _ | spillWriteComplete _ | deepFetchComplete _ _ _ | descriptorFetchComplete _ | queueDeleteDrain _
  | packetTxComplete _ | shaperRefill _ | policerRefill _ | wheelFineRelease _ _ | wheelCoarseMigrate _ | pierSchedSelect _ _
  | uplinkSchedSelect _ | gateEntryChange _ _ | gateCycleEnd _ _ | keyRetireEnd _ _ | keyMirrorAckTimeout _ _ | entropyHealthFail _
  | entropyRecovered | drbgReseed | loopConvTimeEnd _ _ | rssiConvTimeEnd _ _ | loopbFrameDone _ _ | loopbAlert _ | laneStartingDone _
  | laneStoppingDone _ | laneLosDeclare _ | laneLosClear _ | laneRxLol _ | laneRxLockHeld _ | laneTrainComplete _ _ _
  | laneTrainTimeout _ | laneTrainRetry _ | hawserLockGained _ | hawserLockLost _ | hawserCodewordRx _ _ _ _ _ | hawserNoCodewordTimeout
  | hawserLinkUp | hawserFreeFlitTimer | hawserTimebaseFlitTimer | pcieLinkChange _ _ | pcieUncorrError _ | stm16FrameRx _ _ | lofTimer _
  | b2WindowEnd _ _ | v5WindowEnd _ _ _ | mspHoldOffEnd _ | mspSelectorEvaluate | mspWtrEnd | mspBridgeMismatchTimeout | tsiSwap
  | cePacketRx _ | cePlayoutSlot _ | mirrorAckTimer | mateHeartbeatTimeout | mateConfirmEnd _ | switchoverRelight _
  | switchoverFirstFrame _ | lanyardHelloTimer | lanyardCallRx _ _ _ | lanyardReplyRx _ _ _ _ | lanyardRegQueryRx _ _ _ _ _
  | lanyardRegAnswerRx _ _ _ _ | lanyardUsageRx _ _ _ | lanyardManagerTimeout _ | lanyardApportion | pcsBlockLockChange _ _ _ _
  | frequencyLoopSettled | pairKeyTimeout | vfEnable _ | msixVectorUnmask _ _ | searchWindowStart _ _
  | spanOpenGrantStart _ | discoveryPeriod _ | esmcFrameToSaend _ _ | pairKeyRekeyTimer =>
    exact (outKept_next _ _).2 (by simp)
  | _ => exact txnServe_kept _ _ _

/-! ### The waiting commands -/

theorem pending_of_kept {s t : State} (h : kept t = kept s) : t.pending = s.pending := congrArg (·.2.2.2.2) h

/-- A served call leaves the waiting commands where its body does. -/
theorem serve_pending {sp : CallSpec} {c : Call} {s t : State} {body : State → State} (hb : ∀ u, (body u).pending = u.pending)
    (h : serve sp c s body = .next t) : t.pending = s.pending := by
  have hread : (readCall sp.code c s).pending = s.pending := pending_of_kept (readCall_kept _ _ _)
  rcases serve_cases sp c s body with hidle | ⟨r, hundef⟩ | ⟨e, hrefused⟩ | hserved
  · cases hidle.symm.trans h; rfl
  · cases hundef.symm.trans h
  · cases hrefused.symm.trans h
    exact (pending_of_kept (respond_kept _ _ _ _ _)).trans hread
  · cases hserved.symm.trans h
    exact (hb _).trans hread

theorem respond_pending (code : Nat) (c : Call) (st : Status) (ws : List Word) (s : State) : (respond code c st ws s).pending = s.pending :=
  pending_of_kept (respond_kept _ _ _ _ _)

theorem raise_pending (src : Nat) (own : List Nat) (d : List Word) (s : State) : (raise src own d s).pending = s.pending :=
  pending_of_kept (raise_kept _ _ _ _)

/-- A call that acts leaves the waiting commands where what its body gives has them. -/
theorem serveAct_pending {sp : CallSpec} {c : Call} {s t : State} {body : State → Res (State × List Word)}
    (hb : ∀ u x, body u = .ok x → x.1.pending = u.pending) (h : serveAct sp c s body = .next t) : t.pending = s.pending := by
  refine serve_pending (fun u => ?_) h
  split
  · next e => exact (respond_pending _ _ _ _ _).trans (hb _ _ e)
  · exact respond_pending _ _ _ _ _

/-- What follows a test that has passed. -/
theorem ok_of_need_bind {α : Type} {b : Bool} {st : Status} {f : Unit → Res α} {x : α} (h : (need b st >>= f) = .ok x) : f () = .ok x := by
  cases b with
  | false => cases h
  | true => exact h

theorem devFlashWrite_pending {ch : Nat} {ws : List Word} {s : State} {x : State × List Word} (h : devFlashWrite ch ws s = .ok x) :
    x.1.pending = s.pending := by
  cases ok_of_need_bind (ok_of_need_bind h)
  rfl

theorem devSvnAdvance_pending {s : State} {x : State × List Word} (h : devSvnAdvance s = .ok x) : x.1.pending = s.pending := by
  have h := ok_of_need_bind h
  dsimp only at h
  split at h <;> cases h
  · rfl
  · exact raise_pending _ _ _ _

theorem ownerKeyFuse_pending (ws : List Word) (s : State) : (ownerKeyFuse ws s).1.pending = s.pending := by
  unfold ownerKeyFuse
  dsimp only
  (repeat' split) <;> simp [raise_pending]

/-- No command adds to the waiting commands or takes from them. -/
theorem exec_pending {i : Instr} {s t : State} (h : exec i s = .next t) : t.pending = s.pending := by
  by_cases hflash : ∃ c, i = .devFlashWrite c
  · obtain ⟨c, rfl⟩ := hflash
    simp only [exec] at h
    exact serveAct_pending (fun _ _ => devFlashWrite_pending) h
  by_cases hsvn : ∃ c, i = .devSvnAdvance c
  · obtain ⟨c, rfl⟩ := hsvn
    simp only [exec] at h
    exact serveAct_pending (fun _ _ => devSvnAdvance_pending) h
  by_cases hkey : ∃ c, i = .ownerKeyFuse c
  · obtain ⟨c, rfl⟩ := hkey
    simp only [exec] at h
    exact serve_pending (fun u => (respond_pending _ _ _ _ _).trans (ownerKeyFuse_pending _ u)) h
  exact pending_of_kept ((exec_kept i s (not_exists.mp hflash) (not_exists.mp hsvn) (not_exists.mp hkey)).next h)

/-- An empty queue is one tick (R211). -/
theorem step_of_idle {s : State} (h : s.pending = []) : step s = .next (tick s) := by simp [step, h]

/-- A waiting queue gives its front to `exec`, on the state with the rest. -/
theorem step_of_waiting {s : State} {c : Instr} {rest : List Instr} (h : s.pending = c :: rest) : step s = exec c { s with pending := rest } := by
  simp [step, h]

/-- Settles O60: an empty queue stays empty over a tick, and the front command leaves the rest as it finds it. -/
theorem aStepTakesOneCommand : Obligations.AStepTakesOneCommand := by
  unfold Obligations.AStepTakesOneCommand
  intro s t h
  cases hp : s.pending with
  | nil =>
    cases (step_of_idle hp).symm.trans h
    exact (pending_of_kept (tick_kept s)).trans hp
  | cons c rest => exact exec_pending ((step_of_waiting hp).symm.trans h)

/-- Settles O1: the step is `exec` of the front of the queue, one tick where it is empty, and no table word decodes. -/
theorem theFrontCommandIsExecuted : Obligations.TheFrontCommandIsExecuted := by
  unfold Obligations.TheFrontCommandIsExecuted
  exact ⟨fun _ _ _ => step_of_waiting rfl, fun _ => step_of_idle, fun _ _ => ⟨rfl, fun _ => rfl⟩⟩

end Sys2Proof.Machine

/-! PROOFS. Registers read through a channel and the Cleats (R54, R70, R72 to R76, R552): how a read of a register with a row of its own
ends, and what each reading and writing of a Cleat does. -/

namespace Sys2Proof.Machine

/-! ### Reads of the registers with a row of their own -/

theorem bootShown_cleat (n : Fin 64) : bootShown (0x1000 + 4 * n) = false := by
  unfold bootShown
  simp
  omega

/-- CLEAT_READ by a channel that is there: 0 while the device boots, else the Cleat's answer. -/
theorem exec_cleatRead {s : State} {ch : Chan} (n : Fin 64) (h : reaches s ch = true) :
    exec (.cleatRead ch n) s = .next (if booting s then emit (.readData ch 0) s else cleatRead ch n s) := by
  show Host.Outcome.next (if reaches s ch then readBy ch (0x1000 + 4 * n) (0x40 + n) s else s) = _
  rw [if_pos h, readBy_eq _ _ _ _ fun _ => smbOffset_cleat n]
  cases hboot : booting s with
  | true => exact congrArg _ (readReg_booting _ _ _ hboot (bootShown_cleat n))
  | false => exact congrArg _ (readReg_cleat _ _ _ hboot)

theorem exec_cleatWrite {s : State} {ch : Chan} (n : Fin 64) (w : Word) (h : reaches s ch = true) :
    exec (.cleatWrite ch n w) s = .next (cleatWrite ch n w s) := congrArg Host.Outcome.next (if_pos h)

/-! ### Cleats -/

section
variable {ch n : Nat} {s : State}

theorem cleatRead_notAllowed (h : mayUse (cleatOf s n) ch = false) : cleatRead ch n s = emit (.readData ch 0xFF) s := by
  simp [cleatRead, cleatWord, claimsCleat, h]

theorem cleatRead_free (h : mayUse (cleatOf s n) ch = true) (hfree : (cleatOf s n).holder = 0xFF) :
    cleatRead ch n s = emit (.readData ch (putb true 31 ||| wd ch)) (setCleat n { cleatOf s n with holder := ch } s) := by
  simp [cleatRead, cleatWord, claimsCleat, h, hfree]

theorem cleatRead_held (h : mayUse (cleatOf s n) ch = true) (hheld : (cleatOf s n).holder ≠ 0xFF) :
    cleatRead ch n s = emit (.readData ch (wd (cleatOf s n).holder)) s := by
  simp [cleatRead, cleatWord, claimsCleat, h, hheld]

theorem cleatWrite_releases (h : mayUse (cleatOf s n) ch = true) :
    cleatWrite ch n 0 s = setCleat n { cleatOf s n with holder := 0xFF } s := if_pos (by simp [h])

/-- A value other than 0, or a writer that may not use the Cleat, changes nothing (R75). -/
theorem cleatWrite_ignored {w : Word} (h : w ≠ 0 ∨ mayUse (cleatOf s n) ch = false) : cleatWrite ch n w s = s := by
  refine if_neg ?_
  rw [Bool.and_eq_true, decide_eq_true_eq]
  rintro ⟨hw, hmay⟩
  rcases h with h | h
  · exact h hw
  · exact Bool.false_ne_true (h.symm.trans hmay)

end

/-- Settles O8: a read takes, shows or refuses the Cleat, and a write of 0 alone releases it. -/
theorem cleatsTakenAndReleased : Obligations.CleatsTakenAndReleased := by
  unfold Obligations.CleatsTakenAndReleased
  intro s ch n c hreach
  refine ⟨fun hboot => ?_, fun h => ?_, fun h => ?_, fun w hw => ?_⟩
  · rw [exec_cleatRead n hreach, hboot]
    exact ⟨fun h => congrArg _ (cleatRead_notAllowed h), fun h hfree => congrArg _ (cleatRead_free h hfree),
      fun h hheld => congrArg _ (cleatRead_held h hheld)⟩
  · rw [exec_cleatWrite n 0 hreach, cleatWrite_releases h]
  · rw [exec_cleatWrite n 0 hreach, cleatWrite_ignored (.inr h)]
  · rw [exec_cleatWrite n w hreach, cleatWrite_ignored (.inl hw)]

end Sys2Proof.Machine

/-! PROOFS. Sessions, pings, and the reads of the event routes, details and counters (R77, R78, R100, R102, R103, R542, R543). -/

namespace Sys2Proof.Machine

/-! ### The negotiated version (R78) -/

/-- In a falling list, the first number that passes a test is the greatest that does. -/
theorem find?_eq_some_iff_greatest {p : Nat → Bool} {l : List Nat} (hl : l.Pairwise (· > ·)) (v : Nat) :
    l.find? p = some v ↔ v ∈ l ∧ p v = true ∧ ∀ x ∈ l, p x = true → x ≤ v := by
  induction l with
  | nil => simp
  | cons a l ih =>
    obtain ⟨habove, hl⟩ := List.pairwise_cons.mp hl
    cases hp : p a with
    | true =>
      rw [List.find?_cons_of_pos hp, Option.some_inj]
      constructor
      · rintro rfl
        exact ⟨List.mem_cons_self, hp, List.forall_mem_cons.mpr ⟨fun _ => le_rfl, fun x hx _ => (habove x hx).le⟩⟩
      · rintro ⟨hv, -, hmax⟩
        have hle := hmax a List.mem_cons_self hp
        rcases List.mem_cons.mp hv with rfl | hv
        · rfl
        · exact absurd (habove v hv) (Nat.not_lt.mpr hle)
    | false =>
      rw [List.find?_cons_of_neg (by simp [hp]), ih hl, List.mem_cons, List.forall_mem_cons]
      constructor
      · rintro ⟨hv, hpv, hmax⟩
        exact ⟨.inr hv, hpv, fun h => absurd (hp.symm.trans h) Bool.false_ne_true, hmax⟩
      · rintro ⟨rfl | hv, hpv, -, hmax⟩
        · exact absurd (hp.symm.trans hpv) Bool.false_ne_true
        · exact ⟨hv, hpv, hmax⟩

theorem versions_fall : versions.Pairwise (· > ·) := by decide

theorem negotiate_eq_some_iff (lo hi v : Nat) : negotiate lo hi = some v ↔
    (v ∈ [0x0200, 0x0201, 0x0300, 0x0301, 0x0302] ∧ lo ≤ v ∧ v ≤ hi ∧ ∀ x ∈ [0x0200, 0x0201, 0x0300, 0x0301, 0x0302], lo ≤ x → x ≤ hi → x ≤ v) := by
  have hmem : ∀ x, x ∈ versions ↔ x ∈ [0x0200, 0x0201, 0x0300, 0x0301, 0x0302] := fun x =>
    (List.mem_reverse (as := [0x0200, 0x0201, 0x0300, 0x0301, 0x0302]))
  rw [show negotiate lo hi = versions.find? (fun v => lo ≤ v && v ≤ hi) from rfl, find?_eq_some_iff_greatest versions_fall]
  simp only [hmem, Bool.and_eq_true, decide_eq_true_eq, and_imp, and_assoc]

/-! ### `SESSION_OPEN` (R77, R78) -/

/-- What `SESSION_OPEN` leaves of the session before it. -/
def sessionCleared (ch : Nat) (s : State) : State := if (chanOf s ch).session.isSome then closeSession ch s else s

section
variable {c : Call} {s : State}

theorem sessionOpen_agreed {v : Nat} (h : negotiate (fld (pw c.words 0) 15 0) (fld (pw c.words 0) 31 16) = some v) :
    sessionOpen c s = let t := sessionCleared c.chan s
      respond 0x0001 c .done [wd v, put c.chan 16 ||| putb (sliceOf t c.chan).isSome 8 ||| wd ((sliceOf t c.chan).getD 0)]
        (setChan c.chan { chanOf t c.chan with session := some v } t) := by
  simp [sessionOpen, h, sessionCleared]

theorem sessionOpen_noCommon (h : negotiate (fld (pw c.words 0) 15 0) (fld (pw c.words 0) 31 16) = none) :
    sessionOpen c s = respond 0x0001 c .version [0x03020200] (sessionCleared c.chan s) := by
  simp [sessionOpen, h, sessionCleared]

theorem exec_sessionOpen (h : Served sessionOpenSpec c s) : exec (.sessionOpen c) s = .next (sessionOpen c (readCall 0x0001 c s)) :=
  serve_served h _

end

/-- Settles O10: the version is the greatest common one, and without a session before it nothing is closed. -/
theorem sessionsOpenCloseAndPing : Obligations.SessionsOpenCloseAndPing := by
  unfold Obligations.SessionsOpenCloseAndPing
  refine ⟨negotiate_eq_some_iff, fun c s => ⟨fun hserved hnone => ?_, fun hserved => serveRead_done hserved (fun _ => .ok (c.words.take 14)) rfl⟩⟩
  have hclear : sessionCleared c.chan (readCall 0x0001 c s) = readCall 0x0001 c s := if_neg (by simp [hnone])
  refine ⟨fun v hv => ?_, fun hv => ?_⟩
  · refine (exec_sessionOpen hserved).trans (congrArg _ ?_)
    rw [sessionOpen_agreed hv, hclear]
    rfl
  · exact (exec_sessionOpen hserved).trans (congrArg _ (by rw [sessionOpen_noCommon hv, hclear]))

/-! ### Event routes, details and counters -/

theorem evtDetail_seen {ch : Nat} {ws : List Word} {s : State} (hreal : realSource (fld (pw ws 0) 9 0) = true)
    (hsee : maySee s ch (fld (pw ws 0) 9 0) = true) :
    evtDetail ch ws s = let n := fld (pw ws 0) 9 0; let e := chanEvt s ch n
      .ok (setChanEvt ch n { e with count := 0 } s, [wd e.count] ++ toWords 2 e.last ++ [pw e.detail 0, pw e.detail 1, pw e.detail 2, pw e.detail 3]) := by
  unfold evtDetail
  dsimp only
  rw [hreal, hsee]
  rfl

theorem cntRead_seen {ch : Nat} {ws : List Word} {s : State} (h : cntSeen s ch (fld (pw ws 0) 23 0) = true) :
    cntRead ch ws s = .ok (toWords 2 (kgetD s.ctl.cntSnap (fld (pw ws 0) 23 0) 0) ++ [wd s.ctl.snapSecond]) := by
  unfold cntRead
  dsimp only
  rw [h]
  rfl

/-- The snapshot that a channel may copy (R542, R543). -/
def seenSnapshot (ch : Nat) (s : State) : List Byte :=
  snapshotBytes (s.ctl.cntSnap.filter fun r => cntSeen s ch r.1) s.ctl.snapSecond

theorem cntSnapshotCopy_fits {ch : Nat} {ws : List Word} {s : State} (halign : wide ws 0 2 % 64 = 0)
    (hroom : (seenSnapshot ch s).length ≤ fld (pw ws 2) 23 0) :
    cntSnapshotCopy ch ws s = .ok (emit (.dma ch (wide ws 0 2) (seenSnapshot ch s)) s, [wd s.ctl.snapSecond, wd (seenSnapshot ch s).length]) := by
  have hroom := decide_eq_true hroom
  unfold seenSnapshot at *
  unfold cntSnapshotCopy
  dsimp only
  rw [decide_eq_true halign, hroom]
  rfl

/-- Settles O18: each body answers what it reads; the copy leaves by DMA. -/
theorem eventAndCounterReads : Obligations.EventAndCounterReads := by
  unfold Obligations.EventAndCounterReads
  intro c s
  exact ⟨fun hserved => serveRead_done hserved (fun u => .ok (evtRouteGet c.chan c.words u)) rfl,
    fun hserved hreal hsee => serveAct_done hserved _ (evtDetail_seen hreal hsee), fun hserved hsee => serveRead_done hserved _ (cntRead_seen hsee),
    fun hserved halign hroom => serveAct_done hserved _ (cntSnapshotCopy_fits halign hroom)⟩

end Sys2Proof.Machine

/-! PROOFS. The DMA rings (R92, R93, R95): how a ring stops, faults and interrupts, and with what a transmit descriptor completes. -/

namespace Sys2Proof.Machine

/-! ### A ring stops, faults and interrupts -/

section
variable {fn r : Nat} {s : State}

theorem ringStopped_stops (hactive : (ringOf s fn r).active = true) (henable : (ringOf s fn r).enable = false)
    (hrestart : (ringOf s fn r).restart = false) : ringStopped fn r s = setRing fn r { ringOf s fn r with active := false } s := by
  simp [ringStopped, hactive, henable, hrestart]

theorem ringStopped_restarts (hactive : (ringOf s fn r).active = true) (henable : (ringOf s fn r).enable = false)
    (hrestart : (ringOf s fn r).restart = true) : ringStopped fn r s = setRing fn r (ringOf s fn r).start s := by
  simp [ringStopped, hactive, henable, hrestart]

theorem ringStopped_idle (h : (ringOf s fn r).active = false ∨ (ringOf s fn r).enable = true) : ringStopped fn r s = s := by
  rcases h with h | h <;> simp [ringStopped, h]

theorem ringTimeout_raises (henable : (ringOf s fn r).irqEn = true) (hwaits : (ringOf s fn r).uncounted ≠ 0) :
    ringTimeout fn r s = msix fn (2 + r) (setRing fn r { ringOf s fn r with uncounted := 0 } s) := by
  simp [ringTimeout, henable, hwaits]

theorem ringTimeout_idle (h : (ringOf s fn r).irqEn = false ∨ (ringOf s fn r).uncounted = 0) : ringTimeout fn r s = s := by
  rcases h with h | h <;> simp [ringTimeout, h]

theorem ringFault_stops (h : (ringOf s fn r).restart = false) :
    ringFault fn r s = setRing fn r { ringOf s fn r with faulted := true, active := false } s := by
  simp [ringFault, h]

theorem ringFault_restarts (h : (ringOf s fn r).restart = true) :
    ringFault fn r s = setRing fn r { (ringOf s fn r).start with faulted := true } s := by
  simp [ringFault, h, Ring.start]

end

/-! ### Transmit descriptors (R95) -/

theorem hasWork_of {x : Ring} (hactive : x.active = true) (henable : x.enable = true) (hindex : x.cons ≠ x.prod) : x.hasWork = true := by
  simp [Ring.hasWork, hactive, henable, hindex]

/-- The lengths of an OMCI message: the baseline form's and those of the extended form (R95). -/
def omciFits (len : Nat) : Bool := len = 48 || (14 ≤ len && len ≤ 1980)

theorem omciFits_iff (len : Nat) : omciFits len = true ↔ len = 48 ∨ (14 ≤ len ∧ len ≤ 1980) := by simp [omciFits]

theorem not_omciFits {len : Nat} (hext : len < 14 ∨ 1980 < len) : omciFits len = false := by
  rw [Bool.eq_false_iff, Ne, omciFits_iff]
  omega

section
variable {fn : Nat} {desc : List Word} {buf : List Byte} {s : State}

theorem omciTx_eq : omciTx fn desc buf s = let sp := fld (pw desc 3) 4 0; let o := fld (pw desc 3) 24 16; let len := fld (pw desc 2) 15 0
    if !(ringOf s fn 0).hasWork then s
    else if sliceOf s fn ≠ some (onuOwner s sp o) then completeTx fn 0 1 desc s
    else if !omciFits len then completeTx fn 0 3 desc s
    else if (onuOf s sp o).st ≠ .active then completeTx fn 0 2 desc s
    else completeTx fn 0 0 desc (emit (.omci sp o (buf.take len)) s) := rfl

theorem omciTx_idle (h : (ringOf s fn 0).hasWork = false) : omciTx fn desc buf s = s := by simp [omciTx_eq, h]

theorem puntTx_idle (h : (ringOf s fn 3).hasWork = false) : puntTx fn desc buf s = s := by simp [puntTx, h]

section
variable (hwork : (ringOf s fn 0).hasWork = true)
include hwork

/-- The ONU that a transmit descriptor names is another slice's. -/
theorem omciTx_notOwner (h : sliceOf s fn ≠ some (onuOwner s (fld (pw desc 3) 4 0) (fld (pw desc 3) 24 16))) :
    omciTx fn desc buf s = completeTx fn 0 1 desc s := by
  simp [omciTx_eq, hwork, h]

variable (hown : sliceOf s fn = some (onuOwner s (fld (pw desc 3) 4 0) (fld (pw desc 3) 24 16)))
include hown

theorem omciTx_badLength (h : omciFits (fld (pw desc 2) 15 0) = false) : omciTx fn desc buf s = completeTx fn 0 3 desc s := by
  simp [omciTx_eq, hwork, hown, h]

variable (hlen : omciFits (fld (pw desc 2) 15 0) = true)
include hlen

theorem omciTx_notActive (h : (onuOf s (fld (pw desc 3) 4 0) (fld (pw desc 3) 24 16)).st ≠ .active) :
    omciTx fn desc buf s = completeTx fn 0 2 desc s := by
  simp [omciTx_eq, hwork, hown, hlen, h]

theorem omciTx_sends (h : (onuOf s (fld (pw desc 3) 4 0) (fld (pw desc 3) 24 16)).st = .active) :
    omciTx fn desc buf s = completeTx fn 0 0 desc
      (emit (.omci (fld (pw desc 3) 4 0) (fld (pw desc 3) 24 16) (buf.take (fld (pw desc 2) 15 0))) s) := by
  simp [omciTx_eq, hwork, hown, hlen, h]

end

section
variable (hwork : (ringOf s fn 3).hasWork = true)
include hwork

/-- The queue that a transmit descriptor names is another slice's. -/
theorem puntTx_notOwner (h : sliceOf s fn ≠ some (queueOwner s (fld (pw desc 4) 19 0))) : puntTx fn desc buf s = completeTx fn 3 1 desc s := by
  simp [puntTx, hwork, h]

variable (hown : sliceOf s fn = some (queueOwner s (fld (pw desc 4) 19 0)))
include hown

theorem puntTx_badLength (h : fld (pw desc 2) 15 0 < 14 ∨ 10240 < fld (pw desc 2) 15 0) :
    puntTx fn desc buf s = completeTx fn 3 3 desc s := by
  simp [puntTx, hwork, hown, h]

theorem puntTx_stages (hlow : 14 ≤ fld (pw desc 2) 15 0) (hhigh : fld (pw desc 2) 15 0 ≤ 10240) :
    puntTx fn desc buf s = completeTx fn 3 0 desc
      (stage (fld (pw desc 4) 19 0) (buf.take (fld (pw desc 2) 15 0)) false false none true s) := by
  simp [puntTx, hwork, hown, Nat.not_lt.mpr hlow, Nat.not_lt.mpr hhigh]

end

end

/-- Settles O7: each command of a ring by its own cases. -/
theorem ringsRunAndStop : Obligations.RingsRunAndStop := by
  unfold Obligations.RingsRunAndStop
  intro s fn r x
  refine ⟨fun hactive henable hrestart => ?_, fun hactive henable hrestart => ?_, fun h => ?_, fun henable hwaits => ?_, fun h => ?_,
    fun h => ?_, fun h => ?_, fun desc buf => ⟨fun h => ?_, fun h => ?_⟩, fun desc buf hwork => ⟨fun hown => ?_, fun hown _ hext => ?_,
      fun hown hlow hhigh hst => ?_⟩, fun desc buf hwork => ⟨fun hown => ?_, fun hown hrange => ?_⟩,
    fun desc buf hactive henable hindex hown hlen hst => ?_, fun desc buf hactive henable hindex hown hlow hhigh => ?_⟩
    <;> refine congrArg Host.Outcome.next ?_
  · exact ringStopped_stops hactive henable hrestart
  · exact ringStopped_restarts hactive henable hrestart
  · exact ringStopped_idle h
  · exact ringTimeout_raises henable hwaits
  · exact ringTimeout_idle h
  · exact ringFault_stops h
  · exact ringFault_restarts h
  · exact omciTx_idle h
  · exact puntTx_idle h
  · exact omciTx_notOwner hwork hown
  · exact omciTx_badLength hwork hown (not_omciFits hext)
  · exact omciTx_notActive hwork hown ((omciFits_iff _).mpr (.inr ⟨hlow, hhigh⟩)) hst
  · exact puntTx_notOwner hwork hown
  · exact puntTx_badLength hwork hown hrange
  · exact omciTx_sends (hasWork_of hactive henable hindex) hown ((omciFits_iff _).mpr hlen) hst
  · exact puntTx_stages (hasWork_of hactive henable hindex) hown hlow hhigh

end Sys2Proof.Machine

/-! PROOFS. Writes to the registers of a function (R6, R45, R51, R52, R54, R92, R93): how a write of a register ends, and what the
mailbox interrupt and ring registers take. -/

namespace Sys2Proof.Machine

/-! ### How a register write ends -/

section
variable {fn m : Nat} {w : Word} {s t : State}

/-- A function that is not there takes no write (R45). -/
theorem writeReg_unseen (h : hostSees s fn = false) : writeReg fn m w s t = .next s := by simp [writeReg, h]

theorem writeReg_reserved (h : hostSees s fn = true) (hw : w &&& wd m ≠ 0) : writeReg fn m w s t = .fault (.undefinedUse "R6") := by
  simp [writeReg, h, show ¬ w &&& wd m = 0#32 from hw]

theorem writeReg_writes (h : hostSees s fn = true) (hw : w &&& wd m = 0) : writeReg fn m w s t = .next t := by simp [writeReg, h, hw]

end

/-- A host's write by offset: a reserved bit and a ring that would move stop the model, else the register of the offset takes it. -/
theorem exec_registerWrite {ch : Chan} {off : BitVec 16} {w : Word} {s : State} (hch : ch.val < 16) (hsee : hostSees s ch = true) :
    exec (.registerWrite ch off w) s =
      if off.toNat % 4 = 0 ∧ w &&& reservedBits off.toNat ≠ 0 then .fault (.undefinedUse "R6")
      else if movesRing s ch off.toNat w = true then .fault (.undefinedUse "R93") else .next (regWrite ch off.toNat w s) := by
  have hoff : regOffset s ch off.toNat = some off.toNat := if_pos hch
  have hreach : reaches s ch = true := by simp [reaches, hsee]
  have hby : writeBy ch off.toNat w s = regWrite ch off.toNat w s := if_neg (by omega)
  show execRegisterWrite ch off w s = _
  simp [execRegisterWrite, hoff, hreach, hby, hch]

/-! ### The mailbox interrupt register (R54) -/

theorem irqCtrl_eq (fn : Nat) (w : Word) (s : State) : irqCtrl fn w s =
    let n := { chanOf s fn with freeThresh := fld w 22 16, inSpaceEn := bit w 1, outMsgEn := bit w 0 }
    if (chanOf s fn).inSpaceEn = false ∧ bit w 1 = true ∧ fld w 22 16 ≤ inFree (chanOf s fn) then msix fn 1 (setChan fn n s) else setChan fn n s := by
  refine if_congr ?_ rfl rfl
  rw [Bool.and_eq_true, Bool.and_eq_true, Bool.not_eq_true', decide_eq_true_iff, and_assoc]
  rfl

/-! ### A ring is enabled (R92, R93) -/

section
variable {fn r : Nat} {w : Word} {s : State}

theorem ringEnable_starts (h : (ringOf s fn r).active = false) : ringEnable fn r w s =
    setRing fn r (Ring.start { ringOf s fn r with coalesce := fld w 23 16, irqEn := bit w 8 }) s := by
  simp [ringEnable, h]

theorem ringEnable_waits (h : (ringOf s fn r).active = true) (henable : (ringOf s fn r).enable = false) : ringEnable fn r w s =
    setRing fn r { ringOf s fn r with coalesce := fld w 23 16, irqEn := bit w 8, restart := true } s := by
  simp [ringEnable, h, henable]

theorem ringEnable_runs (h : (ringOf s fn r).active = true) (henable : (ringOf s fn r).enable = true) : ringEnable fn r w s =
    setRing fn r { ringOf s fn r with coalesce := fld w 23 16, irqEn := bit w 8 } s := by
  simp [ringEnable, h, henable]

end

/-! ### The ring registers by offset -/

/-- The offset of a ring's register in BAR0 (R92). -/
def ringOffset (r k : Nat) : Nat := 0x8000 + 0x40 * r + k

section
variable {r k : Nat} (hr : r < 4) (hk : k < 0x40)
include hr hk

theorem ringOffset_toNat : (BitVec.ofNat 16 (ringOffset r k)).toNat = ringOffset r k :=
  Nat.mod_eq_of_lt (by unfold ringOffset; omega)

omit hr in
theorem ringOffset_mod : ringOffset r k % 0x40 = k := by unfold ringOffset; omega

theorem ringOffset_ring : (ringOffset r k - 0x8000) / 0x40 = r := by unfold ringOffset; omega

theorem ringOffset_range : 0x8000 ≤ ringOffset r k ∧ ringOffset r k < 0x8100 := by unfold ringOffset; omega

/-- A write to a ring's page is a write of its ring register. -/
theorem regWrite_ringOffset {fn : Nat} {w : Word} {s : State} (hfn : fn < 16) (hword : k % 4 = 0) :
    regWrite fn (ringOffset r k) w s = ringWrite fn (ringOffset r k) w s := by
  have hrange := ringOffset_range hr hk
  have hmod : ringOffset r k % 4 = 0 := by unfold ringOffset; omega
  unfold regWrite
  generalize ringOffset r k = off at *
  rw [if_neg (by omega), if_neg (by omega), if_neg (by omega), if_neg (by omega), if_neg (by simp; omega), if_neg (by omega),
    if_neg (by omega), if_neg (by simp; omega), if_neg (by simp; omega), if_neg (by omega), if_pos (by simpa using hrange)]

variable {fn : Fn} {ch : Chan} {w : Word} {s : State} (hsame : ch.val = fn.val) (hsee : hostSees s fn = true) (hword : k % 4 = 0)
include hsame hsee hword

/-- A host's write of a ring register, by what the register reserves and whether the ring would move. -/
theorem exec_registerWrite_ring : exec (.registerWrite ch (BitVec.ofNat 16 (ringOffset r k)) w) s =
    if w &&& reservedBits (ringOffset r k) ≠ 0 then .fault (.undefinedUse "R6")
    else if movesRing s fn (ringOffset r k) w = true then .fault (.undefinedUse "R93") else .next (ringWrite fn (ringOffset r k) w s) := by
  have hmod : ringOffset r k % 4 = 0 := by unfold ringOffset; omega
  rw [exec_registerWrite (by omega) (by rwa [hsame]), ringOffset_toNat hr hk, hsame, regWrite_ringOffset hr hk fn.isLt hword]
  simp only [hmod, true_and]

end

/-- Every ring reserves the same bits (R92). -/
theorem reservedBits_ringOffset {r k : Nat} (hr : r < 4) (hk : k < 0x40) : reservedBits (ringOffset r k) = reservedBits (ringOffset 0 k) := by
  have hzero := ringOffset_range (r := 0) (by omega) hk
  unfold reservedBits
  rw [if_pos (by simpa using ringOffset_range hr hk), if_pos (by simpa using hzero), ringOffset_mod hk, ringOffset_mod hk]

section
variable {r : Fin 4} {fn : Fn} {ch : Chan} {w : Word} {s : State} (hsame : ch.val = fn.val) (hsee : hostSees s fn = true)
include hsame hsee

theorem exec_registerWrite_baseLo : exec (.registerWrite ch (BitVec.ofNat 16 (ringOffset r 0x00)) w) s =
    if w &&& 0x3F ≠ 0 then .fault (.undefinedUse "R6")
    else if (ringOf s fn r).active = true ∧ w ≠ (ringOf s fn r).baseLo then .fault (.undefinedUse "R93")
    else .next (setRing fn r { ringOf s fn r with baseLo := w } s) := by
  have hmoves : movesRing s fn (ringOffset r 0x00) w = true ↔ (ringOf s fn r).active = true ∧ w ≠ (ringOf s fn r).baseLo := by
    simp [movesRing, ringOffset_ring r.isLt, ringOffset_mod, ringOffset_range r.isLt]
  have hwrite : ringWrite fn (ringOffset r 0x00) w s = setRing fn r { ringOf s fn r with baseLo := w } s := by
    simp [ringWrite, ringOffset_ring r.isLt, ringOffset_mod]
  have hreserved : reservedBits (ringOffset r 0x00) = 0x3F := reservedBits_ringOffset r.isLt (by omega)
  simp only [exec_registerWrite_ring r.isLt (show 0x00 < 0x40 by omega) hsame hsee rfl, hreserved, hmoves, hwrite]

theorem exec_registerWrite_baseHi : exec (.registerWrite ch (BitVec.ofNat 16 (ringOffset r 0x04)) w) s =
    if (ringOf s fn r).active = true ∧ w ≠ (ringOf s fn r).baseHi then .fault (.undefinedUse "R93")
    else .next (setRing fn r { ringOf s fn r with baseHi := w } s) := by
  have hmoves : movesRing s fn (ringOffset r 0x04) w = true ↔ (ringOf s fn r).active = true ∧ w ≠ (ringOf s fn r).baseHi := by
    simp [movesRing, ringOffset_ring r.isLt, ringOffset_mod, ringOffset_range r.isLt]
  have hwrite : ringWrite fn (ringOffset r 0x04) w s = setRing fn r { ringOf s fn r with baseHi := w } s := by
    simp [ringWrite, ringOffset_ring r.isLt, ringOffset_mod]
  have hreserved : w &&& reservedBits (ringOffset r 0x04) = 0 := by
    rw [reservedBits_ringOffset r.isLt (by omega)]
    exact BitVec.and_zero
  rw [exec_registerWrite_ring r.isLt (by omega) hsame hsee rfl, if_neg (not_not.mpr hreserved)]
  simp only [hmoves, hwrite]

theorem exec_registerWrite_log2 : exec (.registerWrite ch (BitVec.ofNat 16 (ringOffset r 0x08)) w) s =
    if w &&& 0xFFFFFFE0 ≠ 0 then .fault (.undefinedUse "R6")
    else if (ringOf s fn r).active = true ∧ fld w 4 0 ≠ (ringOf s fn r).log2 then .fault (.undefinedUse "R93")
    else .next (setRing fn r { ringOf s fn r with log2 := fld w 4 0 } s) := by
  have hmoves : movesRing s fn (ringOffset r 0x08) w = true ↔ (ringOf s fn r).active = true ∧ fld w 4 0 ≠ (ringOf s fn r).log2 := by
    simp [movesRing, ringOffset_ring r.isLt, ringOffset_mod, ringOffset_range r.isLt]
  have hwrite : ringWrite fn (ringOffset r 0x08) w s = setRing fn r { ringOf s fn r with log2 := fld w 4 0 } s := by
    simp [ringWrite, ringOffset_ring r.isLt, ringOffset_mod]
  have hreserved : reservedBits (ringOffset r 0x08) = 0xFFFFFFE0 := reservedBits_ringOffset r.isLt (by omega)
  simp only [exec_registerWrite_ring r.isLt (show 0x08 < 0x40 by omega) hsame hsee rfl, hreserved, hmoves, hwrite]

end

/-! ### Registers that a write does not reach (R51, R52) -/

/-- The offsets at which a function has no register that a write changes. -/
def writesNothing (off : Nat) : Prop :=
  off % 4 ≠ 0 ∨ [0x104, 0x10C, 0x110, 0x114].contains off = true ∨ (0x8000 ≤ off ∧ off < 0x8100 ∧ 0x1C ≤ off % 0x40) ∨ off < 0x100 ∨
    (0x11C < off ∧ off < 0x1000) ∨ (0x1100 ≤ off ∧ off < 0x2100) ∨ (0x2180 ≤ off ∧ off < 0x2200) ∨ (0x2280 ≤ off ∧ off < 0x4000) ∨
    (0x4000 < off ∧ off < 0x8000) ∨ 0x8100 ≤ off

/-- A ring's page holds nothing from 0x1C on. -/
theorem ringWrite_above {fn off : Nat} {w : Word} {s : State} (h : 0x1C ≤ off % 0x40) : ringWrite fn off w s = s := by
  unfold ringWrite
  dsimp only
  split
  case h_8 => rfl
  all_goals omega

section
variable {fn off : Nat} {w : Word} {s : State}

theorem regWrite_nothing (hfn : fn < 16) (h : writesNothing off) : regWrite fn off w s = s := by
  by_cases hword : off % 4 = 0
  · unfold writesNothing at h
    simp only [List.contains_cons, List.contains_nil, Bool.or_false, Bool.or_eq_true, beq_iff_eq] at h
    unfold regWrite
    rw [if_neg (by omega), if_neg (by omega), if_neg (by omega), if_neg (by omega), if_neg (by simp; omega), if_neg (by omega),
      if_neg (by omega), if_neg (by simp; omega), if_neg (by simp; omega), if_neg (by omega)]
    split
    · next hring =>
      simp only [Bool.and_eq_true, decide_eq_true_eq] at hring
      exact ringWrite_above (by omega)
    · rfl
  · exact if_pos hword

theorem movesRing_nothing (h : writesNothing off) : movesRing s fn off w = false := by
  unfold writesNothing at h
  simp only [List.contains_cons, List.contains_nil, Bool.or_false, Bool.or_eq_true, beq_iff_eq] at h
  unfold movesRing
  dsimp only
  split
  case h_4 => simp
  all_goals
    have hpage : ¬ (0x8000 ≤ off ∧ off < 0x8100) := by omega
    simp [hpage]

end

/-- Settles O6: each register by its own lemma. -/
theorem functionRegisterWrites : Obligations.FunctionRegisterWrites := by
  unfold Obligations.FunctionRegisterWrites
  intro s fn w
  refine ⟨fun hsee => ⟨writeReg_unseen hsee, fun r => ⟨writeReg_unseen hsee, writeReg_unseen hsee, writeReg_unseen hsee, writeReg_unseen hsee⟩⟩,
    fun hsee => ⟨fun hw => ?_, fun hw => writeReg_reserved hsee hw, fun r hw => ⟨writeReg_writes hsee hw, fun hactive => ?_, fun hactive henable => ?_,
      fun hactive henable => ?_⟩, fun r hw => ⟨writeReg_reserved hsee hw, writeReg_reserved hsee hw⟩, fun r hw => writeReg_reserved hsee hw,
      fun r hw => writeReg_reserved hsee hw, fun r hr hw => ?_, fun r hr hw => ?_, fun r hw => writeReg_writes hsee hw, fun r ch hsame => ?_,
      fun ch off hsame hw hoff => ?_⟩⟩
  · exact (writeReg_writes hsee hw).trans (congrArg _ (irqCtrl_eq _ _ _))
  · exact (writeReg_writes hsee hw).trans (congrArg _ (ringEnable_starts hactive))
  · exact (writeReg_writes hsee hw).trans (congrArg _ (ringEnable_waits hactive henable))
  · exact (writeReg_writes hsee hw).trans (congrArg _ (ringEnable_runs hactive henable))
  · exact (writeReg_writes hsee hw).trans (congrArg _ (if_pos (by simpa using hr)))
  · exact (writeReg_writes hsee hw).trans (congrArg _ (if_neg (by rcases hr with rfl | rfl <;> decide)))
  · have hlo := exec_registerWrite_baseLo (r := r) (w := w) hsame hsee
    have hhi := exec_registerWrite_baseHi (r := r) (w := w) hsame hsee
    have hsize := exec_registerWrite_log2 (r := r) (w := w) hsame hsee
    refine ⟨fun hactive => ⟨fun hw => hlo.trans ?_, hhi.trans ?_, fun hw => hsize.trans ?_⟩, fun hactive => ⟨fun hw hmoves => hlo.trans ?_,
      fun hmoves => hhi.trans ?_, fun hw hmoves => hsize.trans ?_⟩, fun hw => hlo.trans (if_pos hw), fun hw => hsize.trans (if_pos hw)⟩
    · rw [if_neg (not_not.mpr hw), if_neg (by simp [hactive])]
    · rw [if_neg (by simp [hactive])]
    · rw [if_neg (not_not.mpr hw), if_neg (by simp [hactive])]
    · rw [if_neg (not_not.mpr hw), if_pos ⟨hactive, hmoves⟩]
    · rw [if_pos ⟨hactive, hmoves⟩]
    · rw [if_neg (not_not.mpr hw), if_pos ⟨hactive, hmoves⟩]
  · rw [exec_registerWrite (by omega) (by rwa [hsame]), if_neg fun h => h.2 (hw h.1), if_neg (by simp [movesRing_nothing hoff]),
      regWrite_nothing (by omega) hoff]

end Sys2Proof.Machine

/-! PROOFS. The words of the mailbox queues (R54 to R56, R62 to R65, R104, R552): what each command of a channel does to them. -/

namespace Sys2Proof.Machine

/-! ### The inbound queue (R54, R56, R63, R64) -/

section
variable {ch : Nat} {w : Word} {s : State}

theorem pushIn_header (hroom : (chanOf s ch).inq.length < 64) (hhead : (chanOf s ch).inExpect = 0) :
    pushIn ch w s = setChan ch { chanOf s ch with
      inq := (chanOf s ch).inq ++ [⟨(w &&& 0xFFFFFF00) ||| wd ch, true, (chanOf s ch).inColl⟩], inExpect := fld w 15 12 } s := by
  simp [pushIn, hroom, hhead]

theorem pushIn_payload (hroom : (chanOf s ch).inq.length < 64) (hhead : (chanOf s ch).inExpect ≠ 0) :
    pushIn ch w s = setChan ch { chanOf s ch with
      inq := (chanOf s ch).inq ++ [⟨w, false, (chanOf s ch).inColl⟩], inExpect := (chanOf s ch).inExpect - 1 } s := by
  simp [pushIn, hroom, hhead]

/-- A word into a full queue replaces the newest one, which is marked; the collision is told once (R56, R63, R64). -/
theorem pushIn_full {q : List InWord} {h : InWord} (hfull : 64 ≤ (chanOf s ch).inq.length) (hq : (chanOf s ch).inq = q ++ [h]) :
    pushIn ch w s = let t := setChan ch { chanOf s ch with inq := q ++ [{ h with w := w, marked := true }], inColl := true } s
      if (chanOf s ch).inColl then t else raise 960 ((sliceOf s ch).toList) [wd ch] t := by
  rw [hq] at hfull
  unfold pushIn
  dsimp only
  rw [hq, if_neg (Nat.not_lt.mpr hfull)]
  simp

theorem inAbort_idle (h : (chanOf s ch).inExpect = 0) : inAbort ch s = s := if_pos h

/-- An abort takes the last header and the words after it out of the queue (R54). -/
theorem inAbort_partial {q m : List InWord} {h : InWord} (hpart : (chanOf s ch).inExpect ≠ 0) (hq : (chanOf s ch).inq = q ++ h :: m)
    (hhd : h.hd = true) (hm : ∀ x ∈ m, x.hd = false) :
    inAbort ch s = setChanRoom ch (chanOf s ch) { chanOf s ch with inq := q, inExpect := 0 } s := by
  have htail : ((chanOf s ch).inq.reverse.takeWhile fun x => !x.hd) = m.reverse := by
    rw [hq, List.reverse_append, List.reverse_cons, List.append_assoc, List.takeWhile_append_of_pos (by simpa using hm)]
    simp [hhd]
  have hkeep : (chanOf s ch).inq.take ((chanOf s ch).inq.length - (m.length + 1)) = q := by
    rw [hq]
    exact List.take_left' (by simp)
  unfold inAbort
  dsimp only
  rw [if_neg hpart, htail, List.length_reverse, hkeep]

/-- Saend discards a message with a marked word and counts it (R62, R64). -/
theorem discardMarked_marked (hready : s.boot.ready = true) (hroom : (chanOf s ch).waiting.length < 64)
    (hhead : headComplete (chanOf s ch) = true) (hmark : (headMsg (chanOf s ch).inq).any (·.marked) = true) :
    discardMarked ch s = cnt (cChan 0 ch) 1 (dropHead ch s) := by
  unfold discardMarked
  dsimp only
  rw [hready, decide_eq_true hroom, hhead, hmark]
  rfl

end

/-! ### The outbound queue (R54, R63, R65) -/

section
variable {ch : Nat} {s : State}

theorem outRead_pops {w : OutWord} {q : List OutWord} (h : (chanOf s ch).outq = w :: q) :
    outRead ch s = emit (.readData ch w.w) (setChan ch { chanOf s ch with outq := q } s) := by
  simp [outRead, outHead, h]

theorem outRead_empty (h : (chanOf s ch).outq = []) : outRead ch s = emit (.readData ch 0) s := by
  simp [outRead, outHead, h]

/-- A word that Saend writes over a full queue replaces the newest one and is counted (R63). -/
theorem pushOut_full {q : List OutWord} {o : OutWord} (ev : Bool) (w : Word) (hfull : 64 ≤ (chanOf s ch).outq.length)
    (hq : (chanOf s ch).outq = q ++ [o]) :
    pushOut ch ev w s = cnt (cChan 1 ch) 1 (setChan ch { chanOf s ch with outq := q ++ [{ o with w := w }], outColl := true } s) := by
  rw [hq] at hfull
  unfold pushOut
  dsimp only
  rw [hq, if_neg (Nat.not_lt.mpr hfull)]
  simp

theorem moveBacklog_moves {m : OutMsg} {q : List OutMsg} (hready : s.boot.ready = true) (hb : (chanOf s ch).backlog = m :: q)
    (hroom : (chanOf s ch).outq.length + m.words.length ≤ 64) :
    moveBacklog ch s = pushMsg ch m.event m.words (setChan ch { chanOf s ch with backlog := q } s) := by
  simp [moveBacklog, hb, hready, hroom]

end

/-- MBX_OUT_DATA_READ by a channel that is there: 0 while the device boots, else the head of the queue (R54, R552). -/
theorem exec_mbxOutDataRead {s : State} {ch : Chan} (h : reaches s ch = true) :
    exec (.mbxOutDataRead ch) s = .next (if booting s then emit (.readData ch 0) s else outRead ch s) := by
  show Host.Outcome.next (if reaches s ch then readBy ch 0x110 0x14 s else s) = _
  rw [if_pos h, readBy_eq _ _ _ _ fun _ => smbOffset_out]
  cases hboot : booting s with
  | true => exact congrArg _ (readReg_booting _ _ _ hboot rfl)
  | false => exact congrArg _ (readReg_out _ _ hboot)

/-! ### The rate window of an event source (R104) -/

@[simp] theorem setChanEvt_boot (ch src : Nat) (e : ChanEvt) (s : State) : (setChanEvt ch src e s).boot = s.boot := rfl

section
variable {ch src : Nat} {s : State}

theorem rateWindowEnd_idle (h : (chanEvt s ch src).window = false) : rateWindowEnd ch src s = s := by simp [rateWindowEnd, h]

variable (hwindow : (chanEvt s ch src).window = true)
include hwindow

theorem rateWindowEnd_sends (hready : s.boot.ready = true) (hdue : (chanEvt s ch src).due = true)
    (hroute : msgRouted (setChanEvt ch src { chanEvt s ch src with window := false } s) ch src = true) :
    rateWindowEnd ch src s = sendEvt ch src (setChanEvt ch src { chanEvt s ch src with window := false } s) := by
  unfold rateWindowEnd
  dsimp only
  rw [if_pos hwindow]
  refine if_pos ?_
  rw [Bool.and_eq_true, Bool.and_eq_true, Bool.and_eq_true]
  exact ⟨⟨⟨hwindow, hready⟩, hdue⟩, hroute⟩

theorem rateWindowEnd_quiet
    (h : (chanEvt s ch src).due = false ∨ msgRouted (setChanEvt ch src { chanEvt s ch src with window := false } s) ch src = false) :
    rateWindowEnd ch src s = setChanEvt ch src { chanEvt s ch src with window := false } s := by
  simp only [rateWindowEnd, hwindow, if_true]
  rcases h with h | h <;> simp [h]

end

/-- Settles O5: each queue's commands by their own lemmas; a channel that is not there leaves all as it is. -/
theorem mailboxQueuesHoldTheirWords : Obligations.MailboxQueuesHoldTheirWords := by
  unfold Obligations.MailboxQueuesHoldTheirWords
  refine ⟨fun s ch w hreach => ?_, fun s ch hreach => ?_, fun s ch w hreach => ?_, fun s ch hready => ?_⟩
  · have hexec : exec (.mbxInDataWrite ch w) s = .next (pushIn ch w s) := congrArg Host.Outcome.next (if_pos hreach)
    refine ⟨fun hroom hhead => ?_, fun hroom hhead => ?_, fun q h hfull hq => ?_⟩
    · rw [hexec, pushIn_header hroom hhead]
    · rw [hexec, pushIn_payload hroom hhead]
    · rw [hexec, pushIn_full hfull hq]
  · have habort : exec (.mbxInAbort ch) s = .next (inAbort ch s) := congrArg Host.Outcome.next (if_pos hreach)
    refine ⟨fun q m h hpart hq hhd hm => ?_, fun hidle => ?_, congrArg Host.Outcome.next (if_pos hreach), congrArg Host.Outcome.next (if_pos hreach),
      fun w q hq hboot => ?_, fun h => ?_, fun n hboot => ?_, fun q o ev w hfull hq => pushOut_full ev w hfull hq⟩
    · rw [habort, inAbort_partial hpart hq hhd hm]
    · rw [habort, inAbort_idle hidle]
    · rw [exec_mbxOutDataRead hreach, hboot]
      exact congrArg _ (outRead_pops hq)
    · rw [exec_mbxOutDataRead hreach]
      split
      · rfl
      · next hrun => exact congrArg _ (outRead_empty (h.resolve_right hrun))
    · rw [exec_cleatRead n hreach, hboot]
      rfl
  · have hnot : ∀ t : State, (if reaches s ch then t else s) = s := fun t => if_neg (by simp [hreach])
    exact ⟨congrArg Host.Outcome.next (hnot _), congrArg Host.Outcome.next (hnot _), congrArg Host.Outcome.next (hnot _),
      congrArg Host.Outcome.next (hnot _), congrArg Host.Outcome.next (hnot _), fun n => ⟨congrArg Host.Outcome.next (hnot _),
        congrArg Host.Outcome.next (hnot _)⟩⟩
  · refine ⟨fun hroom hhead hmark => ?_, fun m q hb hroom => ?_, fun src => ⟨fun hwindow hdue hroute => ?_, fun hwindow h => ?_, fun hwindow => ?_⟩⟩
      <;> refine congrArg Host.Outcome.next ?_
    · exact discardMarked_marked hready hroom hhead hmark
    · exact moveBacklog_moves hready hb hroom
    · exact rateWindowEnd_sends hwindow hready hdue hroute
    · exact rateWindowEnd_quiet hwindow h
    · exact rateWindowEnd_idle hwindow

end Sys2Proof.Machine

/-! PROOFS. What the mailbox operations leave of the control complex: the other channels, a channel's inbound queue and session, and all
but its channels, functions and running counters. -/

namespace Sys2Proof.Machine

/-! ### The channels and functions that an update leaves -/

@[simp] theorem chanOf_emit (o : Output) (s : State) (k : Nat) : chanOf (emit o s) k = chanOf s k := rfl
@[simp] theorem chanOf_cnt (id n : Nat) (s : State) (k : Nat) : chanOf (cnt id n s) k = chanOf s k := rfl

@[simp] theorem chanOf_msix (fn vec : Nat) (s : State) (k : Nat) : chanOf (msix fn vec s) k = chanOf s k := by
  unfold msix
  dsimp only
  split <;> rfl

theorem chanOf_setChan_eq (ch : Nat) (c : Channel) (s : State) (k : Nat) : chanOf (setChan ch c s) k = if k = ch then c else chanOf s k := by
  split
  · next h => rw [h, chanOf_setChan]
  · next h => exact chanOf_setChan_other _ _ _ _ h

/-- A channel written twice is written once. -/
theorem setChan_setChan (ch : Nat) (c d : Channel) (s : State) : setChan ch d (setChan ch c s) = setChan ch d s := by
  simp [setChan, kset_kset]

@[simp] theorem chanOf_setChanRoom (ch : Nat) (old new : Channel) (s : State) : chanOf (setChanRoom ch old new s) ch = new := by
  unfold setChanRoom
  dsimp only
  split <;> simp

theorem chanOf_setChanRoom_other (ch : Nat) (old new : Channel) (s : State) (k : Nat) (h : k ≠ ch) :
    chanOf (setChanRoom ch old new s) k = chanOf s k := by
  unfold setChanRoom
  dsimp only
  split <;> simp [chanOf_setChan_other _ _ _ _ h]

/-! ### The rest of the control complex -/

/-- The control complex without its channels, functions and running counters. -/
def ctlRest (s : State) : Control := { s.ctl with chans := [], funcs := [], cntRun := [] }

theorem ctlRest_parts {s t : State} (h : ctlRest t = ctlRest s) : t.ctl.txns = s.ctl.txns ∧ t.ctl.cleats = s.ctl.cleats ∧
    t.ctl.slices = s.ctl.slices ∧ t.ctl.binds = s.ctl.binds := by
  simp only [ctlRest, Control.mk.injEq] at h
  tauto

@[simp] theorem ctlRest_emit (o : Output) (s : State) : ctlRest (emit o s) = ctlRest s := rfl
@[simp] theorem ctlRest_cnt (id n : Nat) (s : State) : ctlRest (cnt id n s) = ctlRest s := rfl
@[simp] theorem ctlRest_setChan (ch : Nat) (c : Channel) (s : State) : ctlRest (setChan ch c s) = ctlRest s := rfl
@[simp] theorem ctlRest_setFunc (fn : Nat) (f : Func) (s : State) : ctlRest (setFunc fn f s) = ctlRest s := rfl
@[simp] theorem ctlRest_setChanEvt (ch src : Nat) (e : ChanEvt) (s : State) : ctlRest (setChanEvt ch src e s) = ctlRest s := rfl

@[simp] theorem ctlRest_msix (fn vec : Nat) (s : State) : ctlRest (msix fn vec s) = ctlRest s := by
  unfold msix
  dsimp only
  split <;> rfl

@[simp] theorem ctlRest_pushOut (ch : Nat) (ev : Bool) (w : Word) (s : State) : ctlRest (pushOut ch ev w s) = ctlRest s := by
  unfold pushOut
  dsimp only
  (repeat' split) <;> simp

@[simp] theorem ctlRest_pushMsg (ch : Nat) (ev : Bool) (ws : List Word) (s : State) : ctlRest (pushMsg ch ev ws s) = ctlRest s := by
  induction ws generalizing s with
  | nil => rfl
  | cons w t ih => rw [pushMsg, ih, ctlRest_pushOut]

@[simp] theorem ctlRest_sendMsg (ch : Nat) (ev : Bool) (ws : List Word) (s : State) : ctlRest (sendMsg ch ev ws s) = ctlRest s := by
  unfold sendMsg
  dsimp only
  (repeat' split) <;> simp

@[simp] theorem ctlRest_sendEvt (ch src : Nat) (s : State) : ctlRest (sendEvt ch src s) = ctlRest s := by
  unfold sendEvt
  dsimp only
  split <;> simp

@[simp] theorem ctlRest_setPend (fn src : Nat) (s : State) : ctlRest (setPend fn src s) = ctlRest s := by
  unfold setPend
  dsimp only
  (repeat' split) <;> simp

@[simp] theorem ctlRest_noteEvt (src : Nat) (own : List Nat) (d : List Word) (ch : Nat) (s : State) : ctlRest (noteEvt src own d ch s) = ctlRest s := by
  unfold noteEvt
  dsimp only
  (repeat' split) <;> simp

/-! ### What sending a message leaves of the channels -/

/-- A channel without its outbound side. -/
def inboundSide (c : Channel) : Channel := { c with outq := [], outExpect := 0, outColl := false, backlog := [] }

theorem inboundSide_parts {c d : Channel} (h : inboundSide c = inboundSide d) :
    c.inq = d.inq ∧ c.session = d.session ∧ c.waiting = d.waiting ∧ c.routes = d.routes ∧ c.evts = d.evts := by
  simp only [inboundSide, Channel.mk.injEq] at h
  tauto

section
variable (ch : Nat) (ev : Bool) (k : Nat)

theorem inboundSide_setChan {c : Channel} {s : State} (h : inboundSide c = inboundSide (chanOf s ch)) :
    inboundSide (chanOf (setChan ch c s) k) = inboundSide (chanOf s k) := by
  rw [chanOf_setChan_eq]
  split
  · next e => rw [e, h]
  · rfl

theorem inboundSide_pushOut (w : Word) (s : State) : inboundSide (chanOf (pushOut ch ev w s) k) = inboundSide (chanOf s k) := by
  unfold pushOut
  dsimp only
  split
  · rw [apply_ite fun u => chanOf u k, chanOf_msix, ite_self]
    exact inboundSide_setChan ch k rfl
  · rw [chanOf_cnt]
    exact inboundSide_setChan ch k rfl

theorem inboundSide_pushMsg (ws : List Word) (s : State) : inboundSide (chanOf (pushMsg ch ev ws s) k) = inboundSide (chanOf s k) := by
  induction ws generalizing s with
  | nil => rfl
  | cons w t ih => rw [pushMsg, ih, inboundSide_pushOut]

/-- Sending a message touches the outbound side of channels alone. -/
theorem inboundSide_sendMsg (ws : List Word) (s : State) : inboundSide (chanOf (sendMsg ch ev ws s) k) = inboundSide (chanOf s k) := by
  unfold sendMsg
  dsimp only
  (repeat' split)
  · exact inboundSide_pushMsg ch ev k ws s
  · exact inboundSide_setChan ch k rfl
  · exact inboundSide_pushMsg ch ev k ws s

variable {ch k} (h : k ≠ ch)
include h

theorem chanOf_pushOut_other (w : Word) (s : State) : chanOf (pushOut ch ev w s) k = chanOf s k := by
  unfold pushOut
  dsimp only
  (repeat' split) <;> simp [chanOf_setChan_other _ _ _ _ h]

theorem chanOf_pushMsg_other (ws : List Word) (s : State) : chanOf (pushMsg ch ev ws s) k = chanOf s k := by
  induction ws generalizing s with
  | nil => rfl
  | cons w t ih => rw [pushMsg, ih, chanOf_pushOut_other ev h]

/-- Sending a message on a channel leaves every other. -/
theorem chanOf_sendMsg_other (ws : List Word) (s : State) : chanOf (sendMsg ch ev ws s) k = chanOf s k := by
  unfold sendMsg
  dsimp only
  (repeat' split)
  · exact chanOf_pushMsg_other ev h ws s
  · exact chanOf_setChan_other _ _ _ _ h
  · exact chanOf_pushMsg_other ev h ws s

end

end Sys2Proof.Machine

/-! PROOFS. A call is read and answered (R54 to R57, R63, R65): what the words of a response do to the outbound queue, word by word, and
which of the queue and the backlog takes it. -/

namespace Sys2Proof.Machine

/-! ### A message joins a queue with room for it (R56) -/

/-- The words of an outbound queue that the payload words of a response make. -/
def payloadWords : List Word → List OutWord
  | [] => []
  | w :: t => ⟨w, false, t = [], false⟩ :: payloadWords t

/-- The words that a message makes, by their places in it, from any place after its header on. -/
theorem payloadWords_eq (ws : List Word) (k : Nat) :
    ((ws.zipIdx (k + 1)).map fun e => (⟨e.1, e.2 = 0, e.2 + 1 = ws.length + (k + 1), false⟩ : OutWord)) = payloadWords ws := by
  induction ws generalizing k with
  | nil => rfl
  | cons w t ih =>
    have hlast : k + 1 + 1 = (w :: t).length + (k + 1) ↔ t = [] := by
      rw [List.length_cons, ← List.length_eq_zero_iff]
      omega
    have hlen : (w :: t).length + (k + 1) = t.length + (k + 1 + 1) := by
      rw [List.length_cons]
      omega
    rw [List.zipIdx_cons, List.map_cons, payloadWords, ← ih (k + 1), hlen]
    rw [← hlen]
    simp only [hlast]
    simp

section
variable {ch : Nat} {s : State}

/-- A word that Saend writes into a queue with room joins its tail; the last word of its message raises vector 0 where enabled. -/
theorem pushOut_room {ev : Bool} {w : Word} {c : Channel} {r : Nat} (hc : chanOf s ch = c) (hroom : c.outq.length < 64)
    (hr : (if c.outExpect = 0 then fld w 15 12 else c.outExpect - 1) = r) :
    pushOut ch ev w s = let u := setChan ch { c with outq := c.outq ++ [⟨w, c.outExpect = 0, r = 0, ev⟩], outExpect := r } s
      if r = 0 ∧ c.outMsgEn = true ∧ ch < 16 then msix ch 0 u else u := by
  subst hc hr
  unfold pushOut
  dsimp only
  rw [if_pos hroom]
  simp [and_assoc]

/-- The payload words of a message that fits join the tail. -/
theorem pushMsg_payload {ws : List Word} (hne : ws ≠ []) (hexp : (chanOf s ch).outExpect = ws.length)
    (hroom : (chanOf s ch).outq.length + ws.length ≤ 64) :
    pushMsg ch false ws s = let u := setChan ch { chanOf s ch with outq := (chanOf s ch).outq ++ payloadWords ws, outExpect := 0 } s
      if (chanOf s ch).outMsgEn = true ∧ ch < 16 then msix ch 0 u else u := by
  induction ws generalizing s with
  | nil => exact absurd rfl hne
  | cons w t ih =>
    rw [List.length_cons] at hexp hroom
    have hrest : (if (chanOf s ch).outExpect = 0 then fld w 15 12 else (chanOf s ch).outExpect - 1) = t.length := by simp [hexp]
    rw [pushMsg, pushOut_room rfl (by omega) hrest]
    dsimp only
    by_cases ht : t = []
    · subst ht
      simp [pushMsg, payloadWords, hexp]
    · have hpos : t.length ≠ 0 := fun h => ht (List.length_eq_zero_iff.mp h)
      rw [if_neg fun h => hpos h.1, ih ht (by rw [chanOf_setChan]) (by rw [chanOf_setChan]; simp; omega)]
      simp [chanOf_setChan, setChan_setChan, payloadWords, ht, hpos, hexp]

/-- A whole response that fits joins the tail, its header first. -/
theorem pushMsg_fits {h : Word} {ws : List Word} (hidle : (chanOf s ch).outExpect = 0) (hne : ws ≠ []) (hlen : fld h 15 12 = ws.length)
    (hroom : (chanOf s ch).outq.length + (h :: ws).length ≤ 64) :
    pushMsg ch false (h :: ws) s = let u := setChan ch { chanOf s ch with outq := (chanOf s ch).outq ++ (h :: ws).zipIdx.map fun e =>
        ⟨e.1, e.2 = 0, e.2 + 1 = (h :: ws).length, false⟩ } s
      if (chanOf s ch).outMsgEn = true ∧ ch < 16 then msix ch 0 u else u := by
  rw [List.length_cons] at hroom
  have hpos : ws.length ≠ 0 := fun h => hne (List.length_eq_zero_iff.mp h)
  have hrest : (if (chanOf s ch).outExpect = 0 then fld h 15 12 else (chanOf s ch).outExpect - 1) = ws.length := by rw [if_pos hidle, hlen]
  have hws : ((h :: ws).zipIdx.map fun e => (⟨e.1, e.2 = 0, e.2 + 1 = (h :: ws).length, false⟩ : OutWord)) =
      ⟨h, true, false, false⟩ :: payloadWords ws := by
    rw [List.zipIdx_cons, List.map_cons, ← payloadWords_eq ws 0]
    simp [hpos]
  rw [pushMsg, pushOut_room rfl (by omega) hrest]
  dsimp only
  rw [if_neg fun h => hpos h.1, pushMsg_payload hne (by rw [chanOf_setChan]) (by rw [chanOf_setChan]; simp; omega), hws]
  simp [chanOf_setChan, setChan_setChan, hidle, hpos]

/-! ### A message goes over a full queue (R63) -/

/-- Words written over a full queue leave its newest place to the last of them. -/
theorem chanOf_pushMsg_full {ws : List Word} (hne : ws ≠ []) {q : List OutWord} {o : OutWord} (hfull : 64 ≤ (chanOf s ch).outq.length)
    (hq : (chanOf s ch).outq = q ++ [o]) :
    chanOf (pushMsg ch false ws s) ch = { chanOf s ch with outq := q ++ [{ o with w := ws.getLast hne }], outColl := true } := by
  induction ws generalizing s o with
  | nil => exact absurd rfl hne
  | cons w t ih =>
    rw [pushMsg, pushOut_full false w hfull hq]
    by_cases ht : t = []
    · subst ht
      simp [pushMsg]
    · rw [ih ht (by simpa [hq] using hfull) (by simp; rfl)]
      simp [List.getLast_cons ht]

end

/-! ### A call is read -/

section
variable (code : Nat) (c : Call) (s : State)

theorem chanOf_readCall_other {k : Nat} (h : k ≠ c.chan.val) : chanOf (readCall code c s) k = chanOf s k := by
  unfold readCall
  split
  · exact chanOf_setChanRoom_other _ _ _ _ _ h
  · rfl

theorem chanOf_readCall : ∃ q, chanOf (readCall code c s) c.chan = { chanOf s c.chan with inq := q } := by
  unfold readCall
  split
  · exact ⟨_, chanOf_setChanRoom _ _ _ _⟩
  · exact ⟨_, rfl⟩

/-! ### A call is answered -/

variable (st : Status) (ws : List Word)

/-- The message of a response (R57). -/
def responseMsg : List Word := wd (code * 2 ^ 16 + (1 + ws.length) * 2 ^ 12 + c.seq.toNat * 2 ^ 8 + 0x1F) :: wd st.code :: ws

theorem respond_eq : respond code c st ws s = sendMsg c.chan false (responseMsg code c st ws) s := rfl

theorem fld_responseHeader (hlen : ws.length ≤ 14) :
    fld (wd (code * 2 ^ 16 + (1 + ws.length) * 2 ^ 12 + c.seq.toNat * 2 ^ 8 + 0x1F)) 15 12 = 1 + ws.length := by
  have hseq : c.seq.toNat < 16 := c.seq.isLt
  simp only [fld, wd, BitVec.toNat_ofNat]
  omega

variable {code c st ws s}

theorem respond_fits (hback : (chanOf s c.chan).backlog = []) (hidle : (chanOf s c.chan).outExpect = 0)
    (hlen : ws.length ≤ 14) (hroom : (chanOf s c.chan).outq.length + (responseMsg code c st ws).length ≤ 64) :
    respond code c st ws s =
      let u := setChan c.chan { chanOf s c.chan with outq := (chanOf s c.chan).outq ++ (responseMsg code c st ws).zipIdx.map fun e =>
        ⟨e.1, e.2 = 0, e.2 + 1 = (responseMsg code c st ws).length, false⟩ } s
      if (chanOf s c.chan).outMsgEn = true ∧ c.chan.val < 16 then msix c.chan 0 u else u := by
  rw [respond_eq]
  unfold sendMsg
  dsimp only
  rw [if_pos ⟨hback, hroom⟩]
  refine pushMsg_fits hidle (List.cons_ne_nil _ _) ?_ hroom
  rw [fld_responseHeader code c ws hlen, List.length_cons]
  omega

/-- A response joins the backlog where the queue has no room for it or the backlog holds a message. -/
theorem respond_backlog (hwait : ¬ ((chanOf s c.chan).backlog = [] ∧ (chanOf s c.chan).outq.length + (responseMsg code c st ws).length ≤ 64))
    (hlen : (chanOf s c.chan).backlog.length < 32) :
    respond code c st ws s = setChan c.chan { chanOf s c.chan with backlog := (chanOf s c.chan).backlog ++ [⟨responseMsg code c st ws, false⟩] } s := by
  rw [respond_eq]
  unfold sendMsg
  dsimp only
  rw [if_neg hwait, if_pos hlen]

/-- A response over a full backlog and a full queue leaves its last word in the newest place of the queue. -/
theorem chanOf_respond_full {q : List OutWord} {o : OutWord} (hback : 32 ≤ (chanOf s c.chan).backlog.length)
    (hfull : 64 ≤ (chanOf s c.chan).outq.length) (hq : (chanOf s c.chan).outq = q ++ [o]) :
    chanOf (respond code c st ws s) c.chan = { chanOf s c.chan with
      outq := q ++ [{ o with w := (wd st.code :: ws).getLast (List.cons_ne_nil _ _) }], outColl := true } := by
  have hwait : ¬ ((chanOf s c.chan).backlog = [] ∧ (chanOf s c.chan).outq.length + (responseMsg code c st ws).length ≤ 64) := by
    rintro ⟨hnil, -⟩
    simp [hnil] at hback
  rw [respond_eq]
  unfold sendMsg
  dsimp only
  rw [if_neg hwait, if_neg (Nat.not_lt.mpr hback)]
  exact chanOf_pushMsg_full (List.cons_ne_nil _ _) hfull hq

end

/-- Settles O4: a call that is read takes its own message out; a response is a message that `sendMsg` puts into the queue, the backlog or
over the newest word. -/
theorem callsAreReadAndAnswered : Obligations.CallsAreReadAndAnswered := by
  unfold Obligations.CallsAreReadAndAnswered
  intro code c s
  refine ⟨fun h => if_pos h, fun h => if_neg (Bool.eq_false_iff.mp h), ?_, fun st ws => ⟨fun hback hidle _ => respond_fits hback hidle, fun hback hlong => ?_,
    fun hback hlen => respond_backlog (fun h => hback h.1) hlen, fun q o hback hfull hq => ?_, ?_⟩⟩
  · obtain ⟨htb, hboot, hpwr, hfwd, hpon, htime, hopt, hlane, hciph, htdm, hred, -, hpend⟩ := others_parts (others_readCall code c s)
    obtain ⟨q, hq⟩ := chanOf_readCall code c s
    refine ⟨hboot, hpwr, hfwd, hpon, htime, hopt, hlane, hciph, htdm, hred, htb, hpend, fun k => chanOf_readCall_other code c s, ?_, ?_⟩ <;>
      rw [hq]
  · have hnot : ¬ ((chanOf s c.chan).backlog = [] ∧ (chanOf s c.chan).outq.length + (responseMsg code c st ws).length ≤ 64) :=
      fun h => absurd h.2 (Nat.not_le.mpr hlong)
    rw [respond_backlog hnot (by rw [hback]; decide), hback]
    rfl
  · rw [chanOf_respond_full hback hfull hq]
    exact ⟨rfl, rfl, rfl⟩
  · obtain ⟨htb, hboot, hpwr, hfwd, hpon, htime, hopt, hlane, hciph, htdm, hred, -, hpend⟩ := others_parts (others_respond code c st ws s)
    obtain ⟨hinq, hsession, -⟩ := inboundSide_parts (inboundSide_sendMsg c.chan false c.chan (responseMsg code c st ws) s)
    exact ⟨hboot, hpwr, hfwd, hpon, htime, hopt, hlane, hciph, htdm, hred, htb, hpend, fun k hk => chanOf_sendMsg_other false hk _ s,
      hinq, hsession⟩

end Sys2Proof.Machine

/-! PROOFS. An occurrence of an event source (R102, R104, R534 to R539): the loop over the functions and the loop over the channels each
touch one of them in a turn, and what decides a turn (the routes, the bindings, the groups of channel 0x11) stays. -/

namespace Sys2Proof.Machine

/-! ### A loop whose turns each touch one index -/

section
variable {α β : Type} {f : α → State → State} (v : State → β)

theorem forEach_append (l l' : List α) (s : State) : forEach (l ++ l') f s = forEach l' f (forEach l f s) := by
  induction l generalizing s with
  | nil => rfl
  | cons a t ih => exact ih (f a s)

theorem forEach_view {l : List α} (h : ∀ a ∈ l, ∀ s, v (f a s) = v s) (s : State) : v (forEach l f s) = v s := by
  induction l generalizing s with
  | nil => rfl
  | cons a t ih => rw [forEach, ih fun b hb => h b (List.mem_cons_of_mem _ hb), h a List.mem_cons_self]

/-- What only one turn touches is, at the end, what that turn made of it; the turns before it are turns of others. -/
theorem forEach_turn {l : List α} {k : α} (hnd : l.Nodup) (hk : k ∈ l) (h : ∀ a, a ≠ k → ∀ s, v (f a s) = v s) (s : State) :
    ∃ before : List α, v (forEach l f s) = v (f k (forEach before f s)) ∧ v (forEach before f s) = v s := by
  obtain ⟨before, after, rfl⟩ := List.append_of_mem hk
  have hbefore : k ∉ before := fun hm => (List.nodup_append.mp hnd).2.2 k hm k List.mem_cons_self rfl
  have hafter : k ∉ after := (List.nodup_cons.mp (List.nodup_append.mp hnd).2.1).1
  refine ⟨before, ?_, forEach_view v (fun a ha => h a fun e => hbefore (e ▸ ha)) s⟩
  rw [forEach_append, forEach]
  exact forEach_view v (fun a ha => h a fun e => hafter (e ▸ ha)) _

end

/-! ### What decides a turn -/

/-- A channel without its outbound side and the occurrences it has on record. -/
def quietSide (c : Channel) : Channel := { inboundSide c with evts := [] }

/-- What an occurrence leaves of the device: all but what mailbox queues, occurrences, event registers, counters and output hold. -/
def evtFrame (s : State) : State × Control × (Nat → Channel) := (others s, ctlRest s, fun k => quietSide (chanOf s k))

theorem evtFrame_eq {s t : State} (ho : others t = others s) (hc : ctlRest t = ctlRest s)
    (hq : ∀ k, quietSide (chanOf t k) = quietSide (chanOf s k)) : evtFrame t = evtFrame s := by
  rw [evtFrame, ho, hc, funext hq, evtFrame]

theorem quietSide_parts {c d : Channel} (h : quietSide c = quietSide d) :
    c.inq = d.inq ∧ c.session = d.session ∧ c.waiting = d.waiting ∧ c.routes = d.routes := by
  simp only [quietSide, inboundSide, Channel.mk.injEq] at h
  tauto

section
variable {s t : State} (h : evtFrame t = evtFrame s)
include h

theorem others_of_evtFrame : others t = others s := congrArg Prod.fst h

theorem ctlRest_of_evtFrame : ctlRest t = ctlRest s := congrArg (fun x => x.2.1) h

theorem quietSide_of_evtFrame (k : Nat) : quietSide (chanOf t k) = quietSide (chanOf s k) := congrFun (congrArg (fun x => x.2.2) h) k

theorem routeOf_of_evtFrame (k g : Nat) : routeOf t k g = routeOf s k g := by
  obtain ⟨-, -, -, hroutes⟩ := quietSide_parts (quietSide_of_evtFrame h k)
  rw [routeOf, hroutes, routeOf]

theorem sliceOf_of_evtFrame (k : Nat) : sliceOf t k = sliceOf s k := by
  obtain ⟨-, -, -, hbinds⟩ := ctlRest_parts (ctlRest_of_evtFrame h)
  rw [sliceOf, hbinds, sliceOf]

theorem msgRouted_of_evtFrame (k src : Nat) : msgRouted t k src = msgRouted s k src := by
  obtain ⟨-, -, -, -, -, -, -, -, -, -, hred, -⟩ := others_parts (others_of_evtFrame h)
  rw [msgRouted, hred, routeOf_of_evtFrame h, msgRouted]

theorem seesEvt_of_evtFrame (src : Nat) (own : List Nat) (k : Nat) : seesEvt t src own k = seesEvt s src own k := by
  rw [seesEvt, msgRouted_of_evtFrame h, sliceOf_of_evtFrame h, seesEvt]

theorem nowNs_of_evtFrame : nowNs t = nowNs s := by
  obtain ⟨htb, -⟩ := others_parts (others_of_evtFrame h)
  rw [nowNs, htb, nowNs]

end

/-! ### A function's registers -/

/-- A function without the vectors that wait behind a mask. -/
def unpended (f : Func) : Func := { f with msixPend := [] }

theorem unpended_parts {f g : Func} (h : unpended f = unpended g) : { f with msixPend := g.msixPend } = g := by
  have h' := congrArg (fun x : Func => { x with msixPend := g.msixPend }) h
  exact h'

theorem evtRegs_of_unpended {s t : State} {fn : Nat} (h : unpended (funcOf t fn) = unpended (funcOf s fn)) (g : Nat) :
    evtRegs t fn g = evtRegs s fn g := by
  have he := congrArg Func.evt h
  exact congrArg (fun m : KMap EvtRegs => kgetD m g {}) he

section
variable (fn vec : Nat) (s : State) (k : Nat)

theorem funcOf_msix_other (h : k ≠ fn) : funcOf (msix fn vec s) k = funcOf s k := by
  unfold msix
  dsimp only
  split
  · exact funcOf_setFunc_other _ _ _ _ h
  · rfl

theorem unpended_msix : unpended (funcOf (msix fn vec s) k) = unpended (funcOf s k) := by
  by_cases h : k = fn
  · subst h
    unfold msix
    dsimp only
    split
    · rw [funcOf_setFunc]
      rfl
    · rfl
  · rw [funcOf_msix_other fn vec s k h]

end

section
variable (ch : Nat) (ev : Bool) (k : Nat)

theorem unpended_pushOut (w : Word) (s : State) : unpended (funcOf (pushOut ch ev w s) k) = unpended (funcOf s k) := by
  unfold pushOut
  dsimp only
  split
  · rw [apply_ite fun u => unpended (funcOf u k), unpended_msix, ite_self]
    rfl
  · rfl

theorem unpended_pushMsg (ws : List Word) (s : State) : unpended (funcOf (pushMsg ch ev ws s) k) = unpended (funcOf s k) := by
  induction ws generalizing s with
  | nil => rfl
  | cons w t ih => rw [pushMsg, ih, unpended_pushOut]

theorem unpended_sendMsg (ws : List Word) (s : State) : unpended (funcOf (sendMsg ch ev ws s) k) = unpended (funcOf s k) := by
  unfold sendMsg
  dsimp only
  (repeat' split)
  · exact unpended_pushMsg ch ev k ws s
  · rfl
  · exact unpended_pushMsg ch ev k ws s

variable {ch k} (h : k ≠ ch)
include h

theorem funcOf_pushOut_other (w : Word) (s : State) : funcOf (pushOut ch ev w s) k = funcOf s k := by
  unfold pushOut
  dsimp only
  split
  · rw [apply_ite fun u => funcOf u k, funcOf_msix_other _ _ _ _ h, ite_self]
    rfl
  · rfl

theorem funcOf_pushMsg_other (ws : List Word) (s : State) : funcOf (pushMsg ch ev ws s) k = funcOf s k := by
  induction ws generalizing s with
  | nil => rfl
  | cons w t ih => rw [pushMsg, ih, funcOf_pushOut_other ev h]

theorem funcOf_sendMsg_other (ws : List Word) (s : State) : funcOf (sendMsg ch ev ws s) k = funcOf s k := by
  unfold sendMsg
  dsimp only
  (repeat' split)
  · exact funcOf_pushMsg_other ev h ws s
  · rfl
  · exact funcOf_pushMsg_other ev h ws s

end

/-! ### A function's turn (R537, R538) -/

section
variable (fn src : Nat) (s : State)

@[simp] theorem chanOf_setPend (k : Nat) : chanOf (setPend fn src s) k = chanOf s k := by
  unfold setPend
  dsimp only
  (repeat' split) <;> simp

theorem funcOf_setPend_other {k : Nat} (h : k ≠ fn) : funcOf (setPend fn src s) k = funcOf s k := by
  unfold setPend
  dsimp only
  split
  · rw [apply_ite fun u => funcOf u k, funcOf_msix_other _ _ _ _ h, ite_self]
    exact funcOf_setFunc_other _ _ _ _ h
  · rfl

theorem setPend_unrouted (h : bit (routeOf s fn (src / 32)).vecMask (src % 32) = false) : setPend fn src s = s := by
  simp [setPend, h]

/-- The pending bit of a source that a function's routes select is set. -/
theorem pend_setPend (h : bit (routeOf s fn (src / 32)).vecMask (src % 32) = true) :
    bit (evtRegs (setPend fn src s) fn (src / 32)).pend (src % 32) = true := by
  let e := evtRegs s fn (src / 32)
  let b := putb true (src % 32)
  let u := setFunc fn { funcOf s fn with evt := kset (funcOf s fn).evt (src / 32) { e with pend := e.pend ||| b, fresh := e.fresh ||| b } } s
  have hset : evtRegs u fn (src / 32) = { e with pend := e.pend ||| b, fresh := e.fresh ||| b } := by
    simp [u, evtRegs, kgetD]
  have hbit : bit (e.pend ||| b) (src % 32) = true := by
    have hlt : src % 32 < 32 := Nat.mod_lt _ (by decide)
    have hpow : 2 ^ (src % 32) < 2 ^ 32 := Nat.pow_lt_pow_right (by decide) hlt
    have hput : (putb true (src % 32)).toNat = 2 ^ (src % 32) := by
      rw [putb, if_pos rfl, BitVec.toNat_ofNat, Nat.mod_eq_of_lt hpow]
    rw [bit, BitVec.toNat_or, Nat.testBit_or, hput, Nat.testBit_two_pow_self, Bool.or_true]
  have hu : unpended (funcOf (setPend fn src s) fn) = unpended (funcOf u fn) := by
    unfold setPend
    dsimp only
    rw [if_pos h, apply_ite fun u => unpended (funcOf u fn), unpended_msix, ite_self]
    rfl
  rw [evtRegs_of_unpended hu, hset]
  exact hbit

@[simp] theorem evtFrame_setPend : evtFrame (setPend fn src s) = evtFrame s := evtFrame_eq (by simp) (by simp) (by simp)

end

/-! ### A channel's turn (R102, R104) -/

section
variable (ch src : Nat) (s : State)

theorem chanOf_setChanEvt_other (e : ChanEvt) {k : Nat} (h : k ≠ ch) : chanOf (setChanEvt ch src e s) k = chanOf s k :=
  chanOf_setChan_other _ _ _ _ h

@[simp] theorem chanOf_setChanEvt (e : ChanEvt) : chanOf (setChanEvt ch src e s) ch = { chanOf s ch with evts := kset (chanOf s ch).evts src e } :=
  chanOf_setChan _ _ _

@[simp] theorem chanEvt_setChanEvt (e : ChanEvt) : chanEvt (setChanEvt ch src e s) ch src = e := by simp [chanEvt, kgetD]

theorem quietSide_setChanEvt (e : ChanEvt) (k : Nat) : quietSide (chanOf (setChanEvt ch src e s) k) = quietSide (chanOf s k) := by
  by_cases h : k = ch
  · subst h
    rw [chanOf_setChanEvt]
    rfl
  · rw [chanOf_setChanEvt_other ch src s e h]

theorem quietSide_sendMsg (ev : Bool) (ws : List Word) (k : Nat) : quietSide (chanOf (sendMsg ch ev ws s) k) = quietSide (chanOf s k) :=
  congrArg (fun c : Channel => { c with evts := [] }) (inboundSide_sendMsg ch ev k ws s)

/-- A message sent leaves the occurrences on record. -/
theorem chanEvt_sendMsg (ev : Bool) (ws : List Word) (k : Nat) : chanEvt (sendMsg ch ev ws s) k src = chanEvt s k src := by
  obtain ⟨-, -, -, -, hevts⟩ := inboundSide_parts (inboundSide_sendMsg ch ev k ws s)
  rw [chanEvt, hevts, chanEvt]

theorem quietSide_sendEvt (k : Nat) : quietSide (chanOf (sendEvt ch src s) k) = quietSide (chanOf s k) := by
  unfold sendEvt
  dsimp only
  split
  · rfl
  · rw [quietSide_sendMsg, quietSide_setChanEvt]

theorem chanOf_sendEvt_other {k : Nat} (h : k ≠ ch) : chanOf (sendEvt ch src s) k = chanOf s k := by
  unfold sendEvt
  dsimp only
  split
  · rfl
  · rw [chanOf_sendMsg_other true h, chanOf_setChanEvt_other _ _ _ _ h]

theorem funcOf_sendEvt_other {k : Nat} (h : k ≠ ch) : funcOf (sendEvt ch src s) k = funcOf s k := by
  unfold sendEvt
  dsimp only
  split
  · rfl
  · exact funcOf_sendMsg_other true h _ _

theorem unpended_sendEvt (k : Nat) : unpended (funcOf (sendEvt ch src s) k) = unpended (funcOf s k) := by
  unfold sendEvt
  dsimp only
  split
  · rfl
  · exact unpended_sendMsg ch true k _ _

/-- The count, time and detail of a source stay when its message goes out. -/
theorem chanEvt_sendEvt : (chanEvt (sendEvt ch src s) ch src).count = (chanEvt s ch src).count ∧
    (chanEvt (sendEvt ch src s) ch src).last = (chanEvt s ch src).last ∧ (chanEvt (sendEvt ch src s) ch src).detail = (chanEvt s ch src).detail := by
  unfold sendEvt
  dsimp only
  split
  · exact ⟨rfl, rfl, rfl⟩
  · rw [chanEvt_sendMsg, chanEvt_setChanEvt]
    exact ⟨rfl, rfl, rfl⟩

variable (own : List Nat) (d : List Word)

/-- The record of a source after one more occurrence. -/
def heardOnce : ChanEvt :=
  let e := chanEvt s ch src
  { e with count := (e.count + 1) % 2 ^ 32, held := e.held + 1, last := nowNs s, detail := d }

theorem noteEvt_unseen (h : seesEvt s src own ch = false) : noteEvt src own d ch s = s := by simp [noteEvt, h]

theorem noteEvt_unrouted (h : seesEvt s src own ch = true) (hr : msgRouted s ch src = false) :
    noteEvt src own d ch s = setChanEvt ch src (heardOnce ch src s d) s := by
  simp [noteEvt, h, hr, heardOnce]

theorem noteEvt_waits (h : seesEvt s src own ch = true) (hr : msgRouted s ch src = true)
    (hw : (chanEvt s ch src).window = true ∨ s.boot.ready = false) :
    noteEvt src own d ch s = setChanEvt ch src { heardOnce ch src s d with due := true } s := by
  unfold noteEvt
  dsimp only
  rw [if_pos h, if_pos hr, if_neg (by rcases hw with hw | hw <;> simp [hw])]
  rfl

theorem noteEvt_sends (h : seesEvt s src own ch = true) (hr : msgRouted s ch src = true) (hw : (chanEvt s ch src).window = false)
    (hready : s.boot.ready = true) :
    noteEvt src own d ch s = sendEvt ch src (setChanEvt ch src { heardOnce ch src s d with due := true } s) := by
  unfold noteEvt
  dsimp only
  rw [if_pos h, if_pos hr, if_pos (by simp [hready, hw])]
  rfl

/-- A channel that does not see an occurrence, or takes note of it in its record, or tells it at once. -/
theorem noteEvt_cases : noteEvt src own d ch s = s ∨ (∃ e, noteEvt src own d ch s = setChanEvt ch src e s) ∨
    ∃ e, noteEvt src own d ch s = sendEvt ch src (setChanEvt ch src e s) := by
  unfold noteEvt
  dsimp only
  (repeat' split)
  · exact .inr (.inr ⟨_, rfl⟩)
  · exact .inr (.inl ⟨_, rfl⟩)
  · exact .inr (.inl ⟨_, rfl⟩)
  · exact .inl rfl

theorem chanOf_noteEvt_other {k : Nat} (hk : k ≠ ch) : chanOf (noteEvt src own d ch s) k = chanOf s k := by
  obtain h | ⟨e, h⟩ | ⟨e, h⟩ := noteEvt_cases ch src s own d
  · rw [h]
  · rw [h, chanOf_setChanEvt_other _ _ _ _ hk]
  · rw [h, chanOf_sendEvt_other _ _ _ hk, chanOf_setChanEvt_other _ _ _ _ hk]

theorem funcOf_noteEvt_other {k : Nat} (hk : k ≠ ch) : funcOf (noteEvt src own d ch s) k = funcOf s k := by
  obtain h | ⟨e, h⟩ | ⟨e, h⟩ := noteEvt_cases ch src s own d
  · rw [h]
  · rw [h]
    rfl
  · rw [h, funcOf_sendEvt_other _ _ _ hk]
    rfl

theorem unpended_noteEvt (k : Nat) : unpended (funcOf (noteEvt src own d ch s) k) = unpended (funcOf s k) := by
  obtain h | ⟨e, h⟩ | ⟨e, h⟩ := noteEvt_cases ch src s own d
  · rw [h]
  · rw [h]
    rfl
  · rw [h, unpended_sendEvt]
    rfl

@[simp] theorem evtFrame_noteEvt : evtFrame (noteEvt src own d ch s) = evtFrame s := by
  refine evtFrame_eq (by simp) (by simp) fun k => ?_
  obtain h | ⟨e, h⟩ | ⟨e, h⟩ := noteEvt_cases ch src s own d
  · rw [h]
  · rw [h, quietSide_setChanEvt]
  · rw [h, quietSide_sendEvt, quietSide_setChanEvt]

/-- A channel that sees an occurrence counts it, with its time and detail. -/
theorem chanEvt_noteEvt (h : seesEvt s src own ch = true) : (chanEvt (noteEvt src own d ch s) ch src).count = ((chanEvt s ch src).count + 1) % 2 ^ 32 ∧
    (chanEvt (noteEvt src own d ch s) ch src).last = nowNs s ∧ (chanEvt (noteEvt src own d ch s) ch src).detail = d := by
  by_cases hr : msgRouted s ch src = true
  · by_cases hw : (chanEvt s ch src).window = false ∧ s.boot.ready = true
    · obtain ⟨hcount, hlast, hdetail⟩ := chanEvt_sendEvt ch src (setChanEvt ch src { heardOnce ch src s d with due := true } s)
      rw [noteEvt_sends ch src s own d h hr hw.1 hw.2, hcount, hlast, hdetail, chanEvt_setChanEvt]
      exact ⟨rfl, rfl, rfl⟩
    · have hwait : (chanEvt s ch src).window = true ∨ s.boot.ready = false := by
        simpa only [not_and_or, Bool.not_eq_false, Bool.not_eq_true] using hw
      rw [noteEvt_waits ch src s own d h hr hwait, chanEvt_setChanEvt]
      exact ⟨rfl, rfl, rfl⟩
  · rw [noteEvt_unrouted ch src s own d h (Bool.eq_false_iff.mpr hr), chanEvt_setChanEvt]
    exact ⟨rfl, rfl, rfl⟩

/-- An occurrence within 1 ms of the last message, that no route selects, or before SAEND_READY, waits for the next message. -/
theorem held_noteEvt (h : seesEvt s src own ch = true)
    (hw : (chanEvt s ch src).window = true ∨ msgRouted s ch src = false ∨ s.boot.ready = false) :
    (chanEvt (noteEvt src own d ch s) ch src).held = (chanEvt s ch src).held + 1 ∧ (chanOf (noteEvt src own d ch s) ch).outq = (chanOf s ch).outq := by
  by_cases hr : msgRouted s ch src = true
  · have hwait : (chanEvt s ch src).window = true ∨ s.boot.ready = false := by simpa [hr] using hw
    rw [noteEvt_waits ch src s own d h hr hwait, chanEvt_setChanEvt, chanOf_setChanEvt]
    exact ⟨rfl, rfl⟩
  · rw [noteEvt_unrouted ch src s own d h (Bool.eq_false_iff.mpr hr), chanEvt_setChanEvt, chanOf_setChanEvt]
    exact ⟨rfl, rfl⟩

end

/-! ### The two loops of an occurrence -/

section
variable (src : Nat) (own : List Nat) (d : List Word) (s : State)

/-- A function's turn: its pending bit where it sees the occurrence. -/
def pendTurn (fn : Nat) (s : State) : State := if seesEvt s src own fn then setPend fn src s else s

/-- The functions' loop. -/
def pendAll : State := forEach (List.range 16) (pendTurn src own) s

/-- The channels' loop. -/
def noteAll : State := forEach (List.range 19) (noteEvt src own d) s

theorem raise_eq : raise src own d s = noteAll src own d (pendAll src own s) := rfl

theorem evtFrame_pendTurn (fn : Nat) : evtFrame (pendTurn src own fn s) = evtFrame s := by
  unfold pendTurn
  split
  · exact evtFrame_setPend fn src s
  · rfl

theorem evtFrame_pendTurns (l : List Nat) : evtFrame (forEach l (pendTurn src own) s) = evtFrame s :=
  forEach_view evtFrame (fun fn _ s => evtFrame_pendTurn src own s fn) s

theorem evtFrame_noteEvts (l : List Nat) : evtFrame (forEach l (noteEvt src own d) s) = evtFrame s :=
  forEach_view evtFrame (fun ch _ s => evtFrame_noteEvt ch src s own d) s

theorem evtFrame_raise : evtFrame (raise src own d s) = evtFrame s := by
  rw [raise_eq, noteAll, evtFrame_noteEvts, pendAll, evtFrame_pendTurns]

theorem chanOf_pendTurn (fn k : Nat) : chanOf (pendTurn src own fn s) k = chanOf s k := by
  unfold pendTurn
  split
  · exact chanOf_setPend fn src s k
  · rfl

theorem chanOf_pendAll (k : Nat) : chanOf (pendAll src own s) k = chanOf s k :=
  forEach_view (fun u => chanOf u k) (fun fn _ s => chanOf_pendTurn src own s fn k) s

theorem funcOf_pendTurn_other {fn k : Nat} (h : k ≠ fn) : funcOf (pendTurn src own fn s) k = funcOf s k := by
  unfold pendTurn
  split
  · exact funcOf_setPend_other fn src s h
  · rfl

/-- What a function's registers hold after the functions' loop is what its turn made of them. -/
theorem funcOf_pendAll {fn : Nat} (h : fn < 16) : ∃ u, evtFrame u = evtFrame s ∧ funcOf u fn = funcOf s fn ∧
    funcOf (pendAll src own s) fn = funcOf (pendTurn src own fn u) fn := by
  obtain ⟨before, hend, hstart⟩ := forEach_turn (fun u => funcOf u fn) List.nodup_range (List.mem_range.mpr h)
    (fun a ha s => funcOf_pendTurn_other src own s (Ne.symm ha)) s
  exact ⟨_, evtFrame_pendTurns src own s before, hstart, hend⟩

/-- What a channel holds after an occurrence is what its turn made of it. -/
theorem chanOf_raise {ch : Nat} (h : ch < 19) : ∃ u, evtFrame u = evtFrame s ∧ chanOf u ch = chanOf s ch ∧
    chanOf (raise src own d s) ch = chanOf (noteEvt src own d ch u) ch := by
  obtain ⟨before, hend, hstart⟩ := forEach_turn (fun u => chanOf u ch) List.nodup_range (List.mem_range.mpr h)
    (fun a ha s => chanOf_noteEvt_other a src s own d (Ne.symm ha)) (pendAll src own s)
  refine ⟨_, (evtFrame_noteEvts src own d _ before).trans (evtFrame_pendTurns src own s _), hstart.trans (chanOf_pendAll src own s ch), hend⟩

/-- A channel that may not see an occurrence has none of it on record. -/
theorem chanOf_raise_unseen {ch : Nat} (h : ch < 19) (hsee : seesEvt s src own ch = false) : chanOf (raise src own d s) ch = chanOf s ch := by
  obtain ⟨u, hframe, hchan, hend⟩ := chanOf_raise src own d s h
  rw [hend, noteEvt_unseen ch src u own d (by rw [seesEvt_of_evtFrame hframe, hsee]), hchan]

theorem chanEvt_congr {t : State} {ch : Nat} (h : chanOf t ch = chanOf s ch) : chanEvt t ch src = chanEvt s ch src := by
  rw [chanEvt, h, chanEvt]

theorem chanEvt_raise {ch : Nat} (h : ch < 19) (hsee : seesEvt s src own ch = true) :
    (chanEvt (raise src own d s) ch src).count = ((chanEvt s ch src).count + 1) % 2 ^ 32 ∧
      (chanEvt (raise src own d s) ch src).last = nowNs s ∧ (chanEvt (raise src own d s) ch src).detail = d := by
  obtain ⟨u, hframe, hchan, hend⟩ := chanOf_raise src own d s h
  rw [chanEvt_congr src _ hend, ← chanEvt_congr src s hchan, ← nowNs_of_evtFrame hframe]
  exact chanEvt_noteEvt ch src u own d (by rw [seesEvt_of_evtFrame hframe, hsee])

theorem held_raise {ch : Nat} (h : ch < 19) (hsee : seesEvt s src own ch = true)
    (hw : (chanEvt s ch src).window = true ∨ msgRouted s ch src = false ∨ s.boot.ready = false) :
    (chanEvt (raise src own d s) ch src).held = (chanEvt s ch src).held + 1 ∧ (chanOf (raise src own d s) ch).outq = (chanOf s ch).outq := by
  obtain ⟨u, hframe, hchan, hend⟩ := chanOf_raise src own d s h
  obtain ⟨-, hboot, -⟩ := others_parts (others_of_evtFrame hframe)
  rw [chanEvt_congr src _ hend, hend, ← chanEvt_congr src s hchan, ← hchan]
  exact held_noteEvt ch src u own d (by rw [seesEvt_of_evtFrame hframe, hsee])
    (by rw [chanEvt_congr src s hchan, msgRouted_of_evtFrame hframe, hboot]; exact hw)

theorem unpended_noteAll (fn : Nat) : unpended (funcOf (noteAll src own d s) fn) = unpended (funcOf s fn) :=
  forEach_view (fun u => unpended (funcOf u fn)) (fun ch _ s => unpended_noteEvt ch src s own d fn) s

/-- The pending bit of a function that sees an occurrence which its routes select is set. -/
theorem pend_raise {fn : Nat} (h : fn < 16) (hsee : seesEvt s src own fn = true) (hr : bit (routeOf s fn (src / 32)).vecMask (src % 32) = true) :
    bit (evtRegs (raise src own d s) fn (src / 32)).pend (src % 32) = true := by
  obtain ⟨u, hframe, -, hend⟩ := funcOf_pendAll src own s h
  have hturn : pendTurn src own fn u = setPend fn src u := if_pos (by rw [seesEvt_of_evtFrame hframe, hsee])
  rw [raise_eq, evtRegs_of_unpended (unpended_noteAll src own d _ fn), evtRegs, hend, hturn]
  exact pend_setPend fn src u (by rw [routeOf_of_evtFrame hframe, hr])

/-- An occurrence that no route of a function selects sets none of its bits. -/
theorem unpended_raise_unrouted {fn : Nat} (h : fn < 16) (hr : bit (routeOf s fn (src / 32)).vecMask (src % 32) = false) :
    unpended (funcOf (raise src own d s) fn) = unpended (funcOf s fn) := by
  obtain ⟨u, hframe, hfunc, hend⟩ := funcOf_pendAll src own s h
  have hturn : pendTurn src own fn u = u := by
    rw [pendTurn, setPend_unrouted fn src u (by rw [routeOf_of_evtFrame hframe, hr]), ite_self]
  rw [raise_eq, unpended_noteAll, hend, hturn, hfunc]

/-- The function of a channel that may not see an occurrence stays as it is. -/
theorem funcOf_raise_unseen {fn : Nat} (h : fn < 16) (hsee : seesEvt s src own fn = false) : funcOf (raise src own d s) fn = funcOf s fn := by
  obtain ⟨u, hframe, hfunc, hend⟩ := funcOf_pendAll src own s h
  have hturn : pendTurn src own fn u = u := if_neg (by rw [seesEvt_of_evtFrame hframe, hsee]; decide)
  obtain ⟨before, hnote, hbefore⟩ := forEach_turn (fun u => funcOf u fn) List.nodup_range (List.mem_range.mpr (Nat.lt_trans h (by decide : 16 < 19)))
    (fun a ha s => funcOf_noteEvt_other a src s own d (Ne.symm ha)) (pendAll src own s)
  have hbeforeFrame := (evtFrame_noteEvts src own d (pendAll src own s) before).trans (evtFrame_pendTurns src own s (List.range 16))
  have hunseen := noteEvt_unseen fn src (forEach before (noteEvt src own d) (pendAll src own s)) own d (by
    rw [seesEvt_of_evtFrame hbeforeFrame, hsee])
  calc funcOf (raise src own d s) fn = funcOf (forEach before (noteEvt src own d) (pendAll src own s)) fn := hnote.trans (by rw [hunseen])
    _ = funcOf (pendAll src own s) fn := hbefore
    _ = funcOf s fn := by rw [hend, hturn, hfunc]

end

/-! ### The event registers (R537 to R539) -/

section
variable {fn g : Nat} {w : Word} {s : State}

theorem pendClear_quiet (h : w &&& (evtRegs s fn g).pend &&& (evtRegs s fn g).fresh &&& ~~~(evtRegs s fn g).mask = 0) :
    pendClear fn g w s = setEvtRegs fn g { evtRegs s fn g with pend := (evtRegs s fn g).pend &&& ~~~(w &&& ~~~(evtRegs s fn g).fresh) } s := if_pos h

theorem pendClear_raises (h : w &&& (evtRegs s fn g).pend &&& (evtRegs s fn g).fresh &&& ~~~(evtRegs s fn g).mask ≠ 0) :
    pendClear fn g w s = msix fn (routeOf s fn g).vector
      (setEvtRegs fn g { evtRegs s fn g with pend := (evtRegs s fn g).pend &&& ~~~(w &&& ~~~(evtRegs s fn g).fresh) } s) := if_neg h

theorem pendClear_seen (h : (evtRegs s fn g).fresh = 0) :
    pendClear fn g w s = setEvtRegs fn g { evtRegs s fn g with pend := (evtRegs s fn g).pend &&& ~~~w } s := by
  have hfresh : w &&& ~~~(evtRegs s fn g).fresh = w := by
    rw [h]
    exact (congrArg (w &&& ·) BitVec.not_zero).trans BitVec.and_allOnes
  rw [pendClear_quiet (by rw [h]; simp), hfresh]

end

/-- Settles O9: each loop of an occurrence touches a function or a channel in its own turn alone, and nothing that decides a turn changes. -/
theorem eventsReachTheirChannels : Obligations.EventsReachTheirChannels := by
  unfold Obligations.EventsReachTheirChannels
  refine ⟨fun s src own d => ?_, fun s fn g w hsee => ?_⟩
  · have hframe := evtFrame_raise src own d s
    obtain ⟨htxns, hcleats, hslices, -⟩ := ctlRest_parts (ctlRest_of_evtFrame hframe)
    refine ⟨others_of_eq (others_raise src own d s), fun id v => ⟨rfl, ?_⟩, htxns, hcleats, hslices,
      fun ch => quietSide_parts (quietSide_of_evtFrame hframe ch), fun ch h =>
        ⟨chanOf_raise_unseen src own d s h, fun hs => ?_⟩, fun fn => ⟨pend_raise src own d s fn.isLt, funcOf_raise_unseen src own d s fn.isLt,
          fun hr => unpended_parts (unpended_raise_unrouted src own d s fn.isLt hr)⟩⟩
    · simp [cnt, kgetD]
    · obtain ⟨hcount, hlast, hdetail⟩ := chanEvt_raise src own d s h hs
      exact ⟨hcount, hlast, hdetail, held_raise src own d s h hs⟩
  · have hread : exec (.evtPendRead fn g) s = .next (if booting s then emit (.readData fn 0) s else pendRead fn g s) :=
      congrArg Host.Outcome.next (if_neg (by simp [hsee]))
    have hclear : exec (.evtPendClear fn g w) s = .next (pendClear fn g w s) := congrArg Host.Outcome.next (if_pos hsee)
    have hmask : exec (.evtMaskWrite fn g w) s = .next (maskWrite fn g w s) := congrArg Host.Outcome.next (if_pos hsee)
    refine ⟨fun hb => ?_, fun hb => ?_, fun h => ?_, fun h => ?_, fun h => ?_, fun h => ?_, fun h => ?_, fun v => congrArg Host.Outcome.next (if_pos hsee),
      congrArg Host.Outcome.next (if_pos hsee)⟩
    · rw [hread, hb]
      rfl
    · rw [hread, hb]
      rfl
    · rw [hclear, pendClear_quiet h]
    · rw [hclear, pendClear_seen h]
    · rw [hclear, pendClear_raises h]
    · rw [hmask]
      exact congrArg Host.Outcome.next (if_pos h)
    · rw [hmask]
      exact congrArg Host.Outcome.next (if_neg h)

end Sys2Proof.Machine

/-! PROOFS. The resets of a function (R45, R49, R107, R536): a function level reset touches one function and its channel, the Cleats that it
holds and its open transactions. -/

namespace Sys2Proof.Machine

section
variable (fn : Nat) (s : State)

/-! ### Closing a session -/

@[simp] theorem others_closeSession : others (closeSession fn s) = others s := rfl

/-- What a closed session leaves of its channel (R80). -/
def Channel.sessionless (c : Channel) : Channel :=
  { c with session := none, waiting := [], backlog := c.backlog.filter (·.event), report := none, routes := kmap c.routes fun _ r => { r with msgMask := 0 } }

@[simp] theorem chanOf_closeSession : chanOf (closeSession fn s) fn = (chanOf s fn).sessionless := chanOf_setChan _ _ _

theorem chanOf_closeSession_other {k : Nat} (h : k ≠ fn) : chanOf (closeSession fn s) k = chanOf s k := chanOf_setChan_other _ _ _ _ h

/-! ### Room in an inbound queue -/

theorem funcOf_setChanRoom_other (c d : Channel) {k : Nat} (h : k ≠ fn) : funcOf (setChanRoom fn c d s) k = funcOf s k := by
  unfold setChanRoom
  dsimp only
  split
  · rw [funcOf_msix_other _ _ _ _ h]
    rfl
  · rfl

@[simp] theorem ctlRest_setChanRoom (c d : Channel) : ctlRest (setChanRoom fn c d s) = ctlRest s := by
  unfold setChanRoom
  dsimp only
  split <;> simp

/-! ### A function level reset (R49) -/

@[simp] theorem others_releaseCleats : others (releaseCleats fn s) = others s := rfl

@[simp] theorem others_functionReset : others (functionReset fn s) = others s := by simp [functionReset]

/-- A channel after the function level reset of its function. -/
def Channel.functionReset (c : Channel) : Channel := { c.emptied.sessionless with routes := [] }

/-- A function after its function level reset. -/
def Func.stopped (f : Func) : Func := { f with snap := {}, rings := kmap f.rings fun _ r => { r with enable := false, restart := false } }

/-- The queues of a function's channel are emptied, and vector 1 says that there is room where the function asks. -/
def emptyQueues : State := setChanRoom fn (chanOf s fn) (chanOf s fn).emptied s

theorem functionReset_eq : functionReset fn s = setFunc fn (funcOf (emptyQueues fn s) fn).stopped (releaseCleats fn
    (setChan fn { chanOf (closeSession fn (emptyQueues fn s)) fn with routes := [] } (closeSession fn (emptyQueues fn s)))) := rfl

theorem chanOf_functionReset : chanOf (functionReset fn s) fn = (chanOf s fn).functionReset := by
  have hempty : chanOf (emptyQueues fn s) fn = (chanOf s fn).emptied := chanOf_setChanRoom _ _ _ _
  rw [functionReset_eq, chanOf_closeSession, hempty]
  exact chanOf_setChan _ _ _

theorem chanOf_functionReset_other {k : Nat} (h : k ≠ fn) : chanOf (functionReset fn s) k = chanOf s k :=
  calc chanOf (functionReset fn s) k = chanOf (closeSession fn (emptyQueues fn s)) k := chanOf_setChan_other _ _ _ _ h
    _ = chanOf (emptyQueues fn s) k := chanOf_closeSession_other _ _ h
    _ = chanOf s k := chanOf_setChanRoom_other _ _ _ _ _ h

theorem funcOf_functionReset : funcOf (functionReset fn s) fn = (funcOf (emptyQueues fn s) fn).stopped := funcOf_setFunc _ _ _

theorem funcOf_functionReset_other {k : Nat} (h : k ≠ fn) : funcOf (functionReset fn s) k = funcOf s k :=
  (funcOf_setFunc_other _ _ _ _ h).trans (funcOf_setChanRoom_other fn s _ _ h)

theorem ringOf_functionReset (r : Nat) : (ringOf (functionReset fn s) fn r).enable = false := by
  rw [ringOf, funcOf_functionReset, Func.stopped, kgetD, kget_kmap]
  cases kget (funcOf (emptyQueues fn s) fn).rings r <;> rfl

/-- The Cleats that a function held are free, its open transactions gone, and the rest of the control complex stays. -/
theorem ctlRest_functionReset : ctlRest (functionReset fn s) = { ctlRest s with
    txns := s.ctl.txns.filter fun t => t.chan ≠ fn || t.phase ≠ .opened
    cleats := kmap s.ctl.cleats fun _ c => if c.holder = fn then { c with holder := 0xFF } else c } := by
  have hempty : ctlRest (emptyQueues fn s) = ctlRest s := ctlRest_setChanRoom _ _ _ _
  obtain ⟨htxns, hcleats, -⟩ := ctlRest_parts hempty
  calc ctlRest (functionReset fn s) = { ctlRest (emptyQueues fn s) with
        txns := (emptyQueues fn s).ctl.txns.filter fun t => t.chan ≠ fn || t.phase ≠ .opened
        cleats := kmap (emptyQueues fn s).ctl.cleats fun _ c => if c.holder = fn then { c with holder := 0xFF } else c } := rfl
    _ = _ := by rw [hempty, htxns, hcleats]

theorem txns_functionReset : (functionReset fn s).ctl.txns = s.ctl.txns.filter fun t => t.chan ≠ fn ∨ t.phase ≠ .opened := by
  have h := congrArg Control.txns (ctlRest_functionReset fn s)
  exact h.trans (List.filter_congr fun t _ => (Bool.decide_or _ _).symm)

theorem cleats_functionReset : (functionReset fn s).ctl.cleats = kmap s.ctl.cleats fun _ c => if c.holder = fn then { c with holder := 0xFF } else c := by
  have h := congrArg Control.cleats (ctlRest_functionReset fn s)
  exact h

theorem numVfs_functionReset : (functionReset fn s).ctl.numVfs = s.ctl.numVfs := by
  have h := congrArg Control.numVfs (ctlRest_functionReset fn s)
  exact h

/-! ### Virtual functions (R45, R49) -/

/-- Where no function goes, NumVFs alone changes. -/
theorem vfEnable_more {n : Nat} (h : s.ctl.numVfs ≤ n) : vfEnable n s = { s with ctl := { s.ctl with numVfs := n } } := by
  have hnone : ((List.range 16).filter fun fn => n < fn && fn ≤ s.ctl.numVfs) = [] := by
    refine List.filter_eq_nil_iff.mpr fun fn _ => ?_
    simp only [Bool.and_eq_true, decide_eq_true_eq]
    omega
  unfold vfEnable
  dsimp only
  rw [hnone]
  rfl

theorem others_vfEnable (n : Nat) : others (vfEnable n s) = others s :=
  others_forEach _ _ _ fun fn s => others_functionReset fn s

/-! ### PERST (R107) -/

/-- A function's turn at PERST: its reset, then its registers. -/
def perstTurn (fn : Nat) (s : State) : State :=
  let s := functionReset fn s
  setChan fn { chanOf s fn with freeThresh := 16, inSpaceEn := false, outMsgEn := true } (setFunc fn {} s)

/-- What PERST does once every function is reset. -/
def endpointReset (s : State) : State := { s with ctl := { s.ctl with numVfs := 0 }, lane := { s.lane with pcie := {} } }

theorem perst_eq : perst s = endpointReset (forEach (List.range 16) perstTurn s) := by
  unfold perst endpointReset perstTurn
  rfl

theorem chanOf_endpointReset (k : Nat) : chanOf (endpointReset s) k = chanOf s k := rfl
theorem funcOf_endpointReset (k : Nat) : funcOf (endpointReset s) k = funcOf s k := rfl


@[simp] theorem others_perstTurn : others (perstTurn fn s) = others s := by simp [perstTurn]

theorem chanOf_perstTurn : chanOf (perstTurn fn s) fn =
    { (chanOf s fn).functionReset with freeThresh := 16, inSpaceEn := false, outMsgEn := true } := by
  rw [← chanOf_functionReset]
  exact chanOf_setChan _ _ _

theorem funcOf_perstTurn : funcOf (perstTurn fn s) fn = {} := funcOf_setFunc _ _ _

theorem chanOf_perstTurn_other {k : Nat} (h : k ≠ fn) : chanOf (perstTurn fn s) k = chanOf s k :=
  (chanOf_setChan_other _ _ _ _ h).trans (chanOf_functionReset_other fn s h)

theorem funcOf_perstTurn_other {k : Nat} (h : k ≠ fn) : funcOf (perstTurn fn s) k = funcOf s k :=
  (funcOf_setFunc_other _ _ _ _ h).trans (funcOf_functionReset_other fn s h)

variable {fn} (h : fn < 16)
include h

theorem funcOf_perst : funcOf (perst s) fn = {} := by
  obtain ⟨before, hend, -⟩ := forEach_turn (fun u => funcOf u fn) List.nodup_range (List.mem_range.mpr h)
    (fun a ha s => funcOf_perstTurn_other a s (Ne.symm ha)) s
  rw [perst_eq, funcOf_endpointReset, hend, funcOf_perstTurn]

theorem chanOf_perst : ∃ c, chanOf (perst s) fn = { Channel.functionReset c with freeThresh := 16, inSpaceEn := false, outMsgEn := true } := by
  obtain ⟨before, hend, -⟩ := forEach_turn (fun u => chanOf u fn) List.nodup_range (List.mem_range.mpr h)
    (fun a ha s => chanOf_perstTurn_other a s (Ne.symm ha)) s
  rw [perst_eq, chanOf_endpointReset, hend, chanOf_perstTurn]
  exact ⟨_, rfl⟩

end

/-- Settles O20: a function level reset by what it writes and leaves; NumVFs and PERST by the resets of the functions they end. -/
theorem functionResetsAndVfs : Obligations.FunctionResetsAndVfs := by
  unfold Obligations.FunctionResetsAndVfs
  intro s fn
  refine ⟨⟨functionReset fn s, rfl, ?_⟩, fun n h => congrArg Host.Outcome.next (vfEnable_more s h),
    fun n => ⟨vfEnable n s, rfl, rfl, others_of_eq (others_vfEnable s n)⟩, fun hfn hle => ⟨vfEnable (fn - 1) s, ?_, rfl, others_of_eq (others_vfEnable s _)⟩,
    fun hnone => ?_, ⟨perst s, rfl, perst_eq s ▸ rfl, perst_eq s ▸ rfl, fun f => ?_, ?_⟩, rfl⟩
  · have hchan := chanOf_functionReset fn s
    refine ⟨?_, ?_, ?_, ?_, ?_, ?_, ?_, ringOf_functionReset fn s, ?_, cleats_functionReset fn s, fun ch h => chanOf_functionReset_other fn s h,
      fun f h => funcOf_functionReset_other fn s h, txns_functionReset fn s, numVfs_functionReset fn s, others_of_eq (others_functionReset fn s)⟩
    case refine_8 =>
      rw [funcOf_functionReset]
      rfl
    all_goals
      rw [hchan]
      rfl
  · have hpos : fn.val ≠ 0 := fun h => hfn (Fin.ext h)
    exact congrArg Host.Outcome.next (if_neg (by simp; omega))
  · refine congrArg Host.Outcome.next (if_pos ?_)
    rcases hnone with h | h
    · simp [h]
    · simp [h]
  · obtain ⟨c, hc⟩ := chanOf_perst s f.isLt
    rw [hc]
    exact ⟨rfl, funcOf_perst s f.isLt, rfl, rfl, rfl⟩
  · have h : others (forEach (List.range 16) perstTurn s) = others s := others_forEach _ _ _ fun fn s => others_perstTurn fn s
    have hlane := congrArg (fun u : State => { u with ctl := s.ctl, lane := s.lane, out := s.out }) h
    rw [perst_eq]
    exact hlane

end Sys2Proof.Machine

/-! PROOFS. Transactions (R77, R80 to R88): beginning, asking after, dropping and committing one, and the staging of an item. -/

namespace Sys2Proof.Machine

/-! ### The calls that carry a handle -/

section
variable {ch : Nat} {ws : List Word} {t : Txn} {s : State}

theorem txnBegin_opens (hchan : ((openTxns s).filter fun t => t.chan = ch).length < 4) (hall : (openTxns s).length < 64) :
    txnBegin ch s = .ok (setTxns (s.ctl.txns ++ [⟨ch * 65536 + (chanOf s ch).txnSerial, ch, false, [], .opened, [], none⟩])
      (setChan ch { chanOf s ch with txnSerial := nextSerial ch (chanOf s ch).txnSerial } s), [wd (ch * 65536 + (chanOf s ch).txnSerial)]) := by
  unfold txnBegin
  dsimp only
  rw [decide_eq_true hchan, decide_eq_true hall]
  rfl

theorem txnQuery_found (h : findTxn s ch (pw ws 0).toNat = some t) :
    txnQuery ch ws s = .ok [match t.phase with | .opened => 0 | .accepted _ => 1 | .applied => 2, wd (itemCount t.items)] := by
  unfold txnQuery
  rw [h] <;> rfl

theorem txnRollback_opened (h : findTxn s ch (pw ws 0).toNat = some t) (ho : t.phase = .opened) :
    txnRollback ch ws s = .ok (dropTxn ch (pw ws 0).toNat s, []) := by
  unfold txnRollback
  rw [h]
  exact if_pos ho

theorem txnIdle_opened {h : Word} (hf : findTxn s (h.toNat / 65536 % 256) h.toNat = some t) (ho : t.phase = .opened) :
    txnIdle h.toNat s = raise 961 (sliceOf s (h.toNat / 65536 % 256)).toList [h] (dropTxn (h.toNat / 65536 % 256) h.toNat s) := by
  unfold txnIdle
  dsimp only
  rw [hf]
  exact (if_pos ho).trans (by rw [wd, BitVec.ofNat_toNat, BitVec.setWidth_eq])

end

/-! ### `TXN_COMMIT` (R84 to R86) -/

section
variable {c : Call} {s : State} (hlen : c.words.length = 1 ∨ 0x0300 ≤ versionOf s c.chan) (hdefer : fld (pw c.words 1) 12 0 ≤ 8000)
include hlen hdefer

theorem txnCommit_unknown (h : findTxn s c.chan (pw c.words 0).toNat = none) : txnCommit c s = respond 0x0011 c .txnUnknown [] s := by
  unfold txnCommit
  dsimp only
  rw [if_neg (by simp; omega), h]

variable {t : Txn} (h : findTxn s c.chan (pw c.words 0).toNat = some t) (ho : t.phase = .opened)
include h ho

/-- An open transaction is accepted for its apply point, or refused as one whole and dropped. -/
theorem txnCommit_opened : txnCommit c s = match judgeItems t.items (applyPointFor s.tb (fld (pw c.words 1) 12 0)) s with
    | some (i, e) => respond 0x0011 c .validation (if versionOf s c.chan ≤ 0x0300 then [] else [wd i, wd e.code]) (dropTxn c.chan (pw c.words 0).toNat s)
    | none => accept t (applyPointFor s.tb (fld (pw c.words 1) 12 0)) (refFor 0x0011 c s) (dropTxn c.chan (pw c.words 0).toNat s) := by
  unfold txnCommit
  dsimp only
  rw [if_neg (by simp; omega), h]
  exact if_neg (not_not.mpr ho)

end

/-! ### Closing a session, and opening one over it (R77, R80) -/

theorem closeSession_eq (ch : Nat) (s : State) : closeSession ch s = let x := chanOf s ch
    setChan ch { x with
      session := none, waiting := [], report := none, backlog := x.backlog.filter (·.event), routes := kmap x.routes fun _ r => { r with msgMask := 0 } }
      (setTxns (s.ctl.txns.filter fun t => t.chan ≠ ch ∨ t.phase ≠ .opened) s) := by
  have hdrop : (s.ctl.txns.filter fun t => t.chan ≠ ch || t.phase ≠ .opened) = s.ctl.txns.filter fun t => t.chan ≠ ch ∨ t.phase ≠ .opened :=
    List.filter_congr fun t _ => (Bool.decide_or _ _).symm
  unfold closeSession
  dsimp only
  rw [hdrop]

theorem sessionCleared_open {ch : Nat} {s : State} (h : (chanOf s ch).session.isSome = true) : sessionCleared ch s = closeSession ch s := if_pos h

/-- Settles O11: each call of a transaction by its cases; a session that opens over another closes it first. -/
theorem transactionsOpenAndClose : Obligations.TransactionsOpenAndClose := by
  unfold Obligations.TransactionsOpenAndClose
  intro c s
  refine ⟨fun hserved hchan hall => serveAct_done hserved (txnBegin c.chan) (txnBegin_opens hchan hall),
    fun t hserved h => serveRead_done hserved (txnQuery c.chan c.words) (txnQuery_found h),
    fun t hserved h ho => serveAct_done hserved (txnRollback c.chan c.words) (txnRollback_opened h ho), fun t hserved => ?_, ?_,
    fun h t hf ho => congrArg Host.Outcome.next (txnIdle_opened hf ho), fun hserved => ?_, fun hserved hopen => ?_⟩
  · have hexec : exec (.txnCommit c) s = .next (txnCommit c (readCall 0x0011 c s)) := serve_served hserved _
    intro u target hlen hdefer h ho
    have hcommit := txnCommit_opened hlen hdefer h ho
    refine ⟨fun hj => ?_, fun i e hj hv => ?_, fun i e hj hv => ?_⟩
    · rw [hexec, hcommit, hj]
    · rw [hexec, hcommit, hj]
      dsimp only
      rw [if_neg (Nat.not_le.mpr hv)]
    · rw [hexec, hcommit, hj]
      dsimp only
      rw [if_pos hv]
  · intro u hserved hlen hdefer h
    have hexec : exec (.txnCommit c) s = .next (txnCommit c (readCall 0x0011 c s)) := serve_served hserved _
    rw [hexec, txnCommit_unknown hlen hdefer h]
  · exact (serve_served hserved (sessionClose c)).trans
      (congrArg (fun t => Host.Outcome.next (respond 0x0002 c .done [] t)) (closeSession_eq c.chan (readCall 0x0002 c s)))
  · have hclosed := (sessionCleared_open hopen).trans (closeSession_eq c.chan (readCall 0x0001 c s))
    refine ⟨fun v hv => ?_, fun hv => ?_⟩
    · have hopened := sessionOpen_agreed (s := readCall 0x0001 c s) hv
      rw [hclosed] at hopened
      exact (exec_sessionOpen hserved).trans (congrArg _ hopened)
    · have hrefused := sessionOpen_noCommon (s := readCall 0x0001 c s) hv
      rw [hclosed] at hrefused
      exact (exec_sessionOpen hserved).trans (congrArg _ hrefused)

end Sys2Proof.Machine

/-! PROOFS. The staging of a transactional call's item (R81 to R83, R85), check by check. -/

namespace Sys2Proof.Machine

section
variable {t : TxnCall} {c : Call} {s : State}

/-- A handle that names no open transaction of the channel is refused before anything else. -/
theorem stageCall_unknown (hh : (pw c.words 0).toNat ≠ 0) (h : ∀ x, findTxn s c.chan (pw c.words 0).toNat = some x → x.phase ≠ .opened) :
    stageCall t c s = respond t.spec.code c .txnUnknown [] s := by
  unfold stageCall
  dsimp only
  cases hf : findTxn s c.chan (pw c.words 0).toNat with
  | none => exact if_pos (by simp [hh])
  | some x => exact if_pos (by simp [hh, h x hf])

section
variable {x : Txn} (hf : findTxn s c.chan (pw c.words 0).toNat = some x) (ho : x.phase = .opened)
include hf ho

theorem stageCall_badItem {e : Status} (hobjs : t.objs s (itemOf t.spec c [] s) = .error e) : stageCall t c s = respond t.spec.code c e [] s := by
  simp [stageCall, hf, ho, hobjs]

/-- The item of an open transaction, behind the checks of its handle and its arguments. -/
theorem stageCall_item (hh : (pw c.words 0).toNat ≠ 0) {objs : List Obj} (hobjs : t.objs s (itemOf t.spec c [] s) = .ok objs) : stageCall t c s =
    if heldElsewhere s c.chan (pw c.words 0).toNat objs then respond t.spec.code c .busyObject [] s
    else if 16384 < itemCount x.items + objs.length then respond t.spec.code c .txnFull [] s
    else respond t.spec.code c .done [] (modTxn c.chan (pw c.words 0).toNat (fun x =>
      { x with items := x.items ++ [itemOf t.spec c objs s], holds := x.holds ++ objs.filter fun o => !x.holds.contains o }) s) := by
  simp [stageCall, hf, ho, hobjs, hh]

end

/-! ### The implicit transaction of handle 0 (R85) -/

section
variable (hh : (pw c.words 0).toNat = 0)
include hh

theorem stageCall_implicit_badItem {e : Status} (hobjs : t.objs s (itemOf t.spec c [] s) = .error e) :
    stageCall t c s = respond t.spec.code c e [] s := by
  simp [stageCall, hh, hobjs]

theorem stageCall_implicit {objs : List Obj} (hobjs : t.objs s (itemOf t.spec c [] s) = .ok objs) : stageCall t c s =
    if s.ctl.txns.any fun x => objs.any x.holds.contains then respond t.spec.code c .busyObject [] s
    else match judgeItems [itemOf t.spec c objs s] (applyPointFor s.tb 0) s with
      | some (_, e) => respond t.spec.code c e [] s
      | none => accept ⟨0, c.chan, true, [itemOf t.spec c objs s], .opened, objs, none⟩ (applyPointFor s.tb 0) (refFor t.spec.code c s) s := by
  unfold stageCall
  dsimp only
  rw [if_neg (by simp [hh]), hobjs]
  exact if_pos hh

end

/-- A transaction holds one of some objects just where one of them is held. -/
theorem anyHeld_iff (objs : List Obj) : (s.ctl.txns.any fun x => objs.any x.holds.contains) = true ↔ ∃ o ∈ objs, isHeld s o = true := by
  simp only [isHeld, List.any_eq_true]
  tauto

end

/-- Settles O12: each row is its call's staging behind the checks in front, and the staging goes by its own checks. -/
theorem transactionalCallsStageOrAccept : Obligations.TransactionalCallsStageOrAccept := by
  unfold Obligations.TransactionalCallsStageOrAccept
  intro i t c s hrow hserved
  have hexec : exec i s = .next (stageCall t c (readCall t.spec.code c s)) := (exec_of_txnRow hrow s).trans (serve_served hserved _)
  refine ⟨fun x objs hh hf ho hobjs => ?_, fun x e _ hf ho hobjs => ?_, fun objs hh hobjs => ⟨fun hheld => ?_, fun hfree => ?_⟩, fun e hh hobjs => ?_, fun hh hf => ?_⟩
  · have hitem := stageCall_item hf ho hh hobjs
    refine ⟨fun hfree hfits => ?_, fun hheld => ?_, fun hfree hfull => ?_⟩
    · rw [if_neg (by rw [hfree]; decide), if_neg (Nat.not_lt.mpr hfits)] at hitem
      exact hexec.trans (congrArg _ hitem)
    · rw [if_pos hheld] at hitem
      exact hexec.trans (congrArg _ hitem)
    · rw [if_neg (by rw [hfree]; decide), if_pos hfull] at hitem
      exact hexec.trans (congrArg _ hitem)
  · exact hexec.trans (congrArg _ (stageCall_badItem hf ho hobjs))
  · have hitem := stageCall_implicit hh hobjs
    rw [if_pos ((anyHeld_iff objs).mpr hheld)] at hitem
    exact hexec.trans (congrArg _ hitem)
  · have hitem := stageCall_implicit hh hobjs
    have hnone : ¬ ∃ o ∈ objs, isHeld (readCall t.spec.code c s) o = true := by
      rintro ⟨o, ho, hheld⟩
      exact absurd (hfree o ho) (by rw [hheld]; decide)
    rw [if_neg (mt (anyHeld_iff objs).mp hnone)] at hitem
    refine ⟨fun n e hj => hexec.trans (congrArg _ (hitem.trans ?_)), fun hj => hexec.trans (congrArg _ (hitem.trans ?_))⟩
    · simp only [show judgeItems [itemOf t.spec c objs (readCall t.spec.code c s)] _ _ = _ from hj]
    · simp only [show judgeItems [itemOf t.spec c objs (readCall t.spec.code c s)] _ _ = _ from hj]
      rfl
  · exact hexec.trans (congrArg _ (stageCall_implicit_badItem hh hobjs))
  · exact hexec.trans (congrArg _ (stageCall_unknown hh hf))

end Sys2Proof.Machine

/-! PROOFS. A reach set on a Span that the device mirrors (R133, R467, R510): the SPAN record goes out on the Hawser behind idle codewords
whose number is a free value of the model, so the item moves more than the configuration. -/

namespace Sys2Proof.Machine

/-! ### The free values that a record draws -/

theorem free_codewordOut (fs : List Flit) (s : State) : (codewordOut fs s).free = s.free := by
  unfold codewordOut
  dsimp only
  split <;> rfl

/-- Flits on a link that is up draw the number of idle codewords before them. -/
theorem free_flitsOut (fs : List Flit) {s : State} (h : s.red.hawser.up = true) : (flitsOut fs s).free = s.free + 1 := by
  unfold flitsOut
  rw [if_pos h]
  exact forEach_view State.free (fun fs _ s => free_codewordOut fs s) _

theorem free_recordOut (rtype span : Nat) (data : List Nat) {s : State} (h : s.red.hawser.up = true) :
    (recordOut rtype span data s).free = s.free + 1 := by
  unfold recordOut
  dsimp only
  rw [if_neg (by rw [h]; decide)]
  exact free_flitsOut _ h

theorem free_mirrorSpanRec {sp : Nat} {s : State} (hmirrors : mirrors s sp = true) (h : s.red.hawser.up = true) :
    (mirrorSpanRec sp s).free = s.free + 1 := by
  unfold mirrorSpanRec mirrorSpan
  dsimp only
  rw [if_pos hmirrors]
  exact free_recordOut _ _ _ h

/-! ### `REACH_CONFIG` on a closed Span -/

/-- The settings of a Span after a reach item. -/
def reached (i : Item) (v : Span) : Span :=
  { v with reachMax := fld (pw i.words 2) 31 16, reachMin := fld (pw i.words 2) 15 0, diff := fld (pw i.words 3) 31 16, reachMargin := fld (pw i.words 3) 15 0 }

theorem reachConfig_changes {i : Item} {s : State} (hclosed : (spanOf s (fld (pw i.words 1) 4 0)).st = .closed)
    (hmoved : fld (pw i.words 2) 31 16 ≠ (spanOf s (fld (pw i.words 1) 4 0)).reachMax) :
    reachConfig.apply i s = .ok (mirrorSpanRec (fld (pw i.words 1) 4 0)
      (setSpan (fld (pw i.words 1) 4 0) (reached i (spanOf s (fld (pw i.words 1) 4 0))) s)) := by
  have hne : reached i (spanOf s (fld (pw i.words 1) 4 0)) ≠ spanOf s (fld (pw i.words 1) 4 0) := fun h => hmoved (congrArg Span.reachMax h)
  have happly : reachConfig.apply i s = (need (reached i (spanOf s (fld (pw i.words 1) 4 0)) = spanOf s (fld (pw i.words 1) 4 0) ||
      (spanOf s (fld (pw i.words 1) 4 0)).st = .closed) .badState >>= fun _ => pure (if reached i (spanOf s (fld (pw i.words 1) 4 0)) =
        spanOf s (fld (pw i.words 1) 4 0) then s else mirrorSpanRec (fld (pw i.words 1) 4 0)
          (setSpan (fld (pw i.words 1) 4 0) (reached i (spanOf s (fld (pw i.words 1) 4 0))) s))) := rfl
  rw [happly, decide_eq_true hclosed, Bool.or_true, need_true, if_neg hne]
  rfl

/-! ### The counterexample -/

/-- A device of a pair in state PAIRED with the Hawser up, that mirrors Span 0, which is closed. -/
def mirroringState : State :=
  { State.reset with red := { hawser := { up := true }, pair := { st := .paired } }, pon := { spans := [(0, { paired := true })] } }

/-- A reach item for Span 0: 30 km in place of 20 km. -/
def reachItem : Item :=
  { code := 0x0312, chan := 0, slice := some 0, version := 0x0302, words := [0, 0, wd (30000 * 65536), wd (20000 * 65536 + 200)], dma := [], objs := [] }

theorem reachConfig_draws : ∃ t, reachConfig.apply reachItem mirroringState = .ok t ∧ t.free = mirroringState.free + 1 :=
  ⟨_, reachConfig_changes (by decide) (by decide), free_mirrorSpanRec (by decide) rfl⟩

/-- Refutes O14: a reach set on the closed Span 0 of a PAIRED device that is active for it and whose Hawser is up sends a SPAN record, whose
idle codewords take the next free value; the statement's frame of `reachConfig` keeps `free`. -/
theorem not_controlItemsTakeEffect : ¬ Obligations.ControlItemsTakeEffect := by
  unfold Obligations.ControlItemsTakeEffect
  intro h
  obtain ⟨-, -, -, -, -, -, -, -, -, -, -, -, -, -, -, -, -, -, -, -, -, -, -, -, -, hreach, -⟩ := h reachItem mirroringState
  obtain ⟨t, happly, -, hframe⟩ := hreach (by decide)
  obtain ⟨u, hdraws, hfree⟩ := reachConfig_draws
  have htu : t = u := Except.ok.inj (happly.symm.trans hdraws)
  have hkept := congrArg State.free hframe
  have hself : mirroringState.free + 1 = mirroringState.free := hfree.symm.trans (htu ▸ hkept)
  exact Nat.succ_ne_self _ hself

end Sys2Proof.Machine

/-! PROOFS. The fuses and the flash over a step (R111, R113, R114, R116; notes/assumptions/2): the one inversion lemma of what a command can
write of them. -/

namespace Sys2Proof.Machine

/-! ### What a call leaves of the boot state -/

@[simp] theorem raise_boot (src : Nat) (own : List Nat) (ws : List Word) (s : State) : (raise src own ws s).boot = s.boot := by
  obtain ⟨_, hboot, _⟩ := others_parts (others_raise src own ws s)
  exact hboot

@[simp] theorem readCall_boot (code : Nat) (c : Call) (s : State) : (readCall code c s).boot = s.boot := by
  obtain ⟨_, hboot, _⟩ := others_parts (others_readCall code c s)
  exact hboot

@[simp] theorem respond_boot (code : Nat) (c : Call) (st : Status) (ws : List Word) (s : State) : (respond code c st ws s).boot = s.boot := by
  obtain ⟨_, hboot, _⟩ := others_parts (others_respond code c st ws s)
  exact hboot

section
variable {sp : CallSpec} {c : Call} {s t : State}

/-- A call leaves the boot state, or what its body makes of it. -/
theorem boot_of_serve {body : State → State} (h : serve sp c s body = .next t) :
    t.boot = s.boot ∨ t.boot = (body (readCall sp.code c s)).boot := by
  rcases serve_cases sp c s body with hidle | ⟨r, hundef⟩ | ⟨e, hrefused⟩ | hserved
  · cases hidle.symm.trans h
    exact .inl rfl
  · cases hundef.symm.trans h
  · cases hrefused.symm.trans h
    exact .inl ((respond_boot _ _ _ _ _).trans (readCall_boot _ _ _))
  · cases hserved.symm.trans h
    exact .inr rfl

theorem boot_of_serveAct {body : State → Res (State × List Word)} (h : serveAct sp c s body = .next t) :
    t.boot = s.boot ∨ ∃ x, body (readCall sp.code c s) = .ok x ∧ t.boot = x.1.boot := by
  rcases boot_of_serve h with hboot | hboot
  · exact .inl hboot
  · cases hbody : body (readCall sp.code c s) with
    | ok x =>
      rw [hbody] at hboot
      exact .inr ⟨x, rfl, hboot.trans (respond_boot _ _ _ _ _)⟩
    | error e =>
      rw [hbody] at hboot
      exact .inl (hboot.trans ((respond_boot _ _ _ _ _).trans (readCall_boot _ _ _)))

end

/-! ### The calls that write a fuse or the flash -/

/-- A test that is passed is met. -/
theorem of_need_bind {α : Type} {b : Bool} {st : Status} {f : Unit → Res α} {x : α} (h : (need b st >>= f) = .ok x) : b = true := by
  cases b with
  | false => cases h
  | true => rfl

theorem fld_lt (w : Word) (hi lo : Nat) : fld w hi lo < 2 ^ (hi + 1 - lo) := Nat.mod_lt _ (Nat.two_pow_pos _)

/-- A write of bytes into one slot of the flash. -/
def slotWritten (slot off : Nat) (bs : List Byte) (b : Boot) : Boot := { b with flash := flashWrite b.flash (slotSize * slot + off) bs }

/-- A flash write that is done stays within the slot that the device does not run from. -/
theorem devFlashWrite_writes {ch : Nat} {ws : List Word} {s : State} {x : State × List Word} (h : devFlashWrite ch ws s = .ok x) :
    ∃ slot off bs, slot < 2 ∧ slot ≠ s.boot.slot ∧ off + bs.length ≤ slotSize ∧ x.1.boot = slotWritten slot off bs s.boot := by
  have hfits := of_need_bind h
  have hslot := of_need_bind (ok_of_need_bind h)
  cases ok_of_need_bind (ok_of_need_bind h)
  simp only [Bool.and_eq_true, decide_eq_true_eq] at hfits hslot
  refine ⟨fld (pw ws 4) 0 0, fld (pw ws 3) 24 0, _, fld_lt _ _ _, hslot, ?_, rfl⟩
  have hlen : (hostBytes ch (wide ws 0 2) (fld (pw ws 2) 24 0) s).length ≤ fld (pw ws 2) 24 0 := List.length_take_le _ _
  omega

theorem devSvnAdvance_raises {s : State} {x : State × List Word} (h : devSvnAdvance s = .ok x) :
    x.1.boot = s.boot ∨ ∃ n, s.boot.svnMin < n ∧ x.1.boot = { s.boot with svnMin := n } := by
  have h := ok_of_need_bind h
  dsimp only at h
  split at h <;> cases h
  · exact .inl rfl
  · next hlow => exact .inr ⟨_, Nat.not_le.mp hlow, raise_boot _ _ _ _⟩

theorem ownerKeyFuse_binds (ws : List Word) (s : State) : (ownerKeyFuse ws s).1.boot = s.boot ∨
    s.boot.ownerState = 0 ∧ ∃ st hash, (ownerKeyFuse ws s).1.boot = { s.boot with ownerState := st, ownerHash := hash } := by
  unfold ownerKeyFuse
  dsimp only
  split
  · exact .inl rfl
  · split
    · exact .inl rfl
    · next hfree =>
      refine .inr ⟨not_not.mp hfree, ?_⟩
      split <;> exact ⟨_, _, raise_boot _ _ _ _⟩

/-! ### What a command can write of the fuses and the flash -/

/-- The ways in which a command that goes on leaves the fuses and the flash: from one boot state to the next. -/
inductive FuseStep (i : Instr) (a b : Boot) : Prop
  | same (hsvn : b.svnMin = a.svnMin) (hhash : b.ownerHash = a.ownerHash) (hstate : b.ownerState = a.ownerState) (hflash : b.flash = a.flash)
  | flash (c : Call) (hi : i = .devFlashWrite c) (slot off : Nat) (bs : List Byte) (hslot : slot < 2) (hother : slot ≠ a.slot)
      (hfits : off + bs.length ≤ slotSize) (h : b = slotWritten slot off bs a)
  | svn (c : Call) (hi : i = .devSvnAdvance c) (n : Nat) (hlow : a.svnMin < n) (h : b = { a with svnMin := n })
  | owner (c : Call) (hi : i = .ownerKeyFuse c) (hfree : a.ownerState = 0) (st : Nat) (hash : List Byte)
      (h : b = { a with ownerState := st, ownerHash := hash })

theorem FuseStep.of_kept {i : Instr} {s t : State} (h : kept t = kept s) : FuseStep i s.boot t.boot :=
  .same (congrArg (·.1) h) (congrArg (·.2.1) h) (congrArg (·.2.2.1) h) (congrArg (·.2.2.2.1) h)

theorem FuseStep.of_eq {i : Instr} {a b : Boot} (h : b = a) : FuseStep i a b := h ▸ .same rfl rfl rfl rfl

/-- The three calls by what their bodies give; every other command leaves all that is kept. -/
theorem fuseStep_of_exec {i : Instr} {s t : State} (h : exec i s = .next t) : FuseStep i s.boot t.boot := by
  by_cases hflash : ∃ c, i = .devFlashWrite c
  · obtain ⟨c, rfl⟩ := hflash
    rcases boot_of_serveAct h with hboot | ⟨x, hbody, hboot⟩
    · exact .of_eq hboot
    · obtain ⟨slot, off, bs, hslot, hother, hfits, hx⟩ := devFlashWrite_writes hbody
      rw [readCall_boot] at hother hx
      exact .flash c rfl slot off bs hslot hother hfits (hboot.trans hx)
  by_cases hsvn : ∃ c, i = .devSvnAdvance c
  · obtain ⟨c, rfl⟩ := hsvn
    rcases boot_of_serveAct h with hboot | ⟨x, hbody, hboot⟩
    · exact .of_eq hboot
    · have hx := devSvnAdvance_raises hbody
      rw [readCall_boot] at hx
      rcases hx with hx | ⟨n, hlow, hx⟩
      · exact .of_eq (hboot.trans hx)
      · exact .svn c rfl n hlow (hboot.trans hx)
  by_cases hkey : ∃ c, i = .ownerKeyFuse c
  · obtain ⟨c, rfl⟩ := hkey
    have hexec : execOwnerKeyFuse c s = .next t := h
    rcases boot_of_serve hexec with hboot | hboot
    · exact .of_eq hboot
    · have hboot := hboot.trans (respond_boot _ _ _ _ _)
      have hx := ownerKeyFuse_binds c.words (readCall ownerKeyFuseSpec.code c s)
      rw [readCall_boot] at hx
      rcases hx with hx | ⟨hfree, st, hash, hx⟩
      · exact .of_eq (hboot.trans hx)
      · exact .owner c rfl hfree st hash (hboot.trans hx)
  exact .of_kept ((exec_kept i s (not_exists.mp hflash) (not_exists.mp hsvn) (not_exists.mp hkey)).next h)

/-- A step is its front command's, or the reference's tick, which writes nothing. -/
theorem fuseStep_of_step {s t : State} (h : step s = .next t) : ∃ i, FuseStep i s.boot t.boot := by
  cases hp : s.pending with
  | nil =>
    cases (step_of_idle hp).symm.trans h
    exact ⟨.jtagTestReset, .of_kept (tick_kept s)⟩
  | cons c rest =>
    have hstep := fuseStep_of_exec ((step_of_waiting hp).symm.trans h)
    exact ⟨c, hstep⟩

/-! ### The flash -/

/-- Bytes within a slot are within the flash. -/
theorem slot_end_le {slot off n : Nat} (hslot : slot < 2) (hfits : off + n ≤ slotSize) : slotSize * slot + off + n ≤ 2 * slotSize := by
  have hbase : slotSize * slot ≤ slotSize * 1 := Nat.mul_le_mul_left _ (Nat.le_of_lt_succ hslot)
  omega

/-- A write within a slot keeps the canonical form. -/
theorem slotWritten_wf {slot off : Nat} {bs : List Byte} {b : Boot} (hslot : slot < 2) (hfits : off + bs.length ≤ slotSize)
    (h : Memory.wf b.flash = true) : Memory.wf (slotWritten slot off bs b).flash = true :=
  flashWrite_wf _ _ _ h (slot_end_le hslot hfits)

/-- A write within a slot leaves every byte of the other. -/
theorem slotWritten_other {slot off a : Nat} {bs : List Byte} {b : Boot} (hfits : off + bs.length ≤ slotSize) (hother : a / slotSize ≠ slot) :
    kgetD (slotWritten slot off bs b).flash a 0xFF = kgetD b.flash a 0xFF := by
  refine flashWrite_other _ _ _ _ ?_
  have hpos : 0 < slotSize := Nat.two_pow_pos _
  by_contra hin
  refine hother (Nat.div_eq_of_lt_le ?_ ?_)
  · rw [Nat.mul_comm]
    omega
  · rw [Nat.succ_mul, Nat.mul_comm slot]
    omega

/-- Settles O57: the one command that writes the flash writes within a slot. -/
theorem flashKeepsItsForm : Obligations.FlashKeepsItsForm := by
  unfold Obligations.FlashKeepsItsForm
  intro s t hwf h
  obtain ⟨i, hstep⟩ := fuseStep_of_step h
  cases hstep with
  | same _ _ _ hflash =>
    rw [hflash]
    exact hwf
  | flash c hi slot off bs hslot hother hfits ht =>
    rw [ht]
    exact slotWritten_wf hslot hfits hwf
  | svn c hi n hlow ht =>
    rw [ht]
    exact hwf
  | owner c hi hfree st hash ht =>
    rw [ht]
    exact hwf

/-- Settles O58: each write is its own call's, and a flash write stays out of the slot that the device runs from. -/
theorem onlyTheirCallsReachFlashAndFuses : Obligations.OnlyTheirCallsReachFlashAndFuses := by
  unfold Obligations.OnlyTheirCallsReachFlashAndFuses
  intro i s t h
  cases fuseStep_of_exec h with
  | same hsvn hhash hstate hflash =>
    rw [hflash]
    exact ⟨fun _ _ => rfl, fun _ _ => rfl, fun _ => hsvn, fun _ => ⟨hhash, hstate⟩⟩
  | flash c hi slot off bs hslot hother hfits ht =>
    rw [ht]
    exact ⟨fun hnot => absurd hi (hnot c), fun a ha => slotWritten_other hfits (ha ▸ hother.symm), fun _ => rfl, fun _ => ⟨rfl, rfl⟩⟩
  | svn c hi n hlow ht =>
    rw [ht]
    exact ⟨fun _ _ => rfl, fun _ _ => rfl, fun hnot => absurd hi (hnot c), fun _ => ⟨rfl, rfl⟩⟩
  | owner c hi hfree st hash ht =>
    rw [ht]
    exact ⟨fun _ _ => rfl, fun _ _ => rfl, fun _ => rfl, fun hnot => absurd hi (hnot c)⟩

/-- Settles O59: the version is written upward, and the owner key only while none is bound. -/
theorem fusesNeverGoBack : Obligations.FusesNeverGoBack := by
  unfold Obligations.FusesNeverGoBack
  intro s t h
  obtain ⟨i, hstep⟩ := fuseStep_of_step h
  cases hstep with
  | same hsvn hhash hstate _ => exact ⟨hsvn.ge, fun _ => ⟨hstate, hhash⟩⟩
  | flash c hi slot off bs hslot hother hfits ht =>
    rw [ht]
    exact ⟨le_rfl, fun _ => ⟨rfl, rfl⟩⟩
  | svn c hi n hlow ht =>
    rw [ht]
    exact ⟨hlow.le, fun _ => ⟨rfl, rfl⟩⟩
  | owner c hi hfree st hash ht =>
    rw [ht]
    exact ⟨le_rfl, fun hbound => absurd hfree hbound⟩

end Sys2Proof.Machine

/-! PROOFS. Reset, its release and the order of the slots (R107, R109, R112, R113): what each check of the boot ROM and the bootloader does
in its stage, and how a slot fails. -/

namespace Sys2Proof.Machine

/-! ### The release (R107, R109, R114) -/

section
variable {role boot smb : Nat} {s : State}

/-- The slot tried first: the ONCE choice, then the lasting one, then the strap. -/
theorem firstSlot_eq (b : Boot) : firstSlot b = match b.choiceOnce, b.choiceSlot with
    | some x, _ => x | none, some x => x | none, none => b.strapBoot := by
  unfold firstSlot
  cases b.choiceOnce <;> cases b.choiceSlot <;> rfl

theorem resetRelease_starts (h : s.boot.released = false) : resetRelease role boot smb s = bootStart role boot smb s :=
  if_neg (by simp [h])

theorem resetRelease_done (h : s.boot.released = true) : resetRelease role boot smb s = s := if_pos h

end

/-! ### A slot fails (R112, R113) -/

section
variable (slot cause : Nat) (s : State)

/-- The result of the slot that is tried where this one fails. -/
def otherResult (b : Boot) (slot : Nat) : Nat := if slot = 0 then b.resultB else b.resultA

theorem otherResult_setResult (b : Boot) : otherResult (setResult slot cause b) slot = otherResult b slot := by
  unfold otherResult setResult
  split <;> rfl

theorem setResult_own (b : Boot) : (if slot = 0 then (setResult slot cause b).resultA else (setResult slot cause b).resultB) = cause := by
  unfold setResult
  split <;> rfl

@[simp] theorem setResult_meas (b : Boot) : (setResult slot cause b).meas = b.meas := by
  unfold setResult
  split <;> rfl

theorem slotFailed_eq : slotFailed slot cause s = if otherResult s.boot slot = 0
    then { s with boot := { setResult slot cause s.boot with stage := 0, trying := some (1 - slot) } }
    else emit .spiReleased { s with boot := { setResult slot cause s.boot with stage := 0xF, trying := none } } := by
  rw [← otherResult_setResult slot cause]
  rfl

end

/-! ### The images are read from the flash (R111) -/

section
variable {s t : State} (h : t.boot.flash = s.boot.flash)
include h

theorem flashBytes_congr : flashBytes t = flashBytes s := by
  unfold flashBytes flashByte
  rw [h]

theorem slotSvn_congr : slotSvn t = slotSvn s := by
  unfold slotSvn hdr
  rw [flashBytes_congr h]

theorem vendorWords_congr : vendorWords t = vendorWords s := by
  unfold vendorWords image hdr
  rw [flashBytes_congr h]

end

/-! ### The checks -/

/-- Saend and the vendor bank of a slot are measured. -/
def saendMeasured (slot : Nat) (s : State) : State := extendMeas 2 (digestOf s slot 2) (extendMeas 1 (digestOf s slot 1) s)

/-- The boot state with which a measured slot starts Saend. -/
def saendBoot (slot svn : Nat) (b : Boot) : Boot := { setResult slot 1 b with stage := 2, trying := none, slot := slot, svnRunning := svn }

/-- A slot whose images are good: Saend starts from it, with its vendor bank at hand (R108, R112). -/
def saendStarted (slot : Nat) (s : State) : State :=
  { s with
    boot := saendBoot slot (slotSvn s slot) (saendMeasured slot s).boot
    pon := { s.pon with vendorBank := vendorWords s slot } }

section
variable {s : State}

theorem romDone_idle (e : Bool) (h : s.boot.stage ≠ 0 ∨ s.boot.trying = none) : romDone e s = s := by
  unfold romDone
  split
  · next hstage htrying => exact absurd hstage (h.resolve_right (by simp [htrying]))
  · rfl

theorem loaderDone_idle (e : Bool) (h : s.boot.stage ≠ 1 ∨ s.boot.trying = none) : loaderDone e s = s := by
  unfold loaderDone
  split
  · next hstage htrying => exact absurd hstage (h.resolve_right (by simp [htrying]))
  · rfl

variable {slot : Nat} (htry : s.boot.trying = some slot)
include htry

/-- What the boot ROM does with a slot: it fails with its first cause, or its bootloader is measured and runs. -/
theorem romDone_checks (e : Bool) (hstage : s.boot.stage = 0) : romDone e s =
    if romCheck s slot e ≠ 0 then slotFailed slot (romCheck s slot e) s
    else let t := extendMeas 0 (digestOf s slot 0) s; { t with boot := { t.boot with stage := 1 } } := by
  unfold romDone
  rw [hstage, htry] <;> rfl

theorem romDone_readError (hstage : s.boot.stage = 0) : romDone true s = slotFailed slot 6 s := romDone_checks htry true hstage

/-- The causes in the order in which the boot ROM looks for them. -/
theorem romDone_read (hstage : s.boot.stage = 0) : romDone false s = if headerOk s slot = false then slotFailed slot 2 s
    else if slotSigned s slot = false then slotFailed slot 3 s
    else if slotSvn s slot < s.boot.svnMin then slotFailed slot 4 s
    else if imageGood s slot 0 = false then slotFailed slot 5 s
    else let t := extendMeas 0 (digestOf s slot 0) s; { t with boot := { t.boot with stage := 1 } } := by
  rw [romDone_checks htry false hstage]
  unfold romCheck
  cases headerOk s slot
  · rfl
  cases slotSigned s slot
  · rfl
  by_cases hsvn : slotSvn s slot < s.boot.svnMin
  · simp [hsvn]
  cases imageGood s slot 0 <;> simp [hsvn]

/-- What the bootloader does with a slot: it fails, or Saend starts from it. -/
theorem loaderDone_checks (e : Bool) (hstage : s.boot.stage = 1) : loaderDone e s = if e then slotFailed slot 6 s
    else if !imageGood s slot 1 || !imageGood s slot 2 then slotFailed slot 5 s else saendStarted slot s := by
  have hsvn : slotSvn (saendMeasured slot s) = slotSvn s := slotSvn_congr rfl
  have hbank : vendorWords (setBoot (saendBoot slot (slotSvn (saendMeasured slot s) slot) (saendMeasured slot s).boot) (saendMeasured slot s)) =
    vendorWords s := vendorWords_congr (setResult_flash _ _ _)
  unfold saendStarted
  rw [← hbank, ← hsvn]
  unfold loaderDone
  rw [hstage, htry] <;> rfl

theorem loaderDone_readError (hstage : s.boot.stage = 1) : loaderDone true s = slotFailed slot 6 s := loaderDone_checks htry true hstage

theorem loaderDone_read (hstage : s.boot.stage = 1) : loaderDone false s =
    if imageGood s slot 1 = true ∧ imageGood s slot 2 = true then saendStarted slot s else slotFailed slot 5 s := by
  rw [loaderDone_checks htry false hstage]
  cases imageGood s slot 1 <;> cases imageGood s slot 2 <;> rfl

end

/-- Settles O19: the release, each check in its stage, and the failure of a slot, case by case. -/
theorem bootTriesSlotsInOrder : Obligations.BootTriesSlotsInOrder := by
  unfold Obligations.BootTriesSlotsInOrder
  intro s
  refine ⟨rfl, fun role boot smb h => ?release, fun role boot smb h => congrArg Host.Outcome.next (resetRelease_done h),
    fun e => ⟨fun h => congrArg Host.Outcome.next (romDone_idle e h), fun h => congrArg Host.Outcome.next (loaderDone_idle e h)⟩,
    fun slot hstage htry => ⟨congrArg Host.Outcome.next (romDone_read htry hstage), congrArg Host.Outcome.next (romDone_readError htry hstage)⟩,
    fun slot hstage htry => ⟨⟨loaderDone false s, rfl, ?loader⟩, congrArg Host.Outcome.next (loaderDone_readError htry hstage)⟩,
    fun slot cause => slotFailed_eq slot cause s⟩
  case release =>
    refine congrArg Host.Outcome.next ((resetRelease_starts h).trans ?_)
    unfold bootStart
    dsimp only
    rw [firstSlot_eq] <;> rfl
  case loader =>
    rw [loaderDone_read htry hstage]
    by_cases hgood : imageGood s slot 1 = true ∧ imageGood s slot 2 = true
    · rw [if_pos hgood, if_pos hgood]
      exact ⟨rfl, rfl, rfl, rfl, setResult_own slot 1 _, setResult_flash slot 1 _, rfl, setResult_meas slot 1 _, rfl⟩
    · rw [if_neg hgood, if_neg hgood]

end Sys2Proof.Machine

/-! PROOFS. Saend comes up and restarts, and the device reset (R108, R110, R112, R413): the events of the boot, what a restart leaves of the
channels, and what a device reset keeps. -/

namespace Sys2Proof.Machine

/-! ### What setting the boot state, raising an event and loading the vendor bank leave -/

theorem raise_ciph (src : Nat) (own : List Nat) (ws : List Word) (s : State) : (raise src own ws s).ciph = s.ciph := by
  obtain ⟨_, _, _, _, _, _, _, _, hciph, _⟩ := others_parts (others_raise src own ws s)
  exact hciph

theorem spanOf_modSpan (sp : Nat) (f : Span → Span) (s : State) : spanOf (modSpan sp f s) sp = f (spanOf s sp) := spanOf_setSpan _ _ _

theorem spanOf_modSpan_other {sp k : Nat} (f : Span → Span) (s : State) (h : k ≠ sp) : spanOf (modSpan sp f s) k = spanOf s k :=
  spanOf_setSpan_other _ _ _ _ h

theorem store_loadVendor (sp : Nat) (s : State) : (spanOf (loadVendor sp s) sp).truss.store = s.pon.vendorBank := by
  unfold loadVendor loadPages
  rw [spanOf_modSpan, spanOf_modSpan]

theorem spanOf_loadVendor_other {sp k : Nat} (s : State) (h : k ≠ sp) : spanOf (loadVendor sp s) k = spanOf s k :=
  (spanOf_modSpan_other _ _ h).trans (spanOf_modSpan_other _ _ h)

/-- Every Truss with its vendor bank. -/
def trussesLoaded (s : State) : State := forEach (List.range 32) loadVendor s

theorem boot_trussesLoaded (s : State) : (trussesLoaded s).boot = s.boot := by
  unfold trussesLoaded
  exact forEach_view State.boot (fun sp _ s => (rfl : (loadVendor sp s).boot = s.boot)) s

theorem ciph_trussesLoaded (s : State) : (trussesLoaded s).ciph = s.ciph := by
  unfold trussesLoaded
  exact forEach_view State.ciph (fun sp _ s => (rfl : (loadVendor sp s).ciph = s.ciph)) s

/-! ### Saend comes up (R110, R112, R413) -/

section
variable {s : State}

theorem saendReady_idle (h : s.boot.ready = true ∨ s.boot.restarting = true ∨ s.boot.stage ≠ 2) : saendReady s = s := by
  refine if_pos ?_
  rcases h with h | h | h <;> simp [h]

/-- Saend runs, with every Truss loaded. -/
def saendUp (s : State) : State :=
  let u := trussesLoaded s
  { u with boot := { u.boot with ready := true, stage := 3, trying := none } }

/-- The events of the boot are raised. -/
def bootTold (s : State) : State :=
  let s := if s.boot.strapRole = 3 then raise 992 [] [3] s else s
  if 2 ≤ otherResult s.boot s.boot.slot then raise 993 [] [bootStatus s.boot] s else s

/-- Slice 0 has its XTS key. -/
def keyed (s : State) : State := if (kget s.ciph.xts 0).isNone then drawXts 0 s else s

theorem boot_saendUp : (saendUp s).boot = { s.boot with ready := true, stage := 3, trying := none } := by
  unfold saendUp
  dsimp only
  rw [boot_trussesLoaded]

theorem ciph_saendUp : (saendUp s).ciph = s.ciph := by
  unfold saendUp
  dsimp only
  exact ciph_trussesLoaded s

theorem ciph_bootTold : (bootTold s).ciph = s.ciph := by
  unfold bootTold
  dsimp only
  split <;> split <;> simp only [raise_ciph]

theorem saendReady_up (hready : s.boot.ready = false) (hrestart : s.boot.restarting = false) (hstage : s.boot.stage = 2) :
    saendReady s = drawWrap (keyed (bootTold (saendUp s))) := by
  unfold saendReady saendUp trussesLoaded
  rw [if_neg (by simp [hready, hrestart, hstage])]
  generalize forEach (List.range 32) loadVendor s = u
  rfl

theorem keyed_bootTold_saendUp (h : kget s.ciph.xts 0 ≠ none) : keyed (bootTold (saendUp s)) = bootTold (saendUp s) := by
  refine if_neg ?_
  rw [ciph_bootTold, ciph_saendUp, Option.isNone_iff_eq_none]
  exact h

theorem keyed_saendUp : keyed (saendUp s) = if kget s.ciph.xts 0 = none then drawXts 0 (saendUp s) else saendUp s := by
  unfold keyed
  simp only [ciph_saendUp, Option.isNone_iff_eq_none]

theorem otherResult_saendUp : otherResult (saendUp s).boot (saendUp s).boot.slot = otherResult s.boot s.boot.slot := by
  rw [boot_saendUp]
  rfl

theorem bootTold_quiet (hrole : s.boot.strapRole ≠ 3) (hother : otherResult s.boot s.boot.slot ≤ 1) : bootTold (saendUp s) = saendUp s := by
  have hother : ¬ 2 ≤ otherResult s.boot s.boot.slot := Nat.not_le.mpr (Nat.lt_succ_of_le hother)
  have hrole : (saendUp s).boot.strapRole ≠ 3 := by rwa [boot_saendUp]
  simp [bootTold, hrole, otherResult_saendUp, hother]

theorem bootTold_badRole (hrole : s.boot.strapRole = 3) (hother : otherResult s.boot s.boot.slot ≤ 1) :
    bootTold (saendUp s) = raise 992 [] [3] (saendUp s) := by
  have hother : ¬ 2 ≤ otherResult s.boot s.boot.slot := Nat.not_le.mpr (Nat.lt_succ_of_le hother)
  have hrole : (saendUp s).boot.strapRole = 3 := by rwa [boot_saendUp]
  simp [bootTold, hrole, otherResult_saendUp, hother]

theorem bootTold_failedSlot (hrole : s.boot.strapRole ≠ 3) (hother : 2 ≤ otherResult s.boot s.boot.slot) :
    bootTold (saendUp s) = raise 993 [] [bootStatus (saendUp s).boot] (saendUp s) := by
  have hrole : (saendUp s).boot.strapRole ≠ 3 := by rwa [boot_saendUp]
  simp [bootTold, hrole, otherResult_saendUp, hother]

end

/-! ### The watchdog (R108) -/

/-- A channel when Saend restarts: its queues are empty, its session is closed and no call of it waits; its routes stay. -/
def Channel.dropped (c : Channel) : Channel := { c.emptied with backlog := [], session := none, waiting := [], report := none }

def restartTurn (ch : Nat) (s : State) : State := setChanRoom ch (chanOf s ch) (chanOf s ch).dropped s

section
variable {s : State}

/-- The event messages that a restart loses. -/
def eventsLost (s : State) : Nat := ((List.range 19).map fun ch => eventsQueued (chanOf s ch)).sum

def saendStopped (s : State) : State := setBoot { s.boot with ready := false, restarting := true, lostEvents := eventsLost s } s

/-- Saend is stopped, and every channel dropped. -/
def channelsDropped (s : State) : State := forEach (List.range 19) restartTurn (saendStopped s)

/-- What a restart does once the channels are dropped: open transactions go, and the PLOAM messages of Saend. -/
def saendWorkDropped (t : State) : State :=
  { setTxns (t.ctl.txns.filter fun x => x.phase ≠ .opened) t with
    pon := { t.pon with piers := kmap t.pon.piers fun _ x => { x with ploam := x.ploam.filter fun m => m.origin ≠ 3 } } }

theorem restartBegin_running (h : s.boot.ready = true) : restartBegin s = saendWorkDropped (channelsDropped s) := by
  unfold restartBegin channelsDropped saendStopped eventsLost restartTurn
  rw [if_neg (by simp [h])]
  dsimp only [Channel.dropped]
  generalize forEach (List.range 19) _ _ = u
  rfl

theorem restartBegin_idle (h : s.boot.ready = false) : restartBegin s = s := if_pos (by simp [h])

theorem others_channelsDropped : others (channelsDropped s) = others (saendStopped s) :=
  others_forEach _ _ _ fun _ _ => others_setChanRoom _ _ _ _

theorem txns_channelsDropped : (channelsDropped s).ctl.txns = s.ctl.txns := by
  have hturns : ctlRest (channelsDropped s) = ctlRest (saendStopped s) := by
    unfold channelsDropped
    exact forEach_view ctlRest (fun ch _ s => ctlRest_setChanRoom ch s _ _) _
  exact (ctlRest_parts hturns).1

theorem chanOf_channelsDropped {ch : Nat} (h : ch < 19) : chanOf (channelsDropped s) ch = (chanOf s ch).dropped := by
  obtain ⟨before, hend, hbefore⟩ := forEach_turn (f := restartTurn) (fun u => chanOf u ch) List.nodup_range (List.mem_range.mpr h)
    (fun a ha s => chanOf_setChanRoom_other a _ _ s ch (Ne.symm ha)) (saendStopped s)
  rw [channelsDropped, hend, restartTurn, chanOf_setChanRoom, hbefore]
  rfl

end

/-! ### Nothing to end or to reset -/

theorem restartEnd_idle {s : State} (h : s.boot.restarting = false) : restartEnd s = s := if_pos (by simp [h])

theorem deviceReset_idle {s : State} {role boot smb : Nat} (h : s.boot.resetAsked = false) : deviceReset role boot smb s = s := if_pos (by simp [h])

/-- Settles O21: Saend's start by the events it tells, the watchdog by what it drops, and the device reset by what it keeps. -/
theorem saendStartsAndRestarts : Obligations.SaendStartsAndRestarts := by
  unfold Obligations.SaendStartsAndRestarts
  intro s
  refine ⟨fun h => congrArg Host.Outcome.next (saendReady_idle h), fun hready hrestart hstage => ?up,
    fun sp => ⟨store_loadVendor sp s, fun k h => spanOf_loadVendor_other s h⟩, fun h => ⟨restartBegin s, rfl, ?watchdog⟩,
    fun h => congrArg Host.Outcome.next (restartBegin_idle h), fun h => congrArg Host.Outcome.next (restartEnd_idle h),
    fun h => congrArg Host.Outcome.next (if_neg (by simp [h])), fun role boot smb h => ⟨deviceReset role boot smb s, rfl, ?reset⟩,
    fun role boot smb h => congrArg Host.Outcome.next (deviceReset_idle h)⟩
  case up =>
    intro u t other
    have hexec : exec .saendReady s = .next _ := congrArg Host.Outcome.next (saendReady_up hready hrestart hstage)
    refine ⟨fun hrole hother => hexec.trans ?_, fun hrole hother hkey => hexec.trans ?_, fun hrole hother hkey => hexec.trans ?_⟩
    · rw [bootTold_quiet hrole hother, keyed_saendUp]
      rfl
    · rw [keyed_bootTold_saendUp hkey, bootTold_badRole hrole hother]
      rfl
    · rw [keyed_bootTold_saendUp hkey, bootTold_failedSlot hrole hother]
      rfl
  case watchdog =>
    rw [restartBegin_running h]
    have hothers := others_channelsDropped (s := s)
    have htxns := txns_channelsDropped (s := s)
    have hchans := fun ch => chanOf_channelsDropped (s := s) (ch := ch)
    generalize channelsDropped s = u at hothers htxns hchans ⊢
    obtain ⟨-, hboot, -, -, hpon, -⟩ := others_parts hothers
    have hlost : u.boot.lostEvents = eventsLost s := by
      rw [hboot]
      rfl
    refine ⟨congrArg Boot.ready hboot, congrArg Boot.restarting hboot, hlost, hchans,
      congrArg (List.filter _) htxns, congrArg (fun p : Pon => kmap p.piers _) hpon, ?_⟩
    exact congrArg (fun u : State => { u with boot := s.boot, ctl := s.ctl, pon := s.pon, out := s.out }) hothers
  case reset =>
    have hreset : deviceReset role boot smb s = _ := if_neg (by simp [h])
    rw [hreset]
    exact ⟨rfl, rfl, rfl, rfl, rfl, rfl, rfl, rfl, rfl, rfl, rfl, rfl, rfl⟩

end Sys2Proof.Machine

/-! PROOFS. The calls of the device, the flash and the fuses (R114, R115, R117 to R120, R133): what the body of each gives. -/

namespace Sys2Proof.Machine

/-! ### Bytes from a host and into the flash -/

theorem length_toLe (n x : Nat) : (toLe n x).length = n := by
  induction n generalizing x with
  | zero => rfl
  | succ n ih => simp [toLe, ih]

theorem length_bytesOfWords (ws : List Word) : (bytesOfWords ws).length = 4 * ws.length := by
  simp [bytesOfWords, List.length_flatMap, length_toLe, Nat.mul_comm]

/-- A host's memory gives as many bytes as are asked for. -/
theorem length_hostBytes (fn addr n : Nat) (s : State) : (hostBytes fn addr n s).length = n := by
  simp only [hostBytes, List.length_take, length_bytesOfWords, List.length_map, List.length_range]
  omega

/-- Bytes written read as written. -/
theorem flashWrite_same {m : KMap Byte} {a i : Nat} {bs : List Byte} (hwf : Memory.wf m = true) (hend : a + bs.length ≤ 2 * slotSize)
    (hi : i < bs.length) : kgetD (flashWrite m a bs) (a + i) 0xFF = bs.getD i 0xFF := by
  induction bs generalizing m a i with
  | nil => exact absurd hi (Nat.not_lt_zero i)
  | cons b t ih =>
    simp only [List.length_cons] at hend hi
    have hput : Memory.wf (flashPut m a b) = true := flashPut_wf m a b hwf (by omega)
    show kgetD (flashWrite (flashPut m a b) (a + 1) t) (a + i) 0xFF = _
    cases i with
    | zero => exact (flashWrite_other _ _ _ _ (.inl (Nat.lt_succ_self a))).trans (flashPut_same m a b hwf)
    | succ i =>
      have hrest := ih (a := a + 1) (i := i) hput (by omega) (by omega)
      rw [Nat.add_right_comm] at hrest
      exact hrest

/-- Bytes written within a slot read as written. -/
theorem slotWritten_same {slot off i : Nat} {bs : List Byte} {b : Boot} (hslot : slot < 2) (hwf : Memory.wf b.flash = true)
    (hfits : off + bs.length ≤ slotSize) (hi : i < bs.length) :
    kgetD (slotWritten slot off bs b).flash (slotSize * slot + off + i) 0xFF = bs.getD i 0xFF :=
  flashWrite_same hwf (slot_end_le hslot hfits) hi

/-! ### The reports (R118, R119) -/

section
variable {ch : Nat} {ws : List Word} {s : State}

theorem noDma_allowed {addr : Nat} (h : ch < 16 ∨ addr = 0) : noDma ch addr = .ok () := by
  have hmay : (decide (ch < 16) || decide (addr = 0)) = true := by simpa using h
  rw [noDma, hmay, need_true]

theorem devAttest_reports (h : ch < 16 ∨ wide ws 8 2 = 0) : devAttest ch ws s = let body := reportBody ch (ws.take 8) s
    .ok (handOut ch (wide ws 8 2) (body ++ p384.sign Config.identityKey (Config.freeNat s.free) (sha384 body)) (drawn s), [wd 400]) := by
  unfold devAttest
  dsimp only
  rw [noDma_allowed h]
  rfl

theorem devCertRead_fits (h : ch < 16 ∨ wide ws 0 2 = 0) (hroom : wide ws 0 2 = 0 ∨ Config.certChain.length ≤ fld (pw ws 2) 15 0) :
    devCertRead ch ws s = .ok (handOut ch (wide ws 0 2) Config.certChain s, [wd Config.certChain.length &&& 0xFFFF]) := by
  have hfits : (decide (wide ws 0 2 = 0) || decide (Config.certChain.length ≤ fld (pw ws 2) 15 0)) = true := by simpa using hroom
  unfold devCertRead
  dsimp only
  rw [noDma_allowed h, hfits]
  rfl

theorem devReportRead_held {bs : List Byte} (h : (chanOf s ch).report = some bs) :
    devReportRead ch ws s = .ok (((wordsOfBytes bs).drop (fld (pw ws 0) 13 0)).take 14) := by
  unfold devReportRead
  rw [h]

/-! ### The flash and the boot choice (R114) -/

/-- A flash write within the other slot writes the host's bytes. -/
theorem devFlashWrite_fits (hlen : fld (pw ws 2) 24 0 % 4096 = 0) (hoff : fld (pw ws 3) 24 0 % 4096 = 0)
    (hend : fld (pw ws 3) 24 0 + fld (pw ws 2) 24 0 ≤ slotSize) (hslot : fld (pw ws 4) 0 0 ≠ s.boot.slot) : devFlashWrite ch ws s =
      .ok (drawn (setBoot (slotWritten (fld (pw ws 4) 0 0) (fld (pw ws 3) 24 0)
        (hostBytes ch (wide ws 0 2) (fld (pw ws 2) 24 0) s) s.boot) s), []) := by
  unfold devFlashWrite
  dsimp only
  rw [decide_eq_true hlen, decide_eq_true hoff, decide_eq_true hend, decide_eq_true hslot]
  rfl

/-- A slot that could be booted. -/
def slotBootable (s : State) (slot : Nat) : Bool :=
  headerOk s slot && slotSigned s slot && imageGood s slot 0 && imageGood s slot 1 && imageGood s slot 2

/-- The boot choice that the word of the call makes. -/
def slotChosen (w : Word) (b : Boot) : Boot :=
  if bit w 1 then { b with choiceOnce := some (fld w 0 0) } else { b with choiceSlot := some (fld w 0 0), choiceOnce := none }

theorem devSlotSet_eq : devSlotSet ws s = need (slotBootable s (fld (pw ws 0) 0 0)) .signature >>= fun _ =>
    .ok (setBoot (slotChosen (pw ws 0) s.boot) s, []) := rfl

theorem devSlotSet_chosen (h : slotBootable s (fld (pw ws 0) 0 0) = true) : devSlotSet ws s = .ok (setBoot (slotChosen (pw ws 0) s.boot) s, []) := by
  rw [devSlotSet_eq, h]
  rfl

theorem devSlotSet_refused (h : slotBootable s (fld (pw ws 0) 0 0) = false) : devSlotSet ws s = .error .signature := by
  rw [devSlotSet_eq, h]
  rfl

/-! ### The reset (R133) -/

/-- The Spans that the device is active for and a mate follows. -/
def syncedHere (s : State) : List Nat := (activeSpans s).filter s.red.pair.sync.contains

theorem devReset_alone (hword : pw ws 0 = 0x52535444) (h : syncedHere s = []) :
    devReset ws s = .ok (setBoot { s.boot with resetAsked := true } s, []) := by
  unfold syncedHere at h
  unfold devReset
  dsimp only
  rw [decide_eq_true hword, h, if_pos rfl]
  rfl

theorem devReset_released (hword : pw ws 0 = 0x52535444) (h : syncedHere s ≠ []) :
    devReset ws s = .ok (let t := releaseSynced 3 (syncedHere s) s; setBoot { t.boot with resetAsked := true } t, []) := by
  unfold syncedHere at *
  unfold devReset
  dsimp only
  rw [decide_eq_true hword, if_neg h]
  rfl

/-! ### The fuses (R115, R120) -/

theorem devSvnAdvance_enough (hroom : s.boot.svnMin < 64) (h : min 64 s.boot.svnRunning ≤ s.boot.svnMin) : devSvnAdvance s = .ok (s, []) := by
  unfold devSvnAdvance
  dsimp only
  rw [decide_eq_true hroom, if_pos h]
  rfl

theorem devSvnAdvance_fused (hroom : s.boot.svnMin < 64) (h : s.boot.svnMin < min 64 s.boot.svnRunning) : devSvnAdvance s =
    .ok (raise 997 [] [wd (min 64 s.boot.svnRunning)] (setBoot { s.boot with svnMin := min 64 s.boot.svnRunning } s), []) := by
  unfold devSvnAdvance
  dsimp only
  rw [decide_eq_true hroom, if_neg (Nat.not_le.mpr h)]
  rfl

theorem ownerKeyFuse_badArg (h : pw ws 8 ≠ 0x4B455946) : ownerKeyFuse ws s = (s, .badArg) := if_pos h

variable (hword : pw ws 8 = 0x4B455946)
include hword

theorem ownerKeyFuse_bound (h : s.boot.ownerState ≠ 0) : ownerKeyFuse ws s = (s, .badState) :=
  (if_neg (not_not.mpr hword)).trans (if_pos h)

variable (hfree : s.boot.ownerState = 0)
include hfree

/-- The read-back agrees, and the key is bound. -/
theorem ownerKeyFuse_fused (h : Config.freeBool s.free = true) : ownerKeyFuse ws s =
    (raise 996 [] [0] (setBoot { s.boot with ownerState := 1, ownerHash := bytesOfWords (ws.take 8) } (drawn s)), .done) := by
  unfold ownerKeyFuse
  dsimp only
  rw [if_neg (not_not.mpr hword), if_neg (not_not.mpr hfree), if_pos h]
  rfl

/-- The read-back differs: some hash stands in the fuses, which no key is bound to. -/
theorem ownerKeyFuse_differs (h : ¬ Config.freeBool s.free = true) :
    ∃ hash, (ownerKeyFuse ws s).1.boot = { s.boot with ownerState := 2, ownerHash := hash } := by
  unfold ownerKeyFuse
  dsimp only
  rw [if_neg (not_not.mpr hword), if_neg (not_not.mpr hfree), if_neg h]
  exact ⟨_, raise_boot _ _ _ _⟩

end

theorem exec_ownerKeyFuse {c : Call} {s : State} (h : Served ownerKeyFuseSpec c s) : exec (.ownerKeyFuse c) s =
    .next (let r := ownerKeyFuse c.words (readCall 0x0120 c s); respond 0x0120 c r.2 [] r.1) :=
  show execOwnerKeyFuse c s = _ by
    rw [execOwnerKeyFuse, serve_served h]
    rfl

/-- Settles O22: each call answers what its body gives. -/
theorem deviceCallsAnswer : Obligations.DeviceCallsAnswer := by
  unfold Obligations.DeviceCallsAnswer
  refine ⟨fun c s => ⟨fun hserved => serveRead_done hserved (fun u => .ok (devInfo u)) rfl,
    fun hserved hdma => serveAct_done hserved _ (devAttest_reports hdma),
    fun hserved hdma hroom => serveAct_done hserved _ (devCertRead_fits hdma hroom),
    fun bs hserved hheld => serveRead_done hserved _ (devReportRead_held hheld), ?flash, ?slot, ?reset, ?release⟩,
    fun c s => ⟨fun hserved => ?svn, fun hserved => ?owner⟩⟩
  case flash =>
    intro hserved u len off slot hlen hoff hend hslot hwf
    refine ⟨_, serveAct_done hserved _ (devFlashWrite_fits hlen hoff hend hslot), fun i hi => slotWritten_same (fld_lt _ _ _) hwf ?_ ?_,
      fun a ha => flashWrite_other _ _ _ _ ?_⟩
    all_goals rw [length_hostBytes]
    · exact hend
    · exact hi
    · exact ha
  case slot =>
    intro hserved u slot
    by_cases h : slotBootable u slot = true
    · exact (serveAct_done hserved _ (devSlotSet_chosen h)).trans (congrArg _ (if_pos h).symm)
    · exact (serveAct_refused hserved _ (devSlotSet_refused (Bool.eq_false_iff.mpr h))).trans (congrArg _ (if_neg h).symm)
  case reset =>
    intro hserved u hword halone
    have hnone : syncedHere u = [] := List.filter_eq_nil_iff.mpr fun sp hsp => Bool.eq_false_iff.mp (halone sp hsp)
    exact serveAct_done hserved _ (devReset_alone hword hnone)
  case release => exact fun hserved hword h => serveAct_done hserved _ (devReset_released hword h)
  case svn =>
    exact fun hroom => ⟨fun h => serveAct_done hserved _ (devSvnAdvance_enough hroom h),
      fun h => serveAct_done hserved _ (devSvnAdvance_fused hroom h)⟩
  case owner =>
    intro u
    have hexec := exec_ownerKeyFuse hserved
    refine ⟨fun hword hfree => ⟨_, hexec, ?_⟩, fun hword hbound => ?_, fun hword => ?_⟩
    · by_cases hgood : Config.freeBool u.free = true
      · rw [if_pos hgood, ownerKeyFuse_fused hword hfree hgood]
        rfl
      · obtain ⟨hash, hboot⟩ := ownerKeyFuse_differs hword hfree hgood
        rw [if_neg hgood]
        dsimp only
        rw [respond_boot, hboot]
        exact ⟨rfl, congrArg (fun n => { u.boot with ownerState := n }) hfree.symm⟩
    · rw [hexec, ownerKeyFuse_bound hword hbound]
    · rw [hexec, ownerKeyFuse_badArg hword]

end Sys2Proof.Machine

/-! PROOFS. The power domains (R121 to R124, R126 to R128, R133): how the two calls of a domain end by its state, and what its turn, its ramp
and its drain do. -/

namespace Sys2Proof.Machine

/-! ### `PWR_DOMAIN_SET` (R121, R123, R124, R126, R127) -/

section
variable {code : Nat} {c : Call} {s : State}

/-- The message's bit and not the row decides. -/
theorem exec_pwrDomainSetOn (h : Served pwrDomainSetSpec c s) : exec (.pwrDomainSetOn c) s = .next (powerSet 0x0130 c (readCall 0x0130 c s)) :=
  serve_served h _

theorem exec_pwrDomainSetOff (h : Served pwrDomainSetSpec c s) : exec (.pwrDomainSetOff c) s = .next (powerSet 0x0130 c (readCall 0x0130 c s)) :=
  serve_served h _

theorem powerSet_badArg (h : 71 < fld (pw c.words 0) 6 0) : powerSet code c s = respond code c .badArg [] s := if_pos h

theorem powerSet_on (h : fld (pw c.words 0) 6 0 ≤ 71) (hbit : bit (pw c.words 0) 8 = true) :
    powerSet code c s = powerOnCall code c (fld (pw c.words 0) 6 0) s :=
  (if_neg (Nat.not_lt.mpr h)).trans (if_pos hbit)

theorem powerSet_off (h : fld (pw c.words 0) 6 0 ≤ 71) (hbit : bit (pw c.words 0) 8 = false) :
    powerSet code c s = powerOffCall code c (fld (pw c.words 0) 6 0) s :=
  (if_neg (Nat.not_lt.mpr h)).trans (if_neg (Bool.eq_false_iff.mp hbit))

/-! ### ON -/

variable {d : Nat}

/-- A call joins the switch-on of its domain that runs or waits. -/
def joined (code : Nat) (c : Call) (d : Nat) (s : State) : State :=
  modDom d (fun x => { x with onRefs := x.onRefs ++ [refFor code c s] }) (defer_ (refFor code c s) s)

theorem powerOnCall_tripped (h : s.pwr.tripped = true) : powerOnCall code c d s = respond code c .badState [] s := if_pos h

section
variable (htrip : s.pwr.tripped = false)
include htrip

theorem powerOnCall_on (h : (domOf s d).st = .on) : powerOnCall code c d s = respond code c .done [] s := by
  simp [powerOnCall, htrip, h]

theorem powerOnCall_ramp (h : (domOf s d).st = .ramp) : powerOnCall code c d s = joined code c d s := by
  simp [powerOnCall, htrip, h, joined]

theorem powerOnCall_drain (h : (domOf s d).st = .drain) :
    powerOnCall code c d s = respond code c .pending [] (setDom d { domOf s d with pendingOn := true } s) := by
  simp [powerOnCall, htrip, h, modDom]

variable (h : (domOf s d).st = .off)
include h

theorem powerOnCall_waits (hcoming : ∃ o ∈ comingOn s, o.dom = d) : powerOnCall code c d s = joined code c d s := by
  have hcoming : ((comingOn s).any fun o => o.dom = d) = true := by simpa using hcoming
  simp only [powerOnCall, htrip, h, hcoming]
  rfl

section
variable (hnew : ∀ o ∈ comingOn s, o.dom ≠ d)
include hnew

theorem powerOnCall_queued (hneeds : ∀ n ∈ needsOf d, willBeOn s n = true) :
    powerOnCall code c d s = enqueueOn ⟨d, some (refFor code c s), false⟩ (defer_ (refFor code c s) s) := by
  have hnew : ((comingOn s).any fun o => o.dom = d) = false := by simpa using hnew
  simp only [powerOnCall, htrip, h, hnew, List.all_eq_true.mpr hneeds]
  rfl

theorem powerOnCall_needs (hneeds : ∃ n ∈ needsOf d, willBeOn s n = false) : powerOnCall code c d s = respond code c .badState [] s := by
  have hnew : ((comingOn s).any fun o => o.dom = d) = false := by simpa using hnew
  have hneeds : (needsOf d).all (willBeOn s) = false := by simpa using hneeds
  simp only [powerOnCall, htrip, h, hnew, hneeds]
  rfl

end

end

/-! ### OFF -/

/-- A call waits for its domain to be OFF. -/
def awaitsOff (code : Nat) (c : Call) (d : Nat) (s : State) : State :=
  modDom d (fun x => { x with offRefs := x.offRefs ++ [refFor code c s] }) (defer_ (refFor code c s) s)

theorem powerOffCall_off (h : (domOf s d).st = .off) : powerOffCall code c d s = respond code c .done [] (cancelOn d s) := by
  simp [powerOffCall, h]

theorem powerOffCall_drain (h : (domOf s d).st = .drain) :
    powerOffCall code c d s = modDom d (fun x => { x with pendingOn := false }) (awaitsOff code c d s) := by
  simp [powerOffCall, h, awaitsOff]

theorem powerOffCall_on (h : (domOf s d).st = .on) (hneed : neededBy s d = false) (hspan : d < 32 → (spanOf s d).st = .closed) :
    powerOffCall code c d s = startDrain d (awaitsOff code c d s) := by
  have hclosed : (d < 32 && decide ((spanOf s d).st ≠ .closed)) = false := by simpa using hspan
  simp only [powerOffCall, h, hneed, hclosed]
  rfl

theorem powerOffCall_ramp (h : (domOf s d).st = .ramp) (hneed : neededBy s d = false) :
    powerOffCall code c d s = modDom d (fun x => { x with offAfterRamp := true }) (awaitsOff code c d s) := by
  simp [powerOffCall, h, hneed, awaitsOff]

theorem powerOffCall_needed (h : (domOf s d).st = .on ∨ (domOf s d).st = .ramp) (hneed : neededBy s d = true) :
    powerOffCall code c d s = respond code c .badState [] s := by
  rcases h with h | h <;> simp [powerOffCall, h, hneed]

theorem powerOffCall_spanOpen (h : (domOf s d).st = .on) (hd : d < 32) (hspan : (spanOf s d).st ≠ .closed) :
    powerOffCall code c d s = respond code c .badState [] s := by
  simp [powerOffCall, h, hd, hspan]

end

/-! ### The turn of a switch-on (R122, R127, R128) -/

theorem domOf_congr {s t : State} (h : t.pwr.doms = s.pwr.doms) : domOf t = domOf s := by
  funext d
  unfold domOf
  rw [h]

theorem needsMet_congr {s t : State} (h : t.pwr.doms = s.pwr.doms) : needsMet t = needsMet s := by
  funext d
  unfold needsMet
  rw [domOn_congr h]

section
variable {s : State} {o : SwitchOn}

section
variable {q : List SwitchOn} (hqueue : s.pwr.queue = o :: q) (hwait : s.pwr.preRamp = none) (hramp : anyRamp s = false)
include hqueue hwait hramp

/-- The switch-on at the head of the queue leaves it, and its domain is looked at again. -/
theorem switchOnTurn_turn : switchOnTurn s = let t := setPwr { s.pwr with queue := q } s
    if domOn s o.dom then endOn o .done t
    else if (domOf s o.dom).st ≠ .off || !needsMet s o.dom then endOn o .badState t
    else setVdd (min 800 (s.pwr.vdd + 20)) (setPwr { t.pwr with preRamp := some o } t) := by
  have hdoms : (setPwr { s.pwr with queue := q } s).pwr.doms = s.pwr.doms := rfl
  rw [← domOn_congr hdoms, ← domOf_congr hdoms, ← needsMet_congr hdoms]
  unfold switchOnTurn
  rw [hqueue, hwait]
  exact if_neg (Bool.eq_false_iff.mp hramp)

theorem switchOnTurn_on (h : (domOf s o.dom).st = .on) : switchOnTurn s = endOn o .done (setPwr { s.pwr with queue := q } s) := by
  rw [switchOnTurn_turn hqueue hwait hramp]
  exact if_pos (decide_eq_true h)

theorem switchOnTurn_steps (h : (domOf s o.dom).st = .off) (hneeds : needsMet s o.dom = true) : switchOnTurn s =
    setVdd (min 800 (s.pwr.vdd + 20)) (setPwr { s.pwr with queue := q, preRamp := some o } (setPwr { s.pwr with queue := q } s)) := by
  rw [switchOnTurn_turn hqueue hwait hramp]
  simp [domOn, h, hneeds]

theorem switchOnTurn_lost (hnot : (domOf s o.dom).st ≠ .on) (h : (domOf s o.dom).st ≠ .off ∨ needsMet s o.dom = false) :
    switchOnTurn s = endOn o .badState (setPwr { s.pwr with queue := q } s) := by
  have hlost : (decide ((domOf s o.dom).st ≠ .off) || !needsMet s o.dom) = true := by simpa using h
  rw [switchOnTurn_turn hqueue hwait hramp]
  simp only [domOn, decide_eq_false hnot, hlost]
  rfl

end

theorem switchOnTurn_idle (h : s.pwr.queue = [] ∨ s.pwr.preRamp.isSome = true ∨ anyRamp s = true) : switchOnTurn s = s := by
  unfold switchOnTurn
  split
  · next hqueue hwait =>
    refine if_pos (h.resolve_left ?_ |>.resolve_left ?_)
    · simp [hqueue]
    · simp [hwait]
  · rfl

/-! ### The ramp (R122, R124, R128, R392) -/

section
variable (hwait : s.pwr.preRamp = some o)
include hwait

theorem rampStart_waited : rampStart s = let t := setPwr { s.pwr with preRamp := none } s
    if (domOf s o.dom).st ≠ .off || !needsMet s o.dom then endOn o .badState t
    else keysReturn o.dom (modDom o.dom (fun x =>
      { x with st := .ramp, onFromPending := o.fromPending, onRefs := o.ref.toList ++ x.onRefs, offAfterRamp := false }) t) := by
  have hdoms : (setPwr { s.pwr with preRamp := none } s).pwr.doms = s.pwr.doms := rfl
  rw [← domOf_congr hdoms, ← needsMet_congr hdoms]
  unfold rampStart
  rw [hwait]

theorem rampStart_ramps (h : (domOf s o.dom).st = .off) (hneeds : needsMet s o.dom = true) : rampStart s =
    keysReturn o.dom (modDom o.dom (fun x =>
      { x with st := .ramp, onFromPending := o.fromPending, onRefs := o.ref.toList ++ x.onRefs, offAfterRamp := false })
      (setPwr { s.pwr with preRamp := none } s)) := by
  rw [rampStart_waited hwait]
  simp [h, hneeds]

theorem rampStart_lost (h : (domOf s o.dom).st ≠ .off ∨ needsMet s o.dom = false) :
    rampStart s = endOn o .badState (setPwr { s.pwr with preRamp := none } s) := by
  have hlost : (decide ((domOf s o.dom).st ≠ .off) || !needsMet s o.dom) = true := by simpa using h
  rw [rampStart_waited hwait]
  exact if_pos hlost

end

theorem rampStart_idle (h : s.pwr.preRamp = none) : rampStart s = s := by
  unfold rampStart
  rw [h]

theorem rampEnd_idle (h : rampingDom s = none) : rampEnd s = s := by
  unfold rampEnd
  rw [h]

/-- A domain is ON at the end of its ramp, with what comes back with it. -/
def rampedOn (d : Nat) (s : State) : State :=
  let u := tdLink d (laneFlags s 22) (setDom d { domOf s d with st := .on, onRefs := [], onFromPending := false, onSince := s.tb } s)
  let first := hasPace d && !(List.range 72).any fun e => e ≠ d && hasPace e && domOn u e
  quadRampEnd d (domReturns d (setPwr { u.pwr with paceLowValid := u.pwr.paceLowValid && !first } u))

/-- The end of a ramp answers the calls that wait, tells a switch-on that came from PENDING, and drains the domain where an OFF waits. -/
theorem rampEnd_ramping {d : Nat} (h : rampingDom s = some d) : rampEnd s = let u := answerAll (domOf s d).onRefs .done (rampedOn d s)
    let v := if (domOf s d).onFromPending then raise 930 [] [wd d] u else u
    if (domOf s d).offAfterRamp then startDrain d v else v := by
  unfold rampEnd rampedOn
  rw [h]

/-! ### The drain (R122, R124, R130) -/

section
variable {d : Nat}

theorem drainEnd_idle (h : (domOf s d).st ≠ .drain) : drainEnd d s = s := if_pos h

variable (h : (domOf s d).st = .drain)
include h

theorem drainEnd_off (hshed : (reachOff d s).pwr.shedding ≠ some d) : drainEnd d s = reachOff d s :=
  (if_neg (not_not.mpr h)).trans (if_pos hshed)

/-- The shed of a domain is over. -/
def shedOver (t : State) : State := setPwr { t.pwr with shedding := none } t

variable (hshed : (reachOff d s).pwr.shedding = some d)
include hshed

theorem drainEnd_shed : drainEnd d s = if (shedOver (reachOff d s)).pwr.paceShed && paceShort (shedOver (reachOff d s))
    then shedNextDom (shedOver (reachOff d s)) else shedOver (reachOff d s) :=
  (if_neg (not_not.mpr h)).trans (if_neg (not_not.mpr hshed))

end

end

/-! ### `PWR_DOMAIN_GET` (R133) -/

theorem powerGet_badArg {ws : List Word} {s : State} (h : 71 < fld (pw ws 0) 6 0) : powerGet ws s = .error .badArg := by
  unfold powerGet
  dsimp only
  rw [decide_eq_false (Nat.not_le.mpr h)]
  rfl

theorem powerGet_code {ws : List Word} {s : State} (h : fld (pw ws 0) 6 0 ≤ 71) :
    powerGet ws s = .ok [wd (domCode (domOf s (fld (pw ws 0) 6 0)))] := by
  unfold powerGet
  dsimp only
  rw [decide_eq_true h]
  rfl

theorem wd_domCode (x : Domain) : wd (domCode x) = match x.st with
    | .off => 0 | .ramp => 1 | .on => 2 | .drain => if x.pendingOn then 4 else 3 := by
  unfold domCode
  cases x.st
  case drain => cases x.pendingOn <;> rfl
  all_goals rfl

/-- Settles O23: the calls by the state of their domain, and each command of the switching by what it meets. -/
theorem domainsTakeTheirTurn : Obligations.DomainsTakeTheirTurn := by
  unfold Obligations.DomainsTakeTheirTurn
  refine ⟨fun c s hserved => ?calls, fun s => ⟨fun o q hqueue hwait hramp => ?turn, fun h => congrArg Host.Outcome.next (switchOnTurn_idle h),
    fun o hwait => ?start, fun h => congrArg Host.Outcome.next (rampStart_idle h), fun h => congrArg Host.Outcome.next (rampEnd_idle h),
    fun d h => ?ramped, fun d h => ?drained, fun d h => congrArg Host.Outcome.next (drainEnd_idle h), fun c hserved h => ?badArg,
    fun c hserved => ?get⟩⟩
  case calls =>
    have hon := exec_pwrDomainSetOn hserved
    have hoff := exec_pwrDomainSetOff hserved
    intro u w d x r
    refine ⟨fun h => ⟨hon.trans (congrArg _ (powerSet_badArg h)), hoff.trans (congrArg _ (powerSet_badArg h))⟩, fun h => hon.trans hoff.symm,
      fun h hbit htrip => ?on, fun h hbit htrip => ?tripped, fun h hbit => ?off⟩
    case on =>
      have hset := hon.trans (congrArg _ (powerSet_on h hbit))
      exact ⟨fun hst => hset.trans (congrArg _ (powerOnCall_on htrip hst)), fun hst => hset.trans (congrArg _ (powerOnCall_ramp htrip hst)),
        fun hst => hset.trans (congrArg _ (powerOnCall_drain htrip hst)),
        fun hst hcoming => hset.trans (congrArg _ (powerOnCall_waits htrip hst hcoming)),
        fun hst hnew hneeds => hset.trans (congrArg _ (powerOnCall_queued htrip hst hnew hneeds)),
        fun hst hnew hneeds => hset.trans (congrArg _ (powerOnCall_needs htrip hst hnew hneeds))⟩
    case tripped => exact (hon.trans (congrArg _ (powerSet_on h hbit))).trans (congrArg _ (powerOnCall_tripped htrip))
    case off =>
      have hset := hoff.trans (congrArg _ (powerSet_off h hbit))
      exact ⟨fun hst => hset.trans (congrArg _ (powerOffCall_off hst)), fun hst => hset.trans (congrArg _ (powerOffCall_drain hst)),
        fun hst hneed hspan => hset.trans (congrArg _ (powerOffCall_on hst hneed hspan)),
        fun hst hneed => hset.trans (congrArg _ (powerOffCall_ramp hst hneed)),
        fun hst hneed => hset.trans (congrArg _ (powerOffCall_needed hst hneed)),
        fun hst hd hspan => hset.trans (congrArg _ (powerOffCall_spanOpen hst hd hspan))⟩
  case turn =>
    exact ⟨fun hst => congrArg Host.Outcome.next (switchOnTurn_on hqueue hwait hramp hst),
      fun hst hneeds => congrArg Host.Outcome.next (switchOnTurn_steps hqueue hwait hramp hst hneeds),
      fun hnot hlost => congrArg Host.Outcome.next (switchOnTurn_lost hqueue hwait hramp hnot hlost)⟩
  case start =>
    exact ⟨fun hst hneeds => congrArg Host.Outcome.next (rampStart_ramps hwait hst hneeds),
      fun hlost => congrArg Host.Outcome.next (rampStart_lost hwait hlost)⟩
  case ramped =>
    have hexec : exec .rampEnd s = .next _ := congrArg Host.Outcome.next (rampEnd_ramping h)
    intro x u first v
    refine ⟨fun hpending hoff => hexec.trans ?_, fun hpending hoff => hexec.trans ?_, fun hpending hoff => hexec.trans ?_,
      fun hpending hoff => hexec.trans ?_⟩
    all_goals
      dsimp only
      rw [hpending, hoff]
      rfl
  case drained =>
    intro x t t' v
    refine ⟨fun hshed => congrArg Host.Outcome.next (drainEnd_off h hshed), fun hshed hpace => ?_, fun hshed hpace => ?_⟩
    · exact congrArg Host.Outcome.next ((drainEnd_shed h hshed).trans (if_neg (Bool.eq_false_iff.mp hpace)))
    · exact congrArg Host.Outcome.next ((drainEnd_shed h hshed).trans ((if_pos hpace).trans (shedNextDom_idle rfl)))
  case badArg => exact serveRead_refused hserved _ (powerGet_badArg h)
  case get =>
    intro u x h
    refine (serveRead_done hserved _ (powerGet_code h)).trans ?_
    rw [wd_domCode] <;> rfl

end Sys2Proof.Machine

/-! PROOFS. The calls that read a Span, its ONUs and its discovered list (R168, R169, R184, R196, R202, R204, R210): what the body of each
gives. -/

namespace Sys2Proof.Machine

section
variable {ch : Nat} {ws : List Word} {s : State}

/-! ### Who may read an ONU (R210) -/

theorem needOnu_not_ok {w : Word} (h : needOnu s ch w ≠ .ok ()) : needOnu s ch w = .error .notOwner := needOwner_not_ok h

section
variable (h : needOnu s ch (pw ws 0) ≠ .ok ())
include h

theorem onuDefectRead_notOwner : onuDefectRead ch ws s = .error .notOwner := by
  simp [onuDefectRead, needOnu_not_ok h]

theorem onuStateRead_notOwner : onuStateRead ch ws s = .error .notOwner := by
  simp [onuStateRead, needOnu_not_ok h]

theorem onuRangeRead_notOwner : onuRangeRead ch ws s = .error .notOwner := by
  simp [onuRangeRead, needOnu_not_ok h]

end

/-! ### What an ONU's reads give (R169, R202, R210) -/

/-- The serial number and the Pier that ONU_STATE_READ names: those of the expected entry of an INACTIVE index (R210). -/
def namedOf (x : Onu) : BitVec 64 × Nat :=
  match x.st, x.expect with
  | .inactive, some e => (e.serial, e.pier)
  | _, _ => (x.serial, x.pier)

/-- The answer of ONU_RANGE_READ for an ONU (R202). -/
def rangeAnswer (x : Onu) : List Word :=
  [psWord x.rtd, wd x.eqd, psWord x.offset, wd x.distance, psWord x.cumul, psWord x.lastErr, putb x.corr.isSome 31 ||| wd x.corrections]

/-- Whether an ONU has been ranged. -/
def isRanged (x : Onu) : Bool := x.st = .registering || x.st = .active || x.st = .deactivating

section
variable (h : needOnu s ch (pw ws 0) = .ok ())
include h

theorem onuDefectRead_done : onuDefectRead ch ws s = let x := onuOf s (fld (pw ws 0) 4 0) (fld (pw ws 0) 24 16)
    .ok ([put x.pier 16 ||| wd x.defects.toNat] ++ toWords 2 x.sdLast.1 ++ toWords 2 x.sdLast.2) := by
  unfold onuDefectRead
  simp only [h]
  rfl

theorem onuStateRead_done : onuStateRead ch ws s = let x := onuOf s (fld (pw ws 0) 4 0) (fld (pw ws 0) 24 16)
    .ok ([put x.st.code 24 ||| put (namedOf x).2 16 ||| wd (x.onuId.getD 0x3FF), wd x.cause] ++ toWords 2 (namedOf x).1.toNat) := by
  unfold onuStateRead
  simp only [h]
  rfl

theorem onuRangeRead_eq : onuRangeRead ch ws s = let x := onuOf s (fld (pw ws 0) 4 0) (fld (pw ws 0) 24 16)
    need (isRanged x) .badState >>= fun _ => .ok (rangeAnswer x) := by
  unfold onuRangeRead
  simp only [h]
  rfl

end

/-! ### The Splice (R168, R169) -/

theorem spliceRead_badArg (h : fld (pw ws 0) 1 0 ≠ 0) : spliceRead ws s = .error .badArg := by
  simp [spliceRead, h]

/-- The AGE of a Splice in ms, 0xFFFF for one that no burst has written. -/
def spliceAgeMs (tb : Nat) (x : Onu) : Nat :=
  if x.spliceAt = 0 && !x.splice.valid then 0xFFFF else min 0xFFFF ((tb - x.spliceAt) / (1000 * us))

theorem spliceAgeMs_eq (tb : Nat) (x : Onu) :
    spliceAgeMs tb x = if x.spliceAt = 0 ∧ x.splice.valid = false then 0xFFFF else min 0xFFFF ((tb - x.spliceAt) / (1000 * us)) :=
  if_congr (by simp) rfl rfl

/-- The answer of SPLICE_READ for an ONU, at an instant of the timebase (R168, R169). -/
def spliceAnswer (tb : Nat) (x : Onu) : List Word :=
  let y := x.splice
  let tap (n : Nat) (lo : Nat) : Word := put (y.ffe.getD n 0).toNat lo
  let four (n : Nat) : Word := tap (n + 3) 24 ||| tap (n + 2) 16 ||| tap (n + 1) 8 ||| tap n 0
  [four 0, four 4, four 8, put y.mse.toNat 24 ||| tap 14 16 ||| tap 13 8 ||| tap 12 0,
    putb y.valid 31 ||| put y.phase.toNat 24 ||| put y.gain.toNat 16 ||| put y.dfe2.toNat 8 ||| wd y.dfe1.toNat,
    put (min 15 x.failRun) 20 ||| putb x.spliceOk 16 |||
      wd (spliceAgeMs tb x)]

theorem spliceRead_done (h : fld (pw ws 0) 1 0 = 0) :
    spliceRead ws s = .ok (spliceAnswer s.tb (onuOf s (fld (pw ws 0) 12 8) (fld (pw ws 0) 24 16))) := by
  unfold spliceRead
  simp only [spliceName, h, decide_true, need_true, res_bind_ok]
  rfl

/-! ### A standby's measurement (R204) -/

theorem psWord_zero : psWord 0 = 0 := by
  have hhalf : ⌊(1 / 2 : Rat)⌋ = 0 := by norm_num
  have hzero : roundAway 0 = 0 := by
    rw [roundAway, if_neg (lt_irrefl 0), zero_add]
    exact hhalf
  rw [psWord, hzero]
  rfl

/-- The words of STBY_DELTA_READ after its first: the common delta, Δ_RT and ΔEqD, or 0 where nothing has been measured (R204). -/
def deltaWords (p : Nat) (x : Pier) : Option Rat → List Word
  | some d => [psWord d, psWord (deltaRt x d), wd (unsgn 32 (deltaEqd p x d))]
  | none => [0, 0, 0]

theorem deltaWords_eq (p : Nat) (x : Pier) (c : Option Rat) :
    [psWord (c.getD 0), if c.isSome then psWord (deltaRt x (c.getD 0)) else 0, if c.isSome then wd (unsgn 32 (deltaEqd p x (c.getD 0))) else 0] =
      deltaWords p x c := by
  cases c with
  | none => simp [psWord_zero, deltaWords]
  | some d => rfl

theorem stbyDeltaRead_badArg (h : 2 < fld (pw ws 0) 1 0) : stbyDeltaRead ws s = .error .badArg := by
  simp [stbyDeltaRead, needPier, Nat.not_le.mpr h]

section
variable (h : fld (pw ws 0) 1 0 ≤ 2)
include h

theorem stbyDeltaRead_badState (hrole : (spanOf s (fld (pw ws 0) 12 8)).paired = false ∨ (spanOf s (fld (pw ws 0) 12 8)).standby = false) :
    stbyDeltaRead ws s = .error .badState := by
  rcases hrole with hrole | hrole <;> simp [stbyDeltaRead, needPier, pierName, h, hrole]

theorem stbyDeltaRead_done (hpaired : (spanOf s (fld (pw ws 0) 12 8)).paired = true) (hstandby : (spanOf s (fld (pw ws 0) 12 8)).standby = true) :
    stbyDeltaRead ws s = let sp := fld (pw ws 0) 12 8
    let p := fld (pw ws 0) 1 0
    .ok ((putb (readyNow s sp p) 31 ||| put ((measured s sp p).filter (outlier s sp p)).length 16 ||| wd (measured s sp p).length) ::
      deltaWords p (pierOf s sp p) (deltaC s sp p)) := by
  unfold stbyDeltaRead
  simp only [pierName, needPier, h, hpaired, hstandby, decide_true, Bool.and_self, need_true, res_bind_ok]
  exact congrArg (fun l => Except.ok (_ :: l)) (deltaWords_eq _ _ _)

end

end

/-! ### The reads that are always answered (R168, R184, R196) -/

section
variable {c : Call} {s : State}

theorem exec_spanStatus (h : Served spanStatusSpec c s) : let u := readCall 0x0203 c s
    Answered (.spanStatus c) spanStatusSpec c s (spanStatus c.words u) u :=
  serveRead_done h (fun s => .ok (spanStatus c.words s)) rfl

theorem exec_discListRead (h : Served discListReadSpec c s) : let u := readCall 0x0306 c s
    Answered (.discListRead c) discListReadSpec c s (discListRead c.chan c.words u) u :=
  serveRead_done h (fun s => .ok (discListRead c.chan c.words s)) rfl

theorem exec_reachRead (h : Served reachReadSpec c s) : let u := readCall 0x0313 c s
    Answered (.reachRead c) reachReadSpec c s (reachRead c.words u) u :=
  serveRead_done h (fun s => .ok (reachRead c.words s)) rfl

end

/-- Settles O32: each call answers what its body gives. -/
theorem spanReadsAnswer : Obligations.SpanReadsAnswer := by
  unfold Obligations.SpanReadsAnswer
  intro c s w
  refine ⟨exec_spanStatus, fun hserved => ?defects, fun hserved => ?splice, fun hserved => ?state,
    exec_discListRead, exec_reachRead, fun hserved => ?range, fun hserved => ?delta⟩
  case defects =>
    exact ⟨fun h => serveRead_done hserved _ (onuDefectRead_done h), fun h => serveRead_refused hserved _ (onuDefectRead_notOwner h)⟩
  case splice =>
    refine ⟨fun h => serveRead_refused hserved _ (spliceRead_badArg h), fun h => ?_⟩
    refine ⟨_, serveRead_done hserved _ (spliceRead_done h), rfl, rfl, ?_⟩
    rw [← spliceAgeMs_eq]
    rfl
  case state =>
    exact ⟨fun h => serveRead_done hserved _ (onuStateRead_done h), fun h => serveRead_refused hserved _ (onuStateRead_notOwner h)⟩
  case range =>
    intro u x ranged
    have hranged : isRanged x = true ↔ ranged := by simp [isRanged, ranged, or_assoc]
    refine ⟨fun h hr => serveRead_done hserved _ ((onuRangeRead_eq h).trans ?_), fun h hr => serveRead_refused hserved _ ((onuRangeRead_eq h).trans ?_),
      fun h => serveRead_refused hserved _ (onuRangeRead_notOwner h)⟩
    · dsimp only
      rw [hranged.mpr hr]
      rfl
    · dsimp only
      rw [Bool.eq_false_iff.mpr (mt hranged.mp hr)]
      rfl
  case delta =>
    intro u sp p x
    refine ⟨fun h => serveRead_refused hserved _ (stbyDeltaRead_badArg h), fun h hrole => serveRead_refused hserved _ (stbyDeltaRead_badState h hrole),
      fun h hpaired hstandby => ?_⟩
    refine (serveRead_done hserved _ (stbyDeltaRead_done h hpaired hstandby)).trans
      (congrArg (fun l => Host.Outcome.next (respond 0x0321 c .done (_ :: l) u)) ?_)
    change deltaWords p x (deltaC u sp p) = _
    cases deltaC u sp p <;> rfl

end Sys2Proof.Machine

/-! PROOFS. A Span opens and closes (R162 to R165): how the two calls end by its state, and what each phase's command does. -/

namespace Sys2Proof.Machine

/-! ### What the records and answers leave of the Spans -/

theorem pon_codewordOut (fs : List Flit) (s : State) : (codewordOut fs s).pon = s.pon := by
  unfold codewordOut
  dsimp only
  split <;> rfl

theorem pon_flitsOut (fs : List Flit) (s : State) : (flitsOut fs s).pon = s.pon := by
  unfold flitsOut
  split
  · exact forEach_view State.pon (fun fs _ s => pon_codewordOut fs s) _
  · rfl

theorem pon_recordOut (rtype span : Nat) (data : List Nat) (s : State) : (recordOut rtype span data s).pon = s.pon := by
  unfold recordOut
  dsimp only
  split
  · rfl
  · exact pon_flitsOut _ _

theorem pon_mirrorSpanRec (sp : Nat) (s : State) : (mirrorSpanRec sp s).pon = s.pon := by
  unfold mirrorSpanRec mirrorSpan
  split
  · exact pon_recordOut _ _ _ _
  · rfl

theorem pon_answerOpt (r : Option Ref) (st : Status) (ws : List Word) (s : State) : (answerOpt r st ws s).pon = s.pon := by
  obtain ⟨_, _, _, _, hpon, _⟩ := others_parts (others_answerOpt r st ws s)
  exact hpon

theorem spanOf_congr {s t : State} (h : t.pon = s.pon) : spanOf t = spanOf s := by
  funext sp
  unfold spanOf
  rw [h]

/-! ### `SPAN_OPEN` and `SPAN_CLOSE` (R162, R164, R165) -/

section
variable {code : Nat} {c : Call} {s : State} {sp : Nat} (hsp : fld (pw c.words 0) 4 0 = sp)
include hsp

theorem spanOpen_starts (hst : (spanOf s sp).st = .closed) (hmay : mayOpen s sp = true) :
    spanOpen code c s = startOpening sp (some (refFor code c s)) (defer_ (refFor code c s) s) := by
  subst hsp
  simp [spanOpen, hst, hmay]

theorem spanOpen_cannot (hst : (spanOf s sp).st = .closed) (hmay : mayOpen s sp = false) : spanOpen code c s = respond code c .badState [] s := by
  subst hsp
  simp [spanOpen, hst, hmay]

theorem spanOpen_closing (hst : (spanOf s sp).st = .closing) :
    spanOpen code c s = respond code c .pending [] (modSpan sp (fun v => { v with openPending := true }) s) := by
  subst hsp
  simp [spanOpen, hst]

theorem spanOpen_open (hst : (spanOf s sp).st = .opening ∨ (spanOf s sp).st = .opened) : spanOpen code c s = respond code c .badState [] s := by
  subst hsp
  rcases hst with hst | hst <;> simp [spanOpen, hst]

theorem spanClose_closed (hst : (spanOf s sp).st = .closed) : spanClose code c s = respond code c .done [] s := by
  subst hsp
  simp [spanClose, hst]

/-- A close call waits for the end of the closing, and takes back an open call that waits (R165). -/
def awaitsClosed (code : Nat) (c : Call) (sp : Nat) (s : State) : State :=
  modSpan sp (fun v => { v with closeRefs := v.closeRefs ++ [refFor code c s], openPending := false }) (defer_ (refFor code c s) s)

theorem spanClose_starts (hst : (spanOf s sp).st = .opened ∨ (spanOf s sp).st = .opening) :
    spanClose code c s = startClosing sp (awaitsClosed code c sp s) := by
  subst hsp
  rcases hst with hst | hst <;> simp [spanClose, hst, awaitsClosed]

theorem spanClose_closing (hst : (spanOf s sp).st = .closing) : spanClose code c s = awaitsClosed code c sp s := by
  subst hsp
  simp [spanClose, hst, awaitsClosed]

end

/-! ### The phases of an opening (R163) -/

section
variable {s : State} {sp : Nat}

theorem openTx_idle (h : (spanOf s sp).st ≠ .opening ∧ ((spanOf s sp).st ≠ .closing ∨ (spanOf s sp).cutOpening = false) ∨ (spanOf s sp).phase ≠ 0) :
    openTx sp s = s := by
  refine if_pos ?_
  rcases h with ⟨hopen, h | h⟩ | h <;> simp [opens, *]

/-- A Pier of a Span starts to transmit and to receive, with nothing left of an earlier opening (R163, R191). -/
def pierStarted (v : Span) (x : Pier) : Pier := { x with
  rxOn := true, txOn := transmits { v with phase := 1 } && !x.txLol, next := none, sent := none,
  due := [], rx := none, lastBurst := none, losRun := 0, rogueRun := 0, calmRun := 0, burstSeen := false, rotation := none, staging := {},
  teqd := match v.standby, x.mirTeqd with | true, some t => t | _, _ => deriveTeqd x v.reachMax }

theorem openTx_starts (hopens : (spanOf s sp).st = .opening ∨ ((spanOf s sp).st = .closing ∧ (spanOf s sp).cutOpening = true))
    (hphase : (spanOf s sp).phase = 0) : openTx sp s = lateFrame sp (mirrorSpanRec sp
      (forEach (enabledPiers s sp) (fun p => modPier sp p (pierStarted (spanOf s sp))) (setSpan sp { spanOf s sp with phase := 1, t0 := frameNo s } s))) := by
  refine if_neg ?_
  rcases hopens with hst | ⟨hst, hcut⟩ <;> simp [opens, *]

theorem openGrant_idle (h : (spanOf s sp).st ≠ .opening ∨ (spanOf s sp).phase ≠ 1) : openGrant sp s = s := if_pos (by simpa using h)

/-- A Span is OPEN: it grants but as a standby, its event is told and the call that opened it is answered (R163). -/
def spanOpened (sp : Nat) (s : State) : State :=
  let v := spanOf s sp
  answerOpt v.openRef .done [] (mirrorSpanRec sp (spanEvt sp 8 none 0 18 (setSpan sp
    { v with st := .opened, phase := 0, granting := !(v.paired && v.standby), openRef := none, windows := [], discDue := true, used := [] } s)))

theorem openGrant_opened (hst : (spanOf s sp).st = .opening) (hphase : (spanOf s sp).phase = 1) : openGrant sp s = spanOpened sp s :=
  if_neg (by simp [hst, hphase])

theorem granting_spanOpened : (spanOf (spanOpened sp s) sp).granting = !((spanOf s sp).paired && (spanOf s sp).standby) := by
  unfold spanOpened
  rw [spanOf_congr (pon_answerOpt _ _ _ _), spanOf_congr (pon_mirrorSpanRec _ _), spanEvt, spanOf_congr (raise_pon _ _ _ _), spanOf_setSpan]

theorem execSpanOpenGrantStart_idle {sp : SpanIx} (h : (spanOf s sp).st ≠ .opening ∨ ((spanOf s sp).phase ≠ 1 ∧ (spanOf s sp).granting = false)) :
    execSpanOpenGrantStart sp s = .next s := by
  have hidle : openGrant sp s = s := openGrant_idle (h.imp_right And.left)
  unfold execSpanOpenGrantStart
  dsimp only
  rw [hidle]
  refine congrArg Host.Outcome.next (if_neg ?_)
  rcases h with h | ⟨_, h⟩ <;> simp [h]

theorem execSpanOpenGrantStart_opened {sp : SpanIx} (hst : (spanOf s sp).st = .opening) (hphase : (spanOf s sp).phase = 1) :
    execSpanOpenGrantStart sp s = let t := spanOpened sp s
      .next (if (!((spanOf s sp).paired && (spanOf s sp).standby)) = true ∧ t.ctl.lastApply = frameNo t then startRoutine sp (frameNo t) t else t) := by
  unfold execSpanOpenGrantStart
  dsimp only
  rw [openGrant_opened hst hphase, granting_spanOpened]
  simp [hst]

/-! ### The phases of a closing (R164, R165) -/

theorem closeStop_idle (h : (spanOf s sp).st ≠ .closing ∨ 2 ≤ (spanOf s sp).phase) : closeStop sp s = s := if_pos (by simpa using h)

theorem closeStop_stops (hst : (spanOf s sp).st = .closing) (hphase : (spanOf s sp).phase < 2) : closeStop sp s = let v := spanOf s sp
    answerOpt v.openRef .badState [] (setSpan sp
      { v with phase := 2, granting := false, openRef := none, cutOpening := false, windows := [], truss := { v.truss with running := false } } s) :=
  if_neg (by simp [hst, hphase])

theorem closeDeactivate_idle (h : (spanOf s sp).st ≠ .closing ∨ (spanOf s sp).phase ≠ 2) : closeDeactivate sp s = s := if_pos (by simpa using h)

theorem closeDeactivate_empties (hst : (spanOf s sp).st = .closing) (hphase : (spanOf s sp).phase = 2) : closeDeactivate sp s =
    threePiers (fun p => modPier sp p fun x => { x with next := none }) (setSpan sp { spanOf s sp with phase := 3 } s) :=
  if_neg (by simp [hst, hphase])

theorem closeEnd_idle (h : (spanOf s sp).st ≠ .closing ∨ (spanOf s sp).phase ≠ 3) : closeEnd sp s = s := if_pos (by simpa using h)

section
variable (hst : (spanOf s sp).st = .closing) (hphase : (spanOf s sp).phase = 3)
include hst hphase

theorem closeEnd_closed : closeEnd sp s =
    if !(spanOf s sp).openPending then spanClosed sp s
    else if mayOpen (spanClosed sp s) sp then startOpening sp none (spanClosed sp s)
    else modSpan sp (fun v => { v with openPending := false }) (spanClosed sp s) :=
  if_neg (by simp [hst, hphase])

theorem closeEnd_stays (hpending : (spanOf s sp).openPending = false) : closeEnd sp s = spanClosed sp s := by
  simp [closeEnd_closed hst hphase, hpending]

variable (hpending : (spanOf s sp).openPending = true)
include hpending

theorem closeEnd_reopens (hmay : mayOpen (spanClosed sp s) sp = true) : closeEnd sp s = startOpening sp none (spanClosed sp s) := by
  simp [closeEnd_closed hst hphase, hpending, hmay]

theorem closeEnd_cannot (hmay : mayOpen (spanClosed sp s) sp = false) :
    closeEnd sp s = modSpan sp (fun v => { v with openPending := false }) (spanClosed sp s) := by
  simp [closeEnd_closed hst hphase, hpending, hmay]

end

end

/-- Settles O30: the two calls and each phase's command by the Span's state and phase. -/
theorem spansOpenAndClose : Obligations.SpansOpenAndClose := by
  unfold Obligations.SpansOpenAndClose
  intro s sp v
  refine ⟨fun c hserved => ?openCall, fun c hserved => ?closeCall, fun h => congrArg Host.Outcome.next (openTx_idle h),
    fun hopens hphase => congrArg Host.Outcome.next (openTx_starts hopens hphase), fun h => execSpanOpenGrantStart_idle h,
    fun hst hphase => execSpanOpenGrantStart_opened hst hphase, fun h => congrArg Host.Outcome.next (closeStop_idle h),
    fun h => congrArg Host.Outcome.next (closeDeactivate_idle h), fun h => congrArg Host.Outcome.next (closeEnd_idle h),
    fun hst hphase => congrArg Host.Outcome.next (closeStop_stops hst hphase),
    fun hst hphase => congrArg Host.Outcome.next (closeDeactivate_empties hst hphase), fun hst hphase => ?closed⟩
  case openCall =>
    have hexec : exec (.spanOpen c) s = _ := serve_served hserved _
    intro u hsp r
    exact ⟨fun hst hmay => hexec.trans (congrArg Host.Outcome.next (spanOpen_starts hsp hst hmay)),
      fun hst hmay => hexec.trans (congrArg Host.Outcome.next (spanOpen_cannot hsp hst hmay)),
      fun hst => hexec.trans (congrArg Host.Outcome.next (spanOpen_closing hsp hst)),
      fun hst => hexec.trans (congrArg Host.Outcome.next (spanOpen_open hsp hst))⟩
  case closeCall =>
    have hexec : exec (.spanClose c) s = _ := serve_served hserved _
    intro u hsp r
    exact ⟨fun hst => hexec.trans (congrArg Host.Outcome.next (spanClose_closed hsp hst)),
      fun hst => hexec.trans (congrArg Host.Outcome.next (spanClose_starts hsp hst)),
      fun hst => hexec.trans (congrArg Host.Outcome.next (spanClose_closing hsp hst))⟩
  case closed =>
    exact ⟨fun hpending => congrArg Host.Outcome.next (closeEnd_stays hst hphase hpending),
      fun hpending hmay => congrArg Host.Outcome.next (closeEnd_reopens hst hphase hpending hmay),
      fun hpending hmay => congrArg Host.Outcome.next (closeEnd_cannot hst hphase hpending hmay)⟩

end Sys2Proof.Machine

/-! PROOFS. Burst reception (R142, R145, R147, R150 to R152, R158, R551): the search window with its strobes, the delimiter, the window's end
and the burst's last bit, one lemma per case of each. -/

namespace Sys2Proof.Machine

/-! ### The search window and its strobes (R142, R150, R551) -/

section
variable {s : State} {sp p : Nat}

theorem searchStart_idle (h : (pierOf s sp p).rxOn = false ∨ firstDue s sp p (pierOf s sp p).due = none) : searchStart sp p s = s := by
  unfold searchStart
  rcases h with h | h
  · simp [h]
  · simp [h]

/-- The receiver has taken up the burst that is due first. -/
def takenUp (sp p : Nat) (d : Due) (rest : List Due) (s : State) : State :=
  let x := pierOf s sp p
  let w := searchWindow s sp p d
  setPier sp p { x with
    due := rest, rx := some { due := d, w0 := w.1, wEnd := w.2.1, deaf := tooClose s sp p d }
    snFrom := if d.grant.kind = 2 then some w.1 else x.snFrom } s

theorem noteBurst_eq (d : Due) : noteBurst sp p d s = if d.grant.kind = 0 then
    modPier sp p (fun x => { x with lastBurst := some ((d.prof.map (·.rate)).getD 0, (burstSpan p d).2) }) s else s :=
  ite_not _ _ _

theorem searchStart_takes {d : Due} {rest : List Due} (hon : (pierOf s sp p).rxOn = true)
    (hdue : firstDue s sp p (pierOf s sp p).due = some (d, rest)) : searchStart sp p s = strobes sp p d (noteBurst sp p d (takenUp sp p d rest s)) := by
  unfold searchStart
  dsimp only
  rw [hon, hdue]
  rfl

/-- The instant of a strobe's edge: ahead of its light by T_RX_CAL (R551). -/
def strobeAt (x : Pier) (t : Rat) : Nat := (t - (x.tRx : Nat)).floor.toNat

/-- PIER_BRST of a burst, and the fall of its PIER_BEN noted. -/
def brstGiven (sp p : Nat) (d : Due) (s : State) : State :=
  let x := pierOf s sp p
  let r := burstRange s sp p d
  emit (.level 2 (3 * sp + p) (strobeAt x r.1) (strobeAt x r.1 + 3200))
    (modPier sp p (fun y => { y with benFall := max y.benFall (strobeAt x (r.2 + marginPs x)) }) s)

theorem strobes_eq (d : Due) : strobes sp p d s =
    let x := pierOf s sp p
    let rise := strobeAt x ((burstRange s sp p d).1 - marginPs x)
    let fall := strobeAt x ((burstRange s sp p d).2 + marginPs x)
    emit (.level 3 (3 * sp + p) (if rise < x.benFall + 25600 then min x.benFall fall else rise) fall) (brstGiven sp p d s) := rfl

theorem burstRange_placed {d : Due} {f : BProf} (hkind : d.grant.kind = 0) (hprof : d.prof = some f) (hactive : (spanOf s sp).standby = false) :
    let a := ((125000000 * d.frame : Nat) : Rat) + teqdPs s sp p + ((d.grant.start - headUnits p f : Nat) : Rat) * unitPs p
    burstRange s sp p d = (a, a + (d.grant.n : Nat) * unitPs p) := by
  simp [burstRange, hkind, hprof, hactive]

theorem burstRange_window {d : Due} (hkind : d.grant.kind ≠ 0) : burstRange s sp p d = ((searchWindow s sp p d).1, (searchWindow s sp p d).2.1) :=
  if_neg hkind

/-! ### The delimiter (R150, R151, R158) -/

variable {b : BurstHead} {r : Rx}

theorem delimiterMatch_idle (h : (pierOf s sp p).rx = none) : delimiterMatch sp p b s = s := by
  unfold delimiterMatch
  dsimp only
  rw [h]

/-- The instant of a delimiter in the search window of its burst, at its profile's rate. -/
def delimiterAt (p : Nat) (r : Rx) (b : BurstHead) : Rat := r.w0 + ((b.pos : Nat) : Rat) * bitPs p ((r.due.prof.map (·.rate)).getD 0)

/-- The ONU-ID that the header of a burst ought to carry. -/
def wantedId (s : State) (sp p : Nat) (r : Rx) : Nat :=
  match r.due.grant.onu with | some o => (onuOf s sp o).onuId.getD (allOnus p) | none => allOnus p

/-- A header with the granted ONU-ID: the Pier's receiver has the burst, and a LOS is over (R158). -/
def headerTaken (sp p : Nat) (r : Rx) (s : State) : State :=
  let x := pierOf s sp p
  let t := setPier sp p { x with rx := some { r with accepted := true }, burstSeen := true } s
  if x.los then pierDefect sp p 0 false (modPier sp p (fun y => { y with los := false }) t) else t

/-- Another header, which the burst's receiver notes where it is a good one (R152). -/
def headerNoted (sp p : Nat) (b : BurstHead) (r : Rx) (s : State) : State :=
  setPier sp p { pierOf s sp p with rx := some { r with mismatch := r.mismatch || b.headerOk } } s

section
variable (hrx : (pierOf s sp p).rx = some r)
include hrx

theorem delimiterMatch_eq : delimiterMatch sp p b s =
    if r.accepted || r.ended || r.deaf || r.wEnd ≤ delimiterAt p r b then s
    else if b.headerOk && b.onuId = wantedId s sp p r then
      match r.due.grant.onu with
      | some o => burstAccepted sp p o b r (searchWindow (headerTaken sp p r s) sp p r.due).2.2 (headerTaken sp p r s)
      | none => headerTaken sp p r s
    else match r.due.grant.onu with
      | some o => cnt (cOnu 3 sp o) 1 (headerNoted sp p b r s)
      | none => headerNoted sp p b r s := by
  have hrate : (r.due.prof.map (·.rate)).getD 0 = (r.due.prof.getD ⟨0, false, false, false, 0, 0, 0, 0, 0⟩).rate := by
    cases r.due.prof <;> rfl
  unfold delimiterMatch delimiterAt
  dsimp only
  rw [hrx, hrate]
  rfl

theorem delimiterMatch_closed (h : r.accepted = true ∨ r.ended = true ∨ r.deaf = true ∨ r.wEnd ≤ delimiterAt p r b) : delimiterMatch sp p b s = s := by
  rw [delimiterMatch_eq hrx]
  exact if_pos (by simpa [or_assoc] using h)

variable (hacc : r.accepted = false) (hend : r.ended = false) (hdeaf : r.deaf = false) (htime : ¬ r.wEnd ≤ delimiterAt p r b)
include hacc hend hdeaf htime

theorem delimiterMatch_taken (hok : b.headerOk = true) (hid : b.onuId = wantedId s sp p r) : delimiterMatch sp p b s =
    match r.due.grant.onu with
    | some o => burstAccepted sp p o b r (searchWindow (headerTaken sp p r s) sp p r.due).2.2 (headerTaken sp p r s)
    | none => headerTaken sp p r s := by
  rw [delimiterMatch_eq hrx, if_neg (by simpa [hacc, hend, hdeaf] using htime)]
  exact if_pos (by simp [hok, hid])

theorem delimiterMatch_differs (h : b.headerOk = false ∨ b.onuId ≠ wantedId s sp p r) : delimiterMatch sp p b s =
    match r.due.grant.onu with
    | some o => cnt (cOnu 3 sp o) 1 (headerNoted sp p b r s)
    | none => headerNoted sp p b r s := by
  rw [delimiterMatch_eq hrx, if_neg (by simpa [hacc, hend, hdeaf] using htime)]
  refine if_neg ?_
  rcases h with h | h <;> simp [h]

end

/-! ### The end of the window and of the burst (R147, R152) -/

theorem searchEnd_idle (h : (pierOf s sp p).rx = none) : searchEnd sp p s = s := by
  unfold searchEnd
  rw [h]

section
variable (hrx : (pierOf s sp p).rx = some r)
include hrx

theorem searchEnd_again (hend : r.ended = true) : searchEnd sp p s = s := by
  unfold searchEnd
  rw [hrx]
  exact if_pos hend

variable (hend : r.ended = false)
include hend

theorem searchEnd_accepted (hacc : r.accepted = true) :
    searchEnd sp p s = setPier sp p { pierOf s sp p with rx := some { r with ended := true } } s := by
  simp [searchEnd, hrx, hend, hacc, modPier]

theorem searchEnd_missed (hacc : r.accepted = false) : searchEnd sp p s = match r.due.grant.onu with
    | some o => burstMissed sp p o r (setPier sp p { pierOf s sp p with rx := none } s)
    | none => setPier sp p { pierOf s sp p with rx := none } s := by
  unfold searchEnd
  rw [hrx]
  dsimp only
  rw [hend, hacc]
  rfl

end

variable {a : Adapted}

theorem burstLast_idle (h : ∀ r, (pierOf s sp p).rx = some r → r.accepted = false) : burstLast sp p a s = s := by
  unfold burstLast
  split
  · rfl
  · next r hrx => exact if_pos (by simp [h r hrx])

/-- A burst is over: the receiver is free, the H-pier's equaliser is as the burst left it, and what each of its allocations carried is
kept (R147, R250). -/
def burstOver (sp p : Nat) (r : Rx) (a : Adapted) (s : State) : State :=
  let x := pierOf s sp p
  forEach r.due.grant.served (fun b t => match allocOf t sp b.1 with
    | some y => setAlloc sp b.1 { y with tmSeen := true, tmLast := (y.tmBytes, y.tmIdle) } t
    | none => t)
    (setPier sp p { x with rx := none, eq := if p = 0 then ⟨a.ffe, a.dfe1, a.dfe2, a.gain, a.phase, a.mse, true⟩ else x.eq } s)

section
variable (hrx : (pierOf s sp p).rx = some r) (hacc : r.accepted = true)
include hrx hacc

theorem burstLast_over : burstLast sp p a s = match r.due.grant.onu with
    | some o => if p = 0 && r.due.grant.kind = 0 then spliceWrite sp o r.due a (burstOver sp p r a s) else burstOver sp p r a s
    | none => burstOver sp p r a s := by
  unfold burstLast
  rw [hrx]
  dsimp only
  rw [hacc]
  rfl

theorem burstLast_noSplice (h : r.due.grant.onu = none ∨ p ≠ 0 ∨ r.due.grant.kind ≠ 0) : burstLast sp p a s = burstOver sp p r a s := by
  rw [burstLast_over hrx hacc]
  split
  · next o honu =>
    refine if_neg ?_
    simpa [honu, imp_iff_not_or] using h
  · rfl

theorem burstLast_splice {o : Nat} (honu : r.due.grant.onu = some o) (hpier : p = 0) (hkind : r.due.grant.kind = 0) :
    burstLast sp p a s = spliceWrite sp o r.due a (burstOver sp p r a s) := by
  rw [burstLast_over hrx hacc, honu]
  exact if_pos (by simp [hpier, hkind])

end

end

/-- Settles O25: each command of burst reception by what it meets. -/
theorem burstsAreSearchedAndAccepted : Obligations.BurstsAreSearchedAndAccepted := by
  unfold Obligations.BurstsAreSearchedAndAccepted
  intro s sp pier x
  refine ⟨fun h => congrArg Host.Outcome.next (searchStart_idle h), fun d rest hon hdue => ?takes, fun d => ?strobes,
    fun d f o hkind hprof _ hactive => burstRange_placed hkind hprof hactive, fun d hkind => burstRange_window hkind,
    fun b h => congrArg Host.Outcome.next (delimiterMatch_idle h), fun r b hrx => ?delimiter,
    fun h => congrArg Host.Outcome.next (searchEnd_idle h), fun r hrx => ?windowEnd,
    fun a h => congrArg Host.Outcome.next (burstLast_idle h), fun r a hrx hacc => ?lastBit, fun o => rfl⟩
  case takes =>
    intro w t t'
    refine congrArg Host.Outcome.next ((searchStart_takes hon hdue).trans ?_)
    rw [noteBurst_eq]
    rfl
  case strobes =>
    intro r at_ rise fall n t
    exact ⟨fun h => congrArg (emit · t) (congrArg (Output.level 3 n · fall) (if_neg (Nat.not_lt.mpr h))),
      fun h => congrArg (emit · t) (congrArg (Output.level 3 n · fall) (if_pos h))⟩
  case delimiter =>
    intro rate want late
    refine ⟨fun h => congrArg Host.Outcome.next (delimiterMatch_closed hrx h), fun hacc hend hdeaf htime hok hid => ?_,
      fun hacc hend hdeaf htime h => ?_⟩
    · have htaken : exec (.delimiterMatch sp pier b) s = .next _ := congrArg Host.Outcome.next (delimiterMatch_taken hrx hacc hend hdeaf htime hok hid)
      refine ⟨fun honu => htaken.trans ?_, fun o honu => htaken.trans ?_⟩ <;> rw [honu] <;> rfl
    · have hdiffers : exec (.delimiterMatch sp pier b) s = .next _ := congrArg Host.Outcome.next (delimiterMatch_differs hrx hacc hend hdeaf htime h)
      refine ⟨fun honu => hdiffers.trans ?_, fun o honu => hdiffers.trans ?_⟩ <;> rw [honu] <;> rfl
  case windowEnd =>
    refine ⟨fun hend => congrArg Host.Outcome.next (searchEnd_again hrx hend),
      fun hend hacc => congrArg Host.Outcome.next (searchEnd_accepted hrx hend hacc), fun hend hacc honu => ?_, fun o hend hacc honu => ?_⟩
    all_goals
      refine congrArg Host.Outcome.next ((searchEnd_missed hrx hend hacc).trans ?_)
      rw [honu]
  case lastBit =>
    intro t t'
    have hpier : pier.val = 0 ↔ pier = 0 := Fin.val_eq_zero_iff
    have hover : burstOver sp pier r a s = t' := by
      simp only [burstOver, hpier]
      rfl
    rw [← hover]
    exact ⟨fun h => congrArg Host.Outcome.next (burstLast_noSplice hrx hacc (by simpa [hpier] using h)),
      fun o honu h hkind => congrArg Host.Outcome.next (burstLast_splice hrx hacc honu (hpier.mpr h) hkind)⟩

end Sys2Proof.Machine

/-! PROOFS. What an accepted burst carries (R139, R153 to R157, R161, R250): codewords, reports, PLOAM messages and frames, one lemma per case
of each command. -/

namespace Sys2Proof.Machine

/-! ### The parts of what the commands do -/

/-- Whether the bursts of a profile carry FEC. -/
def profFec (d : Due) : Bool := match d.prof with | some f => f.fec | none => false

theorem profFec_true {d : Due} {f : BProf} (hprof : d.prof = some f) (hfec : f.fec = true) : profFec d = true := by
  unfold profFec
  rw [hprof]
  exact hfec

theorem profFec_false {d : Due} (hfec : ∀ f, d.prof = some f → f.fec = false) : profFec d = false := by
  unfold profFec
  split
  · next f hprof => exact hfec f hprof
  · rfl

/-- A codeword of an ONU is counted, and joins its error windows (R153, R157). -/
def codewordTaken (sp p o bits : Nat) (c : Option Nat) (s : State) : State :=
  match c with
  | some n => berAdd sp o bits n (cnt (cOnu 6 sp o) n (cnt (cOnu 5 sp o) 1 s))
  | none => berAdd sp o bits (if p = 0 then 64 else 9) (cnt (cOnu 7 sp o) 1 (cnt (cOnu 5 sp o) 1 s))

/-- A good message is counted, and a Dying_Gasp declares DGi (R154, R156). -/
def ploamCounted (sp p o : Nat) (bs : List Byte) (s : State) : State :=
  if isDyingGasp p (ploamType p bs) then setDefect sp o 5 true true (cnt (cOnu 16 sp o) 1 s) else cnt (cOnu 16 sp o) 1 s

/-- A frame's bytes are noted at its allocation, where the frame's ONU has it (R250). -/
def passedNoted (sp o : Nat) (f : GemUp) (n : Nat) (s : State) : State :=
  match allocOf s sp f.alloc with
  | some x => if x.onu = o then setAlloc sp f.alloc { x with tmBytes := x.tmBytes + n, tmIdle := x.tmIdle || f.idle } s else s
  | none => s

/-- A decrypted frame goes to the ring of its slice's function, or from another port than the OMCC to the pipeline (R95, R154). -/
def frameOut (sp o : Nat) (f : GemUp) (bs : List Byte) (t : State) : State :=
  let u := framePassed sp o bs.length t
  if isOmcc t sp o f.portId then
    match puntFn t (onuOwner t sp o) with
    | some fn => deliver fn 1 (wd (o * 2 ^ 16 + sp)) t.tb bs u
    | none => omciDropped (onuOwner t sp o) t
  else { u with fwd := { u.fwd with up := u.fwd.up ++ [⟨sp, f.portId, o, bs, u.tb⟩] } }

section
variable {s : State} {sp p : Nat}

/-! ### Without an accepted burst -/

section
variable (h : rxOnu s sp p = none)
include h

theorem codewordDecoded_idle (bits : Nat) (c : Option Nat) (bip : Nat) : codewordDecoded sp p bits c bip s = s := by
  unfold codewordDecoded
  rw [h]

theorem dbru_idle (a v : Nat) (ok : Bool) : dbru sp p a v ok s = s := by
  unfold dbru
  rw [h]

theorem ploamUp_idle (bs : List Byte) : ploamUp sp p bs s = s := by
  unfold ploamUp
  rw [h]

theorem upFrame_idle (o : Nat) (f : GemUp) : upFrame sp p o f s = s := by
  unfold upFrame
  rw [h]

end

variable {o : Nat} {d : Due} (h : rxOnu s sp p = some (o, d))
include h

/-! ### Codewords and reports (R153, R154, R157, R250) -/

section
variable (bits : Nat) (c : Option Nat) (bip : Nat)

theorem codewordDecoded_eq : codewordDecoded sp p bits c bip s =
    if p = 2 && !Config.onuFec sp o then berAdd sp o bits bip (cnt (cOnu 8 sp o) bip s)
    else if p ≠ 2 && !profFec d then s
    else codewordTaken sp p o bits c s := by
  unfold codewordDecoded
  rw [h]
  rfl

theorem codewordDecoded_bip (hpier : p = 2) (hfec : Config.onuFec sp o = false) :
    codewordDecoded sp p bits c bip s = berAdd sp o bits bip (cnt (cOnu 8 sp o) bip s) := by
  rw [codewordDecoded_eq h]
  exact if_pos (by simp [hpier, hfec])

theorem codewordDecoded_noFec (hpier : p ≠ 2) (hfec : profFec d = false) : codewordDecoded sp p bits c bip s = s := by
  rw [codewordDecoded_eq h, if_neg (by simp [hpier])]
  exact if_pos (by simp [hpier, hfec])

theorem codewordDecoded_taken (hfec : (p = 2 ∧ Config.onuFec sp o = true) ∨ (p ≠ 2 ∧ profFec d = true)) :
    codewordDecoded sp p bits c bip s = codewordTaken sp p o bits c s := by
  rw [codewordDecoded_eq h]
  rcases hfec with ⟨hpier, hfec⟩ | ⟨hpier, hfec⟩ <;> simp [hpier, hfec]

end

theorem dbru_good (a v : Nat) : dbru sp p a v true s = cnt (cOnu 14 sp o) 1 (reportIn sp p a v d.frame s) := by
  unfold dbru
  rw [h]
  rfl

theorem dbru_bad (a v : Nat) : dbru sp p a v false s = cnt (cOnu 15 sp o) 1 s := by
  unfold dbru
  rw [h]
  rfl

/-! ### PLOAM messages (R154, R156) -/

section
variable {bs : List Byte}

theorem ploamUp_bad (hok : ploamOk s sp p o bs = false) : ploamUp sp p bs s = cnt (cOnu 17 sp o) 1 s := by
  unfold ploamUp
  rw [h]
  exact if_pos (by simp [hok])

theorem ploamUp_good (hok : ploamOk s sp p o bs = true) : ploamUp sp p bs s = let t := ploamCounted sp p o bs s
    if isReply (ploamType p bs) && t.boot.ready && !(spanOf t sp).standby then replied sp o t else t := by
  unfold ploamUp
  rw [h]
  exact if_neg (by simp [hok])

theorem ploamUp_reply (hok : ploamOk s sp p o bs = true) (hreply : isReply (ploamType p bs) = true)
    (hready : (ploamCounted sp p o bs s).boot.ready = true) (hactive : (spanOf (ploamCounted sp p o bs s) sp).standby = false) :
    ploamUp sp p bs s = replied sp o (ploamCounted sp p o bs s) := by
  rw [ploamUp_good h hok]
  exact if_pos (by simp [hreply, hready, hactive])

theorem ploamUp_other (hok : ploamOk s sp p o bs = true) (hnot : isReply (ploamType p bs) = false ∨
    (ploamCounted sp p o bs s).boot.ready = false ∨ (spanOf (ploamCounted sp p o bs s) sp).standby = true) :
    ploamUp sp p bs s = ploamCounted sp p o bs s := by
  rw [ploamUp_good h hok]
  refine if_neg ?_
  rcases hnot with hnot | hnot | hnot <;> simp [hnot]

end

/-! ### Frames (R139, R153 to R155) -/

section
variable {f : GemUp}

theorem upFrame_skip {q : Nat} (hskip : q ≠ o ∨ f.overlapBad = true) : upFrame sp p q f s = s := by
  unfold upFrame
  rw [h]
  refine if_pos ?_
  rcases hskip with hskip | hskip <;> simp [hskip, Ne.symm]

variable (hov : f.overlapBad = false)
include hov

theorem upFrame_eq : upFrame sp p o f s =
    if !f.headerOk then cnt (cOnu 12 sp o) 1 s
    else if f.idle then passedNoted sp o f 0 s
    else
      let t := passedNoted sp o f f.payload.length s
      match openUp t sp o p f.keyIx (counterBlock p d.frame f.pos) f.payload with
      | none => cnt (cOnu 13 sp o) 1 t
      | some bs => frameOut sp o f bs t := by
  unfold upFrame
  rw [h]
  exact if_neg (by simp [hov])

theorem upFrame_badHeader (hok : f.headerOk = false) : upFrame sp p o f s = cnt (cOnu 12 sp o) 1 s := by
  rw [upFrame_eq h hov]
  exact if_pos (by simp [hok])

variable (hok : f.headerOk = true)
include hok

theorem upFrame_filler (hidle : f.idle = true) : upFrame sp p o f s = passedNoted sp o f 0 s := by
  simp [upFrame_eq h hov, hok, hidle]

variable (hidle : f.idle = false)
include hidle

theorem upFrame_good : upFrame sp p o f s = let t := passedNoted sp o f f.payload.length s
    match openUp t sp o p f.keyIx (counterBlock p d.frame f.pos) f.payload with
    | none => cnt (cOnu 13 sp o) 1 t
    | some bs => frameOut sp o f bs t := by
  rw [upFrame_eq h hov, hok, hidle]
  rfl

theorem upFrame_noKey (hkey : openUp (passedNoted sp o f f.payload.length s) sp o p f.keyIx (counterBlock p d.frame f.pos) f.payload = none) :
    upFrame sp p o f s = cnt (cOnu 13 sp o) 1 (passedNoted sp o f f.payload.length s) := by
  rw [upFrame_good h hov hok hidle]
  dsimp only
  rw [hkey]

theorem upFrame_opened {bs : List Byte}
    (hkey : openUp (passedNoted sp o f f.payload.length s) sp o p f.keyIx (counterBlock p d.frame f.pos) f.payload = some bs) :
    upFrame sp p o f s = frameOut sp o f bs (passedNoted sp o f f.payload.length s) := by
  rw [upFrame_good h hov hok hidle]
  dsimp only
  rw [hkey]

end

end

section
variable {sp o : Nat} {f : GemUp} {bs : List Byte} {t : State}

theorem frameOut_port (h : (onuOf t sp o).onuId ≠ some f.portId) : frameOut sp o f bs t = let u := framePassed sp o bs.length t
    { u with fwd := { u.fwd with up := u.fwd.up ++ [⟨sp, f.portId, o, bs, u.tb⟩] } } :=
  if_neg (by simpa [isOmcc] using h)

section
variable (h : (onuOf t sp o).onuId = some f.portId)
include h

theorem frameOut_omcc : frameOut sp o f bs t = match puntFn t (onuOwner t sp o) with
    | some fn => deliver fn 1 (wd (o * 2 ^ 16 + sp)) t.tb bs (framePassed sp o bs.length t)
    | none => omciDropped (onuOwner t sp o) t :=
  if_pos (decide_eq_true h)

theorem frameOut_omci {fn : Nat} (hfn : puntFn t (onuOwner t sp o) = some fn) :
    frameOut sp o f bs t = deliver fn 1 (wd (o * 2 ^ 16 + sp)) t.tb bs (framePassed sp o bs.length t) := by
  rw [frameOut_omcc h, hfn]

theorem frameOut_unbound (hfn : puntFn t (onuOwner t sp o) = none) : frameOut sp o f bs t = omciDropped (onuOwner t sp o) t := by
  rw [frameOut_omcc h, hfn]

end

end

/-- Settles O26: each command by what the accepted burst carries. -/
theorem burstContentsAreTaken : Obligations.BurstContentsAreTaken := by
  unfold Obligations.BurstContentsAreTaken
  refine ⟨fun s sp pier h => ⟨fun bits c bip => congrArg Host.Outcome.next (codewordDecoded_idle h _ _ _),
    fun a v ok => congrArg Host.Outcome.next (dbru_idle h _ _ _), fun msg check => congrArg Host.Outcome.next (ploamUp_idle h _),
    fun o f => congrArg Host.Outcome.next (upFrame_idle h _ _)⟩, fun s sp pier o d h => ?burst⟩
  have hpier : pier = 2 ↔ pier.val = 2 := Fin.ext_iff
  refine ⟨fun bits bip c h2 hfec => congrArg Host.Outcome.next (codewordDecoded_bip h _ _ _ (hpier.mp h2) hfec),
    fun bits bip c h2 hfec => congrArg Host.Outcome.next (codewordDecoded_noFec h _ _ _ (mt hpier.mpr h2) (profFec_false hfec)),
    fun bits bip c hfec => ?codeword, fun a v => ⟨congrArg Host.Outcome.next (dbru_good h _ _), congrArg Host.Outcome.next (dbru_bad h _ _)⟩,
    fun msg check => ?message, fun msg check hok => congrArg Host.Outcome.next (ploamUp_bad h hok), fun bs => ?form,
    fun q f hskip => congrArg Host.Outcome.next (upFrame_skip h (hskip.imp_left (mt Fin.ext))), fun f hov => ?frame⟩
  case codeword =>
    have hfec : (pier.val = 2 ∧ Config.onuFec sp o = true) ∨ (pier.val ≠ 2 ∧ profFec d = true) :=
      hfec.imp (fun ⟨h2, hfec⟩ => ⟨hpier.mp h2, hfec⟩) fun ⟨h2, f, hprof, hfec⟩ => ⟨mt hpier.mpr h2, profFec_true hprof hfec⟩
    refine congrArg Host.Outcome.next ((codewordDecoded_taken h bits c bip hfec).trans ?_)
    cases c with
    | none => simp only [codewordTaken, Fin.ext_iff]; rfl
    | some n => rfl
  case message =>
    intro bs hok t type t'
    exact ⟨fun hreply hready hactive => congrArg Host.Outcome.next (ploamUp_reply h hok hreply hready hactive),
      fun hnot => congrArg Host.Outcome.next (ploamUp_other h hok hnot)⟩
  case form =>
    refine ⟨fun h2 => ?_, fun h2 => ?_⟩
    · simp [ploamOk, hpier.mp h2]
    · simp [ploamOk, mt hpier.mpr h2]
  case frame =>
    intro noted t key
    refine ⟨fun hok => congrArg Host.Outcome.next (upFrame_badHeader h hov hok),
      fun hok hidle => congrArg Host.Outcome.next (upFrame_filler h hov hok hidle),
      fun hok hidle hkey => congrArg Host.Outcome.next (upFrame_noKey h hov hok hidle hkey), fun bs hok hidle hkey => ?opened⟩
    have hopened : exec (.upstreamXgemFrame sp pier o f) s = .next _ := congrArg Host.Outcome.next (upFrame_opened h hov hok hidle hkey)
    exact ⟨fun hport => hopened.trans (congrArg Host.Outcome.next (frameOut_port hport)),
      fun fn hport hfn => hopened.trans (congrArg Host.Outcome.next (frameOut_omci hport hfn)),
      fun hport hfn => hopened.trans (congrArg Host.Outcome.next (frameOut_unbound hport hfn))⟩

end Sys2Proof.Machine

/-! PROOFS. Defects of ONUs and Piers and their timers (R148, R156 to R158, R182, R200, R202, R206, R460, R471): one lemma per case of each
command. -/

namespace Sys2Proof.Machine

section
variable {s : State} {sp o : Nat}

/-! ### The error windows (R157) -/

/-- A window of an ONU's SD or SF with one more second, or ten milliseconds, behind it. -/
def longer (w : BerWin) : BerWin := { w with windows := w.windows + 1 }

/-- Whether a window has too few bits to be judged at 10^-exp. -/
abbrev Short (w : BerWin) (exp : Nat) : Prop := w.n < 10 * 10 ^ exp

/-- An ONU's SD window begins anew, and what it held is kept for ONU_DEFECT_READ. -/
def sdRestarted (sp o : Nat) (s : State) : State :=
  let x := onuOf s sp o
  setOnu sp o { x with sd := {}, sdLast := (x.sd.n, x.sd.e) } s

theorem sdEnd_eq : sdEnd sp o s = let x := onuOf s sp o
    let exp := (pierOf s sp x.pier).sdExp
    if Short (longer x.sd) exp && (longer x.sd).windows < 60 then setOnu sp o { x with sd := longer x.sd } s
    else if Short (longer x.sd) exp then sdRestarted sp o s
    else judgeBer sp o 1 exp (longer x.sd) (sdRestarted sp o s) := rfl

/-- An ONU's SF window begins anew. -/
def sfRestarted (sp o : Nat) (s : State) : State := setOnu sp o { onuOf s sp o with sf := {} } s

theorem sfEnd_eq : sfEnd sp o s = let x := onuOf s sp o
    let exp := (pierOf s sp x.pier).sfExp
    if Short (longer x.sf) exp && (longer x.sf).windows < 6000 then setOnu sp o { x with sf := longer x.sf } s
    else if Short (longer x.sf) exp then sfRestarted sp o s
    else judgeBer sp o 2 exp (longer x.sf) (sfRestarted sp o s) := rfl

/-- How a window's end goes: extended, over without a judgement, or judged. -/
theorem windowEnd_cases {short : Prop} [Decidable short] {n limit : Nat} {extended dropped judged t : State}
    (h : t = if short && n < limit then extended else if short then dropped else judged) :
    (short → n < limit → Host.Outcome.next (φ := Fault) (ρ := Refusal) t = .next extended) ∧
      (short → limit ≤ n → Host.Outcome.next (φ := Fault) (ρ := Refusal) t = .next dropped) ∧
      (¬ short → Host.Outcome.next (φ := Fault) (ρ := Refusal) t = .next judged) := by
  subst h
  refine ⟨fun hshort hn => congrArg _ (if_pos (by simp [hshort, hn])), fun hshort hn => congrArg _ ?_, fun hshort => congrArg _ ?_⟩
  · rw [if_neg (by simp [hn]), if_pos hshort]
  · rw [if_neg (by simp [hshort]), if_neg hshort]

/-! ### The defects of an ONU (R148, R156) -/

theorem judgeSplice_same (h : spliceOkNow s sp o = (onuOf s sp o).spliceOk) : judgeSplice sp o s = s := if_pos h

theorem judgeSplice_falls (hwas : (onuOf s sp o).spliceOk = true) (hnow : spliceOkNow s sp o = false) : judgeSplice sp o s =
    spanEvt sp 10 (some o) 0 (min 15 (onuOf s sp o).failRun) (setOnu sp o { onuOf s sp o with spliceOk := false } s) := by
  simp [judgeSplice, hwas, hnow, modOnu]

theorem judgeSplice_rises (hwas : (onuOf s sp o).spliceOk = false) (hnow : spliceOkNow s sp o = true) :
    judgeSplice sp o s = setOnu sp o { onuOf s sp o with spliceOk := true } s := by
  simp [judgeSplice, hwas, hnow, modOnu]

theorem lobDeact_due (hst : (onuOf s sp o).st = .active) (hlob : (onuOf s sp o).defects.getLsbD 0 = true)
    (htime : (pierOf s sp (onuOf s sp o).pier).lobDeact ≠ 0) (hhere : activates s sp = true) :
    lobDeact sp o s = deactivate sp o false (spanEvt sp 12 (some o) (onuOf s sp o).pier 0 s) := by
  unfold lobDeact
  dsimp only
  rw [hst, hlob, hhere]
  exact if_pos (by simpa using htime)

theorem lobDeact_idle (h : (onuOf s sp o).st ≠ .active ∨ (onuOf s sp o).defects.getLsbD 0 = false ∨
    (pierOf s sp (onuOf s sp o).pier).lobDeact = 0 ∨ activates s sp = false) : lobDeact sp o s = s := by
  unfold lobDeact
  dsimp only
  refine if_neg ?_
  rcases h with h | h | h | h
  · simp [h]
  · rw [h]
    simp
  · simp [h]
  · simp [h]

theorem setDefect_same {d : Nat} {v told : Bool} (h : (onuOf s sp o).defects.getLsbD d = v) : setDefect sp o d v told s = s := if_pos h

theorem setDefect_cleared {d : Nat} (h : (onuOf s sp o).defects.getLsbD d = true) : setDefect sp o d false true s = let x := onuOf s sp o
    spanEvt sp 6 (some o) x.pier (2 ^ d) (setOnu sp o { x with defects := x.defects &&& ~~~ BitVec.ofNat 9 (2 ^ d) } s) :=
  if_neg (by simp [h])

theorem ploamTimeout_idle (h : (onuOf s sp o).st ≠ .active ∨ (onuOf s sp o).ploamWait = false ∨ activates s sp = false) :
    ploamTimeout sp o s = s :=
  if_pos (by simpa [or_assoc] using h)

section
variable (hst : (onuOf s sp o).st = .active) (hwait : (onuOf s sp o).ploamWait = true) (hhere : activates s sp = true)
include hst hwait hhere

theorem ploamTimeout_awaited : ploamTimeout sp o s = let x := onuOf s sp o
    let t := setOnu sp o { x with ploamMiss := min (x.ploamMiss + 1) 3 } s
    if 3 ≤ x.ploamMiss + 1 then deactivate sp o false (setDefect sp o 4 true true t) else t :=
  if_neg (by simp [hst, hwait, hhere])

theorem ploamTimeout_counts (hmiss : (onuOf s sp o).ploamMiss < 2) :
    ploamTimeout sp o s = setOnu sp o { onuOf s sp o with ploamMiss := (onuOf s sp o).ploamMiss + 1 } s := by
  rw [ploamTimeout_awaited hst hwait hhere]
  dsimp only
  rw [if_neg (by omega), Nat.min_eq_left (by omega)]

theorem ploamTimeout_givesUp (hmiss : 2 ≤ (onuOf s sp o).ploamMiss) :
    ploamTimeout sp o s = deactivate sp o false (setDefect sp o 4 true true (setOnu sp o { onuOf s sp o with ploamMiss := 3 } s)) := by
  rw [ploamTimeout_awaited hst hwait hhere]
  dsimp only
  rw [if_pos (by omega), Nat.min_eq_right (by omega)]

end

/-! ### A correction that is not confirmed (R200, R202) -/

theorem corrTimeout_idle (h : ∀ c, (onuOf s sp o).corr = some c → c.carried = false) : corrTimeout sp o s = s := by
  unfold corrTimeout
  dsimp only
  split
  · next c hcorr => exact if_pos (by simp [h c hcorr])
  · rfl

section
variable {c : Corr} (hcorr : (onuOf s sp o).corr = some c) (hsent : c.carried = true)
include hcorr hsent

theorem corrTimeout_over (hmeas : (onuOf s sp o).meas = none) : corrTimeout sp o s = corrOver sp o c s := by
  simp [corrTimeout, hcorr, hsent, hmeas]

theorem corrTimeout_measures {m : Meas} (hmeas : (onuOf s sp o).meas = some m) :
    corrTimeout sp o s = setOnu sp o { onuOf s sp o with corr := some { c with ended := true } } s := by
  simp [corrTimeout, hcorr, hsent, hmeas, modOnu]

end

/-! ### The discovered list (R182) -/

theorem discExpiry_absent {e : Nat} (h : kget (spanOf s sp).disc e = none) : discExpiry sp e s = s := by
  unfold discExpiry
  rw [h]

/-- The Span without an entry of its discovered list. -/
def discDropped (sp e : Nat) (s : State) : State := modSpan sp (fun v => { v with disc := kerase v.disc e }) s

theorem discExpiry_drops {e : Nat} {d : DiscEntry} (h : kget (spanOf s sp).disc e = some d) : discExpiry sp e s = match d.onu with
    | some o => if (onuOf s sp o).st = .held && !(spanOf s sp).standby then setOnuSt sp o .inactive 0 (discDropped sp e s) else discDropped sp e s
    | none => discDropped sp e s := by
  have hstandby : (spanOf (discDropped sp e s) sp).standby = (spanOf s sp).standby := by
    unfold discDropped
    rw [spanOf_modSpan]
  unfold discExpiry
  rw [h, ← hstandby]
  rfl

end

/-! ### The transmit lock of a lane (R158, R460, R471) -/

section
variable {s : State} {n : Nat}

theorem txLockLoss_idle (h : laneAwake s n = false ∨ (laneOf s n).txLol = true ∨ (28 ≤ n ∧ n < 32)) : txLockLoss n s = s :=
  if_pos (by simpa [or_assoc] using h)

section
variable (hawake : laneAwake s n = true) (hlock : (laneOf s n).txLol = false)
include hawake hlock

theorem txLockLoss_system (hn : n < 28) : txLockLoss n s = cnt (cLane 2 n) 1 (onLane n (modLane n fun x => { x with txLol := true }) s) :=
  (if_neg (by simp [hawake, hlock]; omega)).trans (if_pos hn)

theorem txLockLoss_pier {sp p : Nat} (hp : p < 3) (hn : n = 32 + 3 * sp + p) : txLockLoss n s = pierDefect sp p 1 true
    (modPier sp p (fun x => { x with txLol := true, txOn := false }) (modLane n (fun x => { x with txLol := true }) s)) := by
  have hspan : spanOfLane n = sp := by unfold spanOfLane; omega
  have hpier : (n - 32) % 3 = p := by omega
  unfold txLockLoss
  rw [if_neg (by simp [hawake, hlock]; omega), if_neg (by omega), hspan, hpier]

end

theorem txLockHeld_idle (h : (laneOf s n).txLol = false) : txLockHeld n s = s := if_pos (by simp [h])

section
variable (h : (laneOf s n).txLol = true)
include h

theorem txLockHeld_system (hn : n < 32) : txLockHeld n s = onLane n (modLane n fun x => { x with txLol := false }) s :=
  (if_neg (by simp [h])).trans (if_pos hn)

theorem txLockHeld_pier {sp p : Nat} (hp : p < 3) (hn : n = 32 + 3 * sp + p) : txLockHeld n s =
    let t := modLane n (fun x => { x with txLol := false }) s
    if (pierOf s sp p).txLol then pierDefect sp p 1 false (modPier sp p (fun x => { x with txLol := false }) t) else t := by
  have hspan : spanOfLane n = sp := by unfold spanOfLane; omega
  have hpier : (n - 32) % 3 = p := by omega
  unfold txLockHeld
  rw [if_neg (by simp [h]), if_neg (by omega), hspan, hpier]
  rfl

end

end

/-! ### The search for a rogue ONU (R206) -/

/-- A search is over (R206). -/
def searchOver (sp p : Nat) (t : State) : State := modPier sp p (fun x => { x with search := none }) t

/-- The ONUs still suspected once the wait is over, by whether the Pier still shows ROGUE (R206). -/
def stillSuspect (r : RogueSearch) (rogue : Bool) : List Nat := if rogue then r.suspects.filter fun o => !r.half.contains o else r.half

/-- The half that was disabled may send again where the Pier still shows ROGUE (R206). -/
def halfBack (sp : Nat) (r : RogueSearch) (rogue : Bool) (s : State) : State := if rogue then rogueEnable sp r.half s else s

section
variable {s : State} {sp p : Nat}

theorem rogueWaitEnd_idle (h : (pierOf s sp p).search = none) : rogueWaitEnd sp p s = s := by
  unfold rogueWaitEnd
  rw [h]

section
variable {r : RogueSearch} (h : (pierOf s sp p).search = some r)
include h

theorem rogueWaitEnd_standby (hstandby : (spanOf s sp).standby = true) :
    rogueWaitEnd sp p s = modPier sp p (fun x => { x with search := none }) s := by
  unfold rogueWaitEnd
  rw [h]
  exact if_pos hstandby

section
variable (hactive : (spanOf s sp).standby = false)
include hactive

theorem rogueWaitEnd_active : rogueWaitEnd sp p s =
    let t := halfBack sp r (pierOf s sp p).rogue s
    match stillSuspect r (pierOf s sp p).rogue with
    | [] => raise 966 [] [wd (sp * 2 ^ 16 + p * 2 ^ 12)] (searchOver sp p t)
    | [o] => raise 965 [] [wd (sp * 2 ^ 16 + p * 2 ^ 12 + o)]
        (searchOver sp p (if (onuOf t sp o).st = .disabled then t else rogueDisable sp [o] t))
    | l => rogueStep sp p { r with suspects := l } t := by
  unfold rogueWaitEnd
  rw [h]
  exact if_neg (by simp [hactive])

theorem rogueWaitEnd_nobody (hrest : stillSuspect r (pierOf s sp p).rogue = []) : rogueWaitEnd sp p s =
    raise 966 [] [wd (sp * 2 ^ 16 + p * 2 ^ 12)] (searchOver sp p (halfBack sp r (pierOf s sp p).rogue s)) := by
  simp only [rogueWaitEnd_active h hactive, hrest]

theorem rogueWaitEnd_found {o : Nat} (hrest : stillSuspect r (pierOf s sp p).rogue = [o]) : rogueWaitEnd sp p s =
    let t := halfBack sp r (pierOf s sp p).rogue s
    raise 965 [] [wd (sp * 2 ^ 16 + p * 2 ^ 12 + o)] (searchOver sp p (if (onuOf t sp o).st = .disabled then t else rogueDisable sp [o] t)) := by
  simp only [rogueWaitEnd_active h hactive, hrest]

theorem rogueWaitEnd_halves {a b : Nat} {l : List Nat} (hrest : stillSuspect r (pierOf s sp p).rogue = a :: b :: l) : rogueWaitEnd sp p s =
    rogueStep sp p { r with suspects := stillSuspect r (pierOf s sp p).rogue } (halfBack sp r (pierOf s sp p).rogue s) := by
  simp only [rogueWaitEnd_active h hactive, hrest]

end

end

end

/-- Settles O27: each window's end and each timer by what it finds. -/
theorem defectsAndPierTimersAct : Obligations.DefectsAndPierTimersAct := by
  unfold Obligations.DefectsAndPierTimersAct
  refine ⟨fun s sp o => ?onu, fun s sp pier => ?pier⟩
  case onu =>
    intro x q
    refine ⟨?sd, ?sf, ?splice, fun hst hlob htime hhere => congrArg Host.Outcome.next (lobDeact_due hst hlob htime hhere),
      fun h => congrArg Host.Outcome.next (lobDeact_idle h),
      fun h => congrArg Host.Outcome.next (setDefect_cleared h), fun h => congrArg Host.Outcome.next (setDefect_same h), fun hst hwait hhere => ?reply,
      fun h => congrArg Host.Outcome.next (ploamTimeout_idle h), fun c hcorr hsent hmeas => ?unconfirmed,
      fun c m hcorr hsent hmeas => congrArg Host.Outcome.next (corrTimeout_measures hcorr hsent hmeas),
      fun h => congrArg Host.Outcome.next (corrTimeout_idle h)⟩
    case sd =>
      intro w short t
      exact windowEnd_cases sdEnd_eq
    case sf =>
      intro w short t
      exact windowEnd_cases sfEnd_eq
    case splice =>
      exact ⟨fun h => congrArg Host.Outcome.next (judgeSplice_same h), fun hwas hnow => congrArg Host.Outcome.next (judgeSplice_falls hwas hnow),
        fun hwas hnow => congrArg Host.Outcome.next (judgeSplice_rises hwas hnow)⟩
    case reply =>
      exact ⟨fun hmiss => congrArg Host.Outcome.next (ploamTimeout_counts hst hwait hhere hmiss),
        fun hmiss => congrArg Host.Outcome.next (ploamTimeout_givesUp hst hwait hhere hmiss)⟩
    case unconfirmed =>
      have hover : exec (.eqdConfirmTimeout sp o) s = .next _ := congrArg Host.Outcome.next (corrTimeout_over hcorr hsent hmeas)
      exact ⟨fun hsends => hover.trans (congrArg Host.Outcome.next (if_pos hsends)),
        fun hsends => hover.trans (congrArg Host.Outcome.next (if_neg (Nat.not_le.mpr hsends)))⟩
  case pier =>
    intro n q
    refine ⟨fun l hl hawake hlock => ?loss, fun l hl h => ?held,
      fun l hl hawake hlock => congrArg (Host.Outcome.next ∘ hawserLines) (txLockLoss_system hawake hlock hl),
      fun l h => congrArg (Host.Outcome.next ∘ hawserLines) (txLockLoss_idle h),
      fun l hl h => congrArg (Host.Outcome.next ∘ hawserLines) (txLockHeld_system h hl),
      fun l h => congrArg (Host.Outcome.next ∘ hawserLines) (txLockHeld_idle h), fun e h => congrArg Host.Outcome.next (discExpiry_absent h),
      fun e d h => ?entry, fun h lit => congrArg Host.Outcome.next (rogueWaitEnd_idle h),
      fun r h hstandby lit => congrArg Host.Outcome.next (rogueWaitEnd_standby h hstandby), fun r h hactive lit => ?search⟩
    case loss =>
      exact congrArg (Host.Outcome.next ∘ hawserLines) ((congrArg (txLockLoss · s) hl).trans (txLockLoss_pier hawake hlock pier.isLt rfl))
    case held =>
      intro t
      have hheld := (congrArg (txLockHeld · s) hl).trans (txLockHeld_pier (hl ▸ h) pier.isLt rfl)
      exact ⟨fun hmuted => congrArg (Host.Outcome.next ∘ hawserLines) (hheld.trans (if_pos hmuted)),
        fun hlocked => congrArg (Host.Outcome.next ∘ hawserLines) (hheld.trans (if_neg (Bool.eq_false_iff.mp hlocked)))⟩
    case entry =>
      intro t
      have hexec : exec (.discEntryExpiry sp e) s = .next _ := congrArg Host.Outcome.next (discExpiry_drops h)
      refine ⟨fun honu => hexec.trans ?_, fun o honu hheld hactive => hexec.trans ?_, fun o honu hnot => hexec.trans ?_⟩
      · rw [honu]
        rfl
      · rw [honu]
        exact congrArg Host.Outcome.next (if_pos (by simp [hheld, hactive]))
      · rw [honu]
        refine congrArg Host.Outcome.next (if_neg ?_)
        rcases hnot with hnot | hnot <;> simp [hnot]
    case search =>
      exact ⟨fun hrest => congrArg Host.Outcome.next (rogueWaitEnd_nobody h hactive hrest),
        fun o hrest => congrArg Host.Outcome.next (rogueWaitEnd_found h hactive hrest),
        fun a b l hrest => congrArg Host.Outcome.next (rogueWaitEnd_halves h hactive hrest)⟩

end Sys2Proof.Machine

/-! PROOFS. Activation of ONUs (R174, R177, R178, R180 to R182, R184, R185, R190, R192, R193, R199, R202, R203): serial numbers, ranging,
registration, measured bursts, and the end of a deactivation, one lemma per case of each command. -/

namespace Sys2Proof.Machine

/-! ### Serial numbers (R174, R177, R180 to R182, R184) -/

/-- The index under way that answers to a serial number already (R174). -/
def busyOnu (s : State) (sp : Nat) (serial : BitVec 64) : Option Nat :=
  (onusOf s sp).find? fun o => let x := onuOf s sp o; x.serial = serial && x.st ≠ .inactive && x.st ≠ .held

/-- The index that expects a serial number on a Pier (R177). -/
def expectedHere (s : State) (sp p : Nat) (serial : BitVec 64) : Option Nat :=
  (onusOf s sp).find? fun o => match (onuOf s sp o).expect with | some e => e.serial = serial && e.pier = p | none => false

/-- Whether an index expects a serial number, on any Pier (R181). -/
def expectedAnywhere (s : State) (sp : Nat) (serial : BitVec 64) : Bool :=
  (onusOf s sp).any fun o => match (onuOf s sp o).expect with | some e => e.serial = serial | none => false

/-- The cause with which a serial number of a Pier stands in the discovered list (R182). -/
def listedCause (s : State) (sp p : Nat) (serial : BitVec 64) : Option Nat :=
  ((spanOf s sp).disc.find? fun x => x.2.serial = serial && x.2.pier = p).map (·.2.cause)

/-- A serial number is entered in the discovered list without an index, and counted (R182). -/
def listSerial (sp p rate : Nat) (serial : BitVec 64) (cause : Nat) (s : State) : State :=
  cnt (cSpan 3 sp) 1 (enterDisc sp ⟨serial, p, rate, cause, none⟩ s)

/-- The cause with which the policy lists an unknown serial number; NO_INDEX stands (R182, R184; assumption 133). -/
def unknownCause (s : State) (sp p : Nat) (serial : BitVec 64) : Nat :=
  if listedCause s sp p serial = some 5 then 5 else if (spanOf s sp).policy = 2 then 2 else 1

/-- What Saend does with a serial number that an index expects on this Pier (R174, R177). -/
def takeExpected (sp o p rate : Nat) (serial : BitVec 64) (s : State) : State :=
  let x := onuOf s sp o
  let auto := match x.expect with | some e => e.auto | none => false
  if x.st ≠ .inactive && x.st ≠ .held then s
  else if auto || x.accepted then activateOnu sp o p rate serial s else holdOnu sp o p rate serial 6 s

/-- What Saend does with a serial number that no index expects on this Pier (R181, R182, R184). -/
def takeUnexpected (sp p rate : Nat) (serial : BitVec 64) (s : State) : State :=
  let policy := (spanOf s sp).policy
  if expectedAnywhere s sp serial then
    if discRoom s sp serial p then listSerial sp p rate serial 3 s else cnt (cSpan 2 sp) 1 s
  else if policy = 0 || !discRoom s sp serial p then cnt (cSpan 2 sp) 1 s
  else
    let t := listSerial sp p rate serial (unknownCause s sp p serial) s
    if policy = 2 && listedCause s sp p serial ≠ some 5 then askRegistry sp p serial t else t

/-- What Saend does with a serial number (R174). -/
def takeSerial (sp p rate : Nat) (serial : BitVec 64) (s : State) : State :=
  match busyOnu s sp serial with
  | some o => raise 962 [] [wd (sp * 2 ^ 16 + o)] (cnt (cSpan 4 sp) 1 s)
  | none => match expectedHere s sp p serial with
    | some o => takeExpected sp o p rate serial s
    | none => takeUnexpected sp p rate serial s

section
variable {s : State} {sp p : Nat} {serial : BitVec 64}

/-- The model's own spelling of the cause, which matches on what the list holds. -/
theorem unknownCause_eq : unknownCause s sp p serial =
    match listedCause s sp p serial with | some 5 => 5 | _ => if (spanOf s sp).policy = 2 then 2 else 1 := by
  split
  · next h => exact if_pos h
  · next h => exact if_neg h

theorem snMeasured_window {rate k : Nat} {w : Rat} (h : (pierOf s sp p).snFrom = some w) : snMeasured sp p rate k serial s =
    modPier sp p (fun y => { y with snMeas := some (serial, w + ((k : Nat) : Rat) / 64 * bitPs p rate) }) s := by
  unfold snMeasured
  rw [h]

theorem snMeasured_noWindow {rate k : Nat} (h : (pierOf s sp p).snFrom = none) : snMeasured sp p rate k serial s = s := by
  unfold snMeasured
  rw [h]

theorem snReceived_unheard {rate k : Nat} (h : (pierOf s sp p).rxOn = false ∨ rateAdmitted s sp p rate = false) :
    snReceived sp p rate k serial s = s :=
  if_pos (by simpa using h)

theorem snReceived_heard {rate k : Nat} (hrx : (pierOf s sp p).rxOn = true) (hrate : rateAdmitted s sp p rate = true) :
    snReceived sp p rate k serial s = let t := cnt (cSpan 1 sp) 1 (snMeasured sp p rate k serial s)
      if activates (snMeasured sp p rate k serial s) sp then takeSerial sp p rate serial t else t := by
  unfold snReceived
  rw [if_neg (by simp [hrx, hrate])]
  dsimp only
  cases activates (snMeasured sp p rate k serial s) sp
  case false => rfl
  case true =>
    simp only [takeSerial, takeUnexpected, unknownCause_eq] <;> rfl

end

section
variable {s : State} {sp o p rate : Nat} {serial : BitVec 64} {e : Expected}

theorem takeSerial_busy (hbusy : busyOnu s sp serial = some o) :
    takeSerial sp p rate serial s = raise 962 [] [wd (sp * 2 ^ 16 + o)] (cnt (cSpan 4 sp) 1 s) := by
  unfold takeSerial
  rw [hbusy]

theorem takeSerial_expected (hbusy : busyOnu s sp serial = none) (hmine : expectedHere s sp p serial = some o) :
    takeSerial sp p rate serial s = takeExpected sp o p rate serial s := by
  unfold takeSerial
  rw [hbusy, hmine]

theorem takeSerial_unexpected (hbusy : busyOnu s sp serial = none) (hmine : expectedHere s sp p serial = none) :
    takeSerial sp p rate serial s = takeUnexpected sp p rate serial s := by
  unfold takeSerial
  rw [hbusy, hmine]

theorem takeExpected_elsewhere (hinactive : (onuOf s sp o).st ≠ .inactive) (hheld : (onuOf s sp o).st ≠ .held) :
    takeExpected sp o p rate serial s = s :=
  if_pos (by simp [hinactive, hheld])

section
variable (hst : (onuOf s sp o).st = .inactive ∨ (onuOf s sp o).st = .held) (hexpect : (onuOf s sp o).expect = some e)
include hst hexpect

theorem takeExpected_waits : takeExpected sp o p rate serial s =
    if e.auto || (onuOf s sp o).accepted then activateOnu sp o p rate serial s else holdOnu sp o p rate serial 6 s := by
  unfold takeExpected
  dsimp only
  rw [hexpect]
  exact if_neg (by rcases hst with hst | hst <;> simp [hst])

theorem takeExpected_activates (hgo : e.auto = true ∨ (onuOf s sp o).accepted = true) :
    takeExpected sp o p rate serial s = activateOnu sp o p rate serial s :=
  (takeExpected_waits hst hexpect).trans (if_pos (by simpa using hgo))

theorem takeExpected_holds (hauto : e.auto = false) (haccepted : (onuOf s sp o).accepted = false) :
    takeExpected sp o p rate serial s = holdOnu sp o p rate serial 6 s :=
  (takeExpected_waits hst hexpect).trans (if_neg (by simp [hauto, haccepted]))

end

theorem takeUnexpected_wrongPier (hwrong : expectedAnywhere s sp serial = true) (hroom : discRoom s sp serial p = true) :
    takeUnexpected sp p rate serial s = listSerial sp p rate serial 3 s :=
  (if_pos hwrong).trans (if_pos hroom)

theorem takeUnexpected_counted (h : discRoom s sp serial p = false ∨ (expectedAnywhere s sp serial = false ∧ (spanOf s sp).policy = 0)) :
    takeUnexpected sp p rate serial s = cnt (cSpan 2 sp) 1 s := by
  unfold takeUnexpected
  rcases h with hroom | ⟨hwrong, hpolicy⟩
  · simp [hroom]
  · simp [hwrong, hpolicy]

section
variable (hwrong : expectedAnywhere s sp serial = false) (hpolicy : (spanOf s sp).policy ≠ 0) (hroom : discRoom s sp serial p = true)
include hwrong hpolicy hroom

theorem takeUnexpected_listed : takeUnexpected sp p rate serial s =
    let t := listSerial sp p rate serial (unknownCause s sp p serial) s
    if (spanOf s sp).policy = 2 && listedCause s sp p serial ≠ some 5 then askRegistry sp p serial t else t :=
  (if_neg (by simp [hwrong])).trans (if_neg (by simp [hpolicy, hroom]))

theorem takeUnexpected_asks (hask : (spanOf s sp).policy = 2) (hold : listedCause s sp p serial ≠ some 5) : takeUnexpected sp p rate serial s =
    askRegistry sp p serial (listSerial sp p rate serial (unknownCause s sp p serial) s) :=
  (takeUnexpected_listed hwrong hpolicy hroom).trans (if_pos (by simp [hask, hold]))

theorem takeUnexpected_asksNot (h : (spanOf s sp).policy ≠ 2 ∨ listedCause s sp p serial = some 5) : takeUnexpected sp p rate serial s =
    listSerial sp p rate serial (unknownCause s sp p serial) s :=
  (takeUnexpected_listed hwrong hpolicy hroom).trans (if_neg (by rcases h with h | h <;> simp [h]))

end

end

/-! ### Ranging and registration (R185, R190, R192, R193) -/

/-- The round trip that a ranging burst gives (R190). -/
def rtdOf (s : State) (sp o : Nat) (m : Meas) (k : Nat) : Rat := arrivalOf (onuOf s sp o).pier (onuOf s sp o).rate m k - m.ref

/-- The equalisation delay, in its Pier's units, that a round trip leaves (R192). -/
def eqdFor (s : State) (sp p : Nat) (rtd : Rat) : Int := roundUpHalf ((teqdPs s sp p - rtd) / eqdUnit p)

/-- An ONU of a round trip has its delay, and starts to register (R192, R193). -/
def rangedTo (sp o : Nat) (rtd : Rat) (s : State) : State :=
  let p := (onuOf s sp o).pier
  let eqd := eqdFor s sp p rtd
  let t := setDefect sp o 7 false true s
  let t := modOnu sp o (fun x => { x with
    rtd := rtd, eqd := eqd.toNat, offset := eqd * eqdUnit p - (teqdPs s sp p - rtd), distance := distanceOf (pierOf t sp p) rtd,
    cumul := 0, lastErr := 0, corrections := 0, corr := none, rangeMiss := 0, regTries := 1, meas := none, deltaCount := 0 }) t
  tell sp o .requestRegistration [] (tell sp o .rangingTime [eqd.toNat] (setOnuSt sp o .registering 0 t))

section
variable {s : State} {sp o k : Nat}

theorem ranged_idle (h : (onuOf s sp o).st ≠ .ranging ∨ (onuOf s sp o).meas = none ∨ activates s sp = false) : ranged sp o k s = s := by
  unfold ranged
  dsimp only
  split
  · next m hst hmeas =>
    have hnot : activates s sp = false := by simpa [hst, hmeas] using h
    exact if_pos (by simp [hnot])
  · rfl

section
variable {m : Meas} (hst : (onuOf s sp o).st = .ranging) (hmeas : (onuOf s sp o).meas = some m) (hhere : activates s sp = true)
include hst hmeas hhere

theorem ranged_measured : ranged sp o k s = if teqdPs s sp (onuOf s sp o).pier < rtdOf s sp o m k then dropOnu sp o (cnt (cSpan 6 sp) 1 s)
    else rangedTo sp o (rtdOf s sp o m k) s := by
  unfold ranged
  dsimp only
  rw [hst, hmeas]
  exact if_neg (by simp [hhere])

theorem ranged_beyondReach (hfar : teqdPs s sp (onuOf s sp o).pier < rtdOf s sp o m k) :
    ranged sp o k s = dropOnu sp o (cnt (cSpan 6 sp) 1 s) :=
  (ranged_measured hst hmeas hhere).trans (if_pos hfar)

theorem ranged_inReach (hnear : rtdOf s sp o m k ≤ teqdPs s sp (onuOf s sp o).pier) :
    ranged sp o k s = rangedTo sp o (rtdOf s sp o m k) s :=
  (ranged_measured hst hmeas hhere).trans (if_neg (not_lt.mpr hnear))

end

end

section
variable {s : State} {sp o : Nat} {reg : List Byte}

/-- Whether what an ONU returned is what its expected entry asks for (R185). -/
def regAccepted (s : State) (sp o : Nat) (reg : List Byte) : Bool :=
  match (onuOf s sp o).expect with | some e => regMatches (onuOf s sp o).pier e reg | none => true

/-- An ONU whose registration does not match is disabled, and told (R176, R185). -/
def regRefused (sp o : Nat) (reg : List Byte) (s : State) : State :=
  let t := leaveTo sp o .disabled 7 true (serialMsg sp o true s)
  raise 964 [onuOwner t sp o] (wd (sp * 2 ^ 16 + o) :: toWords 2 (leNat (reg.take 8))) t

section
variable (h : (onuOf s sp o).st ≠ .registering ∨ (onuOf s sp o).matched = true ∨ activates s sp = false)
include h

theorem registration_idle : registration sp o reg s = s := if_pos (by simpa [or_assoc] using h)

theorem regTimeout_idle : regTimeout sp o s = s := if_pos (by simpa [or_assoc] using h)

end

section
variable (hst : (onuOf s sp o).st = .registering) (hmatched : (onuOf s sp o).matched = false) (hhere : activates s sp = true)
include hst hmatched hhere

theorem registration_awaited : registration sp o reg s = let t := replied sp o s
    if regAccepted s sp o reg then modOnu sp o (fun x => { x with matched := true }) t else regRefused sp o reg t :=
  if_neg (by simp [hst, hmatched, hhere])

theorem registration_accepted (hok : regAccepted s sp o reg = true) :
    registration sp o reg s = modOnu sp o (fun x => { x with matched := true }) (replied sp o s) :=
  (registration_awaited hst hmatched hhere).trans (if_pos hok)

theorem registration_refused (hok : regAccepted s sp o reg = false) : registration sp o reg s = regRefused sp o reg (replied sp o s) :=
  (registration_awaited hst hmatched hhere).trans (if_neg (by simp [hok]))

theorem regTimeout_awaited : regTimeout sp o s = if 3 ≤ (onuOf s sp o).regTries then dropOnu sp o s
    else tell sp o .requestRegistration [] (setOnu sp o { onuOf s sp o with regTries := (onuOf s sp o).regTries + 1 } s) :=
  if_neg (by simp [hst, hmatched, hhere])

end

/-! ### The end of a deactivation, the discovery period and the registry's silence (R174, R178, R184) -/

theorem deactivated_ends (hst : (onuOf s sp o).st = .deactivating) (hleft : leaving s sp o = false) (hactive : (spanOf s sp).standby = false) :
    deactivated sp o s = leaveTo sp o (if (onuOf s sp o).disableAfter then .disabled else .inactive) 0 true (dropOnuQueues sp o s) :=
  if_neg (by simp [hst, hleft, hactive])

theorem deactivated_idle (h : (onuOf s sp o).st ≠ .deactivating ∨ leaving s sp o = true ∨ (spanOf s sp).standby = true) :
    deactivated sp o s = s :=
  if_pos (by simpa [or_assoc] using h)

theorem execDiscoveryPeriod_due {sp : SpanIx} (hst : (spanOf s sp).st = .opened) (hactive : (spanOf s sp).standby = false)
    (hperiod : (spanOf s sp).discPeriod ≠ 0) : execDiscoveryPeriod sp s = .next (modSpan sp (fun v => { v with discDue := true }) s) :=
  congrArg Host.Outcome.next (if_pos (by simp [hst, hactive, hperiod]))

theorem execDiscoveryPeriod_idle {sp : SpanIx} (h : (spanOf s sp).st ≠ .opened ∨ (spanOf s sp).standby = true ∨ (spanOf s sp).discPeriod = 0) :
    execDiscoveryPeriod sp s = .next s :=
  congrArg Host.Outcome.next (if_neg (by rcases h with h | h | h <;> simp [h]))

theorem regAnswerTimeout_asked {serial : BitVec 64} (h : s.red.lan.asked.contains (serial.toNat, sp) = true) : regAnswerTimeout sp serial s =
    raise 899 [] (wd sp :: toWords 2 serial.toNat) (setLan { s.red.lan with asked := s.red.lan.asked.filter (· ≠ (serial.toNat, sp)) } s) :=
  if_pos h

theorem regAnswerTimeout_notAsked {serial : BitVec 64} (h : s.red.lan.asked.contains (serial.toNat, sp) = false) :
    regAnswerTimeout sp serial s = s :=
  if_neg (Bool.eq_false_iff.mp h)

/-! ### A measured burst (R199, R202, R203) -/

theorem arrival_idle {k : Nat} (h : (onuOf s sp o).meas = none ∨ ((onuOf s sp o).st ≠ .active ∧ (onuOf s sp o).st ≠ .registering)) :
    arrival sp o k s = s := by
  unfold arrival
  dsimp only
  split
  · rfl
  · next m hmeas => exact if_pos (by simpa [hmeas] using h)

theorem arrival_measured {k : Nat} {m : Meas} (hmeas : (onuOf s sp o).meas = some m)
    (hst : (onuOf s sp o).st = .active ∨ (onuOf s sp o).st = .registering) : arrival sp o k s =
    let arrived := arrivalOf (onuOf s sp o).pier (onuOf s sp o).rate m k
    let t := setOnu sp o { onuOf s sp o with meas := none } s
    if (spanOf s sp).standby then measureStandby sp o arrived m.ref t else corrJudge sp o (track sp o arrived m.ref t) := by
  unfold arrival
  dsimp only
  rw [hmeas]
  exact if_neg (by rcases hst with hst | hst <;> simp [hst])

end

/-- Settles O28, by the cases of each command: whether Saend takes the step here, then the ONU's state, then what the burst or the timer finds. -/
theorem onusActivateAndLeave : Obligations.OnusActivateAndLeave := by
  unfold Obligations.OnusActivateAndLeave
  intro s sp o x
  refine ⟨fun p serial rate k h => congrArg Host.Outcome.next (snReceived_unheard h), fun p serial rate k hrx hrate => ?notHere,
    fun p serial rate k hrx hrate => ?serial, fun p serial rate k => ⟨fun w => snMeasured_window, snMeasured_noWindow⟩,
    fun k h => congrArg Host.Outcome.next (ranged_idle h), fun m k hst hmeas hhere => ?ranging,
    fun reg h => ⟨congrArg Host.Outcome.next (registration_idle h), congrArg Host.Outcome.next (regTimeout_idle h)⟩,
    fun reg hst hmatched hhere => ?registration, fun hst hmatched hhere => ?timeout,
    fun hst hleft hactive => congrArg Host.Outcome.next (deactivated_ends hst hleft hactive),
    fun h => congrArg Host.Outcome.next (deactivated_idle h), execDiscoveryPeriod_due, execDiscoveryPeriod_idle,
    fun serial => ⟨fun h => congrArg Host.Outcome.next (regAnswerTimeout_asked h),
      fun h => congrArg Host.Outcome.next (regAnswerTimeout_notAsked h)⟩,
    fun k h => congrArg Host.Outcome.next (arrival_idle h), fun m k hmeas hst => ?arrival⟩
  case notHere =>
    intro u hnot
    exact congrArg Host.Outcome.next ((snReceived_heard hrx hrate).trans (if_neg (Bool.eq_false_iff.mp hnot)))
  case serial =>
    intro u hhere t busy mine wrong policy
    have hexec : exec (.snReceived sp p serial ⟨rate, k⟩) s = .next (takeSerial sp p rate serial t) :=
      congrArg Host.Outcome.next ((snReceived_heard hrx hrate).trans (if_pos hhere))
    have hunexpected (hbusy : busy = none) (hmine : mine = none) :
        exec (.snReceived sp p serial ⟨rate, k⟩) s = .next (takeUnexpected sp p rate serial t) :=
      hexec.trans (congrArg Host.Outcome.next (takeSerial_unexpected hbusy hmine))
    refine ⟨fun i hbusy => hexec.trans (congrArg Host.Outcome.next (takeSerial_busy hbusy)), fun i e hbusy hmine hexpect => ?expected,
      fun hbusy hmine hwrong hroom => (hunexpected hbusy hmine).trans (congrArg Host.Outcome.next (takeUnexpected_wrongPier hwrong hroom)),
      fun hbusy hmine h => (hunexpected hbusy hmine).trans (congrArg Host.Outcome.next (takeUnexpected_counted h)),
      fun hbusy hmine hwrong hpolicy hroom => ?unknown⟩
    case expected =>
      have htaken := hexec.trans (congrArg Host.Outcome.next (takeSerial_expected hbusy hmine))
      exact ⟨fun hinactive hheld => htaken.trans (congrArg Host.Outcome.next (takeExpected_elsewhere hinactive hheld)),
        fun hst hgo => htaken.trans (congrArg Host.Outcome.next (takeExpected_activates hst hexpect hgo)),
        fun hst hauto haccepted => htaken.trans (congrArg Host.Outcome.next (takeExpected_holds hst hexpect hauto haccepted))⟩
    case unknown =>
      intro old u
      exact ⟨fun hask hold => (hunexpected hbusy hmine).trans
          (congrArg Host.Outcome.next (takeUnexpected_asks hwrong hpolicy hroom hask hold)),
        fun h => (hunexpected hbusy hmine).trans (congrArg Host.Outcome.next (takeUnexpected_asksNot hwrong hpolicy hroom h))⟩
  case ranging =>
    intro rtd teqd eqd
    exact ⟨fun hfar => congrArg Host.Outcome.next (ranged_beyondReach hst hmeas hhere hfar),
      fun hnear => congrArg Host.Outcome.next (ranged_inReach hst hmeas hhere hnear)⟩
  case registration =>
    intro t ok
    exact ⟨fun hok => congrArg Host.Outcome.next (registration_accepted hst hmatched hhere hok),
      fun hok => congrArg Host.Outcome.next (registration_refused hst hmatched hhere hok)⟩
  case timeout =>
    have htimeout : exec (.regRequestTimeout sp o) s = .next _ := congrArg Host.Outcome.next (regTimeout_awaited hst hmatched hhere)
    exact ⟨fun htries => htimeout.trans (congrArg Host.Outcome.next (if_pos htries)),
      fun htries => htimeout.trans (congrArg Host.Outcome.next (if_neg (Nat.not_le.mpr htries)))⟩
  case arrival =>
    intro t at_
    have harrival : exec (.arrivalMeasured sp o k) s = .next _ := congrArg Host.Outcome.next (arrival_measured hmeas hst)
    exact ⟨fun hstandby => harrival.trans (congrArg Host.Outcome.next (if_pos hstandby)),
      fun hactive => harrival.trans (congrArg Host.Outcome.next (if_neg (Bool.eq_false_iff.mp hactive)))⟩

end Sys2Proof.Machine

/-! PROOFS. The timebase's servo, its sources and the calls that set it (R219 to R224): one lemma per case of each command. -/

namespace Sys2Proof.Machine

/-! ### A phase error reaches the servo (R219 to R221) -/

/-- A state whose servo has taken a phase error: y is its own, and the run of samples within PHASE_LOCK goes on or ends. -/
def errorTaken (err : Int) (s : State) : State :=
  let v := servoWrites (setTime { s.time with phaseErr := err } s)
  setTime { v.time with goodRun := if err.natAbs ≤ 1000 * s.time.cfg.phaseLock then s.time.goodRun + 1 else 0 } v

@[simp] theorem setTime_time (x : TimeBase) (s : State) : (setTime x s).time = x := rfl

theorem frozen_iff {t : TimeBase} : frozen t = true ↔ t.st = .freerun ∨ t.st = .holdover := by simp [frozen]

section
variable {s : State} {err : Int}

theorem phaseSample_frozen (h : s.time.cfg.host = true ∨ s.time.st = .freerun ∨ s.time.st = .holdover) :
    phaseSample err s = setTime { s.time with phaseErr := err, goodRun := 0 } s :=
  if_pos ((Bool.or_eq_true _ _).mpr (h.imp_right frozen_iff.mpr))

section
variable (hhost : s.time.cfg.host = false) (hfree : s.time.st ≠ .freerun) (hhold : s.time.st ≠ .holdover)
include hhost hfree hhold

theorem phaseSample_running : phaseSample err s = let t := errorTaken err s
    match s.time.st with
    | .freqLocked => if 16 ≤ t.time.goodRun then setTimeSt .locked t else if err.natAbs ≤ 1000 * s.time.cfg.phaseLock then t else removeError err t
    | .locked => if err.natAbs ≤ 1000 * s.time.cfg.phaseLock then t else setTimeSt .freqLocked t
    | .acquiring => removeError err t
    | _ => t :=
  if_neg (by simp [frozen, hhost, hfree, hhold])

theorem phaseSample_freqLocked (hst : s.time.st = .freqLocked) : phaseSample err s =
    if err.natAbs ≤ 1000 * s.time.cfg.phaseLock ∧ 16 ≤ s.time.goodRun + 1 then setTimeSt .locked (errorTaken err s)
    else if err.natAbs ≤ 1000 * s.time.cfg.phaseLock then errorTaken err s else removeError err (errorTaken err s) := by
  rw [phaseSample_running hhost hfree hhold, hst]
  have hrun : (errorTaken err s).time.goodRun = if err.natAbs ≤ 1000 * s.time.cfg.phaseLock then s.time.goodRun + 1 else 0 := rfl
  dsimp only
  rw [hrun]
  by_cases hgood : err.natAbs ≤ 1000 * s.time.cfg.phaseLock
  · simp only [hgood, if_true, true_and]
  · simp [hgood]

theorem phaseSample_locked (hst : s.time.st = .locked) : phaseSample err s =
    if err.natAbs ≤ 1000 * s.time.cfg.phaseLock then errorTaken err s else setTimeSt .freqLocked (errorTaken err s) := by
  rw [phaseSample_running hhost hfree hhold, hst]

theorem phaseSample_acquiring (hst : s.time.st = .acquiring) : phaseSample err s = removeError err (errorTaken err s) := by
  rw [phaseSample_running hhost hfree hhold, hst]

theorem phaseSample_host (hst : s.time.st = .host) : phaseSample err s = errorTaken err s := by
  rw [phaseSample_running hhost hfree hhold, hst]

end

theorem removeError_eq (err : Int) (w : State) : removeError err w = if allClosed w = true ∧ 1000000 < err.natAbs
    then setTime { w.time with steps := w.time.steps ++ [(applyPointFor w.tb 0 / frameTb, -(err * 2 ^ 40 / 1000))] } w
    else setTime { w.time with slew := some (slewOf (-err)) } w := by
  simp only [removeError, Bool.and_eq_true, decide_eq_true_eq]

/-! ### Edges and the state of the loops (R219, R220) -/

theorem ppsEdge_idle {phase : Nat} (h : s.time.cfg.phaseSrc ≠ 2) : ppsEdge phase s = s := if_pos h

/-- An edge from 1 µs before a second to 1 µs after it is that second's (R219). -/
def ppsKept (err : Rat) (sec : Int) (s : State) : State :=
  if -1000000 ≤ err ∧ err < 1000000 then setTime { s.time with ppsSec := max s.time.ppsSec sec.toNat } s else s

theorem ppsEdge_taken {phase : Nat} (h : s.time.cfg.phaseSrc = 2) : ppsEdge phase s =
    let ps := eventPs s phase - (s.time.cfg.ppsInDelay : Nat)
    let sec := roundUpHalf (ps / (secPs : Nat))
    let err := ps - (sec : Rat) * (secPs : Nat)
    phaseSample (roundAway err) (ppsKept err sec s) := by
  simp only [ppsEdge, ppsKept, h, Bool.and_eq_true, decide_eq_true_eq, ne_eq, not_true_eq_false, if_false]

theorem freqSettled_idle (h : s.time.st ≠ .acquiring) : freqSettled s = s := if_pos h

theorem freqSettled_locks (h : s.time.st = .acquiring) : freqSettled s =
    setTimeSt (if s.time.cfg.phaseSrc ≠ 0 ∧ 16 ≤ s.time.goodRun then .locked else .freqLocked) (servoWrites s) := by
  simp [freqSettled, h]

/-! ### Sources are lost and return (R219, R221) -/

theorem sourceLost_freq (hhost : s.time.cfg.host = false) (hsrc : s.time.cfg.freqSrc ≠ 0) (hkept : s.time.freqLost = false) :
    sourceLost false s = let x := { s.time with freqLost := true }; raise 649 [] [0] (setTimeSt (unlocked x) { s with time := x }) :=
  if_neg (by simp [hhost, hsrc, hkept])

theorem sourceLost_phase (hhost : s.time.cfg.host = false) (hsrc : s.time.cfg.phaseSrc ≠ 0) (hkept : s.time.phaseLost = false) :
    sourceLost true s = let x := { s.time with phaseLost := true }; raise 649 [] [1] (setTimeSt (unlocked x) { s with time := x }) :=
  if_neg (by simp [hhost, hsrc, hkept])

theorem sourceLost_freq_same (h : ¬ (s.time.cfg.host = false ∧ s.time.cfg.freqSrc ≠ 0 ∧ s.time.freqLost = false)) : sourceLost false s = s :=
  if_pos (by simpa [or_iff_not_imp_left] using h)

theorem sourceLost_phase_same (h : ¬ (s.time.cfg.host = false ∧ s.time.cfg.phaseSrc ≠ 0 ∧ s.time.phaseLost = false)) : sourceLost true s = s :=
  if_pos (by simpa [or_iff_not_imp_left] using h)

theorem freqLostNow_lost (h : s.time.cfg.freqSrc = 2 ∨ freqGone s = true) : freqLostNow s = sourceLost false s := if_pos (by simpa using h)

theorem freqLostNow_idle (h : ¬ (s.time.cfg.freqSrc = 2 ∨ freqGone s = true)) : freqLostNow s = s := if_neg (by simpa using h)

theorem phaseLostNow_lost (h : phaseGone s = true) : phaseLostNow s = sourceLost true s := if_pos h

theorem phaseLostNow_idle (h : phaseGone s = false) : phaseLostNow s = s := if_neg (by simp [h])

theorem sourceReturn_freq (h : s.time.cfg.host = false ∧ s.time.freqLost = true ∧ freqGone s = false) :
    sourceReturn false s = let x := { s.time with freqLost := false, goodRun := 0 }; setTimeSt (unlocked x) { s with time := x } :=
  if_neg (by simp [h])

theorem sourceReturn_phase (h : s.time.cfg.host = false ∧ s.time.phaseLost = true ∧ phaseGone s = false) :
    sourceReturn true s = let x := { s.time with phaseLost := false, goodRun := 0 }; setTimeSt (unlocked x) { s with time := x } :=
  if_neg (by simp [h])

theorem sourceReturn_freq_same (h : ¬ (s.time.cfg.host = false ∧ s.time.freqLost = true ∧ freqGone s = false)) : sourceReturn false s = s :=
  if_pos (by simpa [or_iff_not_imp_left] using h)

theorem sourceReturn_phase_same (h : ¬ (s.time.cfg.host = false ∧ s.time.phaseLost = true ∧ phaseGone s = false)) : sourceReturn true s = s :=
  if_pos (by simpa [or_iff_not_imp_left] using h)

/-! ### A slew ends (R223) -/

theorem slewComplete_ends {r : Int} (h : s.time.slew = some r) (hrate : slewRate s.time ≠ 0) : slewComplete s =
    { s with tb := s.tb + (r * (1000000000000 + s.time.y + slewRate s.time) / (slewRate s.time * 1000000000000)).toNat,
             time := { s.time with slew := none } } := by
  simp [slewComplete, h, hrate]

theorem slewComplete_idle (h : s.time.slew = none ∨ slewRate s.time = 0) : slewComplete s = s := by
  unfold slewComplete
  dsimp only
  split
  · next r hslew => exact if_pos (by simpa [hslew] using h)
  · rfl

end

/-! ### The calls that set frequency, slew and step (R222 to R224) -/

section
variable {s : State} {ws : List Word}

theorem timeFreqAdjust_badArg (h : (pw ws 0).toInt < -15000000 ∨ 15000000 < (pw ws 0).toInt) : timeFreqAdjust ws s = .error .badArg := by
  have hrange : (decide (-yMax ≤ (pw ws 0).toInt) && decide ((pw ws 0).toInt ≤ yMax)) = false := by
    rw [Bool.and_eq_false_iff, decide_eq_false_iff_not, decide_eq_false_iff_not, yMax]
    omega
  simp [timeFreqAdjust, hrange]

section
variable (hlow : -15000000 ≤ (pw ws 0).toInt) (hhigh : (pw ws 0).toInt ≤ 15000000)
include hlow hhigh

theorem timeFreqAdjust_inRange : timeFreqAdjust ws s =
    need s.time.cfg.host .badState >>= fun _ => .ok (setTime { s.time with y := (pw ws 0).toInt } s, []) := by
  simp [timeFreqAdjust, yMax, hlow, hhigh]
  rfl

theorem timeFreqAdjust_badState (hhost : s.time.cfg.host = false) : timeFreqAdjust ws s = .error .badState := by
  simp [timeFreqAdjust_inRange hlow hhigh, hhost]

theorem timeFreqAdjust_done (hhost : s.time.cfg.host = true) :
    timeFreqAdjust ws s = .ok ({ s with time := { s.time with y := (pw ws 0).toInt } }, []) := by
  simp [timeFreqAdjust_inRange hlow hhigh, hhost, setTime]

end

theorem timePhaseSlew_done (h : s.time.cfg.host = true ∨ s.time.cfg.phaseSrc = 0) :
    timePhaseSlew ws s = .ok ({ s with time := { s.time with slew := some (slewOf (pw ws 0).toInt) } }, []) := by
  have hmay : (s.time.cfg.host || decide (s.time.cfg.phaseSrc = 0)) = true := by simpa using h
  simp only [timePhaseSlew, hmay, need_true, res_bind_ok]
  rfl

theorem timePhaseSlew_badState (h : ¬ (s.time.cfg.host = true ∨ s.time.cfg.phaseSrc = 0)) : timePhaseSlew ws s = .error .badState := by
  have hmay : (s.time.cfg.host || decide (s.time.cfg.phaseSrc = 0)) = false := by simpa using h
  simp only [timePhaseSlew, hmay, need_false, res_bind_error]

theorem timePhaseStep_badState (h : allClosed s = false) : timePhaseStep ws s = .error .badState := by
  simp only [timePhaseStep, h, need_false, res_bind_error]

theorem timePhaseStep_done (h : allClosed s = true) : timePhaseStep ws s =
    .ok ({ s with time := { s.time with steps := s.time.steps ++
      [(applyPointFor s.tb 0 / frameTb, sgn 64 (wide ws 0 2) * (2 ^ 40 : Nat) + (fld (pw ws 2) 15 0 * 2 ^ 24 : Nat))] } },
      toWords 2 (applyPointFor s.tb 0 / 2 ^ 40)) := by
  simp only [timePhaseStep, h, need_true, res_bind_ok]
  rfl

theorem timePhaseSample_idle (h : s.time.cfg.phaseSrc ≠ 1) : timePhaseSample ws s = s := by simp [timePhaseSample, h]

theorem timePhaseSample_taken (h : s.time.cfg.phaseSrc = 1) : timePhaseSample ws s = let v := setTime { s.time with phaseAt := s.tb } s
    if nowNs s < wide ws 1 2 then phaseSample (Config.freeWord s.free).toInt (drawn v) else phaseSample (pw ws 0).toInt v := by
  simp [timePhaseSample, h]
  rfl

end

/-- Settles O34: the servo by its state, each source by whether it shows, and each call by what its body gives. -/
theorem timebaseServoAndHostControl : Obligations.TimebaseServoAndHostControl := by
  unfold Obligations.TimebaseServoAndHostControl
  refine ⟨fun err s => ⟨phaseSample_frozen, fun hhost hfree hhold => ⟨phaseSample_freqLocked hhost hfree hhold, phaseSample_locked hhost hfree hhold,
    phaseSample_acquiring hhost hfree hhold, removeError_eq err _, phaseSample_host hhost hfree hhold⟩⟩, fun s c => ?commands⟩
  intro t
  refine ⟨fun phase => ⟨fun h => congrArg Host.Outcome.next (ppsEdge_idle h), fun h => congrArg Host.Outcome.next (ppsEdge_taken h)⟩,
    fun h => congrArg Host.Outcome.next (freqSettled_locks h), fun h => congrArg Host.Outcome.next (freqSettled_idle h),
    ⟨fun hlost hopen => ?freqLost, fun h => ?freqKept⟩, ⟨fun hgone hopen => ?phaseLost, fun h => ?phaseKept⟩,
    ⟨fun h => congrArg Host.Outcome.next (sourceReturn_freq h), fun h => congrArg Host.Outcome.next (sourceReturn_freq_same h)⟩,
    ⟨fun h => congrArg Host.Outcome.next (sourceReturn_phase h), fun h => congrArg Host.Outcome.next (sourceReturn_phase_same h)⟩,
    fun r h hrate => congrArg Host.Outcome.next (slewComplete_ends h hrate), fun h => congrArg Host.Outcome.next (slewComplete_idle h),
    fun hserved => ?adjust, fun hserved => ?slew, fun hserved => ?step, fun hserved => ?sample⟩
  case freqLost =>
    obtain ⟨hhost, hsrc, hkept⟩ := hopen
    exact congrArg Host.Outcome.next ((freqLostNow_lost hlost).trans (sourceLost_freq hhost hsrc hkept))
  case freqKept =>
    refine congrArg Host.Outcome.next ?_
    by_cases hlost : s.time.cfg.freqSrc = 2 ∨ freqGone s = true
    · exact (freqLostNow_lost hlost).trans (sourceLost_freq_same (h.resolve_left (not_not_intro hlost)))
    · exact freqLostNow_idle hlost
  case phaseLost =>
    obtain ⟨hhost, hsrc, hkept⟩ := hopen
    exact congrArg Host.Outcome.next ((phaseLostNow_lost hgone).trans (sourceLost_phase hhost hsrc hkept))
  case phaseKept =>
    refine congrArg Host.Outcome.next ?_
    cases hgone : phaseGone s with
    | false => exact phaseLostNow_idle hgone
    | true => exact (phaseLostNow_lost hgone).trans (sourceLost_phase_same (h.resolve_left (by simp [hgone])))
  case adjust =>
    exact ⟨fun h => serveAct_refused hserved _ (timeFreqAdjust_badArg h),
      fun hlow hhigh hhost => serveAct_refused hserved _ (timeFreqAdjust_badState hlow hhigh hhost),
      fun hlow hhigh hhost => serveAct_done hserved _ (timeFreqAdjust_done hlow hhigh hhost)⟩
  case slew =>
    exact ⟨fun h => serveAct_done hserved _ (timePhaseSlew_done h), fun h => serveAct_refused hserved _ (timePhaseSlew_badState h)⟩
  case step =>
    exact ⟨fun h => serveAct_refused hserved _ (timePhaseStep_badState h), fun h => serveAct_done hserved _ (timePhaseStep_done h)⟩
  case sample =>
    intro u v
    have hanswer : Answered (.timePhaseSample c) timePhaseSampleSpec c s [] (timePhaseSample c.words u) :=
      serveAct_done hserved (fun s => .ok (timePhaseSample c.words s, [])) rfl
    refine ⟨fun h => ?_, fun h hpast => ?_, fun h hahead => ?_⟩
    · rwa [timePhaseSample_idle h] at hanswer
    · rwa [timePhaseSample_taken h, if_neg (Nat.not_lt.mpr hpast)] at hanswer
    · rwa [timePhaseSample_taken h, if_pos hahead] at hanswer

end Sys2Proof.Machine

/-! PROOFS. Keystone's firings, the time pins and the calls that read the time (R220, R225, R226, R228 to R230, R235, R237, R238): one lemma
per case of each command. -/

namespace Sys2Proof.Machine

section
variable {s : State}

/-! ### The firing that is due (R228 to R230) -/

section
variable {n k : Nat}

theorem dueFiring_absent (h : keyEntry s n = none) : dueFiring s n k = none := by
  unfold dueFiring
  rw [h]

section
variable {e : KEntry} (hentry : keyEntry s n = some e)
include hentry

theorem dueFiring_other (h : keyValid e = false ∨ keyKind e ≠ k) : dueFiring s n k = none := by
  unfold dueFiring
  rw [hentry]
  exact if_pos (by simpa using h)

theorem dueFiring_grid (hvalid : keyValid e = true) (hkind : keyKind e = k) (hgrid : bit (pw e.words 0) 27 = false) :
    dueFiring s n k = if gridAfter e e.done ≤ nowPs s then some (e, gridAfter e e.done) else none := by
  unfold dueFiring
  rw [hentry]
  simp [hvalid, hkind, keyInstant, hgrid]

end

theorem firstSlip_iff {g : Nat} : firstSlip s n g = true ↔
    ∀ e ∈ s.time.keystone, e.1 < n → rivalTick s (tickOf g) e = some (tickOf g) → slipOf s e.1 g = 0 := by
  simp only [firstSlip, List.all_eq_true, List.mem_filter, Bool.or_eq_true, decide_eq_true_eq, and_imp, ne_eq, ← imp_iff_not_or]

/-- Where an entry fires at an instant: its slip has been counted and told, and the firing counts against COUNT. -/
def firedAt (n : Nat) (e : KEntry) (g : Nat) (s : State) : State :=
  setKey n (e.fired 1 g) (if slipOf s n g = 0 then s else slipped n g s)

theorem keyPin_idle (h : dueFiring s n 0 = none) : keyPin n s = s := by
  unfold keyPin
  rw [h]

theorem keyPin_fires {e : KEntry} {g : Nat} (h : dueFiring s n 0 = some (e, g)) :
    keyPin n s = pinPulse e (g + 1600 * slipOf s n g) (firedAt n e g s) := by
  unfold keyPin
  rw [h]
  rfl

end

/-! ### Pins (R230, R235) -/

section
variable {e : KEntry} {rise : Nat}

/-- A pin's pulse once another has met it (R230). -/
def merged (pulse : Option (Nat × Nat)) (rise fall : Nat) : Option (Nat × Nat) :=
  match pulse with
  | some (r, f) => if rise ≤ f ∧ r ≤ fall then some (min r rise, max f fall) else some (rise, fall)
  | none => some (rise, fall)

theorem pinPulse_idle (h : (kgetD s.time.pins (fld (pw e.words 1) 1 0) {}).mode ≠ 2) : pinPulse e rise s = s := if_neg h

theorem pinPulse_drives (h : (kgetD s.time.pins (fld (pw e.words 1) 1 0) {}).mode = 2) : pinPulse e rise s =
    let pin := fld (pw e.words 1) 1 0
    let x := kgetD s.time.pins pin {}
    let fall := rise + 1600 * fld (pw e.words 1) 15 8
    emit (.level 0 pin rise fall) (setTime { s.time with pins := kset s.time.pins pin { x with pulse := merged x.pulse rise fall } } s) := by
  unfold pinPulse merged
  dsimp only
  rw [if_pos h]
  cases (kgetD s.time.pins (fld (pw e.words 1) 1 0) {}).pulse with
  | none => rfl
  | some p => simp only [Bool.and_eq_true, decide_eq_true_eq, apply_ite some]

end

section
variable {pin phase : Nat} {rising : Bool}

/-- Whether a pin stamps an edge (R235). -/
abbrev asksFor (x : TPin) (rising : Bool) : Prop := if rising then x.edge % 2 = 1 else x.edge / 2 % 2 = 1

theorem pinEdge_unasked (h : (kgetD s.time.pins pin {}).mode ≠ 1 ∨ ¬ asksFor (kgetD s.time.pins pin {}) rising) :
    pinEdge pin phase rising s = s := by
  refine if_pos ?_
  cases rising <;> simpa [asksFor] using h

section
variable (hmode : (kgetD s.time.pins pin {}).mode = 1) (hasked : asksFor (kgetD s.time.pins pin {}) rising)
include hmode hasked

theorem pinEdge_asked : pinEdge pin phase rising s =
    let x := kgetD s.time.pins pin {}
    let st := stampOf (eventPs s phase - (x.delay : Nat))
    let l := x.stamps ++ [(st.1, rising, st.2)]
    if 16 ≤ x.stamps.length then
      raise 647 [] [wd pin] (cnt (cPin pin) 1 { s with time := { s.time with pins := kset s.time.pins pin { x with lost := min 0xFFFF (x.lost + 1) } } })
    else raise (641 + pin) [] [wd l.length] { s with time := { s.time with pins := kset s.time.pins pin { x with stamps := l } } } := by
  refine if_neg ?_
  cases rising <;> simpa [hmode, asksFor] using hasked

theorem pinEdge_stamps (hroom : (kgetD s.time.pins pin {}).stamps.length < 16) : pinEdge pin phase rising s =
    let x := kgetD s.time.pins pin {}
    let st := stampOf (eventPs s phase - (x.delay : Nat))
    let l := x.stamps ++ [(st.1, rising, st.2)]
    raise (641 + pin) [] [wd l.length] { s with time := { s.time with pins := kset s.time.pins pin { x with stamps := l } } } :=
  (pinEdge_asked hmode hasked).trans (if_neg (Nat.not_le.mpr hroom))

theorem pinEdge_loses (hfull : 16 ≤ (kgetD s.time.pins pin {}).stamps.length) : pinEdge pin phase rising s =
    let x := kgetD s.time.pins pin {}
    raise 647 [] [wd pin] (cnt (cPin pin) 1 { s with time := { s.time with pins := kset s.time.pins pin { x with lost := min 0xFFFF (x.lost + 1) } } }) :=
  (pinEdge_asked hmode hasked).trans (if_pos hfull)

end

end

/-- The last second whose pulse is due on TIME_PPS_OUT (R220). -/
def ppsSecond (s : State) : Nat := (nowPs s + s.time.cfg.ppsOutAdv) / secPs

/-- The rising edge of that pulse: ahead of its second by PPS_OUT_ADV (R220). -/
def ppsRise (s : State) : Nat := ppsSecond s * secPs - s.time.cfg.ppsOutAdv

theorem ppsOut_idle (h : ppsSecond s ≤ s.time.ppsDone) : ppsOut s = s := if_pos h

theorem ppsOut_due (h : s.time.ppsDone < ppsSecond s) : ppsOut s =
    let fall := ppsRise s + 1000000 * s.time.cfg.ppsWidth
    if ppsRuns s.time then emit (.level 1 0 (ppsRise s) fall) (setTime { s.time with ppsDone := ppsSecond s, pps := some (ppsRise s, fall) } s)
    else setTime { s.time with ppsDone := ppsSecond s } s :=
  if_neg (Nat.not_le.mpr h)

theorem ppsRuns_iff : ppsRuns s.time = true ↔ s.time.st = .locked ∨ s.time.st = .holdover ∨ s.time.cfg.ppsForce = true := by
  simp [ppsRuns, or_assoc]

/-! ### The calls (R225, R226, R229, R235, R237, R238) -/

section
variable {ch : Nat} {ws : List Word}

theorem keystoneRead_absent (h : keyEntry s (fld (pw ws 0) 10 0) = none) : keystoneRead ws s = [0, 0, 0, 0, 0, 0] := by
  unfold keystoneRead
  rw [h]

theorem keystoneRead_entry {e : KEntry} (h : keyEntry s (fld (pw ws 0) 10 0) = some e) : keystoneRead ws s =
    let f := if launchServed s e then launched e (nowPs s + 1) else e
    [pw f.words 0 &&& (if f.stopped then 0x7FFFFFFF else 0xFFFFFFFF), pw f.words 1, pw f.words 2, pw f.words 3, pw f.words 4, wd f.firings] := by
  unfold keystoneRead
  rw [h]
  rfl

/-- Whether the arguments of a `TOD_CALC` are in range (R226). -/
abbrev TodArgs (ws : List Word) : Prop :=
  fld (pw ws 0) 1 0 ≤ 2 ∧ 16 ≤ fld (pw ws 1) 15 0 ∧ fld (pw ws 1) 15 0 ≤ 64000 ∧
    -1000 ≤ sgn 16 (fld (pw ws 1) 31 16) ∧ sgn 16 (fld (pw ws 1) 31 16) ≤ 1000

/-- Whether a time of day can be given: of the Pier alone, or of an ONU that is ACTIVE on it (R226). -/
abbrev TodReady (ws : List Word) (s : State) : Prop :=
  let x := onuOf s (fld (pw ws 0) 12 8) (fld (pw ws 0) 24 16)
  bit (pw ws 0) 31 = true ∨ (x.st = .active ∧ x.pier = fld (pw ws 0) 1 0)

/-- What a `TOD_CALC` answers (R226). -/
def todAnswer (ws : List Word) (s : State) : List Word :=
  let w := pw ws 0
  let n := ceilDiv s.tb frameTb + fld (pw ws 1) 15 0
  let a : Int := if bit w 31 then 0 else roundAway (correctionA s (fld w 12 8) (fld w 1 0) (fld w 24 16) (sgn 16 (fld (pw ws 1) 31 16)))
  let v := (roundAway (((n : Rat) * 125000000 + (pierOf s (fld w 12 8) (fld w 1 0)).tTx + a) * 65536 / 1000)).toNat
  toWords 2 (sfcOf (fld w 1 0) n) ++ toWords 2 (v / 65536) ++ [wd (v % 65536), wd (unsgn 32 a)]

/-- `TOD_CALC` is its checks in their order, then its answer. -/
theorem todCalc_eq : todCalc ch ws s = needOwner s ch (onuOwner s (fld (pw ws 0) 12 8) (fld (pw ws 0) 24 16)) >>= fun _ =>
    need (decide (TodArgs ws)) .badArg >>= fun _ => need (decide (TodReady ws s)) .badState >>= fun _ => .ok (todAnswer ws s) := by
  simp only [todCalc, TodArgs, TodReady, Bool.decide_and, Bool.decide_or, Bool.decide_eq_true, Bool.and_assoc]
  rfl

theorem todCalc_notOwner (h : ¬ needOwner s ch (onuOwner s (fld (pw ws 0) 12 8) (fld (pw ws 0) 24 16)) = .ok ()) :
    todCalc ch ws s = .error .notOwner := by
  rw [todCalc_eq, needOwner_not_ok h, res_bind_error]

section
variable (hmine : needOwner s ch (onuOwner s (fld (pw ws 0) 12 8) (fld (pw ws 0) 24 16)) = .ok ())
include hmine

theorem todCalc_badArg (h : ¬ TodArgs ws) : todCalc ch ws s = .error .badArg := by
  rw [todCalc_eq, hmine, res_bind_ok, decide_eq_false h, need_false, res_bind_error]

section
variable (hargs : TodArgs ws)
include hargs

theorem todCalc_badState (h : ¬ TodReady ws s) : todCalc ch ws s = .error .badState := by
  rw [todCalc_eq, hmine, res_bind_ok, decide_eq_true hargs, need_true, res_bind_ok, decide_eq_false h, need_false, res_bind_error]

theorem todCalc_done (h : TodReady ws s) : todCalc ch ws s = .ok (todAnswer ws s) := by
  rw [todCalc_eq, hmine, res_bind_ok, decide_eq_true hargs, need_true, res_bind_ok, decide_eq_true h, need_true, res_bind_ok]

end

end

/-- The transmit stamp that a `PTP_TXTS_READ` names, where it stands in its port's store (R237). -/
def namedStamp (ws : List Word) (s : State) : Option (Nat × Nat) :=
  (kgetD s.time.ptpStamps (fld (pw ws 0) 4 0) []).find? fun e =>
    e.1 = fld (pw ws 0) 11 8 * 2 ^ 24 + fld (pw ws 0) 23 16 * 2 ^ 16 + fld (pw ws 1) 15 0

/-- A transmit stamp leaves its port's store (R237). -/
def stampTaken (port : Nat) (e : Nat × Nat) (s : State) : State :=
  { s with time := { s.time with ptpStamps := kset s.time.ptpStamps port ((kgetD s.time.ptpStamps port []).erase e) } }

theorem ptpTxtsRead_badArg (h : 23 < fld (pw ws 0) 4 0) : ptpTxtsRead ws s = .error .badArg := if_pos h

section
variable (hport : fld (pw ws 0) 4 0 ≤ 23)
include hport

theorem ptpTxtsRead_eq : ptpTxtsRead ws s = match namedStamp ws s with
    | none => .error .badState
    | some e => .ok (stampTaken (fld (pw ws 0) 4 0) e s, toWords 2 (e.2 / 65536) ++ [wd (e.2 % 65536)]) :=
  if_neg (Nat.not_lt.mpr hport)

theorem ptpTxtsRead_absent (h : namedStamp ws s = none) : ptpTxtsRead ws s = .error .badState := by
  rw [ptpTxtsRead_eq hport, h]

theorem ptpTxtsRead_found {e : Nat × Nat} (h : namedStamp ws s = some e) :
    ptpTxtsRead ws s = .ok (stampTaken (fld (pw ws 0) 4 0) e s, toWords 2 (e.2 / 65536) ++ [wd (e.2 % 65536)]) := by
  rw [ptpTxtsRead_eq hport, h]

end

end

end

section
variable {s : State} {c : Call}

theorem exec_keystoneRead {ws : List Word} (hserved : Served keystoneReadSpec c s) (h : keystoneRead c.words (readCall 0x0411 c s) = ws) :
    Answered (.keystoneRead c) keystoneReadSpec c s ws (readCall 0x0411 c s) :=
  serveRead_done hserved (fun s => .ok (keystoneRead c.words s)) (congrArg Except.ok h)

end

/-- Settles O35: each firing and pulse by its instant, each pin by its mode, and each call by what its body gives. -/
theorem keystoneFiresAndTimePinsStamp : Obligations.KeystoneFiresAndTimePinsStamp := by
  unfold Obligations.KeystoneFiresAndTimePinsStamp
  intro s c t
  refine ⟨fun n k => ⟨dueFiring_absent, fun e => dueFiring_other, fun e => dueFiring_grid⟩,
    fun n => ⟨fun h => congrArg Host.Outcome.next (keyPin_idle h), fun e g h => congrArg Host.Outcome.next (keyPin_fires h)⟩,
    fun n g => firstSlip_iff, fun e rise => ⟨pinPulse_idle, pinPulse_drives⟩, fun pin phase rising => ?edge, ?pps,
    fun hserved => serveRead_done hserved (fun s => .ok (timeStatus s)) rfl, fun hserved => ?keystone, fun hserved => ?tod,
    fun hserved => serveAct_done hserved (fun s => .ok (timeEvtRead c.words s)) rfl,
    fun hserved => ?stamp⟩
  case edge =>
    exact ⟨fun h => congrArg Host.Outcome.next (pinEdge_unasked h),
      fun hmode hasked hroom => congrArg Host.Outcome.next (pinEdge_stamps hmode hasked hroom),
      fun hmode hasked hfull => congrArg Host.Outcome.next (pinEdge_loses hmode hasked hfull)⟩
  case pps =>
    intro sec rise fall runs
    exact ⟨fun h => congrArg Host.Outcome.next (ppsOut_idle h),
      fun h hruns => congrArg Host.Outcome.next ((ppsOut_due h).trans (if_pos (ppsRuns_iff.mpr hruns))),
      fun h hruns => congrArg Host.Outcome.next ((ppsOut_due h).trans (if_neg (mt ppsRuns_iff.mp hruns)))⟩
  case keystone =>
    exact ⟨fun h => exec_keystoneRead hserved (keystoneRead_absent h), fun e h => exec_keystoneRead hserved (keystoneRead_entry h)⟩
  case tod =>
    exact ⟨fun h => serveRead_refused hserved _ (todCalc_notOwner h), fun hmine h => serveRead_refused hserved _ (todCalc_badArg hmine h),
      fun hmine hargs h => serveRead_refused hserved _ (todCalc_badState hmine hargs h),
      fun hmine hargs h => serveRead_done hserved _ (todCalc_done hmine hargs h)⟩
  case stamp =>
    exact ⟨fun h => serveAct_refused hserved _ (ptpTxtsRead_badArg h), fun hport h => serveAct_refused hserved _ (ptpTxtsRead_absent hport h),
      fun e hport h => serveAct_done hserved _ (ptpTxtsRead_found hport h)⟩

end Sys2Proof.Machine

/-! PROOFS. The loop buses (R229, R230, R233, R427, R429, R430, R432, R435, R444): firings in their turn, conversion times, frames and the
law of a cycle, one lemma per case. -/

namespace Sys2Proof.Machine

section
variable {s : State}

/-! ### Firings of converters and loops (R229, R230, R233) -/

section
variable {n kind : Nat} {turn : Nat → State → State}

theorem inTurn_idle (h : dueFiring s n kind = none) : inTurn n kind turn s = s := by
  unfold inTurn
  rw [h]

section
variable {e : KEntry} {g : Nat}

theorem inTurn_due (h : dueFiring s n kind = some (e, g)) : inTurn n kind turn s = forEach (firesFirst s n kind e g ++ [n]) turn s := by
  unfold inTurn
  rw [h]

theorem keyDropped_one : keyDropped n 1 e g s = raise 646 [] [wd n] (cnt (cDev 5) 1 (passBy n e g s)) := rfl

section
variable (h : dueFiring s n 1 = some (e, g))
include h

/-- What a CONV firing does by whether its entry is anchored to an ONU that is not ACTIVE, and whether its bus is ON. -/
theorem convTurn_due : convTurn n s =
    if bit (pw e.words 0) 27 && !keyActive s e then passBy n e g s
    else if !domOn s (domLb (fld (pw e.words 1) 2 0)) then keyDropped n 1 e g s
    else convFire (fld (pw e.words 1) 2 0) (fld (pw e.words 1) 11 4)
      (if bit (pw e.words 0) 27 then (keyAnchor s e e.done).map fun a => (a.onu, a.burst) else none)
      (g + 1600 * slipOf s n g) (firedAt n e g s) := by
  unfold convTurn
  rw [h]
  rfl

theorem convTurn_passes (hanchored : bit (pw e.words 0) 27 = true) (hidle : keyActive s e = false) : convTurn n s = passBy n e g s :=
  (convTurn_due h).trans (if_pos (by simp [hanchored, hidle]))

section
variable (hgo : ¬ (bit (pw e.words 0) 27 = true ∧ keyActive s e = false))
include hgo

theorem convTurn_dropped (hbus : domOn s (domLb (fld (pw e.words 1) 2 0)) = false) : convTurn n s = keyDropped n 1 e g s :=
  (convTurn_due h).trans ((if_neg (by simpa using hgo)).trans (if_pos (by simp [hbus])))

theorem convTurn_fires (hbus : domOn s (domLb (fld (pw e.words 1) 2 0)) = true) : convTurn n s =
    convFire (fld (pw e.words 1) 2 0) (fld (pw e.words 1) 11 4)
      (if bit (pw e.words 0) 27 then (keyAnchor s e e.done).map fun a => (a.onu, a.burst) else none)
      (g + 1600 * slipOf s n g) (firedAt n e g s) :=
  (convTurn_due h).trans ((if_neg (by simpa using hgo)).trans (if_neg (by simp [hbus])))

end

end

section
variable (h : dueFiring s n 2 = some (e, g))
include h

theorem loopTurn_due : loopTurn n s =
    if !domOn s (domLb (fld (pw e.words 1) 2 0)) then keyDropped n 1 e g s
    else loopFire (fld (pw e.words 1) 2 0) (fld (pw e.words 1) 11 4) (g + 1600 * slipOf s n g) (firedAt n e g s) := by
  unfold loopTurn
  rw [h]
  rfl

theorem loopTurn_dropped (hbus : domOn s (domLb (fld (pw e.words 1) 2 0)) = false) : loopTurn n s = keyDropped n 1 e g s :=
  (loopTurn_due h).trans (if_pos (by simp [hbus]))

theorem loopTurn_fires (hbus : domOn s (domLb (fld (pw e.words 1) 2 0)) = true) : loopTurn n s =
    loopFire (fld (pw e.words 1) 2 0) (fld (pw e.words 1) 11 4) (g + 1600 * slipOf s n g) (firedAt n e g s) :=
  (loopTurn_due h).trans (if_neg (by simp [hbus]))

end

end

theorem keyActive_eq_false {e : KEntry} : keyActive s e = false ↔ (onuOf s (keyOnu e / 512) (keyOnu e % 512)).st ≠ .active := by
  simp [keyActive]

end

/-! ### The reads of a cycle are asked for (R430) -/

section
variable {k n : Nat}

theorem loopConvEnd_idle (h : (loopOf s k n).busy = false ∨ (loopOf s k n).awaited = 0) : loopConvEnd k n s = s :=
  if_pos (by simpa using h)

theorem loopConvEnd_awaited (hbusy : (loopOf s k n).busy = true) (hawaited : (loopOf s k n).awaited ≠ 0) : loopConvEnd k n s =
    let l := loopOf s k n
    let t := askFrame k ⟨2, false, l.cfg.inConv, 0, 0, some n, false, false, none, none⟩ (setLoop k n { l with awaited := 0 } s)
    if n / 12 = 2 then askFrame k ⟨2, false, l.cfg.auxConv, 0, 0, some n, true, false, none, none⟩ t else t :=
  if_neg (by simp [hbusy, hawaited])

end

/-! ### A frame completes (R426, R427, R429, R430) -/

/-- The value that a frame returns: an open one where no device answers (R426). -/
def frameValue (a : Option (BitVec 16)) (s : State) : Nat :=
  match a with | some v => v.toNat | none => fld (Config.freeWord s.free) 15 0

/-- A frame has left its bus. -/
def frameGone (k : Nat) (f : LFrame) (a : Option (BitVec 16)) (s : State) : State :=
  emit (.loopFrame k (deviceOf f.conv) (frameWord f)) (cnt (cBus 0 k) 1 (modBus k (fun b => { b with frame := none }) (if a.isNone then drawn s else s)))

/-- The read before a frame on a device with READ_LAT 1 has its result (R427). -/
def lateResult (k : Nat) (f : LFrame) (value : Nat) (s : State) : State :=
  match kget (loopBus s k).pend (deviceOf f.conv) with
  | some g => readDone k g value (modBus k (fun b => { b with pend := kerase b.pend (deviceOf f.conv) }) s)
  | none => s

/-- After a frame the cycles that have read their inputs are computed, and the next frame starts (R429, R430). -/
def busGoesOn (k : Nat) (s : State) : State := startFrame k (computeCycles k (loopBus s k).order.length s)

section
variable {k : Nat} {f : LFrame} {value : Nat}

theorem frameLate_only (h : f.write = true ∨ f.again = true) : frameLate k f value s = lateResult k f value s := if_pos (by simpa using h)

theorem frameLate_again (hread : f.write = false) (hfirst : f.again = false) : frameLate k f value s = modBus k (fun b =>
    { b with pend := kset b.pend (deviceOf f.conv) f, waiting := insertFirst { f with again := true } b.waiting }) (lateResult k f value s) :=
  if_neg (by simp [hread, hfirst])

theorem frameDone_idle {a : Option (BitVec 16)} (h : (loopBus s k).frame = none) : frameDone k a s = s := by
  unfold frameDone
  dsimp only
  rw [h]

section
variable {a : Option (BitVec 16)} (h : (loopBus s k).frame = some f)
include h

theorem frameDone_frame : frameDone k a s =
    let t := frameGone k f a s
    let v := frameValue a s
    let u := if (loopBus s k).readLat.testBit (deviceOf f.conv) then frameLate k f v t else if f.write then t else readDone k f v t
    busGoesOn k (if f.write then frameWritten k f u else u) := by
  unfold frameDone
  dsimp only
  rw [h]
  rfl

section
variable (hlat : (loopBus s k).readLat.testBit (deviceOf f.conv) = false)
include hlat

theorem frameDone_read (hread : f.write = false) : frameDone k a s = busGoesOn k (readDone k f (frameValue a s) (frameGone k f a s)) := by
  simp [frameDone_frame h, hlat, hread]

theorem frameDone_written (hwrite : f.write = true) : frameDone k a s = busGoesOn k (frameWritten k f (frameGone k f a s)) := by
  simp [frameDone_frame h, hlat, hwrite]

end

section
variable (hlat : (loopBus s k).readLat.testBit (deviceOf f.conv) = true)
include hlat

theorem frameDone_late_written (hwrite : f.write = true) :
    frameDone k a s = busGoesOn k (frameWritten k f (lateResult k f (frameValue a s) (frameGone k f a s))) := by
  simp [frameDone_frame h, hlat, hwrite, frameLate_only]

theorem frameDone_late_second (hread : f.write = false) (hagain : f.again = true) :
    frameDone k a s = busGoesOn k (lateResult k f (frameValue a s) (frameGone k f a s)) := by
  simp [frameDone_frame h, hlat, hread, hagain, frameLate_only]

theorem frameDone_late_first (hread : f.write = false) (hfirst : f.again = false) :
    frameDone k a s = busGoesOn k (modBus k (fun b =>
      { b with pend := kset b.pend (deviceOf f.conv) f, waiting := insertFirst { f with again := true } b.waiting })
      (lateResult k f (frameValue a s) (frameGone k f a s))) := by
  simp [frameDone_frame h, hlat, hread, frameLate_again hread hfirst]

end

end

/-! ### What a frame's result reaches (R427, R430, R444) -/

theorem readDone_rssi {onu time burst : Nat} (h : f.rssi = some (onu, time, burst)) :
    readDone k f value s = rssiRead k f.conv onu time burst value s := by
  unfold readDone
  rw [h]

theorem readDone_loop {n : Nat} (hrssi : f.rssi = none) (hloop : f.loop = some n) : readDone k f value s = loopRead_ k n f.aux value s := by
  unfold readDone
  rw [hrssi, hloop]

theorem readDone_nobody (hrssi : f.rssi = none) (hloop : f.loop = none) : readDone k f value s = s := by
  unfold readDone
  rw [hrssi, hloop]

theorem frameWritten_nobody (hout : f.out = none) (hloop : f.loop = none) : frameWritten k f s = s := by
  unfold frameWritten
  rw [hout, hloop]

theorem frameWritten_cycle {n : Nat} (hout : f.out = none) (hloop : f.loop = some n) :
    frameWritten k f s = if (loopOf s k n).busy then writeDone k n s else s := by
  unfold frameWritten
  rw [hout, hloop]

theorem frameWritten_driver {n : Nat} (hout : f.out = some n) (hloop : f.loop = none) :
    frameWritten k f s = modLoop k n (fun l => { l with written := some (outCode l.cfg f.data) }) s := by
  unfold frameWritten
  rw [hout, hloop]

end

end

/-! ### The law of a cycle (R432) -/

section
variable {lo hi x b : Int}

theorem le_clampI (hx : b ≤ x) (hhi : b ≤ hi) : b ≤ clampI lo hi x := by
  unfold clampI
  split_ifs <;> omega

theorem clampI_le (hlo : lo ≤ b) (hx : x ≤ b) : clampI lo hi x ≤ b := by
  unfold clampI
  split_ifs <;> omega

theorem clampI_mem (h : lo ≤ hi) : lo ≤ clampI lo hi x ∧ clampI lo hi x ≤ hi := by
  unfold clampI
  split_ifs <;> omega

theorem clampI_of_mem (hlo : lo ≤ x) (hhi : x ≤ hi) : clampI lo hi x = x := by
  rw [clampI, if_neg (not_lt.mpr hlo), if_neg (not_lt.mpr hhi)]

theorem clip_of_mem {c : Clipped} (hlo : lo ≤ c.u) (hhi : c.u ≤ hi) : c.clip lo hi = c := by
  simp [Clipped.clip, clampI_of_mem hlo hhi]

end

section
variable {l : Loop} {e : Int}

/-- The integrator that the law gives where no limit acts (R432). -/
def freeIntegral (l : Loop) (e : Int) : Int := l.i + l.cfg.ki * e

/-- The output that the law gives for an integrator where no limit acts (R432). -/
def freeOutput (l : Loop) (e i : Int) : Int := l.cfg.outBias + roundAway (((l.cfg.kp * e + i : Int) : Rat) / 65536)

/-- The integrator within its limits (R432). -/
def heldIntegral (l : Loop) (e : Int) : Int :=
  clampI ((l.cfg.outMin - l.cfg.outBias) * 65536) ((l.cfg.outMax - l.cfg.outBias) * 65536) (freeIntegral l e)

/-- An output after the clips of a cycle without a thermal budget: OUT_MIN and OUT_MAX, then SLEW (R432). -/
def clips (l : Loop) (u : Int) : Clipped :=
  (Clipped.clip ⟨u, false, false⟩ l.cfg.outMin l.cfg.outMax).clip (l.u - l.cfg.slew) (l.u + l.cfg.slew)

theorem piLaw_none : piLaw l e none =
    let b := clips l (freeOutput l e (heldIntegral l e))
    ⟨b.u, if (b.low && decide (0 < l.cfg.ki * e)) || (b.high && decide (l.cfg.ki * e < 0)) then l.i else heldIntegral l e, b.low || b.high, false⟩ := by
  simp [piLaw, clips, freeOutput, heldIntegral, freeIntegral]

theorem clips_u {u : Int} : (clips l u).u = clampI (l.u - l.cfg.slew) (l.u + l.cfg.slew) (clampI l.cfg.outMin l.cfg.outMax u) := rfl

theorem clips_mem {u : Int} (hlow : l.cfg.outMin ≤ l.u) (hhigh : l.u ≤ l.cfg.outMax) :
    l.cfg.outMin ≤ (clips l u).u ∧ (clips l u).u ≤ l.cfg.outMax := by
  obtain ⟨hmin, hmax⟩ := clampI_mem (x := u) (hlow.trans hhigh)
  exact ⟨le_clampI hmin (by omega), clampI_le (by omega) hmax⟩

theorem clips_slew {u : Int} : ((clips l u).u - l.u).natAbs ≤ l.cfg.slew := by
  have hmem := clampI_mem (x := clampI l.cfg.outMin l.cfg.outMax u) (show l.u - l.cfg.slew ≤ l.u + l.cfg.slew by omega)
  rw [← clips_u] at hmem
  omega

theorem clips_of_free {u : Int} (hmin : l.cfg.outMin ≤ u) (hmax : u ≤ l.cfg.outMax) (hslew : (u - l.u).natAbs ≤ l.cfg.slew) :
    clips l u = ⟨u, false, false⟩ := by
  unfold clips
  rw [clip_of_mem (c := ⟨u, false, false⟩) hmin hmax]
  exact clip_of_mem (c := ⟨u, false, false⟩) (show l.u - l.cfg.slew ≤ u by omega) (show u ≤ l.u + l.cfg.slew by omega)

theorem piLaw_of_free (hi : (l.cfg.outMin - l.cfg.outBias) * 65536 ≤ freeIntegral l e)
    (hi' : freeIntegral l e ≤ (l.cfg.outMax - l.cfg.outBias) * 65536) (hmin : l.cfg.outMin ≤ freeOutput l e (freeIntegral l e))
    (hmax : freeOutput l e (freeIntegral l e) ≤ l.cfg.outMax) (hslew : (freeOutput l e (freeIntegral l e) - l.u).natAbs ≤ l.cfg.slew) :
    piLaw l e none = ⟨freeOutput l e (freeIntegral l e), freeIntegral l e, false, false⟩ := by
  have hheld : heldIntegral l e = freeIntegral l e := clampI_of_mem hi hi'
  simp [piLaw_none, hheld, clips_of_free hmin hmax hslew]

end

/-- Settles O36: each firing by its turn and its bus, each frame by its device and kind, and the law by its clips. -/
theorem loopBusesCycle : Obligations.LoopBusesCycle := by
  unfold Obligations.LoopBusesCycle
  refine ⟨fun s => ⟨fun n => ⟨fun h => congrArg Host.Outcome.next (inTurn_idle h), fun h => congrArg Host.Outcome.next (inTurn_idle h)⟩,
    fun n e g => ?firing, fun k n => ⟨fun hbusy hawaited => congrArg Host.Outcome.next (loopConvEnd_awaited hbusy hawaited),
      fun h => congrArg Host.Outcome.next (loopConvEnd_idle h)⟩,
    fun k dev => rfl, fun k a h => congrArg Host.Outcome.next (frameDone_idle h), fun k f a h => ?frame,
    fun k f v => ⟨fun onu time burst => readDone_rssi, fun n => readDone_loop, readDone_nobody, frameWritten_nobody, fun n => frameWritten_cycle,
      fun n => frameWritten_driver⟩, fun k => rfl⟩, fun l e hlow hhigh _ => ?law⟩
  case firing =>
    intro k o anchored slip slid t passed idle burst
    have hidle : idle ↔ bit (pw e.words 0) 27 = true ∧ keyActive s e = false := and_congr_right' keyActive_eq_false.symm
    exact ⟨fun h => congrArg Host.Outcome.next (inTurn_due h), fun h hpass => convTurn_passes h (hidle.mp hpass).1 (hidle.mp hpass).2,
      fun h hgo hbus => (convTurn_dropped h (mt hidle.mpr hgo) hbus).trans keyDropped_one,
      fun h hgo hbus => convTurn_fires h (mt hidle.mpr hgo) hbus,
      fun h => congrArg Host.Outcome.next (inTurn_due h), fun h hbus => (loopTurn_dropped h hbus).trans keyDropped_one, loopTurn_fires⟩
  case frame =>
    intro v t dev on lat u
    exact ⟨fun hlat hread => congrArg Host.Outcome.next (frameDone_read h hlat hread),
      fun hlat hwrite => congrArg Host.Outcome.next (frameDone_written h hlat hwrite),
      fun hlat hwrite => congrArg Host.Outcome.next (frameDone_late_written h hlat hwrite),
      fun hlat hread hagain => congrArg Host.Outcome.next (frameDone_late_second h hlat hread hagain),
      fun hlat hread hfirst => congrArg Host.Outcome.next (frameDone_late_first h hlat hread hfirst)⟩
  case law =>
    intro r c
    have hr : r = _ := piLaw_none
    refine ⟨?min, ?max, ?slew, ?integral, fun hi hi' hmin hmax hslew => ?free⟩
    case min => exact hr ▸ (clips_mem hlow hhigh).1
    case max => exact hr ▸ (clips_mem hlow hhigh).2
    case slew => exact hr ▸ clips_slew
    case integral =>
      rw [hr]
      exact ite_eq_or_eq _ _ _
    case free =>
      have hfree : r = _ := piLaw_of_free hi hi' hmin hmax hslew
      rw [hfree]
      exact ⟨rfl, rfl, rfl⟩

end Sys2Proof.Machine

/-! PROOFS. A broadcast key for a Pier whose keys the device mirrors (R401, R418, R467): the KEY record goes out on the Hawser behind idle
codewords whose number is a free value of the model, so the item moves more than keys, the pair and its record of what left. -/

namespace Sys2Proof.Machine

theorem free_mirrorKey {sp pier ix : Nat} {onu : Option Nat} {k : Slot} {s : State} (hmirrors : mirrorsKeys s sp = true)
    (hup : s.red.hawser.up = true) : (mirrorKey sp onu pier ix k s).free = s.free + 1 := by
  unfold mirrorKey
  rw [if_pos hmirrors]
  exact free_recordOut _ _ _ hup

/-- A Pier's broadcast key is in NEXT, and its slot is held until it switches (R40, R401). -/
def bcastNext (sp p ix key : Nat) (s : State) : State :=
  addLater ⟨.bcastKey, 4 * (3 * sp + p) + ix⟩ (setPierKeys sp p ((pierKeys s sp p).put ix (nextSlot s sp key)) s)

/-- `PON_BCAST_KEY_SET` on a Pier whose keys are mirrored: the key waits for the acknowledgement of its record (R397, R418). -/
theorem ponBcastKeySet_mirrors {i : Item} {s : State} {sp p ix : Nat} (hpier : pierName (pw i.words 1) = (sp, p)) (hix : fld (pw i.words 1) 17 16 = ix)
    (hst : ((pierKeys s sp p).slot ix).st ≠ .active) (hmirrors : mirrorsKeys s sp = true) :
    ponBcastKeySet.apply i s = .ok (mirrorKey sp none p ix (nextSlot s sp (wide i.words 2 4)) (bcastNext sp p ix (wide i.words 2 4) s)) := by
  simp only [ponBcastKeySet, hpier, hix, decide_eq_true hst, need_true, res_bind_ok]
  exact congrArg Except.ok (if_pos hmirrors)

/-! ### The counterexample -/

/-- A broadcast key of index 1 for Pier 0 of Span 0. -/
def bcastKeyItem : Item :=
  { code := 0x0A05, chan := 0, slice := some 0, version := 0x0302, words := [0, 0x10000, 1, 2, 3, 4], dma := [], objs := [] }

theorem ponBcastKeySet_draws : ∃ t, ponBcastKeySet.apply bcastKeyItem mirroringState = .ok t ∧ t.free = mirroringState.free + 1 :=
  ⟨_, ponBcastKeySet_mirrors (sp := 0) (p := 0) (ix := 1) (by decide) (by decide) (by decide) (by decide), free_mirrorKey (by decide) rfl⟩

/-- Refutes O16: a broadcast key set for a Pier whose keys a PAIRED device with its Hawser up mirrors sends a KEY record, whose idle
codewords take the next free value; the statement's frame of `ponBcastKeySet` keeps `free`. -/
theorem not_timeCipherAndPairItemsTakeEffect : ¬ Obligations.TimeCipherAndPairItemsTakeEffect := by
  unfold Obligations.TimeCipherAndPairItemsTakeEffect
  intro h
  obtain ⟨-, -, -, -, -, -, -, -, hbcast, -⟩ := h bcastKeyItem mirroringState
  obtain ⟨t, happly, -, -, -, -, hframe⟩ := hbcast (.inl (by decide)) (by decide)
  obtain ⟨u, hdraws, hfree⟩ := ponBcastKeySet_draws
  have htu : t = u := Except.ok.inj (happly.symm.trans hdraws)
  have hkept := congrArg State.free hframe
  exact Nat.succ_ne_self _ (hfree.symm.trans (htu ▸ hkept))

end Sys2Proof.Machine

/-! PROOFS. The calls that read allocations, budgets, the Truss and the open bank, and the load of an image (R249, R257, R270, R272, R273,
R287, R301, R303, R304): what the body of each gives. -/

namespace Sys2Proof.Machine

section
variable {ch : Nat} {ws : List Word} {s : State}

/-! ### Allocations, budgets and the figures of a slice (R249, R257, R271, R304) -/

theorem needAlloc_not_ok {w : Word} (h : needAlloc s ch w ≠ .ok ()) : needAlloc s ch w = .error .notOwner := needOwner_not_ok h

theorem allocRead_notOwner (h : needAlloc s ch (pw ws 0) ≠ .ok ()) : allocRead ch ws s = .error .notOwner := by
  simp [allocRead, needAlloc_not_ok h]

theorem allocRead_badState (h : needAlloc s ch (pw ws 0) = .ok ()) (habsent : allocOf s (fld (pw ws 0) 4 0) (fld (pw ws 0) 26 16) = none) :
    allocRead ch ws s = .error .badState := by
  simp [allocRead, allocName, h, habsent]

theorem allocRead_done {x : Alloc} (h : needAlloc s ch (pw ws 0) = .ok ())
    (hx : allocOf s (fld (pw ws 0) 4 0) (fld (pw ws 0) 26 16) = some x) : allocRead ch ws s =
      .ok [putb (visitedIn s (fld (pw ws 0) 4 0) (frameNo s + 1) x) 31 ||| put x.onu 16 ||| wd x.line, wd x.d, wd x.lastGrant, wd x.reportFrame] := by
  simp only [allocRead, allocName, h, hx, res_bind_ok]
  rfl

theorem sliceBudgetRead_refused {e : Status} (h : readsSlice s ch (fld (pw ws 0) 19 16) = .error e) : sliceBudgetRead ch ws s = .error e := by
  simp only [sliceBudgetRead, h, res_bind_error]

theorem sliceBudgetRead_done (h : readsSlice s ch (fld (pw ws 0) 19 16) = .ok ()) : sliceBudgetRead ch ws s =
    let k := fld (pw ws 0) 19 16
    let sp := fld (pw ws 0) 4 0
    .ok ((List.range 3).map (fun p => wd (budgetOf s k sp p)) ++ (List.range 3).map (fun p => wd (guaranteed s sp k p % 65536)) ++
      (List.range 3).map fun p => wd (kgetD (spanOf s sp).used (3 * k + p) 0)) := by
  simp only [sliceBudgetRead, h, res_bind_ok]
  rfl

theorem openStats_refused {e : Status} (h : readsSlice s ch (fld (pw ws 0) 19 16) = .error e) : openStats ch ws s = .error e := by
  simp only [openStats, h, res_bind_error]

/-- Word 0 of OPEN_STATS: the slice's binding, or without one the CALL_LIMIT last given to it, 120 where none was set (R287, R304). -/
def boundWord (s : State) (k : Nat) : Word :=
  match kget s.pon.binds k with
  | some (e, n) => putb true 31 ||| put e 16 ||| wd n
  | none => wd (kgetD s.pon.limits k 120)

theorem openStats_done (h : readsSlice s ch (fld (pw ws 0) 19 16) = .ok ()) : openStats ch ws s =
    let k := fld (pw ws 0) 19 16
    let f := (trussOf s (fld (pw ws 0) 4 0)).last
    .ok [boundWord s k, wd (kgetD f.calls k 0 % 65536), wd (kgetD f.maxSteps k 0 % 65536), wd (kgetD f.ended k 0 % 65536)] := by
  simp only [openStats, h, res_bind_ok]
  rfl

/-! ### The open bank's status (R303) -/

theorem openStatus_active {g : OpenPage} (h : openImage s = some g) : openStatus s =
    [putb true 31 ||| putb s.pon.inactive.isSome 30 ||| put (g.entries.length - 1) 16 ||| wd g.words.length,
      maskOf ((List.range 16).filter fun k => (kget s.pon.binds k).isSome)] ++ wordsOfBytes g.digest := by
  simp only [openStatus, h]

theorem openStatus_off (h : openImage s = none) : openStatus s =
    [putb s.pon.inactive.isSome 30, maskOf ((List.range 16).filter fun k => (kget s.pon.binds k).isSome)] ++ List.replicate 12 0 := by
  simp only [openStatus, h]

/-! ### `OPEN_LOAD` (R272, R273, R301) -/

/-- Whether an `OPEN_ACTIVATE` is accepted and has not taken effect (R301). -/
def activationWaits (s : State) : Bool := s.ctl.txns.any fun t => (acceptedAt t).isSome && t.items.any fun i => i.code = 0x0602

/-- The bytes that an `OPEN_LOAD` takes from its caller, LEN and the image's key in them. -/
def loadLen (ws : List Word) : Nat := fld (pw ws 2) 15 0
def loadBytes (ch : Nat) (ws : List Word) (s : State) : List Byte := hostBytes ch (wide ws 0 2) (loadLen ws) s
def imageKey (bs : List Byte) : List Byte := sub bs 0x90 65

/-- Whether the signature of an image verifies under the key in it (R300, R301). -/
def signedImage (bs : List Byte) (len : Nat) : Bool := p256.verify (imageKey bs) (sha256 (bs.take (len - 64))) (bs.drop (len - 64))

/-- The open bank after an image is loaded: measured, in the inactive page, and in every Truss that has power (R272, R273, R301). -/
def bankLoaded (pg : OpenPage) (s : State) : State :=
  let e := extendMeas 3 pg.digest s
  writePages { e with boot := { e.boot with meas3Count := e.boot.meas3Count + 1 }, pon := { e.pon with inactive := some pg } }

theorem openLoad_waits (h : activationWaits s = true) : openLoad ch ws s = (s, .badState, []) := if_pos h

section
variable (hfree : activationWaits s = false)
include hfree

theorem openLoad_unbound (howner : s.boot.ownerState ≠ 1) : openLoad ch ws s = (raise 994 [] [1] s, .badState, []) :=
  (if_neg (Bool.eq_false_iff.mp hfree)).trans (if_pos howner)

variable (howner : s.boot.ownerState = 1)
include howner

theorem openLoad_length (hlen : loadLen ws < 344 ∨ 49472 < loadLen ws) : openLoad ch ws s = (raise 994 [] [2] s, .badArg, []) := by
  refine (if_neg (Bool.eq_false_iff.mp hfree)).trans ((if_neg (not_not_intro howner)).trans (if_pos ?_))
  simpa [loadLen] using hlen

variable (hlow : 344 ≤ loadLen ws) (hhigh : loadLen ws ≤ 49472)
include hlow hhigh

/-- The checks of an image in their order, once its length can be one (R301). -/
theorem openLoad_checks : openLoad ch ws s = let bs := loadBytes ch ws s
    if imageOk bs (loadLen ws) = false then (raise 994 [] [2] (drawn s), .badArg, [])
    else if sha256 (imageKey bs) ≠ s.boot.ownerHash then (raise 994 [] [3] (drawn s), .signature, [])
    else if signedImage bs (loadLen ws) = false then (raise 994 [] [4] (drawn s), .signature, [])
    else let e := bankLoaded (imagePage bs) (drawn s)
      (raise 995 [] [wd e.boot.meas3Count] e, .done,
        (put ((imagePage bs).entries.length - 1) 16 ||| wd (imagePage bs).words.length) :: wordsOfBytes (imagePage bs).digest) := by
  have hlen : ¬ ((loadLen ws < 344 || 49472 < loadLen ws) = true) := by simp [hlow, hhigh]
  refine (if_neg (Bool.eq_false_iff.mp hfree)).trans ((if_neg (not_not_intro howner)).trans ((if_neg hlen).trans ?_))
  exact if_congr (by simp [loadBytes, loadLen]) rfl (if_congr Iff.rfl rfl (if_congr (by simp [signedImage, loadBytes, loadLen, imageKey]) rfl rfl))

end

end

section
variable {c : Call} {s : State}

theorem exec_trussStatus (h : Served trussStatusSpec c s) : let u := readCall 0x0521 c s
    Answered (.trussStatus c) trussStatusSpec c s (trussStatus c.words u) u :=
  serveRead_done h (fun s => .ok (trussStatus c.words s)) rfl

theorem exec_openStatus {ws : List Word} (hserved : Served openStatusSpec c s) (h : openStatus (readCall 0x0604 c s) = ws) :
    Answered (.openStatus c) openStatusSpec c s ws (readCall 0x0604 c s) :=
  serveRead_done hserved (fun s => .ok (openStatus s)) (congrArg Except.ok h)

/-- How an `OPEN_LOAD` answers what its body gives. -/
def loadAnswer (c : Call) (r : State × Status × List Word) : State := respond 0x0601 c r.2.1 r.2.2 r.1

theorem exec_openLoad {r : State × Status × List Word} (hserved : Served openLoadSpec c s)
    (h : openLoad c.chan c.words (readCall 0x0601 c s) = r) : exec (.openLoad c) s = .next (loadAnswer c r) := by
  subst h
  exact serve_served hserved fun u => loadAnswer c (openLoad c.chan c.words u)

theorem exec_openLoad_answered {t : State} {st : Status} {ws : List Word} (hserved : Served openLoadSpec c s)
    (h : openLoad c.chan c.words (readCall 0x0601 c s) = (t, st, ws)) : exec (.openLoad c) s = .next (respond 0x0601 c st ws t) := by
  rw [exec_openLoad hserved h, loadAnswer]

end

/-- Settles O33: each call answers what its body gives. -/
theorem allocationAndOpenBankCalls : Obligations.AllocationAndOpenBankCalls := by
  unfold Obligations.AllocationAndOpenBankCalls
  intro c s w
  refine ⟨fun hserved => ?alloc, fun hserved => ?budget, exec_trussStatus, fun hserved => ?status, fun hserved => ?stats, fun hserved => ?load⟩
  case alloc =>
    exact ⟨fun h => serveRead_refused hserved _ (allocRead_notOwner h), fun h habsent => serveRead_refused hserved _ (allocRead_badState h habsent),
      fun _ h hx => serveRead_done hserved _ (allocRead_done h hx)⟩
  case budget =>
    exact ⟨fun _ h => serveRead_refused hserved _ (sliceBudgetRead_refused h), fun h => serveRead_done hserved _ (sliceBudgetRead_done h)⟩
  case status =>
    exact ⟨fun _ h => exec_openStatus hserved (openStatus_active h), fun h => exec_openStatus hserved (openStatus_off h)⟩
  case stats =>
    refine ⟨fun _ h => serveRead_refused hserved _ (openStats_refused h), fun h => (serveRead_done hserved _ (openStats_done h)).trans ?_⟩
    rfl
  case load =>
    refine ⟨fun h => exec_openLoad_answered hserved (openLoad_waits h),
      fun hfree howner => exec_openLoad_answered hserved (openLoad_unbound hfree howner),
      fun hfree howner hlen => exec_openLoad_answered hserved (openLoad_length hfree howner hlen), fun hfree howner hlow hhigh => ?_⟩
    have hchecks := openLoad_checks (ch := c.chan) (ws := c.words) hfree howner hlow hhigh
    refine (exec_openLoad hserved hchecks).trans ?_
    simp only [apply_ite (loadAnswer c)]
    rfl

end Sys2Proof.Machine

/-! PROOFS. What the operations of a Truss write of it (R278 to R282, R291): a Truss read after a write, condition bits, commits, and the
port operations. -/

namespace Sys2Proof.Machine

section
variable {sp : Nat} {s : State}

/-! ### A Truss read after a write -/

@[simp] theorem trussOf_modTruss (f : Truss → Truss) (s : State) : trussOf (modTruss sp f s) sp = f (trussOf s sp) :=
  congrArg Span.truss (spanOf_modSpan sp _ s)

@[simp] theorem trussOf_setTruss (t : Truss) (s : State) : trussOf (setTruss sp t s) sp = t := congrArg Span.truss (spanOf_modSpan sp _ s)

@[simp] theorem trussOf_cnt (id n : Nat) (s : State) : trussOf (cnt id n s) sp = trussOf s sp := rfl

/-- What a write of a Truss leaves of a view of it is left when it is read. -/
theorem view_modTruss {β : Type} (v : Truss → β) {f : Truss → Truss} (h : ∀ t, v (f t) = v t) (s : State) :
    v (trussOf (modTruss sp f s) sp) = v (trussOf s sp) := (congrArg v (trussOf_modTruss f s)).trans (h _)

/-! ### Condition bits (R279) -/

theorem getLsbD_setC (c : BitVec 16) (k : Nat) (v : Bool) {j : Nat} (hj : j < 16) : (setC c k v).getLsbD j = if j = k then v else c.getLsbD j := by
  have hbit : (BitVec.ofNat 16 (2 ^ k)).getLsbD j = decide (j = k) := by
    rw [BitVec.getLsbD_ofNat, Nat.testBit_two_pow, decide_eq_true hj, Bool.true_and, decide_eq_decide]
    exact eq_comm
  unfold setC
  cases v with
  | true =>
    rw [if_pos rfl, BitVec.getLsbD_or, hbit]
    by_cases h : j = k <;> simp [h]
  | false =>
    rw [if_neg Bool.false_ne_true, BitVec.getLsbD_and, BitVec.getLsbD_not, hbit, decide_eq_true hj]
    by_cases h : j = k <;> simp [h]

/-- Writes of distinct condition bits: each bit is what the list says of it. -/
theorem getLsbD_foldl_setC {l : List (Nat × Bool)} (hnd : (l.map (·.1)).Nodup) (c : BitVec 16) {j : Nat} (hj : j < 16) :
    (l.foldl (fun c e => setC c e.1 e.2) c).getLsbD j = ((l.find? fun e => e.1 = j).map (·.2)).getD (c.getLsbD j) := by
  induction l generalizing c with
  | nil => rfl
  | cons e l ih =>
    obtain ⟨hnot, hnd'⟩ := List.nodup_cons.mp hnd
    rw [List.foldl_cons, ih hnd', List.find?_cons]
    by_cases he : e.1 = j
    · have hfind : (l.find? fun e => e.1 = j) = none :=
        List.find?_eq_none.mpr fun x hx => by simpa using fun hxj : x.1 = j => hnot (List.mem_map.mpr ⟨x, hx, hxj.trans he.symm⟩)
      simp [hfind, he, getLsbD_setC _ _ _ hj]
    · have he' : ¬ j = e.1 := fun h => he h.symm
      simp [he, he', getLsbD_setC _ _ _ hj]

/-! ### A commit (R291) -/

/-- A Truss but for its status-report FIFO and its figures. -/
def trussCore (t : Truss) : Truss := { t with view := [], lost := 0, srf := [], now := {} }

/-- A Truss after a commit: outside FINISH, its checkpoint and its resume point are recorded. -/
def committed (r : Nat) (t : Truss) : Truss :=
  let regs := { t.regs with cond := t.regs.cond &&& 0xFBFF }
  { t with
    writes := [], faulted := false, committed := true, regs := regs, heldRemain := t.remain, heldBudget := t.budget
    resume := if t.entry = 8 then t.resume else r
    saved := if t.entry = 8 then t.saved else regs
    savedCall := if t.entry = 8 then t.savedCall else t.call }

theorem trussCore_commitWrite (w : TWrite) (s : State) : trussCore (trussOf (commitWrite sp w s) sp) = trussCore (trussOf s sp) := by
  cases w with
  | record a k v =>
    simp only [commitWrite, recordPut]
    split <;> rfl
  | inc a k n =>
    simp only [commitWrite]
    (repeat' split) <;> rfl
  | pop => exact view_modTruss trussCore (by intro; rfl) s
  | stage _ _ | reserve _ _ _ | window _ _ _ _ => rfl

/-- The state in which a commit's writes have become visible. -/
def written (sp : Nat) (s : State) : State := forEach (trussOf s sp).writes (commitWrite sp) s

theorem trussOf_commitAll (r : Nat) : trussOf (commitAll sp r s) sp = committed r (trussOf (written sp s) sp) := by
  simp only [commitAll, trussOf_modTruss]
  change _ = committed r (trussOf (forEach (trussOf s sp).writes (commitWrite sp) s) sp)
  unfold committed
  split <;> rfl

/-- A commit reads nothing of the FIFO and the figures of its Truss, and its writes leave the rest. -/
theorem trussCore_commitAll (r : Nat) : trussCore (trussOf (commitAll sp r s) sp) = committed r (trussCore (trussOf s sp)) := by
  have hwritten : trussCore (trussOf (written sp s) sp) = trussCore (trussOf s sp) :=
    forEach_view (fun s => trussCore (trussOf s sp)) (fun w _ s => trussCore_commitWrite w s) s
  rw [trussOf_commitAll]
  exact congrArg (committed r) hwritten

/-! ### Port operations (R282) -/

/-- A Truss but for what a port operation writes: what is staged and charged, and the current allocation. -/
def portCore (t : Truss) : Truss := { t with writes := [], remain := [], budget := [], regs := { t.regs with cur := none } }

theorem portCore_fields {u t : Truss} (h : portCore u = portCore t) :
    u.steps = t.steps ∧ u.regs.stack = t.regs.stack ∧ u.regs.scratch = t.regs.scratch ∧ u.regs.pd = t.regs.pd :=
  ⟨(congrArg Truss.steps h :), (congrArg (fun u : Truss => u.regs.stack) h :), (congrArg (fun u : Truss => u.regs.scratch) h :),
    (congrArg (fun u : Truss => u.regs.pd) h :)⟩

/-- The condition bits that a port operation writes. -/
def PortOut.condKeys (o : PortOut) : List Nat := o.cond.map (·.1)

/-- The lists of condition bits that the port operations write. -/
def portBits : List (List Nat) := [[], [4], [3], [3, 4], [3, 6, 7, 8], [4, 5, 8]]

@[simp] theorem condKeys_mk (st : State) (pd : Option (List Word)) (l : List (Nat × Bool)) (u : Option String) :
    (PortOut.mk st pd l u).condKeys = l.map (·.1) := rfl

@[simp] theorem nil_mem_portBits : [] ∈ portBits := by decide
@[simp] theorem refusal_mem_portBits : [4] ∈ portBits := by decide

@[simp] theorem portCore_stageWrite (w : TWrite) (s : State) : portCore (trussOf (stageWrite sp w s).st sp) = portCore (trussOf s sp) := by
  unfold stageWrite
  split
  · rfl
  · exact view_modTruss portCore (by intro; rfl) s

@[simp] theorem condKeys_stageWrite (w : TWrite) (s : State) : (stageWrite sp w s).condKeys = [4] := by
  unfold stageWrite
  split <;> rfl

@[simp] theorem portCore_selectAlloc (a : Nat) : portCore (trussOf (selectAlloc sp a s).st sp) = portCore (trussOf s sp) :=
  view_modTruss portCore (by intro; rfl) s

@[simp] theorem portCore_srfRead (pop : Bool) : portCore (trussOf (srfRead sp pop s).st sp) = portCore (trussOf s sp) := by
  unfold srfRead
  dsimp only
  split
  · rfl
  · cases pop <;> simp

@[simp] theorem condKeys_srfRead (pop : Bool) : (srfRead sp pop s).condKeys ∈ portBits := by
  unfold srfRead
  dsimp only
  split
  · exact show [3] ∈ portBits by decide
  · cases pop with
    | false => exact show [3] ∈ portBits by decide
    | true =>
      change 3 :: (stageWrite sp .pop s).condKeys ∈ portBits
      rw [condKeys_stageWrite]
      decide

@[simp] theorem condKeys_selectAlloc (a : Nat) : (selectAlloc sp a s).condKeys ∈ portBits :=
  show [3, 6, 7, 8] ∈ portBits by decide

theorem budgetRead_st : (budgetRead sp s).st = s ∧ (budgetRead sp s).condKeys = [] := by
  unfold budgetRead
  dsimp only
  (repeat' split) <;> exact ⟨rfl, rfl⟩

theorem tmRead_st (a : Nat) : (tmRead sp a s).st = s ∧ (tmRead sp a s).condKeys = [] := by
  unfold tmRead
  split <;> exact ⟨rfl, rfl⟩

theorem mapQuery_st (a : Nat) : (mapQuery sp a s).st = s ∧ (mapQuery sp a s).condKeys = [] := by
  unfold mapQuery
  split <;> exact ⟨rfl, rfl⟩

/-- A state that is left as it is, or in which a Truss has staged a write and charged for it. -/
def StagesOnly (sp : Nat) (s u : State) : Prop := u = s ∨ ∃ w r b, u = setTruss sp { trussOf s sp with writes := w, remain := r, budget := b } s

theorem StagesOnly.portCore {u : State} (h : StagesOnly sp s u) : portCore (trussOf u sp) = portCore (trussOf s sp) := by
  rcases h with rfl | ⟨w, r, b, rfl⟩
  · rfl
  · rw [trussOf_setTruss]
    rfl

theorem stagesOnly_stageEntry (a o p slice prof size : Nat) (dbru idle : Bool) :
    StagesOnly sp s (stageEntry sp a o p slice prof size dbru idle s).st := by
  unfold stageEntry
  extract_lets t no es
  split
  · exact .inl rfl
  split
  · exact .inl rfl
  split
  · exact .inl rfl
  split
  · exact .inl rfl
  · exact .inr ⟨_, _, _, rfl⟩

@[simp] theorem portCore_mapStage (a size param : Nat) (own : Option Nat) :
    portCore (trussOf (mapStage sp a size param own s).st sp) = portCore (trussOf s sp) := by
  unfold mapStage
  split
  · rfl
  extract_lets sel dbru prof
  split
  · rfl
  · exact (stagesOnly_stageEntry _ _ _ _ _ _ _ _).portCore

@[simp] theorem condKeys_mapStage (a size param : Nat) (own : Option Nat) : (mapStage sp a size param own s).condKeys ∈ portBits := by
  unfold mapStage
  split
  · exact nil_mem_portBits
  extract_lets sel dbru prof
  split
  · exact nil_mem_portBits
  · exact show [4, 5, 8] ∈ portBits by decide

@[simp] theorem portCore_mapReserve (p a b : Nat) : portCore (trussOf (mapReserve sp p a b s).st sp) = portCore (trussOf s sp) := by
  unfold mapReserve
  split
  · rfl
  · exact (view_modTruss portCore (by intro; rfl) _).trans (portCore_stageWrite (.reserve p a b) s)

@[simp] theorem condKeys_mapReserve (p a b : Nat) : (mapReserve sp p a b s).condKeys = [4] := by
  unfold mapReserve
  split
  · rfl
  · exact condKeys_stageWrite (.reserve p a b) s

@[simp] theorem portCore_mapWindow (p : Nat) (ranging : Bool) (o start : Nat) :
    portCore (trussOf (mapWindow sp p ranging o start s).st sp) = portCore (trussOf s sp) := by
  unfold mapWindow
  split <;> simp

@[simp] theorem condKeys_mapWindow (p : Nat) (ranging : Bool) (o start : Nat) : (mapWindow sp p ranging o start s).condKeys = [4] := by
  unfold mapWindow
  split
  · rfl
  · simp

section
variable (port op pa pd param : Nat) (own : Option Nat)

@[simp] theorem portCore_portOp (s : State) : portCore (trussOf (portOp sp port op pa pd param own s).st sp) = portCore (trussOf s sp) := by
  unfold portOp
  dsimp only
  (repeat' split) <;> simp [budgetRead_st, tmRead_st, mapQuery_st]

theorem condKeys_portOp (s : State) : (portOp sp port op pa pd param own s).condKeys ∈ portBits := by
  unfold portOp
  dsimp only
  (repeat' split) <;> simp [budgetRead_st, tmRead_st, mapQuery_st]

end
end
end Sys2Proof.Machine

/-! PROOFS. What a micro-word does (R277 to R282, R292, R294, R296 to R299): what it writes before its sequencing, and how each SEQ code goes on. -/

namespace Sys2Proof.Machine

/-! ### The condition bits after a word (R278 to R280) -/

/-- The condition bits after a word's ALU. -/
def aluCond (n : Nat) (c : BitVec 16) (res : Option Word × Bool) (open_ : Bool × Bool) : BitVec 16 :=
  if nfld n 102 102 = 0 then c
  else match res.1 with
    | some r => setC (setC (setC c 0 (r = 0)) 1 (bit r 31)) 2 res.2
    | none => setC (setC (setC c 0 open_.1) 1 open_.2) 2 false

/-- A flag as a word's set and clear bits leave it: both toggle it. -/
def flagBit (set clear old : Bool) : Bool :=
  match set, clear with
  | true, true => !old
  | true, false => true
  | false, true => false
  | false, false => old

/-- A word's turn at one of the four flags C12 to C15. -/
def flagTurn (n : Nat) (c : BitVec 16) (k : Nat) : BitVec 16 :=
  match (nfld n 79 76).testBit k, (nfld n 75 72).testBit k with
  | true, true => setC c (12 + k) (!c.getLsbD (12 + k))
  | true, false => setC c (12 + k) true
  | false, true => setC c (12 + k) false
  | false, false => c

theorem getLsbD_flagTurn (n : Nat) (c : BitVec 16) (k : Nat) {j : Nat} (hj : j < 16) : (flagTurn n c k).getLsbD j =
    if j = 12 + k then flagBit ((nfld n 79 76).testBit k) ((nfld n 75 72).testBit k) (c.getLsbD j) else c.getLsbD j := by
  unfold flagTurn flagBit
  split
  · rw [getLsbD_setC _ _ _ hj]
    by_cases h : j = 12 + k <;> simp [h]
  · rw [getLsbD_setC _ _ _ hj]
  · rw [getLsbD_setC _ _ _ hj]
  · rw [ite_self]

section
variable (n : Nat) (c : BitVec 16) (res : Option Word × Bool) (open_ : Bool × Bool) (port : List (Nat × Bool)) (near : Bool)

theorem newCond_eq : newCond n c res port near open_ =
    flagTurn n (flagTurn n (flagTurn n (flagTurn n (setC (port.foldl (fun c e => setC c e.1 e.2) (aluCond n c res open_)) 11 near) 0) 1) 2) 3 := rfl

theorem getLsbD_aluCond {k : Nat} (hk : k < 16) : (aluCond n c res open_).getLsbD k =
    if nfld n 102 102 = 0 ∨ 2 < k then c.getLsbD k
    else match res.1 with
      | some x => if k = 0 then x = 0 else if k = 1 then bit x 31 else res.2
      | none => if k = 0 then open_.1 else if k = 1 then open_.2 else false := by
  unfold aluCond
  by_cases hflags : nfld n 102 102 = 0
  · rw [if_pos hflags, if_pos (.inl hflags)]
  rw [if_neg hflags]
  by_cases hhigh : 2 < k
  · rw [if_pos (.inr hhigh)]
    split <;> simp [getLsbD_setC _ _ _ hk, show k ≠ 0 by omega, show k ≠ 1 by omega, show k ≠ 2 by omega]
  · rw [if_neg (not_or_intro hflags hhigh)]
    obtain rfl | rfl | rfl : k = 0 ∨ k = 1 ∨ k = 2 := by omega
    all_goals split <;> simp only [getLsbD_setC _ _ _ hk] <;> rfl

theorem getLsbD_newCond_low (hport : (port.map (·.1)).Nodup) {k : Nat} (hk : k < 12) : (newCond n c res port near open_).getLsbD k =
    if k = 11 then near else ((port.find? fun e => e.1 = k).map (·.2)).getD ((aluCond n c res open_).getLsbD k) := by
  have hk' : k < 16 := by omega
  rw [newCond_eq, getLsbD_flagTurn _ _ _ hk', if_neg (by omega), getLsbD_flagTurn _ _ _ hk', if_neg (by omega), getLsbD_flagTurn _ _ _ hk',
    if_neg (by omega), getLsbD_flagTurn _ _ _ hk', if_neg (by omega), getLsbD_setC _ _ _ hk', getLsbD_foldl_setC hport _ hk']

theorem getLsbD_flagTurns {k : Nat} (hk : k < 4) : (flagTurn n (flagTurn n (flagTurn n (flagTurn n c 0) 1) 2) 3).getLsbD (12 + k) =
    flagBit ((nfld n 79 76).testBit k) ((nfld n 75 72).testBit k) (c.getLsbD (12 + k)) := by
  have hj : 12 + k < 16 := by omega
  simp only [getLsbD_flagTurn _ _ _ hj]
  obtain rfl | rfl | rfl | rfl : k = 0 ∨ k = 1 ∨ k = 2 ∨ k = 3 := by omega
  all_goals rfl

theorem getLsbD_newCond_flag (hport : (port.map (·.1)).Nodup) (hlow : ∀ e ∈ port, e.1 < 12) {k : Nat} (hk : k < 4) :
    (newCond n c res port near open_).getLsbD (12 + k) =
      flagBit ((nfld n 79 76).testBit k) ((nfld n 75 72).testBit k) (c.getLsbD (12 + k)) := by
  have hj : 12 + k < 16 := by omega
  have hfind : (port.find? fun e => e.1 = 12 + k) = none :=
    List.find?_eq_none.mpr fun e he => by simpa using Nat.ne_of_lt ((hlow e he).trans_le (Nat.le_add_right 12 k))
  rw [newCond_eq, getLsbD_flagTurns n _ hk, getLsbD_setC _ _ _ hj, if_neg (by omega), getLsbD_foldl_setC hport _ hj, hfind]
  rw [Option.map_none, Option.getD_none, getLsbD_aluCond n c res open_ hj, if_pos (.inr (by omega))]

end
/-! ### The formed address (R280) -/

/-- Whether a word's selector for an address bit picks a condition bit that is set. -/
def addressBit (n : Nat) (c : BitVec 16) (k : Nat) : Bool :=
  (nfld n (160 + 5 * k) (156 + 5 * k)).testBit 4 && c.getLsbD (nfld n (160 + 5 * k) (156 + 5 * k) % 16)

theorem testBit_selected (b : Bool) (i k : Nat) : (if b then 2 ^ i else 0).testBit k = (decide (i = k) && b) := by
  cases b with
  | false => simp
  | true => simp [Nat.testBit_two_pow]

theorem testBit_formed (n : Nat) (c : BitVec 16) (k : Nat) :
    (formed n c).testBit k = ((nfld n 191 179).testBit k || (decide (k < 4) && addressBit n c k)) := by
  have hformed : formed n c = nfld n 191 179 ||| (if addressBit n c 0 then 2 ^ 0 else 0) ||| (if addressBit n c 1 then 2 ^ 1 else 0) |||
    (if addressBit n c 2 then 2 ^ 2 else 0) ||| (if addressBit n c 3 then 2 ^ 3 else 0) := rfl
  rw [hformed]
  simp only [Nat.testBit_or, testBit_selected, Bool.or_assoc]
  congr 1
  by_cases hk : k < 4
  · obtain rfl | rfl | rfl | rfl : k = 0 ∨ k = 1 ∨ k = 2 ∨ k = 3 := by omega
    all_goals simp
  · simp [hk, show 0 ≠ k by omega, show 1 ≠ k by omega, show 2 ≠ k by omega, show 3 ≠ k by omega]

/-! ### What a word writes before its sequencing (R277 to R282, R296) -/

section
variable (s : State) (sp n : Nat)

/-- The value of a word's source, its ALU result, and its port operation. -/
def wordSource (k : Nat) : Word := source s sp (wd (nfld n 63 32), wd (nfld n 31 0)) k
def wordResult : Option Word × Bool := alu (nfld n 128 124) (wordSource s sp n (nfld n 123 117)) (wordSource s sp n (nfld n 116 110))
def wordPort : PortOut :=
  portOp sp (nfld n 101 98) (nfld n 97 94) (wordSource s sp n (nfld n 93 87)).toNat (wordSource s sp n (nfld n 86 80)).toNat (nfld n 71 64)
    ((inCall (trussOf s sp)).map (·.slice)) s

/-- Whether a call comes near its limit with a word's steps (R279). -/
def nearAfter (call : Option OpenCall) (cost : Nat) : Bool :=
  match call with
  | some c => { c with steps := c.steps + cost }.near
  | none => false

/-- Whether a word's destination is written by no result: none is named, or one that an open call may not write (R277, R290). -/
def keepsDest (call : Option OpenCall) : Bool := nfld n 109 103 = 127 || (call.isSome && 32 ≤ nfld n 109 103)

/-- A Truss `u` after the ALU and the port operation of a word of the state `s`. -/
def ranTruss (u : Truss) : Truss :=
  let call := inCall (trussOf s sp)
  let res := wordResult s sp n
  { u with
    steps := u.steps + wordCost n, now := { u.now with steps := u.now.steps + wordCost n }
    call := u.call.map fun c => if call.isSome then { c with steps := c.steps + wordCost n } else c
    regs := { u.regs with
      scratch := match res.1 with
        | some r => if keepsDest n call then u.regs.scratch else kset u.regs.scratch (nfld n 109 103) r
        | none => u.regs.scratch
      pd := match (wordPort s sp n).pd with | some l => (List.range 4).map fun i => l.getD i 0 | none => u.regs.pd
      cond := newCond n (trussOf s sp).regs.cond res (wordPort s sp n).cond (nearAfter call (wordCost n))
        (Config.freeBool s.free, Config.freeBool (s.free + 1)) } }

/-- The state in which a word is sequenced. -/
def ranWord : State :=
  let s1 := modTruss sp (ranTruss s sp n) (wordPort s sp n).st
  let s1 := { s1 with free := s1.free + 4 }
  cnt (cSpan 8 sp) (wordCost n) (match inCall (trussOf s sp) with | some c => cnt (cSliceSpan 1 c.slice sp) (wordCost n) s1 | none => s1)

theorem trussOf_ranWord : trussOf (ranWord s sp n) sp = ranTruss s sp n (trussOf (wordPort s sp n).st sp) := by
  have hran : trussOf (ranWord s sp n) sp = trussOf (modTruss sp (ranTruss s sp n) (wordPort s sp n).st) sp := by
    unfold ranWord
    cases inCall (trussOf s sp) <;> rfl
  exact hran.trans (trussOf_modTruss _ _)

/-- A word's port operation leaves all of a Truss but what is staged and charged, and the current allocation. -/
theorem portCore_wordPort : portCore (trussOf (wordPort s sp n).st sp) = portCore (trussOf s sp) := portCore_portOp ..

theorem nodup_wordPort : ((wordPort s sp n).cond.map (·.1)).Nodup :=
  (show ∀ l ∈ portBits, l.Nodup by decide) _ (condKeys_portOp ..)

theorem wordPort_low : ∀ e ∈ (wordPort s sp n).cond, e.1 < 12 := fun _ he =>
  (show ∀ l ∈ portBits, ∀ k ∈ l, k < 12 by decide) _ (condKeys_portOp ..) _ (List.mem_map_of_mem he)

theorem run_undefined {r : String} (h : (wordPort s sp n).undef = some r) :
    microWord.run sp s n (trussOf s sp) (inCall (trussOf s sp)) (wordCost n) = .inr r := by
  unfold microWord.run
  change (match (wordPort s sp n).undef with | some r => _ | none => _) = _
  rw [h]

theorem run_sequences (h : (wordPort s sp n).undef = none) :
    microWord.run sp s n (trussOf s sp) (inCall (trussOf s sp)) (wordCost n) = .inl (sequence sp n s (ranWord s sp n)) := by
  unfold microWord.run
  change (match (wordPort s sp n).undef with | some r => _ | none => _) = _
  rw [h]
  rfl

end

/-! ### A word runs (R294, R296 to R299) -/

section
variable {s : State} {sp : Nat} {w : BitVec 192}

theorem microWord_reserved (h : reservedWord w.toNat = true) :
    microWord sp w s = .inr (if (inCall (trussOf s sp)).isSome then "R299" else "R6") := if_pos h

section
variable (h : reservedWord w.toNat = false)
include h

theorem microWord_spent {c : OpenCall} (hcall : inCall (trussOf s sp) = some c) (hlimit : c.limit < c.steps + wordCost w.toNat) :
    microWord sp w s = .inl (endCall sp c false s) := by
  unfold microWord
  simp only [h, hcall]
  exact if_pos hlimit

theorem microWord_runs (hlimit : ∀ c, inCall (trussOf s sp) = some c → c.steps + wordCost w.toNat ≤ c.limit) :
    microWord sp w s = microWord.run sp s w.toNat (trussOf s sp) (inCall (trussOf s sp)) (wordCost w.toNat) := by
  refine (if_neg (Bool.eq_false_iff.mp h)).trans ?_
  split
  case h_1 c hcall => exact (if_neg (Nat.not_lt.mpr (hlimit c hcall))).trans (by rw [hcall])
  case h_2 hcall => rw [hcall]

end

end

/-! ### The sequencing of a word (R281) -/

section
variable {s : State} {sp n : Nat} {v : State}

/-- An address that a Truss cannot go to: one of the vendor bank, from within an open call (R281, R299). -/
def outsideCall (t : Truss) (a : Nat) : Bool := (inCall t).isSome && a < 0x1800

/-- Whether the stack takes no further entry, eight in all and four of an open call's own (R281, R290). -/
def stackFull (t : Truss) : Bool :=
  8 ≤ t.regs.stack.length || (match inCall t with | some c => 4 ≤ t.regs.stack.length - c.depth | none => false)

theorem outsideCall_iff (t : Truss) (a : Nat) : outsideCall t a = true ↔ inCall t ≠ none ∧ a < 0x1800 := by
  simp [outsideCall, Option.isSome_iff_ne_none]

theorem stackFull_iff (t : Truss) :
    stackFull t = true ↔ 8 ≤ t.regs.stack.length ∨ ∃ c, inCall t = some c ∧ 4 ≤ t.regs.stack.length - c.depth := by
  unfold stackFull
  cases inCall t <;> simp

/-- A Truss goes to an address with a stack. -/
def goTo (sp a : Nat) (l : List Nat) (s : State) : State := modTruss sp (fun q => { q with addr := a, regs := { q.regs with stack := l } }) s

theorem sequence_jump (h : nfld n 178 176 = 0) : sequence sp n v s = let t := trussOf s sp
    if outsideCall t (formed n t.regs.cond) then microFault sp v
    else commitIf n sp (nfld n 141 129) (goTo sp (formed n t.regs.cond) t.regs.stack s) := by
  unfold sequence
  simp only [h]
  rfl

theorem sequence_call (h : nfld n 178 176 = 1) : sequence sp n v s = let t := trussOf s sp
    if stackFull t || outsideCall t (formed n t.regs.cond) then microFault sp v
    else commitIf n sp (nfld n 141 129) (goTo sp (formed n t.regs.cond) (nfld n 155 143 :: t.regs.stack) s) := by
  unfold sequence
  simp only [h]
  rfl

/-! RETURN -/

section
variable (h : nfld n 178 176 = 2)
include h

theorem sequence_return_empty (hstack : (trussOf s sp).regs.stack = []) (hentry : (trussOf s sp).entry ≠ 8) :
    sequence sp n v s = microFault sp v := by
  unfold sequence
  simp only [h, hstack]
  exact if_neg hentry

variable {a : Nat} {l : List Nat} (hstack : (trussOf s sp).regs.stack = a :: l)
include hstack

theorem sequence_return_vendor (hcall : inCall (trussOf s sp) = none) : sequence sp n v s = commitIf n sp a (goTo sp a l s) := by
  unfold sequence
  simp only [h, hstack, hcall]
  rfl

theorem sequence_return_within {c : OpenCall} (hcall : inCall (trussOf s sp) = some c) (hdepth : l.length + 1 ≠ c.depth) :
    sequence sp n v s = if outsideCall (trussOf s sp) a then microFault sp v else commitIf n sp a (goTo sp a l s) := by
  unfold sequence
  simp only [h, hstack, hcall]
  refine (if_neg hdepth).trans ?_
  simp only [outsideCall, hcall]
  rfl

theorem sequence_return_caller {c : OpenCall} (hcall : inCall (trussOf s sp) = some c) (hdepth : l.length + 1 = c.depth)
    (hvendor : c.vendor = false) : sequence sp n v s = commitIf n sp a (closeCall sp c false (goTo sp a l s)) := by
  unfold sequence
  simp only [h, hstack, hcall]
  exact (if_pos hdepth).trans (if_neg (Bool.eq_false_iff.mp hvendor))

end

/-! OPEN -/

/-- What an OPEN calls: the current allocation and its slice's entry address and CALL_LIMIT (R287). -/
def openTarget (s : State) (sp : Nat) : Option (Nat × Nat × Nat) :=
  (trussOf s sp).regs.cur.bind fun a => (allocAt s sp a).bind fun _ => (openEntry s (allocOwner s sp a)).map fun e => (a, e)

/-- An OPEN that calls nothing: C3 is set, and the word goes on as a jump (R281, R287). -/
def openMisses (n sp : Nat) (s : State) : State :=
  let cond := setC (trussOf s sp).regs.cond 3 true
  goTo sp (formed n cond) (trussOf s sp).regs.stack (modTruss sp (fun t => { t with regs := { t.regs with cond := cond } }) s)

theorem trussOf_openMisses (n : Nat) : trussOf (openMisses n sp s) sp = let t := trussOf s sp
    { t with addr := formed n (setC t.regs.cond 3 true), regs := { t.regs with cond := setC t.regs.cond 3 true } } := by
  simp only [openMisses, goTo, trussOf_modTruss]

section
variable (h : nfld n 178 176 = 3)
include h

theorem sequence_open_inCall (hcall : inCall (trussOf s sp) ≠ none) : sequence sp n v s = microFault sp v := by
  unfold sequence
  simp only [h]
  exact if_pos (Option.isSome_iff_ne_none.mpr hcall)

variable (hcall : inCall (trussOf s sp) = none)
include hcall

theorem sequence_open_calls {a e limit : Nat} (htarget : openTarget s sp = some (a, e, limit)) : sequence sp n v s =
    if stackFull (trussOf s sp) then microFault sp v
    else beginCall sp a (allocOwner s sp a) e limit (nfld n 155 143) (nfld n 141 129) (nfld n 71 64 % 2 = 1) false s := by
  unfold sequence
  simp only [h, hcall]
  change (match openTarget s sp with | some (a, e, limit) => _ | none => _) = _
  rw [htarget]
  simp only [stackFull, hcall]

theorem sequence_open_misses (htarget : openTarget s sp = none) :
    sequence sp n v s = commitIf n sp (nfld n 141 129) (openMisses n sp s) := by
  unfold sequence
  simp only [h, hcall]
  change (match openTarget s sp with | some (a, e, limit) => _ | none => _) = _
  rw [htarget]
  rfl

end

/-! DONE -/

section
variable (h : nfld n 178 176 = 4)
include h

theorem sequence_done_inCall (hcall : inCall (trussOf s sp) ≠ none) : sequence sp n v s = microFault sp v := by
  unfold sequence
  simp only [h]
  exact if_pos (Option.isSome_iff_ne_none.mpr hcall)

theorem sequence_done (hcall : inCall (trussOf s sp) = none) : sequence sp n v s = let u := commitIf n sp (nfld n 141 129) s
    if (trussOf s sp).entry = 16 then initDone sp u else setCursor sp .done (modTruss sp (fun q => { q with entry := 0 }) u) := by
  unfold sequence
  simp only [h, hcall]
  rfl

end

end

/-! ### A Truss after a word's ALU and port operation (R277 to R280, R296) -/

section
variable (s : State) (sp n : Nat) (u : Truss)

theorem scratch_ranTruss (hscratch : u.regs.scratch = (trussOf s sp).regs.scratch) (k : Nat) :
    kgetD (ranTruss s sp n u).regs.scratch k 0 = match (wordResult s sp n).1 with
      | some x => if nfld n 109 103 = k ∧ k ≠ 127 ∧ (inCall (trussOf s sp) = none ∨ k < 32) then x else kgetD (trussOf s sp).regs.scratch k 0
      | none => kgetD (trussOf s sp).regs.scratch k 0 := by
  have hran : (ranTruss s sp n u).regs.scratch = match (wordResult s sp n).1 with
      | some r => if keepsDest n (inCall (trussOf s sp)) then u.regs.scratch else kset u.regs.scratch (nfld n 109 103) r
      | none => u.regs.scratch := rfl
  rw [hran, hscratch]
  cases (wordResult s sp n).1 with
  | none => rfl
  | some x =>
    have hkeeps : keepsDest n (inCall (trussOf s sp)) = true ↔
        ¬ (nfld n 109 103 ≠ 127 ∧ (inCall (trussOf s sp) = none ∨ nfld n 109 103 < 32)) := by
      unfold keepsDest
      cases inCall (trussOf s sp) <;> simp [imp_iff_not_or]
    dsimp only
    by_cases hkeep : keepsDest n (inCall (trussOf s sp)) = true
    · rw [if_pos hkeep, if_neg]
      rintro ⟨rfl, hwritten⟩
      exact hkeeps.mp hkeep hwritten
    · rw [if_neg hkeep, kgetD_kset]
      refine if_congr ⟨?_, fun hwritten => hwritten.1.symm⟩ rfl rfl
      rintro rfl
      exact ⟨rfl, not_not.mp (mt hkeeps.mpr hkeep)⟩

theorem pd_ranTruss (hpd : u.regs.pd = (trussOf s sp).regs.pd) : (ranTruss s sp n u).regs.pd = match (wordPort s sp n).pd with
    | some l => (List.range 4).map fun i => l.getD i 0
    | none => (trussOf s sp).regs.pd := by
  rw [← hpd]
  rfl

theorem cond_ranTruss : (ranTruss s sp n u).regs.cond = newCond n (trussOf s sp).regs.cond (wordResult s sp n) (wordPort s sp n).cond
    (nearAfter (inCall (trussOf s sp)) (wordCost n)) (Config.freeBool s.free, Config.freeBool (s.free + 1)) := rfl

theorem nearAfter_eq (call : Option OpenCall) (cost : Nat) : nearAfter call cost = call.any fun c => c.limit ≤ c.steps + cost + 16 := by
  cases call <;> rfl

theorem cond_ranTruss_low {k : Nat} (hk : k < 12) : (ranTruss s sp n u).regs.cond.getLsbD k =
    if k = 11 then (inCall (trussOf s sp)).any fun c => c.limit ≤ c.steps + wordCost n + 16
    else match (wordPort s sp n).cond.find? (·.1 = k) with
      | some e => e.2
      | none => if nfld n 102 102 = 0 ∨ 2 < k then (trussOf s sp).regs.cond.getLsbD k
        else match (wordResult s sp n).1 with
          | some x => if k = 0 then x = 0 else if k = 1 then bit x 31 else (wordResult s sp n).2
          | none => if k = 0 then Config.freeBool s.free else if k = 1 then Config.freeBool (s.free + 1) else false := by
  rw [cond_ranTruss, getLsbD_newCond_low _ _ _ _ _ _ (nodup_wordPort s sp n) hk, nearAfter_eq, getLsbD_aluCond _ _ _ _ (by omega)]
  cases (wordPort s sp n).cond.find? (·.1 = k) <;> rfl

theorem cond_ranTruss_flag {k : Nat} (hk : k < 4) : (ranTruss s sp n u).regs.cond.getLsbD (12 + k) =
    flagBit ((nfld n 79 76).testBit k) ((nfld n 75 72).testBit k) ((trussOf s sp).regs.cond.getLsbD (12 + k)) :=
  getLsbD_newCond_flag _ _ _ _ _ _ (nodup_wordPort s sp n) (wordPort_low s sp n) hk

end

section
variable {s : State} {sp n : Nat}

/-- A word without a port operation that jumps without a commit goes to its formed address (R280). -/
theorem trussOf_plainWord (hcall : inCall (trussOf s sp) = none) (hport : nfld n 101 98 = 0) (hseq : nfld n 178 176 = 0)
    (hcommit : nfld n 142 142 = 0) : trussOf (sequence sp n s (ranWord s sp n)) sp =
      { ranTruss s sp n (trussOf s sp) with addr := formed n (ranTruss s sp n (trussOf s sp)).regs.cond } := by
  have hst : (wordPort s sp n).st = s := by
    rw [wordPort, hport]
    rfl
  have hran : trussOf (ranWord s sp n) sp = ranTruss s sp n (trussOf s sp) := by rw [trussOf_ranWord, hst]
  have hsame : inCall (ranTruss s sp n (trussOf s sp)) = none := by
    have hkeeps : (ranTruss s sp n (trussOf s sp)).call = (trussOf s sp).call := by
      simp [ranTruss, hcall]
    rw [inCall, hkeeps]
    exact hcall
  rw [sequence_jump hseq, hran]
  dsimp only
  rw [if_neg (by simp [outsideCall, hsame]), commitIf, if_neg (by rw [hcommit]; decide), goTo, trussOf_modTruss, hran]

end

end Sys2Proof.Machine

/-! PROOFS. The commands of a Truss (R245, R262, R267, R276, R282, R286, R291, R292, R297): its entries, the call limit, the cutoff, what it runs,
and what its commits, calls and port operations do. -/

namespace Sys2Proof.Machine

section
variable {s : State} {sp : Nat}

/-! ### Entries, the call limit and the cutoff (R245, R262, R286, R292, R297) -/

theorem mapCutoff_idle (h : (trussOf s sp).running = false) : mapCutoff sp s = s := if_pos (by rw [h]; rfl)

/-- Whether FINISH may be entered: a map runs that has not finished, FINISH has not run, and its lead is set (R286, R292). -/
def mayFinish (s : State) (sp : Nat) : Prop :=
  let t := trussOf s sp
  t.running = true ∧ t.cursor ≠ .done ∧ t.entry = 0 ∧ t.finished = false ∧ (spanOf s sp).finishLead ≠ 0

theorem mayFinish_iff : mayFinish s sp ↔ ¬ (!(trussOf s sp).running || (trussOf s sp).cursor = .done || (trussOf s sp).entry ≠ 0 ||
    (trussOf s sp).finished || (spanOf s sp).finishLead = 0) = true := by
  simp [mayFinish, and_assoc]

theorem finishEntry_enters (h : mayFinish s sp) : finishEntry sp s =
    cnt (cSpan 12 sp) 1 (modTruss sp (fun t => { t with entry := 8, addr := 8, finished := true, regs := { t.regs with stack := [] } })
      (discard sp s)) :=
  if_neg (mayFinish_iff.mp h)

theorem finishEntry_idle (h : ¬ mayFinish s sp) : finishEntry sp s = s := if_pos (not_not.mp (mt mayFinish_iff.mpr h))

/-- Whether INIT may be entered: the Span is not closed and not a standby, and no map runs but one in its prologue (R286). -/
def mayInit (s : State) (sp : Nat) : Prop :=
  (spanOf s sp).st ≠ .closed ∧ (spanOf s sp).standby = false ∧ ((trussOf s sp).running = false ∨ (trussOf s sp).cursor = .prologue)

theorem mayInit_iff : mayInit s sp ↔
    ¬ ((spanOf s sp).st = .closed || (spanOf s sp).standby || ((trussOf s sp).running && (trussOf s sp).cursor ≠ .prologue)) = true := by
  cases hrun : (trussOf s sp).running <;> simp [mayInit, hrun, and_assoc]

theorem initEntry_enters (h : mayInit s sp) : initEntry sp s =
    modTruss sp (fun t => { t with entry := 16, addr := 16, regs := {}, resume := 16, saved := {}, savedCall := none, call := none }) s :=
  if_neg (mayInit_iff.mp h)

theorem initEntry_idle (h : ¬ mayInit s sp) : initEntry sp s = s := if_pos (not_not.mp (mt mayInit_iff.mpr h))

/-- Whether the next word of an open call would carry it beyond its limit (R297). -/
def callSpent (t : Truss) (c : OpenCall) : Prop :=
  inCall t = some c ∧ (t.running = true ∨ t.entry = 16) ∧ c.limit < c.steps + wordCost (storeWord t t.addr).toNat

theorem callLimit_ends {c : OpenCall} (h : callSpent (trussOf s sp) c) : callLimit sp s = endCall sp c false s := by
  obtain ⟨hcall, hrun, hlimit⟩ := h
  unfold callLimit
  simp only [hcall]
  exact if_pos (by simpa using ⟨hrun, hlimit⟩)

theorem callLimit_idle (h : ∀ c, ¬ callSpent (trussOf s sp) c) : callLimit sp s = s := by
  unfold callLimit
  extract_lets t
  split
  case h_1 c hcall => exact if_neg fun hspent => h c ⟨hcall, by simpa using hspent⟩
  case h_2 => rfl

/-! ### What TRUSS_MICROWORD runs (R276, R286, R294; assumption 85) -/

/-- Whether a Truss has something to run. -/
def trussActive (t : Truss) : Prop := t.entry ≠ 0 ∨ (t.running = true ∧ t.cursor ≠ .done)

theorem microStep_idle {b : Bool} (hentry : (trussOf s sp).entry = 0) (h : (trussOf s sp).running = false ∨ (trussOf s sp).cursor = .done) :
    microStep sp b s = .inl s :=
  if_pos (by rcases h with h | h <;> simp [hentry, h])

section
variable (h : trussActive (trussOf s sp))
include h

theorem trussActive.not_idle : ¬ ((trussOf s sp).entry = 0 && (!(trussOf s sp).running || (trussOf s sp).cursor = .done)) = true := by
  rcases h with h | ⟨hrun, hcursor⟩
  · simp [h]
  · simp [hrun, hcursor]

theorem microStep_word {b : Bool} (hwords : b = true ∨ inCall (trussOf s sp) ≠ none) :
    microStep sp b s = microWord sp (storeWord (trussOf s sp) (trussOf s sp).addr) s :=
  (if_neg h.not_idle).trans (if_pos (by simpa [Option.isSome_iff_ne_none] using hwords))

variable (hcall : inCall (trussOf s sp) = none)
include hcall

theorem microStep_vendor : microStep sp false s =
    if (trussOf s sp).entry = 8 then .inl (restart sp (modTruss sp (fun t => { t with entry := 0 }) (epilogue sp s)))
    else if (trussOf s sp).entry = 16 then .inl (initDone sp s)
    else .inl (vendorStep sp s) :=
  (if_neg h.not_idle).trans (if_neg (by simp [hcall]))

end

end

section
variable {s : State} {sp : SpanIx} {b : Bool}

theorem execTrussMicroword_next {t : State} (h : microStep sp b s = .inl t) : exec (.trussMicroword sp b) s = .next t :=
  show execTrussMicroword sp b s = _ by rw [execTrussMicroword, h]

theorem execTrussMicroword_fault {r : String} (h : microStep sp b s = .inr r) : exec (.trussMicroword sp b) s = .fault (.undefinedUse r) :=
  show execTrussMicroword sp b s = _ by rw [execTrussMicroword, h]

end

/-! ### Commits and calls (R281, R286, R291) -/

section
variable {s : State} {sp : Nat}

theorem commitWrite_record {a k : Nat} {v : Word} {x : Alloc} (ha : a < 2048) (hx : allocOf s sp a = some x) :
    commitWrite sp (.record a k v) s = setAlloc sp a (x.putWord (trussOf s sp).frame k v) s := by
  have hat : allocAt s sp a = some x := (if_pos ha).trans hx
  simp only [commitWrite, recordPut, hat]

/-- A Truss after a call of an allocation's entry has begun, before its commit (R281). -/
def calledTruss (a slice entry limit ret back : Nat) (pass2 vendor : Bool) (free : Nat) (t : Truss) : Truss :=
  let c : OpenCall := {
    alloc := a, slice := slice, limit := limit, pass2 := pass2, steps := 0, depth := t.regs.stack.length + 1, back := back,
    vendor := vendor, by_ := t.entry }
  { t with
    savedCall := t.savedCall.map (·.upTo t.call)
    regs := { t.regs with
      stack := ret :: t.regs.stack, cond := setC (setC (setC t.regs.cond 9 pass2) 3 false) 11 c.near, scratch := openScratch free t.regs.scratch }
    call := some c
    addr := entry }

theorem trussCore_beginCall (a slice entry limit ret back : Nat) (pass2 vendor : Bool) :
    trussCore (trussOf (beginCall sp a slice entry limit ret back pass2 vendor s) sp) =
      committed entry (trussCore (calledTruss a slice entry limit ret back pass2 vendor s.free (trussOf s sp))) := by
  have hcalled : trussOf (modTruss sp (calledTruss a slice entry limit ret back pass2 vendor s.free) { s with free := s.free + 27 }) sp =
      calledTruss a slice entry limit ret back pass2 vendor s.free (trussOf s sp) := trussOf_modTruss _ _
  have hfigures (g : TFigures → TFigures) (u : State) : trussCore (trussOf (modFig sp g u) sp) = trussCore (trussOf u sp) :=
    view_modTruss trussCore (by intro; rfl) u
  rw [beginCall, trussOf_cnt, hfigures, trussCore_commitAll]
  exact congrArg (fun t => committed entry (trussCore t)) hcalled

theorem getLsbD_committed (r : Nat) (t : Truss) {k : Nat} (hk : k < 10) : (committed r t).regs.cond.getLsbD k = t.regs.cond.getLsbD k := by
  have hmask : ∀ k < 10, (0xFBFF : BitVec 16).getLsbD k = true := by decide
  change (t.regs.cond &&& 0xFBFF).getLsbD k = _
  rw [BitVec.getLsbD_and, hmask k hk, Bool.and_true]

end

/-- What a commit leaves of a Truss, but for its FIFO and its figures. -/
theorem fields_of_committed {t q : Truss} {r : Nat} (h : trussCore q = committed r (trussCore t)) :
    q.writes = [] ∧ q.committed = true ∧ q.faulted = false ∧ q.regs = { t.regs with cond := t.regs.cond &&& 0xFBFF } ∧
      q.heldRemain = t.remain ∧ q.heldBudget = t.budget ∧ q.remain = t.remain ∧ q.budget = t.budget ∧
      (t.entry ≠ 8 → q.resume = r ∧ q.saved = q.regs ∧ q.savedCall = t.call) ∧
      (t.entry = 8 → q.resume = t.resume ∧ q.saved = t.saved ∧ q.savedCall = t.savedCall) := by
  have hregs : q.regs = { t.regs with cond := t.regs.cond &&& 0xFBFF } := (congrArg Truss.regs h :)
  have hresume : q.resume = if t.entry = 8 then t.resume else r := (congrArg Truss.resume h :)
  have hsaved : q.saved = if t.entry = 8 then t.saved else { t.regs with cond := t.regs.cond &&& 0xFBFF } := (congrArg Truss.saved h :)
  have hcall : q.savedCall = if t.entry = 8 then t.savedCall else t.call := (congrArg Truss.savedCall h :)
  refine ⟨(congrArg Truss.writes h :), (congrArg Truss.committed h :), (congrArg Truss.faulted h :), hregs, (congrArg Truss.heldRemain h :),
    (congrArg Truss.heldBudget h :), (congrArg Truss.remain h :), (congrArg Truss.budget h :), fun hentry => ?_, fun hentry => ?_⟩
  · rw [if_neg hentry] at hresume hsaved hcall
    exact ⟨hresume, hsaved.trans hregs.symm, hcall⟩
  · rw [if_pos hentry] at hresume hsaved hcall
    exact ⟨hresume, hsaved, hcall⟩

/-- What the beginning of a call leaves of a Truss, but for its FIFO and its figures. -/
theorem fields_of_called {t q : Truss} {a slice e limit ret back free : Nat} {pass2 vendor : Bool}
    (h : trussCore q = committed e (trussCore (calledTruss a slice e limit ret back pass2 vendor free t))) :
    q.addr = e ∧ q.regs.stack = ret :: t.regs.stack ∧ q.writes = [] ∧ q.regs.cond.getLsbD 9 = pass2 ∧ q.regs.cond.getLsbD 3 = false ∧
      q.call = some { alloc := a, slice := slice, limit := limit, pass2 := pass2, steps := 0, depth := t.regs.stack.length + 1, back := back,
                      vendor := vendor, by_ := t.entry } ∧
      (t.entry ≠ 8 → q.resume = e) := by
  obtain ⟨hwrites, -, -, hregs, -, -, -, -, hresume, -⟩ := fields_of_committed h
  have hbit {k : Nat} (hk : k < 10) : q.regs.cond.getLsbD k = (calledTruss a slice e limit ret back pass2 vendor free t).regs.cond.getLsbD k := by
    rw [hregs]
    exact getLsbD_committed e _ hk
  refine ⟨(congrArg Truss.addr h :), (congrArg (fun u : Truss => u.regs.stack) h :), hwrites, (hbit (by decide)).trans ?_,
    (hbit (by decide)).trans ?_,
    (congrArg Truss.call h :), fun hentry => (hresume hentry).1⟩
  all_goals
    simp only [calledTruss, getLsbD_setC _ _ _ (show 9 < 16 by decide), getLsbD_setC _ _ _ (show 3 < 16 by decide)]
    rfl

/-! ### What the port operations of a word stage, refuse and read (R282, R284, R299) -/

section
variable {s : State} {sp : Nat}

theorem stageWrite_full {w : TWrite} (h : 128 ≤ (trussOf s sp).writes.length) : stageWrite sp w s = { st := s, cond := [(4, true)] } := if_pos h

theorem stageWrite_stages {w : TWrite} (h : (trussOf s sp).writes.length < 128) : stageWrite sp w s =
    { st := modTruss sp (fun q => { q with writes := q.writes ++ [w] }) s, cond := [(4, false)] } := if_neg (Nat.not_le.mpr h)

/-- What a refused port operation leaves: the state, with C4 set. -/
def portRefusal (s : State) : PortOut := { st := s, cond := [(4, true)] }

section
variable {a d param k : Nat}

theorem recordWrite_vendor (h : param ≤ 15) : portOp sp 1 2 a d param none s = stageWrite sp (.record a param (wd d)) s := by
  simp [portOp, Nat.not_lt.mpr h]

theorem recordWrite_undefined (h : 15 < param) : (portOp sp 1 2 a d param none s).undef = some "R282" := by
  simp [portOp, h]

theorem recordWrite_refused (h : param < 12 ∨ 15 < param) : portOp sp 1 2 a d param (some k) s = portRefusal s := by
  simp [portOp, h, portRefusal]

theorem counterInc_vendor (h : param ≤ 11) : portOp sp 5 0 a d param none s = stageWrite sp (.inc a param d) s := by
  simp [portOp, Nat.not_lt.mpr h]

theorem counterInc_undefined (h : 11 < param) : (portOp sp 5 0 a d param none s).undef = some "R282" := by
  simp [portOp, h]

theorem counterInc_refused (h : param < 8 ∨ 11 < param) : portOp sp 5 0 a d param (some k) s = portRefusal s := by
  simp [portOp, h, portRefusal]

theorem reserveOrWindow_refused {op : Nat} (h : op = 1 ∨ op = 2) : portOp sp 6 op a d param (some k) s = portRefusal s := by
  rcases h with rfl | rfl <;> rfl

theorem mapStage_reservedSelector (own : Option Nat) (h : param / 4 % 4 = 3) : (portOp sp 6 0 a d param own s).undef = some "R284" := by
  simp [portOp, h]

theorem mapStage_noAlloc (own : Option Nat) (h : param / 4 % 4 ≠ 3) (ha : allocAt s sp a = none) :
    (portOp sp 6 0 a d param own s).undef = some "R267" := by
  simp [portOp, h, mapStage, ha]

theorem cur_selectAlloc : (trussOf (selectAlloc sp a s).st sp).regs.cur = some a := congrArg (·.regs.cur) (trussOf_modTruss _ s)

theorem recordRead_within (own : Option Nat) (h : param ≤ 12) :
    portOp sp 1 1 a d param own s = { st := s, pd := some (recordWords s sp a param) } := by
  simp [portOp, Nat.not_lt.mpr h]

theorem recordRead_undefined (own : Option Nat) (h : 12 < param) : (portOp sp 1 1 a d param own s).undef = some "R282" := by
  simp [portOp, h]

section
variable (hlow : 12 ≤ param) (hhigh : param ≤ 15)
include hlow hhigh

theorem recordWrite_own (howner : allocOwner s sp a = k) : portOp sp 1 2 a d param (some k) s = stageWrite sp (.record a param (wd d)) s := by
  simp [portOp, Nat.not_lt.mpr hlow, Nat.not_lt.mpr hhigh, howner]

theorem recordWrite_foreign (ha : allocAt s sp a ≠ none) (howner : allocOwner s sp a ≠ k) :
    (portOp sp 1 2 a d param (some k) s).undef = some "R299" := by
  simp [portOp, Nat.not_lt.mpr hlow, Nat.not_lt.mpr hhigh, howner, Option.isSome_iff_ne_none, ha]

end

end

end

/-! ### The ALU (R278) -/

theorem alu_subSat (a b : Word) : alu 4 a b = (some (wd (a.toNat - b.toNat)), decide (a.toNat < b.toNat)) := by
  refine congrArg (fun r => (some r, decide (a.toNat < b.toNat))) ?_
  split
  case isTrue h =>
    rw [Nat.sub_eq_zero_of_le h.le]
    rfl
  case isFalse h =>
    refine BitVec.eq_of_toNat_eq ?_
    rw [BitVec.toNat_sub_of_le (BitVec.le_def.mpr (Nat.not_lt.mp h)), wd, BitVec.toNat_ofNat]
    exact (Nat.mod_eq_of_lt (by omega)).symm

theorem alu_mul (a b : Word) : alu 13 a b = (some (wd (a.toNat * b.toNat)), decide (2 ^ 32 ≤ a.toNat * b.toNat)) :=
  congrArg (fun r => (some r, decide (2 ^ 32 ≤ a.toNat * b.toNat))) (BitVec.eq_of_toNat_eq (by simp [wd]))

theorem alu_div {a b : Word} (h : b.toNat ≠ 0) :
    alu 15 a b = (some (wd (a.toNat / b.toNat)), false) ∧ alu 16 a b = (some (wd (ceilDiv a.toNat b.toNat)), false) := by
  simp [alu, h]

theorem alu_divZero {a b : Word} (h : b.toNat = 0) : alu 15 a b = (some 0xFFFFFFFF, true) ∧ alu 16 a b = (some 0xFFFFFFFF, true) := by
  simp [alu, h]

/-! ### The map cutoff and its undefined use (R245, R267) -/

section
variable {s : State} {sp : SpanIx}

theorem exec_mapCutoff (h : ((trussOf s sp).running && emptyEntry s sp) = false) : exec (.mapCutoff sp) s = .next (mapCutoff sp s) :=
  show execMapCutoff sp s = _ from if_neg (Bool.eq_false_iff.mp h)

theorem exec_mapCutoff_undefined (hrun : (trussOf s sp).running = true) (h : emptyEntry s sp = true) :
    exec (.mapCutoff sp) s = .fault (.undefinedUse "R267") :=
  show execMapCutoff sp s = _ from if_pos (by rw [hrun, h]; rfl)

end

/-- Settles O31: each command's cases, then what a word writes, how it is sequenced, and what commits, calls and port operations do. -/
theorem trussesRunTheirRoutine : Obligations.TrussesRunTheirRoutine := by
  unfold Obligations.TrussesRunTheirRoutine
  intro s sp t
  refine ⟨fun h => ?cutoffIdle, exec_mapCutoff_undefined, fun hrun hentry => ?cutoff,
    ⟨fun h => congrArg _ (finishEntry_enters h), fun h => congrArg _ (finishEntry_idle h)⟩,
    ⟨fun h => congrArg _ (initEntry_enters h), fun h => congrArg _ (initEntry_idle h)⟩,
    ⟨fun c h => congrArg _ (callLimit_ends h), fun h => congrArg _ (callLimit_idle h)⟩,
    fun b hentry h => execTrussMicroword_next (microStep_idle hentry h), fun hrun hcursor hentry hcall => ?vendor,
    fun hentry hcall => ?vendorFinish, fun hentry hcall => ?vendorInit, fun b hactive hwords => ?word, fun b hactive hwords => ?writes,
    fun n c k => (testBit_formed n c k).trans (by rw [addressBit, Bool.and_assoc]), fun n v => ?sequencing, fun r => ?commit, fun p e => rfl,
    fun a k v x ha hx => commitWrite_record ha hx,
    fun a slice e limit ret back pass2 vendor => ?call, fun w => ?stage, fun a d param k => ?ports, fun a b => ?alu⟩
  case cutoffIdle =>
    exact (exec_mapCutoff (by rw [h]; rfl)).trans (congrArg _ (mapCutoff_idle h))
  case cutoff =>
    refine (exec_mapCutoff (by rw [hentry, Bool.and_false])).trans (congrArg _ ?_)
    exact if_neg (by rw [hrun]; decide)
  case vendor =>
    have hnone : inCall (trussOf s sp) = none := by rw [inCall, hcall]; rfl
    refine execTrussMicroword_next ((microStep_vendor (.inr ⟨hrun, hcursor⟩) hnone).trans ?_)
    rw [if_neg (by rw [hentry]; decide), if_neg (by rw [hentry]; decide)]
    rfl
  case vendorFinish =>
    exact execTrussMicroword_next ((microStep_vendor (.inl (by rw [hentry]; decide)) hcall).trans (if_pos hentry))
  case vendorInit =>
    refine execTrussMicroword_next ((microStep_vendor (.inl (by rw [hentry]; decide)) hcall).trans ?_)
    rw [if_neg (by rw [hentry]; decide), if_pos hentry]
  case word =>
    intro n
    have hstep := microStep_word hactive hwords
    refine ⟨fun h => ?_, fun c hcall h hlimit => execTrussMicroword_next (hstep.trans (microWord_spent h hcall hlimit)),
      fun hcall h hport hseq hcommit => ?_⟩
    · rw [execTrussMicroword_fault (hstep.trans (microWord_reserved h))]
      cases inCall (trussOf s sp) <;> rfl
    · have hlimit : ∀ c, inCall (trussOf s sp) = some c → c.steps + wordCost n ≤ c.limit := fun c hc => absurd (hcall.symm.trans hc) (by simp)
      have hundef : (wordPort s sp n).undef = none := by rw [wordPort, hport]; rfl
      refine ⟨_, execTrussMicroword_next (hstep.trans ((microWord_runs h hlimit).trans (run_sequences s sp n hundef))), ?_⟩
      rw [trussOf_plainWord hcall hport hseq hcommit]
      exact ⟨rfl, rfl, rfl, rfl⟩
  case writes =>
    intro n call hword hlimit src res o
    have hrun := (microStep_word hactive hwords).trans (microWord_runs hword hlimit)
    refine ⟨fun r h => execTrussMicroword_fault (hrun.trans (run_undefined s sp n h)), fun h =>
      ⟨_, execTrussMicroword_next (hrun.trans (run_sequences s sp n h)), ?_⟩⟩
    intro q
    have hq : q = ranTruss s sp n (trussOf o.st sp) := trussOf_ranWord s sp n
    obtain ⟨hsteps, hstack, hscratch, hpd⟩ := portCore_fields (portCore_wordPort s sp n)
    rw [hq]
    exact ⟨congrArg (· + wordCost n) hsteps, hstack, rfl, rfl, rfl, rfl, scratch_ranTruss s sp n _ hscratch, pd_ranTruss s sp n _ hpd,
      fun k hk => cond_ranTruss_low s sp n _ hk, fun k hk => cond_ranTruss_flag s sp n _ hk⟩
  case sequencing =>
    intro call to_ ret outside full go done resume
    have houtside (a : Nat) : outsideCall t a = true ↔ outside a := outsideCall_iff t a
    have hfull : stackFull t = true ↔ full := stackFull_iff t
    refine ⟨fun h => ⟨fun hout => ?_, fun hin => ?_⟩, fun h => ⟨fun hbad => ?_, fun hroom hin => ?_⟩,
      fun h => ⟨fun hstack hentry => sequence_return_empty h hstack hentry, fun a l hstack hcall => sequence_return_vendor h hstack hcall,
        fun a l c hstack hcall hdepth => ⟨fun ha => ?_, fun ha => ?_⟩,
        fun a l c hstack hcall hdepth hvendor => sequence_return_caller h hstack hcall hdepth hvendor⟩,
      fun h hcall => sequence_open_inCall h hcall, fun h hcall => ⟨fun a e htarget => ⟨fun hbad => ?_, fun hroom => ?_⟩, fun htarget => ?_⟩,
      fun h hcall => sequence_done_inCall h hcall, fun h hcall => ⟨fun hentry => ?_, fun hentry => ?_⟩⟩
    · exact (sequence_jump h).trans (if_pos ((houtside _).mpr hout))
    · exact (sequence_jump h).trans (if_neg (mt (houtside _).mp hin))
    · exact (sequence_call h).trans (if_pos (Bool.or_eq_true_iff.mpr (hbad.imp hfull.mpr (houtside _).mpr)))
    · exact (sequence_call h).trans (if_neg fun hbad => (Bool.or_eq_true_iff.mp hbad).elim (mt hfull.mp hroom) (mt (houtside _).mp hin))
    · refine (sequence_return_within h hstack hcall hdepth).trans (if_pos ((houtside _).mpr ⟨?_, ha⟩))
      rw [hcall]
      exact Option.some_ne_none c
    · exact (sequence_return_within h hstack hcall hdepth).trans (if_neg (mt (houtside _).mp fun hout => Nat.not_lt.mpr ha hout.2))
    · exact (sequence_open_calls h hcall htarget).trans (if_pos (hfull.mpr hbad))
    · exact (sequence_open_calls h hcall htarget).trans (if_neg (mt hfull.mp hroom))
    · refine ⟨_, sequence_open_misses h hcall htarget, ?_⟩
      rw [trussOf_openMisses]
      exact ⟨rfl, rfl, rfl, rfl⟩
    · exact (sequence_done h hcall).trans (if_pos hentry)
    · exact (sequence_done h hcall).trans (if_neg hentry)
  case commit =>
    intro u q
    obtain ⟨hwrites, hcommitted, hfaulted, hregs, hheldRemain, hheldBudget, hremain, hbudget, houter, hfinish⟩ :=
      fields_of_committed (trussCore_commitAll (s := s) (sp := sp) r)
    exact ⟨hwrites, hcommitted, hfaulted, hregs, hheldRemain, hheldBudget, hremain, hbudget, houter, hfinish, rfl, rfl⟩
  case call => exact fields_of_called (trussCore_beginCall a slice e limit ret back pass2 vendor)
  case stage =>
    exact ⟨fun h => by rw [stageWrite_full h]; exact ⟨rfl, rfl⟩, fun h => by rw [stageWrite_stages h]; exact ⟨rfl, rfl⟩⟩
  case ports =>
    intro word inc
    refine ⟨recordWrite_vendor, recordWrite_undefined, fun h => ?_, recordWrite_own, recordWrite_foreign, counterInc_vendor, counterInc_undefined,
      fun h => ?_, fun op h => ?_, fun own h => ?_, recordRead_undefined, fun own => ⟨rfl, List.mem_cons_self, cur_selectAlloc⟩,
      mapStage_reservedSelector, mapStage_noAlloc⟩
    · rw [show word (some k) = portRefusal s from recordWrite_refused h]
      exact ⟨rfl, rfl, rfl⟩
    · rw [show inc (some k) = portRefusal s from counterInc_refused h]
      exact ⟨rfl, rfl, rfl⟩
    · rw [reserveOrWindow_refused h]
      exact ⟨rfl, rfl⟩
    · rw [recordRead_within own h]
      exact ⟨rfl, rfl⟩
  case alu =>
    intro x y
    exact ⟨rfl, rfl, rfl, alu_subSat a b, rfl, rfl, rfl, rfl, rfl, rfl, rfl, rfl, alu_mul a b, rfl, alu_div, alu_divZero⟩

end Sys2Proof.Machine

/-! PROOFS. Aging sweeps, keys from other pipelines and punt limiters (R325, R327, R328, R334): what each does in each of its cases. -/

namespace Sys2Proof.Machine

/-! ### Sweeps (R325, R327) -/

section
variable {p c : Nat} {s : State}

/-- Whether a sweep of a class is to start: the pipeline is on, the class ages, and a TAI second has come that is a multiple of
AGE_TIME / 4 and in which no sweep of the class started (R325). -/
def sweepDue (p c : Nat) (s : State) : Prop :=
  let age := (pipeOf s p).ageTime.getD c 0
  domOn s (domPl p) = true ∧ age ≠ 0 ∧ nowNs s / 1000000000 % (age / 4) = 0 ∧ kget (pipeOf s p).swept c ≠ some (nowNs s / 1000000000)

theorem sweepDue_iff : sweepDue p c s ↔
    (domOn s (domPl p) && (pipeOf s p).ageTime.getD c 0 ≠ 0 && nowNs s / 1000000000 % ((pipeOf s p).ageTime.getD c 0 / 4) = 0 &&
      kget (pipeOf s p).swept c ≠ some (nowNs s / 1000000000)) = true := by
  simp only [sweepDue, Bool.and_eq_true, decide_eq_true_eq, and_assoc]

theorem sweepStart_due (h : sweepDue p c s) : sweepStart p c s = setPipe p { pipeOf s p with
    sweeps := kset (pipeOf s p).sweeps c (1024 * (pipeOf s p).directBlocks), swept := kset (pipeOf s p).swept c (nowNs s / 1000000000) } s :=
  if_pos (sweepDue_iff.mp h)

theorem sweepStart_notDue (h : ¬ sweepDue p c s) : sweepStart p c s = s := if_neg (mt sweepDue_iff.mpr h)

/-- The state in which a class's sweep goes on at another place, or has ended. -/
def sweepsSet (p : Nat) (m : KMap Nat) (s : State) : State := setPipe p { pipeOf s p with sweeps := m } s

theorem sweepVisit_none (h : kget (pipeOf s p).sweeps c = none) : sweepVisit p c s = s := by
  simp only [sweepVisit, h]

/-- A visit of a bucket ages its four slots in order and takes up an overflow entry (R325, R327). -/
theorem sweepVisit_bucket {n : Nat} (h : kget (pipeOf s p).sweeps c = some n) (hn : n < 65536) : sweepVisit p c s =
    relocate p n (ageAt p c (.bucket n 3) (ageAt p c (.bucket n 2) (ageAt p c (.bucket n 1) (ageAt p c (.bucket n 0)
      (sweepsSet p (kset (pipeOf s p).sweeps c (n + 1)) s))))) := by
  have hnext : n + 1 < 65536 + 4096 := by omega
  simp only [sweepVisit, h, if_pos hnext, if_pos hn]
  rfl

/-- A visit of an overflow entry ages it, and the sweep goes on with the next. -/
theorem sweepVisit_overflow {n : Nat} (h : kget (pipeOf s p).sweeps c = some n) (hn : 65536 ≤ n) (hlast : n < 69631) : sweepVisit p c s =
    ageAt p c (.overflow (n - 65536)) (sweepsSet p (kset (pipeOf s p).sweeps c (n + 1)) s) := by
  have hnext : n + 1 < 65536 + 4096 := by omega
  simp only [sweepVisit, h, if_pos hnext, if_neg (Nat.not_lt.mpr hn)]
  rfl

/-- The last overflow entry ends the sweep. -/
theorem sweepVisit_last (h : kget (pipeOf s p).sweeps c = some 69631) : sweepVisit p c s =
    ageAt p c (.overflow 4095) (sweepsSet p (kerase (pipeOf s p).sweeps c) s) := by
  simp only [sweepVisit, h]
  rfl

/-! ### What a sweep does to an entry (R325) -/

variable {w : Where}

theorem ageAt_none (h : entryAt (pipeOf s p) w = none) : ageAt p c w s = s := by
  simp only [ageAt, h]

section
variable {e : FdbEntry} (h : entryAt (pipeOf s p) w = some e)
include h

theorem ageAt_spared (hspared : resStatic e.res = true ∨ resAgingClass e.res ≠ c) : ageAt p c w s = s := by
  simp only [ageAt, h]
  exact if_pos (by simpa using hspared)

variable (hlearned : resStatic e.res = false) (hclass : resAgingClass e.res = c)
include hlearned hclass

theorem ageAt_ages (hage : 0 < resAge e.res) :
    ageAt p c w s = setPipe p (putAt (pipeOf s p) w { e with res := withAge e.res (resAge e.res - 1) }) s := by
  simp [ageAt, h, hlearned, hclass, hage]

theorem ageAt_leaves (hage : resAge e.res = 0) :
    ageAt p c w s = tableLevels p (cnt (cPipe 9 p) 1 (setPipe p (clearAt (pipeOf s p) w) s)) := by
  simp [ageAt, h, hlearned, hclass, hage]

end

end

/-! ### Keys from another pipeline (R328) -/

section
variable {p : Nat} {s : State}

theorem xpFlush_idle (h : (pipeOf s p).xpWait = []) : xpFlush p s = s := by
  simp only [xpFlush, h]

variable {k : Nat} {rest : List Nat} (h : (pipeOf s p).xpWait = k :: rest)
include h

theorem xpFlush_absent (hkey : findKey (pipeOf s p) k = none) : xpFlush p s = setPipe p { pipeOf s p with xpWait := rest } s := by
  simp only [xpFlush, h, hkey]

variable {w : Where} {e : FdbEntry} (hkey : findKey (pipeOf s p) k = some w) (hentry : entryAt (pipeOf s p) w = some e)
include hkey hentry

theorem xpFlush_static (hstatic : resStatic e.res = true) : xpFlush p s = setPipe p { pipeOf s p with xpWait := rest } s := by
  simp only [xpFlush, h, hkey, hentry, hstatic, if_true]

theorem xpFlush_learned (hlearned : resStatic e.res = false) :
    let t := setPipe p { pipeOf s p with xpWait := rest } s
    xpFlush p s = tableLevels p (cnt (cPipe 14 p) 1 (setPipe p (clearAt (pipeOf t p) w) t)) := by
  simp only [xpFlush, h, hkey, hentry, hlearned, Bool.false_eq_true, if_false]

end

/-- Settles O41: a sweep starts when it is due, each visit by the place it has reached, each entry and each key by what is found. -/
theorem entriesAgeAndFlush : Obligations.EntriesAgeAndFlush := by
  unfold Obligations.EntriesAgeAndFlush
  intro s p x
  refine ⟨fun c => ⟨⟨fun hdue => ?start, fun h => ?noStart⟩, fun h => ?noSweep, fun n h hn => ?bucket, fun n h hn hlast => ?overflow,
    fun h => ?last⟩, fun c w h => ageAt_none h, fun c w e h => ⟨fun _ hclass => ?_, fun hstatic => ?_, fun hlearned hclass hage => ?_,
    fun hlearned hclass hage => ?_⟩, fun h => ?noKey, fun k rest h => ⟨fun hkey => ?absent, fun w e hkey hentry =>
    ⟨fun hstatic => ?static, fun hlearned => ?learned⟩⟩, fun k r => ?limiter⟩
  case start => exact congrArg Host.Outcome.next (sweepStart_due hdue)
  case noStart => exact congrArg Host.Outcome.next (sweepStart_notDue h)
  case noSweep => exact congrArg Host.Outcome.next (sweepVisit_none h)
  case bucket => exact congrArg Host.Outcome.next (sweepVisit_bucket h hn)
  case overflow => exact congrArg Host.Outcome.next (sweepVisit_overflow h hn hlast)
  case last => exact congrArg Host.Outcome.next (sweepVisit_last h)
  · exact ageAt_spared h (.inr hclass)
  · exact ageAt_spared h (.inl hstatic)
  · exact ageAt_ages h hlearned hclass hage
  · exact ageAt_leaves h hlearned hclass hage
  case noKey => exact congrArg Host.Outcome.next (xpFlush_idle h)
  case absent => exact congrArg Host.Outcome.next (xpFlush_absent h hkey)
  case static => exact congrArg Host.Outcome.next (xpFlush_static h hkey hentry hstatic)
  case learned => exact congrArg Host.Outcome.next (xpFlush_learned h hkey hentry hlearned)
  case limiter => exact rfl

end Sys2Proof.Machine

/-! PROOFS. What the items of family 0x07 write when they take effect (R319, R321, R331, R332, R340, R341): loops over the pipelines of a
mask, static entries, routes, and the items themselves. -/

namespace Sys2Proof.Machine

/-! ### Tables -/

section
variable {α : Type}

theorem kget_kset (m : KMap α) (k j : Nat) (a : α) : kget (kset m k a) j = if j = k then some a else kget m j := by
  split
  · rename_i h; subst h; exact kget_kset_same m j a
  · rename_i h; exact kget_kset_other m k j a h

/-- A table written out over some keys lists each of them. -/
theorem kget_map_key (l : List Nat) (f : Nat → α) {k : Nat} (h : k ∈ l) : kget (l.map fun j => (j, f j)) k = some (f k) := by
  induction l with
  | nil => cases h
  | cons j l ih =>
    by_cases hj : j = k
    · subst hj; exact if_pos rfl
    · exact (if_neg hj).trans (ih ((List.mem_cons.mp h).resolve_left (Ne.symm hj)))

end

/-! ### The pipelines of a mask -/

theorem pipesOf_nodup (w : Word) : (pipesOf w).Nodup := List.nodup_range.filter _

/-- A state without its pipelines. -/
def offPipes (s : State) : State := { s with fwd := { s.fwd with pipes := [] } }

/-- A state without its pipelines, its control complex and its record of what left the device. -/
def offTables (s : State) : State := others (offPipes s)

section
variable {s t : State}

theorem offPipes_frame (h : offPipes t = offPipes s) : { t with fwd := { t.fwd with pipes := s.fwd.pipes } } = s := by
  have h' := congrArg (fun u : State => { u with fwd := { u.fwd with pipes := s.fwd.pipes } }) h
  exact h'

theorem offTables_frame (h : offTables t = offTables s) :
    { t with fwd := { t.fwd with pipes := s.fwd.pipes }, ctl := s.ctl, out := s.out } = s := by
  have h' := congrArg (fun u : State => { u with fwd := { u.fwd with pipes := s.fwd.pipes }, ctl := s.ctl, out := s.out }) h
  exact h'

theorem ports_of_offTables (h : offTables t = offTables s) : t.fwd.ports = s.fwd.ports := (congrArg (fun u : State => u.fwd.ports) h :)

theorem policers_of_offTables (h : offTables t = offTables s) : t.fwd.policers = s.fwd.policers := (congrArg (fun u : State => u.fwd.policers) h :)

theorem offTables_of_others (h : others t = others s) : offTables t = offTables s := congrArg offPipes h

end

@[simp] theorem offPipes_setPipe (p : Nat) (x : Pipe) (s : State) : offPipes (setPipe p x s) = offPipes s := rfl
@[simp] theorem offTables_setPipe (p : Nat) (x : Pipe) (s : State) : offTables (setPipe p x s) = offTables s := rfl
@[simp] theorem offTables_cnt (id n : Nat) (s : State) : offTables (cnt id n s) = offTables s := rfl
@[simp] theorem pipeOf_cnt (id n : Nat) (s : State) (p : Nat) : pipeOf (cnt id n s) p = pipeOf s p := rfl

section
variable {w : Word} {f : Pipe → Pipe} {s : State} {p : Nat}

/-- A pipeline that the mask does not name stays. -/
theorem pipeOf_modPipes_unnamed (h : p ∉ pipesOf w) : pipeOf (modPipes w f s) p = pipeOf s p :=
  forEach_view (fun u => pipeOf u p) (fun _ hq _ => pipeOf_setPipe_other _ _ _ _ fun e => h (e ▸ hq)) s

/-- A pipeline that the mask names is rewritten once. -/
theorem pipeOf_modPipes_named (h : p ∈ pipesOf w) : pipeOf (modPipes w f s) p = f (pipeOf s p) := by
  obtain ⟨before, hend, hstart⟩ := forEach_turn (fun u => pipeOf u p) (pipesOf_nodup w) h
    (f := fun q u => setPipe q (f (pipeOf u q)) u) (fun _ hq _ => pipeOf_setPipe_other _ _ _ _ hq.symm) s
  refine hend.trans ((pipeOf_setPipe _ _ _).trans ?_)
  exact congrArg f hstart

theorem pipeOf_modPipes (w : Word) (f : Pipe → Pipe) (s : State) (p : Nat) :
    pipeOf (modPipes w f s) p = if p ∈ pipesOf w then f (pipeOf s p) else pipeOf s p := by
  split
  case isTrue h => exact pipeOf_modPipes_named h
  case isFalse h => exact pipeOf_modPipes_unnamed h

theorem modPipes_frame (w : Word) (f : Pipe → Pipe) (s : State) :
    { modPipes w f s with fwd := { (modPipes w f s).fwd with pipes := s.fwd.pipes } } = s :=
  offPipes_frame (forEach_view offPipes (f := fun p u => setPipe p (f (pipeOf u p)) u) (fun _ _ _ => rfl) s)

end

/-! ### The levels of a pipeline's tables (R339) -/

/-- A pipeline without what it has told of its levels. -/
def unlevelled (x : Pipe) : Pipe := { x with hiTold := false, ovTold := false }

theorem unlevelled_frame {x y : Pipe} (h : unlevelled x = unlevelled y) : { x with hiTold := y.hiTold, ovTold := y.ovTold } = y := by
  have h' := congrArg (fun z : Pipe => { z with hiTold := y.hiTold, ovTold := y.ovTold }) h
  exact h'

/-- A pipeline that is, but for what it has told, another with new static entries. -/
theorem unlevelled_static {x y : Pipe} {m : KMap (BitVec 64)} (h : unlevelled x = unlevelled { y with staticCfg := m }) :
    x.staticCfg = m ∧ { x with staticCfg := y.staticCfg, hiTold := y.hiTold, ovTold := y.ovTold } = y := by
  have h' := congrArg (fun z : Pipe => { z with staticCfg := y.staticCfg, hiTold := y.hiTold, ovTold := y.ovTold }) h
  exact ⟨congrArg Pipe.staticCfg h, h'⟩

section
variable {p : Nat} {s : State}

/-- The pipeline that `tableLevels` leaves, before it tells of a level. -/
def levelled (x : Pipe) : Pipe :=
  { x with hiTold := decide (9 * 4 * hashBuckets x < 10 * hashEntries x), ovTold := decide (3072 < x.ov.length) }

theorem others_tableLevels : others (tableLevels p s) = others (setPipe p (levelled (pipeOf s p)) s) := by
  unfold tableLevels levelled
  dsimp only
  (repeat' split) <;> simp only [others_raise]

theorem pipeOf_tableLevels (p' : Nat) : pipeOf (tableLevels p s) p' = pipeOf (setPipe p (levelled (pipeOf s p)) s) p' := by
  obtain ⟨-, -, -, hfwd, -⟩ := others_parts (others_tableLevels (p := p) (s := s))
  exact congrArg (fun x : Fwd => kgetD x.pipes p' {}) hfwd

theorem unlevelled_tableLevels : unlevelled (pipeOf (tableLevels p s) p) = unlevelled (pipeOf s p) := by
  rw [pipeOf_tableLevels, pipeOf_setPipe]
  rfl

theorem pipeOf_tableLevels_other {p' : Nat} (h : p' ≠ p) : pipeOf (tableLevels p s) p' = pipeOf s p' := by
  rw [pipeOf_tableLevels, pipeOf_setPipe_other _ _ _ _ h]

@[simp] theorem offTables_tableLevels : offTables (tableLevels p s) = offTables s :=
  (offTables_of_others others_tableLevels).trans (offTables_setPipe _ _ _)

end

/-! ### Static entries (R319, R321) -/

/-- The state in which a static entry stands in one pipeline. -/
def staticPut (key : Nat) (r : BitVec 64) (p : Nat) (i : Inserted) (s : State) : State :=
  let u := setPipe p { i.pipe with staticCfg := kset (pipeOf s p).staticCfg key r } s
  tableLevels p (if i.evicted then cnt (cPipe 12 p) 1 u else u)

section
variable {key : Nat} {r : BitVec 64} {p : Nat} {s : State} {i : Inserted}

theorem pipeOf_staticPut_other {p' : Nat} (h : p' ≠ p) : pipeOf (staticPut key r p i s) p' = pipeOf s p' := by
  unfold staticPut
  dsimp only
  rw [pipeOf_tableLevels_other h, apply_ite fun u => pipeOf u p', pipeOf_cnt, ite_self, pipeOf_setPipe_other _ _ _ _ h]

theorem unlevelled_staticPut :
    unlevelled (pipeOf (staticPut key r p i s) p) = unlevelled { i.pipe with staticCfg := kset (pipeOf s p).staticCfg key r } := by
  unfold staticPut
  dsimp only
  rw [unlevelled_tableLevels, apply_ite fun u => pipeOf u p, pipeOf_cnt, ite_self, pipeOf_setPipe]

theorem offTables_staticPut : offTables (staticPut key r p i s) = offTables s := by
  unfold staticPut
  dsimp only
  rw [offTables_tableLevels, apply_ite offTables, offTables_cnt, ite_self, offTables_setPipe]

variable {ps : List Nat}

theorem putStatic_none (h : insertEntry (pipeOf s p) ⟨key, asStatic r⟩ true = none) : putStatic (p :: ps) key r s = .error .noSpace := by
  simp only [putStatic, h]

theorem putStatic_some (h : insertEntry (pipeOf s p) ⟨key, asStatic r⟩ true = some i) :
    putStatic (p :: ps) key r s = putStatic ps key r (staticPut key r p i s) := by
  simp only [putStatic, h]
  rfl

/-- One full pipeline refuses the entry in all of them. -/
theorem putStatic_full (hnd : ps.Nodup) (h : ∃ p ∈ ps, insertEntry (pipeOf s p) ⟨key, asStatic r⟩ true = none) :
    putStatic ps key r s = .error .noSpace := by
  induction ps generalizing s with
  | nil => obtain ⟨p, hp, -⟩ := h; cases hp
  | cons q ps ih =>
    obtain ⟨hq, hnd⟩ := List.nodup_cons.mp hnd
    obtain ⟨p, hp, hfull⟩ := h
    cases hins : insertEntry (pipeOf s q) ⟨key, asStatic r⟩ true with
    | none => exact putStatic_none hins
    | some i =>
      have hpq : p ≠ q := by rintro rfl; cases hins.symm.trans hfull
      have hp : p ∈ ps := (List.mem_cons.mp hp).resolve_left hpq
      rw [putStatic_some hins]
      exact ih hnd ⟨p, hp, (congrArg (insertEntry · _ _) (pipeOf_staticPut_other hpq)).trans hfull⟩

/-- Where every pipeline has room, each takes the entry. -/
theorem putStatic_room (hnd : ps.Nodup) (h : ∀ p ∈ ps, (insertEntry (pipeOf s p) ⟨key, asStatic r⟩ true).isSome = true) :
    ∃ t, putStatic ps key r s = .ok t ∧ (∀ p, p ∉ ps → pipeOf t p = pipeOf s p) ∧
      (∀ p ∈ ps, ∀ e, insertEntry (pipeOf s p) ⟨key, asStatic r⟩ true = some e →
        unlevelled (pipeOf t p) = unlevelled { e.pipe with staticCfg := kset (pipeOf s p).staticCfg key r }) ∧
      offTables t = offTables s := by
  induction ps generalizing s with
  | nil => exact ⟨s, rfl, fun _ _ => rfl, fun _ hp => absurd hp List.not_mem_nil, rfl⟩
  | cons q ps ih =>
    obtain ⟨hq, hnd⟩ := List.nodup_cons.mp hnd
    obtain ⟨i, hins⟩ := Option.isSome_iff_exists.mp (h q List.mem_cons_self)
    have hkeep {p : Nat} (hp : p ≠ q) : pipeOf (staticPut key r q i s) p = pipeOf s p := pipeOf_staticPut_other hp
    have hne {p : Nat} (hp : p ∈ ps) : p ≠ q := fun e => hq (e ▸ hp)
    obtain ⟨t, ht, hout, hin, hoff⟩ := ih (s := staticPut key r q i s) hnd fun p hp => by
      rw [hkeep (hne hp)]; exact h p (List.mem_cons_of_mem _ hp)
    refine ⟨t, (putStatic_some hins).trans ht, fun p hp => ?_, fun p hp e he => ?_, hoff.trans offTables_staticPut⟩
    · obtain ⟨hpq, hp⟩ := not_or.mp (mt List.mem_cons.mpr hp)
      rw [hout p hp, hkeep hpq]
    · rcases List.mem_cons.mp hp with rfl | hp
      · cases hins.symm.trans he
        rw [hout p hq, unlevelled_staticPut]
      · rw [hin p hp e (by rw [hkeep (hne hp)]; exact he), hkeep (hne hp)]

end

/-! ### Entries that leave (R321, R341) -/

section
variable {key p : Nat} {s : State}

theorem pipeOf_dropEntry_other {p' : Nat} (h : p' ≠ p) : pipeOf (dropEntry key p s) p' = pipeOf s p' :=
  (pipeOf_tableLevels_other h).trans (pipeOf_setPipe_other _ _ _ _ h)

theorem unlevelled_dropEntry : unlevelled (pipeOf (dropEntry key p s) p) =
    unlevelled { removeKey (pipeOf s p) key with staticCfg := kerase (pipeOf s p).staticCfg key } := by
  refine unlevelled_tableLevels.trans ?_
  rw [pipeOf_setPipe]

theorem offTables_dropEntry : offTables (dropEntry key p s) = offTables s := offTables_tableLevels.trans (offTables_setPipe _ _ _)

/-- What is left once a key has left some pipelines. -/
def KeyCut (ps : List Nat) (key : Nat) (s t : State) : Prop :=
  (∀ p, p ∉ ps → pipeOf t p = pipeOf s p) ∧
    (∀ p ∈ ps, let y := removeKey (pipeOf s p) key; (pipeOf t p).staticCfg = kerase (pipeOf s p).staticCfg key ∧
      { pipeOf t p with staticCfg := y.staticCfg, hiTold := y.hiTold, ovTold := y.ovTold } = y) ∧
    { t with fwd := { t.fwd with pipes := s.fwd.pipes }, ctl := s.ctl, out := s.out } = s

theorem keyCut_dropEntries (w : Word) (key : Nat) (s : State) : KeyCut (pipesOf w) key s (forEach (pipesOf w) (dropEntry key) s) := by
  refine ⟨fun p hp => ?_, fun p hp => ?_, ?_⟩
  · exact forEach_view (fun u => pipeOf u p) (fun q hq _ => pipeOf_dropEntry_other fun e => hp (e ▸ hq)) s
  · obtain ⟨before, hend, hstart⟩ := forEach_turn (fun u => pipeOf u p) (pipesOf_nodup w) hp
      (f := dropEntry key) (fun _ hq _ => pipeOf_dropEntry_other hq.symm) s
    refine unlevelled_static ?_
    rw [hend, unlevelled_dropEntry, hstart]
  · exact offTables_frame (forEach_view offTables (fun p _ u => offTables_dropEntry (key := key) (p := p) (s := u)) s)

end

/-! ### Routes (R331, R332) -/

/-- A pipeline's memory with a route in it. -/
def routed (q : Prefix) (x : Pipe) : Pipe := if (lpmFind x q.v6 q.vrf q.addr q.len).isSome then lpmRewrite x q else lpmInsert x q

section
variable {q : Prefix} {s : State} {ps : List Nat}

theorem putRoute_cons (p : Nat) : putRoute (p :: ps) q s =
    if 16384 < lpmUsed (routed q (pipeOf s p)) then .error .noSpace else putRoute ps q (setPipe p (routed q (pipeOf s p)) s) := by
  unfold routed
  simp only [putRoute]
  cases lpmFind (pipeOf s p) q.v6 q.vrf q.addr q.len <;> rfl

/-- One memory without room refuses the route in all of them. -/
theorem putRoute_full (hnd : ps.Nodup) (h : ∃ p ∈ ps, 16384 < lpmUsed (routed q (pipeOf s p))) : putRoute ps q s = .error .noSpace := by
  induction ps generalizing s with
  | nil => obtain ⟨p, hp, -⟩ := h; cases hp
  | cons k ps ih =>
    obtain ⟨-, hnd⟩ := List.nodup_cons.mp hnd
    obtain ⟨p, hp, hfull⟩ := h
    rw [putRoute_cons]
    split
    case isTrue => rfl
    case isFalse hroom =>
      have hpk : p ≠ k := by rintro rfl; exact hroom hfull
      exact ih hnd ⟨p, (List.mem_cons.mp hp).resolve_left hpk, by rw [pipeOf_setPipe_other _ _ _ _ hpk]; exact hfull⟩

/-- Where every memory has room, each takes the route. -/
theorem putRoute_room (hnd : ps.Nodup) (h : ∀ p ∈ ps, lpmUsed (routed q (pipeOf s p)) ≤ 16384) :
    putRoute ps q s = .ok (forEach ps (fun p s => setPipe p (routed q (pipeOf s p)) s) s) := by
  induction ps generalizing s with
  | nil => rfl
  | cons k ps ih =>
    obtain ⟨hk, hnd⟩ := List.nodup_cons.mp hnd
    rw [putRoute_cons, if_neg (Nat.not_lt.mpr (h k List.mem_cons_self))]
    refine ih hnd fun p hp => ?_
    have hpk : p ≠ k := fun e => hk (e ▸ hp)
    rw [pipeOf_setPipe_other _ _ _ _ hpk]
    exact h p (List.mem_cons_of_mem _ hp)

end

/-! ### The tests of the items -/

section
variable {b : Bool} {st : Status} {who : Option Nat} {owner k : Nat} {s : State}

theorem need_of_true (h : b = true) : need b st = .ok () := if_pos h

theorem need_of_false (h : b = false) : need b st = .error st := if_neg (Bool.eq_false_iff.mp h)

theorem needSlice_ok (h : s.ctl.slices.contains k = true) : needSlice s k = .ok () := if_pos h

theorem needSlice_error (h : s.ctl.slices.contains k = false) : needSlice s k = .error .badArg := if_neg (Bool.eq_false_iff.mp h)

/-- What follows where the slice exists. -/
theorem needSlice_bind_ok {f : Unit → Res State} (h : s.ctl.slices.contains k = true) : (needSlice s k >>= f) = f () := by
  rw [needSlice_ok h, res_bind_ok]

theorem needSlice_bind_error {f : Unit → Res State} (h : s.ctl.slices.contains k = false) : (needSlice s k >>= f) = .error .badArg := by
  rw [needSlice_error h, res_bind_error]

theorem needOwnerAs_ok (h : who = some 0 ∨ who = some owner) : needOwnerAs who owner = .ok () := if_pos (by simpa using h)

theorem needOwnerAs_error (hzero : who ≠ some 0) (howner : who ≠ some owner) : needOwnerAs who owner = .error .notOwner :=
  if_neg (by simp [hzero, howner])

end

theorem kany_eq_false {α : Type} {m : KMap α} {p : Nat → α → Bool} (h : ∀ e ∈ m, p e.1 e.2 = false) : kany m p = false := by
  induction m with
  | nil => rfl
  | cons e m ih =>
    obtain ⟨k, a⟩ := e
    exact Bool.or_eq_false_iff.mpr ⟨h (k, a) List.mem_cons_self, ih fun e he => h e (List.mem_cons_of_mem _ he)⟩

/-! ### Port records (R341, R561) -/

section
variable {i : Item} {s : State}

theorem portSet_noPier (h : pierOfOnu s (fld (pw i.words 1) 4 0) (fld (pw i.words 2) 24 16) = none) : portSet.apply i s = .error .badState := by
  simp only [portSet, h]

/-- A record whose port ID fits its Pier, and which no other port of the Pier has, is written. -/
theorem portSet_done {p : Nat} (h : pierOfOnu s (fld (pw i.words 1) 4 0) (fld (pw i.words 2) 24 16) = some p)
    (hid : p ≠ 2 ∨ (portRecOf i.words p).portId ≤ 4095)
    (hfree : ∀ e ∈ s.fwd.ports, e.1 / 8192 = fld (pw i.words 1) 4 0 → e.1 = portKey (pw i.words 1) ∨ e.2.pier ≠ p ∨
      e.2.portId ≠ (portRecOf i.words p).portId) :
    portSet.apply i s = .ok { s with fwd := { s.fwd with ports := kset s.fwd.ports (portKey (pw i.words 1)) (portRecOf i.words p) } } := by
  have hid' : (decide (p ≠ 2) || decide ((portRecOf i.words p).portId ≤ 4095)) = true := by simpa using hid
  have htaken : kany s.fwd.ports (fun k o => k / 8192 = fld (pw i.words 1) 4 0 && k ≠ portKey (pw i.words 1) && o.pier = p &&
      o.portId = (portRecOf i.words p).portId) = false := by
    refine kany_eq_false fun e he => ?_
    have hother := hfree e he
    simp only [Bool.and_eq_false_iff, decide_eq_false_iff_not, not_not]
    tauto
  simp only [portSet, h, hid', htaken, need_true, res_bind_ok, Bool.not_false]
  rfl

theorem portDelete_absent (h : kget s.fwd.ports (portKey (pw i.words 1)) = none) : portDelete.apply i s = .error .badState := by
  simp only [portDelete, h]

/-- The state in which the learned entries of the port that a word names have left its pipeline. -/
def portForgotten (w : Word) (s : State) : State :=
  let q := fld w 4 0 / 8
  tableLevels q (setPipe q (removeLearned (pipeOf s q) fun e => resSpan e.res = fld w 4 0 && resPort e.res = fld w 28 16) s)

/-- The state without the record and the policer of the port that a word names. -/
def portErased (w : Word) (s : State) : State :=
  { s with fwd := { s.fwd with ports := kerase s.fwd.ports (portKey w), policers := kerase s.fwd.policers (portKey w) } }

theorem portDelete_done (h : (kget s.fwd.ports (portKey (pw i.words 1))).isSome = true) :
    portDelete.apply i s = .ok (portErased (pw i.words 1) (portForgotten (pw i.words 1) s)) := by
  obtain ⟨r, hr⟩ := Option.isSome_iff_exists.mp h
  simp only [portDelete, hr]
  rfl

theorem offTables_portForgotten (w : Word) : offTables (portForgotten w s) = offTables s :=
  offTables_tableLevels.trans (offTables_setPipe _ _ _)

theorem unlevelled_portForgotten (w : Word) : unlevelled (pipeOf (portForgotten w s) (fld w 4 0 / 8)) =
    unlevelled (removeLearned (pipeOf s (fld w 4 0 / 8)) fun e => resSpan e.res = fld w 4 0 && resPort e.res = fld w 28 16) := by
  refine unlevelled_tableLevels.trans ?_
  rw [pipeOf_setPipe]

theorem pipeOf_portForgotten_other {w : Word} {p : Nat} (h : p ≠ fld w 4 0 / 8) : pipeOf (portForgotten w s) p = pipeOf s p :=
  (pipeOf_tableLevels_other h).trans (pipeOf_setPipe_other _ _ _ _ h)

theorem portErased_frame {t : State} (w : Word) (h : offTables t = offTables s) : { portErased w t with
    fwd := { (portErased w t).fwd with ports := s.fwd.ports, policers := s.fwd.policers, pipes := s.fwd.pipes }, ctl := s.ctl, out := s.out } = s := by
  have h' := congrArg (fun u : State => { u with
    fwd := { u.fwd with ports := s.fwd.ports, policers := s.fwd.policers, pipes := s.fwd.pipes }, ctl := s.ctl, out := s.out }) h
  exact h'

end

/-! ### Route items (R340, R342) -/

section
variable {i : Item} {s : State}

/-- The route that a ROUTE_DELETE names. -/
def routeNamed (i : Item) : Route46 := routeFrom i.version (pw i.words 1) (wide i.words 2 4) 0

/-- The key of the host that a ROUTE_DELETE names. -/
def hostNamed (i : Item) : Nat := hostKey (routeNamed i).pre.vrf (routeNamed i).pre.addr

/-- The route that a ROUTE_SET gives. -/
def routeGiven (i : Item) : Route46 := routeFrom i.version (pw i.words 1) (wide i.words 2 4) (res64 i.words 6)

theorem routeSet_host (h : (routeGiven i).host = true) : routeSet.apply i s =
    putStatic (pipesOf (pw i.words 1)) (hostKey (routeGiven i).pre.vrf (routeGiven i).pre.addr) (routeGiven i).pre.res s := if_pos h

/-- The route that a ROUTE_SET writes, its result static. -/
def routePrefix (i : Item) : Prefix := { (routeGiven i).pre with res := asStatic (routeGiven i).pre.res }

section
variable (h : (routeGiven i).host = false)
include h

theorem routeSet_lpm : routeSet.apply i s = putRoute (pipesOf (pw i.words 1)) (routePrefix i) s := if_neg (Bool.eq_false_iff.mp h)

theorem routeSet_lpmFull (hfull : ∃ p ∈ pipesOf (pw i.words 1), 16384 < lpmUsed (routed (routePrefix i) (pipeOf s p))) :
    routeSet.apply i s = .error .noSpace := (routeSet_lpm h).trans (putRoute_full (pipesOf_nodup _) hfull)

theorem routeSet_lpmDone (hroom : ∀ p ∈ pipesOf (pw i.words 1), lpmUsed (routed (routePrefix i) (pipeOf s p)) ≤ 16384) :
    routeSet.apply i s = .ok (modPipes (pw i.words 1) (routed (routePrefix i)) s) :=
  (routeSet_lpm h).trans (putRoute_room (pipesOf_nodup _) hroom)

end

section
variable (h : (routeNamed i).host = true)
include h

theorem routeDelete_host : routeDelete.apply i s =
    (need ((pipesOf (pw i.words 1)).all fun p => (kget (pipeOf s p).staticCfg (hostNamed i)).isSome) .badState >>=
      fun _ => .ok (forEach (pipesOf (pw i.words 1)) (dropEntry (hostNamed i)) s)) := if_pos h

theorem routeDelete_hostAbsent
    (habsent : ∃ p ∈ pipesOf (pw i.words 1), kget (pipeOf s p).staticCfg (hostNamed i) = none) :
    routeDelete.apply i s = .error .badState := by
  obtain ⟨p, hp, hnone⟩ := habsent
  rw [routeDelete_host h, need_of_false (List.all_eq_false.mpr ⟨p, hp, by simp [hnone]⟩), res_bind_error]

theorem routeDelete_hostDone
    (hthere : ∀ p ∈ pipesOf (pw i.words 1), (kget (pipeOf s p).staticCfg (hostNamed i)).isSome = true) :
    routeDelete.apply i s = .ok (forEach (pipesOf (pw i.words 1)) (dropEntry (hostNamed i)) s) := by
  rw [routeDelete_host h, need_of_true (List.all_eq_true.mpr hthere), res_bind_ok]

end

section
variable (h : (routeNamed i).host = false)
include h

theorem routeDelete_lpm : let q := (routeNamed i).pre; routeDelete.apply i s =
    (need ((pipesOf (pw i.words 1)).all fun p => (lpmFind (pipeOf s p) q.v6 q.vrf q.addr q.len).isSome) .badState >>=
      fun _ => .ok (modPipes (pw i.words 1) (fun x => lpmDelete x q.v6 q.vrf q.addr q.len) s)) := if_neg (Bool.eq_false_iff.mp h)

theorem routeDelete_lpmAbsent (habsent : let q := (routeNamed i).pre; ∃ p ∈ pipesOf (pw i.words 1), lpmFind (pipeOf s p) q.v6 q.vrf q.addr q.len = none) :
    routeDelete.apply i s = .error .badState := by
  obtain ⟨p, hp, hnone⟩ := habsent
  rw [routeDelete_lpm h, need_of_false (List.all_eq_false.mpr ⟨p, hp, by simp [hnone]⟩), res_bind_error]

theorem routeDelete_lpmDone
    (hthere : let q := (routeNamed i).pre; ∀ p ∈ pipesOf (pw i.words 1), (lpmFind (pipeOf s p) q.v6 q.vrf q.addr q.len).isSome = true) :
    let q := (routeNamed i).pre
    routeDelete.apply i s = .ok (modPipes (pw i.words 1) (fun x => lpmDelete x q.v6 q.vrf q.addr q.len) s) := by
  intro q
  rw [routeDelete_lpm h, need_of_true (List.all_eq_true.mpr hthere), res_bind_ok]

end

end

/-! ### Table sizes and seeds (R316, R341) -/

section
variable {i : Item} {s : State}

/-- The pipeline that a FWD_TABLE_CONFIG names. -/
def configured (i : Item) : Nat := fld (pw i.words 1) 29 28

/-- Whether a FWD_TABLE_CONFIG changes what the places of the tables depend on: the direct blocks or a seed. -/
def tablesMove (i : Item) (x : Pipe) : Bool :=
  decide (fld (pw i.words 1) 6 0 ≠ x.directBlocks ∨ (pw i.words 2).toNat ≠ x.seed0 ∨ (pw i.words 3).toNat ≠ x.seed1)

/-- Whether a pipeline's tables may move: its Spans are closed and no static entry is configured. -/
def tablesFree (s : State) (p : Nat) : Prop := (∀ n < 8, (spanOf s (8 * p + n)).st = .closed) ∧ (pipeOf s p).staticCfg = []

/-- A pipeline whose exact-match and direct tables are empty. -/
def emptied (x : Pipe) : Pipe := { x with em := [], ov := [], direct := [], hiTold := false, ovTold := false }

/-- A pipeline with the settings of a FWD_TABLE_CONFIG; a session of version 2.x leaves the alarm. -/
def tablesSet (i : Item) (x : Pipe) : Pipe :=
  { x with
    directBlocks := fld (pw i.words 1) 6 0, seed0 := (pw i.words 2).toNat, seed1 := (pw i.words 3).toNat
    ageTime := (List.range 4).map fun n => fld (pw i.words (4 + n)) 19 0
    moveAlarm := if i.version < 0x0300 then x.moveAlarm else fld (pw i.words 8) 23 0 }

theorem tablesFree_iff {p : Nat} : tablesFree s p ↔
    (((List.range 8).all fun n => (spanOf s (8 * p + n)).st = .closed) && (pipeOf s p).staticCfg = []) = true := by
  simp [tablesFree]

theorem fwdTableConfig_eq : let x := pipeOf s (configured i)
    fwdTableConfig.apply i s = (need (!tablesMove i x || (((List.range 8).all fun n => (spanOf s (8 * configured i + n)).st = .closed) &&
      x.staticCfg = [])) .badState >>= fun _ => .ok (setPipe (configured i) (tablesSet i (if tablesMove i x then emptied x else x)) s)) := by
  have hmove (x : Pipe) : tablesMove i x =
      (fld (pw i.words 1) 6 0 ≠ x.directBlocks || (pw i.words 2).toNat ≠ x.seed0 || (pw i.words 3).toNat ≠ x.seed1) := by
    simp only [tablesMove, Bool.decide_or, Bool.or_assoc]
  simp only [hmove]
  rfl

theorem fwdTableConfig_refused (hmove : tablesMove i (pipeOf s (configured i)) = true) (hfree : ¬ tablesFree s (configured i)) :
    fwdTableConfig.apply i s = .error .badState := by
  have hbusy := Bool.eq_false_iff.mpr (mt tablesFree_iff.mpr hfree)
  rw [fwdTableConfig_eq, need_of_false, res_bind_error]
  rw [hmove, hbusy]
  rfl

theorem fwdTableConfig_done (h : tablesMove i (pipeOf s (configured i)) = false ∨ tablesFree s (configured i)) :
    let x := pipeOf s (configured i)
    fwdTableConfig.apply i s = .ok (setPipe (configured i) (tablesSet i (if tablesMove i x then emptied x else x)) s) := by
  intro x
  rw [fwdTableConfig_eq, need_of_true, res_bind_ok]
  rcases h with h | h
  · rw [h]; rfl
  · rw [tablesFree_iff.mp h, Bool.or_true]

end

/-! ### Direct entries and traps (R309, R334) -/

section
variable {i : Item} {s : State}

theorem directSet_done (h : fld (pw i.words 1) 17 0 < 4096 * (pipeOf s (fld (pw i.words 1) 29 28)).directBlocks) :
    let x := pipeOf s (fld (pw i.words 1) 29 28)
    directSet.apply i s = .ok (setPipe (fld (pw i.words 1) 29 28)
      { x with direct := kset x.direct (fld (pw i.words 1) 17 0) (asStatic (res64 i.words 2)) } s) := by
  simp only [directSet, h, decide_true, need_true, res_bind_ok]
  rfl

theorem directSet_badArg (h : 4096 * (pipeOf s (fld (pw i.words 1) 29 28)).directBlocks ≤ fld (pw i.words 1) 17 0) :
    directSet.apply i s = .error .badArg := by
  have hout : ¬ fld (pw i.words 1) 17 0 < 4096 * (pipeOf s (fld (pw i.words 1) 29 28)).directBlocks := Nat.not_lt.mpr h
  simp only [directSet, hout, decide_false, need_false, res_bind_error]

/-- The slice that an item names beside its target. -/
def sliceNamed (i : Item) : Nat := fld (pw i.words 1) 19 16

/-- The key of the trap that a TRAP_CONFIG names. -/
def trapKey (i : Item) : Nat := 16 * sliceNamed i + fld (pw i.words 1) 7 0

/-- What a TRAP_CONFIG does in one pipeline: the limiter takes what the old rate gave it, and the trap takes the new settings. -/
def trapSet (i : Item) (p : Nat) (s : State) : State :=
  let u := limiterRefill p (sliceNamed i) (fld (pw i.words 1) 7 0) s
  let x := pipeOf u p
  let a := if [1, 7, 8, 10, 11].contains (fld (pw i.words 1) 7 0) then (kgetD x.traps (trapKey i) {}).action else fld (pw i.words 2) 25 24
  setPipe p { x with traps := kset x.traps (trapKey i) { action := a, rate := fld (pw i.words 2) 23 0, burst := fld (pw i.words 3) 15 0 } } u

theorem pipeOf_trapSet_other {p p' : Nat} (h : p' ≠ p) : pipeOf (trapSet i p s) p' = pipeOf s p' :=
  (pipeOf_setPipe_other _ _ _ _ h).trans (pipeOf_setPipe_other _ _ _ _ h)

theorem trapSet_trap (p : Nat) : (kgetD (pipeOf (trapSet i p s) p).traps (trapKey i) {}).rate = fld (pw i.words 2) 23 0 ∧
    (kgetD (pipeOf (trapSet i p s) p).traps (trapKey i) {}).burst = fld (pw i.words 3) 15 0 := by
  unfold trapSet
  dsimp only
  rw [pipeOf_setPipe, kgetD_kset_same]
  exact ⟨rfl, rfl⟩

theorem trapConfig_done (h : s.ctl.slices.contains (sliceNamed i) = true) :
    trapConfig.apply i s = .ok (forEach (pipesOf (pw i.words 1)) (trapSet i) s) := needSlice_bind_ok h

theorem trapConfig_noSlice (h : s.ctl.slices.contains (sliceNamed i) = false) : trapConfig.apply i s = .error .badArg :=
  needSlice_bind_error h

/-- The pipelines of the mask have the trap's rate and burst; the others, and all else, stay. -/
theorem trapSets (s : State) : let t := forEach (pipesOf (pw i.words 1)) (trapSet i) s
    (∀ p, (p ∉ pipesOf (pw i.words 1) → pipeOf t p = pipeOf s p) ∧ (p ∈ pipesOf (pw i.words 1) →
      (kgetD (pipeOf t p).traps (trapKey i) {}).rate = fld (pw i.words 2) 23 0 ∧
      (kgetD (pipeOf t p).traps (trapKey i) {}).burst = fld (pw i.words 3) 15 0)) ∧
    { t with fwd := { t.fwd with pipes := s.fwd.pipes } } = s := by
  refine ⟨fun p => ⟨fun hp => ?_, fun hp => ?_⟩, ?_⟩
  · exact forEach_view (fun u => pipeOf u p) (fun q hq _ => pipeOf_trapSet_other fun e => hp (e ▸ hq)) s
  · obtain ⟨before, hend, -⟩ := forEach_turn (fun u => pipeOf u p) (pipesOf_nodup _) hp (f := trapSet i)
      (fun _ hq _ => pipeOf_trapSet_other hq.symm) s
    rw [hend]
    exact trapSet_trap p
  · exact offPipes_frame (forEach_view offPipes (f := trapSet i) (fun _ _ _ => rfl) s)

end

end Sys2Proof.Machine

/-! PROOFS. What the items of family 0x08 write when they take effect (R357 to R361, R367, R560, R561): the nodes of the tree, queues, and the
quotas and ranges of slices. -/

namespace Sys2Proof.Machine

/-! ### Nodes (R358, R359, R560, R561) -/

section
variable {i : Item} {s : State}

/-- The group and the number of the node that an item names, the L1 node that it puts an L2 node under, and the Span and the index of the ONU
that it gives an L1 node. -/
def nodeGroup (i : Item) : Nat := fld (pw i.words 1) 29 28
def nodeNo (i : Item) : Nat := fld (pw i.words 1) 15 0
def nodeParent (i : Item) : Nat := fld (pw i.words 3) 12 0
def nodeSpan (i : Item) : Nat := fld (pw i.words 2) 12 8
def nodeOnu (i : Item) : Nat := fld (pw i.words 2) 24 16

/-- The L2 nodes below an L1 node of a group, a given node left out. -/
def l2Siblings (s : State) (g n par : Nat) : Nat := (s.fwd.l2.filter fun e => e.1 / 65536 = g && e.1 % 65536 ≠ n && e.2.parent = par).length

/-- The L1 nodes below the root of a kind of a group, a given node left out. -/
def l1Siblings (s : State) (g n : Nat) (k : L1Kind) : Nat :=
  (s.fwd.l1.filter fun e => e.1 / 8192 = g && e.1 % 8192 ≠ n && rootOf e.2.kind = rootOf k).length

/-- An L2 node below an L1 node: one that exists moves, a new one has a new shaper. -/
def l2Under1 (s : State) (g n par : Nat) (a : L1) : L2 :=
  match l2At s g n with
  | some x => { x with parent := par }
  | none => { parent := par, sh := newShaper a.kind s.tb }

/-- An L1 node of a kind: one that exists takes the kind, a new one has a new shaper. -/
def l1OfKind (s : State) (g n : Nat) (k : L1Kind) : L1 :=
  match l1At s g n with
  | some x => { x with kind := k }
  | none => { kind := k, sh := newShaper k s.tb }

/-- The write of an L1 node, where its root has room. -/
def l1Put (g n : Nat) (k : L1Kind) (s : State) : Res State :=
  need (l1Siblings s g n k < 4096) .noSpace >>= fun _ => .ok { s with fwd := { s.fwd with l1 := kset s.fwd.l1 (8192 * g + n) (l1OfKind s g n k) } }

section
variable {g n : Nat} {k : L1Kind}

theorem l1Put_full (h : 4096 ≤ l1Siblings s g n k) : l1Put g n k s = .error .noSpace := by
  rw [l1Put, need_of_false (decide_eq_false (Nat.not_lt.mpr h)), res_bind_error]

theorem l1Put_done (h : l1Siblings s g n k < 4096) :
    l1Put g n k s = .ok { s with fwd := { s.fwd with l1 := kset s.fwd.l1 (8192 * g + n) (l1OfKind s g n k) } } := by
  rw [l1Put, need_of_true (decide_eq_true h), res_bind_ok]

end

section
variable (h : bit (pw i.words 1) 24 = true)
include h

theorem qnodeSet_l2 : let g := nodeGroup i; let n := nodeNo i; let par := nodeParent i
    qnodeSet.apply i s = match l1At s g par with
      | none => .error .badArg
      | some a => needOwnerAs i.slice (l1Owner s a.kind) >>= fun _ => need (l2Siblings s g n par < 256) .noSpace >>= fun _ =>
        .ok { s with fwd := { s.fwd with l2 := kset s.fwd.l2 (65536 * g + n) (l2Under1 s g n par a) } } := if_pos h

theorem qnodeSet_noParent (hnone : l1At s (nodeGroup i) (nodeParent i) = none) : qnodeSet.apply i s = .error .badArg := by
  rw [qnodeSet_l2 h, hnone]

variable {a : L1} (ha : l1At s (nodeGroup i) (nodeParent i) = some a)
include ha

theorem qnodeSet_notOwner (hzero : i.slice ≠ some 0) (howner : i.slice ≠ some (l1Owner s a.kind)) : qnodeSet.apply i s = .error .notOwner := by
  simp only [qnodeSet_l2 h, ha, needOwnerAs_error hzero howner, res_bind_error]

variable (hmay : i.slice = some 0 ∨ i.slice = some (l1Owner s a.kind))
include hmay

theorem qnodeSet_l2Full (hfull : 256 ≤ l2Siblings s (nodeGroup i) (nodeNo i) (nodeParent i)) :
    qnodeSet.apply i s = .error .noSpace := by
  simp only [qnodeSet_l2 h, ha, needOwnerAs_ok hmay, res_bind_ok, need_of_false (decide_eq_false (Nat.not_lt.mpr hfull)), res_bind_error]

theorem qnodeSet_l2Done (hroom : l2Siblings s (nodeGroup i) (nodeNo i) (nodeParent i) < 256) :
    let g := nodeGroup i; let n := nodeNo i
    qnodeSet.apply i s = .ok { s with fwd := { s.fwd with l2 := kset s.fwd.l2 (65536 * g + n) (l2Under1 s g n (nodeParent i) a) } } := by
  simp only [qnodeSet_l2 h, ha, needOwnerAs_ok hmay, res_bind_ok, need_of_true (decide_eq_true hroom)]

end

section
variable (h : bit (pw i.words 1) 24 = false)
include h

/-- An uplink node names the slice whose budget it stands under (R359). -/
theorem qnodeSet_uplink (hup : bit (pw i.words 2) 31 = true) : qnodeSet.apply i s = needSlice s (fld (pw i.words 2) 3 0) >>= fun _ =>
    l1Put (nodeGroup i) (nodeNo i) (.uplink (nodeSpan i) (fld (pw i.words 2) 3 0)) s := by
  refine (if_neg (Bool.eq_false_iff.mp h)).trans ?_
  dsimp only
  rw [if_pos hup]
  rfl

variable (hdown : bit (pw i.words 2) 31 = false)
include hdown

/-- An ONU node stands under the Pier of its ONU, which has one L1 node (R561; notes/assumptions/102). -/
theorem qnodeSet_down : qnodeSet.apply i s = match pierOfOnu s (nodeSpan i) (nodeOnu i) with
    | none => .error .badState
    | some p => need (match l1OfOnu s (nodeSpan i) (nodeOnu i) with | some e => e.1 = 8192 * nodeGroup i + nodeNo i | none => true) .badState >>= fun _ =>
      l1Put (nodeGroup i) (nodeNo i) (.onu (nodeSpan i) (nodeOnu i) p) s := by
  refine (if_neg (Bool.eq_false_iff.mp h)).trans ?_
  dsimp only
  rw [if_neg (Bool.eq_false_iff.mp hdown)]
  unfold nodeSpan nodeOnu
  cases pierOfOnu s (fld (pw i.words 2) 12 8) (fld (pw i.words 2) 24 16) <;> rfl

theorem qnodeSet_noPier (hnone : pierOfOnu s (nodeSpan i) (nodeOnu i) = none) : qnodeSet.apply i s = .error .badState := by
  rw [qnodeSet_down h hdown, hnone]

variable {p : Nat} (hp : pierOfOnu s (nodeSpan i) (nodeOnu i) = some p)
include hp

theorem qnodeSet_secondNode (hother : ∃ e ∈ l1OfOnu s (nodeSpan i) (nodeOnu i),
    e.1 ≠ 8192 * nodeGroup i + nodeNo i) : qnodeSet.apply i s = .error .badState := by
  obtain ⟨e, he, hne⟩ := hother
  simp only [qnodeSet_down h hdown, hp, Option.mem_def.mp he, need_of_false (decide_eq_false hne), res_bind_error]

theorem qnodeSet_ownNode (hown : ∀ e ∈ l1OfOnu s (nodeSpan i) (nodeOnu i),
    e.1 = 8192 * nodeGroup i + nodeNo i) : qnodeSet.apply i s =
    l1Put (nodeGroup i) (nodeNo i) (.onu (nodeSpan i) (nodeOnu i) p) s := by
  rw [qnodeSet_down h hdown, hp]
  dsimp only
  rw [need_of_true, res_bind_ok]
  split
  case h_1 e he => exact decide_eq_true (hown e he)
  case h_2 => rfl

end

/-- The kind of L1 node that a QNODE_SET gives, where the slice or the ONU that it names has one to give. -/
theorem qnodeSet_l1 {k : L1Kind} (h : bit (pw i.words 1) 24 = false)
    (hk : (bit (pw i.words 2) 31 = true ∧ s.ctl.slices.contains (fld (pw i.words 2) 3 0) = true ∧
        k = .uplink (nodeSpan i) (fld (pw i.words 2) 3 0)) ∨
      (bit (pw i.words 2) 31 = false ∧ (∀ e ∈ l1OfOnu s (nodeSpan i) (nodeOnu i),
          e.1 = 8192 * nodeGroup i + nodeNo i) ∧
        ∃ p, pierOfOnu s (nodeSpan i) (nodeOnu i) = some p ∧
          k = .onu (nodeSpan i) (nodeOnu i) p)) :
    qnodeSet.apply i s = l1Put (nodeGroup i) (nodeNo i) k s := by
  rcases hk with ⟨hup, hslice, rfl⟩ | ⟨hdown, hown, p, hp, rfl⟩
  · rw [qnodeSet_uplink h hup, needSlice_ok hslice, res_bind_ok]
  · exact qnodeSet_ownNode h hdown hp hown

/-- The deletion of a node that has to be there and to be idle (R359, R560). -/
def nodeCut (there busy : Bool) (t : State) : Res State := need there .badState >>= fun _ => need (!busy) .badState >>= fun _ => .ok t

theorem nodeCut_refused {there busy : Bool} {t : State} (h : there = false ∨ busy = true) : nodeCut there busy t = .error .badState := by
  rcases h with rfl | rfl
  · rfl
  · cases there <;> rfl

theorem nodeCut_done {there busy : Bool} {t : State} (hthere : there = true) (hidle : busy = false) : nodeCut there busy t = .ok t := by
  rw [hthere, hidle]
  rfl

section
variable (h : bit (pw i.words 1) 24 = true)
include h

theorem qnodeDelete_l2 : let g := nodeGroup i; let n := nodeNo i
    qnodeDelete.apply i s = nodeCut (l2At s g n).isSome (s.fwd.queues.any fun e => groupOf e.1 = g && e.2.parent = n)
      { s with fwd := { s.fwd with l2 := kerase s.fwd.l2 (65536 * g + n) } } := if_pos h

theorem qnodeDelete_l2Refused (hrefused : l2At s (nodeGroup i) (nodeNo i) = none ∨
    ∃ e ∈ s.fwd.queues, groupOf e.1 = nodeGroup i ∧ e.2.parent = nodeNo i) : qnodeDelete.apply i s = .error .badState := by
  rw [qnodeDelete_l2 h]
  exact nodeCut_refused (by simpa using hrefused)

theorem qnodeDelete_l2Done (hthere : (l2At s (nodeGroup i) (nodeNo i)).isSome = true)
    (hidle : ∀ e ∈ s.fwd.queues, groupOf e.1 = nodeGroup i → e.2.parent ≠ nodeNo i) : qnodeDelete.apply i s =
    .ok { s with fwd := { s.fwd with l2 := kerase s.fwd.l2 (65536 * nodeGroup i + nodeNo i) } } := by
  rw [qnodeDelete_l2 h]
  exact nodeCut_done hthere (by simpa using hidle)

end

section
variable (h : bit (pw i.words 1) 24 = false)
include h

theorem qnodeDelete_l1 : let g := nodeGroup i; let n := nodeNo i
    qnodeDelete.apply i s = nodeCut (l1At s g n).isSome (s.fwd.l2.any fun e => e.1 / 65536 = g && e.2.parent = n)
      { s with fwd := { s.fwd with l1 := kerase s.fwd.l1 (8192 * g + n) } } := if_neg (Bool.eq_false_iff.mp h)

theorem qnodeDelete_l1Refused (hrefused : l1At s (nodeGroup i) (nodeNo i) = none ∨
    ∃ e ∈ s.fwd.l2, e.1 / 65536 = nodeGroup i ∧ e.2.parent = nodeNo i) : qnodeDelete.apply i s = .error .badState := by
  rw [qnodeDelete_l1 h]
  exact nodeCut_refused (by simpa using hrefused)

theorem qnodeDelete_l1Done (hthere : (l1At s (nodeGroup i) (nodeNo i)).isSome = true)
    (hidle : ∀ e ∈ s.fwd.l2, e.1 / 65536 = nodeGroup i → e.2.parent ≠ nodeNo i) : qnodeDelete.apply i s =
    .ok { s with fwd := { s.fwd with l1 := kerase s.fwd.l1 (8192 * nodeGroup i + nodeNo i) } } := by
  rw [qnodeDelete_l1 h]
  exact nodeCut_done hthere (by simpa using hidle)

end

end

/-! ### Queues (R359, R361) -/

section
variable {i : Item} {s : State}

/-- The queue that an item names, and the L2 node and the port that it puts the queue under. -/
def queueNo (i : Item) : Nat := fld (pw i.words 1) 19 0
def queueParent (i : Item) : Nat := fld (pw i.words 2) 31 16
def queuePortNo (i : Item) : Nat := fld (pw i.words 3) 28 16

/-- The L1 node above an L2 node of a queue's group. -/
def l1Above (s : State) (q par : Nat) : Option L1 := (l2At s (groupOf q) par).bind fun x => l1At s (groupOf q) x.parent

/-- The queues below an L2 node, a given queue left out. -/
def queueSiblings (s : State) (q par : Nat) : Nat := (s.fwd.queues.filter fun e => groupOf e.1 = groupOf q && e.1 ≠ q && e.2.parent = par).length

/-- Whether the port of a queue below an L1 node is a port of the node's ONU. -/
def portFits (s : State) (port : Nat) (k : L1Kind) : Bool :=
  match k with
  | .onu sp o _ => match kget s.fwd.ports (8192 * sp + port) with | some r => r.onu = o | none => false
  | .uplink _ _ => true

/-- The queue that a QUEUE_SET writes: one that exists is moved, a new one has a new shaper. -/
def queuePut (i : Item) (s : State) (a : L1) : Queue :=
  let par := queueParent i; let port := queuePortNo i
  match queueAt s (queueNo i) with
  | some x => { x with parent := par, profile := fld (pw i.words 2) 7 0, port := port }
  | none => { parent := par, profile := fld (pw i.words 2) 7 0, port := port, sh := newShaper a.kind s.tb }

/-- The checks of a QUEUE_SET under its L1 node, in their order, and its write. -/
theorem queueSet_under {a : L1} (h : l1Above s (queueNo i) (queueParent i) = some a) :
    let q := queueNo i
    queueSet.apply i s = (needOwnerAs i.slice (l1Owner s a.kind) >>= fun _ => need (l1Owner s a.kind = queueOwner s q) .notOwner >>= fun _ =>
      need (!((queueAt s q).any (·.draining))) .badState >>= fun _ => need (queueSiblings s q (queueParent i) < 64) .noSpace >>= fun _ =>
      need (portFits s (queuePortNo i) a.kind) .badArg >>= fun _ => .ok (setQueue q (queuePut i s a) s)) := by
  unfold l1Above queueNo queueParent at h
  simp only [queueSet, h]
  rfl

theorem queueSet_noParent (h : l1Above s (queueNo i) (queueParent i) = none) : queueSet.apply i s = .error .badArg := by
  unfold l1Above queueNo queueParent at h
  simp only [queueSet, h]

theorem portFits_iff {port : Nat} {k : L1Kind} :
    portFits s port k = true ↔ ∀ sp o p, k = .onu sp o p → (kget s.fwd.ports (8192 * sp + port)).map (·.onu) = some o := by
  cases k with
  | uplink a b => simp [portFits]
  | onu a b c => cases h : kget s.fwd.ports (8192 * a + port) <;> simp [portFits, h]

section
variable {a : L1} (h : l1Above s (queueNo i) (queueParent i) = some a)
include h

theorem queueSet_notOwner (hother : l1Owner s a.kind ≠ queueOwner s (queueNo i) ∨
    (i.slice ≠ some 0 ∧ i.slice ≠ some (l1Owner s a.kind))) : queueSet.apply i s = .error .notOwner := by
  rw [queueSet_under h]
  by_cases hmay : i.slice = some 0 ∨ i.slice = some (l1Owner s a.kind)
  · have hne := hother.resolve_right (not_and_or.mpr (hmay.imp not_not.mpr not_not.mpr))
    rw [needOwnerAs_ok hmay, res_bind_ok, need_of_false (decide_eq_false hne), res_bind_error]
  · obtain ⟨hzero, howner⟩ := not_or.mp hmay
    rw [needOwnerAs_error hzero howner, res_bind_error]

variable (hsame : l1Owner s a.kind = queueOwner s (queueNo i)) (hmay : i.slice = some 0 ∨ i.slice = some (l1Owner s a.kind))
include hsame hmay

theorem queueSet_owned : let q := queueNo i
    queueSet.apply i s = (need (!((queueAt s q).any (·.draining))) .badState >>= fun _ =>
      need (queueSiblings s q (queueParent i) < 64) .noSpace >>= fun _ =>
      need (portFits s (queuePortNo i) a.kind) .badArg >>= fun _ => .ok (setQueue q (queuePut i s a) s)) := by
  intro q
  rw [queueSet_under h, needOwnerAs_ok hmay, res_bind_ok, need_of_true (decide_eq_true hsame), res_bind_ok]

theorem queueSet_draining {x : Queue} (hx : queueAt s (queueNo i) = some x) (hdrain : x.draining = true) :
    queueSet.apply i s = .error .badState := by
  rw [queueSet_owned h hsame hmay, need_of_false (by rw [hx]; simpa using hdrain), res_bind_error]

variable (hstill : ∀ x, queueAt s (queueNo i) = some x → x.draining = false)
include hstill

theorem queueSet_still : let q := queueNo i
    queueSet.apply i s = (need (queueSiblings s q (queueParent i) < 64) .noSpace >>= fun _ =>
      need (portFits s (queuePortNo i) a.kind) .badArg >>= fun _ => .ok (setQueue q (queuePut i s a) s)) := by
  have hnone : (queueAt s (queueNo i)).any (·.draining) = false := by
    cases hx : queueAt s (queueNo i) with
    | none => rfl
    | some x => exact hstill x hx
  intro q
  rw [queueSet_owned h hsame hmay, hnone, Bool.not_false, need_true, res_bind_ok]

theorem queueSet_full (hfull : 64 ≤ queueSiblings s (queueNo i) (queueParent i)) : queueSet.apply i s = .error .noSpace := by
  rw [queueSet_still h hsame hmay hstill, need_of_false (decide_eq_false (Nat.not_lt.mpr hfull)), res_bind_error]

variable (hroom : queueSiblings s (queueNo i) (queueParent i) < 64)
include hroom

theorem queueSet_otherPort {sp o p : Nat} (hk : a.kind = .onu sp o p)
    (hne : (kget s.fwd.ports (8192 * sp + queuePortNo i)).map (·.onu) ≠ some o) : queueSet.apply i s = .error .badArg := by
  have hfit : portFits s (queuePortNo i) a.kind = false := Bool.eq_false_iff.mpr fun hfit => hne (portFits_iff.mp hfit sp o p hk)
  rw [queueSet_still h hsame hmay hstill, need_of_true (decide_eq_true hroom), res_bind_ok, hfit, need_false, res_bind_error]

theorem queueSet_done
    (hport : ∀ sp o p, a.kind = .onu sp o p → (kget s.fwd.ports (8192 * sp + queuePortNo i)).map (·.onu) = some o) :
    queueSet.apply i s = .ok (setQueue (queueNo i) (queuePut i s a) s) := by
  rw [queueSet_still h hsame hmay hstill, need_of_true (decide_eq_true hroom), res_bind_ok, need_of_true (portFits_iff.mpr hport), res_bind_ok]

end

theorem queueDelete_absent (h : queueAt s (queueNo i) = none) : queueDelete.apply i s = .error .badState := by
  unfold queueNo at h
  simp only [queueDelete, h]

section
variable {x : Queue} (h : queueAt s (queueNo i) = some x)
include h

theorem queueDelete_draining (hdrain : x.draining = true) : queueDelete.apply i s = .error .badState := by
  unfold queueNo at h
  simp only [queueDelete, h, hdrain, if_true]

/-- A queue with packets drains, its train closed (R361). -/
theorem queueDelete_drains (hstill : x.draining = false) (hfull : x.pkts ≠ []) : queueDelete.apply i s =
    .ok (setQueue (queueNo i) { x with draining := true, train := none } (closeTrain (queueNo i) s)) := by
  unfold queueNo at h ⊢
  simp only [queueDelete, h, hstill, hfull, Bool.false_eq_true, if_false]

end

@[simp] theorem queueAt_setQueue (q : Nat) (x : Queue) (s : State) : queueAt (setQueue q x s) q = some x := kget_kset_same _ _ _

theorem queueAt_setQueue_other {q q' : Nat} (x : Queue) (s : State) (h : q' ≠ q) : queueAt (setQueue q x s) q' = queueAt s q' :=
  kget_kset_other _ _ _ _ h

end

/-! ### Quotas and ranges of slices (R357, R367) -/

section
variable {i : Item} {s : State}

section
variable (h : s.ctl.slices.contains (sliceNamed i) = true)
include h

theorem sliceHankSet_done : sliceHankSet.apply i s = .ok { s with fwd := { s.fwd with
    quotas := kset s.fwd.quotas (4 * sliceNamed i + fld (pw i.words 1) 1 0) (fld (pw i.words 2) 22 0) } } := needSlice_bind_ok h

/-- A slice without a range excludes no queue by its first. -/
theorem sliceQueuesSet_first (hnone : kget s.fwd.ranges (sliceNamed i) = none) : sliceQueuesSet.apply i s =
    .ok { s with fwd := { s.fwd with ranges := kset s.fwd.ranges (sliceNamed i) (fld (pw i.words 2) 17 0, fld (pw i.words 3) 18 0) } } := by
  have hexcl (base count : Nat) : excluded s none base count = false := by simp [excluded, inRange]
  have hfits : excluded s (kget s.fwd.ranges (sliceNamed i)) (fld (pw i.words 2) 17 0) (fld (pw i.words 3) 18 0) = false := by rw [hnone, hexcl]
  exact (needSlice_bind_ok h).trans (congrArg (· >>= _) (need_of_true (congrArg not hfits)))

end

section
variable (h : s.ctl.slices.contains (sliceNamed i) = false)
include h

theorem sliceHankSet_noSlice : sliceHankSet.apply i s = .error .badArg := needSlice_bind_error h

theorem sliceQueuesSet_noSlice : sliceQueuesSet.apply i s = .error .badArg := needSlice_bind_error h

end

end

end Sys2Proof.Machine

/-! PROOFS. What the items of family 0x09 write when they take effect (R372 to R386, R389, R390): nodes of the tree, policers, gate lists and
uplink budgets. -/

namespace Sys2Proof.Machine

/-! ### The tree fields of a node (R390) -/

section
variable {s : State} {n : NodeRef} {c : Child}

@[simp] theorem childOf_cnt (id k : Nat) (s : State) (n : NodeRef) : childOf (cnt id k s) n = childOf s n := by
  cases n <;> rfl

@[simp] theorem childOf_notePark (g now : Nat) (old new : Shaper) (s : State) (n : NodeRef) : childOf (notePark g now old new s) n = childOf s n := by
  unfold notePark
  dsimp only
  rw [apply_ite fun u => childOf u n, childOf_cnt, ite_self]

/-- A node that has tree fields takes new ones. -/
theorem childOf_setChild (h : childOf s n = some c) (new : Child) : childOf (setChild n new s) n = some new := by
  cases n with
  | budget k port => cases h
  | l1 g k =>
    obtain ⟨x, hx, -⟩ := Option.map_eq_some_iff.mp h
    simp only [setChild, hx]
    exact congrArg (Option.map L1.ch) (kget_kset_same _ _ _)
  | l2 g k =>
    obtain ⟨x, hx, -⟩ := Option.map_eq_some_iff.mp h
    simp only [setChild, hx]
    exact congrArg (Option.map L2.ch) (kget_kset_same _ _ _)
  | queue q =>
    obtain ⟨x, hx, -⟩ := Option.map_eq_some_iff.mp h
    simp only [setChild, hx]
    exact congrArg (Option.map Queue.ch) (kget_kset_same _ _ _)

/-- A shaper's write leaves the node's tree fields. -/
theorem childOf_modShaper (h : childOf s n = some c) (f : Nat → Shaper → Shaper) : childOf (modShaper n f s) n = some c := by
  cases n with
  | budget k port => cases h
  | l1 g k =>
    obtain ⟨x, hx, hc⟩ := Option.map_eq_some_iff.mp h
    simp only [modShaper, hx]
    exact (congrArg (Option.map L1.ch) (kget_kset_same _ _ _)).trans (congrArg some hc)
  | l2 g k =>
    obtain ⟨x, hx, hc⟩ := Option.map_eq_some_iff.mp h
    simp only [modShaper, hx]
    exact (congrArg (Option.map L2.ch) (kget_kset_same _ _ _)).trans (congrArg some hc)
  | queue q =>
    obtain ⟨x, hx, hc⟩ := Option.map_eq_some_iff.mp h
    simp only [modShaper, hx]
    exact (congrArg (Option.map Queue.ch) (kget_kset_same _ _ _)).trans (congrArg some hc)

theorem childOf_putShaper (h : childOf s n = some c) (now : Nat) (old new : Shaper) : childOf (putShaper n now old new s) n = some c := by
  have hmod := childOf_modShaper h fun _ _ => new
  cases n with
  | budget k port => cases h
  | l1 g k => exact (childOf_notePark _ _ _ _ _ _).trans hmod
  | l2 g k => exact (childOf_notePark _ _ _ _ _ _).trans hmod
  | queue q => exact (childOf_notePark _ _ _ _ _ _).trans hmod

variable {i : Item}

/-- Slice 0 sets any node, its PRIO and weight among what it sets. -/
theorem schedNodeSet_done {per : Nat} {sh : Shaper} {busy : Bool} (hname : schedName (pw i.words 1) = some n) (hchild : childOf s n = some c)
    (hshaper : shaperOf s n = some (per, sh, busy)) (hzero : i.slice = some 0) :
    ∃ (new : Child) (old sh' : Shaper), schedNodeSet.apply i s = .ok (putShaper n (nowNs s) old sh' (setChild n new s)) ∧
      new.prio = fld (pw i.words 2) 31 29 ∧ new.weight = fld (pw i.words 2) 25 16 := by
  simp only [schedNodeSet, hname, hchild, hshaper, hzero, decide_true, Bool.or_true, need_true, res_bind_ok]
  refine ⟨_, _, _, rfl, ?_, ?_⟩ <;> split <;> rfl

end

/-! ### Policers (R377) -/

section
variable {i : Item} {s : State}

theorem policerSet_noPort (h : kget s.fwd.ports (portKey (pw i.words 1)) = none) : policerSet.apply i s = .error .badState := by
  simp only [policerSet, h, Option.isSome_none, need_false, res_bind_error]

theorem policerSet_done (h : (kget s.fwd.ports (portKey (pw i.words 1))).isSome = true) : policerSet.apply i s =
    .ok (setPolicer (portKey (pw i.words 1)) { (policerOf s (portKey (pw i.words 1))).caught (s.tb - 1) with
      next := some ((pw i.words 2).toNat, fld (pw i.words 3) 23 0, (pw i.words 4).toNat, fld (pw i.words 5) 23 0) } s) := by
  simp only [policerSet, h, need_true, res_bind_ok]
  rfl

/-! ### Gate lists (R379 to R381; notes/assumptions/21) -/

/-- The gate list that a GATE_LIST_SET carries. -/
def listGiven (i : Item) : GateList :=
  ⟨gateEntries ((wordsOfBytes i.dma).take (fld (pw i.words 4) 8 0)), fld (pw i.words 2) 29 0, fld (pw i.words 3) 29 0⟩

section
variable (hlen : fld (pw i.words 4) 8 0 ≠ 0)
include hlen

theorem gateListSet_first (h : (schedOf s (pierName (pw i.words 1)).1 (pierName (pw i.words 1)).2).list = none) : gateListSet.apply i s =
    .ok (listInForce (pierName (pw i.words 1)).1 (pierName (pw i.words 1)).2 (some (listGiven i)) (psOf s.tb) s) := by
  simp only [pierName] at h
  simp only [gateListSet, pierName, h, if_neg hlen]
  rfl

theorem gateListSet_waits {g : GateList} (h : (schedOf s (pierName (pw i.words 1)).1 (pierName (pw i.words 1)).2).list = some g) :
    let p := pierName (pw i.words 1)
    gateListSet.apply i s = .ok (addLater ⟨.gateList, 3 * p.1 + p.2⟩ (setSched p.1 p.2
      { schedOf s p.1 p.2 with waiting := some (some (listGiven i)), swapAt := nextCycleEnd g s.tb } s)) := by
  simp only [pierName] at h
  simp only [gateListSet, pierName, h, if_neg hlen]
  rfl

end

theorem fwd_listInForce (sp p : Nat) (l : Option GateList) (t : Rat) (s : State) :
    (listInForce sp p l t s).fwd = (setSched sp p { schedOf s sp p with list := l, waiting := none } s).fwd := by
  unfold listInForce
  dsimp only
  split <;> rfl

theorem list_listInForce (sp p : Nat) (l : Option GateList) (t : Rat) (s : State) : (schedOf (listInForce sp p l t s) sp p).list = l := by
  rw [schedOf, fwd_listInForce]
  exact congrArg PierSched.list (schedOf_setSched _ _ _ _)

theorem listInForce_frame (sp p : Nat) (l : Option GateList) (t : Rat) (s : State) :
    { listInForce sp p l t s with fwd := s.fwd, ctl := s.ctl } = s := by
  unfold listInForce
  dsimp only
  split <;> rfl

/-! ### Uplink budgets (R386) -/

theorem others_noteWait (slice port : Nat) (old new : Shaper) (s : State) : others (noteWait slice port old new s) = others s := by
  unfold noteWait
  split <;> rfl

theorem others_notePark (g now : Nat) (old new : Shaper) (s : State) : others (notePark g now old new s) = others s := by
  unfold notePark
  dsimp only
  split <;> rfl

theorem others_retuneBudget (k n : Nat) (b : Budget) (s : State) :
    ∃ sh, others (retuneBudget k n b s) = others (setUpBudget k n { b with sh := sh } s) :=
  ⟨_, (others_noteWait _ _ _ _ _).trans (others_notePark _ _ _ _ _)⟩

theorem upBudget_retuneBudget (k n : Nat) (b : Budget) (s : State) : ∃ sh, upBudget (retuneBudget k n b s) k n = { b with sh := sh } := by
  obtain ⟨sh, h⟩ := others_retuneBudget k n b s
  obtain ⟨-, -, -, hfwd, -⟩ := others_parts h
  exact ⟨sh, (congrArg (fun x : Fwd => kgetD x.budgets (24 * k + n) {}) hfwd).trans (upBudget_setUpBudget _ _ _ _)⟩

theorem budgets_retuneBudget_other {k n j : Nat} (b : Budget) (s : State) (hj : j ≠ 24 * k + n) :
    kget (retuneBudget k n b s).fwd.budgets j = kget s.fwd.budgets j := by
  obtain ⟨sh, h⟩ := others_retuneBudget k n b s
  obtain ⟨-, -, -, hfwd, -⟩ := others_parts h
  exact (congrArg (fun x : Fwd => kget x.budgets j) hfwd).trans (kget_kset_other _ _ _ _ hj)

theorem retuneBudget_frame (k n : Nat) (b : Budget) (s : State) : let t := retuneBudget k n b s
    { t with fwd := { t.fwd with budgets := s.fwd.budgets }, ctl := s.ctl, out := s.out } = s := by
  obtain ⟨sh, h⟩ := others_retuneBudget k n b s
  have h' := congrArg (fun u : State => { u with fwd := { u.fwd with budgets := s.fwd.budgets }, ctl := s.ctl, out := s.out }) h
  exact h'

theorem uplinkBudgetSet_done (h : s.ctl.slices.contains (sliceNamed i) = true) : uplinkBudgetSet.apply i s =
    .ok (retuneBudget (sliceNamed i) (fld (pw i.words 1) 4 0) { upBudget s (sliceNamed i) (fld (pw i.words 1) 4 0) with
      rate := (pw i.words 2).toNat, burst := fld (pw i.words 3) 23 0 } s) := by
  exact congrArg (Except.map _) (needSlice_ok h)

theorem uplinkBudgetSet_noSlice (h : s.ctl.slices.contains (sliceNamed i) = false) : uplinkBudgetSet.apply i s = .error .badArg := by
  exact congrArg (Except.map _) (needSlice_error h)

end

/-- Settles O15: each item by its own lemma; an item over several pipelines touches each of them once, so that it finds there what it found
before the first. -/
theorem forwardingItemsTakeEffect : Obligations.ForwardingItemsTakeEffect := by
  unfold Obligations.ForwardingItemsTakeEffect
  intro i s w v
  refine ⟨?dist, ?pvid, ?vlan, fun hversion => ?bd, ?repl, portSet_noPier, fun p hp hid hfree => ?port, portDelete_absent, fun h => ?portDelete,
    fun key r => ?putStatic, rfl, ⟨?fdbDelete, fun hhost => ?routeDeleteHost⟩, ⟨routeSet_host, fun hlpm => ?routeSet⟩, fun hlpm => ?routeDelete,
    ⟨fwdTableConfig_refused, fun h => ?tableConfig⟩, fun h => ?qnodeL2, fun h => ?qnodeL1, ⟨fun h => ?qnodeDeleteL2, fun h => ?qnodeDeleteL1⟩,
    ?queueSet, fun h => ?direct, directSet_badArg, ?dscp, fun h => ?trap, fun h => ?noSlice, fun h => ?sliceHank, fun h hnone => ?sliceQueues,
    fun hversion => ?qprofile, fun x hx => ⟨queueDelete_draining hx, fun hstill hfull => ?queueDelete⟩, queueDelete_absent, ?viaduct,
    fun n c per sh b hname hchild hshaper hzero _ => ?schedNode, policerSet_noPort, fun h => ?policer, fun h hlen => ?gateFirst,
    fun g h hlen => ?gateWaits, rfl, rfl, fun h => ?uplinkBudget⟩
  case dist => exact ⟨_, rfl, fun n => kgetD_kset _ _ _ _ _, rfl⟩
  case pvid => exact ⟨_, rfl, fun n => kgetD_kset _ _ _ _ _, rfl⟩
  case vlan =>
    refine ⟨_, rfl, fun p => ⟨pipeOf_modPipes_unnamed, fun hp n => ?_⟩, modPipes_frame _ _ _⟩
    rw [pipeOf_modPipes_named hp]
    exact kget_kset _ _ _ _
  case bd =>
    refine ⟨_, rfl, fun p => ⟨pipeOf_modPipes_unnamed, fun hp n => ?_⟩, modPipes_frame _ _ _⟩
    rw [pipeOf_modPipes_named hp]
    dsimp only
    rw [if_neg (Nat.not_lt.mpr hversion)]
    exact kget_kset _ _ _ _
  case repl =>
    refine ⟨_, rfl, fun n => ?_, rfl⟩
    rw [pipeOf_setPipe]
    exact kget_kset _ _ _ _
  case port => exact ⟨_, portSet_done hp hid hfree, fun k => kget_kset _ _ _ _, rfl⟩
  case portDelete =>
    have hoff := offTables_portForgotten (s := s) w
    exact ⟨_, portDelete_done h, congrArg (kerase · (portKey w)) (ports_of_offTables hoff),
      congrArg (kerase · (portKey w)) (policers_of_offTables hoff), unlevelled_frame (unlevelled_portForgotten w),
      fun p hp => pipeOf_portForgotten_other hp, portErased_frame w hoff⟩
  case putStatic =>
    refine ⟨putStatic_full (pipesOf_nodup w), fun hroom => ?_⟩
    obtain ⟨t, ht, hout, hin, hoff⟩ := putStatic_room (pipesOf_nodup w) hroom
    refine ⟨t, ht, hout, fun p hp => ⟨?_, fun e he => (unlevelled_static (hin p hp e he)).2⟩, offTables_frame hoff⟩
    obtain ⟨e, he⟩ := Option.isSome_iff_exists.mp (hroom p hp)
    exact (unlevelled_static (hin p hp e he)).1
  case fdbDelete => exact ⟨_, rfl, keyCut_dropEntries w _ s⟩
  case routeDeleteHost =>
    exact ⟨routeDelete_hostAbsent hhost, fun hthere => ⟨_, routeDelete_hostDone hhost hthere, keyCut_dropEntries w _ s⟩⟩
  case routeSet =>
    exact ⟨routeSet_lpmFull hlpm, fun hroom => ⟨_, routeSet_lpmDone hlpm hroom, pipeOf_modPipes w _ s, modPipes_frame w _ s⟩⟩
  case routeDelete =>
    exact ⟨routeDelete_lpmAbsent hlpm, fun hthere => ⟨_, routeDelete_lpmDone hlpm hthere, pipeOf_modPipes w _ s, modPipes_frame w _ s⟩⟩
  case tableConfig =>
    have halarm (x : Pipe) : (if tablesMove i x then emptied x else x).moveAlarm = x.moveAlarm := by split <;> rfl
    refine (fwdTableConfig_done h).trans ?_
    rw [tablesSet, halarm]
    rfl
  case qnodeL2 =>
    exact ⟨qnodeSet_noParent h, fun a ha => ⟨qnodeSet_notOwner h ha, fun hmay => ⟨qnodeSet_l2Full h ha hmay, qnodeSet_l2Done h ha hmay⟩⟩⟩
  case qnodeL1 =>
    refine ⟨qnodeSet_noPier h, fun hdown hpier hother => ?_, fun hup hslice => ?_, fun k hk => ⟨fun hfull => ?_, fun hroom => ?_⟩⟩
    · obtain ⟨p, hp⟩ := Option.isSome_iff_exists.mp hpier
      exact qnodeSet_secondNode h hdown hp hother
    · rw [qnodeSet_uplink h hup, needSlice_error hslice, res_bind_error]
    · exact (qnodeSet_l1 h hk).trans (l1Put_full hfull)
    · exact (qnodeSet_l1 h hk).trans (l1Put_done hroom)
  case qnodeDeleteL2 => exact ⟨qnodeDelete_l2Refused h, qnodeDelete_l2Done h⟩
  case qnodeDeleteL1 => exact ⟨qnodeDelete_l1Refused h, qnodeDelete_l1Done h⟩
  case queueSet =>
    exact ⟨queueSet_noParent, fun a ha => ⟨queueSet_notOwner ha, fun hsame hmay => ⟨fun x => queueSet_draining ha hsame hmay,
      fun hstill => ⟨queueSet_full ha hsame hmay hstill, fun hroom => ⟨fun sp o p => queueSet_otherPort ha hsame hmay hstill hroom,
        queueSet_done ha hsame hmay hstill hroom⟩⟩⟩⟩⟩
  case direct =>
    refine ⟨_, directSet_done h, fun n => ?_, rfl⟩
    rw [pipeOf_setPipe]
    exact kget_kset _ _ _ _
  case dscp =>
    refine ⟨_, rfl, fun p => ⟨pipeOf_modPipes_unnamed, fun hp d hd => ?_⟩, modPipes_frame _ _ _⟩
    rw [pipeOf_modPipes_named hp]
    exact kget_map_key _ _ (List.mem_range.mpr hd)
  case trap => exact ⟨_, trapConfig_done h, trapSets s⟩
  case noSlice => exact ⟨trapConfig_noSlice h, sliceHankSet_noSlice h, sliceQueuesSet_noSlice h, uplinkBudgetSet_noSlice h⟩
  case sliceHank => exact ⟨_, sliceHankSet_done h, fun n => kget_kset _ _ _ _, rfl⟩
  case sliceQueues => exact ⟨_, sliceQueuesSet_first h hnone, kget_kset_same _ _ _, rfl⟩
  case qprofile =>
    refine ⟨_, rfl, fun n => (kget_kset _ _ _ _).trans ?_, rfl⟩
    rw [if_neg (Nat.not_lt.mpr hversion)]
  case queueDelete =>
    exact ⟨_, queueDelete_drains hx hstill hfull, congrArg (Option.map Queue.draining) (queueAt_setQueue _ _ _),
      fun q hq => queueAt_setQueue_other _ _ hq⟩
  case viaduct =>
    exact ⟨_, rfl, rfl, rfl, fun h hh => kget_map_key _ _ (List.mem_range.mpr hh), fun h hh => kget_map_key _ _ (List.mem_range.mpr hh), rfl⟩
  case schedNode =>
    obtain ⟨new, old, sh', happly, hprio, hweight⟩ := schedNodeSet_done hname hchild hshaper hzero
    refine ⟨_, happly, ?_⟩
    rw [childOf_putShaper (childOf_setChild hchild new), Option.map_some, hprio, hweight]
  case policer => exact ⟨_, policerSet_done h, congrArg Policer.next (kgetD_kset_same _ _ _ _), rfl⟩
  case gateFirst =>
    exact ⟨_, gateListSet_first hlen h, list_listInForce _ _ _ _ _, listInForce_frame _ _ _ _ _⟩
  case gateWaits =>
    exact ⟨_, gateListSet_waits hlen h, (congrArg PierSched.list (schedOf_setSched _ _ _ _)).trans h,
      congrArg PierSched.waiting (schedOf_setSched _ _ _ _), List.mem_cons_self, rfl⟩
  case uplinkBudget =>
    obtain ⟨sh, hbudget⟩ := upBudget_retuneBudget (fld w 19 16) (fld w 4 0)
      { upBudget s (fld w 19 16) (fld w 4 0) with rate := v.toNat, burst := fld (pw i.words 3) 23 0 } s
    exact ⟨_, uplinkBudgetSet_done h, congrArg Budget.rate hbudget, congrArg Budget.burst hbudget, fun k hk => budgets_retuneBudget_other _ _ hk,
      retuneBudget_frame _ _ _ _⟩

end Sys2Proof.Machine

/-! PROOFS. Admission of a staged frame (R347, R349 to R351, R353, R360): whether its descriptor is on die, the checks in their order, and
where a frame that passes them is placed. -/

namespace Sys2Proof.Machine

/-! ### The descriptor (R360) -/

@[simp] theorem queueAt_touchDesc (q k : Nat) (s : State) : queueAt (touchDesc q s) k = queueAt s k := by
  unfold touchDesc
  dsimp only
  split <;> rfl

/-- The state in which a frame has left the staging list and has used its descriptor. -/
def unstaged (i : Nat) (f : Staged) (s : State) : State := touchDesc f.queue { s with fwd := { s.fwd with staged := lremove s.fwd.staged i } }

theorem queueAt_unstaged (i : Nat) (f : Staged) (s : State) (k : Nat) : queueAt (unstaged i f s) k = queueAt s k := queueAt_touchDesc _ _ _

section
variable {s : State} {i : Nat}

theorem exec_queueAdmission_idle (h : s.fwd.staged[i]? = none) : exec (.queueAdmission i) s = .next s := by
  show execQueueAdmission i s = _
  simp only [execQueueAdmission, h]

variable {f : Staged} (h : s.fwd.staged[i]? = some f)
include h

theorem exec_queueAdmission {t : State} (ht : queueAdmission i s = t) : exec (.queueAdmission i) s = .next (repark f.queue t) := by
  show execQueueAdmission i s = _
  simp only [execQueueAdmission, h, ht]

theorem queueAdmission_waits (hwaits : f.waiting = true) : queueAdmission i s = s := by
  simp only [queueAdmission, h, hwaits, if_true]

variable (hnew : f.waiting = false)
include hnew

theorem queueAdmission_misses (hdesc : hasDesc s f.queue = false) : queueAdmission i s =
    missDesc f.queue { s with fwd := { s.fwd with staged := lset s.fwd.staged i { f with waiting := true } } } := by
  simp [queueAdmission, h, hnew, hdesc]

theorem queueAdmission_admits (hdesc : hasDesc s f.queue = true) : queueAdmission i s = admitFrame f (unstaged i f s) := by
  simp [queueAdmission, h, hnew, hdesc, unstaged]

end

/-! ### The checks in their order (R349, R351) -/

/-- A frame is dropped under a cause, its cells freed; `looked` once its queue has been looked up. -/
def dropFrame (f : Staged) (cause : Nat) (looked : Bool) (s : State) : State :=
  countDrop f.queue cause f.bytes.length looked (freeCells f.cells s)

/-- The packet that a frame becomes in its queue. -/
def packetOf (f : Staged) (x : Queue) (s : State) : Packet where
  bytes := f.bytes
  yellow := f.yellow
  place := .shallow
  cells := f.cells
  injected := f.injected
  port := (pierOfQueue s f.queue x).bind fun e => queuePort s e.1 x
  launch := (launchEntry s f.queue).bind fun e => if (pierOfQueue s f.queue x).isSome then launchTime e (psCeil s) else none

/-- Where a frame past the checks of its queue goes: shallow below SPILL_THRESH, past it into the deep store while the backlog has room
(R351, R353). -/
def placeFrame (f : Staged) (x : Queue) (s : State) : State :=
  let pr := profileOf s f.queue x
  let p := packetOf f x s
  if pr.spillThresh ≠ 0xFFFFFF ∧ 1024 * pr.spillThresh ≤ x.depth then
    if backlogFull s = true then
      if pr.defer_ = true then admitShallow f.queue p (cnt (cQm 0 (groupOf f.queue)) 1 s) else dropFrame f 6 true s
    else admitSpill f.queue p s
  else admitShallow f.queue p s

/-- A length within R349's bounds passes their test. -/
theorem not_badLength {n : Nat} (hmin : 14 ≤ n) (hmax : n ≤ 16000) : (decide (n < 14) || decide (16000 < n)) = false := by
  simp [hmin, hmax]

section
variable {f : Staged} {s : State}

theorem admitFrame_marked (h : f.marked = true) : admitFrame f s = dropFrame f 0 false s := by
  simp only [admitFrame, h, if_true]
  rfl

variable (hclean : f.marked = false)
include hclean

theorem admitFrame_length (h : f.bytes.length < 14 ∨ 16000 < f.bytes.length) : admitFrame f s = dropFrame f 1 false s := by
  have hlen : (decide (f.bytes.length < 14) || decide (16000 < f.bytes.length)) = true := by simpa using h
  simp only [admitFrame, hclean, hlen, if_true, Bool.false_eq_true, if_false]
  rfl

variable (hmin : 14 ≤ f.bytes.length) (hmax : f.bytes.length ≤ 16000)
include hmin hmax

theorem admitFrame_noQueue (h : queueAt s f.queue = none) : admitFrame f s = dropFrame f 2 false s := by
  simp only [admitFrame, hclean, not_badLength hmin hmax, h, Bool.false_eq_true, if_false]
  rfl

variable {x : Queue} (hx : queueAt s f.queue = some x)
include hx

/-- The checks of a frame's queue, in their order. -/
theorem admitFrame_found : admitFrame f s =
    if x.draining = true then dropFrame f 2 true s
    else if queueOpen s f.queue x f.srcSpan = false then dropFrame f 3 true s
    else if 1024 * (profileOf s f.queue x).maxDepth ≤ x.depth then dropFrame f 4 true s
    else if f.yellow = true ∧ 1024 * (profileOf s f.queue x).yellowDepth ≤ x.depth then dropFrame f 5 true s
    else placeFrame f x s := by
  simp only [admitFrame, hclean, not_badLength hmin hmax, hx, Bool.false_eq_true, if_false, Bool.not_eq_true', Bool.and_eq_true, decide_eq_true_eq]
  rfl

theorem admitFrame_draining (h : x.draining = true) : admitFrame f s = dropFrame f 2 true s :=
  (admitFrame_found hclean hmin hmax hx).trans (if_pos h)

variable (hstays : x.draining = false)
include hstays

theorem admitFrame_closed (h : queueOpen s f.queue x f.srcSpan = false) : admitFrame f s = dropFrame f 3 true s := by
  rw [admitFrame_found hclean hmin hmax hx, if_neg (by simp [hstays]), if_pos h]

variable (hopen : queueOpen s f.queue x f.srcSpan = true)
include hopen

theorem admitFrame_full (h : 1024 * (profileOf s f.queue x).maxDepth ≤ x.depth) : admitFrame f s = dropFrame f 4 true s := by
  rw [admitFrame_found hclean hmin hmax hx, if_neg (by simp [hstays]), if_neg (by simp [hopen]), if_pos h]

variable (hroom : x.depth < 1024 * (profileOf s f.queue x).maxDepth)
include hroom

theorem admitFrame_yellow (hyellow : f.yellow = true) (h : 1024 * (profileOf s f.queue x).yellowDepth ≤ x.depth) :
    admitFrame f s = dropFrame f 5 true s := by
  rw [admitFrame_found hclean hmin hmax hx, if_neg (by simp [hstays]), if_neg (by simp [hopen]), if_neg (Nat.not_le.mpr hroom),
    if_pos ⟨hyellow, h⟩]

theorem admitFrame_passes (h : f.yellow = false ∨ x.depth < 1024 * (profileOf s f.queue x).yellowDepth) :
    admitFrame f s = placeFrame f x s := by
  have hcolour : ¬ (f.yellow = true ∧ 1024 * (profileOf s f.queue x).yellowDepth ≤ x.depth) := fun hno =>
    h.elim (fun hgreen => absurd (hno.1.symm.trans hgreen) (by decide)) (fun hlow => absurd hno.2 (Nat.not_le.mpr hlow))
  rw [admitFrame_found hclean hmin hmax hx, if_neg (by simp [hstays]), if_neg (by simp [hopen]), if_neg (Nat.not_le.mpr hroom),
    if_neg hcolour]

end

/-! ### Where a frame past the checks goes (R351, R353) -/

section
variable {f : Staged} {x : Queue} {s : State}

theorem admitShallow_joins {q : Nat} {p : Packet} (h : hankUse s (queueOwner s q) 0 < quotaOf s (queueOwner s q) 0) :
    admitShallow q p s = enqueue q p (closeTrain q s) := if_neg (Nat.not_le.mpr h)

theorem placeFrame_shallow (h : (profileOf s f.queue x).spillThresh = 0xFFFFFF ∨ x.depth < 1024 * (profileOf s f.queue x).spillThresh) :
    placeFrame f x s = admitShallow f.queue (packetOf f x s) s :=
  if_neg fun hno => h.elim hno.1 (Nat.not_lt.mpr hno.2)

theorem placeFrame_overQuota (h : (profileOf s f.queue x).spillThresh = 0xFFFFFF ∨ x.depth < 1024 * (profileOf s f.queue x).spillThresh)
    (hquota : quotaOf s (queueOwner s f.queue) 0 ≤ hankUse s (queueOwner s f.queue) 0) : placeFrame f x s = dropFrame f 7 true s :=
  (placeFrame_shallow h).trans (if_pos hquota)

variable (hset : (profileOf s f.queue x).spillThresh ≠ 0xFFFFFF) (hdeep : 1024 * (profileOf s f.queue x).spillThresh ≤ x.depth)
include hset hdeep

theorem placeFrame_spills (h : backlogFull s = false) : placeFrame f x s = admitSpill f.queue (packetOf f x s) s :=
  (if_pos ⟨hset, hdeep⟩).trans (if_neg (Bool.eq_false_iff.mp h))

variable (hfull : backlogFull s = true)
include hfull

theorem placeFrame_backlog (h : (profileOf s f.queue x).defer_ = false) : placeFrame f x s = dropFrame f 6 true s :=
  (if_pos ⟨hset, hdeep⟩).trans ((if_pos hfull).trans (if_neg (Bool.eq_false_iff.mp h)))

theorem placeFrame_defers (h : (profileOf s f.queue x).defer_ = true) :
    placeFrame f x s = admitShallow f.queue (packetOf f x s) (cnt (cQm 0 (groupOf f.queue)) 1 s) :=
  (if_pos ⟨hset, hdeep⟩).trans ((if_pos hfull).trans (if_pos h))

end

/-- Settles O43: a frame whose descriptor is on die is taken by `admitFrame`, whose checks come in the order stated. -/
theorem admissionFollowsItsSteps : Obligations.AdmissionFollowsItsSteps := by
  unfold Obligations.AdmissionFollowsItsSteps
  intro s i
  refine ⟨exec_queueAdmission_idle, fun f hf => ?_⟩
  intro becomes u drops
  refine ⟨fun hwaits => exec_queueAdmission hf (queueAdmission_waits hf hwaits),
    fun hnew hdesc => exec_queueAdmission hf (queueAdmission_misses hf hnew hdesc), fun hnew hdesc => ?admitted⟩
  have htakes {t : State} (h : admitFrame f (unstaged i f s) = t) : becomes t :=
    exec_queueAdmission hf ((queueAdmission_admits hf hnew hdesc).trans h)
  refine ⟨fun hmarked => htakes (admitFrame_marked hmarked), fun hclean => ⟨fun hlen => htakes (admitFrame_length hclean hlen),
    fun hmin hmax => ⟨fun hnone => htakes (admitFrame_noQueue hclean hmin hmax ((queueAt_unstaged _ _ _ _).trans hnone)), fun x hx => ?queue⟩⟩⟩
  have hx' : queueAt (unstaged i f s) f.queue = some x := (queueAt_unstaged _ _ _ _).trans hx
  refine ⟨fun h => htakes (admitFrame_draining hclean hmin hmax hx' h), fun hstays =>
    ⟨fun h => htakes (admitFrame_closed hclean hmin hmax hx' hstays h), fun hopen => ?open_⟩⟩
  intro pr pier p
  refine ⟨fun h => htakes (admitFrame_full hclean hmin hmax hx' hstays hopen h), fun hroom =>
    ⟨fun hyellow h => htakes (admitFrame_yellow hclean hmin hmax hx' hstays hopen hroom hyellow h), fun hcolour => ?placed⟩⟩
  have hplaces {t : State} (h : placeFrame f x (unstaged i f s) = t) : becomes t :=
    htakes ((admitFrame_passes hclean hmin hmax hx' hstays hopen hroom hcolour).trans h)
  exact ⟨fun h hquota => hplaces ((placeFrame_shallow h).trans (admitShallow_joins hquota)),
    fun h hquota => hplaces (placeFrame_overQuota h hquota),
    fun hset hdeep => ⟨fun h => hplaces (placeFrame_spills hset hdeep h), fun hfull h => hplaces (placeFrame_backlog hset hdeep hfull h),
      fun hfull h => hplaces (placeFrame_defers hset hdeep hfull h)⟩⟩

end Sys2Proof.Machine

/-! PROOFS. The Hanks' buffers and cells, and the trains of spilled records (R345, R346, R348, R352): which buffer an allocation takes,
when a cell may be taken, and where a record is placed. -/

namespace Sys2Proof.Machine

/-! ### The lowest free buffer (R345) -/

theorem mem_sinsert_self (l : List Nat) (k : Nat) : k ∈ sinsert l k := by
  induction l with
  | nil => exact List.mem_singleton_self k
  | cons j t ih =>
    unfold sinsert
    split
    · exact List.mem_cons_self
    · split
      · rename_i h
        exact h ▸ List.mem_cons_self
      · exact List.mem_cons_of_mem j ih

/-- A list misses one of the first numbers, one more of them than it is long. -/
theorem exists_not_mem_range (l : List Nat) : ∃ k ∈ List.range (l.length + 1), k ∉ l := by
  by_contra hall
  push Not at hall
  have hlen := (List.nodup_range.subperm hall).length_le
  rw [List.length_range] at hlen
  omega

/-- The lowest free number is not listed, and every number below it is. -/
theorem firstFree_spec (l : List Nat) : firstFree l 0 ∉ l ∧ ∀ k < firstFree l 0, k ∈ l := by
  obtain ⟨k, hk, hfree⟩ := exists_not_mem_range l
  have hsome : ((List.range (l.length + 1)).find? fun k => !l.contains (0 + k)).isSome = true :=
    List.find?_isSome.mpr ⟨k, hk, by simpa using hfree⟩
  obtain ⟨b, hb⟩ := Option.isSome_iff_exists.mp hsome
  have heq : firstFree l 0 = b := by rw [firstFree, hb, Option.getD_some, Nat.zero_add]
  obtain ⟨hnot, -, hbelow⟩ := List.find?_range_eq_some.mp hb
  rw [heq]
  exact ⟨by simpa using hnot, fun j hj => by simpa using hbelow j hj⟩

/-! ### An allocation (R345, R346) -/

theorem fwd_raise (src : Nat) (own : List Nat) (ws : List Word) (s : State) : (raise src own ws s).fwd = s.fwd := by
  obtain ⟨-, -, -, hfwd, -⟩ := others_parts (others_raise src own ws s)
  exact hfwd

/-- The tables of the packet memory once a Hank's lowest free buffer is taken. -/
def bufTaken (h : Nat) (s : State) : Fwd := { s.fwd with taken := kset s.fwd.taken h (sinsert (takenOf s h) (firstFree (takenOf s h) 0)) }

section
variable {h b : Nat} {s t : State}

theorem allocBuf_none (hempty : hankFree s h = 0) : allocBuf h s = none := if_pos hempty

/-- An allocation takes the lowest free buffer; besides its bitmap it writes only whether LOW_WATER was told (R364). -/
theorem allocBuf_some (e : allocBuf h s = some (b, t)) :
    b = firstFree (takenOf s h) 0 ∧ { t.fwd with lowTold := s.fwd.lowTold } = bufTaken h s := by
  unfold allocBuf at e
  dsimp only at e
  split at e
  · cases e
  · split at e
    · obtain ⟨rfl, rfl⟩ := Prod.mk.inj (Option.some.inj e)
      rw [fwd_raise]
      exact ⟨rfl, rfl⟩
    · obtain ⟨rfl, rfl⟩ := Prod.mk.inj (Option.some.inj e)
      exact ⟨rfl, rfl⟩

variable (e : allocBuf h s = some (b, t))
include e

theorem takenOf_allocBuf_same : takenOf t h = sinsert (takenOf s h) b := by
  obtain ⟨rfl, hfwd⟩ := allocBuf_some e
  exact (congrArg (fun x : Fwd => kgetD x.taken h []) hfwd).trans (kgetD_kset_same _ _ _ _)

theorem takenOf_allocBuf_other {k : Nat} (hk : k ≠ h) : takenOf t k = takenOf s k := by
  obtain ⟨-, hfwd⟩ := allocBuf_some e
  exact (congrArg (fun x : Fwd => kgetD x.taken k []) hfwd).trans (kgetD_kset_other _ _ _ _ _ hk)

theorem queueAt_allocBuf (q : Nat) : queueAt t q = queueAt s q := by
  obtain ⟨-, hfwd⟩ := allocBuf_some e
  have hqueue := congrArg (fun x : Fwd => kget x.queues q) hfwd
  exact hqueue

end

/-! ### Cells (R348) -/

section
variable {s t : State} {n b : Nat} {got : List Nat}

theorem takeCells_frame_stops (h : hankFree s 0 + fetchCells s ≤ s.fwd.prefetch) : takeCells false (n + 1) got s = (false, got, s) :=
  if_neg (Nat.not_lt.mpr h)

theorem takeCells_frame_takes (h : s.fwd.prefetch < hankFree s 0 + fetchCells s) (e : allocBuf 0 s = some (b, t)) :
    takeCells false (n + 1) got s = takeCells false n (got ++ [b]) t := by
  refine (if_pos h).trans ?_
  rw [e]

theorem takeCells_fetch_stops (h : s.fwd.prefetch ≤ fetchCells s + got.length) : takeCells true (n + 1) got s = (false, got, s) :=
  if_neg (Nat.not_lt.mpr h)

theorem takeCells_fetch_takes (h : fetchCells s + got.length < s.fwd.prefetch) (e : allocBuf 0 s = some (b, t)) :
    takeCells true (n + 1) got s = takeCells true n (got ++ [b]) t := by
  refine (if_pos h).trans ?_
  rw [e]

end

/-! ### The Hank of a new train (R352) -/

/-- Whether a Hank's buffers hold a record and are no smaller than TRAIN's. -/
def trainFits (r train h : Nat) : Bool := r ≤ bufSize h && (train = 0 || bufSize train ≤ bufSize h)

theorem trainFits_iff {r train h : Nat} : trainFits r train h = true ↔ r ≤ bufSize h ∧ (train = 0 ∨ bufSize train ≤ bufSize h) := by
  simp [trainFits]

/-- A Hank that does not fit has too small a buffer. -/
theorem bufSize_lt_of_not_fits {r train h : Nat} (hno : trainFits r train h = false) :
    bufSize h < r ∨ train ≠ 0 ∧ bufSize h < bufSize train := by
  by_contra hbig
  push Not at hbig
  exact Bool.eq_false_iff.mp hno (trainFits_iff.mpr ⟨hbig.1, or_iff_not_imp_left.mpr hbig.2⟩)

/-- The Hank of a new train is the first of Hanks 1 and 2 that fits, and Hank 3 where neither does. -/
theorem trainHank_cases (r train : Nat) :
    trainHank r train = 1 ∧ trainFits r train 1 = true ∨
    trainHank r train = 2 ∧ trainFits r train 1 = false ∧ trainFits r train 2 = true ∨
    trainHank r train = 3 ∧ trainFits r train 1 = false ∧ trainFits r train 2 = false := by
  have heq : trainHank r train = ([1, 2].find? (trainFits r train)).getD 3 := rfl
  cases h1 : trainFits r train 1 with
  | true => simp [heq, h1]
  | false => cases h2 : trainFits r train 2 <;> simp [heq, h1, h2]

theorem bufSize_le_hank3 {train : Nat} : bufSize train ≤ bufSize 3 := by
  unfold bufSize
  split <;> decide

/-- The new train's Hank holds the record and is no smaller than TRAIN's, and every smaller Hank of trains would not do. -/
theorem trainHank_smallest (r train : Nat) : 1 ≤ trainHank r train ∧ trainHank r train ≤ 3 ∧
    (r ≤ 65536 → r ≤ bufSize (trainHank r train)) ∧ (train ≠ 0 → bufSize train ≤ bufSize (trainHank r train)) ∧
    ∀ k, 1 ≤ k → k < trainHank r train → trainFits r train k = false := by
  rcases trainHank_cases r train with ⟨h, hfit⟩ | ⟨h, hno, hfit⟩ | ⟨h, hno, hno'⟩ <;> rw [h]
  · obtain ⟨hr, htrain⟩ := trainFits_iff.mp hfit
    exact ⟨le_rfl, by decide, fun _ => hr, htrain.resolve_left, fun k hk hlt => absurd hk (Nat.not_le.mpr hlt)⟩
  · obtain ⟨hr, htrain⟩ := trainFits_iff.mp hfit
    refine ⟨by decide, by decide, fun _ => hr, htrain.resolve_left, fun k hk hlt => ?_⟩
    obtain rfl : k = 1 := by omega
    exact hno
  · refine ⟨by decide, le_rfl, fun hr => hr, fun _ => bufSize_le_hank3, fun k hk hlt => ?_⟩
    obtain rfl | rfl : k = 1 ∨ k = 2 := by omega
    · exact hno
    · exact hno'

/-! ### A spilled record's place (R352) -/

/-- The Hank of the train that a record of a queue opens. -/
def openHank (s : State) (q len : Nat) (x : Queue) : Nat := trainHank (recordSize len) (profileOf s q x).train

section
variable {s : State} {q len : Nat} {x : Queue} (hx : queueAt s q = some x)
include hx

theorem placeSpill_joins {t : Train} (ht : x.train = some t) (h : t.used + recordSize len ≤ bufSize t.hank) : placeSpill q len s =
    .inl (setQueue q { x with train := some { t with used := t.used + recordSize len } } s, .copying t.hank t.buf t.used (recordSize len)) := by
  simp only [placeSpill, hx, ht, if_pos h]

variable (hnone : x.train = none)
include hnone

/-- Without an open train the record opens one. -/
theorem placeSpill_opens : placeSpill q len s = placeSpill.opened q x (recordSize len) s := by
  simp only [placeSpill, hx, hnone]

theorem placeSpill_overQuota (h : quotaOf s (queueOwner s q) (openHank s q len x) ≤ hankUse s (queueOwner s q) (openHank s q len x)) :
    placeSpill q len s = .inr (s, 7 + openHank s q len x) :=
  (placeSpill_opens hx hnone).trans (if_pos h)

variable (hquota : hankUse s (queueOwner s q) (openHank s q len x) < quotaOf s (queueOwner s q) (openHank s q len x))
include hquota

theorem placeSpill_noBuffer (h : hankFree s (openHank s q len x) = 0) : placeSpill q len s = .inr (s, 11 + openHank s q len x) := by
  refine (placeSpill_opens hx hnone).trans ((if_neg (Nat.not_le.mpr hquota)).trans ?_)
  have e : allocBuf (trainHank (recordSize len) (profileOf s q x).train) s = none := allocBuf_none h
  rw [e]
  rfl

theorem placeSpill_train {b : Nat} {t : State} (e : allocBuf (openHank s q len x) s = some (b, t)) : placeSpill q len s =
    .inl (notePeak (queueOwner s q) (openHank s q len x) (setQueue q { x with train := some ⟨openHank s q len x, b, recordSize len⟩ } t),
      .copying (openHank s q len x) b 0 (recordSize len)) := by
  refine (placeSpill_opens hx hnone).trans ((if_neg (Nat.not_le.mpr hquota)).trans ?_)
  have hxt : queueAt t q = some x := (queueAt_allocBuf e q).trans hx
  have e' : allocBuf (trainHank (recordSize len) (profileOf s q x).train) s = some (b, t) := e
  rw [e']
  simp only [hxt]
  rfl

end

end Sys2Proof.Machine

/-! PROOFS. What moves packets through the stores (R347, R354, R355, R360, R361, R363): a record's copy, a fetch, a descriptor's arrival,
a deleted queue's drain and a packet read out, each by what it finds. -/

namespace Sys2Proof.Machine

/-! ### A record's copy is complete (R347, R354) -/

/-- Whether a packet is being copied into the deep store. -/
def Packet.copying (p : Packet) : Bool := match p.place with | .copying _ _ _ _ => true | _ => false

section
variable {q : Nat} {s : State}

theorem spillWritten_noQueue (h : queueAt s q = none) : spillWritten q s = s := by
  simp only [spillWritten, h]

variable {x : Queue} (hx : queueAt s q = some x)
include hx

theorem spillWritten_idle (h : x.pkts.findIdx? Packet.copying = none) : spillWritten q s = s := by
  simp only [spillWritten, hx]
  split
  · rfl
  · rename_i i hfound
    exact absurd (hfound.symm.trans h) (Option.some_ne_none i)

/-- The oldest record being copied lies in the deep store: its bytes and the record before it are written, it is counted, its cells are
free, and what has come into the window is asked for. -/
theorem spillWritten_record {i : Nat} {p : Packet} {h b o n : Nat} (hi : x.pkts.findIdx? Packet.copying = some i) (hp : x.pkts[i]? = some p)
    (hplace : p.place = .copying h b o n) :
    spillWritten q s = askFetches q (freeCells p.cells (cnt (cDev 1) n (cnt (cQueue 5 q) 1
      (setQueue q { x with pkts := lset x.pkts i { p with place := .deep h b o n, cells := [] } }
        (relink q i (bufAddr s h b o) x (putRecord q (queueOwner s q) (nextRecord s (x.pkts.drop (i + 1))) (bufAddr s h b o) p s)))))) := by
  simp only [spillWritten, hx]
  split
  · rename_i hnone
    exact absurd (hi.symm.trans hnone) (Option.some_ne_none i)
  · rename_i j hj
    obtain rfl : i = j := Option.some.inj (hi.symm.trans hj)
    simp only [hp, hplace]

end

/-! ### The oldest fetch (R348, R355) -/

/-- After a packet of a queue is lost, the one that has come to the head is looked at where it was the head (R232, R382). -/
def headNoted (q i : Nat) (t : State) : State := if i = 0 then newHead q t else t

theorem headNoted_head {q i : Nat} (h : i = 0) (t : State) : headNoted q i t = newHead q t := if_pos h
theorem headNoted_behind {q i : Nat} (h : 0 < i) (t : State) : headNoted q i t = t := if_neg (Nat.ne_of_gt h)

/-- A record's header and bytes as they are read back from the deep store, decrypted (R354). -/
def recordRead (q h b o : Nat) (p : Packet) (s : State) : List Byte × List Byte :=
  getRecord s (queueOwner s q) (bufAddr s h b o) p.bytes.length

section
variable {q : Nat} {bad lost : Bool} {s : State}

theorem deepFetched_noQueue (h : queueAt s q = none) : deepFetched q bad lost s = s := by
  unfold deepFetched
  rw [h]
  cases s.fwd.fetchq <;> rfl

theorem deepFetched_otherTurn (h : ∀ a ∈ s.fwd.fetchq.head?, a.1 ≠ q) : deepFetched q bad lost s = s := by
  unfold deepFetched
  split
  · rename_i k a rest x hq hx
    rw [hq] at h
    exact if_pos (h (k, a) rfl)
  · rfl

section
variable {x : Queue} {a : Nat} (hx : queueAt s q = some x) (hturn : s.fwd.fetchq.head? = some (q, a))
include hx hturn

theorem deepFetched_noRecord (h : recordIx s x.pkts a = none) : deepFetched q bad lost s = s := by
  obtain ⟨rest, hq⟩ := List.head?_eq_some_iff.mp hturn
  simp only [deepFetched, hq, hx, ne_eq, not_true_eq_false, if_false, h]

theorem deepFetched_record {i : Nat} {p : Packet} (hi : recordIx s x.pkts a = some i) (hp : x.pkts[i]? = some p) :
    deepFetched q bad lost s = fetchRecord q i x p bad lost s := by
  obtain ⟨rest, hq⟩ := List.head?_eq_some_iff.mp hturn
  simp only [deepFetched, hq, hx, ne_eq, not_true_eq_false, if_false, hi, hp]

end

variable {i : Nat} {x : Queue} {p : Packet}

theorem fetchRecord_notDeep (h : ∀ k b o n, p.place ≠ .deep k b o n) : fetchRecord q i x p bad lost s = s := by
  unfold fetchRecord
  dsimp only
  split
  · rename_i k b o n hp
    exact absurd hp (h k b o n)
  · rfl

variable {h b o n : Nat} (hp : p.place = .deep h b o n)
include hp

theorem fetchRecord_headerLost :
    fetchRecord q i x p bad true s = headNoted q i (dropDeepRun q i x.pkts.length (cnt (cDev 2) n s)) := by
  simp only [fetchRecord, hp, if_true]
  rfl

theorem fetchRecord_recordLost (hbad : bad = true ∨ headerPasses (recordRead q h b o p s).1 = false) :
    fetchRecord q i x p bad false s = headNoted q i (dropQueued q i 18 (cnt (cDev 2) n s)) := by
  simp only [fetchRecord, hp, Bool.false_eq_true, if_false]
  exact if_pos (by simpa [recordRead] using hbad)

variable (hheader : headerPasses (recordRead q h b o p s).1 = true)
include hheader

theorem fetchRecord_waits {cs : List Nat} {t : State} (e : takeCells true (cellsFor p.bytes.length) [] s = (false, cs, t)) :
    fetchRecord q i x p false false s = s := by
  rw [recordRead] at hheader
  simp only [fetchRecord, hp, hheader, e, Bool.not_true, Bool.or_self, Bool.false_eq_true, if_false]

theorem fetchRecord_done {cs : List Nat} {t : State} (e : takeCells true (cellsFor p.bytes.length) [] s = (true, cs, t)) :
    fetchRecord q i x p false false s = cnt (cDev 2) n
      (setQueue q { x with pkts := lset x.pkts i { p with bytes := (recordRead q h b o p s).2, place := .fetched h b o n, cells := cs } }
        { t with fwd := { t.fwd with fetchq := t.fwd.fetchq.drop 1 } }) := by
  rw [recordRead] at hheader
  simp only [fetchRecord, hp, hheader, e, Bool.not_true, Bool.or_self, Bool.false_eq_true, if_false]
  rfl

end

/-! ### A descriptor arrives (R360) -/

section
variable {q : QueueIx} {s : State}

theorem exec_descriptorFetchComplete_idle (h : s.fwd.descWait.contains q.val = false ∨ cacheDesc q s = none) :
    exec (.descriptorFetchComplete q) s = .next s := by
  refine congrArg Host.Outcome.next (if_neg fun hdue => ?_)
  obtain ⟨hwait, hcached⟩ := Bool.and_eq_true_iff.mp hdue
  rcases h with h | h
  · exact Bool.eq_false_iff.mp h hwait
  · rw [h] at hcached
    exact Bool.eq_false_iff.mp rfl hcached

/-- The frames that waited for a descriptor leave the staging list and are admitted in order. -/
def waitersAdmitted (q : Nat) (v : State) : State :=
  forEach (v.fwd.staged.filter fun f => f.waiting && f.queue = q) admitFrame { v with fwd := { v.fwd with
    descWait := v.fwd.descWait.filter (· ≠ q), staged := v.fwd.staged.filter fun f => !(f.waiting && f.queue = q) } }

theorem exec_descriptorFetchComplete_arrived {v : State} (hwait : s.fwd.descWait.contains q.val = true) (hv : cacheDesc q s = some v) :
    exec (.descriptorFetchComplete q) s = .next (repark q (waitersAdmitted q v)) := by
  have harrived : descArrived q s = waitersAdmitted q v := by
    refine (if_pos hwait).trans ?_
    rw [hv]
    rfl
  refine congrArg Host.Outcome.next ((if_pos ?_).trans (congrArg (repark q) harrived))
  rw [hwait, hv]
  rfl

end

/-! ### A deleted queue drains; a packet is read out (R347, R361) -/

section
variable {q : Nat} {s : State}

theorem drainStep_noQueue (h : queueAt s q = none) : drainStep q s = s := by
  simp only [drainStep, h]

variable {x : Queue} (hx : queueAt s q = some x)
include hx

theorem drainStep_stays (h : x.draining = false) : drainStep q s = s := by
  simp [drainStep, hx, h]

variable (hdrains : x.draining = true)
include hdrains

theorem drainStep_drops (h : 1 < x.pkts.length) : drainStep q s = dropQueued q 0 15 s := by
  simp [drainStep, hx, hdrains, Nat.not_le.mpr h]

theorem drainStep_gone (h : x.pkts.length ≤ 1) :
    let t := dropQueued q 0 15 s
    drainStep q s = { t with fwd := { t.fwd with queues := kerase t.fwd.queues q } } := by
  simp [drainStep, hx, hdrains, h]

end

section
variable {i : Nat} {s : State}

theorem sendComplete_idle (h : s.fwd.sending[i]? = none) : sendComplete i s = s := by
  simp only [sendComplete, h]

theorem sendComplete_frees {x : Sending} (h : s.fwd.sending[i]? = some x) :
    sendComplete i s = freeCells x.cells { s with fwd := { s.fwd with sending := lremove s.fwd.sending i } } := by
  simp only [sendComplete, h]

end

/-- Settles O44: the stores' operations by their own lemmas, and each command by what it finds. -/
theorem packetsMoveThroughTheStores : Obligations.PacketsMoveThroughTheStores := by
  unfold Obligations.PacketsMoveThroughTheStores
  refine ⟨fun s h => ?buffers, fun r train => ?hank, fun s q len x hx => ?place, fun s => ?commands⟩
  case buffers =>
    refine ⟨allocBuf_none, fun b t e => ?_, fun n got => takeCells_frame_stops, fun n got b t => takeCells_frame_takes,
      fun n got => takeCells_fetch_stops, fun n got b t => takeCells_fetch_takes⟩
    have hlowest : b = firstFree (takenOf s h) 0 := (allocBuf_some e).1
    obtain ⟨hfree, hbelow⟩ := firstFree_spec (takenOf s h)
    exact ⟨hlowest ▸ hfree, hlowest ▸ hbelow, takenOf_allocBuf_same e ▸ mem_sinsert_self _ b, fun k hk => takenOf_allocBuf_other e hk⟩
  case hank =>
    obtain ⟨hlow, hhigh, hrecord, htrain, hsmaller⟩ := trainHank_smallest r train
    exact ⟨hlow, hhigh, hrecord, fun hset _ => htrain hset, fun k hk hlt => bufSize_lt_of_not_fits (hsmaller k hk hlt)⟩
  case place =>
    exact ⟨fun t => placeSpill_joins hx, placeSpill_overQuota hx, placeSpill_noBuffer hx, fun b t hnone hquota => placeSpill_train hx hnone hquota⟩
  case commands =>
    refine ⟨fun q hnone => ⟨?_, ?_, fun bad lost => ?_⟩, fun q x hx => ⟨fun h => ?_, fun i p h b o n hi hp hplace => ?_⟩,
      fun q bad lost hturn => congrArg _ (deepFetched_otherTurn hturn), fun q x a hx hturn => ⟨fun h bad lost => ?_, fun i p hi hp => ?fetch⟩,
      fun q => ⟨exec_descriptorFetchComplete_idle, fun v => exec_descriptorFetchComplete_arrived⟩,
      fun q x hx => ⟨fun h => ?_, fun hdrains => ⟨fun h => ?_, fun h => ?_⟩⟩, fun i => ⟨fun h => ?_, fun x h => ?_⟩⟩
    · exact congrArg Host.Outcome.next (spillWritten_noQueue hnone)
    · exact congrArg Host.Outcome.next (drainStep_noQueue hnone)
    · exact congrArg Host.Outcome.next (deepFetched_noQueue hnone)
    · exact congrArg Host.Outcome.next (spillWritten_idle hx h)
    · exact congrArg Host.Outcome.next (spillWritten_record hx hi hp hplace)
    · exact congrArg Host.Outcome.next (deepFetched_noRecord hx hturn h)
    case fetch =>
      have hserves {bad lost : Bool} {t : State} (h : fetchRecord q i x p bad lost s = t) : exec (.deepFetchComplete q bad lost) s = .next t :=
        congrArg Host.Outcome.next ((deepFetched_record hx hturn hi hp).trans h)
      refine ⟨fun h bad lost => hserves (fetchRecord_notDeep h), fun h b o n hplace => ⟨fun hheader => ⟨fun cs t e => ?_, fun cs t e => ?_⟩,
        fun bad hbad => ⟨fun hi => ?_, fun hi => ?_⟩, fun bad => ⟨fun hi => ?_, fun hi => ?_⟩⟩⟩
      · exact hserves (fetchRecord_done hplace hheader e)
      · exact hserves (fetchRecord_waits hplace hheader e)
      · exact hserves ((fetchRecord_recordLost hplace hbad).trans (headNoted_behind hi _))
      · exact hserves ((fetchRecord_recordLost hplace hbad).trans (headNoted_head hi _))
      · exact hserves ((fetchRecord_headerLost hplace).trans (headNoted_behind hi _))
      · exact hserves ((fetchRecord_headerLost hplace).trans (headNoted_head hi _))
    · exact congrArg Host.Outcome.next (drainStep_stays hx h)
    · exact congrArg Host.Outcome.next (drainStep_drops hx hdrains h)
    · exact congrArg Host.Outcome.next (drainStep_gone hx hdrains h)
    · exact congrArg Host.Outcome.next (sendComplete_idle h)
    · exact congrArg Host.Outcome.next (sendComplete_frees h)

end Sys2Proof.Machine

/-! PROOFS. The calls of families 0x08 and 0x09 that act at once or read (R344, R350, R356, R357, R367, R381, R386, R389, R390): what the
body of each gives. -/

namespace Sys2Proof.Machine

/-! ### The partition (R344) -/

section
variable {ws : List Word} {s : State}

/-- The units of HBM that `HANK_PARTITION_SET` gives to Hank 1. -/
def hank1Given (ws : List Word) : Nat := fld (pw ws 0) 4 0

/-- The units of HBM that it gives to Hank 3. -/
def hank3Given (ws : List Word) : Nat := fld (pw ws 0) 20 16

/-- Whether every queue manager slice is OFF. -/
def managersOff (s : State) : Prop := (domOf s 40).st = .off ∧ (domOf s 41).st = .off ∧ (domOf s 42).st = .off ∧ (domOf s 43).st = .off

/-- The packet memory under a new partition: the free counts are noted before and after, and LOW_WATER is judged anew (R344, R363, R364). -/
def partitioned (ws : List Word) (s : State) : State :=
  let m := minFree s
  lowRejudge (minFree { m with fwd := { m.fwd with h1Units := hank1Given ws, h3Units := hank3Given ws } })

theorem hankPartition_eq : hankPartition ws s =
    if hank1Given ws = 0 ∨ hank3Given ws = 0 ∨ 27 < hank1Given ws + hank3Given ws then (s, .badArg)
    else if ([40, 41, 42, 43].all fun d => (domOf s d).st = .off) = true then (lowCrossed (lowTold s) (partitioned ws s), .done)
    else (raise 586 [] [] s, .badState) := by
  refine if_congr ?_ rfl rfl
  simp only [Bool.or_eq_true, decide_eq_true_eq, hank1Given, hank3Given]
  omega

theorem hankPartition_badArg (h : hank1Given ws = 0 ∨ hank3Given ws = 0 ∨ 27 < hank1Given ws + hank3Given ws) :
    hankPartition ws s = (s, .badArg) := hankPartition_eq.trans (if_pos h)

variable (hh1 : 1 ≤ hank1Given ws) (hh3 : 1 ≤ hank3Given ws) (hsum : hank1Given ws + hank3Given ws ≤ 27)
include hh1 hh3 hsum

theorem hankPartition_done (hoff : managersOff s) : hankPartition ws s = (lowCrossed (lowTold s) (partitioned ws s), .done) :=
  hankPartition_eq.trans ((if_neg (by omega)).trans (if_pos (by simpa [managersOff] using hoff)))

theorem hankPartition_badState (hon : ¬ managersOff s) : hankPartition ws s = (raise 586 [] [] s, .badState) :=
  hankPartition_eq.trans ((if_neg (by omega)).trans (if_neg (by simpa [managersOff] using hon)))

end

section
variable {ch : Nat} {ws : List Word} {s : State} {e : Status}

/-! ### Hanks and queues (R350, R367) -/

theorem sliceHankRead_refused (h : readsSlice s ch (fld (pw ws 0) 19 16) = .error e) : sliceHankRead ch ws s = .error e := by
  simp only [sliceHankRead, h, res_bind_error]

theorem sliceHankRead_done (h : readsSlice s ch (fld (pw ws 0) 19 16) = .ok ()) : sliceHankRead ch ws s =
    let k := fld (pw ws 0) 19 16
    let h := fld (pw ws 0) 1 0
    .ok [wd (quotaOf s k h), wd (hankUse s k h), wd (kgetD s.fwd.peakSnap (4 * k + h) 0)] := by
  simp only [sliceHankRead, h, res_bind_ok]
  rfl

theorem queueRead_refused (h : needOwner s ch (queueOwner s (fld (pw ws 0) 19 0)) = .error e) : queueRead ch ws s = .error e := by
  simp only [queueRead, h, res_bind_error]

theorem queueRead_absent (h : needOwner s ch (queueOwner s (fld (pw ws 0) 19 0)) = .ok ()) (hnone : queueAt s (fld (pw ws 0) 19 0) = none) :
    queueRead ch ws s = .ok [0, 0, 0, 0, 0] := by
  simp only [queueRead, h, hnone, res_bind_ok]
  rfl

/-- Whether a packet's only copy is in the deep store or on its way there. -/
def Packet.deep (p : Packet) : Bool := match p.place with | .copying _ _ _ _ => true | .deep _ _ _ _ => true | _ => false

/-- What `QUEUE_READ` answers of a queue: its state, train and profile, its depth and its packets, all and those in the deep store. -/
def queueWords (x : Queue) : List Word :=
  [put (if x.draining = true then 2 else 1) 30 ||| putb x.train.isSome 24 ||| wd x.profile] ++ toWords 2 x.depth ++
    [wd x.pkts.length, wd (x.pkts.filter Packet.deep).length]

theorem queueRead_done {x : Queue} (h : needOwner s ch (queueOwner s (fld (pw ws 0) 19 0)) = .ok ())
    (hx : queueAt s (fld (pw ws 0) 19 0) = some x) : queueRead ch ws s = .ok (queueWords x) := by
  simp only [queueRead, h, hx, res_bind_ok]
  rfl

/-! ### Nodes and policers (R390) -/

theorem schedNodeRead_badArg (h : schedName (pw ws 0) = none) : schedNodeRead ch ws s = .error .badArg := by
  simp only [schedNodeRead, h]

section
variable {n : NodeRef} (hname : schedName (pw ws 0) = some n)
include hname

theorem schedNodeRead_refused (h : needOwnerOpt s ch (schedOwner s n) = .error e) : schedNodeRead ch ws s = .error e := by
  simp only [schedNodeRead, hname, h, res_bind_error]

variable (hmay : needOwnerOpt s ch (schedOwner s n) = .ok ())
include hmay

theorem schedNodeRead_badState (h : childOf s n = none ∨ shaperOf s n = none) : schedNodeRead ch ws s = .error .badState := by
  simp only [schedNodeRead, hname, hmay, res_bind_ok]
  split
  · rename_i c per sh busy hc hsh
    rcases h with h | h
    · exact absurd (hc.symm.trans h) (Option.some_ne_none c)
    · exact absurd (hsh.symm.trans h) (Option.some_ne_none _)
  · rfl

/-- A node's answer: its tree fields, the settings in force, a free word, its credits in bytes and whether it is in the wheel. -/
theorem schedNodeRead_done {c : Child} {per : Nat} {sh : Shaper} {busy : Bool} (hc : childOf s n = some c)
    (hsh : shaperOf s n = some (per, sh, busy)) : schedNodeRead ch ws s =
      let x := caught per sh s.tb
      let gate := if versionOf s ch = 0x0200 then 0 else c.gate
      .ok (drawn s, [put c.prio 29 ||| put c.weight 16 ||| put gate 12 ||| wd x.set.adjust, wd x.set.cir, wd x.set.cbs, wd x.set.pir,
        wd x.set.pbs, Config.freeWord s.free, wd (unsgn 32 (x.peak / 65536)), wd (unsgn 32 (x.comm / 65536)),
        putb x.waitC.isSome 1 ||| putb x.waitP.isSome 0]) := by
  simp only [schedNodeRead, hname, hmay, hc, hsh, res_bind_ok]
  rfl

end

theorem policerRead_refused (h : needOwnerOpt s ch (portOwner s (portKey (pw ws 0))) = .error e) : policerRead ch ws s = .error e := by
  simp only [policerRead, h, res_bind_error]

/-- A port record that was never set has no owner. -/
theorem policerRead_badState (h : kget s.fwd.ports (portKey (pw ws 0)) = none) : policerRead ch ws s = .error .badState := by
  have hmay : needOwnerOpt s ch (portOwner s (portKey (pw ws 0))) = .ok () := by
    rw [portOwner, h]
    rfl
  simp only [policerRead, hmay, h, Option.isSome_none, res_bind_ok, need_false, res_bind_error]

theorem policerRead_done (hport : (kget s.fwd.ports (portKey (pw ws 0))).isSome = true)
    (hmay : needOwnerOpt s ch (portOwner s (portKey (pw ws 0))) = .ok ()) : policerRead ch ws s =
      let x := (policerOf s (portKey (pw ws 0))).caught s.tb
      .ok [wd x.cir, wd x.cbs, wd x.pir, wd x.pbs, wd (x.comm / 65536), wd (x.peak / 65536)] := by
  simp only [policerRead, hmay, hport, res_bind_ok, need_true]
  rfl

/-! ### Gate lists and uplink budgets (R381, R386, R390) -/

/-- The entries of the list that `GATE_LIST_READ` names, none where no list is in force. -/
def entriesNamed (ws : List Word) (s : State) : List (Nat × Nat) :=
  ((schedOf s (fld (pw ws 0) 12 8) (fld (pw ws 0) 1 0)).list.map (·.entries)).getD []

/-- What `GATE_LIST_READ` answers: whether a list waits, the entries in force, their cycle and its base. -/
def listWords (ws : List Word) (s : State) : List Word :=
  let v := schedOf s (fld (pw ws 0) 12 8) (fld (pw ws 0) 1 0)
  [putb v.waiting.isSome 31 ||| wd (entriesNamed ws s).length, wd ((v.list.map (·.cycle)).getD 0), wd ((v.list.map (·.base)).getD 0)]

/-- The entries as they lie in a caller's buffer: the class mask above the duration (R378, R390). -/
def entryBytes (ws : List Word) (s : State) : List Byte := bytesOfWords ((entriesNamed ws s).map fun e => wd (e.1 * 2 ^ 24 + e.2))

/-- The entries leave for the caller's buffer, where it names one. -/
def entriesSent (ch : Nat) (ws : List Word) (s : State) : State :=
  if wide ws 1 2 = 0 then s
  else emit (.dma ch (wide ws 1 2) ((entryBytes ws s ++ List.replicate 1024 0).take 1024)) s

theorem gateListRead_eq : gateListRead ch ws s = need (fld (pw ws 0) 1 0 ≤ 2) .badArg >>= fun _ => .ok (entriesSent ch ws s, listWords ws s) := rfl

theorem gateListRead_badArg (h : fld (pw ws 0) 1 0 = 3) : gateListRead ch ws s = .error .badArg := by
  rw [gateListRead_eq, need_of_false (by rw [h]; rfl), res_bind_error]

section
variable (hpier : fld (pw ws 0) 1 0 ≤ 2)
include hpier

theorem gateListRead_done : gateListRead ch ws s = .ok (entriesSent ch ws s, listWords ws s) := by
  rw [gateListRead_eq, need_of_true (decide_eq_true hpier), res_bind_ok]

theorem gateListRead_noBuffer (h : wide ws 1 2 = 0) : gateListRead ch ws s = .ok (s, listWords ws s) := by
  rw [gateListRead_done hpier, entriesSent, if_pos h]

theorem gateListRead_buffer (h : wide ws 1 2 ≠ 0) : gateListRead ch ws s =
    .ok (emit (.dma ch (wide ws 1 2) ((entryBytes ws s ++ List.replicate 1024 0).take 1024)) s, listWords ws s) := by
  rw [gateListRead_done hpier, entriesSent, if_neg h]

end

/-- Whether a Lanyard rate is current: the device is the manager, or has one. -/
def lanyardManaged (s : State) : Bool := s.boot.strapRole = 2 || match kget s.red.lan.peers 0 with | some p => p.present | none => false

theorem uplinkBudgetRead_badArg (h : 24 ≤ fld (pw ws 0) 4 0) : uplinkBudgetRead ch ws s = .error .badArg := by
  simp only [uplinkBudgetRead, decide_eq_false (show ¬ fld (pw ws 0) 4 0 ≤ 23 by omega), need_false, res_bind_error]

section
variable (hport : fld (pw ws 0) 4 0 ≤ 23)
include hport

theorem uplinkBudgetRead_refused (h : readsSlice s ch (fld (pw ws 0) 19 16) = .error e) : uplinkBudgetRead ch ws s = .error e := by
  simp only [uplinkBudgetRead, decide_eq_true hport, need_true, h, res_bind_ok, res_bind_error]

variable (hmay : readsSlice s ch (fld (pw ws 0) 19 16) = .ok ())
include hmay

/-- Without a Lanyard rate the budget's own rate is in force. -/
theorem uplinkBudgetRead_own (h : (upBudget s (fld (pw ws 0) 19 16) (fld (pw ws 0) 4 0)).lanyard = none) : uplinkBudgetRead ch ws s =
    let b := upBudget s (fld (pw ws 0) 19 16) (fld (pw ws 0) 4 0)
    .ok [wd b.rate, 0xFFFFFFFF, wd b.rate, 0] := by
  simp only [uplinkBudgetRead, decide_eq_true hport, need_true, hmay, res_bind_ok, Budget.effective, h]
  rfl

theorem uplinkBudgetRead_lanyard {r : Nat} (h : (upBudget s (fld (pw ws 0) 19 16) (fld (pw ws 0) 4 0)).lanyard = some r) :
    uplinkBudgetRead ch ws s =
      let b := upBudget s (fld (pw ws 0) 19 16) (fld (pw ws 0) 4 0)
      .ok [wd b.rate, wd r, wd (min b.rate r), if lanyardManaged s = true then 1 else 2] := by
  have hword : wd (if lanyardManaged s = true then 1 else 2) = if lanyardManaged s = true then 1 else 2 := apply_ite _ _ _ _
  rw [← hword]
  simp only [uplinkBudgetRead, decide_eq_true hport, need_true, hmay, res_bind_ok, Budget.effective, h]
  rfl

end

end

theorem exec_hankPartitionSet {c : Call} {s t : State} {st : Status} (hserved : Served hankPartitionSpec c s)
    (h : hankPartition c.words (readCall 0x0801 c s) = (t, st)) : exec (.hankPartitionSet c) s = .next (respond 0x0801 c st [] t) := by
  refine (serve_served hserved fun u => respond 0x0801 c (hankPartition c.words u).2 [] (hankPartition c.words u).1).trans ?_
  have h' : hankPartition c.words (readCall hankPartitionSpec.code c s) = (t, st) := h
  rw [h']

/-- Settles O45: each call answers what its body gives. -/
theorem queueAndSchedulerCallsAnswer : Obligations.QueueAndSchedulerCallsAnswer := by
  unfold Obligations.QueueAndSchedulerCallsAnswer
  intro c s w
  refine ⟨fun hserved => ?partition, fun hserved => ?hankStatus, fun hserved => ?sliceHank, fun hserved => ?queue, fun hserved => ?viaduct,
    fun hserved => ?node, fun hserved => ?policer, fun hserved => ?gateList, fun hserved => ?budget⟩
  case partition =>
    exact ⟨fun h => exec_hankPartitionSet hserved (hankPartition_badArg h), fun hh1 hh3 hsum =>
      ⟨fun hoff => exec_hankPartitionSet hserved (hankPartition_done hh1 hh3 hsum hoff),
        fun hon => exec_hankPartitionSet hserved (hankPartition_badState hh1 hh3 hsum hon)⟩⟩
  case hankStatus => exact serveRead_done hserved (fun s => .ok (hankStatus c.words s)) rfl
  case sliceHank =>
    exact ⟨fun _ h => serveRead_refused hserved _ (sliceHankRead_refused h), fun h => serveRead_done hserved _ (sliceHankRead_done h)⟩
  case queue =>
    exact ⟨fun _ h => serveRead_refused hserved _ (queueRead_refused h), fun h =>
      ⟨fun hnone => serveRead_done hserved _ (queueRead_absent h hnone), fun _ hx => serveRead_done hserved _ (queueRead_done h hx)⟩⟩
  case viaduct => exact serveRead_done hserved (fun s => .ok (viaductStatus s)) rfl
  case node =>
    exact ⟨fun h => serveAct_refused hserved _ (schedNodeRead_badArg h), fun n hname =>
      ⟨fun _ h => serveAct_refused hserved _ (schedNodeRead_refused hname h), fun hmay =>
        ⟨fun h => serveAct_refused hserved _ (schedNodeRead_badState hname hmay h),
          fun _ _ _ _ hc hsh => serveAct_done hserved _ (schedNodeRead_done hname hmay hc hsh)⟩⟩⟩
  case policer =>
    exact ⟨fun _ h => serveRead_refused hserved _ (policerRead_refused h), fun h => serveRead_refused hserved _ (policerRead_badState h),
      fun hport hmay => serveRead_done hserved _ (policerRead_done hport hmay)⟩
  case gateList =>
    exact ⟨fun h => serveAct_refused hserved _ (gateListRead_badArg h), fun hpier =>
      ⟨fun h => serveAct_done hserved _ (gateListRead_noBuffer hpier h), fun h => serveAct_done hserved _ (gateListRead_buffer hpier h)⟩⟩
  case budget =>
    exact ⟨fun h => serveRead_refused hserved _ (uplinkBudgetRead_badArg h),
      fun _ hport h => serveRead_refused hserved _ (uplinkBudgetRead_refused hport h), fun hport hmay =>
      ⟨fun h => serveRead_done hserved _ (uplinkBudgetRead_own hport hmay h),
        fun _ h => serveRead_done hserved _ (uplinkBudgetRead_lanyard hport hmay h)⟩⟩

end Sys2Proof.Machine

/-! PROOFS. Shapers, the calendar wheel, policers and gate cycles (R373 to R377, R379, R381): what a refill, a release, a migration and a
cycle's end leave. -/

namespace Sys2Proof.Machine

section
variable {s : State} {n : NodeRef} {per : Nat} {x : Shaper} {busy : Bool}

/-! ### Refills (R373, R375) -/

/-- `caught` as a function: unfolded under its arguments it sends the kernel to evaluate the number of refills. -/
theorem caught_eq : caught = fun per x now => match refills per x.at_ now with
    | 0 => x
    | n + 1 =>
      let v := x.next.getD x.set
      { x with
        set := v, next := none, at_ := now
        peak := refilled x.peak (n + 1) (incOf v.pir per) v.pbs, comm := refilled x.comm (n + 1) (incOf v.cir per) v.cbs } := rfl

theorem caught_of_no_refill {now : Nat} (h : refills per x.at_ now = 0) : caught per x now = x := by
  rw [caught_eq]
  beta_reduce
  rw [h]

/-- The refills of an interval, with the settings that wait in force from the first of them on. -/
theorem caught_of_refills {now k : Nat} (h : refills per x.at_ now = k + 1) : caught per x now =
    { x with
      set := x.wanted, next := none, at_ := now
      peak := refilled x.peak (k + 1) (incOf x.wanted.pir per) x.wanted.pbs
      comm := refilled x.comm (k + 1) (incOf x.wanted.cir per) x.wanted.cbs } := by
  rw [caught_eq]
  beta_reduce
  rw [h]
  rfl
theorem shaperRefill_absent (h : shaperOf s n = none) : shaperRefill n s = s := by
  simp only [shaperRefill, h]

/-- A refill acts at the next multiple of the node's period. -/
theorem shaperRefill_present (h : shaperOf s n = some (per, x, busy)) : shaperRefill n s =
    let t := advance (nextRefill per s) s
    let y := caught per x t.tb
    putShaper n (nowNs t) y (y.parked per (nowNs t) busy) t := by
  simp only [shaperRefill, h]

/-! ### Policers (R377) -/

theorem policerRefill_absent {port : Nat} (h : kget s.fwd.policers port = none) : policerRefill port s = advance (nextRefill perLeaf s) s :=
  if_neg (by simp [h])

theorem policerRefill_present {port : Nat} {y : Policer} (h : kget s.fwd.policers port = some y) :
    policerRefill port s = let t := advance (nextRefill perLeaf s) s; setPolicer port (y.caught t.tb) t := by
  simp only [policerRefill, policerOf, kgetD, advance_fwd, h, Option.isSome_some, if_true, Option.getD_some]

/-! ### The entries of a shaper (R376) -/

section
variable {now from_ rate : Nat} {credit : Int} {old : Option Wheel}

theorem entryFor_of_nonneg (h : 0 ≤ credit) : entryFor per now from_ rate credit busy old = none := if_neg (Int.not_lt.mpr h)

/-- Below 0 an entry stands, and a bucket without one gets it where packets lie below it. -/
theorem entryFor_of_neg (h : credit < 0) : entryFor per now from_ rate credit busy old =
    old.or (if busy then (eligAt per from_ (incOf rate per) credit).map (wheelAt now) else none) := by
  refine (if_pos h).trans ?_
  cases old <;> rfl

end

section
variable {now : Nat}

theorem parked_waitP_none (h : x.wanted.pir = unshaped ∨ 0 ≤ x.peak) : (x.parked per now busy).waitP = none := by
  rcases h with h | h
  · exact if_pos h
  · exact (if_congr Iff.rfl rfl (entryFor_of_nonneg h)).trans (ite_self _)

theorem parked_waitP (hpir : x.wanted.pir ≠ unshaped) (h : x.peak < 0) : (x.parked per now busy).waitP =
    x.waitP.or (if busy then (eligAt per (x.at_ / 2 ^ 40) (incOf x.wanted.pir per) x.peak).map (wheelAt now) else none) :=
  (if_neg hpir).trans (entryFor_of_neg h)

end

/-- The refills that a credit takes to reach 0: as many bring it there, and fewer do not. -/
theorem ceilDiv_le_iff {a b k : Nat} (hb : 0 < b) : ceilDiv a b ≤ k ↔ a ≤ k * b := by
  rw [Nat.mul_comm, ← ceilDiv_le_iff_le_mul hb]
  rfl

theorem eligAt_of_pos {now inc : Nat} {credit : Int} (hinc : 0 < inc) :
    eligAt per now inc credit = some ((now / per + ceilDiv credit.natAbs inc) * per) := if_neg (Nat.ne_of_gt hinc)

section
variable {inc : Nat} {credit : Int} (hinc : 0 < inc) (hcredit : credit < 0)
include hinc hcredit

theorem credit_reaches_zero : 0 ≤ credit + ((ceilDiv credit.natAbs inc * inc : Nat) : Int) := by
  have h : credit.natAbs ≤ ceilDiv credit.natAbs inc * inc := (ceilDiv_le_iff hinc).mp le_rfl
  omega

theorem credit_below_zero_before {j : Nat} (hj : j < ceilDiv credit.natAbs inc) : credit + ((j * inc : Nat) : Int) < 0 := by
  have h : ¬ credit.natAbs ≤ j * inc := fun h => Nat.not_le.mpr hj ((ceilDiv_le_iff hinc).mpr h)
  omega

end

/-! ### The wheel (R376) -/

section
variable {now elig : Nat}

theorem wheelAt_fine (h : elig - now < 819200) : wheelAt now elig = ⟨elig, true, elig / 200 * 200⟩ := if_pos h

theorem wheelAt_coarse (h : 819200 ≤ elig - now) (hin : elig - now < 3355443200) :
    wheelAt now elig = ⟨elig, false, elig / 819200 * 819200⟩ := (if_neg (Nat.not_lt.mpr h)).trans (if_pos hin)

theorem wheelAt_beyond (h : 3355443200 ≤ elig - now) : wheelAt now elig = ⟨elig, false, (now / 819200 + 4095) * 819200⟩ :=
  (if_neg (by unfold coarseNs; omega)).trans (if_neg (Nat.not_lt.mpr h))

end

section
variable {comm : Bool}

theorem wheelRelease_absent (h : shaperOf s n = none) : wheelRelease n comm s = s := by
  simp only [wheelRelease, h]

/-- The wheel entry of a shaper's committed or peak bucket. -/
def Shaper.entry (x : Shaper) (comm : Bool) : Option Wheel := if comm then x.waitC else x.waitP

/-- A shaper whose entry has been released. -/
def Shaper.released (x : Shaper) (comm : Bool) : Shaper := if comm then { x with waitC := none } else { x with waitP := none }

variable (hn : shaperOf s n = some (per, x, busy))
include hn

theorem wheelRelease_empty (h : x.entry comm = none) : wheelRelease n comm s = s := by
  simp only [Shaper.entry] at h
  simp only [wheelRelease, hn, h]

variable {w : Wheel} (hw : x.entry comm = some w)
include hw

theorem wheelRelease_coarse (h : w.fine = false) : wheelRelease n comm s = s := by
  simp only [Shaper.entry] at hw
  simp only [wheelRelease, hn, hw, h, Bool.not_false, if_true]

theorem wheelRelease_fine (h : w.fine = true) : wheelRelease n comm s =
    let t := advance (w.elig * 2 ^ 40) s
    let y := (caught per x t.tb).released comm
    putShaper n (nowNs t) y (y.parked per (nowNs t) busy) t := by
  simp only [Shaper.entry] at hw
  simp only [wheelRelease, hn, hw, h, Bool.not_true, Bool.false_eq_true, if_false]
  rfl

end

/-- A coarse slot's migration of one group at an instant that the timebase has reached. -/
def migrated (g : Nat) (t : State) : State :=
  let f (per : Nat) (x : Shaper) : Shaper := (caught per x t.tb).migrate per (nowNs t)
  let again (per : Nat) (x : Shaper) : Nat := parkedBeyond (nowNs t) x (f per x)
  let n := ((t.fwd.l1.filter fun e => e.1 / 8192 = g).map fun e => again perNode e.2.sh).sum +
    ((t.fwd.l2.filter fun e => e.1 / 65536 = g).map fun e => again perLeaf e.2.sh).sum +
    ((t.fwd.queues.filter fun e => groupOf e.1 = g).map fun e => again perLeaf e.2.sh).sum +
    (if g = 0 then (t.fwd.budgets.map fun e => again perNode e.2.sh).sum else 0)
  cnt (cQm 2 g) n { t with fwd := { t.fwd with
    l1 := kmap t.fwd.l1 fun k x => if k / 8192 = g then { x with sh := f perNode x.sh } else x
    l2 := kmap t.fwd.l2 fun k x => if k / 65536 = g then { x with sh := f perLeaf x.sh } else x
    queues := kmap t.fwd.queues fun k x => if groupOf k = g then { x with sh := f perLeaf x.sh } else x
    budgets := if g = 0 then kmap t.fwd.budgets fun _ x => { x with sh := f perNode x.sh } else t.fwd.budgets } }

theorem wheelMigrate_empty {g : Nat} (h : coarseSlots s g = []) : wheelMigrate g s = s := by
  simp only [wheelMigrate, h]

/-- The timebase reaches the first of the coarse slots. -/
theorem wheelMigrate_first {g m : Nat} (hm : m ∈ coarseSlots s g) (hfirst : ∀ k ∈ coarseSlots s g, m ≤ k) :
    wheelMigrate g s = migrated g (advance (m * 2 ^ 40) s) := by
  have hmin : (coarseSlots s g).min? = some m := List.min?_eq_some_iff.mpr ⟨hm, hfirst⟩
  simp only [wheelMigrate]
  split
  · rename_i h
    rw [h] at hm
    cases hm
  · rename_i a t h
    obtain rfl : t.foldl min a = m := Option.some.inj (List.min?_cons'.symm.trans (h ▸ hmin))
    rfl

/-! ### Gate cycles (R379, R381) -/

/-- The first instant after the counter that lies a whole number of cycles after a base. -/
theorem cycle_end_after {tb c b : Nat} (hc : 0 < c) (hb : b ≤ c) :
    tb < tb + c - (tb + c - b) % c ∧ tb + c - (tb + c - b) % c ≤ tb + c ∧ (tb + c - (tb + c - b) % c + c - b) % c = 0 := by
  have hlt := Nat.mod_lt (tb + c - b) hc
  have hdiv := Nat.div_add_mod (tb + c - b) c
  have hwhole : tb + c - (tb + c - b) % c + c - b = c * ((tb + c - b) / c) + c := by omega
  refine ⟨by omega, by omega, ?_⟩
  rw [hwhole, Nat.add_mod_right, Nat.mul_mod_right]

theorem nextCycleEnd_spec {l : GateList} {tb : Nat} (hcycle : 0 < l.cycle) (hbase : l.base ≤ l.cycle) :
    tb < nextCycleEnd l tb ∧ nextCycleEnd l tb ≤ tb + l.cycle * 2 ^ 40 ∧
      (nextCycleEnd l tb + l.cycle * 2 ^ 40 - l.base * 2 ^ 40) % (l.cycle * 2 ^ 40) = 0 :=
  cycle_end_after (Nat.mul_pos hcycle (Nat.two_pow_pos 40)) (Nat.mul_le_mul_right _ hbase)

section
variable {sp p : Nat}

/-- With no list waiting, the cycle in progress ends, where a list is in force. -/
theorem gateCycleEnd_stays (h : (schedOf s sp p).waiting = none) : gateCycleEnd sp p s =
    match (schedOf s sp p).list with | some l => advance (nextCycleEnd l s.tb) s | none => s := by
  simp only [gateCycleEnd, h]
  cases (schedOf s sp p).list <;> rfl

theorem gateCycleEnd_swaps {l : Option GateList} (h : (schedOf s sp p).waiting = some l) : gateCycleEnd sp p s =
    releaseObj ⟨.gateList, 3 * sp + p⟩ (listInForce sp p l (schedOf s sp p).swapPs (advance (schedOf s sp p).swapAt s)) := by
  simp only [gateCycleEnd, h]

end

end

/-- Settles O46: each command does what its operation's cases give. -/
theorem shapersRefillAndRelease : Obligations.ShapersRefillAndRelease := by
  unfold Obligations.ShapersRefillAndRelease
  intro s
  refine ⟨⟨?absent, ?present, fun _ _ => rfl, fun _ _ => rfl, fun _ => rfl, fun _ _ => rfl, ?parked, ?policer⟩, ?caught, ?elig, ?wheel,
    ?release, ?migrate, ?cycle, ?gate, fun _ _ => ⟨rfl, fun _ => rfl⟩⟩
  case absent => exact fun n h => congrArg Host.Outcome.next (shaperRefill_absent h)
  case present => exact fun n per x busy h => congrArg Host.Outcome.next (shaperRefill_present h)
  case parked =>
    refine fun x per now busy => ⟨rfl, parked_waitP_none, entryFor_of_nonneg, fun hpir h => (parked_waitP hpir h).trans ?_,
      fun h => (entryFor_of_neg h).trans ?_⟩
    · cases x.waitP <;> rfl
    · cases x.waitC <;> rfl
  case policer =>
    exact fun port => ⟨fun h => congrArg Host.Outcome.next (policerRefill_absent h),
      fun x h => congrArg Host.Outcome.next (policerRefill_present h)⟩
  case caught =>
    refine fun per x now => ⟨caught_of_no_refill, fun k h => ?_⟩
    rw [caught_of_refills h]
    exact ⟨rfl, rfl, rfl, rfl⟩
  case elig =>
    exact fun per now inc credit hcredit => ⟨fun h => if_pos h, fun hinc => ⟨ceilDiv credit.natAbs inc, eligAt_of_pos hinc,
      credit_reaches_zero hinc hcredit, fun j hj => credit_below_zero_before hinc hcredit hj⟩⟩
  case wheel => exact fun now elig => ⟨wheelAt_fine, wheelAt_coarse, wheelAt_beyond⟩
  case release =>
    exact fun n comm => ⟨fun h => congrArg Host.Outcome.next (wheelRelease_absent h), fun per x busy hn =>
      ⟨fun h => congrArg Host.Outcome.next (wheelRelease_empty hn h), fun w hw =>
        ⟨fun h => congrArg Host.Outcome.next (wheelRelease_coarse hn hw h),
          fun h => congrArg Host.Outcome.next (wheelRelease_fine hn hw h)⟩⟩⟩
  case migrate =>
    exact fun g => ⟨fun h => congrArg Host.Outcome.next (wheelMigrate_empty h),
      fun _ m hm hfirst => congrArg Host.Outcome.next (wheelMigrate_first hm hfirst)⟩
  case cycle => exact fun l tb hcycle hbase => nextCycleEnd_spec hcycle hbase
  case gate =>
    exact fun sp p => ⟨fun h => congrArg Host.Outcome.next (gateCycleEnd_stays h),
      fun l h => congrArg Host.Outcome.next (gateCycleEnd_swaps h)⟩

end Sys2Proof.Machine

/-! PROOFS. The schedulers of the Pier and uplink roots (R368 to R371, R380, R383 to R385, R397, R477, R558): what a selection takes, and
where it puts it. -/

namespace Sys2Proof.Machine

/-! ### The head of a queue (R369) -/

/-- The state in which a queue's head packet has been taken for the line. -/
def headTaken (q : Nat) (k : Packet) (s : State) : State :=
  let t := unqueue q 0 s
  newHead q (touchDesc q (cnt (cQueue 2 q) 1 (cnt (cQueue 3 q) k.bytes.length
    { t with fwd := { t.fwd with sending := t.fwd.sending ++ [⟨q, k.cells, k.fetched⟩] } })))

theorem takeHead_head {s : State} {q : Nat} {x : Queue} {k : Packet} {rest : List Packet} (hx : queueAt s q = some x)
    (hk : x.pkts = k :: rest) : takeHead q s = some (k, headTaken q k s) := by
  simp only [takeHead, hx, hk]
  rfl

/-! ### Timed frames (R232, R383) -/

/-- The timed head that goes first is one whose first position comes first. -/
theorem firstTimed_eq_argmin (s : State) (sp p : Nat) (l : List (Nat × Queue × Nat × Bool)) :
    firstTimed s sp p l = l.argmin fun e => launchFirst s sp p e.2.2.1 := by
  refine congrArg (fun f => l.foldl f none) (funext fun best => funext fun e => ?_)
  cases best <;> rfl

theorem firstTimed_least {s : State} {sp p : Nat} {l : List (Nat × Queue × Nat × Bool)} {e : Nat × Queue × Nat × Bool}
    (h : firstTimed s sp p l = some e) : e ∈ l ∧ ∀ g ∈ l, launchFirst s sp p e.2.2.1 ≤ launchFirst s sp p g.2.2.1 := by
  have hmin : e ∈ l.argmin fun e => launchFirst s sp p e.2.2.1 := (firstTimed_eq_argmin s sp p l).symm.trans h
  exact ⟨List.argmin_mem hmin, fun g hg => (List.le_of_mem_argmin hg hmin :)⟩

section
variable {s : State} {sp p q l : Nat} {w : Spot} {x : Queue} {k : Packet} {rest : List Packet} {late : Bool}

/-- The timed head that goes at a place: the first of those for which a selection made now is the last chance (R383). -/
def dueTimed (s : State) (sp p : Nat) (w : Spot) : Option (Nat × Queue × Nat × Bool) :=
  firstTimed s sp p ((timedHeads s sp p).filter fun e => (timedSpot s sp p w e).isSome)

theorem gateFits_head (hk : x.pkts = k :: rest) :
    gateFits s sp p w x = gateAllows (schedOf s sp p) x.ch.gate w.t (endAt s sp p w k.bytes.length) := by
  simp only [gateFits, hk]

section
variable (hk : x.pkts = k :: rest) (hfits : gateFits s sp p w x = false)
include hk hfits

/-- A late frame whose gate would close before its end waits. -/
theorem timedStep_late (hlate : late = true) : timedStep sp p w (q, x, l, late) s = s := by
  simp only [timedStep, hk, hfits, hlate, Bool.not_false, if_true]

theorem timedStep_becomes_late (hlate : late = false) (hsend : sendLate s q = true) : timedStep sp p w (q, x, l, late) s =
    cnt (cPier 18 sp p) 1 (setQueue q { x with pkts := { k with late := true } :: rest } s) := by
  simp only [timedStep, hk, hfits, hlate, hsend, Bool.not_false, Bool.false_eq_true, if_true, if_false]

theorem timedStep_drops (hlate : late = false) (hsend : sendLate s q = false) : timedStep sp p w (q, x, l, late) s =
    newHead q (cnt (cPier 17 sp p) 1 (dropQueued q 0 17 s)) := by
  simp only [timedStep, hk, hfits, hlate, hsend, Bool.not_false, Bool.false_eq_true, if_true, if_false]

end

section
variable (hk : x.pkts = k :: rest) (hfits : gateFits s sp p w x = true)
include hk hfits

theorem timedStep_misses (hdesc : hasDesc s q = false) : timedStep sp p w (q, x, l, late) s = missDesc q s := by
  simp only [timedStep, hk, hfits, hdesc, Bool.not_true, Bool.not_false, Bool.false_eq_true, if_true, if_false]

/-- Whether a frame that was not late before waits for one on the line past its own launch position (R383). -/
def heldUp (sp p l : Nat) (late : Bool) (u : State) : Bool :=
  !late && (schedOf u sp p).line.any fun f => launchFirst u sp p l < f.stop

theorem timedStep_sends {pkt : Packet} {u : State} (hdesc : hasDesc s q = true) (htake : takeHead q s = some (pkt, u)) :
    timedStep sp p w (q, x, l, late) s = putOnLine sp p w x pkt
      (clearEmpty q (chargePath q k.bytes.length none (if heldUp sp p l late u then cnt (cPier 19 sp p) 1 u else u))) := by
  simp only [timedStep, hk, hfits, hdesc, htake, Bool.not_true, Bool.false_eq_true, if_false]
  rfl

end

theorem heldUp_iff {u : State} : heldUp sp p l late u = true ↔
    late = false ∧ ∃ g ∈ (schedOf u sp p).line, launchFirst u sp p l < g.stop := by
  simp [heldUp]

end

/-! ### A Pier root's selection (R368 to R371) -/

/-- Whether a Pier sends: its Span is open or closes, the Pier is enabled and its transmitter on (R368). -/
def pierSends (s : State) (sp p : Nat) : Prop :=
  ((spanOf s sp).st = .opened ∨ (spanOf s sp).st = .closing) ∧ (spanOf s sp).standby = false ∧
    (pierOf s sp p).enable = true ∧ (pierOf s sp p).txOn = true

/-- Whether a queue's non-timed head may go at a place. -/
def fitsAt (s : State) (sp p : Nat) (w : Spot) (_ : Nat) (x : Queue) : Bool :=
  (downFits s sp p w x).1 && (downFits s sp p w x).2.1 && (downFits s sp p w x).2.2

/-- The heads that no shaper blocks: whether each is ready, inside its gate and clear of the launches, and whether its class is open. -/
def headsSeen (s : State) (sp p : Nat) (w : Spot) : List ((Bool × Bool × Bool) × Bool) :=
  ((s.fwd.queues.filter fun e => pierOfQueue s e.1 e.2 = some (sp, p)).filter fun e => pathPasses s (sp / 8) e.2).map fun e =>
    (downFits s sp p w e.2, gateOpenAt ((schedOf s sp p).listFor w.t) e.2.ch.gate w.t)

theorem headsSeen_eq (s : State) (sp p : Nat) (w : Spot) : headsSeen s sp p w =
    (s.fwd.queues.filter fun e => decide (pierOfQueue s e.1 e.2 = some (sp, p)) && pathPasses s (sp / 8) e.2).map fun e =>
      (downFits s sp p w e.2, gateOpenAt ((schedOf s sp p).listFor w.t) e.2.ch.gate w.t) := by
  rw [headsSeen, List.filter_filter]
  simp only [Bool.and_comm]

/-- The heads passed over for their gate, and for a protected launch, are counted (R388). -/
def passedOver (s : State) (sp p : Nat) (w : Spot) : State :=
  let seen := headsSeen s sp p w
  let v := if seen.any fun e => e.1.1 && !e.1.2.1 && e.2 then cnt (cPier 10 sp p) 1 s else s
  if seen.any fun e => e.1.1 && e.1.2.1 && !e.1.2.2 then cnt (cPier 14 sp p) 1 v else v

/-- What a Pier root selects for a place. -/
def pierChoice (s : State) (sp p : Nat) (w : Spot) : State × Option Path :=
  choose (fitsAt s sp p w) (sp / 8) (3 * (sp % 8) + p) (passedOver s sp p w)

/-- The head that a Pier root selected goes on the line, where its descriptor is on die. -/
def chosenGoes (sp p : Nat) (w : Spot) (c : State × Option Path) : State :=
  match c.2 with
  | none => c.1
  | some h =>
    if !hasDesc c.1 h.q then missDesc h.q c.1
    else match queueAt c.1 h.q, takeHead h.q c.1 with
      | some x, some (k, u) => putOnLine sp p w x k (chargePath h.q k.bytes.length (some h) u)
      | _, _ => c.1

section
variable {s : State} {sp p : Nat} {w : Spot}

theorem pierSends_iff : pierSends s sp p ↔ ¬ (((spanOf s sp).st ≠ .opened && (spanOf s sp).st ≠ .closing) || (spanOf s sp).standby ||
    !(pierOf s sp p).enable || !(pierOf s sp p).txOn) = true := by
  simp [pierSends, or_iff_not_imp_left]

theorem pierSelect_idle (h : ¬ pierSends s sp p) : pierSelect sp p s = s :=
  if_pos (not_not.mp (mt pierSends_iff.mpr h))

section
variable (hsends : pierSends s sp p)
include hsends

theorem pierSelect_noSpot (hw : spotOf s sp p = none) : pierSelect sp p s = s := by
  rw [pierSelect, if_neg (pierSends_iff.mp hsends)]
  simp only [hw]

variable (hw : spotOf s sp p = some w)
include hw

theorem pierSelect_timed {e : Nat × Queue × Nat × Bool} (h : dueTimed s sp p w = some e) :
    pierSelect sp p s = timedStep sp p ((timedSpot s sp p w e).getD w) e s := by
  rw [dueTimed] at h
  rw [pierSelect, if_neg (pierSends_iff.mp hsends)]
  simp only [hw, h]

theorem pierSelect_chosen (h : dueTimed s sp p w = none) : pierSelect sp p s = chosenGoes sp p w (pierChoice s sp p w) := by
  rw [dueTimed] at h
  rw [pierSelect, if_neg (pierSends_iff.mp hsends)]
  simp only [hw, h]
  split
  · rename_i t hc
    rw [show pierChoice s sp p w = (t, none) from hc]
    rfl
  · rename_i t g hc
    rw [show pierChoice s sp p w = (t, some g) from hc]
    rfl

end

section
variable {c : State × Option Path}

theorem chosenGoes_none (h : c.2 = none) : chosenGoes sp p w c = c.1 := by
  simp only [chosenGoes, h]

variable {h : Path} (hc : c.2 = some h)
include hc

theorem chosenGoes_misses (hdesc : hasDesc c.1 h.q = false) : chosenGoes sp p w c = missDesc h.q c.1 := by
  simp only [chosenGoes, hc, hdesc, Bool.not_false, if_true]

theorem chosenGoes_gone (hdesc : hasDesc c.1 h.q = true) (htake : takeHead h.q c.1 = none) : chosenGoes sp p w c = c.1 := by
  simp only [chosenGoes, hc, hdesc, htake, Bool.not_true, Bool.false_eq_true, if_false]
  cases queueAt c.1 h.q <;> rfl

theorem chosenGoes_sends {x : Queue} {k : Packet} {u : State} (hdesc : hasDesc c.1 h.q = true) (hx : queueAt c.1 h.q = some x)
    (htake : takeHead h.q c.1 = some (k, u)) :
    chosenGoes sp p w c = putOnLine sp p w x k (chargePath h.q k.bytes.length (some h) u) := by
  simp only [chosenGoes, hc, hdesc, hx, htake, Bool.not_true, Bool.false_eq_true, if_false]

end

end

/-! ### A frame on a Pier's line (R139, R161, R380, R558) -/

section
variable {s : State} {sp p frame d : Nat} {w : Spot} {x : Queue} {pkt : Packet} {r : PortRec} {bs : List Byte}

/-- A Pier's schedule once a frame has been chosen for a place: the frame joins those on the line, and one that reaches into the next
frame fixes the number of messages of that frame's header. -/
def onLine (s : State) (sp p : Nat) (w : Spot) (x : Queue) (pkt : Packet) : PierSched :=
  let c := schedOf s sp p
  let into := w.frame ≠ c.frame || dataBytes p (pierOf s sp p).fecDs < w.d + pieceBytes p pkt.bytes.length
  { c with
    line := (c.line.filter fun e => psOf s.tb < e.stop) ++
      [⟨x.ch.gate, w.t, endAt s sp p w pkt.bytes.length, w.frame, w.d, pkt.bytes.length⟩]
    promised := if into && mapSealed s sp && p ≠ 2 then some (nextPloams s sp p) else c.promised }

section
variable (hport : pkt.port = some r)
include hport

theorem putOnLine_now (h : w.frame = (schedOf s sp p).frame) :
    putOnLine sp p w x pkt s = putPiece sp p w.d r pkt.bytes (setSched sp p (onLine s sp p w x pkt) s) := by
  simp only [putOnLine, hport]
  exact if_neg (by simpa using h)

/-- A frame chosen for the next frame waits for its place in it. -/
theorem putOnLine_ahead (h : w.frame ≠ (schedOf s sp p).frame) : putOnLine sp p w x pkt s =
    let c := onLine s sp p w x pkt
    setSched sp p { c with fill := dataBytes p (pierOf s sp p).fecDs, rest := c.rest ++ [⟨r, pkt.bytes, w.d⟩] } s := by
  simp only [putOnLine, hport]
  exact if_pos (by simpa using h)

end

/-- A Pier's schedule at the end of a frame's payload, with a port's bytes left for the next frame. -/
def leftOver (s : State) (sp p : Nat) (r : PortRec) (bs : List Byte) : PierSched :=
  let c := schedOf s sp p
  { c with fill := dataBytes p (pierOf s sp p).fecDs, rest := c.rest ++ [{ port := r, bytes := bs }] }

theorem putPiece_whole (h : d + pieceBytes p bs.length ≤ dataBytes p (pierOf s sp p).fecDs) : putPiece sp p d r bs s =
    sendPiece sp p (schedOf s sp p).frame d r bs (setSched sp p { schedOf s sp p with fill := d + pieceBytes p bs.length } s) :=
  if_pos h

section
variable (h : dataBytes p (pierOf s sp p).fecDs < d + pieceBytes p bs.length)
include h

theorem putPiece_fragment {n : Nat} (hroom : roomAt p (pierOf s sp p).fecDs d = some n) : putPiece sp p d r bs s =
    sendPiece sp p (schedOf s sp p).frame d r (bs.take n) (setSched sp p (leftOver s sp p r (bs.drop n)) s) := by
  simp only [putPiece, if_neg (Nat.not_le.mpr h), hroom]
  rfl

theorem putPiece_noRoom (hroom : roomAt p (pierOf s sp p).fecDs d = none) :
    putPiece sp p d r bs s = setSched sp p (leftOver s sp p r bs) s := by
  simp only [putPiece, if_neg (Nat.not_le.mpr h), hroom]
  rfl

end

theorem sendPiece_under {ix k : Nat} (h : sendKey (cnt (cOnu 11 sp r.onu) bs.length s) sp r = .under ix k) :
    sendPiece sp p frame d r bs s =
      emit (.pierTx sp p r.portId ix (ponCtr k (counterBlock p frame d) bs)) (cnt (cOnu 11 sp r.onu) bs.length s) := by
  simp only [sendPiece, h]

theorem sendPiece_clear (h : ∀ ix k, sendKey (cnt (cOnu 11 sp r.onu) bs.length s) sp r ≠ .under ix k) :
    sendPiece sp p frame d r bs s = emit (.pierTx sp p r.portId 0 bs) (cnt (cOnu 11 sp r.onu) bs.length s) := by
  unfold sendPiece
  dsimp only
  split
  · rename_i ix k hkey
    exact absurd hkey (h ix k)
  · rfl

end

/-! ### An uplink root's selection (R369, R385, R477) -/

section
variable {s : State} {n : Nat}

theorem portTakes_port (h : (portOf s n).mode ≠ 10) : portTakes s n = (portOf s n).link := if_neg h

/-- Port 22 carries the TDM block's packets in MODE 10, and port 23 none (R477). -/
theorem portTakes_tdm (h : (portOf s n).mode = 10) : portTakes s n = true ↔ n = 22 ∧ domOn s domTd = true := by
  rw [portTakes, portUp, if_pos h, Bool.and_eq_true, decide_eq_true_eq]

/-- What the four groups offer a port. -/
def portOffers (s : State) (n : Nat) : State × List (Nat × Path) := offers n [0, 1, 2, 3] s

/-- What the port's merger chooses of the groups' offers. -/
def portChoice (s : State) (n : Nat) : Option (Path × Merger) :=
  merge (mergerOf (portOffers s n).1 n) (portOffers s n).2 (portOffers s n).1

/-- A port's merger once a frame of a group has been taken: the group is charged, its deficit 0 where nothing is left (R370, R385). -/
def mergerCharged (m : Merger) (h : Path) (len : Nat) (u : State) : Merger :=
  let d := m.deficits.getD h.g 0 - (len : Int)
  let busy := (l1Under u h.g h.root).any fun e => l1Busy u h.g e.1
  { m with deficits := lset m.deficits h.g (if busy then d else 0), ptr := if d ≤ 0 then 2 * h.g + 2 else 2 * h.g + 1 }

/-- The frame taken leaves on the port, or into the TDM block. -/
def leavesPort (n mode : Nat) (k : Packet) (z : State) : State :=
  if mode = 10 then cePacketIn k.bytes z else sendOnPort n k.bytes k.injected z

theorem uplinkSelect_idle (h : portTakes s n = false) : uplinkSelect n s = s := if_pos (by rw [h]; rfl)

section
variable (htakes : portTakes s n = true)
include htakes

theorem uplinkSelect_nothing (h : portChoice s n = none) : uplinkSelect n s = (portOffers s n).1 := by
  rw [portChoice, portOffers] at h
  simp only [uplinkSelect, htakes, h, portOffers, Bool.not_true, Bool.false_eq_true, if_false]

variable {h : Path} {m : Merger} (hc : portChoice s n = some (h, m))
include hc

theorem uplinkSelect_misses (hdesc : hasDesc (portOffers s n).1 h.q = false) : uplinkSelect n s = missDesc h.q (portOffers s n).1 := by
  rw [portChoice, portOffers] at hc
  rw [portOffers] at hdesc ⊢
  simp only [uplinkSelect, htakes, hc, hdesc, Bool.not_true, Bool.not_false, Bool.false_eq_true, if_false, if_true]

variable (hdesc : hasDesc (portOffers s n).1 h.q = true)
include hdesc

theorem uplinkSelect_gone (htake : takeHead h.q (portOffers s n).1 = none) : uplinkSelect n s = (portOffers s n).1 := by
  rw [portChoice, portOffers] at hc
  rw [portOffers] at hdesc htake ⊢
  simp only [uplinkSelect, htakes, hc, hdesc, htake, Bool.not_true, Bool.false_eq_true, if_false]

theorem uplinkSelect_sends {k : Packet} {u : State} (htake : takeHead h.q (portOffers s n).1 = some (k, u)) : uplinkSelect n s =
    leavesPort n (portOf (portOffers s n).1 n).mode k
      (chargePath h.q k.bytes.length (some h) (setMerger n (mergerCharged m h k.bytes.length u) u)) := by
  rw [portChoice, portOffers] at hc
  rw [portOffers] at hdesc htake ⊢
  simp only [uplinkSelect, htakes, hc, hdesc, htake, Bool.not_true, Bool.false_eq_true, if_false, leavesPort, mergerCharged]
  cases (l1Under u h.g h.root).any fun e => l1Busy u h.g e.1 <;> rfl

end

end

/-- Settles O47: a selection's cases by what the Pier or port can send, what is due or eligible there, and its descriptor. -/
theorem schedulersSelectWhatMaySend : Obligations.SchedulersSelectWhatMaySend := by
  unfold Obligations.SchedulersSelectWhatMaySend
  refine ⟨fun s sp p n => ⟨⟨_, rfl, rfl⟩, _, rfl⟩, fun s sp p i hi => ?pier, fun s n => ?uplink⟩
  case pier =>
    have hexec {t : State} (h : pierSelect sp p s = t) : exec i s = .next t := by
      rcases hi with rfl | rfl <;> exact congrArg Host.Outcome.next h
    refine ⟨fun h => hexec (pierSelect_idle h), fun hsends hw => hexec (pierSelect_noSpot hsends hw), fun w hsends hw => ?select,
      fun l e => firstTimed_least, fun w q x l late k rest hk => ?timed, fun w x pkt r hport => ?line, fun d r bs => ?piece,
      fun frame d r bs => ⟨fun ix k => sendPiece_under, sendPiece_clear⟩⟩
    case select =>
      have hchosen (ht : dueTimed s sp p w = none) := pierSelect_chosen hsends hw ht
      rw [pierChoice, passedOver, headsSeen_eq] at hchosen
      refine ⟨fun e he => hexec (pierSelect_timed hsends hw he), fun ht hc => hexec ((hchosen ht).trans (chosenGoes_none hc)),
        fun h ht hc hdesc => hexec ((hchosen ht).trans (chosenGoes_misses hc hdesc)),
        fun h ht hc hdesc htake => hexec ((hchosen ht).trans (chosenGoes_gone hc hdesc htake)),
        fun h x k rest ht hc hdesc hx hk => ⟨_, takeHead_head hx hk,
          hexec ((hchosen ht).trans (chosenGoes_sends hc hdesc hx (takeHead_head hx hk)))⟩⟩
    case timed =>
      refine ⟨fun hfits => timedStep_late hk ((gateFits_head hk).trans hfits),
        fun hfits => timedStep_becomes_late hk ((gateFits_head hk).trans hfits),
        fun hfits => timedStep_drops hk ((gateFits_head hk).trans hfits),
        fun hfits => timedStep_misses hk ((gateFits_head hk).trans hfits), fun pkt u hfits hdesc htake => ?_⟩
      have hsent := timedStep_sends (l := l) (late := late) hk ((gateFits_head hk).trans hfits) hdesc htake
      exact ⟨fun hheld => hsent.trans (by rw [if_pos (heldUp_iff.mpr hheld)]),
        fun hfree => hsent.trans (by rw [if_neg (mt heldUp_iff.mp hfree)])⟩
    case line => exact ⟨putOnLine_now hport, putOnLine_ahead hport⟩
    case piece => exact ⟨putPiece_whole, fun n h => putPiece_fragment h, putPiece_noRoom⟩
  case uplink =>
    refine ⟨fun h => congrArg Host.Outcome.next (uplinkSelect_idle h), portTakes_port, portTakes_tdm, fun htakes => ?_⟩
    have hexec {t : State} (h : uplinkSelect n s = t) : exec (.uplinkSchedSelect n) s = .next t := congrArg Host.Outcome.next h
    refine ⟨fun hc => hexec (uplinkSelect_nothing htakes hc), fun h m hc hdesc => hexec (uplinkSelect_misses htakes hc hdesc),
      fun h m hc hdesc htake => hexec (uplinkSelect_gone htakes hc hdesc htake), fun h m x k rest hc hdesc hx hk =>
      ⟨_, takeHead_head hx hk, ?_⟩⟩
    have hsent := uplinkSelect_sends htakes hc hdesc (takeHead_head hx hk)
    exact ⟨fun hmode => hexec (hsent.trans (if_neg hmode)), fun hmode => hexec (hsent.trans (if_pos hmode))⟩

end Sys2Proof.Machine

/-! PROOFS. How the body of a call goes on past its tests: the step that each of the bodies below takes again and again. -/

namespace Sys2Proof.Machine

section
variable {α : Type} {b : Bool} {st : Status} {f : Unit → Res α}

/-- A test that fails refuses the call. -/
theorem need_bind_error (h : b = false) : (need b st >>= f) = .error st := by
  rw [need_of_false h, res_bind_error]

/-- A body goes on past a test that holds. -/
theorem need_bind_ok (h : b = true) : (need b st >>= f) = f () := by
  rw [need_of_true h, res_bind_ok]

end

end Sys2Proof.Machine

/-! PROOFS. The calls of family 0x0B that act at once or read (R437 to R441, R444, R449): what the body of each gives. -/

namespace Sys2Proof.Machine

section
variable {ws : List Word} {s : State}

/-- The optics of the Pier that a call names. -/
def opticNamed (ws : List Word) (s : State) : Optic := opticOf s (fld (pw ws 0) 12 8) (fld (pw ws 0) 1 0)

/-! ### `OPTICS_START` (R439, R441) -/

theorem opticsStart_badArg (h : 2 < fld (pw ws 0) 1 0) : opticsStart ws s = (s, .badArg) := if_pos h

section
variable (hpier : fld (pw ws 0) 1 0 ≤ 2)
include hpier

/-- A start while the optics stop waits, the first of them with its bias (R441). -/
def startWaits (ws : List Word) (s : State) : State :=
  let x := opticNamed ws s
  if x.startPending.isSome = true then s
  else setOptic (fld (pw ws 0) 12 8) (fld (pw ws 0) 1 0) { x with startPending := some (fld (pw ws 1) 15 0) } s

/-- Past the check, the state of the optics decides. -/
theorem opticsStart_by_state {st : OptSt} (h : (opticNamed ws s).st = st) : opticsStart ws s =
    match (generalizing := false) st with
    | .off => (opticWarm (fld (pw ws 0) 12 8) (fld (pw ws 0) 1 0) (fld (pw ws 1) 15 0) s, .done)
    | .stopping => (startWaits ws s, .pending)
    | _ => (s, .badState) := by
  subst h
  exact if_neg (Nat.not_lt.mpr hpier)

theorem opticsStart_badState (hoff : (opticNamed ws s).st ≠ .off) (hstop : (opticNamed ws s).st ≠ .stopping) :
    opticsStart ws s = (s, .badState) := by
  rw [opticsStart_by_state hpier rfl]
  split
  · exact absurd ‹_› hoff
  · exact absurd ‹_› hstop
  · rfl

end

theorem exec_opticsStart {c : Call} {t : State} {st : Status} (hserved : Served opticsStartSpec c s)
    (h : opticsStart c.words (readCall 0x0B10 c s) = (t, st)) : exec (.opticsStart c) s = .next (respond 0x0B10 c st [] t) := by
  refine (serve_served hserved fun u => respond 0x0B10 c (opticsStart c.words u).2 [] (opticsStart c.words u).1).trans ?_
  have h' : opticsStart c.words (readCall opticsStartSpec.code c s) = (t, st) := h
  rw [h']

end

/-! ### `OPTICS_STOP` (R437, R441) -/

section
variable {code : Nat} {c : Call} {s : State}

/-- Whether the Span of the Pier that a call names is open or opens, where its optics may not stop (R437). -/
def spanInUse (ws : List Word) (s : State) : Prop :=
  (spanOf s (fld (pw ws 0) 12 8)).st = .opened ∨ (spanOf s (fld (pw ws 0) 12 8)).st = .opening

/-- A stop waits for the end of STOPPING, and drops a start that waited (R441). -/
def stopWaits (code : Nat) (c : Call) (s : State) : State :=
  modOptic (fld (pw c.words 0) 12 8) (fld (pw c.words 0) 1 0)
    (fun x => { x with stopRefs := x.stopRefs ++ [refFor code c s], startPending := none }) (defer_ (refFor code c s) s)

theorem opticsStop_badArg (h : 2 < fld (pw c.words 0) 1 0) : opticsStop code c s = respond code c .badArg [] s := if_pos h

section
variable (hpier : fld (pw c.words 0) 1 0 ≤ 2)
include hpier

theorem opticsStop_inUse (h : spanInUse c.words s) : opticsStop code c s = respond code c .badState [] s :=
  (if_neg (Nat.not_lt.mpr hpier)).trans (if_pos (by simpa [spanInUse] using h))

/-- Past the checks, the state of the optics decides. -/
theorem opticsStop_by_state {st : OptSt} (hfree : ¬ spanInUse c.words s) (h : (opticNamed c.words s).st = st) : opticsStop code c s =
    match (generalizing := false) st with
    | .off => respond code c .done [] s
    | .fault => respond code c .badState [] s
    | _ => if st = .stopping then stopWaits code c s
        else opticStopping (fld (pw c.words 0) 12 8) (fld (pw c.words 0) 1 0) (stopWaits code c s) := by
  subst h
  have hidle : ¬ (decide ((spanOf s (fld (pw c.words 0) 12 8)).st = .opened) || decide ((spanOf s (fld (pw c.words 0) 12 8)).st = .opening)) = true := by
    simpa [spanInUse] using hfree
  exact (if_neg (Nat.not_lt.mpr hpier)).trans (if_neg hidle)

theorem opticsStop_badState (h : spanInUse c.words s ∨ (opticNamed c.words s).st = .fault) :
    opticsStop code c s = respond code c .badState [] s := by
  by_cases hin : spanInUse c.words s
  · exact opticsStop_inUse hpier hin
  · exact opticsStop_by_state hpier hin (h.resolve_left hin)

theorem opticsStop_stops (hfree : ¬ spanInUse c.words s)
    (h : (opticNamed c.words s).st = .lit ∨ (opticNamed c.words s).st = .standby ∨ (opticNamed c.words s).st = .warming) :
    opticsStop code c s = opticStopping (fld (pw c.words 0) 12 8) (fld (pw c.words 0) 1 0) (stopWaits code c s) := by
  rcases h with h | h | h <;> exact opticsStop_by_state hpier hfree h

end

end

/-! ### The end of a fault (R438), and the reads (R444, R449) -/

section
variable {ch : Nat} {ws : List Word} {s : State}

theorem opticsFaultClear_eq : opticsFaultClear ws s =
    let sp := fld (pw ws 0) 12 8
    let p := fld (pw ws 0) 1 0
    need (p ≤ 2) .badArg >>= fun _ => need ((opticNamed ws s).st = .fault) .badState >>= fun _ =>
      .ok (shutLoop 2 2 sp p (modOptic sp p (fun x => { x with st := .off }) s), []) := rfl

theorem opticsFaultClear_badArg (h : 2 < fld (pw ws 0) 1 0) : opticsFaultClear ws s = .error .badArg :=
  opticsFaultClear_eq.trans (need_bind_error (decide_eq_false (Nat.not_le.mpr h)))

theorem opticsStatus_badArg (h : 2 < fld (pw ws 0) 1 0) : opticsStatus ws s = .error .badArg :=
  need_bind_error (decide_eq_false (Nat.not_le.mpr h))

theorem loopRead_badArg (h : 35 < fld (pw ws 0) 5 0) : loopRead ws s = .error .badArg :=
  need_bind_error (decide_eq_false (Nat.not_le.mpr h))

theorem rssiReadCall_notOwner (h : needOnu s ch (pw ws 0) ≠ .ok ()) : rssiReadCall ch ws s = .error .notOwner := by
  simp only [rssiReadCall, needOnu_not_ok h, res_bind_error]

section
variable (hpier : fld (pw ws 0) 1 0 ≤ 2)
include hpier

theorem opticsFaultClear_badState (h : (opticNamed ws s).st ≠ .fault) : opticsFaultClear ws s = .error .badState :=
  opticsFaultClear_eq.trans ((need_bind_ok (decide_eq_true hpier)).trans (need_bind_error (decide_eq_false h)))

/-- A fault ends in OFF, with the APD loop's output at OFF_CODE (R438, R439). -/
theorem opticsFaultClear_done (h : (opticNamed ws s).st = .fault) : opticsFaultClear ws s =
    let sp := fld (pw ws 0) 12 8
    let p := fld (pw ws 0) 1 0
    .ok (shutLoop 2 2 sp p (modOptic sp p (fun x => { x with st := .off }) s), []) :=
  opticsFaultClear_eq.trans ((need_bind_ok (decide_eq_true hpier)).trans (need_bind_ok (decide_eq_true h)))

theorem opticsStatus_done : opticsStatus ws s =
    let x := opticNamed ws s
    .ok [putb x.settled 31 ||| put x.st.code 16 ||| put (x.causes.getD 2 0) 8 ||| put (x.causes.getD 1 0) 4 ||| wd (x.causes.getD 0 0),
      wd ((stbyBias x).getD 0)] :=
  need_bind_ok (decide_eq_true hpier)

end

theorem loopRead_done (hloop : fld (pw ws 0) 5 0 ≤ 35) : loopRead ws s =
    let l := loopOf s (fld (pw ws 0) 18 16) (fld (pw ws 0) 5 0)
    .ok [put l.x 16 ||| wd (unsgn 16 l.u), wd (unsgn 32 l.i), putb l.settled 31 ||| put l.fault 16 ||| wd (unsgn 16 l.e)] :=
  need_bind_ok (decide_eq_true hloop)

theorem rssiReadCall_done (hmay : needOnu s ch (pw ws 0) = .ok ()) : rssiReadCall ch ws s =
    let x := rssiOf s (fld (pw ws 0) 4 0) (fld (pw ws 0) 24 16)
    .ok ((put x.miss 16 ||| wd x.ok) :: toWords 2 x.okTime) := by
  simp only [rssiReadCall, onuName, hmay, res_bind_ok]
  rfl

end

/-- Settles O37: each call by the state of the Pier's optics that it finds, and each read by what its body gives. -/
theorem opticsStartStopAndRead : Obligations.OpticsStartStopAndRead := by
  unfold Obligations.OpticsStartStopAndRead
  intro c s w sp p
  refine ⟨fun hserved => ?start, fun hserved => ?stop, fun hserved => ?clear, fun hserved => ?status, fun hserved => ?loop,
    fun hserved => ?rssi, fun hserved => serveRead_done hserved (fun s => .ok (convRead c.words s)) rfl⟩
  case start =>
    exact ⟨fun h => exec_opticsStart hserved (opticsStart_badArg h), fun hpier h => exec_opticsStart hserved (opticsStart_by_state hpier (st := .off) h),
      fun hpier h => exec_opticsStart hserved (opticsStart_by_state hpier (st := .stopping) h),
      fun hpier hoff hstop => exec_opticsStart hserved (opticsStart_badState hpier hoff hstop)⟩
  case stop =>
    have hexec {t : State} (h : opticsStop 0x0B11 c (readCall 0x0B11 c s) = t) : exec (.opticsStop c) s = .next t :=
      (serve_served hserved (opticsStop 0x0B11 c)).trans (congrArg Host.Outcome.next h)
    exact ⟨fun h => hexec (opticsStop_badArg h), fun hpier h => hexec (opticsStop_badState hpier h),
      fun hpier hfree h => hexec (opticsStop_by_state hpier (st := .off) hfree h), fun hpier hfree h => hexec (opticsStop_stops hpier hfree h),
      fun hpier hfree h => hexec (opticsStop_by_state hpier (st := .stopping) hfree h)⟩
  case clear =>
    exact ⟨fun h => serveAct_refused hserved _ (opticsFaultClear_badArg h),
      fun hpier h => serveAct_refused hserved _ (opticsFaultClear_badState hpier h),
      fun hpier h => serveAct_done hserved _ (opticsFaultClear_done hpier h)⟩
  case status =>
    exact ⟨fun h => serveRead_refused hserved _ (opticsStatus_badArg h), fun hpier => serveRead_done hserved _ (opticsStatus_done hpier)⟩
  case loop =>
    exact ⟨fun h => serveRead_refused hserved _ (loopRead_badArg h), fun hloop => serveRead_done hserved _ (loopRead_done hloop)⟩
  case rssi =>
    exact ⟨fun h => serveRead_refused hserved _ (rssiReadCall_notOwner h), fun hmay => serveRead_done hserved _ (rssiReadCall_done hmay)⟩

end Sys2Proof.Machine

/-! PROOFS. Lanes start and stop, detect and train (R453, R454, R457 to R461, R470 to R472): one lemma per case of each command. -/

namespace Sys2Proof.Machine

section
variable {n : Nat} {s : State}

/-! ### The ends of STARTING and STOPPING (R453, R454) -/

theorem laneOn_elsewhere (h : (laneOf s n).st ≠ .starting) : laneOn n s = s := if_pos h

theorem laneOn_starts (h : (laneOf s n).st = .starting) : laneOn n s = forEach (laneOf s n).onRefs (fun r => answer r .done [])
    (onLane n (fun t => adapted n (train n (setLane n
      { laneOf s n with st := .on, onRefs := [], trained := none, training := false, must := trains t n } t))) s) :=
  if_neg (not_not.mpr h)

theorem laneOff_elsewhere (h : (laneOf s n).st ≠ .stopping) : laneOff n s = s := if_pos h

/-- A lane that has stopped, its OFF calls answered (R454). -/
def stopped (n : Nat) (s : State) : State :=
  forEach (laneOf s n).offRefs (fun r => answer r .done []) (setLane n { laneOf s n with st := .off, offRefs := [], onPending := false } s)

section
variable (h : (laneOf s n).st = .stopping)
include h

theorem laneOff_stays (hoff : (laneOf s n).onPending = false ∨ domOn (stopped n s) (domOfLane n) = false) : laneOff n s = stopped n s := by
  refine (if_neg (not_not.mpr h)).trans (if_neg fun hgo => ?_)
  obtain ⟨hpending, hdom⟩ := Bool.and_eq_true_iff.mp hgo
  rcases hoff with hoff | hoff
  · exact Bool.false_ne_true (hoff.symm.trans hpending)
  · exact Bool.false_ne_true (hoff.symm.trans hdom)

theorem laneOff_startsAgain (hpending : (laneOf s n).onPending = true) (hdom : domOn (stopped n s) (domOfLane n) = true) :
    laneOff n s = modLane n (fun x => { x with st := .starting, onRefs := [] }) (stopped n s) :=
  (if_neg (not_not.mpr h)).trans (if_pos (Bool.and_eq_true_iff.mpr ⟨hpending, hdom⟩))

end

/-! ### `LANE_ENABLE` (R453, R454) -/

theorem laneNamed_iff : laneNamed n true = true ↔ n ≤ 27 ∨ 32 ≤ n := by
  simp [laneNamed]

end

section
variable {code : Nat} {c : Call} {s : State}

/-- The lane that a call names. -/
def laneIn (c : Call) : Nat := fld (pw c.words 0) 6 0

theorem laneEnableOn_badArg (h : laneNamed (laneIn c) true = false) : laneEnableOn code c s = respond code c .badArg [] s :=
  if_pos (by rw [← laneIn, h]; rfl)

theorem laneEnableOff_badArg (h : laneNamed (laneIn c) true = false) : laneEnableOff code c s = respond code c .badArg [] s :=
  if_pos (by rw [← laneIn, h]; rfl)

section
variable (hnamed : laneNamed (laneIn c) true = true)
include hnamed

theorem laneEnableOn_badState (h : domOn s (domOfLane (laneIn c)) = false) : laneEnableOn code c s = respond code c .badState [] s :=
  (if_neg (by rw [← laneIn, hnamed]; decide)).trans (if_pos (by rw [← laneIn, h]; rfl))

/-- Where its domain is ON, the state of the lane decides. -/
theorem laneEnableOn_by_state {st : LaneSt} (hdom : domOn s (domOfLane (laneIn c)) = true) (h : (laneOf s (laneIn c)).st = st) :
    laneEnableOn code c s = match (generalizing := false) st with
      | .on => respond code c .done [] s
      | .off => laneStart (laneIn c) [refFor code c s] (defer_ (refFor code c s) s)
      | .starting => modLane (laneIn c) (fun x => { x with onRefs := x.onRefs ++ [refFor code c s] }) (defer_ (refFor code c s) s)
      | .stopping => respond code c .pending [] (setLane (laneIn c) { laneOf s (laneIn c) with onPending := true } s) := by
  subst h
  exact (if_neg (by rw [← laneIn, hnamed]; decide)).trans (if_neg (by rw [← laneIn, hdom]; decide))

/-- Whether a Pier's lane is ON with its Span not closed, which keeps it ON (R453). -/
def heldOn (c : Call) (s : State) : Prop :=
  (laneOf s (laneIn c)).st = .on ∧ 32 ≤ laneIn c ∧ (spanOf s (spanOfLane (laneIn c))).st ≠ .closed

theorem laneEnableOff_off (h : (laneOf s (laneIn c)).st = .off) : laneEnableOff code c s = respond code c .done [] s := by
  refine (if_neg (by rw [← laneIn, hnamed]; decide)).trans ?_
  rw [laneIn] at h
  simp only [h]

theorem laneEnableOff_stopping (h : (laneOf s (laneIn c)).st = .stopping) : laneEnableOff code c s =
    modLane (laneIn c) (fun x => { x with onPending := false, offRefs := x.offRefs ++ [refFor code c s] }) (defer_ (refFor code c s) s) := by
  refine (if_neg (by rw [← laneIn, hnamed]; decide)).trans ?_
  rw [laneIn] at h
  simp only [h]
  rfl

theorem laneEnableOff_held (h : heldOn c s) : laneEnableOff code c s = respond code c .badState [] s := by
  obtain ⟨hon, hpier, hspan⟩ := h
  refine (if_neg (by rw [← laneIn, hnamed]; decide)).trans ?_
  rw [laneIn] at hon hpier hspan
  simp only [hon, decide_eq_true hpier, decide_eq_true hspan, decide_true, Bool.and_self, if_true]

/-- A lane that may stop does, and the ON calls that STARTING would have answered are refused (R453; assumption 24). -/
theorem laneEnableOff_stops (h : (laneOf s (laneIn c)).st = .on ∨ (laneOf s (laneIn c)).st = .starting) (hfree : ¬ heldOn c s) :
    laneEnableOff code c s = forEach (laneOf s (laneIn c)).onRefs (fun r => answer r .badState [])
      (modLane (laneIn c) (fun x => { x with offRefs := x.offRefs ++ [refFor code c s] })
        (laneStop (laneIn c) (defer_ (refFor code c s) s))) := by
  have hgoes : ¬ ((laneOf s (laneIn c)).st = .on && decide (32 ≤ laneIn c) &&
      decide ((spanOf s (spanOfLane (laneIn c))).st ≠ .closed)) = true := fun hheld => hfree (by simpa [heldOn, and_assoc] using hheld)
  refine (if_neg (by rw [← laneIn, hnamed]; decide)).trans ?_
  rw [laneIn] at h hgoes
  rcases h with h | h <;> rw [h] at hgoes <;> simp only [h] <;> exact if_neg hgoes

end

/-- `LANE_ENABLE` with its ON bit is ON, without it OFF. -/
theorem exec_laneEnable_on {t : State} (hserved : Served laneEnableSpec c s) (hon : bit (pw c.words 0) 8 = true)
    (h : laneEnableOn 0x0C02 c (readCall 0x0C02 c s) = t) : exec (.laneEnableOn c) s = .next (andSet (laneIn c) t) :=
  (serve_served hserved (laneEnable c)).trans (congrArg (Host.Outcome.next ∘ andSet (laneIn c)) ((if_pos hon).trans h))

theorem exec_laneEnable_off {t : State} (hserved : Served laneEnableSpec c s) (hoff : ¬ bit (pw c.words 0) 8 = true)
    (h : laneEnableOff 0x0C02 c (readCall 0x0C02 c s) = t) : exec (.laneEnableOn c) s = .next (andSet (laneIn c) t) :=
  (serve_served hserved (laneEnable c)).trans (congrArg (Host.Outcome.next ∘ andSet (laneIn c)) ((if_neg hoff).trans h))

/-- No Hawser lane is without a name, so that a refusal for the number moves no lane set (R468). -/
theorem andSet_unnamed {n : Nat} {t : State} (h : laneNamed n true = false) : andSet n t = t := by
  refine if_neg fun hset => ?_
  have hrange : ¬ (n ≤ 27 ∨ 32 ≤ n) := fun hn => Bool.false_ne_true (h.symm.trans (laneNamed_iff.mpr hn))
  simp only [Bool.and_eq_true, decide_eq_true_eq] at hset
  omega

end

/-! ### Detectors (R459 to R461, R472) -/

section
variable {n : Nat} {s : State}

theorem losDeclare_declares (hawake : laneAwake s n = true) (hlos : (laneOf s n).los = false) (hn : n < 28) :
    losDeclare n s = cnt (cLane 0 n) 1 (onLane n (modLane n fun x => { x with los := true }) s) := if_neg (by simp [hawake, hlos, hn])

theorem losDeclare_idle (h : ¬ (laneAwake s n = true ∧ (laneOf s n).los = false ∧ n < 28)) : losDeclare n s = s :=
  if_pos (by simp only [not_and_or] at h; simpa [or_assoc] using h)

theorem rxLolDeclare_declares (hawake : laneAwake s n = true) (hlol : (laneOf s n).rxLol = false) (hn : n < 28) :
    rxLolDeclare n s = cnt (cLane 1 n) 1 (onLane n (modLane n fun x => { x with rxLol := true }) s) := if_neg (by simp [hawake, hlol, hn])

theorem rxLolDeclare_idle (h : ¬ (laneAwake s n = true ∧ (laneOf s n).rxLol = false ∧ n < 28)) : rxLolDeclare n s = s :=
  if_pos (by simp only [not_and_or] at h; simpa [or_assoc] using h)

theorem losClear_clears (h : (laneOf s n).los = true) : losClear n s = onLane n (modLane n fun x => { x with los := false }) s := if_pos h
theorem losClear_idle (h : (laneOf s n).los = false) : losClear n s = s := if_neg (Bool.eq_false_iff.mp h)
theorem rxLolClear_clears (h : (laneOf s n).rxLol = true) : rxLolClear n s = onLane n (modLane n fun x => { x with rxLol := false }) s := if_pos h
theorem rxLolClear_idle (h : (laneOf s n).rxLol = false) : rxLolClear n s = s := if_neg (Bool.eq_false_iff.mp h)

/-! ### Training (R456 to R458) -/

theorem tapIn_le {hi : Nat} {v : Int} : tapIn hi v ≤ hi := by
  have hmem := clampI_mem (lo := 0) (hi := (hi : Int)) (x := v) (by omega)
  unfold tapIn
  omega

/-- The taps that training leaves lie in their ranges, and their sum too: POST yields (R456; assumption 161). -/
theorem taps_in_range (pre post : Int) :
    tapIn 16 pre ≤ 16 ∧ tapIn (postMax (tapIn 16 pre)) post ≤ 24 ∧ tapIn 16 pre + tapIn (postMax (tapIn 16 pre)) post ≤ 32 := by
  have hpre : tapIn 16 pre ≤ 16 := tapIn_le
  have hpost : tapIn (postMax (tapIn 16 pre)) post ≤ postMax (tapIn 16 pre) := tapIn_le
  have hmost : postMax (tapIn 16 pre) = min 24 (32 - tapIn 16 pre) := rfl
  omega

theorem trainComplete_ends {pre post : Int} (h : (laneOf s n).training = true) : trainComplete n pre post s =
    let a := tapIn 16 pre
    onLane n (fun t => adapted n (modLane n (fun x => { x with training := false, trained := some (a, tapIn (postMax a) post) }) t))
      (emit (.trainStatus n (tapStatus 16 pre) (tapStatus (postMax a) post)) s) := if_neg (by rw [h]; decide)

theorem trainTimeout_ends (h : (laneOf s n).training = true) :
    trainTimeout n s = cnt (cLane 10 n) 1 (setLane n { laneOf s n with training := false } s) := if_neg (by rw [h]; decide)

theorem trainComplete_idle {pre post : Int} (h : (laneOf s n).training = false) : trainComplete n pre post s = s := if_pos (by rw [h]; rfl)
theorem trainTimeout_idle (h : (laneOf s n).training = false) : trainTimeout n s = s := if_pos (by rw [h]; rfl)

theorem trainRetry_trains (hon : (laneOf s n).st = .on) (hmust : (laneOf s n).must = true) (hnone : (laneOf s n).trained = none)
    (hidle : (laneOf s n).training = false) : trainRetry n s = train n s := if_pos (by simp [hon, hmust, hnone, hidle])

theorem trainRetry_idle (h : (laneOf s n).st ≠ .on ∨ (laneOf s n).must = false ∨ (laneOf s n).trained ≠ none ∨ (laneOf s n).training = true) :
    trainRetry n s = s := by
  refine if_neg fun hgo => ?_
  simp only [Bool.and_eq_true, decide_eq_true_eq, Option.isNone_iff_eq_none, Bool.not_eq_true'] at hgo
  obtain ⟨⟨⟨hon, hmust⟩, hnone⟩, hidle⟩ := hgo
  rcases h with h | h | h | h
  · exact h hon
  · exact Bool.false_ne_true (h.symm.trans hmust)
  · exact h hnone
  · exact Bool.false_ne_true (hidle.symm.trans h)

theorem train_idle (h : trains s n = false) : train n s = s := if_neg (Bool.eq_false_iff.mp h)

theorem train_asks (h : trains s n = true) : train n s =
    emit (.trainAsk n (Config.freeNat s.free)) (drawn (setLane n { laneOf s n with training := true, trained := none } s)) := if_pos h

/-! ### The PCIe link (R470 to R472) -/

theorem pcieLink_untrainable {speed width : Nat} (h : pcieTrains speed width = false) : pcieLink speed width s = s := if_pos (by rw [h]; rfl)

theorem pcieLink_trains {speed width : Nat} (h : pcieTrains speed width = true) : pcieLink speed width s =
    raise 797 [] [put speed 8 ||| wd width] (drawn { s with lane := { s.lane with
      pcie := { s.lane.pcie with speed := speed, width := width, down := width = 0, mps := 128 * 2 ^ (Config.freeNat s.free % 3) } } }) :=
  if_neg (by rw [h]; decide)

end

/-- Settles O38: each end of a state, each case of the call and each report by the lane that it finds. -/
theorem lanesStartStopAndDetect : Obligations.LanesStartStopAndDetect := by
  unfold Obligations.LanesStartStopAndDetect
  refine ⟨fun s => ⟨fun n => ?ends, fun _ => rfl, fun c hserved => ?call⟩, fun s n => ?shows⟩
  case ends =>
    exact ⟨fun h => congrArg (Host.Outcome.next ∘ andSet n) (laneOn_starts h), fun h => congrArg (Host.Outcome.next ∘ andSet n) (laneOn_elsewhere h),
      fun h => ⟨fun hoff => congrArg Host.Outcome.next (laneOff_stays h hoff),
        fun hpending hdom => congrArg Host.Outcome.next (laneOff_startsAgain h hpending hdom)⟩,
      fun h => congrArg Host.Outcome.next (laneOff_elsewhere h)⟩
  case call =>
    intro u n x r gives on named
    have hname : named ↔ laneNamed (laneIn c) true = true := laneNamed_iff.symm
    refine ⟨fun h => ?unnamed, fun h hon hdom => ?unpowered, fun h hon hdom => ?starts, fun h hoff => ?stops⟩
    case unnamed =>
      have hnot : laneNamed (laneIn c) true = false := Bool.eq_false_iff.mpr (mt hname.mpr h)
      by_cases hon : on
      · exact (exec_laneEnable_on hserved hon (laneEnableOn_badArg hnot)).trans (congrArg Host.Outcome.next (andSet_unnamed hnot))
      · exact (exec_laneEnable_off hserved hon (laneEnableOff_badArg hnot)).trans (congrArg Host.Outcome.next (andSet_unnamed hnot))
    case unpowered => exact exec_laneEnable_on hserved hon (laneEnableOn_badState (hname.mp h) hdom)
    case starts =>
      exact ⟨fun hst => exec_laneEnable_on hserved hon (laneEnableOn_by_state (hname.mp h) (st := .off) hdom hst),
        fun hst => exec_laneEnable_on hserved hon (laneEnableOn_by_state (hname.mp h) (st := .on) hdom hst),
        fun hst => exec_laneEnable_on hserved hon (laneEnableOn_by_state (hname.mp h) (st := .starting) hdom hst),
        fun hst => exec_laneEnable_on hserved hon (laneEnableOn_by_state (hname.mp h) (st := .stopping) hdom hst)⟩
    case stops =>
      exact ⟨fun hst => exec_laneEnable_off hserved hoff (laneEnableOff_off (hname.mp h) hst),
        fun hheld => exec_laneEnable_off hserved hoff (laneEnableOff_held (hname.mp h) hheld),
        fun hst hfree => exec_laneEnable_off hserved hoff (laneEnableOff_stops (hname.mp h) hst hfree),
        fun hst => exec_laneEnable_off hserved hoff (laneEnableOff_stopping (hname.mp h) hst)⟩
  case shows =>
    have hdetects {i : Instr} {f : Nat → State → State} {t : State} (hi : exec i s = .next (freqWatch (andSet n (f n s)))) (h : f n s = t) :
        exec i s = .next (freqWatch (andSet n t)) := hi.trans (congrArg (Host.Outcome.next ∘ freqWatch ∘ andSet n) h)
    refine ⟨⟨fun ⟨hawake, hlos, hn⟩ => hdetects rfl (losDeclare_declares hawake hlos hn), fun h => hdetects rfl (losDeclare_idle h)⟩,
      fun h => congrArg Host.Outcome.next (losClear_clears h), fun h => congrArg Host.Outcome.next (losClear_idle h),
      ⟨fun ⟨hawake, hlol, hn⟩ => hdetects rfl (rxLolDeclare_declares hawake hlol hn), fun h => hdetects rfl (rxLolDeclare_idle h)⟩,
      fun h => congrArg Host.Outcome.next (rxLolClear_clears h), fun h => congrArg Host.Outcome.next (rxLolClear_idle h),
      fun pre post h => ⟨congrArg Host.Outcome.next (trainComplete_ends h), taps_in_range pre post⟩,
      fun h => congrArg Host.Outcome.next (trainTimeout_ends h),
      fun h => ⟨fun _ _ => congrArg Host.Outcome.next (trainComplete_idle h), congrArg Host.Outcome.next (trainTimeout_idle h)⟩,
      fun hon hmust hnone hidle => congrArg Host.Outcome.next (trainRetry_trains hon hmust hnone hidle),
      fun h => congrArg Host.Outcome.next (trainRetry_idle h), train_idle, train_asks, fun _ _ _ _ => rfl,
      fun _ _ => ⟨fun h => congrArg Host.Outcome.next (pcieLink_untrainable h), fun h => congrArg Host.Outcome.next (pcieLink_trains h)⟩, fun _ => rfl⟩

end Sys2Proof.Machine

/-! PROOFS. The calls of family 0x0C that set a port's mode and a lane's settings, and the reads of lanes, Hawser and PCIe (R451, R452,
R456 to R459, R465, R466, R468, R470, R474): what the body of each gives. -/

namespace Sys2Proof.Machine

section
variable {ws : List Word} {s : State}

/-! ### `PORT_MODE_SET` (R451, R452, R465; assumptions 25 and 162) -/

/-- Whether a port may take a mode with its FEC. -/
def modeFits (port mode fec : Nat) : Prop := port ≤ 23 ∧ modeAllowed mode port = true ∧ fecAllowed mode fec = true

/-- Whether every lane that a port has, or would have in a mode, is OFF, and no other port's. -/
def lanesFree (s : State) (port mode : Nat) : Prop :=
  (∀ i ∈ lanesOf s port, (laneOf s i).st = .off) ∧
    ∀ i < portLanes mode, (laneOf s (port + i)).st = .off ∧ (portOfLane s (port + i) = none ∨ portOfLane s (port + i) = some port)

/-- Whether the lanes that a port has, or would have in a mode, are all OFF. -/
def lanesIdle (s : State) (port mode : Nat) : Bool :=
  (lanesOf s port ++ (List.range (portLanes mode)).map (port + ·)).all fun n => (laneOf s n).st = .off

/-- Whether no other port has taken in a lane that a port would have in a mode (R452; assumption 25). -/
def lanesUnshared (s : State) (port mode : Nat) : Bool :=
  (List.range (portLanes mode)).all fun i => match portOfLane s (port + i) with | some p => p = port | none => true

theorem lanesUnshared_iff {port mode : Nat} : lanesUnshared s port mode = true ↔
    ∀ i < portLanes mode, portOfLane s (port + i) = none ∨ portOfLane s (port + i) = some port := by
  simp only [lanesUnshared, List.all_eq_true, List.mem_range]
  refine forall₂_congr fun i _ => ?_
  cases portOfLane s (port + i) <;> simp

theorem lanesFree_iff {port mode : Nat} : lanesFree s port mode ↔ lanesIdle s port mode = true ∧ lanesUnshared s port mode = true := by
  rw [lanesUnshared_iff]
  simp only [lanesFree, lanesIdle, List.all_append, List.all_map, Bool.and_eq_true, List.all_eq_true, Function.comp_apply, decide_eq_true_eq,
    List.mem_range, and_assoc, forall_and]

/-- A far-end loopback, which MODE 10 does not have, ends as the port takes it (R465). -/
def farEndEnded (port mode : Nat) (s : State) : State :=
  if mode = 10 ∧ (laneOf s port).loopback = 3 then modLane port (fun x => { x with loopback := 0 }) s else s

/-- A port in a new mode, its link down and its FEC kept where the mode has a choice of it. -/
def portMoved (port mode fec : Nat) (t : State) : State :=
  laneEvt port (laneFlags t port) (setPort port { mode := mode, fec := if 6 ≤ mode ∧ mode ≤ 9 then fec else 0 } t)

theorem portModeSet_eq {port mode fec : Nat} (hport : fld (pw ws 0) 20 16 = port) (hmode : fld (pw ws 0) 3 0 = mode)
    (hfec : fld (pw ws 0) 9 8 = fec) : portModeSet ws s =
      need (decide (port ≤ 23) && modeAllowed mode port && fecAllowed mode fec) .badArg >>= fun _ =>
      need (lanesIdle s port mode) .badState >>= fun _ =>
      need (lanesUnshared s port mode) .badState >>= fun _ => .ok (portMoved port mode fec (farEndEnded port mode s), []) := by
  subst hport hmode hfec
  simp only [portModeSet, farEndEnded, portMoved, ← Bool.decide_and, decide_eq_true_eq]
  rfl

section
variable {port mode fec : Nat} (hport : fld (pw ws 0) 20 16 = port) (hmode : fld (pw ws 0) 3 0 = mode) (hfec : fld (pw ws 0) 9 8 = fec)
include hport hmode hfec

theorem portModeSet_badArg (h : ¬ modeFits port mode fec) : portModeSet ws s = .error .badArg := by
  rw [portModeSet_eq hport hmode hfec]
  exact need_bind_error (Bool.eq_false_iff.mpr fun hfits => h (by simpa [modeFits, and_assoc] using hfits))

variable (hfits : modeFits port mode fec)
include hfits

theorem portModeSet_fits : portModeSet ws s = need (lanesIdle s port mode) .badState >>= fun _ =>
    need (lanesUnshared s port mode) .badState >>= fun _ => .ok (portMoved port mode fec (farEndEnded port mode s), []) := by
  rw [portModeSet_eq hport hmode hfec]
  exact need_bind_ok (by simpa [modeFits, and_assoc] using hfits)

theorem portModeSet_badState (h : ¬ lanesFree s port mode) : portModeSet ws s = .error .badState := by
  rw [portModeSet_fits hport hmode hfec hfits]
  rw [lanesFree_iff, not_and_or, Bool.not_eq_true, Bool.not_eq_true] at h
  cases hidle : lanesIdle s port mode with
  | false => exact need_bind_error rfl
  | true =>
    rw [need_bind_ok rfl]
    exact need_bind_error (h.resolve_left (by rw [hidle]; decide))

theorem portModeSet_done (h : lanesFree s port mode) :
    portModeSet ws s = .ok (portMoved port mode fec (farEndEnded port mode s), []) := by
  obtain ⟨hidle, hunshared⟩ := lanesFree_iff.mp h
  rw [portModeSet_fits hport hmode hfec hfits, need_bind_ok hidle, need_bind_ok hunshared]

end

/-! ### The settings of a lane (R456 to R459) -/

/-- Whether the equaliser taps and the amplitude that a call gives are in range, for a lane that there is (R456). -/
def tapsFit (n : Nat) (v : Word) : Prop :=
  laneNamed n true = true ∧ fld v 4 0 ≤ 16 ∧ fld v 12 8 ≤ 24 ∧ fld v 21 16 ≤ 32 ∧ fld v 4 0 + fld v 12 8 ≤ 32

/-- TRAIN after the call: only lanes of modes 8 and 9 take it (R457). -/
def trainGiven (s : State) (n : Nat) (v : Word) : Bool :=
  if n < 24 ∧ ((portOf s n).mode = 8 ∨ (portOf s n).mode = 9) then bit v 31 else (laneOf s n).train

/-- A lane with the taps, the amplitude and TRAIN of a call. -/
def tapsSet (s : State) (n : Nat) (v : Word) : Lane :=
  let x := laneOf s n
  let train := trainGiven s n v
  { x with
    pre := fld v 4 0, post := fld v 12 8, amp := fld v 21 16, train := train, must := x.must && train, training := x.training && train
    trained := x.trained.map fun _ => (fld v 4 0, fld v 12 8) }

theorem laneTxEqSet_eq : laneTxEqSet ws s =
    let n := fld (pw ws 0) 6 0
    let v := pw ws 1
    need (laneNamed n true && decide (fld v 4 0 ≤ 16) && decide (fld v 12 8 ≤ 24) && decide (fld v 21 16 ≤ 32) &&
      decide (fld v 4 0 + fld v 12 8 ≤ 32)) .badArg >>= fun _ => .ok (onLane n (setLane n (tapsSet s n v)) s, []) := by
  simp only [laneTxEqSet, tapsSet, trainGiven, ← Bool.decide_and, ← Bool.decide_or, decide_eq_true_eq]
  rfl

theorem laneTxEqSet_badArg (h : ¬ tapsFit (fld (pw ws 0) 6 0) (pw ws 1)) : laneTxEqSet ws s = .error .badArg :=
  laneTxEqSet_eq.trans (need_bind_error (Bool.eq_false_iff.mpr fun hfit => h (by simpa [tapsFit, and_assoc] using hfit)))

theorem laneTxEqSet_done (h : tapsFit (fld (pw ws 0) 6 0) (pw ws 1)) : laneTxEqSet ws s =
    let n := fld (pw ws 0) 6 0
    .ok (onLane n (setLane n (tapsSet s n (pw ws 1))) s, []) :=
  laneTxEqSet_eq.trans (need_bind_ok (by simpa [tapsFit, and_assoc] using h))

theorem laneNamed_system {n : Nat} : laneNamed n false = decide (n ≤ 27) := by simp [laneNamed]

theorem laneRxEqSet_eq : laneRxEqSet ws s =
    let n := fld (pw ws 0) 6 0
    let m := fld (pw ws 0) 9 8
    let x := laneOf s n
    need (decide (n ≤ 27) && decide (m ≤ 2)) .badArg >>= fun _ => need (decide (m ≠ 2) || decide (fld (pw ws 1) 13 8 ≤ 40)) .badArg >>= fun _ =>
      .ok (if m = 2 then setLane n { x with rxMode := 2, ctle := fld (pw ws 1) 13 8, vga := fld (pw ws 1) 4 0, dfe := [pw ws 2, pw ws 3] } s
        else modLane n (fun x => { x with rxMode := m }) (if x.st = .on ∧ x.rxMode = 0 then adapted n s else s), []) := by
  simp only [laneRxEqSet, laneNamed_system, ← Bool.decide_and, decide_eq_true_eq]
  refine congrArg (_ >>= ·) (funext fun _ => congrArg (_ >>= ·) (funext fun _ => ?_))
  split <;> rfl

theorem laneRxEqSet_badArg (h : 27 < fld (pw ws 0) 6 0 ∨ fld (pw ws 0) 9 8 = 3 ∨ (fld (pw ws 0) 9 8 = 2 ∧ 40 < fld (pw ws 1) 13 8)) :
    laneRxEqSet ws s = .error .badArg := by
  rw [laneRxEqSet_eq]
  by_cases hargs : fld (pw ws 0) 6 0 ≤ 27 ∧ fld (pw ws 0) 9 8 ≤ 2
  · obtain ⟨hn, hm⟩ := hargs
    have hctle : fld (pw ws 0) 9 8 = 2 ∧ 40 < fld (pw ws 1) 13 8 := by omega
    rw [need_bind_ok (by simp [hn, hm])]
    exact need_bind_error (by simp [hctle.1, hctle.2])
  · exact need_bind_error (Bool.eq_false_iff.mpr fun hb => hargs (by simpa using hb))

section
variable (hn : fld (pw ws 0) 6 0 ≤ 27)
include hn

/-- ADAPT and FREEZE: what adaptation has found by now stays (R458). -/
theorem laneRxEqSet_adapts (h : fld (pw ws 0) 9 8 < 2) : laneRxEqSet ws s =
    let n := fld (pw ws 0) 6 0
    let x := laneOf s n
    .ok (modLane n (fun x => { x with rxMode := fld (pw ws 0) 9 8 }) (if x.st = .on ∧ x.rxMode = 0 then adapted n s else s), []) := by
  rw [laneRxEqSet_eq, need_bind_ok (by simp [hn]; omega), need_bind_ok (by simp; omega), if_neg (by omega)]

theorem laneRxEqSet_manual (h : fld (pw ws 0) 9 8 = 2) (hctle : fld (pw ws 1) 13 8 ≤ 40) : laneRxEqSet ws s =
    let n := fld (pw ws 0) 6 0
    .ok (setLane n { laneOf s n with rxMode := 2, ctle := fld (pw ws 1) 13 8, vga := fld (pw ws 1) 4 0, dfe := [pw ws 2, pw ws 3] } s, []) := by
  rw [laneRxEqSet_eq, need_bind_ok (by simp [hn, h]), need_bind_ok (by simp [hctle]), if_pos h]

end

/-- Whether the detector settings of a call are in range, for a system lane (R459, R462). -/
def detectFits (n : Nat) (v : Word) : Prop :=
  n ≤ 27 ∧ 2 ≤ fld v 27 24 ∧ fld v 27 24 ≤ 8 ∧ 1 ≤ fld v 22 16 ∧ fld v 22 16 ≤ 100 ∧ 40 ≤ fld v 8 0 ∧ fld v 8 0 ≤ 300 ∧ fld v 8 0 % 10 = 0

theorem laneDetectConfig_eq : laneDetectConfig ws s =
    let n := fld (pw ws 0) 6 0
    let v := pw ws 1
    need (decide (n ≤ 27) && decide (2 ≤ fld v 27 24) && decide (fld v 27 24 ≤ 8) && decide (1 ≤ fld v 22 16) && decide (fld v 22 16 ≤ 100) &&
      decide (40 ≤ fld v 8 0) && decide (fld v 8 0 ≤ 300) && decide (fld v 8 0 % 10 = 0)) .badArg >>= fun _ =>
      .ok (setLane n { laneOf s n with deg := fld v 27 24, losAssert := fld v 22 16, losTh := fld v 8 0 } s, []) := by
  simp only [laneDetectConfig, laneNamed_system]
  rfl

theorem laneDetectConfig_badArg (h : ¬ detectFits (fld (pw ws 0) 6 0) (pw ws 1)) : laneDetectConfig ws s = .error .badArg :=
  laneDetectConfig_eq.trans (need_bind_error (Bool.eq_false_iff.mpr fun hfit => h (by simpa [detectFits, and_assoc] using hfit)))

theorem laneDetectConfig_done (h : detectFits (fld (pw ws 0) 6 0) (pw ws 1)) : laneDetectConfig ws s =
    let n := fld (pw ws 0) 6 0
    let v := pw ws 1
    .ok (setLane n { laneOf s n with deg := fld v 27 24, losAssert := fld v 22 16, losTh := fld v 8 0 } s, []) :=
  laneDetectConfig_eq.trans (need_bind_ok (by simpa [detectFits, and_assoc] using h))

/-! ### Loopback and test pattern (R464 to R466) -/

section
variable (s) in
/-- Whether a loopback is there for a system lane. -/
def loopbackFits (n mode : Nat) : Prop := n ≤ 27 ∧ loopbackAllowed s n mode = true

theorem laneLoopbackSet_eq : laneLoopbackSet ws s =
    let n := fld (pw ws 0) 6 0
    let m := fld (pw ws 0) 9 8
    need (decide (n ≤ 27) && loopbackAllowed s n m) .badArg >>= fun _ => need (decide ((laneOf s n).st = .on)) .badState >>= fun _ =>
      .ok (onLane n (fun t => dropPcs n (modLane n (fun x => { x with loopback := m }) t)) s, []) := by
  simp only [laneLoopbackSet, laneNamed_system]
  rfl

theorem laneLoopbackSet_badArg (h : ¬ loopbackFits s (fld (pw ws 0) 6 0) (fld (pw ws 0) 9 8)) : laneLoopbackSet ws s = .error .badArg :=
  laneLoopbackSet_eq.trans (need_bind_error (Bool.eq_false_iff.mpr fun hfit => h (by simpa [loopbackFits] using hfit)))

variable (hfits : loopbackFits s (fld (pw ws 0) 6 0) (fld (pw ws 0) 9 8))
include hfits

theorem laneLoopbackSet_badState (h : (laneOf s (fld (pw ws 0) 6 0)).st ≠ .on) : laneLoopbackSet ws s = .error .badState :=
  laneLoopbackSet_eq.trans ((need_bind_ok (by simpa [loopbackFits] using hfits)).trans (need_bind_error (decide_eq_false h)))

theorem laneLoopbackSet_done (h : (laneOf s (fld (pw ws 0) 6 0)).st = .on) : laneLoopbackSet ws s =
    let n := fld (pw ws 0) 6 0
    .ok (onLane n (fun t => dropPcs n (modLane n (fun x => { x with loopback := fld (pw ws 0) 9 8 }) t)) s, []) :=
  laneLoopbackSet_eq.trans ((need_bind_ok (by simpa [loopbackFits] using hfits)).trans (need_bind_ok (decide_eq_true h)))

end

/-- Whether a lane can run a test pattern: PRBS13Q on PAM4 lanes alone (R466). -/
def patternFits (s : State) (n pat : Nat) : Prop := n ≤ 27 ∧ pat ≤ 2 ∧ (pat = 2 → pam4 s n = true)

/-- A lane with its generator and checker set as a call says, its count started again where the checker starts (R466). -/
def patternSet (w : Word) (t : State) : State :=
  let n := fld w 6 0
  let pat := fld w 13 12
  let chk := bit w 8 && pat ≠ 0
  onLane n (modLane n fun y => { y with
    pattern := pat, gen := bit w 9 && pat ≠ 0, check := chk, prbsErr := if chk && !y.check then 0 else y.prbsErr }) t

theorem lanePrbs_eq : lanePrbs ws s =
    let n := fld (pw ws 0) 6 0
    let pat := fld (pw ws 0) 13 12
    let r := patternSet (pw ws 0) (prbsPoll n s)
    need (decide (n ≤ 27) && decide (pat ≤ 2) && (decide (pat ≠ 2) || pam4 s n)) .badArg >>= fun _ => .ok (r, toWords 2 (laneOf r n).prbsErr) := by
  simp only [lanePrbs, laneNamed_system]
  rfl

theorem lanePrbs_badArg (h : ¬ patternFits s (fld (pw ws 0) 6 0) (fld (pw ws 0) 13 12)) : lanePrbs ws s = .error .badArg :=
  lanePrbs_eq.trans (need_bind_error (Bool.eq_false_iff.mpr fun hfit => h (by simpa [patternFits, and_assoc, imp_iff_not_or] using hfit)))

theorem lanePrbs_done (h : patternFits s (fld (pw ws 0) 6 0) (fld (pw ws 0) 13 12)) : lanePrbs ws s =
    let n := fld (pw ws 0) 6 0
    let r := patternSet (pw ws 0) (prbsPoll n s)
    .ok (r, toWords 2 (laneOf r n).prbsErr) :=
  lanePrbs_eq.trans (need_bind_ok (by simpa [patternFits, and_assoc, imp_iff_not_or] using h))

/-- The Hawser follows what LANE_PRBS did to one of its lanes (R468). -/
def prbsFollowed (n : Nat) (r : State × List Word) : State × List Word := (andSet n r.1, r.2)

/-! ### `LANE_STATUS` (R474; assumption 26) -/

/-- What is read of a lane: its buffer has moved, its clock's offset is drawn and adaptation has gone on. -/
def laneRead (n : Nat) (s : State) : State :=
  let t := drawn (bufferMoved n s)
  if (laneOf t n).st = .on ∧ (laneOf t n).rxMode = 0 then adapted n t else t

/-- What LANE_STATUS answers of a lane, with the free value `ppm` for its clock's offset. -/
def laneWords (t : State) (n ppm : Nat) : List Word :=
  let x := laneOf t n
  let taps := x.trained.getD (x.pre, x.post)
  [put (laneCode x) 24 ||| put x.loopback 16 ||| putb x.trained.isSome 4 ||| wd (laneFlags t n),
    put (if x.st = .on then ppm % 65536 else 0) 16 ||| wd x.fill, put x.amp 16 ||| put taps.2 8 ||| wd taps.1, put x.ctle 8 ||| wd x.vga,
    pw x.dfe 0, if shortDfe t n then 0 else pw x.dfe 1]

theorem laneStatus_badArg (h : 27 < fld (pw ws 0) 6 0) : laneStatus ws s = .error .badArg := by
  simp only [laneStatus, laneNamed_system, decide_eq_false (Nat.not_le.mpr h), need_false, res_bind_error]

theorem laneStatus_done (h : fld (pw ws 0) 6 0 ≤ 27) : laneStatus ws s =
    let n := fld (pw ws 0) 6 0
    .ok (laneRead n s, laneWords (laneRead n s) n (Config.freeNat (bufferMoved n s).free)) := by
  simp only [laneStatus, laneNamed_system, decide_eq_true h, need_true, res_bind_ok, ← Bool.decide_and, decide_eq_true_eq, laneRead]
  rfl

end

/-- Settles O39: each call answers what its body gives. -/
theorem laneCallsSetAndRead : Obligations.LaneCallsSetAndRead := by
  unfold Obligations.LaneCallsSetAndRead
  intro c s w v n
  refine ⟨fun hserved => ?mode, fun hserved => ?txEq, fun hserved => ?rxEq, fun hserved => ?detect, fun hserved => ?loopback,
    fun hserved => ?pattern, fun hserved => ?status, fun hserved => serveAct_done hserved (fun s => .ok (hawserLaneStatus s)) rfl,
    fun hserved => serveRead_done hserved (fun s => .ok (pcieStatus s)) rfl⟩
  case mode =>
    exact ⟨fun h => serveAct_refused hserved _ (portModeSet_badArg rfl rfl rfl h),
      fun hfits h => serveAct_refused hserved _ (portModeSet_badState rfl rfl rfl hfits h),
      fun hfits h => serveAct_done hserved _ (portModeSet_done rfl rfl rfl hfits h)⟩
  case txEq =>
    exact ⟨fun h => serveAct_refused hserved _ (laneTxEqSet_badArg h), fun h => serveAct_done hserved _ (laneTxEqSet_done h)⟩
  case rxEq =>
    intro u x m
    refine ⟨fun h => serveAct_refused hserved _ (laneRxEqSet_badArg h), fun hn h => ?_,
      fun hn h hctle => serveAct_done hserved _ (laneRxEqSet_manual hn h hctle)⟩
    exact serveAct_done hserved _ (laneRxEqSet_adapts hn h)
  case detect =>
    exact ⟨fun h => serveAct_refused hserved _ (laneDetectConfig_badArg h), fun h => serveAct_done hserved _ (laneDetectConfig_done h)⟩
  case loopback =>
    exact ⟨fun h => serveAct_refused hserved _ (laneLoopbackSet_badArg h), fun hfits h => serveAct_refused hserved _ (laneLoopbackSet_badState hfits h),
      fun hfits h => serveAct_done hserved _ (laneLoopbackSet_done hfits h)⟩
  case pattern =>
    exact ⟨fun h => serveAct_refused hserved (fun s => (lanePrbs c.words s).map (prbsFollowed n)) (congrArg (Except.map _) (lanePrbs_badArg h)),
      fun h => serveAct_done hserved (fun s => (lanePrbs c.words s).map (prbsFollowed n)) (congrArg (Except.map _) (lanePrbs_done h))⟩
  case status =>
    exact ⟨fun h => serveAct_refused hserved _ (laneStatus_badArg h), fun h => serveAct_done hserved _ (laneStatus_done h)⟩

end Sys2Proof.Machine

/-! PROOFS. SDH frames, error windows and pointers (R466, R475, R478, R480, R483, R484): one lemma per case of each command, and of each
way in which a pointer word is read. -/

namespace Sys2Proof.Machine

section
variable {s : State} {l : Nat}

/-! ### A received frame (R466, R475, R478) -/

theorem stmFrame_off {f : StmFrame} (h : sdhRuns s l = false) : stmFrame l f s = s := if_pos (by rw [h]; rfl)

section
variable {f : StmFrame} (hruns : sdhRuns s l = true)
include hruns

theorem stmFrame_looped (h : (laneOf s (22 + l)).loopback ≠ 0) : stmFrame l f s = cnt (cLane 11 (22 + l)) 1 s :=
  (if_neg (by rw [hruns]; decide)).trans (if_pos h)

variable (hdirect : (laneOf s (22 + l)).loopback = 0)
include hdirect

theorem stmFrame_generator (h : (laneOf s (22 + l)).gen = true) : stmFrame l f s = s :=
  (if_neg (by rw [hruns]; decide)).trans ((if_neg (not_not.mpr hdirect)).trans (if_pos h))

/-- The lane's record once the framer has taken the frame's time. -/
def framed (l : Nat) (f : StmFrame) (s : State) : Sdh := (sdhOf s l).align f.hits

/-- A frame that leaves the framer out of frame is counted as OOF (R478). -/
def frameLost (l : Nat) (y : Sdh) (s : State) : State := laneChange l (laneDefects s l) (cnt (cLane 16 (22 + l)) 1 (setSdh l y s))

/-- What a frame in frame leaves of its section: its error counts, its trace byte and the conditions that its K2 shows (R482 to R484). -/
def sectionRead (f : StmFrame) (y : Sdh) : Sdh :=
  { y with
    b2 := f.b2, j0 := (y.j0.byte false f.j0).1, msAis := y.msAis.see 3 (f.k2 % 8 = 7), msRdi := y.msRdi.see 5 (f.k2 % 8 = 6)
    sfErr := y.sfErr + f.b2, sfBits := y.sfBits + 307584, sdErr := y.sdErr + f.b2, sdBits := y.sdBits + 307584 }

/-- A frame in frame: counted, its trace told of, its AU-4s, TU-12s and K bytes read, and the selector judged (R478 to R488). -/
def frameRead (l : Nat) (f : StmFrame) (y : Sdh) (s : State) : State :=
  let z := sectionRead f y
  let t := cnt (cLane 13 (22 + l)) f.b1 (cnt (cLane 14 (22 + l)) f.b2 (cnt (cLane 15 (22 + l)) f.m1 (setSdh l z (setSdh l y s))))
  let t := timEvent 0 l y.j0.tim z.j0.tim (if (y.j0.byte false f.j0).2 = true then cnt (cLane 17 (22 + l)) 1 t else t)
  let t := kBytes l f.k1 f.k2 (forEach f.tus (tuFrame l) (ausFrame l 0 f.aus t))
  laneChange l (laneDefects s l) (mspEvaluate (mspSwitch l t))

theorem stmFrame_judged (h : (laneOf s (22 + l)).gen = false) :
    stmFrame l f s = if (framed l f s).oof = true then frameLost l (framed l f s) s else frameRead l f (framed l f s) s := by
  rw [stmFrame, if_neg (by rw [hruns]; decide), if_neg (not_not.mpr hdirect), if_neg (Bool.eq_false_iff.mp h)]
  simp only [sdhOf_setSdh]
  rfl

theorem stmFrame_lost (h : (laneOf s (22 + l)).gen = false) (hoof : (framed l f s).oof = true) :
    stmFrame l f s = frameLost l (framed l f s) s := (stmFrame_judged hruns hdirect h).trans (if_pos hoof)

theorem stmFrame_read (h : (laneOf s (22 + l)).gen = false) (hin : (framed l f s).oof = false) :
    stmFrame l f s = frameRead l f (framed l f s) s := (stmFrame_judged hruns hdirect h).trans (if_neg (Bool.eq_false_iff.mp hin))

end

/-! ### The framer (R478) -/

section
variable {x : Sdh} {hits : List Nat}

theorem align_searches (hoof : x.oof = true) (h : x.cand = none) : x.align hits = { x with cand := hits.head? } := by
  simp only [Sdh.align, hoof, h, if_true]

section
variable {c : Nat} (hoof : x.oof = true) (hc : x.cand = some c)
include hoof hc

theorem align_finds (h : c ∈ hits) : x.align hits = { x with oof := false, cand := none, pos := c, badRun := 0 } := by
  simp only [Sdh.align, hoof, hc, List.contains_iff_mem.mpr h, if_true]

theorem align_searchesOn (h : c ∉ hits) : x.align hits = { x with cand := hits.find? (c < ·) } := by
  simp only [Sdh.align, hoof, hc, if_true, List.contains_iff_mem, if_neg h]

end

section
variable (hin : x.oof = false)
include hin

theorem align_holds (h : x.pos ∈ hits) : x.align hits = { x with badRun := 0 } := by
  simp only [Sdh.align, hin, List.contains_iff_mem.mpr h, Bool.false_eq_true, if_true, if_false]

variable (h : x.pos ∉ hits)
include h

theorem align_misses (hrun : x.badRun < 3) : x.align hits = { x with badRun := x.badRun + 1 } := by
  simp only [Sdh.align, hin, List.contains_iff_mem, if_neg h, Nat.not_le.mpr hrun, Bool.false_eq_true, if_false]

theorem align_loses (hrun : 3 ≤ x.badRun) : x.align hits = { x with oof := true, cand := hits.find? (x.pos < ·), badRun := 0 } := by
  simp only [Sdh.align, hin, List.contains_iff_mem, if_neg h, hrun, Bool.false_eq_true, if_true, if_false]

end

end

/-! ### The LOF timer and the error windows (R478, R483) -/

theorem lofTimer_off (h : sdhRuns s l = false) : lofTimer l s = s := if_pos (by rw [h]; rfl)

theorem lofTimer_judges (h : sdhRuns s l = true) :
    lofTimer l s = mspEvaluate (laneChange l (laneDefects s l) (setSdh l { sdhOf s l with lof := (sdhOf s l).oof } s)) := if_neg (by rw [h]; decide)

section
variable {sd : Bool}

/-- The number of the B2 window that has begun, and that of the last window judged. -/
def b2No (s : State) (sd : Bool) : Nat := nowNs s / b2Ns (if sd = true then s.tdm.cfg.msSd else s.tdm.cfg.msSf)
def b2Last (s : State) (l : Nat) (sd : Bool) : Nat := if sd = true then (sdhOf s l).sdWin else (sdhOf s l).sfWin

/-- A section's record once its B2 window has been judged. -/
def b2Judged (s : State) (l : Nat) (sd : Bool) : Sdh :=
  let x := sdhOf s l
  if sd = true then { x with deg := windowEnd x.deg x.sdErr x.sdBits s.tdm.cfg.msSd, sdErr := 0, sdBits := 0, sdWin := b2No s sd }
  else { x with exc := windowEnd x.exc x.sfErr x.sfBits s.tdm.cfg.msSf, sfErr := 0, sfBits := 0, sfWin := b2No s sd }

theorem b2Window_idle (h : sdhRuns s l = false ∨ b2No s sd = b2Last s l sd) : b2Window l sd s = s := by
  have hstays : (!sdhRuns s l || decide (b2No s sd = b2Last s l sd)) = true := by rcases h with h | h <;> simp [h]
  exact if_pos hstays

theorem b2Window_judges (hruns : sdhRuns s l = true) (hno : b2No s sd ≠ b2Last s l sd) :
    b2Window l sd s = mspEvaluate (laneChange l (laneDefects s l) (setSdh l (b2Judged s l sd) s)) := by
  have hgoes : ¬ (!sdhRuns s l || decide (b2No s sd = b2Last s l sd)) = true := by simp [hruns, hno]
  exact if_neg hgoes

end

section
variable {p : Nat} {sd : Bool}

/-- The number of the V5 window that has begun, and that of a position's last window judged. -/
def v5No (s : State) (sd : Bool) : Nat := nowNs s / v5Ns (if sd = true then s.tdm.cfg.lpSd else s.tdm.cfg.lpSf)
def v5Last (s : State) (l p : Nat) (sd : Bool) : Nat := if sd = true then (tuOf s l p).sdWin else (tuOf s l p).sfWin

/-- A position's record once its V5 window has been judged. -/
def v5Judged (s : State) (l p : Nat) (sd : Bool) : Tu :=
  let y := tuOf s l p
  if sd = true then { y with deg := windowEnd y.deg y.sdErr y.sdBits s.tdm.cfg.lpSd, sdErr := 0, sdBits := 0, sdWin := v5No s sd }
  else { y with exc := windowEnd y.exc y.sfErr y.sfBits s.tdm.cfg.lpSf, sfErr := 0, sfBits := 0, sfWin := v5No s sd }

/-- The state in which a position's V5 window has been judged. -/
def v5Ended (s : State) (l p : Nat) (sd : Bool) : State := setSdh l { sdhOf s l with tus := kset (sdhOf s l).tus p (v5Judged s l p sd) } s

theorem v5Window_idle (h : sdhRuns s l = false ∨ v5No s sd = v5Last s l p sd) : v5Window l p sd s = s := by
  have hstays : (!sdhRuns s l || decide (v5No s sd = v5Last s l p sd)) = true := by rcases h with h | h <;> simp [h]
  exact if_pos hstays

section
variable (hruns : sdhRuns s l = true) (hno : v5No s sd ≠ v5Last s l p sd)
include hruns hno

/-- A change of the selected lane's defects is told of (R501). -/
theorem v5Window_judges : v5Window l p sd s =
    let t := v5Ended s l p sd
    if (decide (tuDefects s l p = tuDefects t l p) || decide (t.tdm.msp.selected ≠ l)) = true then t
    else raise 805 [] [wd (p * 2 ^ 16 + tuDefects t l p)] t := by
  have hgoes : ¬ (!sdhRuns s l || decide (v5No s sd = v5Last s l p sd)) = true := by simp [hruns, hno]
  exact if_neg hgoes

theorem v5Window_quiet (h : s.tdm.msp.selected ≠ l ∨ tuDefects (v5Ended s l p sd) l p = tuDefects s l p) : v5Window l p sd s = v5Ended s l p sd := by
  refine (v5Window_judges hruns hno).trans (if_pos ?_)
  rcases h with h | h
  · have hsel : (v5Ended s l p sd).tdm.msp.selected ≠ l := h
    simp [hsel]
  · simp [h]

theorem v5Window_tells (hsel : s.tdm.msp.selected = l) (h : tuDefects (v5Ended s l p sd) l p ≠ tuDefects s l p) :
    v5Window l p sd s = raise 805 [] [wd (p * 2 ^ 16 + tuDefects (v5Ended s l p sd) l p)] (v5Ended s l p sd) := by
  refine (v5Window_judges hruns hno).trans (if_neg ?_)
  have hsel' : (v5Ended s l p sd).tdm.msp.selected = l := hsel
  simp [hsel', Ne.symm h]

end

end

section
variable {was : Bool} {e bits n : Nat}

theorem windowEnd_declares (hbits : 0 < bits) (h : bits ≤ e * 10 ^ n) : windowEnd was e bits n = true :=
  if_pos (by simp [declares, h]; omega)

section
variable (h : e * 10 ^ n < bits)
include h

theorem not_declares : ¬ declares e bits n = true := by simp [declares, h]

theorem windowEnd_clears (hclears : e * 10 ^ (n + 1) < bits) : windowEnd was e bits n = false :=
  (if_neg (not_declares h)).trans (if_pos (decide_eq_true hclears))

theorem windowEnd_keeps (hkeeps : bits ≤ e * 10 ^ (n + 1)) : windowEnd was e bits n = was :=
  (if_neg (not_declares h)).trans (if_neg (by simpa [clears] using hkeeps))

end

theorem lt_of_clears (h : e * 10 ^ (n + 1) < bits) : e * 10 ^ n < bits :=
  lt_of_le_of_lt (Nat.mul_le_mul_left e (Nat.pow_le_pow_right (by decide) (Nat.le_succ n))) h

theorem b2Ns_short (h : n ≤ 6) : b2Ns n = 10 ^ 7 := by simp [b2Ns, h]

theorem b2Ns_long (h : 7 ≤ n) : b2Ns n = 10 ^ (n + 1) := by
  rw [b2Ns, Nat.max_eq_left (by omega), ← pow_add]
  congr 1
  omega

theorem v5Ns_short (h : n ≤ 4) : v5Ns n = 10 ^ 8 := by simp [v5Ns, h]

theorem v5Ns_long (h : 5 ≤ n) : v5Ns n = 10 ^ (n + 4) := by
  rw [v5Ns, Nat.max_eq_left (by omega), ← pow_add]
  congr 1
  omega

end

end

/-! ### A pointer word is read (R480) -/

section
variable {p : PtrInt} {w top : Nat}

theorem read_ais (hall : w % 65536 = 0xFFFF) (hrun : 2 ≤ p.onesRun) : (p.read w top).ptr.st = 1 := by
  simp [PtrInt.read, hall, show 3 ≤ p.onesRun + 1 by omega]

section
variable (hall : w % 65536 ≠ 0xFFFF)
include hall

section
variable (hndf : within1 4 (nfld w 15 12) 9 = true) (hoff : nfld w 9 0 ≤ top)
include hndf hoff

theorem read_enabledNdf (hrun : p.ndfRun < 7) : (p.read w top).ptr.st = 0 ∧ (p.read w top).ptr.offset = nfld w 9 0 := by
  simp [PtrInt.read, hall, hndf, hoff, Nat.not_le.mpr hrun]

theorem read_enabledNdfs (hrun : 7 ≤ p.ndfRun) : (p.read w top).ptr.st = 2 := by
  simp [PtrInt.read, hall, hndf, hoff, hrun]

end

variable (hdis : within1 4 (nfld w 15 12) 9 = false)
include hdis

theorem read_lop (hst : p.st = 0) (hnormal : within1 4 (nfld w 15 12) 6 = false) (hrun : 7 ≤ p.badRun) : (p.read w top).ptr.st = 2 := by
  simp [PtrInt.read, hall, hdis, hst, hnormal, hrun]

variable (hnormal : within1 4 (nfld w 15 12) 6 = true)
include hnormal

/-- A pointer that is lost, or AIS, comes back after three valid normal words. -/
theorem read_recovers (hst : p.st ≠ 0) (hoff : nfld w 9 0 ≤ top) (hrun : 2 ≤ p.okRun) :
    (p.read w top).ptr.st = 0 ∧ (p.read w top).ptr.offset = nfld w 9 0 := by
  simp [PtrInt.read, hall, hdis, hst, hnormal, hoff, hrun]

variable (hst : p.st = 0)
include hst

theorem read_same (hoff : nfld w 9 0 = p.offset) (htop : nfld w 9 0 ≤ top) :
    (p.read w top).ptr.st = 0 ∧ (p.read w top).ptr.offset = p.offset ∧ (p.read w top).inc = false ∧ (p.read w top).dec = false := by
  rw [hoff] at htop
  simp [PtrInt.read, hall, hdis, hst, hnormal, hoff, htop]

variable (hnew : nfld w 9 0 ≠ p.offset)
include hnew

section
variable (hsince : 2 ≤ p.since)
include hsince

theorem read_increments (hi : 3 ≤ ones 5 (iBits (nfld w 9 0) ^^^ iBits p.offset)) (hd : ones 5 (dBits (nfld w 9 0) ^^^ dBits p.offset) ≤ 2) :
    (p.read w top).inc = true ∧ (p.read w top).ptr.offset = (p.offset + 1) % (top + 1) := by
  simp [PtrInt.read, hall, hdis, hst, hnormal, hnew, hsince, hi, hd]

theorem read_decrements (hd : 3 ≤ ones 5 (dBits (nfld w 9 0) ^^^ dBits p.offset)) (hi : ones 5 (iBits (nfld w 9 0) ^^^ iBits p.offset) ≤ 2) :
    (p.read w top).dec = true ∧ (p.read w top).ptr.offset = (p.offset + top) % (top + 1) := by
  simp [PtrInt.read, hall, hdis, hst, hnormal, hnew, hsince, hi, hd, Nat.not_le.mpr (Nat.lt_succ_of_le hi)]

end

/-- Three normal words with one new offset move the pointer there. -/
theorem read_moves (htop : nfld w 9 0 ≤ top) (hcand : p.cand = nfld w 9 0) (hrun : 2 ≤ p.candRun)
    (hi : ones 5 (iBits (nfld w 9 0) ^^^ iBits p.offset) ≤ 2) (hd : ones 5 (dBits (nfld w 9 0) ^^^ dBits p.offset) ≤ 2) :
    (p.read w top).ptr.st = 0 ∧ (p.read w top).ptr.offset = nfld w 9 0 := by
  simp [PtrInt.read, hall, hdis, hst, hnormal, hnew, htop, hcand, hrun, Nat.not_le.mpr (Nat.lt_succ_of_le hi), Nat.not_le.mpr (Nat.lt_succ_of_le hd)]

end

end

/-- Settles O48: a frame by what its lane stands in, a window by whether it has begun, a pointer word by what it shows. -/
theorem sdhFramesAndPointers : Obligations.SdhFramesAndPointers := by
  unfold Obligations.SdhFramesAndPointers
  refine ⟨fun s l => ?frames, fun p w top => ?pointer⟩
  case frames =>
    intro x before
    have hframe {f : StmFrame} {t : State} (h : stmFrame l f s = t) : exec (.stm16FrameRx l f) s = .next (freqWatch t) :=
      congrArg (Host.Outcome.next ∘ freqWatch) h
    refine ⟨fun f => ⟨fun h => hframe (stmFrame_off h), fun hruns h => hframe (stmFrame_looped hruns h),
      fun hruns hdirect h => hframe (stmFrame_generator hruns hdirect h), fun hruns hdirect h =>
        ⟨fun hoof => hframe (stmFrame_lost hruns hdirect h hoof), fun hin => hframe (stmFrame_read hruns hdirect h hin)⟩⟩,
      fun hits => ?align, fun h => congrArg (Host.Outcome.next ∘ freqWatch) (lofTimer_off h),
      fun h => congrArg (Host.Outcome.next ∘ freqWatch) (lofTimer_judges h),
      fun sd => ⟨fun h => congrArg Host.Outcome.next (b2Window_idle h), fun hruns hno => congrArg Host.Outcome.next (b2Window_judges hruns hno)⟩,
      fun pos sd => ⟨fun h => congrArg Host.Outcome.next (v5Window_idle h), fun hruns hno =>
        ⟨fun h => congrArg Host.Outcome.next (v5Window_quiet hruns hno h),
          fun hsel h => congrArg Host.Outcome.next (v5Window_tells hruns hno hsel h)⟩⟩,
      fun was e bits n hbits => ⟨windowEnd_declares hbits, fun h => windowEnd_clears (lt_of_clears h) h, windowEnd_keeps⟩,
      fun n => ⟨b2Ns_short, b2Ns_long, v5Ns_short, v5Ns_long⟩⟩
    case align =>
      refine ⟨fun hoof h => ?_, fun c hoof hc => ⟨fun h => ?_, fun h => ?_⟩, fun hin h => ?_, fun hin h hrun => ?_, fun hin h hrun => ?_⟩
      · rw [align_searches hoof h]
        exact ⟨hoof, rfl⟩
      · rw [align_finds hoof hc h]
        exact ⟨rfl, rfl⟩
      · rw [align_searchesOn hoof hc h]
        exact ⟨hoof, rfl⟩
      · rw [align_holds hin h]
        exact ⟨hin, rfl⟩
      · rw [align_loses hin h (Nat.le_of_eq hrun.symm)]
        exact ⟨rfl, rfl⟩
      · rw [align_misses hin h hrun]
        exact ⟨hin, rfl⟩
  case pointer =>
    intro ndf off
    exact ⟨fun hall hst hnormal hdis => read_same hall hdis hnormal hst, read_enabledNdf, read_enabledNdfs,
      fun hst hall hnormal hdis hnew hsince =>
        ⟨read_increments hall hdis hnormal hst hnew (Nat.le_of_succ_le_succ hsince), read_decrements hall hdis hnormal hst hnew (Nat.le_of_succ_le_succ hsince)⟩,
      fun hst hall hnormal hdis hnew => read_moves hall hdis hnormal hst hnew,
      fun hst hall hnormal hdis => read_recovers hall hdis hnormal hst, read_ais,
      fun hst hall hnormal hdis => read_lop hall hdis hst hnormal⟩

end Sys2Proof.Machine

/-! PROOFS. The linear MSP (R486 to R490, R501): how the highest request is found, what the selector's evaluation asks for, and how its
timers, its switch and its commands end. -/

namespace Sys2Proof.Machine

section
variable {s : State}

/-! ### The hold-off (R486) -/

/-- Whether a condition has stood for HOLD_OFF. -/
def heldOff (s : State) (since : Option Nat) : Bool :=
  match since with
  | some t => t + 100000000 * s.tdm.msp.holdOff ≤ nowNs s
  | none => false

theorem heldOff_iff {since : Option Nat} : heldOff s since = true ↔ ∃ t, since = some t ∧ t + 100000000 * s.tdm.msp.holdOff ≤ nowNs s := by
  cases since <;> simp [heldOff]

theorem mspHoldOffEnd_off {l : Nat} (h : tdmOn s = false) : mspHoldOffEnd l s = s := if_pos (by rw [h]; rfl)

theorem mspHoldOffEnd_requests {l : Nat} (h : tdmOn s = true) : mspHoldOffEnd l s = mspEvaluate (setSdh l
    { sdhOf s l with
      sfReq := msFail s l && ((sdhOf s l).sfReq || heldOff s (sdhOf s l).failAt)
      sdReq := msDegrade s l && ((sdhOf s l).sdReq || heldOff s (sdhOf s l).degAt) } s) := if_neg (by rw [h]; decide)

/-! ### The highest local request (R487) -/

theorem localRequest_lockout (h : s.tdm.msp.lockout = true) : localRequest s = 1 := if_pos h

section
variable (hlockout : s.tdm.msp.lockout = false)
include hlockout

theorem localRequest_protectionFails (h : (sdhOf s 1).sfReq = true) : localRequest s = 2 := by
  simp only [localRequest, hlockout, h, Bool.false_eq_true, if_false, if_true]

variable (hprot : (sdhOf s 1).sfReq = false)
include hprot

theorem localRequest_forced (h : s.tdm.msp.forced = true) : localRequest s = 3 := by
  simp only [localRequest, hlockout, hprot, h, Bool.false_eq_true, if_false, if_true]

variable (hforced : s.tdm.msp.forced = false)
include hforced

theorem localRequest_workingFails (h : (sdhOf s 0).sfReq = true) : localRequest s = 4 := by
  simp only [localRequest, hlockout, hprot, hforced, h, Bool.false_eq_true, if_false, if_true]

variable (hwork : (sdhOf s 0).sfReq = false)
include hwork

theorem localRequest_workingDegrades (h : (sdhOf s 0).sdReq = true) (hprotection : (sdhOf s 1).sdReq = false) : localRequest s = 5 := by
  simp [localRequest, hlockout, hprot, hforced, hwork, h, hprotection]

variable (hdegrade : (sdhOf s 0).sdReq = false ∨ (sdhOf s 1).sdReq = true)
include hdegrade

theorem localRequest_manual (h : s.tdm.msp.manual = true) (hprotection : (sdhOf s 1).sdReq = false) : localRequest s = 6 := by
  have hw : (sdhOf s 0).sdReq = false := hdegrade.resolve_right (by rw [hprotection]; decide)
  simp [localRequest, hlockout, hprot, hforced, hwork, hw, h, hprotection]

theorem localRequest_none (h : s.tdm.msp.manual = false ∨ (sdhOf s 1).sdReq = true) : localRequest s = 9 := by
  rcases hdegrade with hw | hw
  · rcases h with h | h <;> simp [localRequest, hlockout, hprot, hforced, hwork, hw, h]
  · simp [localRequest, hlockout, hprot, hforced, hwork, hw]

end

/-! ### The selector's evaluation (R487, R488, R490) -/

theorem mspEvaluate_idle (h : s.tdm.msp.arch = 0 ∨ tdmOn s = false) : mspEvaluate s = s := by
  refine if_pos ?_
  rcases h with h | h <;> simp [h]

/-- The highest request, the far end's among them with ARCH 2. -/
def baseRequest (s : State) : Nat :=
  if s.tdm.msp.arch = 2 then min (localRequest s) (farPriority (sdhOf s 1).k1) else localRequest s

/-- A signal fail or a command that selected lane 23 has ended (R487; assumption 148). -/
def leavesLane (s : State) : Prop := s.tdm.msp.selected = 1 ∧ 3 ≤ s.tdm.msp.request ∧ s.tdm.msp.request ≤ 6

theorem laneFor_eq (r : Nat) : laneFor r = if 3 ≤ r ∧ r ≤ 8 then 1 else 0 := by simp [laneFor]

/-- The selector as a request is served: it asks for the request's lane, where that is not selected. -/
def mspServes (m : Msp) (old req : Nat) : Msp :=
  let lane := if 3 ≤ req ∧ req ≤ 8 then 1 else 0
  { m with request := req, want := if old = lane then none else some lane }

theorem mspServes_eq (m : Msp) (old req : Nat) :
    mspServes m old req = { m with request := req, want := if old = laneFor req then none else some (laneFor req) } := by
  rw [laneFor_eq]
  rfl

section
variable (harch : s.tdm.msp.arch ≠ 0) (hon : tdmOn s = true)
include harch hon

/-- What an evaluation leaves of the selector before it serves the request. -/
theorem mspEvaluate_eq : mspEvaluate s =
    let m := s.tdm.msp
    let base := baseRequest s
    let leaving := 7 ≤ base && m.selected = 1 && 3 ≤ m.request && m.request ≤ 6
    let n := if base ≤ 6 then { m with wtrOn := false, dnr := false, manual := m.manual && (6 ≤ base || m.request ≠ 6) }
      else if leaving && m.revert then { m with wtrOn := true, wtrEnd := nowNs s + m.wtr * 1000000000 }
      else if leaving then { m with dnr := true }
      else m
    setMsp (mspServes n n.selected (min base (if n.wtrOn then 7 else if n.dnr then 8 else 9))) s := by
  simp only [mspServes_eq]
  exact if_neg (by simp [harch, hon])

theorem mspEvaluate_serves (hbase : baseRequest s ≤ 6) : mspEvaluate s = setMsp (mspServes
    { s.tdm.msp with wtrOn := false, dnr := false, manual := s.tdm.msp.manual && (decide (6 ≤ baseRequest s) || decide (s.tdm.msp.request ≠ 6)) }
    s.tdm.msp.selected (baseRequest s)) s := by
  have hreq : min (baseRequest s) 9 = baseRequest s := by omega
  rw [mspEvaluate_eq harch hon]
  simp only [if_pos hbase, Bool.false_eq_true, if_false, hreq]

section
variable (hbase : 7 ≤ baseRequest s)
include hbase

theorem mspEvaluate_waits (hleaves : leavesLane s) (hrevert : s.tdm.msp.revert = true) : mspEvaluate s =
    setMsp (mspServes { s.tdm.msp with wtrOn := true, wtrEnd := nowNs s + s.tdm.msp.wtr * 1000000000 } s.tdm.msp.selected 7) s := by
  obtain ⟨hsel, hlow, hhigh⟩ := hleaves
  have hreq : min (baseRequest s) 7 = 7 := by omega
  rw [mspEvaluate_eq harch hon]
  simp only [if_neg (show ¬ baseRequest s ≤ 6 by omega), hbase, hsel, hlow, hhigh, hrevert, decide_true, Bool.and_self, if_true, hreq]

theorem mspEvaluate_staysThere (hleaves : leavesLane s) (hrevert : s.tdm.msp.revert = false) : mspEvaluate s =
    setMsp (mspServes { s.tdm.msp with dnr := true } s.tdm.msp.selected (min (baseRequest s) (if s.tdm.msp.wtrOn = true then 7 else 8))) s := by
  obtain ⟨hsel, hlow, hhigh⟩ := hleaves
  rw [mspEvaluate_eq harch hon]
  simp only [if_neg (show ¬ baseRequest s ≤ 6 by omega), hbase, hsel, hlow, hhigh, hrevert, decide_true, Bool.and_self, Bool.and_false,
    Bool.false_eq_true, if_true, if_false]

theorem mspEvaluate_rests (hstays : ¬ leavesLane s) : mspEvaluate s = setMsp (mspServes s.tdm.msp s.tdm.msp.selected
    (min (baseRequest s) (if s.tdm.msp.wtrOn = true then 7 else if s.tdm.msp.dnr = true then 8 else 9))) s := by
  have hleaving : (decide (7 ≤ baseRequest s) && decide (s.tdm.msp.selected = 1) && decide (3 ≤ s.tdm.msp.request) &&
      decide (s.tdm.msp.request ≤ 6)) = false := Bool.eq_false_iff.mpr fun h => hstays (by simpa [leavesLane, hbase, and_assoc] using h)
  rw [mspEvaluate_eq harch hon]
  simp only [if_neg (show ¬ baseRequest s ≤ 6 by omega), hleaving, Bool.false_and, Bool.false_eq_true, if_false]

end

end

/-! ### The switch (R488, R489) -/

section
variable {l w : Nat}

theorem mspSwitch_unasked (h : s.tdm.msp.want = none) : mspSwitch l s = s := by
  simp only [mspSwitch, h]

section
variable (hwant : s.tdm.msp.want = some w)
include hwant

theorem mspSwitch_one (harch : s.tdm.msp.arch = 1) : mspSwitch l s = if l = w then selectLane w s else s := by
  simp only [mspSwitch, hwant, harch, if_true]

theorem mspSwitch_two (harch : s.tdm.msp.arch = 2) :
    mspSwitch l s = if l = 1 ∧ s.tdm.msp.fail = false ∧ nfld (sdhOf s 1).k2 7 4 = w then selectLane w s else s := by
  simp only [mspSwitch, hwant]
  rw [if_neg (show s.tdm.msp.arch ≠ 1 by rw [harch]; decide), if_pos harch]
  exact if_congr (by simp [and_assoc]) rfl rfl

end

/-- The selector on a lane, its demappers still to follow (R488; assumption 165). -/
def selectorOn (l : Nat) (s : State) : State :=
  setMsp { s.tdm.msp with selected := l, want := none, hand := (List.range 1008).filter fun q => laneAt s q ≠ l } s

theorem selectLane_same (h : s.tdm.msp.selected = l) : selectLane l s = selectorOn l s := if_pos h

theorem selectLane_moves (h : s.tdm.msp.selected ≠ l) : selectLane l s =
    let u := raise 802 [] [wd (s.tdm.msp.request * 2 ^ 8 + l)] (cnt (cDev 12) 1 (selectorOn l s))
    forEach ((List.range 1008).filter fun q => tuDefects u s.tdm.msp.selected q ≠ tuDefects u l q)
      (fun q v => raise 805 [] [wd (q * 2 ^ 16 + tuDefects u l q)] v) u := if_neg h

end

/-! ### The wait to restore and the bridge's mismatch (R487, R489) -/

theorem mspWtrEnd_idle (h : tdmOn s = false ∨ s.tdm.msp.wtrOn = false ∨ nowNs s < s.tdm.msp.wtrEnd) : mspWtrEnd s = s := by
  refine if_neg ?_
  rcases h with h | h | h <;> simp [h]

theorem mspWtrEnd_ends (hon : tdmOn s = true) (hwtr : s.tdm.msp.wtrOn = true) (h : s.tdm.msp.wtrEnd ≤ nowNs s) :
    mspWtrEnd s = mspEvaluate (setMsp { s.tdm.msp with wtrOn := false } s) := if_pos (by simp [hon, hwtr, h])

/-- Whether the accepted K2 shows the channel requested (R489). -/
abbrev bridgeHere (s : State) : Prop := nfld (sdhOf s 1).k2 7 4 = if 3 ≤ s.tdm.msp.request ∧ s.tdm.msp.request ≤ 8 then 1 else 0

theorem mspMismatch_eq : mspMismatch s =
    if tdmOn s = true ∧ s.tdm.msp.arch = 2 ∧ s.tdm.msp.fail = false ∧ ¬ bridgeHere s
    then raise 803 [] [0] (setMsp { s.tdm.msp with fail := true } s) else s := by
  refine if_congr ?_ rfl rfl
  simp only [bridgeHere, laneFor_eq, Bool.and_eq_true, decide_eq_true_eq, Bool.not_eq_true', and_assoc]

/-! ### `MSP_COMMAND` (R490) -/

theorem mspCommandCall_badState {ws : List Word} (h : s.tdm.msp.arch = 0) : mspCommandCall ws s = .error .badState := if_pos h

theorem mspCommandCall_done {ws : List Word} (h : s.tdm.msp.arch ≠ 0) : mspCommandCall ws s = .ok (mspCommand (fld (pw ws 0) 1 0) s, []) := if_neg h

end

/-- The four rows of MSP_COMMAND are one call. -/
theorem exec_mspCommand {c : Call} {s : State} {i : Instr}
    (hi : i = .mspCommandClear c ∨ i = .mspCommandLockout c ∨ i = .mspCommandForced c ∨ i = .mspCommandManual c) :
    exec i s = serveAct mspCommandSpec c s (mspCommandCall c.words) := by
  rcases hi with rfl | rfl | rfl | rfl <;> rfl

/-- Settles O49: each evaluation by the highest request, each timer by whether it runs, each command by whether there is an MSP. -/
theorem mspEvaluatesItsRequests : Obligations.MspEvaluatesItsRequests := by
  unfold Obligations.MspEvaluatesItsRequests
  refine ⟨fun s l => ?holdOff, fun s => ?selector, fun c s hserved => ?command⟩
  case holdOff =>
    intro x held
    refine ⟨fun h => congrArg Host.Outcome.next (mspHoldOffEnd_off h), fun h => ⟨_, _, ?_, ?_, congrArg Host.Outcome.next (mspHoldOffEnd_requests h)⟩⟩
    · rw [Bool.and_eq_true, Bool.or_eq_true, heldOff_iff]
    · rw [Bool.and_eq_true, Bool.or_eq_true, heldOff_iff]
  case selector =>
    intro m w p
    refine ⟨localRequest_lockout, fun hlockout => ⟨localRequest_protectionFails hlockout, fun hprot =>
        ⟨localRequest_forced hlockout hprot, fun hforced => ⟨localRequest_workingFails hlockout hprot hforced, fun hwork =>
          ⟨localRequest_workingDegrades hlockout hprot hforced hwork, fun hdegrade =>
            ⟨localRequest_manual hlockout hprot hforced hwork hdegrade, localRequest_none hlockout hprot hforced hwork hdegrade⟩⟩⟩⟩⟩,
      fun h => congrArg Host.Outcome.next (mspEvaluate_idle h), fun harch hon => ?evaluates, fun l w hwant => ?switches,
      fun h l => mspSwitch_unasked h, fun l => ⟨selectLane_same, selectLane_moves⟩,
      fun h => congrArg Host.Outcome.next (mspWtrEnd_idle h), fun hon hwtr h => congrArg Host.Outcome.next (mspWtrEnd_ends hon hwtr h), ?mismatch⟩
    case evaluates =>
      have hexec {t : State} (h : mspEvaluate s = t) : exec .mspSelectorEvaluate s = .next t := congrArg Host.Outcome.next h
      exact ⟨fun hbase => hexec (mspEvaluate_serves harch hon hbase), fun hbase =>
        ⟨fun hleaves hrevert => hexec (mspEvaluate_waits harch hon hbase hleaves hrevert),
          fun hleaves hrevert => hexec (mspEvaluate_staysThere harch hon hbase hleaves hrevert),
          fun hstays => hexec (mspEvaluate_rests harch hon hbase hstays)⟩⟩
    case switches =>
      refine ⟨mspSwitch_one hwant, fun harch => ⟨fun h => (mspSwitch_two hwant harch).trans (if_pos h), fun h =>
        (mspSwitch_two hwant harch).trans (if_neg ?_)⟩⟩
      rintro ⟨hl, hfail, hk2⟩
      rcases h with h | h | h
      · exact h hl
      · exact Bool.false_ne_true (hfail.symm.trans h)
      · exact h hk2
    case mismatch =>
      refine ⟨fun hon harch hfail hnot => congrArg Host.Outcome.next (mspMismatch_eq.trans (if_pos ⟨hon, harch, hfail, hnot⟩)),
        fun h => congrArg Host.Outcome.next (mspMismatch_eq.trans (if_neg ?_))⟩
      rintro ⟨hon, harch, hfail, hnot⟩
      rcases h with h | h | h | h
      · exact Bool.false_ne_true (h.symm.trans hon)
      · exact h harch
      · exact Bool.false_ne_true (hfail.symm.trans h)
      · exact hnot h
  case command =>
    intro u m k n i hi
    exact ⟨fun h => (exec_mspCommand hi).trans (serveAct_done hserved _ (mspCommandCall_done h)),
      fun h => (exec_mspCommand hi).trans (serveAct_refused hserved _ (mspCommandCall_badState h))⟩

end Sys2Proof.Machine

/-! PROOFS. Circuit emulation and the time-slot interchange (R488, R491 to R499, R501): the swap of the pages, the alignment and the
justification of a circuit, its packets out and in, and its playout. -/

namespace Sys2Proof.Machine

/-! ### The swap of the pages (R491, R492) -/

theorem mem_sinsert {l : List Nat} {k a : Nat} : a ∈ sinsert l k ↔ a ∈ l ∨ a = k := by
  induction l with
  | nil => simp [sinsert]
  | cons j t ih =>
    unfold sinsert
    split
    · simp [or_comm]
    · split
      · rename_i hne heq
        subst heq
        simp only [List.mem_cons]
        tauto
      · simp only [List.mem_cons, ih, or_assoc]

theorem mem_foldl_sinsert {l m : List Nat} {a : Nat} : a ∈ l.foldl sinsert m ↔ a ∈ m ∨ a ∈ l := by
  induction l generalizing m with
  | nil => simp
  | cons b t ih => rw [List.foldl_cons, ih, mem_sinsert, List.mem_cons, or_assoc]

section
variable {s : State} {page : KMap Word}

/-- The circuits that a page names with a bit set, and another did not. -/
def newlyNamed (old page : KMap Word) (b : Nat) : List Nat := (tsiNamed page b).filter fun c => !(tsiNamed old b).contains c

/-- The circuits that gain a connection in a new page, and so start again (R492; assumption 166). -/
def gainedIn (old page : KMap Word) : List Nat := (newlyNamed old page 31).foldl sinsert (newlyNamed old page 30)

theorem mem_newlyNamed {old : KMap Word} {b c : Nat} : c ∈ newlyNamed old page b ↔ c ∈ tsiNamed page b ∧ c ∉ tsiNamed old b := by
  simp [newlyNamed]

theorem mem_gainedIn {old : KMap Word} {c : Nat} : c ∈ gainedIn old page ↔
    (c ∈ tsiNamed page 30 ∧ c ∉ tsiNamed old 30) ∨ (c ∈ tsiNamed page 31 ∧ c ∉ tsiNamed old 31) := by
  rw [gainedIn, mem_foldl_sinsert, mem_newlyNamed, mem_newlyNamed]

/-- The new page in force, the receive demappers that change still at their old entries. -/
def pageIn (page : KMap Word) (s : State) : State := { s with tdm := { s.tdm with tsi := page, tsiNext := none, tsiOld := rxChanged s.tdm.tsi page } }

/-- The new page in force, and the circuits that gain a connection started again. -/
def pageTaken (page : KMap Word) (s : State) : State :=
  forEach (gainedIn s.tdm.tsi page) (fun c s => setCircuit c (circuitOf s c).restart s) (pageIn page s)

theorem pageTaken_tsiOld : (pageTaken page s).tdm.tsiOld = rxChanged s.tdm.tsi page :=
  (forEach_view (f := fun c s => setCircuit c (circuitOf s c).restart s) (fun s => s.tdm.tsiOld) (fun _ _ _ => rfl) (pageIn page s)).trans
    (by simp only [pageIn])

theorem tsiSwap_none (h : s.tdm.tsiNext = none) : tsiSwap s = s := by
  simp only [tsiSwap, h]

section
variable (hpage : s.tdm.tsiNext = some page)
include hpage

theorem tsiSwap_early (h : tdmOn s = false ∨ s.tb < s.tdm.tsiAt * (4 * frameTb)) : tsiSwap s = s := by
  simp only [tsiSwap, hpage]
  refine if_pos ?_
  rcases h with h | h <;> simp [h]

theorem tsiSwap_takes (hon : tdmOn s = true) (hat : s.tdm.tsiAt * (4 * frameTb) ≤ s.tb) : tsiSwap s =
    if rxChanged s.tdm.tsi page = [] then raise 809 [] [] (releaseObj ⟨.tsi, 0⟩ (pageTaken page s)) else pageTaken page s := by
  have hgo : ¬ (!tdmOn s || decide (s.tb < s.tdm.tsiAt * (4 * frameTb))) = true := by simpa [hon] using hat
  have hdone : tsiSwap s = swapDone (pageTaken page s) := by
    simp only [tsiSwap, hpage]
    exact if_neg hgo
  rw [hdone, swapDone, pageTaken_tsiOld]

end

end

/-! ### Alignment and justification (R493, R499; assumption 168) -/

section
variable {c : Circuit}

/-- A circuit that finds the signal while it holds no alignment holds one from there. -/
def Circuit.aligned (c : Circuit) (found : Bool) : Circuit :=
  if c.fasHeld = true ∨ found = false then c else { c with fasHeld := true, fasOdd := false, fasRun := 0 }

theorem fas_eq (found : Bool) (e1 : List Byte) :
    c.fas found e1 = if (c.aligned found).mode = 2 then (slot0 (c.aligned found).frames e1).foldl Circuit.fasFrame (c.aligned found) else c.aligned found := by
  have hcond : (c.fasHeld || !found) = decide (c.fasHeld = true ∨ found = false) := by cases c.fasHeld <;> cases found <;> rfl
  simp only [Circuit.fas, Circuit.aligned, hcond, decide_eq_true_eq]
  rfl

theorem fasHeld_fasFrame {b : Byte} : (c.fasFrame b).fasHeld = true ↔ c.fasHeld = true ∧ (c.fasFrame b).fasRun < 3 :=
  Bool.and_eq_true_iff.trans (and_congr_right' decide_eq_true_iff)

theorem aligned_mode (found : Bool) : (c.aligned found).mode = c.mode := by
  unfold Circuit.aligned
  split <;> rfl

theorem aligned_frames (found : Bool) : (c.aligned found).frames = c.frames := by
  unfold Circuit.aligned
  split <;> rfl

theorem fas_other {found : Bool} {e1 : List Byte} (h : c.mode ≠ 2) : c.fas found e1 = c.aligned found :=
  (fas_eq found e1).trans (if_neg (by rwa [aligned_mode]))

theorem fas_cesopsn {found : Bool} {e1 : List Byte} (h : c.mode = 2) :
    c.fas found e1 = (slot0 c.frames e1).foldl Circuit.fasFrame (c.aligned found) :=
  (fas_eq found e1).trans ((if_pos (by rwa [aligned_mode])).trans (by rw [aligned_frames]))

/-- What a circuit's clock has gathered by the end of a multiframe, in billionths of a bit. -/
def Circuit.gathered (c : Circuit) : Int := c.slack + 1024 * c.freq

theorem justify_up (h : 1000000000 ≤ c.gathered) : c.justify = ({ c with slack := c.gathered - 1000000000 }, 1) := by
  rw [Circuit.gathered] at h
  simp only [Circuit.justify, Circuit.gathered, if_pos h, mul_one]

theorem justify_down (h : c.gathered ≤ -1000000000) : c.justify = ({ c with slack := c.gathered + 1000000000 }, -1) := by
  rw [Circuit.gathered] at h
  simp only [Circuit.justify, Circuit.gathered, if_neg (show ¬ 1000000000 ≤ c.slack + 1024 * c.freq by omega), if_pos h, mul_neg, mul_one,
    sub_neg_eq_add]

theorem justify_none (hlow : -1000000000 < c.gathered) (hhigh : c.gathered < 1000000000) :
    c.justify = ({ c with slack := c.gathered }, 0) := by
  rw [Circuit.gathered] at hlow hhigh
  simp only [Circuit.justify, Circuit.gathered, if_neg (not_le.mpr hhigh), if_neg (not_le.mpr hlow), mul_zero, sub_zero]

end

/-! ### A demapped payload leaves (R488, R493, R494) -/

section
variable {n : Nat} {b : List Byte} {found : Bool} {first : Nat} {s : State}

/-- A circuit that has looked for its alignment in the E1 demapped for it. -/
def sending (n : Nat) (b : List Byte) (found : Bool) (s : State) : Circuit := (circuitOf s n).fas found (demappedE1 (circuitOf s n) b)

/-- The packet that a demapped payload makes for a circuit whose E1 is at a position: all ones and the L bit where AIS replaces it. -/
def packetFor (c : Circuit) (i : Nat) (b : List Byte) (first : Nat) (s : State) : List Byte :=
  let ais := aisDownstream s (laneAt s i) i
  cePacket c (ais || (decide (c.mode = 2) && !c.fasHeld)) (if ais = true then List.replicate (circuitLen c) 0xFF else demapped c b)
    (((first : Nat) : Rat) * 1944 / 100000000).floor.toNat (Config.freeNat s.free) (Config.freeNat (s.free + 1))

/-- A circuit's packet has left: it is counted, the sequence number moved on, and what a switch replaced used up. -/
def packetSent (n : Nat) (c : Circuit) (pkt : List Byte) (s : State) : State :=
  emit (.pseudowire n pkt) (cnt (cPos 2 n) 1 (setCircuit n
    { c with txSeq := (c.txSeq + 1) % 65536, gap := c.gap - packetUs c * 32 / 125 } (if c.rtp = true then drawn (drawn s) else s)))

theorem cePacketOut_idle (h : tdmOn s = false ∨ (sending n b found s).mode = 0 ∨ rxPosition s n = none) : cePacketOut n b found first s = none := by
  rw [sending] at h
  unfold cePacketOut
  dsimp only
  split
  · rename_i hgo hpos
    obtain ⟨hon, hmode⟩ := Bool.and_eq_true_iff.mp hgo
    rcases h with h | h | h
    · exact absurd (h.symm.trans hon) Bool.false_ne_true
    · exact absurd h (of_decide_eq_true hmode)
    · exact absurd (h.symm.trans hpos) (Option.some_ne_none _).symm
  · rfl

theorem cePacketOut_sends {i : Nat} (hon : tdmOn s = true) (hmode : (sending n b found s).mode ≠ 0) (hpos : rxPosition s n = some i) :
    cePacketOut n b found first s = some (packetSent n (sending n b found s) (packetFor (sending n b found s) i b first s) s,
      packetFor (sending n b found s) i b first s) := by
  rw [sending] at hmode
  simp only [cePacketOut, hon, hpos, decide_eq_true hmode, Bool.and_self]
  rfl

end

/-- A payload without a circuit to carry it makes no packet. -/
theorem exec_cePayloadDemapped_none {n : Fin 1008} {b : List Byte} {first : Nat} {found : Bool} {s : State}
    (h : cePacketOut n b found first s = none) : exec (.cePayloadDemapped n ⟨b, first⟩ found) s = .next s := by
  show execCePayloadDemapped n ⟨b, first⟩ found s = .next s
  simp only [execCePayloadDemapped, h]

/-- A packet enters the distributor as a frame received on port 22. -/
theorem exec_cePayloadDemapped_some {n : Fin 1008} {b pkt : List Byte} {first : Nat} {found : Bool} {s t : State}
    (h : cePacketOut n b found first s = some (t, pkt)) :
    exec (.cePayloadDemapped n ⟨b, first⟩ found) s = orUndefined (distribute 22 false none pkt t) := by
  show execCePayloadDemapped n ⟨b, first⟩ found s = _
  simp only [execCePayloadDemapped, h]

section
variable {n : Fin 1008} {b pkt : List Byte} {first : Nat} {found : Bool} {s t : State} (hout : cePacketOut n b found first s = some (t, pkt))
include hout

/-- A packet whose VID selects no pipeline is dropped, counted and told. -/
theorem payload_unlisted (h : distVid 22 pkt t = 4095 ∨ kgetD t.fwd.dist (distVid 22 pkt t) 0 = 0) :
    exec (.cePayloadDemapped n ⟨b, first⟩ found) s = .next (raise 544 [] [] (cnt (cDev 0) 1 t)) :=
  (exec_cePayloadDemapped_some hout).trans (congrArg orUndefined (distribute_none h))

/-- The pipelines that a packet's VID selects take it. -/
theorem payload_distributed (hvid : distVid 22 pkt t ≠ 4095) (hdist : kgetD t.fwd.dist (distVid 22 pkt t) 0 ≠ 0) :
    let ps := (List.range 4).filter fun p => (kgetD t.fwd.dist (distVid 22 pkt t) 0).testBit p
    let r := toPipes ps 22 (distVid 22 pkt t) (1 < ps.length) false none pkt t
    (∀ z, r = .ok z → exec (.cePayloadDemapped n ⟨b, first⟩ found) s = .next z) ∧
      (∀ e, r = .error e → exec (.cePayloadDemapped n ⟨b, first⟩ found) s = .fault (.undefinedUse "R337")) := by
  have hexec := exec_cePayloadDemapped_some hout
  rw [distribute_some hvid hdist] at hexec
  exact ⟨fun z hz => hexec.trans (congrArg orUndefined hz), fun e he => hexec.trans (congrArg orUndefined he)⟩

end

/-! ### A packet comes in (R495) -/

section
variable {bs : List Byte} {s : State}

theorem cePacketIn_off (h : tdmOn s = false) : cePacketIn bs s = s := if_pos (by rw [h]; rfl)

section
variable (hon : tdmOn s = true)
include hon

theorem cePacketIn_noUdp (h : ceParse bs = none) : cePacketIn bs s = cnt (cDev 13) 1 s := by
  simp only [cePacketIn, hon, h, Bool.not_true, Bool.false_eq_true, if_false]

variable {i : CeIn} (hparse : ceParse bs = some i)
include hparse

theorem cePacketIn_noCircuit (h : (s.tdm.circuits.find? fun e => e.2.mode ≠ 0 && e.2.udpRx = i.port) = none) :
    cePacketIn bs s = cnt (cDev 13) 1 s := by
  simp only [cePacketIn, hon, hparse, h, Bool.not_true, Bool.false_eq_true, if_false]

/-- What follows the RTP header of a circuit's packet, where it has one. -/
def afterRtp (c : Circuit) (i : CeIn) : List Byte := if c.rtp = true then i.body.drop 12 else i.body

/-- The L bit of a circuit's packet. -/
def lBit (c : Circuit) (i : CeIn) : Bool := ((afterRtp c i).getD 0 0).toNat.testBit 3

/-- Whether a packet is of its circuit's length, or carries no payload under the L bit (R495). -/
def ceFits (c : Circuit) (i : CeIn) : Prop :=
  4 ≤ (afterRtp c i).length ∧ (((afterRtp c i).drop 4).length = circuitLen c ∨ (((afterRtp c i).drop 4).length = 0 ∧ lBit c i = true))

variable {n : Nat} {c : Circuit} (hfind : (s.tdm.circuits.find? fun e => e.2.mode ≠ 0 && e.2.udpRx = i.port) = some (n, c))
include hfind

theorem cePacketIn_found : cePacketIn bs s =
    let b := afterRtp c i
    if (decide (b.length < 4) || !(decide ((b.drop 4).length = circuitLen c) || (decide ((b.drop 4).length = 0) && lBit c i))) = true
    then cnt (cDev 13) 1 s
    else ceArrive n (beAt b 2 2) ⟨b.drop 4, lBit c i⟩ (if c.clock = 1 then setCircuit n (c.steer (rtpError (beAt i.body 4 4) s)) s else s) := by
  simp only [cePacketIn, hon, hparse, hfind, Bool.not_true, Bool.false_eq_true, if_false]
  rfl

theorem cePacketIn_badLength (h : ¬ ceFits c i) : cePacketIn bs s = cnt (cDev 13) 1 s := by
  refine (cePacketIn_found hon hparse hfind).trans (if_pos (by_contra fun hb => h ?_))
  simpa only [Bool.or_eq_true, Bool.not_eq_true', decide_eq_true_eq, Bool.and_eq_true, not_or, Nat.not_lt, Bool.not_eq_false, ceFits] using hb

theorem cePacketIn_arrives (h : ceFits c i) : cePacketIn bs s = ceArrive n (beAt (afterRtp c i) 2 2) ⟨(afterRtp c i).drop 4, lBit c i⟩
    (if c.clock = 1 then setCircuit n (c.steer (rtpError (beAt i.body 4 4) s)) s else s) := by
  refine (cePacketIn_found hon hparse hfind).trans (if_neg fun hb => ?_)
  simp only [Bool.or_eq_true, Bool.not_eq_true', decide_eq_true_eq, Bool.or_eq_false_iff, decide_eq_false_iff_not] at hb
  obtain ⟨hlen, hbody⟩ := h
  rcases hb with hb | ⟨hwhole, hempty⟩
  · omega
  · rcases hbody with hbody | ⟨hzero, hl⟩
    · exact hwhole hbody
    · rw [decide_eq_true hzero, hl] at hempty
      cases hempty

end

end

/-! ### An arriving packet joins its buffer (R496, R498) -/

section
variable {c : Circuit} {n seq : Nat} {p : JbPkt} {s : State}

/-- The first packet fixes the sequence number that plays next; so does a late one before the first slot is played. -/
def Circuit.anchored (c : Circuit) (seq : Nat) : Circuit :=
  if c.anyRx = true ∧ (c.played = true ∨ ¬ 32768 ≤ ahead c seq) then c else { c with anyRx := true, nextSeq := seq }

/-- The packets that have come in sequence, with the one that comes now. -/
def Circuit.runWith (c : Circuit) (seq : Nat) : Nat := if seq = (c.lastSeq + 1) % 65536 then min 255 (c.seqRun + 1) else 1

/-- Whether LOPS still stands once a packet has come (R498). -/
def Circuit.lopsWith (c : Circuit) (seq : Nat) : Bool := c.lops && decide (c.runWith seq < c.lopsExit)

/-- A circuit that has counted a packet's sequence number. -/
def Circuit.heard (c : Circuit) (seq : Nat) : Circuit := { c with lastSeq := seq, seqRun := c.runWith seq, lops := c.lopsWith seq }

/-- Whether a packet fills the buffer beyond twice its target (R496). -/
abbrev Circuit.overruns (c : Circuit) (seq : Nat) : Prop :=
  2000 * c.jbTarget < (if (kget c.jb seq).isSome = true then fillUs c else fillUs c + packetUs c)

/-- A buffer that a packet has joined, cut back to its target where it overran. -/
def Circuit.joined (c : Circuit) (seq : Nat) (p : JbPkt) : Circuit :=
  let e := { c.heard seq with jb := kset c.jb seq p }
  if c.overruns seq then discardTo e.jb.length e else e

/-- A buffer that is filled to its target starts to play, from its oldest packet. -/
def Circuit.started (c : Circuit) : Circuit :=
  if c.st = 1 ∧ 1000 * c.jbTarget ≤ fillUs c then { c with st := 2, nextSeq := (oldestSeq c).getD c.nextSeq } else c

/-- A circuit to which a packet has come since the last slot. -/
def withPacket (s : State) (n : Nat) : Circuit := { circuitOf s n with came := true }

/-- A packet is counted as received, and ends LOPS where enough have come in sequence. -/
def packetCounted (n seq : Nat) (s : State) : State :=
  lopsEvent n (circuitOf s n).lops ((withPacket s n).lopsWith seq) (cnt (cPos 3 n) 1 s)

theorem started_eq : c.started =
    if (decide (c.st = 1) && decide (1000 * c.jbTarget ≤ fillUs c)) = true then { c with st := 2, nextSeq := (oldestSeq c).getD c.nextSeq } else c := by
  simp only [Circuit.started, Bool.and_eq_true, decide_eq_true_eq]

theorem anchored_eq : c.anchored seq =
    if (c.anyRx && (c.played || decide (ahead c seq < 32768))) = true then c else { c with anyRx := true, nextSeq := seq } := by
  simp only [Circuit.anchored, Bool.and_eq_true, Bool.or_eq_true, decide_eq_true_eq, Nat.not_le]

/-- What the first packet fixes leaves the run of packets, LOPS and the buffer's fill as they are. -/
theorem anchored_kept : (c.anchored seq).runWith seq = c.runWith seq ∧ (c.anchored seq).lopsWith seq = c.lopsWith seq ∧
    (c.anchored seq).jb = c.jb ∧ ((c.anchored seq).overruns seq ↔ c.overruns seq) := by
  unfold Circuit.anchored
  split
  · exact ⟨rfl, rfl, rfl, Iff.rfl⟩
  · exact ⟨rfl, rfl, rfl, Iff.rfl⟩

/-- The circuit to which a packet comes, its playout anchored. -/
def reachedBy (seq : Nat) (s : State) (n : Nat) : Circuit := (withPacket s n).anchored seq

theorem ceArrive_anchored : ceArrive n seq p s =
    let d := reachedBy seq s n
    let t := lopsEvent n d.lops (d.lopsWith seq) (cnt (cPos 3 n) 1 s)
    if 32768 ≤ ahead (d.heard seq) seq then cnt (cPos 5 n) 1 (setCircuit n (d.heard seq) t)
    else if d.overruns seq then raise 808 [] [wd n] (cnt (cPos 6 n) 1 (setCircuit n (d.joined seq p).started t))
    else setCircuit n (d.joined seq p).started t := by
  simp only [reachedBy, anchored_eq, Circuit.joined, started_eq]
  rfl

theorem heard_reachedBy : (reachedBy seq s n).heard seq =
    { reachedBy seq s n with lastSeq := seq, seqRun := (withPacket s n).runWith seq, lops := (withPacket s n).lopsWith seq } := by
  obtain ⟨hrun, hlops, -, -⟩ := anchored_kept (c := withPacket s n) (seq := seq)
  rw [Circuit.heard, reachedBy, hrun, hlops]

theorem lops_reachedBy : (reachedBy seq s n).lops = (circuitOf s n).lops := by
  unfold reachedBy Circuit.anchored
  split
  · rfl
  · rfl

theorem lopsEvent_reachedBy :
    lopsEvent n (reachedBy seq s n).lops ((reachedBy seq s n).lopsWith seq) (cnt (cPos 3 n) 1 s) = packetCounted n seq s := by
  obtain ⟨-, hlops, -, -⟩ := anchored_kept (c := withPacket s n) (seq := seq)
  rw [lops_reachedBy, reachedBy, hlops, packetCounted]

theorem joined_reachedBy : (reachedBy seq s n).joined seq p =
    let e := { (reachedBy seq s n).heard seq with jb := kset (circuitOf s n).jb seq p }
    if (withPacket s n).overruns seq then discardTo e.jb.length e else e := by
  obtain ⟨-, -, hjb, hfull⟩ := anchored_kept (c := withPacket s n) (seq := seq)
  simp only [Circuit.joined, reachedBy, hjb, hfull]
  rfl

theorem discardTo_jbTarget (fuel : Nat) (c : Circuit) : (discardTo fuel c).jbTarget = c.jbTarget := by
  induction fuel generalizing c with
  | zero => rfl
  | succ f ih =>
    unfold discardTo
    split
    · rfl
    · split
      · rw [ih]
      · rfl

theorem joined_jbTarget : (c.joined seq p).jbTarget = c.jbTarget := by
  unfold Circuit.joined
  dsimp only
  split
  · exact discardTo_jbTarget _ _
  · rfl

theorem reachedBy_jbTarget : (reachedBy seq s n).jbTarget = (circuitOf s n).jbTarget := by
  unfold reachedBy Circuit.anchored
  split
  · rfl
  · rfl

/-- The buffer starts to play at the target that its circuit has. -/
theorem started_reachedBy : ((reachedBy seq s n).joined seq p).started =
    let e := (reachedBy seq s n).joined seq p
    if e.st = 1 ∧ 1000 * (circuitOf s n).jbTarget ≤ fillUs e then { e with st := 2, nextSeq := (oldestSeq e).getD e.nextSeq } else e := by
  exact if_congr (and_congr_right' (by rw [joined_jbTarget, reachedBy_jbTarget])) rfl rfl

theorem ceArrive_eq : ceArrive n seq p s =
    if 32768 ≤ ahead ((reachedBy seq s n).heard seq) seq then
      cnt (cPos 5 n) 1 (setCircuit n ((reachedBy seq s n).heard seq) (packetCounted n seq s))
    else if (withPacket s n).overruns seq then
      raise 808 [] [wd n] (cnt (cPos 6 n) 1 (setCircuit n ((reachedBy seq s n).joined seq p).started (packetCounted n seq s)))
    else setCircuit n ((reachedBy seq s n).joined seq p).started (packetCounted n seq s) := by
  obtain ⟨-, -, -, hfull⟩ := anchored_kept (c := withPacket s n) (seq := seq)
  rw [ceArrive_anchored]
  simp only [lopsEvent_reachedBy]
  exact if_congr Iff.rfl rfl (if_congr hfull rfl rfl)

theorem ceArrive_late (h : 32768 ≤ ahead ((reachedBy seq s n).heard seq) seq) :
    ceArrive n seq p s = cnt (cPos 5 n) 1 (setCircuit n ((reachedBy seq s n).heard seq) (packetCounted n seq s)) :=
  ceArrive_eq.trans (if_pos h)

section
variable (h : ahead ((reachedBy seq s n).heard seq) seq < 32768)
include h

theorem ceArrive_fits (hroom : ¬ (withPacket s n).overruns seq) :
    ceArrive n seq p s = setCircuit n ((reachedBy seq s n).joined seq p).started (packetCounted n seq s) :=
  ceArrive_eq.trans ((if_neg (Nat.not_le.mpr h)).trans (if_neg hroom))

theorem ceArrive_overruns (hfull : (withPacket s n).overruns seq) : ceArrive n seq p s =
    raise 808 [] [wd n] (cnt (cPos 6 n) 1 (setCircuit n ((reachedBy seq s n).joined seq p).started (packetCounted n seq s))) :=
  ceArrive_eq.trans ((if_neg (Nat.not_le.mpr h)).trans (if_pos hfull))

end

end

/-! ### A slot is played (R492, R496, R498, R499) -/

/-- A circuit whose clock, where it is adaptive and plays, its buffer's fill has steered. -/
def Circuit.steered (c : Circuit) : Circuit :=
  if c.clock = 0 ∧ c.st = 2 then c.steer ((fillUs c : Int) - ((1000 * c.jbTarget : Nat) : Int)) else c

/-- A circuit at one of its slots: the clock steered, the parity of its frames turned, and no packet come since. -/
def Circuit.slotted (c : Circuit) : Circuit :=
  { c.steered with odd := if c.mode = 2 then c.odd != c.frames.testBit 0 else c.odd, came := false }

/-- Steering a circuit's clock changes its offset alone. -/
theorem steered_eq {c : Circuit} : c.steered = { c with freq := c.steered.freq } := by
  unfold Circuit.steered
  split
  · rfl
  · rfl

/-- A slot of a circuit, which then stands as `x`, is played as the bytes `b`. -/
def slotPlayed (n : Nat) (x : Circuit) (b : List Byte) (s : State) : State := emit (.playout n (txPosition s n) x.freq b) (setCircuit n x s)

theorem playOut_setCircuit {n : Nat} {x : Circuit} {b : List Byte} {s : State} : playOut n b (setCircuit n x s) = slotPlayed n x b s := by
  rw [playOut, circuitOf_setCircuit]
  rfl

/-- Whether a slot's missing packet leaves LOPS standing. -/
def Circuit.lopsMissing (c : Circuit) : Bool := c.lops || decide (c.lopsEnter ≤ min 255 (c.missRun + 1))

theorem playMissing_eq {n : Nat} {x : Circuit} {s : State} : playMissing n x s =
    lopsEvent n x.lops x.lopsMissing (slotPlayed n { x with missRun := min 255 (x.missRun + 1), lops := x.lopsMissing } (onesOut x) s) := by
  rw [← playOut_setCircuit]
  rfl

section
variable {n : Nat} {s : State}

theorem cePlayout_idle (h : tdmOn s = false ∨ (circuitOf s n).mode = 0) : cePlayout n s = s :=
  if_pos (by rcases h with h | h <;> simp [h])

section
variable (hon : tdmOn s = true) (hmode : (circuitOf s n).mode ≠ 0)
include hon hmode

theorem cePlayout_unsent (h : txPosition s n = none) :
    cePlayout n s = emit (.playout n none (circuitOf s n).freq (onesOut (circuitOf s n))) s := by
  simp only [cePlayout, hon, decide_eq_false hmode, h, playOut]
  rfl

variable (hsent : (txPosition s n).isSome = true)
include hsent

theorem cePlayout_sent : cePlayout n s =
    let c := circuitOf s n
    let d := c.slotted
    if c.st ≠ 2 then
      (if (c.played && !c.came) = true then playMissing n d s else slotPlayed n { d with missRun := 0 } (onesOut c) s)
    else if c.jb = [] then raise 808 [] [putb true 31 ||| wd n] (cnt (cPos 7 n) 1 (playMissing n { d with st := 1, played := true } s))
    else
      let e := { d with jb := kerase c.jb c.nextSeq, nextSeq := (c.nextSeq + 1) % 65536, played := true }
      match kget c.jb c.nextSeq with
      | some p =>
        slotPlayed n { e with missRun := 0 } (if p.lbit = true then onesOut c else if c.mode = 2 then
          expandFrames c.tsMask c.frames (if c.odd = true then 1 else 0) p.payload else p.payload) s
      | none => cnt (cPos 4 n) 1 (playMissing n e s) := by
  have hcond (c : Circuit) : (if (decide (c.clock = 0) && decide (c.st = 2)) = true then c.steer ((fillUs c : Int) - (1000 * c.jbTarget : Nat)) else c) =
      { c with freq := c.steered.freq } := by
    rw [← steered_eq]
    simp only [Circuit.steered, Bool.and_eq_true, decide_eq_true_eq]
  have hnone : (txPosition s n).isNone = false := by rw [← Option.not_isSome, hsent]; rfl
  have hslot (c : Circuit) : c.slotted = { c with freq := c.steered.freq, odd := if c.mode = 2 then c.odd != c.frames.testBit 0 else c.odd, came := false } := by
    rw [Circuit.slotted, steered_eq]
  simp only [cePlayout, hon, decide_eq_false hmode, hnone, hcond, hslot, playOut_setCircuit]
  rfl

theorem cePlayout_waiting (hst : (circuitOf s n).st ≠ 2) (h : (circuitOf s n).played = false ∨ (circuitOf s n).came = true) :
    cePlayout n s = slotPlayed n { (circuitOf s n).slotted with missRun := 0 } (onesOut (circuitOf s n)) s := by
  rw [cePlayout_sent hon hmode hsent]
  exact (if_pos hst).trans (if_neg (by rcases h with h | h <;> simp [h]))

theorem cePlayout_lacking (hst : (circuitOf s n).st ≠ 2) (hplayed : (circuitOf s n).played = true) (hcame : (circuitOf s n).came = false) :
    cePlayout n s = playMissing n (circuitOf s n).slotted s := by
  rw [cePlayout_sent hon hmode hsent]
  exact (if_pos hst).trans (if_pos (by rw [hplayed, hcame]; rfl))

variable (hst : (circuitOf s n).st = 2)
include hst

theorem cePlayout_underrun (h : (circuitOf s n).jb = []) : cePlayout n s =
    raise 808 [] [putb true 31 ||| wd n] (cnt (cPos 7 n) 1 (playMissing n { (circuitOf s n).slotted with st := 1, played := true } s)) := by
  rw [cePlayout_sent hon hmode hsent]
  exact (if_neg (not_not.mpr hst)).trans (if_pos h)

/-- A circuit that has taken the next sequence number from its buffer. -/
def nextTaken (c : Circuit) : Circuit :=
  { c.slotted with jb := kerase c.jb c.nextSeq, nextSeq := (c.nextSeq + 1) % 65536, played := true }

variable (hjb : (circuitOf s n).jb ≠ [])
include hjb

theorem cePlayout_next {p : JbPkt} (h : kget (circuitOf s n).jb (circuitOf s n).nextSeq = some p) :
    cePlayout n s = slotPlayed n { nextTaken (circuitOf s n) with missRun := 0 } (if p.lbit = true then onesOut (circuitOf s n)
      else if (circuitOf s n).mode = 2 then
        expandFrames (circuitOf s n).tsMask (circuitOf s n).frames (if (circuitOf s n).odd = true then 1 else 0) p.payload
      else p.payload) s := by
  rw [cePlayout_sent hon hmode hsent]
  dsimp only
  rw [if_neg (not_not.mpr hst), if_neg hjb, h]
  rfl

theorem cePlayout_missing (h : kget (circuitOf s n).jb (circuitOf s n).nextSeq = none) :
    cePlayout n s = cnt (cPos 4 n) 1 (playMissing n (nextTaken (circuitOf s n)) s) := by
  rw [cePlayout_sent hon hmode hsent]
  dsimp only
  rw [if_neg (not_not.mpr hst), if_neg hjb, h]
  rfl

end

/-- A slot of the circuit `c` whose packet is missing, as all ones; the circuit then stands as `x`, with the run of missing packets counted. -/
def onesMissing (n : Nat) (c x : Circuit) (s : State) : State :=
  lopsEvent n x.lops x.lopsMissing (slotPlayed n { x with missRun := min 255 (x.missRun + 1), lops := x.lopsMissing } (onesOut c) s)

theorem playMissing_of_same {c x : Circuit} (h : onesOut x = onesOut c) : playMissing n x s = onesMissing n c x s := by
  rw [playMissing_eq, h, onesMissing]

theorem onesOut_slotted {c : Circuit} : onesOut c.slotted = onesOut c := by
  rw [Circuit.slotted, steered_eq]
  rfl

end

/-! ### O50 -/

/-- Settles O50: each clause is the lemma of its command, and the circuit's alignment and clock are taken as the frames and bits show. -/
theorem circuitsArePackedAndPlayed : Obligations.CircuitsArePackedAndPlayed := by
  unfold Obligations.CircuitsArePackedAndPlayed
  intro s
  refine ⟨fun h => congrArg Host.Outcome.next (tsiSwap_none h), fun page hpage => ⟨fun h => congrArg Host.Outcome.next (tsiSwap_early hpage h),
      fun hon hat => ⟨gainedIn s.tdm.tsi page, fun c => mem_gainedIn, congrArg Host.Outcome.next (tsiSwap_takes hpage hon hat)⟩⟩,
    fun c found e1 => ⟨fas_other, fas_cesopsn⟩, ?fasFrame, fun c => ⟨justify_up, justify_down, justify_none⟩, ?payload, ?packetIn, ?arrive, ?playout⟩
  case fasFrame =>
    refine fun c b => ⟨decide_eq_true_iff, rfl, ?_, ?_⟩
    · unfold Circuit.fasFrame
      rfl
    · exact fasHeld_fasFrame
  case payload =>
    refine fun n b found first => ⟨fun h => exec_cePayloadDemapped_none (cePacketOut_idle h), fun i hon hmode hpos => ?_⟩
    intro ais pkt t own vid
    have hout : cePacketOut n b found first s = some (t, pkt) := cePacketOut_sends hon hmode hpos
    clear_value pkt t
    exact ⟨payload_unlisted hout, payload_distributed hout⟩
  case packetIn =>
    refine fun bs => ⟨fun h => congrArg Host.Outcome.next (cePacketIn_off h), fun hon => ⟨fun h => congrArg Host.Outcome.next (cePacketIn_noUdp hon h),
      fun i hparse => ⟨fun h => congrArg Host.Outcome.next (cePacketIn_noCircuit hon hparse h), fun n c hfind => ⟨fun h => ?_, fun h => ?_⟩⟩⟩⟩
    · exact congrArg Host.Outcome.next (cePacketIn_badLength hon hparse hfind h)
    · exact congrArg Host.Outcome.next (cePacketIn_arrives hon hparse hfind h)
  case arrive =>
    intro n seq p
    have hlate := ceArrive_late (n := n) (seq := seq) (p := p) (s := s)
    have hfits := ceArrive_fits (n := n) (seq := seq) (p := p) (s := s)
    have hover := ceArrive_overruns (n := n) (seq := seq) (p := p) (s := s)
    rw [started_reachedBy, joined_reachedBy] at hfits hover
    rw [heard_reachedBy] at hlate hfits hover
    exact ⟨hlate, hfits, hover⟩
  case playout =>
    intro n
    have hones {x : Circuit} (h : onesOut x = onesOut (circuitOf s n)) := playMissing_of_same (n := n) (s := s) h
    have hslot := onesOut_slotted (c := circuitOf s n)
    refine ⟨fun h => congrArg Host.Outcome.next (cePlayout_idle h), fun hon hmode => ⟨fun h => ?_, fun hsent hst h => ?_, fun hsent hst hp hc => ?_,
      fun hsent hst h => ?_, fun hsent hst hjb => ⟨fun p h => ?_, fun h => ?_⟩⟩⟩
    · exact congrArg Host.Outcome.next (cePlayout_unsent hon hmode (Option.not_isSome_iff_eq_none.mp h))
    · exact congrArg Host.Outcome.next (cePlayout_waiting hon hmode hsent hst h)
    · exact congrArg Host.Outcome.next ((cePlayout_lacking hon hmode hsent hst hp hc).trans (hones hslot))
    · exact congrArg Host.Outcome.next ((cePlayout_underrun hon hmode hsent hst h).trans
        (congrArg (fun t => raise 808 [] [putb true 31 ||| wd n] (cnt (cPos 7 n) 1 t)) (hones hslot)))
    · exact congrArg Host.Outcome.next (cePlayout_next hon hmode hsent hst hjb h)
    · exact congrArg Host.Outcome.next ((cePlayout_missing hon hmode hsent hst hjb h).trans (congrArg (cnt (cPos 4 n) 1) (hones hslot)))

end Sys2Proof.Machine

/-! PROOFS. The calls of family 0x0D that read (R482, R490 to R492, R498, R499, R503): what the body of each gives. -/

namespace Sys2Proof.Machine

section
variable {ws : List Word} {s : State}

/-! ### `SDH_STATUS` (R503) -/

theorem sdhStatus_of_kind {kind : Nat} (h : fld (pw ws 0) 29 28 = kind) : sdhStatus ws s =
    match (generalizing := false) kind with
    | 0 => .ok [wd (laneDefects s (fld (pw ws 0) 16 16)), 0]
    | 1 => if 15 < fld (pw ws 0) 9 0 then .error .badArg else
        let a := auOf s (fld (pw ws 0) 16 16) (fld (pw ws 0) 9 0)
        .ok [wd (auDefects a), wd (a.ptr.st * 2 ^ 16 + a.ptr.offset)]
    | 2 => if 1007 < fld (pw ws 0) 9 0 then .error .badArg else
        let p := tuOf s s.tdm.msp.selected (fld (pw ws 0) 9 0)
        .ok [wd (tuDefects s s.tdm.msp.selected (fld (pw ws 0) 9 0)), wd (p.ptr.st * 2 ^ 16 + p.ptr.offset)]
    | _ => .error .badArg := by
  subst h
  rfl

theorem sdhStatus_lane (h : fld (pw ws 0) 29 28 = 0) : sdhStatus ws s = .ok [wd (laneDefects s (fld (pw ws 0) 16 16)), 0] :=
  sdhStatus_of_kind h

theorem sdhStatus_au (h : fld (pw ws 0) 29 28 = 1) (hix : fld (pw ws 0) 9 0 ≤ 15) : sdhStatus ws s =
    let a := auOf s (fld (pw ws 0) 16 16) (fld (pw ws 0) 9 0)
    .ok [wd (auDefects a), wd (a.ptr.st * 2 ^ 16 + a.ptr.offset)] :=
  (sdhStatus_of_kind h).trans (if_neg (Nat.not_lt.mpr hix))

theorem sdhStatus_tu (h : fld (pw ws 0) 29 28 = 2) (hix : fld (pw ws 0) 9 0 ≤ 1007) : sdhStatus ws s =
    let p := tuOf s s.tdm.msp.selected (fld (pw ws 0) 9 0)
    .ok [wd (tuDefects s s.tdm.msp.selected (fld (pw ws 0) 9 0)), wd (p.ptr.st * 2 ^ 16 + p.ptr.offset)] :=
  (sdhStatus_of_kind h).trans (if_neg (Nat.not_lt.mpr hix))

theorem sdhStatus_badArg (h : fld (pw ws 0) 29 28 = 3 ∨ (fld (pw ws 0) 29 28 = 1 ∧ 15 < fld (pw ws 0) 9 0) ∨
    (fld (pw ws 0) 29 28 = 2 ∧ 1007 < fld (pw ws 0) 9 0)) : sdhStatus ws s = .error .badArg := by
  obtain h | ⟨h, hix⟩ | ⟨h, hix⟩ := h
  · exact sdhStatus_of_kind h
  · exact (sdhStatus_of_kind h).trans (if_pos hix)
  · exact (sdhStatus_of_kind h).trans (if_pos hix)

/-! ### `SDH_TRACE_READ` (R482, R503) -/

theorem sdhTraceRead_badArg {ch : Nat} (h : traceOk (pw ws 0) = false) : sdhTraceRead ch ws s = .error .badArg :=
  if_pos (by rw [h]; rfl)

/-- The accepted trace goes to host memory, filled to 64 bytes. -/
theorem sdhTraceRead_done {ch : Nat} (h : traceOk (pw ws 0) = true) : sdhTraceRead ch ws s =
    let t := traceOf (pw ws 0) s
    .ok (emit (.dma ch (wide ws 1 2) ((t.accepted ++ List.replicate 64 0).take 64)) s, [putb t.tim 0]) :=
  if_neg (by rw [h]; exact Bool.false_ne_true)

/-! ### `TSI_READ` (R491, R492) -/

theorem tsiRead_done (h : fld (pw ws 0) 9 0 ≤ 1007) : tsiRead ws s = .ok [tsiEntry s (fld (pw ws 0) 9 0), putb s.tdm.tsiNext.isSome 31] :=
  if_neg (Nat.not_lt.mpr h)

theorem tsiRead_badArg (h : 1008 ≤ fld (pw ws 0) 9 0) : tsiRead ws s = .error .badArg := if_pos h

/-! ### `CE_CIRCUIT_READ` (R498, R499) -/

theorem ceCircuitRead_badArg (h : 1008 ≤ fld (pw ws 0) 9 0) : ceCircuitRead ws s = .error .badArg := if_pos h

section
variable {c : Circuit} (hn : fld (pw ws 0) 9 0 ≤ 1007) (hc : circuitOf s (fld (pw ws 0) 9 0) = c)
include hn hc

theorem ceCircuitRead_named : ceCircuitRead ws s =
    .ok [wd (if c.mode = 0 then 0 else if c.lops = true then 3 else c.st), wd (fillUs c),
      if (decide (c.mode = 0) || decide (c.clock = 2)) = true then 0 else wd (unsgn 32 c.freq)] := by
  subst hc
  exact if_neg (Nat.not_lt.mpr hn)

theorem ceCircuitRead_off (h : c.mode = 0) : ceCircuitRead ws s = .ok [0, wd (fillUs c), 0] := by
  rw [ceCircuitRead_named hn hc, if_pos h, decide_eq_true h, Bool.true_or, if_pos rfl]
  rfl

variable (hmode : c.mode ≠ 0)
include hmode

/-- A circuit clocked by the line has no offset of its own. -/
theorem ceCircuitRead_lineClock (h : c.clock = 2) :
    ceCircuitRead ws s = .ok [wd (if c.lops = true then 3 else c.st), wd (fillUs c), 0] := by
  rw [ceCircuitRead_named hn hc, if_neg hmode, decide_eq_true h, Bool.or_true, if_pos rfl]

theorem ceCircuitRead_ownClock (h : c.clock ≠ 2) :
    ceCircuitRead ws s = .ok [wd (if c.lops = true then 3 else c.st), wd (fillUs c), wd (unsgn 32 c.freq)] := by
  rw [ceCircuitRead_named hn hc, if_neg hmode, decide_eq_false hmode, decide_eq_false h, Bool.or_false, if_neg Bool.false_ne_true]

end

end

/-! ### O51 -/

/-- Settles O51: each row is its call's body, by the kind and the index that the word names. -/
theorem tdmCallsAnswer : Obligations.TdmCallsAnswer := by
  unfold Obligations.TdmCallsAnswer
  intro c s
  refine ⟨fun hserved => ?status, fun hserved => ?trace, fun hserved => serveRead_done hserved (fun s => .ok (mspStatus s)) rfl,
    fun hserved => ?page, fun hserved => ?circuit⟩
  case status =>
    exact ⟨fun h => serveRead_done hserved _ (sdhStatus_lane h), fun h hix => serveRead_done hserved _ (sdhStatus_au h hix),
      fun h hix => serveRead_done hserved _ (sdhStatus_tu h hix), fun h => serveRead_refused hserved _ (sdhStatus_badArg h)⟩
  case trace =>
    exact ⟨fun h => serveAct_done hserved _ (sdhTraceRead_done h), fun h => serveAct_refused hserved _ (sdhTraceRead_badArg h)⟩
  case page =>
    exact ⟨fun h => serveRead_done hserved _ (tsiRead_done h), fun h => serveRead_refused hserved _ (tsiRead_badArg h)⟩
  case circuit =>
    exact ⟨fun h => serveRead_refused hserved _ (ceCircuitRead_badArg h), fun hn =>
      ⟨fun h => serveRead_done hserved _ (ceCircuitRead_off hn rfl h), fun hmode h => serveRead_done hserved _ (ceCircuitRead_lineClock hn rfl hmode h),
        fun hmode h => serveRead_done hserved _ (ceCircuitRead_ownClock hn rfl hmode h)⟩⟩

end Sys2Proof.Machine

/-! PROOFS. The keys of an ONU (R395 to R400, R418): their exchange, the switch at a frame, and their age. -/

namespace Sys2Proof.Machine

/-! ### Commands that run on the active Span alone -/

section
variable {sp : Nat} {f : State → State} {s : State}

theorem keysHere_standby (h : (spanOf s sp).standby = true) : keysHere sp f s = .next s := congrArg Host.Outcome.next (if_pos h)

theorem keysHere_active (h : (spanOf s sp).standby = false) : keysHere sp f s = .next (f s) :=
  congrArg Host.Outcome.next (if_neg (by rw [h]; exact Bool.false_ne_true))

theorem keysHere_active_eq (h : (spanOf s sp).standby = false) {t : State} (ht : f s = t) : keysHere sp f s = .next t :=
  (keysHere_active h).trans (congrArg Host.Outcome.next ht)

end

/-! ### A fragment of a key comes (R395, R396) -/

section
variable {sp o frag : Nat} {last : Bool} {bytes : List Byte} {s : State}

theorem onuKeys_takeFrag : onuKeys (takeFrag sp o frag last bytes s) sp o =
    { onuKeys s sp o with frags := kset (onuKeys s sp o).frags frag bytes, lastFrag := if last then some frag else (onuKeys s sp o).lastFrag } :=
  onuKeys_setOnuKeys _ _ _ _

variable {gPier : Bool}

theorem exchanging_iff : exchanging s sp o gPier = true ↔
    (onuKeys s sp o).exchange = true ∧ (onuOf s sp o).st = .active ∧ decide ((onuOf s sp o).pier = 2) = gPier := by
  simp only [exchanging, Bool.and_eq_true, decide_eq_true_eq, and_assoc]
  cases gPier <;> simp

/-- Whether a report is of no use: no exchange with such an ONU is outstanding, or it names the other index. -/
def offTopic (s : State) (sp o ix : Nat) (gPier : Bool) : Prop :=
  (onuKeys s sp o).exchange = false ∨ (onuOf s sp o).st ≠ .active ∨ decide ((onuOf s sp o).pier = 2) ≠ gPier ∨ ix ≠ claimIx (onuKeys s sp o)

theorem offTopic_cond {ix : Nat} (h : offTopic s sp o ix gPier) : ¬ (exchanging s sp o gPier && decide (ix = claimIx (onuKeys s sp o))) = true := by
  rw [Bool.and_eq_true, exchanging_iff, decide_eq_true_eq]
  rintro ⟨⟨hex, hst, hpier⟩, hix⟩
  rcases h with h | h | h | h
  · rw [hex] at h; cases h
  · exact h hst
  · exact h hpier
  · exact h hix

theorem onTopic_cond (hex : (onuKeys s sp o).exchange = true) (hst : (onuOf s sp o).st = .active)
    (hpier : decide ((onuOf s sp o).pier = 2) = gPier) :
    (exchanging s sp o gPier && decide (claimIx (onuKeys s sp o) = claimIx (onuKeys s sp o))) = true := by
  rw [exchanging_iff.mpr ⟨hex, hst, hpier⟩, decide_eq_true rfl]
  rfl

end

/-- The key under which an ONU wraps its reports: its own KEK, or the default one before it has an MSK (R395; assumption 5). -/
def kekOf (k : OnuKeys) : Nat := if k.msk.isSome then k.kek else Config.defaultKek

/-- What a key report of an H-pier or X-pier does on the active Span. -/
def reportTaken (sp o : Nat) (frag : KeyFrag) (s : State) : State :=
  let t := replied sp o s
  if (exchanging t sp o false && decide (frag.keyIx = claimIx (onuKeys t sp o))) = true then
    let u := takeFrag sp o frag.frag frag.last frag.bytes t
    match (onuKeys u sp o).assembled.bind (unwrapKey (kekOf (onuKeys u sp o))) with
    | some key => loadKey sp o key u
    | none => u
  else t

/-- What a fragment of a G-pier's key does on the active Span. -/
def fragmentTaken (sp o ix frag : Nat) (bytes : List Byte) (s : State) : State :=
  let t := replied sp o s
  if (exchanging t sp o true && decide (ix = claimIx (onuKeys t sp o))) = true then
    let u := takeFrag sp o frag false bytes t
    let all := (onuKeys u sp o).frags.flatMap (·.2)
    if 16 ≤ all.length then loadKey sp o (leNat (all.take 16)) u else u
  else t

theorem exec_keyReportReceived {sp : SpanIx} {o : OnuIx} {frag : KeyFrag} {s : State} :
    exec (.keyReportReceived sp o frag) s = keysHere sp (reportTaken sp o frag) s := rfl

theorem exec_encryptionKeyReceived {sp : SpanIx} {o : OnuIx} {ix frag : Nat} {bytes : List Byte} {s : State} :
    exec (.encryptionKeyReceived sp o ix frag bytes) s = keysHere sp (fragmentTaken sp o ix frag bytes) s := rfl

section
variable {sp : SpanIx} {o : OnuIx} {s : State} (hact : (spanOf s sp).standby = false)
include hact

section
variable {ix frag : Nat} {last : Bool} {bytes : List Byte}

/-- A report that no exchange asks for ends the wait for a reply, and no more. -/
theorem keyReport_offTopic (h : offTopic (replied sp o s) sp o ix false) :
    exec (.keyReportReceived sp o ⟨ix, frag, last, bytes⟩) s = .next (replied sp o s) :=
  exec_keyReportReceived.trans (keysHere_active_eq hact (if_neg (offTopic_cond h)))

theorem encryptionKey_offTopic (h : offTopic (replied sp o s) sp o ix true) :
    exec (.encryptionKeyReceived sp o ix frag bytes) s = .next (replied sp o s) :=
  exec_encryptionKeyReceived.trans (keysHere_active_eq hact (if_neg (offTopic_cond h)))

end

section
variable {t : State} (ht : replied sp o s = t) (hex : (onuKeys t sp o).exchange = true) (hst : (onuOf t sp o).st = .active)
include ht hex hst

section
variable {frag : Nat} {last : Bool} {bytes : List Byte} (hpier : (onuOf t sp o).pier ≠ 2)
include hpier

theorem keyReport_onTopic : exec (.keyReportReceived sp o ⟨claimIx (onuKeys t sp o), frag, last, bytes⟩) s =
    .next (match (onuKeys (takeFrag sp o frag last bytes t) sp o).assembled.bind (unwrapKey (kekOf (onuKeys t sp o))) with
      | some key => loadKey sp o key (takeFrag sp o frag last bytes t)
      | none => takeFrag sp o frag last bytes t) := by
  subst ht
  have hkek : kekOf (onuKeys (replied sp o s) sp o) = kekOf (onuKeys (takeFrag sp o frag last bytes (replied sp o s)) sp o) := by
    rw [onuKeys_takeFrag]
    rfl
  rw [hkek]
  exact exec_keyReportReceived.trans (keysHere_active_eq hact (if_pos (onTopic_cond hex hst (decide_eq_false hpier))))

variable {u : State} (hu : takeFrag sp o frag last bytes t = u)
include hu

theorem keyReport_complete {bs : List Byte} (hall : (onuKeys u sp o).assembled = some bs) (hlen : bs.length = 16) :
    exec (.keyReportReceived sp o ⟨claimIx (onuKeys t sp o), frag, last, bytes⟩) s =
      .next (loadKey sp o (leNat (aesDec (toLe 16 (kekOf (onuKeys t sp o))) bs)) u) := by
  rw [keyReport_onTopic hact ht hex hst hpier, hu, hall, Option.bind_some, unwrapKey, if_pos hlen]

theorem keyReport_badLength {bs : List Byte} (hall : (onuKeys u sp o).assembled = some bs) (hlen : bs.length ≠ 16) :
    exec (.keyReportReceived sp o ⟨claimIx (onuKeys t sp o), frag, last, bytes⟩) s = .next u := by
  rw [keyReport_onTopic hact ht hex hst hpier, hu, hall, Option.bind_some, unwrapKey, if_neg hlen]

theorem keyReport_partial (hall : (onuKeys u sp o).assembled = none) :
    exec (.keyReportReceived sp o ⟨claimIx (onuKeys t sp o), frag, last, bytes⟩) s = .next u := by
  rw [keyReport_onTopic hact ht hex hst hpier, hu, hall, Option.bind_none]

end

section
variable {frag : Nat} {bytes : List Byte} (hpier : (onuOf t sp o).pier = 2)
include hpier

theorem encryptionKey_onTopic : exec (.encryptionKeyReceived sp o (claimIx (onuKeys t sp o)) frag bytes) s =
    .next (let u := takeFrag sp o frag false bytes t
      let all := (onuKeys u sp o).frags.flatMap (·.2)
      if 16 ≤ all.length then loadKey sp o (leNat (all.take 16)) u else u) := by
  subst ht
  exact exec_encryptionKeyReceived.trans (keysHere_active_eq hact (if_pos (onTopic_cond hex hst (decide_eq_true hpier))))

end

end

end

/-! ### The exchange times out, and a key reaches its margin, its end and the end of its retirement (R395, R398 to R400) -/

section
variable {sp o : Nat} {s : State}

theorem exchangeTimeout_asks (hex : (onuKeys s sp o).exchange = true) (hst : (onuOf s sp o).st = .active) : exchangeTimeout sp o s =
    askKey sp o (keyEvent sp o 3 (claimIx (onuKeys s sp o)) (cnt (cOnu 25 sp o) 1 s)) :=
  if_pos (by rw [hex, decide_eq_true hst]; rfl)

theorem exchangeTimeout_none (h : (onuKeys s sp o).exchange = false ∨ (onuOf s sp o).st ≠ .active) : exchangeTimeout sp o s = s :=
  if_neg (by rcases h with h | h <;> simp [h])

section
variable {ix : Nat} (hix : ixIn (onuKeys s sp o).s1 (onuKeys s sp o).s2 .active = ix)
include hix

theorem keyMargin_eq : keyMargin sp o s =
    let k := onuKeys s sp o
    let c := pierKeys s sp (onuOf s sp o).pier
    if (decide (ix ≠ 0) && decide (c.margin ≠ 0) && (k.slot ix).aged (c.life - c.margin) (frameNo s) && !(k.slot ix).told) = true then
      let t := keyEvent sp o 0 ix (setOnuKeys sp o (k.put ix { k.slot ix with told := true }) s)
      if (c.autoRoll && !k.exchange && decide ((onuOf t sp o).st = .active)) = true then askKey sp o t else t
    else s := by
  subst hix
  rfl

theorem keyMargin_none (h : ix = 0 ∨ (pierKeys s sp (onuOf s sp o).pier).margin = 0 ∨
    ((onuKeys s sp o).slot ix).aged ((pierKeys s sp (onuOf s sp o).pier).life - (pierKeys s sp (onuOf s sp o).pier).margin) (frameNo s) = false ∨
    ((onuKeys s sp o).slot ix).told = true) : keyMargin sp o s = s :=
  (keyMargin_eq hix).trans (if_neg (by rcases h with h | h | h | h <;> simp [h]))

section
variable (hne : ix ≠ 0) (hmargin : (pierKeys s sp (onuOf s sp o).pier).margin ≠ 0)
  (haged : ((onuKeys s sp o).slot ix).aged ((pierKeys s sp (onuOf s sp o).pier).life - (pierKeys s sp (onuOf s sp o).pier).margin) (frameNo s) = true)
  (htold : ((onuKeys s sp o).slot ix).told = false)
include hne hmargin haged htold

/-- What follows the event of a margin: a new key is asked for, where the Pier rolls its keys by itself. -/
theorem keyMargin_reached : keyMargin sp o s =
    let k := onuKeys s sp o
    let t := keyEvent sp o 0 ix (setOnuKeys sp o (k.put ix { k.slot ix with told := true }) s)
    if ((pierKeys s sp (onuOf s sp o).pier).autoRoll && !k.exchange && decide ((onuOf t sp o).st = .active)) = true then askKey sp o t else t :=
  (keyMargin_eq hix).trans (if_pos (by rw [decide_eq_true hne, decide_eq_true hmargin, haged, htold]; rfl))

end

theorem keyExpired_eq : keyExpired sp o s =
    let k := onuKeys s sp o
    let c := pierKeys s sp (onuOf s sp o).pier
    if (decide (ix ≠ 0) && (k.slot ix).aged c.life (frameNo s) && !(k.slot (3 - ix)).due (frameNo s)) = true then
      let e : Slot := { k.slot ix with st := .expired }
      setDefect sp o 8 true true (keyEvent sp o 1 ix (mirrorKey sp (some o) (onuOf s sp o).pier ix e (setOnuKeys sp o (k.put ix e) s)))
    else s := by
  subst hix
  rfl

theorem keyExpired_none (h : ix = 0 ∨ ((onuKeys s sp o).slot ix).aged (pierKeys s sp (onuOf s sp o).pier).life (frameNo s) = false ∨
    ((onuKeys s sp o).slot (3 - ix)).due (frameNo s) = true) : keyExpired sp o s = s :=
  (keyExpired_eq hix).trans (if_neg (by rcases h with h | h | h <;> simp [h]))

theorem keyExpired_expires (hne : ix ≠ 0) (haged : ((onuKeys s sp o).slot ix).aged (pierKeys s sp (onuOf s sp o).pier).life (frameNo s) = true)
    (hdue : ((onuKeys s sp o).slot (3 - ix)).due (frameNo s) = false) : keyExpired sp o s =
    let e : Slot := { (onuKeys s sp o).slot ix with st := .expired }
    setDefect sp o 8 true true (keyEvent sp o 1 ix (mirrorKey sp (some o) (onuOf s sp o).pier ix e
      (setOnuKeys sp o ((onuKeys s sp o).put ix e) s))) :=
  (keyExpired_eq hix).trans (if_pos (by rw [decide_eq_true hne, haged, hdue]; rfl))

end

section
variable {ix : Nat} (hix : ixIn (onuKeys s sp o).s1 (onuKeys s sp o).s2 .retiring = ix)
include hix

theorem keyRetired_at {f : Nat} (hat : ((onuKeys s sp o).slot ix).at_ = some f) : keyRetired sp o s =
    if (decide (ix ≠ 0) && decide (f + (pierKeys s sp (onuOf s sp o).pier).retire ≤ frameNo s)) = true then
      mirrorKey sp (some o) (onuOf s sp o).pier ix {} (setOnuKeys sp o ((onuKeys s sp o).put ix {}) s)
    else s := by
  subst hix
  simp only [keyRetired, hat]

theorem keyRetired_ends {f : Nat} (hne : ix ≠ 0) (hat : ((onuKeys s sp o).slot ix).at_ = some f)
    (hover : f + (pierKeys s sp (onuOf s sp o).pier).retire ≤ frameNo s) :
    keyRetired sp o s = mirrorKey sp (some o) (onuOf s sp o).pier ix {} (setOnuKeys sp o ((onuKeys s sp o).put ix {}) s) :=
  (keyRetired_at hix hat).trans (if_pos (by rw [decide_eq_true hne, decide_eq_true hover]; rfl))

theorem keyRetired_none (h : ix = 0 ∨ ∀ f, ((onuKeys s sp o).slot ix).at_ = some f → frameNo s < f + (pierKeys s sp (onuOf s sp o).pier).retire) :
    keyRetired sp o s = s := by
  cases hat : ((onuKeys s sp o).slot ix).at_ with
  | none =>
    subst hix
    simp only [keyRetired, hat]
  | some f =>
    refine (keyRetired_at hix hat).trans (if_neg fun hcond => ?_)
    obtain ⟨hne, hover⟩ := Bool.and_eq_true_iff.mp hcond
    rcases h with h | h
    · exact of_decide_eq_true hne h
    · exact Nat.not_lt.mpr (of_decide_eq_true hover) (h f hat)

end

end

/-! ### O29 -/

section
variable {sp : SpanIx} {o : OnuIx} {s : State}

theorem exec_keyMirrorAckTimeout (h : (onuKeys s sp o).waits ≠ none) : exec (.keyMirrorAckTimeout sp o) s = .next (fixSwitch sp o s) :=
  congrArg Host.Outcome.next (if_pos (Option.isSome_iff_ne_none.mpr h))

theorem exec_keyMirrorAckTimeout_none (h : (onuKeys s sp o).waits = none) : exec (.keyMirrorAckTimeout sp o) s = .next s :=
  congrArg Host.Outcome.next (if_neg (by rw [h]; exact Bool.false_ne_true))

end

/-- Settles O29: a standby's commands pass by, and each command of the active Span is the lemma of its function. -/
theorem onuKeysRoll : Obligations.OnuKeysRoll := by
  unfold Obligations.OnuKeysRoll
  refine ⟨fun s sp o h => ⟨fun _ _ _ _ => exec_keyReportReceived.trans (keysHere_standby h),
    fun _ _ _ => exec_encryptionKeyReceived.trans (keysHere_standby h), keysHere_standby h, fun _ => keysHere_standby h,
    keysHere_standby h, keysHere_standby h⟩, fun s sp o => ⟨fun hact => ⟨?reports, ?timeout, ?noTimeout, fun _ => keysHere_active hact, ?aging⟩,
    ⟨?retired, ?notRetired⟩, exec_keyMirrorAckTimeout, exec_keyMirrorAckTimeout_none⟩⟩
  case reports =>
    refine ⟨fun frag last w hex hst hpier => ⟨fun bs hall hlen => ?_, fun bs hall hlen => ?_, fun hall => ?_⟩, fun ix frag last w h => ?_,
      fun frag bytes hex hst hpier => ?_, fun ix frag bytes h => ?_⟩
    · exact keyReport_complete hact rfl hex hst hpier rfl hall hlen
    · exact keyReport_badLength hact rfl hex hst hpier rfl hall hlen
    · exact keyReport_partial hact rfl hex hst hpier rfl hall
    · exact keyReport_offTopic hact (by simpa [offTopic] using h)
    · have hexec := encryptionKey_onTopic (frag := frag) (bytes := bytes) hact rfl hex hst hpier
      exact ⟨fun h => hexec.trans (congrArg Host.Outcome.next (if_pos h)), fun h => hexec.trans (congrArg Host.Outcome.next (if_neg (Nat.not_le.mpr h)))⟩
    · exact encryptionKey_offTopic hact (by simpa [offTopic] using h)
  case timeout => exact fun hex hst => keysHere_active_eq hact (exchangeTimeout_asks hex hst)
  case noTimeout => exact fun h => keysHere_active_eq hact (exchangeTimeout_none h)
  case aging =>
    refine ⟨fun hne hmargin haged htold => ?_, fun h => keysHere_active_eq hact (keyMargin_none rfl h),
      fun hne haged hdue => keysHere_active_eq hact (keyExpired_expires rfl hne haged hdue), fun h => keysHere_active_eq hact (keyExpired_none rfl h)⟩
    have hreached := keyMargin_reached rfl hne hmargin haged htold
    refine ⟨fun h => keysHere_active_eq hact (hreached.trans (if_neg ?_)), fun hroll hex hst => keysHere_active_eq hact (hreached.trans (if_pos ?_))⟩
    · rcases h with h | h | h <;> simp [h]
    · rw [hroll, hex, decide_eq_true hst]
      rfl
  case retired => exact fun f hne hat hover => congrArg Host.Outcome.next (keyRetired_ends rfl hne hat hover)
  case notRetired => exact fun h => congrArg Host.Outcome.next (keyRetired_none rfl h)

end Sys2Proof.Machine

/-! PROOFS. What the mate sends and what goes out to it (R466 to R468): when it is heard, and what the sending leaves as it is. -/

namespace Sys2Proof.Machine

section
variable {s : State}

/-- The lanes by which the mate is heard: those in use, or where none is every Hawser lane that is ON. -/
def mateLanes (s : State) : List Nat :=
  if s.red.hawser.inUse ≠ [] then s.red.hawser.inUse else (List.range 4).filter fun i => (laneOf s (24 + i)).st = .on

/-- Whether every lane by which the mate is heard is in a loopback or runs its generator. -/
def mateShutOut (s : State) : Prop := mateLanes s ≠ [] ∧ ∀ i ∈ mateLanes s, (laneOf s (24 + i)).loopback ≠ 0 ∨ (laneOf s (24 + i)).gen = true

theorem mateShutOut_iff : mateShutOut s ↔
    (decide (mateLanes s ≠ []) && (mateLanes s).all fun i => decide ((laneOf s (24 + i)).loopback ≠ 0) || (laneOf s (24 + i)).gen) = true := by
  simp only [mateShutOut, Bool.and_eq_true, List.all_eq_true, Bool.or_eq_true, decide_eq_true_eq]

theorem fromMate_shutOut {f : State → State} (h : mateShutOut s) : fromMate f s = s := if_pos (mateShutOut_iff.mp h)

theorem fromMate_heard {f : State → State} (h : ¬ mateShutOut s) : fromMate f s = f s := if_neg (mt mateShutOut_iff.mpr h)

/-- A field that no flit, counter and outgoing event is part of stays as it is when flits go out. -/
theorem view_flitsOut {β : Type} {v : State → β} (hhawser : ∀ h t, v (setHawser h t) = v t) (hcnt : ∀ i n t, v (cnt i n t) = v t)
    (hemit : ∀ o t, v (emit o t) = v t) (hdrawn : ∀ t, v (drawn t) = v t) (fs : List Flit) : v (flitsOut fs s) = v s := by
  have hcodeword (gs : List Flit) (t : State) : v (codewordOut gs t) = v t := by
    unfold codewordOut
    dsimp only
    rw [hcnt]
    split
    · exact hhawser _ _
    · rw [hemit, hhawser]
  unfold flitsOut
  split
  · rw [forEach_view v fun gs _ t => hcodeword gs t]
    unfold idleOut
    rw [hemit, hhawser, hdrawn]
  · rfl

theorem ciph_flitsOut (fs : List Flit) : (flitsOut fs s).ciph = s.ciph :=
  view_flitsOut (v := fun s => s.ciph) (fun _ _ => rfl) (fun _ _ _ => rfl) (fun _ _ => rfl) (fun _ => rfl) fs

end

end Sys2Proof.Machine

/-! PROOFS. The entropy source, the pair key and the key calls that read or start an exchange (R395, R407, R413, R417, R419, R424). -/

namespace Sys2Proof.Machine

section
variable {s : State}

/-! ### The entropy source (R419) -/

theorem entropyRecovered_failing (h : s.ciph.healthy = false) :
    entropyRecovered s = raise 708 [] [] { s with ciph := { s.ciph with healthy := true } } :=
  if_neg (by rw [h]; exact Bool.false_ne_true)

theorem entropyRecovered_healthy (h : s.ciph.healthy = true) : entropyRecovered s = s := if_pos h

theorem reseed_healthy (h : s.ciph.healthy = true) :
    reseed s = cnt (cDev 11) 1 { s with ciph := { s.ciph with reseeds := s.ciph.reseeds + 1 } } := if_pos h

theorem reseed_failing (h : s.ciph.healthy = false) : reseed s = s := if_neg (by rw [h]; exact Bool.false_ne_true)

/-! ### Establishment begins (R417, R423) -/

/-- A pair key whose establishment has failed. -/
def keyFailed (k : PairKey) : PairKey := { k with st := .failed, fails := min 0xFFFF (k.fails + 1) }

theorem pairKeyStart_failing (h : s.ciph.healthy = false) : pairKeyStart s = setPairKey (keyFailed s.ciph.pair) s :=
  if_pos (by rw [h]; rfl)

theorem pairKeyStart_healthy (h : s.ciph.healthy = true) :
    (pairKeyStart s).ciph.pair.st = .establishing ∧ (pairKeyStart s).ciph.pair.got = [] ∧ (pairKeyStart s).ciph.pair.since = s.tb := by
  have hgo : ¬ (!s.ciph.healthy) = true := by rw [h]; exact Bool.false_ne_true
  rw [pairKeyStart, if_neg hgo]
  dsimp only
  rw [ciph_flitsOut]
  exact ⟨rfl, rfl, rfl⟩

/-- Whether the pair key is as old as REKEY allows, with the link up. -/
def rekeyDue (s : State) : Prop :=
  s.red.hawser.up = true ∧ s.ciph.pair.st = .established ∧
    s.ciph.pair.since + 3600000000 * us * (if hashChecked s = true then s.ciph.pair.rekey else 24) ≤ s.tb

theorem rekeyDue_iff : rekeyDue s ↔ (s.red.hawser.up && decide (s.ciph.pair.st = .established) &&
    decide (s.ciph.pair.since + 3600000000 * us * (if hashChecked s = true then s.ciph.pair.rekey else 24) ≤ s.tb)) = true := by
  simp only [rekeyDue, Bool.and_eq_true, decide_eq_true_eq, and_assoc]

theorem exec_pairKeyRekeyTimer (h : rekeyDue s) : exec .pairKeyRekeyTimer s = .next (pairKeyStart s) :=
  congrArg Host.Outcome.next (if_pos (rekeyDue_iff.mp h))

theorem exec_pairKeyRekeyTimer_early (h : ¬ rekeyDue s) : exec .pairKeyRekeyTimer s = .next s :=
  congrArg Host.Outcome.next (if_neg (mt rekeyDue_iff.mpr h))

/-! ### The mate's material (R417) -/

section
variable {stage : Fin 4} {bs : List Byte} {last : Bool}

/-- The mate's first material begins an establishment here too, while the pair is in BULK or PAIRED and none runs. -/
abbrev joinsKey (stage : Fin 4) (s : State) : Prop :=
  stage = 1 ∧ s.ciph.pair.st ≠ .establishing ∧ (s.red.pair.st = .bulk ∨ s.red.pair.st = .paired)

theorem stage_val (k : Fin 4) : (stage : Nat) = (k : Nat) ↔ stage = k := Fin.val_inj

theorem pairKeyJoin_eq : pairKeyJoin stage s = if joinsKey stage s then pairKeyStart s else s := by
  refine if_congr ?_ rfl rfl
  simp only [Bool.and_eq_true, Bool.or_eq_true, decide_eq_true_eq, and_assoc]
  exact and_congr_left' (stage_val 1)

/-- A fragment joins what has come of its step. -/
def materialTaken (stage : Nat) (bs : List Byte) (j : State) : State := setPairKey { j.ciph.pair with got := kmod j.ciph.pair.got stage [] (· ++ bs) } j

theorem pairKeyFlit_eq {j : State} (hj : pairKeyJoin stage s = j) : pairKeyFlit stage bs last s =
    if (decide (j.ciph.pair.st ≠ .establishing) || decide ((stage : Nat) = 0)) = true then j
    else if (last && decide ((stage : Nat) = 3)) = true then pairKeyJudge (materialTaken stage bs j) else materialTaken stage bs j := by
  subst hj
  rfl

section
variable {j : State} (hj : pairKeyJoin stage s = j)
include hj

theorem pairKeyFlit_ignored (h : j.ciph.pair.st ≠ .establishing ∨ stage = 0) : pairKeyFlit stage bs last s = j := by
  refine (pairKeyFlit_eq hj).trans (if_pos ?_)
  rw [Bool.or_eq_true, decide_eq_true_eq, decide_eq_true_eq]
  exact h.imp id (stage_val 0).mpr

variable (hst : j.ciph.pair.st = .establishing)
include hst

theorem pairKeyFlit_taken (hstage : stage ≠ 0) : pairKeyFlit stage bs last s =
    if (last && decide ((stage : Nat) = 3)) = true then pairKeyJudge (materialTaken stage bs j) else materialTaken stage bs j := by
  refine (pairKeyFlit_eq hj).trans (if_neg fun h => ?_)
  rw [Bool.or_eq_true, decide_eq_true_eq, decide_eq_true_eq] at h
  exact h.elim (fun h => h hst) fun h => hstage ((stage_val 0).mp h)

theorem pairKeyFlit_gathers (hstage : stage ≠ 0) (h : stage ≠ 3 ∨ last = false) : pairKeyFlit stage bs last s = materialTaken stage bs j := by
  refine (pairKeyFlit_taken hj hst hstage).trans (if_neg fun hend => ?_)
  obtain ⟨hlast, hthird⟩ := Bool.and_eq_true_iff.mp hend
  rcases h with h | h
  · exact h ((stage_val 3).mp (of_decide_eq_true hthird))
  · rw [hlast] at h; cases h

theorem pairKeyFlit_completes (hstage : stage = 3) (hlast : last = true) :
    pairKeyFlit stage bs last s = pairKeyJudge (materialTaken stage bs j) := by
  subst hstage hlast
  exact (pairKeyFlit_taken hj hst (by decide)).trans (if_pos rfl)

end

theorem exec_pairKeyFlitRx_shutOut (h : mateShutOut s) : exec (.pairKeyFlitRx stage bs last) s = .next s :=
  congrArg Host.Outcome.next (fromMate_shutOut h)

theorem exec_pairKeyFlitRx (h : ¬ mateShutOut s) {t : State} (ht : pairKeyFlit stage bs last s = t) :
    exec (.pairKeyFlitRx stage bs last) s = .next (keyDone (decide (s.ciph.pair.st = .established)) t) := by
  subst ht
  exact congrArg Host.Outcome.next (fromMate_heard h)

end

/-! ### What an established key starts (R418, R506, R522) -/

section
variable {was : Bool}

theorem keyDone_bulk (hst : s.red.pair.st = .keying) (hkey : s.ciph.pair.st = .established) :
    keyDone was s = judgePaired (snapshot (activeSpans s) (setPairSt .bulk s)) :=
  if_pos (by rw [decide_eq_true hst, decide_eq_true hkey]; rfl)

theorem keyDone_judges (h : s.red.pair.st ≠ .keying ∨ s.ciph.pair.st ≠ .established) : keyDone was s =
    judgeSyncs (if (decide (s.ciph.pair.st = .established) && !was) = true then forEach (activeSpans s) resendKeys s else s) :=
  if_neg (by rcases h with h | h <;> simp [h])

theorem keyDone_nothingNew (h : s.ciph.pair.st ≠ .established ∨ (was = true ∧ s.red.pair.st ≠ .keying)) : keyDone was s = judgeSyncs s := by
  rcases h with h | ⟨hwas, hst⟩
  · rw [keyDone_judges (.inr h), decide_eq_false h]
    rfl
  · rw [keyDone_judges (.inl hst), hwas, Bool.not_true, Bool.and_false]
    rfl

theorem keyDone_resends (hwas : was = false) (hst : s.red.pair.st ≠ .keying) (hkey : s.ciph.pair.st = .established) :
    keyDone was s = judgeSyncs (forEach (activeSpans s) resendKeys s) := by
  rw [keyDone_judges (.inl hst), hwas, decide_eq_true hkey]
  rfl

end

/-! ### The judgement of complete material (R417) -/

/-- Whether the mate's certificate is another than the one whose hash is configured. -/
def hashBad (s : State) (chain : List Byte) : Prop := hashChecked s = true ∧ sha384 (Config.leafOf chain) ≠ s.ciph.pair.hash

theorem hashBad_iff {chain : List Byte} : hashBad s chain ↔ (hashChecked s && decide (sha384 (Config.leafOf chain) ≠ s.ciph.pair.hash)) = true := by
  simp only [hashBad, Bool.and_eq_true, decide_eq_true_eq]

section
variable {chain : List Byte} (hchain : kgetD s.ciph.pair.got 1 [] = chain)
include hchain

theorem pairKeyJudge_unreadable (h : Config.chainKey chain = none) : pairKeyJudge s = pairKeyFail 0 s := by
  simp only [pairKeyJudge, hchain, h]

variable {pub : List Byte} (hpub : Config.chainKey chain = some pub)
include hpub

theorem pairKeyJudge_readable : pairKeyJudge s =
    let k := s.ciph.pair
    let eph := kgetD k.got 2 []
    if (hashChecked s && decide (sha384 (Config.leafOf chain) ≠ k.hash)) = true then pairKeyFail 1 s
    else if (!p384.verify pub (sha384 (chain ++ eph)) (kgetD k.got 3 [])) = true then pairKeyFail 2 s
    else raise 709 [] [] (setPairKey { k with
      st := .established, since := s.tb, key := pairSecret (p384.agree k.mine (eph.take 97)) (toBe 32 k.nonce) (eph.drop 97), got := [] } s) := by
  simp only [pairKeyJudge, hchain, hpub]

theorem pairKeyJudge_hashBad (h : hashBad s chain) : pairKeyJudge s = pairKeyFail 1 s :=
  (pairKeyJudge_readable hchain hpub).trans (if_pos (hashBad_iff.mp h))

variable (hhash : ¬ hashBad s chain)
include hhash

theorem pairKeyJudge_unsigned (h : p384.verify pub (sha384 (chain ++ kgetD s.ciph.pair.got 2 [])) (kgetD s.ciph.pair.got 3 []) = false) :
    pairKeyJudge s = pairKeyFail 2 s :=
  (pairKeyJudge_readable hchain hpub).trans ((if_neg (mt hashBad_iff.mpr hhash)).trans (if_pos (by rw [h]; rfl)))

theorem pairKeyJudge_established (h : p384.verify pub (sha384 (chain ++ kgetD s.ciph.pair.got 2 [])) (kgetD s.ciph.pair.got 3 []) = true) :
    pairKeyJudge s =
      let k := s.ciph.pair
      let eph := kgetD k.got 2 []
      raise 709 [] [] (setPairKey { k with
        st := .established, since := s.tb, key := pairSecret (p384.agree k.mine (eph.take 97)) (toBe 32 k.nonce) (eph.drop 97), got := [] } s) :=
  (pairKeyJudge_readable hchain hpub).trans ((if_neg (mt hashBad_iff.mpr hhash)).trans (if_neg (by rw [h]; exact Bool.false_ne_true)))

end

theorem exec_pairKeyTimeout_none (h : s.ciph.pair.st ≠ .establishing) : exec .pairKeyTimeout s = .next s :=
  congrArg Host.Outcome.next (if_neg h)

theorem exec_pairKeyTimeout (h : s.ciph.pair.st = .establishing) : exec .pairKeyTimeout s = .next (judgeSyncs (pairKeyFail 3 s)) :=
  congrArg Host.Outcome.next (if_pos h)

end

/-! ### The calls that read keys or start an exchange (R395, R424) -/

section
variable {ch : Nat} {ws : List Word} {s : State}

theorem ponKeyRoll_refused {e : Status} (h : needOnu s ch (pw ws 0) = .error e) : ponKeyRoll ch ws s = .error e := by
  show (needOnu s ch (pw ws 0) >>= _) = _
  rw [h]
  rfl

theorem ponKeyRoll_owned (h : needOnu s ch (pw ws 0) = .ok ()) : ponKeyRoll ch ws s =
    need (decide ((onuOf s (fld (pw ws 0) 4 0) (fld (pw ws 0) 24 16)).st = .active) &&
      !(onuKeys s (fld (pw ws 0) 4 0) (fld (pw ws 0) 24 16)).exchange) .badState >>= fun _ =>
    .ok (askKey (fld (pw ws 0) 4 0) (fld (pw ws 0) 24 16) s, []) := by
  show (needOnu s ch (pw ws 0) >>= _) = _
  rw [h]
  rfl

theorem ponKeyRoll_asks (h : needOnu s ch (pw ws 0) = .ok ()) (hst : (onuOf s (fld (pw ws 0) 4 0) (fld (pw ws 0) 24 16)).st = .active)
    (hex : (onuKeys s (fld (pw ws 0) 4 0) (fld (pw ws 0) 24 16)).exchange = false) :
    ponKeyRoll ch ws s = .ok (askKey (fld (pw ws 0) 4 0) (fld (pw ws 0) 24 16) s, []) :=
  (ponKeyRoll_owned h).trans (need_bind_ok (by rw [hex, decide_eq_true hst]; rfl))

theorem ponKeyRoll_badState (h : needOnu s ch (pw ws 0) = .ok ())
    (hbusy : (onuOf s (fld (pw ws 0) 4 0) (fld (pw ws 0) 24 16)).st ≠ .active ∨
      (onuKeys s (fld (pw ws 0) 4 0) (fld (pw ws 0) 24 16)).exchange = true) : ponKeyRoll ch ws s = .error .badState :=
  (ponKeyRoll_owned h).trans (need_bind_error (by rcases hbusy with h | h <;> simp [h]))

theorem ponKeyStatus_refused {e : Status} (h : needOnu s ch (pw ws 0) = .error e) : ponKeyStatus ch ws s = .error e := by
  show (needOnu s ch (pw ws 0) >>= _) = _
  rw [h]
  rfl

/-- What `PON_KEY_STATUS` says of an ONU's keys (R424). -/
def keyStatusWords (s : State) (sp o : Nat) : List Word :=
  let k := onuKeys s sp o
  let a := ixIn k.s1 k.s2 .active
  let n := ixIn k.s1 k.s2 .next
  let sfc := if n = 0 then 0 else match (k.slot n).at_ with | some f => sfcOf (onuOf s sp o).pier f | none => 0
  [putb (hasDefect s sp o 8) 31 ||| putb k.exchange 30 ||| wd (n * 16 + a), wd (if a = 0 then 0 else (k.slot a).age (frameNo s))] ++ toWords 2 sfc

theorem ponKeyStatus_done (h : needOnu s ch (pw ws 0) = .ok ()) :
    ponKeyStatus ch ws s = .ok (keyStatusWords s (fld (pw ws 0) 4 0) (fld (pw ws 0) 24 16)) := by
  show (needOnu s ch (pw ws 0) >>= _) = _
  rw [h]
  rfl

theorem macsecSaRead_badArg (h : saOk (pw ws 0) = false) : macsecSaRead ws s = .error .badArg := if_pos (by rw [h]; rfl)

section
variable (hok : saOk (pw ws 0) = true) {y : SecY} (hy : secyOf s (fld (pw ws 0) 20 16) = y)
include hok hy

theorem macsecSaRead_none (h : findSa y (bit (pw ws 0) 8) (fld (pw ws 0) 5 4) (fld (pw ws 0) 1 0) = none) : macsecSaRead ws s = .ok [0, 0, 0] := by
  subst hy
  simp only [macsecSaRead, saName, hok, h, Bool.not_true, Bool.false_eq_true, if_false]

theorem macsecSaRead_found {a : Sa} (h : findSa y (bit (pw ws 0) 8) (fld (pw ws 0) 5 4) (fld (pw ws 0) 1 0) = some a) : macsecSaRead ws s =
    let rx := bit (pw ws 0) 8
    let an := fld (pw ws 0) 1 0
    .ok ([putb true 31 ||| putb (if rx = true then a.used else decide (y.txAn = some an)) 30 ||| putb (!rx && a.exhausted) 29 |||
      putb (!rx && decide (y.nextAn = some an)) 28] ++ toWords 2 (min a.pn (2 ^ 64 - 1))) := by
  subst hy
  simp only [macsecSaRead, saName, hok, h, Bool.not_true, Bool.false_eq_true, if_false]
  rfl

end

theorem xtsStatus_refused {e : Status} (h : needOwner s ch (fld (pw ws 0) 19 16) = .error e) : xtsStatus ch ws s = .error e := by
  show (needOwner s ch (fld (pw ws 0) 19 16) >>= _) = _
  rw [h]
  rfl

theorem xtsStatus_done (h : needOwner s ch (fld (pw ws 0) 19 16) = .ok ()) : xtsStatus ch ws s =
    .ok [putb (kget s.ciph.xts (fld (pw ws 0) 19 16)).isSome 31 ||| wd (kgetD s.ciph.xtsGen (fld (pw ws 0) 19 16) 0 % 65536)] := by
  show (needOwner s ch (fld (pw ws 0) 19 16) >>= _) = _
  rw [h]
  rfl

end

/-! ### O52 -/

/-- Settles O52: each clause is the lemma of its command; a flit of the pair key is heard where the mate is. -/
theorem entropyKeysAndTheirCalls : Obligations.EntropyKeysAndTheirCalls := by
  unfold Obligations.EntropyKeysAndTheirCalls
  refine ⟨fun s => ⟨fun test => rfl, fun h => congrArg Host.Outcome.next (entropyRecovered_failing h),
    fun h => congrArg Host.Outcome.next (entropyRecovered_healthy h), fun h => congrArg Host.Outcome.next (reseed_healthy h),
    fun h => congrArg Host.Outcome.next (reseed_failing h), exec_pairKeyRekeyTimer_early, ?rekeyFails, ?rekeys, ?flit,
    fun was => ⟨keyDone_bulk, keyDone_nothingNew, keyDone_resends⟩, ?judge, exec_pairKeyTimeout_none, exec_pairKeyTimeout⟩, fun c s => ?calls⟩
  case rekeyFails =>
    exact fun hdue h => (exec_pairKeyRekeyTimer hdue).trans (congrArg Host.Outcome.next (pairKeyStart_failing h))
  case rekeys => exact fun hdue h => ⟨pairKeyStart s, exec_pairKeyRekeyTimer hdue, pairKeyStart_healthy h⟩
  case flit =>
    intro stage bs last
    have hj := pairKeyJoin_eq (stage := stage) (s := s)
    exact ⟨exec_pairKeyFlitRx_shutOut, fun hheard h => exec_pairKeyFlitRx hheard (pairKeyFlit_ignored hj h),
      fun hheard hst hstage h => exec_pairKeyFlitRx hheard (pairKeyFlit_gathers hj hst hstage h),
      fun hheard hst hstage hlast => exec_pairKeyFlitRx hheard (pairKeyFlit_completes hj hst hstage hlast)⟩
  case judge =>
    exact ⟨pairKeyJudge_unreadable rfl, fun pub hpub => ⟨pairKeyJudge_hashBad rfl hpub,
      fun hhash => ⟨pairKeyJudge_unsigned rfl hpub hhash, pairKeyJudge_established rfl hpub hhash⟩⟩⟩
  case calls =>
    refine ⟨fun hserved => ⟨fun e h => serveAct_refused hserved _ (ponKeyRoll_refused h), fun h => ⟨fun hst hex => ?_, fun hbusy => ?_⟩⟩,
      fun hserved => ⟨fun e h => serveRead_refused hserved _ (ponKeyStatus_refused h), fun h => serveRead_done hserved _ (ponKeyStatus_done h)⟩,
      fun hserved => ⟨fun h => serveRead_refused hserved _ (macsecSaRead_badArg h),
        fun hok => ⟨fun h => serveRead_done hserved _ (macsecSaRead_none hok rfl h),
          fun a h => serveRead_done hserved _ (macsecSaRead_found hok rfl h)⟩⟩,
      fun hserved => ⟨fun e h => serveRead_refused hserved _ (xtsStatus_refused h), fun h => serveRead_done hserved _ (xtsStatus_done h)⟩,
      fun hserved => serveRead_done hserved (fun s => .ok (pairKeyStatus s)) rfl,
      fun hserved => serveRead_done hserved (fun s => .ok (entropyStatus s)) rfl⟩
    · exact serveAct_done hserved _ (ponKeyRoll_asks h hst hex)
    · exact serveAct_refused hserved _ (ponKeyRoll_badState h hbusy)

end Sys2Proof.Machine

/-! PROOFS. The Hawser (R466 to R468, R507 to R509): the lock of its lanes, the delivery of codewords, the link, what each lane sends, and the
flits of the mailbox and the timebase. -/

namespace Sys2Proof.Machine

section
variable {s : State}

/-! ### Codeword lock (R467, R468) -/

/-- Whether a Hawser lane is ON with neither LOS nor RX-LOL. -/
def lanePasses (s : State) (i : Nat) : Prop := (laneOf s (24 + i)).st = .on ∧ (laneOf s (24 + i)).los = false ∧ (laneOf s (24 + i)).rxLol = false

theorem canLock_iff {i : Nat} : canLock s i = true ↔ lanePasses s i := by
  simp only [canLock, lanePasses, Bool.and_eq_true, decide_eq_true_eq, Bool.not_eq_true', and_assoc]

theorem canLock_false {i : Nat} (h : ¬ lanePasses s i) : canLock s i = false := Bool.eq_false_iff.mpr (mt canLock_iff.mp h)

section
variable {i : Nat}

theorem hawserLock_same {on : Bool} (h : s.red.hawser.locked.contains i = on) : hawserLock i on s = s :=
  if_pos (by rw [h, decide_eq_true rfl, Bool.true_or])

theorem hawserLock_cannot (h : ¬ lanePasses s i) : hawserLock i true s = s :=
  if_pos (by rw [canLock_false h, Bool.not_false, Bool.and_true, Bool.or_true])

/-- A lane's lock changed, its runs of codewords begun anew. -/
def lockChanged (i : Nat) (locked : List Nat) (s : State) : State :=
  let h := s.red.hawser
  laneEvt (24 + i) (laneFlags s (24 + i)) (setHawser { h with locked := locked, goodRun := kset h.goodRun i 0, badRun := kset h.badRun i 0 } s)

theorem hawserLock_gained (hno : s.red.hawser.locked.contains i = false) (hcan : lanePasses s i) :
    hawserLock i true s = hawserLines (lockChanged i (sinsert s.red.hawser.locked i) s) :=
  if_neg (by rw [hno, canLock_iff.mpr hcan]; decide)

theorem hawserLock_lost (hyes : s.red.hawser.locked.contains i = true) : hawserLock i false s =
    hawserLines (cnt (cLane 3 (24 + i)) 1 (lockChanged i (s.red.hawser.locked.filter (· ≠ i)) s)) :=
  if_neg (by rw [hyes, Bool.false_and, Bool.or_false]; decide)

end

/-! ### What events and lines leave of the lanes and the Hawser -/

theorem red_raise (src : Nat) (own : List Nat) (ws : List Word) : (raise src own ws s).red = s.red := by
  obtain ⟨-, -, -, -, -, -, -, -, -, -, hred, -⟩ := others_parts (others_raise src own ws s)
  exact hred

theorem lane_raise (src : Nat) (own : List Nat) (ws : List Word) : (raise src own ws s).lane = s.lane := by
  obtain ⟨-, -, -, -, -, -, -, hlane, -⟩ := others_parts (others_raise src own ws s)
  exact hlane

theorem laneEvt_leaves (n before : Nat) : (laneEvt n before s).red = s.red ∧ (laneEvt n before s).lane = s.lane := by
  unfold laneEvt
  split
  · exact ⟨rfl, rfl⟩
  · exact ⟨red_raise _ _ _, lane_raise _ _ _⟩

/-- The lanes, and the locks of the Hawser. -/
def lanesAndLocks (s : State) : Lanes × List Nat := (s.lane, s.red.hawser.locked)

theorem lanesAndLocks_hawserLines : lanesAndLocks (hawserLines s) = lanesAndLocks s := by
  unfold hawserLines
  refine forEach_view lanesAndLocks (fun i _ t => ?_) s
  dsimp only
  split
  · rfl
  · rfl

/-- A lane that gains lock is locked from then on, and the lanes are as they were. -/
theorem lanesAndLocks_gained {i : Nat} : lanesAndLocks (hawserLines (lockChanged i (sinsert s.red.hawser.locked i) s)) =
    (s.lane, sinsert s.red.hawser.locked i) := by
  rw [lanesAndLocks_hawserLines]
  obtain ⟨hred, hlane⟩ := laneEvt_leaves (s := setHawser { s.red.hawser with
    locked := sinsert s.red.hawser.locked i, goodRun := kset s.red.hawser.goodRun i 0, badRun := kset s.red.hawser.badRun i 0 } s) (24 + i)
    (laneFlags s (24 + i))
  exact Prod.ext hlane (congrArg (fun r => r.hawser.locked) hred)

/-! ### A codeword comes (R462, R466 to R468) -/

section
variable {i : Nat} {seq lanes flits : Nat}

theorem hawserCodeword_cannot {good : Bool} (h : ¬ lanePasses s i) : hawserCodeword i good seq lanes flits s = s :=
  if_pos (by rw [canLock_false h]; rfl)

/-- A codeword that does not decode, counted, with the run of bad ones. -/
def badCounted (i : Nat) (s : State) : State :=
  let h := s.red.hawser
  setHawser { h with quiet := false, badRun := kset h.badRun i (kgetD h.badRun i 0 + 1), goodRun := kset h.goodRun i 0 }
    (cnt (cLane 6 (24 + i)) 1 (cnt (cLane 4 (24 + i)) 1 (setHawser { h with quiet := false } s)))

/-- The run of good codewords with one more. -/
def runGrown (i : Nat) (t : State) : State :=
  let h := t.red.hawser
  setHawser { h with goodRun := kset h.goodRun i (min 8 (kgetD h.goodRun i 0 + 1)), badRun := kset h.badRun i 0 } t

/-- A codeword that decodes, counted with the symbols corrected in it, and the run of good ones. -/
def goodCounted (i : Nat) (s : State) : State := runGrown i (codewordCounted i true (setHawser { s.red.hawser with quiet := false } s))

section
variable (hcan : lanePasses s i)
include hcan

theorem hawserCodeword_bad : hawserCodeword i false seq lanes flits s =
    if (decide (4 ≤ kgetD s.red.hawser.badRun i 0 + 1) && s.red.hawser.locked.contains i) = true then hawserLock i false (badCounted i s)
    else badCounted i s :=
  if_neg (by rw [canLock_iff.mpr hcan]; decide)

theorem hawserCodeword_bad_kept (h : kgetD s.red.hawser.badRun i 0 + 1 < 4 ∨ s.red.hawser.locked.contains i = false) :
    hawserCodeword i false seq lanes flits s = badCounted i s := by
  refine (hawserCodeword_bad hcan).trans (if_neg fun hcond => ?_)
  obtain ⟨hrun, hlock⟩ := Bool.and_eq_true_iff.mp hcond
  rcases h with h | h
  · exact Nat.not_le.mpr h (of_decide_eq_true hrun)
  · rw [hlock] at h; cases h

theorem hawserCodeword_bad_lost (hrun : 4 ≤ kgetD s.red.hawser.badRun i 0 + 1) (hlock : s.red.hawser.locked.contains i = true) :
    hawserCodeword i false seq lanes flits s = hawserLock i false (badCounted i s) :=
  (hawserCodeword_bad hcan).trans (if_pos (by rw [decide_eq_true hrun, hlock]; rfl))

end

/-- The lane's lock after a good codeword: gained with the eighth in a row. -/
def lockJudged (i : Nat) (s : State) : State :=
  if s.red.hawser.locked.contains i = false then hawserLock i true (goodCounted i s) else goodCounted i s

/-- A codeword's place by its SEQ: an old one is dropped, and another delivered in its turn. -/
def codewordPlaced (i seq flits : Nat) (v : State) : State :=
  let h := v.red.hawser
  let q := h.nextSeq.getD seq
  if 512 ≤ seqAhead seq q then v else deliverFlits 1024 (setHawser { h with nextSeq := some q, arrived := h.arrived ++ [(seq, i, flits)] } v)

theorem codewordPlaced_old {v : State} (h : 512 ≤ seqAhead seq (v.red.hawser.nextSeq.getD seq)) : codewordPlaced i seq flits v = v := if_pos h

theorem codewordPlaced_new {v : State} (h : seqAhead seq (v.red.hawser.nextSeq.getD seq) < 512) : codewordPlaced i seq flits v =
    deliverFlits 1024 (setHawser { v.red.hawser with
      nextSeq := some (v.red.hawser.nextSeq.getD seq), arrived := v.red.hawser.arrived ++ [(seq, i, flits)] } v) :=
  if_neg (Nat.not_le.mpr h)

/-- The mate's LANES taken, and the set in use by them. -/
def lanesTold (lanes : Nat) (u : State) : State :=
  hawserSetNow (setHawser { u.red.hawser with remote := (List.range 4).filter fun j => lanes.testBit j } u)

/-- What a good codeword gives on a lane, once its lock has been judged. -/
def codewordUsed (i seq lanes flits : Nat) (u : State) : State :=
  if (!u.red.hawser.locked.contains i) = true then u
  else if (laneOf u (24 + i)).gen = true then u
  else if (laneOf u (24 + i)).loopback ≠ 0 then cnt (cLane 11 (24 + i)) flits u
  else codewordPlaced i seq flits (lanesTold lanes u)

section
variable (hcan : lanePasses s i)
include hcan

theorem hawserCodeword_decoded : hawserCodeword i true seq lanes flits s =
    let t := codewordCounted i true (setHawser { s.red.hawser with quiet := false } s)
    codewordUsed i seq lanes flits
      (if (decide (8 ≤ min 8 (kgetD t.red.hawser.goodRun i 0 + 1)) && !t.red.hawser.locked.contains i) = true then hawserLock i true (runGrown i t)
      else runGrown i t) := by
  have hgo : ¬ (!canLock s i) = true := by rw [canLock_iff.mpr hcan]; decide
  unfold hawserCodeword
  rw [if_neg hgo]
  generalize codewordCounted i true _ = t
  dsimp only [runGrown]
  rw [if_neg (show ¬ (!true) = true by decide)]
  generalize (if (decide (8 ≤ min 8 (kgetD t.red.hawser.goodRun i 0 + 1)) && !t.red.hawser.locked.contains i) = true then hawserLock i true _ else _) = u
  rw [codewordUsed, codewordPlaced, lanesTold]

theorem hawserCodeword_good : hawserCodeword i true seq lanes flits s = codewordUsed i seq lanes flits
    (if (decide (8 ≤ min 8 (kgetD s.red.hawser.goodRun i 0 + 1)) && !s.red.hawser.locked.contains i) = true then hawserLock i true (goodCounted i s)
    else goodCounted i s) :=
  hawserCodeword_decoded hcan

theorem hawserCodeword_unlocked (hno : s.red.hawser.locked.contains i = false) (hrun : min 8 (kgetD s.red.hawser.goodRun i 0 + 1) < 8) :
    hawserCodeword i true seq lanes flits s = goodCounted i s := by
  rw [hawserCodeword_good hcan, decide_eq_false (Nat.not_le.mpr hrun), Bool.false_and, if_neg Bool.false_ne_true]
  exact if_pos (by rw [show (goodCounted i s).red.hawser.locked = s.red.hawser.locked from rfl, hno]; rfl)

theorem lockJudged_kept : (lockJudged i s).lane = s.lane ∧ (lockJudged i s).red.hawser.locked.contains i = true := by
  unfold lockJudged
  split
  next hno =>
    have hcan' : lanePasses (goodCounted i s) i := hcan
    have hno' : (goodCounted i s).red.hawser.locked.contains i = false := hno
    rw [hawserLock_gained hno' hcan']
    have hview := lanesAndLocks_gained (s := goodCounted i s) (i := i)
    simp only [lanesAndLocks, Prod.mk.injEq] at hview
    obtain ⟨hlane, hlocked⟩ := hview
    rw [hlocked, List.contains_iff_mem]
    exact ⟨hlane, mem_sinsert_self _ _⟩
  next hyes => exact ⟨rfl, (Bool.not_eq_false _).mp hyes⟩

theorem hawserCodeword_locked (h : s.red.hawser.locked.contains i = true ∨ min 8 (kgetD s.red.hawser.goodRun i 0 + 1) = 8) : hawserCodeword i true seq lanes flits s =
    if (laneOf s (24 + i)).gen = true then lockJudged i s
    else if (laneOf (lockJudged i s) (24 + i)).loopback ≠ 0 then cnt (cLane 11 (24 + i)) flits (lockJudged i s)
    else codewordPlaced i seq flits (lanesTold lanes (lockJudged i s)) := by
  obtain ⟨hlane, hlocked⟩ := lockJudged_kept hcan
  have hjudged : (if (decide (8 ≤ min 8 (kgetD s.red.hawser.goodRun i 0 + 1)) && !s.red.hawser.locked.contains i) = true
      then hawserLock i true (goodCounted i s) else goodCounted i s) = lockJudged i s := by
    refine if_congr ?_ rfl rfl
    rw [Bool.and_eq_true, decide_eq_true_eq, Bool.not_eq_true']
    refine and_iff_right_of_imp fun hno => ?_
    rcases h with h | h
    · rw [hno] at h; cases h
    · exact h.ge
  have hlaneOf : laneOf (lockJudged i s) (24 + i) = laneOf s (24 + i) := congrArg (fun l : Lanes => kgetD l.lanes (24 + i) {}) hlane
  rw [hawserCodeword_good hcan, hjudged, codewordUsed, hlocked, if_neg (show ¬ (!true) = true by decide)]
  exact if_congr (by rw [hlaneOf]) rfl rfl

end

end

/-! ### Codewords are delivered by SEQ (R468) -/

section
variable {n q : Nat} (hq : s.red.hawser.nextSeq = some q)
include hq

theorem deliverFlits_next {a : Nat × Nat × Nat} (h : (s.red.hawser.arrived.find? fun a => a.1 = q) = some a) :
    deliverFlits (n + 1) s = deliverFlits n (cnt (cDev 7) a.2.2 (setHawser { s.red.hawser with
      nextSeq := some ((q + 1) % 1024), arrived := s.red.hawser.arrived.filter fun b => b.1 ≠ q } s)) := by
  simp only [deliverFlits, hq, h]

/-- Whether a later codeword has come on every lane in use. -/
def overtaken (s : State) (q : Nat) : Prop :=
  s.red.hawser.arrived ≠ [] ∧ ∀ i ∈ s.red.hawser.inUse, ∃ a ∈ s.red.hawser.arrived, a.2.1 = i ∧ seqAhead a.1 q < 512

omit hq in
theorem overtaken_iff : overtaken s q ↔ (decide (s.red.hawser.arrived ≠ []) &&
    s.red.hawser.inUse.all fun i => s.red.hawser.arrived.any fun a => decide (a.2.1 = i) && decide (seqAhead a.1 q < 512)) = true := by
  simp only [overtaken, Bool.and_eq_true, decide_eq_true_eq, List.all_eq_true, List.any_eq_true]

variable (h : (s.red.hawser.arrived.find? fun a => a.1 = q) = none)
include h

theorem deliverFlits_skips (hlater : overtaken s q) : deliverFlits (n + 1) s =
    deliverFlits n (lostFlits (cnt (cDev 8) 10 (setHawser { s.red.hawser with nextSeq := some ((q + 1) % 1024) } s))) := by
  simp only [deliverFlits, hq, h]
  exact if_pos (overtaken_iff.mp hlater)

theorem deliverFlits_waits (hlater : ¬ overtaken s q) : deliverFlits (n + 1) s = s := by
  simp only [deliverFlits, hq, h]
  exact if_neg (mt overtaken_iff.mpr hlater)

end

/-! ### The set in use and the link (R468, R506) -/

/-- The set in use as the lanes and LANES give it now, told where it changes. -/
def setTaken (s : State) : State :=
  if hawserSet s = s.red.hawser.inUse then s else raise 796 [] [maskOf (hawserSet s)] (setHawser { s.red.hawser with inUse := hawserSet s } s)

theorem setTaken_kept : (setTaken s).red.hawser.up = s.red.hawser.up ∧ (setTaken s).red.hawser.quiet = s.red.hawser.quiet := by
  unfold setTaken
  split
  · exact ⟨rfl, rfl⟩
  · rw [red_raise]
    exact ⟨rfl, rfl⟩

theorem hawserSetNow_eq : hawserSetNow s = hawserLines (
    if (decide (hawserSet s = []) || s.red.hawser.quiet) = true then hawserDown (setTaken s) else hawserUp (setTaken s)) := by
  obtain ⟨-, hquiet⟩ := setTaken_kept (s := s)
  rw [← hquiet]
  rfl

section
variable (h : hawserSet s = [] ∨ s.red.hawser.quiet = true)
include h

theorem hawserSetNow_without : hawserSetNow s = hawserLines (hawserDown (setTaken s)) := by
  rw [hawserSetNow_eq]
  exact congrArg hawserLines (if_pos (by rcases h with h | h <;> simp [h]))

theorem hawserSetNow_staysDown (hup : s.red.hawser.up = false) : hawserSetNow s = hawserLines (setTaken s) := by
  obtain ⟨hkept, -⟩ := setTaken_kept (s := s)
  rw [hawserSetNow_without h]
  exact congrArg hawserLines (if_neg (by rw [hkept, hup]; exact Bool.false_ne_true))

theorem hawserSetNow_goesDown (hup : s.red.hawser.up = true) : hawserSetNow s = hawserLines (mateLost 0 (setHawser
    { (setTaken s).red.hawser with up := false, arrived := [], nextSeq := none } (setTaken s))) := by
  obtain ⟨hkept, -⟩ := setTaken_kept (s := s)
  rw [hawserSetNow_without h]
  exact congrArg hawserLines (if_pos (by rw [hkept, hup]))

end

section
variable (hset : hawserSet s ≠ []) (hquiet : s.red.hawser.quiet = false)
include hset hquiet

theorem hawserSetNow_with : hawserSetNow s = hawserLines (hawserUp (setTaken s)) := by
  rw [hawserSetNow_eq]
  exact congrArg hawserLines (if_neg (by simp [hset, hquiet]))

theorem hawserSetNow_staysUp (hup : s.red.hawser.up = true) : hawserSetNow s = hawserLines (setTaken s) := by
  obtain ⟨hkept, -⟩ := setTaken_kept (s := s)
  rw [hawserSetNow_with hset hquiet]
  exact congrArg hawserLines (if_pos (by rw [hkept, hup]))

/-- The link begun anew, before the pair is told. -/
def linkBegun (t : State) : State :=
  setHawser { t.red.hawser with up := true, nextSeq := none, arrived := [], mateFree := 0, samples := [] } t

theorem hawserSetNow_comesUp (hup : s.red.hawser.up = false) :
    hawserSetNow s = hawserLines (if pairOn (linkBegun (setTaken s)) = true then enterHello (linkBegun (setTaken s)) else linkBegun (setTaken s)) := by
  obtain ⟨hkept, -⟩ := setTaken_kept (s := s)
  rw [hawserSetNow_with hset hquiet]
  exact congrArg hawserLines (if_neg (by rw [hkept, hup]; exact Bool.false_ne_true))

end

/-! ### What a lane sends (R460, R466 to R468) -/

section
variable {i : Nat}

theorem hawserContent_nothing (h : (laneOf s (24 + i)).st ≠ .on ∨ (laneOf s (24 + i)).txLol = true) : hawserContent s i = 0 :=
  if_pos (by rcases h with h | h <;> simp [h])

section
variable (hon : (laneOf s (24 + i)).st = .on) (hpll : (laneOf s (24 + i)).txLol = false)
include hon hpll

theorem hawserContent_sends : hawserContent s i =
    if (laneOf s (24 + i)).gen = true then 1 else if (s.red.hawser.up && s.red.hawser.inUse.contains i) = true then 3 else 2 :=
  if_neg (by simp [hon, hpll])

theorem hawserContent_pattern (h : (laneOf s (24 + i)).gen = true) : hawserContent s i = 1 := (hawserContent_sends hon hpll).trans (if_pos h)

variable (hgen : (laneOf s (24 + i)).gen = false)
include hgen

theorem hawserContent_flits (hup : s.red.hawser.up = true) (h : i ∈ s.red.hawser.inUse) : hawserContent s i = 3 := by
  rw [hawserContent_sends hon hpll, hgen, hup, List.contains_iff_mem.mpr h]
  rfl

theorem hawserContent_idle (h : s.red.hawser.up = false ∨ i ∉ s.red.hawser.inUse) : hawserContent s i = 2 := by
  rw [hawserContent_sends hon hpll, hgen, if_neg Bool.false_ne_true]
  exact if_neg (by rcases h with h | h <;> simp [h])

end

end

/-! ### Mailbox and timebase flits come in (R507 to R509) -/

section
variable {ws : List Word} {free : Nat}

/-- Whether the mate's answer is that to `MATE_HELLO`, accepted and whole. -/
def answersHello (ws : List Word) : Prop := fld (pw ws 0) 31 16 = 0x0E10 ∧ pw ws 1 = 0 ∧ ws.length = 9

theorem mailboxFlit_reply : mailboxFlit true ws free s =
    flushMate 32 (if (decide (fld (pw ws 0) 31 16 = 0x0E10) && decide (pw ws 1 = 0) && decide (ws.length = 9)) = true
      then helloFrom (ws.drop 2) (setHawser { s.red.hawser with mateFree := free } s) else setHawser { s.red.hawser with mateFree := free } s) := rfl

theorem answersHello_iff :
    answersHello ws ↔ (decide (fld (pw ws 0) 31 16 = 0x0E10) && decide (pw ws 1 = 0) && decide (ws.length = 9)) = true := by
  simp only [answersHello, Bool.and_eq_true, decide_eq_true_eq, and_assoc]

theorem mailboxFlit_other (h : ¬ answersHello ws) : mailboxFlit true ws free s = flushMate 32 (setHawser { s.red.hawser with mateFree := free } s) :=
  mailboxFlit_reply.trans (congrArg (flushMate 32) (if_neg (mt answersHello_iff.mpr h)))

theorem mailboxFlit_hello (h : answersHello ws) :
    mailboxFlit true ws free s = flushMate 32 (helloFrom (ws.drop 2) (setHawser { s.red.hawser with mateFree := free } s)) :=
  mailboxFlit_reply.trans (congrArg (flushMate 32) (if_pos (answersHello_iff.mp h)))

end

/-! ### Flits go out (R467, R468, R507) -/

theorem freeFlit_down (h : s.red.hawser.up = false) : freeFlit s = s := if_pos (by rw [h]; rfl)

theorem timebaseFlit_down (h : s.red.hawser.up = false) : timebaseFlit s = s := if_neg (by rw [h]; exact Bool.false_ne_true)

section
variable (hup : s.red.hawser.up = true)
include hup

theorem freeFlit_up : freeFlit s =
    let c := chanOf s 16
    flitsOut [⟨1, toLe 2 (2 ^ 15 + inFree c % 128) ++ (c.outq.take 15).flatMap fun o => toLe 4 o.w.toNat⟩] (setChan 16 { c with outq := c.outq.drop 15 } s) := by
  rw [freeFlit, if_neg (by rw [hup]; decide)]
  simp only [mailFlit, List.flatMap_map, one_mul]
  rfl

theorem timebaseFlit_up : timebaseFlit s =
    flitsOut [⟨3, [stamp16 s, s.red.hawser.tSend, s.red.hawser.tRecv].flatMap fun t => toLe 8 (t / 65536) ++ toLe 2 t⟩] (drawn s) := by
  rw [timebaseFlit, if_pos hup, timeFlit]
  simp only [stampBytes, List.flatMap_cons, List.flatMap_nil, List.append_nil, List.append_assoc]

/-- One flit goes out in a codeword of ten, behind the idle ones. -/
theorem flitsOut_one (f : Flit) : flitsOut [f] s =
    let o := s.red.hawser.after (Config.freeNat s.free)
    let v := setHawser (o.after 1) (emit (.hawserIdle s.red.hawser.txSeq (Config.freeNat s.free)) (setHawser o (drawn s)))
    cnt (cDev 6) 1 (if (laneOf s (24 + o.turn.headD 0)).txLol = true then v
      else emit (.codeword o.txSeq (o.turn.headD 0) (maskOf s.red.hawser.locked).toNat (f :: List.replicate 9 ⟨0, []⟩)) v) :=
  if_pos hup

end

end

/-! ### O53 -/

/-- Settles O53: each clause is the lemma of its function, on a lane that can hold lock and on one that cannot. -/
theorem hawserCarriesItsFlits : Obligations.HawserCarriesItsFlits := by
  unfold Obligations.HawserCarriesItsFlits
  intro s
  refine ⟨fun i => ⟨⟨?cannotGain, ?gain, ?noLoss, ?loss⟩, ?noLane, fun hcan seq lanes flits => ⟨?bad, ?good⟩⟩, fun n q hq => ⟨?next, ?none⟩, rfl, rfl,
    ⟨?staysDown, ?goesDown, ?staysUp, ?comesUp⟩, rfl, fun i => ⟨hawserContent_nothing, fun hon hpll => ⟨hawserContent_pattern hon hpll,
      hawserContent_flits hon hpll, hawserContent_idle hon hpll⟩⟩, ⟨?shutOut, ?heard⟩, ?linkDown, ?free, ?timebase, ?codeword⟩
  case cannotGain =>
    exact fun h => congrArg Host.Outcome.next (h.elim hawserLock_same hawserLock_cannot)
  case gain => exact fun hno hcan => congrArg Host.Outcome.next (hawserLock_gained hno hcan)
  case noLoss => exact fun h => congrArg Host.Outcome.next (hawserLock_same h)
  case loss => exact fun h => congrArg Host.Outcome.next (hawserLock_lost h)
  case noLane => exact fun h good seq lanes flits => congrArg Host.Outcome.next (hawserCodeword_cannot h)
  case bad =>
    exact ⟨fun h => congrArg Host.Outcome.next (hawserCodeword_bad_kept hcan h),
      fun hrun hlock => congrArg Host.Outcome.next (hawserCodeword_bad_lost hcan hrun hlock)⟩
  case good =>
    have hlocked := hawserCodeword_locked (seq := seq) (lanes := lanes) (flits := flits) hcan
    have hno := hawserCodeword_unlocked (seq := seq) (lanes := lanes) (flits := flits) hcan
    intro n t u v q
    refine ⟨fun hlock hrun => congrArg Host.Outcome.next (hno hlock hrun), fun h => ?_⟩
    have hu : hawserCodeword i true seq lanes flits s = if (laneOf s (24 + i)).gen = true then u
      else if (laneOf u (24 + i)).loopback ≠ 0 then cnt (cLane 11 (24 + i)) flits u else codewordPlaced i seq flits v := by
      rw [hlocked h]
      rfl
    have hexec {w} (hw : hawserCodeword i true seq lanes flits s = w) : exec (.hawserCodewordRx i true seq lanes flits) s = .next w :=
      congrArg Host.Outcome.next hw
    clear_value v u
    refine ⟨fun hgen => hexec (hu.trans (if_pos hgen)), fun hgen hloop => hexec ?_, fun hgen hloop => ⟨fun hold => hexec ?_, fun hnew => hexec ?_⟩⟩
    · rw [hu, if_neg (Bool.eq_false_iff.mp hgen), if_pos hloop]
    · rw [hu, if_neg (Bool.eq_false_iff.mp hgen), if_neg (not_not.mpr hloop), codewordPlaced_old hold]
    · rw [hu, if_neg (Bool.eq_false_iff.mp hgen), if_neg (not_not.mpr hloop), codewordPlaced_new hnew]
  case next => exact fun a h => deliverFlits_next hq h
  case none => exact fun h => ⟨deliverFlits_skips hq h, deliverFlits_waits hq h⟩
  case staysDown => exact hawserSetNow_staysDown
  case goesDown => exact hawserSetNow_goesDown
  case staysUp => exact hawserSetNow_staysUp
  case comesUp =>
    intro hset hquiet hup u
    have hcomes : hawserSetNow s = hawserLines (if pairOn u = true then enterHello u else u) := hawserSetNow_comesUp hset hquiet hup
    exact ⟨fun hon => hcomes.trans (congrArg hawserLines (if_pos hon)),
      fun hoff => hcomes.trans (congrArg hawserLines (if_neg (Bool.eq_false_iff.mp hoff)))⟩
  case shutOut =>
    exact fun h => ⟨fun r ws free => congrArg Host.Outcome.next (fromMate_shutOut h), fun a b c d => congrArg Host.Outcome.next (fromMate_shutOut h)⟩
  case heard =>
    intro h
    have hmail {r ws free t} (ht : mailboxFlit r ws free s = t) : exec (.hawserMailboxFlitRx r ws free) s = .next t :=
      congrArg Host.Outcome.next ((fromMate_heard h).trans ht)
    have htime {a b c d t} (ht : timebaseRx a b c d s = t) : exec (.hawserTimebaseFlitRx a b c d) s = .next t :=
      congrArg Host.Outcome.next ((fromMate_heard h).trans ht)
    exact ⟨fun ws free => ⟨hmail rfl, fun hno => hmail (mailboxFlit_other hno), fun hyes => hmail (mailboxFlit_hello hyes)⟩,
      fun a b c d => ⟨fun hb => htime (if_pos hb), fun hb => htime (if_neg hb)⟩⟩
  case linkDown => exact fun h => ⟨congrArg Host.Outcome.next (freeFlit_down h), congrArg Host.Outcome.next (timebaseFlit_down h)⟩
  case free => exact fun h => congrArg Host.Outcome.next (freeFlit_up h)
  case timebase => exact fun h => congrArg Host.Outcome.next (timebaseFlit_up h)
  case codeword => exact fun h f => ⟨Config.freeNat s.free, flitsOut_one h f⟩

end Sys2Proof.Machine

/-! PROOFS. The mirror records that the mate sends (R203, R397, R418, R510, R511, R514, R515, R517, R520, R522, R524). -/

namespace Sys2Proof.Machine

/-! ### A record is counted, and a gap found (R511) -/

section
variable {n : Nat} {s : State}

/-- A record counted and its number taken note of, where the sequence has come to. -/
def recordCounted (n : Nat) (s : State) : State :=
  let c := cnt (cDev 15) 1 s
  let hit := standbySpans c
  let p := s.red.pair
  setPair { p with
    rxTop := (n + 1) % 2 ^ 32, rxNext := if hit = [] ∨ (n = p.rxTop ∧ p.rxNext = p.rxTop) then (n + 1) % 2 ^ 32 else p.rxNext
    rxSince := if hit = [] then none else some (p.rxSince.getD (frameNo c)) } c

/-- A gap found: the standby Spans are out of step, and the mate is asked for a new snapshot of them. -/
def gapTold (n : Nat) (s : State) : State :=
  let hit := standbySpans (cnt (cDev 15) 1 s)
  let v := recordCounted n s
  judgeSyncs ((fun t => if hit = [] then t else mateCall 0x0E11 [1, maskOf hit] t)
    (forEach hit (fun sp t => raise 873 [] [wd sp, wd n] (cnt (cSpan 18 sp) 1 t)) (setPair { v.red.pair with gapSpans := hit } v)))

theorem mirrorIn_counted : mirrorIn n s =
    if n ≠ s.red.pair.rxTop then gapTold n s else recordCounted n s := by
  have hcond (hit : List Nat) : (decide (hit = []) || (!decide (n ≠ s.red.pair.rxTop) && decide (s.red.pair.rxNext = s.red.pair.rxTop))) =
      decide (hit = [] ∨ (n = s.red.pair.rxTop ∧ s.red.pair.rxNext = s.red.pair.rxTop)) := by
    by_cases h : n = s.red.pair.rxTop <;> simp [h]
  simp only [mirrorIn, gapTold, recordCounted]
  rw [show (cnt (cDev 15) 1 s).red.pair = s.red.pair from rfl]
  simp only [hcond, decide_eq_true_eq]

/-- What the record of a number leaves before its content is taken. -/
theorem mirrorIn_eq : mirrorIn n s = if n = s.red.pair.rxTop then recordCounted n s else gapTold n s := by
  rw [mirrorIn_counted, ite_not]

end

/-! ### Records of a Span that is not standby here (R510) -/

section
variable {sp : Nat} {s : State} (h : listens s sp = false)
include h

theorem not_listens : (!listens s sp) = true := by rw [h]; rfl

theorem mirrorMap_passes {m : MirMap} : mirrorMap sp m s = s := if_pos (not_listens h)

theorem mirrorOnuIn_passes {m : MirOnu} : mirrorOnuIn sp m s = s := if_pos (not_listens h)

theorem mirrorAllocIn_passes {m : MirAlloc} : mirrorAllocIn sp m s = s := if_pos (not_listens h)

theorem mirrorKeyIn_passes {m : MirKey} : mirrorKeyIn sp m s = s := if_pos (not_listens h)

theorem mirrorSpanIn_passes {m : MirSpan} : mirrorSpanIn sp m s = s := if_pos (not_listens h)

end

/-! ### Records that are taken (R203, R397, R418, R510, R514, R520, R524) -/

section
variable {sp : Nat} {s : State} (h : listens s sp = true)
include h

theorem listens_cond : ¬ (!listens s sp) = true := by rw [h]; exact Bool.false_ne_true

theorem mirrorMap_taken {m : MirMap} : mirrorMap sp m s = forEach m.maps (fun e t =>
    let dues := e.2.grants.map fun g => (⟨g, m.sfc, profAt t sp e.1 g.prof⟩ : Due)
    let late := dues.filter fun d => (searchWindow t sp e.1 d).1 < psOf t.tb
    let t := anchorMap sp e.1 m.sfc e.2.grants (modPier sp e.1 (fun x => { x with sent := some e.2, due := x.due ++ dues.filter fun d => !late.contains d }) t)
    if late = [] then t else cnt (cSpan 19 sp) 1 t) s :=
  if_neg (listens_cond h)

/-- An allocation with the demand that a record carries. -/
def allocTaken (m : MirAlloc) (f : Nat) (x : Alloc) : Alloc :=
  let r := if bit (pw m.words 2) 31 then some (fld (pw m.words 2) 30 0, f) else none
  { x with
    d := (pw m.words 0).toNat, hist := if pw m.words 1 = 0 then [] else [(f + 1, (pw m.words 1).toNat)], report := r, latched := r
    pollAge := fld (pw m.words 3) 7 0, st := if m.words.length = 8 then m.words.drop 4 else [0, 0, 0, 0] }

theorem mirrorAllocIn_listed {m : MirAlloc} {a : Option Alloc} (ha : allocOf s sp m.alloc = a) : mirrorAllocIn sp m s =
    match (generalizing := false) a with
    | none => s
    | some x => setAlloc sp m.alloc (allocTaken m (frameNo s) x) s := by
  subst ha
  exact if_neg (listens_cond h)

/-- What the state of a mirrored key makes of the pair of its slots: a key shown ACTIVE retires the other. -/
def OnuKeys.mirrored (k : OnuKeys) (m : MirKey) (ix f : Nat) (x : Slot) : OnuKeys :=
  let other := 3 - ix
  (if m.state.val = 2 then k.put other ((k.slot other).retire m.pier f) else k).put ix x

def PierKeys.mirrored (k : PierKeys) (m : MirKey) (f : Nat) (x : Slot) : PierKeys :=
  let other := 3 - m.index.val
  (if m.state.val = 2 then k.put other ((k.slot other).retire m.pier f) else k).put m.index x

theorem mirrorKeyIn_sealed {m : MirKey} (hkey : kwUnwrap 2 s.ciph.pair.key m.wrapped = none) : mirrorKeyIn sp m s = s := by
  refine (if_neg (listens_cond h)).trans ?_
  rw [hkey]

section
variable {m : MirKey} {key : Nat} (hkey : kwUnwrap 2 s.ciph.pair.key m.wrapped = some key)
include hkey

theorem mirrorKeyIn_onu {o : OnuIx} {ix : Nat} (ho : m.onu = some o) (hix : m.index.val = ix) : mirrorKeyIn sp m s =
    match (generalizing := false) ix with
    | 0 => modOnuKeys sp o (fun k => { k with msk := some key }) s
    | 3 => modOnuKeys sp o (fun k => { k with ik := key }) s
    | 4 => modOnuKeys sp o (fun k => { k with kek := key }) s
    | ix => modOnuKeys sp o (fun k => k.mirrored m ix (frameNo s) (slotFrom s m key)) s := by
  subst hix
  refine (if_neg (listens_cond h)).trans ?_
  rw [hkey, ho]
  rfl

theorem mirrorKeyIn_slot {o : OnuIx} (ho : m.onu = some o) (hix : m.index.val = 1 ∨ m.index.val = 2) :
    mirrorKeyIn sp m s = modOnuKeys sp o (fun k => k.mirrored m m.index.val (frameNo s) (slotFrom s m key)) s := by
  rcases hix with hix | hix
  · rw [mirrorKeyIn_onu h hkey ho hix, hix]
    rfl
  · rw [mirrorKeyIn_onu h hkey ho hix, hix]
    rfl

/-- A broadcast key shown past NEXT is no longer held here. -/
theorem mirrorKeyIn_broadcast (ho : m.onu = none) : mirrorKeyIn sp m s =
    setPierKeys sp m.pier ((pierKeys s sp m.pier).mirrored m (frameNo s) (slotFrom s m key))
      (if m.state.val = 1 then s else releaseObj ⟨.bcastKey, 4 * (3 * sp + m.pier) + m.index⟩ s) := by
  refine (if_neg (listens_cond h)).trans ?_
  rw [hkey, ho]
  by_cases hst : m.state.val = 1
  · simp only [if_pos hst]
    rfl
  · simp only [if_neg hst]
    rfl

end

theorem mirrorSpanIn_taken {m : MirSpan} : mirrorSpanIn sp m s = forEach (List.range 3) (fun p t => judgeReady sp p (match m.teqd[p]? with
      | some x => modPier sp p (fun y => { y with mirTeqd := some x, teqd := x }) t
      | none => t)) (modSpan sp (fun v => { v with
        reachMin := m.reach.1, reachMax := m.reach.2, mirOpen := m.opened
        diff := (m.model.map (·.1)).getD v.diff, reachMargin := (m.model.map (·.2)).getD v.reachMargin })
      (if m.opened = true ∨ (spanOf s sp).mirOpen = true then s else splicesStale sp s)) := by
  have hstale : (if (m.opened || (spanOf s sp).mirOpen) = true then s else splicesStale sp s) =
      if m.opened = true ∨ (spanOf s sp).mirOpen = true then s else splicesStale sp s := if_congr (by rw [Bool.or_eq_true]) rfl rfl
  rw [← hstale]
  exact if_neg (listens_cond h)

end

/-! ### An ONU record (R203) -/

section
variable {sp o p : Nat} {s : State}

theorem pon_judgeReady : (judgeReady sp p s).pon.onus = s.pon.onus ∧ (judgeReady sp p s).pon.allocs = s.pon.allocs := by
  unfold judgeReady
  dsimp only
  split
  · exact ⟨rfl, rfl⟩
  · rw [raise_pon]
    exact ⟨rfl, rfl⟩

/-- What a record says of an ONU. -/
def Onu.says (x : Onu) (m : MirOnu) : Prop :=
  x.st = m.st ∧ x.pier = m.pier.val ∧ x.onuId = m.onuId ∧ x.rate = m.rate ∧ x.eqd = m.eqd ∧ x.offset = m.offset ∧ x.cumul = m.cumul ∧ x.expect = m.expect

variable {m : MirOnu}

/-- The judgement of a Splice changes nothing that a record says, and no allocation. -/
theorem judgeSplice_leaves : ((onuOf (judgeSplice sp o s) sp o).says m ↔ (onuOf s sp o).says m) ∧ (judgeSplice sp o s).pon.allocs = s.pon.allocs := by
  have hpon : (judgeSplice sp o s).pon = s.pon ∨ (judgeSplice sp o s).pon = (modOnu sp o (fun x => { x with spliceOk := spliceOkNow s sp o }) s).pon := by
    unfold judgeSplice
    dsimp only
    split
    · exact .inl rfl
    · split
      · exact .inr rfl
      · exact .inr (raise_pon _ _ _ _)
  have honu {t : State} (ht : (judgeSplice sp o s).pon = t.pon) : onuOf (judgeSplice sp o s) sp o = onuOf t sp o :=
    congrArg (fun x : Pon => kgetD x.onus (512 * sp + o) {}) ht
  rcases hpon with hpon | hpon
  · exact ⟨by rw [honu hpon], congrArg Pon.allocs hpon⟩
  · rw [honu hpon, hpon, modOnu, onuOf_setOnu]
    exact ⟨Iff.rfl, rfl⟩

/-- An ONU that leaves on the mate leaves here. -/
def onuLeft (sp : Nat) (m : MirOnu) (s : State) : State :=
  let was := (onuOf s sp m.onu).st
  let told := was = .deactivating || ((was = .ranging || was = .registering || was = .active) && (m.st = .disabled || (spanOf s sp).mirOpen))
  if m.st = .inactive || m.st = .disabled then leaveTo sp m.onu m.st 0 told s else s

/-- The ONU as the record has it, with the round trip and the distance that follow from it. -/
def onuRecorded (sp : Nat) (m : MirOnu) (s : State) : State :=
  let p := m.pier.val
  let old := onuOf s sp m.onu
  let rtd := teqdPs s sp p - (m.eqd : Nat) * eqdUnit p
  modOnu sp m.onu (fun x => { x with
    st := m.st, pier := p, onuId := m.onuId, rate := m.rate, eqd := m.eqd, offset := m.offset, cumul := m.cumul, expect := m.expect, rtd := rtd,
    serial := match m.expect with | some e => e.serial | none => x.serial,
    distance := distanceOf (pierOf s sp p) rtd, deltaCount := if old.eqd = m.eqd then x.deltaCount else 0 }) s

/-- The Splice of an ONU that is on its way or ACTIVE holds for its serial number alone. -/
def spliceRecorded (sp : Nat) (m : MirOnu) (s : State) : State :=
  if m.st = .ranging || m.st = .registering || m.st = .active then
    judgeSplice sp m.onu (modOnu sp m.onu (fun x => { x with splice := { x.splice with valid := x.splice.valid && x.spliceSerial = x.serial } }) s) else s

/-- The allocations of an ONU that the record shows ACTIVE are told to it. -/
def allocsTold (sp : Nat) (m : MirOnu) (s : State) : State :=
  if m.st = .active then
    { s with pon := { s.pon with allocs := kmap s.pon.allocs fun k a => if k / 2048 = sp && a.onu = m.onu.val then { a with told := true } else a } } else s

theorem mirrorOnuIn_eq (h : listens s sp = true) :
    mirrorOnuIn sp m s = judgeReady sp m.pier (allocsTold sp m (spliceRecorded sp m (onuRecorded sp m (onuLeft sp m s)))) :=
  if_neg (listens_cond h)

theorem onuRecorded_says : (onuOf (onuRecorded sp m s) sp m.onu).says m := by
  rw [onuRecorded, modOnu, onuOf_setOnu]
  exact ⟨rfl, rfl, rfl, rfl, rfl, rfl, rfl, rfl⟩

theorem spliceRecorded_leaves : ((onuOf (spliceRecorded sp m s) sp m.onu).says m ↔ (onuOf s sp m.onu).says m) ∧
    (spliceRecorded sp m s).pon.allocs = s.pon.allocs := by
  unfold spliceRecorded
  split
  · obtain ⟨hsays, hallocs⟩ := judgeSplice_leaves (sp := sp) (o := m.onu) (m := m)
      (s := modOnu sp m.onu (fun x => { x with splice := { x.splice with valid := x.splice.valid && x.spliceSerial = x.serial } }) s)
    rw [modOnu, onuOf_setOnu] at hsays
    exact ⟨hsays, hallocs⟩
  · exact ⟨Iff.rfl, rfl⟩

theorem mirrorOnuIn_says (h : listens s sp = true) : (onuOf (mirrorOnuIn sp m s) sp m.onu).says m := by
  have htold (t : State) : (allocsTold sp m t).pon.onus = t.pon.onus := by
    unfold allocsTold
    split
    · rfl
    · rfl
  obtain ⟨honus, -⟩ := pon_judgeReady (sp := sp) (p := m.pier) (s := allocsTold sp m (spliceRecorded sp m (onuRecorded sp m (onuLeft sp m s))))
  have honu : onuOf (mirrorOnuIn sp m s) sp m.onu = onuOf (spliceRecorded sp m (onuRecorded sp m (onuLeft sp m s))) sp m.onu := by
    rw [mirrorOnuIn_eq h]
    exact congrArg (fun l => kgetD l (512 * sp + m.onu) {}) (honus.trans (htold _))
  obtain ⟨hsays, -⟩ := spliceRecorded_leaves (sp := sp) (m := m) (s := onuRecorded sp m (onuLeft sp m s))
  rw [honu]
  exact hsays.mpr onuRecorded_says

/-- Every allocation of an ONU that the record shows ACTIVE is told to it. -/
theorem mirrorOnuIn_told (h : listens s sp = true) (hst : m.st = .active) {a : Nat} (ha : a < 2048) {x : Alloc} (hx : allocOf s sp a = some x)
    (honu : x.onu = m.onu.val) : ∃ y, allocOf (mirrorOnuIn sp m s) sp a = some y ∧ y.told = true := by
  have hleft : onuLeft sp m s = s := if_neg (by rw [hst]; decide)
  have hallocs : (mirrorOnuIn sp m s).pon.allocs =
      kmap s.pon.allocs fun k a => if k / 2048 = sp && a.onu = m.onu.val then { a with told := true } else a := by
    obtain ⟨-, hready⟩ := pon_judgeReady (sp := sp) (p := m.pier) (s := allocsTold sp m (spliceRecorded sp m (onuRecorded sp m s)))
    obtain ⟨-, hsplice⟩ := spliceRecorded_leaves (sp := sp) (m := m) (s := onuRecorded sp m s)
    rw [mirrorOnuIn_eq h, hleft, hready, allocsTold, if_pos hst]
    dsimp only
    rw [hsplice]
    rfl
  have hkey : (2048 * sp + a) / 2048 = sp := by omega
  refine ⟨{ x with told := true }, ?_, rfl⟩
  rw [allocOf, hallocs, kget_kmap, show kget s.pon.allocs (2048 * sp + a) = some x from hx, Option.map_some, if_pos (by simp [hkey, honu])]

end

/-! ### A mirrored commit waits for its apply point (R203, R522) -/

section
variable {m : MirCommit} {s : State}

theorem pairedHere_iff : ((List.range 32).any fun sp => (spanOf s sp).paired) = true ↔ ∃ sp < 32, (spanOf s sp).paired = true := by
  simp only [List.any_eq_true, List.mem_range]

/-- The items of a mirrored commit held till an apply point. -/
def commitHeld (m : MirCommit) (s : State) (target : Nat) : State :=
  noteConfig (mirItems s m) (setTxns (s.ctl.txns ++ [⟨0, 16, true, mirItems s m, .accepted target, [], none⟩]) s)

theorem commitIn_alone (h : ¬ ∃ sp < 32, (spanOf s sp).paired = true) : commitIn m s = s := by
  rw [← pairedHere_iff, Bool.not_eq_true] at h
  exact if_pos (by rw [h]; rfl)

section
variable (h : ∃ sp < 32, (spanOf s sp).paired = true)
include h

theorem commitIn_cond : ¬ (!((List.range 32).any fun sp => (spanOf s sp).paired)) = true := by
  rw [pairedHere_iff.mpr h]
  exact Bool.false_ne_true

theorem commitIn_inTime (hat : s.tb + 20 * us ≤ m.point * frameTb) : commitIn m s = commitHeld m s (m.point * frameTb) := by
  refine (if_neg (commitIn_cond h)).trans ?_
  simp only [if_neg (Nat.not_lt.mpr hat), decide_eq_false (Nat.not_lt.mpr hat), Bool.not_false, if_true]
  rfl

theorem commitIn_late (hat : m.point * frameTb < s.tb + 20 * us) : commitIn m s =
    let t := commitHeld m s (applyPointFor s.tb 0)
    let spans := ((mirItems s m).flatMap (itemSpans t)).filter fun sp => (spanOf t sp).paired && (spanOf t sp).standby
    judgeSyncs (setPair { t.red.pair with late := spans.foldl (fun l sp => kset l sp (applyPointFor s.tb 0)) t.red.pair.late } t) := by
  refine (if_neg (commitIn_cond h)).trans ?_
  simp only [if_pos hat, decide_eq_true hat, Bool.not_true, Bool.false_eq_true, if_false]
  rfl

end

end

/-! ### Switch requests and the end of a snapshot (R515, R517, R522) -/

section
variable {spans : Word} {s : State}

/-- The active device's calibration constants come with the end of a snapshot: free values (assumption 3). -/
def calibrated (mine : List Nat) (s : State) : State :=
  forEach mine (fun sp t => forEach (List.range 3) (fun p t =>
    judgeReady sp p (modPier sp p (fun x => { x with mirTx := Config.freeNat t.free, mirRx := Config.freeNat (t.free + 1) }) (drawn (drawn t)))) t) s

/-- The snapshot of Spans is here: they are done, and none of them is behind a gap any more. -/
def snapshotHere (mine : List Nat) (t : State) : State :=
  let p := t.red.pair
  let left := p.gapSpans.filter fun sp => !mine.contains sp
  setPair { p with snapDone := mine.foldl sinsert p.snapDone, gapSpans := left, rxNext := if left = [] then p.rxTop else p.rxNext } t

theorem snapshotEnd_eq {mine : List Nat} (hmine : (standbySpans s).filter (bit spans) = mine) : snapshotEnd spans s =
    judgePaired (if mine = [] then snapshotHere mine (calibrated mine s)
      else mateCall 0x0E11 [2, maskOf mine] (snapshotHere mine (calibrated mine s))) := by
  subst hmine
  rfl

end

/-! ### O54 -/

/-- Settles O54: a record is heard where the mate is, counted, and its content taken where its Span is standby here. -/
theorem mirrorRecordsAreTaken : Obligations.MirrorRecordsAreTaken := by
  unfold Obligations.MirrorRecordsAreTaken
  intro s n c hit p next v w u ls looped
  have hu : mirrorIn n s = u := mirrorIn_eq
  clear_value u
  refine ⟨fun hloop h hn => ?shutOut, fun hheard => ⟨fun h hn => ⟨fun hno => ?passes, fun hyes => ?taken⟩, ?commit, ?commitIn, ?heartbeat, ?switch, ?snapshot⟩⟩
  case shutOut =>
    have hout {f : State → State} : fromMate f s = s := fromMate_shutOut hloop
    exact ⟨fun m => congrArg Host.Outcome.next hout, fun m => congrArg Host.Outcome.next hout, fun m => congrArg Host.Outcome.next hout,
      fun m => congrArg Host.Outcome.next hout, fun m => congrArg Host.Outcome.next hout, fun m => congrArg Host.Outcome.next hout,
      fun roles st a => congrArg Host.Outcome.next hout, fun spans force row => congrArg Host.Outcome.next hout,
      fun spans => congrArg Host.Outcome.next hout⟩
  case passes =>
    subst hn
    have hrec {f : State → State} (hf : f u = u) : Host.Outcome.next (φ := Fault) (ρ := Refusal) (fromMate (fun s => f (mirrorIn h.rseq s)) s) = .next u :=
      congrArg Host.Outcome.next ((fromMate_heard hheard).trans ((congrArg f hu).trans hf))
    exact ⟨fun m => hrec (mirrorMap_passes hno), fun m => hrec (mirrorOnuIn_passes hno), fun m => hrec (mirrorAllocIn_passes hno),
      fun m => hrec (mirrorKeyIn_passes hno), fun m => hrec (mirrorSpanIn_passes hno)⟩
  case taken =>
    subst hn
    have hrec {f : State → State} {t : State} (hf : f u = t) :
        Host.Outcome.next (φ := Fault) (ρ := Refusal) (fromMate (fun s => f (mirrorIn h.rseq s)) s) = .next t :=
      congrArg Host.Outcome.next ((fromMate_heard hheard).trans ((congrArg f hu).trans hf))
    refine ⟨fun m => hrec (mirrorMap_taken hyes), fun m => ⟨fun ha => hrec (mirrorAllocIn_listed hyes ha), fun x hx => hrec (mirrorAllocIn_listed hyes hx)⟩,
      fun m => ⟨_, hrec rfl, mirrorOnuIn_says hyes, fun hst a x hx honu => mirrorOnuIn_told hyes hst a.isLt hx honu⟩,
      fun m => ⟨fun hkey => hrec (mirrorKeyIn_sealed hyes hkey), fun key hkey => ⟨fun o ho => ⟨fun hix => ?_, fun hix => ?_, fun hix => ?_, fun hix => ?_⟩,
        fun ho => hrec (mirrorKeyIn_broadcast hyes hkey ho)⟩⟩, fun m => hrec (mirrorSpanIn_taken hyes)⟩
    · exact hrec (mirrorKeyIn_onu hyes hkey ho hix)
    · exact hrec (mirrorKeyIn_onu hyes hkey ho hix)
    · exact hrec (mirrorKeyIn_onu hyes hkey ho hix)
    · exact hrec (mirrorKeyIn_slot hyes hkey ho hix)
  case commit =>
    intro h m hn
    subst hn
    exact congrArg Host.Outcome.next ((fromMate_heard hheard).trans (congrArg (commitIn m) hu))
  case commitIn => exact fun m => ⟨commitIn_alone, commitIn_inTime, commitIn_late⟩
  case heartbeat =>
    exact fun roles st a => congrArg Host.Outcome.next ((fromMate_heard hheard).trans (congrArg (heartbeatIn roles) hu))
  case switch =>
    exact fun spans force row => congrArg Host.Outcome.next ((fromMate_heard hheard).trans (congrArg (switchIn row force (spansIn spans)) hu))
  case snapshot =>
    have hrec {spans t} (ht : snapshotEnd spans u = t) : exec (.mirrorEndOfSnapshotRx n spans) s = .next t :=
      congrArg Host.Outcome.next ((fromMate_heard hheard).trans ((congrArg (snapshotEnd spans) hu).trans ht))
    exact fun spans => ⟨fun hmine => hrec ((snapshotEnd_eq rfl).trans (congrArg judgePaired (if_pos hmine))),
      fun hmine => hrec ((snapshotEnd_eq rfl).trans (congrArg judgePaired (if_neg hmine)))⟩

end Sys2Proof.Machine

/-! PROOFS. Acknowledgements, the loss of the mate, the switch-over's end and the pair's calls (R397, R418, R507, R511, R515 to R517, R533). -/

namespace Sys2Proof.Machine

section
variable {s : State}

/-! ### Acknowledgements (R507, R511) -/

/-- An acknowledgement is a record without data, in one flit. -/
theorem recordFlits_ack (n : Nat) : recordFlits 15 0xFF n [] = [⟨2, [15, 0xFF] ++ toLe 2 (2 ^ 15) ++ toLe 4 n⟩] := by
  show [fragment 15 0xFF n 0 (decide (0 + 1 = 1)) []] = _
  rw [fragment, List.append_nil]
  rfl

theorem ackOut_sends (hup : s.red.hawser.up = true) (hspans : standbySpans s ≠ []) : ackOut s =
    flitsOut [⟨2, [15, 0xFF] ++ toLe 2 (2 ^ 15) ++ toLe 4 ((s.red.pair.rxNext + 2 ^ 32 - 1) % 2 ^ 32)⟩]
      (setPair { s.red.pair with rxSince := if s.red.pair.rxNext = s.red.pair.rxTop then none else s.red.pair.rxSince } s) := by
  rw [← recordFlits_ack]
  exact if_pos (by rw [hup, decide_eq_true hspans]; rfl)

theorem ackOut_none (h : s.red.hawser.up = false ∨ standbySpans s = []) : ackOut s = s :=
  if_neg (by rcases h with h | h <;> simp [h])

/-! ### The loss of the mate (R515, R516) -/

/-- Whether the pair has a mate that mirrors: in BULK or PAIRED. -/
def mated (s : State) : Prop := s.red.pair.st = .bulk ∨ s.red.pair.st = .paired

theorem mated_iff : mated s ↔ (decide (s.red.pair.st = .bulk) || decide (s.red.pair.st = .paired)) = true := by
  simp only [mated, Bool.or_eq_true, decide_eq_true_eq]

theorem exec_mateHeartbeatTimeout (hspans : standbySpans s ≠ []) (h : mated s) : exec .mateHeartbeatTimeout s = .next (mateLost 1 s) :=
  congrArg Host.Outcome.next (if_pos (Bool.and_eq_true_iff.mpr ⟨decide_eq_true hspans, mated_iff.mp h⟩))

theorem exec_mateHeartbeatTimeout_none (h : standbySpans s = [] ∨ ¬ mated s) : exec .mateHeartbeatTimeout s = .next s := by
  refine congrArg Host.Outcome.next (if_neg fun hcond => ?_)
  obtain ⟨hspans, hmated⟩ := Bool.and_eq_true_iff.mp hcond
  rw [decide_eq_true_eq] at hspans
  exact h.elim hspans fun h => h (mated_iff.mpr hmated)

/-- The Spans whose switch-over runs already absorb the loss. -/
def lossAbsorbed (s : State) : State := forEach ((standbySpans s).filter (switching s)) (fun sp t => cnt (cSpan 17 sp) 1 t) s

/-- The Spans that the loss of the mate bears on: standby ones with an ACTIVE ONU. -/
def lossSpans (s : State) : List Nat :=
  (standbySpans (lossAbsorbed s)).filter fun sp => hasActive (lossAbsorbed s) sp && !switching (lossAbsorbed s) sp

/-- Those of them that this device may take over. -/
def lossTakes (s : State) : List Nat :=
  (lossSpans s).filter fun sp => s.red.pair.sync.contains sp || (s.red.pair.takeUnsync && s.red.pair.snapDone.contains sp)

/-- What is told of a lost mate. -/
def lossTold (why : Nat) (s : State) : State := raise 865 [] [wd why] (setPairSt .mateLost (lossAbsorbed s))

/-- The Spans that are to be taken over wait for their confirmation, and no record for its acknowledgement. -/
def lossWaits (p : Pair) (go : List Nat) (t : State) : State :=
  setPair { t.red.pair with confirming := go, unsynced := go.filter fun sp => !p.sync.contains sp, unacked := [], toMate := [], rxSince := none } t

theorem mateLost_mated {why : Nat} (h : mated s) : mateLost why s =
    let go := if s.red.pair.auto = true then lossTakes s else []
    let t := if s.red.pair.auto = true then refusedEvt 0 ((lossSpans s).filter fun sp => !(lossTakes s).contains sp) (lossTold why s)
      else refusedEvt 1 (lossSpans s) (lossTold why s)
    judgeSyncs (forEach go (fun sp => threePiers (opticHold sp)) (lossWaits s.red.pair go t)) :=
  if_neg (by rcases h with h | h <;> simp [h])

theorem mateLost_auto {why : Nat} (h : mated s) (hauto : s.red.pair.auto = true) : mateLost why s =
    judgeSyncs (forEach (lossTakes s) (fun sp => threePiers (opticHold sp)) (lossWaits s.red.pair (lossTakes s)
      (refusedEvt 0 ((lossSpans s).filter fun sp => !(lossTakes s).contains sp) (lossTold why s)))) := by
  rw [mateLost_mated h]
  simp only [if_pos hauto]

theorem mateLost_manual {why : Nat} (h : mated s) (hauto : s.red.pair.auto = false) :
    mateLost why s = judgeSyncs (lossWaits s.red.pair [] (refusedEvt 1 (lossSpans s) (lossTold why s))) := by
  rw [mateLost_mated h]
  simp only [hauto, Bool.false_eq_true, if_false]
  rfl

section
variable {lit : Word}

theorem confirmEnd_none (h : s.red.pair.st ≠ .mateLost) : confirmEnd lit s = s := if_pos h

theorem confirmEnd_lost (h : s.red.pair.st = .mateLost) : confirmEnd lit s =
    let seen := (standbySpans s).filter (bit lit)
    let go := s.red.pair.confirming.filter fun sp => !seen.contains sp && (spanOf s sp).standby
    let t := forEach (s.red.pair.confirming.filter fun sp => !go.contains sp) refuseRun s
    let t := setPair { t.red.pair with confirming := [] } t
    startTake 5 go (if seen = [] then t else raise 868 [] [0, maskOf seen] (setPairSt .split t)) :=
  if_neg (not_not.mpr h)

end

/-! ### The end of a switch-over (R443, R517) -/

section
variable {sp : Nat}

theorem relight_runs (h : (s.red.pair.runs.any fun r => r.span = sp && r.taking) = true) : relight sp s = threePiers (opticRelight sp) s := if_pos h

theorem relight_none (h : (s.red.pair.runs.any fun r => r.span = sp && r.taking) = false) : relight sp s = s :=
  if_neg (by rw [h]; exact Bool.false_ne_true)

theorem firstFrame_none (h : (s.red.pair.runs.any fun r => r.span = sp && r.taking) = false) : firstFrame sp s = s := by
  have hfind : (s.red.pair.runs.find? fun r => r.span = sp && r.taking) = none := by
    rw [List.find?_eq_none]
    exact List.any_eq_false.mp h
  simp only [firstFrame, hfind]

/-- A Span transmits again from the first frame of a switch-over on, with nothing left of the maps before. -/
def resumed (sp t1 : Nat) (s : State) : State :=
  let t := modSpan sp (fun v => { v with granting := v.st = .opened, t0 := t1 - 16, windows := [] }) s
  endRun sp (forEach (enabledPiers t sp) (fun p => modPier sp p fun x => { x with rotation := none, next := none, sent := none, due := [] }) t)

theorem firstFrame_taking {r : SwitchRun} (h : (s.red.pair.runs.find? fun r => r.span = sp && r.taking) = some r) : firstFrame sp s =
    let t1 := r.t1.getD (frameNo s)
    let t := resumed sp t1 s
    if (decide (t.ctl.lastApply = t1) && decide (frameNo t = t1)) = true then startRoutine sp t1 (lateFrame sp t) else t := by
  simp only [firstFrame, h]
  rfl

end

/-! ### `PAIR_SWITCH` (R515, R516, R533) -/

section
variable {c : Call}

/-- The Spans that a `PAIR_SWITCH` names. -/
def switchSpans (c : Call) (s : State) : List Nat := if bit (pw c.words 0) 31 = true then pairedSpans s else spansIn (pw c.words 1)

theorem pairSwitch_unpaired {code : Nat} (h : ∃ sp ∈ switchSpans c s, (spanOf s sp).paired = false) : pairSwitch code c s = respond code c .badArg [] s :=
  if_pos (by simpa [switchSpans] using h)

section
variable (hpaired : ∀ sp ∈ switchSpans c s, (spanOf s sp).paired = true)
include hpaired

theorem switchSpans_cond : ¬ ((switchSpans c s).any fun sp => !(spanOf s sp).paired) = true := by simpa using hpaired

theorem pairSwitch_waitedFor {code : Nat} (h : s.red.pair.calls.any (·.again) = true) : pairSwitch code c s = respond code c .pending [] s :=
  (if_neg (switchSpans_cond hpaired)).trans (if_pos h)

variable (hagain : s.red.pair.calls.any (·.again) = false)
include hagain

omit hpaired in
theorem again_cond : ¬ (s.red.pair.calls.any (·.again)) = true := by rw [hagain]; exact Bool.false_ne_true

theorem pairSwitch_waits {code : Nat} (h : ∃ sp ∈ switchSpans c s, switching s sp = true) : pairSwitch code c s = respond code c .pending []
    (setPair { s.red.pair with calls := s.red.pair.calls ++ [⟨refFor code c s, switchSpans c s, [], bit (pw c.words 0) 30, true⟩] } s) :=
  (if_neg (switchSpans_cond hpaired)).trans ((if_neg (again_cond hagain)).trans (if_pos (by simpa [switchSpans] using h)))

theorem pairSwitch_goes {code : Nat} (h : ∀ sp ∈ switchSpans c s, switching s sp = false) : pairSwitch code c s =
    let force := bit (pw c.words 0) 30
    let go := (switchSpans c s).filter (switchable s force)
    if go = [] then respond code c .badState [] (callSwitch force (switchSpans c s) s)
    else
      let r := refFor code c s
      let t := defer_ r s
      callSwitch force (switchSpans c s) (setPair { t.red.pair with calls := t.red.pair.calls ++ [⟨r, go, [], force, false⟩] } t) :=
  (if_neg (switchSpans_cond hpaired)).trans ((if_neg (again_cond hagain)).trans (if_neg (by simpa [switchSpans] using h)))

end

end

/-! ### `MATE_BULK` (R533) -/

section
variable {ws : List Word}

theorem mateBulk_eq {op : Nat} (hop : fld (pw ws 0) 1 0 = op) : mateBulk ws s =
    need (decide (op = 1) || decide (op = 2)) .badArg >>= fun _ =>
    need (decide (s.red.pair.st = .bulk) || decide (s.red.pair.st = .paired)) .badState >>= fun _ =>
    .ok (if op = 1 then judgeSyncs (snapshot (spansIn (pw ws 1)) s) else snapshotTaken (pw ws 1) s, []) := by
  subst hop
  rfl

theorem mateBulk_badArg (h : fld (pw ws 0) 1 0 = 0 ∨ fld (pw ws 0) 1 0 = 3) : mateBulk ws s = .error .badArg := by
  rw [mateBulk_eq rfl]
  exact need_bind_error (by rcases h with h | h <;> simp [h])

theorem mateBulk_badState (hop : fld (pw ws 0) 1 0 = 1 ∨ fld (pw ws 0) 1 0 = 2) (h : ¬ mated s) : mateBulk ws s = .error .badState := by
  rw [mateBulk_eq rfl, need_bind_ok (by simpa using hop)]
  exact need_bind_error (Bool.eq_false_iff.mpr (mt mated_iff.mpr h))

section
variable (h : mated s)
include h

theorem mateBulk_sends (hop : fld (pw ws 0) 1 0 = 1) : mateBulk ws s = .ok (judgeSyncs (snapshot (spansIn (pw ws 1)) s), []) := by
  refine (mateBulk_eq hop).trans ((need_bind_ok rfl).trans ?_)
  exact need_bind_ok (mated_iff.mp h)

theorem mateBulk_received (hop : fld (pw ws 0) 1 0 = 2) : mateBulk ws s = .ok (snapshotTaken (pw ws 1) s, []) := by
  refine (mateBulk_eq hop).trans ((need_bind_ok rfl).trans ?_)
  exact need_bind_ok (mated_iff.mp h)

end

end

end

/-! ### O55 -/

/-- Settles O55: each clause is the lemma of its function; an acknowledgement is heard where the mate is. -/
theorem pairAcknowledgesAndSwitches : Obligations.PairAcknowledgesAndSwitches := by
  unfold Obligations.PairAcknowledgesAndSwitches
  refine ⟨fun s => ⟨fun n => ⟨fun h => ?shutOut, fun h => ?ack⟩, fun hup hspans => congrArg Host.Outcome.next (ackOut_sends hup hspans),
    fun h => congrArg Host.Outcome.next (ackOut_none h), fun hspans h => ⟨fun hauto => ?auto, fun hauto => ?manual⟩, ?noLoss,
    fun lit => ⟨fun h => congrArg Host.Outcome.next (confirmEnd_none h), fun h => ?confirm⟩, fun sp => ⟨?relight, ?noRun, fun r h => ?first⟩⟩,
    fun c s => ⟨fun hserved => ?switch, fun hserved => ?status, fun hserved => ?hello, fun i hi hserved => ?bulk⟩⟩
  case shutOut => exact congrArg Host.Outcome.next (fromMate_shutOut h)
  case ack => exact congrArg Host.Outcome.next (fromMate_heard h)
  case auto => exact (exec_mateHeartbeatTimeout hspans h).trans (congrArg Host.Outcome.next (mateLost_auto h hauto))
  case manual => exact (exec_mateHeartbeatTimeout hspans h).trans (congrArg Host.Outcome.next (mateLost_manual h hauto))
  case noLoss => exact fun h => exec_mateHeartbeatTimeout_none (h.imp id fun h => not_or.mpr h)
  case confirm =>
    intro seen go t t
    have hend := confirmEnd_lost (lit := lit) h
    exact ⟨fun hseen => congrArg Host.Outcome.next (hend.trans (congrArg (startTake 5 go) (if_pos hseen))),
      fun hseen => congrArg Host.Outcome.next (hend.trans (congrArg (startTake 5 go) (if_neg hseen)))⟩
  case relight => exact fun h => congrArg Host.Outcome.next (relight_runs h)
  case noRun => exact fun h => ⟨congrArg Host.Outcome.next (relight_none h), congrArg Host.Outcome.next (firstFrame_none h)⟩
  case first =>
    intro t1 t t t
    have hframe := firstFrame_taking h
    refine ⟨fun hno => congrArg Host.Outcome.next (hframe.trans (if_neg ?_)), fun hlast hframeNo => congrArg Host.Outcome.next (hframe.trans (if_pos ?_))⟩
    · rw [Bool.and_eq_true, decide_eq_true_eq, decide_eq_true_eq, not_and_or]
      exact hno
    · exact Bool.and_eq_true_iff.mpr ⟨decide_eq_true hlast, decide_eq_true hframeNo⟩
  case switch =>
    have hserve {t} (ht : pairSwitch 0x0E02 c (readCall 0x0E02 c s) = t) : exec (.pairSwitch c) s = .next t :=
      (serve_served hserved _).trans (congrArg Host.Outcome.next ht)
    refine ⟨fun h => hserve (pairSwitch_unpaired h), fun hpaired => ⟨fun h => hserve (pairSwitch_waitedFor hpaired h), fun hagain =>
      ⟨fun h => hserve (pairSwitch_waits hpaired hagain h), fun h => ?_⟩⟩⟩
    have hgoes := pairSwitch_goes (code := 0x0E02) hpaired hagain h
    exact ⟨fun hgo => hserve (hgoes.trans (if_pos hgo)), fun hgo => hserve (hgoes.trans (if_neg hgo))⟩
  case status => exact serveRead_done hserved (fun s => .ok (pairStatus s)) rfl
  case hello => exact serveAct_done hserved (fun s => .ok (mateHello c.words s)) rfl
  case bulk =>
    have hdone {t} (ht : mateBulk c.words (readCall 0x0E11 c s) = .ok (t, [])) : exec i s = .next (respond 0x0E11 c .done [] t) := by
      rcases hi with rfl | rfl
      · exact serveAct_done hserved _ ht
      · exact serveAct_done hserved _ ht
    have hrefused {e} (he : mateBulk c.words (readCall 0x0E11 c s) = .error e) :
        exec i s = .next (respond 0x0E11 c e [] (readCall 0x0E11 c s)) := by
      rcases hi with rfl | rfl
      · exact serveAct_refused hserved _ he
      · exact serveAct_refused hserved _ he
    exact ⟨fun hop => hrefused (mateBulk_badArg hop), fun hop hbulk hpaired => hrefused (mateBulk_badState hop (not_or.mpr ⟨hbulk, hpaired⟩)),
      fun h => ⟨fun hop => hdone (mateBulk_sends h hop), fun hop => hdone (mateBulk_received h hop)⟩⟩

end Sys2Proof.Machine

/-! PROOFS. Lanyard frames, timers, apportioned rates and the shelf calls (R525 to R529, R532, R533). -/

namespace Sys2Proof.Machine

/-! ### What the Lanyard's frames leave of the device's role -/

section
variable {s : State}

theorem boot_protect (port an : Nat) (a : Sa) (y : SecY) (f : List Byte) : (protect port an a y f s).1.boot = s.boot := by
  have halarm {c : Prop} [Decidable c] (src : Nat) (ws : List Word) (t : State) : (if c then raise src [] ws t else t).boot = t.boot := by
    rw [apply_ite State.boot, raise_boot, ite_self]
  unfold protect
  dsimp only
  split
  · rw [raise_boot]
    split
    · exact halarm _ _ _
    · exact halarm _ _ _
  · exact halarm _ _ _

theorem boot_macTx (port : Nat) (f : List Byte) : (macTx port f s).1.boot = s.boot := by
  unfold macTx
  dsimp only
  split
  · rfl
  · split
    · rfl
    · split
      · exact boot_protect port _ _ _ f
      · split
        · exact boot_protect port _ _ _ f
        · rfl

/-- Sending a Lanyard frame leaves the boot state, and so the role. -/
theorem boot_lanyardOn (ports : List Nat) (dest type : Nat) (data : List Nat) : (lanyardOn ports dest type data s).boot = s.boot := by
  unfold lanyardOn
  dsimp only
  rw [forEach_view (fun s : State => s.boot) fun port _ t => ?_]
  · rfl
  · split
    · rfl
    · split
      next e => exact (congrArg (fun r => r.1.boot) e).symm.trans (boot_macTx _ _)
      next e => exact (congrArg (fun r => r.1.boot) e).symm.trans (boot_macTx _ _)

theorem boot_modPeer (w : Nat) (f : Peer → Peer) : (modPeer w f s).boot = s.boot := by
  unfold modPeer
  split
  · rfl
  · rfl

theorem boot_mailboxLost (ch : Nat) : (mailboxLost ch s).boot = s.boot := by
  unfold mailboxLost
  dsimp only
  split
  · rfl
  · exact raise_boot _ _ _ _

theorem boot_lanIn (h : LanHead) (type : Nat) : (lanIn h type s).boot = s.boot := by
  have hgap {c : Prop} [Decidable c] {t u : State} (ht : t.boot = s.boot) (hu : u.boot = s.boot) : (if c then t else u).boot = s.boot := by
    rw [apply_ite State.boot, ht, hu, ite_self]
  unfold lanIn
  split
  · rfl
  · refine hgap (hgap ?_ ?_) (boot_modPeer _ _)
    · rw [boot_mailboxLost, raise_boot]
      exact boot_modPeer _ _
    · rw [raise_boot]
      exact boot_modPeer _ _

end

/-! ### Frames that are heard, and those that act (R525 to R527) -/

section
variable {port : Nat} {h : LanHead} {type : Nat} {f : State → State} {s : State}

/-- A frame of the shelf, counted, with its FSEQ checked where its sender is the one followed. -/
def frameCounted (h : LanHead) (type : Nat) (s : State) : State := cnt (cDev 17) 1 (if lanFollowed s h = true then lanIn h type s else s)

theorem lanRole_frameCounted : lanRole (frameCounted h type s) = lanRole s := by
  refine congrArg (fun b : Boot => b.strapRole) (show (if lanFollowed s h = true then lanIn h type s else s).boot = s.boot from ?_)
  rw [apply_ite State.boot, boot_lanIn, ite_self]

theorem lanFrame_unheard (hno : lanHeard s port h = false) : lanFrame port h type f s = s := if_pos (by rw [hno]; rfl)

section
variable (hyes : lanHeard s port h = true)
include hyes

theorem lanFrame_heard : lanFrame port h type f s =
    if (lanForMe s port h && (decide (type = 1) || lanFollowed s h)) = true then f (frameCounted h type s) else frameCounted h type s :=
  if_neg (by rw [hyes]; decide)

theorem lanFrame_foreign (hme : lanForMe s port h = false) : lanFrame port h type f s = frameCounted h type s :=
  (lanFrame_heard hyes).trans (if_neg (by rw [hme]; exact Bool.false_ne_true))

theorem lanFrame_discards (htype : type ≠ 1) (hno : lanForMe s port h = false ∨ lanFollowed s h = false) :
    lanFrame port h type f s = frameCounted h type s := by
  refine (lanFrame_heard hyes).trans (if_neg ?_)
  rcases hno with hno | hno
  · rw [hno]
    exact Bool.false_ne_true
  · rw [decide_eq_false htype, hno, Bool.or_false, Bool.and_false]
    exact Bool.false_ne_true

theorem lanFrame_acts (hme : lanForMe s port h = true) (hfrom : type = 1 ∨ lanFollowed s h = true) :
    lanFrame port h type f s = f (frameCounted h type s) :=
  (lanFrame_heard hyes).trans (if_pos (by rw [hme]; rcases hfrom with hfrom | hfrom <;> simp [hfrom]))

end

theorem twoWorkers_foreign {manager : Bool} (hme : lanForMe s port h = false) : twoWorkers s port h manager = false := by
  rw [twoWorkers, hme, Bool.false_and, Bool.false_and]

theorem lanForMe_unheard (hno : lanHeard s port h = false) : lanForMe s port h = false := by
  rw [lanForMe, hno, Bool.false_and]

end

section
variable {port : PortIx} {h : LanHead} {manager : Bool} {free : Nat} {s t : State}

theorem exec_lanyardHelloRx (hone : twoWorkers s port h manager = false) (ht : lanFrame port h 1 (helloIn port h manager free) s = t) :
    exec (.lanyardHelloRx port h manager free) s = .next t := by
  subst ht
  exact if_neg (by rw [hone]; exact Bool.false_ne_true)

theorem exec_lanyardHelloRx_two (htwo : twoWorkers s port h manager = true) :
    exec (.lanyardHelloRx port h manager free) s = .fault (.undefinedUse "R525") := if_pos htwo

end

/-! ### Calls and replies (R526, R527) -/

section
variable {h : LanHead} {ws : List Word} {free : Nat} {s : State}

theorem lanCall_answers (hrole : lanRole s = 1) (hsrc : h.src = 0) : lanCall h ws s = replyOut (pushAll 17 ws s) :=
  if_pos (by rw [decide_eq_true hrole, decide_eq_true hsrc]; rfl)

theorem lanCall_none (hno : lanRole s ≠ 1 ∨ h.src ≠ 0) : lanCall h ws s = s := if_neg (by rcases hno with hno | hno <;> simp [hno])

theorem lanReply_manager (hrole : lanRole s = 2) : lanReply h free ws s = forEach (eventsIn 64 ws) (fun e s =>
    raise 901 [] [wd (h.src * 2 ^ 24 + fld (pw e 0) 9 0), wd (fld (pw e 0) 31 16), pw e 1, pw e 2] s) (modPeer h.src (fun p => { p with free := free }) s) :=
  if_neg (not_not.mpr hrole)

theorem lanReply_none (hrole : lanRole s ≠ 2) : lanReply h free ws s = s := if_pos hrole

/-! ### The registry (R526, R528) -/

section
variable {serial : BitVec 64}

theorem regQuery_none (hrole : lanRole s ≠ 2) : regQuery h serial s = s := if_pos hrole

theorem regQuery_manager {a : Option RegEntry} (hrole : lanRole s = 2) (ha : kget s.red.lan.registry serial.toNat = a) : regQuery h serial s =
    let t := cnt (cDev 18) 1 s
    match (generalizing := false) a with
    | some e => cnt (cDev 19) 1 (lanyardTo h.src 5 ([serial.toNat, 1, e.worker, e.span, e.slice, if e.check = true then 1 else 0] ++ e.reg.map (·.toNat)) t)
    | none => lanyardTo h.src 5 [serial.toNat, 0, 0, 0, 0, 0] t := by
  subst ha
  exact if_neg (not_not.mpr hrole)

/-- An answer ends what was asked for its serial number. -/
def answered (serial : BitVec 64) (s : State) : State :=
  setLan { s.red.lan with asked := s.red.lan.asked.filter fun q => q.1 ≠ serial.toNat } s

theorem regAnswer_none (hrole : lanRole s = 1) : regAnswer serial none s = answered serial s := if_neg (not_not.mpr hrole)

theorem regAnswer_found {e : RegEntry} (hrole : lanRole s = 1) : regAnswer serial (some e) s =
    let c := (s.red.lan.cache.filter fun x => x.1 ≠ serial.toNat) ++ [(serial.toNat, e)]
    forEach ((s.red.lan.asked.filter fun q => q.1 = serial.toNat).map (·.2)) (fun sp s => registryFound sp serial e s)
      (cnt (cDev 19) 1 (setLan { (answered serial s).red.lan with cache := c.drop (c.length - 16384) } (answered serial s))) :=
  if_neg (not_not.mpr hrole)

theorem regAnswer_unasked {e : Option RegEntry} (hrole : lanRole s ≠ 1) : regAnswer serial e s = s := if_pos hrole

/-- An answer is taken from the manager, by a worker. -/
theorem answerIn_none {e : Option RegEntry} (hno : lanRole s ≠ 1 ∨ h.src ≠ 0) : (if h.src = 0 then regAnswer serial e s else s) = s := by
  by_cases hsrc : h.src = 0
  · exact (if_pos hsrc).trans (regAnswer_unasked (hno.resolve_right (not_not.mpr hsrc)))
  · exact if_neg hsrc

end

end

/-! ### A HELLO (R525 to R527) -/

section
variable {port : Nat} {h : LanHead} {manager : Bool} {free : Nat} {s : State}

/-- A peer as its HELLO shows it: what was known of it stands where it is the same device. -/
def peerHeard (port : Nat) (h : LanHead) (free : Nat) (known : Option Peer) : Peer :=
  let old : Peer := match known with | some p => if p.tag = h.tag then p else ⟨h.tag, port, free, [], false, []⟩ | none => ⟨h.tag, port, free, [], false, []⟩
  { old with port := port, free := free, fseq := kset old.fseq 1 h.fseq.toNat, present := true }

/-- The shelf with a peer as its HELLO shows it. -/
def peerNoted (port : Nat) (h : LanHead) (free : Nat) (l : Lanyard) (s : State) : State :=
  setLan { l with peers := kset s.red.lan.peers h.src (peerHeard port h free (kget s.red.lan.peers h.src)) } s

/-- Whether a peer is known and present. -/
def peerHere (known : Option Peer) : Bool := match known with | some p => p.present | none => false

/-- Whether a HELLO comes from a second manager, of a higher tag than the one that is followed (R527; assumption 114). -/
def secondManager (h : LanHead) (known : Option Peer) : Bool :=
  match known with | some p => p.present && p.tag ≠ h.tag && decide (p.tag.toNat < h.tag.toNat) | none => false

theorem helloIn_eq : helloIn port h manager free s =
    let known := kget s.red.lan.peers h.src
    if lanRole s = 2 then
      if manager = true then (if h.tag.toNat = deviceTag then s else raise 898 [] [wd (h.tag.toNat / 2 ^ 32)] s)
      else if peerHere known = true then peerNoted port h free s.red.lan s
      else raise 897 [] [putb true 31 ||| wd h.src] (peerNoted port h free s.red.lan s)
    else if (!manager) = true then s
    else if secondManager h known = true then s
    else if peerHere known = true then peerNoted port h free s.red.lan s
    else raise 896 [] [1] (peerNoted port h free { s.red.lan with everPresent := true } s) := rfl

section
variable (hrole : lanRole s = 2)
include hrole

theorem helloIn_ownManager (hmg : manager = true) (htag : h.tag.toNat = deviceTag) : helloIn port h manager free s = s := by
  rw [helloIn_eq, hmg]
  exact (if_pos hrole).trans ((if_pos rfl).trans (if_pos htag))

theorem helloIn_otherManager (hmg : manager = true) (htag : h.tag.toNat ≠ deviceTag) :
    helloIn port h manager free s = raise 898 [] [wd (h.tag.toNat / 2 ^ 32)] s := by
  rw [helloIn_eq, hmg]
  exact (if_pos hrole).trans ((if_pos rfl).trans (if_neg htag))

theorem helloIn_knownWorker (hmg : manager = false) (hhere : peerHere (kget s.red.lan.peers h.src) = true) :
    helloIn port h manager free s = peerNoted port h free s.red.lan s := by
  rw [helloIn_eq, hmg]
  exact (if_pos hrole).trans ((if_neg Bool.false_ne_true).trans (if_pos hhere))

theorem helloIn_newWorker (hmg : manager = false) (hhere : peerHere (kget s.red.lan.peers h.src) = false) :
    helloIn port h manager free s = raise 897 [] [putb true 31 ||| wd h.src] (peerNoted port h free s.red.lan s) := by
  rw [helloIn_eq, hmg]
  exact (if_pos hrole).trans ((if_neg Bool.false_ne_true).trans (if_neg (Bool.eq_false_iff.mp hhere)))

end

section
variable (hrole : lanRole s ≠ 2)
include hrole

theorem helloIn_otherWorker (hmg : manager = false) : helloIn port h manager free s = s := by
  rw [helloIn_eq, hmg]
  exact (if_neg hrole).trans (if_pos rfl)

variable (hmg : manager = true)
include hmg

theorem helloIn_fromManager : helloIn port h manager free s =
    let known := kget s.red.lan.peers h.src
    if secondManager h known = true then s
    else if peerHere known = true then peerNoted port h free s.red.lan s
    else raise 896 [] [1] (peerNoted port h free { s.red.lan with everPresent := true } s) := by
  rw [helloIn_eq, hmg]
  exact (if_neg hrole).trans (if_neg Bool.false_ne_true)

theorem helloIn_secondManager (h2 : secondManager h (kget s.red.lan.peers h.src) = true) : helloIn port h manager free s = s :=
  (helloIn_fromManager hrole hmg).trans (if_pos h2)

variable (h1 : secondManager h (kget s.red.lan.peers h.src) = false)
include h1

theorem helloIn_knownManager (hhere : peerHere (kget s.red.lan.peers h.src) = true) :
    helloIn port h manager free s = peerNoted port h free s.red.lan s :=
  (helloIn_fromManager hrole hmg).trans ((if_neg (Bool.eq_false_iff.mp h1)).trans (if_pos hhere))

theorem helloIn_newManager (hhere : peerHere (kget s.red.lan.peers h.src) = false) :
    helloIn port h manager free s = raise 896 [] [1] (peerNoted port h free { s.red.lan with everPresent := true } s) :=
  (helloIn_fromManager hrole hmg).trans ((if_neg (Bool.eq_false_iff.mp h1)).trans (if_neg (Bool.eq_false_iff.mp hhere)))

end

end

/-! ### The timers (R526, R527, R529) -/

section
variable {s : State}

theorem helloTimer_none (hno : s.red.lan.configured = false ∨ (lanRole s ≠ 1 ∧ lanRole s ≠ 2)) : helloTimer s = s :=
  if_pos (by rcases hno with hno | ⟨h1, h2⟩ <;> simp [*])

/-- The state in which a device has sent its HELLO. -/
def helloSent (data : List Nat) (s : State) : State := lanyardOn (lanPorts s) 0xFF 1 data s

theorem helloTimer_sends (hconf : s.red.lan.configured = true) (hrole : lanRole s = 1 ∨ lanRole s = 2) : helloTimer s =
    let t := helloSent ([lanRole s, 0x0302] ++ if lanRole s = 1 then [inFree (chanOf s 17)] else []) s
    if (decide (lanRole t = 1) && managerHere t && decide ((chanOf t 17).outq ≠ [])) = true then replyOut t else t :=
  if_neg (by rw [hconf]; rcases hrole with h | h <;> simp [h])

theorem lanRole_helloSent {data : List Nat} : lanRole (helloSent data s) = lanRole s :=
  congrArg (fun b : Boot => b.strapRole) (boot_lanyardOn _ _ _ _)

theorem helloTimer_manager (hconf : s.red.lan.configured = true) (hrole : lanRole s = 2) : helloTimer s = helloSent [2, 0x0302] s := by
  rw [helloTimer_sends hconf (.inr hrole), hrole]
  exact if_neg (by rw [lanRole_helloSent, hrole]; exact Bool.false_ne_true)

section
variable (hconf : s.red.lan.configured = true) (hrole : lanRole s = 1) {t : State} (ht : helloSent [1, 0x0302, inFree (chanOf s 17)] s = t)
include hconf hrole ht

theorem helloTimer_worker : helloTimer s = if (managerHere t && decide ((chanOf t 17).outq ≠ [])) = true then replyOut t else t := by
  subst ht
  rw [helloTimer_sends hconf (.inl hrole), hrole]
  refine if_congr ?_ rfl rfl
  rw [if_pos rfl, lanRole_helloSent, hrole]
  exact Iff.rfl

theorem helloTimer_replies (hmg : managerHere t = true) (hout : (chanOf t 17).outq ≠ []) : helloTimer s = replyOut t :=
  (helloTimer_worker hconf hrole ht).trans (if_pos (Bool.and_eq_true_iff.mpr ⟨hmg, decide_eq_true hout⟩))

theorem helloTimer_quiet (hno : managerHere t = false ∨ (chanOf t 17).outq = []) : helloTimer s = t :=
  (helloTimer_worker hconf hrole ht).trans (if_neg (by rcases hno with hno | hno <;> simp [hno]))

end

section
variable {w : Nat}

theorem lanTimeout_absent (h : kget s.red.lan.peers w = none ∨ ∃ p, kget s.red.lan.peers w = some p ∧ p.present = false) : lanTimeout w s = s := by
  rcases h with h | ⟨p, h, hgone⟩
  · simp only [lanTimeout, h]
  · simp only [lanTimeout, h, hgone, Bool.not_false, if_true]

variable {p : Peer} (h : kget s.red.lan.peers w = some p) (hhere : p.present = true)
include h hhere

theorem lanTimeout_present : lanTimeout w s =
    if lanRole s = 2 then (if w = 0 then s else raise 897 [] [wd w] (setLan { s.red.lan with peers := kerase s.red.lan.peers w } s))
    else if w = 0 then closeSession 17 (raise 896 [] [0] (modPeer 0 (fun p => { p with present := false }) s)) else s := by
  simp only [lanTimeout, h, hhere, Bool.not_true, Bool.false_eq_true, if_false]

theorem lanTimeout_worker (hrole : lanRole s = 2) (hw : w ≠ 0) :
    lanTimeout w s = raise 897 [] [wd w] (setLan { s.red.lan with peers := kerase s.red.lan.peers w } s) :=
  (lanTimeout_present h hhere).trans ((if_pos hrole).trans (if_neg hw))

theorem lanTimeout_manager (hrole : lanRole s ≠ 2) (hw : w = 0) :
    lanTimeout w s = closeSession 17 (raise 896 [] [0] (modPeer 0 (fun p => { p with present := false }) s)) :=
  (lanTimeout_present h hhere).trans ((if_neg hrole).trans (if_pos hw))

theorem lanTimeout_other (hsame : lanRole s = 2 ↔ w = 0) : lanTimeout w s = s := by
  rw [lanTimeout_present h hhere]
  by_cases hw : w = 0
  · rw [if_pos (hsame.mpr hw), if_pos hw]
  · rw [if_neg (mt hsame.mp hw), if_neg hw]

end

/-! ### The calls that read the shelf (R532, R533) -/

/-- Whether Lanyard runs on this device. -/
def lanOn (s : State) : Prop := s.red.lan.configured = true ∧ (lanRole s = 1 ∨ lanRole s = 2)

/-- The state that `LANYARD_STATUS` reports. -/
def statusCode (s : State) : Nat :=
  if (!s.red.lan.configured || !(decide (lanRole s = 1) || decide (lanRole s = 2))) = true then 0
  else if (decide (lanRole s = 2) || managerHere s) = true then 2 else if s.red.lan.everPresent = true then 3 else 1

theorem lanyardStatus_eq {st : Nat} (hst : statusCode s = st) : lanyardStatus s =
    [wd st] ++ toWords 2 ((s.red.lan.peers.filter fun e => e.2.present && e.1 ≠ 0 && lanRole s = 2).map fun e => 2 ^ e.1).sum ++
      [wd s.red.lan.cache.length] := by
  subst hst
  rfl

theorem lanOn_iff : lanOn s ↔ ¬ (!s.red.lan.configured || !(decide (lanRole s = 1) || decide (lanRole s = 2))) = true := by
  simp only [lanOn, Bool.or_eq_true, Bool.not_eq_true', Bool.or_eq_false_iff, decide_eq_false_iff_not, not_or, Bool.not_eq_false, not_and_or, not_not]

theorem statusCode_off (h : ¬ lanOn s) : statusCode s = 0 := if_pos (not_not.mp (mt lanOn_iff.mpr h))

section
variable (hon : lanOn s)
include hon

theorem statusCode_present (h : lanRole s = 2 ∨ managerHere s = true) : statusCode s = 2 :=
  (if_neg (lanOn_iff.mp hon)).trans (if_pos (by rcases h with h | h <;> simp [h]))

theorem statusCode_absent (hrole : lanRole s = 1) (hmg : managerHere s = false) : statusCode s = if s.red.lan.everPresent = true then 3 else 1 :=
  (if_neg (lanOn_iff.mp hon)).trans (if_neg (by rw [hrole, hmg]; decide))

end

theorem lanyardRegRead_worker {ws : List Word} (hrole : lanRole s ≠ 2) : lanyardRegRead ws s = .error .badState :=
  need_bind_error (decide_eq_false hrole)

theorem lanyardRegRead_manager {ws : List Word} (hrole : lanRole s = 2) : lanyardRegRead ws s =
    .ok [match kget s.red.lan.registry (wide ws 0 2) with | some e => putb true 31 ||| put e.worker 24 ||| put e.span 16 ||| wd e.slice | none => 0] :=
  (need_bind_ok (decide_eq_true hrole)).trans rfl

end

/-! ### O56 -/

/-- Settles O56: a frame that is not for this device is counted at most, one that is acts by the role, and the timers and calls are the
lemmas of their functions. -/
theorem lanyardFramesAndCalls : Obligations.LanyardFramesAndCalls := by
  unfold Obligations.LanyardFramesAndCalls
  refine ⟨fun s port h => ⟨fun hno => ?unheard, fun hyes => ⟨?hello, ?discarded, ?helloIn, ?acts⟩, fun mg fr => ?hellos⟩,
    fun s => ⟨?helloNone, ?helloManager, ?helloWorker, fun w => ⟨?absent, fun p hp hhere => ?present⟩, ?noApportion, ?apportion⟩,
    fun rate pct us => ⟨fun hsum => ?even, fun hsum => ?byWant⟩, fun c s => ⟨fun hserved => ?status, fun hserved => ?registry⟩⟩
  case unheard =>
    have hout {type : Nat} {f : State → State} : Host.Outcome.next (φ := Fault) (ρ := Refusal) (lanFrame port h type f s) = .next s :=
      congrArg Host.Outcome.next (lanFrame_unheard hno)
    exact ⟨fun mg fr => exec_lanyardHelloRx (twoWorkers_foreign (lanForMe_unheard hno)) (lanFrame_unheard hno), fun ws => hout, fun fr ws => hout,
      fun a b sn => hout, fun sn e => hout, fun us => hout, fun bs => hout⟩
  case hello => exact fun hme mg fr => exec_lanyardHelloRx (twoWorkers_foreign hme) (lanFrame_foreign hyes hme)
  case discarded =>
    intro hno
    have hout {type : Nat} {f : State → State} (htype : type ≠ 1) :
        Host.Outcome.next (φ := Fault) (ρ := Refusal) (lanFrame port h type f s) = .next (frameCounted h type s) :=
      congrArg Host.Outcome.next (lanFrame_discards hyes htype hno)
    exact ⟨fun ws => hout (by decide), fun fr ws => hout (by decide), fun a b sn => hout (by decide), fun sn e => hout (by decide),
      fun us => hout (by decide), fun bs => hout (by decide)⟩
  case helloIn =>
    exact fun hme mg fr => ⟨exec_lanyardHelloRx_two, fun hone => exec_lanyardHelloRx hone (lanFrame_acts hyes hme (.inl rfl))⟩
  case acts =>
    intro hme hfrom
    have hact {type : Nat} {f : State → State} {t : State} (ht : f (frameCounted h type s) = t) :
        Host.Outcome.next (φ := Fault) (ρ := Refusal) (lanFrame port h type f s) = .next t :=
      congrArg Host.Outcome.next ((lanFrame_acts hyes hme (.inr hfrom)).trans ht)
    have hrole {type k : Nat} (hk : lanRole s = k) : lanRole (frameCounted h type s) = k := lanRole_frameCounted.trans hk
    have hother {type k : Nat} (hk : lanRole s ≠ k) : lanRole (frameCounted h type s) ≠ k := lanRole_frameCounted.trans_ne hk
    have hnot {type : Nat} (hno : lanRole s ≠ 1 ∨ h.src ≠ 0) : lanRole (frameCounted h type s) ≠ 1 ∨ h.src ≠ 0 := hno.imp hother id
    refine ⟨fun ws => ⟨fun h1 hsrc => hact (lanCall_answers (hrole h1) hsrc), fun hno => hact (lanCall_none (hnot hno))⟩,
      fun fr ws => ⟨fun h2 => hact (lanReply_manager (hrole h2)), fun hno => hact (lanReply_none (hother hno))⟩,
      fun a b sn => ⟨fun hno => hact (regQuery_none (hother hno)), fun h2 hnone => hact (regQuery_manager (hrole h2) hnone),
        fun e h2 hsome => hact (regQuery_manager (hrole h2) hsome)⟩,
      fun sn => ⟨fun e hno => hact (answerIn_none (hnot hno)), fun h1 hsrc => ?_, fun e h1 hsrc => ?_⟩, fun us => ⟨fun h2 => ?_, fun hno => ?_⟩,
      fun bs => ⟨fun h1 hsrc => ?_, fun hno => ?_⟩⟩
    · exact hact ((if_pos hsrc).trans (regAnswer_none (hrole h1)))
    · exact hact ((if_pos hsrc).trans (regAnswer_found (hrole h1)))
    · exact hact (if_pos (hrole h2))
    · exact hact (if_neg (hother hno))
    · exact hact (if_pos (by rw [decide_eq_true (hrole h1), decide_eq_true hsrc]; rfl))
    · exact hact (if_neg (by rcases hnot (type := 7) hno with hno | hno <;> simp [hno]))
  case hellos =>
    exact ⟨helloIn_ownManager, helloIn_otherManager, helloIn_knownWorker, helloIn_newWorker, helloIn_otherWorker, helloIn_secondManager,
      helloIn_knownManager, helloIn_newManager⟩
  case helloNone => exact fun h => congrArg Host.Outcome.next (helloTimer_none h)
  case helloManager => exact fun hconf hrole => congrArg Host.Outcome.next (helloTimer_manager hconf hrole)
  case helloWorker =>
    exact fun hconf hrole => ⟨fun hmg hout => congrArg Host.Outcome.next (helloTimer_replies hconf hrole rfl hmg hout),
      fun hno => congrArg Host.Outcome.next (helloTimer_quiet hconf hrole rfl hno)⟩
  case absent => exact fun h => congrArg Host.Outcome.next (lanTimeout_absent h)
  case present =>
    exact ⟨fun hrole hw => congrArg Host.Outcome.next (lanTimeout_worker hp hhere hrole hw),
      fun hrole hw => congrArg Host.Outcome.next (lanTimeout_manager hp hhere hrole hw),
      fun hsame => congrArg Host.Outcome.next (lanTimeout_other hp hhere hsame)⟩
  case noApportion => exact fun hrole => congrArg Host.Outcome.next (if_pos hrole)
  case apportion => exact fun hrole => congrArg Host.Outcome.next (if_neg (not_not.mpr hrole))
  case even => exact List.map_congr_left fun u _ => if_pos hsum
  case byWant => exact List.map_congr_left fun u _ => if_neg hsum
  case status =>
    have htells {st : Nat} (hst : statusCode (readCall 0x0E21 c s) = st) :=
      serveRead_done (sp := lanyardStatusSpec) hserved (fun s => .ok (lanyardStatus s)) (congrArg Except.ok (lanyardStatus_eq hst))
    exact ⟨fun hoff => htells (statusCode_off hoff), fun hon h => htells (statusCode_present hon h),
      fun hon hrole hmg => htells (statusCode_absent hon hrole hmg)⟩
  case registry =>
    exact ⟨fun hrole => serveRead_done hserved _ (lanyardRegRead_manager hrole), fun hrole => serveRead_refused hserved _ (lanyardRegRead_worker hrole)⟩

end Sys2Proof.Machine
